-- ==== Sys2Proof/Word.lean ====
section
/-! DEFINITION. Word.lean: the word types of the Z880 (chapter 00: registers of 32 and 64 bits, byte-addressed memories). -/
namespace Sys2Proof

/-- A byte of memory. -/
abbrev Byte := BitVec 8
/-- A 32-bit word. -/
abbrev W32 := BitVec 32
/-- A 64-bit word; a 32-bit register is held in the low half of one. -/
abbrev W64 := BitVec 64

end Sys2Proof
end

