-- ==== Sys2Proof/Syntax.lean ====
section
/-! DEFINITION. Syntax.lean: the commands of the block, one constructor per row of opcode_table.json, and the types of their
operands. The table gives its rows no operands; those here are what the rules of each row need: who makes an access, which
of them it concerns, the word written, and what the outside world supplies (samples, replies, results of shader programs). The kind of an
access is 0 load, 1 store, 2 fetch; `stale`: four pairs of samples disagreed (R19); `lost`: pulses that met a full slot (R21). -/
namespace Sys2Proof

/-- Who makes a register access (R248, R247): the keeper (world T), a service hart, the manager's function by physical address
(both world N), or the guest of a stall through its BAR0 slot (R218). -/
inductive Who where
  | keeper
  | hart (h : Fin 4)
  | mgr
  | stall (s : Fin 16)
  deriving DecidableEq, Repr

/-- What an island counted in one millisecond (R451): energy in µJ, the activity of stalls 0 to 15, and the island's total
activity, attributed or not. (DESIGN CHOICE, log entry 17) -/
structure IslandEnergy where
  isl : Fin 31
  energy : Nat
  acts : List Nat
  total : Nat
  deriving DecidableEq, Repr

/-- A texture lookup (R175): through entry `entry` of the resource table of draw record `draw` (or of the dispatch), at a layer and a level, of
the texels its filter reads; `again`: the texture cache no longer holds the residency bits it needs, and reads them again (R177). -/
structure TexLook where
  draw : Nat
  entry : Nat
  layer : Nat
  level : Nat
  px : List (Nat × Nat)
  again : Bool
  deriving DecidableEq, Repr

/-- One access that the programs of a unit of the raster engine make (R152, R153): a read or write of stall address space, a texture lookup, or an
instruction that the cluster rejects (R152). -/
inductive GpuAcc where
  | read (sa n : Nat)
  | write (sa : Nat) (bytes : List Byte)
  | tex (look : TexLook)
  | reject
  deriving DecidableEq, Repr

/-- What a core executes of the world extension (R249, R250): an instruction word, or an access to a CSR, a read or a write. (DESIGN CHOICE, log entry 101) -/
inductive WorldOp where
  | word (w : W32)
  | csr (n : BitVec 12) (write : Option W64)
  deriving DecidableEq, Repr

/-- What a configuration request asks of a function (R203): the SR-IOV capability's TotalVFs, First VF Offset and VF Stride; a base address register as it reads
after all ones were written to it; the MSI-X capability's table size, places of table and pending bits, control; or it writes the
control: Enable and Function Mask. (DESIGN CHOICE, log entry 98) -/
inductive CfgReq where
  | totalVfs | firstVf | vfStride
  | bar (k : Fin 6)
  | msixSize | msixTable | msixPba | msixControl
  | setMsix (on mask : Bool)
  deriving DecidableEq, Repr

/-- What a unit of the raster engine did (R182, R180): its cluster time in ns, cluster cycles, fragments shaded, cycles waiting at
the interlock, and its accesses in order. (DESIGN CHOICE, log entries 4, 26) -/
structure UnitRun where
  ns : Nat
  cycles : Nat
  frags : Nat
  ilkWait : Nat
  accs : List GpuAcc
  deriving DecidableEq, Repr

/-- The time of a unit cut short: ns and cluster cycles. -/
structure UnitTime where
  ns : Nat
  cycles : Nat
  deriving DecidableEq, Repr

/-- An assembled primitive after transformation (R160): the tiles it touches, and the bytes of its vertex data in the varying buffer. (DESIGN CHOICE, log entry 4) -/
structure BinPrim where
  tiles : List Nat
  bytes : Nat
  deriving DecidableEq, Repr

/-- What the pipeline object of a draw, which the engine treats as opaque (R152), makes its fragments do: its program writes depth or stencil inside its
interlock section (R168); colours are blended (R164); depth and stencil are tested. (DESIGN CHOICE, log entry 94) -/
structure DrawProg where
  dsInSection : Bool
  blend : Bool
  dsTest : Bool
  deriving DecidableEq, Repr

/-- One access of an interlock section to tile memory (R166): attachment by order in the pass, sample; values as binary32, a stencil value as it is. -/
inductive SecOp where
  | read (att sample : Nat)
  | write (att sample : Nat) (v : List Nat)
  deriving DecidableEq, Repr

/-- A fragment of a tile and what its program does (R156, R166, R168): its draw record, instance and primitive; pixel position 0 to 1023; the samples it
covers; their depths as binary32; the accesses of its interlock section, in order; whether it tries to enter a second section; whether it
is discarded; its results by attachment, as binary32. (DESIGN CHOICE, log entry 4) -/
structure TileFrag where
  draw : Nat
  inst : Nat
  prim : Nat
  px : Fin 1024
  cover : BitVec 4
  depth : List Nat
  sec : List SecOp
  second : Bool
  discard : Bool
  outs : List (Nat × List Nat)
  deriving DecidableEq, Repr

/-- How a read of a LINK word was served (R229): memory is read as it stands when the data return; or another word was there when the
read was served, as it also is for a word in host memory; or an error response. (DESIGN CHOICE, log entry 4; DEDUCED, log entry 40) -/
inductive Served where
  | now
  | word (w : W64)
  | error
  deriving DecidableEq, Repr

/-- Where a request to the memory controllers comes from (R289): layer fetch of a pipe; other foreground work; background work. -/
inductive MemSrc where
  | fetch (p : Fin 8)
  | fore
  | back
  deriving DecidableEq, Repr

/-- The sweeps of one byte lane (R282): for each of the 8 reference-voltage settings the taps 0 to 127 that pass, as bits. (DESIGN CHOICE, log entry 4) -/
structure LaneSweep where
  rd : List (BitVec 128)
  wr : List (BitVec 128)
  deriving DecidableEq, Repr

/-- A lane's runs as a tracking step measures them (R285): first and last passing tap, read and write. -/
structure LaneRun where
  rd : Fin 128 × Fin 128
  wr : Fin 128 × Fin 128
  deriving DecidableEq, Repr

/-- How a Smiser request comes (R376, R382 to R385): over CAN0, CAN1 or UDP, with the IPv6 addresses of the datagram, through the mailbox of a
stall, or from the keeper itself. (DESIGN CHOICE, log entry 58) -/
inductive SmVia where
  | can (bus : Fin 2)
  | udp (src dst : BitVec 128)
  | mailbox (st : Fin 16)
  | keeper
  deriving DecidableEq, Repr

/-- A Smiser message as it arrives (R377, R382, R384): its way; the identifier of a CAN frame; whether it is a CAN FD frame with a 29-bit
identifier, or a datagram that is whole and has both ports 48620; the data field of the frame, the content of the datagram with its prefix, or
the keeper's message; its time in µs since the release of reset. Of a mailbox message the device reads all but the time out of the mailbox. (DESIGN CHOICE, log entry 4) -/
structure SmMsg where
  via : SmVia
  id : BitVec 29
  framed : Bool
  bytes : List Byte
  t : Nat
  deriving DecidableEq, Repr

/-- The commands: register writes with a row of their own, and events of pins, engines and timers. (DESIGN CHOICE, log entry 4) -/
inductive Instr where
  /-- REGISTER_WRITE (R7): A write to a register that has no row of its own takes effect under its change class, or is refused or discarded as the register's rules state. -/
  | registerWrite (who : Who) (a : BitVec 36) (w64 : Bool) (w : W64) (t : Nat)
  /-- UNASSIGNED_ACCESS (R4): An access to an unassigned block, address or offset returns zeros with an error or is discarded, and it freezes the initiator. -/
  | unassignedAccess (who : Who) (a : BitVec 36) (kind : Fin 3)
  /-- READ_ONLY_MEMORY_ACCESS (R489): A write to the boot ROM or the eNVM window, or a read of the eNVM window that is not allowed, is an access violation with its own record codes. -/
  | readOnlyMemoryAccess (who : Who) (a : BitVec 36) (kind : Fin 3)
  /-- XCLR (R22): A write to XCLR clears OVERRUN and the lost-pulse count of each selected toggle crossing. -/
  | xclr (who : Who) (blk : BitVec 8) (w : W32) (lost : BitVec 31)
  /-- CLR_REFUSED (R24): Writing XCNT_CLR.CLR_REFUSED clears the live XREFUSED counter and its SAT. -/
  | clrRefused (who : Who) (blk : BitVec 8)
  /-- CLR_STALE (R24): Writing XCNT_CLR.CLR_STALE clears the live XSTALE counter and its SAT. -/
  | clrStale (who : Who) (blk : BitVec 8)
  /-- SOFTWARE_TALLY (R32): Writing TALLY_CTRL.START requests a software tally, which is refused and counted when TEL is busy. -/
  | softwareTally (who : Who)
  /-- ARM (R33): Writing TALLY_CTRL.ARM arms a frame tally, or disarms it when 0 is written. -/
  | arm (who : Who) (arm : Bool) (pipe : Fin 8)
  /-- PERIODIC_EN (R32): Changing PERIODIC_EN starts the period timer with its first expiry PERIOD_MS later, or stops it. -/
  | periodicEn (who : Who) (en : Bool)
  /-- PERIOD_MS (R32): An accepted write of TALLY_PERIOD.PERIOD_MS restarts a running period timer from the write. -/
  | periodMs (who : Who) (w : W32)
  /-- PERIODIC_TIMER_EXPIRY (R32): The tally period timer expires and requests a periodic tally, which is skipped if TEL is busy. -/
  | periodicTimerExpiry
  /-- TALLY_LAUNCH (R28): At a 48 MHz edge after a request, the epoch increments, the strobe launches and every participating unit captures its counters into its shadows. -/
  | tallyLaunch (t : Nat)
  /-- TALLY_ACKNOWLEDGE (R30): An island's acknowledgement of the strobe arrives, and BUSY clears when the last participating island has acknowledged. -/
  | tallyAcknowledge (isl : Fin 31)
  /-- TALLY_TIMEOUT (R31): An island does not acknowledge within 2 µs, and the tally completes with PARTIAL set and that island absent from TALLY_PART. -/
  | tallyTimeout
  /-- ENERGY_BILLING (R451): Every 1 ms of the always-on clock, each island divides its counted energy among the stalls by their attributed activity. -/
  | energyBilling (es : List IslandEnergy)
  /-- PIPE_START (R47): Writing PCTRL.START in STOPPED checks timing and bandwidth and moves the pipe to TRAINING, or refuses with REJECT. -/
  | pipeStart (who : Who) (p : Fin 8) (t : Nat)
  /-- PIPE_STOP (R46): Writing PCTRL.STOP stops the pipe at the next frame boundary if it is RUNNING or BLANKED, and at once otherwise. -/
  | pipeStop (who : Who) (p : Fin 8)
  /-- STOPPED_REACHED (R46): After at least 10 µs of idle pattern, the lanes power down, the timing generator halts and the pipe is STOPPED. -/
  | stoppedReached (p : Fin 8)
  /-- AUTO_RECOVER (R47): A write of PCTRL.AUTO_RECOVER starts a retry out of FAULT at once if its condition already holds, or prevents retries that have not begun. -/
  | autoRecover (who : Who) (p : Fin 8) (en : Bool)
  /-- TIMING_CHANGE_GO (R54): Writing TNX_CTRL.GO requests a live timing change, which is checked and then taken at a latch point. -/
  | timingChangeGo (who : Who) (p : Fin 8) (w : W32)
  /-- LAST_OLD_FRAME_END (R54): At the end of the last old frame, the idle pattern starts, TMG takes the TNX values, the synthesiser retunes and any new link training begins. -/
  | lastOldFrameEnd (p : Fin 8) (t : Nat)
  /-- SYNTHESISER_SETTLED (R41): The pixel-clock synthesiser settles, and with the link ready the black first frame of the new timing begins. -/
  | synthesiserSettled (p : Fin 8) (t : Nat)
  /-- PCLK_UNLOCK (R47): The synthesiser stays out of lock for more than 1 µs and the pipe enters FAULT with PCLK_UNLOCK. -/
  | pclkUnlock (p : Fin 8) (t : Nat)
  /-- HPD_FALL (R51): HPD goes low and the transmitter starts timing the low pulse. -/
  | hpdFall (p : Fin 8)
  /-- HPD_RISE (R51): HPD returns high, and the low pulse is ignored, taken as IRQ_HPD, or ends an unplug. -/
  | hpdRise (p : Fin 8) (us : Nat)
  /-- HPD_UNPLUG (R51): HPD has been low for more than 2 ms, so the pipe enters FAULT with HPD_LOST. -/
  | hpdUnplug (p : Fin 8) (t : Nat)
  /-- HPD_STABLE (R48): HPD has been high for 100 ms, so a waiting bring-up or recovery proceeds to training. -/
  | hpdStable (p : Fin 8)
  /-- LINK_TRAINED (R48): Link training completes and the stream starts at the next line boundary, with the pipe BLANKED. -/
  | linkTrained (p : Fin 8) (t : Nat) (sinkRate : Fin 4) (sinkLanes : Fin 3) (tps : Fin 4) (levels : BitVec 16)
  /-- TRAINING_FAILED (R49): Training fails at a setting, so fallback tries the next setting or the pipe enters FAULT. -/
  | trainingFailed (p : Fin 8) (t : Nat) (sinkRate : Fin 4) (sinkLanes : Fin 3)
  /-- TRAIN_TIMEOUT (R49): The bring-up exceeds TRAIN_CFG.LIMIT_MS and the pipe enters FAULT with TRAIN_TIMEOUT. -/
  | trainTimeout (p : Fin 8) (t : Nat)
  /-- FAULT_RETRY (R47): 1,000 ms after entry to FAULT with AUTO_RECOVER set, the pipe retries training. -/
  | faultRetry (p : Fin 8)
  /-- LANE_STATUS_READ (R51): A DPCD lane-status read completes, and a lane that has lost lock sets LINK_LOSS and starts a sink-caused retrain. -/
  | laneStatusRead (p : Fin 8) (lost : Bool)
  /-- AUX_GO (R52): Writing AUX_CMD.GO issues a software AUX transaction, or waits while the transmitter uses AUX. -/
  | auxGo (who : Who) (p : Fin 8) (w : W32)
  /-- AUX_REPLY (R52): An AUX reply arrives, and the transaction completes or a DEFER is retried. -/
  | auxReply (p : Fin 8) (code : Fin 3) (n : Nat) (data : List Byte)
  /-- AUX_REPLY_TIMEOUT (R52): No AUX reply arrives within 500 µs, so the request is retried or completes with TIMEOUT. -/
  | auxReplyTimeout (p : Fin 8)
  /-- SYNC_SRC_WRITE (R43): A write to SYNC_SRC is checked for loops and ranges and takes effect at the next frame boundary. -/
  | syncSrcWrite (who : Who) (p : Fin 8) (w : W32)
  /-- REALIGN (R61): Writing SYNC_CTRL.REALIGN requests one black alignment frame at the next frame boundary. -/
  | realign (who : Who) (p : Fin 8)
  /-- REFERENCE_EDGE (R442): A reference edge arrives and is accepted for trim and phase, or is marked OUT_OF_RANGE and becomes the new base. -/
  | referenceEdge (n : Fin 4) (rising short : Bool) (t : Nat)
  /-- MISSING_FRAME (R60): A reference window closes with no accepted edge, which sets HOLDOVER, advances MISSED and at the eighth sets SYNC_LOST. -/
  | missingFrame (p : Fin 8)
  /-- SYNC_OUT_PULSE_END (R64): WIDTH_US after a frame boundary, a SYNC_OUT pin in PIPE mode deasserts. -/
  | syncOutPulseEnd (o : Fin 2)
  /-- FRAME_BOUNDARY (R38): At each frame boundary the frame count increments, state and blank changes apply, and SYNC_OUT asserts. -/
  | frameBoundary (p : Fin 8) (t : Nat) (overflow : Bool) (lost : BitVec 16)
  /-- LINE_START (R191): At each line start the pipe publishes TTL, composes the line and handles underruns and writeback. -/
  | lineStart (p : Fin 8) (overflow : Bool) (lost : BitVec 8)
  /-- LATCH_POINT (R105): At the latch point the pipe evaluates fences and takes, refuses or keeps pending its commit groups. -/
  | latchPoint (p : Fin 8)
  /-- VERTICAL_BLANKING_START (R103): At the start of vertical blanking, CSTAT and PCSTAT update and the release fences of replaced buffers are signalled. -/
  | verticalBlankingStart (p : Fin 8) (lost : BitVec 8)
  /-- LUT_WINDOW_WRITE (R83): A write to a LUT window is accepted unless its bank is in use and the pipe is not STOPPED. -/
  | lutWindowWrite (who : Who) (p : Fin 8) (win : Fin 4) (k : Fin 1024) (w : W32)
  /-- FETCH_SPAN_COMPLETE (R77): A layer fetch span completes into the fetch FIFO, or ends with an error that makes its pixels transparent. -/
  | fetchSpanComplete (p m : Fin 8) (line k : Nat) (error : Bool)
  /-- WRITEBACK_FRAME_DONE (R92): The last write of a writeback frame completes, so WB_DONE advances and the writeback-done interrupt is raised. -/
  | writebackFrameDone (p : Fin 8)
  /-- AWNING_LINE_FETCHED (R137): An awning line fetch completes and is checked against its table entry, and a failure switches the copy. -/
  | awningLineFetched (p : Fin 8) (y : Nat)
  /-- AWNING_FAULT_MASKED (R138): A single fault in the awning path is corrected or out-voted, and AFMASKED advances. -/
  | awningFaultMasked (p : Fin 8) (y : Nat)
  /-- AFCLR (R141): Writing AFCLR clears the selected BAD flags of the awning copies. -/
  | afclr (who : Who) (p : Fin 8) (w : W32)
  /-- LAYER_COMMIT (R99): Writing COMMIT.COMMIT marks a layer group pending, or routes it to the keeper as a held commit. -/
  | layerCommit (who : Who) (p m : Fin 8)
  /-- LAYER_CANCEL (R109): Writing COMMIT.CANCEL drops the layer's pending commit. -/
  | layerCancel (who : Who) (p m : Fin 8)
  /-- PIPE_COMMIT (R98): Writing PCOMMIT.PIPE commits the pipe group. -/
  | pipeCommit (who : Who) (p : Fin 8)
  /-- LOCKSTEP_REQUEST (R111): Writing PCOMMIT.LOCK sets LOCK_PEND for a lockstep request. -/
  | lockstepRequest (who : Who) (p : Fin 8)
  /-- CANCEL_PIPE (R109): Writing PCOMMIT.CANCEL_PIPE cancels the pending pipe commit. -/
  | cancelPipe (who : Who) (p : Fin 8)
  /-- CANCEL_LOCK (R109): Writing PCOMMIT.CANCEL_LOCK cancels the pending lockstep request. -/
  | cancelLock (who : Who) (p : Fin 8)
  /-- AWNING_COMMIT (R112): Writing ACOMMIT.COMMIT commits the awning group for its own latch point. -/
  | awningCommit (who : Who) (p : Fin 8)
  /-- AWNING_CANCEL (R109): Writing ACOMMIT.CANCEL cancels the pending awning commit. -/
  | awningCancel (who : Who) (p : Fin 8)
  /-- KREL_RELEASE (R114): A KREL RELEASE bit makes the layer's held commit arrive at the pipe. -/
  | krelRelease (who : Who) (p : Fin 8) (layers : BitVec 8)
  /-- KREL_REJECT (R114): A KREL REJECT bit drops the held commit with REJECTED and signals its release fence. -/
  | krelReject (who : Who) (p : Fin 8) (layers : BitVec 8)
  /-- FVAL_WRITE (R120): A write to FVAL replaces a fence value. -/
  | fvalWrite (who : Who) (st : Fin 16) (f : Fin 64) (w : W32)
  /-- FADD (R120): A write of n to FADD adds n to the fence value modulo 2^32. -/
  | fadd (who : Who) (st : Fin 16) (f : Fin 64) (n : W32)
  /-- PCFG_WRITE (R124): A write of a pitch PCFG is checked against the named stall's seal and immediately moves slot ownership. -/
  | pcfgWrite (who : Who) (p : Fin 8) (k : Fin 16) (w : W32)
  /-- PITCH_COMMIT (R125): A PITCH_CTRL.COMMIT bit commits a pitch group. -/
  | pitchCommit (who : Who) (p : Fin 8) (ks : BitVec 16)
  /-- PITCH_CLEAR (R132): A PITCH_CTRL.CLR bit clears a pitch's fault flags and ends its response at the next frame boundary. -/
  | pitchClear (who : Who) (p : Fin 8) (ks : BitVec 16)
  /-- EXP_CTL (R127): A write of EXP_CTL or PEXP_CTL moves the staged expected value and alive counter into the pending pair. -/
  | expCtl (who : Who) (p : Fin 8) (k : Fin 16) (alive : BitVec 4)
  /-- PITCH_COMPARE (R128): When the pitch's last pixel pair passes dither, the pitch reaches its result, checks its alive counter and raises faults. -/
  | pitchCompare (p : Fin 8) (k : Fin 16)
  /-- LEDGER_APPEND (R142): A ledger entry is appended to the ring and hashed into the chain head, or is dropped while the ring is FULL. -/
  | ledgerAppend
  /-- LEDGER_INIT (R144): Writing LG_CTRL.INIT while EN = 0 starts a new chain with a random CHAIN_ID and appends INIT. -/
  | ledgerInit (who : Who) (en : Bool) (rnd : BitVec 128)
  /-- LEDGER_ENABLE (R144): Setting LG_CTRL.EN enables the ledger and restores a saved ledger or appends a pending GAP. -/
  | ledgerEnable (who : Who) (en fullBlank : Bool)
  /-- SEAL (R145): Writing LG_CTRL.SEAL requests a seal of the chain head. -/
  | sealLedger (who : Who)
  /-- SEAL_PERIOD_WRITE (R145): A write of SEAL_PERIOD_S restarts the seal period, or stops it when 0 is written. -/
  | sealPeriodWrite (who : Who) (w : W32)
  /-- SEAL_PERIOD_EXPIRY (R145): The seal period expires and a seal is made if a chain exists. -/
  | sealPeriodExpiry
  /-- SEAL_COMPLETE (R145): The ECDSA signature completes, the reserved seal slots are filled and LG_HEAD updates. -/
  | sealComplete
  /-- LG_ACK_WRITE (R146): A write of LG_ACK frees exported slots if it lies in range, and a GAP is appended when FULL clears. -/
  | lgAckWrite (who : Who) (w : W32)
  /-- LG_CFG_WRITE (R146): A write of LG_CFG while EN = 0 places a new ring and abandons the unexported slots. -/
  | lgCfgWrite (who : Who) (w : W32)
  /-- LEDGER_SUBMIT (R149): Writing LSUB_CTRL.GO submits a SUBMIT entry from a sealed stall. -/
  | ledgerSubmit (st : Fin 16) (w : W32)
  /-- RASTER_RUN (R179): Writing RCTRL.RUN moves the raster engine out of STOPPED. -/
  | rasterRun (who : Who)
  /-- RASTER_STOP (R178): Writing RCTRL.STOP stops the admission of work, and the engine stays STOPPING until its last item ends. -/
  | rasterStop (who : Who)
  /-- PASS_FLOOR_RESERVED (R159): A waiting render pass reserves its tile-list floor and starts binning. -/
  | passFloorReserved
  /-- DRAW_BINNED (R181): The binning of one draw record ends at a draw boundary or at an overflow. -/
  | drawBinned (slot : Fin 2) (prog : DrawProg) (prims : List BinPrim) (run : UnitRun)
  /-- RENDER_TILE_DONE (R181): A render tile's stores complete, its cluster is released and the next unit is chosen. -/
  | renderTileDone (cl : Fin 12) (frags : List TileFrag) (run : UnitRun)
  /-- COMPUTE_TILE_DONE (R181): A compute tile completes and its cluster goes to the next unit. -/
  | computeTileDone (cl : Fin 12) (run : UnitRun)
  /-- COMPUTE_TILE_KILL (R197): A compute tile that has held its cluster for 2,000 µs is killed with its whole dispatch. -/
  | computeTileKill (cl : Fin 12) (times : List UnitTime)
  /-- TILE_MEMORY_ERROR (R178): A tile memory error is corrected in place, or when uncorrectable it ends the pass with TM_UNCORR. -/
  | tileMemoryError (cl : Fin 12) (uncorrectable : Bool) (time : UnitTime)
  /-- WORK_ITEM_END (R226): A queue item ends, so COMPL is written, the fence is signalled, QDONE advances and the interrupt is set. -/
  | workItemEnd (q : Fin 64)
  /-- SCHEDULER_EPOCH (R185): At each 1,000 µs epoch boundary, stall credits are renewed and SHARE, HARD and ADMIT_MAX writes take effect. -/
  | schedulerEpoch
  /-- DEADLINE_WINDOW_OPEN (R192): A pipe's deadline window opens at the raster front end, so the items of its queues become urgent. -/
  | deadlineWindowOpen (p : Fin 8)
  /-- LATCH_EVENT (R195): The latch event reaches the raster front end, which closes the window and advances GDLMISS for incomplete urgent items. -/
  | latchEvent (p : Fin 8)
  /-- LONG_UNIT (R194): A render tile or draw-binning unit holds its resource for more than 1,000 µs, and GS_LONG advances. -/
  | longUnit (res : Fin 14)
  /-- CREATE (R208): Writing SCTRL.CREATE validates a FREE stall's grant and moves it to RESET, or records CREATE_ERR. -/
  | create (who : Who) (st : Fin 16)
  /-- STALL_START (R211): Writing SCTRL.START moves a stall from RESET to ACTIVE. -/
  | stallStart (who : Who) (st : Fin 16)
  /-- STALL_RESET (R238): Writing SCTRL.RESET moves the stall to DRAINING, stops admission and drops its pending commits. -/
  | stallReset (who : Who) (st : Fin 16)
  /-- DESTROY (R217): Writing SCTRL.DESTROY marks all the stall's memory CLEARING and starts clearing it. -/
  | destroy (who : Who) (st : Fin 16)
  /-- THAW (R237): Writing SCTRL.THAW resumes the frozen masters of a stall whose record has been read. -/
  | thaw (who : Who) (st : Fin 16)
  /-- FUNCTION_LEVEL_RESET (R211): An FLR of the bound function drains the stall with CAUSE 0x1 and restarts it after RESET_DONE. -/
  | functionLevelReset (ep : Fin 2) (fn : Fin 16)
  /-- VF_ENABLE_CLEARED (R242): Clearing VF Enable drains and squashes the stalls bound to the VFs. -/
  | vfEnableCleared (ep : Fin 2)
  /-- BUS_MASTER_ENABLE_CLEARED (R242): Clearing Bus Master Enable drains and squashes the bound stall. -/
  | busMasterEnableCleared (ep : Fin 2) (fn : Fin 16)
  /-- DRAIN_LIMIT (R239): DRAIN_US after entry to DRAINING, or when nothing remains, the stall's remaining work is squashed. -/
  | drainLimit (st : Fin 16) (times : List UnitTime)
  /-- RESET_DONE (R241): When no item of the stall remains, fences and queues are reset and the stall enters RESET. -/
  | resetDone (st : Fin 16)
  /-- CLEARING_DONE (R217): When the last page or grain of a destroyed stall is cleared, the stall becomes FREE and its grants return to the pool. -/
  | clearingDone (st : Fin 17)
  /-- HOST_BAR_ACCESS (R206): A host access through BAR0 or BAR2 of a function is served for its stall and checked by the stall gate. -/
  | hostBarAccess (ep : Fin 2) (fn : Fin 16) (bar2 : Bool) (off : BitVec 36) (write : Bool) (n : Nat) (b : List Byte) (t : Nat)
      (stale : Bool)
  /-- TINV (R215): Writing TINV invalidates cached translations of a stall. -/
  | tinv (who : Who) (all : Bool) (st : Fin 16) (sa : BitVec 20)
  /-- TINV_DONE (R215): Every access that began translation before the TINV has completed, and TINV_STAT.BUSY clears. -/
  | tinvDone
  /-- OWNER_TABLE_WRITE (R216): A manager write of owner-table entries is accepted or refused byte by byte. -/
  | ownerTableWrite (who : Who) (sram : Bool) (k : Fin 4096) (w : W32)
  /-- SCFG_WRITE (R209): A write of SCFG sets the binding and, from world T in FREE or RESET, the SEALED bit. -/
  | scfgWrite (who : Who) (st : Fin 16) (w : W32)
  /-- IMASK_WRITE (R220): A write of IMASK that enables a pending source sends its MSI-X message. -/
  | imaskWrite (st : Fin 16) (k : Fin 3) (w : W32)
  /-- MAILBOX_GO (R223): Writing MB_CTRL.GO sends a mailbox request to the service firmware. -/
  | mailboxGo (st : Fin 16) (len : BitVec 11)
  /-- MAILBOX_RESPONSE (R223): The mailbox response is ready, so RSP_READY is set and source 89 fires. -/
  | mailboxResponse (st : Fin 16) (bytes : List Byte)
  /-- DOORBELL (R228): A write of QDB advances QTAIL in RING mode, or requests a LINK re-read in CHAIN mode. -/
  | doorbell (st : Fin 16) (q : Fin 64) (w : W32)
  /-- QUEUE_DISABLE (R232): Writing QCFG.EN = 0 stops admission and puts the queue into STOPPING. -/
  | queueDisable (who : Who) (q : Fin 64)
  /-- QUEUE_DISABLE_LIMIT (R232): DRAIN_US after a disable, the queue's remaining admitted items are squashed. -/
  | queueDisableLimit (q : Fin 64) (times : List UnitTime)
  /-- QUEUE_ENABLE (R232): Writing QCFG.EN = 1 in STOPPED resumes the queue from QHEAD or QPOS. -/
  | queueEnable (who : Who) (q : Fin 64)
  /-- QBASE_WRITE (R232): A write of QBASE in STOPPED resets QHEAD, QTAIL and QDONE and sets QPOS. -/
  | qbaseWrite (who : Who) (q : Fin 64) (high : Bool) (w : W32)
  /-- DESCRIPTOR_FETCHED (R225): A queue descriptor is fetched and admitted within the admission limit. -/
  | descriptorFetched (st : Fin 16) (host : Option (List Byte))
  /-- LINK_WORD_READ (R229): A CHAIN-mode LINK read returns, and the engine follows the link, parks, or reads again if DB_SEEN is set. -/
  | linkWordRead (q : Fin 64) (served : Served)
  /-- ITEM_START (R225): An admitted item starts once its wait fence is reached and the previous item has completed. -/
  | itemStart (q : Fin 64)
  /-- WCALL (R251): A WCALL posts the call to the hart's call slot and waits for DONE, or returns NO_FUNC or DENIED at once. -/
  | wcall (core : Option (Fin 4)) (prv : Fin 4) (op : WorldOp) (a7 : W64) (args : List W64)
  /-- WC_RSP (R252): A keeper write of WC_RSP completes the pending call and retires the WCALL. -/
  | wcRsp (who : Who) (h : Fin 4) (status : BitVec 8)
  /-- WC_LIMIT_EXPIRY (R253): No response has arrived within WC_LIMIT_US, so the call completes with TIMEOUT. -/
  | wcLimitExpiry (h : Fin 4)
  /-- VERSION (R254): World-call function VERSION returns the Zhotor version, SVN and MEAS_EPOCH. -/
  | version (h : Fin 4)
  /-- MEAS_EXTEND (R254): World-call function MEAS_EXTEND extends MR4 to MR7 with a digest. -/
  | measExtend (h : Fin 4)
  /-- ATTEST (R254): World-call function ATTEST writes a signed attestation report for a nonce. -/
  | attest (h : Fin 4)
  /-- SEAL_STALL (R254): World-call function SEAL_STALL sets SCFG.SEALED of an allowed FREE or RESET stall. -/
  | sealStall (h : Fin 4)
  /-- UNSEAL_STALL (R254): World-call function UNSEAL_STALL clears the seal of a stall that no enabled pitch names. -/
  | unsealStall (h : Fin 4)
  /-- PITCH_CFG (R254): World-call function PITCH_CFG writes and commits a pitch configuration if policy admits it. -/
  | pitchCfg (h : Fin 4) (allowed : Bool)
  /-- PITCH_CLR (R254): World-call function PITCH_CLR writes PITCH_CTRL.CLR for the given pitches. -/
  | pitchClr (h : Fin 4)
  /-- CLK_SET (R254): World-call function CLK_SET sets the clock of a trusted-owned island if policy admits it. -/
  | clkSet (h : Fin 4) (allowed : Bool)
  /-- READY (R254): World-call function READY moves the device from SERVICE_UP to OPERATIONAL or DEGRADED. -/
  | ready (h : Fin 4) (t : Nat)
  /-- KICK (R273): Writing KCTRL.KICK restarts the keeper watchdog period. -/
  | kick (who : Who)
  /-- RESTART (R274): Writing KCTRL.RESTART starts a keeper restart with cause SELF. -/
  | restart (who : Who) (t : Nat)
  /-- WM_LOCK (R256): Writing KCTRL.WM_LOCK locks the WORLD_MAP, or is refused and halts the boot if the Zhotor grains are not trusted. -/
  | wmLock (who : Who)
  /-- UP (R274): Writing KCTRL.UP sets the keeper UP so that calls are served again. -/
  | up (who : Who)
  /-- KEEPER_WATCHDOG_EXPIRY (R273): No KICK for KWD_MS starts a keeper restart that resets the keeper island alone. -/
  | keeperWatchdogExpiry (t : Nat)
  /-- LOCKSTEP_MISMATCH (R247): The lockstep comparator mismatches and starts a keeper restart with cause LOCKSTEP. -/
  | lockstepMismatch (t : Nat)
  /-- SVC_RUN (R267): Writing SVC_CTRL.RUN releases service harts, enters SERVICE_UP and locks the class-B settings. -/
  | svcRun (who : Who) (run : BitVec 4)
  /-- SVC_THAW (R261): An SVC_THAW bit thaws a frozen hart whose record has been read, and the hart takes an access fault. -/
  | svcThaw (who : Who) (harts : BitVec 4)
  /-- KEVT_READ (R262): A read of KEVT returns the oldest keeper event and removes it from the queue. -/
  | kevtRead (who : Who) (part : Fin 3)
  /-- RECOV_GO (R269): A write of RECOV_GO makes the boot ROM check the recovery image and proceed from boot step 4. -/
  | recovGo (go : Bool)
  /-- RECOVERY_TIMEOUT (R269): No RECOV_GO arrives within 60 s of link-up, so the device halts with 0x13. -/
  | recoveryTimeout
  /-- TRAIN (R282): Writing MC_CTRL.TRAIN while a channel is OFF trains that channel. -/
  | train (who : Who) (ch : Fin 4)
  /-- CHANNEL_TRAINED (R283): Channel training completes, and the channel enters RUNNING or FENCED. -/
  | channelTrained (ch : Fin 4) (density : Fin 4) (levelled rfm : Bool) (lanes : List LaneSweep)
  /-- RETRAIN (R287): Writing MC_CTRL.RETRAIN while a channel is RUNNING starts a full retrain. -/
  | retrain (who : Who) (ch : Fin 4)
  /-- RETRAIN_DONE (R288): A retrain ends, so the channel returns to RUNNING or is fenced with the stalls drained. -/
  | retrainDone (ch : Fin 4) (levelled : Bool) (lanes : List LaneSweep)
  /-- BUILD (R284): Writing MAP_CTRL.BUILD builds the address map over the running channels, or halts with fewer than 2. -/
  | build (who : Who)
  /-- DRIFT_STEP (R285): Every PERIOD_MS a tracking step re-centres each lane's delay inside refreshes. -/
  | driftStep (ch : Fin 4) (late : Bool) (runs : List LaneRun) (ref0 ref1 : Fin 17)
  /-- TREFI (R293): At each tREFI the subchannel's refresh debt increases by 1. -/
  | trefi (ch : Fin 4) (sc : Fin 2)
  /-- COMMAND_SELECT (R290): A subchannel chooses its next command: a refresh, the next access of a burst, or a new activation. -/
  | commandSelect (ch : Fin 4) (sc : Fin 2) (pb : Option (Fin 16)) (idle : Bool) (upsets : List (BitVec 36 × Bool))
  /-- ACTIVATION_TABLE_CLEAR (R295): Every 32 ms the row activation tables are cleared. -/
  | activationTableClear (ch : Fin 4)
  /-- MEMORY_REQUEST (R289): A request enters a subchannel's read or write queue with its class. -/
  | memoryRequest (off : BitVec 35) (src : MemSrc) (write : Bool) (pos : Fin 64) (bytes : List Byte)
  /-- AGE_PROMOTION (R289): A class-1 request that has waited AGE_US moves to class 2. -/
  | agePromotion (ch : Fin 4) (sc : Fin 2) (write : Bool) (k : Fin 64)
  /-- PANIC_FLAG_CHANGE (R292): A change of the pipes' PANIC vector reaches a controller, which changes classes and suspends or resumes background work. -/
  | panicFlagChange (ch : Fin 4) (cycles : Nat)
  /-- REFRESH_FACTOR_READ (R293): Every 16 ms the controller reads the memory's refresh-rate factor and rescales tREFI. -/
  | refreshFactorRead (ch : Fin 4) (factor : Fin 5)
  /-- MEMORY_READ_DATA (R299): Read data returns from DRAM, and in an ECC region a single-bit error is corrected or an uncorrectable one is reported. -/
  | memoryReadData (ch : Fin 4) (sc : Fin 2)
  /-- ECC_MAP_WRITE (R298): Setting an ECC_MAP bit starts zero-initialisation of that region. -/
  | eccMapWrite (who : Who) (k : Fin 4) (w : W32)
  /-- ECC_INIT_DONE (R298): Every enabled region has been initialised, and ECC_BUSY clears. -/
  | eccInitDone
  /-- PATROL_SCRUB_STEP (R300): The patrol scrubber reads and corrects the next DRAM block and ends a pass at the last one. -/
  | patrolScrubStep (upsets : List (BitVec 36 × Bool))
  /-- SRAM_SCRUB_STEP (R310): The SRAM scrubber reads and corrects the next 64-byte block and ends a pass at the last one. -/
  | sramScrubStep (late : Bool) (upsets : List (BitVec 36 × Bool))
  /-- ERASE (R313): NVM_CMD ERASE erases a sector. -/
  | erase (who : Who) (sector : BitVec 8)
  /-- PROGRAM (R313): NVM_CMD PROGRAM programs a line from NVM_BUF. -/
  | program (who : Who) (sector : BitVec 8)
  /-- BLANK_CHECK (R318): NVM_CMD BLANK_CHECK checks that a sector is blank. -/
  | blankCheck (who : Who) (sector : BitVec 8)
  /-- NVM_OPERATION_DONE (R313): An eNVM erase, program or check completes and BUSY and FAIL update. -/
  | nvmOperationDone (fail : Bool)
  /-- WEAR_MAP_UPDATE (R314): At most once an hour, the controller writes the wear map alternately to sectors 162 and 163. -/
  | wearMapUpdate
  /-- PSTORE_FLUSH (R316): Within FLUSH_MS of DIRTY being set, the controller copies dirty records into a log line. -/
  | pstoreFlush
  /-- LOG_COMPACTION (R317): When fewer than 4 log sectors are erased, the controller copies live records and erases a full sector. -/
  | logCompaction
  /-- CHANNEL_DISABLE (R331): Writing CH_CFG.EN = 0 puts a data-mover channel into STOPPING. -/
  | channelDisable (who : Who) (e : Fin 4) (c : Fin 8)
  /-- DIS_LIMIT_EXPIRY (R331): DIS_LIMIT_US after a disable, the channel's work is abandoned with ABORTED. -/
  | disLimitExpiry (e : Fin 4) (c : Fin 8)
  /-- CHANNEL_ENABLE (R329): Setting CH_CFG.EN = 1 on a stopped DIRECT channel starts its chain at CH_BASE. -/
  | channelEnable (who : Who) (e : Fin 4) (c : Fin 8)
  /-- CH_DB (R329): A write to CH_DB makes a parked or idle direct chain read its LINK word again. -/
  | chDb (who : Who) (e : Fin 4) (c : Fin 8)
  /-- DM_THAW (R330): A DM_THAW bit thaws a frozen direct channel whose fault record has been read. -/
  | dmThaw (who : Who) (e : Fin 4) (mask : BitVec 8)
  /-- DM_DESCRIPTOR_FETCHED (R323): A data-mover descriptor is fetched, checked and its operation started. -/
  | dmDescriptorFetched (e : Fin 4) (host : List (Option (List Byte)))
  /-- DM_WRITES_COMPLETE (R325): Every write of a descriptor has returned its response, and the read-back is issued. -/
  | dmWritesComplete (e : Fin 4) (host : List (Option (List Byte)))
  /-- READBACK_DONE (R326): The read-back returns, and STATUS is written and the compare is resolved. -/
  | readbackDone (e : Fin 4) (hostError : Bool)
  /-- DM_LINK_READ (R325): The descriptor's LINK word returns, and the engine continues, ends the item or parks. -/
  | dmLinkRead (e : Fin 4) (served : Served)
  /-- DM_ACCESS_ERROR (R327): An error response stops further requests of the descriptor and ends it with the error's code. -/
  | dmAccessError (e : Fin 4)
  /-- RESET_RUN (R340): Writing CV_CTRL.RESET_RUN sets a context's RUN to INIT unless it is held. -/
  | resetRun (who : Who) (cv : Fin 16)
  /-- SCAN_OPPORTUNITY (R344): A panel's scan opportunity arrives, and a scan starts, waits or is skipped. -/
  | scanOpportunity (p : Fin 8) (t line : Nat)
  /-- SCAN_STEP_END (R343): A scan step ends, and after the last step the raw counts are decoded, the baseline updated and contacts reported. -/
  | scanStepEnd (fe : Fin 4) (samples : List (BitVec 16)) (t tNext : Nat)
  /-- PANEL_ENABLE (R347): Setting TP_CFG.EN from 0 to 1 starts the panel and looks up its last-good baseline. -/
  | panelEnable (who : Who) (p : Fin 8)
  /-- RECAL (R350): Writing TP_CTRL.RECAL makes the next scan take a fresh baseline at every node. -/
  | recal (who : Who) (p : Fin 8)
  /-- FE_LFCLR (R355): Writing FE_LFCLR clears all line-fault marks and their run counts. -/
  | feLfclr (who : Who) (fe : Fin 4)
  /-- AUDIO_TICK (R362): At each 1 ms tick, the device reads the enabled ring headers and services streams, haptic channels and capture. -/
  | audioTick
  /-- TDM_FRAME (R370): For each TDM frame, the mixer computes and sends every output sample and updates the ducking. -/
  | tdmFrame (rx0 rx1 : List W32) (ok0 ok1 : Bool) (slip : Fin 3)
  /-- HAPTIC_SEGMENT_END (R365): A haptic segment or brake ends, and the channel reads WR and starts the next segment or idles. -/
  | hapticSegmentEnd (h : Fin 8)
  /-- LRA_HALF_PERIOD (R366): At the end of each LRA half period, T is adjusted and LOCKED and NO_BEMF are evaluated. -/
  | lraHalfPeriod (h : Fin 8)
  /-- BEMF_ZERO_CROSSING (R366): The sense input detects a back-EMF zero crossing during a gap. -/
  | bemfZeroCrossing (h : Fin 8) (t : Nat)
  /-- READ (R378): A Smiser READ request returns the value of a dictionary entry. -/
  | read (m : SmMsg) (stale : Bool)
  /-- WRITE (R378): A Smiser WRITE request writes a dictionary entry. -/
  | write (m : SmMsg)
  /-- READ_BLOCK (R378): A Smiser READ_BLOCK request returns part of a long entry in segments. -/
  | readBlock (m : SmMsg)
  /-- WRITE_BLOCK (R381): A Smiser WRITE_BLOCK segment is assembled, and the whole block is applied at its last segment. -/
  | writeBlock (m : SmMsg)
  /-- OP_START (R398): A Smiser OP_START starts a long operation. -/
  | opStart (m : SmMsg)
  /-- OP_SUSPEND (R398): A Smiser OP_SUSPEND requests a suspend at the next suspend point. -/
  | opSuspend (m : SmMsg)
  /-- OP_RESUME (R398): A Smiser OP_RESUME resumes a suspended operation. -/
  | opResume (m : SmMsg)
  /-- OP_CANCEL (R398): A Smiser OP_CANCEL requests a cancel at the next cancel point. -/
  | opCancel (m : SmMsg)
  /-- LONG_OPERATION_END (R398): A long operation reaches DONE, FAILED or CANCELLED, and a NOTIFY goes to a fleet-host owner. -/
  | longOperationEnd (k : Fin 7) (ev : Fin 3) (progress : Fin 1001) (detail : BitVec 24)
  /-- EXPORT_ACK_TIMEOUT (R401): No EXPORT_ACK arrives within 100 ms, so the export message is repeated or the run fails. -/
  | exportAckTimeout
  /-- HEARTBEAT (R393): A HEARTBEAT from a host is received and counts as a host heartbeat. -/
  | heartbeat (m : SmMsg)
  /-- HEARTBEAT_TIMER (R392): Every HB_MS the device broadcasts its heartbeat record. -/
  | heartbeatTimer
  /-- HOST_LOSS (R393): No host message for HOST_LOSS_MS sets HOST_LOST. -/
  | hostLoss
  /-- SESSION_IDLE_EXPIRY (R391): A session with no accepted protected request for SESSION_IDLE_S closes. -/
  | sessionIdleExpiry (host : BitVec 7)
  /-- DEV_NONCE_EXPIRY (R391): A device nonce that has not been used becomes invalid after 10 s. -/
  | devNonceExpiry (host : BitVec 7)
  /-- NODE_RESET_COMM (R394): NODE_RESET with KIND COMM is answered and schedules a communication reset 10 ms later. -/
  | nodeResetComm (m : SmMsg)
  /-- NODE_RESET_DEVICE (R394): NODE_RESET with KIND DEVICE is answered and schedules a device reset 10 ms later. -/
  | nodeResetDevice (m : SmMsg)
  /-- NODE_RESET_ACT (R394): 10 ms after the response, the scheduled communication or device reset is carried out. -/
  | nodeResetAct
  /-- FACTORY_TIMEOUT (R403): No frame or OP_START arrives within 60 s in factory boot, so the device halts with 0x14. -/
  | factoryTimeout
  /-- THERMAL_POLL (R426): Every 10 ms the always-on island polls the thermal sensors and checks TEMP_WARN. -/
  | thermalPoll (temps : List (BitVec 16)) (t : Nat)
  /-- VIN_SENSE_FALL (R453): VIN_SENSE falls below WARN_MV and the 20 µs debounce starts. -/
  | vinSenseFall
  /-- VIN_SENSE_RISE (R453): VIN_SENSE rises above the level, and a dip shorter than 20 µs advances SAG_SHORT. -/
  | vinSenseRise
  /-- SUPPLY_WARN (R455): VIN_SENSE has stayed below WARN_MV for 20 µs, so the device enters SAVING and starts the save. -/
  | supplyWarn (uptime : Nat)
  /-- SUPPLY_WARN_CLEAR (R453): VIN_SENSE has stayed above CLEAR_MV for RECOVER_MS, so SUPPLY_WARN clears and recovery can start. -/
  | supplyWarnClear
  /-- SAVE_COMPLETE (R460): The save lines are programmed and verified, and the device enters SAVED or starts a warm restart. -/
  | saveComplete (us : Nat) (fail : Fin 3) (line : Fin 131)
  /-- ISLAND_OFF (R450): Writing ISL_CTRL.OFF = 1 powers an island off if its condition holds. -/
  | islandOff (who : Who) (n : Fin 31)
  /-- ISLAND_ON (R450): Writing ISL_CTRL.OFF = 0 starts powering an island on. -/
  | islandOn (who : Who) (n : Fin 31)
  /-- ISLAND_POWERED_ON (R450): Within 50 µs the island is powered, and PWR reads ON with registers at reset values. -/
  | islandPoweredOn (n : Fin 31)
  /-- REG_CFG_WRITE (R470): A write of REG_CFG makes the device read VOUT_MODE from each addressed regulator. -/
  | regCfgWrite (who : Who) (w : W32)
  /-- REGULATOR_TRANSACTION_DONE (R472): A regulator-bus transaction completes, or fails and is repeated or sets FAIL. -/
  | regulatorTransactionDone (ok : Bool) (data : BitVec 8)
  /-- RAIL_SETTLED (R471): 100 µs after a raise without PG, the rail counts as settled and the waiting clock rises. -/
  | railSettled (r : Fin 3)
  /-- PG_RISE (R471): An awaited PG input rises, the rail is settled and the waiting clock rises. -/
  | pgRise (r : Fin 3)
  /-- PG_DROP (R472): A PG input falls for more than 10 µs while not awaited, so PG_DROP advances and the keeper is told. -/
  | pgDrop (r : Fin 3)
  /-- POR_ASSERT (R475): A watched rail falls below its threshold for more than 1 µs, so POR asserts and the device is in POWER_OFF. -/
  | porAssert (lines : Nat)
  /-- POR_RELEASE (R476): All watched rails are above their thresholds for 1 ms, so POR releases and the boot ROM starts if nRESET is high. -/
  | porRelease (bootsel : Fin 4)
  /-- NRESET_LOW (R476): nRESET has been low for 100 ns, which is a device reset. -/
  | nresetLow (lines us : Nat)
  /-- NRESET_RELEASE (R476): nRESET goes high, BOOTSEL is sampled and the device enters BOOT_ROM, warm or cold. -/
  | nresetRelease (bootsel : Fin 4)
  /-- RESET_OUT_RELEASE (R476): 1 ms after entry to BOOT_ROM, RESET_OUTn is released. -/
  | resetOutRelease
  /-- BOOT_IMAGE_CHECKED (R267): The boot ROM finishes loading and checking the Zhotor image and configuration. On success it extends MR1 and MR2, sets MEAS_EPOCH and enters Zhotor, which means KEEPER_UP at a cold or warm start, or steps 3 to 5 of R274 in a keeper restart. On failure it tries slot B, halts with its error, or leaves the keeper LOST. -/
  | bootImageChecked (otpOk : Bool)
  /-- CORE_MEMORY_ACCESS (R490): A keeper or service-core load, store or fetch to market SRAM or DRAM is checked against the WORLD_MAP, the grain users and the capacity. An uncorrectable error met by the keeper in a trusted grain starts a keeper restart with cause TRUSTED_ECC. -/
  | coreMemoryAccess (h : Option (Fin 4)) (kind : Fin 3) (a : BitVec 36) (n : Fin 65) (b : List Byte) (t : Nat)
      (upsets : List (BitVec 36 × Bool))
  /-- VKIND_READ (R235): A read of a stall's VKIND sets VREC_READ, which THAW requires. -/
  | vkindRead (who : Who) (st : Fin 16) (stale : Bool)
  /-- SVC_VREC_READ (R261): A read of a hart's SVC_VRECh marks the record as read since the freeze, which SVC_THAW requires. -/
  | svcVrecRead (who : Who) (h : Fin 4) (stale : Bool)
  /-- CH_FAULT_KIND_READ (R330): A read of CH_FAULT_KIND sets VREAD, which DM_THAW requires. -/
  | chFaultKindRead (who : Who) (e : Fin 4) (c : Fin 8) (stale : Bool)
  /-- PG_RAISE_TIMEOUT (R472): A raised rail whose PG has not risen within 1 ms of the write is repeated, and after two repeats its FAIL is set, REG_ERR advances and REG_FAIL is sent. -/
  | pgRaiseTimeout (r : Fin 3)
  /-- CONFIG_REQUEST (R269): A PCIe configuration request is answered with Configuration Request Retry Status before SERVICE_UP, or served by the recovery or HALTED PF presentation of PCIe A. -/
  | configRequest (ep : Fin 2) (fn : Fin 16) (req : CfgReq)
  /-- PCIE_LINK_UP (R269): The PCIe A link comes up in recovery boot and starts the 60 s RECOV_GO timer. -/
  | pcieLinkUp
  deriving DecidableEq, Repr

end Sys2Proof
end

