-- ==== Sys2Proof/Decode.lean ====
section
/-! DEFINITION. Decode.lean: the words of commands. opcode_table.json gives no row of this block any bits or fields, so no word
spells a command. -/
namespace Sys2Proof

/-- The command that a word of the table spells: none, for the table gives no row any bits. (DESIGN CHOICE, log entry 1) -/
def decodeTableWord (_nbits _w : Nat) : Option Instr := none

end Sys2Proof
end

