-- ==== Sys2Proof/Config.lean ====
section
/-! DEFINITION. Config.lean: what the spec leaves open. Everything here is opaque: no
proof can see a value. -/
namespace Sys2Proof

/-- Free values: the n-th open value of a run (State.fresh counts them). (DESIGN CHOICE, log entry 6) -/
opaque Config.freeValue : Nat → BitVec 64

/-- The ECDSA P-384 signature (r, s) by a key of the key store over a digest (R145, R272). Key 0 is the attestation key, 1 the
ledger key, 2 the factory key (R271). -/
opaque Config.ecdsaSign : Nat → BitVec 384 → BitVec 384 × BitVec 384
/-- The device's MAC address, from which its link-local address derives (R384). -/
opaque Config.mac : BitVec 48
/-- The public ledger key 0x04 ‖ X ‖ Y (R145) and OTP contents (R271). -/
opaque Config.ledgerPub : BitVec 776
opaque Config.deviceId : BitVec 128
opaque Config.romDigest : BitVec 384
/-- The keys of the key store and what OTP holds (R263, R271): LIFECYCLE PROVISIONED; ROOT_KEY_HASH; the factory key hash of the boot ROM;
MIN_SVN. -/
opaque Config.provisioned : Bool
opaque Config.rootKeyHash : BitVec 384
opaque Config.factoryKeyHash : BitVec 384
opaque Config.minSvn : Nat
/-- Does the integrator's Zhotor build have the function of a number 0x1000 to 0x1FFF (R254)? (DESIGN CHOICE, log entry 42) -/
opaque Config.integratorFn : Nat → Bool
/-- The version of the Zhotor build (R254). -/
opaque Config.zhotorVersion : BitVec 64
/-- CERT_LEN: the length of the certificate chain (R423). -/
opaque Config.certLen : Nat
/-- The 8 SEC-DED check bits of a 64-bit word (R297: the code is not given). (DESIGN CHOICE, log entry 86) -/
opaque Config.secded : BitVec 64 → Byte
/-- Pixels of the display self-test patterns, bars, ramp, checker (R399), by kind and place: red, green, blue, alpha of 12 bits each. (DESIGN CHOICE, log entry 66) -/
opaque Config.pattern : Nat → Nat → Nat → BitVec 48
/-- By how many mV adaptive scaling may lower VDD_GPU (R447). -/
opaque Config.avs : Nat
/-- Contents of the boot ROM (R489): not given by the spec. -/
opaque Config.romByte : Nat → Byte

/-- A depth value as 24-bit fixed point (R163, R164 state the rule for 16-bit components only). (DESIGN CHOICE, log entry 29) -/
opaque Config.depth24 : Nat → Nat
/-- A NaN as a fixed-point component of tile memory (R164 clamps it, which has no value for a NaN). (DESIGN CHOICE, log entry 29) -/
opaque Config.nanUnorm : Nat
/-- The blending of the pipeline object of a draw, opaque to the engine (R152, R164), by the draw and the attachment: the blended colour from the
shader's and the tile's components, in binary32. (DESIGN CHOICE, log entry 94) -/
opaque Config.blend : Nat → Nat → List Nat → List Nat → List Nat
/-- The depth and stencil test of the pipeline object of a draw (R152, R168), from a sample's depth and stencil in the tile and the fragment's
depth: whether it passes, the depth it writes, the new stencil value. (DESIGN CHOICE, log entry 94) -/
opaque Config.depthStencil : Nat → List Nat → Nat → Bool × Option Nat × Nat

end Sys2Proof
end

