-- ==== Sys2Proof/Machine/Store.lean ====
section
/-! DEFINITION. Machine/Store.lean: sparse contents by address in one canonical form. An unlisted address reads as the default
`d` gives it; the list is strictly rising and lists no entry equal to its default, so equal contents are equal lists. -/
namespace Sys2Proof.Machine

/-- A sparse map from addresses to values. -/
abbrev Store (α : Type) := List (Nat × α)

/-- What address `a` holds. -/
def storeGet {α : Type} (d : Nat → α) : Store α → Nat → α
  | [], a => d a
  | (k, v) :: l, a => if k = a then v else storeGet d l a

/-- The contents without an entry for `a`. -/
def storeErase {α : Type} : Store α → Nat → Store α
  | [], _ => []
  | (k, v) :: l, a => if k = a then storeErase l a else (k, v) :: storeErase l a

/-- The contents with the entry (a, v) at its place by address; entries for `a` are replaced. -/
def storeInsert {α : Type} : Store α → Nat → α → Store α
  | [], a, v => [(a, v)]
  | (k, w) :: l, a, v =>
    if k = a then (a, v) :: storeErase l a
    else if a < k then (a, v) :: (k, w) :: storeErase l a
    else (k, w) :: storeInsert l a v

/-- Writing `v` at `a`: a value equal to the default removes the entry. -/
def storePut {α : Type} [DecidableEq α] (d : Nat → α) (l : Store α) (a : Nat) (v : α) : Store α :=
  if v = d a then storeErase l a else storeInsert l a v

/-- The addresses rise strictly from above `lo`. -/
def storeRising {α : Type} : Nat → Store α → Bool
  | _, [] => true
  | lo, (k, _) :: l => decide (lo ≤ k) && storeRising (k + 1) l

/-- The canonical form: strictly rising, and no entry equal to its default. -/
def storeWf {α : Type} [DecidableEq α] (d : Nat → α) (l : Store α) : Bool :=
  storeRising 0 l && l.all (fun p => decide (p.2 ≠ d p.1))

end Sys2Proof.Machine
end

