-- ==== Sys2Proof/Machine/RegMap.lean ====
section
/-! DEFINITION. Machine/RegMap.lean: the register map of the spec, as data (chapters 01 to 19: the register tables; R3: the
block bases; R24: the common crossing page of every block; R25: shadow slots).
For every register: its offset, how many instances, their stride, its width, what it holds, and its fields with access, change
class, reset value and range. Then one address function (r...) per register and one constant (f...) per field. -/
namespace Sys2Proof.Machine

/-- A bit field of a register: its lowest bit and its width. -/
structure Fld where
  lo : Nat
  w : Nat
  deriving DecidableEq, Repr

/-- Access codes of a register map (chapter 00, Identifiers). -/
inductive Acc where
  | ro | rw | wo | w1c
  deriving DecidableEq, Repr

/-- Change classes (R7); `no` for a field that is no setting. -/
inductive Cls where
  | no | l | f | s | b
  deriving DecidableEq, Repr

/-- What a register holds: plain fields, or a shadow slot of a counter class (R10, R25). -/
inductive Kind where
  | plain | event | error | frame | level
  deriving DecidableEq, Repr

/-- One field of a register table: name, bits hi:lo, access, class, reset, and the range min, max, step that a written value
must meet (R67, R9); `max = 0` says that the table gives no range. -/
structure FieldDef where
  name : String
  hi : Nat
  lo : Nat
  acc : Acc
  cls : Cls
  reset : Nat
  min : Nat := 0
  max : Nat := 0
  step : Nat := 1
  deriving DecidableEq, Repr

/-- One register of a block: instance i stands at off + stride * i. `addBlk` and `addIdx` are what its reset word grows by with
each unit of the block kind and with each instance (FETCH_CFG, TP_LINES and the look-up tables have such resets). -/
structure RegDef where
  name : String
  off : Nat
  n : Nat
  stride : Nat
  w64 : Bool
  kind : Kind
  fields : List FieldDef
  addBlk : Nat := 0
  addIdx : Nat := 0
  deriving DecidableEq, Repr

/-- The kinds of register block (R3), the common crossing page (R24) and the function-side page of a stall's BAR0 (R219). -/
inductive BlkKind where
  | kAON | kTEL | kKPR | kMSR | kNVM | kMC | kLGR | kPIPE | kOUT | kRFE | kSHI | kDM | kCVU | kTFE | kAHX | kQST | kXP | kBAR0 | kBare
  deriving DecidableEq, Repr

/-- Address of offset `off` in the block with block ID `id` (R3). -/
def blkAddr (id off : Nat) : Nat := 0x10000000 + 0x10000 * id + off

/-- Key of a register that only the function of stall `st` reaches, through its BAR0 (R219); outside the physical address space. -/
def bar0Addr (st off : Nat) : Nat := 0x10000000000 + 0x10000 * st + off

def regAON_IDENT : RegDef := ⟨"IDENT", 0x0, 1, 0x4, false, .plain,
  [⟨"PART", 31, 16, .ro, .no, 2176, 0, 0, 1⟩,
   ⟨"STEP", 15, 8, .ro, .no, 176, 0, 0, 1⟩,
   ⟨"PKG", 7, 4, .ro, .no, 2, 0, 0, 1⟩], 0x0, 0x0⟩
def regAON_BOOT_STAT : RegDef := ⟨"BOOT_STAT", 0x10, 1, 0x4, false, .plain,
  [⟨"STALE", 31, 31, .ro, .no, 0, 0, 0, 1⟩,
   ⟨"SRC", 30, 28, .ro, .no, 0, 0, 0, 1⟩,
   ⟨"LIFECYCLE", 27, 26, .ro, .no, 0, 0, 0, 1⟩,
   ⟨"SLOT", 25, 25, .ro, .no, 0, 0, 0, 1⟩,
   ⟨"FAIL_A", 23, 20, .ro, .no, 0, 0, 0, 1⟩,
   ⟨"FAIL_B", 19, 16, .ro, .no, 0, 0, 0, 1⟩,
   ⟨"ERR", 7, 0, .ro, .no, 0, 0, 0, 1⟩], 0x0, 0x0⟩
def regAON_DSTATE : RegDef := ⟨"DSTATE", 0x14, 1, 0x4, false, .plain,
  [⟨"STALE", 31, 31, .ro, .no, 0, 0, 0, 1⟩,
   ⟨"STATE_WORD", 15, 0, .ro, .no, 1, 0, 0, 1⟩], 0x0, 0x0⟩
def regAON_ISL_CTRL : RegDef := ⟨"ISL_CTRL", 0x100, 31, 0x4, false, .plain,
  [⟨"OFF", 31, 31, .rw, .l, 0, 0, 0, 1⟩,
   ⟨"MAX_STEP", 8, 0, .rw, .l, 0, 0, 0, 1⟩], 0x0, 0x0⟩
def regAON_ISL_STAT : RegDef := ⟨"ISL_STAT", 0x180, 31, 0x4, false, .plain,
  [⟨"STALE", 31, 31, .ro, .no, 0, 0, 0, 1⟩,
   ⟨"PWR", 30, 29, .ro, .no, 0, 0, 0, 1⟩,
   ⟨"CUR_STEP", 8, 0, .ro, .no, 0, 0, 0, 1⟩], 0x0, 0x0⟩
def regAON_DOM_STAT : RegDef := ⟨"DOM_STAT", 0x200, 5, 0x4, false, .plain,
  [⟨"STALE", 31, 31, .ro, .no, 0, 0, 0, 1⟩,
   ⟨"CHANGING", 30, 30, .ro, .no, 0, 0, 0, 1⟩,
   ⟨"MV", 11, 0, .ro, .no, 0, 0, 0, 1⟩], 0x0, 0x0⟩
def regAON_SUPPLY_CFG : RegDef := ⟨"SUPPLY_CFG", 0x300, 1, 0x4, false, .plain,
  [⟨"EN", 31, 31, .rw, .b, 1, 0, 0, 1⟩,
   ⟨"CLEAR_MV", 30, 20, .rw, .b, 960, 400, 1200, 1⟩,
   ⟨"WARN_MV", 19, 9, .rw, .b, 900, 400, 1200, 1⟩,
   ⟨"RECOVER_MS", 8, 0, .rw, .b, 10, 1, 500, 1⟩], 0x0, 0x0⟩
def regAON_SUPPLY_STAT : RegDef := ⟨"SUPPLY_STAT", 0x304, 1, 0x4, false, .plain,
  [⟨"STALE", 31, 31, .ro, .no, 0, 0, 0, 1⟩,
   ⟨"WARN", 30, 30, .ro, .no, 0, 0, 0, 1⟩,
   ⟨"BELOW", 29, 29, .ro, .no, 0, 0, 0, 1⟩,
   ⟨"SAVE_ACT", 28, 28, .ro, .no, 0, 0, 0, 1⟩], 0x0, 0x0⟩
def regAON_SAVE_STAT : RegDef := ⟨"SAVE_STAT", 0x308, 1, 0x4, false, .plain,
  [⟨"STALE", 31, 31, .ro, .no, 0, 0, 0, 1⟩,
   ⟨"FOUND", 30, 30, .ro, .no, 0, 0, 0, 1⟩,
   ⟨"CONSUMED", 29, 29, .ro, .no, 0, 0, 0, 1⟩,
   ⟨"OUTCOME", 27, 24, .ro, .no, 0, 0, 0, 1⟩,
   ⟨"DURATION_US", 11, 0, .ro, .no, 0, 0, 0, 1⟩], 0x0, 0x0⟩
def regAON_SAG_SHORT : RegDef := ⟨"SAG_SHORT", 0x310, 1, 0x4, true, .event,
  [], 0x0, 0x0⟩
def regAON_SAVES : RegDef := ⟨"SAVES", 0x318, 1, 0x4, true, .event,
  [], 0x0, 0x0⟩
def regAON_SAVE_LOST : RegDef := ⟨"SAVE_LOST", 0x320, 1, 0x4, true, .error,
  [], 0x0, 0x0⟩
def regAON_SYNC_IN_CFG : RegDef := ⟨"SYNC_IN_CFG", 0x400, 1, 0x4, false, .plain,
  [⟨"FILT", 11, 8, .rw, .l, 15, 0, 0, 1⟩,
   ⟨"POL", 3, 0, .rw, .l, 0, 0, 0, 1⟩], 0x0, 0x0⟩
def regAON_SYNC_OUT : RegDef := ⟨"SYNC_OUT", 0x404, 2, 0x4, false, .plain,
  [⟨"MODE", 31, 30, .rw, .l, 0, 0, 2, 1⟩,
   ⟨"POL", 29, 29, .rw, .l, 0, 0, 0, 1⟩,
   ⟨"PIPE", 26, 24, .rw, .l, 0, 0, 0, 1⟩,
   ⟨"IN", 21, 20, .rw, .l, 0, 0, 0, 1⟩,
   ⟨"WIDTH_US", 5, 0, .rw, .l, 4, 1, 63, 1⟩], 0x0, 0x0⟩
def regAON_GPIO_OUT : RegDef := ⟨"GPIO_OUT", 0x500, 1, 0x4, false, .plain,
  [⟨"OUT", 31, 0, .rw, .l, 0, 0, 0, 1⟩], 0x0, 0x0⟩
def regAON_GPIO_OE : RegDef := ⟨"GPIO_OE", 0x504, 1, 0x4, false, .plain,
  [⟨"OE", 31, 0, .rw, .l, 0, 0, 0, 1⟩], 0x0, 0x0⟩
def regAON_GPIO_IN0 : RegDef := ⟨"GPIO_IN0", 0x508, 1, 0x4, false, .plain,
  [⟨"STALE", 31, 31, .ro, .no, 0, 0, 0, 1⟩,
   ⟨"IN", 15, 0, .ro, .no, 0, 0, 0, 1⟩], 0x0, 0x0⟩
def regAON_GPIO_IN1 : RegDef := ⟨"GPIO_IN1", 0x50C, 1, 0x4, false, .plain,
  [⟨"STALE", 31, 31, .ro, .no, 0, 0, 0, 1⟩,
   ⟨"IN", 15, 0, .ro, .no, 0, 0, 0, 1⟩], 0x0, 0x0⟩
def regAON_GPIO_PULL : RegDef := ⟨"GPIO_PULL", 0x510, 2, 0x4, false, .plain,
  [⟨"PULL", 31, 0, .rw, .l, 1431655765, 0, 0, 1⟩], 0x0, 0x0⟩
def regAON_GPIO_DRV : RegDef := ⟨"GPIO_DRV", 0x518, 1, 0x4, false, .plain,
  [⟨"DRV", 31, 0, .rw, .l, 0, 0, 0, 1⟩], 0x0, 0x0⟩
def regAON_GPIO_TMASK : RegDef := ⟨"GPIO_TMASK", 0x51C, 1, 0x4, false, .plain,
  [⟨"T", 31, 0, .rw, .b, 0, 0, 0, 1⟩], 0x0, 0x0⟩
def regAON_REG_CFG : RegDef := ⟨"REG_CFG", 0x600, 1, 0x4, false, .plain,
  [⟨"SPEED", 31, 31, .rw, .b, 1, 0, 0, 1⟩,
   ⟨"PEC", 30, 30, .rw, .b, 1, 0, 0, 1⟩,
   ⟨"PG_PRESENT", 29, 27, .rw, .b, 0, 0, 0, 1⟩,
   ⟨"ADDR_SRAM", 20, 14, .rw, .b, 0, 0, 0, 1⟩,
   ⟨"ADDR_GPU", 13, 7, .rw, .b, 0, 0, 0, 1⟩,
   ⟨"ADDR_PIPE", 6, 0, .rw, .b, 0, 0, 0, 1⟩], 0x0, 0x0⟩
def regAON_REG_STAT : RegDef := ⟨"REG_STAT", 0x604, 1, 0x4, false, .plain,
  [⟨"STALE", 31, 31, .ro, .no, 0, 0, 0, 1⟩,
   ⟨"BUSY", 30, 30, .ro, .no, 0, 0, 0, 1⟩,
   ⟨"FAIL", 29, 27, .ro, .no, 0, 0, 0, 1⟩,
   ⟨"PG", 26, 24, .ro, .no, 0, 0, 0, 1⟩], 0x0, 0x0⟩
def regAON_REG_ERR : RegDef := ⟨"REG_ERR", 0x608, 1, 0x4, true, .error,
  [], 0x0, 0x0⟩
def regAON_PG_DROP : RegDef := ⟨"PG_DROP", 0x610, 1, 0x4, true, .error,
  [], 0x0, 0x0⟩
def regAON_IO_CFG : RegDef := ⟨"IO_CFG", 0x620, 1, 0x4, false, .plain,
  [⟨"TX_DLY", 1, 1, .rw, .s, 1, 0, 0, 1⟩,
   ⟨"RX_DLY", 0, 0, .rw, .s, 1, 0, 0, 1⟩], 0x0, 0x0⟩

/-- The registers of block kind AON. -/
def regsAON : List RegDef :=
  [regAON_IDENT, regAON_BOOT_STAT, regAON_DSTATE, regAON_ISL_CTRL, regAON_ISL_STAT, regAON_DOM_STAT, regAON_SUPPLY_CFG, regAON_SUPPLY_STAT, regAON_SAVE_STAT, regAON_SAG_SHORT, regAON_SAVES, regAON_SAVE_LOST, regAON_SYNC_IN_CFG, regAON_SYNC_OUT, regAON_GPIO_OUT, regAON_GPIO_OE, regAON_GPIO_IN0, regAON_GPIO_IN1, regAON_GPIO_PULL, regAON_GPIO_DRV] ++
  [regAON_GPIO_TMASK, regAON_REG_CFG, regAON_REG_STAT, regAON_REG_ERR, regAON_PG_DROP, regAON_IO_CFG]

def regTEL_TALLY_CTRL : RegDef := ⟨"TALLY_CTRL", 0x0, 1, 0x4, false, .plain,
  [⟨"START", 31, 31, .wo, .l, 0, 0, 0, 1⟩,
   ⟨"ARM", 30, 30, .rw, .l, 0, 0, 0, 1⟩,
   ⟨"PIPE", 26, 24, .rw, .l, 0, 0, 0, 1⟩,
   ⟨"PERIODIC_EN", 0, 0, .rw, .l, 0, 0, 0, 1⟩], 0x0, 0x0⟩
def regTEL_TALLY_STAT : RegDef := ⟨"TALLY_STAT", 0x4, 1, 0x4, false, .plain,
  [⟨"STALE", 31, 31, .ro, .no, 0, 0, 0, 1⟩,
   ⟨"BUSY", 30, 30, .ro, .no, 0, 0, 0, 1⟩,
   ⟨"PARTIAL", 29, 29, .ro, .no, 0, 0, 0, 1⟩,
   ⟨"FRAME_MISSED", 28, 28, .w1c, .l, 0, 0, 0, 1⟩,
   ⟨"LAST_SRC", 27, 24, .ro, .no, 0, 0, 0, 1⟩,
   ⟨"EPOCH", 15, 0, .ro, .no, 0, 0, 0, 1⟩], 0x0, 0x0⟩
def regTEL_TALLY_PERIOD : RegDef := ⟨"TALLY_PERIOD", 0x8, 1, 0x4, false, .plain,
  [⟨"PERIOD_MS", 15, 0, .rw, .l, 1000, 1, 60000, 1⟩], 0x0, 0x0⟩
def regTEL_TALLY_PART : RegDef := ⟨"TALLY_PART", 0xC, 1, 0x4, false, .plain,
  [⟨"STALE", 31, 31, .ro, .no, 0, 0, 0, 1⟩,
   ⟨"ISL", 30, 0, .ro, .no, 0, 0, 0, 1⟩], 0x0, 0x0⟩
def regTEL_TALLY_FRAME : RegDef := ⟨"TALLY_FRAME", 0x10, 1, 0x4, false, .plain,
  [⟨"TARGET", 31, 0, .rw, .l, 0, 0, 0, 1⟩], 0x0, 0x0⟩
def regTEL_TALLY_REFUSED : RegDef := ⟨"TALLY_REFUSED", 0x18, 1, 0x4, true, .error,
  [], 0x0, 0x0⟩
def regTEL_ISL_ENERGY : RegDef := ⟨"ISL_ENERGY", 0x100, 31, 0x8, true, .event,
  [], 0x0, 0x0⟩
def regTEL_STALL_ENERGY : RegDef := ⟨"STALL_ENERGY", 0x200, 16, 0x8, true, .event,
  [], 0x0, 0x0⟩
def regTEL_OVR_SUMMARY : RegDef := ⟨"OVR_SUMMARY", 0x300, 16, 0x4, false, .plain,
  [⟨"STALE", 31, 31, .ro, .no, 0, 0, 0, 1⟩,
   ⟨"SUM", 15, 0, .ro, .no, 0, 0, 0, 1⟩], 0x0, 0x0⟩
def regTEL_STALE_SUMMARY : RegDef := ⟨"STALE_SUMMARY", 0x340, 16, 0x4, false, .plain,
  [⟨"STALE", 31, 31, .ro, .no, 0, 0, 0, 1⟩,
   ⟨"SUM", 15, 0, .ro, .no, 0, 0, 0, 1⟩], 0x0, 0x0⟩

/-- The registers of block kind TEL. -/
def regsTEL : List RegDef :=
  [regTEL_TALLY_CTRL, regTEL_TALLY_STAT, regTEL_TALLY_PERIOD, regTEL_TALLY_PART, regTEL_TALLY_FRAME, regTEL_TALLY_REFUSED, regTEL_ISL_ENERGY, regTEL_STALL_ENERGY, regTEL_OVR_SUMMARY, regTEL_STALE_SUMMARY]

def regKPR_KSTAT : RegDef := ⟨"KSTAT", 0x0, 1, 0x4, false, .plain,
  [⟨"STALE", 31, 31, .ro, .no, 0, 0, 0, 1⟩,
   ⟨"STATE", 30, 28, .ro, .no, 0, 0, 0, 1⟩,
   ⟨"WM_LOCKED", 27, 27, .ro, .no, 0, 0, 0, 1⟩,
   ⟨"EPOCH_SAT", 26, 26, .ro, .no, 0, 0, 0, 1⟩,
   ⟨"CAUSE", 25, 24, .ro, .no, 0, 0, 0, 1⟩,
   ⟨"MEAS_EPOCH", 15, 0, .ro, .no, 0, 0, 0, 1⟩], 0x0, 0x0⟩
def regKPR_KCTRL : RegDef := ⟨"KCTRL", 0x4, 1, 0x4, false, .plain,
  [⟨"KICK", 31, 31, .wo, .l, 0, 0, 0, 1⟩,
   ⟨"RESTART", 30, 30, .wo, .l, 0, 0, 0, 1⟩,
   ⟨"WM_LOCK", 29, 29, .wo, .l, 0, 0, 0, 1⟩,
   ⟨"UP", 28, 28, .wo, .l, 0, 0, 0, 1⟩], 0x0, 0x0⟩
def regKPR_KCFG : RegDef := ⟨"KCFG", 0x8, 1, 0x4, false, .plain,
  [⟨"KWD_MS", 23, 16, .rw, .b, 20, 1, 100, 1⟩,
   ⟨"WC_LIMIT_US", 13, 0, .rw, .b, 1000, 10, 10000, 1⟩], 0x0, 0x0⟩
def regKPR_BOOT_STAT : RegDef := ⟨"BOOT_STAT", 0xC, 1, 0x4, false, .plain,
  [⟨"STALE", 31, 31, .ro, .no, 0, 0, 0, 1⟩,
   ⟨"SRC", 30, 28, .ro, .no, 0, 0, 0, 1⟩,
   ⟨"LIFECYCLE", 27, 26, .ro, .no, 0, 0, 0, 1⟩,
   ⟨"SLOT", 25, 25, .ro, .no, 0, 0, 0, 1⟩,
   ⟨"FAIL_A", 23, 20, .ro, .no, 0, 0, 0, 1⟩,
   ⟨"FAIL_B", 19, 16, .ro, .no, 0, 0, 0, 1⟩,
   ⟨"ERR", 7, 0, .ro, .no, 0, 0, 0, 1⟩], 0x0, 0x0⟩
def regKPR_SVC_CTRL : RegDef := ⟨"SVC_CTRL", 0x10, 1, 0x4, false, .plain,
  [⟨"RUN", 3, 0, .wo, .l, 0, 0, 0, 1⟩], 0x0, 0x0⟩
def regKPR_SVC_STAT : RegDef := ⟨"SVC_STAT", 0x14, 1, 0x4, false, .plain,
  [⟨"STALE", 31, 31, .ro, .no, 0, 0, 0, 1⟩,
   ⟨"FROZEN", 11, 8, .ro, .no, 0, 0, 0, 1⟩,
   ⟨"IN_CALL", 7, 4, .ro, .no, 0, 0, 0, 1⟩,
   ⟨"RUNNING", 3, 0, .ro, .no, 0, 0, 0, 1⟩], 0x0, 0x0⟩
def regKPR_SVC_THAW : RegDef := ⟨"SVC_THAW", 0x18, 1, 0x4, false, .plain,
  [⟨"THAW", 3, 0, .wo, .l, 0, 0, 0, 1⟩], 0x0, 0x0⟩
def regKPR_WM_BLK : RegDef := ⟨"WM_BLK", 0x20, 8, 0x4, false, .plain,
  [⟨"T", 31, 0, .rw, .b, 4294967295, 0, 0, 1⟩], 0x0, 0x0⟩
def regKPR_WM_GRN : RegDef := ⟨"WM_GRN", 0x40, 24, 0x4, false, .plain,
  [⟨"T", 31, 0, .rw, .b, 4294967295, 0, 0, 1⟩], 0x0, 0x0⟩
def regKPR_WM_ISL : RegDef := ⟨"WM_ISL", 0xA0, 1, 0x4, false, .plain,
  [⟨"T", 30, 0, .rw, .b, 2147483647, 0, 0, 1⟩], 0x0, 0x0⟩
def regKPR_CALL_CFG : RegDef := ⟨"CALL_CFG", 0xA4, 1, 0x4, false, .plain,
  [⟨"EN", 3, 0, .rw, .b, 15, 0, 0, 1⟩], 0x0, 0x0⟩
def regKPR_WC_FN : RegDef := ⟨"WC_FN", 0x100, 4, 0x40, true, .plain,
  [⟨"PRV", 63, 62, .rw, .l, 0, 0, 0, 1⟩,
   ⟨"FN", 31, 0, .rw, .l, 0, 0, 0, 1⟩], 0x0, 0x0⟩
def regKPR_WC_ARG0 : RegDef := ⟨"WC_ARG0", 0x108, 4, 0x40, true, .plain,
  [⟨"VAL", 63, 0, .rw, .l, 0, 0, 0, 1⟩], 0x0, 0x0⟩
def regKPR_WC_ARG1 : RegDef := ⟨"WC_ARG1", 0x110, 4, 0x40, true, .plain,
  [⟨"VAL", 63, 0, .rw, .l, 0, 0, 0, 1⟩], 0x0, 0x0⟩
def regKPR_WC_ARG2 : RegDef := ⟨"WC_ARG2", 0x118, 4, 0x40, true, .plain,
  [⟨"VAL", 63, 0, .rw, .l, 0, 0, 0, 1⟩], 0x0, 0x0⟩
def regKPR_WC_ARG3 : RegDef := ⟨"WC_ARG3", 0x120, 4, 0x40, true, .plain,
  [⟨"VAL", 63, 0, .rw, .l, 0, 0, 0, 1⟩], 0x0, 0x0⟩
def regKPR_WC_ARG4 : RegDef := ⟨"WC_ARG4", 0x128, 4, 0x40, true, .plain,
  [⟨"VAL", 63, 0, .rw, .l, 0, 0, 0, 1⟩], 0x0, 0x0⟩
def regKPR_WC_ARG5 : RegDef := ⟨"WC_ARG5", 0x130, 4, 0x40, true, .plain,
  [⟨"VAL", 63, 0, .rw, .l, 0, 0, 0, 1⟩], 0x0, 0x0⟩
def regKPR_WC_CTL : RegDef := ⟨"WC_CTL", 0x138, 4, 0x40, false, .plain,
  [⟨"POST", 31, 31, .wo, .l, 0, 0, 0, 1⟩,
   ⟨"PENDING", 30, 30, .ro, .no, 0, 0, 0, 1⟩,
   ⟨"DONE", 29, 29, .ro, .no, 0, 0, 0, 1⟩,
   ⟨"STATUS", 7, 0, .ro, .no, 0, 0, 0, 1⟩], 0x0, 0x0⟩
def regKPR_WC_RSP : RegDef := ⟨"WC_RSP", 0x13C, 4, 0x40, false, .plain,
  [⟨"STATUS", 7, 0, .wo, .l, 0, 0, 0, 1⟩], 0x0, 0x0⟩
def regKPR_SVC_VREC : RegDef := ⟨"SVC_VREC", 0x200, 4, 0x10, false, .plain,
  [⟨"STALE", 31, 31, .ro, .no, 0, 0, 0, 1⟩,
   ⟨"KIND", 30, 28, .ro, .no, 0, 0, 0, 1⟩,
   ⟨"WRITE", 27, 27, .ro, .no, 0, 0, 0, 1⟩,
   ⟨"FETCH", 26, 26, .ro, .no, 0, 0, 0, 1⟩], 0x0, 0x0⟩
def regKPR_SVC_VADDR_LO : RegDef := ⟨"SVC_VADDR_LO", 0x204, 4, 0x10, false, .plain,
  [⟨"STALE", 31, 31, .ro, .no, 0, 0, 0, 1⟩,
   ⟨"ADDR", 30, 0, .ro, .no, 0, 0, 0, 1⟩], 0x0, 0x0⟩
def regKPR_SVC_VADDR_HI : RegDef := ⟨"SVC_VADDR_HI", 0x208, 4, 0x10, false, .plain,
  [⟨"STALE", 31, 31, .ro, .no, 0, 0, 0, 1⟩,
   ⟨"ADDR", 4, 0, .ro, .no, 0, 0, 0, 1⟩], 0x0, 0x0⟩
def regKPR_KEVT : RegDef := ⟨"KEVT", 0x300, 1, 0x4, true, .plain,
  [⟨"VALID", 63, 63, .ro, .no, 0, 0, 0, 1⟩,
   ⟨"BLOCK", 59, 52, .ro, .no, 0, 0, 0, 1⟩,
   ⟨"CODE", 51, 44, .ro, .no, 0, 0, 0, 1⟩,
   ⟨"INST", 43, 32, .ro, .no, 0, 0, 0, 1⟩,
   ⟨"INFO", 31, 0, .ro, .no, 0, 0, 0, 1⟩], 0x0, 0x0⟩
def regKPR_KEVT_LVL : RegDef := ⟨"KEVT_LVL", 0x308, 1, 0x4, false, .plain,
  [⟨"STALE", 31, 31, .ro, .no, 0, 0, 0, 1⟩,
   ⟨"LEVEL", 8, 0, .ro, .no, 0, 0, 0, 1⟩], 0x0, 0x0⟩
def regKPR_KRESTARTS : RegDef := ⟨"KRESTARTS", 0x400, 1, 0x4, true, .event,
  [], 0x0, 0x0⟩
def regKPR_WC_TIMEOUT : RegDef := ⟨"WC_TIMEOUT", 0x408, 1, 0x4, true, .error,
  [], 0x0, 0x0⟩
def regKPR_WC_BUSY : RegDef := ⟨"WC_BUSY", 0x410, 1, 0x4, true, .error,
  [], 0x0, 0x0⟩
def regKPR_CLKPWR_REFUSED : RegDef := ⟨"CLKPWR_REFUSED", 0x418, 1, 0x4, true, .error,
  [], 0x0, 0x0⟩
def regKPR_SVC_VIOL : RegDef := ⟨"SVC_VIOL", 0x420, 1, 0x4, true, .error,
  [], 0x0, 0x0⟩
def regKPR_EVT_LOST : RegDef := ⟨"EVT_LOST", 0x428, 1, 0x4, true, .error,
  [], 0x0, 0x0⟩

/-- The registers of block kind KPR. -/
def regsKPR : List RegDef :=
  [regKPR_KSTAT, regKPR_KCTRL, regKPR_KCFG, regKPR_BOOT_STAT, regKPR_SVC_CTRL, regKPR_SVC_STAT, regKPR_SVC_THAW, regKPR_WM_BLK, regKPR_WM_GRN, regKPR_WM_ISL, regKPR_CALL_CFG, regKPR_WC_FN, regKPR_WC_ARG0, regKPR_WC_ARG1, regKPR_WC_ARG2, regKPR_WC_ARG3, regKPR_WC_ARG4, regKPR_WC_ARG5, regKPR_WC_CTL, regKPR_WC_RSP] ++
  [regKPR_SVC_VREC, regKPR_SVC_VADDR_LO, regKPR_SVC_VADDR_HI, regKPR_KEVT, regKPR_KEVT_LVL, regKPR_KRESTARTS, regKPR_WC_TIMEOUT, regKPR_WC_BUSY, regKPR_CLKPWR_REFUSED, regKPR_SVC_VIOL, regKPR_EVT_LOST]

def regMSR_MSR_SCRUB : RegDef := ⟨"MSR_SCRUB", 0x0, 1, 0x4, false, .plain,
  [⟨"EN", 31, 31, .rw, .l, 1, 0, 0, 1⟩,
   ⟨"PASS_S", 5, 0, .rw, .l, 10, 1, 60, 1⟩], 0x0, 0x0⟩
def regMSR_MSR_STAT : RegDef := ⟨"MSR_STAT", 0x4, 1, 0x4, false, .plain,
  [⟨"STALE", 31, 31, .ro, .no, 0, 0, 0, 1⟩,
   ⟨"PAUSED", 30, 30, .ro, .no, 0, 0, 0, 1⟩,
   ⟨"POS", 9, 0, .ro, .no, 0, 0, 0, 1⟩], 0x0, 0x0⟩
def regMSR_MSR_PART : RegDef := ⟨"MSR_PART", 0x8, 1, 0x4, false, .plain,
  [⟨"STALE", 31, 31, .ro, .no, 0, 0, 0, 1⟩,
   ⟨"OVERLAP", 30, 30, .ro, .no, 0, 0, 0, 1⟩,
   ⟨"OWNER", 29, 29, .ro, .no, 0, 0, 0, 1⟩,
   ⟨"OWN_GRAIN", 25, 16, .ro, .no, 0, 0, 0, 1⟩,
   ⟨"OVL_GRAIN", 9, 0, .ro, .no, 0, 0, 0, 1⟩], 0x0, 0x0⟩
def regMSR_MSR_UE_ADDR : RegDef := ⟨"MSR_UE_ADDR", 0xC, 1, 0x4, false, .plain,
  [⟨"STALE", 31, 31, .ro, .no, 0, 0, 0, 1⟩,
   ⟨"ADDR", 25, 0, .ro, .no, 0, 0, 0, 1⟩], 0x0, 0x0⟩
def regMSR_MSR_CE : RegDef := ⟨"MSR_CE", 0x40, 1, 0x4, true, .error,
  [], 0x0, 0x0⟩
def regMSR_MSR_UE : RegDef := ⟨"MSR_UE", 0x48, 1, 0x4, true, .error,
  [], 0x0, 0x0⟩
def regMSR_SCRUB_PASSES : RegDef := ⟨"SCRUB_PASSES", 0x50, 1, 0x4, true, .event,
  [], 0x0, 0x0⟩
def regMSR_SCRUB_LATE : RegDef := ⟨"SCRUB_LATE", 0x58, 1, 0x4, true, .error,
  [], 0x0, 0x0⟩

/-- The registers of block kind MSR. -/
def regsMSR : List RegDef :=
  [regMSR_MSR_SCRUB, regMSR_MSR_STAT, regMSR_MSR_PART, regMSR_MSR_UE_ADDR, regMSR_MSR_CE, regMSR_MSR_UE, regMSR_SCRUB_PASSES, regMSR_SCRUB_LATE]

def regNVM_NVM_CMD : RegDef := ⟨"NVM_CMD", 0x0, 1, 0x4, false, .plain,
  [⟨"OP", 31, 30, .wo, .l, 0, 0, 0, 1⟩,
   ⟨"SECTOR", 7, 0, .wo, .l, 0, 0, 0, 1⟩], 0x0, 0x0⟩
def regNVM_NVM_ADDR : RegDef := ⟨"NVM_ADDR", 0x4, 1, 0x4, false, .plain,
  [⟨"LINE", 15, 9, .rw, .l, 0, 0, 0, 1⟩], 0x0, 0x0⟩
def regNVM_NVM_STAT : RegDef := ⟨"NVM_STAT", 0x8, 1, 0x4, false, .plain,
  [⟨"STALE", 31, 31, .ro, .no, 0, 0, 0, 1⟩,
   ⟨"BUSY", 30, 30, .ro, .no, 0, 0, 0, 1⟩,
   ⟨"FAIL", 29, 29, .ro, .no, 0, 0, 0, 1⟩,
   ⟨"SUSPENDED", 28, 28, .ro, .no, 0, 0, 0, 1⟩,
   ⟨"ARMED", 19, 16, .ro, .no, 0, 0, 0, 1⟩,
   ⟨"FREE_LOG", 15, 0, .ro, .no, 0, 0, 0, 1⟩], 0x0, 0x0⟩
def regNVM_PSTORE : RegDef := ⟨"PSTORE", 0xC, 1, 0x4, false, .plain,
  [⟨"EN", 31, 31, .rw, .l, 0, 0, 0, 1⟩,
   ⟨"FLUSH_MS", 15, 0, .rw, .l, 1000, 10, 60000, 1⟩], 0x0, 0x0⟩
def regNVM_PCACHE_CFG : RegDef := ⟨"PCACHE_CFG", 0x10, 1, 0x4, false, .plain,
  [⟨"BASE", 21, 12, .rw, .s, 208, 0, 0, 1⟩,
   ⟨"GRAINS", 2, 0, .rw, .s, 2, 1, 4, 1⟩], 0x0, 0x0⟩
def regNVM_NVM_BUF : RegDef := ⟨"NVM_BUF", 0x200, 128, 0x4, false, .plain,
  [⟨"DATA", 31, 0, .rw, .l, 0, 0, 0, 1⟩], 0x0, 0x0⟩
def regNVM_NVM_RETIRED : RegDef := ⟨"NVM_RETIRED", 0x40, 1, 0x4, true, .error,
  [], 0x0, 0x0⟩
def regNVM_SAVE_NONE : RegDef := ⟨"SAVE_NONE", 0x48, 1, 0x4, true, .error,
  [], 0x0, 0x0⟩
def regNVM_PS_BADLINE : RegDef := ⟨"PS_BADLINE", 0x50, 1, 0x4, true, .error,
  [], 0x0, 0x0⟩
def regNVM_NVM_ERASES : RegDef := ⟨"NVM_ERASES", 0x58, 1, 0x4, true, .event,
  [], 0x0, 0x0⟩

/-- The registers of block kind NVM. -/
def regsNVM : List RegDef :=
  [regNVM_NVM_CMD, regNVM_NVM_ADDR, regNVM_NVM_STAT, regNVM_PSTORE, regNVM_PCACHE_CFG, regNVM_NVM_BUF, regNVM_NVM_RETIRED, regNVM_SAVE_NONE, regNVM_PS_BADLINE, regNVM_NVM_ERASES]

def regMC_MC_CFG : RegDef := ⟨"MC_CFG", 0x0, 1, 0x4, false, .plain,
  [⟨"EN", 31, 31, .rw, .s, 1, 0, 0, 1⟩,
   ⟨"RATE", 27, 24, .rw, .s, 5, 0, 5, 1⟩,
   ⟨"CAP", 21, 20, .rw, .s, 3, 0, 0, 1⟩], 0x0, 0x0⟩
def regMC_MC_CTRL : RegDef := ⟨"MC_CTRL", 0x4, 1, 0x4, false, .plain,
  [⟨"TRAIN", 31, 31, .wo, .l, 0, 0, 0, 1⟩,
   ⟨"RETRAIN", 30, 30, .wo, .l, 0, 0, 0, 1⟩], 0x0, 0x0⟩
def regMC_MC_STAT : RegDef := ⟨"MC_STAT", 0x8, 1, 0x4, false, .plain,
  [⟨"STALE", 31, 31, .ro, .no, 0, 0, 0, 1⟩,
   ⟨"STATE", 30, 28, .ro, .no, 0, 0, 0, 1⟩,
   ⟨"FENCE_CAUSE", 27, 24, .ro, .no, 0, 0, 0, 1⟩,
   ⟨"LANE_FAIL", 23, 20, .ro, .no, 0, 0, 0, 1⟩,
   ⟨"RFM_SUP", 19, 19, .ro, .no, 0, 0, 0, 1⟩,
   ⟨"REF_FACTOR", 18, 16, .ro, .no, 2, 0, 0, 1⟩], 0x0, 0x0⟩
def regMC_TRAIN_CFG : RegDef := ⟨"TRAIN_CFG", 0xC, 1, 0x4, false, .plain,
  [⟨"EYE_MIN", 7, 0, .rw, .s, 12, 4, 64, 1⟩], 0x0, 0x0⟩
def regMC_LANE_RD : RegDef := ⟨"LANE_RD", 0x10, 4, 0x8, false, .plain,
  [⟨"STALE", 31, 31, .ro, .no, 0, 0, 0, 1⟩,
   ⟨"EYE", 30, 23, .ro, .no, 0, 0, 0, 1⟩,
   ⟨"VREF", 22, 20, .ro, .no, 0, 0, 0, 1⟩,
   ⟨"DLY", 6, 0, .ro, .no, 0, 0, 0, 1⟩], 0x0, 0x0⟩
def regMC_LANE_WR : RegDef := ⟨"LANE_WR", 0x14, 4, 0x8, false, .plain,
  [⟨"STALE", 31, 31, .ro, .no, 0, 0, 0, 1⟩,
   ⟨"EYE", 30, 23, .ro, .no, 0, 0, 0, 1⟩,
   ⟨"VREF", 22, 20, .ro, .no, 0, 0, 0, 1⟩,
   ⟨"DLY", 6, 0, .ro, .no, 0, 0, 0, 1⟩], 0x0, 0x0⟩
def regMC_SCHED_CFG : RegDef := ⟨"SCHED_CFG", 0x30, 1, 0x4, false, .plain,
  [⟨"AGE_US", 23, 16, .rw, .l, 20, 1, 255, 1⟩,
   ⟨"WR_HIGH", 12, 8, .rw, .l, 24, 2, 31, 1⟩,
   ⟨"WR_LOW", 4, 0, .rw, .l, 8, 0, 30, 1⟩], 0x0, 0x0⟩
def regMC_REF_STAT : RegDef := ⟨"REF_STAT", 0x34, 1, 0x4, false, .plain,
  [⟨"STALE", 31, 31, .ro, .no, 0, 0, 0, 1⟩,
   ⟨"DEBT_SC1", 12, 8, .ro, .no, 0, 0, 0, 1⟩,
   ⟨"DEBT_SC0", 4, 0, .ro, .no, 0, 0, 0, 1⟩], 0x0, 0x0⟩
def regMC_RH_CFG : RegDef := ⟨"RH_CFG", 0x38, 1, 0x4, false, .plain,
  [⟨"EN", 31, 31, .rw, .l, 1, 0, 0, 1⟩,
   ⟨"THRESH", 15, 0, .rw, .l, 2048, 256, 65535, 1⟩], 0x0, 0x0⟩
def regMC_DRIFT_CFG : RegDef := ⟨"DRIFT_CFG", 0x3C, 1, 0x4, false, .plain,
  [⟨"EN", 31, 31, .rw, .l, 1, 0, 0, 1⟩,
   ⟨"PERIOD_MS", 25, 16, .rw, .l, 250, 50, 1000, 1⟩,
   ⟨"DRIFT_MAX", 5, 0, .rw, .l, 8, 1, 32, 1⟩], 0x0, 0x0⟩
def regMC_ACTS : RegDef := ⟨"ACTS", 0x80, 1, 0x4, true, .event,
  [], 0x0, 0x0⟩
def regMC_RD_BYTES : RegDef := ⟨"RD_BYTES", 0x88, 1, 0x4, true, .event,
  [], 0x0, 0x0⟩
def regMC_WR_BYTES : RegDef := ⟨"WR_BYTES", 0x90, 1, 0x4, true, .event,
  [], 0x0, 0x0⟩
def regMC_REF_FORCED : RegDef := ⟨"REF_FORCED", 0x98, 1, 0x4, true, .event,
  [], 0x0, 0x0⟩
def regMC_RH_TRR : RegDef := ⟨"RH_TRR", 0xA0, 1, 0x4, true, .event,
  [], 0x0, 0x0⟩
def regMC_CE : RegDef := ⟨"CE", 0xA8, 1, 0x4, true, .error,
  [], 0x0, 0x0⟩
def regMC_UE : RegDef := ⟨"UE", 0xB0, 1, 0x4, true, .error,
  [], 0x0, 0x0⟩
def regMC_DRIFT_FAIL : RegDef := ⟨"DRIFT_FAIL", 0xB8, 1, 0x4, true, .error,
  [], 0x0, 0x0⟩
def regMC_RETRAINS : RegDef := ⟨"RETRAINS", 0xC0, 1, 0x4, true, .error,
  [], 0x0, 0x0⟩
def regMC_DRIFT_SKIP : RegDef := ⟨"DRIFT_SKIP", 0xC8, 1, 0x4, true, .error,
  [], 0x0, 0x0⟩
def regMC_PANIC_CYC : RegDef := ⟨"PANIC_CYC", 0xD0, 1, 0x4, true, .event,
  [], 0x0, 0x0⟩
def regMC_MAP_CTRL : RegDef := ⟨"MAP_CTRL", 0x100, 1, 0x4, false, .plain,
  [⟨"BUILD", 31, 31, .wo, .l, 0, 0, 0, 1⟩], 0x0, 0x0⟩
def regMC_MAP_STAT : RegDef := ⟨"MAP_STAT", 0x104, 1, 0x4, false, .plain,
  [⟨"STALE", 31, 31, .ro, .no, 0, 0, 0, 1⟩,
   ⟨"BUILT", 30, 30, .ro, .no, 0, 0, 0, 1⟩,
   ⟨"DEGRADED", 29, 29, .ro, .no, 0, 0, 0, 1⟩,
   ⟨"ECC_BUSY", 28, 28, .ro, .no, 0, 0, 0, 1⟩,
   ⟨"N", 22, 20, .ro, .no, 0, 0, 0, 1⟩,
   ⟨"SURV", 19, 16, .ro, .no, 0, 0, 0, 1⟩,
   ⟨"PAGES", 14, 0, .ro, .no, 0, 0, 0, 1⟩], 0x0, 0x0⟩
def regMC_SCRUB_CFG : RegDef := ⟨"SCRUB_CFG", 0x108, 1, 0x4, false, .plain,
  [⟨"EN", 31, 31, .rw, .l, 1, 0, 0, 1⟩,
   ⟨"HOURS", 7, 0, .rw, .l, 24, 1, 168, 1⟩], 0x0, 0x0⟩
def regMC_SCRUB_STAT : RegDef := ⟨"SCRUB_STAT", 0x10C, 1, 0x4, false, .plain,
  [⟨"STALE", 31, 31, .ro, .no, 0, 0, 0, 1⟩,
   ⟨"RUNNING", 30, 30, .ro, .no, 0, 0, 0, 1⟩,
   ⟨"FAST", 29, 29, .ro, .no, 0, 0, 0, 1⟩,
   ⟨"PROGRESS", 9, 0, .ro, .no, 0, 0, 0, 1⟩], 0x0, 0x0⟩
def regMC_ECC_MAP : RegDef := ⟨"ECC_MAP", 0x110, 4, 0x4, false, .plain,
  [⟨"ECC", 31, 0, .rw, .b, 0, 0, 0, 1⟩], 0x0, 0x0⟩
def regMC_SCRUB_PASSES : RegDef := ⟨"SCRUB_PASSES", 0x120, 1, 0x4, true, .event,
  [], 0x0, 0x0⟩

/-- The registers of block kind MC. -/
def regsMC : List RegDef :=
  [regMC_MC_CFG, regMC_MC_CTRL, regMC_MC_STAT, regMC_TRAIN_CFG, regMC_LANE_RD, regMC_LANE_WR, regMC_SCHED_CFG, regMC_REF_STAT, regMC_RH_CFG, regMC_DRIFT_CFG, regMC_ACTS, regMC_RD_BYTES, regMC_WR_BYTES, regMC_REF_FORCED, regMC_RH_TRR, regMC_CE, regMC_UE, regMC_DRIFT_FAIL, regMC_RETRAINS, regMC_DRIFT_SKIP] ++
  [regMC_PANIC_CYC, regMC_MAP_CTRL, regMC_MAP_STAT, regMC_SCRUB_CFG, regMC_SCRUB_STAT, regMC_ECC_MAP, regMC_SCRUB_PASSES]

def regLGR_LG_CTRL : RegDef := ⟨"LG_CTRL", 0x0, 1, 0x4, false, .plain,
  [⟨"INIT", 31, 31, .wo, .l, 0, 0, 0, 1⟩,
   ⟨"SEAL", 30, 30, .wo, .l, 0, 0, 0, 1⟩,
   ⟨"FULL_BLANK", 1, 1, .rw, .l, 0, 0, 0, 1⟩,
   ⟨"EN", 0, 0, .rw, .l, 0, 0, 0, 1⟩], 0x0, 0x0⟩
def regLGR_LG_CFG : RegDef := ⟨"LG_CFG", 0x4, 1, 0x4, false, .plain,
  [⟨"RING_BASE", 21, 12, .rw, .s, 0, 0, 0, 1⟩,
   ⟨"RING_GRAINS", 6, 0, .rw, .s, 16, 1, 64, 1⟩], 0x0, 0x0⟩
def regLGR_LG_SEALCFG : RegDef := ⟨"LG_SEALCFG", 0x8, 1, 0x4, false, .plain,
  [⟨"SEAL_PERIOD_S", 11, 0, .rw, .l, 60, 0, 3600, 1⟩], 0x0, 0x0⟩
def regLGR_LG_STAT : RegDef := ⟨"LG_STAT", 0xC, 1, 0x4, false, .plain,
  [⟨"STALE", 31, 31, .ro, .no, 0, 0, 0, 1⟩,
   ⟨"EN", 30, 30, .ro, .no, 0, 0, 0, 1⟩,
   ⟨"FULL", 29, 29, .ro, .no, 0, 0, 0, 1⟩,
   ⟨"SEALING", 28, 28, .ro, .no, 0, 0, 0, 1⟩,
   ⟨"SEAL_WAIT", 27, 27, .ro, .no, 0, 0, 0, 1⟩,
   ⟨"NO_CHAIN", 26, 26, .ro, .no, 1, 0, 0, 1⟩,
   ⟨"FREE", 16, 0, .ro, .no, 0, 0, 0, 1⟩], 0x0, 0x0⟩
def regLGR_LG_WR : RegDef := ⟨"LG_WR", 0x10, 1, 0x4, false, .plain,
  [⟨"STALE", 31, 31, .ro, .no, 0, 0, 0, 1⟩,
   ⟨"INDEX", 15, 0, .ro, .no, 0, 0, 0, 1⟩], 0x0, 0x0⟩
def regLGR_LG_ACK : RegDef := ⟨"LG_ACK", 0x14, 1, 0x4, false, .plain,
  [⟨"INDEX", 15, 0, .rw, .l, 0, 0, 0, 1⟩], 0x0, 0x0⟩
def regLGR_LG_SEQ : RegDef := ⟨"LG_SEQ", 0x18, 1, 0x4, true, .event,
  [], 0x0, 0x0⟩
def regLGR_LG_DROP : RegDef := ⟨"LG_DROP", 0x20, 1, 0x4, true, .error,
  [], 0x0, 0x0⟩
def regLGR_LG_SEALS : RegDef := ⟨"LG_SEALS", 0x28, 1, 0x4, true, .event,
  [], 0x0, 0x0⟩
def regLGR_LG_HEAD : RegDef := ⟨"LG_HEAD", 0x40, 8, 0x4, false, .plain,
  [⟨"HEAD", 31, 0, .ro, .no, 0, 0, 0, 1⟩], 0x0, 0x0⟩
def regLGR_LG_CHAIN : RegDef := ⟨"LG_CHAIN", 0x60, 4, 0x4, false, .plain,
  [⟨"ID", 31, 0, .ro, .no, 0, 0, 0, 1⟩], 0x0, 0x0⟩

/-- The registers of block kind LGR. -/
def regsLGR : List RegDef :=
  [regLGR_LG_CTRL, regLGR_LG_CFG, regLGR_LG_SEALCFG, regLGR_LG_STAT, regLGR_LG_WR, regLGR_LG_ACK, regLGR_LG_SEQ, regLGR_LG_DROP, regLGR_LG_SEALS, regLGR_LG_HEAD, regLGR_LG_CHAIN]

def regPIPE_PSTATE : RegDef := ⟨"PSTATE", 0x0, 1, 0x4, false, .plain,
  [⟨"STALE", 31, 31, .ro, .no, 0, 0, 0, 1⟩,
   ⟨"STATE", 30, 28, .ro, .no, 0, 0, 0, 1⟩,
   ⟨"FAULT_CAUSE", 27, 24, .ro, .no, 0, 0, 0, 1⟩,
   ⟨"BLANK_SW", 23, 23, .ro, .no, 0, 0, 0, 1⟩,
   ⟨"BLANK_SAVE", 22, 22, .ro, .no, 0, 0, 0, 1⟩,
   ⟨"BLANK_PITCH", 21, 21, .ro, .no, 0, 0, 0, 1⟩,
   ⟨"BLANK_FIRST", 20, 20, .ro, .no, 0, 0, 0, 1⟩,
   ⟨"ISL_STEP", 7, 0, .ro, .no, 0, 0, 0, 1⟩], 0x0, 0x0⟩
def regPIPE_PCTRL : RegDef := ⟨"PCTRL", 0x4, 1, 0x4, false, .plain,
  [⟨"START", 31, 31, .wo, .l, 0, 0, 0, 1⟩,
   ⟨"STOP", 30, 30, .wo, .l, 0, 0, 0, 1⟩,
   ⟨"AUTO_RECOVER", 1, 1, .rw, .l, 1, 0, 0, 1⟩,
   ⟨"BLANK", 0, 0, .rw, .f, 0, 0, 0, 1⟩], 0x0, 0x0⟩
def regPIPE_TMG_H0 : RegDef := ⟨"TMG_H0", 0x10, 1, 0x4, false, .plain,
  [⟨"HACTIVE", 28, 16, .rw, .s, 3840, 0, 0, 1⟩,
   ⟨"HFP", 11, 0, .rw, .s, 176, 0, 0, 1⟩], 0x0, 0x0⟩
def regPIPE_TNX_H0 : RegDef := ⟨"TNX_H0", 0x30, 1, 0x4, false, .plain,
  [⟨"HACTIVE", 28, 16, .rw, .f, 3840, 0, 0, 1⟩,
   ⟨"HFP", 11, 0, .rw, .f, 176, 0, 0, 1⟩], 0x0, 0x0⟩
def regPIPE_TMG_H1 : RegDef := ⟨"TMG_H1", 0x14, 1, 0x4, false, .plain,
  [⟨"HSYNC", 27, 16, .rw, .s, 88, 0, 0, 1⟩,
   ⟨"HBP", 11, 0, .rw, .s, 296, 0, 0, 1⟩], 0x0, 0x0⟩
def regPIPE_TNX_H1 : RegDef := ⟨"TNX_H1", 0x34, 1, 0x4, false, .plain,
  [⟨"HSYNC", 27, 16, .rw, .f, 88, 0, 0, 1⟩,
   ⟨"HBP", 11, 0, .rw, .f, 296, 0, 0, 1⟩], 0x0, 0x0⟩
def regPIPE_TMG_V0 : RegDef := ⟨"TMG_V0", 0x18, 1, 0x4, false, .plain,
  [⟨"VACTIVE", 28, 16, .rw, .s, 2160, 0, 0, 1⟩,
   ⟨"VFP", 7, 0, .rw, .s, 8, 0, 0, 1⟩], 0x0, 0x0⟩
def regPIPE_TNX_V0 : RegDef := ⟨"TNX_V0", 0x38, 1, 0x4, false, .plain,
  [⟨"VACTIVE", 28, 16, .rw, .f, 2160, 0, 0, 1⟩,
   ⟨"VFP", 7, 0, .rw, .f, 8, 0, 0, 1⟩], 0x0, 0x0⟩
def regPIPE_TMG_V1 : RegDef := ⟨"TMG_V1", 0x1C, 1, 0x4, false, .plain,
  [⟨"VSYNC", 21, 16, .rw, .s, 10, 0, 0, 1⟩,
   ⟨"VBP", 7, 0, .rw, .s, 72, 0, 0, 1⟩], 0x0, 0x0⟩
def regPIPE_TNX_V1 : RegDef := ⟨"TNX_V1", 0x3C, 1, 0x4, false, .plain,
  [⟨"VSYNC", 21, 16, .rw, .f, 10, 0, 0, 1⟩,
   ⟨"VBP", 7, 0, .rw, .f, 72, 0, 0, 1⟩], 0x0, 0x0⟩
def regPIPE_TMG_CLK : RegDef := ⟨"TMG_CLK", 0x20, 1, 0x4, false, .plain,
  [⟨"HPOL", 31, 31, .rw, .s, 1, 0, 0, 1⟩,
   ⟨"VPOL", 30, 30, .rw, .s, 1, 0, 0, 1⟩,
   ⟨"BPC", 29, 28, .rw, .s, 2, 0, 0, 1⟩,
   ⟨"PCLK_KHZ", 19, 0, .rw, .s, 594000, 0, 0, 1⟩], 0x0, 0x0⟩
def regPIPE_TNX_CLK : RegDef := ⟨"TNX_CLK", 0x40, 1, 0x4, false, .plain,
  [⟨"HPOL", 31, 31, .rw, .f, 1, 0, 0, 1⟩,
   ⟨"VPOL", 30, 30, .rw, .f, 1, 0, 0, 1⟩,
   ⟨"BPC", 29, 28, .rw, .f, 2, 0, 0, 1⟩,
   ⟨"PCLK_KHZ", 19, 0, .rw, .f, 594000, 0, 0, 1⟩], 0x0, 0x0⟩
def regPIPE_TNX_CTRL : RegDef := ⟨"TNX_CTRL", 0x44, 1, 0x4, false, .plain,
  [⟨"GO", 31, 31, .wo, .f, 0, 0, 0, 1⟩,
   ⟨"NEW_LINK", 8, 8, .rw, .f, 0, 0, 0, 1⟩,
   ⟨"RATE", 5, 4, .rw, .f, 3, 0, 0, 1⟩,
   ⟨"LANES", 1, 0, .rw, .f, 2, 0, 0, 1⟩], 0x0, 0x0⟩
def regPIPE_TSTAT : RegDef := ⟨"TSTAT", 0x48, 1, 0x4, false, .plain,
  [⟨"STALE", 31, 31, .ro, .no, 0, 0, 0, 1⟩,
   ⟨"PENDING", 30, 30, .ro, .no, 0, 0, 0, 1⟩,
   ⟨"LATE", 29, 29, .ro, .no, 0, 0, 0, 1⟩,
   ⟨"REJECT", 27, 24, .ro, .no, 0, 0, 0, 1⟩], 0x0, 0x0⟩
def regPIPE_SYNC_SRC : RegDef := ⟨"SYNC_SRC", 0x50, 1, 0x4, false, .plain,
  [⟨"SRC", 31, 28, .rw, .f, 0, 0, 0, 1⟩,
   ⟨"OFFSET_LINES", 25, 13, .rw, .f, 0, 0, 0, 1⟩,
   ⟨"OFFSET_PIX", 12, 0, .rw, .f, 0, 0, 0, 1⟩], 0x0, 0x0⟩
def regPIPE_SYNC_CTRL : RegDef := ⟨"SYNC_CTRL", 0x54, 1, 0x4, false, .plain,
  [⟨"REALIGN", 0, 0, .wo, .f, 0, 0, 0, 1⟩], 0x0, 0x0⟩
def regPIPE_SYNC_STAT : RegDef := ⟨"SYNC_STAT", 0x58, 1, 0x4, false, .plain,
  [⟨"STALE", 31, 31, .ro, .no, 0, 0, 0, 1⟩,
   ⟨"LOCKED", 30, 30, .ro, .no, 0, 0, 0, 1⟩,
   ⟨"HOLDOVER", 29, 29, .ro, .no, 0, 0, 0, 1⟩,
   ⟨"SYNC_LOST", 28, 28, .ro, .no, 0, 0, 0, 1⟩,
   ⟨"OUT_OF_RANGE", 27, 27, .ro, .no, 0, 0, 0, 1⟩,
   ⟨"MISSED", 23, 20, .ro, .no, 0, 0, 0, 1⟩,
   ⟨"PHASE_ERR", 19, 0, .ro, .no, 0, 0, 0, 1⟩], 0x0, 0x0⟩
def regPIPE_SYNC_TRIM : RegDef := ⟨"SYNC_TRIM", 0x5C, 1, 0x4, false, .plain,
  [⟨"STALE", 31, 31, .ro, .no, 0, 0, 0, 1⟩,
   ⟨"TRIM_PPM", 15, 0, .ro, .no, 0, 0, 0, 1⟩], 0x0, 0x0⟩
def regPIPE_LINE_POS : RegDef := ⟨"LINE_POS", 0x60, 1, 0x4, false, .plain,
  [⟨"STALE", 31, 31, .ro, .no, 0, 0, 0, 1⟩,
   ⟨"LINE", 28, 16, .ro, .no, 0, 0, 0, 1⟩,
   ⟨"FRAME_LO", 15, 0, .ro, .no, 0, 0, 0, 1⟩], 0x0, 0x0⟩
def regPIPE_FRAME : RegDef := ⟨"FRAME", 0x68, 1, 0x4, true, .frame,
  [], 0x0, 0x0⟩
def regPIPE_SYNC_LOSS : RegDef := ⟨"SYNC_LOSS", 0x70, 1, 0x4, true, .error,
  [], 0x0, 0x0⟩
def regPIPE_LOCK_DROP : RegDef := ⟨"LOCK_DROP", 0x78, 1, 0x4, true, .error,
  [], 0x0, 0x0⟩
def regPIPE_DL_CFG : RegDef := ⟨"DL_CFG", 0x80, 1, 0x4, false, .plain,
  [⟨"LEAD_US", 13, 0, .rw, .l, 3000, 250, 16000, 1⟩], 0x0, 0x0⟩
def regPIPE_TTL : RegDef := ⟨"TTL", 0x84, 1, 0x4, false, .plain,
  [⟨"STALE", 31, 31, .ro, .no, 0, 0, 0, 1⟩,
   ⟨"VALID", 30, 30, .ro, .no, 0, 0, 0, 1⟩,
   ⟨"WINDOW", 29, 29, .ro, .no, 0, 0, 0, 1⟩,
   ⟨"TTL_US", 23, 0, .ro, .no, 0, 0, 0, 1⟩], 0x0, 0x0⟩
def regPIPE_CBUF_LO : RegDef := ⟨"CBUF_LO", 0x100, 8, 0x40, false, .plain,
  [⟨"ADDR", 31, 6, .rw, .f, 0, 0, 0, 1⟩], 0x0, 0x0⟩
def regPIPE_CBUF_HI : RegDef := ⟨"CBUF_HI", 0x104, 8, 0x40, false, .plain,
  [⟨"ADDR", 31, 0, .rw, .f, 0, 0, 0, 1⟩], 0x0, 0x0⟩
def regPIPE_CFENCE : RegDef := ⟨"CFENCE", 0x108, 8, 0x40, false, .plain,
  [⟨"ACQ_EN", 31, 31, .rw, .f, 0, 0, 0, 1⟩,
   ⟨"REL_EN", 30, 30, .rw, .f, 0, 0, 0, 1⟩,
   ⟨"REL_IDX", 21, 16, .rw, .f, 0, 0, 0, 1⟩,
   ⟨"ACQ_IDX", 5, 0, .rw, .f, 0, 0, 0, 1⟩], 0x0, 0x0⟩
def regPIPE_CACQ_VAL : RegDef := ⟨"CACQ_VAL", 0x10C, 8, 0x40, false, .plain,
  [⟨"VAL", 31, 0, .rw, .f, 0, 0, 0, 1⟩], 0x0, 0x0⟩
def regPIPE_CREL_VAL : RegDef := ⟨"CREL_VAL", 0x110, 8, 0x40, false, .plain,
  [⟨"VAL", 31, 0, .rw, .f, 0, 0, 0, 1⟩], 0x0, 0x0⟩
def regPIPE_COMMIT : RegDef := ⟨"COMMIT", 0x114, 8, 0x40, false, .plain,
  [⟨"COMMIT", 31, 31, .wo, .l, 0, 0, 0, 1⟩,
   ⟨"CANCEL", 30, 30, .wo, .l, 0, 0, 0, 1⟩], 0x0, 0x0⟩
def regPIPE_CSTAT : RegDef := ⟨"CSTAT", 0x118, 8, 0x40, false, .plain,
  [⟨"STALE", 31, 31, .ro, .no, 0, 0, 0, 1⟩,
   ⟨"PENDING", 30, 30, .ro, .no, 0, 0, 0, 1⟩,
   ⟨"HELD", 29, 29, .ro, .no, 0, 0, 0, 1⟩,
   ⟨"NOT_READY", 28, 28, .ro, .no, 0, 0, 0, 1⟩,
   ⟨"LATE", 27, 27, .ro, .no, 0, 0, 0, 1⟩,
   ⟨"FALLBACK", 26, 26, .ro, .no, 0, 0, 0, 1⟩,
   ⟨"RESULT", 25, 23, .ro, .no, 0, 0, 0, 1⟩,
   ⟨"NR_RUN", 19, 16, .ro, .no, 0, 0, 0, 1⟩,
   ⟨"FRAME_LO", 15, 0, .ro, .no, 0, 0, 0, 1⟩], 0x0, 0x0⟩
def regPIPE_LC_RSV : RegDef := ⟨"LC_RSV", 0x11C, 8, 0x40, false, .plain,
  [], 0x0, 0x0⟩
def regPIPE_LNOTREADY : RegDef := ⟨"LNOTREADY", 0x120, 8, 0x40, true, .error,
  [], 0x0, 0x0⟩
def regPIPE_LLATE : RegDef := ⟨"LLATE", 0x128, 8, 0x40, true, .error,
  [], 0x0, 0x0⟩
def regPIPE_LC_RSV1 : RegDef := ⟨"LC_RSV1", 0x130, 8, 0x40, false, .plain,
  [], 0x0, 0x0⟩
def regPIPE_LC_RSV2 : RegDef := ⟨"LC_RSV2", 0x134, 8, 0x40, false, .plain,
  [], 0x0, 0x0⟩
def regPIPE_LC_RSV3 : RegDef := ⟨"LC_RSV3", 0x138, 8, 0x40, false, .plain,
  [], 0x0, 0x0⟩
def regPIPE_LC_RSV4 : RegDef := ⟨"LC_RSV4", 0x13C, 8, 0x40, false, .plain,
  [], 0x0, 0x0⟩
def regPIPE_CMODE_CFG : RegDef := ⟨"CMODE_CFG", 0x300, 1, 0x4, false, .plain,
  [⟨"MODE", 31, 31, .rw, .f, 1, 0, 0, 1⟩,
   ⟨"FALLBACK_FRAMES", 19, 16, .rw, .f, 3, 1, 15, 1⟩,
   ⟨"GUARD", 4, 0, .rw, .f, 2, 1, 16, 1⟩], 0x0, 0x0⟩
def regPIPE_PCOMMIT : RegDef := ⟨"PCOMMIT", 0x304, 1, 0x4, false, .plain,
  [⟨"PIPE", 31, 31, .wo, .l, 0, 0, 0, 1⟩,
   ⟨"LOCK", 30, 30, .wo, .l, 0, 0, 0, 1⟩,
   ⟨"CANCEL_PIPE", 29, 29, .wo, .l, 0, 0, 0, 1⟩,
   ⟨"CANCEL_LOCK", 28, 28, .wo, .l, 0, 0, 0, 1⟩], 0x0, 0x0⟩
def regPIPE_PCSTAT : RegDef := ⟨"PCSTAT", 0x308, 1, 0x4, false, .plain,
  [⟨"STALE", 31, 31, .ro, .no, 0, 0, 0, 1⟩,
   ⟨"PIPE_PEND", 30, 30, .ro, .no, 0, 0, 0, 1⟩,
   ⟨"LOCK_PEND", 29, 29, .ro, .no, 0, 0, 0, 1⟩,
   ⟨"PIPE_LATE", 28, 28, .ro, .no, 0, 0, 0, 1⟩,
   ⟨"LOCK_LATE", 27, 27, .ro, .no, 0, 0, 0, 1⟩,
   ⟨"MODE", 26, 26, .ro, .no, 1, 0, 0, 1⟩,
   ⟨"RESULT", 25, 23, .ro, .no, 0, 0, 0, 1⟩,
   ⟨"AWN_PEND", 22, 22, .ro, .no, 0, 0, 0, 1⟩,
   ⟨"AWN_LATE", 21, 21, .ro, .no, 0, 0, 0, 1⟩,
   ⟨"LATCH_FRAME", 15, 0, .ro, .no, 0, 0, 0, 1⟩], 0x0, 0x0⟩
def regPIPE_ACOMMIT : RegDef := ⟨"ACOMMIT", 0x30C, 1, 0x4, false, .plain,
  [⟨"COMMIT", 31, 31, .wo, .l, 0, 0, 0, 1⟩,
   ⟨"CANCEL", 30, 30, .wo, .l, 0, 0, 0, 1⟩], 0x0, 0x0⟩
def regPIPE_KREL : RegDef := ⟨"KREL", 0x310, 1, 0x4, false, .plain,
  [⟨"REJECT", 15, 8, .wo, .l, 0, 0, 0, 1⟩,
   ⟨"RELEASE", 7, 0, .wo, .l, 0, 0, 0, 1⟩], 0x0, 0x0⟩
def regPIPE_KHELD : RegDef := ⟨"KHELD", 0x314, 1, 0x4, false, .plain,
  [⟨"STALE", 31, 31, .ro, .no, 0, 0, 0, 1⟩,
   ⟨"HELD", 7, 0, .ro, .no, 0, 0, 0, 1⟩], 0x0, 0x0⟩
def regPIPE_PLATE : RegDef := ⟨"PLATE", 0x318, 1, 0x4, true, .error,
  [], 0x0, 0x0⟩
def regPIPE_LS_WAIT : RegDef := ⟨"LS_WAIT", 0x320, 1, 0x4, true, .event,
  [], 0x0, 0x0⟩
def regPIPE_BW_REFUSED : RegDef := ⟨"BW_REFUSED", 0x328, 1, 0x4, true, .error,
  [], 0x0, 0x0⟩
def regPIPE_LCFG : RegDef := ⟨"LCFG", 0x400, 8, 0x80, false, .plain,
  [⟨"EN", 31, 31, .rw, .f, 0, 0, 0, 1⟩,
   ⟨"FORMAT", 27, 24, .rw, .f, 3, 0, 7, 1⟩,
   ⟨"PREMULT", 23, 23, .rw, .f, 0, 0, 0, 1⟩,
   ⟨"IGNORE_ALPHA", 22, 22, .rw, .f, 0, 0, 0, 1⟩,
   ⟨"NO_OCCLUDE", 21, 21, .rw, .f, 0, 0, 0, 1⟩,
   ⟨"REPROJ_EN", 20, 20, .rw, .f, 0, 0, 0, 1⟩,
   ⟨"REPROJ_EDGE", 19, 19, .rw, .f, 0, 0, 0, 1⟩,
   ⟨"YCC_STD", 18, 17, .rw, .f, 1, 0, 2, 1⟩,
   ⟨"YCC_FULL", 16, 16, .rw, .f, 0, 0, 0, 1⟩], 0x0, 0x0⟩
def regPIPE_LALPHA : RegDef := ⟨"LALPHA", 0x404, 8, 0x80, false, .plain,
  [⟨"ALPHA", 11, 0, .rw, .f, 4095, 0, 0, 1⟩], 0x0, 0x0⟩
def regPIPE_LPOS : RegDef := ⟨"LPOS", 0x408, 8, 0x80, false, .plain,
  [⟨"DST_X", 28, 16, .rw, .f, 0, 0, 3838, 2⟩,
   ⟨"DST_Y", 12, 0, .rw, .f, 0, 0, 3839, 1⟩], 0x0, 0x0⟩
def regPIPE_LSIZE : RegDef := ⟨"LSIZE", 0x40C, 8, 0x80, false, .plain,
  [⟨"W", 28, 16, .rw, .f, 3840, 2, 3840, 2⟩,
   ⟨"H", 12, 0, .rw, .f, 2160, 1, 3840, 1⟩], 0x0, 0x0⟩
def regPIPE_LSRC : RegDef := ⟨"LSRC", 0x410, 8, 0x80, false, .plain,
  [⟨"SRC_X", 28, 16, .rw, .f, 0, 0, 8190, 1⟩,
   ⟨"SRC_Y", 12, 0, .rw, .f, 0, 0, 0, 1⟩], 0x0, 0x0⟩
def regPIPE_LSTRIDE : RegDef := ⟨"LSTRIDE", 0x414, 8, 0x80, false, .plain,
  [⟨"STRIDE64", 11, 0, .rw, .f, 240, 1, 4095, 1⟩], 0x0, 0x0⟩
def regPIPE_LTF_AB : RegDef := ⟨"LTF_AB", 0x420, 8, 0x80, false, .plain,
  [⟨"B", 31, 16, .rw, .f, 0, 0, 0, 1⟩,
   ⟨"A", 15, 0, .rw, .f, 16384, 0, 0, 1⟩], 0x0, 0x0⟩
def regPIPE_LTF_DE : RegDef := ⟨"LTF_DE", 0x424, 8, 0x80, false, .plain,
  [⟨"E", 31, 16, .rw, .f, 16384, 0, 0, 1⟩,
   ⟨"D", 15, 0, .rw, .f, 0, 0, 0, 1⟩], 0x0, 0x0⟩
def regPIPE_LTF_C : RegDef := ⟨"LTF_C", 0x428, 8, 0x80, false, .plain,
  [⟨"C", 19, 0, .rw, .f, 0, 0, 0, 1⟩], 0x0, 0x0⟩
def regPIPE_LTF_F : RegDef := ⟨"LTF_F", 0x42C, 8, 0x80, false, .plain,
  [⟨"F", 19, 0, .rw, .f, 0, 0, 0, 1⟩], 0x0, 0x0⟩
def regPIPE_LSTAT : RegDef := ⟨"LSTAT", 0x430, 8, 0x80, false, .plain,
  [⟨"STALE", 31, 31, .ro, .no, 0, 0, 0, 1⟩,
   ⟨"REPROJ", 30, 30, .ro, .no, 0, 0, 0, 1⟩,
   ⟨"CLAMPED", 29, 29, .ro, .no, 0, 0, 0, 1⟩,
   ⟨"FERR", 28, 28, .ro, .no, 0, 0, 0, 1⟩,
   ⟨"TILES", 13, 0, .ro, .no, 0, 0, 0, 1⟩], 0x0, 0x0⟩
def regPIPE_LCULL : RegDef := ⟨"LCULL", 0x438, 8, 0x80, true, .event,
  [], 0x0, 0x0⟩
def regPIPE_LFETCH : RegDef := ⟨"LFETCH", 0x440, 8, 0x80, true, .event,
  [], 0x0, 0x0⟩
def regPIPE_LFERR : RegDef := ⟨"LFERR", 0x448, 8, 0x80, true, .error,
  [], 0x0, 0x0⟩
def regPIPE_LCLAMP : RegDef := ⟨"LCLAMP", 0x450, 8, 0x80, true, .error,
  [], 0x0, 0x0⟩
def regPIPE_CCFG : RegDef := ⟨"CCFG", 0x800, 1, 0x4, false, .plain,
  [⟨"DGM_EN", 7, 7, .rw, .f, 0, 0, 0, 1⟩,
   ⟨"DGM_BANK", 6, 6, .rw, .f, 0, 0, 0, 1⟩,
   ⟨"CSC_EN", 5, 5, .rw, .f, 0, 0, 0, 1⟩,
   ⟨"RGM_EN", 4, 4, .rw, .f, 0, 0, 0, 1⟩,
   ⟨"RGM_BANK", 3, 3, .rw, .f, 0, 0, 0, 1⟩,
   ⟨"DITHER", 1, 0, .rw, .f, 0, 0, 2, 1⟩], 0x0, 0x0⟩
def regPIPE_BG_RG : RegDef := ⟨"BG_RG", 0x804, 1, 0x4, false, .plain,
  [⟨"R", 27, 16, .rw, .f, 0, 0, 0, 1⟩,
   ⟨"G", 11, 0, .rw, .f, 0, 0, 0, 1⟩], 0x0, 0x0⟩
def regPIPE_BG_B : RegDef := ⟨"BG_B", 0x808, 1, 0x4, false, .plain,
  [⟨"B", 11, 0, .rw, .f, 0, 0, 0, 1⟩], 0x0, 0x0⟩
def regPIPE_CSC0_A : RegDef := ⟨"CSC0_A", 0x810, 1, 0x4, false, .plain,
  [⟨"Mc1", 27, 16, .rw, .f, 0, 0, 0, 1⟩,
   ⟨"Mc0", 11, 0, .rw, .f, 1024, 0, 0, 1⟩], 0x0, 0x0⟩
def regPIPE_CSC0_B : RegDef := ⟨"CSC0_B", 0x814, 1, 0x4, false, .plain,
  [⟨"OFFc", 27, 16, .rw, .f, 0, 0, 0, 1⟩,
   ⟨"Mc2", 11, 0, .rw, .f, 0, 0, 0, 1⟩], 0x0, 0x0⟩
def regPIPE_CSC1_A : RegDef := ⟨"CSC1_A", 0x818, 1, 0x4, false, .plain,
  [⟨"Mc1", 27, 16, .rw, .f, 1024, 0, 0, 1⟩,
   ⟨"Mc0", 11, 0, .rw, .f, 0, 0, 0, 1⟩], 0x0, 0x0⟩
def regPIPE_CSC1_B : RegDef := ⟨"CSC1_B", 0x81C, 1, 0x4, false, .plain,
  [⟨"OFFc", 27, 16, .rw, .f, 0, 0, 0, 1⟩,
   ⟨"Mc2", 11, 0, .rw, .f, 0, 0, 0, 1⟩], 0x0, 0x0⟩
def regPIPE_CSC2_A : RegDef := ⟨"CSC2_A", 0x820, 1, 0x4, false, .plain,
  [⟨"Mc1", 27, 16, .rw, .f, 0, 0, 0, 1⟩,
   ⟨"Mc0", 11, 0, .rw, .f, 0, 0, 0, 1⟩], 0x0, 0x0⟩
def regPIPE_CSC2_B : RegDef := ⟨"CSC2_B", 0x824, 1, 0x4, false, .plain,
  [⟨"OFFc", 27, 16, .rw, .f, 0, 0, 0, 1⟩,
   ⟨"Mc2", 11, 0, .rw, .f, 1024, 0, 0, 1⟩], 0x0, 0x0⟩
def regPIPE_ACFG : RegDef := ⟨"ACFG", 0xC00, 1, 0x4, false, .plain,
  [⟨"EN", 31, 31, .rw, .f, 0, 0, 0, 1⟩,
   ⟨"FORMAT", 27, 24, .rw, .f, 3, 0, 0, 1⟩,
   ⟨"PREMULT", 23, 23, .rw, .f, 0, 0, 0, 1⟩,
   ⟨"CLR_BYPASS", 22, 22, .rw, .f, 1, 0, 0, 1⟩], 0x0, 0x0⟩
def regPIPE_AALPHA : RegDef := ⟨"AALPHA", 0xC04, 1, 0x4, false, .plain,
  [⟨"ALPHA", 11, 0, .rw, .f, 4095, 0, 0, 1⟩], 0x0, 0x0⟩
def regPIPE_APOS : RegDef := ⟨"APOS", 0xC08, 1, 0x4, false, .plain,
  [⟨"DST_X", 28, 16, .rw, .f, 0, 0, 3838, 2⟩,
   ⟨"DST_Y", 12, 0, .rw, .f, 0, 0, 3839, 1⟩], 0x0, 0x0⟩
def regPIPE_ASIZE : RegDef := ⟨"ASIZE", 0xC0C, 1, 0x4, false, .plain,
  [⟨"W", 28, 16, .rw, .f, 3840, 2, 3840, 2⟩,
   ⟨"H", 12, 0, .rw, .f, 2160, 1, 3840, 1⟩], 0x0, 0x0⟩
def regPIPE_ACOPY0 : RegDef := ⟨"ACOPY0", 0xC10, 1, 0x4, false, .plain,
  [⟨"ADDR", 31, 0, .rw, .f, 0, 0, 0, 1⟩], 0x0, 0x0⟩
def regPIPE_ACOPY1 : RegDef := ⟨"ACOPY1", 0xC14, 1, 0x4, false, .plain,
  [⟨"ADDR", 31, 0, .rw, .f, 0, 0, 0, 1⟩], 0x0, 0x0⟩
def regPIPE_ASTRIDE : RegDef := ⟨"ASTRIDE", 0xC18, 1, 0x4, false, .plain,
  [⟨"STRIDE64", 11, 0, .rw, .f, 240, 0, 0, 1⟩], 0x0, 0x0⟩
def regPIPE_ASTAT : RegDef := ⟨"ASTAT", 0xC1C, 1, 0x4, false, .plain,
  [⟨"STALE", 31, 31, .ro, .no, 0, 0, 0, 1⟩,
   ⟨"CFG_REFUSED", 30, 30, .ro, .no, 0, 0, 0, 1⟩], 0x0, 0x0⟩
def regPIPE_AFCTL : RegDef := ⟨"AFCTL", 0xC40, 1, 0x4, false, .plain,
  [⟨"SEL", 24, 24, .rw, .f, 0, 0, 0, 1⟩,
   ⟨"SAFE", 23, 0, .rw, .f, 0, 0, 0, 1⟩], 0x0, 0x0⟩
def regPIPE_AFSTAT : RegDef := ⟨"AFSTAT", 0xC44, 1, 0x4, false, .plain,
  [⟨"STALE", 31, 31, .ro, .no, 0, 0, 0, 1⟩,
   ⟨"CUR", 30, 30, .ro, .no, 0, 0, 0, 1⟩,
   ⟨"BAD0", 29, 29, .ro, .no, 0, 0, 0, 1⟩,
   ⟨"BAD1", 28, 28, .ro, .no, 0, 0, 0, 1⟩,
   ⟨"DOUBLE", 27, 27, .ro, .no, 0, 0, 0, 1⟩,
   ⟨"LINE", 12, 0, .ro, .no, 0, 0, 0, 1⟩], 0x0, 0x0⟩
def regPIPE_AFCLR : RegDef := ⟨"AFCLR", 0xC48, 1, 0x4, false, .plain,
  [⟨"CLR", 1, 0, .wo, .l, 0, 0, 0, 1⟩], 0x0, 0x0⟩
def regPIPE_AFSWITCH : RegDef := ⟨"AFSWITCH", 0xC50, 1, 0x4, true, .error,
  [], 0x0, 0x0⟩
def regPIPE_AFMASKED : RegDef := ⟨"AFMASKED", 0xC58, 1, 0x4, true, .error,
  [], 0x0, 0x0⟩
def regPIPE_FETCH_CFG : RegDef := ⟨"FETCH_CFG", 0xE00, 1, 0x4, false, .plain,
  [⟨"FIFO_BASE", 21, 12, .rw, .s, 0, 0, 767, 1⟩,
   ⟨"FIFO_GRAINS", 11, 6, .rw, .s, 16, 4, 32, 1⟩], 0x10000, 0x0⟩
def regPIPE_PANIC_CFG : RegDef := ⟨"PANIC_CFG", 0xE04, 1, 0x4, false, .plain,
  [⟨"PANIC_CLEAR", 23, 16, .rw, .f, 8, 2, 255, 1⟩,
   ⟨"PANIC_LOW", 7, 0, .rw, .f, 4, 1, 254, 1⟩], 0x0, 0x0⟩
def regPIPE_FETCH_STAT : RegDef := ⟨"FETCH_STAT", 0xE08, 1, 0x4, false, .plain,
  [⟨"STALE", 31, 31, .ro, .no, 0, 0, 0, 1⟩,
   ⟨"PANIC", 30, 30, .ro, .no, 0, 0, 0, 1⟩,
   ⟨"FIFO_SMALL", 29, 29, .ro, .no, 0, 0, 0, 1⟩,
   ⟨"LEVEL", 23, 16, .ro, .no, 0, 0, 0, 1⟩,
   ⟨"CAP", 15, 8, .ro, .no, 0, 0, 0, 1⟩,
   ⟨"FETCH_STEP", 7, 0, .ro, .no, 0, 0, 0, 1⟩], 0x0, 0x0⟩
def regPIPE_UNDERRUN : RegDef := ⟨"UNDERRUN", 0xE10, 1, 0x4, true, .error,
  [], 0x0, 0x0⟩
def regPIPE_PANIC_CNT : RegDef := ⟨"PANIC_CNT", 0xE18, 1, 0x4, true, .event,
  [], 0x0, 0x0⟩
def regPIPE_WB_CFG : RegDef := ⟨"WB_CFG", 0xE40, 1, 0x4, false, .plain,
  [⟨"EN", 31, 31, .rw, .f, 0, 0, 0, 1⟩,
   ⟨"ONESHOT", 30, 30, .rw, .f, 0, 0, 0, 1⟩,
   ⟨"POINT", 29, 29, .rw, .f, 0, 0, 0, 1⟩,
   ⟨"FORMAT", 25, 24, .rw, .f, 0, 0, 2, 1⟩], 0x0, 0x0⟩
def regPIPE_WB_ADDR_LO : RegDef := ⟨"WB_ADDR_LO", 0xE44, 1, 0x4, false, .plain,
  [⟨"ADDR", 31, 6, .rw, .f, 0, 0, 0, 1⟩], 0x0, 0x0⟩
def regPIPE_WB_ADDR_HI : RegDef := ⟨"WB_ADDR_HI", 0xE48, 1, 0x4, false, .plain,
  [⟨"ADDR", 31, 0, .rw, .f, 0, 0, 0, 1⟩], 0x0, 0x0⟩
def regPIPE_WB_STRIDE : RegDef := ⟨"WB_STRIDE", 0xE4C, 1, 0x4, false, .plain,
  [⟨"STRIDE64", 11, 0, .rw, .f, 240, 0, 0, 1⟩], 0x0, 0x0⟩
def regPIPE_WB_STAT : RegDef := ⟨"WB_STAT", 0xE50, 1, 0x4, false, .plain,
  [⟨"STALE", 31, 31, .ro, .no, 0, 0, 0, 1⟩,
   ⟨"BUSY", 30, 30, .ro, .no, 0, 0, 0, 1⟩,
   ⟨"OVF", 29, 29, .ro, .no, 0, 0, 0, 1⟩,
   ⟨"FRAME_LO", 15, 0, .ro, .no, 0, 0, 0, 1⟩], 0x0, 0x0⟩
def regPIPE_WB_OVF : RegDef := ⟨"WB_OVF", 0xE58, 1, 0x4, true, .error,
  [], 0x0, 0x0⟩
def regPIPE_WB_DONE : RegDef := ⟨"WB_DONE", 0xE60, 1, 0x4, true, .event,
  [], 0x0, 0x0⟩
def regPIPE_DGM0 : RegDef := ⟨"DGM0", 0x1000, 1024, 0x4, false, .plain,
  [⟨"VALUE", 11, 0, .rw, .l, 0, 0, 0, 1⟩], 0x0, 0x4⟩
def regPIPE_DGM1 : RegDef := ⟨"DGM1", 0x2000, 1024, 0x4, false, .plain,
  [⟨"VALUE", 11, 0, .rw, .l, 0, 0, 0, 1⟩], 0x0, 0x4⟩
def regPIPE_RGM0 : RegDef := ⟨"RGM0", 0x3000, 1024, 0x4, false, .plain,
  [⟨"VALUE", 11, 0, .rw, .l, 0, 0, 0, 1⟩], 0x0, 0x4⟩
def regPIPE_RGM1 : RegDef := ⟨"RGM1", 0x4000, 1024, 0x4, false, .plain,
  [⟨"VALUE", 11, 0, .rw, .l, 0, 0, 0, 1⟩], 0x0, 0x4⟩
def regPIPE_PCFG : RegDef := ⟨"PCFG", 0x5000, 16, 0x40, false, .plain,
  [⟨"EN", 31, 31, .rw, .f, 0, 0, 0, 1⟩,
   ⟨"OWN_KEEPER", 30, 30, .rw, .f, 0, 0, 0, 1⟩,
   ⟨"STALL", 27, 24, .rw, .f, 0, 0, 0, 1⟩,
   ⟨"CHK_RESP", 23, 22, .rw, .f, 0, 0, 2, 1⟩,
   ⟨"ALIVE_RESP", 21, 20, .rw, .f, 0, 0, 2, 1⟩,
   ⟨"ALIVE_EN", 19, 19, .rw, .f, 1, 0, 0, 1⟩,
   ⟨"LOG", 18, 16, .rw, .f, 0, 0, 3, 1⟩,
   ⟨"TIE", 15, 12, .rw, .f, 0, 0, 8, 1⟩,
   ⟨"LAYERS", 7, 0, .rw, .f, 0, 0, 0, 1⟩], 0x0, 0x0⟩
def regPIPE_PPOS : RegDef := ⟨"PPOS", 0x5004, 16, 0x40, false, .plain,
  [⟨"PX", 28, 16, .rw, .f, 0, 0, 3838, 2⟩,
   ⟨"PY", 12, 0, .rw, .f, 0, 0, 3839, 1⟩], 0x0, 0x0⟩
def regPIPE_PSIZE : RegDef := ⟨"PSIZE", 0x5008, 16, 0x40, false, .plain,
  [⟨"PW", 28, 16, .rw, .f, 2, 2, 3840, 2⟩,
   ⟨"PH", 12, 0, .rw, .f, 1, 1, 3840, 1⟩], 0x0, 0x0⟩
def regPIPE_PFB_RG : RegDef := ⟨"PFB_RG", 0x500C, 16, 0x40, false, .plain,
  [⟨"R", 27, 16, .rw, .f, 0, 0, 0, 1⟩,
   ⟨"G", 11, 0, .rw, .f, 0, 0, 0, 1⟩], 0x0, 0x0⟩
def regPIPE_PFB_B : RegDef := ⟨"PFB_B", 0x5010, 16, 0x40, false, .plain,
  [⟨"B", 11, 0, .rw, .f, 0, 0, 0, 1⟩], 0x0, 0x0⟩
def regPIPE_PFB_EXP : RegDef := ⟨"PFB_EXP", 0x5014, 16, 0x40, false, .plain,
  [⟨"VAL", 31, 0, .rw, .f, 0, 0, 0, 1⟩], 0x0, 0x0⟩
def regPIPE_PEXP_VAL : RegDef := ⟨"PEXP_VAL", 0x5018, 16, 0x40, false, .plain,
  [⟨"VAL", 31, 0, .rw, .l, 0, 0, 0, 1⟩], 0x0, 0x0⟩
def regPIPE_PEXP_CTL : RegDef := ⟨"PEXP_CTL", 0x501C, 16, 0x40, false, .plain,
  [⟨"ALIVE", 3, 0, .wo, .l, 0, 0, 0, 1⟩], 0x0, 0x0⟩
def regPIPE_PSTAT : RegDef := ⟨"PSTAT", 0x5020, 16, 0x40, false, .plain,
  [⟨"STALE", 31, 31, .ro, .no, 0, 0, 0, 1⟩,
   ⟨"CHK_FAULT", 30, 30, .ro, .no, 0, 0, 0, 1⟩,
   ⟨"ALIVE_FAULT", 29, 29, .ro, .no, 0, 0, 0, 1⟩,
   ⟨"FALLBACK", 28, 28, .ro, .no, 0, 0, 0, 1⟩,
   ⟨"BLANKING", 27, 27, .ro, .no, 0, 0, 0, 1⟩,
   ⟨"LAST", 26, 24, .ro, .no, 0, 0, 0, 1⟩,
   ⟨"ALIVE_TAKEN", 23, 20, .ro, .no, 0, 0, 0, 1⟩,
   ⟨"ALIVE_KIND", 19, 18, .ro, .no, 0, 0, 0, 1⟩,
   ⟨"FRAME_LO", 15, 0, .ro, .no, 0, 0, 0, 1⟩], 0x0, 0x0⟩
def regPIPE_PMEAS_H : RegDef := ⟨"PMEAS_H", 0x5024, 16, 0x40, false, .plain,
  [⟨"STALE", 31, 31, .ro, .no, 0, 0, 0, 1⟩,
   ⟨"FRAME", 30, 16, .ro, .no, 0, 0, 0, 1⟩,
   ⟨"HALF", 15, 0, .ro, .no, 0, 0, 0, 1⟩], 0x0, 0x0⟩
def regPIPE_PMEAS_L : RegDef := ⟨"PMEAS_L", 0x5028, 16, 0x40, false, .plain,
  [⟨"STALE", 31, 31, .ro, .no, 0, 0, 0, 1⟩,
   ⟨"FRAME", 30, 16, .ro, .no, 0, 0, 0, 1⟩,
   ⟨"HALF", 15, 0, .ro, .no, 0, 0, 0, 1⟩], 0x0, 0x0⟩
def regPIPE_PP_RSV : RegDef := ⟨"PP_RSV", 0x502C, 16, 0x40, false, .plain,
  [], 0x0, 0x0⟩
def regPIPE_PCHKF : RegDef := ⟨"PCHKF", 0x5030, 16, 0x40, true, .error,
  [], 0x0, 0x0⟩
def regPIPE_PALVF : RegDef := ⟨"PALVF", 0x5038, 16, 0x40, true, .error,
  [], 0x0, 0x0⟩
def regPIPE_PITCH_CTRL : RegDef := ⟨"PITCH_CTRL", 0x5400, 1, 0x4, false, .plain,
  [⟨"COMMIT", 31, 16, .wo, .l, 0, 0, 0, 1⟩,
   ⟨"CLR", 15, 0, .wo, .l, 0, 0, 0, 1⟩], 0x0, 0x0⟩
def regPIPE_PITCH_SUM : RegDef := ⟨"PITCH_SUM", 0x5404, 1, 0x4, false, .plain,
  [⟨"STALE", 31, 31, .ro, .no, 0, 0, 0, 1⟩,
   ⟨"FAULT", 15, 0, .ro, .no, 0, 0, 0, 1⟩], 0x0, 0x0⟩
def regPIPE_PITCH_PEND : RegDef := ⟨"PITCH_PEND", 0x5408, 1, 0x4, false, .plain,
  [⟨"STALE", 31, 31, .ro, .no, 0, 0, 0, 1⟩,
   ⟨"PEND", 15, 0, .ro, .no, 0, 0, 0, 1⟩], 0x0, 0x0⟩

/-- The registers of block kind PIPE. -/
def regsPIPE : List RegDef :=
  [regPIPE_PSTATE, regPIPE_PCTRL, regPIPE_TMG_H0, regPIPE_TNX_H0, regPIPE_TMG_H1, regPIPE_TNX_H1, regPIPE_TMG_V0, regPIPE_TNX_V0, regPIPE_TMG_V1, regPIPE_TNX_V1, regPIPE_TMG_CLK, regPIPE_TNX_CLK, regPIPE_TNX_CTRL, regPIPE_TSTAT, regPIPE_SYNC_SRC, regPIPE_SYNC_CTRL, regPIPE_SYNC_STAT, regPIPE_SYNC_TRIM, regPIPE_LINE_POS, regPIPE_FRAME] ++
  [regPIPE_SYNC_LOSS, regPIPE_LOCK_DROP, regPIPE_DL_CFG, regPIPE_TTL, regPIPE_CBUF_LO, regPIPE_CBUF_HI, regPIPE_CFENCE, regPIPE_CACQ_VAL, regPIPE_CREL_VAL, regPIPE_COMMIT, regPIPE_CSTAT, regPIPE_LC_RSV, regPIPE_LNOTREADY, regPIPE_LLATE, regPIPE_LC_RSV1, regPIPE_LC_RSV2, regPIPE_LC_RSV3, regPIPE_LC_RSV4, regPIPE_CMODE_CFG, regPIPE_PCOMMIT] ++
  [regPIPE_PCSTAT, regPIPE_ACOMMIT, regPIPE_KREL, regPIPE_KHELD, regPIPE_PLATE, regPIPE_LS_WAIT, regPIPE_BW_REFUSED, regPIPE_LCFG, regPIPE_LALPHA, regPIPE_LPOS, regPIPE_LSIZE, regPIPE_LSRC, regPIPE_LSTRIDE, regPIPE_LTF_AB, regPIPE_LTF_DE, regPIPE_LTF_C, regPIPE_LTF_F, regPIPE_LSTAT, regPIPE_LCULL, regPIPE_LFETCH] ++
  [regPIPE_LFERR, regPIPE_LCLAMP, regPIPE_CCFG, regPIPE_BG_RG, regPIPE_BG_B, regPIPE_CSC0_A, regPIPE_CSC0_B, regPIPE_CSC1_A, regPIPE_CSC1_B, regPIPE_CSC2_A, regPIPE_CSC2_B, regPIPE_ACFG, regPIPE_AALPHA, regPIPE_APOS, regPIPE_ASIZE, regPIPE_ACOPY0, regPIPE_ACOPY1, regPIPE_ASTRIDE, regPIPE_ASTAT, regPIPE_AFCTL] ++
  [regPIPE_AFSTAT, regPIPE_AFCLR, regPIPE_AFSWITCH, regPIPE_AFMASKED, regPIPE_FETCH_CFG, regPIPE_PANIC_CFG, regPIPE_FETCH_STAT, regPIPE_UNDERRUN, regPIPE_PANIC_CNT, regPIPE_WB_CFG, regPIPE_WB_ADDR_LO, regPIPE_WB_ADDR_HI, regPIPE_WB_STRIDE, regPIPE_WB_STAT, regPIPE_WB_OVF, regPIPE_WB_DONE, regPIPE_DGM0, regPIPE_DGM1, regPIPE_RGM0, regPIPE_RGM1] ++
  [regPIPE_PCFG, regPIPE_PPOS, regPIPE_PSIZE, regPIPE_PFB_RG, regPIPE_PFB_B, regPIPE_PFB_EXP, regPIPE_PEXP_VAL, regPIPE_PEXP_CTL, regPIPE_PSTAT, regPIPE_PMEAS_H, regPIPE_PMEAS_L, regPIPE_PP_RSV, regPIPE_PCHKF, regPIPE_PALVF, regPIPE_PITCH_CTRL, regPIPE_PITCH_SUM, regPIPE_PITCH_PEND]

def regOUT_LINK_CFG : RegDef := ⟨"LINK_CFG", 0x0, 1, 0x4, false, .plain,
  [⟨"AUTO_FALLBACK", 8, 8, .rw, .s, 1, 0, 0, 1⟩,
   ⟨"ASSR", 7, 7, .rw, .s, 0, 0, 0, 1⟩,
   ⟨"SSC", 6, 6, .rw, .s, 0, 0, 0, 1⟩,
   ⟨"MAX_LANES", 5, 4, .rw, .s, 2, 0, 2, 1⟩,
   ⟨"MAX_RATE", 3, 2, .rw, .s, 3, 0, 0, 1⟩,
   ⟨"HPD_IGNORE", 1, 1, .rw, .s, 0, 0, 0, 1⟩,
   ⟨"MODE", 0, 0, .rw, .s, 0, 0, 0, 1⟩], 0x0, 0x0⟩
def regOUT_TRAIN_CFG : RegDef := ⟨"TRAIN_CFG", 0x4, 1, 0x4, false, .plain,
  [⟨"MAX_PREEMPH", 11, 10, .rw, .s, 3, 0, 0, 1⟩,
   ⟨"MAX_SWING", 9, 8, .rw, .s, 3, 0, 0, 1⟩,
   ⟨"LIMIT_MS", 7, 0, .rw, .s, 100, 1, 255, 1⟩], 0x0, 0x0⟩
def regOUT_LINK_STAT : RegDef := ⟨"LINK_STAT", 0x8, 1, 0x4, false, .plain,
  [⟨"STALE", 31, 31, .ro, .no, 0, 0, 0, 1⟩,
   ⟨"HPD", 30, 30, .ro, .no, 0, 0, 0, 1⟩,
   ⟨"TRAINED", 29, 29, .ro, .no, 0, 0, 0, 1⟩,
   ⟨"RATE", 25, 24, .ro, .no, 0, 0, 0, 1⟩,
   ⟨"LANES", 23, 22, .ro, .no, 0, 0, 0, 1⟩,
   ⟨"TPS", 21, 20, .ro, .no, 0, 0, 0, 1⟩,
   ⟨"LEVELS", 15, 0, .ro, .no, 0, 0, 0, 1⟩], 0x0, 0x0⟩
def regOUT_LINK_EVT : RegDef := ⟨"LINK_EVT", 0xC, 1, 0x4, false, .plain,
  [⟨"LINK_LOSS", 3, 3, .w1c, .l, 0, 0, 0, 1⟩,
   ⟨"TRAIN_FAIL", 2, 2, .w1c, .l, 0, 0, 0, 1⟩,
   ⟨"UNPLUG", 1, 1, .w1c, .l, 0, 0, 0, 1⟩,
   ⟨"IRQ_HPD", 0, 0, .w1c, .l, 0, 0, 0, 1⟩], 0x0, 0x0⟩
def regOUT_AUX_CMD : RegDef := ⟨"AUX_CMD", 0x10, 1, 0x4, false, .plain,
  [⟨"GO", 31, 31, .wo, .l, 0, 0, 0, 1⟩,
   ⟨"CMD", 27, 24, .rw, .l, 9, 0, 0, 1⟩,
   ⟨"LEN", 23, 20, .rw, .l, 0, 0, 0, 1⟩,
   ⟨"ADDR", 19, 0, .rw, .l, 0, 0, 0, 1⟩], 0x0, 0x0⟩
def regOUT_AUX_STAT : RegDef := ⟨"AUX_STAT", 0x14, 1, 0x4, false, .plain,
  [⟨"STALE", 31, 31, .ro, .no, 0, 0, 0, 1⟩,
   ⟨"BUSY", 30, 30, .ro, .no, 0, 0, 0, 1⟩,
   ⟨"REPLY", 29, 28, .ro, .no, 0, 0, 0, 1⟩,
   ⟨"TIMEOUT", 27, 27, .ro, .no, 0, 0, 0, 1⟩,
   ⟨"COUNT", 4, 0, .ro, .no, 0, 0, 0, 1⟩], 0x0, 0x0⟩
def regOUT_AUX_DATA : RegDef := ⟨"AUX_DATA", 0x20, 4, 0x4, false, .plain,
  [⟨"DATA", 31, 0, .rw, .l, 0, 0, 0, 1⟩], 0x0, 0x0⟩
def regOUT_RETRAIN : RegDef := ⟨"RETRAIN", 0x40, 1, 0x4, true, .error,
  [], 0x0, 0x0⟩
def regOUT_HPD_IRQ : RegDef := ⟨"HPD_IRQ", 0x48, 1, 0x4, true, .event,
  [], 0x0, 0x0⟩

/-- The registers of block kind OUT. -/
def regsOUT : List RegDef :=
  [regOUT_LINK_CFG, regOUT_TRAIN_CFG, regOUT_LINK_STAT, regOUT_LINK_EVT, regOUT_AUX_CMD, regOUT_AUX_STAT, regOUT_AUX_DATA, regOUT_RETRAIN, regOUT_HPD_IRQ]

def regRFE_RCTRL : RegDef := ⟨"RCTRL", 0x0, 1, 0x4, false, .plain,
  [⟨"RUN", 31, 31, .wo, .l, 0, 0, 0, 1⟩,
   ⟨"STOP", 30, 30, .wo, .l, 0, 0, 0, 1⟩], 0x0, 0x0⟩
def regRFE_RSTAT : RegDef := ⟨"RSTAT", 0x4, 1, 0x4, false, .plain,
  [⟨"STALE", 31, 31, .ro, .no, 0, 0, 0, 1⟩,
   ⟨"STATE", 30, 28, .ro, .no, 0, 0, 0, 1⟩,
   ⟨"ACTIVE", 27, 24, .ro, .no, 0, 0, 0, 1⟩], 0x0, 0x0⟩
def regRFE_TLP_CFG : RegDef := ⟨"TLP_CFG", 0x8, 1, 0x4, false, .plain,
  [⟨"GRAINS", 24, 16, .rw, .s, 64, 8, 256, 1⟩,
   ⟨"BASE", 9, 0, .rw, .s, 128, 0, 767, 1⟩], 0x0, 0x0⟩
def regRFE_TLP_STAT : RegDef := ⟨"TLP_STAT", 0xC, 1, 0x4, false, .plain,
  [⟨"STALE", 31, 31, .ro, .no, 0, 0, 0, 1⟩,
   ⟨"FREE", 17, 0, .ro, .no, 0, 0, 0, 1⟩], 0x0, 0x0⟩
def regRFE_RFAULT : RegDef := ⟨"RFAULT", 0x10, 1, 0x4, false, .plain,
  [⟨"STALE", 31, 31, .ro, .no, 0, 0, 0, 1⟩,
   ⟨"STALL", 27, 24, .ro, .no, 0, 0, 0, 1⟩,
   ⟨"CODE", 23, 16, .ro, .no, 0, 0, 0, 1⟩,
   ⟨"ID_LO", 15, 0, .ro, .no, 0, 0, 0, 1⟩], 0x0, 0x0⟩
def regRFE_TLQ : RegDef := ⟨"TLQ", 0x100, 16, 0x4, false, .plain,
  [⟨"MAX", 17, 0, .rw, .l, 131072, 0, 131072, 1⟩], 0x0, 0x0⟩
def regRFE_TLU : RegDef := ⟨"TLU", 0x140, 16, 0x4, false, .plain,
  [⟨"STALE", 31, 31, .ro, .no, 0, 0, 0, 1⟩,
   ⟨"USED", 17, 0, .ro, .no, 0, 0, 0, 1⟩], 0x0, 0x0⟩
def regRFE_PARTIAL : RegDef := ⟨"PARTIAL", 0x200, 16, 0x8, true, .event,
  [], 0x0, 0x0⟩
def regRFE_MISS_DROP : RegDef := ⟨"MISS_DROP", 0x280, 16, 0x8, true, .error,
  [], 0x0, 0x0⟩
def regRFE_PASSES : RegDef := ⟨"PASSES", 0x300, 1, 0x4, true, .event,
  [], 0x0, 0x0⟩
def regRFE_PRIMS : RegDef := ⟨"PRIMS", 0x308, 1, 0x4, true, .event,
  [], 0x0, 0x0⟩
def regRFE_CHUNK_PEAK : RegDef := ⟨"CHUNK_PEAK", 0x310, 1, 0x4, true, .level,
  [], 0x0, 0x0⟩
def regRFE_PASS_FAIL : RegDef := ⟨"PASS_FAIL", 0x318, 1, 0x4, true, .error,
  [], 0x0, 0x0⟩

/-- The registers of block kind RFE. -/
def regsRFE : List RegDef :=
  [regRFE_RCTRL, regRFE_RSTAT, regRFE_TLP_CFG, regRFE_TLP_STAT, regRFE_RFAULT, regRFE_TLQ, regRFE_TLU, regRFE_PARTIAL, regRFE_MISS_DROP, regRFE_PASSES, regRFE_PRIMS, regRFE_CHUNK_PEAK, regRFE_PASS_FAIL]

def regSHI_CL_CSTAT : RegDef := ⟨"CL_CSTAT", 0x0, 3, 0x100, false, .plain,
  [⟨"STALE", 31, 31, .ro, .no, 0, 0, 0, 1⟩,
   ⟨"BUSY", 30, 30, .ro, .no, 0, 0, 0, 1⟩,
   ⟨"WORK", 29, 28, .ro, .no, 0, 0, 0, 1⟩,
   ⟨"STALL", 27, 24, .ro, .no, 0, 0, 0, 1⟩], 0x0, 0x0⟩
def regSHI_CYC_BUSY : RegDef := ⟨"CYC_BUSY", 0x8, 3, 0x100, true, .event,
  [], 0x0, 0x0⟩
def regSHI_TILES : RegDef := ⟨"TILES", 0x10, 3, 0x100, true, .event,
  [], 0x0, 0x0⟩
def regSHI_FRAGS : RegDef := ⟨"FRAGS", 0x18, 3, 0x100, true, .event,
  [], 0x0, 0x0⟩
def regSHI_ILK_WAIT : RegDef := ⟨"ILK_WAIT", 0x20, 3, 0x100, true, .event,
  [], 0x0, 0x0⟩
def regSHI_TEX_REQ : RegDef := ⟨"TEX_REQ", 0x28, 3, 0x100, true, .event,
  [], 0x0, 0x0⟩
def regSHI_TEX_MISS : RegDef := ⟨"TEX_MISS", 0x30, 3, 0x100, true, .event,
  [], 0x0, 0x0⟩
def regSHI_TM_CORR : RegDef := ⟨"TM_CORR", 0x38, 3, 0x100, true, .error,
  [], 0x0, 0x0⟩
def regSHI_TM_UNCORR : RegDef := ⟨"TM_UNCORR", 0x40, 3, 0x100, true, .error,
  [], 0x0, 0x0⟩

/-- The registers of block kind SHI. -/
def regsSHI : List RegDef :=
  [regSHI_CL_CSTAT, regSHI_CYC_BUSY, regSHI_TILES, regSHI_FRAGS, regSHI_ILK_WAIT, regSHI_TEX_REQ, regSHI_TEX_MISS, regSHI_TM_CORR, regSHI_TM_UNCORR]

def regDM_CH_CFG : RegDef := ⟨"CH_CFG", 0x0, 8, 0x100, false, .plain,
  [⟨"EN", 31, 31, .rw, .l, 1, 0, 0, 1⟩,
   ⟨"MODE", 30, 30, .rw, .s, 0, 0, 0, 1⟩,
   ⟨"PRIO", 1, 0, .rw, .l, 1, 0, 0, 1⟩], 0x0, 0x0⟩
def regDM_CH_DB : RegDef := ⟨"CH_DB", 0x4, 8, 0x100, false, .plain,
  [⟨"DB", 31, 0, .wo, .l, 0, 0, 0, 1⟩], 0x0, 0x0⟩
def regDM_CH_BASE_LO : RegDef := ⟨"CH_BASE_LO", 0x8, 8, 0x100, false, .plain,
  [⟨"ADDR", 31, 6, .rw, .s, 0, 0, 0, 1⟩], 0x0, 0x0⟩
def regDM_CH_BASE_HI : RegDef := ⟨"CH_BASE_HI", 0xC, 8, 0x100, false, .plain,
  [⟨"ADDR", 31, 0, .rw, .s, 0, 0, 0, 1⟩], 0x0, 0x0⟩
def regDM_CH_STAT : RegDef := ⟨"CH_STAT", 0x10, 8, 0x100, false, .plain,
  [⟨"STALE", 31, 31, .ro, .no, 0, 0, 0, 1⟩,
   ⟨"STATE", 30, 28, .ro, .no, 1, 0, 0, 1⟩,
   ⟨"OWNER", 26, 22, .ro, .no, 31, 0, 0, 1⟩,
   ⟨"RESULT", 15, 8, .ro, .no, 0, 0, 0, 1⟩], 0x0, 0x0⟩
def regDM_CH_REMAIN : RegDef := ⟨"CH_REMAIN", 0x1C, 8, 0x100, false, .plain,
  [⟨"STALE", 31, 31, .ro, .no, 0, 0, 0, 1⟩,
   ⟨"COUNT", 30, 0, .ro, .no, 0, 0, 0, 1⟩], 0x0, 0x0⟩
def regDM_CH_FAULT_KIND : RegDef := ⟨"CH_FAULT_KIND", 0x28, 8, 0x100, false, .plain,
  [⟨"STALE", 31, 31, .ro, .no, 0, 0, 0, 1⟩,
   ⟨"VREAD", 30, 30, .ro, .no, 0, 0, 0, 1⟩,
   ⟨"WRITE", 29, 29, .ro, .no, 0, 0, 0, 1⟩,
   ⟨"VIOL", 28, 28, .ro, .no, 0, 0, 0, 1⟩,
   ⟨"REASON", 27, 24, .ro, .no, 0, 0, 0, 1⟩,
   ⟨"RESULT", 23, 16, .ro, .no, 0, 0, 0, 1⟩], 0x0, 0x0⟩
def regDM_CH_POS_LO : RegDef := ⟨"CH_POS_LO", 0x14, 8, 0x100, false, .plain,
  [⟨"STALE", 31, 31, .ro, .no, 0, 0, 0, 1⟩,
   ⟨"ADDR", 30, 0, .ro, .no, 0, 0, 0, 1⟩], 0x0, 0x0⟩
def regDM_CH_POS_HI : RegDef := ⟨"CH_POS_HI", 0x18, 8, 0x100, false, .plain,
  [⟨"STALE", 31, 31, .ro, .no, 0, 0, 0, 1⟩,
   ⟨"ADDR", 30, 0, .ro, .no, 0, 0, 0, 1⟩], 0x0, 0x0⟩
def regDM_CH_FAULT_LO : RegDef := ⟨"CH_FAULT_LO", 0x20, 8, 0x100, false, .plain,
  [⟨"STALE", 31, 31, .ro, .no, 0, 0, 0, 1⟩,
   ⟨"ADDR", 30, 0, .ro, .no, 0, 0, 0, 1⟩], 0x0, 0x0⟩
def regDM_CH_FAULT_HI : RegDef := ⟨"CH_FAULT_HI", 0x24, 8, 0x100, false, .plain,
  [⟨"STALE", 31, 31, .ro, .no, 0, 0, 0, 1⟩,
   ⟨"ADDR", 30, 0, .ro, .no, 0, 0, 0, 1⟩], 0x0, 0x0⟩
def regDM_CH_BYTES : RegDef := ⟨"CH_BYTES", 0x30, 8, 0x100, true, .event,
  [], 0x0, 0x0⟩
def regDM_CH_ERR : RegDef := ⟨"CH_ERR", 0x38, 8, 0x100, true, .error,
  [], 0x0, 0x0⟩
def regDM_DM_CTRL : RegDef := ⟨"DM_CTRL", 0x800, 1, 0x4, false, .plain,
  [⟨"DIS_LIMIT_US", 13, 0, .rw, .l, 2000, 0, 10000, 1⟩], 0x0, 0x0⟩
def regDM_DM_STAT : RegDef := ⟨"DM_STAT", 0x804, 1, 0x4, false, .plain,
  [⟨"STALE", 31, 31, .ro, .no, 0, 0, 0, 1⟩,
   ⟨"BUSY", 30, 30, .ro, .no, 0, 0, 0, 1⟩,
   ⟨"ACTIVE", 26, 24, .ro, .no, 0, 0, 0, 1⟩,
   ⟨"WAITING", 7, 0, .ro, .no, 0, 0, 0, 1⟩], 0x0, 0x0⟩
def regDM_DM_EVT : RegDef := ⟨"DM_EVT", 0x808, 1, 0x4, false, .plain,
  [⟨"MISM", 23, 16, .w1c, .l, 0, 0, 0, 1⟩,
   ⟨"ERR", 15, 8, .w1c, .l, 0, 0, 0, 1⟩,
   ⟨"DONE", 7, 0, .w1c, .l, 0, 0, 0, 1⟩], 0x0, 0x0⟩
def regDM_DM_IEN : RegDef := ⟨"DM_IEN", 0x80C, 1, 0x4, false, .plain,
  [⟨"EN", 23, 0, .rw, .l, 0, 0, 0, 1⟩], 0x0, 0x0⟩
def regDM_DM_THAW : RegDef := ⟨"DM_THAW", 0x810, 1, 0x4, false, .plain,
  [⟨"THAW", 7, 0, .wo, .l, 0, 0, 0, 1⟩], 0x0, 0x0⟩

/-- The registers of block kind DM. -/
def regsDM : List RegDef :=
  [regDM_CH_CFG, regDM_CH_DB, regDM_CH_BASE_LO, regDM_CH_BASE_HI, regDM_CH_STAT, regDM_CH_REMAIN, regDM_CH_FAULT_KIND, regDM_CH_POS_LO, regDM_CH_POS_HI, regDM_CH_FAULT_LO, regDM_CH_FAULT_HI, regDM_CH_BYTES, regDM_CH_ERR, regDM_DM_CTRL, regDM_DM_STAT, regDM_DM_EVT, regDM_DM_IEN, regDM_DM_THAW]

def regCVU_CV_CFG : RegDef := ⟨"CV_CFG", 0x0, 8, 0x100, false, .plain,
  [⟨"REFOUT", 9, 9, .rw, .s, 1, 0, 0, 1⟩,
   ⟨"REFIN", 8, 8, .rw, .s, 1, 0, 0, 1⟩,
   ⟨"WIDTH", 6, 0, .rw, .s, 32, 1, 64, 1⟩], 0x0, 0x0⟩
def regCVU_CV_POLY : RegDef := ⟨"CV_POLY", 0x8, 8, 0x100, true, .plain,
  [⟨"VAL", 63, 0, .rw, .s, 517762881, 0, 0, 1⟩], 0x0, 0x0⟩
def regCVU_CV_INIT : RegDef := ⟨"CV_INIT", 0x10, 8, 0x100, true, .plain,
  [⟨"VAL", 63, 0, .rw, .s, 4294967295, 0, 0, 1⟩], 0x0, 0x0⟩
def regCVU_CV_XOROUT : RegDef := ⟨"CV_XOROUT", 0x18, 8, 0x100, true, .plain,
  [⟨"VAL", 63, 0, .rw, .s, 4294967295, 0, 0, 1⟩], 0x0, 0x0⟩
def regCVU_CV_RUN : RegDef := ⟨"CV_RUN", 0x20, 8, 0x100, true, .plain,
  [⟨"VAL", 63, 0, .rw, .s, 4294967295, 0, 0, 1⟩], 0x0, 0x0⟩
def regCVU_CV_FINAL : RegDef := ⟨"CV_FINAL", 0x28, 8, 0x100, true, .plain,
  [⟨"VAL", 63, 0, .ro, .no, 0, 0, 0, 1⟩], 0x0, 0x0⟩
def regCVU_CV_STAT : RegDef := ⟨"CV_STAT", 0x30, 8, 0x100, false, .plain,
  [⟨"STALE", 31, 31, .ro, .no, 0, 0, 0, 1⟩,
   ⟨"HELD", 30, 30, .ro, .no, 0, 0, 0, 1⟩,
   ⟨"COMPARED", 29, 29, .ro, .no, 0, 0, 0, 1⟩,
   ⟨"MISMATCH", 28, 28, .ro, .no, 0, 0, 0, 1⟩,
   ⟨"HOLDER", 26, 22, .ro, .no, 31, 0, 0, 1⟩], 0x0, 0x0⟩
def regCVU_CV_CTRL : RegDef := ⟨"CV_CTRL", 0x34, 8, 0x100, false, .plain,
  [⟨"RESET_RUN", 31, 31, .wo, .l, 0, 0, 0, 1⟩], 0x0, 0x0⟩
def regCVU_CV_MISM : RegDef := ⟨"CV_MISM", 0x38, 8, 0x100, true, .error,
  [], 0x0, 0x0⟩
def regCVU_CVU_BYTES : RegDef := ⟨"CVU_BYTES", 0x800, 1, 0x4, true, .event,
  [], 0x0, 0x0⟩
def regCVU_CV_WAIT : RegDef := ⟨"CV_WAIT", 0x808, 1, 0x4, true, .event,
  [], 0x0, 0x0⟩

/-- The registers of block kind CVU. -/
def regsCVU : List RegDef :=
  [regCVU_CV_CFG, regCVU_CV_POLY, regCVU_CV_INIT, regCVU_CV_XOROUT, regCVU_CV_RUN, regCVU_CV_FINAL, regCVU_CV_STAT, regCVU_CV_CTRL, regCVU_CV_MISM, regCVU_CVU_BYTES, regCVU_CV_WAIT]

def regTFE_FE_STAT : RegDef := ⟨"FE_STAT", 0x0, 1, 0x4, false, .plain,
  [⟨"STALE", 31, 31, .ro, .no, 0, 0, 0, 1⟩,
   ⟨"BUSY", 30, 30, .ro, .no, 0, 0, 0, 1⟩,
   ⟨"PANEL", 29, 29, .ro, .no, 0, 0, 0, 1⟩], 0x0, 0x0⟩
def regTFE_FE_LFAULT_D : RegDef := ⟨"FE_LFAULT_D", 0x10, 2, 0x4, false, .plain,
  [⟨"STALE", 31, 31, .ro, .no, 0, 0, 0, 1⟩,
   ⟨"DRV", 23, 0, .ro, .no, 0, 0, 0, 1⟩], 0x0, 0x0⟩
def regTFE_FE_LFAULT_S : RegDef := ⟨"FE_LFAULT_S", 0x18, 2, 0x4, false, .plain,
  [⟨"STALE", 31, 31, .ro, .no, 0, 0, 0, 1⟩,
   ⟨"SNS", 15, 0, .ro, .no, 0, 0, 0, 1⟩], 0x0, 0x0⟩
def regTFE_FE_LFCLR : RegDef := ⟨"FE_LFCLR", 0x20, 1, 0x4, false, .plain,
  [⟨"CLR", 0, 0, .wo, .l, 0, 0, 0, 1⟩], 0x0, 0x0⟩
def regTFE_FE_EVT : RegDef := ⟨"FE_EVT", 0x24, 1, 0x4, false, .plain,
  [⟨"RING", 5, 4, .w1c, .l, 0, 0, 0, 1⟩,
   ⟨"LINE", 3, 2, .w1c, .l, 0, 0, 0, 1⟩,
   ⟨"STUCK", 1, 0, .w1c, .l, 0, 0, 0, 1⟩], 0x0, 0x0⟩
def regTFE_FE_IEN : RegDef := ⟨"FE_IEN", 0x28, 1, 0x4, false, .plain,
  [⟨"RING", 5, 4, .rw, .l, 0, 0, 0, 1⟩,
   ⟨"LINE", 3, 2, .rw, .l, 0, 0, 0, 1⟩,
   ⟨"STUCK", 1, 0, .rw, .l, 0, 0, 0, 1⟩], 0x0, 0x0⟩
def regTFE_FE_COLLIDE : RegDef := ⟨"FE_COLLIDE", 0x40, 1, 0x4, true, .event,
  [], 0x0, 0x0⟩
def regTFE_FE_LFAULTS : RegDef := ⟨"FE_LFAULTS", 0x48, 1, 0x4, true, .error,
  [], 0x0, 0x0⟩
def regTFE_TP_CFG : RegDef := ⟨"TP_CFG", 0x100, 2, 0x80, false, .plain,
  [⟨"EN", 31, 31, .rw, .l, 0, 0, 0, 1⟩,
   ⟨"REPORT_ALL", 27, 27, .rw, .l, 0, 0, 0, 1⟩,
   ⟨"PIPE", 26, 24, .rw, .s, 0, 0, 0, 1⟩,
   ⟨"SYNC", 23, 22, .rw, .s, 1, 0, 2, 1⟩,
   ⟨"G8", 21, 21, .rw, .s, 1, 0, 0, 1⟩,
   ⟨"AXIS_SWAP", 20, 20, .rw, .f, 0, 0, 0, 1⟩,
   ⟨"X_FLIP", 19, 19, .rw, .f, 0, 0, 0, 1⟩,
   ⟨"Y_FLIP", 18, 18, .rw, .f, 0, 0, 0, 1⟩,
   ⟨"RING_LOG2", 3, 0, .rw, .s, 6, 4, 12, 1⟩], 0x0, 0x0⟩
def regTFE_TP_LINES : RegDef := ⟨"TP_LINES", 0x104, 2, 0x80, false, .plain,
  [⟨"DRV_FIRST", 29, 24, .rw, .s, 0, 0, 47, 1⟩,
   ⟨"DRV_COUNT", 21, 16, .rw, .s, 24, 4, 48, 1⟩,
   ⟨"SNS_FIRST", 12, 8, .rw, .s, 0, 0, 0, 1⟩,
   ⟨"SNS_COUNT", 5, 0, .rw, .s, 16, 4, 32, 1⟩], 0x0, 0x18001000⟩
def regTFE_TP_DRIVE : RegDef := ⟨"TP_DRIVE", 0x108, 2, 0x80, false, .plain,
  [⟨"FDRV_KHZ", 24, 16, .rw, .s, 400, 100, 500, 1⟩,
   ⟨"NPULSE", 6, 0, .rw, .s, 8, 8, 64, 1⟩], 0x0, 0x0⟩
def regTFE_TP_SYNC : RegDef := ⟨"TP_SYNC", 0x10C, 2, 0x80, false, .plain,
  [⟨"SCANS_M1", 31, 30, .rw, .f, 0, 0, 0, 1⟩,
   ⟨"START_LINE", 28, 16, .rw, .f, 0, 0, 0, 1⟩,
   ⟨"PERIOD_US", 14, 0, .rw, .f, 16667, 4167, 20000, 1⟩], 0x0, 0x0⟩
def regTFE_TP_RES : RegDef := ⟨"TP_RES", 0x110, 2, 0x80, false, .plain,
  [⟨"YMAX", 31, 16, .rw, .f, 1080, 1, 65535, 1⟩,
   ⟨"XMAX", 15, 0, .rw, .f, 1920, 1, 65535, 1⟩], 0x0, 0x0⟩
def regTFE_TP_THR : RegDef := ⟨"TP_THR", 0x114, 2, 0x80, false, .plain,
  [⟨"TOUCH_TH", 23, 12, .rw, .l, 120, 1, 4095, 1⟩,
   ⟨"HYST", 11, 0, .rw, .l, 30, 0, 0, 1⟩], 0x0, 0x0⟩
def regTFE_TP_TRACK : RegDef := ⟨"TP_TRACK", 0x118, 2, 0x80, false, .plain,
  [⟨"TRACK_DIV", 23, 16, .rw, .l, 16, 1, 255, 1⟩,
   ⟨"TRACK_STEP", 15, 12, .rw, .l, 1, 1, 15, 1⟩,
   ⟨"TRACK_RADIUS", 3, 0, .rw, .l, 3, 1, 15, 1⟩], 0x0, 0x0⟩
def regTFE_TP_IDLE : RegDef := ⟨"TP_IDLE", 0x11C, 2, 0x80, false, .plain,
  [⟨"IDLE_DIV", 31, 28, .rw, .l, 4, 1, 15, 1⟩,
   ⟨"DEEP_DIV", 27, 24, .rw, .l, 15, 1, 15, 1⟩,
   ⟨"DEEP_S", 23, 16, .rw, .l, 30, 1, 255, 1⟩,
   ⟨"IDLE_MS", 15, 0, .rw, .l, 2000, 100, 65535, 1⟩], 0x0, 0x0⟩
def regTFE_TP_STUCK : RegDef := ⟨"TP_STUCK", 0x120, 2, 0x80, false, .plain,
  [⟨"STUCK_LIMIT_S", 31, 16, .rw, .l, 0, 0, 0, 1⟩,
   ⟨"STUCK_MOVE", 7, 0, .rw, .l, 16, 1, 255, 1⟩], 0x0, 0x0⟩
def regTFE_TP_BASE : RegDef := ⟨"TP_BASE", 0x124, 2, 0x80, false, .plain,
  [⟨"BASE_SAVE_S", 31, 16, .rw, .l, 600, 60, 65535, 1⟩,
   ⟨"SHIFT_MAX", 11, 0, .rw, .l, 2000, 0, 0, 1⟩], 0x0, 0x0⟩
def regTFE_TP_OS : RegDef := ⟨"TP_OS", 0x128, 2, 0x80, false, .plain,
  [⟨"LOW_TH", 31, 16, .rw, .l, 1024, 0, 0, 1⟩,
   ⟨"PAIR_TOL", 7, 0, .rw, .l, 2, 0, 0, 1⟩], 0x0, 0x0⟩
def regTFE_TP_CTRL : RegDef := ⟨"TP_CTRL", 0x12C, 2, 0x80, false, .plain,
  [⟨"RECAL", 31, 31, .wo, .l, 0, 0, 0, 1⟩], 0x0, 0x0⟩
def regTFE_TP_RING_LO : RegDef := ⟨"TP_RING_LO", 0x130, 2, 0x80, false, .plain,
  [⟨"ADDR", 31, 8, .rw, .s, 0, 0, 0, 1⟩], 0x0, 0x0⟩
def regTFE_TP_RING_HI : RegDef := ⟨"TP_RING_HI", 0x134, 2, 0x80, false, .plain,
  [⟨"ADDR", 31, 0, .rw, .s, 0, 0, 0, 1⟩], 0x0, 0x0⟩
def regTFE_TP_STAT : RegDef := ⟨"TP_STAT", 0x138, 2, 0x80, false, .plain,
  [⟨"STALE", 31, 31, .ro, .no, 0, 0, 0, 1⟩,
   ⟨"STATE", 30, 28, .ro, .no, 0, 0, 0, 1⟩,
   ⟨"BASE_SRC", 27, 26, .ro, .no, 0, 0, 0, 1⟩,
   ⟨"SYNC_FREE", 25, 25, .ro, .no, 0, 0, 0, 1⟩,
   ⟨"RING_FAULT", 24, 24, .ro, .no, 0, 0, 0, 1⟩,
   ⟨"NO_OWNER", 23, 23, .ro, .no, 0, 0, 0, 1⟩,
   ⟨"SAVE_OFF", 22, 22, .ro, .no, 0, 0, 0, 1⟩,
   ⟨"CONTACTS", 19, 16, .ro, .no, 0, 0, 0, 1⟩,
   ⟨"SCAN_LO", 15, 0, .ro, .no, 0, 0, 0, 1⟩], 0x0, 0x0⟩
def regTFE_SCANS : RegDef := ⟨"SCANS", 0x140, 2, 0x80, true, .event,
  [], 0x0, 0x0⟩
def regTFE_REPORTS : RegDef := ⟨"REPORTS", 0x148, 2, 0x80, true, .event,
  [], 0x0, 0x0⟩
def regTFE_REP_DROP : RegDef := ⟨"REP_DROP", 0x150, 2, 0x80, true, .error,
  [], 0x0, 0x0⟩
def regTFE_LATE_SCAN : RegDef := ⟨"LATE_SCAN", 0x158, 2, 0x80, true, .error,
  [], 0x0, 0x0⟩
def regTFE_STUCK_CNT : RegDef := ⟨"STUCK_CNT", 0x160, 2, 0x80, true, .error,
  [], 0x0, 0x0⟩
def regTFE_ANTI : RegDef := ⟨"ANTI", 0x168, 2, 0x80, true, .event,
  [], 0x0, 0x0⟩
def regTFE_BASE_SAVES : RegDef := ⟨"BASE_SAVES", 0x170, 2, 0x80, true, .event,
  [], 0x0, 0x0⟩
def regTFE_RAW0 : RegDef := ⟨"RAW0", 0x1000, 768, 0x4, false, .plain,
  [⟨"RAW", 31, 0, .ro, .no, 0, 0, 0, 1⟩], 0x0, 0x0⟩
def regTFE_BASE0 : RegDef := ⟨"BASE0", 0x2000, 768, 0x4, false, .plain,
  [⟨"BASE", 31, 0, .rw, .s, 0, 0, 0, 1⟩], 0x0, 0x0⟩
def regTFE_RAW1 : RegDef := ⟨"RAW1", 0x3000, 768, 0x4, false, .plain,
  [⟨"RAW", 31, 0, .ro, .no, 0, 0, 0, 1⟩], 0x0, 0x0⟩
def regTFE_BASE1 : RegDef := ⟨"BASE1", 0x4000, 768, 0x4, false, .plain,
  [⟨"BASE", 31, 0, .rw, .s, 0, 0, 0, 1⟩], 0x0, 0x0⟩

/-- The registers of block kind TFE. -/
def regsTFE : List RegDef :=
  [regTFE_FE_STAT, regTFE_FE_LFAULT_D, regTFE_FE_LFAULT_S, regTFE_FE_LFCLR, regTFE_FE_EVT, regTFE_FE_IEN, regTFE_FE_COLLIDE, regTFE_FE_LFAULTS, regTFE_TP_CFG, regTFE_TP_LINES, regTFE_TP_DRIVE, regTFE_TP_SYNC, regTFE_TP_RES, regTFE_TP_THR, regTFE_TP_TRACK, regTFE_TP_IDLE, regTFE_TP_STUCK, regTFE_TP_BASE, regTFE_TP_OS, regTFE_TP_CTRL] ++
  [regTFE_TP_RING_LO, regTFE_TP_RING_HI, regTFE_TP_STAT, regTFE_SCANS, regTFE_REPORTS, regTFE_REP_DROP, regTFE_LATE_SCAN, regTFE_STUCK_CNT, regTFE_ANTI, regTFE_BASE_SAVES, regTFE_RAW0, regTFE_BASE0, regTFE_RAW1, regTFE_BASE1]

def regAHX_AUD_CFG : RegDef := ⟨"AUD_CFG", 0x0, 1, 0x4, false, .plain,
  [⟨"EN", 31, 31, .rw, .l, 0, 0, 0, 1⟩,
   ⟨"MIX_RATE", 30, 30, .rw, .s, 0, 0, 0, 1⟩,
   ⟨"RAMP_MS", 23, 16, .rw, .l, 5, 1, 255, 1⟩,
   ⟨"DUCK", 15, 0, .rw, .l, 3277, 0, 32768, 1⟩], 0x0, 0x0⟩
def regAHX_AUD_STAT : RegDef := ⟨"AUD_STAT", 0x4, 1, 0x4, false, .plain,
  [⟨"STALE", 31, 31, .ro, .no, 0, 0, 0, 1⟩,
   ⟨"CLK_ERR0", 30, 30, .ro, .no, 0, 0, 0, 1⟩,
   ⟨"CLK_ERR1", 29, 29, .ro, .no, 0, 0, 0, 1⟩,
   ⟨"DUCKING", 28, 28, .ro, .no, 0, 0, 0, 1⟩,
   ⟨"TICK_LO", 15, 0, .ro, .no, 0, 0, 0, 1⟩], 0x0, 0x0⟩
def regAHX_PORT_CFG : RegDef := ⟨"PORT_CFG", 0x10, 2, 0x4, false, .plain,
  [⟨"MASTER", 31, 31, .rw, .s, 1, 0, 0, 1⟩,
   ⟨"FS_POL", 30, 30, .rw, .s, 0, 0, 0, 1⟩,
   ⟨"CAP_EN", 29, 29, .rw, .s, 0, 0, 0, 1⟩,
   ⟨"CAP_STALL", 27, 24, .rw, .s, 0, 0, 0, 1⟩,
   ⟨"CAP_LOG2", 23, 20, .rw, .s, 8, 8, 15, 1⟩], 0x0, 0x0⟩
def regAHX_CAP_LO : RegDef := ⟨"CAP_LO", 0x20, 2, 0x8, false, .plain,
  [⟨"ADDR", 31, 6, .rw, .s, 0, 0, 0, 1⟩], 0x0, 0x0⟩
def regAHX_CAP_HI : RegDef := ⟨"CAP_HI", 0x24, 2, 0x8, false, .plain,
  [⟨"ADDR", 31, 0, .rw, .s, 0, 0, 0, 1⟩], 0x0, 0x0⟩
def regAHX_OUTCH : RegDef := ⟨"OUTCH", 0x100, 16, 0x4, false, .plain,
  [⟨"ALLOW", 31, 16, .rw, .l, 65535, 0, 0, 1⟩,
   ⟨"VOL", 15, 0, .rw, .l, 32768, 0, 32768, 1⟩], 0x0, 0x0⟩
def regAHX_STR_CFG : RegDef := ⟨"STR_CFG", 0x200, 32, 0x10, false, .plain,
  [⟨"EN", 31, 31, .rw, .l, 0, 0, 0, 1⟩,
   ⟨"FMT", 30, 30, .rw, .s, 0, 0, 0, 1⟩,
   ⟨"STEREO", 29, 29, .rw, .s, 0, 0, 0, 1⟩,
   ⟨"LOG2", 23, 20, .rw, .s, 8, 8, 15, 1⟩], 0x0, 0x0⟩
def regAHX_STR_RING_LO : RegDef := ⟨"STR_RING_LO", 0x204, 32, 0x10, false, .plain,
  [⟨"ADDR", 31, 6, .rw, .s, 0, 0, 0, 1⟩], 0x0, 0x0⟩
def regAHX_STR_RING_HI : RegDef := ⟨"STR_RING_HI", 0x208, 32, 0x10, false, .plain,
  [⟨"ADDR", 31, 0, .rw, .s, 0, 0, 0, 1⟩], 0x0, 0x0⟩
def regAHX_STR_STAT : RegDef := ⟨"STR_STAT", 0x20C, 32, 0x10, false, .plain,
  [⟨"STALE", 31, 31, .ro, .no, 0, 0, 0, 1⟩,
   ⟨"PLAYING", 30, 30, .ro, .no, 0, 0, 0, 1⟩,
   ⟨"UNDER", 29, 29, .ro, .no, 0, 0, 0, 1⟩,
   ⟨"CHIME", 28, 28, .ro, .no, 0, 0, 0, 1⟩,
   ⟨"DENIED", 27, 27, .ro, .no, 0, 0, 0, 1⟩,
   ⟨"FAULT", 26, 26, .ro, .no, 0, 0, 0, 1⟩,
   ⟨"LEVEL", 15, 0, .ro, .no, 0, 0, 0, 1⟩], 0x0, 0x0⟩
def regAHX_HC_CFG : RegDef := ⟨"HC_CFG", 0x400, 8, 0x20, false, .plain,
  [⟨"EN", 31, 31, .rw, .l, 0, 0, 0, 1⟩,
   ⟨"TYPE", 30, 30, .rw, .s, 0, 0, 0, 1⟩,
   ⟨"F_NOM", 24, 16, .rw, .s, 170, 50, 500, 1⟩,
   ⟨"LOG2", 3, 0, .rw, .s, 6, 4, 12, 1⟩], 0x0, 0x0⟩
def regAHX_HC_RING_LO : RegDef := ⟨"HC_RING_LO", 0x404, 8, 0x20, false, .plain,
  [⟨"ADDR", 31, 6, .rw, .s, 0, 0, 0, 1⟩], 0x0, 0x0⟩
def regAHX_HC_RING_HI : RegDef := ⟨"HC_RING_HI", 0x408, 8, 0x20, false, .plain,
  [⟨"ADDR", 31, 0, .rw, .s, 0, 0, 0, 1⟩], 0x0, 0x0⟩
def regAHX_HC_STAT : RegDef := ⟨"HC_STAT", 0x40C, 8, 0x20, false, .plain,
  [⟨"STALE", 31, 31, .ro, .no, 0, 0, 0, 1⟩,
   ⟨"PLAYING", 30, 30, .ro, .no, 0, 0, 0, 1⟩,
   ⟨"LOCKED", 29, 29, .ro, .no, 0, 0, 0, 1⟩,
   ⟨"NO_BEMF", 28, 28, .ro, .no, 0, 0, 0, 1⟩,
   ⟨"FAULT", 27, 27, .ro, .no, 0, 0, 0, 1⟩,
   ⟨"HALF_US", 15, 0, .ro, .no, 0, 0, 0, 1⟩], 0x0, 0x0⟩
def regAHX_HC_SEGS : RegDef := ⟨"HC_SEGS", 0x410, 8, 0x20, true, .event,
  [], 0x0, 0x0⟩
def regAHX_BEMF_LOSS : RegDef := ⟨"BEMF_LOSS", 0x418, 8, 0x20, true, .error,
  [], 0x0, 0x0⟩
def regAHX_STR_UNDER : RegDef := ⟨"STR_UNDER", 0x600, 32, 0x8, true, .error,
  [], 0x0, 0x0⟩
def regAHX_CAP_DROP : RegDef := ⟨"CAP_DROP", 0x700, 2, 0x8, true, .error,
  [], 0x0, 0x0⟩
def regAHX_DUCKS : RegDef := ⟨"DUCKS", 0x710, 1, 0x4, true, .event,
  [], 0x0, 0x0⟩
def regAHX_ROUTE_DENIED : RegDef := ⟨"ROUTE_DENIED", 0x718, 1, 0x4, true, .error,
  [], 0x0, 0x0⟩
def regAHX_CHIME_REFUSED : RegDef := ⟨"CHIME_REFUSED", 0x720, 1, 0x4, true, .error,
  [], 0x0, 0x0⟩
def regAHX_SLIP : RegDef := ⟨"SLIP", 0x728, 1, 0x4, true, .error,
  [], 0x0, 0x0⟩
def regAHX_SEG_BAD : RegDef := ⟨"SEG_BAD", 0x730, 1, 0x4, true, .error,
  [], 0x0, 0x0⟩

/-- The registers of block kind AHX. -/
def regsAHX : List RegDef :=
  [regAHX_AUD_CFG, regAHX_AUD_STAT, regAHX_PORT_CFG, regAHX_CAP_LO, regAHX_CAP_HI, regAHX_OUTCH, regAHX_STR_CFG, regAHX_STR_RING_LO, regAHX_STR_RING_HI, regAHX_STR_STAT, regAHX_HC_CFG, regAHX_HC_RING_LO, regAHX_HC_RING_HI, regAHX_HC_STAT, regAHX_HC_SEGS, regAHX_BEMF_LOSS, regAHX_STR_UNDER, regAHX_CAP_DROP, regAHX_DUCKS, regAHX_ROUTE_DENIED] ++
  [regAHX_CHIME_REFUSED, regAHX_SLIP, regAHX_SEG_BAD]

def regQST_QCFG : RegDef := ⟨"QCFG", 0x0, 64, 0x40, false, .plain,
  [⟨"EN", 31, 31, .rw, .l, 0, 0, 0, 1⟩,
   ⟨"MODE", 30, 30, .rw, .s, 0, 0, 0, 1⟩,
   ⟨"SIZE_LOG2", 20, 16, .rw, .s, 8, 4, 16, 1⟩], 0x0, 0x0⟩
def regQST_QBASE_LO : RegDef := ⟨"QBASE_LO", 0x4, 64, 0x40, false, .plain,
  [⟨"ADDR", 31, 6, .rw, .s, 0, 0, 0, 1⟩], 0x0, 0x0⟩
def regQST_QBASE_HI : RegDef := ⟨"QBASE_HI", 0x8, 64, 0x40, false, .plain,
  [⟨"ADDR", 31, 0, .rw, .s, 0, 0, 0, 1⟩], 0x0, 0x0⟩
def regQST_QTAIL : RegDef := ⟨"QTAIL", 0xC, 64, 0x40, false, .plain,
  [⟨"TAIL", 31, 0, .ro, .no, 0, 0, 0, 1⟩], 0x0, 0x0⟩
def regQST_QHEAD : RegDef := ⟨"QHEAD", 0x10, 64, 0x40, false, .plain,
  [⟨"HEAD", 31, 0, .ro, .no, 0, 0, 0, 1⟩], 0x0, 0x0⟩
def regQST_QDONE : RegDef := ⟨"QDONE", 0x14, 64, 0x40, false, .plain,
  [⟨"DONE", 31, 0, .ro, .no, 0, 0, 0, 1⟩], 0x0, 0x0⟩
def regQST_QSTAT : RegDef := ⟨"QSTAT", 0x18, 64, 0x40, false, .plain,
  [⟨"STATE", 30, 28, .ro, .no, 0, 0, 0, 1⟩,
   ⟨"OUTSTANDING", 7, 0, .ro, .no, 0, 0, 0, 1⟩], 0x0, 0x0⟩
def regQST_QPOS_LO : RegDef := ⟨"QPOS_LO", 0x1C, 64, 0x40, false, .plain,
  [⟨"ADDR", 31, 0, .ro, .no, 0, 0, 0, 1⟩], 0x0, 0x0⟩
def regQST_QPOS_HI : RegDef := ⟨"QPOS_HI", 0x20, 64, 0x40, false, .plain,
  [⟨"ADDR", 31, 0, .ro, .no, 0, 0, 0, 1⟩], 0x0, 0x0⟩
def regQST_QREFUSED : RegDef := ⟨"QREFUSED", 0x28, 64, 0x40, true, .error,
  [], 0x0, 0x0⟩
def regQST_QITEMS : RegDef := ⟨"QITEMS", 0x30, 64, 0x40, true, .event,
  [], 0x0, 0x0⟩
def regQST_SCTRL : RegDef := ⟨"SCTRL", 0x1000, 16, 0x100, false, .plain,
  [⟨"CREATE", 31, 31, .wo, .l, 0, 0, 0, 1⟩,
   ⟨"START", 30, 30, .wo, .l, 0, 0, 0, 1⟩,
   ⟨"RESET", 29, 29, .wo, .l, 0, 0, 0, 1⟩,
   ⟨"DESTROY", 28, 28, .wo, .l, 0, 0, 0, 1⟩,
   ⟨"THAW", 27, 27, .wo, .l, 0, 0, 0, 1⟩], 0x0, 0x0⟩
def regQST_SCFG : RegDef := ⟨"SCFG", 0x1004, 16, 0x100, false, .plain,
  [⟨"SEALED", 31, 31, .rw, .s, 0, 0, 0, 1⟩,
   ⟨"EP", 20, 20, .rw, .s, 0, 0, 0, 1⟩,
   ⟨"FUNC", 19, 16, .rw, .s, 0, 0, 0, 1⟩], 0x0, 0x0⟩
def regQST_SSTAT : RegDef := ⟨"SSTAT", 0x1008, 16, 0x100, false, .plain,
  [⟨"STALE", 31, 31, .ro, .no, 0, 0, 0, 1⟩,
   ⟨"STATE", 30, 28, .ro, .no, 0, 0, 0, 1⟩,
   ⟨"RESET_DONE", 27, 27, .ro, .no, 0, 0, 0, 1⟩,
   ⟨"VREC_VALID", 26, 26, .ro, .no, 0, 0, 0, 1⟩,
   ⟨"VREC_READ", 25, 25, .ro, .no, 0, 0, 0, 1⟩,
   ⟨"CAUSE", 24, 22, .ro, .no, 0, 0, 0, 1⟩,
   ⟨"CREATE_ERR", 21, 19, .ro, .no, 0, 0, 0, 1⟩,
   ⟨"INFLIGHT", 7, 0, .ro, .no, 0, 0, 0, 1⟩], 0x0, 0x0⟩
def regQST_SDRAIN : RegDef := ⟨"SDRAIN", 0x100C, 16, 0x100, false, .plain,
  [⟨"DRAIN_US", 13, 0, .rw, .l, 2000, 0, 10000, 1⟩], 0x0, 0x0⟩
def regQST_GQ_LO : RegDef := ⟨"GQ_LO", 0x1010, 16, 0x100, false, .plain,
  [⟨"Q", 31, 0, .rw, .s, 0, 0, 0, 1⟩], 0x0, 0x0⟩
def regQST_GQ_HI : RegDef := ⟨"GQ_HI", 0x1014, 16, 0x100, false, .plain,
  [⟨"Q", 31, 0, .rw, .s, 0, 0, 0, 1⟩], 0x0, 0x0⟩
def regQST_GL_LO : RegDef := ⟨"GL_LO", 0x1018, 16, 0x100, false, .plain,
  [⟨"L", 31, 0, .rw, .s, 0, 0, 0, 1⟩], 0x0, 0x0⟩
def regQST_GL_HI : RegDef := ⟨"GL_HI", 0x101C, 16, 0x100, false, .plain,
  [⟨"L", 31, 0, .rw, .s, 0, 0, 0, 1⟩], 0x0, 0x0⟩
def regQST_GDM : RegDef := ⟨"GDM", 0x1020, 16, 0x100, false, .plain,
  [⟨"CH", 31, 0, .rw, .s, 0, 0, 0, 1⟩], 0x0, 0x0⟩
def regQST_GAUD : RegDef := ⟨"GAUD", 0x1024, 16, 0x100, false, .plain,
  [⟨"ST", 31, 0, .rw, .s, 0, 0, 0, 1⟩], 0x0, 0x0⟩
def regQST_GMISC : RegDef := ⟨"GMISC", 0x1028, 16, 0x100, false, .plain,
  [⟨"TP", 31, 24, .rw, .s, 0, 0, 0, 1⟩,
   ⟨"HC", 23, 16, .rw, .s, 0, 0, 0, 1⟩,
   ⟨"CV", 15, 0, .rw, .s, 0, 0, 0, 1⟩], 0x0, 0x0⟩
def regQST_GPIPE : RegDef := ⟨"GPIPE", 0x102C, 16, 0x100, false, .plain,
  [⟨"WB", 15, 8, .rw, .s, 0, 0, 0, 1⟩,
   ⟨"CLR", 7, 0, .rw, .s, 0, 0, 0, 1⟩], 0x0, 0x0⟩
def regQST_GADM0 : RegDef := ⟨"GADM0", 0x1030, 1, 0x4, false, .plain,
  [⟨"ADMIT_MAX", 31, 24, .rw, .f, 255, 0, 0, 1⟩,
   ⟨"NVEC", 22, 16, .rw, .s, 64, 0, 0, 1⟩,
   ⟨"SHARE", 8, 0, .ro, .no, 256, 0, 0, 1⟩], 0x0, 0x0⟩
def regQST_GADM : RegDef := ⟨"GADM", 0x1130, 15, 0x100, false, .plain,
  [⟨"ADMIT_MAX", 31, 24, .rw, .f, 0, 0, 0, 1⟩,
   ⟨"NVEC", 22, 16, .rw, .s, 0, 0, 0, 1⟩,
   ⟨"SHARE", 8, 0, .ro, .no, 0, 0, 0, 1⟩], 0x0, 0x0⟩
def regQST_TCTX_LO : RegDef := ⟨"TCTX_LO", 0x1038, 16, 0x100, false, .plain,
  [⟨"BASE", 31, 16, .rw, .s, 0, 0, 0, 1⟩,
   ⟨"SAS", 2, 0, .rw, .s, 0, 0, 5, 1⟩], 0x0, 0x0⟩
def regQST_TCTX_HI : RegDef := ⟨"TCTX_HI", 0x103C, 16, 0x100, false, .plain,
  [⟨"BASE", 2, 0, .rw, .s, 0, 0, 0, 1⟩], 0x0, 0x0⟩
def regQST_VKIND : RegDef := ⟨"VKIND", 0x1040, 16, 0x100, false, .plain,
  [⟨"STALE", 31, 31, .ro, .no, 0, 0, 0, 1⟩,
   ⟨"MASTER", 30, 28, .ro, .no, 0, 0, 0, 1⟩,
   ⟨"REASON", 27, 24, .ro, .no, 0, 0, 0, 1⟩,
   ⟨"INST", 23, 16, .ro, .no, 0, 0, 0, 1⟩,
   ⟨"WRITE", 15, 15, .ro, .no, 0, 0, 0, 1⟩,
   ⟨"ADDR63", 14, 14, .ro, .no, 0, 0, 0, 1⟩,
   ⟨"ADDR62", 13, 13, .ro, .no, 0, 0, 0, 1⟩], 0x0, 0x0⟩
def regQST_VADDR_LO : RegDef := ⟨"VADDR_LO", 0x1044, 16, 0x100, false, .plain,
  [⟨"STALE", 31, 31, .ro, .no, 0, 0, 0, 1⟩,
   ⟨"ADDR", 30, 0, .ro, .no, 0, 0, 0, 1⟩], 0x0, 0x0⟩
def regQST_VADDR_HI : RegDef := ⟨"VADDR_HI", 0x1048, 16, 0x100, false, .plain,
  [⟨"STALE", 31, 31, .ro, .no, 0, 0, 0, 1⟩,
   ⟨"ADDR", 30, 0, .ro, .no, 0, 0, 0, 1⟩], 0x0, 0x0⟩
def regQST_VCOUNT : RegDef := ⟨"VCOUNT", 0x1050, 16, 0x100, true, .error,
  [], 0x0, 0x0⟩
def regQST_RESETS : RegDef := ⟨"RESETS", 0x1058, 16, 0x100, true, .event,
  [], 0x0, 0x0⟩
def regQST_SQUASHED : RegDef := ⟨"SQUASHED", 0x1060, 16, 0x100, true, .error,
  [], 0x0, 0x0⟩
def regQST_BAR_REFUSED : RegDef := ⟨"BAR_REFUSED", 0x1068, 16, 0x100, true, .error,
  [], 0x0, 0x0⟩
def regQST_OWN_SRAM : RegDef := ⟨"OWN_SRAM", 0x3000, 192, 0x4, false, .plain,
  [⟨"OWNER", 31, 0, .rw, .l, 4294967295, 0, 0, 1⟩], 0x0, 0x0⟩
def regQST_TINV : RegDef := ⟨"TINV", 0x3800, 1, 0x4, false, .plain,
  [⟨"GO", 31, 31, .wo, .l, 0, 0, 0, 1⟩,
   ⟨"ALL", 30, 30, .wo, .l, 0, 0, 0, 1⟩,
   ⟨"STALL", 23, 20, .wo, .l, 0, 0, 0, 1⟩,
   ⟨"SA", 19, 0, .wo, .l, 0, 0, 0, 1⟩], 0x0, 0x0⟩
def regQST_TINV_STAT : RegDef := ⟨"TINV_STAT", 0x3804, 1, 0x4, false, .plain,
  [⟨"STALE", 31, 31, .ro, .no, 0, 0, 0, 1⟩,
   ⟨"BUSY", 30, 30, .ro, .no, 0, 0, 0, 1⟩], 0x0, 0x0⟩
def regQST_OWN_DRAM : RegDef := ⟨"OWN_DRAM", 0x4000, 4096, 0x4, false, .plain,
  [⟨"OWNER", 31, 0, .rw, .l, 4294967295, 0, 0, 1⟩], 0x0, 0x0⟩
def regQST_FVAL : RegDef := ⟨"FVAL", 0x8000, 1024, 0x8, false, .plain,
  [⟨"VAL", 31, 0, .rw, .l, 0, 0, 0, 1⟩], 0x0, 0x0⟩
def regQST_FADD : RegDef := ⟨"FADD", 0x8004, 1024, 0x8, false, .plain,
  [⟨"ADD", 31, 0, .wo, .l, 0, 0, 0, 1⟩], 0x0, 0x0⟩
def regQST_GS_CTRL : RegDef := ⟨"GS_CTRL", 0xA000, 1, 0x4, false, .plain,
  [⟨"URGENT_RSV", 1, 0, .rw, .s, 2, 0, 2, 1⟩], 0x0, 0x0⟩
def regQST_GS_STAT : RegDef := ⟨"GS_STAT", 0xA004, 1, 0x4, false, .plain,
  [⟨"STALE", 31, 31, .ro, .no, 0, 0, 0, 1⟩,
   ⟨"SUM", 24, 16, .ro, .no, 256, 0, 0, 1⟩,
   ⟨"EPOCH_LO", 15, 0, .ro, .no, 0, 0, 0, 1⟩], 0x0, 0x0⟩
def regQST_GS_EPOCHS : RegDef := ⟨"GS_EPOCHS", 0xA008, 1, 0x4, true, .event,
  [], 0x0, 0x0⟩
def regQST_GS_PREEMPT : RegDef := ⟨"GS_PREEMPT", 0xA010, 1, 0x4, true, .event,
  [], 0x0, 0x0⟩
def regQST_GS_LONG : RegDef := ⟨"GS_LONG", 0xA018, 1, 0x4, true, .error,
  [], 0x0, 0x0⟩
def regQST_GSHARE0 : RegDef := ⟨"GSHARE0", 0xA100, 1, 0x4, false, .plain,
  [⟨"HARD", 31, 31, .rw, .f, 0, 0, 0, 1⟩,
   ⟨"SHARE", 8, 0, .rw, .f, 256, 0, 256, 1⟩], 0x0, 0x0⟩
def regQST_GSHARE : RegDef := ⟨"GSHARE", 0xA120, 15, 0x20, false, .plain,
  [⟨"HARD", 31, 31, .rw, .f, 0, 0, 0, 1⟩,
   ⟨"SHARE", 8, 0, .rw, .f, 0, 0, 256, 1⟩], 0x0, 0x0⟩
def regQST_GCREDIT : RegDef := ⟨"GCREDIT", 0xA104, 16, 0x20, false, .plain,
  [⟨"STALE", 31, 31, .ro, .no, 0, 0, 0, 1⟩,
   ⟨"CREDIT", 24, 0, .ro, .no, 0, 0, 0, 1⟩], 0x0, 0x0⟩
def regQST_GUSED : RegDef := ⟨"GUSED", 0xA108, 16, 0x20, true, .event,
  [], 0x0, 0x0⟩
def regQST_GKILL : RegDef := ⟨"GKILL", 0xA110, 16, 0x20, true, .error,
  [], 0x0, 0x0⟩
def regQST_GDLMISS : RegDef := ⟨"GDLMISS", 0xA118, 16, 0x20, true, .error,
  [], 0x0, 0x0⟩
def regQST_GQATTR : RegDef := ⟨"GQATTR", 0xA400, 64, 0x4, false, .plain,
  [⟨"DL_EN", 31, 31, .rw, .l, 0, 0, 0, 1⟩,
   ⟨"DL_PIPE", 26, 24, .rw, .l, 0, 0, 0, 1⟩,
   ⟨"PRIO", 1, 0, .rw, .l, 1, 0, 0, 1⟩], 0x0, 0x0⟩

/-- The registers of block kind QST. -/
def regsQST : List RegDef :=
  [regQST_QCFG, regQST_QBASE_LO, regQST_QBASE_HI, regQST_QTAIL, regQST_QHEAD, regQST_QDONE, regQST_QSTAT, regQST_QPOS_LO, regQST_QPOS_HI, regQST_QREFUSED, regQST_QITEMS, regQST_SCTRL, regQST_SCFG, regQST_SSTAT, regQST_SDRAIN, regQST_GQ_LO, regQST_GQ_HI, regQST_GL_LO, regQST_GL_HI, regQST_GDM] ++
  [regQST_GAUD, regQST_GMISC, regQST_GPIPE, regQST_GADM0, regQST_GADM, regQST_TCTX_LO, regQST_TCTX_HI, regQST_VKIND, regQST_VADDR_LO, regQST_VADDR_HI, regQST_VCOUNT, regQST_RESETS, regQST_SQUASHED, regQST_BAR_REFUSED, regQST_OWN_SRAM, regQST_TINV, regQST_TINV_STAT, regQST_OWN_DRAM, regQST_FVAL, regQST_FADD] ++
  [regQST_GS_CTRL, regQST_GS_STAT, regQST_GS_EPOCHS, regQST_GS_PREEMPT, regQST_GS_LONG, regQST_GSHARE0, regQST_GSHARE, regQST_GCREDIT, regQST_GUSED, regQST_GKILL, regQST_GDLMISS, regQST_GQATTR]

def regXP_XSTALE : RegDef := ⟨"XSTALE", 0xFF00, 1, 0x4, true, .error,
  [], 0x0, 0x0⟩
def regXP_XREFUSED : RegDef := ⟨"XREFUSED", 0xFF08, 1, 0x4, true, .error,
  [], 0x0, 0x0⟩
def regXP_XOVR : RegDef := ⟨"XOVR", 0xFF10, 1, 0x4, false, .plain,
  [⟨"STALE", 31, 31, .ro, .no, 0, 0, 0, 1⟩,
   ⟨"OVR", 30, 0, .ro, .no, 0, 0, 0, 1⟩], 0x0, 0x0⟩
def regXP_XLOST : RegDef := ⟨"XLOST", 0xFF14, 5, 0x4, false, .plain,
  [⟨"STALE", 31, 31, .ro, .no, 0, 0, 0, 1⟩,
   ⟨"LOST", 27, 0, .ro, .no, 0, 0, 0, 1⟩], 0x0, 0x0⟩
def regXP_XREF_OFFSET : RegDef := ⟨"XREF_OFFSET", 0xFF28, 1, 0x4, false, .plain,
  [⟨"STALE", 31, 31, .ro, .no, 0, 0, 0, 1⟩,
   ⟨"OFFSET", 15, 0, .ro, .no, 0, 0, 0, 1⟩], 0x0, 0x0⟩
def regXP_XCLR : RegDef := ⟨"XCLR", 0xFF2C, 1, 0x4, false, .plain,
  [⟨"CLR", 30, 0, .wo, .l, 0, 0, 0, 1⟩], 0x0, 0x0⟩
def regXP_XCNT_CLR : RegDef := ⟨"XCNT_CLR", 0xFF30, 1, 0x4, false, .plain,
  [⟨"CLR_REFUSED", 1, 1, .wo, .l, 0, 0, 0, 1⟩,
   ⟨"CLR_STALE", 0, 0, .wo, .l, 0, 0, 0, 1⟩], 0x0, 0x0⟩

/-- The registers of block kind XP. -/
def regsXP : List RegDef :=
  [regXP_XSTALE, regXP_XREFUSED, regXP_XOVR, regXP_XLOST, regXP_XREF_OFFSET, regXP_XCLR, regXP_XCNT_CLR]

def regBAR0_ISTAT : RegDef := ⟨"ISTAT", 0x100, 3, 0x4, false, .plain,
  [⟨"PEND", 31, 0, .w1c, .l, 0, 0, 0, 1⟩], 0x0, 0x0⟩
def regBAR0_IMASK : RegDef := ⟨"IMASK", 0x110, 3, 0x4, false, .plain,
  [⟨"EN", 31, 0, .rw, .l, 0, 0, 0, 1⟩], 0x0, 0x0⟩
def regBAR0_IVEC : RegDef := ⟨"IVEC", 0x120, 24, 0x4, false, .plain,
  [⟨"VEC3", 29, 24, .rw, .l, 0, 0, 0, 1⟩,
   ⟨"VEC2", 21, 16, .rw, .l, 0, 0, 0, 1⟩,
   ⟨"VEC1", 13, 8, .rw, .l, 0, 0, 0, 1⟩,
   ⟨"VEC0", 5, 0, .rw, .l, 0, 0, 0, 1⟩], 0x0, 0x0⟩
def regBAR0_EXP_VAL : RegDef := ⟨"EXP_VAL", 0x5000, 128, 0x10, false, .plain,
  [⟨"VAL", 31, 0, .rw, .l, 0, 0, 0, 1⟩], 0x0, 0x0⟩
def regBAR0_EXP_CTL : RegDef := ⟨"EXP_CTL", 0x5004, 128, 0x10, false, .plain,
  [⟨"ALIVE", 3, 0, .wo, .l, 0, 0, 0, 1⟩], 0x0, 0x0⟩
def regBAR0_LSUB_DATA : RegDef := ⟨"LSUB_DATA", 0x5800, 8, 0x4, false, .plain,
  [⟨"DATA", 31, 0, .rw, .l, 0, 0, 0, 1⟩], 0x0, 0x0⟩
def regBAR0_LSUB_CTRL : RegDef := ⟨"LSUB_CTRL", 0x5820, 1, 0x4, false, .plain,
  [⟨"GO", 31, 31, .wo, .l, 0, 0, 0, 1⟩,
   ⟨"PIPE", 18, 16, .wo, .l, 0, 0, 0, 1⟩,
   ⟨"TAG", 15, 0, .wo, .l, 0, 0, 0, 1⟩], 0x0, 0x0⟩
def regBAR0_LSUB_STAT : RegDef := ⟨"LSUB_STAT", 0x5824, 1, 0x4, false, .plain,
  [⟨"STALE", 31, 31, .ro, .no, 0, 0, 0, 1⟩,
   ⟨"BUSY", 30, 30, .ro, .no, 0, 0, 0, 1⟩,
   ⟨"DROPPED", 29, 29, .ro, .no, 0, 0, 0, 1⟩,
   ⟨"SEQ_LO", 15, 0, .ro, .no, 0, 0, 0, 1⟩], 0x0, 0x0⟩
def regBAR0_MB_REQ : RegDef := ⟨"MB_REQ", 0x6000, 256, 0x4, false, .plain,
  [⟨"DATA", 31, 0, .rw, .l, 0, 0, 0, 1⟩], 0x0, 0x0⟩
def regBAR0_MB_RSP : RegDef := ⟨"MB_RSP", 0x6400, 256, 0x4, false, .plain,
  [⟨"DATA", 31, 0, .ro, .no, 0, 0, 0, 1⟩], 0x0, 0x0⟩
def regBAR0_MB_CTRL : RegDef := ⟨"MB_CTRL", 0x6800, 1, 0x4, false, .plain,
  [⟨"GO", 31, 31, .wo, .l, 0, 0, 0, 1⟩,
   ⟨"LEN", 10, 0, .wo, .l, 0, 0, 0, 1⟩], 0x0, 0x0⟩
def regBAR0_MB_STAT : RegDef := ⟨"MB_STAT", 0x6804, 1, 0x4, false, .plain,
  [⟨"BUSY", 31, 31, .ro, .no, 0, 0, 0, 1⟩,
   ⟨"RSP_READY", 30, 30, .ro, .no, 0, 0, 0, 1⟩,
   ⟨"RSP_LEN", 10, 0, .ro, .no, 0, 0, 0, 1⟩], 0x0, 0x0⟩
def regBAR0_MSIX : RegDef := ⟨"MSIX", 0x7000, 256, 0x4, false, .plain,
  [⟨"VAL", 31, 0, .rw, .no, 0, 0, 0, 1⟩], 0x0, 0x0⟩
def regBAR0_PBA : RegDef := ⟨"PBA", 0x7800, 2, 0x4, false, .plain,
  [⟨"VAL", 31, 0, .ro, .no, 0, 0, 0, 1⟩], 0x0, 0x0⟩

/-- The registers of block kind BAR0. -/
def regsBAR0 : List RegDef :=
  [regBAR0_ISTAT, regBAR0_IMASK, regBAR0_IVEC, regBAR0_EXP_VAL, regBAR0_EXP_CTL, regBAR0_LSUB_DATA, regBAR0_LSUB_CTRL, regBAR0_LSUB_STAT, regBAR0_MB_REQ, regBAR0_MB_RSP, regBAR0_MB_CTRL, regBAR0_MB_STAT, regBAR0_MSIX, regBAR0_PBA]

/-- Registers that MC0 alone has (R298, R299). -/
def mc0Only : List String := ["MAP_CTRL", "MAP_STAT", "SCRUB_CFG", "SCRUB_STAT", "ECC_MAP", "SCRUB_PASSES"]

/-- The registers of a block kind. -/
def BlkKind.regs : BlkKind → List RegDef
  | .kAON => regsAON
  | .kTEL => regsTEL
  | .kKPR => regsKPR
  | .kMSR => regsMSR
  | .kNVM => regsNVM
  | .kMC => regsMC
  | .kLGR => regsLGR
  | .kPIPE => regsPIPE
  | .kOUT => regsOUT
  | .kRFE => regsRFE
  | .kSHI => regsSHI
  | .kDM => regsDM
  | .kCVU => regsCVU
  | .kTFE => regsTFE
  | .kAHX => regsAHX
  | .kQST => regsQST
  | .kXP => regsXP
  | .kBAR0 => regsBAR0
  | .kBare => []

/-! Addresses: `r<REG> instance... ` is the address of a register (R3 and the block maps). -/
def rIDENT : Nat := blkAddr 0x0 0x0
def fIDENT_PART : Fld := ⟨16, 16⟩
def fIDENT_STEP : Fld := ⟨8, 8⟩
def fIDENT_PKG : Fld := ⟨4, 4⟩
def rAON_BOOT_STAT : Nat := blkAddr 0x0 0x10
def fAON_BOOT_STAT_STALE : Fld := ⟨31, 1⟩
def fAON_BOOT_STAT_SRC : Fld := ⟨28, 3⟩
def fAON_BOOT_STAT_LIFECYCLE : Fld := ⟨26, 2⟩
def fAON_BOOT_STAT_SLOT : Fld := ⟨25, 1⟩
def fAON_BOOT_STAT_FAIL_A : Fld := ⟨20, 4⟩
def fAON_BOOT_STAT_FAIL_B : Fld := ⟨16, 4⟩
def fAON_BOOT_STAT_ERR : Fld := ⟨0, 8⟩
def rDSTATE : Nat := blkAddr 0x0 0x14
def fDSTATE_STALE : Fld := ⟨31, 1⟩
def fDSTATE_STATE_WORD : Fld := ⟨0, 16⟩
def rISL_CTRL (i : Nat) : Nat := blkAddr 0x0 (0x100 + 0x4 * i)
def fISL_CTRL_OFF : Fld := ⟨31, 1⟩
def fISL_CTRL_MAX_STEP : Fld := ⟨0, 9⟩
def rISL_STAT (i : Nat) : Nat := blkAddr 0x0 (0x180 + 0x4 * i)
def fISL_STAT_STALE : Fld := ⟨31, 1⟩
def fISL_STAT_PWR : Fld := ⟨29, 2⟩
def fISL_STAT_CUR_STEP : Fld := ⟨0, 9⟩
def rDOM_STAT (i : Nat) : Nat := blkAddr 0x0 (0x200 + 0x4 * i)
def fDOM_STAT_STALE : Fld := ⟨31, 1⟩
def fDOM_STAT_CHANGING : Fld := ⟨30, 1⟩
def fDOM_STAT_MV : Fld := ⟨0, 12⟩
def rSUPPLY_CFG : Nat := blkAddr 0x0 0x300
def fSUPPLY_CFG_EN : Fld := ⟨31, 1⟩
def fSUPPLY_CFG_CLEAR_MV : Fld := ⟨20, 11⟩
def fSUPPLY_CFG_WARN_MV : Fld := ⟨9, 11⟩
def fSUPPLY_CFG_RECOVER_MS : Fld := ⟨0, 9⟩
def rSUPPLY_STAT : Nat := blkAddr 0x0 0x304
def fSUPPLY_STAT_STALE : Fld := ⟨31, 1⟩
def fSUPPLY_STAT_WARN : Fld := ⟨30, 1⟩
def fSUPPLY_STAT_BELOW : Fld := ⟨29, 1⟩
def fSUPPLY_STAT_SAVE_ACT : Fld := ⟨28, 1⟩
def rSAVE_STAT : Nat := blkAddr 0x0 0x308
def fSAVE_STAT_STALE : Fld := ⟨31, 1⟩
def fSAVE_STAT_FOUND : Fld := ⟨30, 1⟩
def fSAVE_STAT_CONSUMED : Fld := ⟨29, 1⟩
def fSAVE_STAT_OUTCOME : Fld := ⟨24, 4⟩
def fSAVE_STAT_DURATION_US : Fld := ⟨0, 12⟩
def rSAG_SHORT : Nat := blkAddr 0x0 0x310
def rSAVES : Nat := blkAddr 0x0 0x318
def rSAVE_LOST : Nat := blkAddr 0x0 0x320
def rSYNC_IN_CFG : Nat := blkAddr 0x0 0x400
def fSYNC_IN_CFG_FILT : Fld := ⟨8, 4⟩
def fSYNC_IN_CFG_POL : Fld := ⟨0, 4⟩
def rSYNC_OUT (i : Nat) : Nat := blkAddr 0x0 (0x404 + 0x4 * i)
def fSYNC_OUT_MODE : Fld := ⟨30, 2⟩
def fSYNC_OUT_POL : Fld := ⟨29, 1⟩
def fSYNC_OUT_PIPE : Fld := ⟨24, 3⟩
def fSYNC_OUT_IN : Fld := ⟨20, 2⟩
def fSYNC_OUT_WIDTH_US : Fld := ⟨0, 6⟩
def rGPIO_OUT : Nat := blkAddr 0x0 0x500
def fGPIO_OUT_OUT : Fld := ⟨0, 32⟩
def rGPIO_OE : Nat := blkAddr 0x0 0x504
def fGPIO_OE_OE : Fld := ⟨0, 32⟩
def rGPIO_IN0 : Nat := blkAddr 0x0 0x508
def fGPIO_IN0_STALE : Fld := ⟨31, 1⟩
def fGPIO_IN0_IN : Fld := ⟨0, 16⟩
def rGPIO_IN1 : Nat := blkAddr 0x0 0x50C
def fGPIO_IN1_STALE : Fld := ⟨31, 1⟩
def fGPIO_IN1_IN : Fld := ⟨0, 16⟩
def rGPIO_PULL (i : Nat) : Nat := blkAddr 0x0 (0x510 + 0x4 * i)
def fGPIO_PULL_PULL : Fld := ⟨0, 32⟩
def rGPIO_DRV : Nat := blkAddr 0x0 0x518
def fGPIO_DRV_DRV : Fld := ⟨0, 32⟩
def rGPIO_TMASK : Nat := blkAddr 0x0 0x51C
def fGPIO_TMASK_T : Fld := ⟨0, 32⟩
def rREG_CFG : Nat := blkAddr 0x0 0x600
def fREG_CFG_SPEED : Fld := ⟨31, 1⟩
def fREG_CFG_PEC : Fld := ⟨30, 1⟩
def fREG_CFG_PG_PRESENT : Fld := ⟨27, 3⟩
def fREG_CFG_ADDR_SRAM : Fld := ⟨14, 7⟩
def fREG_CFG_ADDR_GPU : Fld := ⟨7, 7⟩
def fREG_CFG_ADDR_PIPE : Fld := ⟨0, 7⟩
def rREG_STAT : Nat := blkAddr 0x0 0x604
def fREG_STAT_STALE : Fld := ⟨31, 1⟩
def fREG_STAT_BUSY : Fld := ⟨30, 1⟩
def fREG_STAT_FAIL : Fld := ⟨27, 3⟩
def fREG_STAT_PG : Fld := ⟨24, 3⟩
def rREG_ERR : Nat := blkAddr 0x0 0x608
def rPG_DROP : Nat := blkAddr 0x0 0x610
def rIO_CFG : Nat := blkAddr 0x0 0x620
def fIO_CFG_TX_DLY : Fld := ⟨1, 1⟩
def fIO_CFG_RX_DLY : Fld := ⟨0, 1⟩
def rTALLY_CTRL : Nat := blkAddr 0x1 0x0
def fTALLY_CTRL_START : Fld := ⟨31, 1⟩
def fTALLY_CTRL_ARM : Fld := ⟨30, 1⟩
def fTALLY_CTRL_PIPE : Fld := ⟨24, 3⟩
def fTALLY_CTRL_PERIODIC_EN : Fld := ⟨0, 1⟩
def rTALLY_STAT : Nat := blkAddr 0x1 0x4
def fTALLY_STAT_STALE : Fld := ⟨31, 1⟩
def fTALLY_STAT_BUSY : Fld := ⟨30, 1⟩
def fTALLY_STAT_PARTIAL : Fld := ⟨29, 1⟩
def fTALLY_STAT_FRAME_MISSED : Fld := ⟨28, 1⟩
def fTALLY_STAT_LAST_SRC : Fld := ⟨24, 4⟩
def fTALLY_STAT_EPOCH : Fld := ⟨0, 16⟩
def rTALLY_PERIOD : Nat := blkAddr 0x1 0x8
def fTALLY_PERIOD_PERIOD_MS : Fld := ⟨0, 16⟩
def rTALLY_PART : Nat := blkAddr 0x1 0xC
def fTALLY_PART_STALE : Fld := ⟨31, 1⟩
def fTALLY_PART_ISL : Fld := ⟨0, 31⟩
def rTALLY_FRAME : Nat := blkAddr 0x1 0x10
def fTALLY_FRAME_TARGET : Fld := ⟨0, 32⟩
def rTALLY_REFUSED : Nat := blkAddr 0x1 0x18
def rISL_ENERGY (i : Nat) : Nat := blkAddr 0x1 (0x100 + 0x8 * i)
def rSTALL_ENERGY (i : Nat) : Nat := blkAddr 0x1 (0x200 + 0x8 * i)
def rOVR_SUMMARY (i : Nat) : Nat := blkAddr 0x1 (0x300 + 0x4 * i)
def fOVR_SUMMARY_STALE : Fld := ⟨31, 1⟩
def fOVR_SUMMARY_SUM : Fld := ⟨0, 16⟩
def rSTALE_SUMMARY (i : Nat) : Nat := blkAddr 0x1 (0x340 + 0x4 * i)
def fSTALE_SUMMARY_STALE : Fld := ⟨31, 1⟩
def fSTALE_SUMMARY_SUM : Fld := ⟨0, 16⟩
def rKSTAT : Nat := blkAddr 0x2 0x0
def fKSTAT_STALE : Fld := ⟨31, 1⟩
def fKSTAT_STATE : Fld := ⟨28, 3⟩
def fKSTAT_WM_LOCKED : Fld := ⟨27, 1⟩
def fKSTAT_EPOCH_SAT : Fld := ⟨26, 1⟩
def fKSTAT_CAUSE : Fld := ⟨24, 2⟩
def fKSTAT_MEAS_EPOCH : Fld := ⟨0, 16⟩
def rKCTRL : Nat := blkAddr 0x2 0x4
def fKCTRL_KICK : Fld := ⟨31, 1⟩
def fKCTRL_RESTART : Fld := ⟨30, 1⟩
def fKCTRL_WM_LOCK : Fld := ⟨29, 1⟩
def fKCTRL_UP : Fld := ⟨28, 1⟩
def rKCFG : Nat := blkAddr 0x2 0x8
def fKCFG_KWD_MS : Fld := ⟨16, 8⟩
def fKCFG_WC_LIMIT_US : Fld := ⟨0, 14⟩
def rKPR_BOOT_STAT : Nat := blkAddr 0x2 0xC
def fKPR_BOOT_STAT_STALE : Fld := ⟨31, 1⟩
def fKPR_BOOT_STAT_SRC : Fld := ⟨28, 3⟩
def fKPR_BOOT_STAT_LIFECYCLE : Fld := ⟨26, 2⟩
def fKPR_BOOT_STAT_SLOT : Fld := ⟨25, 1⟩
def fKPR_BOOT_STAT_FAIL_A : Fld := ⟨20, 4⟩
def fKPR_BOOT_STAT_FAIL_B : Fld := ⟨16, 4⟩
def fKPR_BOOT_STAT_ERR : Fld := ⟨0, 8⟩
def rSVC_CTRL : Nat := blkAddr 0x2 0x10
def fSVC_CTRL_RUN : Fld := ⟨0, 4⟩
def rSVC_STAT : Nat := blkAddr 0x2 0x14
def fSVC_STAT_STALE : Fld := ⟨31, 1⟩
def fSVC_STAT_FROZEN : Fld := ⟨8, 4⟩
def fSVC_STAT_IN_CALL : Fld := ⟨4, 4⟩
def fSVC_STAT_RUNNING : Fld := ⟨0, 4⟩
def rSVC_THAW : Nat := blkAddr 0x2 0x18
def fSVC_THAW_THAW : Fld := ⟨0, 4⟩
def rWM_BLK (i : Nat) : Nat := blkAddr 0x2 (0x20 + 0x4 * i)
def fWM_BLK_T : Fld := ⟨0, 32⟩
def rWM_GRN (i : Nat) : Nat := blkAddr 0x2 (0x40 + 0x4 * i)
def fWM_GRN_T : Fld := ⟨0, 32⟩
def rWM_ISL : Nat := blkAddr 0x2 0xA0
def fWM_ISL_T : Fld := ⟨0, 31⟩
def rCALL_CFG : Nat := blkAddr 0x2 0xA4
def fCALL_CFG_EN : Fld := ⟨0, 4⟩
def rWC_FN (i : Nat) : Nat := blkAddr 0x2 (0x100 + 0x40 * i)
def fWC_FN_PRV : Fld := ⟨62, 2⟩
def fWC_FN_FN : Fld := ⟨0, 32⟩
def rWC_ARG0 (i : Nat) : Nat := blkAddr 0x2 (0x108 + 0x40 * i)
def fWC_ARG0_VAL : Fld := ⟨0, 64⟩
def rWC_ARG1 (i : Nat) : Nat := blkAddr 0x2 (0x110 + 0x40 * i)
def fWC_ARG1_VAL : Fld := ⟨0, 64⟩
def rWC_ARG2 (i : Nat) : Nat := blkAddr 0x2 (0x118 + 0x40 * i)
def fWC_ARG2_VAL : Fld := ⟨0, 64⟩
def rWC_ARG3 (i : Nat) : Nat := blkAddr 0x2 (0x120 + 0x40 * i)
def fWC_ARG3_VAL : Fld := ⟨0, 64⟩
def rWC_ARG4 (i : Nat) : Nat := blkAddr 0x2 (0x128 + 0x40 * i)
def fWC_ARG4_VAL : Fld := ⟨0, 64⟩
def rWC_ARG5 (i : Nat) : Nat := blkAddr 0x2 (0x130 + 0x40 * i)
def fWC_ARG5_VAL : Fld := ⟨0, 64⟩
def rWC_CTL (i : Nat) : Nat := blkAddr 0x2 (0x138 + 0x40 * i)
def fWC_CTL_POST : Fld := ⟨31, 1⟩
def fWC_CTL_PENDING : Fld := ⟨30, 1⟩
def fWC_CTL_DONE : Fld := ⟨29, 1⟩
def fWC_CTL_STATUS : Fld := ⟨0, 8⟩
def rWC_RSP (i : Nat) : Nat := blkAddr 0x2 (0x13C + 0x40 * i)
def fWC_RSP_STATUS : Fld := ⟨0, 8⟩
def rSVC_VREC (i : Nat) : Nat := blkAddr 0x2 (0x200 + 0x10 * i)
def fSVC_VREC_STALE : Fld := ⟨31, 1⟩
def fSVC_VREC_KIND : Fld := ⟨28, 3⟩
def fSVC_VREC_WRITE : Fld := ⟨27, 1⟩
def fSVC_VREC_FETCH : Fld := ⟨26, 1⟩
def rSVC_VADDR_LO (i : Nat) : Nat := blkAddr 0x2 (0x204 + 0x10 * i)
def fSVC_VADDR_LO_STALE : Fld := ⟨31, 1⟩
def fSVC_VADDR_LO_ADDR : Fld := ⟨0, 31⟩
def rSVC_VADDR_HI (i : Nat) : Nat := blkAddr 0x2 (0x208 + 0x10 * i)
def fSVC_VADDR_HI_STALE : Fld := ⟨31, 1⟩
def fSVC_VADDR_HI_ADDR : Fld := ⟨0, 5⟩
def rKEVT : Nat := blkAddr 0x2 0x300
def fKEVT_VALID : Fld := ⟨63, 1⟩
def fKEVT_BLOCK : Fld := ⟨52, 8⟩
def fKEVT_CODE : Fld := ⟨44, 8⟩
def fKEVT_INST : Fld := ⟨32, 12⟩
def fKEVT_INFO : Fld := ⟨0, 32⟩
def rKEVT_LVL : Nat := blkAddr 0x2 0x308
def fKEVT_LVL_STALE : Fld := ⟨31, 1⟩
def fKEVT_LVL_LEVEL : Fld := ⟨0, 9⟩
def rKRESTARTS : Nat := blkAddr 0x2 0x400
def rWC_TIMEOUT : Nat := blkAddr 0x2 0x408
def rWC_BUSY : Nat := blkAddr 0x2 0x410
def rCLKPWR_REFUSED : Nat := blkAddr 0x2 0x418
def rSVC_VIOL : Nat := blkAddr 0x2 0x420
def rEVT_LOST : Nat := blkAddr 0x2 0x428
def rMSR_SCRUB : Nat := blkAddr 0x5 0x0
def fMSR_SCRUB_EN : Fld := ⟨31, 1⟩
def fMSR_SCRUB_PASS_S : Fld := ⟨0, 6⟩
def rMSR_STAT : Nat := blkAddr 0x5 0x4
def fMSR_STAT_STALE : Fld := ⟨31, 1⟩
def fMSR_STAT_PAUSED : Fld := ⟨30, 1⟩
def fMSR_STAT_POS : Fld := ⟨0, 10⟩
def rMSR_PART : Nat := blkAddr 0x5 0x8
def fMSR_PART_STALE : Fld := ⟨31, 1⟩
def fMSR_PART_OVERLAP : Fld := ⟨30, 1⟩
def fMSR_PART_OWNER : Fld := ⟨29, 1⟩
def fMSR_PART_OWN_GRAIN : Fld := ⟨16, 10⟩
def fMSR_PART_OVL_GRAIN : Fld := ⟨0, 10⟩
def rMSR_UE_ADDR : Nat := blkAddr 0x5 0xC
def fMSR_UE_ADDR_STALE : Fld := ⟨31, 1⟩
def fMSR_UE_ADDR_ADDR : Fld := ⟨0, 26⟩
def rMSR_CE : Nat := blkAddr 0x5 0x40
def rMSR_UE : Nat := blkAddr 0x5 0x48
def rMSR_SCRUB_PASSES : Nat := blkAddr 0x5 0x50
def rSCRUB_LATE : Nat := blkAddr 0x5 0x58
def rNVM_CMD : Nat := blkAddr 0x6 0x0
def fNVM_CMD_OP : Fld := ⟨30, 2⟩
def fNVM_CMD_SECTOR : Fld := ⟨0, 8⟩
def rNVM_ADDR : Nat := blkAddr 0x6 0x4
def fNVM_ADDR_LINE : Fld := ⟨9, 7⟩
def rNVM_STAT : Nat := blkAddr 0x6 0x8
def fNVM_STAT_STALE : Fld := ⟨31, 1⟩
def fNVM_STAT_BUSY : Fld := ⟨30, 1⟩
def fNVM_STAT_FAIL : Fld := ⟨29, 1⟩
def fNVM_STAT_SUSPENDED : Fld := ⟨28, 1⟩
def fNVM_STAT_ARMED : Fld := ⟨16, 4⟩
def fNVM_STAT_FREE_LOG : Fld := ⟨0, 16⟩
def rPSTORE : Nat := blkAddr 0x6 0xC
def fPSTORE_EN : Fld := ⟨31, 1⟩
def fPSTORE_FLUSH_MS : Fld := ⟨0, 16⟩
def rPCACHE_CFG : Nat := blkAddr 0x6 0x10
def fPCACHE_CFG_BASE : Fld := ⟨12, 10⟩
def fPCACHE_CFG_GRAINS : Fld := ⟨0, 3⟩
def rNVM_BUF (i : Nat) : Nat := blkAddr 0x6 (0x200 + 0x4 * i)
def fNVM_BUF_DATA : Fld := ⟨0, 32⟩
def rNVM_RETIRED : Nat := blkAddr 0x6 0x40
def rSAVE_NONE : Nat := blkAddr 0x6 0x48
def rPS_BADLINE : Nat := blkAddr 0x6 0x50
def rNVM_ERASES : Nat := blkAddr 0x6 0x58
def rMC_CFG (u : Nat) : Nat := blkAddr (0x8 + u) 0x0
def fMC_CFG_EN : Fld := ⟨31, 1⟩
def fMC_CFG_RATE : Fld := ⟨24, 4⟩
def fMC_CFG_CAP : Fld := ⟨20, 2⟩
def rMC_CTRL (u : Nat) : Nat := blkAddr (0x8 + u) 0x4
def fMC_CTRL_TRAIN : Fld := ⟨31, 1⟩
def fMC_CTRL_RETRAIN : Fld := ⟨30, 1⟩
def rMC_STAT (u : Nat) : Nat := blkAddr (0x8 + u) 0x8
def fMC_STAT_STALE : Fld := ⟨31, 1⟩
def fMC_STAT_STATE : Fld := ⟨28, 3⟩
def fMC_STAT_FENCE_CAUSE : Fld := ⟨24, 4⟩
def fMC_STAT_LANE_FAIL : Fld := ⟨20, 4⟩
def fMC_STAT_RFM_SUP : Fld := ⟨19, 1⟩
def fMC_STAT_REF_FACTOR : Fld := ⟨16, 3⟩
def rMC_TRAIN_CFG (u : Nat) : Nat := blkAddr (0x8 + u) 0xC
def fMC_TRAIN_CFG_EYE_MIN : Fld := ⟨0, 8⟩
def rLANE_RD (u : Nat) (i : Nat) : Nat := blkAddr (0x8 + u) (0x10 + 0x8 * i)
def fLANE_RD_STALE : Fld := ⟨31, 1⟩
def fLANE_RD_EYE : Fld := ⟨23, 8⟩
def fLANE_RD_VREF : Fld := ⟨20, 3⟩
def fLANE_RD_DLY : Fld := ⟨0, 7⟩
def rLANE_WR (u : Nat) (i : Nat) : Nat := blkAddr (0x8 + u) (0x14 + 0x8 * i)
def fLANE_WR_STALE : Fld := ⟨31, 1⟩
def fLANE_WR_EYE : Fld := ⟨23, 8⟩
def fLANE_WR_VREF : Fld := ⟨20, 3⟩
def fLANE_WR_DLY : Fld := ⟨0, 7⟩
def rSCHED_CFG (u : Nat) : Nat := blkAddr (0x8 + u) 0x30
def fSCHED_CFG_AGE_US : Fld := ⟨16, 8⟩
def fSCHED_CFG_WR_HIGH : Fld := ⟨8, 5⟩
def fSCHED_CFG_WR_LOW : Fld := ⟨0, 5⟩
def rREF_STAT (u : Nat) : Nat := blkAddr (0x8 + u) 0x34
def fREF_STAT_STALE : Fld := ⟨31, 1⟩
def fREF_STAT_DEBT_SC1 : Fld := ⟨8, 5⟩
def fREF_STAT_DEBT_SC0 : Fld := ⟨0, 5⟩
def rRH_CFG (u : Nat) : Nat := blkAddr (0x8 + u) 0x38
def fRH_CFG_EN : Fld := ⟨31, 1⟩
def fRH_CFG_THRESH : Fld := ⟨0, 16⟩
def rDRIFT_CFG (u : Nat) : Nat := blkAddr (0x8 + u) 0x3C
def fDRIFT_CFG_EN : Fld := ⟨31, 1⟩
def fDRIFT_CFG_PERIOD_MS : Fld := ⟨16, 10⟩
def fDRIFT_CFG_DRIFT_MAX : Fld := ⟨0, 6⟩
def rACTS (u : Nat) : Nat := blkAddr (0x8 + u) 0x80
def rRD_BYTES (u : Nat) : Nat := blkAddr (0x8 + u) 0x88
def rWR_BYTES (u : Nat) : Nat := blkAddr (0x8 + u) 0x90
def rREF_FORCED (u : Nat) : Nat := blkAddr (0x8 + u) 0x98
def rRH_TRR (u : Nat) : Nat := blkAddr (0x8 + u) 0xA0
def rCE (u : Nat) : Nat := blkAddr (0x8 + u) 0xA8
def rUE (u : Nat) : Nat := blkAddr (0x8 + u) 0xB0
def rDRIFT_FAIL (u : Nat) : Nat := blkAddr (0x8 + u) 0xB8
def rRETRAINS (u : Nat) : Nat := blkAddr (0x8 + u) 0xC0
def rDRIFT_SKIP (u : Nat) : Nat := blkAddr (0x8 + u) 0xC8
def rPANIC_CYC (u : Nat) : Nat := blkAddr (0x8 + u) 0xD0
def rMAP_CTRL : Nat := blkAddr 0x08 0x100
def fMAP_CTRL_BUILD : Fld := ⟨31, 1⟩
def rMAP_STAT : Nat := blkAddr 0x08 0x104
def fMAP_STAT_STALE : Fld := ⟨31, 1⟩
def fMAP_STAT_BUILT : Fld := ⟨30, 1⟩
def fMAP_STAT_DEGRADED : Fld := ⟨29, 1⟩
def fMAP_STAT_ECC_BUSY : Fld := ⟨28, 1⟩
def fMAP_STAT_N : Fld := ⟨20, 3⟩
def fMAP_STAT_SURV : Fld := ⟨16, 4⟩
def fMAP_STAT_PAGES : Fld := ⟨0, 15⟩
def rSCRUB_CFG : Nat := blkAddr 0x08 0x108
def fSCRUB_CFG_EN : Fld := ⟨31, 1⟩
def fSCRUB_CFG_HOURS : Fld := ⟨0, 8⟩
def rSCRUB_STAT : Nat := blkAddr 0x08 0x10C
def fSCRUB_STAT_STALE : Fld := ⟨31, 1⟩
def fSCRUB_STAT_RUNNING : Fld := ⟨30, 1⟩
def fSCRUB_STAT_FAST : Fld := ⟨29, 1⟩
def fSCRUB_STAT_PROGRESS : Fld := ⟨0, 10⟩
def rECC_MAP (i : Nat) : Nat := blkAddr 0x08 (0x110 + 0x4 * i)
def fECC_MAP_ECC : Fld := ⟨0, 32⟩
def rMC_SCRUB_PASSES : Nat := blkAddr 0x08 0x120
def rLG_CTRL : Nat := blkAddr 0xC 0x0
def fLG_CTRL_INIT : Fld := ⟨31, 1⟩
def fLG_CTRL_SEAL : Fld := ⟨30, 1⟩
def fLG_CTRL_FULL_BLANK : Fld := ⟨1, 1⟩
def fLG_CTRL_EN : Fld := ⟨0, 1⟩
def rLG_CFG : Nat := blkAddr 0xC 0x4
def fLG_CFG_RING_BASE : Fld := ⟨12, 10⟩
def fLG_CFG_RING_GRAINS : Fld := ⟨0, 7⟩
def rLG_SEALCFG : Nat := blkAddr 0xC 0x8
def fLG_SEALCFG_SEAL_PERIOD_S : Fld := ⟨0, 12⟩
def rLG_STAT : Nat := blkAddr 0xC 0xC
def fLG_STAT_STALE : Fld := ⟨31, 1⟩
def fLG_STAT_EN : Fld := ⟨30, 1⟩
def fLG_STAT_FULL : Fld := ⟨29, 1⟩
def fLG_STAT_SEALING : Fld := ⟨28, 1⟩
def fLG_STAT_SEAL_WAIT : Fld := ⟨27, 1⟩
def fLG_STAT_NO_CHAIN : Fld := ⟨26, 1⟩
def fLG_STAT_FREE : Fld := ⟨0, 17⟩
def rLG_WR : Nat := blkAddr 0xC 0x10
def fLG_WR_STALE : Fld := ⟨31, 1⟩
def fLG_WR_INDEX : Fld := ⟨0, 16⟩
def rLG_ACK : Nat := blkAddr 0xC 0x14
def fLG_ACK_INDEX : Fld := ⟨0, 16⟩
def rLG_SEQ : Nat := blkAddr 0xC 0x18
def rLG_DROP : Nat := blkAddr 0xC 0x20
def rLG_SEALS : Nat := blkAddr 0xC 0x28
def rLG_HEAD (i : Nat) : Nat := blkAddr 0xC (0x40 + 0x4 * i)
def fLG_HEAD_HEAD : Fld := ⟨0, 32⟩
def rLG_CHAIN (i : Nat) : Nat := blkAddr 0xC (0x60 + 0x4 * i)
def fLG_CHAIN_ID : Fld := ⟨0, 32⟩
def rPSTATE (u : Nat) : Nat := blkAddr (0x10 + u) 0x0
def fPSTATE_STALE : Fld := ⟨31, 1⟩
def fPSTATE_STATE : Fld := ⟨28, 3⟩
def fPSTATE_FAULT_CAUSE : Fld := ⟨24, 4⟩
def fPSTATE_BLANK_SW : Fld := ⟨23, 1⟩
def fPSTATE_BLANK_SAVE : Fld := ⟨22, 1⟩
def fPSTATE_BLANK_PITCH : Fld := ⟨21, 1⟩
def fPSTATE_BLANK_FIRST : Fld := ⟨20, 1⟩
def fPSTATE_ISL_STEP : Fld := ⟨0, 8⟩
def rPCTRL (u : Nat) : Nat := blkAddr (0x10 + u) 0x4
def fPCTRL_START : Fld := ⟨31, 1⟩
def fPCTRL_STOP : Fld := ⟨30, 1⟩
def fPCTRL_AUTO_RECOVER : Fld := ⟨1, 1⟩
def fPCTRL_BLANK : Fld := ⟨0, 1⟩
def rTMG_H0 (u : Nat) : Nat := blkAddr (0x10 + u) 0x10
def fTMG_H0_HACTIVE : Fld := ⟨16, 13⟩
def fTMG_H0_HFP : Fld := ⟨0, 12⟩
def rTNX_H0 (u : Nat) : Nat := blkAddr (0x10 + u) 0x30
def fTNX_H0_HACTIVE : Fld := ⟨16, 13⟩
def fTNX_H0_HFP : Fld := ⟨0, 12⟩
def rTMG_H1 (u : Nat) : Nat := blkAddr (0x10 + u) 0x14
def fTMG_H1_HSYNC : Fld := ⟨16, 12⟩
def fTMG_H1_HBP : Fld := ⟨0, 12⟩
def rTNX_H1 (u : Nat) : Nat := blkAddr (0x10 + u) 0x34
def fTNX_H1_HSYNC : Fld := ⟨16, 12⟩
def fTNX_H1_HBP : Fld := ⟨0, 12⟩
def rTMG_V0 (u : Nat) : Nat := blkAddr (0x10 + u) 0x18
def fTMG_V0_VACTIVE : Fld := ⟨16, 13⟩
def fTMG_V0_VFP : Fld := ⟨0, 8⟩
def rTNX_V0 (u : Nat) : Nat := blkAddr (0x10 + u) 0x38
def fTNX_V0_VACTIVE : Fld := ⟨16, 13⟩
def fTNX_V0_VFP : Fld := ⟨0, 8⟩
def rTMG_V1 (u : Nat) : Nat := blkAddr (0x10 + u) 0x1C
def fTMG_V1_VSYNC : Fld := ⟨16, 6⟩
def fTMG_V1_VBP : Fld := ⟨0, 8⟩
def rTNX_V1 (u : Nat) : Nat := blkAddr (0x10 + u) 0x3C
def fTNX_V1_VSYNC : Fld := ⟨16, 6⟩
def fTNX_V1_VBP : Fld := ⟨0, 8⟩
def rTMG_CLK (u : Nat) : Nat := blkAddr (0x10 + u) 0x20
def fTMG_CLK_HPOL : Fld := ⟨31, 1⟩
def fTMG_CLK_VPOL : Fld := ⟨30, 1⟩
def fTMG_CLK_BPC : Fld := ⟨28, 2⟩
def fTMG_CLK_PCLK_KHZ : Fld := ⟨0, 20⟩
def rTNX_CLK (u : Nat) : Nat := blkAddr (0x10 + u) 0x40
def fTNX_CLK_HPOL : Fld := ⟨31, 1⟩
def fTNX_CLK_VPOL : Fld := ⟨30, 1⟩
def fTNX_CLK_BPC : Fld := ⟨28, 2⟩
def fTNX_CLK_PCLK_KHZ : Fld := ⟨0, 20⟩
def rTNX_CTRL (u : Nat) : Nat := blkAddr (0x10 + u) 0x44
def fTNX_CTRL_GO : Fld := ⟨31, 1⟩
def fTNX_CTRL_NEW_LINK : Fld := ⟨8, 1⟩
def fTNX_CTRL_RATE : Fld := ⟨4, 2⟩
def fTNX_CTRL_LANES : Fld := ⟨0, 2⟩
def rTSTAT (u : Nat) : Nat := blkAddr (0x10 + u) 0x48
def fTSTAT_STALE : Fld := ⟨31, 1⟩
def fTSTAT_PENDING : Fld := ⟨30, 1⟩
def fTSTAT_LATE : Fld := ⟨29, 1⟩
def fTSTAT_REJECT : Fld := ⟨24, 4⟩
def rSYNC_SRC (u : Nat) : Nat := blkAddr (0x10 + u) 0x50
def fSYNC_SRC_SRC : Fld := ⟨28, 4⟩
def fSYNC_SRC_OFFSET_LINES : Fld := ⟨13, 13⟩
def fSYNC_SRC_OFFSET_PIX : Fld := ⟨0, 13⟩
def rSYNC_CTRL (u : Nat) : Nat := blkAddr (0x10 + u) 0x54
def fSYNC_CTRL_REALIGN : Fld := ⟨0, 1⟩
def rSYNC_STAT (u : Nat) : Nat := blkAddr (0x10 + u) 0x58
def fSYNC_STAT_STALE : Fld := ⟨31, 1⟩
def fSYNC_STAT_LOCKED : Fld := ⟨30, 1⟩
def fSYNC_STAT_HOLDOVER : Fld := ⟨29, 1⟩
def fSYNC_STAT_SYNC_LOST : Fld := ⟨28, 1⟩
def fSYNC_STAT_OUT_OF_RANGE : Fld := ⟨27, 1⟩
def fSYNC_STAT_MISSED : Fld := ⟨20, 4⟩
def fSYNC_STAT_PHASE_ERR : Fld := ⟨0, 20⟩
def rSYNC_TRIM (u : Nat) : Nat := blkAddr (0x10 + u) 0x5C
def fSYNC_TRIM_STALE : Fld := ⟨31, 1⟩
def fSYNC_TRIM_TRIM_PPM : Fld := ⟨0, 16⟩
def rLINE_POS (u : Nat) : Nat := blkAddr (0x10 + u) 0x60
def fLINE_POS_STALE : Fld := ⟨31, 1⟩
def fLINE_POS_LINE : Fld := ⟨16, 13⟩
def fLINE_POS_FRAME_LO : Fld := ⟨0, 16⟩
def rFRAME (u : Nat) : Nat := blkAddr (0x10 + u) 0x68
def rSYNC_LOSS (u : Nat) : Nat := blkAddr (0x10 + u) 0x70
def rLOCK_DROP (u : Nat) : Nat := blkAddr (0x10 + u) 0x78
def rDL_CFG (u : Nat) : Nat := blkAddr (0x10 + u) 0x80
def fDL_CFG_LEAD_US : Fld := ⟨0, 14⟩
def rTTL (u : Nat) : Nat := blkAddr (0x10 + u) 0x84
def fTTL_STALE : Fld := ⟨31, 1⟩
def fTTL_VALID : Fld := ⟨30, 1⟩
def fTTL_WINDOW : Fld := ⟨29, 1⟩
def fTTL_TTL_US : Fld := ⟨0, 24⟩
def rCBUF_LO (u : Nat) (i : Nat) : Nat := blkAddr (0x10 + u) (0x100 + 0x40 * i)
def fCBUF_LO_ADDR : Fld := ⟨6, 26⟩
def rCBUF_HI (u : Nat) (i : Nat) : Nat := blkAddr (0x10 + u) (0x104 + 0x40 * i)
def fCBUF_HI_ADDR : Fld := ⟨0, 32⟩
def rCFENCE (u : Nat) (i : Nat) : Nat := blkAddr (0x10 + u) (0x108 + 0x40 * i)
def fCFENCE_ACQ_EN : Fld := ⟨31, 1⟩
def fCFENCE_REL_EN : Fld := ⟨30, 1⟩
def fCFENCE_REL_IDX : Fld := ⟨16, 6⟩
def fCFENCE_ACQ_IDX : Fld := ⟨0, 6⟩
def rCACQ_VAL (u : Nat) (i : Nat) : Nat := blkAddr (0x10 + u) (0x10C + 0x40 * i)
def fCACQ_VAL_VAL : Fld := ⟨0, 32⟩
def rCREL_VAL (u : Nat) (i : Nat) : Nat := blkAddr (0x10 + u) (0x110 + 0x40 * i)
def fCREL_VAL_VAL : Fld := ⟨0, 32⟩
def rCOMMIT (u : Nat) (i : Nat) : Nat := blkAddr (0x10 + u) (0x114 + 0x40 * i)
def fCOMMIT_COMMIT : Fld := ⟨31, 1⟩
def fCOMMIT_CANCEL : Fld := ⟨30, 1⟩
def rCSTAT (u : Nat) (i : Nat) : Nat := blkAddr (0x10 + u) (0x118 + 0x40 * i)
def fCSTAT_STALE : Fld := ⟨31, 1⟩
def fCSTAT_PENDING : Fld := ⟨30, 1⟩
def fCSTAT_HELD : Fld := ⟨29, 1⟩
def fCSTAT_NOT_READY : Fld := ⟨28, 1⟩
def fCSTAT_LATE : Fld := ⟨27, 1⟩
def fCSTAT_FALLBACK : Fld := ⟨26, 1⟩
def fCSTAT_RESULT : Fld := ⟨23, 3⟩
def fCSTAT_NR_RUN : Fld := ⟨16, 4⟩
def fCSTAT_FRAME_LO : Fld := ⟨0, 16⟩
def rLC_RSV (u : Nat) (i : Nat) : Nat := blkAddr (0x10 + u) (0x11C + 0x40 * i)
def rLNOTREADY (u : Nat) (i : Nat) : Nat := blkAddr (0x10 + u) (0x120 + 0x40 * i)
def rLLATE (u : Nat) (i : Nat) : Nat := blkAddr (0x10 + u) (0x128 + 0x40 * i)
def rLC_RSV1 (u : Nat) (i : Nat) : Nat := blkAddr (0x10 + u) (0x130 + 0x40 * i)
def rLC_RSV2 (u : Nat) (i : Nat) : Nat := blkAddr (0x10 + u) (0x134 + 0x40 * i)
def rLC_RSV3 (u : Nat) (i : Nat) : Nat := blkAddr (0x10 + u) (0x138 + 0x40 * i)
def rLC_RSV4 (u : Nat) (i : Nat) : Nat := blkAddr (0x10 + u) (0x13C + 0x40 * i)
def rCMODE_CFG (u : Nat) : Nat := blkAddr (0x10 + u) 0x300
def fCMODE_CFG_MODE : Fld := ⟨31, 1⟩
def fCMODE_CFG_FALLBACK_FRAMES : Fld := ⟨16, 4⟩
def fCMODE_CFG_GUARD : Fld := ⟨0, 5⟩
def rPCOMMIT (u : Nat) : Nat := blkAddr (0x10 + u) 0x304
def fPCOMMIT_PIPE : Fld := ⟨31, 1⟩
def fPCOMMIT_LOCK : Fld := ⟨30, 1⟩
def fPCOMMIT_CANCEL_PIPE : Fld := ⟨29, 1⟩
def fPCOMMIT_CANCEL_LOCK : Fld := ⟨28, 1⟩
def rPCSTAT (u : Nat) : Nat := blkAddr (0x10 + u) 0x308
def fPCSTAT_STALE : Fld := ⟨31, 1⟩
def fPCSTAT_PIPE_PEND : Fld := ⟨30, 1⟩
def fPCSTAT_LOCK_PEND : Fld := ⟨29, 1⟩
def fPCSTAT_PIPE_LATE : Fld := ⟨28, 1⟩
def fPCSTAT_LOCK_LATE : Fld := ⟨27, 1⟩
def fPCSTAT_MODE : Fld := ⟨26, 1⟩
def fPCSTAT_RESULT : Fld := ⟨23, 3⟩
def fPCSTAT_AWN_PEND : Fld := ⟨22, 1⟩
def fPCSTAT_AWN_LATE : Fld := ⟨21, 1⟩
def fPCSTAT_LATCH_FRAME : Fld := ⟨0, 16⟩
def rACOMMIT (u : Nat) : Nat := blkAddr (0x10 + u) 0x30C
def fACOMMIT_COMMIT : Fld := ⟨31, 1⟩
def fACOMMIT_CANCEL : Fld := ⟨30, 1⟩
def rKREL (u : Nat) : Nat := blkAddr (0x10 + u) 0x310
def fKREL_REJECT : Fld := ⟨8, 8⟩
def fKREL_RELEASE : Fld := ⟨0, 8⟩
def rKHELD (u : Nat) : Nat := blkAddr (0x10 + u) 0x314
def fKHELD_STALE : Fld := ⟨31, 1⟩
def fKHELD_HELD : Fld := ⟨0, 8⟩
def rPLATE (u : Nat) : Nat := blkAddr (0x10 + u) 0x318
def rLS_WAIT (u : Nat) : Nat := blkAddr (0x10 + u) 0x320
def rBW_REFUSED (u : Nat) : Nat := blkAddr (0x10 + u) 0x328
def rLCFG (u : Nat) (i : Nat) : Nat := blkAddr (0x10 + u) (0x400 + 0x80 * i)
def fLCFG_EN : Fld := ⟨31, 1⟩
def fLCFG_FORMAT : Fld := ⟨24, 4⟩
def fLCFG_PREMULT : Fld := ⟨23, 1⟩
def fLCFG_IGNORE_ALPHA : Fld := ⟨22, 1⟩
def fLCFG_NO_OCCLUDE : Fld := ⟨21, 1⟩
def fLCFG_REPROJ_EN : Fld := ⟨20, 1⟩
def fLCFG_REPROJ_EDGE : Fld := ⟨19, 1⟩
def fLCFG_YCC_STD : Fld := ⟨17, 2⟩
def fLCFG_YCC_FULL : Fld := ⟨16, 1⟩
def rLALPHA (u : Nat) (i : Nat) : Nat := blkAddr (0x10 + u) (0x404 + 0x80 * i)
def fLALPHA_ALPHA : Fld := ⟨0, 12⟩
def rLPOS (u : Nat) (i : Nat) : Nat := blkAddr (0x10 + u) (0x408 + 0x80 * i)
def fLPOS_DST_X : Fld := ⟨16, 13⟩
def fLPOS_DST_Y : Fld := ⟨0, 13⟩
def rLSIZE (u : Nat) (i : Nat) : Nat := blkAddr (0x10 + u) (0x40C + 0x80 * i)
def fLSIZE_W : Fld := ⟨16, 13⟩
def fLSIZE_H : Fld := ⟨0, 13⟩
def rLSRC (u : Nat) (i : Nat) : Nat := blkAddr (0x10 + u) (0x410 + 0x80 * i)
def fLSRC_SRC_X : Fld := ⟨16, 13⟩
def fLSRC_SRC_Y : Fld := ⟨0, 13⟩
def rLSTRIDE (u : Nat) (i : Nat) : Nat := blkAddr (0x10 + u) (0x414 + 0x80 * i)
def fLSTRIDE_STRIDE64 : Fld := ⟨0, 12⟩
def rLTF_AB (u : Nat) (i : Nat) : Nat := blkAddr (0x10 + u) (0x420 + 0x80 * i)
def fLTF_AB_B : Fld := ⟨16, 16⟩
def fLTF_AB_A : Fld := ⟨0, 16⟩
def rLTF_DE (u : Nat) (i : Nat) : Nat := blkAddr (0x10 + u) (0x424 + 0x80 * i)
def fLTF_DE_E : Fld := ⟨16, 16⟩
def fLTF_DE_D : Fld := ⟨0, 16⟩
def rLTF_C (u : Nat) (i : Nat) : Nat := blkAddr (0x10 + u) (0x428 + 0x80 * i)
def fLTF_C_C : Fld := ⟨0, 20⟩
def rLTF_F (u : Nat) (i : Nat) : Nat := blkAddr (0x10 + u) (0x42C + 0x80 * i)
def fLTF_F_F : Fld := ⟨0, 20⟩
def rLSTAT (u : Nat) (i : Nat) : Nat := blkAddr (0x10 + u) (0x430 + 0x80 * i)
def fLSTAT_STALE : Fld := ⟨31, 1⟩
def fLSTAT_REPROJ : Fld := ⟨30, 1⟩
def fLSTAT_CLAMPED : Fld := ⟨29, 1⟩
def fLSTAT_FERR : Fld := ⟨28, 1⟩
def fLSTAT_TILES : Fld := ⟨0, 14⟩
def rLCULL (u : Nat) (i : Nat) : Nat := blkAddr (0x10 + u) (0x438 + 0x80 * i)
def rLFETCH (u : Nat) (i : Nat) : Nat := blkAddr (0x10 + u) (0x440 + 0x80 * i)
def rLFERR (u : Nat) (i : Nat) : Nat := blkAddr (0x10 + u) (0x448 + 0x80 * i)
def rLCLAMP (u : Nat) (i : Nat) : Nat := blkAddr (0x10 + u) (0x450 + 0x80 * i)
def rCCFG (u : Nat) : Nat := blkAddr (0x10 + u) 0x800
def fCCFG_DGM_EN : Fld := ⟨7, 1⟩
def fCCFG_DGM_BANK : Fld := ⟨6, 1⟩
def fCCFG_CSC_EN : Fld := ⟨5, 1⟩
def fCCFG_RGM_EN : Fld := ⟨4, 1⟩
def fCCFG_RGM_BANK : Fld := ⟨3, 1⟩
def fCCFG_DITHER : Fld := ⟨0, 2⟩
def rBG_RG (u : Nat) : Nat := blkAddr (0x10 + u) 0x804
def fBG_RG_R : Fld := ⟨16, 12⟩
def fBG_RG_G : Fld := ⟨0, 12⟩
def rBG_B (u : Nat) : Nat := blkAddr (0x10 + u) 0x808
def fBG_B_B : Fld := ⟨0, 12⟩
def rCSC0_A (u : Nat) : Nat := blkAddr (0x10 + u) 0x810
def fCSC0_A_Mc1 : Fld := ⟨16, 12⟩
def fCSC0_A_Mc0 : Fld := ⟨0, 12⟩
def rCSC0_B (u : Nat) : Nat := blkAddr (0x10 + u) 0x814
def fCSC0_B_OFFc : Fld := ⟨16, 12⟩
def fCSC0_B_Mc2 : Fld := ⟨0, 12⟩
def rCSC1_A (u : Nat) : Nat := blkAddr (0x10 + u) 0x818
def fCSC1_A_Mc1 : Fld := ⟨16, 12⟩
def fCSC1_A_Mc0 : Fld := ⟨0, 12⟩
def rCSC1_B (u : Nat) : Nat := blkAddr (0x10 + u) 0x81C
def fCSC1_B_OFFc : Fld := ⟨16, 12⟩
def fCSC1_B_Mc2 : Fld := ⟨0, 12⟩
def rCSC2_A (u : Nat) : Nat := blkAddr (0x10 + u) 0x820
def fCSC2_A_Mc1 : Fld := ⟨16, 12⟩
def fCSC2_A_Mc0 : Fld := ⟨0, 12⟩
def rCSC2_B (u : Nat) : Nat := blkAddr (0x10 + u) 0x824
def fCSC2_B_OFFc : Fld := ⟨16, 12⟩
def fCSC2_B_Mc2 : Fld := ⟨0, 12⟩
def rACFG (u : Nat) : Nat := blkAddr (0x10 + u) 0xC00
def fACFG_EN : Fld := ⟨31, 1⟩
def fACFG_FORMAT : Fld := ⟨24, 4⟩
def fACFG_PREMULT : Fld := ⟨23, 1⟩
def fACFG_CLR_BYPASS : Fld := ⟨22, 1⟩
def rAALPHA (u : Nat) : Nat := blkAddr (0x10 + u) 0xC04
def fAALPHA_ALPHA : Fld := ⟨0, 12⟩
def rAPOS (u : Nat) : Nat := blkAddr (0x10 + u) 0xC08
def fAPOS_DST_X : Fld := ⟨16, 13⟩
def fAPOS_DST_Y : Fld := ⟨0, 13⟩
def rASIZE (u : Nat) : Nat := blkAddr (0x10 + u) 0xC0C
def fASIZE_W : Fld := ⟨16, 13⟩
def fASIZE_H : Fld := ⟨0, 13⟩
def rACOPY0 (u : Nat) : Nat := blkAddr (0x10 + u) 0xC10
def fACOPY0_ADDR : Fld := ⟨0, 32⟩
def rACOPY1 (u : Nat) : Nat := blkAddr (0x10 + u) 0xC14
def fACOPY1_ADDR : Fld := ⟨0, 32⟩
def rASTRIDE (u : Nat) : Nat := blkAddr (0x10 + u) 0xC18
def fASTRIDE_STRIDE64 : Fld := ⟨0, 12⟩
def rASTAT (u : Nat) : Nat := blkAddr (0x10 + u) 0xC1C
def fASTAT_STALE : Fld := ⟨31, 1⟩
def fASTAT_CFG_REFUSED : Fld := ⟨30, 1⟩
def rAFCTL (u : Nat) : Nat := blkAddr (0x10 + u) 0xC40
def fAFCTL_SEL : Fld := ⟨24, 1⟩
def fAFCTL_SAFE : Fld := ⟨0, 24⟩
def rAFSTAT (u : Nat) : Nat := blkAddr (0x10 + u) 0xC44
def fAFSTAT_STALE : Fld := ⟨31, 1⟩
def fAFSTAT_CUR : Fld := ⟨30, 1⟩
def fAFSTAT_BAD0 : Fld := ⟨29, 1⟩
def fAFSTAT_BAD1 : Fld := ⟨28, 1⟩
def fAFSTAT_DOUBLE : Fld := ⟨27, 1⟩
def fAFSTAT_LINE : Fld := ⟨0, 13⟩
def rAFCLR (u : Nat) : Nat := blkAddr (0x10 + u) 0xC48
def fAFCLR_CLR : Fld := ⟨0, 2⟩
def rAFSWITCH (u : Nat) : Nat := blkAddr (0x10 + u) 0xC50
def rAFMASKED (u : Nat) : Nat := blkAddr (0x10 + u) 0xC58
def rFETCH_CFG (u : Nat) : Nat := blkAddr (0x10 + u) 0xE00
def fFETCH_CFG_FIFO_BASE : Fld := ⟨12, 10⟩
def fFETCH_CFG_FIFO_GRAINS : Fld := ⟨6, 6⟩
def rPANIC_CFG (u : Nat) : Nat := blkAddr (0x10 + u) 0xE04
def fPANIC_CFG_PANIC_CLEAR : Fld := ⟨16, 8⟩
def fPANIC_CFG_PANIC_LOW : Fld := ⟨0, 8⟩
def rFETCH_STAT (u : Nat) : Nat := blkAddr (0x10 + u) 0xE08
def fFETCH_STAT_STALE : Fld := ⟨31, 1⟩
def fFETCH_STAT_PANIC : Fld := ⟨30, 1⟩
def fFETCH_STAT_FIFO_SMALL : Fld := ⟨29, 1⟩
def fFETCH_STAT_LEVEL : Fld := ⟨16, 8⟩
def fFETCH_STAT_CAP : Fld := ⟨8, 8⟩
def fFETCH_STAT_FETCH_STEP : Fld := ⟨0, 8⟩
def rUNDERRUN (u : Nat) : Nat := blkAddr (0x10 + u) 0xE10
def rPANIC_CNT (u : Nat) : Nat := blkAddr (0x10 + u) 0xE18
def rWB_CFG (u : Nat) : Nat := blkAddr (0x10 + u) 0xE40
def fWB_CFG_EN : Fld := ⟨31, 1⟩
def fWB_CFG_ONESHOT : Fld := ⟨30, 1⟩
def fWB_CFG_POINT : Fld := ⟨29, 1⟩
def fWB_CFG_FORMAT : Fld := ⟨24, 2⟩
def rWB_ADDR_LO (u : Nat) : Nat := blkAddr (0x10 + u) 0xE44
def fWB_ADDR_LO_ADDR : Fld := ⟨6, 26⟩
def rWB_ADDR_HI (u : Nat) : Nat := blkAddr (0x10 + u) 0xE48
def fWB_ADDR_HI_ADDR : Fld := ⟨0, 32⟩
def rWB_STRIDE (u : Nat) : Nat := blkAddr (0x10 + u) 0xE4C
def fWB_STRIDE_STRIDE64 : Fld := ⟨0, 12⟩
def rWB_STAT (u : Nat) : Nat := blkAddr (0x10 + u) 0xE50
def fWB_STAT_STALE : Fld := ⟨31, 1⟩
def fWB_STAT_BUSY : Fld := ⟨30, 1⟩
def fWB_STAT_OVF : Fld := ⟨29, 1⟩
def fWB_STAT_FRAME_LO : Fld := ⟨0, 16⟩
def rWB_OVF (u : Nat) : Nat := blkAddr (0x10 + u) 0xE58
def rWB_DONE (u : Nat) : Nat := blkAddr (0x10 + u) 0xE60
def rDGM0 (u : Nat) (i : Nat) : Nat := blkAddr (0x10 + u) (0x1000 + 0x4 * i)
def fDGM0_VALUE : Fld := ⟨0, 12⟩
def rDGM1 (u : Nat) (i : Nat) : Nat := blkAddr (0x10 + u) (0x2000 + 0x4 * i)
def fDGM1_VALUE : Fld := ⟨0, 12⟩
def rRGM0 (u : Nat) (i : Nat) : Nat := blkAddr (0x10 + u) (0x3000 + 0x4 * i)
def fRGM0_VALUE : Fld := ⟨0, 12⟩
def rRGM1 (u : Nat) (i : Nat) : Nat := blkAddr (0x10 + u) (0x4000 + 0x4 * i)
def fRGM1_VALUE : Fld := ⟨0, 12⟩
def rPCFG (u : Nat) (i : Nat) : Nat := blkAddr (0x10 + u) (0x5000 + 0x40 * i)
def fPCFG_EN : Fld := ⟨31, 1⟩
def fPCFG_OWN_KEEPER : Fld := ⟨30, 1⟩
def fPCFG_STALL : Fld := ⟨24, 4⟩
def fPCFG_CHK_RESP : Fld := ⟨22, 2⟩
def fPCFG_ALIVE_RESP : Fld := ⟨20, 2⟩
def fPCFG_ALIVE_EN : Fld := ⟨19, 1⟩
def fPCFG_LOG : Fld := ⟨16, 3⟩
def fPCFG_TIE : Fld := ⟨12, 4⟩
def fPCFG_LAYERS : Fld := ⟨0, 8⟩
def rPPOS (u : Nat) (i : Nat) : Nat := blkAddr (0x10 + u) (0x5004 + 0x40 * i)
def fPPOS_PX : Fld := ⟨16, 13⟩
def fPPOS_PY : Fld := ⟨0, 13⟩
def rPSIZE (u : Nat) (i : Nat) : Nat := blkAddr (0x10 + u) (0x5008 + 0x40 * i)
def fPSIZE_PW : Fld := ⟨16, 13⟩
def fPSIZE_PH : Fld := ⟨0, 13⟩
def rPFB_RG (u : Nat) (i : Nat) : Nat := blkAddr (0x10 + u) (0x500C + 0x40 * i)
def fPFB_RG_R : Fld := ⟨16, 12⟩
def fPFB_RG_G : Fld := ⟨0, 12⟩
def rPFB_B (u : Nat) (i : Nat) : Nat := blkAddr (0x10 + u) (0x5010 + 0x40 * i)
def fPFB_B_B : Fld := ⟨0, 12⟩
def rPFB_EXP (u : Nat) (i : Nat) : Nat := blkAddr (0x10 + u) (0x5014 + 0x40 * i)
def fPFB_EXP_VAL : Fld := ⟨0, 32⟩
def rPEXP_VAL (u : Nat) (i : Nat) : Nat := blkAddr (0x10 + u) (0x5018 + 0x40 * i)
def fPEXP_VAL_VAL : Fld := ⟨0, 32⟩
def rPEXP_CTL (u : Nat) (i : Nat) : Nat := blkAddr (0x10 + u) (0x501C + 0x40 * i)
def fPEXP_CTL_ALIVE : Fld := ⟨0, 4⟩
def rPSTAT (u : Nat) (i : Nat) : Nat := blkAddr (0x10 + u) (0x5020 + 0x40 * i)
def fPSTAT_STALE : Fld := ⟨31, 1⟩
def fPSTAT_CHK_FAULT : Fld := ⟨30, 1⟩
def fPSTAT_ALIVE_FAULT : Fld := ⟨29, 1⟩
def fPSTAT_FALLBACK : Fld := ⟨28, 1⟩
def fPSTAT_BLANKING : Fld := ⟨27, 1⟩
def fPSTAT_LAST : Fld := ⟨24, 3⟩
def fPSTAT_ALIVE_TAKEN : Fld := ⟨20, 4⟩
def fPSTAT_ALIVE_KIND : Fld := ⟨18, 2⟩
def fPSTAT_FRAME_LO : Fld := ⟨0, 16⟩
def rPMEAS_H (u : Nat) (i : Nat) : Nat := blkAddr (0x10 + u) (0x5024 + 0x40 * i)
def fPMEAS_H_STALE : Fld := ⟨31, 1⟩
def fPMEAS_H_FRAME : Fld := ⟨16, 15⟩
def fPMEAS_H_HALF : Fld := ⟨0, 16⟩
def rPMEAS_L (u : Nat) (i : Nat) : Nat := blkAddr (0x10 + u) (0x5028 + 0x40 * i)
def fPMEAS_L_STALE : Fld := ⟨31, 1⟩
def fPMEAS_L_FRAME : Fld := ⟨16, 15⟩
def fPMEAS_L_HALF : Fld := ⟨0, 16⟩
def rPP_RSV (u : Nat) (i : Nat) : Nat := blkAddr (0x10 + u) (0x502C + 0x40 * i)
def rPCHKF (u : Nat) (i : Nat) : Nat := blkAddr (0x10 + u) (0x5030 + 0x40 * i)
def rPALVF (u : Nat) (i : Nat) : Nat := blkAddr (0x10 + u) (0x5038 + 0x40 * i)
def rPITCH_CTRL (u : Nat) : Nat := blkAddr (0x10 + u) 0x5400
def fPITCH_CTRL_COMMIT : Fld := ⟨16, 16⟩
def fPITCH_CTRL_CLR : Fld := ⟨0, 16⟩
def rPITCH_SUM (u : Nat) : Nat := blkAddr (0x10 + u) 0x5404
def fPITCH_SUM_STALE : Fld := ⟨31, 1⟩
def fPITCH_SUM_FAULT : Fld := ⟨0, 16⟩
def rPITCH_PEND (u : Nat) : Nat := blkAddr (0x10 + u) 0x5408
def fPITCH_PEND_STALE : Fld := ⟨31, 1⟩
def fPITCH_PEND_PEND : Fld := ⟨0, 16⟩
def rLINK_CFG (u : Nat) : Nat := blkAddr (0x18 + u) 0x0
def fLINK_CFG_AUTO_FALLBACK : Fld := ⟨8, 1⟩
def fLINK_CFG_ASSR : Fld := ⟨7, 1⟩
def fLINK_CFG_SSC : Fld := ⟨6, 1⟩
def fLINK_CFG_MAX_LANES : Fld := ⟨4, 2⟩
def fLINK_CFG_MAX_RATE : Fld := ⟨2, 2⟩
def fLINK_CFG_HPD_IGNORE : Fld := ⟨1, 1⟩
def fLINK_CFG_MODE : Fld := ⟨0, 1⟩
def rOUT_TRAIN_CFG (u : Nat) : Nat := blkAddr (0x18 + u) 0x4
def fOUT_TRAIN_CFG_MAX_PREEMPH : Fld := ⟨10, 2⟩
def fOUT_TRAIN_CFG_MAX_SWING : Fld := ⟨8, 2⟩
def fOUT_TRAIN_CFG_LIMIT_MS : Fld := ⟨0, 8⟩
def rLINK_STAT (u : Nat) : Nat := blkAddr (0x18 + u) 0x8
def fLINK_STAT_STALE : Fld := ⟨31, 1⟩
def fLINK_STAT_HPD : Fld := ⟨30, 1⟩
def fLINK_STAT_TRAINED : Fld := ⟨29, 1⟩
def fLINK_STAT_RATE : Fld := ⟨24, 2⟩
def fLINK_STAT_LANES : Fld := ⟨22, 2⟩
def fLINK_STAT_TPS : Fld := ⟨20, 2⟩
def fLINK_STAT_LEVELS : Fld := ⟨0, 16⟩
def rLINK_EVT (u : Nat) : Nat := blkAddr (0x18 + u) 0xC
def fLINK_EVT_LINK_LOSS : Fld := ⟨3, 1⟩
def fLINK_EVT_TRAIN_FAIL : Fld := ⟨2, 1⟩
def fLINK_EVT_UNPLUG : Fld := ⟨1, 1⟩
def fLINK_EVT_IRQ_HPD : Fld := ⟨0, 1⟩
def rAUX_CMD (u : Nat) : Nat := blkAddr (0x18 + u) 0x10
def fAUX_CMD_GO : Fld := ⟨31, 1⟩
def fAUX_CMD_CMD : Fld := ⟨24, 4⟩
def fAUX_CMD_LEN : Fld := ⟨20, 4⟩
def fAUX_CMD_ADDR : Fld := ⟨0, 20⟩
def rAUX_STAT (u : Nat) : Nat := blkAddr (0x18 + u) 0x14
def fAUX_STAT_STALE : Fld := ⟨31, 1⟩
def fAUX_STAT_BUSY : Fld := ⟨30, 1⟩
def fAUX_STAT_REPLY : Fld := ⟨28, 2⟩
def fAUX_STAT_TIMEOUT : Fld := ⟨27, 1⟩
def fAUX_STAT_COUNT : Fld := ⟨0, 5⟩
def rAUX_DATA (u : Nat) (i : Nat) : Nat := blkAddr (0x18 + u) (0x20 + 0x4 * i)
def fAUX_DATA_DATA : Fld := ⟨0, 32⟩
def rRETRAIN (u : Nat) : Nat := blkAddr (0x18 + u) 0x40
def rHPD_IRQ (u : Nat) : Nat := blkAddr (0x18 + u) 0x48
def rRCTRL : Nat := blkAddr 0x20 0x0
def fRCTRL_RUN : Fld := ⟨31, 1⟩
def fRCTRL_STOP : Fld := ⟨30, 1⟩
def rRSTAT : Nat := blkAddr 0x20 0x4
def fRSTAT_STALE : Fld := ⟨31, 1⟩
def fRSTAT_STATE : Fld := ⟨28, 3⟩
def fRSTAT_ACTIVE : Fld := ⟨24, 4⟩
def rTLP_CFG : Nat := blkAddr 0x20 0x8
def fTLP_CFG_GRAINS : Fld := ⟨16, 9⟩
def fTLP_CFG_BASE : Fld := ⟨0, 10⟩
def rTLP_STAT : Nat := blkAddr 0x20 0xC
def fTLP_STAT_STALE : Fld := ⟨31, 1⟩
def fTLP_STAT_FREE : Fld := ⟨0, 18⟩
def rRFAULT : Nat := blkAddr 0x20 0x10
def fRFAULT_STALE : Fld := ⟨31, 1⟩
def fRFAULT_STALL : Fld := ⟨24, 4⟩
def fRFAULT_CODE : Fld := ⟨16, 8⟩
def fRFAULT_ID_LO : Fld := ⟨0, 16⟩
def rTLQ (i : Nat) : Nat := blkAddr 0x20 (0x100 + 0x4 * i)
def fTLQ_MAX : Fld := ⟨0, 18⟩
def rTLU (i : Nat) : Nat := blkAddr 0x20 (0x140 + 0x4 * i)
def fTLU_STALE : Fld := ⟨31, 1⟩
def fTLU_USED : Fld := ⟨0, 18⟩
def rPARTIAL (i : Nat) : Nat := blkAddr 0x20 (0x200 + 0x8 * i)
def rMISS_DROP (i : Nat) : Nat := blkAddr 0x20 (0x280 + 0x8 * i)
def rPASSES : Nat := blkAddr 0x20 0x300
def rPRIMS : Nat := blkAddr 0x20 0x308
def rCHUNK_PEAK : Nat := blkAddr 0x20 0x310
def rPASS_FAIL : Nat := blkAddr 0x20 0x318
def rCL_CSTAT (u : Nat) (i : Nat) : Nat := blkAddr (0x21 + u) (0x0 + 0x100 * i)
def fCL_CSTAT_STALE : Fld := ⟨31, 1⟩
def fCL_CSTAT_BUSY : Fld := ⟨30, 1⟩
def fCL_CSTAT_WORK : Fld := ⟨28, 2⟩
def fCL_CSTAT_STALL : Fld := ⟨24, 4⟩
def rCYC_BUSY (u : Nat) (i : Nat) : Nat := blkAddr (0x21 + u) (0x8 + 0x100 * i)
def rTILES (u : Nat) (i : Nat) : Nat := blkAddr (0x21 + u) (0x10 + 0x100 * i)
def rFRAGS (u : Nat) (i : Nat) : Nat := blkAddr (0x21 + u) (0x18 + 0x100 * i)
def rILK_WAIT (u : Nat) (i : Nat) : Nat := blkAddr (0x21 + u) (0x20 + 0x100 * i)
def rTEX_REQ (u : Nat) (i : Nat) : Nat := blkAddr (0x21 + u) (0x28 + 0x100 * i)
def rTEX_MISS (u : Nat) (i : Nat) : Nat := blkAddr (0x21 + u) (0x30 + 0x100 * i)
def rTM_CORR (u : Nat) (i : Nat) : Nat := blkAddr (0x21 + u) (0x38 + 0x100 * i)
def rTM_UNCORR (u : Nat) (i : Nat) : Nat := blkAddr (0x21 + u) (0x40 + 0x100 * i)
def rCH_CFG (u : Nat) (i : Nat) : Nat := blkAddr (0x28 + u) (0x0 + 0x100 * i)
def fCH_CFG_EN : Fld := ⟨31, 1⟩
def fCH_CFG_MODE : Fld := ⟨30, 1⟩
def fCH_CFG_PRIO : Fld := ⟨0, 2⟩
def rCH_DB (u : Nat) (i : Nat) : Nat := blkAddr (0x28 + u) (0x4 + 0x100 * i)
def rCH_BASE_LO (u : Nat) (i : Nat) : Nat := blkAddr (0x28 + u) (0x8 + 0x100 * i)
def fCH_BASE_LO_ADDR : Fld := ⟨6, 26⟩
def rCH_BASE_HI (u : Nat) (i : Nat) : Nat := blkAddr (0x28 + u) (0xC + 0x100 * i)
def fCH_BASE_HI_ADDR : Fld := ⟨0, 32⟩
def rCH_STAT (u : Nat) (i : Nat) : Nat := blkAddr (0x28 + u) (0x10 + 0x100 * i)
def fCH_STAT_STALE : Fld := ⟨31, 1⟩
def fCH_STAT_STATE : Fld := ⟨28, 3⟩
def fCH_STAT_OWNER : Fld := ⟨22, 5⟩
def fCH_STAT_RESULT : Fld := ⟨8, 8⟩
def rCH_REMAIN (u : Nat) (i : Nat) : Nat := blkAddr (0x28 + u) (0x1C + 0x100 * i)
def fCH_REMAIN_STALE : Fld := ⟨31, 1⟩
def fCH_REMAIN_COUNT : Fld := ⟨0, 31⟩
def rCH_FAULT_KIND (u : Nat) (i : Nat) : Nat := blkAddr (0x28 + u) (0x28 + 0x100 * i)
def fCH_FAULT_KIND_STALE : Fld := ⟨31, 1⟩
def fCH_FAULT_KIND_VREAD : Fld := ⟨30, 1⟩
def fCH_FAULT_KIND_WRITE : Fld := ⟨29, 1⟩
def fCH_FAULT_KIND_VIOL : Fld := ⟨28, 1⟩
def fCH_FAULT_KIND_REASON : Fld := ⟨24, 4⟩
def fCH_FAULT_KIND_RESULT : Fld := ⟨16, 8⟩
def rCH_POS_LO (u : Nat) (i : Nat) : Nat := blkAddr (0x28 + u) (0x14 + 0x100 * i)
def fCH_POS_LO_STALE : Fld := ⟨31, 1⟩
def fCH_POS_LO_ADDR : Fld := ⟨0, 31⟩
def rCH_POS_HI (u : Nat) (i : Nat) : Nat := blkAddr (0x28 + u) (0x18 + 0x100 * i)
def fCH_POS_HI_STALE : Fld := ⟨31, 1⟩
def fCH_POS_HI_ADDR : Fld := ⟨0, 31⟩
def rCH_FAULT_LO (u : Nat) (i : Nat) : Nat := blkAddr (0x28 + u) (0x20 + 0x100 * i)
def fCH_FAULT_LO_STALE : Fld := ⟨31, 1⟩
def fCH_FAULT_LO_ADDR : Fld := ⟨0, 31⟩
def rCH_FAULT_HI (u : Nat) (i : Nat) : Nat := blkAddr (0x28 + u) (0x24 + 0x100 * i)
def fCH_FAULT_HI_STALE : Fld := ⟨31, 1⟩
def fCH_FAULT_HI_ADDR : Fld := ⟨0, 31⟩
def rCH_BYTES (u : Nat) (i : Nat) : Nat := blkAddr (0x28 + u) (0x30 + 0x100 * i)
def rCH_ERR (u : Nat) (i : Nat) : Nat := blkAddr (0x28 + u) (0x38 + 0x100 * i)
def rDM_CTRL (u : Nat) : Nat := blkAddr (0x28 + u) 0x800
def fDM_CTRL_DIS_LIMIT_US : Fld := ⟨0, 14⟩
def rDM_STAT (u : Nat) : Nat := blkAddr (0x28 + u) 0x804
def fDM_STAT_STALE : Fld := ⟨31, 1⟩
def fDM_STAT_BUSY : Fld := ⟨30, 1⟩
def fDM_STAT_ACTIVE : Fld := ⟨24, 3⟩
def fDM_STAT_WAITING : Fld := ⟨0, 8⟩
def rDM_EVT (u : Nat) : Nat := blkAddr (0x28 + u) 0x808
def fDM_EVT_MISM : Fld := ⟨16, 8⟩
def fDM_EVT_ERR : Fld := ⟨8, 8⟩
def fDM_EVT_DONE : Fld := ⟨0, 8⟩
def rDM_IEN (u : Nat) : Nat := blkAddr (0x28 + u) 0x80C
def fDM_IEN_EN : Fld := ⟨0, 24⟩
def rDM_THAW (u : Nat) : Nat := blkAddr (0x28 + u) 0x810
def fDM_THAW_THAW : Fld := ⟨0, 8⟩
def rCV_CFG (u : Nat) (i : Nat) : Nat := blkAddr (0x2C + u) (0x0 + 0x100 * i)
def fCV_CFG_REFOUT : Fld := ⟨9, 1⟩
def fCV_CFG_REFIN : Fld := ⟨8, 1⟩
def fCV_CFG_WIDTH : Fld := ⟨0, 7⟩
def rCV_POLY (u : Nat) (i : Nat) : Nat := blkAddr (0x2C + u) (0x8 + 0x100 * i)
def fCV_POLY_VAL : Fld := ⟨0, 64⟩
def rCV_INIT (u : Nat) (i : Nat) : Nat := blkAddr (0x2C + u) (0x10 + 0x100 * i)
def fCV_INIT_VAL : Fld := ⟨0, 64⟩
def rCV_XOROUT (u : Nat) (i : Nat) : Nat := blkAddr (0x2C + u) (0x18 + 0x100 * i)
def fCV_XOROUT_VAL : Fld := ⟨0, 64⟩
def rCV_RUN (u : Nat) (i : Nat) : Nat := blkAddr (0x2C + u) (0x20 + 0x100 * i)
def fCV_RUN_VAL : Fld := ⟨0, 64⟩
def rCV_FINAL (u : Nat) (i : Nat) : Nat := blkAddr (0x2C + u) (0x28 + 0x100 * i)
def fCV_FINAL_VAL : Fld := ⟨0, 64⟩
def rCV_STAT (u : Nat) (i : Nat) : Nat := blkAddr (0x2C + u) (0x30 + 0x100 * i)
def fCV_STAT_STALE : Fld := ⟨31, 1⟩
def fCV_STAT_HELD : Fld := ⟨30, 1⟩
def fCV_STAT_COMPARED : Fld := ⟨29, 1⟩
def fCV_STAT_MISMATCH : Fld := ⟨28, 1⟩
def fCV_STAT_HOLDER : Fld := ⟨22, 5⟩
def rCV_CTRL (u : Nat) (i : Nat) : Nat := blkAddr (0x2C + u) (0x34 + 0x100 * i)
def fCV_CTRL_RESET_RUN : Fld := ⟨31, 1⟩
def rCV_MISM (u : Nat) (i : Nat) : Nat := blkAddr (0x2C + u) (0x38 + 0x100 * i)
def rCVU_BYTES (u : Nat) : Nat := blkAddr (0x2C + u) 0x800
def rCV_WAIT (u : Nat) : Nat := blkAddr (0x2C + u) 0x808
def rFE_STAT (u : Nat) : Nat := blkAddr (0x30 + u) 0x0
def fFE_STAT_STALE : Fld := ⟨31, 1⟩
def fFE_STAT_BUSY : Fld := ⟨30, 1⟩
def fFE_STAT_PANEL : Fld := ⟨29, 1⟩
def rFE_LFAULT_D (u : Nat) (i : Nat) : Nat := blkAddr (0x30 + u) (0x10 + 0x4 * i)
def fFE_LFAULT_D_STALE : Fld := ⟨31, 1⟩
def fFE_LFAULT_D_DRV : Fld := ⟨0, 24⟩
def rFE_LFAULT_S (u : Nat) (i : Nat) : Nat := blkAddr (0x30 + u) (0x18 + 0x4 * i)
def fFE_LFAULT_S_STALE : Fld := ⟨31, 1⟩
def fFE_LFAULT_S_SNS : Fld := ⟨0, 16⟩
def rFE_LFCLR (u : Nat) : Nat := blkAddr (0x30 + u) 0x20
def fFE_LFCLR_CLR : Fld := ⟨0, 1⟩
def rFE_EVT (u : Nat) : Nat := blkAddr (0x30 + u) 0x24
def fFE_EVT_RING : Fld := ⟨4, 2⟩
def fFE_EVT_LINE : Fld := ⟨2, 2⟩
def fFE_EVT_STUCK : Fld := ⟨0, 2⟩
def rFE_IEN (u : Nat) : Nat := blkAddr (0x30 + u) 0x28
def fFE_IEN_RING : Fld := ⟨4, 2⟩
def fFE_IEN_LINE : Fld := ⟨2, 2⟩
def fFE_IEN_STUCK : Fld := ⟨0, 2⟩
def rFE_COLLIDE (u : Nat) : Nat := blkAddr (0x30 + u) 0x40
def rFE_LFAULTS (u : Nat) : Nat := blkAddr (0x30 + u) 0x48
def rTP_CFG (u : Nat) (i : Nat) : Nat := blkAddr (0x30 + u) (0x100 + 0x80 * i)
def fTP_CFG_EN : Fld := ⟨31, 1⟩
def fTP_CFG_REPORT_ALL : Fld := ⟨27, 1⟩
def fTP_CFG_PIPE : Fld := ⟨24, 3⟩
def fTP_CFG_SYNC : Fld := ⟨22, 2⟩
def fTP_CFG_G8 : Fld := ⟨21, 1⟩
def fTP_CFG_AXIS_SWAP : Fld := ⟨20, 1⟩
def fTP_CFG_X_FLIP : Fld := ⟨19, 1⟩
def fTP_CFG_Y_FLIP : Fld := ⟨18, 1⟩
def fTP_CFG_RING_LOG2 : Fld := ⟨0, 4⟩
def rTP_LINES (u : Nat) (i : Nat) : Nat := blkAddr (0x30 + u) (0x104 + 0x80 * i)
def fTP_LINES_DRV_FIRST : Fld := ⟨24, 6⟩
def fTP_LINES_DRV_COUNT : Fld := ⟨16, 6⟩
def fTP_LINES_SNS_FIRST : Fld := ⟨8, 5⟩
def fTP_LINES_SNS_COUNT : Fld := ⟨0, 6⟩
def rTP_DRIVE (u : Nat) (i : Nat) : Nat := blkAddr (0x30 + u) (0x108 + 0x80 * i)
def fTP_DRIVE_FDRV_KHZ : Fld := ⟨16, 9⟩
def fTP_DRIVE_NPULSE : Fld := ⟨0, 7⟩
def rTP_SYNC (u : Nat) (i : Nat) : Nat := blkAddr (0x30 + u) (0x10C + 0x80 * i)
def fTP_SYNC_SCANS_M1 : Fld := ⟨30, 2⟩
def fTP_SYNC_START_LINE : Fld := ⟨16, 13⟩
def fTP_SYNC_PERIOD_US : Fld := ⟨0, 15⟩
def rTP_RES (u : Nat) (i : Nat) : Nat := blkAddr (0x30 + u) (0x110 + 0x80 * i)
def fTP_RES_YMAX : Fld := ⟨16, 16⟩
def fTP_RES_XMAX : Fld := ⟨0, 16⟩
def rTP_THR (u : Nat) (i : Nat) : Nat := blkAddr (0x30 + u) (0x114 + 0x80 * i)
def fTP_THR_TOUCH_TH : Fld := ⟨12, 12⟩
def fTP_THR_HYST : Fld := ⟨0, 12⟩
def rTP_TRACK (u : Nat) (i : Nat) : Nat := blkAddr (0x30 + u) (0x118 + 0x80 * i)
def fTP_TRACK_TRACK_DIV : Fld := ⟨16, 8⟩
def fTP_TRACK_TRACK_STEP : Fld := ⟨12, 4⟩
def fTP_TRACK_TRACK_RADIUS : Fld := ⟨0, 4⟩
def rTP_IDLE (u : Nat) (i : Nat) : Nat := blkAddr (0x30 + u) (0x11C + 0x80 * i)
def fTP_IDLE_IDLE_DIV : Fld := ⟨28, 4⟩
def fTP_IDLE_DEEP_DIV : Fld := ⟨24, 4⟩
def fTP_IDLE_DEEP_S : Fld := ⟨16, 8⟩
def fTP_IDLE_IDLE_MS : Fld := ⟨0, 16⟩
def rTP_STUCK (u : Nat) (i : Nat) : Nat := blkAddr (0x30 + u) (0x120 + 0x80 * i)
def fTP_STUCK_STUCK_LIMIT_S : Fld := ⟨16, 16⟩
def fTP_STUCK_STUCK_MOVE : Fld := ⟨0, 8⟩
def rTP_BASE (u : Nat) (i : Nat) : Nat := blkAddr (0x30 + u) (0x124 + 0x80 * i)
def fTP_BASE_BASE_SAVE_S : Fld := ⟨16, 16⟩
def fTP_BASE_SHIFT_MAX : Fld := ⟨0, 12⟩
def rTP_OS (u : Nat) (i : Nat) : Nat := blkAddr (0x30 + u) (0x128 + 0x80 * i)
def fTP_OS_LOW_TH : Fld := ⟨16, 16⟩
def fTP_OS_PAIR_TOL : Fld := ⟨0, 8⟩
def rTP_CTRL (u : Nat) (i : Nat) : Nat := blkAddr (0x30 + u) (0x12C + 0x80 * i)
def fTP_CTRL_RECAL : Fld := ⟨31, 1⟩
def rTP_RING_LO (u : Nat) (i : Nat) : Nat := blkAddr (0x30 + u) (0x130 + 0x80 * i)
def fTP_RING_LO_ADDR : Fld := ⟨8, 24⟩
def rTP_RING_HI (u : Nat) (i : Nat) : Nat := blkAddr (0x30 + u) (0x134 + 0x80 * i)
def fTP_RING_HI_ADDR : Fld := ⟨0, 32⟩
def rTP_STAT (u : Nat) (i : Nat) : Nat := blkAddr (0x30 + u) (0x138 + 0x80 * i)
def fTP_STAT_STALE : Fld := ⟨31, 1⟩
def fTP_STAT_STATE : Fld := ⟨28, 3⟩
def fTP_STAT_BASE_SRC : Fld := ⟨26, 2⟩
def fTP_STAT_SYNC_FREE : Fld := ⟨25, 1⟩
def fTP_STAT_RING_FAULT : Fld := ⟨24, 1⟩
def fTP_STAT_NO_OWNER : Fld := ⟨23, 1⟩
def fTP_STAT_SAVE_OFF : Fld := ⟨22, 1⟩
def fTP_STAT_CONTACTS : Fld := ⟨16, 4⟩
def fTP_STAT_SCAN_LO : Fld := ⟨0, 16⟩
def rSCANS (u : Nat) (i : Nat) : Nat := blkAddr (0x30 + u) (0x140 + 0x80 * i)
def rREPORTS (u : Nat) (i : Nat) : Nat := blkAddr (0x30 + u) (0x148 + 0x80 * i)
def rREP_DROP (u : Nat) (i : Nat) : Nat := blkAddr (0x30 + u) (0x150 + 0x80 * i)
def rLATE_SCAN (u : Nat) (i : Nat) : Nat := blkAddr (0x30 + u) (0x158 + 0x80 * i)
def rSTUCK_CNT (u : Nat) (i : Nat) : Nat := blkAddr (0x30 + u) (0x160 + 0x80 * i)
def rANTI (u : Nat) (i : Nat) : Nat := blkAddr (0x30 + u) (0x168 + 0x80 * i)
def rBASE_SAVES (u : Nat) (i : Nat) : Nat := blkAddr (0x30 + u) (0x170 + 0x80 * i)
def rRAW0 (u : Nat) (i : Nat) : Nat := blkAddr (0x30 + u) (0x1000 + 0x4 * i)
def fRAW0_RAW : Fld := ⟨0, 32⟩
def rBASE0 (u : Nat) (i : Nat) : Nat := blkAddr (0x30 + u) (0x2000 + 0x4 * i)
def fBASE0_BASE : Fld := ⟨0, 32⟩
def rRAW1 (u : Nat) (i : Nat) : Nat := blkAddr (0x30 + u) (0x3000 + 0x4 * i)
def fRAW1_RAW : Fld := ⟨0, 32⟩
def rBASE1 (u : Nat) (i : Nat) : Nat := blkAddr (0x30 + u) (0x4000 + 0x4 * i)
def fBASE1_BASE : Fld := ⟨0, 32⟩
def rAUD_CFG : Nat := blkAddr 0x34 0x0
def fAUD_CFG_EN : Fld := ⟨31, 1⟩
def fAUD_CFG_MIX_RATE : Fld := ⟨30, 1⟩
def fAUD_CFG_RAMP_MS : Fld := ⟨16, 8⟩
def fAUD_CFG_DUCK : Fld := ⟨0, 16⟩
def rAUD_STAT : Nat := blkAddr 0x34 0x4
def fAUD_STAT_STALE : Fld := ⟨31, 1⟩
def fAUD_STAT_CLK_ERR0 : Fld := ⟨30, 1⟩
def fAUD_STAT_CLK_ERR1 : Fld := ⟨29, 1⟩
def fAUD_STAT_DUCKING : Fld := ⟨28, 1⟩
def fAUD_STAT_TICK_LO : Fld := ⟨0, 16⟩
def rPORT_CFG (i : Nat) : Nat := blkAddr 0x34 (0x10 + 0x4 * i)
def fPORT_CFG_MASTER : Fld := ⟨31, 1⟩
def fPORT_CFG_FS_POL : Fld := ⟨30, 1⟩
def fPORT_CFG_CAP_EN : Fld := ⟨29, 1⟩
def fPORT_CFG_CAP_STALL : Fld := ⟨24, 4⟩
def fPORT_CFG_CAP_LOG2 : Fld := ⟨20, 4⟩
def rCAP_LO (i : Nat) : Nat := blkAddr 0x34 (0x20 + 0x8 * i)
def fCAP_LO_ADDR : Fld := ⟨6, 26⟩
def rCAP_HI (i : Nat) : Nat := blkAddr 0x34 (0x24 + 0x8 * i)
def fCAP_HI_ADDR : Fld := ⟨0, 32⟩
def rOUTCH (i : Nat) : Nat := blkAddr 0x34 (0x100 + 0x4 * i)
def fOUTCH_ALLOW : Fld := ⟨16, 16⟩
def fOUTCH_VOL : Fld := ⟨0, 16⟩
def rSTR_CFG (i : Nat) : Nat := blkAddr 0x34 (0x200 + 0x10 * i)
def fSTR_CFG_EN : Fld := ⟨31, 1⟩
def fSTR_CFG_FMT : Fld := ⟨30, 1⟩
def fSTR_CFG_STEREO : Fld := ⟨29, 1⟩
def fSTR_CFG_LOG2 : Fld := ⟨20, 4⟩
def rSTR_RING_LO (i : Nat) : Nat := blkAddr 0x34 (0x204 + 0x10 * i)
def fSTR_RING_LO_ADDR : Fld := ⟨6, 26⟩
def rSTR_RING_HI (i : Nat) : Nat := blkAddr 0x34 (0x208 + 0x10 * i)
def fSTR_RING_HI_ADDR : Fld := ⟨0, 32⟩
def rSTR_STAT (i : Nat) : Nat := blkAddr 0x34 (0x20C + 0x10 * i)
def fSTR_STAT_STALE : Fld := ⟨31, 1⟩
def fSTR_STAT_PLAYING : Fld := ⟨30, 1⟩
def fSTR_STAT_UNDER : Fld := ⟨29, 1⟩
def fSTR_STAT_CHIME : Fld := ⟨28, 1⟩
def fSTR_STAT_DENIED : Fld := ⟨27, 1⟩
def fSTR_STAT_FAULT : Fld := ⟨26, 1⟩
def fSTR_STAT_LEVEL : Fld := ⟨0, 16⟩
def rHC_CFG (i : Nat) : Nat := blkAddr 0x34 (0x400 + 0x20 * i)
def fHC_CFG_EN : Fld := ⟨31, 1⟩
def fHC_CFG_TYPE : Fld := ⟨30, 1⟩
def fHC_CFG_F_NOM : Fld := ⟨16, 9⟩
def fHC_CFG_LOG2 : Fld := ⟨0, 4⟩
def rHC_RING_LO (i : Nat) : Nat := blkAddr 0x34 (0x404 + 0x20 * i)
def fHC_RING_LO_ADDR : Fld := ⟨6, 26⟩
def rHC_RING_HI (i : Nat) : Nat := blkAddr 0x34 (0x408 + 0x20 * i)
def fHC_RING_HI_ADDR : Fld := ⟨0, 32⟩
def rHC_STAT (i : Nat) : Nat := blkAddr 0x34 (0x40C + 0x20 * i)
def fHC_STAT_STALE : Fld := ⟨31, 1⟩
def fHC_STAT_PLAYING : Fld := ⟨30, 1⟩
def fHC_STAT_LOCKED : Fld := ⟨29, 1⟩
def fHC_STAT_NO_BEMF : Fld := ⟨28, 1⟩
def fHC_STAT_FAULT : Fld := ⟨27, 1⟩
def fHC_STAT_HALF_US : Fld := ⟨0, 16⟩
def rHC_SEGS (i : Nat) : Nat := blkAddr 0x34 (0x410 + 0x20 * i)
def rBEMF_LOSS (i : Nat) : Nat := blkAddr 0x34 (0x418 + 0x20 * i)
def rSTR_UNDER (i : Nat) : Nat := blkAddr 0x34 (0x600 + 0x8 * i)
def rCAP_DROP (i : Nat) : Nat := blkAddr 0x34 (0x700 + 0x8 * i)
def rDUCKS : Nat := blkAddr 0x34 0x710
def rROUTE_DENIED : Nat := blkAddr 0x34 0x718
def rCHIME_REFUSED : Nat := blkAddr 0x34 0x720
def rSLIP : Nat := blkAddr 0x34 0x728
def rSEG_BAD : Nat := blkAddr 0x34 0x730
def rQCFG (i : Nat) : Nat := blkAddr 0x40 (0x0 + 0x40 * i)
def fQCFG_EN : Fld := ⟨31, 1⟩
def fQCFG_MODE : Fld := ⟨30, 1⟩
def fQCFG_SIZE_LOG2 : Fld := ⟨16, 5⟩
def rQBASE_LO (i : Nat) : Nat := blkAddr 0x40 (0x4 + 0x40 * i)
def fQBASE_LO_ADDR : Fld := ⟨6, 26⟩
def rQBASE_HI (i : Nat) : Nat := blkAddr 0x40 (0x8 + 0x40 * i)
def fQBASE_HI_ADDR : Fld := ⟨0, 32⟩
def rQTAIL (i : Nat) : Nat := blkAddr 0x40 (0xC + 0x40 * i)
def fQTAIL_TAIL : Fld := ⟨0, 32⟩
def rQHEAD (i : Nat) : Nat := blkAddr 0x40 (0x10 + 0x40 * i)
def fQHEAD_HEAD : Fld := ⟨0, 32⟩
def rQDONE (i : Nat) : Nat := blkAddr 0x40 (0x14 + 0x40 * i)
def fQDONE_DONE : Fld := ⟨0, 32⟩
def rQSTAT (i : Nat) : Nat := blkAddr 0x40 (0x18 + 0x40 * i)
def fQSTAT_STATE : Fld := ⟨28, 3⟩
def fQSTAT_OUTSTANDING : Fld := ⟨0, 8⟩
def rQPOS_LO (i : Nat) : Nat := blkAddr 0x40 (0x1C + 0x40 * i)
def fQPOS_LO_ADDR : Fld := ⟨0, 32⟩
def rQPOS_HI (i : Nat) : Nat := blkAddr 0x40 (0x20 + 0x40 * i)
def fQPOS_HI_ADDR : Fld := ⟨0, 32⟩
def rQREFUSED (i : Nat) : Nat := blkAddr 0x40 (0x28 + 0x40 * i)
def rQITEMS (i : Nat) : Nat := blkAddr 0x40 (0x30 + 0x40 * i)
def rSCTRL (i : Nat) : Nat := blkAddr 0x40 (0x1000 + 0x100 * i)
def fSCTRL_CREATE : Fld := ⟨31, 1⟩
def fSCTRL_START : Fld := ⟨30, 1⟩
def fSCTRL_RESET : Fld := ⟨29, 1⟩
def fSCTRL_DESTROY : Fld := ⟨28, 1⟩
def fSCTRL_THAW : Fld := ⟨27, 1⟩
def rSCFG (i : Nat) : Nat := blkAddr 0x40 (0x1004 + 0x100 * i)
def fSCFG_SEALED : Fld := ⟨31, 1⟩
def fSCFG_EP : Fld := ⟨20, 1⟩
def fSCFG_FUNC : Fld := ⟨16, 4⟩
def rSSTAT (i : Nat) : Nat := blkAddr 0x40 (0x1008 + 0x100 * i)
def fSSTAT_STALE : Fld := ⟨31, 1⟩
def fSSTAT_STATE : Fld := ⟨28, 3⟩
def fSSTAT_RESET_DONE : Fld := ⟨27, 1⟩
def fSSTAT_VREC_VALID : Fld := ⟨26, 1⟩
def fSSTAT_VREC_READ : Fld := ⟨25, 1⟩
def fSSTAT_CAUSE : Fld := ⟨22, 3⟩
def fSSTAT_CREATE_ERR : Fld := ⟨19, 3⟩
def fSSTAT_INFLIGHT : Fld := ⟨0, 8⟩
def rSDRAIN (i : Nat) : Nat := blkAddr 0x40 (0x100C + 0x100 * i)
def fSDRAIN_DRAIN_US : Fld := ⟨0, 14⟩
def rGQ_LO (i : Nat) : Nat := blkAddr 0x40 (0x1010 + 0x100 * i)
def fGQ_LO_Q : Fld := ⟨0, 32⟩
def rGQ_HI (i : Nat) : Nat := blkAddr 0x40 (0x1014 + 0x100 * i)
def fGQ_HI_Q : Fld := ⟨0, 32⟩
def rGL_LO (i : Nat) : Nat := blkAddr 0x40 (0x1018 + 0x100 * i)
def fGL_LO_L : Fld := ⟨0, 32⟩
def rGL_HI (i : Nat) : Nat := blkAddr 0x40 (0x101C + 0x100 * i)
def fGL_HI_L : Fld := ⟨0, 32⟩
def rGDM (i : Nat) : Nat := blkAddr 0x40 (0x1020 + 0x100 * i)
def fGDM_CH : Fld := ⟨0, 32⟩
def rGAUD (i : Nat) : Nat := blkAddr 0x40 (0x1024 + 0x100 * i)
def fGAUD_ST : Fld := ⟨0, 32⟩
def rGMISC (i : Nat) : Nat := blkAddr 0x40 (0x1028 + 0x100 * i)
def fGMISC_TP : Fld := ⟨24, 8⟩
def fGMISC_HC : Fld := ⟨16, 8⟩
def fGMISC_CV : Fld := ⟨0, 16⟩
def rGPIPE (i : Nat) : Nat := blkAddr 0x40 (0x102C + 0x100 * i)
def fGPIPE_WB : Fld := ⟨8, 8⟩
def fGPIPE_CLR : Fld := ⟨0, 8⟩
def rGADM0 : Nat := blkAddr 0x40 0x1030
def fGADM0_ADMIT_MAX : Fld := ⟨24, 8⟩
def fGADM0_NVEC : Fld := ⟨16, 7⟩
def fGADM0_SHARE : Fld := ⟨0, 9⟩
def rGADM (i : Nat) : Nat := blkAddr 0x40 (0x1130 + 0x100 * i)
def fGADM_ADMIT_MAX : Fld := ⟨24, 8⟩
def fGADM_NVEC : Fld := ⟨16, 7⟩
def fGADM_SHARE : Fld := ⟨0, 9⟩
def rTCTX_LO (i : Nat) : Nat := blkAddr 0x40 (0x1038 + 0x100 * i)
def fTCTX_LO_BASE : Fld := ⟨16, 16⟩
def fTCTX_LO_SAS : Fld := ⟨0, 3⟩
def rTCTX_HI (i : Nat) : Nat := blkAddr 0x40 (0x103C + 0x100 * i)
def fTCTX_HI_BASE : Fld := ⟨0, 3⟩
def rVKIND (i : Nat) : Nat := blkAddr 0x40 (0x1040 + 0x100 * i)
def fVKIND_STALE : Fld := ⟨31, 1⟩
def fVKIND_MASTER : Fld := ⟨28, 3⟩
def fVKIND_REASON : Fld := ⟨24, 4⟩
def fVKIND_INST : Fld := ⟨16, 8⟩
def fVKIND_WRITE : Fld := ⟨15, 1⟩
def fVKIND_ADDR63 : Fld := ⟨14, 1⟩
def fVKIND_ADDR62 : Fld := ⟨13, 1⟩
def rVADDR_LO (i : Nat) : Nat := blkAddr 0x40 (0x1044 + 0x100 * i)
def fVADDR_LO_STALE : Fld := ⟨31, 1⟩
def fVADDR_LO_ADDR : Fld := ⟨0, 31⟩
def rVADDR_HI (i : Nat) : Nat := blkAddr 0x40 (0x1048 + 0x100 * i)
def fVADDR_HI_STALE : Fld := ⟨31, 1⟩
def fVADDR_HI_ADDR : Fld := ⟨0, 31⟩
def rVCOUNT (i : Nat) : Nat := blkAddr 0x40 (0x1050 + 0x100 * i)
def rRESETS (i : Nat) : Nat := blkAddr 0x40 (0x1058 + 0x100 * i)
def rSQUASHED (i : Nat) : Nat := blkAddr 0x40 (0x1060 + 0x100 * i)
def rBAR_REFUSED (i : Nat) : Nat := blkAddr 0x40 (0x1068 + 0x100 * i)
def rOWN_SRAM (i : Nat) : Nat := blkAddr 0x40 (0x3000 + 0x4 * i)
def fOWN_SRAM_OWNER : Fld := ⟨0, 32⟩
def rTINV : Nat := blkAddr 0x40 0x3800
def fTINV_GO : Fld := ⟨31, 1⟩
def fTINV_ALL : Fld := ⟨30, 1⟩
def fTINV_STALL : Fld := ⟨20, 4⟩
def fTINV_SA : Fld := ⟨0, 20⟩
def rTINV_STAT : Nat := blkAddr 0x40 0x3804
def fTINV_STAT_STALE : Fld := ⟨31, 1⟩
def fTINV_STAT_BUSY : Fld := ⟨30, 1⟩
def rOWN_DRAM (i : Nat) : Nat := blkAddr 0x40 (0x4000 + 0x4 * i)
def fOWN_DRAM_OWNER : Fld := ⟨0, 32⟩
def rFVAL (i : Nat) : Nat := blkAddr 0x40 (0x8000 + 0x8 * i)
def fFVAL_VAL : Fld := ⟨0, 32⟩
def rFADD (i : Nat) : Nat := blkAddr 0x40 (0x8004 + 0x8 * i)
def fFADD_ADD : Fld := ⟨0, 32⟩
def rGS_CTRL : Nat := blkAddr 0x40 0xA000
def fGS_CTRL_URGENT_RSV : Fld := ⟨0, 2⟩
def rGS_STAT : Nat := blkAddr 0x40 0xA004
def fGS_STAT_STALE : Fld := ⟨31, 1⟩
def fGS_STAT_SUM : Fld := ⟨16, 9⟩
def fGS_STAT_EPOCH_LO : Fld := ⟨0, 16⟩
def rGS_EPOCHS : Nat := blkAddr 0x40 0xA008
def rGS_PREEMPT : Nat := blkAddr 0x40 0xA010
def rGS_LONG : Nat := blkAddr 0x40 0xA018
def rGSHARE0 : Nat := blkAddr 0x40 0xA100
def fGSHARE0_HARD : Fld := ⟨31, 1⟩
def fGSHARE0_SHARE : Fld := ⟨0, 9⟩
def rGSHARE (i : Nat) : Nat := blkAddr 0x40 (0xA120 + 0x20 * i)
def fGSHARE_HARD : Fld := ⟨31, 1⟩
def fGSHARE_SHARE : Fld := ⟨0, 9⟩
def rGCREDIT (i : Nat) : Nat := blkAddr 0x40 (0xA104 + 0x20 * i)
def fGCREDIT_STALE : Fld := ⟨31, 1⟩
def fGCREDIT_CREDIT : Fld := ⟨0, 25⟩
def rGUSED (i : Nat) : Nat := blkAddr 0x40 (0xA108 + 0x20 * i)
def rGKILL (i : Nat) : Nat := blkAddr 0x40 (0xA110 + 0x20 * i)
def rGDLMISS (i : Nat) : Nat := blkAddr 0x40 (0xA118 + 0x20 * i)
def rGQATTR (i : Nat) : Nat := blkAddr 0x40 (0xA400 + 0x4 * i)
def fGQATTR_DL_EN : Fld := ⟨31, 1⟩
def fGQATTR_DL_PIPE : Fld := ⟨24, 3⟩
def fGQATTR_PRIO : Fld := ⟨0, 2⟩
def rXSTALE (id : Nat) : Nat := blkAddr id 0xFF00
def rXREFUSED (id : Nat) : Nat := blkAddr id 0xFF08
def rXOVR (id : Nat) : Nat := blkAddr id 0xFF10
def fXOVR_STALE : Fld := ⟨31, 1⟩
def fXOVR_OVR : Fld := ⟨0, 31⟩
def rXLOST (id : Nat) (i : Nat) : Nat := blkAddr id (0xFF14 + 0x4 * i)
def fXLOST_STALE : Fld := ⟨31, 1⟩
def fXLOST_LOST : Fld := ⟨0, 28⟩
def rXREF_OFFSET (id : Nat) : Nat := blkAddr id 0xFF28
def fXREF_OFFSET_STALE : Fld := ⟨31, 1⟩
def fXREF_OFFSET_OFFSET : Fld := ⟨0, 16⟩
def rXCLR (id : Nat) : Nat := blkAddr id 0xFF2C
def fXCLR_CLR : Fld := ⟨0, 31⟩
def rXCNT_CLR (id : Nat) : Nat := blkAddr id 0xFF30
def fXCNT_CLR_CLR_REFUSED : Fld := ⟨1, 1⟩
def fXCNT_CLR_CLR_STALE : Fld := ⟨0, 1⟩
def rISTAT (st : Nat) (i : Nat) : Nat := bar0Addr st (0x100 + 0x4 * i)
def fISTAT_PEND : Fld := ⟨0, 32⟩
def rIMASK (st : Nat) (i : Nat) : Nat := bar0Addr st (0x110 + 0x4 * i)
def fIMASK_EN : Fld := ⟨0, 32⟩
def rIVEC (st : Nat) (i : Nat) : Nat := bar0Addr st (0x120 + 0x4 * i)
def fIVEC_VEC3 : Fld := ⟨24, 6⟩
def fIVEC_VEC2 : Fld := ⟨16, 6⟩
def fIVEC_VEC1 : Fld := ⟨8, 6⟩
def fIVEC_VEC0 : Fld := ⟨0, 6⟩
def rEXP_VAL (st : Nat) (i : Nat) : Nat := bar0Addr st (0x5000 + 0x10 * i)
def fEXP_VAL_VAL : Fld := ⟨0, 32⟩
def rEXP_CTL (st : Nat) (i : Nat) : Nat := bar0Addr st (0x5004 + 0x10 * i)
def fEXP_CTL_ALIVE : Fld := ⟨0, 4⟩
def rLSUB_DATA (st : Nat) (i : Nat) : Nat := bar0Addr st (0x5800 + 0x4 * i)
def fLSUB_DATA_DATA : Fld := ⟨0, 32⟩
def rLSUB_CTRL (st : Nat) : Nat := bar0Addr st 0x5820
def fLSUB_CTRL_GO : Fld := ⟨31, 1⟩
def fLSUB_CTRL_PIPE : Fld := ⟨16, 3⟩
def fLSUB_CTRL_TAG : Fld := ⟨0, 16⟩
def rLSUB_STAT (st : Nat) : Nat := bar0Addr st 0x5824
def fLSUB_STAT_STALE : Fld := ⟨31, 1⟩
def fLSUB_STAT_BUSY : Fld := ⟨30, 1⟩
def fLSUB_STAT_DROPPED : Fld := ⟨29, 1⟩
def fLSUB_STAT_SEQ_LO : Fld := ⟨0, 16⟩
def rMB_REQ (st : Nat) (i : Nat) : Nat := bar0Addr st (0x6000 + 0x4 * i)
def fMB_REQ_DATA : Fld := ⟨0, 32⟩
def rMB_RSP (st : Nat) (i : Nat) : Nat := bar0Addr st (0x6400 + 0x4 * i)
def fMB_RSP_DATA : Fld := ⟨0, 32⟩
def rMB_CTRL (st : Nat) : Nat := bar0Addr st 0x6800
def fMB_CTRL_GO : Fld := ⟨31, 1⟩
def fMB_CTRL_LEN : Fld := ⟨0, 11⟩
def rMB_STAT (st : Nat) : Nat := bar0Addr st 0x6804
def fMB_STAT_BUSY : Fld := ⟨31, 1⟩
def fMB_STAT_RSP_READY : Fld := ⟨30, 1⟩
def fMB_STAT_RSP_LEN : Fld := ⟨0, 11⟩
def rMSIX (st : Nat) (i : Nat) : Nat := bar0Addr st (0x7000 + 0x4 * i)
def fMSIX_VAL : Fld := ⟨0, 32⟩
def rPBA (st : Nat) (i : Nat) : Nat := bar0Addr st (0x7800 + 0x4 * i)
def fPBA_VAL : Fld := ⟨0, 32⟩

end Sys2Proof.Machine
end

