-- ==== Sys2Proof/Machine/State.lean ====
section
/-! DEFINITION. Machine/State.lean: the state of the block as plain data, its reset value, and why a step can stop. -/
namespace Sys2Proof.Machine

/-- What the last access answered to its maker. (DESIGN CHOICE, log entry 5) -/
inductive Resp where
  | none                          -- no access
  | ok                            -- a write that took effect, or an acknowledged write
  | data (v : W64)                -- a read that was served
  | refused                       -- a write refused under R9 or R67: acknowledged without an error, counted
  | discarded                     -- a write dropped without an error and without a count (R486)
  | errZero                       -- zeros with an error response (R4, R18), over PCIe Completer Abort (R233)
  | unsupported                   -- Unsupported Request (R204)
  | crs                           -- Configuration Request Retry Status (R268, R269)
  | bytes (b : List Byte)         -- bytes of memory that were read
  | waits                         -- the access waits; a later command gives its answer
  deriving DecidableEq, Repr

/-- A Smiser response: its status and its payload. -/
structure SmResp where
  status : Nat
  payload : List Byte := []
  deriving DecidableEq, Repr

/-- What a haptic channel drives (R365, R366): off; an ERM at a signed duty of 11 bits for some ms; an LRA with a square wave at a duty, whose
half period is that of FREQ in 0.1 Hz or, where FREQ is 0, T in µs, for some ms; the brake of an LRA, 2 half periods in antiphase. At each
polarity change an LRA's output is high-impedance for 200 µs. -/
inductive Bridge where
  | off
  | erm (duty : Int) (ms : Nat)
  | lra (duty freq half ms : Nat)
  | antiphase (freq half : Nat)
  deriving DecidableEq, Repr

/-- What the block says to the outside in the course of a command. (DESIGN CHOICE, log entries 5, 103; DEDUCED, log entries 15, 40) -/
inductive Out where
  | msix (stall vec : Nat)        -- an MSI-X message (R220)
  | memData (off : Nat) (bytes : List Byte)         -- a read that was on its way as SAVING began returns its block (R455)
  | memError (off : Nat) (write : Bool)             -- a waiting request completes with an error response (R288, R455)
  | envmRead (who : Who) (addr : Nat) (b : Byte)      -- the answer to a read that waited for its eNVM sector (R313)
  | saturated (slot : Nat)        -- the saturation event of an error counter (R10, R26)
  | hostWrite (stall addr : Nat) (bytes : List Byte)  -- a write to host memory through the stall's function (R205, R212)
  | tdm (port : Nat) (fsync : Option Bool) (slots : List W32) -- a frame of a TDM port: the active level of FSYNC if a master drives it, 8 slots (R367)
  | bridge (ch : Nat) (drive : Bridge)                -- what a haptic channel drives from now on (R365, R366)
  | canFrame (bus id : Nat) (data : List Byte)        -- a CAN FD frame of Smiser: its 29-bit identifier, its data field (R377, R380, R382)
  | datagram (src dst : BitVec 128) (data : List Byte) -- a UDP datagram of Smiser, both ports 48620: prefix and message (R384)
  | keeperMsg (msg : List Byte)   -- a Smiser response to the keeper
  | dpcd (pipe addr value : Nat)  -- a DPCD write that the transmitter of a pipe makes over AUX (R48)
  | syncPin (o : Nat) (level : Bool)                  -- a SYNC_OUT pin changes its level (R64)
  | video (pipe line : Nat) (px : List (Nat × Nat × Nat))  -- an active line that the transmitter sends, post-dither R, G, B (R44, R65, R86)
  | vertices (cl draw inst : Nat) (prims : List (List Nat))  -- the primitives that a draw's vertex work takes, by vertex (R154)
  | irqLine (block : Nat) (keeper level : Bool)        -- a block's interrupt line, to the keeper or to the service cores (R259)
  | texels (cl : Nat) (v : List (List Nat))            -- what a texture lookup returns: its texels in binary32 (R171, R175)
  | tileRead (cl att px sample : Nat) (v : List Nat)   -- what an interlock section reads from tile memory (R166)
  | regulator (rail command value : Nat) (pec : Bool)  -- a transaction of the regulator bus, with a PEC byte or not (R470)
  deriving DecidableEq, Repr

/-- Why the machine stops with a fault: never, on this block (no rule of the spec stops it). -/
inductive Fault where
  | none
  deriving DecidableEq, Repr

/-- Why a command is refused by the model: only a command without a meaning yet; safe. -/
inductive Refusal where
  | notModelled (mnemonic : String)
  deriving DecidableEq, Repr

/-- The sources of a tally request (R32), by rank: SAVE first. -/
inductive TallySrc where
  | save | frame | software | periodic
  deriving DecidableEq, Repr

/-- The tally block beyond its registers (R28 to R33). -/
structure TallySt where
  /-- The request that the next 48 MHz edge launches. -/
  req : Option TallySrc := none
  /-- A SAVE request waits for the running tally. -/
  saveWaits : Bool := false
  /-- Powered islands of the running tally whose acknowledgement has not arrived, as bits. -/
  waiting : Nat := 0
  /-- Islands of the running tally that captured and acknowledged, as bits. -/
  acked : Nat := 0
  /-- The running countdown of the period timer, in ms from its last start. -/
  timer : Option Nat := none
  deriving DecidableEq, Repr

/-- Why a pipe trains its link (R45, R48, R49). -/
inductive TrainReason where
  | none | start | retry | sink | live
  deriving DecidableEq, Repr

/-- A software AUX transaction (R52). -/
inductive AuxSt where
  | idle | waiting | active
  deriving DecidableEq, Repr

/-- A STOP of a pipe (R46): none, waiting for the frame boundary, idle pattern being sent. -/
inductive StopSt where
  | none | atBoundary | idle
  deriving DecidableEq, Repr

/-- One fetch span in a pipe's fetch FIFO (R75 to R77): one request for layer `m` and output line `line`, the bytes off to off + n - 1 of source row
`row`, counted from the row's first column; the address that the gate gave while its data are awaited; then the data, `none` when the fetch failed. -/
structure Span where
  m : Nat
  line : Nat
  row : Nat
  off : Nat
  n : Nat
  wait : Option Nat
  bytes : Option (List Byte)
  deriving DecidableEq, Repr

/-- A pixel of 12 bits a component, or before conversion the Y, Cb, Cr of one. -/
structure Px where
  r : Nat
  g : Nat
  b : Nat
  a : Nat
  deriving DecidableEq, Repr

/-- The output line that is being composed: its layers, as they were when its composition began; whether the awning's verified data were there then; and
whether the writeback buffer overflows in it. -/
structure OpenLine where
  y : Nat
  px : List Px
  awn : Bool
  overflow : Bool
  deriving DecidableEq, Repr

/-- One verified awning line in the line buffer (R137): its bytes, or `none` when both copies failed. -/
structure AwnLine where
  y : Nat
  bytes : Option (List Byte)
  deriving DecidableEq, Repr

/-- One pitch checker beyond its registers (R121 to R132). -/
structure PitchSt where
  /-- The CRC register of this frame. -/
  crc : BitVec 32 := 0xFFFFFFFF#32
  /-- Pending pair, the pair taken for the next frame, the pair of this frame: expected value and alive counter. -/
  pend : BitVec 32 × BitVec 4 := (0, 0)
  taken : BitVec 32 × BitVec 4 := (0, 0)
  cur : BitVec 32 × BitVec 4 := (0, 0)
  /-- The alive reference. -/
  ref : BitVec 4 := 0
  /-- The response in force, and the strongest one detected since the last frame boundary: 0 EVENT, 1 FALLBACK, 2 BLANK (R130). -/
  resp : Nat := 0
  respNext : Nat := 0
  /-- A clear was written: the response in force ends at the next frame boundary (R132). -/
  clr : Bool := false
  /-- A configuration was taken at the latch point and applies from the next frame boundary. -/
  newCfg : Bool := false
  /-- The next frame, this frame sets the alive reference without a check (R129). -/
  noRefNext : Bool := false
  noRef : Bool := false
  /-- The TIE layer's commit waited at the latch point before this frame (R128). -/
  waited : Bool := false
  /-- The result of this frame has been reached. -/
  done : Bool := false
  /-- The last frame with a comparison: result and measured value (R143). -/
  prev : Option (Nat × BitVec 32) := none
  deriving DecidableEq, Repr

/-- The commit state of one layer (R99, R105, R110, R114): what the latch knows; CSTAT shows it from vertical blanking on. -/
structure LaySt where
  pending : Bool := false
  held : Bool := false
  late : Bool := false
  /-- The last commit taken was late (R117). -/
  lateTaken : Bool := false
  notReady : Bool := false
  fallback : Bool := false
  /-- Ended at the last latch point, and still shown as pending. -/
  unpub : Bool := false
  nrRun : Nat := 0
  result : Nat := 0
  frameLo : Nat := 0
  deriving DecidableEq, Repr

/-- A ledger entry handed to the ledger and not yet appended (R142). -/
structure LedEntry where
  typ : Nat
  pipe : Nat := 0xFF
  pitch : Nat := 0xFF
  source : Nat := 0xFF
  code : Nat := 0
  alive : Nat := 0
  frame : Nat := 0
  frameEpoch : Nat := 0
  measured : Nat := 0
  expected : Nat := 0
  payload : List Byte := []
  deriving DecidableEq, Repr

/-- A seal in progress (R145): its first slot, its first slot's 64 bytes, and the head it signs. -/
structure SealSt where
  slot : Nat
  first : List Byte
  head : BitVec 256
  /-- INIT came meanwhile: the seal is one of the chain before. -/
  old : Bool
  deriving DecidableEq, Repr

/-- The ledger part of a found save, held until the first EN (R462, R463). -/
structure SavedLedger where
  h : BitVec 256
  seq : Nat
  chain : BitVec 128
  sealNo : Nat
  noChain : Bool
  slots : List (List Byte)
  lost : Nat
  deriving DecidableEq, Repr

/-- The ledger beyond its registers (R142 to R149). -/
structure LedgerSt where
  /-- The chain head, the SEQ of the next entry, CHAIN_ID, the next SEAL_NO. -/
  h : BitVec 256 := 0
  seq : Nat := 0
  chain : BitVec 128 := 0
  sealNo : Nat := 1
  /-- Entries dropped since FULL was set; entries abandoned by LG_CFG. -/
  gap : Nat := 0
  cfgGap : Nat := 0
  /-- The slot after the last appended entry or reserved slot; the slots that hold seals. -/
  next : Nat := 0
  sealSlots : List Nat := []
  sealing : Option SealSt := none
  /-- The reserved slots of a seal that SAVING abandoned. -/
  void : List Nat := []
  /-- The seal period runs. -/
  period : Bool := false
  /-- Entries in the order of their causes, not yet appended. -/
  queue : List LedEntry := []
  saved : Option SavedLedger := none
  deriving DecidableEq, Repr

/-- A display pipe and its transmitter beyond their registers (chapter 02). Times are in cycles of the 1.6 GHz root clock. -/
structure PipeSt where
  /-- A frame is being scanned (false in STOPPED and between the end of an old timing and the first new frame). -/
  scanning : Bool := false
  /-- The current line. -/
  line : Nat := 0
  /-- The latch point of this frame has passed. -/
  latched : Bool := false
  /-- The vertical blanking of this frame has started. -/
  vblank : Bool := false
  /-- GUARD and FALLBACK_FRAMES in force (R113). -/
  guard : Nat := 2
  fallback : Nat := 3
  stop : StopSt := .none
  reason : TrainReason := .none
  /-- The bring-up waits for HPD to have been high for 100 ms. -/
  waitHpd : Bool := false
  /-- The setting that training tries: rate and lanes. -/
  setting : Option (Nat × Nat) := .none
  /-- HPD: its level, and whether it has been high for 100 ms. -/
  hpd : Bool := false
  hpdStable : Bool := false
  /-- The pin is low and the low pulse is being timed (R51). -/
  hpdLow : Bool := false
  /-- 1,000 ms have passed in FAULT; the pipe waits for HPD as for HPD_LOST (R47). -/
  retryDue : Bool := false
  awaitHpd : Bool := false
  /-- A DPCD lane-status read is running (R51). -/
  laneRead : Bool := false
  /-- The GO was taken at a latch point; the idle gap of the change; synthesiser and link ready in it (R54). -/
  goTaken : Bool := false
  gap : Bool := false
  settled : Bool := true
  linkReady : Bool := true
  /-- The ledger is FULL and FULL_BLANK blanks this pipe (R147). -/
  fullBlank : Bool := false
  /-- Frame boundaries until BLANK_FIRST clears (R45). -/
  blackLeft : Nat := 0
  /-- Sync lock (R56 to R62, R442): the base edge, the last accepted edge, whether the reference is present, whether the last edge was not accepted,
  aligned frames in a row, whether the trim moved by 10 ppm or more, the phase correction of this frame, a REALIGN waiting,
  whether this frame is an alignment frame, and the pixels by which its VBP is longer (R61). -/
  base : Option Nat := .none
  accepted : Option Nat := .none
  /-- The time of the last frame boundary; the last two edges, newest first, of a source that SYNC_SRC names as written and that is not in force yet (R446). -/
  bound : Option Nat := .none
  nextEdges : List Nat := []
  present : Bool := false
  offEdge : Bool := false
  lockRun : Nat := 0
  trimMoved : Bool := false
  corrLines : Int := 0
  corrPix : Int := 0
  realign : Bool := false
  /-- The black first frame of a START or of a live timing change is still to come, and is an alignment frame where the reference allows (R61). -/
  alignDue : Bool := false
  aligning : Bool := false
  alignPix : Nat := 0
  /-- The next frame will be RUNNING, as decided at the latch point (R444). -/
  nextRunning : Bool := false
  /-- Layers of which a span of the coming frame failed, as bits (R77). -/
  ferrNext : Nat := 0
  /-- Layers re-projected in the next frame and in this one, as bits (R94). -/
  reprojNext : Nat := 0
  reproj : Nat := 0
  /-- The self-test pattern (R399): layer, kind, frames left, from the next frame on; layer and kind in the frame now scanned; frames begun
  with it. -/
  pattern : Option (Nat × Nat × Nat) := .none
  patNow : Option (Nat × Nat) := .none
  patShown : Nat := 0
  /-- Fetched spans; verified awning lines; the lines of this frame in the SAFE colour are those not among them. -/
  spans : List Span := []
  awn : List AwnLine := []
  /-- The awning line whose first fetch failed its check and that is fetched again from the other copy (R137). -/
  awnAgain : Option Nat := .none
  /-- The line that is being composed. -/
  openLine : Option OpenLine := .none
  /-- Writeback of this frame: being written, and stopped by an overflow or a refused write (R92, R234); frames written
  whole whose last write has not completed, oldest first: frame count and whether the frame was one of ONESHOT. -/
  wbOn : Bool := false
  wbStop : Bool := false
  wbLast : List (Nat × Bool) := []
  /-- Commits of the layers, by layer; pending pipe, lockstep and awning commits, whether late, and whether taken or refused at the
  last latch point and still shown as pending until the next vertical blanking (R103). -/
  lay : Store LaySt := []
  pipePend : Bool := false
  lockPend : Bool := false
  awnPend : Bool := false
  pipeLate : Bool := false
  lockLate : Bool := false
  awnLate : Bool := false
  pipeUn : Bool := false
  lockUn : Bool := false
  awnUn : Bool := false
  /-- PCSTAT.RESULT and LATCH_FRAME to show at the next vertical blanking. -/
  presult : Nat := 0
  latchFrame : Nat := 0
  /-- Release fences to signal and flip events to raise at the next vertical blanking (R103, R108): stall, fence, value; stalls
  as bits. -/
  relDue : List (Nat × Nat × W32) := []
  flips : Nat := 0
  /-- Layers to disable at the next latch point, as bits (R241). -/
  disable : Nat := 0
  /-- GUARD and FALLBACK_FRAMES from the next frame boundary (R113). -/
  gfNext : Option (Nat × Nat) := .none
  /-- AFCTL was written; SEL was taken and CUR follows it at the next frame boundary (R140). -/
  selWritten : Bool := false
  selTaken : Bool := false
  pitch : Store PitchSt := []
  aux : AuxSt := .idle
  auxTries : Nat := 0
  deriving DecidableEq, Repr

/-- An item of a queue that has been admitted (R224, R225): its index, the address of its descriptor, the descriptor (`none` when its
fetch answered with an error), whether it has started, its result once it has ended, and whether COMPL was written. -/
structure QItem where
  seq : Nat
  addr : Nat
  desc : Option (List Byte)
  started : Bool := false
  result : Option Nat := none
  compl : Bool := false
  deriving DecidableEq, Repr

/-- Does a queue run: STOPPED, running (RUNNING, PARKED, BLOCKED and FROZEN are views of it), STOPPING (R227, R232)? -/
inductive QRun where
  | stopped | running | stopping
  deriving DecidableEq, Repr

/-- A queue beyond its registers (R225 to R232). CHAIN mode: `next`, QPOS names a descriptor to read; `unread`, parked at QBASE
without having read it (R241); `linking`, a LINK-word read is out. -/
structure QueueSt where
  run : QRun := .stopped
  items : List QItem := []
  next : Bool := true
  unread : Bool := false
  linking : Bool := false
  dbSeen : Bool := false
  deriving DecidableEq, Repr

/-- Where an item of the raster engine stands: not yet active (R183), its descriptor being read (R154), waiting for its floor (R159), binning (R160),
rendering the lists of an overflow (R161), the final render (R162), computing. -/
inductive WStage where
  | queued | start | floor | bin | partialRender | final | comp
  deriving DecidableEq, Repr

/-- A draw record of a pass as binning read it (R154); once its binning has ended, what its pipeline object makes its fragments do, under a number of its
own; late depth and stencil testing (R168); primitives of one of its instances. (DESIGN CHOICE, log entry 94) -/
structure DrawRec where
  bytes : List Byte
  per : Nat := 0
  key : Nat := 0
  late : Bool := false
  blend : Bool := false
  dsTest : Bool := false
  deriving DecidableEq, Repr

/-- A work item of the raster engine (R153 to R162). -/
structure WorkItem where
  st : Nat
  q : Nat
  seq : Nat
  compute : Bool
  work : Nat
  stage : WStage := .queued
  /-- The RPD or CDD as it was read. -/
  desc : List Byte := []
  /-- The code the item will end with; 0 while nothing failed. -/
  fail : Nat := 0
  /-- Bytes per pixel of tile memory; chunks held, the floor included; entries of each tile list; bytes of the varying buffer. -/
  foot : Nat := 0
  chunks : Nat := 0
  lists : Store Nat := []
  vary : Nat := 0
  /-- The draw record being binned; the primitives an overflow left; the records read; objects checked. -/
  draw : Nat := 0
  rest : List BinPrim := []
  draws : List DrawRec := []
  objs : List Nat := []
  /-- Tiles rendered in a partial render; tiles of the render phase not yet dispatched; compute tiles: the next, and how many. -/
  spilled : List Nat := []
  todo : List Nat := []
  next : Nat := 0
  total : Nat := 0
  /-- Miss records: pairs recorded by each cluster, newest first; whether a record was written or dropped (R176). -/
  pairs : Store (List (Nat × Nat)) := []
  missed : Bool := false
  /-- It lost a cluster or slot to an urgent item of the window (R201). -/
  preempted : Bool := false
  deriving DecidableEq, Repr

/-- One step of the work of a unit (R153): a read of at most 64 bytes into the unit's buffer; a write of at most 64; what a program read is its own;
the descriptor of an item, the header of its compute object; a draw record, its pipeline object's header; indices still to read
(R154); a texture lookup (R175): its descriptor, the blocks still to test at a level and those missing, the texels still to read
at a level; a miss record to suppress or send, in the ring of the pass (R176); tile content: an attachment's given values, a sample
of an attachment, the spill slot, the content complete (R161, R164); the fragments; the stores (R162); a rejected instruction. -/
inductive GpuOp where
  | get (sa n : Nat)
  | put (sa : Nat) (b : List Byte)
  | taken
  | item
  | head
  | drawRec
  | drawHead (obj : Nat)
  | index (n : Nat)
  | tex (look : TexLook)
  | block (look : TexLook) (d : List Byte) (level : Nat) (px : List (Nat × Nat)) (todo miss : List Nat)
  | texel (look : TexLook) (d : List Byte) (level : Nat) (px : List (Nat × Nat)) (vals : List (List Nat))
  | miss (tag level n : Nat)
  | record (tag level n : Nat)
  | fill (att : Nat) (v : List Nat)
  | sample (att : Nat)
  | unspill
  | loaded
  | shade (l : List TileFrag)
  | store
  | reject
  deriving DecidableEq, Repr

/-- A unit that runs (R181): kind 0 the binning of a draw record, on its slot and the vertex work on a cluster; 1 a render tile; 2 a compute tile; 3 the
read of an item's descriptor; whether it is a spare unit (R186) and was counted in GS_LONG. -/
structure GUnit where
  q : Nat
  seq : Nat
  kind : Nat
  spare : Bool
  long : Bool := false
  /-- The tile; or, on a binning slot, 1 for a draw that does nothing. -/
  tile : Nat := 0
  /-- A compute tile's workgroups, and how many of them run at once (R154). -/
  wgs : Nat := 0
  atOnce : Nat := 0
  /-- The two tiles of tile memory, by attachment (R163): the one being rendered, and the one being loaded or stored. -/
  content : List (List Nat) := []
  io : List (List Nat) := []
  /-- Bytes read and not yet used; index values read. -/
  buf : List Byte := []
  idx : List Nat := []
  /-- Steps still to make; the unit's programs have run, and it ends once no step is left. -/
  todo : List GpuOp := []
  ending : Bool := false
  deriving DecidableEq, Repr

/-- The device's copy of a miss ring's WR, RD and DROPS (R176), by the stall and the address of the ring. -/
structure RingCopy where
  st : Nat
  ring : Nat
  wr : Nat
  rd : Nat
  drops : Nat
  deriving DecidableEq, Repr

/-- A byte of a residency map in a cluster's texture cache (R177). -/
structure ResByte where
  cl : Nat
  st : Nat
  addr : Nat
  v : Nat
  deriving DecidableEq, Repr

/-- The raster engine and its scheduler beyond their registers: items in the order of submission, passes waiting for their floor by
queue and index, running units by resource (clusters 0 to 11, binning slots 12 and 13, the descriptor read of stall s 14 + s), open windows as
bits, miss rings of the active passes, residency bytes in the texture caches. -/
structure GpuSt where
  items : List WorkItem := []
  floorQ : List (Nat × Nat) := []
  units : Store (Option GUnit) := []
  win : Nat := 0
  rings : List RingCopy := []
  resCache : List ResByte := []
  deriving DecidableEq, Repr

/-- Work of a data-mover channel: for a stall 0 to 15, or direct in world N (16) or T (17) (R339); the queue item; the address of the
first descriptor. -/
structure DmWork where
  owner : Nat
  q : Nat := 0
  seq : Nat := 0
  addr : Nat
  deriving DecidableEq, Repr

/-- Where a channel's descriptor stands (R325): to be fetched; waiting for a held context (R336); its operation; its read-back; its
LINK word; a direct chain parked, or idle after an error (R329). -/
inductive DmPhase where
  | none | fetch | context | moving | readback | link | parked | idle
  deriving DecidableEq, Repr

/-- A data-mover channel beyond its registers (R320 to R332): items that wait, the work in progress, its descriptor, elements moved, a
fixed source's frame, data read and not yet written, the first error (code and address), the descriptor's result, whether the work
met a violation, whether the descriptor did, the descriptor's first failed address; whether CH_FAULT holds one of this work; whether the descriptor holds its
context; whether a compare failed, DB_SEEN, where a LINK word that ends the chain again leads back to; for a direct channel whether it is frozen; when it began
to wait for its engine. -/
structure DmCh where
  waits : List DmWork := []
  cur : Option DmWork := .none
  phase : DmPhase := .none
  pos : Nat := 0
  desc : List Byte := []
  done : Nat := 0
  fixed : List (List Byte) := []
  data : Option (List Byte) := .none
  sent : Nat := 0
  err : Option (Nat × Nat) := .none
  result : Nat := 0
  violated : Bool := false
  descViol : Bool := false
  fault : Option Nat := .none
  recorded : Bool := false
  holds : Bool := false
  mismatch : Bool := false
  dbSeen : Bool := false
  back : DmPhase := .none
  frozen : Bool := false
  since : Nat := 0
  deriving DecidableEq, Repr

/-- A data-mover engine (R324): the channel that holds it; channels with work that wait for it, the longest first; how many began to wait. -/
structure DmEng where
  holder : Option Nat := .none
  order : List Nat := []
  count : Nat := 0
  deriving DecidableEq, Repr

/-- A request in a queue of a subchannel (R289): a write or a read; the DRAM offset of its 64-byte block; where it comes from; promoted by
age; its number in the order of arrival; the first byte of the block it writes and its bytes; for the write-back of a correction (R299), the words of the
block that it writes, as bits. -/
structure McReq where
  write : Bool
  off : Nat
  src : MemSrc
  aged : Bool := false
  num : Nat
  pos : Nat := 0
  bytes : List Byte := []
  fix : Nat := 0
  deriving DecidableEq, Repr

/-- A read that was issued: its block's offset, the 64 bytes and the errors of the 8 words as the memory held them. -/
structure McRead where
  off : Nat
  bytes : List Byte
  errs : List Nat
  deriving DecidableEq, Repr

/-- A subchannel (R279, R289 to R296): read and write queue, oldest first; the burst set; the reads on their way back; requests so far;
a write drain; refresh debt D; banks refreshed since per-bank refreshes last lowered D, as bits; the activation tables by bank, entries
(row, count) by index; targeted refreshes due (bank, row); write-backs of corrected blocks that wait for room in the write queue, as offset and words (R299). -/
structure SubSt where
  rq : List McReq := []
  wq : List McReq := []
  burst : List McReq := []
  back : List McRead := []
  count : Nat := 0
  drain : Bool := false
  debt : Int := 0
  perBank : Nat := 0
  acts : Store (List (Nat × Nat)) := []
  trr : List (Nat × Nat) := []
  fixes : List (Nat × Nat) := []
  deriving DecidableEq, Repr

/-- What the controllers hold beyond their registers: subchannels by 2 × channel + number; the PANIC vector each channel sees (R292); the
tracking step that waits for a refresh, by channel: whether for a forced one also under panic, and the taps that will pass (R292); the
patrol scrubber's next block offset (R300); the pass of the full scrub operation: 0 none, 1 in progress, 2 at its end; its uncorrectable blocks. -/
structure MemSt where
  sub : Store SubSt := []
  panic : Store Nat := []
  drift : Store (Option (Bool × List LaneRun)) := []
  patrol : Nat := 0
  opPass : Nat := 0
  opBad : Nat := 0
  deriving DecidableEq, Repr

/-- The SRAM scrubber (R308, R310): its next block; the grains whose content is undefined because two units shared them; the addresses of bytes written there since the
sharing ended; whether an overlap, or a grain not marked UNIT, was met since the pass began. (DEDUCED, log entry 52) -/
structure MsrSt where
  block : Nat := 0
  mixed : List Nat := []
  known : List Nat := []
  ovlSeen : Bool := false
  ownSeen : Bool := false
  deriving DecidableEq, Repr

/-- A keeper command of the eNVM controller (R313): 1 erase, 2 program with the line and its bytes, 3 blank check. -/
structure NvmOp where
  op : Nat
  sector : Nat
  line : Nat := 0
  bytes : List Byte := []
  deriving DecidableEq, Repr

/-- A line of the persistent-store log (R316): its sequence, its place (sector × 128 + line), its records of 64 bytes. -/
structure LogLine where
  seq : Nat
  place : Nat
  recs : List (List Byte)
  /-- Its CRC-32C fails. -/
  bad : Bool := false
  deriving DecidableEq, Repr

/-- A log line that is being programmed from the cache (R316): the line's place, and of each record its number in the cache and its bytes as copied. -/
structure FlushSt where
  place : Nat
  recs : List (Nat × List Byte)
  deriving DecidableEq, Repr

/-- A read of the eNVM window that waits for its sector (R313). -/
structure NvmRead where
  who : Who
  addr : Nat
  deriving DecidableEq, Repr

/-- The eNVM controller beyond its registers (R312 to R317): the keeper command in progress; lines programmed since their sector's erase;
erases of each sector; retired sectors; the two copies of the wear map with their sequence numbers; log lines in order of sequence,
the next sequence and the place from which the next line is sought; the copies of the wear map whose CRC-32C fails; the log line that is being programmed;
the reads that wait; the number of the last save known (LAST_SAVE, R457);
the FACTORY_DEFAULTS request (R430); operations that the last save interrupted without a checkpoint (R402). (DEDUCED, log entry 74) -/
structure NvmSt where
  op : Option NvmOp := none
  lines : List Nat := []
  erases : Store Nat := []
  retired : List Nat := []
  wear : Store (Nat × Store Nat) := []
  log : List LogLine := []
  logSeq : Nat := 0
  logPos : Nat := 172 * 128
  wearBad : List Nat := []
  flush : Option FlushSt := none
  reads : List NvmRead := []
  lastSave : Nat := 0
  defaults : Nat := 0
  interrupted : List Nat := []
  deriving DecidableEq, Repr

/-- A contact of a panel (R352, R353): its ID; its centroid in 1/256 node on the sense and drive axis; its reported position; its peak
node; SIZE and STRENGTH; where and when its stuck interval began (R351); STUCK. -/
structure TContact where
  id : Nat
  cx : Nat
  cy : Nat
  x : Nat
  y : Nat
  peak : Nat
  size : Nat
  strength : Nat
  ax : Nat
  ay : Nat
  since : Nat
  stuck : Bool
  deriving DecidableEq, Repr

/-- A scan in progress (R342): its start in µs, the time from which its present step can run, the pipe's frame count at the start, the
samples of its steps so far; whether a step ended in a later vertical blanking than the first (R345); it does the recalibration asked for
before it (R350); it started at a write, whose time its first step tells. (DESIGN CHOICE, log entry 3) -/
structure TScan where
  start : Nat
  from' : Nat
  frame : Nat
  steps : List (List Int) := []
  late : Bool := false
  recal : Bool := false
  untimed : Bool := false
  deriving DecidableEq, Repr

/-- A touch panel beyond its registers (R341 to R358). Times are in µs. The scan; whether one waits for the other panel; the last scan
start; the last opportunity of the timer; frame and line of the last opportunity of the pipe; the scan count; opportunities skipped by the idle rate; the last time with a contact; a contact was found, and the panel is
ACTIVE from its next opportunity; contacts; IDs that the last record reported UP; FLAGS of the last record; WR, copy of RD and REP_DROP of
the ring once its header was read; the next record lists every contact as DOWN; the last-good baseline found; RECAL waits; since when no
scan broke the save condition; the time of the last save and its number. -/
structure PanelSt where
  scan : Option TScan := none
  wait : Bool := false
  last : Option Nat := none
  timed : Option Nat := none
  opp : Option (Nat × Nat) := none
  count : Nat := 0
  skip : Nat := 0
  touched : Nat := 0
  wake : Bool := false
  contacts : List TContact := []
  gone : List Nat := []
  flags : Nat := 0
  ring : Option (Nat × Nat × Nat) := none
  rejoin : Bool := false
  good : Option (List Nat) := none
  recal : Bool := false
  clean : Option Nat := none
  saved : Nat := 0
  saveNo : Nat := 0
  deriving DecidableEq, Repr

/-- A mixer stream beyond its registers (R362 to R372): RD once it was read from the header; GAIN, DST0, DST1; the CHIME flag as last seen;
frames consumed in the last tick and in the one before, which are being sent, a frame one or two samples of 24 bits; the last tick ran
short. -/
structure StreamSt where
  rd : Option Nat := none
  gain : Nat := 0
  dst0 : Nat := 0xFF
  dst1 : Nat := 0xFF
  flag : Bool := false
  next : List (List Int) := []
  now : List (List Int) := []
  short : Bool := false
  deriving DecidableEq, Repr

/-- A haptic channel beyond its registers (R365, R366): RD once it was read; the last CUT; the segment that plays (AMP, DUR_MS, FREQ, FLAGS);
a brake runs; the learned half period T; half periods in a row that passed the test; gaps in a row without a crossing; whether this gap
showed one; the time of the last crossing in µs; Tm. -/
structure HapSt where
  rd : Option Nat := none
  cut : Option Nat := none
  seg : Option (Int × Nat × Nat × Nat) := none
  brake : Bool := false
  half : Nat := 0
  passes : Nat := 0
  misses : Nat := 0
  crossed : Bool := false
  lastCross : Option Nat := none
  tm : Option Nat := none
  deriving DecidableEq, Repr

/-- A capture port: WR, copy of RD and DROPS once the header was read; stopped by a refused access; frames of this tick (R368). -/
structure CapSt where
  ring : Option (Nat × Nat × Nat) := none
  stop : Bool := false
  frames : List (List W32) := []
  deriving DecidableEq, Repr

/-- The mixer beyond its registers (R370 to R372): the frame of the tick that is sent next; by output, how far 32768 the duck factor is
lowered, ducking in progress, a chime active in this tick, ticks since one was; the frame port 1 sent last (R369). -/
structure MixSt where
  frame : Nat := 0
  lowered : Store Nat := []
  ducking : Nat := 0
  active : Nat := 0
  quiet : Store Nat := []
  lastTdm : List W32 := []
  deriving DecidableEq, Repr

/-- The MSI-X capability of a function (R203, R220): Enable and Function Mask. -/
structure FnCfg where
  msixOn : Bool := false
  msixMask : Bool := false
  deriving DecidableEq, Repr

/-- What the boot has loaded (R263 to R272): the boot configuration's 1,024 bytes; the image's grain, code size, SVN; MR0 to MR7; the
recovery image's length. The source in use: 0 eNVM, 1 PCIe A, 2 CAN; whether a start is warm; whether Zhotor has been entered and not
been reset since; whether KCTRL.UP, and SVC_CTRL.RUN, have been accepted since the start; the times of the last keeper restarts, in µs,
newest first; whether the link of a recovery boot is up. -/
structure BootSt where
  src : Nat := 0
  warm : Bool := false
  zhotor : Bool := false
  upWritten : Bool := false
  runWritten : Bool := false
  restarts : List Nat := []
  linkUp : Bool := false
  cfg : List Byte := []
  grain : Nat := 0
  codeSize : Nat := 0
  svn : Nat := 0
  mr : List (BitVec 384) := List.replicate 8 0
  recovLen : Nat := 0
  /-- The predictor epoch of the service cores (R255); SEQ of the service slot that was loaded (R417). -/
  predEpoch : Nat := 0
  svcSeq : Nat := 0
  /-- The functions' configuration that the host writes, by 16 × endpoint + number. -/
  fns : Store FnCfg := []
  deriving DecidableEq, Repr

/-- The tag of a predictor entry of a service core (R255): its world, the privilege mode in which it was created, the predictor epoch. -/
structure PredTag where
  trusted : Bool
  prv : Nat
  epoch : Nat
  deriving DecidableEq, Repr

/-- A service hart, as far as the world extension and a thaw act on it (R249, R251, R261): mwcall.MINPRV; mwcstat; a0 to a5 as its last WCALL returned
them; the exception it was last made to take, as its mcause. Its core's predictor entries by their tags, and the lines of its L1 cache: the
number of a 64-byte line, and the world, T or not, of the access that filled it (R255). -/
structure HartSt where
  minprv : Nat := 0
  mwcstat : Nat := 0
  args : List W64 := []
  trap : Option Nat := none
  pred : List PredTag := []
  l1 : List (Nat × Bool) := []
  deriving DecidableEq, Repr

/-- A valid save that a start found, in the staging buffer (R462): its sector and its header and record. -/
structure FoundSave where
  sector : Nat
  bytes : List Byte
  deriving DecidableEq, Repr

/-- A save in progress (R455): the device state word and UPTIME_MS at SUPPLY_WARN. -/
structure SaveRun where
  word : Nat
  uptime : Nat
  deriving DecidableEq, Repr

/-- What the regulator bus does for a rail (R470, R472): nothing; reads VOUT_MODE; writes a voltage; waits for a raise to settle. -/
inductive RailPhase where
  | idle | mode | write | settle
  deriving DecidableEq, Repr

/-- A variable rail with its regulator (R470 to R472): its exponent, once read; the voltage it has settled at, the voltage last
requested (0: none), the voltage of the write in progress, in mV; attempts made of the transaction in progress; whether a voltage was written since VOUT_MODE
was read. -/
structure RailSt where
  exp : Option Int := none
  mv : Nat := 0
  want : Nat := 0
  writing : Nat := 0
  phase : RailPhase := .idle
  tries : Nat := 0
  told : Bool := false
  deriving DecidableEq, Repr

/-- Reset, supply and rails beyond their registers (R434, R435, R453, R470 to R476): nRESET is high; POR is asserted; the device is held
in reset by SUPPLY_WARN; it is in reset at all; BOOTSEL as last sampled; LAST_START of the start that comes or came; RESET_OUTn is
released; a dip of VIN_SENSE is being timed; the found save; the save in progress; rails 0 PIPE, 1 GPU, 2 SRAM;
the rail whose transaction the regulator bus carries. (DEDUCED, log entry 7) -/
structure PowerSt where
  nreset : Bool := false
  por : Bool := false
  held : Bool := false
  inReset : Bool := true
  bootsel : Nat := 0
  cause : Nat := 0
  resetOut : Bool := false
  dip : Bool := false
  found : Option FoundSave := none
  save : Option SaveRun := none
  rails : Store RailSt := []
  bus : Option Nat := none
  deriving DecidableEq, Repr

/-- A requester (R376): its class, its source (a node; 0x80 + stall), its stall where it came through a mailbox. -/
structure Req where
  cls : Nat
  src : Nat
  deriving DecidableEq, Repr

/-- A message taken apart: header, payload with padding, trailer, and the bytes from the header through CTR. -/
structure SmHdr where
  alive : Nat
  trans : Nat
  seg : Nat
  rsv : Bool
  more : Bool
  auth : Bool
  resp : Bool
  pl : List Byte
  ctr : Nat
  tag : List Byte
  covered : List Byte
  deriving DecidableEq, Repr

/-- An accepted message: way and PRIO; requester; DEST and SRC as they stood; addressed to node 0; served by the boot ROM (R403); time in µs; whether a read across crossings
fails to settle. (DESIGN CHOICE, log entry 58) -/
structure SmCtx where
  via : SmVia
  prio : Nat
  svc : Nat
  q : Req
  dest : Nat
  h : SmHdr
  bcast : Bool
  factory : Bool
  stale : Bool := false
  authOk : Bool := true
  t : Nat
  deriving DecidableEq, Repr

/-- A session (R391): its host, its key, the last accepted CTR. -/
structure SmSession where
  host : Nat
  key : BitVec 128
  ctr : Nat
  deriving DecidableEq, Repr

/-- The alive record of a source (R386): TRANS and ALIVE of its last executed request, its service, its response with the device's ALIVE (none
to a broadcast); whether the next request's ALIVE goes unchecked, its session having opened. -/
structure SmAlive where
  src : Nat
  trans : Nat
  alive : Nat
  svc : Nat := 0
  resp : Option (SmResp × Nat)
  noCheck : Bool := false
  deriving DecidableEq, Repr

/-- A WRITE_BLOCK in assembly (R381): its source, TRANS and ALIVE, the entry, the next SEG, the parts that arrived with their offsets;
whether it is spoilt, by the status to answer. -/
structure SmBlock where
  src : Nat
  trans : Nat
  alive : Nat
  key : Nat
  seg : Nat
  parts : List (Nat × List Byte)
  bad : Option Nat
  deriving DecidableEq, Repr

/-- A long operation (R397, R398): STATE, PROGRESS, RESULT, ARG, OWNER, PENDING; whether a cancel point remains; the position of its
last suspend point (CHECKPOINT, R457). -/
structure OpSt where
  state : Nat := 0
  progress : Nat := 0
  result : Nat := 0
  arg : List Byte := List.replicate 32 0
  owner : Nat := 0
  pend : Nat := 0
  cancellable : Bool := true
  atPoint : Bool := false
  check : Nat := 0
  /-- Full sectors still to be compacted (R317). -/
  todo : List Nat := []
  deriving DecidableEq, Repr

/-- A mark (R395): the pipe, when it arrived in µs, and the ARM_AFTER_MARK held for it. -/
structure SmMark where
  pipe : Nat
  at_ : Nat
  arm : Option Nat := none
  deriving DecidableEq, Repr

/-- A ledger export (R401): the next slot to send, the LG_WR it sampled, slots in the message that waits, repeats made, slots acknowledged. -/
structure SmExport where
  first : Nat
  limit : Nat
  sent : Nat
  tries : Nat
  acked : Nat
  deriving DecidableEq, Repr

/-- Smiser and the dictionary (chapters 15 and 16). `dict`: values of dictionary-only entries as READ returns them, by INDEX × 256 + SUB;
`inForce`: those of class B that are in force. Sessions; alive records; blocks in assembly; device nonces by host; attestation nonces
and tally lists by source; shadows of the dictionary's counters by sub-index; long operations; the staged image and its length; the export; the
pending mark, the marked pipe, whether a mark is valid; heartbeats sent, whether one is still unsent; the device's alive counters by node, and that
of its heartbeats at 256; frames that wait for the bus, with the source that a response answers; requests that wait, oldest first; the way by
which a host was last heard; the node reset that waits; HOST_LOST; thermal readings in 1/16 °C; when the last thermal NOTIFY was sent, in µs; the lengths of mailbox
requests by stall (R223). -/
structure SmSt where
  dict : Store (List Byte) := []
  inForce : Store (List Byte) := []
  sessions : List SmSession := []
  alive : List SmAlive := []
  blocks : List SmBlock := []
  devNonce : Store (Option (BitVec 128)) := []
  attNonce : Store (Option (List Byte)) := []
  tsList : Store (List Byte) := []
  cnt : Store W64 := []
  ops : Store OpSt := []
  stage : Store Byte := []
  stageLen : Nat := 0
  exprt : Option SmExport := none
  mark : Option SmMark := none
  markPipe : Nat := 0
  markValid : Bool := false
  hbSent : Nat := 0
  hbDue : Bool := false
  devAlive : Store Nat := []
  tx : List (Option Nat × Out) := []
  waiting : List SmCtx := []
  route : Store (Option SmVia) := []
  nodeReset : Option Nat := none
  hostLost : Bool := false
  temps : List Int := []
  lastWarn : Option Nat := none
  mbLen : Store Nat := []
  deriving DecidableEq, Repr

/-- The state. Registers (R3) are held by address; unlisted addresses hold their reset values (Machine/RegMap.lean). -/
structure State where
  /-- Registers: settings as written, status as the device sets it. -/
  regs : Store W64
  /-- Settings of class F in force (R7, R67), by the register's address. -/
  force : Store W64
  /-- Settings of display pipes that the frame now scanned uses: those in force at its frame boundary (R98, R101). -/
  scan : Store W64
  /-- Live counters (R10, R12), by the address of their shadow slot. -/
  live : Store W64
  /-- Last agreed value of agreed registers whose read disagreed (R19, R20). -/
  agreed : Store W64
  /-- Low words held for 64-bit registers (R488), by address. -/
  heldLow : Store W64
  /-- Held high half of a KEVT entry read as two words (R262). -/
  kevtHeld : Option W32
  /-- Keeper events waiting, oldest first (R262). -/
  kevq : List W64
  /-- Bit h: SVC_VRECh has been read since hart h was frozen (R261). -/
  vrecRead : Nat
  /-- Masters frozen by a violation: stall, MASTER code, INST (R233). -/
  frozen : List (Nat × Nat × Nat)
  /-- Market SRAM, DRAM and eNVM by offset (R4). -/
  sram : Store Byte
  dram : Store Byte
  /-- Errors held by 64-bit words of SRAM and DRAM, by physical address / 8: 0 none, 1 a single bit, 2 uncorrectable (R299, R305). -/
  ecc : Store Nat
  /-- Translations the stall gate holds (R215): key stall × 2^20 + stall address bits 35:16; value 1 + target page × 8 +
  bit 2 SRAM, bit 1 W, bit 0 R. -/
  tlb : Store Nat
  env : Store Byte
  tally : TallySt
  /-- The display pipes by number. -/
  pipes : Store PipeSt
  led : LedgerSt
  /-- The queues by number; the queue after which the round-robin admission of a stall goes on, plus 1 (R231). -/
  queues : Store QueueSt
  admitted : Store Nat
  gpu : GpuSt
  /-- Data-mover channels by 8e + c, engines by e. -/
  dmCh : Store DmCh
  dmEng : Store DmEng
  /-- Stalls, as bits, whose writes the gate drops from the squash to RESET_DONE (R239). -/
  squashed : Nat
  /-- Pages and grains being cleared: for a stall, or 16 for a grain that a unit gave back; SRAM; number (R216, R217). -/
  clearing : List (Nat × Bool × Nat)
  boot : BootSt
  /-- The service harts; the keeper's last exception, as its mcause (R4, R249, R250). -/
  harts : Store HartSt
  keeperTrap : Option Nat
  power : PowerSt
  sm : SmSt
  mem : MemSt
  msr : MsrSt
  nvm : NvmSt
  /-- Touch panels; consecutive scans in which a line met a fault condition, by 128 × front end + drive line, or + 64 + sense line. -/
  panels : Store PanelSt
  lineRuns : Store Nat
  streams : Store StreamSt
  haps : Store HapSt
  caps : Store CapSt
  mix : MixSt
  /-- SYNC_OUT0 and 1: asserted by a frame boundary (R64), as bits; the levels of SYNC_IN0 to 3, as bits (R63). -/
  syncOut : Nat
  syncIn : Nat
  resp : Resp
  out : List Out
  /-- The model's own: how many free values were used. -/
  fresh : Nat
  /-- Commands waiting, first in, first out. -/
  pending : List Instr
  deriving DecidableEq, Repr

/-- The state after reset. (DEDUCED, log entry 7; DESIGN CHOICE, log entry 105) -/
def State.reset : State :=
  { regs := [], force := [], scan := [], live := [], agreed := [], heldLow := [], kevtHeld := none, kevq := [], vrecRead := 0, frozen := []
    sram := [], dram := [], ecc := [], tlb := [], env := [], tally := {}, pipes := [], led := {}, queues := [], admitted := [], gpu := {}, dmCh := [], dmEng := [], squashed := 0, clearing := [], boot := {}, harts := [], keeperTrap := none, power := {}, sm := {}, mem := {}, msr := {}, nvm := {}, panels := [], lineRuns := [], streams := [], haps := [], caps := [], mix := {}, syncOut := 0, syncIn := 0, resp := .none, out := [], fresh := 0, pending := [] }

end Sys2Proof.Machine
end

