-- ==== Sys2Proof/Machine/Ops.lean ====
section
/-! DEFINITION. Machine/Ops.lean: the named operations over the state: registers and their fields, settings in force, counters,
keeper events, interrupts of stalls, memories. Every meaning reads and writes the state through these. -/
namespace Sys2Proof.Machine

/-! ### The register map looked up -/

/-- The kind of block a block ID has (R3); `kBare` for blocks with the common crossing page only. -/
def blkKindOf (id : Nat) : BlkKind :=
  if id = 0x00 then .kAON else if id = 0x01 then .kTEL else if id = 0x02 then .kKPR else if id = 0x05 then .kMSR
  else if id = 0x06 then .kNVM else if 0x08 ≤ id ∧ id ≤ 0x0B then .kMC else if id = 0x0C then .kLGR
  else if 0x10 ≤ id ∧ id ≤ 0x17 then .kPIPE else if 0x18 ≤ id ∧ id ≤ 0x1F then .kOUT else if id = 0x20 then .kRFE
  else if 0x21 ≤ id ∧ id ≤ 0x24 then .kSHI else if 0x28 ≤ id ∧ id ≤ 0x2B then .kDM else if 0x2C ≤ id ∧ id ≤ 0x2D then .kCVU
  else if 0x30 ≤ id ∧ id ≤ 0x33 then .kTFE else if id = 0x34 then .kAHX else if id = 0x40 then .kQST else .kBare

/-- The number of a block among those of its kind. -/
def blkUnit (id : Nat) : Nat :=
  match blkKindOf id with
  | .kMC => id - 0x08 | .kPIPE => id - 0x10 | .kOUT => id - 0x18 | .kSHI => id - 0x21 | .kDM => id - 0x28
  | .kCVU => id - 0x2C | .kTFE => id - 0x30 | _ => 0

/-- The assigned block IDs (R3, R4). -/
def blkAssigned (id : Nat) : Bool :=
  decide (blkKindOf id ≠ .kBare) || decide (id ∈ [0x03, 0x04, 0x07, 0x38, 0x3C, 0x3D])

/-- Does offset `off` hold an instance of the register? -/
def RegDef.covers (d : RegDef) (off : Nat) : Bool :=
  decide (d.off ≤ off) && decide ((off - d.off) % d.stride = 0) && decide ((off - d.off) / d.stride < d.n)

/-- The register at an offset of a block kind. -/
def findReg : List RegDef → Nat → Option RegDef
  | [], _ => none
  | d :: l, off => if d.covers off then some d else findReg l off

/-- The register at an address: its definition, the unit number of its block, its instance. -/
def lookupReg (a : Nat) : Option (RegDef × Nat × Nat) :=
  let mk (u off : Nat) (r : Option RegDef) := r.map (fun d => (d, u, (off - d.off) / d.stride))
  if 0x10000000000 ≤ a then
    let off := (a - 0x10000000000) % 0x10000
    mk ((a - 0x10000000000) / 0x10000) off (findReg regsBAR0 off)
  else if 0x10000000 ≤ a ∧ a < 0x11000000 then
    let id := (a - 0x10000000) / 0x10000
    let off := (a - 0x10000000) % 0x10000
    if blkAssigned id = false then none
    else if 0xFF00 ≤ off then mk 0 off (findReg regsXP off)
    else
      match findReg (blkKindOf id).regs off with
      | none => none
      | some d => if decide (id ≠ 0x08) && (blkKindOf id == .kMC) && mc0Only.contains d.name then none
                  else mk (blkUnit id) off (some d)
  else none

/-- The reset word of a register, from its fields. -/
def RegDef.resetWord (d : RegDef) (u i : Nat) : W64 :=
  BitVec.ofNat 64 (d.fields.foldl (fun acc f => acc + f.reset * 2 ^ f.lo) 0 + d.addBlk * u + d.addIdx * i)

/-- Is this address the vector control word of an MSI-X vector in a function's BAR0? (PRESUMED, log entry 35) -/
def isVectorControl (a : Nat) : Bool := a / 0x10000000000 == 1 && a % 0x10000 / 1024 == 28 && a % 16 == 12

/-- What a register holds at reset, by its address. MSI-X vectors are masked at reset, as PCIe defines (R220; PRESUMED, log entry 35). (DESIGN CHOICE, log entry 8; PRESUMED, log entry 35) -/
def resetWord (a : Nat) : W64 :=
  if isVectorControl a then 1
  else match lookupReg a with
    | none => 0
    | some (d, u, i) => d.resetWord u i

/-! ### Fields of words -/

/-- The value of a field of a word. -/
def getFld (w : W64) (f : Fld) : Nat := (w.toNat / 2 ^ f.lo) % 2 ^ f.w

/-- The mask of a field. -/
def fldMask (f : Fld) : W64 := BitVec.ofNat 64 ((2 ^ f.w - 1) * 2 ^ f.lo)

/-- The word with a field replaced. -/
def putFld (w : W64) (f : Fld) (v : Nat) : W64 :=
  (w &&& ~~~(fldMask f)) ||| (BitVec.ofNat 64 ((v % 2 ^ f.w) * 2 ^ f.lo))

/-- A two's complement value of `n` bits as an integer. -/
def sx (n v : Nat) : Int := if v % 2 ^ n < 2 ^ (n - 1) then (v % 2 ^ n : Nat) else (v % 2 ^ n : Nat) - (2 ^ n : Nat)

/-- An integer as a field of `n` bits in two's complement. -/
def toTwos (n : Nat) (v : Int) : Nat := (v % (2 ^ n : Nat)).toNat

/-- Bit `i` of a number. -/
def bitOf (v i : Nat) : Bool := v / 2 ^ i % 2 == 1

/-- Set or clear bit `i` of a number. -/
def setBitN (v i : Nat) (b : Bool) : Nat :=
  let v0 := v - (v / 2 ^ i % 2) * 2 ^ i
  if b then v0 + 2 ^ i else v0

/-- The little-endian bytes of a number, `n` of them. -/
def bytesLE : Nat → Nat → List Byte
  | 0, _ => []
  | n + 1, v => BitVec.ofNat 8 v :: bytesLE n (v / 256)

/-- The number that little-endian bytes spell. -/
def ofBytesLE : List Byte → Nat
  | [] => 0
  | b :: l => b.toNat + 256 * ofBytesLE l

/-! ### Registers -/

/-- The word of the register at address `a`. -/
def State.rw (s : State) (a : Nat) : W64 := storeGet resetWord s.regs a
/-- The word of a register in force (class F). -/
def State.frw (s : State) (a : Nat) : W64 := storeGet resetWord s.force a
/-- A field of a register. -/
def State.rd (s : State) (a : Nat) (f : Fld) : Nat := getFld (s.rw a) f
/-- A field in force. -/
def State.frd (s : State) (a : Nat) (f : Fld) : Nat := getFld (s.frw a) f
/-- Is a field of a register not 0? -/
def State.on (s : State) (a : Nat) (f : Fld) : Bool := s.rd a f != 0
/-- Is a field in force not 0? -/
def State.fon (s : State) (a : Nat) (f : Fld) : Bool := s.frd a f != 0
/-- Replace the word of a register. -/
def State.setRw (s : State) (a : Nat) (w : W64) : State := { s with regs := storePut resetWord s.regs a w }
/-- Replace the word in force. -/
def State.setFrw (s : State) (a : Nat) (w : W64) : State := { s with force := storePut resetWord s.force a w }
/-- Replace a field of a register. -/
def State.wr (s : State) (a : Nat) (f : Fld) (v : Nat) : State := s.setRw a (putFld (s.rw a) f v)
/-- Replace a field in force. -/
def State.fwr (s : State) (a : Nat) (f : Fld) (v : Nat) : State := s.setFrw a (putFld (s.frw a) f v)
/-- The word of a setting that the frame now scanned uses, and a field of it. -/
def State.srw (s : State) (a : Nat) : W64 := storeGet resetWord s.scan a
def State.srd (s : State) (a : Nat) (f : Fld) : Nat := getFld (s.srw a) f
def State.son (s : State) (a : Nat) (f : Fld) : Bool := s.srd a f != 0
def State.setSrw (s : State) (a : Nat) (w : W64) : State := { s with scan := storePut resetWord s.scan a w }
/-- The written value of a class-F register comes into force. -/
def State.latch (s : State) (a : Nat) : State := s.setFrw a (s.rw a)

/-- The distance from b up to a, for 32-bit running numbers that wrap. -/
def since32 (a b : Nat) : Nat := (2 ^ 32 + a - b) % 2 ^ 32

/-- 1 for true. -/
def b2n (b : Bool) : Nat := if b then 1 else 0

/-! ### Counters (R10, R11, R26) -/

/-- The live value behind a shadow slot. -/
def State.lv (s : State) (a : Nat) : W64 := storeGet (fun _ => 0) s.live a
/-- Set a live value. -/
def State.setLv (s : State) (a : Nat) (w : W64) : State := { s with live := storePut (fun _ => 0) s.live a w }
/-- Say something to the outside. (DESIGN CHOICE, log entry 5) -/
def State.emit (s : State) (o : Out) : State := { s with out := s.out ++ [o] }
/-- An event counter advances by `k`: 48 bits, wrapping. -/
def State.bumpEv (s : State) (a k : Nat) : State := s.setLv a (BitVec.ofNat 64 (((s.lv a).toNat + k) % 2 ^ 48))
/-- An error counter advances by 1: 16 bits, saturating with SAT (bit 16); the saturation event is raised on the increment
that reaches 0xFFFF and on no other (R26). (DEDUCED, log entry 15) -/
def State.bumpErr (s : State) (a : Nat) : State :=
  let v := (s.lv a).toNat
  if v < 0xFFFE then s.setLv a (BitVec.ofNat 64 (v + 1))
  else if v = 0xFFFE then (s.setLv a 0x1FFFF).emit (.saturated a)
  else s
/-- An error counter advances by 1, `k` times. -/
def State.bumpErrN (s : State) (a : Nat) : Nat → State
  | 0 => s
  | k + 1 => (s.bumpErr a).bumpErrN a k
/-- A frame counter advances by 1: 32-bit count and the epoch of its wraps above it. -/
def State.bumpFrame (s : State) (a : Nat) : State := s.bumpEv a 1
/-- A counter is cleared: count and SAT together (R11). -/
def State.clearCnt (s : State) (a : Nat) : State := s.setLv a 0

/-- The live counter of a dictionary-only entry of index 0x1100, by sub-index (R405); 0x30 is TEMP_HI. -/
def dictCtr (sub : Nat) : Nat := 2 ^ 60 + sub

/-- The number of UPTIME_MS among the captured counters of the dictionary. -/
def dictUptime : Nat := 0x31

/-! ### Free values and answers -/

/-- The next free value: nothing is known of it. (DESIGN CHOICE, log entry 6) -/
def State.free (s : State) : W64 := Config.freeValue s.fresh
/-- Move on to a fresh free value. (DESIGN CHOICE, log entry 6) -/
def State.useFree (s : State) : State := { s with fresh := s.fresh + 1 }
/-- Bytes of which nothing is known. (DESIGN CHOICE, log entry 6) -/
def State.freeBytes (s : State) (n : Nat) : List Byte := (List.range n).map (fun i => BitVec.ofNat 8 (Config.freeValue (s.fresh + i)).toNat)
def State.useFreeN (s : State) (n : Nat) : State := { s with fresh := s.fresh + n }
/-- What a command begins with: no answer and nothing said yet. (DESIGN CHOICE, log entries 2, 5) -/
def State.begin (s : State) : State := { s with resp := .none, out := [] }
/-- The answer to the access. (DESIGN CHOICE, log entry 5) -/
def State.answer (s : State) (r : Resp) : State := { s with resp := r }

/-! ### Refusals (R9, R18) -/

/-- The block base of a physical register address. -/
def blkIdOf (a : Nat) : Nat := (a - 0x10000000) / 0x10000 % 256

/-- The block of a register: that of its address; of the registers that only BAR0 shows, the pipe for a pitch slot, LGR for the
ledger submission and QST for the others. (DESIGN CHOICE, log entry 79) -/
def refBlk (a : Nat) : Nat :=
  let o := a % 0x10000
  if a < 0x10000000000 then blkIdOf a else if 0x5000 ≤ o ∧ o < 0x5800 then 0x10 + (o - 0x5000) / 0x100
  else if 0x5800 ≤ o ∧ o < 0x5828 then 0x0C else 0x40

/-- A refused write (R9, R67): XREFUSED of the block advances and XREF_OFFSET names the offset; the write is acknowledged. (DESIGN CHOICE, log entry 79) -/
def State.refuse (s : State) (a : Nat) : State :=
  ((s.bumpErr (rXREFUSED (refBlk a))).wr (rXREF_OFFSET (refBlk a)) fXREF_OFFSET_OFFSET (a % 0x10000)).answer .refused

/-- An access to an island that is off (R18): XREF_OFFSET keeps its value. (DESIGN CHOICE, log entry 79) -/
def State.refuseOff (s : State) (a : Nat) (write : Bool) : State :=
  (s.bumpErr (rXREFUSED (refBlk a))).answer (if write then .discarded else .errZero)

/-! ### Keeper events (R262) -/

/-- An event word. -/
def kevtWord (blk code inst info : Nat) : W64 :=
  BitVec.ofNat 64 (2 ^ 63 + 2 ^ 52 * (blk % 256) + 2 ^ 44 * (code % 256) + 2 ^ 32 * (inst % 4096) + info % 2 ^ 32)

/-- An event enters the keeper's queue; in a full queue it is lost. -/
def State.kevt (s : State) (blk code inst info : Nat) : State :=
  if s.kevq.length < 256 then
    ({ s with kevq := s.kevq ++ [kevtWord blk code inst info] }).wr rKEVT_LVL fKEVT_LVL_LEVEL (s.kevq.length + 1)
  else s.bumpErr rEVT_LOST

/-! ### Device state (R432, R433) -/

/-- STATE of DSTATE: 0x1 BOOT_ROM, 0x2 KEEPER_UP, 0x3 SERVICE_UP, 0x4 OPERATIONAL, 0x5 DEGRADED, 0x6 SAVING, 0x7 SAVED,
0x8 HALTED, 0x0 POWER_OFF. -/
def State.dstate (s : State) : Nat := s.rd rDSTATE fDSTATE_STATE_WORD % 16

/-- STATE changes: the word changes and the keeper event 0x0B DEVICE_STATE carries the new word (R433). -/
def State.toDstate (s : State) (k : Nat) : State :=
  if s.dstate = k then s
  else
    let w := s.rd rDSTATE fDSTATE_STATE_WORD / 16 * 16 + k
    (s.wr rDSTATE fDSTATE_STATE_WORD w).kevt 0x00 0x0B 0 w

/-- Is the device in SERVICE_UP, OPERATIONAL or DEGRADED? -/
def State.running (s : State) : Bool := decide (3 ≤ s.dstate ∧ s.dstate ≤ 5)

/-- Do the units do work of their own: out of reset, and not from SAVING on (R438)? -/
def State.works (s : State) : Bool := decide (1 ≤ s.dstate ∧ s.dstate < 6) && !s.power.inReset

/-! ### Islands (R13, R18) -/

/-- The island of a block (R3, R13). -/
def islandOf (id : Nat) : Nat :=
  match blkKindOf id with
  | .kAON | .kTEL => 30 | .kKPR => 0 | .kMSR => 20 | .kNVM | .kLGR => 29 | .kMC => 16 + (id - 0x08)
  | .kPIPE => 3 + (id - 0x10) | .kOUT => 3 + (id - 0x18) | .kRFE => 11 | .kSHI => 12 + (id - 0x21)
  | .kDM | .kCVU | .kQST => 2 | .kTFE => 21 + (id - 0x30) | .kAHX => 25
  | .kXP | .kBAR0 => 2
  | .kBare => if id = 0x03 then 1 else if id = 0x04 then 2 else if id = 0x07 then 29 else if id = 0x38 then 26
              else if id = 0x3C then 27 else 28

/-- Is island n powered? -/
def State.islandOn (s : State) (n : Nat) : Bool := s.rd (rISL_STAT n) fISL_STAT_PWR == 0

/-! ### Stalls (R210) and their interrupts (R220, R221) -/

/-- STATE of a stall: 0 FREE, 1 ACTIVE, 2 FROZEN, 3 DRAINING, 4 RESET, 5 CLEARING. -/
def State.stallState (s : State) (st : Nat) : Nat := s.rd (rSSTAT st) fSSTAT_STATE

/-- The endpoint whose PF is the manager's (R204). -/
def State.mgrEp (s : State) : Nat := ofBytesLE ((s.boot.cfg.drop 4).take 1) % 2

/-- The function of a stall: endpoint and number; S0's is fixed. -/
def State.binding (s : State) (st : Nat) : Nat × Nat :=
  if st = 0 then (s.mgrEp, 0) else (s.rd (rSCFG st) fSCFG_EP, s.rd (rSCFG st) fSCFG_FUNC)

/-- A function's configuration. -/
def State.fnCfg (s : State) (ep fn : Nat) : FnCfg := storeGet (fun _ => {}) s.boot.fns (16 * ep + fn)
def State.setFnCfg (s : State) (ep fn : Nat) (c : FnCfg) : State :=
  { s with boot := { s.boot with fns := storePut (fun _ => {}) s.boot.fns (16 * ep + fn) c } }
/-- The configuration of the function of a stall. -/
def State.stallFn (s : State) (st : Nat) : FnCfg := s.fnCfg (s.binding st).1 (s.binding st).2

/-- A message on vector `v`: none while MSI-X is not enabled; under the function's mask or the vector's it sets the pending bit instead (R220, MSI-X of PCIe). (PRESUMED, log entry 35) -/
def State.sendMsix (s : State) (st v : Nat) : State :=
  if (s.stallFn st).msixOn = false then s
  else if (s.stallFn st).msixMask || bitOf (s.rw (rMSIX st (4 * v + 3))).toNat 0 then
    s.setRw (rPBA st (v / 32)) (BitVec.ofNat 64 (setBitN (s.rw (rPBA st (v / 32))).toNat (v % 32) true))
  else s.emit (.msix st v)

/-- The vector that IVEC names for a source. -/
def State.ivec (s : State) (st src : Nat) : Nat := (s.rw (rIVEC st (src / 4))).toNat / 2 ^ (8 * (src % 4)) % 64

/-- Is a layer granted to a stall (R207)? -/
def State.layerGranted (s : State) (st p m : Nat) : Bool :=
  let b := 8 * p + m
  bitOf (if b < 32 then (s.rw (rGL_LO st)).toNat else (s.rw (rGL_HI st)).toNat) (b % 32)

/-- The stall that owns a layer: the one it is granted to, else S0 (R107). -/
def State.layerOwner (s : State) (p m : Nat) : Nat :=
  ((List.range 16).filter (fun st => s.layerGranted st p m && s.stallState st != 0)).headD 0

/-- Has a stall the grant that an interrupt source needs (R220): the queue; a layer of the pipe, which S0 has with each that is granted to no stall (R107), or its colour; its writeback; a touch panel; a haptic channel
or an audio stream; a data-mover channel or a check-value context? S0 alone has source 94. The other sources need none, and a pitch's
owner is its grant. (DEDUCED, log entry 99) -/
def State.hasSource (s : State) (st src : Nat) : Bool :=
  if src < 32 then bitOf (s.rw (rGQ_LO st)).toNat src
  else if src < 64 then bitOf (s.rw (rGQ_HI st)).toNat (src - 32)
  else if src < 72 then (List.range 8).any (fun m => s.layerGranted st (src - 64) m || (st == 0 && s.layerOwner (src - 64) m == 0)) ||
    bitOf (s.rd (rGPIPE st) fGPIPE_CLR) (src - 64)
  else if 80 ≤ src ∧ src < 88 then bitOf (s.rd (rGPIPE st) fGPIPE_WB) (src - 80)
  else if src = 91 then s.rd (rGMISC st) fGMISC_TP != 0
  else if src = 92 then s.rd (rGMISC st) fGMISC_HC != 0 || s.rw (rGAUD st) != 0 || (List.range 2).any (fun p => s.rd (rPORT_CFG p) fPORT_CFG_CAP_STALL == st)
  else if src = 93 then s.rw (rGDM st) != 0 || s.rd (rGMISC st) fGMISC_CV != 0
  else if src = 94 then st == 0
  else src != 95

/-- An interrupt source of a stall fires: no bit is set and no message sent while the stall is DRAINING, RESET or CLEARING
(R221), or FREE, or if it has no grant for the source; a message only when the bit was 0 and its IMASK bit is 1. -/
def State.irq (s : State) (st src : Nat) : State :=
  if (s.stallState st = 1 ∨ s.stallState st = 2) ∧ s.hasSource st src = true then
    let w := (s.rw (rISTAT st (src / 32))).toNat
    if bitOf w (src % 32) then s
    else
      let s' := s.setRw (rISTAT st (src / 32)) (BitVec.ofNat 64 (setBitN w (src % 32) true))
      if bitOf (s.rw (rIMASK st (src / 32))).toNat (src % 32) then s'.sendMsix st (s.ivec st src) else s'
  else s

/-- Change a stall's state; S0's source 94 fires (R220: a stall changed state). -/
def State.toStall (s : State) (st k : Nat) : State :=
  (s.wr (rSSTAT st) fSSTAT_STATE k).irq 0 94

/-! ### Violations (R233, R235, R261) -/

/-- A violation by a master of stall `st`: the record holds the first since the last THAW or START, VCOUNT advances, an ACTIVE
stall enters FROZEN, source 90 and S0's source 94 fire. -/
def State.violate (s : State) (st master reason inst : Nat) (addr : Nat) (write : Bool) : State :=
  let s1 := s.bumpErr (rVCOUNT st)
  let s2 :=
    if s.on (rSSTAT st) fSSTAT_VREC_VALID then s1
    else
      (((((((((s1.wr (rSSTAT st) fSSTAT_VREC_VALID 1).wr (rVKIND st) fVKIND_MASTER master).wr (rVKIND st) fVKIND_REASON reason).wr
        (rVKIND st) fVKIND_INST inst).wr (rVKIND st) fVKIND_WRITE (b2n write)).wr (rVKIND st) fVKIND_ADDR63 (addr / 2 ^ 63)).wr
        (rVKIND st) fVKIND_ADDR62 (addr / 2 ^ 62)).wr (rVADDR_LO st) fVADDR_LO_ADDR addr).wr (rVADDR_HI st) fVADDR_HI_ADDR
        (addr / 2 ^ 31))
  let s3 := if s.stallState st = 1 then s2.wr (rSSTAT st) fSSTAT_STATE 2 else s2
  let s4 := if s3.frozen.contains (st, master, inst) then s3 else { s3 with frozen := s3.frozen ++ [(st, master, inst)] }
  (s4.irq st 90).irq 0 94

/-- Is a master of a stall frozen? -/
def State.masterFrozen (s : State) (st kind inst : Nat) : Bool := s.frozen.contains (st, kind, inst)

/-! ### Queues (R207, R227, R231) -/

/-- A queue beyond its registers. -/
def queueDflt (_ : Nat) : QueueSt := {}
def State.queue (s : State) (q : Nat) : QueueSt := storeGet queueDflt s.queues q
def State.modQueue (s : State) (q : Nat) (f : QueueSt → QueueSt) : State :=
  { s with queues := storePut queueDflt s.queues q (f (s.queue q)) }

/-- Is a queue granted to a stall, by its stall entry (R207)? -/
def State.queueGranted (s : State) (st q : Nat) : Bool :=
  bitOf (if q < 32 then (s.rw (rGQ_LO st)).toNat else (s.rw (rGQ_HI st)).toNat) (q % 32)

/-- The stall, not FREE, to which a queue is granted. -/
def State.queueOwner (s : State) (q : Nat) : Option Nat :=
  (List.range 16).find? (fun st => s.stallState st != 0 && s.queueGranted st q)

/-- Items of a stall that are admitted and not completed (R231). -/
def State.outstanding (s : State) (st : Nat) : Nat :=
  (List.range 64).foldl (fun n q => if s.queueOwner q = some st then n + (s.queue q).items.length else n) 0

/-- The admission limit in force (R231, R493). (DEDUCED, log entry 31) -/
def State.admitMax (s : State) (st : Nat) : Nat :=
  if st = 0 then s.frd rGADM0 fGADM0_ADMIT_MAX else s.frd (rGADM (st - 1)) fGADM_ADMIT_MAX

/-- Is there a descriptor to take in (R228, R229)? -/
def State.queueHas (s : State) (q : Nat) : Bool :=
  if s.on (rQCFG q) fQCFG_MODE then (s.queue q).next else s.rd (rQTAIL q) fQTAIL_TAIL != s.rd (rQHEAD q) fQHEAD_HEAD

/-- QSTAT.STATE of a queue (R227): 0 STOPPED, 1 RUNNING, 2 PARKED, 3 BLOCKED, 4 FROZEN, 5 STOPPING. -/
def State.queueState (s : State) (q : Nat) : Nat :=
  let x := s.queue q
  match x.run, s.queueOwner q with
  | .stopped, _ => 0
  | .stopping, _ => 5
  | .running, none => 1
  | .running, some st =>
    if s.stallState st = 2 ∨ s.masterFrozen st 1 q = true then 4
    else if s.on (rQCFG q) fQCFG_MODE && !x.next && !x.linking then 2
    else if s.queueHas q && decide (s.admitMax st ≤ s.outstanding st) then 3
    else 1

/-- A violation by service hart `h`: recorded, the hart is frozen, the keeper is told, SVC_VIOL advances (R261). -/
def State.hartViolate (s : State) (h kind : Nat) (addr : Nat) (write fetch : Bool) : State :=
  let s1 := (((((s.wr (rSVC_VREC h) fSVC_VREC_KIND kind).wr (rSVC_VREC h) fSVC_VREC_WRITE (b2n write)).wr (rSVC_VREC h)
    fSVC_VREC_FETCH (b2n fetch)).wr (rSVC_VADDR_LO h) fSVC_VADDR_LO_ADDR addr).wr (rSVC_VADDR_HI h) fSVC_VADDR_HI_ADDR
    (addr / 2 ^ 31))
  let s2 := s1.wr rSVC_STAT fSVC_STAT_FROZEN (setBitN (s.rd rSVC_STAT fSVC_STAT_FROZEN) h true)
  (({ s2 with vrecRead := setBitN s.vrecRead h false }).bumpErr rSVC_VIOL).kevt 0x02 0x07 h 0

/-! ### Memories -/

/-- Bytes of SRAM, DRAM and eNVM: an unlisted SRAM or DRAM byte reads 0 (log entry), an unlisted eNVM byte reads 0xFF, erased. (DESIGN CHOICE, log entry 9) -/
def ramDflt (_ : Nat) : Byte := 0
/-- As its section says. (DESIGN CHOICE, log entry 9) -/
def envDflt (_ : Nat) : Byte := 0xFF
/-- As its section says. (DESIGN CHOICE, log entry 9) -/
def State.sramB (s : State) (o : Nat) : Byte := storeGet ramDflt s.sram o
/-- As its section says. (DESIGN CHOICE, log entry 9) -/
def State.dramB (s : State) (o : Nat) : Byte := storeGet ramDflt s.dram o
/-- As its section says. (DESIGN CHOICE, log entry 9) -/
def State.envB (s : State) (o : Nat) : Byte := storeGet envDflt s.env o

/-- Bytes of a store from `a` on. -/
def storeBytes (d : Nat → Byte) (m : Store Byte) (a : Nat) : Nat → List Byte
  | 0 => []
  | n + 1 => storeGet d m a :: storeBytes d m (a + 1) n

/-- Write bytes into a store from `a` on. -/
def storePutBytes (d : Nat → Byte) (m : Store Byte) (a : Nat) : List Byte → Store Byte
  | [] => m
  | b :: l => storePutBytes d (storePut d m a b) (a + 1) l

def State.sramRead (s : State) (o n : Nat) : List Byte := storeBytes ramDflt s.sram o n
def State.dramRead (s : State) (o n : Nat) : List Byte := storeBytes ramDflt s.dram o n
def State.envRead (s : State) (o n : Nat) : List Byte := storeBytes envDflt s.env o n
def State.sramWrite (s : State) (o : Nat) (b : List Byte) : State := { s with sram := storePutBytes ramDflt s.sram o b }
def State.dramWrite (s : State) (o : Nat) (b : List Byte) : State := { s with dram := storePutBytes ramDflt s.dram o b }
def State.envWrite (s : State) (o : Nat) (b : List Byte) : State := { s with env := storePutBytes envDflt s.env o b }
/-- Only the bytes at the offsets that `keep` allows stay; the others read as never written. -/
def State.sramKeep (s : State) (keep : Nat → Bool) : State := { s with sram := s.sram.filter (fun p => keep p.1) }
def State.dramKeep (s : State) (keep : Nat → Bool) : State := { s with dram := s.dram.filter (fun p => keep p.1) }
def State.envKeep (s : State) (keep : Nat → Bool) : State := { s with env := s.env.filter (fun p => keep p.1) }

/-- The canonical form of the memories: listed addresses rise strictly, and no listed byte equals what an unlisted address reads as. -/
def Memory.wf (s : State) : Bool := storeWf ramDflt s.sram && storeWf ramDflt s.dram && storeWf envDflt s.env

/-- Fold a state over the numbers below n. -/
def overN (n : Nat) (f : Nat → State → State) (s : State) : State := (List.range n).foldl (fun s i => f i s) s

/-- Run only if the guard holds; otherwise the command has no effect. (DESIGN CHOICE, log entry 2) -/
def State.guard (s : State) (b : Bool) (f : State → State) : State := if b then f s else s

end Sys2Proof.Machine
end

