-- ==== Sys2Proof/Machine/Bus.lean ====
section
/-! DEFINITION. Machine/Bus.lean: who may make which register access, and what a write does to a register by its class. -/
namespace Sys2Proof.Machine

/-- What the checks before an access say. -/
inductive Gate where
  | ok                                  -- the access reaches the register
  | dead                                -- its maker retires nothing: a hart not released, frozen, or waiting in a WCALL
  | clkpwr (isl : Nat)                  -- a clock or power control of a trusted island (R260)
  | viol (kind reason : Nat)            -- a violation: VKIND.KIND of a hart (R278), REASON of a stall (R214, R494)
  | refused                             -- refused by the device state (R440, R441)
  | off                                 -- the island is off (R18)
  | unbound                             -- the function is bound to no stall that exists (R204)
  | barClosed                           -- the stall is FROZEN, DRAINING, RESET or CLEARING (R210, R236)
  deriving DecidableEq, Repr

/-- Is the maker in world T (R248)? (DEDUCED, log entry 38) -/
def whoTrusted : Who → Bool
  | .keeper => true
  | _ => false

/-- Does the WORLD_MAP make a block trusted (R256, R257)? -/
def State.blkTrusted (s : State) (id : Nat) : Bool :=
  decide (id ∈ [0x02, 0x06, 0x07]) || bitOf (s.rw (rWM_BLK (id / 32))).toNat (id % 32)

/-- The interrupt line of a block that has event and enable registers (data movers, R333; touch front ends, R359). -/
def State.blockLine (s : State) (id : Nat) : Bool :=
  match blkKindOf id with
  | .kDM => s.rw (rDM_EVT (id - 0x28)) &&& s.rw (rDM_IEN (id - 0x28)) != 0
  | .kTFE => s.rw (rFE_EVT (id - 0x30)) &&& s.rw (rFE_IEN (id - 0x30)) != 0
  | _ => false

/-- A change of a block's line, or of where it goes, since state `old` reaches the keeper if the block is trusted, the service cores otherwise (R259). (DEDUCED, log entry 100) -/
def State.showIrq (s old : State) (id : Nat) : State :=
  let was := (old.blockLine id, old.blkTrusted id)
  let is := (s.blockLine id, s.blkTrusted id)
  if was = is then s
  else
    let s1 := if was.1 then s.emit (.irqLine id was.2 false) else s
    if is.1 then s1.emit (.irqLine id is.2 true) else s1

/-- Does the WORLD_MAP make a grain trusted? -/
def State.grainTrusted (s : State) (g : Nat) : Bool := bitOf (s.rw (rWM_GRN (g / 32))).toNat (g % 32)

/-- Are an island's clock and power controls trusted (R256, R257)? -/
def State.islTrusted (s : State) (n : Nat) : Bool :=
  decide (n = 0 ∨ n = 29 ∨ n = 30) || bitOf (s.rw rWM_ISL).toNat n

/-- The island whose clock and power control stands at an address (R260: AON.ISL_CTRLn). -/
def clkCtrlAt (a : Nat) : Option Nat :=
  if rISL_CTRL 0 ≤ a ∧ a ≤ rISL_CTRL 30 then some ((a - rISL_CTRL 0) / 4) else none

/-- The offset ranges that are trusted in every WORLD_MAP (R257), with SUPPLY_CFG (R454), REG_CFG and GPIO_TMASK (R473). -/
def fixedItem (a : Nat) : Bool :=
  let id := blkIdOf a
  let off := a % 0x10000
  match blkKindOf id with
  | .kPIPE => decide (0x0C00 ≤ off ∧ off ≤ 0x0C1F) || decide (0x0C40 ≤ off ∧ off ≤ 0x0C5F) ||
      decide (0x5000 ≤ off ∧ off ≤ 0x540B) || decide (0x030C ≤ off ∧ off ≤ 0x0317)
  | .kLGR => decide (off ≤ 0x000B)
  | .kAON => decide (a = rSUPPLY_CFG) || decide (a = rREG_CFG) || decide (a = rGPIO_TMASK)
  | _ => false

/-- Identity, boot status and device state of AON: read in every world (R5, R268, R433). -/
def openRead (a : Nat) : Bool := decide (a = rIDENT) || decide (a = rAON_BOOT_STAT) || decide (a = rDSTATE)

/-- What the WORLD_MAP says of an N access to a register (R258, R260). -/
def State.worldCheck (s : State) (a : Nat) (write : Bool) : Gate :=
  match clkCtrlAt a with
  | some n => if write && s.islTrusted n then .clkpwr n else .ok
  | none =>
    if !write && (openRead a || fixedItem a) then .ok
    else if s.blkTrusted (blkIdOf a) then .viol 1 8
    else if write && fixedItem a then .viol 3 8
    else .ok

/-- What the device state says of a write (R440, R441): in SAVING, SAVED, HALTED none; in BOOT_ROM none but the boot ROM's
own; in KEEPER_UP the keeper's. -/
def State.stateCheck (s : State) (who : Who) : Bool :=
  if s.dstate = 2 then whoTrusted who else s.running

/-- Is an address a used offset of an assigned block (R4)? -/
def usedAddr (a : Nat) : Bool := (lookupReg a).isSome

/-- Is the register at an address 64 bits wide? -/
def isWide (a : Nat) : Bool := match lookupReg a with | some (d, _, _) => d.w64 | none => false

/-- The register that an address of a 32-bit access belongs to, and whether it is its high word (R488). -/
def regPlace (a : Nat) : Nat × Bool := if !usedAddr a && decide (4 ≤ a) && isWide (a - 4) then (a - 4, true) else (a, false)

/-! ### The control page of a function (R218) -/

/-- Is the maker of an access the manager, or in world T, which R248 accepts for it? The guests of stalls are not. -/
def isMgr : Who → Bool
  | .stall _ => false
  | _ => true

/-- Is a stall sealed (R209)? -/
def State.sealed (s : State) (st : Nat) : Bool := s.on (rSCFG st) fSCFG_SEALED

/-- The stall that owns a pitch by a PCFG word (R127): EN = 1, OWN_KEEPER = 0. -/
def pcfgOwner (w : W64) : Option Nat :=
  if getFld w fPCFG_EN = 1 ∧ getFld w fPCFG_OWN_KEEPER = 0 then some (getFld w fPCFG_STALL) else none

/-- Is a slot of the control page of stall `st` granted to it? -/
def State.barGranted (s : State) (st off : Nat) : Bool :=
  if 0x1000 ≤ off ∧ off < 0x1800 then s.queueGranted st ((off - 0x1000) / 0x20)
  else if 0x2000 ≤ off ∧ off < 0x3000 then s.layerGranted st ((off - 0x2000) / 0x200) ((off - 0x2000) / 0x40 % 8)
  else if 0x4000 ≤ off ∧ off < 0x4800 then s.layerGranted st ((off - 0x4000) / 0x100) ((off - 0x4000) / 0x20 % 8)
  else if 0x4800 ≤ off ∧ off < 0x4820 then (List.range 8).any (fun m => s.layerGranted st ((off - 0x4800) / 4) m)
  else if 0x5000 ≤ off ∧ off < 0x5800 then
    pcfgOwner (s.rw (rPCFG ((off - 0x5000) / 0x100) ((off - 0x5000) / 0x10 % 16))) == some st
  else if 0x5800 ≤ off ∧ off < 0x5828 then s.sealed st
  else true

/-- The register behind an offset of the control page; the identity page, reserved offsets and offsets not listed give none. -/
def barReg (st off : Nat) : Option Nat :=
  if 0x1000 ≤ off ∧ off < 0x1800 then
    let q := (off - 0x1000) / 0x20
    let o := (off - 0x1000) % 0x20
    if o = 0 then some (bar0Addr st off) else if o < 0x1C then some (rQTAIL q + (o - 4)) else none
  else if 0x2000 ≤ off ∧ off < 0x3000 then
    let p := (off - 0x2000) / 0x200
    let m := (off - 0x2000) / 0x40 % 8
    let o := (off - 0x2000) % 0x40
    if o < 0x18 then some (rLCFG p m + o) else if o < 0x34 then some (rCBUF_LO p m + (o - 0x18)) else none
  else if 0x3000 ≤ off ∧ off < 0x3200 then some (rFVAL (64 * st) + (off - 0x3000))
  else if 0x4000 ≤ off ∧ off < 0x4800 then
    let p := (off - 0x4000) / 0x100
    let m := (off - 0x4000) / 0x20 % 8
    let o := (off - 0x4000) % 0x20
    if o < 0x14 then some (rLTF_AB p m + o) else none
  else if 0x4800 ≤ off ∧ off < 0x4820 then some (rTTL ((off - 0x4800) / 4))
  else if 0x5000 ≤ off ∧ off < 0x5800 then
    let o := (off - 0x5000) % 0x10
    if o = 8 then some (rPSTAT ((off - 0x5000) / 0x100) ((off - 0x5000) / 0x10 % 16))
    else if o < 8 then some (bar0Addr st off) else none
  else if off < 0x100 then none
  else if (findReg regsBAR0 off).isSome then some (bar0Addr st off) else none

/-- Is an offset of the control page a reserved word of a slot, which reads 0 and ignores writes: of a layer slot (R119), a queue slot (R227), a
late-transform slot (R222), a pitch slot (R127)? -/
def barReserved (off : Nat) : Bool :=
  decide (0x1000 ≤ off ∧ off < 0x1800 ∧ off % 0x20 = 0x1C) || decide (0x2000 ≤ off ∧ off < 0x3000 ∧ 0x34 ≤ off % 0x40 ∧ off % 4 = 0) ||
    decide (0x4000 ≤ off ∧ off < 0x4800 ∧ 0x14 ≤ off % 0x20 ∧ off % 4 = 0) || decide (0x5000 ≤ off ∧ off < 0x5800 ∧ off % 0x10 = 0xC)

/-- The offset of a register in the control page of stall `st`, if it has one. -/
def barOffset (st a : Nat) : Option Nat :=
  if 0x10000000000 ≤ a then
    if (a - 0x10000000000) / 0x10000 = st then some ((a - 0x10000000000) % 0x10000) else none
  else
    let id := blkIdOf a
    let off := a % 0x10000
    if id = 0x40 then
      if off < 0x1000 ∧ 0x0C ≤ off % 0x40 ∧ off % 0x40 < 0x24 then some (0x1000 + 0x20 * (off / 0x40) + (off % 0x40 - 8))
      else if 0x8000 + 0x200 * st ≤ off ∧ off < 0x8200 + 0x200 * st then some (0x3000 + (off - 0x8000 - 0x200 * st))
      else none
    else if blkKindOf id = .kPIPE then
      let p := id - 0x10
      if 0x400 ≤ off ∧ off < 0x800 then
        let m := (off - 0x400) / 0x80
        let o := off % 0x80
        if o < 0x18 then some (0x2000 + 0x40 * (8 * p + m) + o)
        else if 0x20 ≤ o ∧ o < 0x34 then some (0x4000 + 0x20 * (8 * p + m) + (o - 0x20)) else none
      else if 0x100 ≤ off ∧ off < 0x300 then
        let m := (off - 0x100) / 0x40
        let o := (off - 0x100) % 0x40
        if o < 0x1C then some (0x2000 + 0x40 * (8 * p + m) + 0x18 + o) else none
      else if a = rTTL p then some (0x4800 + 4 * p)
      else if 0x5000 ≤ off ∧ off < 0x5400 ∧ off % 0x40 = 0x20 then some (0x5008 + 0x10 * (16 * p + (off - 0x5000) / 0x40))
      else none
    else none

/-- Is a register one that the holder of a pipe's colour grant writes: the colour page, the LUT windows, PCOMMIT (R87, R118)? -/
def colourReg (a : Nat) : Bool :=
  let off := a % 0x10000
  blkKindOf (blkIdOf a) == .kPIPE && (decide (0x800 ≤ off ∧ off < 0x828) || decide (0x1000 ≤ off ∧ off < 0x5000) || off == 0x304)

/-- Does stall `st` reach a register: through a slot granted to it, or, for the colour page, by the colour grant? (DEDUCED, log entry 38) -/
def State.reach (s : State) (st a : Nat) : Bool :=
  match barOffset st a with
  | none => decide (a < 0x10000000000) && colourReg a && bitOf (s.rd (rGPIPE st) fGPIPE_CLR) (blkUnit (blkIdOf a))
  | some off => s.barGranted st off && (a < 0x10000000000 || (barReg st off).isSome || barReserved off)

/-- Does the keeper execute nothing: in reset, off, LOST, or restarting and not yet in Zhotor (R274, R276)? -/
def State.keeperDead (s : State) : Bool :=
  s.power.inReset || !(s.islandOn 0) || s.rd rKSTAT fKSTAT_STATE == 3 || (s.rd rKSTAT fKSTAT_STATE == 2 && !s.boot.zhotor)

/-- Does a bound function's access to an offset of its control page reach it, in the stall's state (R210, R236)? -/
def State.barServed (s : State) (st off : Nat) (write : Bool) : Bool :=
  let k := s.stallState st
  k == 1 || (k == 2 && (decide (off < 0x40) || decide (0x100 ≤ off ∧ off < 0x180) || decide (0x7000 ≤ off ∧ off < 0x7400) || decide (0x7800 ≤ off ∧ off < 0x7808))) || (decide (3 ≤ k) && !write && decide (off < 0x40))

/-- The checks before a register access. From SAVING on every write is refused (R441). A guest reaches a register only through a slot granted to it (R214 CTRL), and an access of its in world N
follows the WORLD_MAP where the slot shows a register of a block (R248, R258); what a pitch slot shows of PSTAT is a copy of its own (R135). (DEDUCED, log entries 11, 38) -/
def State.gate (s : State) (who : Who) (a : Nat) (write : Bool) : Gate :=
  let common : Gate :=
    if write && !(s.stateCheck who) then .refused
    else if decide (a % 0x10000 < 0xFF00) && !(s.islandOn (islandOf (refBlk a))) then .off
    else .ok
  let shut := write && decide (6 ≤ s.dstate)
  match who with
  | .keeper => if s.keeperDead then .dead else if shut || usedAddr a then common else .viol 5 9
  | .hart h =>
    if s.islandOn 1 = false ∨ bitOf (s.rd rSVC_STAT fSVC_STAT_RUNNING) h = false ∨ bitOf (s.rd rSVC_STAT fSVC_STAT_FROZEN) h = true ∨
        bitOf (s.rd rSVC_STAT fSVC_STAT_IN_CALL) h = true then .dead
    else if shut then .refused
    else if usedAddr a = false then .viol 5 9
    else match s.worldCheck a write with
      | .ok => common
      | g => g
  | .mgr =>
    if s.stallState 0 = 0 then .unbound
    else if shut then .refused
    else if s.stallState 0 ≠ 1 then .barClosed
    else if usedAddr a = false then .viol 5 9
    else match s.worldCheck a write with
      | .ok => common
      | g => g
  | .stall st =>
    if s.stallState st = 0 then .unbound
    else if shut then .refused
    else if !(s.barServed st ((barOffset st a).getD 0x1000) write) then .barClosed
    else if s.reach st a = false then .viol 0 7
    else if decide (0x10000000000 ≤ a) || decide (0x5000 ≤ (barOffset st a).getD 0) then common
    else match s.worldCheck a write with
      | .ok => common
      | g => g

/-- A violation by the maker of an access: the keeper is never frozen and takes an access-fault exception, mcause 1 for a fetch, 5 or 7 (R4), a
hart is frozen (R261), a stall's function freezes its stall (R233). -/
def State.accessViolation (s : State) (who : Who) (kind reason a : Nat) (write fetch : Bool) : State :=
  match who with
  | .keeper => ({ s with keeperTrap := some (if write then 7 else if fetch then 1 else 5) }).answer (if write then .discarded else .errZero)
  | .hart h => (s.hartViolate h kind a write fetch).answer (if write then .discarded else .errZero)
  | .mgr => (s.violate 0 0 reason 0 a write).answer (if write then .discarded else .errZero)
  | .stall st => (s.violate st 0 reason 0 ((barOffset st a).getD a) write).answer (if write then .discarded else .errZero)

/-- The stall whose function makes the access. -/
def whoStall : Who → Nat
  | .stall st => st
  | _ => 0

/-- An access: the checks, then `k`, which acts on the register. (DEDUCED, log entry 11) -/
def State.access (s : State) (who : Who) (a : Nat) (write : Bool) (k : State → State) : State :=
  match s.gate who a write with
  | .ok => k (s.answer .ok)
  | .dead => s
  | .clkpwr n =>
    let s1 := (s.bumpErr rCLKPWR_REFUSED).kevt 0x00 0x08 n
      (match who with | .hart h => 0x100 + h | _ => (whoStall who))
    s1.accessViolation who 4 8 a true false
  | .viol kind reason => s.accessViolation who kind reason a write false
  | .refused => s.refuse a
  | .off => s.refuseOff a write
  | .unbound => s.answer .unsupported
  | .barClosed => (s.bumpErr (rBAR_REFUSED (whoStall who))).answer (if write then .discarded else .errZero)

/-- A write access. -/
def State.write (s : State) (who : Who) (a : Nat) (k : State → State) : State := s.access who a true k

/-! ### What a write does by class (R7, R9, R67, R486, R487) -/

/-- The bit field of a field definition. -/
def FieldDef.fld (f : FieldDef) : Fld := ⟨f.lo, f.hi + 1 - f.lo⟩

/-- Is a written value outside the field's range (R67)? (DEDUCED, log entry 12) -/
def FieldDef.badRange (f : FieldDef) (w : W64) : Bool :=
  f.acc != .ro && f.max != 0 &&
    !(decide (f.min ≤ getFld w f.fld) && decide (getFld w f.fld ≤ f.max) && decide ((getFld w f.fld - f.min) % f.step = 0))

/-- Does the register have only read-only fields (R486)? -/
def RegDef.readOnly (d : RegDef) : Bool := d.kind != .plain || d.fields.all (fun f => f.acc == .ro)

/-- A field that keeps its value under R9: class S while the unit is not stopped, class B when locked. (DEDUCED, log entry 13) -/
def FieldDef.kept (f : FieldDef) (stopped locked : Bool) : Bool :=
  (f.cls == .s && !stopped) || (f.cls == .b && locked)

/-- The register's word after a write of `w` in which the kept fields keep their values. (DEDUCED, log entry 13) -/
def RegDef.written (d : RegDef) (stopped locked : Bool) (old w : W64) : W64 :=
  d.fields.foldl (fun acc f =>
    match f.acc with
    | .rw => if f.kept stopped locked then acc else putFld acc f.fld (getFld w f.fld)
    | .w1c => acc &&& ~~~(w &&& fldMask f.fld)
    | _ => acc) old

/-- A write under the register table alone: discarded if all fields are read-only (R486); refused as a whole if a field is out
of range (R67) or if every field that could be written is kept (R9); otherwise the fields that are not kept take their values,
and a kept field that the write would change counts one refusal. (DEDUCED, log entries 12, 13) -/
def State.settingWrite (s : State) (a : Nat) (w : W64) (stopped locked : Bool) : State :=
  match lookupReg a with
  | none => s.answer .discarded
  | some (d, _, _) =>
    if d.readOnly then s.answer .discarded
    else if d.fields.any (fun f => f.badRange w) then s.refuse a
    else
      let ws := d.fields.filter (fun f => f.acc != .ro)
      if ws.all (fun f => f.kept stopped locked) then s.refuse a
      else
        let s1 := (s.setRw a (d.written stopped locked (s.rw a) w)).answer .ok
        if ws.any (fun f => f.kept stopped locked && getFld w f.fld != getFld (s.rw a) f.fld) then s1.refuse a else s1

/-- Would the register table refuse the write for a field out of range (R67)? -/
def regBadRange (a : Nat) (w : W64) : Bool :=
  match lookupReg a with
  | none => false
  | some (d, _, _) => d.fields.any (fun f => f.badRange w)

/-- Set a flag field of a word. -/
def wBit (w : W64) (f : Fld) : W64 := putFld w f 1

/-- A word as a 64-bit one. -/
def wide (w : W32) : W64 := w.setWidth 64

/-! ### Reads (R17, R20) -/

/-- Is a register read through an agreed crossing: it has STALE in bit 31 (R20)? -/
def isAgreed (a : Nat) : Bool :=
  match lookupReg a with
  | none => false
  | some (d, _, _) => d.fields.any (fun f => f.lo == 31 && f.name == "STALE")

/-- The value a read of a register returns. When four pairs of samples of an agreed register disagreed (`stale`), the read
returns the last agreed value with STALE set and XSTALE advances; otherwise the value read becomes the last agreed one. -/
def State.readReg (s : State) (a : Nat) (stale : Bool) : State :=
  if isAgreed a then
    if stale then
      let v := storeGet resetWord s.agreed a
      (s.bumpErr (rXSTALE (refBlk a))).answer (.data (v ||| 0x80000000#64))
    else
      ({ s with agreed := storePut resetWord s.agreed a (s.rw a) }).answer (.data (s.rw a))
  else s.answer (.data (s.rw a))

end Sys2Proof.Machine
end

