-- ==== Sys2Proof/Machine/Memory.lean ====
section
/-! DEFINITION. Machine/Memory.lean: market SRAM and DRAM by physical address: the address map, errors, whole and partial writes
(R280, R281, R288, R297, R299, R305, R309). -/
namespace Sys2Proof.Machine

def sramBase : Nat := 0x01000000
def sramSize : Nat := 0x03000000
def dramBase : Nat := 0x800000000

/-- The offset of an address in market SRAM or in DRAM, by the whole 16 MiB or 32 GiB below it: `a − sramBase`, `a − dramBase`. -/
def sramOff (a : Nat) : Nat := 2 ^ 24 * (a / 2 ^ 24 - 1) + a % 2 ^ 24
/-- As its section says. (DEDUCED, log entry 76) -/
def dramOff (a : Nat) : Nat := 2 ^ 35 * (a / 2 ^ 35 - 1) + a % 2 ^ 35

/-- Does a physical address lie in market SRAM, or in the DRAM range? -/
def isSram (a : Nat) : Bool := decide (sramBase ≤ a ∧ a < sramBase + sramSize)
/-- As its section says. (DEDUCED, log entry 76) -/
def isDram (a : Nat) : Bool := decide (dramBase ≤ a ∧ a < 0x1000000000)

/-- Channels of the map in ascending order (SURV of R280). -/
def State.surv (s : State) : List Nat := (List.range 4).filter (bitOf (s.rd rMAP_STAT fMAP_STAT_SURV))

/-- The capacity of the map in bytes (R281); 0 before it is built. -/
def State.capacity (s : State) : Nat :=
  if s.on rMAP_STAT fMAP_STAT_BUILT then (s.surv).length * 2 ^ (30 + s.rd (rMC_CFG (s.surv.headD 0)) fMC_CFG_CAP) else 0

/-- Where an offset lies: channel, subchannel, column, bank, row (R280). -/
structure DramPlace where
  channel : Nat
  sub : Nat
  column : Nat
  bank : Nat
  row : Nat
  deriving DecidableEq, Repr

/-- The address map over the channels of the map. -/
def dramPlace (surv : List Nat) (o : Nat) : DramPlace :=
  let n := max 1 surv.length
  let g := o / 4096
  let lg := g / n
  let b := o / 64 % 64
  { channel := surv.getD ((g + g / (256 * n)) % n) 0, sub := b % 2, column := b / 2
    bank := (lg % 16) ^^^ (lg / 16 % 16), row := lg / 16 }

/-- MC_STAT.STATE codes are 0 OFF, 1 TRAINING, 2 RUNNING, 3 RETRAIN, 4 FENCED. -/
def mcFENCED : Nat := 4

/-- Does every access to an offset complete with an error response: its channel is fenced (R288), or the device saves or has halted (R455)? -/
def State.dramFenced (s : State) (o : Nat) : Bool := decide (6 ≤ s.dstate) || s.rd (rMC_STAT (dramPlace s.surv o).channel) fMC_STAT_STATE == mcFENCED

/-- Has the 256 MiB region of an offset inline ECC (R297)? -/
def State.regionEcc (s : State) (o : Nat) : Bool :=
  bitOf (s.rw (rECC_MAP (o / 2 ^ 28 / 32))).toNat (o / 2 ^ 28 % 32)

/-- The error a 64-bit word holds, by its number. -/
def State.eccOf (s : State) (k : Nat) : Nat := storeGet (fun _ => 0) s.ecc k
def State.setEcc (s : State) (k v : Nat) : State := { s with ecc := storePut (fun _ => 0) s.ecc k v }

/-- Bytes of data in a 256 MiB region with ECC (R297): the upper 32 MiB hold check bytes. -/
def eccData : Nat := 0xE000000

/-- Is the word checked at all: SRAM words and the data words of a DRAM region with ECC? -/
def State.wordChecked (s : State) (k : Nat) : Bool :=
  isSram (8 * k) || (s.regionEcc (dramOff (8 * k)) && decide (dramOff (8 * k) % 2 ^ 28 < eccData))

/-- Bits of words are upset: one bit of a word without an error leaves a single-bit error, anything more an uncorrectable one. Each entry is an address
and whether more than one bit is upset. (DESIGN CHOICE, log entry 85) -/
def State.upset (s : State) (l : List (BitVec 36 × Bool)) : State :=
  l.foldl (fun s u =>
    let k := u.1.toNat / 8
    if s.wordChecked k && (isSram (8 * k) || isDram (8 * k)) then s.setEcc k (if u.2 || s.eccOf k != 0 then 2 else 1) else s) s

/-- The words that n bytes at a touch. -/
def wordsOf (a n : Nat) : List Nat := (List.range ((a % 8 + n + 7) / 8)).map (fun i => a / 8 + i)

/-! ### Subchannels (R289, R292) -/

def subDflt (_ : Nat) : SubSt := {}
/-- Subchannel `sc` of channel `ch`. -/
def State.sub (s : State) (ch sc : Nat) : SubSt := storeGet subDflt s.mem.sub (2 * ch + sc)
def State.modSub (s : State) (ch sc : Nat) (f : SubSt → SubSt) : State :=
  { s with mem := { s.mem with sub := storePut subDflt s.mem.sub (2 * ch + sc) (f (s.sub ch sc)) } }

/-- The PANIC vector a controller sees (R292). -/
def State.mcPanic (s : State) (ch : Nat) : Nat := storeGet (fun _ => 0) s.mem.panic ch

/-- A drain starts at WR_HIGH queued writes, not under panic, and ends at WR_LOW. -/
def State.updateDrain (s : State) (ch sc : Nat) : State :=
  let n := (s.sub ch sc).wq.length
  let may := decide (s.mcPanic ch = 0) && decide (s.rd (rSCHED_CFG ch) fSCHED_CFG_WR_LOW < n)
  let start := decide (s.rd (rSCHED_CFG ch) fSCHED_CFG_WR_HIGH ≤ n)
  s.modSub ch sc (fun x => { x with drain := may && (x.drain || start) })

/-- Write-backs that wait enter the write queue while it has room, as class-0 requests. -/
def State.fillFixes (s : State) (ch sc : Nat) : State :=
  (s.modSub ch sc (fun x =>
    let l := x.fixes.take (32 - x.wq.length)
    { x with wq := x.wq ++ l.zipIdx.map (fun p => { write := true, off := p.1.1, src := .back, num := x.count + p.2, fix := p.1.2 })
             fixes := x.fixes.drop (32 - x.wq.length), count := x.count + l.length })).updateDrain ch sc

/-- The corrected block of word k is to be written back as class-0 traffic (R299): its words but those with an uncorrectable error. (DEDUCED, log entry 48) -/
def State.queueFix (s : State) (k : Nat) : State :=
  let o := dramOff (8 * k) / 64 * 64
  let pl := dramPlace s.surv o
  let x := s.sub pl.channel pl.sub
  if x.wq.any (fun r => r.off == o && r.fix != 0) || x.fixes.any (fun f => f.1 == o) then s
  else
    let words := (List.range 8).foldl (fun m i => if s.eccOf (k / 8 * 8 + i) = 2 then m else m + 2 ^ i) 0
    (s.modSub pl.channel pl.sub (fun x => { x with fixes := x.fixes ++ [(o, words)] })).fillFixes pl.channel pl.sub

/-! ### Errors -/

/-- A single-bit error met by a read is counted. -/
def State.countCe (s : State) (k : Nat) : State :=
  if isSram (8 * k) then s.bumpErr rMSR_CE else s.bumpErr (rCE (dramPlace s.surv (dramOff (8 * k))).channel)

/-- A single-bit error met by a read is counted and corrected: in SRAM at once, in DRAM by a write-back of its block (R299, R309). -/
def State.correctWord (s : State) (k : Nat) : State :=
  if isSram (8 * k) then (s.countCe k).setEcc k 0 else (s.countCe k).queueFix k

/-- An uncorrectable error met by a read is counted and reported. -/
def State.reportUe (s : State) (k : Nat) : State :=
  let a := 8 * k
  if isSram a then ((s.bumpErr rMSR_UE).wr rMSR_UE_ADDR fMSR_UE_ADDR_ADDR a).kevt 0x05 0x40 0 a
  else
    let c := (dramPlace s.surv (dramOff a)).channel
    (s.bumpErr (rUE c)).kevt (0x08 + c) 0x42 c ((dramOff a) / 64)

/-- What the read of a read-modify-write does: errors are counted; the write itself carries the correction. -/
def State.countWords (s : State) (ks : List Nat) : State :=
  ks.foldl (fun s k => if s.wordChecked k then
    (if s.eccOf k = 1 then s.countCe k else if s.eccOf k = 2 then s.reportUe k else s) else s) s

/-- The effects of a read on the words it meets. -/
def State.touchWords (s : State) (ks : List Nat) : State :=
  ks.foldl (fun s k => if s.wordChecked k then
    (if s.eccOf k = 1 then s.correctWord k else if s.eccOf k = 2 then s.reportUe k else s) else s) s

/-- A scrubber reads a 64-byte block: it corrects the block, but writes nothing where a word of it is uncorrectable; single-bit errors met there are counted
and stay (R300, R310). (DEDUCED, log entry 52) -/
def State.scrubBlock (s : State) (a : Nat) : State :=
  let ks := wordsOf a 64
  if ks.any (fun k => s.wordChecked k && s.eccOf k == 2) then s.countWords ks else s.touchWords ks

/-- Owner codes (R216). -/
def ownTRUSTED : Nat := 0xFC
def ownCLEARING : Nat := 0xFD
def ownUNIT : Nat := 0xFE
def ownFREE : Nat := 0xFF

/-- The owner of a grain and of a DRAM page (R216): a grain of the trusted world reads TRUSTED. -/
def State.ownSram (s : State) (g : Nat) : Nat :=
  if s.grainTrusted g then ownTRUSTED else (s.rw (rOWN_SRAM (g / 4))).toNat / 2 ^ (8 * (g % 4)) % 256
def State.ownDram (s : State) (n : Nat) : Nat := (s.rw (rOWN_DRAM (n / 4))).toNat / 2 ^ (8 * (n % 4)) % 256
def State.setOwnSram (s : State) (g v : Nat) : State :=
  s.setRw (rOWN_SRAM (g / 4)) (putFld (s.rw (rOWN_SRAM (g / 4))) ⟨8 * (g % 4), 8⟩ v)
def State.setOwnDram (s : State) (n v : Nat) : State :=
  s.setRw (rOWN_DRAM (n / 4)) (putFld (s.rw (rOWN_DRAM (n / 4))) ⟨8 * (n % 4), 8⟩ v)

/-- Does a range of grains hold grain g? -/
def inGrains (r : Nat × Nat) (g : Nat) : Bool := decide (r.1 ≤ g ∧ g < r.1 + r.2)

/-- The grains that a unit keeps to itself: the FIFO of a pipe that is not STOPPED, the pool while the raster engine is not STOPPED; as (first,
number). -/
def State.closedRanges (s : State) : List (Nat × Nat) :=
  ((List.range 8).filter (fun p => s.on (rPSTATE p) fPSTATE_STATE)).map (fun p =>
      (s.rd (rFETCH_CFG p) fFETCH_CFG_FIFO_BASE, s.rd (rFETCH_CFG p) fFETCH_CFG_FIFO_GRAINS)) ++
    (if s.on rRSTAT fRSTAT_STATE then [(s.rd rTLP_CFG fTLP_CFG_BASE, s.rd rTLP_CFG fTLP_CFG_GRAINS)] else [])
def State.ringRange (s : State) : Nat × Nat := (s.rd rLG_CFG fLG_CFG_RING_BASE, s.rd rLG_CFG fLG_CFG_RING_GRAINS)
def State.cacheRange (s : State) : Nat × Nat := (s.rd rPCACHE_CFG fPCACHE_CFG_BASE, s.rd rPCACHE_CFG fPCACHE_CFG_GRAINS)

/-- The grains of the units in use (R308): the FIFO of each pipe that is not STOPPED, the pool while the raster engine is not STOPPED, the
ring while LG_CTRL.EN = 1, the cache while PSTORE.EN = 1; as (first, number). -/
def State.unitRanges (s : State) : List (Nat × Nat) :=
  s.closedRanges ++ (if s.on rLG_CTRL fLG_CTRL_EN then [s.ringRange] else []) ++ (if s.on rPSTORE fPSTORE_EN then [s.cacheRange] else [])

/-- The grains that two units in use share, and the lowest of them. -/
def State.sharedGrains (s : State) : List Nat :=
  (List.range 768).filter (fun g => decide (1 < (s.unitRanges.filter (fun r => inGrains r g)).length))
def State.sharedGrain (s : State) : Option Nat := s.sharedGrains.head?

/-- SRAM by grain: the 64 KiB grain of an address. -/
def grainOf (a : Nat) : Nat := (sramOff a) / 0x10000

/-- Bytes from a physical address as the memory holds them. -/
def State.memBytes (s : State) (a n : Nat) : List Byte :=
  if isSram a then s.sramRead (sramOff a) n else s.dramRead (dramOff a) n

/-- Has the byte at an address an undefined content: in a grain that two units shared, and not written since (R308)? -/
def State.mixedByte (s : State) (a : Nat) : Bool := isSram a && s.msr.mixed.contains (grainOf a) && !(s.msr.known.contains a)

/-- Does an access to word k complete with an error response whatever it holds: its channel is fenced, or the device saves (R288, R455)? -/
def State.wordFenced (s : State) (k : Nat) : Bool := isDram (8 * k) && s.dramFenced (dramOff (8 * k))

/-- Bytes as a reader sees them: a byte of undefined content is a free value, the one `off` places on from the next. -/
def State.viewBytes (s : State) (off a n : Nat) : List Byte :=
  (s.memBytes a n).zipIdx.map (fun p =>
    if s.mixedByte (a + p.2) then BitVec.ofNat 8 (Config.freeValue (s.fresh + off + p.2)).toNat else p.1)

/-- A read of n bytes of SRAM or DRAM: `none` for an error response (an uncorrectable word, a fenced channel); a byte of undefined content reads as a free
value. (DEDUCED, log entry 48) -/
def State.memLoad (s : State) (a n : Nat) : State × Option (List Byte) :=
  let ks := wordsOf a n
  if ks.any s.wordFenced then (s, none)
  else
    let bad := ks.any (fun k => s.wordChecked k && s.eccOf k == 2)
    let s1 := s.touchWords ks
    if bad then (s1, none)
    else if (List.range n).any (fun i => s.mixedByte (a + i)) then (s1.useFreeN n, some (s.viewBytes 0 a n))
    else (s1, some (s.memBytes a n))
/-- A read of n bytes of SRAM from an offset. -/
def State.sramLoad (s : State) (o n : Nat) : State × Option (List Byte) := s.memLoad (sramBase + o) n

/-- A byte of a grain that two units shared is written: its content is defined again, unless they still share the grain (R308). -/
def State.knowByte (s : State) (a : Nat) : State :=
  if s.mixedByte a && !(s.sharedGrains.contains (grainOf a)) then { s with msr := { s.msr with known := a :: s.msr.known } } else s

/-- One byte is written. -/
def State.memStoreByte (s : State) (a : Nat) (b : Byte) : State :=
  if isSram a then (s.knowByte a).sramWrite (sramOff a) [b] else s.dramWrite (dramOff a) [b]

/-- Is the whole of word k covered by n bytes at a? -/
def coversWord (a n k : Nat) : Bool := decide (a ≤ 8 * k ∧ 8 * k + 8 ≤ a + n)

/-- The words that a write of n bytes at a reads to write its part of word k (R299, R305): of SRAM the word itself where it is not covered; of DRAM with ECC
the 64-byte block, where the write covers a word of the block in part. -/
def State.rmwWords (s : State) (a n k : Nat) : List Nat :=
  if s.wordChecked k = false then []
  else if isSram (8 * k) then (if coversWord a n k then [] else [k])
  else
    let block := (List.range 8).map (fun i => k / 8 * 8 + i)
    if block.any (fun j => (wordsOf a n).contains j && !(coversWord a n j)) then block else []

/-- The check byte of a word: that of a word of zeros is zero, as R298 writes them. -/
def checkByte (w : W64) : Byte := if w = 0 then 0 else Config.secded w

/-- The check byte of a data word of a DRAM region with ECC is stored (R297). (DESIGN CHOICE, log entry 86) -/
def State.storeCheck (s : State) (k : Nat) : State :=
  let o := dramOff (8 * k)
  if isSram (8 * k) || !(s.wordChecked k) then s
  else s.dramWrite (o / 2 ^ 28 * 2 ^ 28 + eccData + o % 2 ^ 28 / 64 * 8 + k % 8) [checkByte (BitVec.ofNat 64 (ofBytesLE (s.dramRead o 8)))]

/-- A write of bytes to SRAM or DRAM. A word not wholly covered is read first: single-bit errors are corrected and counted, and where an uncorrectable
error is met the part of the write that needed the read is discarded (R299, R305). A whole word clears its error. The flag says whether every part completed
without an error response. (DEDUCED, log entry 48) -/
def State.memStore (s : State) (a : Nat) (bs : List Byte) : State × Bool :=
  let n := bs.length
  let ks := wordsOf a n
  let bad (k : Nat) : Bool := s.wordFenced k || (s.rmwWords a n k).any (fun j => s.eccOf j == 2)
  let rmw (k : Nat) : List Nat := if s.wordFenced k then [] else s.rmwWords a n k
  let s1 := s.countWords (ks.flatMap rmw).eraseDups
  let s2 := ks.foldl (fun s k => if bad k then s else (k :: rmw k).foldl (fun s j => s.setEcc j 0) s) s1
  let s3 := bs.zipIdx.foldl (fun s p => if bad ((a + p.2) / 8) then s else s.memStoreByte (a + p.2) p.1) s2
  (ks.foldl (fun s k => if bad k then s else s.storeCheck k) s3, !(ks.any bad))

/-- May a master other than the unit itself access a grain marked UNIT (R146, R159, R306): the cache; the ring, which the normal world only reads;
no FIFO and no pool? (DEDUCED, log entry 90) -/
def State.unitGrainOk (s : State) (trusted write : Bool) (g : Nat) : Bool :=
  !(s.closedRanges.any (fun r => inGrains r g)) && (inGrains s.cacheRange g || (inGrains s.ringRange g && (trusted || !write)))

/-- Do the WORLD_MAP, the grain's user or the address map forbid a direct channel an access of memory by physical address, and with which KIND (R146, R159,
R258, R278, R281, R489)? (DEDUCED, log entry 90) -/
def State.memKind (s : State) (trusted write : Bool) (a : Nat) : Option Nat :=
  if a < 0x10000 then some 6
  else if isSram a then
    (if (!trusted && s.grainTrusted (grainOf a)) || (s.ownSram (grainOf a) == ownUNIT && !(s.unitGrainOk trusted write (grainOf a))) then some 2 else none)
  else if 0x08000000 ≤ a ∧ a < 0x09000000 then some 6
  else if 0x10000000 ≤ a ∧ a < 0x11000000 then (if blkAssigned ((a - 0x10000000) / 0x10000) then some 1 else some 5)
  else if isDram a then (if s.capacity ≤ dramOff a then some 5 else none)
  else some 5

/-- A unit's own access to a grain of its range is allowed only where the owner entry reads UNIT (R307); otherwise MSR_PART
records the grain. -/
def State.unitGrainBad (s : State) (g : Nat) : State :=
  ({ s with msr := { s.msr with ownSeen := true } }.wr rMSR_PART fMSR_PART_OWNER 1).wr rMSR_PART fMSR_PART_OWN_GRAIN g

/-- What a unit reads from an address of its range, within one grain: zeros from a grain that is not its own, or where a word is uncorrectable (R307, R309);
`off` numbers the bytes, for content that is undefined. -/
def State.unitBytes (s : State) (off a n : Nat) : List Byte :=
  if s.ownSram (grainOf a) != ownUNIT || (wordsOf a n).any (fun k => s.eccOf k == 2) then List.replicate n 0 else s.viewBytes off a n

/-- What such a read does: MSR_PART records a grain that is not the unit's, errors met are counted and corrected. -/
def State.unitTouch (s : State) (a n : Nat) : State :=
  if s.ownSram (grainOf a) != ownUNIT then s.unitGrainBad (grainOf a) else s.touchWords (wordsOf a n)

/-- MSR compares the ranges (R308): the first shared grain is shown and the keeper told when OVERLAP is set; the content of the shared grains is undefined
from then on. (DEDUCED, log entry 52) -/
def State.msrCompare (s : State) : State :=
  match s.sharedGrain with
  | none => s
  | some g =>
    let new := s.sharedGrains.filter (fun x => !(s.msr.mixed.contains x))
    let known := s.msr.known.filter (fun a => !(s.sharedGrains.contains (grainOf a)))
    let s0 : State := { s with msr := { s.msr with ovlSeen := true, mixed := s.msr.mixed ++ new, known := known } }
    let s1 := (s0.wr rMSR_PART fMSR_PART_OVERLAP 1).wr rMSR_PART fMSR_PART_OVL_GRAIN g
    if s.on rMSR_PART fMSR_PART_OVERLAP then s1 else s1.kevt 0x05 0x41 0 g

end Sys2Proof.Machine
end

