-- ==== Sys2Proof/Machine/Gate.lean ====
section
/-! DEFINITION. Machine/Gate.lean: the stall gate: stall addresses, translation, ownership (R206, R212 to R215). -/
namespace Sys2Proof.Machine

/-- Reasons of R214. -/
def rsRANGE : Nat := 1
def rsHOST : Nat := 2
def rsUNMAPPED : Nat := 3
def rsPERM : Nat := 4
def rsOWNER : Nat := 5
def rsTABLE : Nat := 6
def rsCTRL : Nat := 7

/-- What the gate makes of a stall address. -/
inductive GateAns where
  | phys (a : Nat)          -- a physical address of SRAM or DRAM
  | host (a : Nat)          -- an address of the host, through the bound function
  | viol (reason : Nat)     -- a violation
  deriving DecidableEq, Repr

/-- A walk read of 8 bytes at a DRAM offset: refused at or above the capacity or outside S0's pages; no entry if it is refused
or answers with an error (R214). -/
def State.walkRead (s : State) (o : Nat) : State × Option Nat :=
  if s.capacity ≤ o || s.ownDram (o / 2 ^ 21) != 0 then (s, none)
  else
    match s.memLoad (dramBase + o) 8 with
    | (s', some b) => (s', some (ofBytesLE b))
    | (s', none) => (s', none)

/-- A translation: bit 2 the target is a grain, bit 1 W, bit 0 R, above them the 64 KiB page number of the DRAM offset, or
the grain. -/
def packTr (page : Nat) (isGrain w r : Bool) : Nat := page * 8 + b2n isGrain * 4 + b2n w * 2 + b2n r

/-- The table walk for stall address bits 35:16 (R213): a reason, or a translation. -/
def State.walk (s : State) (st sa16 : Nat) : State × (Nat ⊕ Nat) :=
  let base := 2 ^ 16 * s.rd (rTCTX_LO st) fTCTX_LO_BASE + 2 ^ 32 * s.rd (rTCTX_HI st) fTCTX_HI_BASE
  match s.walkRead (base + 8 * (sa16 / 32)) with
  | (s1, none) => (s1, .inl rsTABLE)
  | (s1, some e) =>
    if e / 2 ^ 35 ≠ 0 ∨ bitsOf4 e ≠ 0 then (s1, .inl rsUNMAPPED)
    else if e % 4 = 1 then
      (s1, .inr (packTr (e / 2 ^ 21 * 32 + sa16 % 32) false (bitOf e 3) (bitOf e 2)))
    else if e % 4 = 2 then
      match s1.walkRead (e / 256 * 256 + 8 * (sa16 % 32)) with
      | (s2, none) => (s2, .inl rsTABLE)
      | (s2, some f) =>
        if f / 2 ^ 35 ≠ 0 ∨ f / 2 ^ 4 % 2 ^ 12 ≠ 0 then (s2, .inl rsUNMAPPED)
        else if f % 4 = 1 then (s2, .inr (packTr (f / 2 ^ 16) false (bitOf f 3) (bitOf f 2)))
        else if f % 4 = 2 then
          if f / 2 ^ 16 % 2 ^ 10 < 768 then (s2, .inr (packTr (f / 2 ^ 16 % 2 ^ 10) true (bitOf f 3) (bitOf f 2)))
          else (s2, .inl rsUNMAPPED)
        else (s2, .inl rsUNMAPPED)
    else (s1, .inl rsUNMAPPED)
where
  /-- bits 7:4 of a level-1 entry, reserved -/
  bitsOf4 (e : Nat) : Nat := e / 16 % 16

/-- The translation of a page, from the gate's cache or by a walk that the cache then holds (R215). -/
def State.translate (s : State) (st sa16 : Nat) : State × (Nat ⊕ Nat) :=
  let key := 2 ^ 20 * st + sa16
  match storeGet (fun _ => 0) s.tlb key with
  | v + 1 => (s, .inr v)
  | 0 =>
    match s.walk st sa16 with
    | (s1, .inr v) => ({ s1 with tlb := storePut (fun _ => 0) s1.tlb key (v + 1) }, .inr v)
    | r => r

/-- The gate's checks of an access to stall address `sa` of stall `st`, in the order of R214. S0 has no table: its device
address is a DRAM offset below the capacity, owned by S0 (R206). (DEDUCED, log entry 39) -/
def State.gateCheck (s : State) (st sa : Nat) (write hostOk : Bool) : State × GateAns :=
  if bitOf sa 63 then (s, if hostOk then .host (sa % 2 ^ 63) else .viol rsHOST)
  else if st = 0 then
    if s.capacity ≤ sa then (s, .viol rsRANGE)
    else if s.ownDram (sa / 2 ^ 21) = 0 then (s, .phys (dramBase + sa))
    else (s, .viol rsOWNER)
  else if 2 ^ (31 + s.rd (rTCTX_LO st) fTCTX_LO_SAS) ≤ sa then (s, .viol rsRANGE)
  else
    match s.translate st (sa / 2 ^ 16) with
    | (s1, .inl r) => (s1, .viol r)
    | (s1, .inr v) =>
      let okPerm := if write then bitOf v 1 else bitOf v 0
      if okPerm = false then (s1, .viol rsPERM)
      else if bitOf v 2 then
        if s1.ownSram (v / 8) = st then (s1, .phys (sramBase + 2 ^ 16 * (v / 8) + sa % 2 ^ 16)) else (s1, .viol rsOWNER)
      else
        if s1.ownDram (v / 8 / 32) = st then (s1, .phys (dramBase + 2 ^ 16 * (v / 8) + sa % 2 ^ 16)) else (s1, .viol rsOWNER)

/-- A master of a stall: its MASTER code, its INST (R246). -/
structure Master where
  kind : Nat
  inst : Nat
  deriving DecidableEq, Repr

/-- An access is checked page by page: a request never crosses a 4 KiB boundary (R75, R206, R214). The part up to the next boundary. -/
def pagePart (sa : Nat) : Nat := 4096 - sa % 4096

/-- One request of a device-address read on a stall's behalf: a violation is recorded against the master; `none` for any failure. -/
def State.stallLoad1 (s : State) (st : Nat) (m : Master) (sa n : Nat) : State × Option (List Byte) :=
  match s.gateCheck st sa false false with
  | (s1, .phys a) => s1.memLoad a n
  | (s1, .viol r) => (s1.violate st m.kind r m.inst sa false, none)
  | (s1, .host _) => (s1, none)

/-- A device-address read, request by request; a failure ends it. `k` bounds the requests. -/
def State.stallLoadN (s : State) (st : Nat) (m : Master) : Nat → Nat → Nat → List Byte → State × Option (List Byte)
  | 0, _, _, acc => (s, some acc)
  | k + 1, sa, n, acc =>
    if n = 0 then (s, some acc)
    else
      let j := min n (pagePart sa)
      match s.stallLoad1 st m sa j with
      | (s1, some d) => s1.stallLoadN st m k (sa + j) (n - j) (acc ++ d)
      | (s1, none) => (s1, none)
def State.stallLoad (s : State) (st : Nat) (m : Master) (sa n : Nat) : State × Option (List Byte) := s.stallLoadN st m (n / 4096 + 2) sa n []

/-- One request of a device-address write on a stall's behalf: a violating write is discarded and recorded; from the squash of the stall to its
RESET_DONE the gate drops it (R239). -/
def State.stallStore1 (s : State) (st : Nat) (m : Master) (sa : Nat) (b : List Byte) : State × Bool :=
  if bitOf s.squashed st then (s, false)
  else match s.gateCheck st sa true false with
  | (s1, .phys a) => s1.memStore a b
  | (s1, .viol r) => (s1.violate st m.kind r m.inst sa true, false)
  | (s1, .host _) => (s1, false)

/-- A device-address write, request by request; a failure ends it. -/
def State.stallStoreN (s : State) (st : Nat) (m : Master) : Nat → Nat → List Byte → State × Bool
  | 0, _, _ => (s, true)
  | k + 1, sa, b =>
    if b.isEmpty then (s, true)
    else match s.stallStore1 st m sa (b.take (pagePart sa)) with
      | (s1, true) => s1.stallStoreN st m k (sa + pagePart sa) (b.drop (pagePart sa))
      | (s1, false) => (s1, false)
def State.stallStore (s : State) (st : Nat) (m : Master) (sa : Nat) (b : List Byte) : State × Bool := s.stallStoreN st m (b.length / 4096 + 2) sa b

/-- Accesses of a unit whose ring the manager placed, request by request: a refusal by the gate freezes no master (R358, R362); `none`, or false, for any
failure. -/
def State.ringLoadN (s : State) (st : Nat) : Nat → Nat → Nat → List Byte → State × Option (List Byte)
  | 0, _, _, acc => (s, some acc)
  | k + 1, sa, n, acc =>
    if n = 0 then (s, some acc)
    else
      let j := min n (pagePart sa)
      match s.gateCheck st sa false false with
      | (s1, .phys a) =>
        (match s1.memLoad a j with
        | (s2, some d) => s2.ringLoadN st k (sa + j) (n - j) (acc ++ d)
        | (s2, none) => (s2, none))
      | (s1, _) => (s1, none)
def State.ringLoad (s : State) (st sa n : Nat) : State × Option (List Byte) := s.ringLoadN st (n / 4096 + 2) sa n []
def State.ringStoreN (s : State) (st : Nat) : Nat → Nat → List Byte → State × Bool
  | 0, _, _ => (s, true)
  | k + 1, sa, b =>
    if b.isEmpty then (s, true)
    else match s.gateCheck st sa true false with
      | (s1, .phys a) =>
        (match s1.memStore a (b.take (pagePart sa)) with
        | (s2, true) => s2.ringStoreN st k (sa + pagePart sa) (b.drop (pagePart sa))
        | (s2, false) => (s2, false))
      | (s1, _) => (s1, false)
def State.ringStore (s : State) (st sa : Nat) (b : List Byte) : State × Bool :=
  if bitOf s.squashed st then (s, true) else s.ringStoreN st (b.length / 4096 + 2) sa b

end Sys2Proof.Machine
end

