-- ==== Sys2Proof/Machine/Pixel.lean ====
section
/-! DEFINITION. Machine/Pixel.lean: the arithmetic of the pixel path, stage by stage (R70 to R72, R80 to R86, R90, R91, R95, R96), and
the CRC of pitches and awning lines (R122). -/
namespace Sys2Proof.Machine

/-- Bytes per pixel of a layer format (R70); 4:2:2 counts 2. -/
def fmtBytes (f : Nat) : Nat :=
  if f = 0 ∨ f = 1 then 2 else if f = 2 then 3 else if f = 5 then 8 else if f = 7 then 2 else 4

/-- Does a format carry a source alpha (R70)? -/
def fmtAlpha (f : Nat) : Bool := decide (f = 1 ∨ f = 3 ∨ f = 4 ∨ f = 5 ∨ f = 6)

/-- Is a format YCbCr? -/
def fmtYcc (f : Nat) : Bool := decide (f = 6 ∨ f = 7)

/-- Expansion of an n-bit field to 12 bits by bit replication (R71): repeated from its top until 12 bits are filled. -/
def expand12 (n v : Nat) : Nat :=
  if n = 1 then v * 0xFFF
  else if n = 2 then v * 0x555
  else if n = 5 then (v * 2 ^ 10 + v * 2 ^ 5 + v) / 2 ^ 3
  else if n = 6 then v * 65
  else if n = 8 then v * 16 + v / 16
  else if n = 10 then v * 4 + v / 256
  else v

/-- The transparent sample (R77, R96). -/
def Px.clear : Px := ⟨0, 0, 0, 0⟩

/-- Bits hi:lo of a number. -/
def bitsOf (v hi lo : Nat) : Nat := v / 2 ^ lo % 2 ^ (hi + 1 - lo)

/-! ### YCbCr (R72) -/

/-- Kr and Kb in ten-thousandths. -/
def yccK (std : Nat) : Nat × Nat := if std = 0 then (2990, 1140) else if std = 1 then (2126, 722) else (2627, 593)

/-- n / d rounded to the nearest, halves away from zero (both are positive). -/
def roundDiv (n d : Nat) : Nat := (2 * n + d) / (2 * d)

/-- An integer held in 0 to 4095. -/
def clamp12 (v : Int) : Nat := (max 0 (min 4095 v)).toNat

/-- Conversion of 12-bit Y, Cb, Cr to RGB. -/
def yccToRgb (std : Nat) (full : Bool) (y cb cr a : Nat) : Px :=
  let kr := (yccK std).1
  let kb := (yccK std).2
  let kg := 10000 - kr - kb
  let dy := if full then 4080 else 3504
  let dc := if full then 4080 else 3584
  let yo : Int := if full then 0 else 256
  let ky : Int := roundDiv (4096 * 4095) dy
  let krv : Int := roundDiv (4096 * 4095 * 2 * (10000 - kr)) (dc * 10000)
  let kbu : Int := roundDiv (4096 * 4095 * 2 * (10000 - kb)) (dc * 10000)
  let kgu : Int := roundDiv (4096 * 4095 * 2 * kb * (10000 - kb)) (dc * 10000 * kg)
  let kgv : Int := roundDiv (4096 * 4095 * 2 * kr * (10000 - kr)) (dc * 10000 * kg)
  let yn : Int := (y : Int) - yo
  let u : Int := (cb : Int) - 2048
  let v : Int := (cr : Int) - 2048
  { r := clamp12 ((ky * yn + krv * v + 2048) / 4096)
    g := clamp12 ((ky * yn - kgu * u - kgv * v + 2048) / 4096)
    b := clamp12 ((ky * yn + kbu * u + 2048) / 4096)
    a := a }

/-! ### Formats (R70, R71) -/

/-- The pixel of an RGB or AYCbCr word. -/
def decodeWord (f std : Nat) (full : Bool) (w : Nat) : Px :=
  if f = 0 then ⟨expand12 5 (bitsOf w 15 11), expand12 6 (bitsOf w 10 5), expand12 5 (bitsOf w 4 0), 0xFFF⟩
  else if f = 1 then ⟨expand12 5 (bitsOf w 14 10), expand12 5 (bitsOf w 9 5), expand12 5 (bitsOf w 4 0), expand12 1 (bitsOf w 15 15)⟩
  else if f = 2 then ⟨expand12 8 (bitsOf w 23 16), expand12 8 (bitsOf w 15 8), expand12 8 (bitsOf w 7 0), 0xFFF⟩
  else if f = 3 then ⟨expand12 8 (bitsOf w 23 16), expand12 8 (bitsOf w 15 8), expand12 8 (bitsOf w 7 0), expand12 8 (bitsOf w 31 24)⟩
  else if f = 4 then
    ⟨expand12 10 (bitsOf w 29 20), expand12 10 (bitsOf w 19 10), expand12 10 (bitsOf w 9 0), expand12 2 (bitsOf w 31 30)⟩
  else if f = 5 then ⟨bitsOf w 47 36, bitsOf w 31 20, bitsOf w 15 4, bitsOf w 63 52⟩
  else yccToRgb std full (16 * bitsOf w 23 16) (16 * bitsOf w 15 8) (16 * bitsOf w 7 0) (expand12 8 (bitsOf w 31 24))

/-- The pixel of a 4:2:2 pair word: `odd` picks Y1. -/
def decode422 (std : Nat) (full odd : Bool) (w : Nat) : Px :=
  yccToRgb std full (16 * (if odd then bitsOf w 23 16 else bitsOf w 7 0)) (16 * bitsOf w 15 8) (16 * bitsOf w 31 24) 0xFFF

/-! ### Blending (R80, R81) -/

def mul12 (x y : Nat) : Nat := (2 * x * y + 4095) / 8190
def term16 (x y : Nat) : Nat := (32 * x * y + 4095) / 8190

/-- One component blended: source s with alpha `as` and layer alpha `la` over d. -/
def blend1 (s as la : Nat) (premult : Bool) (d : Nat) : Nat :=
  let a := mul12 as la
  let k := if premult then la else a
  min 4095 ((min 65535 (term16 s k + term16 d (4095 - a)) + 8) / 16)

/-- A pixel blended over a running value, whose alpha is kept as it is. -/
def blendPx (s : Px) (la : Nat) (premult : Bool) (d : Px) : Px :=
  { r := blend1 s.r s.a la premult d.r, g := blend1 s.g s.a la premult d.g, b := blend1 s.b s.a la premult d.b, a := d.a }

/-! ### Colour stages (R82, R84) -/

/-- A look-up table applied to a component. -/
def lutApply (lut : Nat → Nat) (v : Nat) : Nat :=
  let i := v / 4
  let f := v % 4
  let lo : Int := lut i
  let hi : Int := if i < 1023 then lut (i + 1) else 4096
  (max 0 (min 4095 (lo + ((hi - lo) * f + 2) / 4))).toNat

def lutPx (lut : Nat → Nat) (p : Px) : Px := { p with r := lutApply lut p.r, g := lutApply lut p.g, b := lutApply lut p.b }

/-- One row of the colour matrix: coefficients and offset are signed 12-bit values. -/
def cscRow (m0 m1 m2 off : Nat) (p : Px) : Nat :=
  clamp12 ((sx 12 m0 * p.r + sx 12 m1 * p.g + sx 12 m2 * p.b + 512) / 1024 + sx 12 off)

/-! ### Dither (R85, R86) -/

/-- The dither matrix B[y mod 4][x mod 4]. -/
def ditherB (y x : Nat) : Nat :=
  ([0, 8, 2, 10, 12, 4, 14, 6, 3, 11, 1, 9, 15, 7, 13, 5] : List Nat).getD (4 * (y % 4) + x % 4) 0

/-- The code sent for component v: `mode` 0 round, 1 ordered, 2 temporal, n bits, frame count f. -/
def ditherCode (mode n y x f v : Nat) : Nat :=
  let d := 12 - n
  let t := if mode = 0 then 2 ^ (d - 1)
    else
      let b := if mode = 1 then ditherB y x else ditherB (y + f % 16 / 4) (x + f % 16 % 4)
      b * 2 ^ d / 16
  min (2 ^ n - 1) ((v + t) / 2 ^ d)

/-- The post-dither pixel: each code in the upper n of 12 bits. -/
def ditherPx (mode n y x f : Nat) (p : Px) : Px :=
  let k (v : Nat) : Nat := ditherCode mode n y x f v * 2 ^ (12 - n)
  { p with r := k p.r, g := k p.g, b := k p.b }

/-! ### Writeback words (R91, R93) -/

/-- The bytes of a pixel in a writeback format: upper bits of each component, alpha all ones; the low 4 bits of a 16-bit component are 0. (DESIGN CHOICE, log entry 88) -/
def wbBytes (f : Nat) (p : Px) : List Byte :=
  if f = 0 then bytesLE 4 (0xFF * 2 ^ 24 + p.r / 16 * 2 ^ 16 + p.g / 16 * 2 ^ 8 + p.b / 16)
  else if f = 1 then bytesLE 4 (3 * 2 ^ 30 + p.r / 4 * 2 ^ 20 + p.g / 4 * 2 ^ 10 + p.b / 4)
  else bytesLE 8 (0xFFFF * 2 ^ 48 + p.r * 16 * 2 ^ 32 + p.g * 16 * 2 ^ 16 + p.b * 16)

/-! ### Late re-projection (R95, R96) -/

/-- A transform in sixteenths and sixteen-thousandths: a, b, d, e with 14 fraction bits, c and f with 4. -/
structure Ltf where
  a : Int
  b : Int
  c : Int
  d : Int
  e : Int
  f : Int
  deriving DecidableEq, Repr

/-- Limits of R95 for a layer W pixels wide: each coefficient that breaks its limit goes to the nearest one. -/
def Ltf.clamp (t : Ltf) (w : Nat) : Ltf :=
  let dm : Int := (31 * 16384 / w : Nat)
  { t with a := max 0x2000 (min 0x7FFF t.a), e := max 0x2000 (min 0x7FFF t.e), b := clampTo 0x1000 t.b, d := clampTo dm t.d }
where
  /-- held within ±m -/
  clampTo (m v : Int) : Int := max (-m) (min m v)

/-- The sampling position of destination pixel (x, y) in 1/256: u and v of R96, floored to 8 fraction bits. In units of
2^-15: a·(2x+1) carries 15 fraction bits. -/
def Ltf.pos (t : Ltf) (x y : Nat) : Int × Int :=
  let xc : Int := 2 * x + 1
  let yc : Int := 2 * y + 1
  let u := t.a * xc + t.b * yc + t.c * 2048 - 16384
  let v := t.d * xc + t.e * yc + t.f * 2048 - 16384
  (u / 128, v / 128)

/-- The bilinear filter of one component from four samples and the fractions. -/
def bilerp (p00 p10 p01 p11 fx fy : Nat) : Nat :=
  let top := p00 * (256 - fx) + p10 * fx
  let bot := p01 * (256 - fx) + p11 * fx
  (top * (256 - fy) + bot * fy + 32768) / 65536

/-- A re-projected sample: `p i j` is the source pixel, with the edge rule already in it. -/
def reproject (t : Ltf) (p : Int → Int → Px) (x y : Nat) : Px :=
  let uv := t.pos x y
  let i := uv.1 / 256
  let j := uv.2 / 256
  let fx := (uv.1 % 256).toNat
  let fy := (uv.2 % 256).toNat
  let a := p i j
  let b := p (i + 1) j
  let c := p i (j + 1)
  let d := p (i + 1) (j + 1)
  { r := bilerp a.r b.r c.r d.r fx fy, g := bilerp a.g b.g c.g d.g fx fy, b := bilerp a.b b.b c.b d.b fx fy
    a := bilerp a.a b.a c.a d.a fx fy }

/-! ### CRC-32C (R122) -/

/-- One bit of the reflected CRC register: the polynomial 0x1EDC6F41 reflected is 0x82F63B78. -/
def crcBit (c : BitVec 32) : BitVec 32 := if c.getLsbD 0 then (c >>> 1) ^^^ 0x82F63B78#32 else c >>> 1

/-- One byte enters the register. -/
def crcByte (c : BitVec 32) (b : Byte) : BitVec 32 :=
  crcBit (crcBit (crcBit (crcBit (crcBit (crcBit (crcBit (crcBit (c ^^^ b.setWidth 32))))))))

/-- The register after a list of bytes. -/
def crcRun (c : BitVec 32) (l : List Byte) : BitVec 32 := l.foldl crcByte c

/-- The register before any byte, and the check value of a register: the final XOR. -/
def crcInit : BitVec 32 := 0xFFFFFFFF#32
def crcFinal (c : BitVec 32) : BitVec 32 := c ^^^ 0xFFFFFFFF#32

/-- CRC-32C of bytes. (DESIGN CHOICE, log entry 10) -/
def crc32c (l : List Byte) : BitVec 32 := crcFinal (crcRun crcInit l)

/-- The 36-bit value of a post-dither pixel, and the 9 bytes of a pair, left pixel first (R122). -/
def pxVal (p : Px) : Nat := p.r * 2 ^ 24 + p.g * 2 ^ 12 + p.b
def pairBytes (p0 p1 : Px) : List Byte := bytesLE 9 (pxVal p1 * 2 ^ 36 + pxVal p0)

end Sys2Proof.Machine
end

