-- ==== Sys2Proof/Machine/Rail.lean ====
section
/-! DEFINITION. Machine/Rail.lean: the variable rails and their regulator bus: which clock a voltage allows, requests, transactions (R447,
R448, R470 to R472, R485). Rails: 0 VDD_PIPE, 1 VDD_GPU, 2 VDD_SRAM. -/
namespace Sys2Proof.Machine

def railDflt (_ : Nat) : RailSt := {}
def State.rail (s : State) (r : Nat) : RailSt := storeGet railDflt s.power.rails r
def State.modRail (s : State) (r : Nat) (f : RailSt → RailSt) : State :=
  { s with power := { s.power with rails := storePut railDflt s.power.rails r (f (s.rail r)) } }

/-- The address of a rail's regulator; 0 for a fixed rail (R470). -/
def State.railAddr (s : State) (r : Nat) : Nat :=
  s.rd rREG_CFG (if r = 0 then fREG_CFG_ADDR_PIPE else if r = 1 then fREG_CFG_ADDR_GPU else fREG_CFG_ADDR_SRAM)

/-- The bands of R447: highest clock in steps of 6.25 MHz, and nominal voltage in mV. -/
def railBands (r : Nat) : List (Nat × Nat) :=
  if r = 0 then [(32, 600), (64, 660), (96, 730), (128, 800)]
  else if r = 1 then [(64, 600), (128, 680), (192, 780), (256, 900)]
  else [(64, 700), (128, 850)]

/-- The top of a rail's range. -/
def railTop (r : Nat) : Nat := if r = 0 then 800 else if r = 1 then 900 else 850

/-- The nominal voltage for a clock, and the highest clock that a voltage allows. -/
def mvFor (r step : Nat) : Nat := (((railBands r).find? (fun b => decide (step ≤ b.1))).map (·.2)).getD (railTop r)
def stepFor (r mv : Nat) : Nat := ((railBands r).filter (fun b => decide (b.2 ≤ mv))).foldl (fun m b => max m b.1) 0

/-- Has a rail failed (R472)? -/
def State.railFailed (s : State) (r : Nat) : Bool := bitOf (s.rd rREG_STAT fREG_STAT_FAIL) r
/-- Has the board a PG input for a rail, and is it high? -/
def State.pgPresent (s : State) (r : Nat) : Bool := bitOf (s.rd rREG_CFG fREG_CFG_PG_PRESENT) r
def State.pgHigh (s : State) (r : Nat) : Bool := bitOf (s.rd rREG_STAT fREG_STAT_PG) r

/-- The highest clock that the settled voltage of a rail allows now, while a lowering write is in progress that of the lower one (R448); a fixed rail stands
at the top of its range. (DEDUCED, log entry 70) -/
def State.railStepNow (s : State) (r : Nat) : Nat :=
  let x := s.rail r
  if s.railAddr r = 0 then stepFor r (railTop r) else stepFor r (if x.phase = .write then min x.mv x.writing else x.mv)
/-- The highest clock that a request may ask for: after a failure, that of the last confirmed voltage (R472). -/
def State.railStepMax (s : State) (r : Nat) : Nat := if s.railFailed r then s.railStepNow r else stepFor r (railTop r)

/-- DOM_STAT of a rail. -/
def railDom (r : Nat) : Nat := if r = 2 then rDOM_STAT 3 else rDOM_STAT (r + 1)

/-- VDD_GPU is lowered by adaptive scaling by up to 60 mV, not below 600 mV (R447). -/
def railAvs (r mv : Nat) : Nat := if r = 1 then max 600 (mv - min 60 Config.avs) else mv

/-- VOUT_COMMAND: ceil(V × 2^−N). -/
def voutOf (n : Int) (mv : Nat) : Nat :=
  if n ≤ 0 then (mv * 2 ^ (-n).toNat + 999) / 1000 else (mv + 1000 * 2 ^ n.toNat - 1) / (1000 * 2 ^ n.toNat)

/-- The transaction of a rail goes out on the bus. -/
def State.busSend (s : State) (r : Nat) : State :=
  let x := s.rail r
  let s1 := ({ s with power := { s.power with bus := some r } }).wr rREG_STAT fREG_STAT_BUSY 1
  match x.phase with
  | .mode => s1.emit (.regulator r 0x20 0 false)
  | _ => s1.emit (.regulator r 0x21 (voutOf (x.exp.getD 0) (railAvs r x.writing)) (s.on rREG_CFG fREG_CFG_PEC))

/-- The next voltage of a raise or a fall: with no PG input VDD_GPU is raised in at most two band steps, none above 265 mV (R471). -/
def State.railTarget (s : State) (r : Nat) : Nat :=
  let x := s.rail r
  if r = 1 && !s.pgPresent 1 && decide (x.mv + 265 < x.want) then
    (railBands 1).foldl (fun m b => if b.2 ≤ x.mv + 265 then max m b.2 else m) x.mv
  else x.want

/-- Does a rail have a transaction to make: VOUT_MODE to read, a voltage to write (after VOUT_MODE always one, R470), or a write to repeat? (DEDUCED, log entry 70) -/
def State.railDue (s : State) (r : Nat) : Bool :=
  let x := s.rail r
  s.railAddr r != 0 && !s.railFailed r &&
    (x.phase == .mode || x.phase == .write || (x.phase == .idle && x.exp.isSome && (x.want != x.mv || !x.told) && x.want != 0))

/-- The free bus takes the transaction of the lowest rail that has one; none starts from SAVING on (R485). -/
def State.busKick (s : State) : State :=
  if s.power.bus.isSome || decide (6 ≤ s.dstate) then s
  else match (List.range 3).find? s.railDue with
    | none => s
    | some r =>
      if (s.rail r).phase ≠ .idle then s.busSend r
      else
        let v := s.railTarget r
        ((s.modRail r (fun x => { x with phase := .write, writing := v, tries := 0 })).wr (railDom r) fDOM_STAT_CHANGING 1).busSend r

/-- A voltage is requested of a rail: nothing of a fixed rail, nothing after a failure. -/
def State.railAsk (s : State) (r mv : Nat) : State :=
  if s.railAddr r = 0 || s.railFailed r || decide ((s.rail r).want = mv) then s
  else ((s.modRail r (fun x => { x with want := mv })).wr (railDom r) fDOM_STAT_MV (railAvs r mv)).busKick

end Sys2Proof.Machine
end

