-- ==== Sys2Proof/Machine/Tally.lean ====
section
/-! DEFINITION. Machine/Tally.lean: the commands of chapter 01: unassigned and read-only addresses, the common crossing page, tallies, energy
(R4, R22 to R37, R451, R489). -/
namespace Sys2Proof.Machine

/-! ### Tally requests (R32) -/

/-- Rank of a source on one edge. -/
def TallySrc.rank : TallySrc → Nat
  | .save => 0 | .frame => 1 | .software => 2 | .periodic => 3

/-- LAST_SRC code of a source. -/
def TallySrc.code : TallySrc → Nat
  | .software => 1 | .periodic => 2 | .frame => 3 | .save => 4

/-- Is a tally running? -/
def State.tallyBusy (s : State) : Bool := s.on rTALLY_STAT fTALLY_STAT_BUSY

/-- What becomes of a request that finds TEL busy (R32). -/
def State.tallyMissed (s : State) (src : TallySrc) : State :=
  match src with
  | .save => { s with tally := { s.tally with saveWaits := true } }
  | .frame => (s.wr rTALLY_STAT fTALLY_STAT_FRAME_MISSED 1).wr rTALLY_CTRL fTALLY_CTRL_ARM 0
  | .software => s.bumpErr rTALLY_REFUSED
  | .periodic => s

/-- A request: launched at the next edge if TEL is free; of several on one edge the first in rank is launched and the others
are handled as if TEL were busy. -/
def State.tallyRequest (s : State) (src : TallySrc) : State :=
  if s.tallyBusy then s.tallyMissed src
  else
    match s.tally.req with
    | none => { s with tally := { s.tally with req := some src } }
    | some r =>
      if src.rank < r.rank then ({ s with tally := { s.tally with req := some src } }).tallyMissed r
      else s.tallyMissed src

/-- TALLY_CTRL takes a word: START requests, ARM and PIPE are stored, a change of PERIODIC_EN starts or stops the timer. -/
def State.wrTallyCtrl (s : State) (w : W64) : State :=
  let was := s.on rTALLY_CTRL fTALLY_CTRL_PERIODIC_EN
  let s1 := s.settingWrite rTALLY_CTRL w true false
  let s2 :=
    if getFld w fTALLY_CTRL_PERIODIC_EN = 0 then { s1 with tally := { s1.tally with timer := none } }
    else if was then s1
    else { s1 with tally := { s1.tally with timer := some (s1.rd rTALLY_PERIOD fTALLY_PERIOD_PERIOD_MS) } }
  if getFld w fTALLY_CTRL_START = 1 then s2.tallyRequest .software else s2

/-- TALLY_PERIOD takes a word; an accepted write restarts a running timer. -/
def State.wrTallyPeriod (s : State) (w : W64) : State :=
  let s1 := s.settingWrite rTALLY_PERIOD w true false
  if regBadRange rTALLY_PERIOD w then s1
  else if s1.tally.timer.isSome then
    { s1 with tally := { s1.tally with timer := some (s1.rd rTALLY_PERIOD fTALLY_PERIOD_PERIOD_MS) } }
  else s1

/-! ### Capture (R25, R28, R31) -/

/-- The assigned block IDs in order. -/
def blockIds : List Nat := (List.range 256).filter blkAssigned

/-- Addresses of the shadow slots of a register. -/
def RegDef.slots (d : RegDef) (base : Nat) : List Nat :=
  if d.kind = .plain then [] else (List.range d.n).map (fun i => base + d.off + d.stride * i)

/-- The shadow slots of a block in ascending order of its map, without the crossing page. -/
def blockSlots (id : Nat) : List Nat :=
  ((blkKindOf id).regs.filter (fun d => id == 0x08 || blkKindOf id != .kMC || !(mc0Only.contains d.name))).flatMap
    (fun d => d.slots (blkAddr id 0))

/-- The shadow slots that an island captures: those of its blocks; the crossing pages of all blocks lie in the fabric (R24). -/
def islandSlots (n : Nat) : List Nat :=
  (blockIds.filter (fun id => islandOf id == n)).flatMap blockSlots ++
    (if n = 2 then blockIds.flatMap (fun id => [rXSTALE id, rXREFUSED id]) else [])

/-- Chunks of the tile-list pool in use. -/
def State.chunksUsed (s : State) : Nat := (s.gpu.items.map WorkItem.chunks).sum

/-- One slot takes the epoch and the live value; CHUNK_PEAK starts again from the chunks in use (R179). -/
def State.captureSlot (s : State) (epoch a : Nat) : State :=
  let s1 := s.setRw a (BitVec.ofNat 64 (2 ^ 48 * (epoch % 2 ^ 16) + (s.lv a).toNat % 2 ^ 48))
  if a = rCHUNK_PEAK then s1.setLv a (BitVec.ofNat 64 s.chunksUsed) else s1

/-- A counter of the dictionary is captured in its shadow slot (R12, R25, R405): `sub` names it as `dictCtr` does. (DEDUCED, log entry 78) -/
def State.captureDict (s : State) (epoch sub v : Nat) : State :=
  { s with sm := { s.sm with cnt := storePut (fun _ => 0) s.sm.cnt sub (BitVec.ofNat 64 (2 ^ 48 * (epoch % 2 ^ 16) + v % 2 ^ 48)) } }

/-- The counters of the dictionary are captured with their island's: 0x1100.20 to .26 with the service island's (R405, R429), TEMP_HI and UPTIME_MS
with the always-on island's (R417, R426). (DEDUCED, log entry 78) -/
def State.captureSmiser (s : State) (mask epoch ms : Nat) : State :=
  let s1 := if bitOf mask 1 then overN 7 (fun i s => s.captureDict epoch (0x20 + i) (s.lv (dictCtr (0x20 + i))).toNat) s else s
  if bitOf mask 30 then (s1.captureDict epoch 0x30 (s1.lv (dictCtr 0x30)).toNat).captureDict epoch dictUptime ms else s1

/-- The islands whose bit is set capture all their slots; `ms` is UPTIME_MS. (DEDUCED, log entries 16, 78) -/
def State.capture (s : State) (mask epoch ms : Nat) : State :=
  (((List.range 31).filter (bitOf mask)).foldl (fun s n => (islandSlots n).foldl (fun s a => s.captureSlot epoch a) s) s).captureSmiser mask epoch ms

/-- The powered islands, as bits. -/
def State.poweredMask (s : State) : Nat := (List.range 31).foldl (fun m n => m + b2n (s.islandOn n) * 2 ^ n) 0

/-- The tally completes: BUSY clears, PARTIAL says whether an island that should have answered is missing, and a SAVE
request that waited is the next to launch. -/
def State.tallyDone (s : State) (partialT : Bool) : State :=
  let s1 := ((s.wr rTALLY_STAT fTALLY_STAT_BUSY 0).wr rTALLY_STAT fTALLY_STAT_PARTIAL (b2n partialT)).wr rTALLY_PART
    fTALLY_PART_ISL s.tally.acked
  if s.tally.saveWaits then { s1 with tally := { s1.tally with req := some .save, saveWaits := false, waiting := 0 } }
  else { s1 with tally := { s1.tally with waiting := 0 } }

/-- The strobe launches for the pending request: the epoch steps from 0xFFFF to 1, the powered islands capture, the
always-on island is done at once (it needs no synchroniser); `ms` is UPTIME_MS. (DEDUCED, log entries 16, 78) -/
def State.tallyLaunch (s : State) (ms : Nat) : State :=
  match s.tally.req with
  | none => s
  | some src =>
    if s.tallyBusy then s
    else
      let e0 := s.rd rTALLY_STAT fTALLY_STAT_EPOCH
      let e := if e0 = 0xFFFF then 1 else e0 + 1
      let m := s.poweredMask
      let s1 := ((s.wr rTALLY_STAT fTALLY_STAT_EPOCH e).wr rTALLY_STAT fTALLY_STAT_LAST_SRC src.code).wr rTALLY_STAT
        fTALLY_STAT_BUSY 1
      let s2 := if src = .frame then s1.wr rTALLY_CTRL fTALLY_CTRL_ARM 0 else s1
      let s3 := s2.capture m e ms
      let s4 := { s3 with tally := { s3.tally with req := none, waiting := setBitN m 30 false, acked := m &&& 2 ^ 30 } }
      if s4.tally.waiting = 0 then s4.tallyDone false else s4

/-! ### The commands -/

/-- Is an address assigned (R4): in a range of the memory map, and, in the register blocks, at a used offset, the high
word of a 64-bit register included? (DEDUCED, log entry 76) -/
def assignedAddr (a : Nat) : Bool :=
  decide (a < 0x10000) || decide (0x01000000 ≤ a ∧ a < 0x04000000) || decide (0x08000000 ≤ a ∧ a < 0x09000000) ||
    (decide (0x10000000 ≤ a ∧ a < 0x11000000) && usedAddr (regPlace (a / 4 * 4)).1) || decide (0x800000000 ≤ a ∧ a < 0x1000000000)

/-- Can the maker make a physical access at all: a hart that is released and neither frozen nor in a call, the manager's
function while its stall is ACTIVE? -/
def State.alive (s : State) (who : Who) : Bool :=
  match who with
  | .keeper => !s.keeperDead
  | .hart h => bitOf (s.rd rSVC_STAT fSVC_STAT_RUNNING) h && !(bitOf (s.rd rSVC_STAT fSVC_STAT_FROZEN) h) &&
      !(bitOf (s.rd rSVC_STAT fSVC_STAT_IN_CALL) h)
  | .mgr => s.stallState 0 == 1
  | .stall st => s.stallState st == 1

/-- UNASSIGNED_ACCESS (R4). An address that is assigned, or a maker that cannot access, makes no such event. -/
def execUnassignedAccess (who : Who) (a : BitVec 36) (kind : Fin 3) (s : State) : Host.Outcome State Fault Refusal :=
  let s := s.begin
  .next (if assignedAddr a.toNat || !(s.alive who) then s else s.accessViolation who 5 9 a.toNat (kind == 1) (kind == 2))

/-- May a read of eNVM sector n be served (R312): Zhotor slots to world T; firmware slots and the certificate chain to either
world; the other sectors to world T? -/
def envReadable (who : Who) (n : Nat) : Bool := whoTrusted who || decide (64 ≤ n ∧ n ≤ 161)

/-- Is a sector of the eNVM being programmed or erased, so that a read of it waits (R313): by the keeper's command, or by a line of the persistent store's log? -/
def State.sectorBusy (s : State) (k : Nat) : Bool :=
  (match s.nvm.op with
    | some o => o.sector == k && (o.op == 1 || o.op == 2) && !(s.on rNVM_STAT fNVM_STAT_SUSPENDED)
    | none => false) ||
  (match s.nvm.flush with
    | some f => f.place / 128 == k
    | none => false)

/-- READ_ONLY_MEMORY_ACCESS (R489): a write to the boot ROM or the eNVM window, or a read of the window that R312 does not
allow, is a violation; other reads of either are served. -/
def execReadOnlyMemoryAccess (who : Who) (a : BitVec 36) (kind : Fin 3) (s : State) : Host.Outcome State Fault Refusal :=
  let s := s.begin
  let x := a.toNat
  let write := kind == 1
  .next (
    if !(s.alive who) then s
    else if x < 0x10000 then
      if write then s.accessViolation who 6 0xA x true false else s.answer (.bytes [Config.romByte x])
    else if 0x08000000 ≤ x ∧ x < 0x09000000 then
      if write || !(envReadable who ((x - 0x08000000) / 0x10000)) then s.accessViolation who 6 0xA x write (kind == 2)
      else if s.sectorBusy ((x - 0x08000000) / 0x10000) then
        { s.answer .waits with nvm := { s.nvm with reads := s.nvm.reads ++ [⟨who, x - 0x08000000⟩] } }
      else s.answer (.bytes (s.envRead (x - 0x08000000) 1))
    else s)

/-- The lost-pulse counts of the crossings named by the mask are cleared in XLOSTk. -/
def clearLost (k mask : Nat) (w : W64) : W64 :=
  (List.range 7).foldl (fun w j => if bitOf mask (7 * k + j) then putFld w ⟨4 * j, 4⟩ 0 else w) w

/-- The toggle crossings of a block that can lose a pulse, by their number: those of the touch front ends (R359). The raster front end's never do
(R192), nor do those of a tally (R30); no chapter numbers others. -/
def xingLossy (id n : Nat) : Bool := blkKindOf id == .kTFE && decide (n < 6)

/-- A pulse meets a full slot: it is lost, OVERRUN is set and the lost-pulse count advances up to 15 (R21). -/
def State.losePulse (s : State) (id n : Nat) : State :=
  let f : Fld := ⟨4 * (n % 7), 4⟩
  if xingLossy id n = false then s
  else ((s.wr (rXOVR id) ⟨n, 1⟩ 1).wr (rXLOST id (n / 7)) f (min 15 (s.rd (rXLOST id (n / 7)) f + 1))).wr (rOVR_SUMMARY (id / 16)) ⟨id % 16, 1⟩ 1

/-- The pulses that a pipe's event (0 vertical-blanking start, 1 frame boundary, 2 line start) sends to the panels that follow the pipe, as far
as they meet a full slot (R359): `lost` by panel. -/
def State.losePulses (s : State) (p ev : Nat) (lost : Nat) : State :=
  overN 8 (fun q s =>
    if bitOf lost q && s.rd (rTP_CFG (q / 2) (q % 2)) fTP_CFG_PIPE == p && s.islandOn (21 + q / 2) then s.losePulse (0x30 + q / 2) (3 * (q % 2) + ev) else s) s

/-- XCLR takes a word (R22). OVR_SUMMARY follows the flags of the block (R34). -/
def State.wrXclr (s : State) (id : Nat) (w : W64) : State :=
  let m := getFld w fXCLR_CLR
  let ovr := (List.range 31).foldl (fun v n => if bitOf m n then setBitN v n false else v) (s.rd (rXOVR id) fXOVR_OVR)
  let s1 := s.wr (rXOVR id) fXOVR_OVR ovr
  let s2 := overN 5 (fun k s => s.setRw (rXLOST id k) (clearLost k m (s.rw (rXLOST id k)))) s1
  s2.wr (rOVR_SUMMARY (id / 16)) ⟨id % 16, 1⟩ (b2n (ovr != 0))

/-- XCNT_CLR takes a word (R24). STALE_SUMMARY follows XSTALE. -/
def State.wrXcntClr (s : State) (id : Nat) (w : W64) : State :=
  let s1 := if getFld w fXCNT_CLR_CLR_REFUSED = 1 then s.clearCnt (rXREFUSED id) else s
  if getFld w fXCNT_CLR_CLR_STALE = 1 then (s1.clearCnt (rXSTALE id)).wr (rSTALE_SUMMARY (id / 16)) ⟨id % 16, 1⟩ 0 else s1

/-- XCLR (R22): the pulses lost in the receiving cycle of the clear count after it. (DESIGN CHOICE, log entry 80) -/
def execXclr (who : Who) (blk : BitVec 8) (w : W32) (lost : BitVec 31) (s : State) : Host.Outcome State Fault Refusal :=
  .next (overN 31 (fun n s => if bitOf lost.toNat n then s.losePulse blk.toNat n else s)
    (s.begin.write who (rXCLR blk.toNat) (fun s => s.wrXclr blk.toNat (wide w))))

/-- CLR_REFUSED (R24, R11). -/
def execClrRefused (who : Who) (blk : BitVec 8) (s : State) : Host.Outcome State Fault Refusal :=
  .next (s.begin.write who (rXCNT_CLR blk.toNat) (fun s => s.wrXcntClr blk.toNat (wBit 0 fXCNT_CLR_CLR_REFUSED)))

/-- CLR_STALE (R24, R11). -/
def execClrStale (who : Who) (blk : BitVec 8) (s : State) : Host.Outcome State Fault Refusal :=
  .next (s.begin.write who (rXCNT_CLR blk.toNat) (fun s => s.wrXcntClr blk.toNat (wBit 0 fXCNT_CLR_CLR_STALE)))

/-- SOFTWARE_TALLY (R32): a write of TALLY_CTRL with START, the other fields as they stand. -/
def execSoftwareTally (who : Who) (s : State) : Host.Outcome State Fault Refusal :=
  .next (s.begin.write who rTALLY_CTRL (fun s => s.wrTallyCtrl (wBit (s.rw rTALLY_CTRL) fTALLY_CTRL_START)))

/-- ARM (R33): TALLY_CTRL.ARM and PIPE are written. -/
def execArm (who : Who) (arm : Bool) (pipe : Fin 8) (s : State) : Host.Outcome State Fault Refusal :=
  .next (s.begin.write who rTALLY_CTRL
    (fun s => s.wrTallyCtrl (putFld (putFld (s.rw rTALLY_CTRL) fTALLY_CTRL_ARM (b2n arm)) fTALLY_CTRL_PIPE pipe)))

/-- PERIODIC_EN (R32). -/
def execPeriodicEn (who : Who) (en : Bool) (s : State) : Host.Outcome State Fault Refusal :=
  .next (s.begin.write who rTALLY_CTRL
    (fun s => s.wrTallyCtrl (putFld (s.rw rTALLY_CTRL) fTALLY_CTRL_PERIODIC_EN (b2n en))))

/-- PERIOD_MS (R32, R34). -/
def execPeriodMs (who : Who) (w : W32) (s : State) : Host.Outcome State Fault Refusal :=
  .next (s.begin.write who rTALLY_PERIOD (fun s => s.wrTallyPeriod (wide w)))

/-- PERIODIC_TIMER_EXPIRY (R32): a running timer requests a periodic tally and starts its next period. In SAVING only the SAVE
tally runs (R445). (DEDUCED, log entry 16) -/
def execPeriodicTimerExpiry (s : State) : Host.Outcome State Fault Refusal :=
  let s := s.begin
  .next (
    if s.tally.timer.isSome then
      let s1 := { s with tally := { s.tally with timer := some (s.rd rTALLY_PERIOD fTALLY_PERIOD_PERIOD_MS) } }
      if s.dstate = 6 then s1 else s1.tallyRequest .periodic
    else s)

/-- TALLY_ACKNOWLEDGE (R30). (DEDUCED, log entry 16) -/
def execTallyAcknowledge (isl : Fin 31) (s : State) : Host.Outcome State Fault Refusal :=
  let s := s.begin
  .next (
    if s.tallyBusy && bitOf s.tally.waiting isl then
      let s1 := { s with tally := { s.tally with waiting := setBitN s.tally.waiting isl false,
                                                  acked := setBitN s.tally.acked isl true } }
      if s1.tally.waiting = 0 then s1.tallyDone false else s1
    else s)

/-- TALLY_TIMEOUT (R31): the 2 µs limit passes with an island's acknowledgement missing. -/
def execTallyTimeout (s : State) : Host.Outcome State Fault Refusal :=
  let s := s.begin
  .next (if s.tallyBusy && s.tally.waiting != 0 then s.tallyDone true else s)

/-! ### Energy (R36, R37, R451) -/

/-- Islands whose energy goes to S0 whole: keeper, service, security, field network, always-on. -/
def unbilledIsland (n : Nat) : Bool := decide (n ∈ [0, 1, 26, 29, 30])

/-- The shares of stalls 1 to 15 of an island's energy: floor(E × a / A); a stall that does not exist accrues nothing. -/
def State.energyShares (s : State) (e : IslandEnergy) : List (Nat × Nat) :=
  (List.range 15).map (fun i =>
    let st := i + 1
    (st, if unbilledIsland e.isl || s.stallState st == 0 then 0 else e.energy * (e.acts.getD st 0) / e.total))

/-- One island's energy of one millisecond: its own counter takes the whole, the stalls their shares, S0 the rest. (DESIGN CHOICE, log entry 17) -/
def State.billIsland (s : State) (e : IslandEnergy) : State :=
  if s.islandOn e.isl then
    let sh := s.energyShares e
    let rest := e.energy - sh.foldl (fun t p => t + p.2) 0
    (sh.foldl (fun s p => s.bumpEv (rSTALL_ENERGY p.1) p.2) (s.bumpEv (rISL_ENERGY e.isl) e.energy)).bumpEv
      (rSTALL_ENERGY 0) rest
  else s

/-- ENERGY_BILLING (R451): what each island counted in the last millisecond. (DESIGN CHOICE, log entry 17) -/
def execEnergyBilling (es : List IslandEnergy) (s : State) : Host.Outcome State Fault Refusal :=
  .next (es.foldl (fun s e => s.billIsland e) s.begin)

end Sys2Proof.Machine
end

