-- ==== Sys2Proof/Machine/PipeBase.lean ====
section
/-! DEFINITION. Machine/PipeBase.lean: shared operations of display pipes: states, timing limits, bandwidth of a link, training and faults
(R38 to R41, R44 to R51). -/
namespace Sys2Proof.Machine

/-- A pipe beyond its registers. -/
def pipeDflt (_ : Nat) : PipeSt := {}
def State.pipe (s : State) (p : Nat) : PipeSt := storeGet pipeDflt s.pipes p
def State.modPipe (s : State) (p : Nat) (f : PipeSt → PipeSt) : State :=
  { s with pipes := storePut pipeDflt s.pipes p (f (s.pipe p)) }

/-- Frame count and epoch of a pipe. -/
def State.frameCount (s : State) (p : Nat) : Nat := (s.lv (rFRAME p)).toNat % 2 ^ 32
def State.frameEpoch (s : State) (p : Nat) : Nat := (s.lv (rFRAME p)).toNat / 2 ^ 32

/-! PSTATE.STATE codes. -/
def stSTOPPED : Nat := 0
def stTRAINING : Nat := 1
def stRUNNING : Nat := 2
def stBLANKED : Nat := 3
def stFAULT : Nat := 4

/-- STATE of a pipe. -/
def State.pst (s : State) (p : Nat) : Nat := s.rd (rPSTATE p) fPSTATE_STATE

/-! ### Timing values (R38, R39) -/

/-- A timing: the five words of a TMG or TNX set. -/
structure Timing where
  ha : Nat
  hfp : Nat
  hs : Nat
  hbp : Nat
  va : Nat
  vfp : Nat
  vs : Nat
  vbp : Nat
  bpc : Nat
  pclk : Nat
  deriving DecidableEq, Repr

/-- A timing from its words. -/
def timingOf (h0 h1 v0 v1 clk : W64) : Timing :=
  { ha := getFld h0 fTMG_H0_HACTIVE, hfp := getFld h0 fTMG_H0_HFP, hs := getFld h1 fTMG_H1_HSYNC, hbp := getFld h1 fTMG_H1_HBP
    va := getFld v0 fTMG_V0_VACTIVE, vfp := getFld v0 fTMG_V0_VFP, vs := getFld v1 fTMG_V1_VSYNC, vbp := getFld v1 fTMG_V1_VBP
    bpc := getFld clk fTMG_CLK_BPC, pclk := getFld clk fTMG_CLK_PCLK_KHZ }

/-- The timing in force and the pending one. -/
def State.tmg (s : State) (p : Nat) : Timing :=
  timingOf (s.rw (rTMG_H0 p)) (s.rw (rTMG_H1 p)) (s.rw (rTMG_V0 p)) (s.rw (rTMG_V1 p)) (s.rw (rTMG_CLK p))
def State.tnx (s : State) (p : Nat) : Timing :=
  timingOf (s.rw (rTNX_H0 p)) (s.rw (rTNX_H1 p)) (s.rw (rTNX_V0 p)) (s.rw (rTNX_V1 p)) (s.rw (rTNX_CLK p))

def Timing.htotal (t : Timing) : Nat := t.ha + t.hfp + t.hs + t.hbp
def Timing.vtotal (t : Timing) : Nat := t.va + t.vfp + t.vs + t.vbp

/-- The limits of R39; BPC 0x3 is out of range. -/
def Timing.inLimits (t : Timing) (guard : Nat) : Bool :=
  decide (64 ≤ t.ha ∧ t.ha ≤ 3840 ∧ t.ha % 2 = 0) && decide (64 ≤ t.va ∧ t.va ≤ 3840) && decide (t.ha * t.va ≤ 8294400) &&
  decide (2 ≤ t.hfp ∧ t.hfp % 2 = 0 ∧ t.hfp ≤ 4094) && decide (2 ≤ t.hs ∧ t.hs % 2 = 0 ∧ t.hs ≤ 1022) &&
  decide (2 ≤ t.hbp ∧ t.hbp % 2 = 0 ∧ t.hbp ≤ 4094) && decide (64 ≤ t.hfp + t.hs + t.hbp) && decide (t.htotal ≤ 8190) &&
  decide (1 ≤ t.vfp ∧ t.vfp ≤ 255) && decide (guard < t.va) && decide (1 ≤ t.vs ∧ t.vs ≤ 63) &&
  decide (1 ≤ t.vbp ∧ t.vbp ≤ 255) && decide (25000 ≤ t.pclk ∧ t.pclk ≤ 600000) && decide (t.bpc ≤ 2)

/-- Bits per component of a BPC code. -/
def bpcBits (c : Nat) : Nat := 6 + 2 * c
/-- Lanes of a LANES code, and the rate of a RATE code in kbit/s per lane. -/
def lanesOf (c : Nat) : Nat := 2 ^ c
def rateKbps (c : Nat) : Nat := if c = 0 then 1620000 else if c = 1 then 2700000 else if c = 2 then 5400000 else 8100000

/-- R50: PCLK × 3 × BPC ≤ LANES × RATE × 0.8. No timing fits the LANES code 0x3. (DESIGN CHOICE, log entry 81) -/
def Timing.fits (t : Timing) (rate lanes : Nat) : Bool :=
  decide (lanes ≤ 2) && decide (t.pclk * 3 * bpcBits t.bpc * 10 ≤ lanesOf lanes * rateKbps rate * 8)

/-- The island clock of R40 in units of 6.25 MHz: max(25 MHz, PCLK / 2 rounded up). -/
def Timing.islandStep (t : Timing) : Nat := max 4 ((t.pclk + 12499) / 12500)

/-! ### Links -/

/-- Is HPD ignored (eDP only, R51)? -/
def State.hpdIgnored (s : State) (p : Nat) : Bool :=
  s.on (rLINK_CFG p) fLINK_CFG_MODE && s.on (rLINK_CFG p) fLINK_CFG_HPD_IGNORE

/-- The settings of R49 in the order tried from one setting on: next lower rate with the same lanes, then half the lanes from the
highest rate. (DESIGN CHOICE, log entry 20) -/
def lowerSettings (maxRate rate lanes : Nat) : List (Nat × Nat) :=
  ((List.range (rate + 1)).reverse.map (fun r => (r, lanes))) ++
    ((List.range lanes).reverse.flatMap (fun l => (List.range (maxRate + 1)).reverse.map (fun r => (r, l))))

/-- The first setting at or after one that meets R50. -/
def firstFitting (t : Timing) (l : List (Nat × Nat)) : Option (Nat × Nat) := l.find? (fun x => t.fits x.1 x.2)

/-- WB_STAT.BUSY: a frame is being written, or the last write of one has not completed (R93). -/
def State.showWb (s : State) (p : Nat) : State :=
  s.wr (rWB_STAT p) fWB_STAT_BUSY (b2n (((s.pipe p).wbOn && !(s.pipe p).wbStop) || !(s.pipe p).wbLast.isEmpty))

/-- The frame that ends, if written whole, waits for its last write (R92). -/
def State.wbClose (s : State) (p : Nat) : State :=
  let x := s.pipe p
  if x.wbOn && !x.wbStop then
    s.modPipe p (fun y => { y with wbOn := false, wbLast := y.wbLast ++ [(s.frameCount p % 2 ^ 16, s.son (rWB_CFG p) fWB_CFG_ONESHOT)] })
  else s

/-- The pipe is no longer RUNNING: it fetches nothing for the coming frame, raises no PANIC and writes no more of this frame (R44, R76, R91). -/
def State.dropFetch (s : State) (p : Nat) : State :=
  (((s.wr (rFETCH_STAT p) fFETCH_STAT_PANIC 0).wr (rFETCH_STAT p) fFETCH_STAT_LEVEL 0).modPipe p
    (fun x => { x with nextRunning := false, ferrNext := 0, spans := [], awn := [], awnAgain := .none, openLine := .none, wbOn := false, wbStop := false })).showWb p

/-- A training begins for a reason: the wait for HPD first where the pipe does not ignore it (R48 step 1): HPD is low, or its last rising edge is
less than 100 ms ago. -/
def State.beginTraining (s : State) (p : Nat) (r : TrainReason) (setting : Option (Nat × Nat)) : State :=
  let wait := !(s.hpdIgnored p) && (!(s.pipe p).hpdStable || (s.pipe p).hpdLow) && decide (r ≠ .sink)
  let s1 := ((s.wr (rPSTATE p) fPSTATE_STATE stTRAINING).wr (rPSTATE p) fPSTATE_FAULT_CAUSE 0).wr (rLINK_STAT p)
    fLINK_STAT_TRAINED 0
  let s2 := (s1.dropFetch p).modPipe p (fun x => { x with reason := r, waitHpd := wait, setting := setting, retryDue := false, awaitHpd := false })
  if r = .retry ∨ r = .sink then s2.bumpErr (rRETRAIN p) else s2

/-- Has the training of a link ended in the gap of a timing change, whose first frame still waits for the synthesiser? -/
def PipeSt.gapTrained (x : PipeSt) : Bool := x.gap && x.linkReady && (x.reason == .live || x.reason == .sink)

/-- Is a training running, past the wait for HPD? -/
def State.trainingNow (s : State) (p : Nat) : Bool :=
  s.works && s.pst p == stTRAINING && !(s.pipe p).waitHpd && decide ((s.pipe p).stop ≠ .idle) && !(s.pipe p).gapTrained

/-- Does the transmitter use AUX itself: for a lane-status read or for training (R48, R51, R52)? -/
def State.auxBusySelf (s : State) (p : Nat) : Bool := (s.pipe p).laneRead || s.trainingNow p

/-- One use of AUX by the transmitter has ended: a waiting software transaction starts, if no other such use goes on (R52). -/
def State.auxFree (s : State) (p : Nat) : State :=
  if s.auxBusySelf p then s else s.modPipe p (fun x => if x.aux = .waiting then { x with aux := .active, auxTries := 0 } else x)

/-- A pipe enters FAULT (R45, R47). -/
def State.pipeFault (s : State) (p cause : Nat) : State :=
  let s1 := ((s.wr (rPSTATE p) fPSTATE_STATE stFAULT).wr (rPSTATE p) fPSTATE_FAULT_CAUSE cause).wr (rLINK_STAT p)
    fLINK_STAT_TRAINED 0
  ((s1.dropFetch p).modPipe p (fun x => { x with reason := .none, waitHpd := false, setting := .none, retryDue := false, awaitHpd := false,
                                                 laneRead := false, linkReady := true })).auxFree p

/-- FAULT cause of a failed training: LINK_LOST for a retrain that the sink caused (R45, R47), else the given one. -/
def failCause (r : TrainReason) (other : Nat) : Nat := if r = .sink then 3 else other

/-- Is the link's HPD condition for a retry met: high, or ignored (R47)? -/
def State.hpdOk (s : State) (p : Nat) : Bool := s.hpdIgnored p || (s.pipe p).hpd

/-- The idle pattern starts for a STOP (R46): the generator halts, a pending timing change ends. SYNC_STAT and the trim keep their values; a frame written
whole at this boundary still waits for its last write (R92). (DEDUCED, log entry 18; DESIGN CHOICE, log entries 82, 107) -/
def State.stopIdle (s : State) (p : Nat) : State :=
  let s1 := (((((s.wbClose p).wr (rTSTAT p) fTSTAT_PENDING 0).wr (rTTL p) fTTL_VALID 0).wr (rTTL p) fTTL_WINDOW 0).wr (rFETCH_STAT p)
    fFETCH_STAT_PANIC 0).wr (rFETCH_STAT p) fFETCH_STAT_LEVEL 0
  let s2 := s1.modPipe p (fun x => {
    x with stop := .idle, scanning := false, goTaken := false, gap := false, reason := .none, waitHpd := false, setting := .none,
           laneRead := false, blackLeft := 0, retryDue := false, awaitHpd := false, realign := false, aligning := false,
           nextRunning := false, ferrNext := 0, spans := [], awn := [], awnAgain := .none, openLine := .none, wbOn := false, wbStop := false,
           latched := false, vblank := false, base := .none, accepted := .none, bound := .none, nextEdges := [], alignDue := false,
           alignPix := 0, present := false, offEdge := false, lockRun := 0 })
  (s2.showWb p).auxFree p

/-- PCTRL.STOP (R46): at the next frame boundary in RUNNING and BLANKED, at once otherwise. In the gap of a live change the next boundary is the one at
which the new timing would begin. (DEDUCED, log entry 18) -/
def State.pipeStop (s : State) (p : Nat) : State :=
  let x := s.pipe p
  if s.pst p = stSTOPPED ∨ x.stop ≠ .none then s
  else if s.pst p = stRUNNING ∨ s.pst p = stBLANKED then s.modPipe p (fun x => { x with stop := .atBoundary })
  else s.stopIdle p

/-- The conditions of R47 for a retry out of FAULT, looked at when something changed: AUTO_RECOVER, and HPD_LOST with HPD
stable, or another cause after its 1,000 ms with HPD high or ignored; never PCLK_UNLOCK. -/
def State.tryRecover (s : State) (p : Nat) : State :=
  let x := s.pipe p
  let cause := s.rd (rPSTATE p) fPSTATE_FAULT_CAUSE
  if s.works = false ∨ s.pst p ≠ stFAULT ∨ s.on (rPCTRL p) fPCTRL_AUTO_RECOVER = false ∨ cause = 4 ∨ x.stop ≠ .none then s
  else if cause = 1 ∨ x.awaitHpd then
    if x.hpd && x.hpdStable then s.beginTraining p .retry .none else s
  else if x.retryDue then
    if s.hpdOk p then s.beginTraining p .retry .none else s.modPipe p (fun x => { x with awaitHpd := true })
  else s

end Sys2Proof.Machine
end

