-- ==== Sys2Proof/Machine/Sync.lean ====
section
/-! DEFINITION. Machine/Sync.lean: frame references, lock, trim and phase (R43, R56 to R62, R442, R443). -/
namespace Sys2Proof.Machine

/-- An integer held within ±m. -/
def clampI (m v : Int) : Int := max (-m) (min m v)

/-- The source code in force of a pipe (R42 SYNC_SRC). -/
def State.syncSrcOf (s : State) (p : Nat) : Nat := s.frd (rSYNC_SRC p) fSYNC_SRC_SRC

/-! ### The write of SYNC_SRC (R43) -/

/-- Following references from pipe `q`, is pipe `p` reached? `next` gives each pipe's source code. -/
def reaches (next : Nat → Nat) (p : Nat) : Nat → Nat → Bool
  | 0, _ => false
  | fuel + 1, q => q == p || (decide (8 ≤ next q) && reaches next p fuel (next q - 8))

/-- The offsets of a SYNC_SRC word lie within the timing in force, OFFSET_PIX even. -/
def State.syncOffsetsOk (s : State) (p : Nat) (w : W64) : Bool :=
  decide (getFld w fSYNC_SRC_OFFSET_LINES < (s.tmg p).vtotal) && decide (getFld w fSYNC_SRC_OFFSET_PIX + 2 ≤ (s.tmg p).htotal) &&
    decide (getFld w fSYNC_SRC_OFFSET_PIX % 2 = 0)

/-- SYNC_SRC takes a word: a loop or a value out of range is refused and named in TSTAT.REJECT; a write that is both shows RANGE. (DESIGN CHOICE, log entry 81) -/
def State.wrSyncSrc (s : State) (p : Nat) (w : W64) : State :=
  let src := getFld w fSYNC_SRC_SRC
  let written (q : Nat) : Nat := s.rd (rSYNC_SRC q) fSYNC_SRC_SRC
  if !(decide (src ≤ 4) || decide (8 ≤ src)) || !(s.syncOffsetsOk p w) then (s.wr (rTSTAT p) fTSTAT_REJECT 1).refuse (rSYNC_SRC p)
  else if decide (8 ≤ src) && (reaches written p 9 (src - 8) || reaches s.syncSrcOf p 9 (src - 8)) then
    (s.wr (rTSTAT p) fTSTAT_REJECT 4).refuse (rSYNC_SRC p)
  else
    let s1 := if s.rd (rSYNC_SRC p) fSYNC_SRC_SRC = src then s else s.modPipe p (fun x => { x with nextEdges := [] })
    s1.settingWrite (rSYNC_SRC p) w true false

/-! ### The reference (R57, R60, R442) -/

/-- The pixels of one frame. -/
def Timing.framePix (t : Timing) : Nat := t.htotal * t.vtotal

/-- The whole number of nominal frame periods nearest to the time from `b` to `t`, at least one; and does `t` lie within ±2 % of a period around that
expected time (R60, R442)? Times are in cycles of 1.6 GHz. -/
def Timing.periods (tm : Timing) (b t : Nat) : Nat := max 1 (((t - b) * tm.pclk + 1600000 * tm.framePix / 2) / (1600000 * tm.framePix))
def Timing.expected (tm : Timing) (b t : Nat) : Bool :=
  let px := (t - b) * tm.pclk
  let e := tm.periods b t * (1600000 * tm.framePix)
  decide (((px - e) + (e - px)) * 50 ≤ 1600000 * tm.framePix)

/-- The trim in force, in ppm. -/
def State.trimPpm (s : State) (p : Nat) : Int := sx 16 (s.rd (rSYNC_TRIM p) fSYNC_TRIM_TRIM_PPM)

/-- The pixels of the trimmed clock, modulo a frame, from the aligned position after the edge at `b` to a boundary at `t` before or after it; a fraction
is rounded to the nearest pixel. (DESIGN CHOICE, log entry 81) -/
def State.phaseMod (s : State) (p t b : Nat) : Int :=
  let tm := s.tmg p
  let off := (s.frd (rSYNC_SRC p) fSYNC_SRC_OFFSET_LINES % tm.vtotal) * tm.htotal +
    s.frd (rSYNC_SRC p) fSYNC_SRC_OFFSET_PIX % tm.htotal
  let clk : Int := (tm.pclk : Int) * (1000000 + s.trimPpm p)
  ((2 * (((t : Int) - (b : Int)) * clk) + 1600000000000) / 3200000000000 - (off : Int)) % (tm.framePix : Int)

/-- The phase error in pixels of a boundary at `t` against the edge at `b`: the signed distance from the aligned position, the smaller way round; an
error of exactly half a frame counts as negative. (DESIGN CHOICE, log entry 81) -/
def State.phaseErr (s : State) (p t b : Nat) : Int :=
  let n := (s.tmg p).framePix
  let r := s.phaseMod p t b
  clampI 524287 (if r * 2 ≥ (n : Int) then r - n else r)

/-- PHASE_ERR shows the error of a boundary at `t` against the edge at `b`. -/
def State.showPhase (s : State) (p t b : Nat) : State := s.wr (rSYNC_STAT p) fSYNC_STAT_PHASE_ERR (toTwos 20 (s.phaseErr p t b))

/-- A frame of the reference is missing (R60): HOLDOVER, MISSED, the trim frozen, LOCKED clears; at the eighth SYNC_LOST. (DEDUCED, log entry 21) -/
def State.refMissing (s : State) (p : Nat) : State :=
  let m := s.rd (rSYNC_STAT p) fSYNC_STAT_MISSED
  let s1 := ((s.wr (rSYNC_STAT p) fSYNC_STAT_HOLDOVER 1).wr (rSYNC_STAT p) fSYNC_STAT_LOCKED 0).wr (rSYNC_STAT p)
    fSYNC_STAT_MISSED (min 8 (m + 1))
  let s2 := s1.modPipe p (fun x => { x with present := false, lockRun := 0, corrLines := 0, corrPix := 0 })
  if m = 7 then (s2.wr (rSYNC_STAT p) fSYNC_STAT_SYNC_LOST 1).bumpErr (rSYNC_LOSS p) else s2

/-- The new trim in ppm after a reference period of `k` frames that lasted `px` pixels × 1,600,000: toward the reference by at
most 500 ppm, within ±20,000 ppm in total. -/
def newTrim (cur : Int) (px full : Nat) : Int :=
  let want : Int := 1000000 * ((full : Int) - (px : Int)) / (px : Int)
  clampI 20000 (cur + clampI 500 (want - cur))

/-- A reference edge at time `t`: accepted within ±2 % of a period around a whole number of periods after the base, when trim and the phase of the last
boundary follow it; otherwise OUT_OF_RANGE, the new base, and from the second in a row on a missing frame each. The first edge of a reference is its
base. (DEDUCED, log entry 21) -/
def State.refEdge (s : State) (p t : Nat) : State :=
  let x := s.pipe p
  match x.base with
  | none => s.modPipe p (fun x => { x with base := some t })
  | some b =>
    let tm := s.tmg p
    if tm.expected b t then
      let cur := s.trimPpm p
      let new := newTrim cur ((t - b) * tm.pclk) (tm.periods b t * (1600000 * tm.framePix))
      let s1 := (((s.wr (rSYNC_STAT p) fSYNC_STAT_HOLDOVER 0).wr (rSYNC_STAT p) fSYNC_STAT_OUT_OF_RANGE 0).wr (rSYNC_STAT p)
        fSYNC_STAT_MISSED 0).wr (rSYNC_TRIM p) fSYNC_TRIM_TRIM_PPM (toTwos 16 new)
      let s2 := match x.bound with | some f => s1.showPhase p f t | none => s1
      s2.modPipe p (fun x => { x with base := some t, accepted := some t, present := true, offEdge := false
                                      trimMoved := decide (10 ≤ (new - cur).natAbs) })
    else
      let s1 := (s.wr (rSYNC_STAT p) fSYNC_STAT_OUT_OF_RANGE 1).modPipe p (fun y => { y with base := some t, offEdge := true })
      if x.offEdge then s1.refMissing p else s1

/-- An edge of the source with code `code` reaches a pipe that runs its generator: as its reference, or as the source that a written SYNC_SRC brings into
force at the next boundary (R446). -/
def State.seeEdge (s : State) (q code t : Nat) : State :=
  if !((s.pipe q).scanning || (s.pipe q).gap) then s
  else if s.syncSrcOf q = code then s.refEdge q t
  else if s.rd (rSYNC_SRC q) fSYNC_SRC_SRC = code then s.modPipe q (fun x => { x with nextEdges := t :: x.nextEdges.take 1 })
  else s

/-- The pipes that follow pipe `p` see its frame boundary as their reference edge (R56). -/
def State.edgeToDependents (s : State) (p t : Nat) : State :=
  overN 8 (fun q s => s.seeEdge q (8 + p) t) s

/-! ### Phase and lock at a frame boundary (R56, R58, R59, R62) -/

/-- The pixels, in pairs, by which an alignment frame that begins at `t` is longer, so that the next boundary is aligned (R61): less than a frame. (DESIGN CHOICE, log entry 81) -/
def State.alignLen (s : State) (p t : Nat) : Nat :=
  match (s.pipe p).accepted with
  | none => 0
  | some b => ((-(s.phaseMod p t b)) % ((s.tmg p).framePix : Int)).toNat / 2 * 2

/-- Is the frame that begins an alignment frame, if its reference allows: a black first frame after START or of a live change, or one of REALIGN (R61)? -/
def PipeSt.alignAsked (x : PipeSt) : Bool := decide (x.blackLeft = 1) && (x.alignDue || x.realign)

/-- SYNC_SRC as written comes into force (R62); a change clears LOCKED, which is a drop while the reference is present (R59), and a
change of source forgets the old reference, while TRIM_PPM, OUT_OF_RANGE and SYNC_LOST keep their values. Where the frame that begins is to be aligned, the
edges of the new source seen already are its base and, if they lie whole periods apart, accepted (R446). (DEDUCED, log entry 21; DESIGN CHOICE, log entry 82) -/
def State.takeSyncSrc (s : State) (p : Nat) : State :=
  if s.rw (rSYNC_SRC p) = s.frw (rSYNC_SRC p) then s
  else
    let sameSrc := s.rd (rSYNC_SRC p) fSYNC_SRC_SRC == s.syncSrcOf p
    let drop := s.on (rSYNC_STAT p) fSYNC_STAT_LOCKED && (s.pipe p).present
    let s0 := (s.latch (rSYNC_SRC p)).wr (rSYNC_STAT p) fSYNC_STAT_LOCKED 0
    let s1 := if drop then s0.bumpErr (rLOCK_DROP p) else s0
    let s2 := s1.modPipe p (fun x => { x with lockRun := 0 })
    if sameSrc then s2
    else
      ((s2.wr (rSYNC_STAT p) fSYNC_STAT_HOLDOVER 0).wr (rSYNC_STAT p) fSYNC_STAT_MISSED 0).modPipe p
        (fun x =>
          let e := if x.alignAsked then x.nextEdges else []
          let ok := match e with | [t, b] => (s.tmg p).expected b t | _ => false
          { x with base := e.head?, accepted := if ok then e.head? else .none, present := ok, offEdge := false, nextEdges := [] })

/-- The lock rules at a frame boundary at time `t`. -/
def State.syncBoundary (s0 : State) (p t : Nat) : State :=
  let s := s0.takeSyncSrc p
  let x := s.pipe p
  let s1 :=
    match x.accepted with
    | none => s
    | some b =>
      if x.present then
        let e := s.phaseErr p t b
        let s1 := s.showPhase p t b
        if decide (e.natAbs ≤ 4) && !x.trimMoved then
          let s2 := s1.modPipe p (fun x => { x with lockRun := x.lockRun + 1 })
          if 3 ≤ x.lockRun then (s2.wr (rSYNC_STAT p) fSYNC_STAT_LOCKED 1).wr (rSYNC_STAT p) fSYNC_STAT_SYNC_LOST 0 else s2
        else
          let s2 := s1.modPipe p (fun x => { x with lockRun := 0 })
          if decide ((s.tmg p).htotal < e.natAbs) && s.on (rSYNC_STAT p) fSYNC_STAT_LOCKED then
            (s2.wr (rSYNC_STAT p) fSYNC_STAT_LOCKED 0).bumpErr (rLOCK_DROP p)
          else s2
      else s
  let s2 :=
    if s1.on (rSYNC_STAT p) fSYNC_STAT_SYNC_LOST && !x.present then
      let cur := s1.trimPpm p
      s1.wr (rSYNC_TRIM p) fSYNC_TRIM_TRIM_PPM (toTwos 16 (cur - clampI 500 cur))
    else s1
  s2.modPipe p (fun x => { x with corrLines := 0, corrPix := 0 })

/-- The correction of a phase error in one frame, against the error, as lines of VFP and pixels of the last line of VBP (R58): one line where that makes the
error smaller; of a smaller error up to 4 pixels, in pairs. (DEDUCED, log entry 21) -/
def corrOf (htotal : Nat) (e : Int) : Int × Int :=
  if htotal < 2 * e.natAbs then (-(e.sign), 0) else (0, -(2 * clampI 2 (Int.tdiv e 2)))

/-- The phase correction of a frame, decided at the start of its vertical blanking (R58, R443). (DEDUCED, log entry 21) -/
def State.decideCorrection (s : State) (p : Nat) : State :=
  let x := s.pipe p
  if x.present && !x.aligning then
    let c := corrOf (s.tmg p).htotal (sx 20 (s.rd (rSYNC_STAT p) fSYNC_STAT_PHASE_ERR))
    s.modPipe p (fun x => { x with corrLines := c.1, corrPix := c.2 })
  else s

/-! ### Sync pins (R63, R64) -/

/-- Does SYNC_OUTo follow a pipe's frame boundaries? -/
def State.syncOutOf (s : State) (o p : Nat) : Bool := s.rd (rSYNC_OUT o) fSYNC_OUT_MODE == 1 && s.rd (rSYNC_OUT o) fSYNC_OUT_PIPE == p

/-- The level of a SYNC_OUT pin (R64): off, inactive; PIPE, active while asserted; PASS, the level of the input. POL = 1: active-low, in PASS without
effect. (DEDUCED, log entry 83) -/
def State.syncLevel (s : State) (o : Nat) : Bool :=
  let pol := s.on (rSYNC_OUT o) fSYNC_OUT_POL
  match s.rd (rSYNC_OUT o) fSYNC_OUT_MODE with
  | 1 => bitOf s.syncOut o != pol
  | 2 => bitOf s.syncIn (s.rd (rSYNC_OUT o) fSYNC_OUT_IN)
  | _ => pol

/-- The pins whose level differs from that in the state before say so. -/
def State.syncDrive (s old : State) : State :=
  overN 2 (fun o t => if s.syncLevel o = old.syncLevel o then t else t.emit (.syncPin o (s.syncLevel o))) s

/-- The pins that follow a pipe go inactive: it is STOPPED (R64). -/
def State.syncOutStop (s : State) (p : Nat) : State :=
  (overN 2 (fun o s => if s.syncOutOf o p then { s with syncOut := setBitN s.syncOut o false } else s) s).syncDrive s

end Sys2Proof.Machine
end

