-- ==== Sys2Proof/Machine/Compose.lean ====
section
/-! DEFINITION. Machine/Compose.lean: layers, culling, fetch, composition of a line, the fetch FIFO (R66 to R97, R131, R137, R139). -/
namespace Sys2Proof.Machine

/-! ### Settings seen through one of their three copies -/

/-- Which copy of a pipe's settings: in force (taken at a latch point) or of the frame now scanned. -/
inductive View where
  | force | scan
  deriving DecidableEq, Repr

def State.vrd (s : State) (v : View) (a : Nat) (f : Fld) : Nat :=
  match v with
  | .force => s.frd a f
  | .scan => s.srd a f

/-- The destination rectangle of a layer and its size: x, y, w, h. -/
structure Rect where
  x : Nat
  y : Nat
  w : Nat
  h : Nat
  deriving DecidableEq, Repr

def Rect.has (r : Rect) (x y : Nat) : Bool := decide (r.x ≤ x ∧ x < r.x + r.w) && decide (r.y ≤ y ∧ y < r.y + r.h)

def State.layerRect (s : State) (v : View) (p m : Nat) : Rect :=
  { x := s.vrd v (rLPOS p m) fLPOS_DST_X, y := s.vrd v (rLPOS p m) fLPOS_DST_Y
    w := s.vrd v (rLSIZE p m) fLSIZE_W, h := s.vrd v (rLSIZE p m) fLSIZE_H }

def State.layerOn (s : State) (v : View) (p m : Nat) : Bool := s.vrd v (rLCFG p m) fLCFG_EN == 1
def State.layerFmt (s : State) (v : View) (p m : Nat) : Nat := s.vrd v (rLCFG p m) fLCFG_FORMAT

/-- A pitch's rectangle. -/
def State.pitchRect (s : State) (v : View) (p k : Nat) : Rect :=
  { x := s.vrd v (rPPOS p k) fPPOS_PX, y := s.vrd v (rPPOS p k) fPPOS_PY
    w := s.vrd v (rPSIZE p k) fPSIZE_PW, h := s.vrd v (rPSIZE p k) fPSIZE_PH }

def State.pitchOn (s : State) (v : View) (p k : Nat) : Bool := s.vrd v (rPCFG p k) fPCFG_EN == 1

/-- Do two rectangles share a pixel? -/
def Rect.meets (a b : Rect) : Bool :=
  decide (a.x < b.x + b.w ∧ b.x < a.x + a.w) && decide (a.y < b.y + b.h ∧ b.y < a.y + a.h)

/-- The rectangle clipped to an active area of w × h pixels (R68). -/
def Rect.clip (r : Rect) (w h : Nat) : Rect :=
  { r with w := min (r.x + r.w) w - r.x, h := min (r.y + r.h) h - r.y }

/-! ### Culling (R73, R74) -/

/-- The rectangle of tile (tx, ty) in an active area of w × h. -/
def tileRect (tx ty w h : Nat) : Rect := Rect.clip ⟨32 * tx, 32 * ty, 32, 32⟩ w h

/-- Does layer m occlude a tile in the frame whose settings `v` shows? `rp`: the layers re-projected in it. -/
def State.occludes (s : State) (v : View) (rp p m tx ty : Nat) : Bool :=
  let t := tileRect tx ty (s.tmg p).ha (s.tmg p).va
  let r := (s.layerRect v p m).clip (s.tmg p).ha (s.tmg p).va
  s.layerOn v p m && s.vrd v (rLCFG p m) fLCFG_NO_OCCLUDE == 0 && s.vrd v (rLALPHA p m) fLALPHA_ALPHA == 0xFFF &&
  (!(fmtAlpha (s.layerFmt v p m)) || s.vrd v (rLCFG p m) fLCFG_IGNORE_ALPHA == 1) && !(bitOf rp m) &&
  decide (r.x ≤ t.x ∧ t.x + t.w ≤ r.x + r.w ∧ r.y ≤ t.y ∧ t.y + t.h ≤ r.y + r.h) &&
  (List.range 16).all (fun k => !(s.pitchOn v p k && bitOf (s.vrd v (rPCFG p k) fPCFG_LAYERS) m && (s.pitchRect v p k).meets t))

/-- Is layer k not fetched for a tile because a layer above it occludes the tile? -/
def State.culled (s : State) (v : View) (rp p k tx ty : Nat) : Bool :=
  (List.range 8).any (fun m => decide (k < m) && s.occludes v rp p m tx ty)

/-- The tiles that a layer's clipped rectangle meets. -/
def State.layerTiles (s : State) (v : View) (p m : Nat) : List (Nat × Nat) :=
  let r := (s.layerRect v p m).clip (s.tmg p).ha (s.tmg p).va
  if s.layerOn v p m && decide (0 < r.w ∧ 0 < r.h) then
    (List.range ((r.y + r.h + 31) / 32 - r.y / 32)).flatMap (fun j =>
      (List.range ((r.x + r.w + 31) / 32 - r.x / 32)).map (fun i => (r.x / 32 + i, r.y / 32 + j)))
  else []

/-- How many tiles of a layer are culled, and how many fetched. -/
def State.cullCount (s : State) (v : View) (rp p m : Nat) : Nat :=
  ((s.layerTiles v p m).filter (fun t => s.culled v rp p m t.1 t.2)).length
def State.fetchTiles (s : State) (v : View) (rp p m : Nat) : Nat :=
  ((s.layerTiles v p m).filter (fun t => !(s.culled v rp p m t.1 t.2))).length

/-! ### Bandwidth of composition (R78) -/

/-- Bytes per pixel of every enabled layer (twice with REPROJ_EN) and of the enabled awning. -/
def State.sumBpp (s : State) (v : View) (p : Nat) : Nat :=
  (List.range 8).foldl (fun t m =>
    if s.layerOn v p m then t + fmtBytes (s.layerFmt v p m) * (1 + s.vrd v (rLCFG p m) fLCFG_REPROJ_EN) else t)
    (if s.vrd v (rACFG p) fACFG_EN = 1 then fmtBytes (s.vrd v (rACFG p) fACFG_FORMAT) else 0)

/-- F_fetch = 1.25 × PCLK × Σ bpp / 64 in units of 6.25 MHz, rounded up. -/
def State.fetchStep (s : State) (v : View) (p : Nat) : Nat :=
  (5 * (s.tmg p).pclk * s.sumBpp v p + 4 * 64 * 6250 - 1) / (4 * 64 * 6250)

/-- Does a configuration need more than 800 MHz (128 steps), or, after a failure of its rail, more than the confirmed voltage allows (R472)? At a latch
point that also takes a timing change, by the pixel clock still in force. (DESIGN CHOICE, log entry 81) -/
def State.tooFast (s : State) (v : View) (p : Nat) : Bool :=
  decide (4 * 64 * 6250 * s.railStepMax 0 < 5 * (s.tmg p).pclk * s.sumBpp v p)

/-- The step a pipe island needs: the larger of R40 and R78. -/
def State.pipeNeed (s : State) (v : View) (p : Nat) : Nat := max (s.tmg p).islandStep (s.fetchStep v p)
/-- What a pipe that is not STOPPED needs: in this frame and, from its latch point on, in the next. -/
def State.clockNeed (s : State) (p : Nat) : Nat := if s.rd (rPSTATE p) fPSTATE_STATE = 0 then 0 else max (s.pipeNeed .scan p) (s.pipeNeed .force p)

/-- The pipe island's step: what it needs, and at most what the settled voltage allows (R448). (DEDUCED, log entry 70) -/
def State.pipeStep (s : State) (p : Nat) : Nat := min (s.railStepNow 0) (if (s.pipe p).latched then s.clockNeed p else s.pipeNeed .scan p)

/-- VDD_PIPE is requested for the fastest pipe, in this frame and in the next (R447, R448). -/
def State.pipeVolt (s : State) : State :=
  s.railAsk 0 (mvFor 0 ((List.range 8).foldl (fun m p => max m (s.clockNeed p)) 0))

/-- PSTATE.ISL_STEP and the island's CUR_STEP follow the clock; 0 while the pipe is STOPPED and its clock gated. -/
def State.setIslandStep (s : State) (p : Nat) : State :=
  let k := if s.pst p = stSTOPPED then 0 else s.pipeStep p
  (s.wr (rPSTATE p) fPSTATE_ISL_STEP k).wr (rISL_STAT (3 + p)) fISL_STAT_CUR_STEP k

/-! ### Source pixels (R69, R96) -/

/-- The stall address of source column i, row j of a layer, and of the pair for 4:2:2. -/
def State.srcAddr (s : State) (v : View) (p m i j : Nat) : Nat :=
  let f := s.layerFmt v p m
  let sx0 := s.vrd v (rLSRC p m) fLSRC_SRC_X
  let x := if f = 7 then (sx0 / 2 * 2 + i) else sx0 + i
  s.vrd v (rCBUF_LO p m) fCBUF_LO_ADDR * 64 + 2 ^ 32 * s.vrd v (rCBUF_HI p m) fCBUF_HI_ADDR +
    (s.vrd v (rLSRC p m) fLSRC_SRC_Y + j) * s.vrd v (rLSTRIDE p m) fLSTRIDE_STRIDE64 * 64 + x * fmtBytes f

/-- The bytes of column c in its row, from the row's first column: first and number; a 4:2:2 column has those of its pair. -/
def colBytes (f c : Nat) : Nat × Nat := if f = 7 then (c / 2 * 4, 4) else (c * fmtBytes f, fmtBytes f)

/-- The pixel of column i in a span's bytes. -/
def spanPixel (f std : Nat) (full : Bool) (col0 i : Nat) (b : List Byte) : Px :=
  if f = 7 then
    let k := (i - col0) / 2
    decode422 std full (i % 2 == 1) (ofBytesLE ((b.drop (4 * k)).take 4))
  else decodeWord f std full (ofBytesLE ((b.drop ((i - col0) * fmtBytes f)).take (fmtBytes f)))

/-- A byte of a source row as a span brought it for an output line. -/
def spanByte (l : List Span) (m line row j : Nat) : Option Byte :=
  match l.find? (fun t => t.m == m && t.line == line && t.row == row && decide (t.off ≤ j ∧ j < t.off + t.n)) with
  | some t => match t.bytes with | some b => b[j - t.off]? | none => none
  | none => none

/-- The bytes, if every one is there. -/
def allBytes : List (Option Byte) → Option (List Byte)
  | [] => some []
  | none :: _ => none
  | some b :: l => match allBytes l with | some r => some (b :: r) | none => none

/-- A source pixel of layer m for an output line: transparent where its span did not arrive or failed (R77, R96). -/
def State.srcPixel (s : State) (p m line row col : Nat) : Px :=
  let f := s.layerFmt .scan p m
  let r := colBytes f col
  match allBytes ((List.range r.2).map (fun i => spanByte (s.pipe p).spans m line row (r.1 + i))) with
  | some b =>
    let px := spanPixel f (s.srd (rLCFG p m) fLCFG_YCC_STD) (s.son (rLCFG p m) fLCFG_YCC_FULL) (if f = 7 then col / 2 * 2 else col) col b
    if s.son (rLCFG p m) fLCFG_IGNORE_ALPHA then { px with a := 0xFFF } else px
  | none => Px.clear

/-- The transform of a layer in the frame now scanned, clamped (R95). -/
def State.ltf (s : State) (v : View) (p m : Nat) : Ltf :=
  { a := sx 16 (s.vrd v (rLTF_AB p m) fLTF_AB_A), b := sx 16 (s.vrd v (rLTF_AB p m) fLTF_AB_B)
    d := sx 16 (s.vrd v (rLTF_DE p m) fLTF_DE_D), e := sx 16 (s.vrd v (rLTF_DE p m) fLTF_DE_E)
    c := sx 20 (s.vrd v (rLTF_C p m) fLTF_C_C), f := sx 20 (s.vrd v (rLTF_F p m) fLTF_F_F) }

/-- A pixel of the self-test pattern in its layer's rectangle (R399), which the spec only names. (DESIGN CHOICE, log entry 66) -/
def patPixel (kind x y : Nat) : Px :=
  let v := (Config.pattern kind x y).toNat
  ⟨v % 4096, v / 2 ^ 12 % 4096, v / 2 ^ 24 % 4096, v / 2 ^ 36 % 4096⟩

/-- The sample of layer m at output pixel (x, y) of the frame now scanned: of the self-test pattern; or of its source, re-projected or
not. -/
def State.layerSample (s : State) (p m x y : Nat) : Px :=
  let r := s.layerRect .scan p m
  let pat := (s.pipe p).patNow.filter (fun q => q.1 == m)
  if pat.isSome then patPixel (pat.getD (0, 0)).2 (x - r.x) (y - r.y)
  else if bitOf (s.pipe p).reproj m then
    let edge := s.son (rLCFG p m) fLCFG_REPROJ_EDGE
    let src (i j : Int) : Px :=
      if edge && (decide (i < 0) || decide ((r.w : Int) ≤ i) || decide (j < 0) || decide ((r.h : Int) ≤ j)) then Px.clear
      else s.srcPixel p m y (max 0 (min ((r.h : Int) - 1) j)).toNat (max 0 (min ((r.w : Int) - 1) i)).toNat
    reproject ((s.ltf .scan p m).clamp r.w) src (x - r.x) (y - r.y)
  else s.srcPixel p m y (y - r.y) (x - r.x)

/-! ### Pitch fallback (R131) -/

/-- A pitch of a pipe beyond its registers. -/
def pitchDflt (_ : Nat) : PitchSt := {}
def State.pitch (s : State) (p k : Nat) : PitchSt := storeGet pitchDflt (s.pipe p).pitch k
def State.modPitch (s : State) (p k : Nat) (f : PitchSt → PitchSt) : State :=
  s.modPipe p (fun x => { x with pitch := storePut pitchDflt x.pitch k (f (storeGet pitchDflt x.pitch k)) })

/-- Is a pitch in fallback in the frame now scanned: PSTAT.FALLBACK, set at the frame boundary? -/
def State.inFallback (s : State) (p k : Nat) : Bool := s.on (rPSTAT p k) fPSTAT_FALLBACK

/-- The pitches in fallback that contain a pixel. -/
def State.fallbackAt (s : State) (p x y : Nat) : List Nat :=
  (List.range 16).filter (fun k => s.inFallback p k && (s.pitchRect .scan p k).has x y)

/-! ### One pixel (R65, R80, R90, R139) -/

/-- A look-up table bank by its address function. -/
def State.lut (s : State) (r : Nat → Nat → Nat) (p i : Nat) : Nat := (s.rw (r p i)).toNat % 4096

/-- The colour stages: degamma, matrix, regamma. -/
def State.colour (s : State) (p : Nat) (x : Px) : Px :=
  let c (f : Fld) : Bool := s.son (rCCFG p) f
  let x1 := if c fCCFG_DGM_EN then lutPx (fun i => s.lut (if c fCCFG_DGM_BANK then rDGM1 else rDGM0) p i) x else x
  let x2 := if c fCCFG_CSC_EN then
      { x1 with
        r := cscRow (s.srd (rCSC0_A p) fCSC0_A_Mc0) (s.srd (rCSC0_A p) fCSC0_A_Mc1) (s.srd (rCSC0_B p) fCSC0_B_Mc2)
          (s.srd (rCSC0_B p) fCSC0_B_OFFc) x1
        g := cscRow (s.srd (rCSC1_A p) fCSC1_A_Mc0) (s.srd (rCSC1_A p) fCSC1_A_Mc1) (s.srd (rCSC1_B p) fCSC1_B_Mc2)
          (s.srd (rCSC1_B p) fCSC1_B_OFFc) x1
        b := cscRow (s.srd (rCSC2_A p) fCSC2_A_Mc0) (s.srd (rCSC2_A p) fCSC2_A_Mc1) (s.srd (rCSC2_B p) fCSC2_B_Mc2)
          (s.srd (rCSC2_B p) fCSC2_B_OFFc) x1 }
    else x1
  if c fCCFG_RGM_EN then lutPx (fun i => s.lut (if c fCCFG_RGM_BANK then rRGM1 else rRGM0) p i) x2 else x2

/-- The background of a pixel: BG, or the fallback colour of the highest pitch in fallback there. -/
def State.background (s : State) (p : Nat) (fb : List Nat) : Px :=
  match fb.getLast? with
  | some k => ⟨s.srd (rPFB_RG p k) fPFB_RG_R, s.srd (rPFB_RG p k) fPFB_RG_G, s.srd (rPFB_B p k) fPFB_B_B, 0xFFF⟩
  | none => ⟨s.srd (rBG_RG p) fBG_RG_R, s.srd (rBG_RG p) fBG_RG_G, s.srd (rBG_B p) fBG_B_B, 0xFFF⟩

/-- The layers blended over the background. -/
def State.blendLayers (s : State) (p x y : Nat) : Px :=
  let fb := s.fallbackAt p x y
  (List.range 8).foldl (fun d m =>
    if (s.layerOn .scan p m || (s.pipe p).patNow.any (fun q => q.1 == m)) && (s.layerRect .scan p m).has x y &&
        !(s.culled .scan (s.pipe p).reproj p m (x / 32) (y / 32)) &&
        !(fb.any (fun k => bitOf (s.srd (rPCFG p k) fPCFG_LAYERS) m)) then
      blendPx (s.layerSample p m x y) (s.srd (rLALPHA p m) fLALPHA_ALPHA)
        (s.son (rLCFG p m) fLCFG_PREMULT && fmtAlpha (s.layerFmt .scan p m) && !(fmtYcc (s.layerFmt .scan p m))) d
    else d) (s.background p fb)

/-- The awning rectangle of the frame now scanned. -/
def State.awnRect (s : State) (v : View) (p : Nat) : Rect :=
  { x := s.vrd v (rAPOS p) fAPOS_DST_X, y := s.vrd v (rAPOS p) fAPOS_DST_Y
    w := s.vrd v (rASIZE p) fASIZE_W, h := s.vrd v (rASIZE p) fASIZE_H }

/-- The SAFE colour, expanded. -/
def State.safeColour (s : State) (p : Nat) : Px :=
  let c := s.srd (rAFCTL p) fAFCTL_SAFE
  ⟨expand12 8 (bitsOf c 23 16), expand12 8 (bitsOf c 15 8), expand12 8 (bitsOf c 7 0), 0xFFF⟩

/-- The verified bytes of an awning line, if it has arrived and passed. -/
def awnBytes (l : List AwnLine) (y : Nat) : Option (List Byte) :=
  match l.find? (fun t => t.y == y) with
  | some t => t.bytes
  | none => none

/-- The pixel before dither of one whose layers give `d`: awning, colour stages with the bypass of R90 and the SAFE colour of R139; `line` is the verified
awning line, if it is there. (DESIGN CHOICE, log entry 66) -/
def State.preDither (s : State) (p x y : Nat) (line : Option (List Byte)) (d : Px) : Px :=
  let r := s.awnRect .scan p
  if s.son (rACFG p) fACFG_EN && r.has x y then
    match line with
    | none => s.safeColour p
    | some b =>
      let f := s.srd (rACFG p) fACFG_FORMAT
      let a := spanPixel f 0 false 0 (x - r.x) b
      let la := s.srd (rAALPHA p) fAALPHA_ALPHA
      let e := blendPx a la (s.son (rACFG p) fACFG_PREMULT) d
      if s.son (rACFG p) fACFG_CLR_BYPASS && mul12 a.a la == 0xFFF then e else s.colour p e
  else s.colour p d

/-- The verified awning line for an output line, if it has arrived and passed. -/
def State.awnLineOf (s : State) (p y : Nat) : Option (List Byte) := awnBytes (s.pipe p).awn (y - (s.awnRect .scan p).y)

/-! ### The fetch FIFO (R75 to R77) -/

/-- The source pixels, as row and column, that an output line reads from a layer: for a plain layer one row, each column of an unculled
tile; for a re-projected layer the pixels of its samples, at the edge those that the edge rule repeats (R96). -/
def State.wantedPixels (s : State) (v : View) (rp p m line : Nat) : List (Nat × Nat) :=
  let full := s.layerRect v p m
  let r := full.clip (s.tmg p).ha (s.tmg p).va
  if s.layerOn v p m && decide (r.y ≤ line ∧ line < r.y + r.h) then
    ((List.range r.w).filter (fun i => !(s.culled v rp p m ((r.x + i) / 32) (line / 32)))).flatMap (fun i =>
      if bitOf rp m then
        let uv := ((s.ltf v p m).clamp full.w).pos i (line - r.y)
        ([(0, 0), (1, 0), (0, 1), (1, 1)] : List (Int × Int)).filterMap (fun d =>
          let a := uv.1 / 256 + d.1
          let b := uv.2 / 256 + d.2
          let outside := decide (a < 0 ∨ (full.w : Int) ≤ a ∨ b < 0 ∨ (full.h : Int) ≤ b)
          if outside && s.vrd v (rLCFG p m) fLCFG_REPROJ_EDGE == 1 then none
          else some ((max 0 (min ((full.h : Int) - 1) b)).toNat, (max 0 (min ((full.w : Int) - 1) a)).toNat))
      else [(line - r.y, i)])
  else []

/-- The runs of consecutive numbers in a rising list: the first of each and its length. -/
def runsOf : List Nat → List (Nat × Nat)
  | [] => []
  | x :: l => match runsOf l with
    | (y, n) :: r => if y = x + 1 then (x, n + 1) :: r else (x, 1) :: (y, n) :: r
    | [] => [(x, 1)]

/-- A range of bytes as requests of at most 4 KiB that cross no 4 KiB boundary of the stall address; `k` bounds them. -/
def requestsOf : Nat → Nat → Nat → List (Nat × Nat)
  | 0, _, _ => []
  | k + 1, a, n => if n = 0 then [] else let j := min n (pagePart a); (a, j) :: requestsOf k (a + j) (n - j)

/-- The requests that an output line makes for a layer (R75), in their order: source row, offset in the row, bytes. Adjacent unculled pixels make one run. -/
def State.lineRequests (s : State) (v : View) (rp p m line : Nat) : List (Nat × Nat × Nat) :=
  let want := s.wantedPixels v rp p m line
  let f := s.layerFmt v p m
  let r := s.layerRect v p m
  ((List.range r.h).filter (fun row => want.any (fun c => c.1 == row))).flatMap (fun row =>
    let base := s.srcAddr v p m 0 row
    (runsOf ((List.range r.w).filter (fun col => want.contains (row, col)))).flatMap (fun run =>
      let a := (colBytes f run.1).1
      let z := colBytes f (run.1 + run.2 - 1)
      (requestsOf ((z.1 + z.2 - a) / 4096 + 2) (base + a) (z.1 + z.2 - a)).map (fun q => (row, q.1 - base, q.2))))

/-- Is a span the one of a request of layer m for an output line; and has it arrived, or failed? -/
def Span.isOf (t : Span) (m line : Nat) (q : Nat × Nat × Nat) : Bool := t.m == m && t.line == line && t.row == q.1 && t.off == q.2.1
def Span.here (t : Span) : Bool := t.wait.isNone

/-- Has every span of an output line arrived or failed? (DEDUCED, log entry 87) -/
def State.lineComplete (s : State) (v : View) (rp p line : Nat) : Bool :=
  (List.range 8).all (fun m => (s.lineRequests v rp p m line).all (fun q => (s.pipe p).spans.any (fun t => t.isOf m line q && t.here)))

/-- The output lines still to be composed: in vertical blanking those of the next frame. -/
def State.fifoLines (s : State) (p : Nat) : List Nat :=
  let va := (s.tmg p).va
  let y := if va ≤ (s.pipe p).line then 0 else (s.pipe p).line + 1
  (List.range (va - y)).map (fun k => y + k)

/-- LEVEL: output lines whose layer data are all present, at most 255 (R76); with no layer on, none waits for data. (DEDUCED, log entry 22) -/
def State.fifoLevel (s : State) (v : View) (rp p : Nat) : Nat :=
  if (List.range 8).all (fun m => !(s.layerOn v p m)) then 255
  else min 255 ((s.fifoLines p).filter (fun y => s.lineComplete v rp p y)).length

/-- The bytes of a line of a configuration in the FIFO, each enabled layer's line span rounded up to 64 bytes (R76). -/
def State.lineBytes (s : State) (v : View) (p : Nat) : Nat :=
  (List.range 8).foldl (fun t m =>
    if s.layerOn v p m then
      t + (((s.layerRect v p m).clip (s.tmg p).ha (s.tmg p).va).w * fmtBytes (s.layerFmt v p m) + 63) / 64 * 64
    else t) 0

/-- The lines of a configuration that the FIFO can hold; more than any frame has where no layer is on. -/
def State.fifoCap (s : State) (v : View) (p : Nat) : Nat :=
  if s.lineBytes v p = 0 then 65536 else 65536 * s.rd (rFETCH_CFG p) fFETCH_CFG_FIFO_GRAINS / s.lineBytes v p

/-- CAP and FIFO_SMALL (R76): for the widest configuration of the frame, the one that its latch point took included; CAP at most 255. -/
def State.showCap (s : State) (p : Nat) : State :=
  let cap := min 255 (if (s.pipe p).latched then min (s.fifoCap .scan p) (s.fifoCap .force p) else s.fifoCap .scan p)
  (s.wr (rFETCH_STAT p) fFETCH_STAT_CAP cap).wr (rFETCH_STAT p) fFETCH_STAT_FIFO_SMALL (b2n (decide (cap ≤ s.srd (rPANIC_CFG p) fPANIC_CFG_PANIC_CLEAR)))

/-- PANIC follows LEVEL while the pipe is RUNNING (R76), and is 0 in any other state. (DEDUCED, log entry 22) -/
def State.updatePanic (s : State) (p : Nat) : State :=
  let next := decide ((s.tmg p).va ≤ (s.pipe p).line)
  let lvl := s.fifoLevel (if next then .force else .scan) (if next then (s.pipe p).reprojNext else (s.pipe p).reproj) p
  let s1 := s.wr (rFETCH_STAT p) fFETCH_STAT_LEVEL lvl
  let was := s.on (rFETCH_STAT p) fFETCH_STAT_PANIC
  if s.pst p ≠ stRUNNING then s1.wr (rFETCH_STAT p) fFETCH_STAT_PANIC 0
  else if was = false ∧ lvl < s.srd (rPANIC_CFG p) fPANIC_CFG_PANIC_LOW then
    (s1.wr (rFETCH_STAT p) fFETCH_STAT_PANIC 1).bumpEv (rPANIC_CNT p) 1
  else if was = true ∧ s.srd (rPANIC_CFG p) fPANIC_CFG_PANIC_CLEAR < lvl then s1.wr (rFETCH_STAT p) fFETCH_STAT_PANIC 0
  else s1

/-- Is any pipe's PANIC raised (R292, R445)? -/
def State.anyPanic (s : State) : Bool := (List.range 8).any (fun p => s.on (rFETCH_STAT p) fFETCH_STAT_PANIC)

/-- Where a span lies in the FIFO is the device's: a free value picks the grain. A grain that is not the unit's loses the span (R307). -/
def State.fifoPlace (s : State) (p : Nat) : State × Bool :=
  let base := s.rd (rFETCH_CFG p) fFETCH_CFG_FIFO_BASE
  let n := s.rd (rFETCH_CFG p) fFETCH_CFG_FIFO_GRAINS
  if (List.range n).all (fun i => s.ownSram (base + i) == ownUNIT) then (s, false)
  else
    let g := base + s.free.toNat % n
    if s.ownSram g = ownUNIT then (s.useFree, false) else (s.useFree.unitGrainBad g, true)

/-- Where line y's spans lie in the FIFO is the device's: a free value picks the grain. What lies in a grain that another unit shares is undefined (R308). -/
def State.fifoSpoil (s : State) (p y : Nat) : State :=
  let base := s.rd (rFETCH_CFG p) fFETCH_CFG_FIFO_BASE
  let n := s.rd (rFETCH_CFG p) fFETCH_CFG_FIFO_GRAINS
  let shared := s.sharedGrains.filter (inGrains (base, n))
  if shared.isEmpty then s
  else ((s.pipe p).spans.filter (fun t => t.line == y)).foldl (fun s t =>
    match t.bytes with
    | none => s
    | some b =>
      let s1 := s.useFree
      if shared.contains (base + s.free.toNat % n) then
        (s1.modPipe p (fun x => { x with spans := x.spans.map (fun u => if u = t then { u with bytes := some (s1.freeBytes b.length) } else u) })).useFreeN b.length
      else s1) s

/-- A span has failed (R77): LFERR, and FERR of the frame that it is for. -/
def State.spanFailed (s : State) (p m : Nat) (next : Bool) : State :=
  let s1 := s.bumpErr (rLFERR p m)
  if next then s1.modPipe p (fun x => { x with ferrNext := setBitN x.ferrNext m true }) else s1.wr (rLSTAT p m) fLSTAT_FERR 1

/-- A request goes out: the gate of the layer's owner checks it; its span waits for data, or has failed. -/
def State.spanIssue (s : State) (p line : Nat) (next : Bool) (r : Nat × Nat × Nat × Nat) : State :=
  let m := r.1
  let q := r.2
  if (s.pipe p).spans.any (fun t => t.isOf m line q) then s
  else
    let sa := s.srcAddr (if next then .force else .scan) p m 0 q.1 + q.2.1
    let put (s : State) (w : Option Nat) : State := s.modPipe p (fun x => { x with spans := x.spans ++ [⟨m, line, q.1, q.2.1, q.2.2, w, none⟩] })
    match s.gateCheck (s.layerOwner p m) sa false false with
    | (s1, .phys a) => put s1 (some a)
    | (s1, .viol v) => put ((s1.violate (s.layerOwner p m) 4 v (16 * p + m) sa false).spanFailed p m next) none
    | (s1, .host _) => put (s1.spanFailed p m next) none

/-- The data of a request that waits arrive, or an error in their place; what a placement in a wrong grain loses fails as well. -/
def State.spanArrive (s : State) (p m line : Nat) (next : Bool) (q : Nat × Nat × Nat) (error : Bool) : State :=
  match (s.pipe p).spans.find? (fun t => t.isOf m line q) with
  | some ⟨_, _, _, _, n, some a, _⟩ =>
    let (s0, lost) := s.fifoPlace p
    let (s1, got) := if error || lost then (s0, none) else s0.memLoad a n
    let s2 := s1.modPipe p (fun x => { x with spans := x.spans.map (fun t => if t.isOf m line q then { t with wait := none, bytes := got } else t) })
    (match got with
      | none => s2.spanFailed p m next
      | some b => s2.bumpEv (rLFETCH p m) b.length)
  | _ => s

/-- Request `k` of layer m for an output line completes. The line's requests go out in order, L0 to L7 and left to right, so those before it have gone out
too and met the gate (R75). During vertical blanking the fetch is for the next frame, if that will be RUNNING (R444). The FIFO has room for the lines of CAP
from the first that is not yet composed; what comes after its line's composition began comes too late and does nothing. (DEDUCED, log entry 87) -/
def State.fetchSpan (s : State) (p m line k : Nat) (error : Bool) : State :=
  let x := s.pipe p
  let next := decide ((s.tmg p).va ≤ x.line)
  let v : View := if next then .force else .scan
  let rp := if next then x.reprojNext else x.reproj
  let first := if next then 0 else x.line + 1
  if !(x.scanning) || !(if next then x.nextRunning else s.pst p == stRUNNING) || line < first || first + s.fifoCap v p ≤ line then s
  else match (s.lineRequests v rp p m line)[k]? with
    | none => s
    | some q =>
      let before := (List.range m).flatMap (fun l => (s.lineRequests v rp p l line).map (fun q => (l, q)))
      let now := (before ++ ((s.lineRequests v rp p m line).take (k + 1)).map (fun q => (m, q))).foldl (fun s r => s.spanIssue p line next r) s
      (now.spanArrive p m line next q error).updatePanic p

/-- FETCH_SPAN_COMPLETE (R75, R77): `error` says that the memory system answered with an error of its own. -/
def execFetchSpanComplete (p m : Fin 8) (line k : Nat) (error : Bool) (s : State) : Host.Outcome State Fault Refusal :=
  .next (s.begin.fetchSpan p m line k error)

/-! ### LUT windows (R83) -/

/-- Is a bank of a LUT in use: selected in force or as written? -/
def State.bankUsed (s : State) (p : Nat) (f : Fld) (bank : Nat) : Bool :=
  s.rd (rCCFG p) f == bank || s.frd (rCCFG p) f == bank

/-- A write to entry i of a window: 0, 1 the degamma banks, 2, 3 the regamma banks. -/
def State.wrLut (s : State) (p win i : Nat) (w : W64) : State :=
  let a := if win = 0 then rDGM0 p i else if win = 1 then rDGM1 p i else if win = 2 then rRGM0 p i else rRGM1 p i
  let f := if win < 2 then fCCFG_DGM_BANK else fCCFG_RGM_BANK
  if s.bankUsed p f (win % 2) && decide (s.pst p ≠ stSTOPPED) then s.refuse a else s.settingWrite a w true false

/-- LUT_WINDOW_WRITE (R83, R87). -/
def execLutWindowWrite (who : Who) (p : Fin 8) (win : Fin 4) (i : Fin 1024) (w : W32) (s : State) : Host.Outcome State Fault Refusal :=
  let a := if win.val = 0 then rDGM0 p i else if win.val = 1 then rDGM1 p i else if win.val = 2 then rRGM0 p i else rRGM1 p i
  .next (s.begin.write who a (fun s => s.wrLut p win i (wide w)))

end Sys2Proof.Machine
end

