-- ==== Sys2Proof/Machine/Crypto.lean ====
section
/-! DEFINITION. Machine/Crypto.lean: the algorithms that the spec takes from NIST (00_scope.md: FIPS 186-5, FIPS 180-4, NIST SP 800-38B): AES-128 and
its CMAC, SHA-256, SHA-384, verification of ECDSA P-384 signatures. Octet strings are lists of bytes, first octet first. -/
namespace Sys2Proof.Machine

/-- The number whose octets are `b`, the first the most significant. -/
def ofBytesBE (b : List Byte) : Nat := b.foldl (fun v x => v * 256 + x.toNat) 0
/-- The n octets of a number, the most significant first. -/
def bytesBE (n v : Nat) : List Byte := (List.range n).map (fun i => BitVec.ofNat 8 (v / 256 ^ (n - 1 - i)))

/-! ### AES-128 (FIPS 197) and CMAC (NIST SP 800-38B) -/

/-- The product of two elements of GF(2^8) modulo x^8 + x^4 + x^3 + x + 1. -/
def aesMul (a b : Nat) : Nat :=
  [7, 6, 5, 4, 3, 2, 1, 0].foldl (fun r i =>
    let d := if 128 ≤ r then (2 * r) ^^^ 0x11B else 2 * r
    if b.testBit i then d ^^^ a else d) 0
/-- The inverse in GF(2^8), a^254, and 0 of 0. -/
def aesInv (a : Nat) : Nat :=
  ((List.range 7).foldl (fun (q : Nat × Nat) _ => let p := aesMul q.1 q.1; (p, aesMul q.2 p)) (a, 1)).2
/-- A byte rotated left by n. -/
def rotl8 (n a : Nat) : Nat := (a * 2 ^ n) % 256 + a / 2 ^ (8 - n)
/-- The S-box. -/
def aesSbox (a : Nat) : Nat :=
  let b := aesInv a
  b ^^^ rotl8 1 b ^^^ rotl8 2 b ^^^ rotl8 3 b ^^^ rotl8 4 b ^^^ 0x63

/-- Two lists added in GF(2^8), byte by byte. -/
def xorL (a b : List Nat) : List Nat := (a.zip b).map (fun q => q.1 ^^^ q.2)
/-- SHIFTROWS: byte r + 4c comes from column c + r. -/
def shiftRows (s : List Nat) : List Nat := (List.range 16).map (fun i => s.getD ((i + 4 * (i % 4)) % 16) 0)
/-- MIXCOLUMNS. -/
def mixColumns (s : List Nat) : List Nat :=
  (List.range 16).map (fun i =>
    let b (k : Nat) : Nat := s.getD (4 * (i / 4) + (i + k) % 4) 0
    aesMul 2 (b 0) ^^^ aesMul 3 (b 1) ^^^ b 2 ^^^ b 3)
/-- The next round key. -/
def nextKey (rcon : Nat) (k : List Nat) : List Nat :=
  let last := k.drop 12
  let g := xorL ((last.drop 1 ++ last.take 1).map aesSbox) [rcon, 0, 0, 0]
  let w0 := xorL (k.take 4) g
  let w1 := xorL ((k.drop 4).take 4) w0
  let w2 := xorL ((k.drop 8).take 4) w1
  w0 ++ w1 ++ w2 ++ xorL last w2
/-- The ten rounds: round key and state. -/
def aesRounds : List Nat → List Nat → List Nat → List Nat
  | [], _, s => s
  | [c], k, s => xorL (shiftRows (s.map aesSbox)) (nextKey c k)
  | c :: cs, k, s => let k1 := nextKey c k; aesRounds cs k1 (xorL (mixColumns (shiftRows (s.map aesSbox))) k1)
/-- AES-128 of one block. -/
def aes128 (key block : List Nat) : List Nat := aesRounds [1, 2, 4, 8, 16, 32, 64, 128, 0x1B, 0x36] key (xorL block key)

/-- A 128-bit block as octets. -/
def block16 (v : Nat) : List Nat := (bytesBE 16 v).map BitVec.toNat
/-- AES-128 of a 128-bit number. -/
def aesOf (key : BitVec 128) (v : Nat) : Nat := (aes128 (block16 key.toNat) (block16 v)).foldl (fun a x => a * 256 + x) 0
/-- A subkey: doubling in GF(2^128). -/
def cmacDbl (v : Nat) : Nat := if 2 ^ 127 ≤ v then ((2 * v) % 2 ^ 128) ^^^ 0x87 else 2 * v
/-- The chain over the blocks of a message, the last one with its subkey. -/
def cmacChain (key : BitVec 128) (k1 : Nat) : Nat → Nat → List Byte → Nat
  | 0, c, _ => c
  | n + 1, c, m =>
    if m.length ≤ 16 then
      aesOf key (c ^^^ (if m.length = 16 then ofBytesBE m ^^^ k1 else ofBytesBE (m ++ [0x80] ++ List.replicate (15 - m.length) 0) ^^^ cmacDbl k1))
    else cmacChain key k1 n (aesOf key (c ^^^ ofBytesBE (m.take 16))) (m.drop 16)
/-- AES-128-CMAC. (PRESUMED, log entry 109) -/
@[irreducible] def aesCmac (key : BitVec 128) (m : List Byte) : BitVec 128 :=
  BitVec.ofNat 128 (cmacChain key (cmacDbl (aesOf key 0)) (m.length / 16 + 1) 0 m)

/-! ### SHA-256 and SHA-384 (FIPS 180-4) -/

/-- The first 80 primes, from which FIPS 180-4 takes its constants. -/
def shaPrimes : List Nat := (List.range 410).filter (fun n => decide (2 ≤ n) && (List.range n).all (fun d => decide (d < 2) || n % d != 0))
/-- The integer part of the e-th root of n, of at most b bits. -/
def rootOf (e n b : Nat) : Nat := (List.range b).foldl (fun r i => let t := r + 2 ^ (b - 1 - i); if t ^ e ≤ n then t else r) 0
/-- The first w bits of the fractional part of the e-th root of p. -/
def rootFrac (e w p : Nat) : Nat := rootOf e (p * 2 ^ (e * w)) (w + 5) % 2 ^ w

/-- A hash of the SHA-2 family: the word width, the rounds, the rotations (and shift) of Σ0, Σ1, σ0, σ1. -/
structure ShaKind where
  w : Nat
  rounds : Nat
  big0 : Nat × Nat × Nat
  big1 : Nat × Nat × Nat
  low0 : Nat × Nat × Nat
  low1 : Nat × Nat × Nat
  deriving DecidableEq, Repr

def sha256Kind : ShaKind := ⟨32, 64, (2, 13, 22), (6, 11, 25), (7, 18, 3), (17, 19, 10)⟩
def sha512Kind : ShaKind := ⟨64, 80, (28, 34, 39), (14, 18, 41), (1, 8, 7), (19, 61, 6)⟩

/-- A word rotated right. -/
def ShaKind.ror (k : ShaKind) (n x : Nat) : Nat := x / 2 ^ n + (x % 2 ^ n) * 2 ^ (k.w - n)
def ShaKind.big (k : ShaKind) (r : Nat × Nat × Nat) (x : Nat) : Nat := k.ror r.1 x ^^^ k.ror r.2.1 x ^^^ k.ror r.2.2 x
def ShaKind.low (k : ShaKind) (r : Nat × Nat × Nat) (x : Nat) : Nat := k.ror r.1 x ^^^ k.ror r.2.1 x ^^^ (x / 2 ^ r.2.2)

/-- The message schedule, its newest word first, for n words more. -/
def ShaKind.schedule (k : ShaKind) : Nat → List Nat → List Nat
  | 0, l => l
  | n + 1, l => k.schedule n ((k.low k.low1 (l.getD 1 0) + l.getD 6 0 + k.low k.low0 (l.getD 14 0) + l.getD 15 0) % 2 ^ k.w :: l)

/-- One round with the sum of its constant and its word. -/
def ShaKind.round (k : ShaKind) (v : List Nat) (kw : Nat) : List Nat :=
  let g (i : Nat) : Nat := v.getD i 0
  let e := g 4
  let a := g 0
  let ch := (e &&& g 5) ^^^ ((2 ^ k.w - 1 - e) &&& g 6)
  let maj := (a &&& g 1) ^^^ (a &&& g 2) ^^^ (g 1 &&& g 2)
  let t1 := g 7 + k.big k.big1 e + ch + kw
  [(t1 + k.big k.big0 a + maj) % 2 ^ k.w, a, g 1, g 2, (g 3 + t1) % 2 ^ k.w, e, g 5, g 6]

/-- The compression of one block. -/
def ShaKind.block (k : ShaKind) (h : List Nat) (b : List Byte) : List Nat :=
  let n := k.w / 8
  let words := (List.range 16).map (fun i => ofBytesBE ((b.drop (n * i)).take n))
  let ws := (k.schedule (k.rounds - 16) words.reverse).reverse
  let v := ((shaPrimes.take k.rounds).zip ws).foldl (fun v q => k.round v (rootFrac 3 k.w q.1 + q.2)) h
  (h.zip v).map (fun q => (q.1 + q.2) % 2 ^ k.w)

/-- The blocks of a padded message. -/
def ShaKind.blocks (k : ShaKind) : Nat → List Nat → List Byte → List Nat
  | 0, h, _ => h
  | n + 1, h, b => k.blocks n (k.block h (b.take (2 * k.w))) (b.drop (2 * k.w))

/-- The hash of a message from an initial value: padded with a one, zeros and the length in bits to whole blocks of 16 words. -/
def ShaKind.hash (k : ShaKind) (h : List Nat) (m : List Byte) : List Nat :=
  let blk := 2 * k.w
  let tail := k.w / 4
  let z := (2 * blk - (m.length + 1 + tail) % blk) % blk
  let p := m ++ [0x80] ++ List.replicate z 0 ++ bytesBE tail (8 * m.length)
  k.blocks (p.length / blk) h p

/-- SHA-256: its initial value comes from the square roots of the first 8 primes. (PRESUMED, log entry 109) -/
@[irreducible] def sha256 (m : List Byte) : BitVec 256 :=
  BitVec.ofNat 256 ((sha256Kind.hash ((shaPrimes.take 8).map (rootFrac 2 32)) m).foldl (fun v x => v * 2 ^ 32 + x) 0)
/-- SHA-384: its initial value comes from the square roots of the ninth to the sixteenth prime; the first 6 words are the result. (PRESUMED, log entry 109) -/
@[irreducible] def sha384 (m : List Byte) : BitVec 384 :=
  BitVec.ofNat 384 (((sha512Kind.hash (((shaPrimes.drop 8).take 8).map (rootFrac 2 64)) m).take 6).foldl (fun v x => v * 2 ^ 64 + x) 0)

/-! ### ECDSA P-384 (FIPS 186-5, the curve of SP 800-186) -/

/-- The prime of the field, the order of the base point, the coefficient b (a is −3), the base point. -/
def p384 : Nat := 2 ^ 384 - 2 ^ 128 - 2 ^ 96 + 2 ^ 32 - 1
def p384n : Nat := 0xffffffffffffffffffffffffffffffffffffffffffffffffc7634d81f4372ddf581a0db248b0a77aecec196accc52973
def p384b : Nat := 0xb3312fa7e23ee7e4988e056be3f82d19181d9c6efe8141120314088f5013875ac656398d8a2ed19d2a85c8edd3ec2aef
def p384g : Nat × Nat :=
  (0xaa87ca22be8b05378eb1c71ef320ad746e1d3b628ba79b9859f741e082542a385502f25dbf55296c3a545e3872760ab7,
   0x3617de4a96262c6f5d9e98bf9292dc29f8f41dbd289a147ce9da3113b5f0b8c00a60b1ce1d7e819d7a431d7c90ea0e5f)

/-- x^e modulo m, for e below 2^384. -/
def powMod (m x e : Nat) : Nat := (List.range 384).foldl (fun r i => let q := r * r % m; if e.testBit (383 - i) then q * x % m else q) 1
/-- The inverse modulo a prime. -/
def invMod (m x : Nat) : Nat := powMod m x (m - 2)

/-- The sum of two points of the curve; `none` is the point at infinity. -/
def ecAdd (a b : Option (Nat × Nat)) : Option (Nat × Nat) :=
  match a, b with
  | none, q => q
  | q, none => q
  | some (x1, y1), some (x2, y2) =>
    if x1 = x2 ∧ (y1 + y2) % p384 = 0 then none
    else
      let l := if x1 = x2 then (3 * x1 * x1 + p384 - 3) * invMod p384 (2 * y1 % p384) % p384
        else (y2 + p384 - y1) * invMod p384 ((x2 + p384 - x1) % p384) % p384
      let x3 := (l * l + 2 * p384 - x1 - x2) % p384
      some (x3, (l * (x1 + p384 - x3) + p384 - y1) % p384)
/-- A multiple of a point. -/
def ecMul (k : Nat) (q : Nat × Nat) : Option (Nat × Nat) :=
  (List.range 384).foldl (fun r i => let d := ecAdd r r; if k.testBit (383 - i) then ecAdd d (some q) else d) none
/-- Is a point on the curve? -/
def onCurve (q : Nat × Nat) : Bool :=
  decide (q.1 < p384) && decide (q.2 < p384) && decide (q.2 * q.2 % p384 = (q.1 * q.1 * q.1 + (p384 - 3) * q.1 + p384b) % p384)

/-- Does (r, s) verify as the signature of a digest by the public key 0x04 ‖ X ‖ Y? (PRESUMED, log entry 109) -/
@[irreducible] def ecdsaVerify (key : List Byte) (digest : BitVec 384) (r s : List Byte) : Bool :=
  let q := (ofBytesBE ((key.drop 1).take 48), ofBytesBE ((key.drop 49).take 48))
  let rn := ofBytesBE r
  let sn := ofBytesBE s
  let w := invMod p384n sn
  onCurve q && decide (0 < rn ∧ rn < p384n) && decide (0 < sn ∧ sn < p384n) &&
    (match ecAdd (ecMul (digest.toNat * w % p384n) p384g) (ecMul (rn * w % p384n) q) with
     | none => false
     | some v => v.1 % p384n == rn)

end Sys2Proof.Machine
end

