-- ==== Sys2Proof/Machine/Ledger.lean ====
section
/-! DEFINITION. Machine/Ledger.lean: the display ledger: entries, chain, ring, seals, submissions (R142 to R150, R491). -/
namespace Sys2Proof.Machine

def State.modLed (s : State) (f : LedgerSt → LedgerSt) : State := { s with led := f s.led }

/-- The measurement epoch in force (R270). -/
def State.measEpoch (s : State) : Nat := s.rd rKSTAT fKSTAT_MEAS_EPOCH

def State.ledEnabled (s : State) : Bool := s.on rLG_CTRL fLG_CTRL_EN
def State.ledFull (s : State) : Bool := s.on rLG_STAT fLG_STAT_FULL
def State.noChain (s : State) : Bool := s.on rLG_STAT fLG_STAT_NO_CHAIN

/-- The slots of the ring, 1,024 a grain (R146). -/
def State.ringSize (s : State) : Nat := s.rd rLG_CFG fLG_CFG_RING_GRAINS * 1024
/-- The first slot that is not complete: LG_WR. -/
def State.ringWr (s : State) : Nat := match s.led.sealing with | some x => x.slot | none => s.led.void.headD s.led.next
def State.ringAck (s : State) : Nat := s.rd rLG_ACK fLG_ACK_INDEX
/-- Slots from `a` up to `b`, wrapping. -/
def State.ringDist (s : State) (a b : Nat) : Nat := (b + s.ringSize - a) % s.ringSize
def State.ringFree (s : State) : Nat := s.ringSize - s.ringDist s.ringAck s.led.next

/-- LG_STAT and LG_WR show the ledger. -/
def State.ledShow (s : State) : State :=
  (((s.wr rLG_STAT fLG_STAT_EN (b2n s.ledEnabled)).wr rLG_STAT fLG_STAT_SEALING (b2n s.led.sealing.isSome)).wr rLG_STAT fLG_STAT_FREE
    s.ringFree).wr rLG_WR fLG_WR_INDEX s.ringWr

/-- The bytes of the chain head and of a signature half, big-endian (R145). -/
def headBytes (h : BitVec 256) : List Byte := bytesLE 32 h.toNat
def sigBytes (r : BitVec 384) : List Byte := (bytesLE 48 r.toNat).reverse

/-- `l` cut or filled with zeros to n bytes. -/
def padTo (n : Nat) (l : List Byte) : List Byte := l.take n ++ List.replicate (n - l.length) 0

/-- The 64 bytes of an entry (R142). -/
def LedEntry.bytes (e : LedEntry) (seq epoch : Nat) : List Byte :=
  bytesLE 1 e.typ ++ bytesLE 1 e.pipe ++ bytesLE 1 e.pitch ++ bytesLE 1 e.source ++ bytesLE 2 e.code ++ bytesLE 1 (e.alive % 16) ++
    bytesLE 1 0 ++ bytesLE 8 seq ++ bytesLE 4 e.frame ++ bytesLE 2 e.frameEpoch ++ bytesLE 2 epoch ++ bytesLE 4 e.measured ++
    bytesLE 4 e.expected ++ padTo 32 e.payload

/-- A slot of the ring is written, if its grain is the unit's (R307). -/
def State.ringWrite (s : State) (i : Nat) (b : List Byte) : State :=
  let g := s.rd rLG_CFG fLG_CFG_RING_BASE + i / 1024
  if s.ownSram g = ownUNIT then (s.memStore (sramBase + 0x10000 * g + i % 1024 * 64) b).1 else s.unitGrainBad g

/-- A slot of the ring as the ledger reads it: 64 bytes, zeros where the read fails (R307, R309); and what the read does. -/
def State.slotAddr (s : State) (i : Nat) : Nat := sramBase + 0x10000 * (s.rd rLG_CFG fLG_CFG_RING_BASE + i / 1024) + i % 1024 * 64
def State.ringSlot (s : State) (i : Nat) : List Byte := s.unitBytes (64 * i) (s.slotAddr i) 64
def State.ringTouch (s : State) (l : List Nat) : State :=
  (l.foldl (fun s i => s.unitTouch (s.slotAddr i) 64) s).useFreeN (if s.msr.mixed.isEmpty then 0 else 64 * s.ringSize)

/-- FULL is set where an entry other than GAP is to be appended, or a seal to start, with fewer than 8 slots free (R147). -/
def State.ledCheckFull (s : State) : State :=
  if s.ledFull = false ∧ s.ringFree < 8 then
    (s.wr rLG_STAT fLG_STAT_FULL 1).kevt 0x0C 0x0A 0 (s.lv rLG_DROP).toNat
  else s

/-- An entry enters ring and chain (R142, R144). -/
def State.ledPut (s : State) (e : LedEntry) : State :=
  let b := e.bytes s.led.seq s.measEpoch
  let i := s.led.next
  let s1 := (s.ringWrite i b).bumpEv rLG_SEQ 1
  (s1.modLed (fun x => { x with h := sha256 (headBytes x.h ++ b), seq := (x.seq + 1) % 2 ^ 64,
                                next := (i + 1) % s.ringSize, sealSlots := x.sealSlots.filter (fun k => k != i) })).ledShow

/-- The GAP entry with its count (R147). -/
def gapEntry (n : Nat) : LedEntry := { typ := 3, code := 8, payload := bytesLE 8 n }

/-- A submission ends: BUSY clears, DROPPED or SEQ_LO say how (R149). -/
def State.subDone (s : State) (e : LedEntry) (seq : Option Nat) : State :=
  if e.typ = 2 then
    let a := rLSUB_STAT e.source
    let s1 := s.wr a fLSUB_STAT_BUSY 0
    match seq with
    | some n => (s1.wr a fLSUB_STAT_DROPPED 0).wr a fLSUB_STAT_SEQ_LO n
    | none => s1.wr a fLSUB_STAT_DROPPED 1
  else s

/-- The frame fields of a submission are those of its pipe when it is appended (R149). -/
def State.ledFrame (s : State) (e : LedEntry) : LedEntry :=
  if e.typ = 2 then
    let v := (s.lv (rFRAME e.pipe)).toNat
    { e with frame := v % 2 ^ 32, frameEpoch := v / 2 ^ 32 }
  else e

/-- An entry other than GAP is appended, or dropped and counted while the ring is FULL (R147). (DEDUCED, log entry 24) -/
def State.ledAppend (s : State) (e0 : LedEntry) : State :=
  let e := s.ledFrame e0
  let s1 := s.ledCheckFull
  if s1.ledFull then ((s1.bumpErr rLG_DROP).modLed (fun x => { x with gap := x.gap + 1 })).subDone e none
  else (s1.ledPut e).subDone e (some (s.led.seq % 2 ^ 16))

/-- The oldest entry handed over is appended. -/
def State.ledNext (s : State) : State :=
  match s.led.queue with
  | [] => s
  | e :: q => (s.modLed (fun x => { x with queue := q })).ledAppend e

/-- Every entry handed over is appended, in the order of the causes. -/
def State.ledFlush (s : State) : State := overN s.led.queue.length (fun _ s => s.ledNext) s

/-- A cause hands its entry to the ledger while the ledger is enabled and no save runs (R143, R458). (DEDUCED, log entry 24) -/
def State.ledger (s : State) (e : LedEntry) : State :=
  if s.ledEnabled && decide (s.dstate < 6) then s.modLed (fun x => { x with queue := x.queue ++ [e] }) else s

/-! ### Seals (R145) -/

/-- The first slot of a seal. -/
def State.sealFirst (s : State) : List Byte :=
  bytesLE 1 0x10 ++ bytesLE 1 0 ++ bytesLE 2 s.measEpoch ++ bytesLE 4 s.led.sealNo ++ bytesLE 8 ((2 ^ 64 - 1 + s.led.seq) % 2 ^ 64) ++
    bytesLE 16 s.led.chain.toNat ++ headBytes s.led.h

/-- A seal is requested: discarded with no chain; it waits while another is made or the ring is FULL; otherwise it reserves
three slots after the last appended entry. -/
def State.sealReq (s : State) : State :=
  if s.noChain then s
  else if s.led.sealing.isSome then s.wr rLG_STAT fLG_STAT_SEAL_WAIT 1
  else
    let s1 := s.ledCheckFull
    if s1.ledFull then s1.wr rLG_STAT fLG_STAT_SEAL_WAIT 1
    else
      let i := s1.led.next
      let z := s1.ringSize
      let three := [i, (i + 1) % z, (i + 2) % z]
      ((s1.wr rLG_STAT fLG_STAT_SEAL_WAIT 0).modLed (fun x =>
        { x with sealing := some ⟨i, s1.sealFirst, x.h, false⟩, next := (i + 3) % z,
                 sealSlots := x.sealSlots.filter (fun k => !(three.contains k)) ++ three })).ledShow

/-- The signature is there: the three slots are filled, LG_HEAD and LG_SEALS follow, and a waiting request starts. -/
def State.sealDone (s : State) : State :=
  match s.led.sealing with
  | none => s
  | some x =>
    let z := s.ringSize
    let sig := Config.ecdsaSign 1 (sha384 x.first)
    let s1 := ((s.ringWrite x.slot x.first).ringWrite ((x.slot + 1) % z) (bytesLE 1 0x11 ++ padTo 15 [] ++ sigBytes sig.1)).ringWrite
      ((x.slot + 2) % z) (bytesLE 1 0x12 ++ padTo 15 [] ++ sigBytes sig.2)
    let s2 := overN 8 (fun i s => s.wr (rLG_HEAD i) fLG_HEAD_HEAD (x.head.toNat / 2 ^ (32 * i))) s1
    let s3 := ((s2.modLed (fun y => { y with sealing := none, sealNo := if x.old then y.sealNo else (y.sealNo + 1) % 2 ^ 32 })).bumpEv rLG_SEALS 1).ledShow
    if s3.on rLG_STAT fLG_STAT_SEAL_WAIT then s3.sealReq else s3

/-- LG_ACK moved, or slots became free: FULL clears at 8 free slots, GAP follows at once, and a waiting seal starts (R147). (DEDUCED, log entry 24) -/
def State.ledFreed (s : State) : State :=
  if s.ledFull && decide (8 ≤ s.ringFree) then
    let s1 := s.wr rLG_STAT fLG_STAT_FULL 0
    let s2 := if s1.led.gap = 0 then s1 else (s1.modLed (fun x => { x with gap := 0 })).ledPut (gapEntry s1.led.gap)
    (if s2.on rLG_STAT fLG_STAT_SEAL_WAIT && s2.led.sealing.isNone then s2.sealReq else s2).ledShow
  else s.ledShow

/-! ### The chain (R144, R462) -/

/-- LG_CHAIN shows CHAIN_ID. -/
def State.chainShow (s : State) : State :=
  overN 4 (fun i s => s.wr (rLG_CHAIN i) fLG_CHAIN_ID (s.led.chain.toNat / 2 ^ (32 * i))) s

/-- INIT: a random CHAIN_ID, SEQ 0, h 0, the INIT entry, the seal period from now. A seal that still runs is one of the old chain and takes no number of
the new one; a saved ledger that no EN has restored yet is given up. (DESIGN CHOICE, log entry 89) -/
def State.ledInit (s : State) (rnd : BitVec 128) : State :=
  let prev := if s.noChain then (0 : BitVec 128) else s.led.chain
  let s1 := (s.modLed (fun x => { x with h := 0, seq := 0, chain := rnd, sealNo := 1, saved := none,
                                          sealing := x.sealing.map (fun y => { y with old := true }) })).wr rLG_STAT fLG_STAT_NO_CHAIN 0
  let s2 := s1.chainShow.ledAppend { typ := 4, payload := bytesLE 16 rnd.toNat ++ bytesLE 16 prev.toNat }
  s2.modLed (fun x => { x with period := decide (s.rd rLG_SEALCFG fLG_SEALCFG_SEAL_PERIOD_S ≠ 0) })

/-- Is a saved slot a seal slot (TYPE 0x10 to 0x12)? -/
def isSealSlot (b : List Byte) : Bool := let t := (b.headD 0).toNat; decide (0x10 ≤ t ∧ t ≤ 0x12)

/-- The newest `cap` slots, starting at an entry: those left out and those kept. -/
def keepNewest (cap : Nat) (l : List (List Byte)) : List (List Byte) × List (List Byte) :=
  let d := l.length - cap
  let k := l.drop d
  if d = 0 then ([], l) else (l.take d ++ k.takeWhile isSealSlot, k.dropWhile isSealSlot)

/-- The ledger of a found save is restored: slots from ring slot 0, RESTORED, GAP where entries are missing, a seal (R144,
R462), and the save is consumed (R463). -/
def State.ledRestore (s : State) (v : SavedLedger) : State :=
  let (out, kept) := keepNewest (s.ringSize - 8) v.slots
  let more := (out.filter (fun b => !(isSealSlot b))).length
  let s1 := s.bumpErrN rLG_DROP more
  let s2 := (s1.modLed (fun x => { x with
    h := v.h, seq := v.seq, chain := v.chain, sealNo := v.sealNo, sealing := none, gap := 0,
    next := kept.length, queue := [], saved := none, sealSlots := (List.range kept.length).filter (fun i => isSealSlot (kept.getD i [])) }))
  let s3 := ((s2.wr rLG_STAT fLG_STAT_NO_CHAIN (b2n v.noChain)).wr rLG_STAT fLG_STAT_FULL 0).wr rLG_ACK fLG_ACK_INDEX 0
  let s4 := if v.noChain then s3 else s3.chainShow
  let s5 := overN kept.length (fun i s => s.ringWrite i (kept.getD i [])) s4
  let s6 := s5.ledPut { typ := 3, code := 9, payload := bytesLE 8 v.seq }
  let lost := v.lost + more
  let s7 := if lost = 0 then s6 else s6.ledPut (gapEntry lost)
  (s7.modLed (fun x => { x with period := decide (s.rd rLG_SEALCFG fLG_SEALCFG_SEAL_PERIOD_S ≠ 0) })).sealReq

/-! ### Register writes -/

/-- LG_CTRL takes a word: entries whose causes came before are appended first; INIT is judged by EN as it stood and acts before
an EN set by the same write; `rnd` is the security island's random number. -/
def State.wrLgCtrl (s0 : State) (w : W64) (rnd : BitVec 128) : State :=
  let s := s0.ledFlush
  let was := s.ledEnabled
  let bad := getFld w fLG_CTRL_INIT = 1 ∧ was
  let s1 := if getFld w fLG_CTRL_INIT = 1 ∧ was = false then s.ledInit rnd else s
  let s2 := (s1.settingWrite rLG_CTRL w true false).ledShow
  let s3 := if s2.ledEnabled ∧ was = false then
      match s2.led.saved with
      | some v => s2.ledRestore v
      | none =>
        if s2.led.cfgGap ≠ 0 ∧ s2.noChain = false then
          (s2.modLed (fun x => { x with cfgGap := 0 })).ledPut (gapEntry s2.led.cfgGap)
        else s2
    else s2
  let s4 := (if getFld w fLG_CTRL_SEAL = 1 then s3.sealReq else s3).msrCompare
  if bad then s4.refuse rLG_CTRL else s4.answer .ok

/-- LG_CFG takes a word: only while EN = 0, and within the 768 grains; the unexported entries are abandoned, and the new ring's free slots end
FULL and let a waiting seal start (R147). (DEDUCED, log entry 24) -/
def State.wrLgCfg (s0 : State) (w : W64) : State :=
  let s := s0.ledFlush
  if getFld w fLG_CFG_RING_BASE + getFld w fLG_CFG_RING_GRAINS > 768 || regBadRange rLG_CFG w then s.refuse rLG_CFG
  else if s.ledEnabled then s.refuse rLG_CFG
  else
    let lostSlots := (List.range (s.ringDist s.ringAck s.led.next)).map (fun k => (s.ringAck + k) % s.ringSize)
    let n := (lostSlots.filter (fun i => !(s.led.sealSlots.contains i))).length
    let s1 := (s.bumpErrN rLG_DROP n).settingWrite rLG_CFG w true false
    let s2 := (s1.wr rLG_ACK fLG_ACK_INDEX 0).modLed (fun x => { x with
      next := 0, sealing := none, sealSlots := [], cfgGap := if s.noChain then x.cfgGap else x.cfgGap + n })
    if s2.ledFull then s2.ledFreed else (if s2.on rLG_STAT fLG_STAT_SEAL_WAIT then s2.sealReq else s2).ledShow

/-- LG_SEALCFG takes a word: the period restarts, 0 stops it. -/
def State.wrLgSealcfg (s : State) (w : W64) : State :=
  let s1 := s.settingWrite rLG_SEALCFG w true false
  if regBadRange rLG_SEALCFG w then s1
  else s1.modLed (fun x => { x with period := decide (s1.rd rLG_SEALCFG fLG_SEALCFG_SEAL_PERIOD_S ≠ 0) })

/-- LG_ACK takes a word: refused outside the range from LG_ACK to LG_WR, wrapping. -/
def State.wrLgAck (s : State) (w : W64) : State :=
  let v := getFld w fLG_ACK_INDEX
  if s.ringSize ≤ v || decide (s.ringDist s.ringAck s.ringWr < s.ringDist s.ringAck v) then s.refuse rLG_ACK
  else (s.settingWrite rLG_ACK w true false).ledFreed

/-- LSUB_CTRL of stall `st` takes a word (R149). -/
def State.wrLsubCtrl (s : State) (st : Nat) (w : W64) : State :=
  if getFld w fLSUB_CTRL_GO = 0 then s
  else if s.on (rLSUB_STAT st) fLSUB_STAT_BUSY then s.refuse (rLSUB_CTRL st)
  else if s.ledEnabled = false ∨ 6 ≤ s.dstate then s.wr (rLSUB_STAT st) fLSUB_STAT_DROPPED 1
  else (s.wr (rLSUB_STAT st) fLSUB_STAT_BUSY 1).ledger
    { typ := 2, pipe := getFld w fLSUB_CTRL_PIPE, source := st, code := getFld w fLSUB_CTRL_TAG
      payload := (List.range 8).flatMap (fun i => bytesLE 4 (s.rd (rLSUB_DATA st i) fLSUB_DATA_DATA)) }

/-! ### The commands -/

/-- LEDGER_APPEND (R142, R147): the oldest entry handed to the ledger is appended or dropped. -/
def execLedgerAppend (s : State) : Host.Outcome State Fault Refusal := .next s.begin.ledNext

/-- SEAL_PERIOD_WRITE (R145). -/
def execSealPeriodWrite (who : Who) (w : W32) (s : State) : Host.Outcome State Fault Refusal :=
  .next (s.begin.write who rLG_SEALCFG (fun s => s.wrLgSealcfg (wide w)))

/-- SEAL_PERIOD_EXPIRY (R145). -/
def execSealPeriodExpiry (s : State) : Host.Outcome State Fault Refusal :=
  .next (s.begin.guard (s.led.period && decide (s.dstate < 6)) (fun s => s.sealReq))

/-- SEAL_COMPLETE (R145): not while a save runs, which abandons a seal (R458). -/
def execSealComplete (s : State) : Host.Outcome State Fault Refusal :=
  .next (s.begin.guard (decide (s.dstate < 6)) (fun s => s.sealDone))

/-- LG_ACK_WRITE (R146, R147). -/
def execLgAckWrite (who : Who) (w : W32) (s : State) : Host.Outcome State Fault Refusal :=
  .next (s.begin.write who rLG_ACK (fun s => s.wrLgAck (wide w)))

/-- LG_CFG_WRITE (R146). -/
def execLgCfgWrite (who : Who) (w : W32) (s : State) : Host.Outcome State Fault Refusal :=
  .next (s.begin.write who rLG_CFG (fun s => s.wrLgCfg (wide w)))

/-- LEDGER_SUBMIT (R149): the guest of stall `st` writes LSUB_CTRL. -/
def execLedgerSubmit (st : Fin 16) (w : W32) (s : State) : Host.Outcome State Fault Refusal :=
  .next (s.begin.write (.stall st) (rLSUB_CTRL st) (fun s => s.wrLsubCtrl st (wide w)))

end Sys2Proof.Machine
end

