-- ==== Sys2Proof/Machine/Awning.lean ====
section
/-! DEFINITION. Machine/Awning.lean: the awning plane: the check of a new configuration, line checks and copy switches, the fault page
(R88, R89, R136 to R141). -/
namespace Sys2Proof.Machine

/-- The bytes of one copy: its pixels and its check-value table (R89). -/
def awnSize (h stride64 : Nat) : Nat := h * stride64 * 64 + 4 * h

/-- Does a copy lie at a multiple of 64 and wholly in market SRAM? -/
def awnCopyOk (a size : Nat) : Bool := decide (a % 64 = 0 ∧ sramBase ≤ a ∧ a + size ≤ sramBase + sramSize)

/-- The check of R89 of the awning group as written. -/
def State.awnValid (s : State) (p : Nat) : Bool :=
  if s.on (rACFG p) fACFG_EN then
    let size := awnSize (s.rd (rASIZE p) fASIZE_H) (s.rd (rASTRIDE p) fASTRIDE_STRIDE64)
    let a := s.rd (rACOPY0 p) fACOPY0_ADDR
    let b := s.rd (rACOPY1 p) fACOPY1_ADDR
    awnCopyOk a size && awnCopyOk b size &&
      (decide (grainOf (a + size - 1) < grainOf b) || decide (grainOf (b + size - 1) < grainOf a))
  else true

/-- The settings of the awning group (R98). -/
def awnGroup (p : Nat) : List Nat := [rACFG p, rAALPHA p, rAPOS p, rASIZE p, rACOPY0 p, rACOPY1 p, rASTRIDE p]

/-- An entry for a change of CUR (R491). -/
def State.awnEntry (s : State) (p source copy : Nat) : LedEntry :=
  { typ := 3, pipe := p, source := source, code := 5, frame := s.frameCount p, frameEpoch := s.frameEpoch p
    payload := bytesLE 1 copy }

/-- CUR of AFSTAT. -/
def State.awnCur (s : State) (p : Nat) : Nat := s.rd (rAFSTAT p) fAFSTAT_CUR

/-- CUR follows AFCTL.SEL at a frame boundary (R140). -/
def State.awnSelect (s : State) (p : Nat) : State :=
  if (s.pipe p).selTaken then
    let s1 := s.modPipe p (fun x => { x with selTaken := false })
    let c := s.frd (rAFCTL p) fAFCTL_SEL
    if c = s.awnCur p then s1 else (s1.wr (rAFSTAT p) fAFSTAT_CUR c).ledger (s.awnEntry p 0x80 c)
  else s

/-- The copy that a fetch reads: CUR, or in vertical blanking the copy that a taken SEL puts into use. -/
def State.awnCopy (s : State) (p : Nat) (next : Bool) : Nat :=
  if next && (s.pipe p).selTaken then s.frd (rAFCTL p) fAFCTL_SEL else s.awnCur p

/-- Awning line y of a copy and its table entry (R136): the bytes, if both reads answered and the check value agrees. -/
def State.awnRead (s : State) (v : View) (p copy y : Nat) : State × Option (List Byte) :=
  let r := s.awnRect v p
  let st := s.vrd v (rASTRIDE p) fASTRIDE_STRIDE64 * 64
  let base := if copy = 0 then s.vrd v (rACOPY0 p) fACOPY0_ADDR else s.vrd v (rACOPY1 p) fACOPY1_ADDR
  let (s1, line) := s.memLoad (base + y * st) (r.w * fmtBytes (s.vrd v (rACFG p) fACFG_FORMAT))
  let (s2, entry) := s1.memLoad (base + r.h * st + 4 * y) 4
  match line, entry with
  | some b, some e => (s2, if (crc32c b).toNat = ofBytesLE e then some b else none)
  | _, _ => (s2, none)

/-- A first failed check: BAD of the copy, CUR to the other, counted, told to the keeper and logged (R137). -/
def State.awnSwitch (s : State) (p copy y : Nat) : State :=
  let new := 1 - copy
  let s1 := ((s.wr (rAFSTAT p) (if copy = 0 then fAFSTAT_BAD0 else fAFSTAT_BAD1) 1).wr (rAFSTAT p) fAFSTAT_CUR new).wr (rAFSTAT p)
    fAFSTAT_LINE y
  let s2 := ((s1.bumpErr (rAFSWITCH p)).kevt (0x10 + p) 0x03 new y).ledger (s1.awnEntry p 0xFF new)
  s2.modPipe p (fun x => { x with awnAgain := some y, selTaken := false })

/-- A second failed check of the same line: both BAD, DOUBLE, the line in the SAFE colour (R139). -/
def State.awnDouble (s : State) (p y : Nat) : State :=
  let s1 := (((s.wr (rAFSTAT p) fAFSTAT_BAD0 1).wr (rAFSTAT p) fAFSTAT_BAD1 1).wr (rAFSTAT p) fAFSTAT_DOUBLE 1).wr (rAFSTAT p)
    fAFSTAT_LINE y
  s1.modPipe p (fun x => { x with awnAgain := .none, awn := x.awn ++ [⟨y, none⟩] })

/-- Is awning line y one that the pipe fetches now: in vertical blanking lines 0 and 1 of the next frame, otherwise a line of
this frame inside the active area; and not already there? -/
def State.awnWants (s : State) (p y : Nat) (next : Bool) : Bool :=
  let x := s.pipe p
  let v : View := if next then .force else .scan
  let r := s.awnRect v p
  x.scanning && s.vrd v (rACFG p) fACFG_EN == 1 && decide (y < r.h ∧ r.y + y < (s.tmg p).va) && decide (r.x < (s.tmg p).ha) &&
    (x.awn.find? (fun t => t.y == y)).isNone && (if next then x.nextRunning && decide (y < 2) else s.pst p == stRUNNING)

/-- An awning line fetch completes (R137, R139). (DEDUCED, log entry 22) -/
def State.awnFetched (s : State) (p y : Nat) : State :=
  let x := s.pipe p
  let next := decide ((s.tmg p).va ≤ x.line)
  if s.awnWants p y next then
    let copy := s.awnCopy p next
    let (s1, b) := s.awnRead (if next then .force else .scan) p copy y
    match b with
    | some l => s1.modPipe p (fun x => { x with awnAgain := .none, awn := x.awn ++ [⟨y, some l⟩] })
    | none => if x.awnAgain = some y then s1.awnDouble p y else s1.awnSwitch p copy y
  else s

/-- AFCTL takes a word: a SEL that names a copy with BAD set is refused (R140). (DEDUCED, log entry 23) -/
def State.wrAfctl (s : State) (p : Nat) (w : W64) : State :=
  if s.on (rAFSTAT p) (if getFld w fAFCTL_SEL = 0 then fAFSTAT_BAD0 else fAFSTAT_BAD1) then s.refuse (rAFCTL p)
  else (s.settingWrite (rAFCTL p) w true false).modPipe p (fun x => { x with selWritten := true })

/-- AFCLR takes a word (R141). -/
def State.wrAfclr (s : State) (p : Nat) (w : W64) : State :=
  let c := getFld w fAFCLR_CLR
  let s1 := if bitOf c 0 then s.wr (rAFSTAT p) fAFSTAT_BAD0 0 else s
  if bitOf c 1 then s1.wr (rAFSTAT p) fAFSTAT_BAD1 0 else s1

/-- AFCTL is taken at every latch point (R140). -/
def State.awnLatch (s : State) (p : Nat) : State :=
  (s.latch (rAFCTL p)).modPipe p (fun x =>
    { x with selTaken := x.selTaken || x.selWritten, selWritten := false })

/-- The awning group is taken: with a changed copy address both BAD flags clear and CUR follows the SEL taken here (R140). -/
def State.awnTake (s : State) (p : Nat) : State :=
  let moved := s.rw (rACOPY0 p) != s.frw (rACOPY0 p) || s.rw (rACOPY1 p) != s.frw (rACOPY1 p)
  let s1 := ((awnGroup p).foldl (fun s a => s.latch a) s).wr (rASTAT p) fASTAT_CFG_REFUSED 0
  if moved then
    ((s1.wr (rAFSTAT p) fAFSTAT_BAD0 0).wr (rAFSTAT p) fAFSTAT_BAD1 0).modPipe p (fun x => { x with selTaken := true })
  else s1

/-- AWNING_LINE_FETCHED (R137, R139). -/
def execAwningLineFetched (p : Fin 8) (y : Nat) (s : State) : Host.Outcome State Fault Refusal :=
  .next (s.begin.awnFetched p y)

/-- AWNING_FAULT_MASKED (R138): a single fault on an awning line. -/
def execAwningFaultMasked (p : Fin 8) (y : Nat) (s : State) : Host.Outcome State Fault Refusal :=
  .next (s.begin.guard (s.pipe p).scanning (fun s => (s.bumpErr (rAFMASKED p)).kevt (0x10 + p) 0x04 0 y))

/-- AFCLR (R141). -/
def execAfclr (who : Who) (p : Fin 8) (w : W32) (s : State) : Host.Outcome State Fault Refusal :=
  .next (s.begin.write who (rAFCLR p) (fun s => s.wrAfclr p (wide w)))

end Sys2Proof.Machine
end

