-- ==== Sys2Proof/Machine/Commit.lean ====
section
/-! DEFINITION. Machine/Commit.lean: commit groups, the latch point, fences, held commits (R98 to R120). -/
namespace Sys2Proof.Machine

/-! ### Fences (R107, R120) -/

/-- The value of fence f of stall st, and a write of it. -/
def State.fence (s : State) (st f : Nat) : Nat := s.rd (rFVAL (64 * st + f)) fFVAL_VAL
def State.setFence (s : State) (st f v : Nat) : State := s.wr (rFVAL (64 * st + f)) fFVAL_VAL v

/-- fence_reached of R107 for a value and a target. -/
def fenceReached (v t : Nat) : Bool := decide (since32 v (t % 2 ^ 32) < 2 ^ 31)

/-- FVAL_WRITE (R120): fence f of stall `st` is replaced. -/
def execFvalWrite (who : Who) (st : Fin 16) (f : Fin 64) (w : W32) (s : State) : Host.Outcome State Fault Refusal :=
  .next (s.begin.write who (rFVAL (64 * st + f)) (fun s => s.setFence st f w.toNat))

/-- FADD (R120): n is added to fence f of stall `st` modulo 2^32. -/
def execFadd (who : Who) (st : Fin 16) (f : Fin 64) (n : W32) (s : State) : Host.Outcome State Fault Refusal :=
  .next (s.begin.write who (rFADD (64 * st + f)) (fun s => s.setFence st f (s.fence st f + n.toNat)))

/-! ### Commit state of a layer -/

def layDflt (_ : Nat) : LaySt := {}
def State.lay (s : State) (p m : Nat) : LaySt := storeGet layDflt (s.pipe p).lay m
def State.modLay (s : State) (p m : Nat) (f : LaySt → LaySt) : State :=
  s.modPipe p (fun x => { x with lay := storePut layDflt x.lay m (f (storeGet layDflt x.lay m)) })

/-! RESULT codes (R117, R118). -/
def resTAKEN : Nat := 1
def resBANDWIDTH : Nat := 2
def resCANCELLED : Nat := 3
def resDROPPED : Nat := 4
def resREJECTED : Nat := 5
def resWAITING : Nat := 6

/-- CSTAT shows what does not wait for vertical blanking: PENDING, HELD, LATE; KHELD the held commits. -/
def State.showPend (s : State) (p m : Nat) : State :=
  let l := s.lay p m
  (((s.wr (rCSTAT p m) fCSTAT_PENDING (b2n (l.pending || l.unpub))).wr (rCSTAT p m) fCSTAT_HELD (b2n l.held)).wr (rCSTAT p m)
    fCSTAT_LATE (b2n l.late)).wr (rKHELD p) ⟨m, 1⟩ (b2n (l.pending && l.held))

/-- CSTAT shows everything (R103). -/
def State.showLayer (s : State) (p m : Nat) : State :=
  let l := s.lay p m
  (((((s.wr (rCSTAT p m) fCSTAT_NOT_READY (b2n l.notReady)).wr (rCSTAT p m) fCSTAT_FALLBACK (b2n l.fallback)).wr (rCSTAT p m)
    fCSTAT_RESULT l.result).wr (rCSTAT p m) fCSTAT_NR_RUN l.nrRun).wr (rCSTAT p m) fCSTAT_FRAME_LO l.frameLo).showPend p m

/-- PCSTAT shows pending and late commits at once. -/
def State.showPcommit (s : State) (p : Nat) : State :=
  let x := s.pipe p
  let a := rPCSTAT p
  (((((s.wr a fPCSTAT_PIPE_PEND (b2n (x.pipePend || x.pipeUn))).wr a fPCSTAT_LOCK_PEND (b2n (x.lockPend || x.lockUn))).wr a
    fPCSTAT_AWN_PEND (b2n (x.awnPend || x.awnUn))).wr a fPCSTAT_PIPE_LATE (b2n x.pipeLate)).wr a fPCSTAT_LOCK_LATE
    (b2n x.lockLate)).wr a fPCSTAT_AWN_LATE (b2n x.awnLate)

/-- A layer's pending commit ends (R110): NR_RUN and FALLBACK clear, and LATE is that of the last commit taken (R117). -/
def LaySt.ended (l : LaySt) (res : Nat) : LaySt :=
  let late := if res = resTAKEN then l.late else l.lateTaken
  { l with late := late, lateTaken := late, pending := false, held := false, result := res, nrRun := 0, fallback := false }

/-- The release fence of a commit that is dropped unread is signalled at once (R108). -/
def State.releaseNow (s : State) (p m : Nat) : State :=
  if s.on (rCFENCE p m) fCFENCE_REL_EN then
    s.setFence (s.layerOwner p m) (s.rd (rCFENCE p m) fCFENCE_REL_IDX) (s.rd (rCREL_VAL p m) fCREL_VAL_VAL)
  else s

/-- The flip event of a layer's owner (R108). -/
def State.flip (s : State) (p m : Nat) : State := s.irq (s.layerOwner p m) (64 + p)

/-- A pending commit is dropped outside a latch point. -/
def State.dropCommit (s : State) (p m res : Nat) (release : Bool) : State :=
  if (s.lay p m).pending then
    let s1 := (s.modLay p m (fun l => l.ended res)).showLayer p m
    (if release then s1.releaseNow p m else s1).flip p m
  else s

/-- Is a commit that arrives now late: on or after the latch point of this frame (R101, R104)? (DEDUCED, log entry 23) -/
def State.lateNow (s : State) (p : Nat) : Bool := (s.pipe p).latched

/-- A layer commit arrives at the pipe (R99, R101, R102). (DEDUCED, log entry 23) -/
def State.commitArrives (s : State) (p m : Nat) : State :=
  let late := s.lateNow p
  let s1 := (s.modLay p m (fun l => { l with pending := true, held := false, late := late })).showPend p m
  if late then s1.bumpErr (rLLATE p m) else s1

/-- Is a layer held: named in LAYERS of an enabled pitch of a stall, in force (R114, R126)? (DEDUCED, log entry 23) -/
def State.layerHeld (s : State) (p m : Nat) : Bool :=
  (List.range 16).any (fun k => (pcfgOwner (s.frw (rPCFG p k))).isSome && bitOf (s.frd (rPCFG p k) fPCFG_LAYERS) m)

/-- COMMIT takes a word (R99, R109, R114): both bits set are refused. -/
def State.wrCommit (s : State) (p m : Nat) (w : W64) : State :=
  let c := getFld w fCOMMIT_COMMIT == 1
  let x := getFld w fCOMMIT_CANCEL == 1
  if c && x then s.refuse (rCOMMIT p m)
  else if x then s.dropCommit p m resCANCELLED true
  else if c then
    if s.layerHeld p m then
      ((s.modLay p m (fun l => { l with pending := true, held := true, late := false })).showPend p m).kevt (0x10 + p) 0x01 m (s.layerOwner p m)
    else s.commitArrives p m
  else s

/-- LAYER_COMMIT (R99, R114). -/
def execLayerCommit (who : Who) (p m : Fin 8) (s : State) : Host.Outcome State Fault Refusal :=
  .next (s.begin.write who (rCOMMIT p m) (fun s => s.wrCommit p m (wBit 0 fCOMMIT_COMMIT)))

/-- LAYER_CANCEL (R109). -/
def execLayerCancel (who : Who) (p m : Fin 8) (s : State) : Host.Outcome State Fault Refusal :=
  .next (s.begin.write who (rCOMMIT p m) (fun s => s.wrCommit p m (wBit 0 fCOMMIT_CANCEL)))

/-! ### The pipe commit page (R111, R112, R118) -/

/-- PCSTAT.RESULT changes at once. -/
def State.presultNow (s : State) (p res : Nat) : State :=
  (s.modPipe p (fun x => { x with presult := res })).wr (rPCSTAT p) fPCSTAT_RESULT res

/-- A commit of the pipe, lockstep or awning group arrives: late ones advance PLATE (R102). -/
def State.plate (s : State) (p : Nat) : State := if s.lateNow p then s.bumpErr (rPLATE p) else s

/-- Does the writer hold the colour grant alone, and so act on PIPE and CANCEL_PIPE only (R118)? -/
def colourOnly : Who → Bool
  | .stall _ => true
  | _ => false

/-- PCOMMIT takes a word (R109, R111, R118): a group's commit and cancel together are refused; the colour-grant holder's lockstep bits are
refused under R9 while the other bits take effect. -/
def State.wrPcommit (s : State) (who : Who) (p : Nat) (w0 : W64) : State :=
  let bad := colourOnly who && (getFld w0 fPCOMMIT_LOCK == 1 || getFld w0 fPCOMMIT_CANCEL_LOCK == 1)
  let w := if bad then putFld (putFld w0 fPCOMMIT_LOCK 0) fPCOMMIT_CANCEL_LOCK 0 else w0
  let s := if bad then s.refuse (rPCOMMIT p) else s
  let b (f : Fld) : Bool := getFld w f == 1
  if (b fPCOMMIT_PIPE && b fPCOMMIT_CANCEL_PIPE) || (b fPCOMMIT_LOCK && b fPCOMMIT_CANCEL_LOCK) then s.refuse (rPCOMMIT p)
  else
    let late := s.lateNow p
    let s1 := if b fPCOMMIT_CANCEL_PIPE && (s.pipe p).pipePend then
      (s.modPipe p (fun x => { x with pipePend := false })).presultNow p resCANCELLED else s
    let s2 := if b fPCOMMIT_CANCEL_LOCK && (s1.pipe p).lockPend then
      (s1.modPipe p (fun x => { x with lockPend := false })).presultNow p resCANCELLED else s1
    let s3 := if b fPCOMMIT_PIPE then (s2.modPipe p (fun x => { x with pipePend := true, pipeLate := late })).plate p else s2
    let s4 := if b fPCOMMIT_LOCK then (s3.modPipe p (fun x => { x with lockPend := true, lockLate := late })).plate p else s3
    s4.showPcommit p

/-- ACOMMIT takes a word (R109, R112). -/
def State.wrAcommit (s : State) (p : Nat) (w : W64) : State :=
  let c := getFld w fACOMMIT_COMMIT == 1
  let x := getFld w fACOMMIT_CANCEL == 1
  if c && x then s.refuse (rACOMMIT p)
  else
    let late := s.lateNow p
    let s1 := if x then s.modPipe p (fun y => { y with awnPend := false }) else s
    let s2 := if c then (s1.modPipe p (fun y => { y with awnPend := true, awnLate := late })).plate p else s1
    s2.showPcommit p

/-- KREL takes a word (R114): a bit set in both fields is refused. -/
def State.wrKrel (s : State) (p : Nat) (w : W64) : State :=
  let rel := getFld w fKREL_RELEASE
  let rej := getFld w fKREL_REJECT
  if (List.range 8).any (fun m => bitOf rel m && bitOf rej m) then s.refuse (rKREL p)
  else overN 8 (fun m s =>
    if (s.lay p m).pending && (s.lay p m).held then
      if bitOf rej m then s.dropCommit p m resREJECTED true else if bitOf rel m then s.commitArrives p m else s
    else s) s

/-- CMODE_CFG takes a word: GUARD less than the VACTIVE in force (R118). -/
def State.wrCmodeCfg (s : State) (p : Nat) (w : W64) : State :=
  if (s.tmg p).va ≤ getFld w fCMODE_CFG_GUARD then s.refuse (rCMODE_CFG p) else s.settingWrite (rCMODE_CFG p) w true false

/-- PIPE_COMMIT (R98). -/
def execPipeCommit (who : Who) (p : Fin 8) (s : State) : Host.Outcome State Fault Refusal :=
  .next (s.begin.write who (rPCOMMIT p) (fun s => s.wrPcommit who p (wBit 0 fPCOMMIT_PIPE)))

/-- LOCKSTEP_REQUEST (R111). -/
def execLockstepRequest (who : Who) (p : Fin 8) (s : State) : Host.Outcome State Fault Refusal :=
  .next (s.begin.write who (rPCOMMIT p) (fun s => s.wrPcommit who p (wBit 0 fPCOMMIT_LOCK)))

/-- CANCEL_PIPE (R109). -/
def execCancelPipe (who : Who) (p : Fin 8) (s : State) : Host.Outcome State Fault Refusal :=
  .next (s.begin.write who (rPCOMMIT p) (fun s => s.wrPcommit who p (wBit 0 fPCOMMIT_CANCEL_PIPE)))

/-- CANCEL_LOCK (R109). -/
def execCancelLock (who : Who) (p : Fin 8) (s : State) : Host.Outcome State Fault Refusal :=
  .next (s.begin.write who (rPCOMMIT p) (fun s => s.wrPcommit who p (wBit 0 fPCOMMIT_CANCEL_LOCK)))

/-- AWNING_COMMIT (R112). -/
def execAwningCommit (who : Who) (p : Fin 8) (s : State) : Host.Outcome State Fault Refusal :=
  .next (s.begin.write who (rACOMMIT p) (fun s => s.wrAcommit p (wBit 0 fACOMMIT_COMMIT)))

/-- AWNING_CANCEL (R109). -/
def execAwningCancel (who : Who) (p : Fin 8) (s : State) : Host.Outcome State Fault Refusal :=
  .next (s.begin.write who (rACOMMIT p) (fun s => s.wrAcommit p (wBit 0 fACOMMIT_CANCEL)))

/-- KREL_RELEASE (R114): the layers whose bit is set. -/
def execKrelRelease (who : Who) (p : Fin 8) (layers : BitVec 8) (s : State) : Host.Outcome State Fault Refusal :=
  .next (s.begin.write who (rKREL p) (fun s => s.wrKrel p (putFld 0 fKREL_RELEASE layers.toNat)))

/-- KREL_REJECT (R114): the layers whose bit is set. -/
def execKrelReject (who : Who) (p : Fin 8) (layers : BitVec 8) (s : State) : Host.Outcome State Fault Refusal :=
  .next (s.begin.write who (rKREL p) (fun s => s.wrKrel p (putFld 0 fKREL_REJECT layers.toNat)))

/-! ### The latch (R105, R106, R108, R110, R111, R113) -/

/-- The settings of a layer group and of the pipe group (R98). -/
def layerGroup (p m : Nat) : List Nat :=
  [rLCFG p m, rLALPHA p m, rLPOS p m, rLSIZE p m, rLSRC p m, rLSTRIDE p m, rCBUF_LO p m, rCBUF_HI p m, rCFENCE p m, rCACQ_VAL p m,
   rCREL_VAL p m]
def pipeGroup (p : Nat) : List Nat :=
  [rCCFG p, rBG_RG p, rBG_B p, rCSC0_A p, rCSC0_B p, rCSC1_A p, rCSC1_B p, rCSC2_A p, rCSC2_B p, rPANIC_CFG p, rWB_CFG p,
   rWB_ADDR_LO p, rWB_ADDR_HI p, rWB_STRIDE p]

/-- Settings come into force. -/
def State.latchAll (s : State) (l : List Nat) : State := l.foldl (fun s a => s.latch a) s

/-- What the evaluation of R105 finds: layers ready and waiting, and whether a pending, unfrozen layer is held. -/
structure LatchEval where
  ready : List Nat
  waiting : List Nat
  anyHeld : Bool

/-- A pending layer of a stall that is not frozen (R115). -/
def State.latchable (s : State) (p m : Nat) : Bool := (s.lay p m).pending && s.stallState (s.layerOwner p m) != 2

/-- Is a layer's acquire fence reached, or none asked for? -/
def State.acquired (s : State) (p m : Nat) : Bool :=
  !(s.on (rCFENCE p m) fCFENCE_ACQ_EN) ||
    fenceReached (s.fence (s.layerOwner p m) (s.rd (rCFENCE p m) fCFENCE_ACQ_IDX)) (s.rd (rCACQ_VAL p m) fCACQ_VAL_VAL)

def State.latchEval (s : State) (p : Nat) : LatchEval :=
  let c := (List.range 8).filter (fun m => s.latchable p m)
  let go := c.filter (fun m => !(s.lay p m).held)
  { ready := go.filter (fun m => s.acquired p m), waiting := go.filter (fun m => !(s.acquired p m))
    anyHeld := c.any (fun m => (s.lay p m).held) }

/-- NOT_READY, LNOTREADY, NR_RUN and FALLBACK of layer m (R105, R110). -/
def State.notReadyLayer (s : State) (p m : Nat) (counted fenced waits : Bool) : State :=
  let s1 := s.modLay p m (fun l => { l with notReady := counted && waits })
  let s2 := if counted && waits then s1.bumpErr (rLNOTREADY p m) else s1
  if fenced && waits then
    let run := min 15 ((s2.lay p m).nrRun + 1)
    let fb := decide ((s2.pipe p).fallback ≤ run)
    let new := fb && !(s2.lay p m).fallback
    let s3 := s2.modLay p m (fun l => { l with nrRun := run, fallback := l.fallback || fb })
    if new then s3.modPipe p (fun x => { x with flips := setBitN x.flips (s3.layerOwner p m) true }) else s3
  else s2

/-- Which groups a latch point takes. -/
structure Take where
  layers : List Nat
  pipe : Bool
  awn : Bool
  lock : Bool

/-- A layer group is taken: the buffer in force is replaced, its release becomes due (R108). (DESIGN CHOICE, log entry 107) -/
def State.takeLayer (s : State) (p m : Nat) : State :=
  let own := s.layerOwner p m
  let due := if s.fon (rCFENCE p m) fCFENCE_REL_EN then
    [(own, s.frd (rCFENCE p m) fCFENCE_REL_IDX, BitVec.ofNat 32 (s.frd (rCREL_VAL p m) fCREL_VAL_VAL))] else []
  let s1 := (s.latchAll (layerGroup p m)).modLay p m (fun l =>
    { l.ended resTAKEN with unpub := true, frameLo := (s.frameCount p + 1) % 2 ^ 16 })
  s1.modPipe p (fun x => { x with relDue := x.relDue ++ due, flips := setBitN x.flips own true })

/-- The lockstep request and the pipe commit end with a result; the awning commit ends. (DESIGN CHOICE, log entry 107) -/
def State.endPipeGroups (s : State) (p : Nat) (t : Take) (res : Nat) : State :=
  s.modPipe p (fun x =>
    { x with pipePend := x.pipePend && !t.pipe, pipeUn := x.pipeUn || t.pipe, lockPend := x.lockPend && !t.lock
             lockUn := x.lockUn || t.lock, awnPend := x.awnPend && !t.awn, awnUn := x.awnUn || t.awn
             presult := if t.pipe || t.lock then res else x.presult })

/-- Every group in `t` is applied. -/
def State.applyTake (s : State) (p : Nat) (t : Take) : State :=
  let s1 := t.layers.foldl (fun s m => s.takeLayer p m) s
  let s2 := if t.pipe then s1.latchAll (pipeGroup p) else s1
  let s3 := if t.awn then s2.awnTake p else s2
  s3.endPipeGroups p t resTAKEN

/-- Every group in `t` is refused for bandwidth (R106). -/
def State.refuseTake (s : State) (p : Nat) (t : Take) : State :=
  let s1 := t.layers.foldl (fun s m =>
    (((s.modLay p m (fun l => { l.ended resBANDWIDTH with unpub := true })).releaseNow p m).modPipe p
      (fun x => { x with flips := setBitN x.flips (s.layerOwner p m) true }))) (s.bumpErr (rBW_REFUSED p))
  s1.endPipeGroups p t resBANDWIDTH

/-- The awning commit is refused by R89: CFG_REFUSED and a keeper event. -/
def State.refuseAwn (s : State) (p : Nat) : State :=
  ((s.wr (rASTAT p) fASTAT_CFG_REFUSED 1).kevt (0x10 + p) 0x02 0 0).modPipe p (fun x => { x with awnPend := false, awnUn := true })

/-- A lockstep request that waits (R111). -/
def State.lockWaits (s : State) (p : Nat) : State := (s.bumpEv (rLS_WAIT p) 1).modPipe p (fun x => { x with presult := resWAITING })

/-- Layers granted to a stall whose reset was done are disabled at the first latch point after it (R241). (DESIGN CHOICE, log entry 107) -/
def State.disableLayers (s : State) (p : Nat) : State :=
  (overN 8 (fun m s => if bitOf (s.pipe p).disable m then (s.wr (rLCFG p m) fLCFG_EN 0).fwr (rLCFG p m) fLCFG_EN 0 else s) s).modPipe p
    (fun x => { x with disable := 0 })

/-- CMODE_CFG is taken; in FENCED a lockstep request is cleared (R113). -/
def State.latchMode (s : State) (p : Nat) : State :=
  let s1 := s.latch (rCMODE_CFG p)
  let s2 := s1.modPipe p (fun x =>
    { x with gfNext := some (s1.frd (rCMODE_CFG p) fCMODE_CFG_GUARD, s1.frd (rCMODE_CFG p) fCMODE_CFG_FALLBACK_FRAMES) })
  if s2.frd (rCMODE_CFG p) fCMODE_CFG_MODE = 0 ∧ (s2.pipe p).lockPend then
    s2.modPipe p (fun x => { x with lockPend := false, lockUn := true, presult := resCANCELLED })
  else s2

/-- The groups taken once the evaluation is known, as R105 lists them; the awning commit has passed R89. -/
def latchTake (x : PipeSt) (fenced : Bool) (e : LatchEval) : Take :=
  if fenced then { layers := e.ready, pipe := x.pipePend, awn := x.awnPend, lock := false }
  else if x.lockPend && e.waiting.isEmpty && !e.anyHeld then { layers := e.ready, pipe := x.pipePend, awn := x.awnPend, lock := true }
  else { layers := [], pipe := false, awn := x.awnPend, lock := false }

/-- Re-projection is decided and the LTF registers are latched (R94). -/
def State.latchLtf (s : State) (p : Nat) (fenced : Bool) (waiting : List Nat) : State :=
  let s1 := overN 8 (fun m s => s.latchAll [rLTF_AB p m, rLTF_DE p m, rLTF_C p m, rLTF_F p m]) s
  let bits := (List.range 8).foldl (fun v m =>
    v + b2n (fenced && waiting.contains m && s1.frd (rLCFG p m) fLCFG_REPROJ_EN == 1) * 2 ^ m) 0
  s1.modPipe p (fun x => { x with reprojNext := bits, latchFrame := s1.frameCount p % 2 ^ 16 })

/-- The latch of the commit groups (R105). (DEDUCED, log entry 23) -/
def State.latchCommits (s0 : State) (p : Nat) : State :=
  let s := (s0.disableLayers p).latchMode p
  let fenced := s.frd (rCMODE_CFG p) fCMODE_CFG_MODE == 0
  let e := s.latchEval p
  let counted := fenced || (s.pipe p).lockPend
  let s1 := overN 8 (fun m s => s.notReadyLayer p m counted fenced (e.waiting.contains m)) s
  let s2 := if (s1.pipe p).awnPend && !(s1.awnValid p) then s1.refuseAwn p else s1
  let t := latchTake (s2.pipe p) fenced e
  let s3 := if !fenced && (s2.pipe p).lockPend && !t.lock then s2.lockWaits p else s2
  let s4 := s3.applyTake p t
  let s5 := if s4.tooFast .force p then s3.refuseTake p t else s4
  s5.latchLtf p fenced e.waiting

/-- The first edge of vertical blanking after the latch point (R103, R108): releases, flip events, CSTAT and PCSTAT. (DEDUCED, log entry 22) -/
def State.publishCommits (s : State) (p : Nat) : State :=
  let x := s.pipe p
  let s1 := x.relDue.foldl (fun s r => s.setFence r.1 r.2.1 r.2.2.toNat) s
  let s2 := s1.modPipe p (fun x => { x with relDue := [], flips := 0, pipeUn := false, lockUn := false, awnUn := false })
  let s3 := overN 8 (fun m s => (s.modLay p m (fun l => { l with unpub := false })).showLayer p m) s2
  let s4 := overN 16 (fun st s => if bitOf x.flips st then s.irq st (64 + p) else s) s3
  ((((s4.wr (rPCSTAT p) fPCSTAT_RESULT x.presult).wr (rPCSTAT p) fPCSTAT_LATCH_FRAME x.latchFrame).wr (rPCSTAT p) fPCSTAT_MODE
    (s4.frd (rCMODE_CFG p) fCMODE_CFG_MODE))).showPcommit p

/-- A stall enters reset: its pending commits are dropped without a release (R115). (DESIGN CHOICE, log entry 107) -/
def State.dropStallCommits (s : State) (st : Nat) : State :=
  overN 8 (fun p s => overN 8 (fun m s => if s.layerOwner p m = st then s.dropCommit p m resDROPPED false else s) s) s

end Sys2Proof.Machine
end

