-- ==== Sys2Proof/Machine/Float.lean ====
section
/-! DEFINITION. Machine/Float.lean: binary32 and binary16 numbers as bit patterns (R164, R170, R171): rounding to nearest even, the
conversions between them and normalised numbers, and addition. A magnitude is counted in units of the smallest subnormal, 2^-149 for
binary32 and 2^-24 for binary16. -/
namespace Sys2Proof.Machine

/-- A NaN of binary16, of binary32. -/
def isNan16 (h : Nat) : Bool := decide (h / 1024 % 32 = 31 ∧ h % 1024 ≠ 0)
def isNan32 (f : Nat) : Bool := decide (f / 2 ^ 23 % 256 = 255 ∧ f % 2 ^ 23 ≠ 0)
/-- The canonical quiet NaN for every NaN (R164). -/
def canon16 (h : Nat) : Nat := if isNan16 h then 0x7E00 else h
def canon32 (f : Nat) : Nat := if isNan32 f then 0x7FC00000 else f

/-- n / d rounded to the nearest integer, halves to even. -/
def roundEven (n d : Nat) : Nat :=
  let q := n / d
  let r := 2 * (n % d)
  if d < r ∨ (d = r ∧ q % 2 = 1) then q + 1 else q

/-- The bits of the magnitude n / d units in a format with `mb` fraction bits, rounded to nearest even; `top` is infinity. -/
def fpRound (mb top n d : Nat) : Nat :=
  let e := Nat.log2 (n / d) - mb
  min top (e * 2 ^ mb + roundEven n (d * 2 ^ e))

/-- Infinity of binary32 and 1.0. -/
def f32Inf : Nat := 0x7F800000
def f32One : Nat := 0x3F800000
/-- The magnitude of a finite binary32 in units of 2^-149. -/
def f32Mag (f : Nat) : Nat :=
  let e := f / 2 ^ 23 % 256
  if e = 0 then f % 2 ^ 23 else (2 ^ 23 + f % 2 ^ 23) * 2 ^ (e - 1)
/-- Is the sign bit of a binary32 set; is it infinite? -/
def f32Neg (f : Nat) : Bool := decide (f / 2 ^ 31 % 2 = 1)
def f32IsInf (f : Nat) : Bool := decide (f % 2 ^ 31 = f32Inf)

/-- n / d as binary32, for a quotient that is not negative: a normalised component (R171), a 12-bit one, fixed point. (DEDUCED, log entry 93) -/
def f32Ratio (n d : Nat) : Nat := fpRound 23 f32Inf (n * 2 ^ 149) d

/-- A binary32 value as 16-bit fixed point: floor(clamp(v, 0, 1) × 65535 + 0.5) (R164). -/
def f32Unorm16 (f : Nat) : Nat :=
  if isNan32 f then Config.nanUnorm % 65536
  else if f32Neg f then 0
  else if f32One ≤ f then 65535
  else (f32Mag f * 65535 * 2 + 2 ^ 149) / 2 ^ 150

/-- A binary32 value as binary16 (R164). -/
def f32Half (f : Nat) : Nat :=
  if isNan32 f then 0x7E00
  else 2 ^ 15 * b2n (f32Neg f) + (if f32IsInf f then 0x7C00 else fpRound 10 0x7C00 (f32Mag f) (2 ^ 125))

/-- A binary16 value as binary32, exactly. -/
def halfFloat (h : Nat) : Nat :=
  let sgn := 2 ^ 31 * (h / 32768 % 2)
  let e := h / 1024 % 32
  let m := h % 1024
  if isNan16 h then 0x7FC00000
  else if e = 31 then sgn + 255 * 2 ^ 23
  else if e = 0 then
    if m = 0 then sgn
    else
      let k := Nat.log2 m
      sgn + 2 ^ 23 * (103 + k) + (m - 2 ^ k) * 2 ^ (23 - k)
  else sgn + 2 ^ 23 * (e + 112) + 2 ^ 13 * m

/-- The signed value of a finite binary32 in units of 2^-149. -/
def f32Int (f : Nat) : Int := if f32Neg f then -(f32Mag f : Int) else f32Mag f

/-- The sum of two binary32 values, rounded to nearest even. -/
def f32Add (x y : Nat) : Nat :=
  if isNan32 x || isNan32 y then 0x7FC00000
  else if f32IsInf x then (if f32IsInf y && f32Neg x != f32Neg y then 0x7FC00000 else x)
  else if f32IsInf y then y
  else
    let v := f32Int x + f32Int y
    let sgn := if v = 0 then f32Neg x && f32Neg y else decide (v < 0)
    2 ^ 31 * b2n sgn + fpRound 23 f32Inf v.natAbs 1

/-- The average of n binary32 values: their sum in order, divided by n (R170). (DESIGN CHOICE, log entry 29) -/
def f32Average (l : List Nat) : Nat :=
  let v := match l with | [] => 0 | x :: m => m.foldl f32Add x
  if isNan32 v then 0x7FC00000
  else if f32IsInf v then v
  else 2 ^ 31 * b2n (f32Neg v) + fpRound 23 f32Inf (f32Mag v) (max 1 l.length)

end Sys2Proof.Machine
end

