-- ==== Sys2Proof/Machine/Tile.lean ====
section
/-! DEFINITION. Machine/Tile.lean: the formats of the raster engine and tile memory: footprints, loads, clears, stores, spill slots, and
the addresses of textures (R154, R161 to R165, R169, R170, R172 to R175). -/
namespace Sys2Proof.Machine

/-- How a component is held (R163): a normalised one as 16-bit fixed point, the 12-bit one of ARGB16161616 among them; binary16;
binary32; 24-bit depth; a stencil as it is. -/
inductive CompKind where
  | unorm | unorm12 | half | float | depth24 | stencil
  deriving DecidableEq, Repr

/-- A component of a format: its lowest bit and width in memory, its bytes in tile memory, how it is held. -/
structure Comp where
  lo : Nat
  w : Nat
  tb : Nat
  kind : CompKind
  deriving DecidableEq, Repr

/-- A target format: bytes in memory; components in the order R, G, B, A, or depth, stencil. -/
structure TFmt where
  bytes : Nat
  comps : List Comp
  depth : Bool := false
  deriving DecidableEq, Repr

def un (lo w : Nat) : Comp := ⟨lo, w, 2, .unorm⟩
def un12 (lo : Nat) : Comp := ⟨lo, 16, 2, .unorm12⟩
def hf (lo : Nat) : Comp := ⟨lo, 16, 2, .half⟩
def fl (lo : Nat) : Comp := ⟨lo, 32, 4, .float⟩

/-- The colour target and depth formats of R169. -/
def targetFmt : Nat → Option TFmt
  | 0x00 => some { bytes := 2, comps := [un 11 5, un 5 6, un 0 5] }
  | 0x01 => some { bytes := 2, comps := [un 10 5, un 5 5, un 0 5, un 15 1] }
  | 0x02 => some { bytes := 3, comps := [un 16 8, un 8 8, un 0 8] }
  | 0x03 => some { bytes := 4, comps := [un 16 8, un 8 8, un 0 8, un 24 8] }
  | 0x04 => some { bytes := 4, comps := [un 20 10, un 10 10, un 0 10, un 30 2] }
  | 0x05 => some { bytes := 8, comps := [un12 32, un12 16, un12 0, un12 48] }
  | 0x10 => some { bytes := 1, comps := [un 0 8] }
  | 0x11 => some { bytes := 2, comps := [un 0 8, un 8 8] }
  | 0x12 => some { bytes := 2, comps := [hf 0] }
  | 0x13 => some { bytes := 8, comps := [hf 32, hf 16, hf 0, hf 48] }
  | 0x14 => some { bytes := 4, comps := [fl 0] }
  | 0x15 => some { bytes := 16, comps := [fl 64, fl 32, fl 0, fl 96] }
  | 0x20 => some { bytes := 4, comps := [⟨0, 24, 3, .depth24⟩, ⟨24, 8, 1, .stencil⟩], depth := true }
  | 0x21 => some { bytes := 4, comps := [fl 0], depth := true }
  | 0x22 => some { bytes := 8, comps := [fl 0, ⟨32, 8, 4, .stencil⟩], depth := true }
  | _ => none

/-- Bytes a sample takes in tile memory (R163). -/
def TFmt.tileBytes (f : TFmt) : Nat := (f.comps.map Comp.tb).sum

/-! ### Conversions (R164, R170) -/

/-- Bit replication of n bits to 16 (R170). -/
def rep16 (n v : Nat) : Nat :=
  let k := (16 + n - 1) / max 1 n
  ((List.range k).map (fun i => v * 2 ^ (n * i))).sum / 2 ^ (n * k - 16)

/-- A component loaded from memory into tile memory. -/
def Comp.load (c : Comp) (v : Nat) : Nat :=
  match c.kind with
  | .unorm => rep16 c.w v
  | _ => v

/-- A component stored from tile memory to memory. -/
def Comp.store (c : Comp) (t : Nat) : Nat :=
  match c.kind with
  | .unorm => (t * (2 ^ c.w - 1) + 32767) / 65535 % 2 ^ c.w
  | .unorm12 => let v := (t * 4095 + 32767) / 65535 % 4096; v * 16 + v / 256
  | .half => canon16 t % 65536
  | .float => canon32 t % 2 ^ 32
  | _ => t % 2 ^ c.w

/-- A shader result, in binary32, as a component of tile memory (R164); a stencil value as it is. -/
def Comp.ofShader (c : Comp) (v : Nat) : Nat :=
  match c.kind with
  | .unorm | .unorm12 => f32Unorm16 v
  | .half => f32Half v
  | .float => canon32 v
  | .depth24 => Config.depth24 v % 2 ^ 24
  | .stencil => v % 256

/-- A component of tile memory as binary32 (R164); a stencil value as it is. -/
def Comp.toFloat (c : Comp) (t : Nat) : Nat :=
  match c.kind with
  | .unorm | .unorm12 => f32Ratio t 65535
  | .half => halfFloat t
  | .float => t
  | .depth24 => f32Ratio t (2 ^ 24 - 1)
  | .stencil => t

/-- Component i of a CLEAR word goes into tile memory as a shader result does: colour from binary16, depth from binary32, stencil as it is (R154, R164). -/
def Comp.clear (c : Comp) (depth : Bool) (w i : Nat) : Nat :=
  c.ofShader (if depth then (if c.kind = .stencil then bitsOf w 39 32 else bitsOf w 31 0) else halfFloat (w / 2 ^ (16 * i) % 65536))

/-- A pixel's memory word from its components in tile memory. -/
def TFmt.pack (f : TFmt) (t : List Nat) : Nat :=
  ((List.range f.comps.length).map (fun i =>
    match f.comps[i]? with | some c => c.store (t.getD i 0) * 2 ^ c.lo | none => 0)).sum

/-- A pixel's components in tile memory from its memory word. -/
def TFmt.unpack (f : TFmt) (w : Nat) : List Nat := f.comps.map (fun c => c.load (w / 2 ^ c.lo % 2 ^ c.w))

/-- A sample's components as a program reads them: binary32, and alpha 1 where the format has none (R166, R169). -/
def TFmt.readback (f : TFmt) (t : List Nat) : List Nat :=
  (List.range f.comps.length).map (fun i => match f.comps[i]? with | some c => c.toFloat (t.getD i 0) | none => 0) ++
    (if f.depth || f.comps.length == 4 then [] else [f32One])

/-- A sample's components from a program's results (R164); one that the operand does not give is 0. -/
def TFmt.ofShader (f : TFmt) (v : List Nat) : List Nat :=
  (List.range f.comps.length).map (fun i => match f.comps[i]? with | some c => c.ofShader (v.getD i 0) | none => 0)

/-- A CLEAR word's components in tile memory. -/
def TFmt.clear (f : TFmt) (w : Nat) : List Nat :=
  (List.range f.comps.length).map (fun i => match f.comps[i]? with | some c => c.clear f.depth w i | none => 0)

/-! ### Descriptors (R152, R154, R155, R165) -/

/-- A little-endian field of n bytes at an offset of a descriptor. -/
def fieldAt (d : List Byte) (o n : Nat) : Nat := ofBytesLE ((d.drop o).take n)

/-- Are n bytes at an offset 0? -/
def zeroAt (d : List Byte) (o n : Nat) : Bool := ((d.drop o).take n).all (fun b => b == 0)

/-- An attachment record of an RPD, decoded. -/
structure Att where
  addr : Nat
  raddr : Nat
  stride : Nat
  rstride : Nat
  fmt : Nat
  load : Nat
  store : Nat
  clear : Nat
  deriving DecidableEq, Repr

/-- The attachments of an RPD by their record numbers: ATT0 to ATT(NCOLOR - 1), and ATT8 if DEPTH. -/
def rpdAtts (d : List Byte) : List Nat := List.range (min 8 (fieldAt d 5 1)) ++ (if bitOf (fieldAt d 6 2) 0 then [8] else [])

def rpdAtt (d : List Byte) (a : Nat) : Att :=
  let o := 0x60 + 0x20 * a
  { addr := fieldAt d o 8, raddr := fieldAt d (o + 8) 8, stride := fieldAt d (o + 0x10) 2, rstride := fieldAt d (o + 0x12) 2
    fmt := fieldAt d (o + 0x14) 1, load := fieldAt d (o + 0x15) 1 % 4, store := fieldAt d (o + 0x15) 1 / 4 % 4
    clear := fieldAt d (o + 0x18) 8 }

/-- The checks of an attachment record. -/
def attOk (d : List Byte) (a : Nat) : Bool :=
  let o := 0x60 + 0x20 * a
  let r := rpdAtt d a
  let samples := fieldAt d 4 1
  (match targetFmt r.fmt with | some f => f.depth == (a == 8) | none => false) && decide (r.load ≤ 2) && decide (r.store ≤ 2) &&
  decide (fieldAt d (o + 0x15) 1 < 16) && zeroAt d (o + 0x16) 2 && decide (r.addr % 64 = 0) &&
  decide (1 ≤ r.stride ∧ r.stride ≤ 4095) &&
  (r.store != 2 || (decide (a ≠ 8 ∧ samples ≠ 1 ∧ r.raddr % 64 = 0) && decide (1 ≤ r.rstride ∧ r.rstride ≤ 4095)))

/-- The checks of an RPD (R154). -/
def rpdOk (d : List Byte) : Bool :=
  let f (o n : Nat) := fieldAt d o n
  decide (1 ≤ f 0 2 ∧ f 0 2 ≤ 8192) && decide (1 ≤ f 2 2 ∧ f 2 2 ≤ 8192) && decide (f 4 1 = 1 ∨ f 4 1 = 2 ∨ f 4 1 = 4) &&
  decide (f 5 1 ≤ 8) && decide (f 6 2 < 8) && decide (1 ≤ f 8 4 ∧ f 8 4 ≤ 65535) &&
  decide (f 0x10 8 % 64 = 0 ∧ f 0x18 8 % 64 = 0 ∧ f 0x28 8 % 64 = 0 ∧ f 0x38 8 % 64 = 0) &&
  decide (f 0x20 4 % 65536 = 0 ∧ 65536 ≤ f 0x20 4 ∧ f 0x20 4 ≤ 2 ^ 28) && zeroAt d 0x24 4 && zeroAt d 0x41 31 &&
  (decide (f 0x38 8 = 0) || decide (8 ≤ f 0x40 1 ∧ f 0x40 1 ≤ 16)) && (rpdAtts d).all (attOk d)

/-- Tile footprint in bytes per pixel (R165). -/
def rpdFoot (d : List Byte) : Nat :=
  ((rpdAtts d).map (fun a => match targetFmt (rpdAtt d a).fmt with | some f => f.tileBytes * fieldAt d 4 1 | none => 0)).sum

/-- The checks of a draw record (R154). -/
def drawOk (d : List Byte) : Bool :=
  let f (o n : Nat) := fieldAt d o n
  let fl := f 0x30 2
  decide (f 0 8 % 64 = 0 ∧ f 8 8 % 64 = 0 ∧ f 0x28 8 % 64 = 0) && (decide (f 0x10 8 = 0) || decide (fl % 4 = 1 ∨ fl % 4 = 2)) &&
  decide (fl / 4 % 8 ≤ 5) && decide (fl < 128) && decide (f 0x20 4 ≤ 65536) && zeroAt d 0x32 14

/-- The checks of a CDD (R154). -/
def cddOk (d : List Byte) : Bool :=
  let f (o n : Nat) := fieldAt d o n
  decide (1 ≤ f 0x18 2 ∧ 1 ≤ f 0x1A 2 ∧ 1 ≤ f 0x1C 2) && decide (1 ≤ f 0x1E 2 ∧ f 0x1E 2 ≤ 256) &&
  decide (32 ≤ f 0x20 2 ∧ f 0x20 2 ≤ 1024 ∧ f 0x20 2 % 32 = 0) && decide (f 0x22 2 ≤ 64) && zeroAt d 0x28 24

/-- The check of an object header (R152). -/
def objOk (h : List Byte) (kind : Nat) : Bool :=
  decide (fieldAt h 0 4 = 0x08805350 ∧ fieldAt h 4 2 = 0x0100 ∧ fieldAt h 6 2 = kind) &&
  decide (fieldAt h 8 4 ≠ 0 ∧ fieldAt h 8 4 % 64 = 0) && zeroAt h 0xC 4

/-- Tiles of the render area in each direction (R159). -/
def rpdTx (d : List Byte) : Nat := (fieldAt d 0 2 + 31) / 32
def rpdTy (d : List Byte) : Nat := (fieldAt d 2 2 + 31) / 32
def rpdTiles (d : List Byte) : Nat := rpdTx d * rpdTy d

/-- Tiles in the order of their dispatch: 4 × 4 groups in row-major order, each in row-major order (R156). -/
def tileOrder (tx ty : Nat) : List Nat :=
  (List.range ((ty + 3) / 4)).flatMap (fun gy => (List.range ((tx + 3) / 4)).flatMap (fun gx =>
    (List.range 4).flatMap (fun y => (List.range 4).filterMap (fun x =>
      if 4 * gx + x < tx ∧ 4 * gy + y < ty then some ((4 * gy + y) * tx + 4 * gx + x) else none))))

/-- Compute tiles of a dispatch (R154). -/
def cddTiles (d : List Byte) : Nat :=
  let n := fieldAt d 0x18 2 * fieldAt d 0x1A 2 * fieldAt d 0x1C 2
  let k := fieldAt d 0x1E 2
  (n + k - 1) / k

/-! ### A tile's places in memory -/

/-- The pixel of position px (0 to 1023) of tile t of a pass, if it lies in the render area. -/
def tilePixel (d : List Byte) (t px : Nat) : Option (Nat × Nat) :=
  let x := t % rpdTx d * 32 + px % 32
  let y := t / rpdTx d * 32 + px / 32
  if x < fieldAt d 0 2 ∧ y < fieldAt d 2 2 then some (x, y) else none

/-- Address of sample s of a pixel of an attachment (R154). -/
def sampleAddr (a : Att) (samples bytes x y s : Nat) : Nat := a.addr + y * a.stride * 64 + (x * samples + s) * bytes

/-- Little-endian bytes of the components of a sample in tile representation. -/
def TFmt.tileRep (f : TFmt) (t : List Nat) : List Byte :=
  (List.range f.comps.length).flatMap (fun i => match f.comps[i]? with | some c => bytesLE c.tb (t.getD i 0) | none => [])

/-- The components of a sample from its tile representation. -/
def compsOf : List Comp → List Byte → List Nat
  | [], _ => []
  | c :: l, b => ofBytesLE (b.take c.tb) :: compsOf l (b.drop c.tb)

/-! ### Textures (R172 to R175) -/

/-- Bytes per texel of a format, 4:2:2 counting its pair as 4 per 2 pixels; `none` for a code that is not listed (R169). -/
def texBytes (f : Nat) : Option Nat :=
  if f = 6 then some 4 else if f = 7 then some 2 else (targetFmt f).map TFmt.bytes

/-- The size of a level (R172). -/
def levelW (d : List Byte) (l : Nat) : Nat :=
  let w := max 1 (fieldAt d 8 2 / 2 ^ l)
  if fieldAt d 0xF 1 = 7 then w + w % 2 else w
def levelH (d : List Byte) (l : Nat) : Nat := max 1 (fieldAt d 0xA 2 / 2 ^ l)

/-- The checks of a texture descriptor (R172, R174, R175). -/
def texOk (d : List Byte) : Bool :=
  let f (o n : Nat) := fieldAt d o n
  let w := f 8 2
  let h := f 0xA 2
  let levels := f 0xE 1
  let fmt := f 0xF 1
  let fl := f 0x12 1
  let sparse := bitOf fl 0
  (texBytes fmt).isSome && decide (1 ≤ w ∧ w ≤ 16384) && decide (1 ≤ h ∧ h ≤ 16384) && decide (1 ≤ f 0xC 2 ∧ f 0xC 2 ≤ 2048) &&
  decide (1 ≤ levels ∧ levels ≤ Nat.log2 (max w h) + 1 ∧ levels ≤ 15) &&
  (decide (f 0x10 2 = 0) || (!sparse && decide (levels = 1 ∧ f 0xC 2 = 1))) && decide (fl / 2 % 4 ≠ 3) && decide (fl < 64) &&
  decide (fl / 16 % 4 ≤ 2) && zeroAt d 0x13 1 && zeroAt d 0x16 2 && zeroAt d 0x28 24 &&
  decide (f 0 8 % (if sparse then 65536 else 64) = 0) &&
  (!sparse || (decide (f 0x18 8 % 8 = 0) && decide (fmt ≠ 2 ∧ fmt ≠ 6 ∧ fmt ≠ 7)))

/-- Block size by bytes per texel (R174). -/
def blockDim (bytes : Nat) : Nat × Nat :=
  if bytes = 1 then (256, 256) else if bytes = 2 then (256, 128) else if bytes = 4 then (128, 128)
  else if bytes = 8 then (128, 64) else (64, 64)

/-- Blocks of a level (R174). -/
def levelBlocks (d : List Byte) (bytes l : Nat) : Nat :=
  ((levelW d l + (blockDim bytes).1 - 1) / (blockDim bytes).1) * ((levelH d l + (blockDim bytes).2 - 1) / (blockDim bytes).2)

/-- The block of a texel (R174). -/
def texBlock (d : List Byte) (bytes layer l x y : Nat) : Nat :=
  let per := ((List.range (fieldAt d 0xE 1)).map (levelBlocks d bytes)).sum
  let bw := (blockDim bytes).1
  layer * per + ((List.range l).map (levelBlocks d bytes)).sum + y / (blockDim bytes).2 * ((levelW d l + bw - 1) / bw) + x / bw

/-- Bytes of a row of a dense level (R173). -/
def denseRow (d : List Byte) (bytes l : Nat) : Nat :=
  if fieldAt d 0x10 2 = 0 then (levelW d l * bytes + 63) / 64 * 64 else fieldAt d 0x10 2 * 64

/-- The address of a texel (R173, R174). -/
def texelAddr (d : List Byte) (bytes layer l x y : Nat) : Nat :=
  if bitOf (fieldAt d 0x12 1) 0 then
    let bw := (blockDim bytes).1
    let bh := (blockDim bytes).2
    fieldAt d 0 8 + 65536 * texBlock d bytes layer l x y + (y % bh * bw + x % bw) * bytes
  else
    let size (k : Nat) := levelH d k * denseRow d bytes k
    fieldAt d 0 8 + layer * ((List.range (fieldAt d 0xE 1)).map size).sum + ((List.range l).map size).sum +
      y * denseRow d bytes l + x * bytes

/-! ### Texel values (R169, R171, R175) -/

/-- A texel as a program receives it, in binary32: the components of its format in the order R, G, B, and alpha, 1 where the format has none; a
normalised component of n bits as c / (2^n - 1); YCbCr as 12-bit RGB by R72 over 4095; depth alone for a depth format. (DEDUCED, log entry 93) -/
def texelValue (d : List Byte) (x w : Nat) : List Nat :=
  let f := fieldAt d 0xF 1
  let fl := fieldAt d 0x12 1
  if f = 6 ∨ f = 7 then
    let p := if f = 7 then decode422 (fl / 16 % 4) (bitOf fl 3) (x % 2 == 1) w else decodeWord 6 (fl / 16 % 4) (bitOf fl 3) w
    [f32Ratio p.r 4095, f32Ratio p.g 4095, f32Ratio p.b 4095, if f = 7 then f32One else f32Ratio p.a 4095]
  else match targetFmt f with
    | none => []
    | some t =>
      let v (c : Comp) : Nat :=
        let b := w / 2 ^ c.lo % 2 ^ c.w
        match c.kind with
        | .unorm | .unorm12 | .depth24 => f32Ratio b (2 ^ c.w - 1)
        | .half => halfFloat b
        | _ => b
      if t.depth then (t.comps.take 1).map v
      else t.comps.map v ++ (if t.comps.length = 4 then [] else [f32One])

/-- The bytes that hold a texel: the pair of a 4:2:2 one (R70), else the texel. -/
def texelPlace (d : List Byte) (bytes layer l x y : Nat) : Nat × Nat :=
  if fieldAt d 0xF 1 = 7 then (texelAddr d bytes layer l (x / 2 * 2) y, 4) else (texelAddr d bytes layer l x y, bytes)

/-- What a lookup that samples no texel returns: 0 in every component, or FB_COLOR (R175). -/
def texFallback (d : List Byte) : List Nat :=
  if fieldAt d 0x12 1 / 2 % 4 = 0 then [0, 0, 0, 0]
  else (List.range 4).map (fun i => halfFloat (fieldAt d (0x20 + 2 * i) 2))

/-! ### Primitives (R154) -/

def drawTopology (d : List Byte) : Nat := fieldAt d 0x30 2 / 4 % 8
def drawIndexed (d : List Byte) : Bool := fieldAt d 0x10 8 != 0
def indexSize (d : List Byte) : Nat := if fieldAt d 0x30 2 % 4 = 1 then 2 else 4

/-- Runs of vertices between restart indices. -/
def restartRuns (ones : Nat) : List Nat → List (List Nat)
  | [] => [[]]
  | v :: l =>
    match restartRuns ones l with
    | r :: m => if v = ones then [] :: r :: m else (v :: r) :: m
    | [] => [[v]]

/-- Consecutive groups of two, of three; what is left over makes no primitive. -/
def groups2 : List Nat → List (List Nat)
  | a :: b :: l => [a, b] :: groups2 l
  | _ => []
def groups3 : List Nat → List (List Nat)
  | a :: b :: c :: l => [a, b, c] :: groups3 l
  | _ => []
/-- Neighbours: of a line strip, of a triangle strip, of a fan around its first vertex. -/
def strip2 : List Nat → List (List Nat)
  | a :: b :: l => [a, b] :: strip2 (b :: l)
  | _ => []
def strip3 : List Nat → List (List Nat)
  | a :: b :: c :: l => [a, b, c] :: strip3 (b :: c :: l)
  | _ => []
def fan3 (run : List Nat) : List (List Nat) := (strip2 (run.drop 1)).map (fun e => run.headD 0 :: e)

/-- The primitives of a run of vertices, by TOPOLOGY. (DEDUCED, log entry 95) -/
def runPrims (topology : Nat) (run : List Nat) : List (List Nat) :=
  if topology = 0 then run.map (fun v => [v])
  else if topology = 1 then groups2 run
  else if topology = 2 then strip2 run
  else if topology = 3 then groups3 run
  else if topology = 4 then strip3 run
  else fan3 run

/-- The primitives of one instance of a draw: from the index values read, or from consecutive vertices; with RESTART an all-ones index restarts a
strip or fan. (DEDUCED, log entry 95) -/
def drawPrims (d : List Byte) (idx : List Nat) : List (List Nat) :=
  let t := drawTopology d
  let vs := if drawIndexed d then idx else (List.range (fieldAt d 0x18 4)).map (fun i => fieldAt d 0x1C 4 + i)
  let runs := if drawIndexed d && bitOf (fieldAt d 0x30 2) 6 && (t == 2 || t == 4 || t == 5)
    then restartRuns (2 ^ (8 * indexSize d) - 1) vs else [vs]
  runs.flatMap (runPrims t)

/-! ### Fragments in tile memory (R156, R164, R166 to R168) -/

/-- The formats of the attachments, in order. -/
def tileFmts (d : List Byte) : List TFmt := (rpdAtts d).filterMap (fun a => targetFmt (rpdAtt d a).fmt)

/-- A sample of an attachment in the content of a tile. -/
def getSample (d : List Byte) (f : TFmt) (c : List (List Nat)) (att px s : Nat) : List Nat :=
  ((c.getD att []).drop ((px * fieldAt d 4 1 + s) * f.comps.length)).take f.comps.length
def putSample (d : List Byte) (f : TFmt) (c : List (List Nat)) (att px s : Nat) (v : List Nat) : List (List Nat) :=
  let o := (px * fieldAt d 4 1 + s) * f.comps.length
  let l := c.getD att []
  c.set att (l.take o ++ v ++ l.drop (o + f.comps.length))

/-- One access of an interlock section, to a sample that is the fragment's own (R166): the content after it, and what it read. -/
def secStep (d : List Byte) (own : Nat → Bool) (px : Nat) (m : List (List Nat) × List (Nat × Nat × Nat × List Nat)) (o : SecOp) :
    List (List Nat) × List (Nat × Nat × Nat × List Nat) :=
  match o with
  | .read att s => match (tileFmts d)[att]? with
    | some f => if own s then (m.1, m.2 ++ [(att, px, s, f.readback (getSample d f m.1 att px s))]) else m
    | none => m
  | .write att s v => match (tileFmts d)[att]? with
    | some f => if own s then (putSample d f m.1 att px s (f.ofShader v), m.2) else m
    | none => m

/-- The depth and stencil test of a sample: the content after it, and whether the sample passes. (DESIGN CHOICE, log entry 94) -/
def testSample (d : List Byte) (r : DrawRec) (px s z : Nat) (c : List (List Nat)) : List (List Nat) × Bool :=
  let k := min 8 (fieldAt d 5 1)
  match (tileFmts d)[k]? with
  | some f =>
    if r.dsTest then
      let t := getSample d f c k px s
      let x := Config.depthStencil r.key (f.readback t) z
      let depth := match x.2.1, f.comps[0]? with | some v, some m => m.ofShader v | _, _ => t.getD 0 0
      (putSample d f c k px s ([depth] ++ (if f.comps.length = 2 then [x.2.2 % 256] else [])), x.1)
    else (c, true)
  | none => (c, true)

/-- The tests of samples in order: the content, and those that pass. -/
def testSamples (d : List Byte) (r : DrawRec) (f : TileFrag) : List Nat → List (List Nat) → List (List Nat) × List Nat
  | [], c => (c, [])
  | s :: l, c => match testSample d r f.px s (f.depth.getD s 0) c with
    | (c1, p) => match testSamples d r f l c1 with
      | (c2, m) => (c2, if p then s :: m else m)

/-- A fragment's results go to a sample, blended or as they are (R164). -/
def outSample (d : List Byte) (r : DrawRec) (f : TileFrag) (c : List (List Nat)) (s : Nat) : List (List Nat) :=
  f.outs.foldl (fun c o => match (tileFmts d)[o.1]? with
    | some t =>
      if t.depth then c
      else putSample d t c o.1 f.px s (t.ofShader
        (if r.blend then Config.blend r.key o.1 o.2 (t.readback (getSample d t c o.1 f.px s)) else o.2))
    | none => c) c

/-- What shading has come to: the content, what sections read, and whether a program tried to enter a second section. -/
structure Shaded where
  content : List (List Nat)
  reads : List (Nat × Nat × Nat × List Nat) := []
  fault : Bool := false
  deriving DecidableEq, Repr

/-- One fragment (R166 to R168): early depth and stencil testing comes before its program, late testing after it; a fragment of which no sample
passes does not run; a discarded one writes no result; the section of a PPA draw reaches the fragment's own pixel, or with ILK_SAMPLE
its own sample. (DESIGN CHOICE, log entry 94) -/
def fragStep (d : List Byte) (m : Shaded) (r : DrawRec) (f : TileFrag) : Shaded :=
  let cov := (List.range (fieldAt d 4 1)).filter (fun s => bitOf f.cover.toNat s)
  let own (s : Nat) : Bool := decide (s < fieldAt d 4 1) && (!bitOf (fieldAt d 6 2) 2 || bitOf f.cover.toNat s)
  let e := if r.late then (m.content, cov) else testSamples d r f cov m.content
  if e.2 = [] then { m with content := e.1 }
  else
    let ppa := bitOf (fieldAt r.bytes 0x30 2) 5
    let p := if ppa then f.sec.foldl (secStep d own f.px) (e.1, m.reads) else (e.1, m.reads)
    if ppa && f.second then { content := p.1, reads := p.2, fault := true }
    else if f.discard then { m with content := p.1, reads := p.2 }
    else
      let t := if r.late then testSamples d r f e.2 p.1 else (p.1, e.2)
      { m with content := t.2.foldl (outSample d r f) t.1, reads := p.2 }

/-- Is a fragment at or before another in primitive order (R156)? -/
def fragLe (f g : TileFrag) : Bool :=
  decide (f.draw < g.draw) || (f.draw == g.draw && (decide (f.inst < g.inst) || (f.inst == g.inst && decide (f.prim ≤ g.prim))))

/-- Fragments in primitive order; those of one primitive keep the order in which they came. -/
def fragInsert (f : TileFrag) : List TileFrag → List TileFrag
  | [] => [f]
  | g :: l => if fragLe f g then f :: g :: l else g :: fragInsert f l
def fragSort : List TileFrag → List TileFrag
  | [] => []
  | f :: l => fragInsert f (fragSort l)

/-- The fragments of a tile, in primitive order, until a fault; those of primitives that no binned draw has are none. -/
def shadeAll (d : List Byte) (draws : List DrawRec) (m : Shaded) (l : List TileFrag) : Shaded :=
  (fragSort l).foldl (fun m f => match draws[f.draw]? with
    | some r => if m.fault || decide (r.per ≤ f.prim ∨ fieldAt r.bytes 0x20 4 ≤ f.inst) then m else fragStep d m r f
    | none => m) m

end Sys2Proof.Machine
end

