-- ==== Sys2Proof/Machine/Mover.lean ====
section
/-! DEFINITION. Machine/Mover.lean: data-mover channels and engines, check-value contexts, and their commands (R320 to R340). -/
namespace Sys2Proof.Machine

/-! ### Codes -/

/-- SQUASHED, as in R155. -/
def dmSQUASHED : Nat := 0x09
/-- Results of R328. -/
def dmDMD_RANGE : Nat := 0x10
def dmREAD_ERR : Nat := 0x11
def dmWRITE_ERR : Nat := 0x12
def dmREADBACK_ERR : Nat := 0x13
def dmCV_MISMATCH : Nat := 0x14
def dmVIOLATED : Nat := 0x15
def dmLINK_ERR : Nat := 0x16
def dmABORTED : Nat := 0x17

/-- CH_STAT.STATE. -/
def chSTOPPED : Nat := 0
def chIDLE : Nat := 1
def chWAITING : Nat := 2
def chACTIVE : Nat := 3
def chPARKED : Nat := 4
def chFROZEN : Nat := 5
def chSTOPPING : Nat := 6

/-- Owners of direct work: world N, world T (R339). -/
def dmDirectN : Nat := 16
def dmDirectT : Nat := 17

/-! ### Channels and engines -/

def dmChDflt (_ : Nat) : DmCh := {}
def dmEngDflt (_ : Nat) : DmEng := {}
/-- Channel n = 8e + c. -/
def State.ch (s : State) (n : Nat) : DmCh := storeGet dmChDflt s.dmCh n
def State.modCh (s : State) (n : Nat) (f : DmCh → DmCh) : State := { s with dmCh := storePut dmChDflt s.dmCh n (f (s.ch n)) }
def State.eng (s : State) (e : Nat) : DmEng := storeGet dmEngDflt s.dmEng e
def State.modEng (s : State) (e : Nat) (f : DmEng → DmEng) : State := { s with dmEng := storePut dmEngDflt s.dmEng e (f (s.eng e)) }

def State.chState (s : State) (n : Nat) : Nat := s.rd (rCH_STAT (n / 8) (n % 8)) fCH_STAT_STATE
def State.toCh (s : State) (n k : Nat) : State := s.wr (rCH_STAT (n / 8) (n % 8)) fCH_STAT_STATE k
def State.chOn (s : State) (n : Nat) : Bool := s.on (rCH_CFG (n / 8) (n % 8)) fCH_CFG_EN
def State.chDirect (s : State) (n : Nat) : Bool := s.on (rCH_CFG (n / 8) (n % 8)) fCH_CFG_MODE

/-- The stall, not FREE, that has a channel, a context by its grant (R207). -/
def State.chOwner (s : State) (n : Nat) : Option Nat :=
  (List.range 16).find? (fun st => s.stallState st != 0 && bitOf (s.rw (rGDM st)).toNat n)
def State.cvOwner (s : State) (v : Nat) : Option Nat :=
  (List.range 16).find? (fun st => s.stallState st != 0 && bitOf (s.rd (rGMISC st) fGMISC_CV) v)

/-- Is a channel frozen (R330)? -/
def State.chFrozen (s : State) (n : Nat) : Bool :=
  let x := s.ch n
  x.frozen || (match x.cur with | some w => decide (w.owner < 16) && s.masterFrozen w.owner 3 n | none => false)

/-- CH_POS, CH_FAULT hold address bits 61:0 (R339). -/
def State.showPos (s : State) (n a : Nat) : State :=
  ((s.modCh n (fun x => { x with pos := a })).wr (rCH_POS_LO (n / 8) (n % 8)) fCH_POS_LO_ADDR a).wr (rCH_POS_HI (n / 8) (n % 8))
    fCH_POS_HI_ADDR (a / 2 ^ 31)
def State.showFault (s : State) (n a : Nat) : State :=
  (s.wr (rCH_FAULT_LO (n / 8) (n % 8)) fCH_FAULT_LO_ADDR a).wr (rCH_FAULT_HI (n / 8) (n % 8)) fCH_FAULT_HI_ADDR (a / 2 ^ 31)
/-- The first failed or violating address: of the descriptor, and in CH_FAULT of the item or chain (R322, R339). -/
def State.firstFault (s : State) (n a : Nat) : State :=
  let x := s.ch n
  (if x.recorded then s else s.showFault n a).modCh n (fun x => { x with recorded := true, fault := if x.fault.isSome then x.fault else some a })
/-- DM_EVT takes a bit of a field. -/
def State.dmEvt (s : State) (n : Nat) (f : Fld) : State :=
  (s.wr (rDM_EVT (n / 8)) f (setBitN (s.rd (rDM_EVT (n / 8)) f) (n % 8) true)).showIrq s (0x28 + n / 8)
/-- DM_STAT follows the engine. -/
def State.showEng (s : State) (e : Nat) : State :=
  let x := s.eng e
  ((s.wr (rDM_STAT e) fDM_STAT_BUSY (b2n x.holder.isSome)).wr (rDM_STAT e) fDM_STAT_ACTIVE (x.holder.getD 0)).wr (rDM_STAT e)
    fDM_STAT_WAITING (x.order.foldl (fun m c => setBitN m c true) 0)

/-! ### Check-value contexts (R334 to R337) -/

/-- The low n bits of v in reverse order. -/
def reflectN : Nat → Nat → Nat
  | 0, _ => 0
  | n + 1, v => v % 2 * 2 ^ n + reflectN n (v / 2)

/-- One bit into the running value. -/
def cvBit (w poly run bit : Nat) : Nat :=
  let t := (run / 2 ^ (w - 1) % 2 + bit) % 2
  let r := run * 2 % 2 ^ w
  if t = 1 then r ^^^ poly else r

/-- One byte into the running value. -/
def cvByte (w poly : Nat) (refin : Bool) (run : Nat) (b : Byte) : Nat :=
  let x := if refin then reflectN 8 b.toNat else b.toNat
  (List.range 8).foldl (fun r i => cvBit w poly r (x / 2 ^ (7 - i) % 2)) run

/-- The value that finalising gives. -/
def cvFinal (w xorout : Nat) (refout : Bool) (run : Nat) : Nat := (if refout then reflectN w run else run) ^^^ xorout

/-- Context v is number v % 8 of unit v / 8. -/
def State.cvW (s : State) (v : Nat) : Nat := s.rd (rCV_CFG (v / 8) (v % 8)) fCV_CFG_WIDTH
def State.cvRun (s : State) (v : Nat) : Nat := (s.rw (rCV_RUN (v / 8) (v % 8))).toNat
def State.setCvRun (s : State) (v x : Nat) : State := s.setRw (rCV_RUN (v / 8) (v % 8)) (BitVec.ofNat 64 (x % 2 ^ s.cvW v))
def State.cvInit (s : State) (v : Nat) : State := s.setCvRun v (s.rw (rCV_INIT (v / 8) (v % 8))).toNat
def State.cvFeed (s : State) (v : Nat) (b : List Byte) : State :=
  let run := b.foldl (cvByte (s.cvW v) (s.rw (rCV_POLY (v / 8) (v % 8))).toNat (s.on (rCV_CFG (v / 8) (v % 8)) fCV_CFG_REFIN)) (s.cvRun v)
  (s.setCvRun v run).bumpEv (rCVU_BYTES (v / 8)) b.length
def State.cvFinalOf (s : State) (v : Nat) : Nat :=
  cvFinal (s.cvW v) (s.rw (rCV_XOROUT (v / 8) (v % 8))).toNat (s.on (rCV_CFG (v / 8) (v % 8)) fCV_CFG_REFOUT) (s.cvRun v)
def State.setCvFinal (s : State) (v : Nat) : State := s.setRw (rCV_FINAL (v / 8) (v % 8)) (BitVec.ofNat 64 (s.cvFinalOf v))
def State.cvHeld (s : State) (v : Nat) : Bool := s.on (rCV_STAT (v / 8) (v % 8)) fCV_STAT_HELD
def State.holdCv (s : State) (v : Nat) (held : Bool) (owner : Nat) : State :=
  (s.wr (rCV_STAT (v / 8) (v % 8)) fCV_STAT_HELD (b2n held)).wr (rCV_STAT (v / 8) (v % 8)) fCV_STAT_HOLDER (if held then owner else 0x1F)

/-- A finalisation without a compare: COMPARED says that the last finalisation compared. (DEDUCED, log entry 102) -/
def State.cvUncompared (s : State) (v : Nat) : State :=
  (s.wr (rCV_STAT (v / 8) (v % 8)) fCV_STAT_COMPARED 0).wr (rCV_STAT (v / 8) (v % 8)) fCV_STAT_MISMATCH 0

/-- A finalisation with a compare (R337): the flag says whether it failed. -/
def State.cvCompare (s : State) (v expect : Nat) : State × Bool :=
  let bad := s.cvFinalOf v % 2 ^ s.cvW v != expect % 2 ^ s.cvW v
  let a := rCV_STAT (v / 8) (v % 8)
  let s1 := (s.wr a fCV_STAT_COMPARED 1).wr a fCV_STAT_MISMATCH (b2n bad)
  (if bad then s1.bumpErr (rCV_MISM (v / 8) (v % 8)) else s1, bad)

/-! ### Accesses -/

/-- What came of an access: an error response or a violation names the address of its part. `b` is what a read gave, a violated part as
zeros (R233), or what a write stored before that part. -/
inductive DmAns where
  | ok (b : List Byte)
  | error (a : Nat) (b : List Byte)
  | viol (reason a : Nat) (b : List Byte)
  deriving DecidableEq, Repr

/-- The answer with bytes of an earlier part in front. -/
def DmAns.after (b : List Byte) : DmAns → DmAns
  | .ok l => .ok (b ++ l)
  | .error a l => .error a (b ++ l)
  | .viol r a l => .viol r a (b ++ l)

/-- A read of n bytes in parts that lie in 64-byte blocks, for a stall's address or a direct channel's physical address; an answer of
host memory to each part comes from outside, and none left is an error response. -/
def State.dmReadParts (s : State) (owner a : Nat) (host : List (Option (List Byte))) : Nat → Nat → State × DmAns × List (Option (List Byte))
  | 0, _ => (s, .ok [], host)
  | k + 1, n =>
    let part := min n (64 - a % 64)
    let next (s : State) (r : Option (List Byte)) (host : List (Option (List Byte))) : State × DmAns × List (Option (List Byte)) :=
      match r with
      | none => (s, .error a [], host)
      | some b =>
        if n ≤ part then (s, .ok b, host)
        else match s.dmReadParts owner (a + part) host k (n - part) with
          | (s2, r, h) => (s2, r.after b, h)
    let viol (s : State) (r : Nat) : State × DmAns × List (Option (List Byte)) := (s, .viol r a (List.replicate part 0), host)
    if owner < 16 then
      match s.gateCheck owner a false true with
      | (s1, .host _) => (match host with
        | some b :: h => next s1 (some (b.take part ++ List.replicate (part - b.length) 0)) h
        | none :: h => next s1 none h
        | [] => next s1 none [])
      | (s1, .viol r) => viol s1 r
      | (s1, .phys p) => match s1.memLoad p part with | (s2, r) => next s2 r host
    else match s.memKind (owner == dmDirectT) false a with
      | some kind => viol s kind
      | none => match s.memLoad a part with | (s2, r) => next s2 r host

/-- As its section says. (DEDUCED, log entry 40) -/
def State.dmRead (s : State) (owner a n : Nat) (host : List (Option (List Byte))) : State × DmAns × List (Option (List Byte)) :=
  s.dmReadParts owner a host (n / 64 + 2) n

/-- A write in parts that lie in 64-byte blocks; the first failing part stops it. -/
def State.dmWriteParts (s : State) (owner a : Nat) : Nat → List Byte → State × DmAns
  | 0, _ => (s, .ok [])
  | k + 1, b =>
    if b = [] then (s, .ok [])
    else
      let now := b.take (64 - a % 64)
      let next (r : State × Bool) : State × DmAns :=
        if r.2 then match r.1.dmWriteParts owner (a + now.length) k (b.drop now.length) with | (s2, x) => (s2, x.after now)
        else (r.1, .error a [])
      if owner < 16 then
        match s.gateCheck owner a true true with
        | (s1, .host h) => next (s1.emit (.hostWrite owner h now), true)
        | (s1, .viol r) => (s1, .viol r a [])
        | (s1, .phys p) => next (s1.memStore p now)
      else match s.memKind (owner == dmDirectT) true a with
        | some kind => (s, .viol kind a [])
        | none => next (s.memStore a now)

def State.dmWrite (s : State) (owner a : Nat) (b : List Byte) : State × DmAns := s.dmWriteParts owner a (b.length / 64 + 2) b

/-- The bytes of a write from address a that are behind it when a part at v violated: those stored and the violating part, which is
discarded (R233). -/
def dmPast (a v n : Nat) : Nat := min n (v - a + (64 - v % 64))

/-- A violation freezes the channel (R330): for a stall in its record, for a direct channel in CH_FAULT_KIND, with DM_EVT.ERR. -/
def State.dmViolate (s : State) (n owner reason a : Nat) (write : Bool) : State :=
  let k := rCH_FAULT_KIND (n / 8) (n % 8)
  let s1 := (((((s.firstFault n a).wr k fCH_FAULT_KIND_WRITE (b2n write)).wr k fCH_FAULT_KIND_VIOL 1).wr k fCH_FAULT_KIND_REASON reason).wr k
    fCH_FAULT_KIND_RESULT dmVIOLATED).wr k fCH_FAULT_KIND_VREAD 0
  let s2 := (s1.modCh n (fun x => { x with violated := true, descViol := true })).toCh n chFROZEN
  if owner < 16 then s2.violate owner 3 reason n a write else (s2.modCh n (fun x => { x with frozen := true })).dmEvt n fDM_EVT_ERR

/-! ### Descriptors (R321 to R323) -/

def dOp (d : List Byte) : Nat := fieldAt d 0 4 % 16
def dEs (d : List Byte) : Nat := fieldAt d 0 4 / 16 % 4 + 1
def dBit (d : List Byte) (i : Nat) : Bool := bitOf (fieldAt d 0 4) i
def dCmp (d : List Byte) : Nat := fieldAt d 0 4 / 2 ^ 14 % 4
def dNch (d : List Byte) : Nat := fieldAt d 0 4 / 2 ^ 16 % 16 + 1
def dCv (d : List Byte) : Nat := fieldAt d 0 4 / 2 ^ 20 % 16
def dCount (d : List Byte) : Nat := fieldAt d 4 4
/-- Does the descriptor use a context? -/
def dUsesCv (d : List Byte) : Bool := dOp d != 0 || dBit d 10 || dBit d 11 || dBit d 12

/-- The checks of R323. -/
def State.dmDescOk (s : State) (owner : Nat) (d : List Byte) : Bool :=
  let ctrl := fieldAt d 0 4
  let side (planar : Bool) (g : Nat) : Bool :=
    if planar then decide (dNch d ≤ 4) else decide (g < 256 ∧ g / 16 + dNch d ≤ g % 16 + 1)
  decide (ctrl < 2 ^ 24) && decide (fieldAt d 0x38 1 / 2 % 32 = 0) && decide (dOp d ≤ 2) && decide (dCmp d ≤ 2) &&
  (if dOp d = 0 then
    decide (1 ≤ dCount d ∧ dCount d < 2 ^ 31) && side (dBit d 6) (fieldAt d 0x18 4) && side (dBit d 7) (fieldAt d 0x1C 4) &&
      (dCmp d == 0 || dBit d 12)
  else ctrl % 16 + 2 ^ 13 * b2n (dBit d 13) + 2 ^ 20 * dCv d == ctrl && side false (fieldAt d 0x18 4) && side false (fieldAt d 0x1C 4)) &&
  (!dUsesCv d || (if owner < 16 then bitOf (s.rd (rGMISC owner) fGMISC_CV) (dCv d) else (s.cvOwner (dCv d)).isNone))

/-- Address of element k of frame i on a side: base, geometry, planar, FIXED (R321). -/
def elemAddr (base g es : Nat) (planar fixed : Bool) (i k : Nat) : Nat :=
  let i := if fixed then 0 else i
  (if planar then base + k * g + i * es else base + (i * (g % 16 + 1) + g / 16 % 16 + k) * es) % 2 ^ 64

def dSrc (d : List Byte) (i k : Nat) : Nat := elemAddr (fieldAt d 8 8) (fieldAt d 0x18 4) (dEs d) (dBit d 6) (dBit d 8) i k
def dDst (d : List Byte) (i k : Nat) : Nat := elemAddr (fieldAt d 0x10 8) (fieldAt d 0x1C 4) (dEs d) (dBit d 7) (dBit d 9) i k

/-- Does the destination byte at address p, of element number m, lie in source bytes that are still to be read: those of an element
after m (R321)? A fixed source is read once, with frame 0. -/
def dStillRead (d : List Byte) (m p : Nat) : Bool :=
  let n := dNch d
  let total := if dBit d 8 then n else dCount d * n
  (List.range (total - (m + 1))).any (fun j =>
    let b := dSrc d ((m + 1 + j) / n) ((m + 1 + j) % n)
    decide (b ≤ p ∧ p < b + dEs d))

/-- What an element's bytes, from address a on, are written as: a byte that lies in source bytes still to be read is a free value. -/
def dOut (d : List Byte) (m a : Nat) (b free : List Byte) : List Byte :=
  (List.range b.length).map (fun j => if dStillRead d m (a + j) then free.getD j 0 else b.getD j 0)

/-- The lowest and highest bytes that a side's elements can touch, for telling that source and destination are apart. -/
def dSpan (d : List Byte) (src : Bool) : Nat × Nat :=
  let f := if src then dSrc d else dDst d
  let ks := List.range (dNch d)
  let l := ks.map (fun k => f 0 k) ++ ks.map (fun k => f (dCount d - 1) k)
  (l.foldl min (l.headD 0), l.foldl max 0 + dEs d)

/-- Are the two sides apart? -/
def dApart (d : List Byte) : Bool :=
  decide ((dSpan d true).2 ≤ (dSpan d false).1) || decide ((dSpan d false).2 ≤ (dSpan d true).1)

/-! ### The operation (R325, R327, R335) -/

/-- Frames not yet issued. -/
def State.showRemain (s : State) (n : Nat) : State :=
  let x := s.ch n
  s.wr (rCH_REMAIN (n / 8) (n % 8)) fCH_REMAIN_COUNT (if dOp x.desc = 0 then dCount x.desc - x.done / dNch x.desc else 0)

/-- An error response stops the descriptor: code and address. -/
def State.dmFail (s : State) (n code a : Nat) : State := s.modCh n (fun x => { x with err := some (code, a) })

/-- The data of an element: read before a violation froze the channel, of the frame of a fixed source, or read now, from the part on
where a violation left it. None: the channel cannot go on. -/
def State.dmElemRead (s : State) (n owner : Nat) (host : List (Option (List Byte))) : State × Option (List Byte) × List (Option (List Byte)) :=
  let x := s.ch n
  let d := x.desc
  let i := x.done / dNch d
  let k := x.done % dNch d
  let pre := x.data.getD []
  let keep (s : State) (b : List Byte) : State :=
    if dBit d 8 && b.length == dEs d then s.modCh n (fun x => { x with fixed := x.fixed ++ [b] }) else s
  if pre.length = dEs d then (s, some pre, host)
  else match (if dBit d 8 && pre.isEmpty then x.fixed[k]? else none) with
    | some b => (s, some b, host)
    | none =>
      match s.dmRead owner (dSrc d i k + pre.length) (dEs d - pre.length) host with
      | (s1, .ok b, h) => (keep s1 (pre ++ b), some (pre ++ b), h)
      | (s1, .error a _, h) => (s1.dmFail n dmREAD_ERR a, none, h)
      | (s1, .viol r a b, h) =>
        (((keep s1 (pre ++ b)).modCh n (fun x => { x with data := some (pre ++ b) })).dmViolate n owner r a false, none, h)

/-- Elements have been issued: they count as done, and the context takes their bytes (R335). -/
def State.dmStep (s : State) (n elems : Nat) (b : List Byte) : State :=
  let s' := s.modCh n (fun x => { x with done := x.done + elems, data := none, sent := 0 })
  if dBit (s.ch n).desc 10 then s'.cvFeed (dCv (s.ch n).desc) b else s'
/-- Bytes written, in CH_BYTES. -/
def State.dmCount (s : State) (n : Nat) (l : List Byte) : State := s.bumpEv (rCH_BYTES (n / 8) (n % 8)) l.length

/-- One element moves; after a thaw, from the part on where a violation stopped it. (DEDUCED, log entry 102) -/
def State.dmElem (s : State) (n owner : Nat) (host : List (Option (List Byte))) : State × Bool × List (Option (List Byte)) :=
  match s.dmElemRead n owner host with
  | (s1, none, h) => (s1, false, h)
  | (s1, some b, h) =>
    let x := s1.ch n
    let d := x.desc
    let es := dEs d
    let a := dDst d (x.done / dNch d) (x.done % dNch d)
    let mixed := !(dApart d) && (List.range es).any (fun j => dStillRead d x.done (a + j))
    let out := if mixed then dOut d x.done a b (bytesLE es s1.free.toNat) else b
    let s2 := if mixed then s1.useFree else s1
    match s2.dmWrite owner (a + x.sent) (out.drop x.sent) with
    | (s3, .ok l) => ((s3.dmStep n 1 b).dmCount n l, true, h)
    | (s3, .error e l) => (((s3.dmStep n 1 (b.take (dmPast a e es))).dmCount n l).dmFail n dmWRITE_ERR e, false, h)
    | (s3, .viol r e l) =>
      let past := dmPast a e es
      (((if past = es then s3.dmStep n 1 b else s3.modCh n (fun x => { x with data := some b, sent := past })).dmCount n l).dmViolate n owner r e true,
        false, h)

/-- The elements from number m on that one write request takes: on neighbouring addresses in one 64-byte block (R325, R333). A fixed destination is written
element by element (R321), and so are sides that overlap. `k` bounds them. -/
def dRun (d : List Byte) (m : Nat) : Nat → Nat
  | 0 => 1
  | k + 1 =>
    let at' (m : Nat) : Nat := dDst d (m / dNch d) (m % dNch d)
    if dBit d 9 || !(dApart d) || decide (dCount d * dNch d ≤ m + 1) || at' (m + 1) != at' m + dEs d ||
        (at' (m + 1) + dEs d - 1) / 64 != at' m / 64 then 1 else dRun d (m + 1) k + 1

/-- The data of up to `k` elements from number m on, until a read fails; and that failure. -/
def State.dmGather (s : State) (n owner : Nat) : Nat → Nat → List Byte → List (Option (List Byte)) → State × List Byte × Option DmAns × List (Option (List Byte))
  | 0, _, acc, host => (s, acc, none, host)
  | k + 1, m, acc, host =>
    let d := (s.ch n).desc
    match (if dBit d 8 then (s.ch n).fixed[m % dNch d]? else none) with
    | some b => s.dmGather n owner k (m + 1) (acc ++ b) host
    | none =>
      match s.dmRead owner (dSrc d (m / dNch d) (m % dNch d)) (dEs d) host with
      | (s1, .ok b, h) =>
        (if dBit d 8 then s1.modCh n (fun x => { x with fixed := x.fixed ++ [b] }) else s1).dmGather n owner k (m + 1) (acc ++ b) h
      | (s1, r, h) => (s1, acc, some r, h)

/-- What ends a run of reads: nothing, an error, or a violation, which leaves the bytes that it read. -/
def State.dmGathered (s : State) (n owner : Nat) (r : Option DmAns) : State × Bool :=
  match r with
  | some (.error a _) => (s.dmFail n dmREAD_ERR a, false)
  | some (.viol v a b) =>
    let d := (s.ch n).desc
    ((s.modCh n (fun x => { x with data := some b, fixed := if dBit d 8 && b.length == dEs d then x.fixed ++ [b] else x.fixed })).dmViolate n owner v a false, false)
  | _ => (s, true)

/-- A request's worth of elements moves: read one by one, written together. -/
def State.dmBatch (s : State) (n owner : Nat) (host : List (Option (List Byte))) : State × Bool × List (Option (List Byte)) :=
  let x := s.ch n
  let d := x.desc
  let k := dRun d x.done 64
  if x.data.isSome || decide (0 < x.sent) || decide (k ≤ 1) then s.dmElem n owner host
  else
    let a := dDst d (x.done / dNch d) (x.done % dNch d)
    match s.dmGather n owner k x.done [] host with
    | (s1, b, stop, h) =>
      let elems := b.length / dEs d
      match (if b = [] then (s1, DmAns.ok []) else s1.dmWrite owner a b) with
      | (s2, .ok l) => match ((s2.dmStep n elems b).dmCount n l).dmGathered n owner stop with | (s3, go) => (s3, go, h)
      | (s2, .error e l) => (((s2.dmStep n elems b).dmCount n l).dmFail n dmWRITE_ERR e, false, h)
      | (s2, .viol r e l) => (((s2.dmStep n elems b).dmCount n l).dmViolate n owner r e true, false, h)

/-- Elements from where the descriptor stands, until its last, an error or a violation. -/
def State.dmMove (s : State) (n owner : Nat) : Nat → List (Option (List Byte)) → State
  | 0, _ => s
  | k + 1, host =>
    if dCount (s.ch n).desc * dNch (s.ch n).desc ≤ (s.ch n).done then s
    else match s.dmBatch n owner host with
      | (s1, true, h) => s1.dmMove n owner k h
      | (s1, false, _) => s1

/-- The operation runs on; when all of it is done it finalises and compares (R335, R337). -/
def State.dmOperate (s : State) (n : Nat) (host : List (Option (List Byte))) : State :=
  let x := s.ch n
  let d := x.desc
  let v := dCv d
  match x.cur with
  | none => s
  | some w =>
    if dOp d = 0 then
      let total := dCount d * dNch d
      let s0 := if x.done = 0 ∧ x.data = none ∧ dBit d 11 = true then s.cvInit v else s
      let s1 := (s0.dmMove n w.owner (total - x.done) host).showRemain n
      let y := s1.ch n
      if y.done = total ∧ y.err = none ∧ dBit d 12 = true then
        let s2 := s1.setCvFinal v
        if dCmp d = 0 then s2.cvUncompared v else match s2.cvCompare v (fieldAt d 0x20 8) with
          | (s3, bad) =>
            let s4 := s3.modCh n (fun x => { x with mismatch := bad })
            if bad && dCmp d == 2 then (if w.owner < 16 then s4.irq w.owner 93 else s4.dmEvt n fDM_EVT_MISM) else s4
      else s1
    else if x.done = 1 then s
    else if dOp d = 1 then
      let pre := x.data.getD []
      let load (s : State) (b : List Byte) : State :=
        if b.length = 8 then (s.setCvRun v (ofBytesLE b)).modCh n (fun x => { x with done := 1, data := none })
        else s.modCh n (fun x => { x with data := some b })
      match s.dmRead w.owner (fieldAt d 8 8 + pre.length) (8 - pre.length) host with
      | (s1, .ok b, _) => load s1 (pre ++ b)
      | (s1, .error a _, _) => s1.dmFail n dmREAD_ERR a
      | (s1, .viol r a b, _) => (load s1 (pre ++ b)).dmViolate n w.owner r a false
    else
      let a := fieldAt d 0x10 8
      let s0 := s.setCvFinal v
      let done (s : State) : State := s.modCh n (fun x => { x with done := 1, sent := 0 })
      let count (s : State) (l : List Byte) : State := s.bumpEv (rCH_BYTES (n / 8) (n % 8)) l.length
      match s0.dmWrite w.owner (a + x.sent) ((bytesLE 8 (s.cvRun v) ++ bytesLE 8 (s.cvFinalOf v)).drop x.sent) with
      | (s1, .ok l) => done (count s1 l)
      | (s1, .error e l) => (done (count s1 l)).dmFail n dmWRITE_ERR e
      | (s1, .viol r e l) =>
        let past := dmPast a e 16
        (if past = 16 then done (count s1 l) else (count s1 l).modCh n (fun x => { x with sent := past })).dmViolate n w.owner r e true

/-- Has the operation issued everything? -/
def DmCh.opDone (x : DmCh) : Bool := if dOp x.desc = 0 then x.done == dCount x.desc * dNch x.desc else x.done == 1

/-! ### Engines (R324, R336) -/

/-- May a waiting channel take the engine: it is not frozen, its context is free, and a new item finds it enabled and its stall
able to start work? -/
def State.chReady (s : State) (n : Nat) : Bool :=
  let x := s.ch n
  !s.chFrozen n &&
  (match x.cur with
    | some _ => x.phase != .context || !s.cvHeld (dCv x.desc)
    | none => s.chOn n && (match x.waits with | w :: _ => s.stallState w.owner == 1 || s.stallState w.owner == 3 | [] => false))

/-- The waiting channel that takes the engine: the highest PRIO, then the longest wait. -/
def State.dmPick (s : State) (e : Nat) : List Nat → Option Nat
  | [] => none
  | c :: l =>
    let rest := s.dmPick e l
    if s.chReady (8 * e + c) = false then rest
    else match rest with
      | none => some c
      | some b => if s.rd (rCH_CFG e c) fCH_CFG_PRIO < s.rd (rCH_CFG e b) fCH_CFG_PRIO then some b else some c

/-- A free engine takes a channel. A channel without work takes its first waiting item; one that waited for a context holds it now; a
direct chain issues its LINK read, which clears DB_SEEN (R229). -/
def State.dmKick (s : State) (e : Nat) : State :=
  let x := s.eng e
  (if x.holder.isSome then s
  else match s.dmPick e x.order with
    | none => s
    | some c =>
      let n := 8 * e + c
      let s1 := (s.modEng e (fun g => { g with holder := some c, order := g.order.filter (· != c) })).toCh n
        (if s.chState n = chSTOPPING then chSTOPPING else chACTIVE)
      let y := s1.ch n
      match y.cur, y.waits with
      | some w, _ =>
        let s2 := if y.phase = .context then (s1.holdCv (dCv y.desc) true w.owner).modCh n (fun x => { x with phase := .moving, holds := true }) else s1
        s2.modCh n (fun x => if x.phase = .link then { x with dbSeen := false } else x)
      | none, w :: l =>
        ((s1.modCh n (fun x => { x with waits := l, cur := some w, phase := .fetch, violated := false, descViol := false, fault := .none, recorded := false })).showPos
          n w.addr).wr
          (rCH_STAT e c) fCH_STAT_OWNER w.owner
      | none, [] => s1).showEng e

/-- A released context may let a channel of any engine go on (R324, R336). -/
def State.dmKickAll (s : State) : State := overN 4 (fun e s => s.dmKick e) s

/-- A channel with work waits for its engine: from now on, or, where it keeps its position, since it last began to. -/
def State.dmWait (s : State) (n : Nat) (keep : Bool) : State :=
  let g := s.eng (n / 8)
  if g.order.contains (n % 8) || g.holder == some (n % 8) then s
  else if keep then
    let older (c : Nat) : Bool := decide ((s.ch (8 * (n / 8) + c)).since < (s.ch n).since)
    s.modEng (n / 8) (fun g => { g with order := g.order.filter older ++ (n % 8) :: g.order.filter (fun c => !older c) })
  else (s.modCh n (fun x => { x with since := g.count })).modEng (n / 8) (fun g => { g with order := g.order ++ [n % 8], count := g.count + 1 })

/-- The channel lets the engine go. -/
def State.dmLeave (s : State) (n : Nat) : State :=
  s.modEng (n / 8) (fun g => { g with holder := if g.holder = some (n % 8) then none else g.holder, order := g.order.filter (· != n % 8) })

/-- A frozen channel, or one that waits for a context, gives up the engine and keeps its position. -/
def State.dmYield (s : State) (n : Nat) : State :=
  let s1 := if s.chState n = chACTIVE then s.toCh n chWAITING else s
  ((s1.dmLeave n).dmWait n true).dmKick (n / 8)

/-- The state that a channel without work shows: STOPPED if disabled, else IDLE or WAITING. -/
def State.chRest (s : State) (n : Nat) : State :=
  s.toCh n (if !s.chOn n then chSTOPPED else if (s.ch n).waits = [] then chIDLE else chWAITING)

/-- The context is let go. -/
def State.dropCv (s : State) (n : Nat) : State :=
  if (s.ch n).holds then (s.holdCv (dCv (s.ch n).desc) false 0).modCh n (fun x => { x with holds := false }) else s

/-- The result of a descriptor, an item or a chain that met a violation: VIOLATED, unless an error under R327 came (R330), or it was abandoned. -/
def dmResultOf (violated : Bool) (code : Nat) : Nat :=
  if violated && [0, dmDMD_RANGE, dmCV_MISMATCH].contains code then dmVIOLATED else code

/-- The queue learns a DMA item's result (R328). -/
def State.dmResult (s : State) (w : DmWork) (code : Nat) : State :=
  s.modQueue w.q (fun x => { x with items := x.items.map (fun i => if i.seq = w.seq then { i with result := some code } else i) })

/-- A direct chain without work in progress stops: the channel is STOPPED and nobody's (R331, R339). -/
def State.chainStop (s : State) (n : Nat) : State :=
  ((s.modCh n (fun x => { ({} : DmCh) with waits := x.waits, pos := x.pos })).wr (rCH_STAT (n / 8) (n % 8)) fCH_STAT_OWNER 0x1F).toCh n chSTOPPED

/-- The item or chain ends with a code (R328, R329): the queue learns it; a direct chain keeps its position, parked or idle. -/
def State.dmEnd (s : State) (n code : Nat) : State :=
  match (s.ch n).cur with
  | none => s
  | some w =>
    let r := dmResultOf (s.ch n).violated code
    let s1 := s.wr (rCH_STAT (n / 8) (n % 8)) fCH_STAT_RESULT r
    let s2 := if r = 0 then s1 else s1.bumpErr (rCH_ERR (n / 8) (n % 8))
    if w.owner < 16 then
      let s3 := ((s2.modCh n (fun x => { x with cur := none, phase := .none, violated := false })).wr (rCH_STAT (n / 8) (n % 8))
        fCH_STAT_OWNER 0x1F).dmResult w r
      let s4 := (s3.dmLeave n).chRest n
      (if (s4.ch n).waits = [] then s4 else s4.dmWait n false).dmKick (n / 8)
    else
      let s3 := s2.modCh n (fun x => { x with phase := if r = 0 then .parked else .idle, violated := false })
      let s4 := (s3.dmEvt n (if r = 0 then fDM_EVT_DONE else fDM_EVT_ERR)).dmLeave n
      (if s4.chOn n then s4.toCh n (if r = 0 then chPARKED else chIDLE) else s4.chainStop n).dmKick (n / 8)

/-- The channel's record of an error response (R327, R339): it stays that of the first failed or violating access. -/
def State.dmRecord (s : State) (n code a : Nat) : State :=
  let k := rCH_FAULT_KIND (n / 8) (n % 8)
  if (s.ch n).recorded then s.firstFault n a
  else ((((s.firstFault n a).wr k fCH_FAULT_KIND_RESULT code).wr k fCH_FAULT_KIND_VIOL 0).wr k fCH_FAULT_KIND_REASON 0).wr k
    fCH_FAULT_KIND_WRITE (b2n (code == dmWRITE_ERR))

/-- STATUS and FAULT_ADDR of the current descriptor (R322, R325); an error response to this write makes the result WRITE_ERR where it was
DONE (R327). (DEDUCED, log entry 102) -/
def State.dmStatus (s : State) (n code : Nat) : State :=
  match (s.ch n).cur with
  | none => s
  | some w =>
    let a := (s.ch n).pos + 0x28
    match s.dmWrite w.owner a (bytesLE 4 (2 ^ 31 + code) ++ bytesLE 4 0 ++ bytesLE 8 ((s.ch n).fault.getD 0)) with
    | (s1, .viol r e _) => s1.dmViolate n w.owner r e true
    | (s1, .error e _) => if code = 0 then (s1.modCh n (fun x => { x with result := dmWRITE_ERR })).dmRecord n dmWRITE_ERR e else s1
    | (s1, .ok _) => s1

/-- The descriptor ends with a code and the address of the access that failed: STATUS is written if asked for or if the result is not DONE; then it lets
its context go, which a freeze by that write keeps (R336), and the LINK word is read next, which clears DB_SEEN. -/
def State.dmDescEnd (s : State) (n code : Nat) (fault : Option Nat) : State :=
  let s1 := match fault with | some a => s.dmRecord n code a | none => s
  let s2 := s1.modCh n (fun x => { x with phase := .link, result := code, err := none, dbSeen := false })
  let r := dmResultOf (s.ch n).descViol code
  let s3 := if dBit (s.ch n).desc 13 || r != 0 then s2.dmStatus n r else s2
  if s3.chFrozen n then s3.dmYield n else (s3.dropCv n).dmKickAll

/-! ### Items and squash -/

/-- An item that names a DIRECT channel ends with DMD_RANGE (R320, R328). -/
def State.dmDirect (s : State) (n : Nat) (w : DmWork) : State := (s.dmResult w dmDMD_RANGE).bumpErr (rCH_ERR (n / 8) (n % 8))

/-- A DMA item names a channel (R320, R324, R329). -/
def State.dmSubmit (s : State) (st q seq n a : Nat) : State :=
  let w : DmWork := { owner := st, q := q, seq := seq, addr := a }
  if s.chDirect n then s.dmDirect n w
  else
    let s1 := s.modCh n (fun x => { x with waits := x.waits ++ [w] })
    let s2 := if s1.chState n = chIDLE then s1.toCh n chWAITING else s1
    (s2.dmWait n false).dmKick (n / 8)

/-- The channel's work is abandoned (R331, R332): with `code`, STATUS is written with it and the item ends with it; with none, nothing is
written, and the channel's last result is SQUASHED. -/
def State.dmAbandon (s : State) (n : Nat) (code : Option Nat) : State :=
  match (s.ch n).cur with
  | none => s
  | some w =>
    let s1 := s.dropCv n
    let s2 := match code with
      | some c => if (s.ch n).phase = DmPhase.parked ∨ (s.ch n).phase = DmPhase.idle then s1 else s1.dmStatus n c
      | none => s1
    let s3 := match code with
      | some c => ((if w.owner < 16 then s2.dmResult w c else s2.dmEvt n fDM_EVT_ERR).wr (rCH_STAT (n / 8) (n % 8)) fCH_STAT_RESULT c).bumpErr
          (rCH_ERR (n / 8) (n % 8))
      | none => (s2.wr (rCH_STAT (n / 8) (n % 8)) fCH_STAT_RESULT dmSQUASHED).bumpErr (rCH_ERR (n / 8) (n % 8))
    let s4 := (s3.modCh n (fun x => { ({} : DmCh) with waits := x.waits, pos := x.pos })).wr (rCH_STAT (n / 8) (n % 8)) fCH_STAT_OWNER 0x1F
    let s5 := (s4.dmLeave n).chRest n
    (if (s5.ch n).waits = [] then s5 else s5.dmWait n false).dmKickAll

/-- The work of a stall, or of one of its queues, is squashed (R232, R332, R239). (DEDUCED, log entry 41) -/
def State.dmSquash (s : State) (p : DmWork → Bool) : State :=
  overN 32 (fun n s =>
    let s1 := (s.modCh n (fun x => { x with waits := x.waits.filter (fun w => !p w) })).bumpErrN (rCH_ERR (n / 8) (n % 8))
      ((s.ch n).waits.filter p).length
    match (s1.ch n).cur with
    | some w => if p w then s1.dmAbandon n none else s1
    | none =>
      let s2 := if (s1.ch n).waits = [] then s1.dmLeave n else s1
      (if s2.chState n = chWAITING then s2.chRest n else s2).showEng (n / 8)) s

/-- At RESET_DONE every context of the stall has RUN := INIT and its flags cleared (R332). -/
def State.cvStallReset (s : State) (st : Nat) : State :=
  overN 16 (fun v s =>
    if bitOf (s.rd (rGMISC st) fGMISC_CV) v then
      ((s.cvInit v).wr (rCV_STAT (v / 8) (v % 8)) fCV_STAT_COMPARED 0).wr (rCV_STAT (v / 8) (v % 8)) fCV_STAT_MISMATCH 0
    else s) s

/-- Engines go on after a thaw. -/
def State.dmThawed (s : State) : State :=
  overN 4 (fun e s => (overN 8 (fun c s =>
    let n := 8 * e + c
    if s.chState n = chFROZEN ∧ s.chFrozen n = false then s.toCh n (if s.chOn n then chWAITING else chSTOPPING) else s) s).dmKick e) s

/-! ### The commands -/

/-- CH_CFG (R331, R329, R339): a clear of EN is a request: STOPPING, and STOPPED at once without work in progress; EN in STOPPED starts a
direct chain at CH_BASE, or lets waiting items run; items that wait end with DMD_RANGE once the channel is DIRECT (R320). (DEDUCED, log entries 41, 102) -/
def State.wrChCfg (s : State) (who : Who) (n : Nat) (w : W64) : State :=
  let a := rCH_CFG (n / 8) (n % 8)
  let was := s.chOn n
  let stopped := s.chState n == chSTOPPED
  let s0 := s.settingWrite a w stopped false
  let s1 := if s0.chDirect n then ((s0.ch n).waits.foldl (fun s w => s.dmDirect n w) s0).modCh n (fun x => { x with waits := [] }) else s0
  let now := s1.chOn n
  if was && !now then
    match (s1.ch n).cur, (s1.ch n).phase with
    | none, _ => s1.toCh n chSTOPPED
    | some _, DmPhase.parked | some _, DmPhase.idle => s1.chainStop n
    | some _, _ => if s1.chFrozen n then s1 else s1.toCh n chSTOPPING
  else if now && stopped then
    if s1.chDirect n then
      let o := if whoTrusted who then dmDirectT else dmDirectN
      let base := s1.rd (rCH_BASE_LO (n / 8) (n % 8)) fCH_BASE_LO_ADDR * 64 + 2 ^ 32 * (s1.rw (rCH_BASE_HI (n / 8) (n % 8))).toNat
      let s2 := s1.modCh n (fun x => { ({} : DmCh) with waits := x.waits, cur := some { owner := o, addr := base }, phase := .fetch })
      ((((s2.showPos n base).wr (rCH_STAT (n / 8) (n % 8)) fCH_STAT_OWNER o).toCh n chWAITING).dmWait n false).dmKick (n / 8)
    else ((if (s1.ch n).waits = [] then s1 else s1.dmWait n false).chRest n).dmKick (n / 8)
  else s1.dmKick (n / 8)

/-- CHANNEL_DISABLE (R331). -/
def execChannelDisable (who : Who) (e : Fin 4) (c : Fin 8) (s : State) : Host.Outcome State Fault Refusal :=
  .next (s.begin.write who (rCH_CFG e c) (fun s => s.wrChCfg who (8 * e + c) (putFld (s.rw (rCH_CFG e c)) fCH_CFG_EN 0)))

/-- DIS_LIMIT_EXPIRY (R331): a channel disabled with work in flight abandons it. -/
def execDisLimitExpiry (e : Fin 4) (c : Fin 8) (s : State) : Host.Outcome State Fault Refusal :=
  let s := s.begin
  let n := 8 * e.val + c.val
  .next (s.guard (!s.chOn n && (s.ch n).cur.isSome) (fun s => s.dmAbandon n (some dmABORTED)))

/-- CHANNEL_ENABLE (R329). -/
def execChannelEnable (who : Who) (e : Fin 4) (c : Fin 8) (s : State) : Host.Outcome State Fault Refusal :=
  .next (s.begin.write who (rCH_CFG e c) (fun s => s.wrChCfg who (8 * e + c) (putFld (s.rw (rCH_CFG e c)) fCH_CFG_EN 1)))

/-- CH_DB (R329): DB_SEEN; a parked or idle direct chain reads its LINK word again. -/
def State.wrChDb (s : State) (n : Nat) : State :=
  if !s.chDirect n then s
  else
    let s1 := s.modCh n (fun x => { x with dbSeen := true })
    if s.chOn n && ((s.ch n).phase == .parked || (s.ch n).phase == .idle) then
      (((s1.modCh n (fun x => { x with phase := .link, result := 0, back := x.phase, recorded := false, fault := .none })).toCh n chWAITING).dmWait n
        false).dmKick (n / 8)
    else s1

/-- CH_DB. -/
def execChDb (who : Who) (e : Fin 4) (c : Fin 8) (s : State) : Host.Outcome State Fault Refusal :=
  .next (s.begin.write who (rCH_DB e c) (fun s => s.wrChDb (8 * e + c)))

/-- DM_THAW (R330): all its bits must name frozen direct channels whose record was read since the freeze; otherwise it is refused. -/
def State.wrDmThaw (s : State) (e mask : Nat) : State :=
  let cs := (List.range 8).filter (bitOf mask)
  if cs.all (fun c => (s.ch (8 * e + c)).frozen && s.on (rCH_FAULT_KIND e c) fCH_FAULT_KIND_VREAD) then
    cs.foldl (fun s c =>
      let n := 8 * e + c
      ((s.modCh n (fun x => { x with frozen := false })).toCh n (if s.chOn n then chWAITING else chSTOPPING)).dmKick e) s
  else s.refuse (rDM_THAW e)

/-- DM_THAW. (DEDUCED, log entry 41) -/
def execDmThaw (who : Who) (e : Fin 4) (mask : BitVec 8) (s : State) : Host.Outcome State Fault Refusal :=
  .next (s.begin.write who (rDM_THAW e) (fun s => s.wrDmThaw e mask.toNat))

/-- The channel that holds an engine, if it is not frozen. -/
def State.dmHolder (s : State) (e : Nat) : Option Nat :=
  match (s.eng e).holder with
  | some c => if s.chFrozen (8 * e + c) then none else some (8 * e + c)
  | none => none

/-- After a piece of the operation: a frozen channel gives up the engine. -/
def State.dmAfter (s : State) (n : Nat) : State := if s.chFrozen n then s.dmYield n else s

/-- DM_DESCRIPTOR_FETCHED (R323, R325): the descriptor is read and checked; a context that another holds is waited for; the operation
starts. -/
def execDmDescriptorFetched (e : Fin 4) (host : List (Option (List Byte))) (s : State) : Host.Outcome State Fault Refusal :=
  let s := s.begin
  .next (match s.dmHolder e with
    | none => s
    | some n =>
      let x := s.ch n
      match x.cur with
      | none => s
      | some w =>
        if x.phase != .fetch then s
        else match s.dmRead w.owner x.pos 64 host with
          | (s1, .viol r a _, _) => (s1.dmViolate n w.owner r a false).dmYield n
          | (s1, .error a _, _) => (s1.modCh n (fun x => { x with desc := [] })).dmDescEnd n dmLINK_ERR (some a)
          | (s1, .ok d, h) =>
            let s2 := s1.modCh n (fun x => { x with
              desc := d, done := 0, fixed := [], data := none, sent := 0, err := none, result := 0, mismatch := false, back := .none })
            if x.pos % 64 ≠ 0 ∨ s2.dmDescOk w.owner d = false then s2.dmDescEnd n dmDMD_RANGE none
            else if dUsesCv d && s2.cvHeld (dCv d) then
              ((s2.modCh n (fun x => { x with phase := .context })).bumpEv (rCV_WAIT (dCv d / 8)) 1).dmYield n
            else
              let s3 := s2.modCh n (fun x => { x with phase := .moving, holds := dUsesCv d })
              let s4 := if dUsesCv d then s3.holdCv (dCv d) true w.owner else s3
              ((s4.showRemain n).dmOperate n h).dmAfter n)

/-- DM_WRITES_COMPLETE (R325, R326): an operation that was interrupted runs on; with everything written and no error the read-back is
issued; a CV_LOAD wrote nothing and ends. -/
def execDmWritesComplete (e : Fin 4) (host : List (Option (List Byte))) (s : State) : Host.Outcome State Fault Refusal :=
  let s := s.begin
  .next (match s.dmHolder e with
    | none => s
    | some n =>
      if (s.ch n).phase != .moving || (s.ch n).err.isSome then s
      else
        let s1 := if (s.ch n).opDone then s else s.dmOperate n host
        let x := s1.ch n
        if s1.chFrozen n then s1.dmYield n
        else if x.err.isSome then s1
        else if dOp x.desc = 1 then s1.dmDescEnd n 0 none
        else s1.modCh n (fun x => { x with phase := .readback }))

/-- The last destination byte (R326). -/
def dLast (d : List Byte) : Nat :=
  if dOp d = 2 then fieldAt d 0x10 8 + 15 else dDst d (dCount d - 1) (dNch d - 1) + dEs d - 1

/-- READBACK_DONE (R325, R326, R337): the 64-byte block of the last destination byte is read. -/
def execReadbackDone (e : Fin 4) (hostError : Bool) (s : State) : Host.Outcome State Fault Refusal :=
  let s := s.begin
  .next (match s.dmHolder e with
    | none => s
    | some n =>
      let x := s.ch n
      match x.cur with
      | none => s
      | some w =>
        if x.phase != .readback then s
        else
          let a := dLast x.desc / 64 * 64
          match s.dmRead w.owner a 64 (if hostError then [none] else [some []]) with
          | (s1, .error e _, _) => s1.dmDescEnd n dmREADBACK_ERR (some e)
          | (s1, .viol r e _, _) => (s1.dmViolate n w.owner r e false).dmYield n
          | (s1, .ok _, _) =>
            s1.dmDescEnd n (if x.mismatch && dCmp x.desc == 1 then dmCV_MISMATCH else 0) none)

/-- A direct chain whose doorbell found nothing new stands as it stood, parked or idle (R229, R329). -/
def State.dmBack (s : State) (n : Nat) : State :=
  let was := (s.ch n).back
  let s1 := (s.modCh n (fun x => { x with phase := was, back := .none })).dmLeave n
  (if s1.chOn n then s1.toCh n (if was = .parked then chPARKED else chIDLE) else s1.chainStop n).dmKick (n / 8)

/-- DM_LINK_READ (R325 step 6, R329): after an error the item or chain ends with its code; END leads to the end of an item, and parks
a direct chain unless DB_SEEN is set, or leaves it as it was where a doorbell found nothing new; else the next descriptor follows. (DEDUCED, log entry 102) -/
def execDmLinkRead (e : Fin 4) (served : Served) (s : State) : Host.Outcome State Fault Refusal :=
  let s := s.begin
  .next (match s.dmHolder e with
    | none => s
    | some n =>
      let x := s.ch n
      match x.cur with
      | none => s
      | some w =>
        if x.phase != .link then s
        else
          let s := if x.holds then (s.dropCv n).dmKickAll else s
          let a := x.pos + 0x38
          let host : List (Option (List Byte)) := match served with | .word v => [some (bytesLE 8 v.toNat)] | _ => []
          match s.dmRead w.owner a 8 host with
          | (s1, .viol r e _, _) => (s1.dmViolate n w.owner r e false).dmYield n
          | (s1, ans, _) =>
            let word : Option Nat := match served, ans with
              | .error, _ => none
              | _, .ok b => some (ofBytesLE b)
              | _, _ => none
            if x.result ≠ 0 then s1.dmEnd n x.result
            else match word with
              | none =>
                let s3 := (s1.dmRecord n dmLINK_ERR a).dmStatus n dmLINK_ERR
                (if s3.chFrozen n then s3.modCh n (fun x => { x with result := dmLINK_ERR }) else s3.dmEnd n dmLINK_ERR)
              | some v =>
                if v % 2 = 0 then
                  (s1.modCh n (fun x => { x with phase := .fetch, descViol := false, fault := .none, back := .none })).showPos n (v / 64 * 64)
                else if decide (16 ≤ w.owner) && x.dbSeen then s1.modCh n (fun x => { x with dbSeen := false })
                else if x.back != .none && !x.violated then s1.dmBack n
                else s1.dmEnd n 0)

/-- DM_ACCESS_ERROR (R327): no further request; the descriptor ends with the error's code and address, without a read-back. -/
def execDmAccessError (e : Fin 4) (s : State) : Host.Outcome State Fault Refusal :=
  let s := s.begin
  .next (match s.dmHolder e with
    | none => s
    | some n => match (s.ch n).phase, (s.ch n).err with
      | .moving, some (code, a) => s.dmDescEnd n code (some a)
      | _, _ => s)

/-- RESET_RUN (R340): refused while the context is held. -/
def State.wrCvCtrl (s : State) (v : Nat) (w : W64) : State :=
  if getFld w fCV_CTRL_RESET_RUN = 0 then s
  else if s.cvHeld v then s.refuse (rCV_CTRL (v / 8) (v % 8)) else s.cvInit v

/-- RESET_RUN. -/
def execResetRun (who : Who) (cv : Fin 16) (s : State) : Host.Outcome State Fault Refusal :=
  .next (s.begin.write who (rCV_CTRL (cv / 8) (cv % 8)) (fun s => s.wrCvCtrl cv (wBit 0 fCV_CTRL_RESET_RUN)))

/-- CV_CFG, CV_POLY, CV_INIT, CV_XOROUT, CV_RUN: class S while not held; a bit at or above WIDTH is refused; a write of WIDTH clears the
bits at and above it in those registers (R340). -/
def State.wrCvCfg (s : State) (v : Nat) (w : W64) : State :=
  let a := rCV_CFG (v / 8) (v % 8)
  let s1 := s.settingWrite a w (!s.cvHeld v) false
  if s1.resp = .refused then s1
  else
    let m := 2 ^ s1.cvW v
    [rCV_POLY (v / 8) (v % 8), rCV_INIT (v / 8) (v % 8), rCV_XOROUT (v / 8) (v % 8), rCV_RUN (v / 8) (v % 8)].foldl
      (fun s r => s.setRw r (BitVec.ofNat 64 ((s.rw r).toNat % m))) s1
def State.wrCvWord (s : State) (v a : Nat) (w : W64) : State :=
  if 2 ^ s.cvW v ≤ w.toNat then s.refuse a else s.settingWrite a w (!s.cvHeld v) false

end Sys2Proof.Machine
end

