-- ==== Sys2Proof/Machine/Gpu.lean ====
section
/-! DEFINITION. Machine/Gpu.lean: the raster engine's work items and units, its tile-list pool, and the choice of the scheduler that hands out
clusters and binning slots (R151, R155, R159, R160, R181 to R200). -/
namespace Sys2Proof.Machine

/-! ### Result codes (R155), engine states (R179) -/

def rcDONE : Nat := 0x00
def rcDESC_RANGE : Nat := 0x01
def rcFOOTPRINT : Nat := 0x02
def rcNO_SPILL : Nat := 0x03
def rcQUOTA : Nat := 0x04
def rcSHADER_FAULT : Nat := 0x05
def rcTEX_DESC : Nat := 0x06
def rcTM_UNCORR : Nat := 0x07
def rcKILLED : Nat := 0x08
def rcSQUASHED : Nat := 0x09

def rsSTOPPED : Nat := 0
def rsRUNNING : Nat := 1
def rsSTOPPING : Nat := 2

/-- RSTAT.STATE. -/
def State.rstate (s : State) : Nat := s.rd rRSTAT fRSTAT_STATE

/-- The raster engine's master of a stall (R246). -/
def gpuMaster : Master := ⟨2, 0⟩

/-- Is a stall's context in the raster engine frozen (R153, R233)? -/
def State.gpuFrozen (s : State) (st : Nat) : Bool := s.masterFrozen st 2 0

/-! ### Items and units -/

def WorkItem.is (it : WorkItem) (q seq : Nat) : Bool := it.q == q && it.seq == seq
def WorkItem.active (it : WorkItem) : Bool := it.stage != .queued
def State.gpuItem (s : State) (q seq : Nat) : Option WorkItem := s.gpu.items.find? (fun it => it.is q seq)
def State.setGpu (s : State) (f : GpuSt → GpuSt) : State := { s with gpu := f s.gpu }
def State.modItem (s : State) (q seq : Nat) (f : WorkItem → WorkItem) : State :=
  s.setGpu (fun g => { g with items := g.items.map (fun it => if it.is q seq then f it else it) })
def State.unit (s : State) (r : Nat) : Option GUnit := storeGet (fun _ => none) s.gpu.units r
def State.setUnit (s : State) (r : Nat) (u : Option GUnit) : State :=
  s.setGpu (fun g => { g with units := storePut (fun _ => none) g.units r u })

/-- Resources: clusters 0 to 11, binning slots 12 and 13 (R151). -/
def gpuResources : List Nat := [12, 13, 0, 1, 2, 3, 4, 5, 6, 7, 8, 9, 10, 11]
def State.modUnit (s : State) (r : Nat) (f : GUnit → GUnit) : State := s.setUnit r ((s.unit r).map f)
/-- Resources on which units of an item run, the reads of its descriptor among them. -/
def State.unitsOf (s : State) (q seq : Nat) : List Nat :=
  (List.range 30).filter (fun r => match s.unit r with | some u => u.q == q && u.seq == seq | none => false)

/-- RSTAT.ACTIVE follows the items (R179). -/
def State.activeItems (s : State) : Nat := (s.gpu.items.filter WorkItem.active).length
def State.showActive (s : State) : State := s.wr rRSTAT fRSTAT_ACTIVE s.activeItems

/-- A cluster's status (R180): WORK 1 vertex work for binning, 2 render tile, 3 compute tile. -/
def State.showCluster (s : State) (r : Nat) (busy : Bool) (kind st : Nat) : State :=
  if r < 12 then
    let a := rCL_CSTAT (r / 3) (r % 3)
    ((s.wr a fCL_CSTAT_BUSY (b2n busy)).wr a fCL_CSTAT_WORK (if busy then kind + 1 else 0)).wr a fCL_CSTAT_STALL
      (if busy then st else 0)
  else s

/-! ### The tile-list pool (R159, R160) -/

/-- Chunks that a stall holds, and all items hold. -/
def State.usedBy (s : State) (st : Nat) : Nat := ((s.gpu.items.filter (fun it => it.st == st)).map WorkItem.chunks).sum
def State.usedAll (s : State) : Nat := (s.gpu.items.map WorkItem.chunks).sum
def State.poolSize (s : State) : Nat := s.rd rTLP_CFG fTLP_CFG_GRAINS * 512
def State.poolFree (s : State) : Nat := s.poolSize - s.usedAll
def State.tlqMax (s : State) (st : Nat) : Nat := s.rd (rTLQ st) fTLQ_MAX

/-- The pool's registers follow what is held; CHUNK_PEAK keeps the highest number since the last tally. -/
def State.showPool (s : State) (st : Nat) : State :=
  let s1 := (s.wr (rTLU st) fTLU_USED (s.usedBy st)).wr rTLP_STAT fTLP_STAT_FREE (if s.rstate = rsSTOPPED then 0 else s.poolFree)
  if (s1.lv rCHUNK_PEAK).toNat < s.usedAll then s1.setLv rCHUNK_PEAK (BitVec.ofNat 64 s.usedAll) else s1

/-- The engine uses chunks of the pool: in a grain whose owner is not UNIT, or on a word with an uncorrectable error, the use fails as
an uncorrectable error; a single-bit error is corrected and counted (R307, R309). Which chunk a list has is internal to the engine: a free value says which grain or word is met. -/
def State.poolTouch (s : State) (q seq : Nat) : State :=
  let base := s.rd rTLP_CFG fTLP_CFG_BASE
  let n := s.rd rTLP_CFG fTLP_CFG_GRAINS
  let bad := (List.range n).filter (fun g => s.ownSram (base + g) != ownUNIT)
  let words := (s.ecc.filter (fun p => p.2 != 0 && isSram (8 * p.1) && decide (base ≤ grainOf (8 * p.1) ∧ grainOf (8 * p.1) < base + n)))
  if bad = [] ∧ words = [] then s
  else
    let k := s.free.toNat % (n + words.length)
    let s1 := s.useFree
    if k < n then
      if bad.contains k then (s1.unitGrainBad (base + k)).modItem q seq (fun it => { it with fail := rcTM_UNCORR }) else s1
    else match words[k - n]? with
      | some w => if w.2 = 1 then s1.correctWord w.1 else (s1.reportUe w.1).modItem q seq (fun it => { it with fail := rcTM_UNCORR })
      | none => s1

/-! ### Urgency and credit (R185 to R190) -/

def State.qattr (s : State) (q : Nat) (f : Fld) : Nat := s.rd (rGQATTR q) f
/-- The queue's item is urgent while the window of its DL_PIPE is open. -/
def State.queueUrgent (s : State) (q : Nat) : Bool :=
  s.qattr q fGQATTR_DL_EN == 1 && bitOf s.gpu.win (s.qattr q fGQATTR_DL_PIPE)
def State.credit (s : State) (st : Nat) : Int := sx 25 (s.rd (rGCREDIT st) fGCREDIT_CREDIT)
def State.setCredit (s : State) (st : Nat) (c : Int) : State := s.wr (rGCREDIT st) fGCREDIT_CREDIT (toTwos 25 c)
/-- The share register of a stall. -/
def rShare (st : Nat) : Nat := if st = 0 then rGSHARE0 else rGSHARE (st - 1)
def State.share (s : State) (st : Nat) : Nat := s.frd (rShare st) fGSHARE_SHARE
def State.hard (s : State) (st : Nat) : Bool := s.fon (rShare st) fGSHARE_HARD
/-- The budget of an epoch in cluster-ns. -/
def State.budget (s : State) (st : Nat) : Int := (46875 * s.share st : Nat)

/-- A unit's time is charged when it ends (R182, R186). -/
def State.charge (s : State) (st ns : Nat) (spare : Bool) : State :=
  let s1 := s.bumpEv (rGUSED st) ns
  if spare then s1 else s1.setCredit st (max (-12000000) (s1.credit st - ns))

/-- Has the previous item of the queue completed (R157): is it the oldest that has not? -/
def State.prevDone (s : State) (q seq : Nat) : Bool := match (s.queue q).items with | i :: _ => i.seq == seq | [] => false

/-- Items of its queue before it. -/
def State.earlier (s : State) (it : WorkItem) : List WorkItem :=
  (s.gpu.items.takeWhile (fun x => !x.is it.q it.seq)).filter (fun x => x.q == it.q)

/-- Has an item not started binning or dispatch (R157)? -/
def State.unstarted (s : State) (it : WorkItem) : Bool :=
  match it.stage with
  | .queued | .start | .floor => true
  | .bin => it.draw == 0 && it.rest == [] && decide (s.unitsOf it.q it.seq = [])
  | .comp => it.next == 0
  | _ => false

/-- Binning of an item waits for a cluster for its vertex work: it holds its slot, its draw record is read, and no cluster runs it yet (R181). (DESIGN CHOICE, log entry 96) -/
def State.vertexWaits (s : State) (it : WorkItem) : Bool :=
  it.stage == .bin && (match s.unitsOf it.q it.seq with
    | [r] => (match s.unit r with | some u => decide (12 ≤ r) && u.todo == [] && u.tile == 0 | none => false)
    | _ => false)

/-- May the item's next unit use a binning slot, or a cluster? Its stall is neither frozen nor draining (R189, R199); the render phase of a pass
and a dispatch wait for the previous item of the queue (R157). -/
def State.candidate (s : State) (slot : Bool) (it : WorkItem) : Bool :=
  s.stallState it.st == 1 && !s.gpuFrozen it.st && it.fail == 0 &&
  (if slot then it.stage == .bin && decide (s.unitsOf it.q it.seq = []) && !(s.earlier it).any s.unstarted
   else s.vertexWaits it || ((match it.stage with
     | .partialRender | .final => it.todo != []
     | .comp => decide (it.next < it.total)
     | _ => false) && s.prevDone it.q it.seq))

/-- Lexicographic order of keys. -/
def keyLt : List Int → List Int → Bool
  | a :: l, b :: m => decide (a < b) || (decide (a = b) && keyLt l m)
  | _, _ => false

/-- The first item by key; of equal keys the earlier. -/
def firstBy (key : WorkItem → List Int) : List WorkItem → Option WorkItem
  | [] => none
  | it :: l => match firstBy key l with
    | none => some it
    | some x => if keyLt (key x) (key it) then some x else some it

/-- prio descending, credit descending, stall ascending, queue ascending. -/
def State.prioKey (s : State) (it : WorkItem) : List Int :=
  [-(s.qattr it.q fGQATTR_PRIO : Int), -(s.credit it.st), it.st, it.q]
/-- Time-to-latch of the queue's DL_PIPE first. -/
def State.urgentKey (s : State) (it : WorkItem) : List Int :=
  (s.rd (rTTL (s.qattr it.q fGQATTR_DL_PIPE)) fTTL_TTL_US : Int) :: s.prioKey it

/-- The choice of next_unit (R189) among candidates: the item, whether its unit is spare, and the item that an urgent one displaced (R201). -/
def State.pick (s : State) (cand : List WorkItem) : Option (WorkItem × Bool × Option WorkItem) :=
  let p := cand.filter (fun it => decide (0 < s.credit it.st))
  let u := p.filter (fun it => s.queueUrgent it.q)
  match firstBy s.urgentKey u with
  | some it => some (it, false, (firstBy s.prioKey p).filter (fun x => !s.queueUrgent x.q))
  | none =>
    match firstBy s.prioKey p with
    | some it => some (it, false, none)
    | none => (firstBy s.prioKey (cand.filter (fun it => !s.hard it.st))).map (fun it => (it, true, none))

/-- next_unit of R189, for a binning slot or a cluster. -/
def State.nextUnit (s : State) (slot : Bool) : Option (WorkItem × Bool × Option WorkItem) :=
  s.pick (s.gpu.items.filter (s.candidate slot))

/-- An admissible item may become active (R183): the engine is RUNNING, its stall ACTIVE and not frozen, earlier items of its queue active; fewer than 8
items are active for an urgent item of a stall with credit (R190), fewer than 8 - URGENT_RSV for another. -/
def State.admissible (s : State) (it : WorkItem) : Bool :=
  !it.active && s.rstate == rsRUNNING && s.stallState it.st == 1 && !s.gpuFrozen it.st && (s.earlier it).all WorkItem.active &&
  decide (s.activeItems < if s.queueUrgent it.q && decide (0 < s.credit it.st) then 8 else 8 - s.rd rGS_CTRL fGS_CTRL_URGENT_RSV)

/-- The item that becomes active next, in the order of next_unit (R189). (DEDUCED, log entry 27) -/
def State.nextActive (s : State) : Option WorkItem := (s.pick (s.gpu.items.filter s.admissible)).map (fun x => x.1)

end Sys2Proof.Machine
end

