-- ==== Sys2Proof/Machine/Engine.lean ====
section
/-! DEFINITION. Machine/Engine.lean: the work of the raster engine's units, step by step, so that work frozen by a violation goes on where it
stopped; the start and the end of items and units (R152 to R163, R170 to R177). -/
namespace Sys2Proof.Machine

/-! ### Accesses through the stall gate (R153) -/

/-- An access of n bytes in parts of at most 64 bytes, none across a multiple of 64. -/
def splitParts (sa : Nat) : Nat → Nat → List (Nat × Nat)
  | 0, _ => []
  | k + 1, n =>
    if n = 0 then []
    else
      let part := min n (64 - sa % 64)
      (sa, part) :: splitParts (sa + part) k (n - part)

/-- The steps of a read into the unit's buffer, and of a write. -/
def gets (sa n : Nat) : List GpuOp := (splitParts sa (n / 64 + 2) n).map (fun p => .get p.1 p.2)
def puts (sa : Nat) (b : List Byte) : List GpuOp :=
  (splitParts sa (b.length / 64 + 2) b.length).map (fun p => .put p.1 ((b.drop (p.1 - sa)).take p.2))

/-- The steps of the accesses that programs make. -/
def accOps : List GpuAcc → List GpuOp
  | [] => []
  | .read sa n :: l => gets sa n ++ .taken :: accOps l
  | .write sa b :: l => puts sa b ++ accOps l
  | .tex look :: l => .tex look :: accOps l
  | .reject :: l => .reject :: accOps l

/-- Steps to make before those that the unit has. -/
def State.push (s : State) (r : Nat) (l : List GpuOp) : State := s.modUnit r (fun u => { u with todo := l ++ u.todo })
/-- The unit has used what it read. -/
def State.eat (s : State) (r : Nat) : State := s.modUnit r (fun u => { u with buf := [] })

/-- The unit's item fails; a unit on a binning slot, or one that reads a descriptor, ends with it. -/
def State.opFail (s : State) (r : Nat) (it : WorkItem) (code : Nat) : State :=
  let s1 := s.modItem it.q it.seq (fun x => { x with fail := code })
  if 12 ≤ r then s1.setUnit r none else s1

/-! ### Descriptors (R152, R154, R155, R159, R165) -/

/-- The descriptor of an item has been read. (DEDUCED, log entry 97) -/
def State.opItem (s : State) (r : Nat) (it : WorkItem) (d : List Byte) : State :=
  let s1 := (s.eat r).modItem it.q it.seq (fun x => { x with desc := d })
  if it.compute then
    if it.work % 64 ≠ 0 ∨ cddOk d = false then s1.opFail r it rcDESC_RANGE
    else s1.push r (gets (fieldAt d 0 8) 16 ++ [.head])
  else if it.work % 64 ≠ 0 ∨ rpdOk d = false then s1.opFail r it rcDESC_RANGE
  else if 128 < rpdFoot d then s1.opFail r it rcFOOTPRINT
  else if s1.tlqMax it.st < rpdTiles d then s1.opFail r it rcQUOTA
  else ((s1.setUnit r none).modItem it.q it.seq (fun x => { x with stage := .floor, foot := rpdFoot d })).setGpu
    (fun g => { g with floorQ := g.floorQ ++ [(it.q, it.seq)], resCache := [] })

/-- The header of its compute object has been read. -/
def State.opHead (s : State) (r : Nat) (it : WorkItem) (h : List Byte) : State :=
  if objOk h 2 = false then s.opFail r it rcSHADER_FAULT
  else (s.setUnit r none).modItem it.q it.seq (fun x => { x with stage := .comp, total := cddTiles x.desc })

/-- A draw record has been read; its pipeline object is checked at the first use. -/
def State.opDrawRec (s : State) (r : Nat) (it : WorkItem) (d : List Byte) : State :=
  let s1 := s.eat r
  let obj := fieldAt d 0 8
  if drawOk d = false then s1.opFail r it rcDESC_RANGE
  else
    let s2 := s1.modItem it.q it.seq (fun x => { x with draws := x.draws.take x.draw ++ [({ bytes := d } : DrawRec)] })
    if fieldAt d 0x18 4 = 0 ∨ fieldAt d 0x20 4 = 0 then s2.modUnit r (fun u => { u with tile := 1 })
    else if it.objs.contains obj then s2
    else s2.push r (gets obj 16 ++ [.drawHead obj])

def State.opDrawHead (s : State) (r : Nat) (it : WorkItem) (obj : Nat) (h : List Byte) : State :=
  if objOk h 1 = false then s.opFail r it rcSHADER_FAULT
  else (s.eat r).modItem it.q it.seq (fun x => { x with objs := x.objs ++ [obj] })

/-- The record of the draw being binned. -/
def WorkItem.drawBytes (it : WorkItem) (k : Nat) : List Byte := match it.draws[k]? with | some x => x.bytes | none => []

/-- An index of the draw is read (R154); n are left, with the one in the buffer. -/
def State.opIndex (s : State) (r : Nat) (u : GUnit) (it : WorkItem) : Nat → State
  | 0 => s
  | n + 1 =>
    let d := it.drawBytes it.draw
    if u.buf = [] then s.push r (gets (fieldAt d 0x10 8 + (fieldAt d 0x1C 4 + u.idx.length) * indexSize d) (indexSize d) ++ [.index (n + 1)])
    else (s.modUnit r (fun u => { u with buf := [], idx := u.idx ++ [ofBytesLE u.buf] })).push r [.index n]

/-! ### Texture lookups (R171 to R177) -/

/-- The blocks that texels of a level lie in, without repeats. -/
def texBlocks (d : List Byte) (layer l : Nat) (px : List (Nat × Nat)) : List Nat :=
  (px.map (fun p => texBlock d ((texBytes (fieldAt d 0xF 1)).getD 4) layer l p.1 p.2)).eraseDups

/-- The texels of a lookup that the texture has. -/
def texInside (d : List Byte) (k : TexLook) : List (Nat × Nat) :=
  k.px.filter (fun p => decide (k.level < fieldAt d 0xE 1 ∧ k.layer < fieldAt d 0xC 2 ∧ p.1 < levelW d k.level ∧ p.2 < levelH d k.level))

/-- A lookup: the descriptor is read and checked when it is sampled (R155). -/
def State.opTex (s : State) (r : Nat) (u : GUnit) (it : WorkItem) (k : TexLook) : State :=
  let res := if it.compute then fieldAt it.desc 8 8 else fieldAt (it.drawBytes k.draw) 8 8
  if u.buf = [] then s.push r (gets (res + 64 * k.entry) 64 ++ [.tex k])
  else
    let d := u.buf
    let px := texInside d k
    if texOk d = false then (s.eat r).opFail r it rcTEX_DESC
    else
      let s1 := (s.eat r).bumpEv (rTEX_REQ (r / 3) (r % 3)) 1
      if bitOf (fieldAt d 0x12 1) 0 then s1.push r [.block k d k.level px (texBlocks d k.layer k.level px) []]
      else s1.push r [.texel k d k.level px []]

/-- All blocks of a level are tested: none missing, the texels are read; else no texel of the level is read, every block missing at the level asked for
makes a record, and FB_MODE says what follows: a given value, or the next level with the coordinates scaled to it (R175). (DEDUCED, log entry 30) -/
def State.opTested (s : State) (r : Nat) (it : WorkItem) (k : TexLook) (d : List Byte) (level : Nat) (px : List (Nat × Nat)) (miss : List Nat) :
    State :=
  if miss = [] then s.push r [.texel k d level px []]
  else
    let s1 := if level = k.level then s.bumpEv (rTEX_MISS (r / 3) (r % 3)) 1 else s
    let recs := if level = k.level && !it.compute then miss.map (fun n => GpuOp.miss (fieldAt d 0x14 2) level n) else []
    if fieldAt d 0x12 1 / 2 % 4 = 2 ∧ level + 1 < fieldAt d 0xE 1 then
      let px' := px.map (fun p => (min (p.1 / 2) (levelW d (level + 1) - 1), min (p.2 / 2) (levelH d (level + 1) - 1)))
      s1.push r (recs ++ [.block k d (level + 1) px' (texBlocks d k.layer (level + 1) px') []])
    else (s1.push r recs).emit (.texels r [texFallback d])

/-- A block is tested by its residency byte, from the cluster's texture cache or from memory (R174, R177). (DEDUCED, log entry 97) -/
def State.opBlock (s : State) (r : Nat) (u : GUnit) (it : WorkItem) (k : TexLook) (d : List Byte) (level : Nat) (px : List (Nat × Nat)) :
    List Nat → List Nat → State
  | [], miss => s.opTested r it k d level px miss
  | n :: l, miss =>
    let a := fieldAt d 0x18 8 + n / 8
    let next (s : State) (v : Nat) : State := s.push r [.block k d level px l (if bitOf v (n % 8) then miss else miss ++ [n])]
    match u.buf, s.gpu.resCache.find? (fun x => x.cl == r && x.st == it.st && x.addr == a) with
    | b :: _, _ => next ((s.eat r).setGpu (fun g =>
        { g with resCache := ⟨r, it.st, a, b.toNat⟩ :: g.resCache.filter (fun x => !(x.cl == r && x.st == it.st && x.addr == a)) })) b.toNat
    | [], some x => if k.again then s.push r (gets a 1 ++ [.block k d level px (n :: l) miss]) else next s x.v
    | [], none => s.push r (gets a 1 ++ [.block k d level px (n :: l) miss])

/-- A texel is read and converted; after the last the lookup returns. -/
def State.opTexel (s : State) (r : Nat) (u : GUnit) (k : TexLook) (d : List Byte) (level : Nat) : List (Nat × Nat) → List (List Nat) → State
  | [], vals => s.emit (.texels r vals)
  | p :: l, vals =>
    let w := texelPlace d ((texBytes (fieldAt d 0xF 1)).getD 4) k.layer level p.1 p.2
    if u.buf = [] then s.push r (gets w.1 w.2 ++ [.texel k d level (p :: l) vals])
    else (s.eat r).push r [.texel k d level l (vals ++ [texelValue d p.1 (ofBytesLE u.buf)])]

/-! ### Miss records (R176) -/

/-- The ring's copy, and its update. -/
def State.ringCopy (s : State) (st ring : Nat) : Option RingCopy := s.gpu.rings.find? (fun c => c.st == st && c.ring == ring)
def State.setRing (s : State) (c : RingCopy) : State :=
  s.setGpu (fun g => { g with rings := c :: g.rings.filter (fun x => !(x.st == c.st && x.ring == c.ring)) })

/-- A record is suppressed if its pair is among the last 64 distinct pairs that the cluster recorded in the pass; with MISS_RING = 0 it is only counted. -/
def State.opMiss (s : State) (r : Nat) (it : WorkItem) (tag level n : Nat) : State :=
  let ps := storeGet (fun _ => []) it.pairs r
  if ps.contains (tag, n) then s
  else
    let s1 := s.modItem it.q it.seq (fun x => { x with pairs := storePut (fun _ => []) x.pairs r (((tag, n) :: ps).take 64) })
    if fieldAt it.desc 0x38 8 = 0 then s1 else s1.push r [.record tag level n]

/-- A record goes into the ring: the header is read at the first one; a ring that the copy shows full is dropped into once RD has been read again
and still shows it full; else the record is written, and then WR advances. (DEDUCED, log entry 97) -/
def State.opRecord (s : State) (r : Nat) (u : GUnit) (it : WorkItem) (tag level n : Nat) : State :=
  let ring := fieldAt it.desc 0x38 8
  let size := 2 ^ fieldAt it.desc 0x40 1
  let wrote (s : State) : State := s.modItem it.q it.seq (fun x => { x with missed := true })
  match s.ringCopy it.st ring with
  | none =>
    if u.buf = [] then s.push r (gets ring 12 ++ [.record tag level n])
    else ((s.eat r).setRing ⟨it.st, ring, fieldAt u.buf 0 4, fieldAt u.buf 4 4, fieldAt u.buf 8 4⟩).push r [.record tag level n]
  | some c0 =>
    let c1 := if u.buf = [] then c0 else { c0 with rd := ofBytesLE u.buf }
    let s1 := s.eat r
    if since32 c1.wr c1.rd = size then
      if u.buf = [] then s1.push r (gets (ring + 4) 4 ++ [.record tag level n])
      else
        let drops := (c1.drops + 1) % 2 ^ 32
        (wrote ((s1.setRing { c1 with drops := drops }).bumpErr (rMISS_DROP it.st))).push r (puts (ring + 8) (bytesLE 4 drops))
    else
      let wr := (c1.wr + 1) % 2 ^ 32
      (wrote (s1.setRing { c1 with wr := wr })).push r
        (puts (ring + 0x40 + 16 * (c1.wr % size))
            (bytesLE 2 tag ++ bytesLE 1 level ++ bytesLE 1 0 ++ bytesLE 4 n ++ bytesLE 4 (fieldAt it.desc 0x0C 4) ++ bytesLE 4 0) ++
          puts ring (bytesLE 4 wr))

/-! ### Tiles (R154, R161 to R164, R170) -/

/-- n free values of w bits. -/
def State.freeList (s : State) (n w : Nat) : State × List Nat :=
  ({ s with fresh := s.fresh + n }, (List.range n).map (fun i => (Config.freeValue (s.fresh + i)).toNat % 2 ^ w))

/-- The steps that bring in attachment k, record a, by its LOAD operation: cleared, loaded from the target, or undefined; samples of a loaded tile
outside the render area are undefined. -/
def State.loadAtt (s : State) (it : WorkItem) (t k a : Nat) : State × List GpuOp :=
  let x := rpdAtt it.desc a
  let samples := fieldAt it.desc 4 1
  match targetFmt x.fmt with
  | none => (s, [])
  | some f =>
    if x.load = 0 then (s, [.fill k ((List.range (1024 * samples)).flatMap (fun _ => f.clear x.clear))])
    else if x.load = 2 then match s.freeList (1024 * samples * f.comps.length) 32 with | (s1, v) => (s1, [.fill k v])
    else
      (List.range (1024 * samples)).foldl (fun (m : State × List GpuOp) i =>
        match tilePixel it.desc t (i / samples) with
        | some (x1, y1) => (m.1, m.2 ++ (gets (sampleAddr x samples f.bytes x1 y1 (i % samples)) f.bytes ++ [.sample k]))
        | none => match m.1.freeList f.comps.length 32 with
          | (s1, v) => (s1, m.2 ++ [.fill k v])) (s, [.fill k []])

/-- The steps that a tile starts with: its spill slot if it was rendered before in the pass, else its LOAD operations (R161, R162). -/
def State.loadTile (s : State) (it : WorkItem) (t : Nat) : State × List GpuOp :=
  if it.spilled.contains t then (s, gets (fieldAt it.desc 0x28 8 + t * 1024 * it.foot) (1024 * it.foot) ++ [.unspill, .loaded])
  else
    let atts := rpdAtts it.desc
    match (List.range atts.length).foldl (fun (m : State × List GpuOp) k =>
        match m.1.loadAtt it t k (atts.getD k 0) with | (s1, l) => (s1, m.2 ++ l)) (s, []) with
    | (s1, l) => (s1, l ++ [.loaded])

/-- Values join an attachment of the tile being loaded. -/
def fillAtt (io : List (List Nat)) (k : Nat) (v : List Nat) : List (List Nat) :=
  if k < io.length then io.set k (io.getD k [] ++ v) else io ++ [v]

/-- The content that a spill slot holds: pixel by pixel, every attachment in tile representation. (DESIGN CHOICE, log entry 28) -/
def unspillTile (d : List Byte) (foot : Nat) (b : List Byte) : List (List Nat) :=
  let samples := fieldAt d 4 1
  let fmts := tileFmts d
  let off (k : Nat) : Nat := ((fmts.take k).map (fun f => f.tileBytes * samples)).sum
  (List.range fmts.length).map (fun k => match fmts[k]? with
    | none => []
    | some f => (List.range (1024 * samples)).flatMap (fun i =>
        compsOf f.comps (b.drop (i / samples * foot + off k + i % samples * f.tileBytes))))

/-- The stores of an attachment at the end of the pass: each sample of a pixel in the render area, or its average over the samples, converted as a
shader result (R170). -/
def attStores (d : List Byte) (t a : Nat) (l : List Nat) : List GpuOp :=
  let r := rpdAtt d a
  let samples := fieldAt d 4 1
  match targetFmt r.fmt with
  | none => []
  | some f =>
    let n := f.comps.length
    let comp (px s i : Nat) : Nat := l.getD ((px * samples + s) * n + i) 0
    if r.store = 1 then []
    else (List.range 1024).flatMap (fun px => match tilePixel d t px with
      | none => []
      | some (x, y) =>
        if r.store = 0 then (List.range samples).flatMap (fun s =>
          puts (sampleAddr r samples f.bytes x y s) (bytesLE f.bytes (f.pack ((List.range n).map (comp px s)))))
        else
          let avg := (List.range n).map (fun i => match f.comps[i]? with
            | some m => m.ofShader (f32Average ((List.range samples).map (fun s => m.toFloat (comp px s i))))
            | none => 0)
          puts (r.raddr + y * r.rstride * 64 + x * f.bytes) (bytesLE f.bytes (f.pack avg)))

/-- The stores at the end of a tile: in the final render by the STORE operations (R162); in a partial render every attachment in tile
representation into the spill slot, pixel by pixel (R161). (DESIGN CHOICE, log entry 28) -/
def tileStores (it : WorkItem) (t : Nat) (c : List (List Nat)) : List GpuOp :=
  let d := it.desc
  let atts := rpdAtts d
  if it.stage = .partialRender then
    let samples := fieldAt d 4 1
    let fmts := tileFmts d
    puts (fieldAt d 0x28 8 + t * 1024 * it.foot) ((List.range 1024).flatMap (fun px =>
      (List.range fmts.length).flatMap (fun k => match fmts[k]? with
        | none => []
        | some f => (List.range samples).flatMap (fun s => f.tileRep (getSample d f c k px s)))))
  else (List.range atts.length).flatMap (fun k => attStores d t (atts.getD k 0) (c.getD k []))

/-- The fragments of a tile are shaded in tile memory (R156, R164, R166 to R168); a second interlock section ends the pass with SHADER_FAULT. -/
def State.opShade (s : State) (r : Nat) (u : GUnit) (it : WorkItem) (l : List TileFrag) : State :=
  let m := shadeAll it.desc it.draws { content := u.content } l
  let s1 := m.reads.foldl (fun s x => s.emit (.tileRead r x.1 x.2.1 x.2.2.1 x.2.2.2)) (s.modUnit r (fun u => { u with content := m.content }))
  if m.fault then s1.opFail r it rcSHADER_FAULT else s1

/-! ### Steps -/

/-- One step of a unit on resource r. -/
def State.opStep (s : State) (r : Nat) (u : GUnit) (it : WorkItem) : GpuOp → State
  | .get sa n => match s.stallLoad it.st gpuMaster sa n with
    | (s1, b) => s1.modUnit r (fun u => { u with buf := u.buf ++ b.getD (List.replicate n 0) })
  | .put sa b => (s.stallStore it.st gpuMaster sa b).1
  | .taken => s.eat r
  | .item => s.opItem r it u.buf
  | .head => s.opHead r it u.buf
  | .drawRec => s.opDrawRec r it u.buf
  | .drawHead obj => s.opDrawHead r it obj u.buf
  | .index n => s.opIndex r u it n
  | .tex k => s.opTex r u it k
  | .block k d level px todo miss => s.opBlock r u it k d level px todo miss
  | .texel k d level px vals => s.opTexel r u k d level px vals
  | .miss tag level n => s.opMiss r it tag level n
  | .record tag level n => s.opRecord r u it tag level n
  | .fill k v => s.modUnit r (fun u => { u with io := fillAtt u.io k v })
  | .sample k => s.modUnit r (fun u => { u with
      io := fillAtt u.io k (match (tileFmts it.desc)[k]? with | some f => f.unpack (ofBytesLE u.buf) | none => []), buf := [] })
  | .unspill => s.modUnit r (fun u => { u with io := unspillTile it.desc it.foot u.buf, buf := [] })
  | .loaded => s.modUnit r (fun u => { u with content := u.io, io := [] })
  | .shade l => s.opShade r u it l
  | .store => (s.modUnit r (fun u => { u with io := u.content, content := [] })).push r (tileStores it u.tile u.content)
  | .reject => s.opFail r it rcSHADER_FAULT

/-- A bound of the steps that a step leads to, itself included. -/
def GpuOp.cost : GpuOp → Nat
  | .item | .head | .drawRec | .drawHead _ | .miss .. | .record .. => 24
  | .index n => 4 * n + 4
  | .tex k | .block k .. | .texel k .. => 64 * (k.px.length + 1)
  | .store => 80000
  | _ => 1

/-- Steps of the unit on resource r, until none is left, its stall's context freezes (they go on after THAW, R153), or its item has failed. -/
def State.runSteps (s : State) (r : Nat) : Nat → State
  | 0 => s
  | k + 1 => match s.unit r with
    | none => s
    | some u => match u.todo, s.gpuItem u.q u.seq with
      | o :: l, some it =>
        if s.gpuFrozen it.st then s
        else if it.fail ≠ 0 then s.setUnit r (some { u with todo := [] })
        else ((s.setUnit r (some { u with todo := l })).opStep r u it o).runSteps r k
      | _, _ => s

def State.runUnit (s : State) (r : Nat) : State :=
  s.runSteps r (match s.unit r with | some u => (u.todo.map GpuOp.cost).sum + 1 | none => 0)

/-- Units with steps left go on (R153). -/
def State.resumeAll (s : State) : State := (List.range 30).foldl (fun s r => s.runUnit r) s

/-! ### The end of units and items -/

/-- The queue learns the result of an item (R155, R226). -/
def State.setResult (s : State) (q seq code : Nat) : State :=
  s.modQueue q (fun x => { x with items := x.items.map (fun i => if i.seq = seq then { i with result := some code } else i) })

/-- A unit ends: the time of a cluster is charged to its stall and counted (R182, R186); the resource is free. -/
def State.endUnit (s : State) (r : Nat) (t : UnitTime) : State :=
  match s.unit r with
  | none => s
  | some u =>
    let s1 := s.setUnit r none
    if 12 ≤ r then s1
    else match s.gpuItem u.q u.seq with
      | none => s1
      | some it => ((s1.charge it.st t.ns u.spare).bumpEv (rCYC_BUSY (r / 3) (r % 3)) t.cycles).showCluster r false 0 0

/-- An item ends with a code (R155): its chunks and floor return (R160); a code other than DONE goes into RFAULT and PASS_FAIL; a failure
other than a squash, and a pass that wrote or dropped miss records, raise the stall's raster interrupt (R176, R198, R220); the copy of a
miss ring goes with the last pass on it; a STOPPING engine with no item left is STOPPED (R178). (DEDUCED, log entries 27, 97) -/
def State.endItem (s : State) (it : WorkItem) (code : Nat) : State :=
  let s1 := s.setGpu (fun g =>
    let l := g.items.filter (fun x => !x.is it.q it.seq)
    { g with
      items := l, floorQ := g.floorQ.filter (fun k => k != (it.q, it.seq))
      rings := g.rings.filter (fun c => l.any (fun x => !x.compute && x.st == c.st && fieldAt x.desc 0x38 8 == c.ring)) })
  let s2 := (s1.showPool it.st).showActive
  let id := if it.compute then fieldAt it.desc 0x24 4 else fieldAt it.desc 0x0C 4
  let s3 := if code = rcDONE then s2.bumpEv rPASSES 1
    else (((s2.wr rRFAULT fRFAULT_STALL it.st).wr rRFAULT fRFAULT_CODE code).wr rRFAULT fRFAULT_ID_LO id).bumpErr rPASS_FAIL
  let s4 := if (code != rcDONE && code != rcSQUASHED) || it.missed then s3.irq it.st 88 else s3
  let s5 := s4.setResult it.q it.seq code
  if s5.rstate = rsSTOPPING ∧ s5.activeItems = 0 then s5.wr rRSTAT fRSTAT_STATE rsSTOPPED else s5

/-! ### The start of items and units -/

/-- An item becomes active: its descriptor is read and checked. -/
def State.startItem (s : State) (it : WorkItem) : State :=
  (((s.modItem it.q it.seq (fun x => { x with stage := .start })).showActive).setUnit (14 + it.st) (some
    { q := it.q, seq := it.seq, kind := 3, spare := false, todo := gets it.work (if it.compute then 64 else 384) ++ [.item] })).runUnit (14 + it.st)

/-- Items become active while they may (R183). -/
def State.activate (s : State) : Nat → State
  | 0 => s
  | k + 1 => match s.nextActive with | none => s | some it => (s.startItem it).activate k

/-- The tiles of a pass that a render phase renders, in the order of dispatch. -/
def WorkItem.tiles (it : WorkItem) : List Nat := tileOrder (rpdTx it.desc) (rpdTy it.desc)

/-- An item that runs no unit goes on: a failed one ends; after the tiles of a partial render binning resumes with empty lists
(R161 step 5); after the last draw record the final render follows (R162); after its last tile the item is done. -/
def State.settle (s : State) (it : WorkItem) : State :=
  if s.gpuFrozen it.st || s.unitsOf it.q it.seq != [] then s
  else if it.fail ≠ 0 then s.endItem it it.fail
  else match it.stage with
    | .partialRender =>
      if it.todo = [] then
        ((s.modItem it.q it.seq (fun x => { x with stage := .bin, lists := [], vary := 0, chunks := rpdTiles x.desc })).showPool
          it.st).bumpEv (rPARTIAL it.st) 1
      else s
    | .bin =>
      if fieldAt it.desc 8 4 ≤ it.draw ∧ it.rest = [] then
        s.modItem it.q it.seq (fun x => { x with stage := .final, todo := x.tiles })
      else s
    | .final => if it.todo = [] then s.endItem it rcDONE else s
    | .comp => if it.total ≤ it.next then s.endItem it rcDONE else s
    | _ => s

def State.settleAll (s : State) : State := s.gpu.items.foldl (fun s it => if it.active then s.settle it else s) s

/-- Workgroups of compute tile n of a dispatch, and how many of them run at once (R154). -/
def cddTileGroups (d : List Byte) (n : Nat) : Nat :=
  let k := fieldAt d 0x1E 2
  min k (fieldAt d 0x18 2 * fieldAt d 0x1A 2 * fieldAt d 0x1C 2 - n * k)
def cddAtOnce (d : List Byte) : Nat := if fieldAt d 0x22 2 = 0 then 8 else min 8 (256 / fieldAt d 0x22 2)

/-- A unit is dispatched on a free resource (R181). Binning reads its draw record, unless it resumes in one; a cluster takes the vertex work of a
draw, a tile, which is loaded, or a compute tile. (DESIGN CHOICE, log entries 26, 96) -/
def State.startUnit (s : State) (r : Nat) (it : WorkItem) (spare : Bool) : State :=
  let u (kind t : Nat) (l : List GpuOp) : GUnit := { q := it.q, seq := it.seq, kind := kind, spare := spare, tile := t, todo := l }
  if 12 ≤ r then
    (s.setUnit r (some (u 0 0 (if it.rest = [] then gets (fieldAt it.desc 0x10 8 + 64 * it.draw) 64 ++ [.drawRec] else [])))).runUnit r
  else if it.stage = .bin then (s.setUnit r (some (u 0 0 []))).showCluster r true 0 it.st
  else if it.compute then
    ((s.modItem it.q it.seq (fun x => { x with next := x.next + 1 })).setUnit r (some
      { u 2 it.next [] with wgs := cddTileGroups it.desc it.next, atOnce := cddAtOnce it.desc })).showCluster r true 2 it.st
  else match it.todo with
    | [] => s
    | t :: l =>
      let s1 := (s.modItem it.q it.seq (fun x => { x with todo := l })).poolTouch it.q it.seq
      if (match s1.gpuItem it.q it.seq with | some x => x.fail != 0 | none => true) then s1
      else match s1.loadTile it t with
        | (s2, l) => ((s2.setUnit r (some (u 1 t l))).showCluster r true 1 it.st).runUnit r

/-- A free resource takes the next unit; an item that loses it to an urgent one is counted once in a window (R189, R201). An item whose
unit could not start ends, and the choice is made again. -/
def State.fill (s : State) (r : Nat) : Nat → State
  | 0 => s
  | k + 1 =>
    if (s.unit r).isSome || (decide (r < 12) && !(s.islandOn (12 + r / 3))) then s
    else match s.nextUnit (decide (12 ≤ r)) with
      | none => s
      | some (it, spare, lost) =>
        let s1 := match lost with
          | some x => if x.preempted then s else (s.modItem x.q x.seq (fun y => { y with preempted := true })).bumpEv rGS_PREEMPT 1
          | none => s
        let s2 := s1.startUnit r it spare
        if (s2.unit r).isSome then s2 else s2.settleAll.fill r k

/-- Everything that can go on goes on: frozen work that was thawed, items become active, ended phases give way to the next, free resources take units;
again while items end. -/
def State.gpuPass (s : State) : State :=
  gpuResources.foldl (fun s r => s.fill r 9) ((s.resumeAll.activate s.gpu.items.length).settleAll)
def State.gpuPasses (s : State) : Nat → State
  | 0 => s
  | k + 1 =>
    let s1 := s.gpuPass
    if s1.gpu.items.length < s.gpu.items.length then s1.gpuPasses k else s1
/-- As its section says. (DEDUCED, log entries 27, 31) -/
def State.gpuKick (s : State) : State := s.gpuPasses (s.gpu.items.length + 1)

end Sys2Proof.Machine
end

