-- ==== Sys2Proof/Machine/Raster.lean ====
section
/-! DEFINITION. Machine/Raster.lean: the commands of the raster engine and of its scheduler (R158 to R162, R178, R179, R181 to R200). -/
namespace Sys2Proof.Machine

/-! ### Run and stop -/

/-- RCTRL: RUN leaves STOPPED (R179), but not before SERVICE_UP (R438); STOP stops the admission of work, and the engine is STOPPED once no item is active (R178). (DEDUCED, log entry 14) -/
def State.wrRctrl (s : State) (w : W64) : State :=
  let s1 := if getFld w fRCTRL_RUN = 1 ∧ s.dstate < 3 then s.refuse rRCTRL
    else if getFld w fRCTRL_RUN = 1 ∧ s.rstate = rsSTOPPED then
      let a := s.wr rRSTAT fRSTAT_STATE rsRUNNING
      (a.wr rTLP_STAT fTLP_STAT_FREE a.poolFree).gpuKick.msrCompare
    else s
  if getFld w fRCTRL_STOP = 1 ∧ s1.rstate = rsRUNNING then
    s1.wr rRSTAT fRSTAT_STATE (if s1.activeItems = 0 then rsSTOPPED else rsSTOPPING)
  else s1

/-- RASTER_RUN (R179). -/
def execRasterRun (who : Who) (s : State) : Host.Outcome State Fault Refusal :=
  .next (s.begin.write who rRCTRL (fun s => s.wrRctrl (wBit 0 fRCTRL_RUN)))

/-- RASTER_STOP (R178). -/
def execRasterStop (who : Who) (s : State) : Host.Outcome State Fault Refusal :=
  .next (s.begin.write who rRCTRL (fun s => s.wrRctrl (wBit 0 fRCTRL_STOP)))

/-- TLP_CFG: BASE + GRAINS at most 768; class S (R179). -/
def State.wrTlpCfg (s : State) (w : W64) : State :=
  if 768 < getFld w fTLP_CFG_BASE + getFld w fTLP_CFG_GRAINS then s.refuse rTLP_CFG
  else s.settingWrite rTLP_CFG w (s.rstate == rsSTOPPED) false

/-! ### Binning (R159 to R161) -/

/-- The pass that reserves its floor next: waiting passes in their order; one whose stall's limit does not let it holds back later
passes of its passes of its own queue only, and so does one that the pool has too few free chunks for. (DEDUCED, log entry 27) -/
def State.floorNext (s : State) (held : List Nat) : List (Nat × Nat) → Option WorkItem
  | [] => none
  | (q, seq) :: l =>
    match s.gpuItem q seq with
    | none => s.floorNext held l
    | some it =>
      let n := rpdTiles it.desc
      if held.contains q || s.stallState it.st != 1 || s.gpuFrozen it.st || decide (s.tlqMax it.st < s.usedBy it.st + n ∨ s.poolFree < n)
      then s.floorNext (q :: held) l
      else some it

/-- PASS_FLOOR_RESERVED (R159). -/
def execPassFloorReserved (s : State) : Host.Outcome State Fault Refusal :=
  let s := s.begin
  .next (match s.floorNext [] s.gpu.floorQ with
    | none => s
    | some it =>
      let s1 := s.modItem it.q it.seq (fun x => { x with stage := .bin, chunks := rpdTiles x.desc })
      ((s1.setGpu (fun g => { g with floorQ := g.floorQ.filter (fun k => k != (it.q, it.seq)) })).showPool it.st).gpuKick)

/-- New chunks that a primitive needs: one for each of its tiles whose list's last chunk is full (15 entries a chunk). -/
def chunksNeeded (lists : Store Nat) (ts : List Nat) : Nat :=
  (ts.filter (fun t => let n := storeGet (fun _ => 0) lists t; n != 0 && n % 15 == 0)).length

/-- Primitives are binned in order until one does not fit: the free chunks of the pool, what the stall may still take, the rest of the
varying buffer. The item with them binned, how many were, and those left. -/
def binPrims (free quota vary : Nat) (it : WorkItem) (n : Nat) : List BinPrim → WorkItem × Nat × List BinPrim
  | [] => (it, n, [])
  | p :: l =>
    let ts := (p.tiles.filter (fun t => decide (t < rpdTiles it.desc))).eraseDups
    let k := chunksNeeded it.lists ts
    if (k ≠ 0 ∧ (free < k ∨ quota < k)) ∨ (it.vary ≠ 0 ∧ vary < it.vary + p.bytes) then (it, n, p :: l)
    else
      let lists := ts.foldl (fun m t => storePut (fun _ => 0) m t (storeGet (fun _ => 0) m t + 1)) it.lists
      binPrims (free - k) (quota - k) vary { it with lists := lists, vary := it.vary + p.bytes, chunks := it.chunks + k } (n + 1) l

/-- Primitives go into the lists; an overflow starts a partial render, which needs its spill
area (R161); else the draw record is done. (DEDUCED, log entry 27) -/
def State.binDraw (s : State) (it : WorkItem) (ps : List BinPrim) : State :=
  let r := binPrims s.poolFree (s.tlqMax it.st - s.usedBy it.st) (fieldAt it.desc 0x20 4) it 0 ps
  let x := r.1
  let y : WorkItem :=
    if r.2.2 = [] then { x with rest := [], draw := x.draw + 1 }
    else
      { x with
        rest := r.2.2, stage := .partialRender
        todo := x.tiles.filter (fun t => storeGet (fun _ => 0) x.lists t != 0)
        fail := if fieldAt x.desc 0x30 8 < rpdTiles x.desc * 1024 * x.foot then rcNO_SPILL else x.fail }
  let s1 := ((s.modItem it.q it.seq (fun _ => y)).bumpEv rPRIMS r.2.1).showPool it.st
  if r.2.1 = 0 then s1 else s1.poolTouch it.q it.seq

/-- The steps of a unit's programs have been made: it ends. A unit whose item failed ends without `done`. -/
def State.unitEnd (s : State) (r : Nat) (it : WorkItem) (run : UnitRun) (done : WorkItem → State → State) : State :=
  let s1 := match s.gpuItem it.q it.seq with
    | some x => if x.fail = 0 then done x s else s
    | none => s
  s1.endUnit r ⟨run.ns, run.cycles⟩

/-- The programs of a unit on a cluster run, with these steps, when the unit's last step before has been made: if they freeze the stall's context, the
rest follows after THAW, and the unit ends at a later command, which gives its time; else it ends at once. (DESIGN CHOICE, log entry 26) -/
def State.unitRun (s : State) (r : Nat) (u : GUnit) (it : WorkItem) (ops : List GpuOp) (fin : State → State) : State :=
  if s.gpuFrozen it.st || u.todo != [] then s
  else
    let s1 := if u.ending then s else (s.setUnit r (some { u with todo := ops, ending := true })).runUnit r
    if s1.gpuFrozen it.st then s1 else (fin s1).gpuKick

/-- The draw record's programs are known, and its primitives are assembled (R154): its vertex work takes them, instance by instance. -/
def State.drawAssembled (s : State) (cl : Nat) (it : WorkItem) (prog : DrawProg) (idx : List Nat) : State :=
  let d := it.drawBytes it.draw
  let ps := drawPrims d idx
  let r : DrawRec :=
    { bytes := d, per := ps.length, key := s.fresh, late := bitOf (fieldAt d 0x30 2) 5 && prog.dsInSection, blend := prog.blend
      dsTest := prog.dsTest }
  (List.range (fieldAt d 0x20 4)).foldl (fun s i => s.emit (.vertices cl it.draw (fieldAt d 0x24 4 + i) ps))
    (s.useFree.modItem it.q it.seq (fun x => { x with draws := x.draws.set it.draw r }))

/-- DRAW_BINNED (R160, R181): the vertex work on its cluster has been done, and the primitives are binned. A draw that does nothing needs no vertex
work; binning that an overflow stopped goes on with the primitives left. (DESIGN CHOICE, log entries 4, 26, 96) -/
def execDrawBinned (slot : Fin 2) (prog : DrawProg) (prims : List BinPrim) (run : UnitRun) (s : State) : Host.Outcome State Fault Refusal :=
  let s := s.begin
  let r := 12 + slot.val
  .next (match s.unit r with
    | none => s
    | some u => match s.gpuItem u.q u.seq with
      | none => s
      | some it =>
        if s.gpuFrozen it.st || u.todo != [] then s
        else if u.tile = 1 then (((s.binDraw it []).endUnit r ⟨0, 0⟩)).gpuKick
        else match (s.unitsOf u.q u.seq).find? (fun k => decide (k < 12)) with
          | none => s
          | some cl => match s.unit cl with
            | none => s
            | some v =>
              let d := it.drawBytes it.draw
              let ops := (if drawIndexed d && it.rest == [] then [GpuOp.index (fieldAt d 0x18 4)] else []) ++ accOps run.accs
              s.unitRun cl v it ops (fun s =>
                (s.unitEnd cl it run (fun x s =>
                  if x.rest = [] then
                    let idx := match s.unit cl with | some w => w.idx | none => []
                    let s1 := s.drawAssembled cl x prog idx
                    let ps := prims.take ((drawPrims d idx).length * fieldAt d 0x20 4)
                    match s1.gpuItem x.q x.seq with | some y => s1.binDraw y ps | none => s1
                  else s.binDraw x x.rest)).endUnit r ⟨0, 0⟩))

/-! ### Tiles (R161 to R165, R170, R181) -/

/-- RENDER_TILE_DONE (R181): the fragments are shaded and the stores have completed, the cluster is released and takes the next unit. (DESIGN CHOICE, log entry 26; DEDUCED, log entry 30) -/
def execRenderTileDone (cl : Fin 12) (frags : List TileFrag) (run : UnitRun) (s : State) : Host.Outcome State Fault Refusal :=
  let s := s.begin
  .next (match s.unit cl with
    | none => s
    | some u => match s.gpuItem u.q u.seq with
      | none => s
      | some it =>
        if u.kind != 1 then s
        else s.unitRun cl u it (accOps run.accs ++ [.shade frags, .store]) (fun s =>
          s.unitEnd cl it run (fun _ s =>
            let s1 := s.modItem u.q u.seq (fun x => if x.stage = .partialRender then { x with spilled := x.spilled ++ [u.tile] } else x)
            ((s1.bumpEv (rTILES (cl.val / 3) (cl.val % 3)) 1).bumpEv (rFRAGS (cl.val / 3) (cl.val % 3)) run.frags).bumpEv
              (rILK_WAIT (cl.val / 3) (cl.val % 3)) run.ilkWait)))

/-- COMPUTE_TILE_DONE (R181). (DESIGN CHOICE, log entry 26) -/
def execComputeTileDone (cl : Fin 12) (run : UnitRun) (s : State) : Host.Outcome State Fault Refusal :=
  let s := s.begin
  .next (match s.unit cl with
    | none => s
    | some u => match s.gpuItem u.q u.seq with
      | none => s
      | some it =>
        if u.kind != 2 then s
        else s.unitRun cl u it (accOps run.accs) (fun s => s.unitEnd cl it run (fun _ s => s)))

/-- All units of an item end now; their times come from outside. -/
def State.cutUnits (s : State) (q seq : Nat) (times : List UnitTime) : State :=
  (s.unitsOf q seq).foldl (fun s r => s.endUnit r (times.getD r ⟨0, 0⟩)) s

/-- COMPUTE_TILE_KILL (R197, R198): the tile has held its cluster for 2,000 µs, frozen time included. The dispatch ends with KILLED and
its other running tiles are killed with it. -/
def execComputeTileKill (cl : Fin 12) (times : List UnitTime) (s : State) : Host.Outcome State Fault Refusal :=
  let s := s.begin
  .next (match s.unit cl with
    | none => s
    | some u => match s.gpuItem u.q u.seq with
      | none => s
      | some it =>
        if u.kind != 2 then s
        else
          let own : UnitTime := ⟨2000000, (times.getD cl.val ⟨0, 0⟩).cycles⟩
          (((s.endUnit cl own).cutUnits u.q u.seq times).bumpErr (rGKILL it.st)).endItem it rcKILLED |>.gpuKick)

/-- TILE_MEMORY_ERROR (R178): corrected in place; or the tile writes no store and its item ends with TM_UNCORR once its other running
units have ended; vertex work takes its binning slot with it. -/
def execTileMemoryError (cl : Fin 12) (uncorrectable : Bool) (time : UnitTime) (s : State) : Host.Outcome State Fault Refusal :=
  let s := s.begin
  let u := cl.val / 3
  let i := cl.val % 3
  .next (match s.unit cl with
    | none => s
    | some x =>
      if uncorrectable then
        let s1 := ((s.bumpErr (rTM_UNCORR u i)).modItem x.q x.seq (fun it => { it with fail := rcTM_UNCORR })).endUnit cl time
        (if x.kind = 0 then s1.cutUnits x.q x.seq [] else s1).gpuKick
      else s.bumpErr (rTM_CORR u i))

/-! ### The scheduler's clock and windows (R185, R188, R192 to R195) -/

/-- An epoch's shares and credits: SHARE, HARD and ADMIT_MAX take effect and credits are renewed (R185, R188, R231). -/
def State.epochCredits (s : State) : State :=
  overN 16 (fun st s =>
    let a := (s.latch (rShare st)).latch (if st = 0 then rGADM0 else rGADM (st - 1))
    a.setCredit st (max (-12000000) (min (a.credit st) 0) + a.budget st)) s

/-- SCHEDULER_EPOCH (R185): epochs are counted from the release of device reset; in every state after BOOT_ROM they renew shares and credits. (DEDUCED, log entry 31) -/
def execSchedulerEpoch (s : State) : Host.Outcome State Fault Refusal :=
  let s := s.begin
  .next (s.guard (!s.power.inReset && decide (1 ≤ s.dstate)) (fun s =>
    let s1 := if s.dstate = 1 then s else s.epochCredits
    let s2 := s1.bumpEv rGS_EPOCHS 1
    (s2.wr rGS_STAT fGS_STAT_EPOCH_LO (s2.lv rGS_EPOCHS).toNat).gpuKick))

/-- DEADLINE_WINDOW_OPEN (R192, R193): the opening reaches the raster front end. -/
def execDeadlineWindowOpen (p : Fin 8) (s : State) : Host.Outcome State Fault Refusal :=
  let s := s.begin
  .next (s.guard (s.on (rTTL p) fTTL_WINDOW) (fun s =>
    (s.setGpu (fun g => { g with win := setBitN g.win p true, items := g.items.map (fun it => { it with preempted := false }) })).gpuKick))

/-- Render and compute items of a queue that are urgent in its window and whose completion has not been signalled: active or ended in
the engine, or the next to become active (R190, R195). -/
def State.urgentItems (s : State) (q : Nat) : List QItem :=
  let l := (s.queue q).items.filter (fun i => match i.desc with | some d => fieldAt d 0 1 == 1 || fieldAt d 0 1 == 2 | none => false)
  let live (i : QItem) : Bool := i.result.isSome || (match s.gpuItem q i.seq with | some it => it.active | none => false)
  l.filter live ++ (l.filter (fun i => !live i)).take 1

/-- LATCH_EVENT (R193, R195): the window closes; GDLMISS advances for each urgent item not signalled, of a stall that is not frozen. -/
def execLatchEvent (p : Fin 8) (s : State) : Host.Outcome State Fault Refusal :=
  let s := s.begin
  .next (s.guard (bitOf s.gpu.win p) (fun s =>
    let s1 := overN 64 (fun q s =>
      if s.qattr q fGQATTR_DL_EN = 1 ∧ s.qattr q fGQATTR_DL_PIPE = p then
        match s.queueOwner q with
        | some st => if s.stallState st = 2 ∨ s.gpuFrozen st = true then s else s.bumpErrN (rGDLMISS st) (s.urgentItems q).length
        | none => s
      else s) s
    (s1.setGpu (fun g => { g with win := setBitN g.win p false })).gpuKick))

/-- LONG_UNIT (R194): a render tile or the binning of a draw record holds its cluster or slot for more than 1,000 µs. -/
def execLongUnit (res : Fin 14) (s : State) : Host.Outcome State Fault Refusal :=
  let s := s.begin
  .next (match s.unit res with
    | none => s
    | some u => if u.kind = 2 ∨ u.long = true ∨ (u.kind = 0 ∧ res.val < 12) then s else (s.bumpErr rGS_LONG).setUnit res (some { u with long := true }))

end Sys2Proof.Machine
end

