-- ==== Sys2Proof/Machine/Queue.lean ====
section
/-! DEFINITION. Machine/Queue.lean: the queues of stalls: doorbells, admission, chains, items and their completion (R224 to R232). -/
namespace Sys2Proof.Machine

/-- The queue engine's master of queue q (R246). -/
def queueMaster (q : Nat) : Master := ⟨1, q⟩

/-- The block's own offset of a queue slot in the page of a stall (R218). -/
def rQDB (st q : Nat) : Nat := bar0Addr st (0x1000 + 0x20 * q)

def State.queueBase (s : State) (q : Nat) : Nat := s.rd (rQBASE_LO q) fQBASE_LO_ADDR * 64 + 2 ^ 32 * s.rd (rQBASE_HI q) fQBASE_HI_ADDR
def State.queuePos (s : State) (q : Nat) : Nat := s.rd (rQPOS_LO q) fQPOS_LO_ADDR + 2 ^ 32 * s.rd (rQPOS_HI q) fQPOS_HI_ADDR
def State.setQueuePos (s : State) (q a : Nat) : State := (s.wr (rQPOS_LO q) fQPOS_LO_ADDR a).wr (rQPOS_HI q) fQPOS_HI_ADDR (a / 2 ^ 32)
def State.qtail (s : State) (q : Nat) : Nat := s.rd (rQTAIL q) fQTAIL_TAIL
def State.qhead (s : State) (q : Nat) : Nat := s.rd (rQHEAD q) fQHEAD_HEAD
def State.qdone (s : State) (q : Nat) : Nat := s.rd (rQDONE q) fQDONE_DONE
def State.qchain (s : State) (q : Nat) : Bool := s.on (rQCFG q) fQCFG_MODE
def State.qsize (s : State) (q : Nat) : Nat := 2 ^ s.rd (rQCFG q) fQCFG_SIZE_LOG2

/-! ### Doorbells (R228, R229) -/

/-- A doorbell of stall st on queue q. -/
def State.doorbell (s : State) (st q t : Nat) : State :=
  if s.qchain q then
    let x := s.queue q
    let parked := x.run == .running && !x.next && !x.linking
    s.modQueue q (fun x =>
      if parked && x.unread then { x with dbSeen := true, next := true, unread := false }
      else if parked then { x with dbSeen := false, linking := true }
      else { x with dbSeen := true })
  else if since32 t (s.qtail q) < 2 ^ 31 ∧ since32 t (s.qdone q) ≤ s.qsize q then
    s.wr (rQTAIL q) fQTAIL_TAIL t
  else (s.refuse (rQDB st q)).bumpErr (rQREFUSED q)

/-- DOORBELL. (DEDUCED, log entry 32) -/
def execDoorbell (st : Fin 16) (q : Fin 64) (w : W32) (s : State) : Host.Outcome State Fault Refusal :=
  .next (s.begin.write (.stall st) (rQDB st q) (fun s => s.doorbell st q w.toNat))

/-! ### Enable, disable, base (R232, R245) -/

/-- A queue runs on from QHEAD or QPOS (R232); one that parked and has had a doorbell since reads on, as R229 says of a doorbell. -/
def resumeQueue (chain : Bool) (x : QueueSt) : QueueSt :=
  let rung := chain && !x.next && !x.linking && x.dbSeen
  { x with run := .running, next := x.next || (rung && x.unread), linking := x.linking || (rung && !x.unread), unread := x.unread && !rung
           dbSeen := x.dbSeen && !rung }

/-- A STOPPING queue with nothing left is STOPPED; with EN = 1 again it runs on, if its stall runs. -/
def State.queueSettle (s : State) (q : Nat) : State :=
  let x := s.queue q
  if x.run == .stopping && x.items.isEmpty then
    let live := match s.queueOwner q with | some st => s.stallState st == 1 || s.stallState st == 2 | none => false
    s.modQueue q (fun x => if live && s.on (rQCFG q) fQCFG_EN then resumeQueue (s.qchain q) x else { x with run := .stopped })
  else s

/-- QCFG: a clear of EN is a request; EN in STOPPED resumes from QHEAD or QPOS while the stall runs; MODE and SIZE_LOG2 change only in
STOPPED. -/
def State.wrQcfg (s : State) (q : Nat) (w : W64) : State :=
  let x := s.queue q
  let was := s.on (rQCFG q) fQCFG_EN
  let s1 := s.settingWrite (rQCFG q) w (x.run == .stopped) false
  let now := s1.on (rQCFG q) fQCFG_EN
  let live := match s.queueOwner q with | some st => s.stallState st == 1 || s.stallState st == 2 | none => false
  if was && !now && x.run == .running then (s1.modQueue q (fun x => { x with run := .stopping })).queueSettle q
  else if now && x.run == .stopped && live then s1.modQueue q (resumeQueue (s1.qchain q))
  else s1

/-- QUEUE_DISABLE. -/
def execQueueDisable (who : Who) (q : Fin 64) (s : State) : Host.Outcome State Fault Refusal :=
  .next (s.begin.write who (rQCFG q) (fun s => s.wrQcfg q (putFld (s.rw (rQCFG q)) fQCFG_EN 0)))

/-- QUEUE_ENABLE. -/
def execQueueEnable (who : Who) (q : Fin 64) (s : State) : Host.Outcome State Fault Refusal :=
  .next (s.begin.write who (rQCFG q) (fun s => s.wrQcfg q (putFld (s.rw (rQCFG q)) fQCFG_EN 1)))

/-- A write of QBASE, class S (STOPPED), sets QHEAD, QTAIL and QDONE to 0 and QPOS to QBASE. -/
def State.wrQbase (s : State) (q a : Nat) (w : W64) : State :=
  let s1 := s.settingWrite a w ((s.queue q).run == .stopped) false
  if s1.resp = .refused then s1
  else
    ((((s1.wr (rQHEAD q) fQHEAD_HEAD 0).wr (rQTAIL q) fQTAIL_TAIL 0).wr (rQDONE q) fQDONE_DONE 0).setQueuePos q (s1.queueBase q)).modQueue q
      (fun x => { x with next := true, unread := false, linking := false, dbSeen := false })

/-- QBASE_WRITE. -/
def execQbaseWrite (who : Who) (q : Fin 64) (high : Bool) (w : W32) (s : State) : Host.Outcome State Fault Refusal :=
  let a := if high then rQBASE_HI q else rQBASE_LO q
  .next (s.begin.write who a (fun s => s.wrQbase q a (wide w)))

/-- Items of a queue are squashed: they write nothing, and SQUASHED of the stall counts them (R226, R232, R239, R246). Raster units cut
short take their times from outside. -/
def State.queueSquash (s : State) (q : Nat) (times : List UnitTime) : State :=
  let n := (s.queue q).items.length
  let s1 := s.gpu.items.foldl (fun s it => if it.q = q then
    (if it.active then (s.cutUnits it.q it.seq times).endItem it rcSQUASHED
     else s.endItem it rcSQUASHED) else s) s
  let s2 := s1.dmSquash (fun w => decide (w.owner < 16) && w.q == q)
  let s3 := match s2.queueOwner q with | some st => s2.bumpErrN (rSQUASHED st) n | none => s2
  (s3.modQueue q (fun x => { x with items := [] })).gpuKick

/-- QUEUE_DISABLE_LIMIT (R232): DRAIN_US after a disable. -/
def execQueueDisableLimit (q : Fin 64) (times : List UnitTime) (s : State) : Host.Outcome State Fault Refusal :=
  let s := s.begin
  .next (s.guard ((s.queue q).run == .stopping) (fun s => (s.queueSquash q times).queueSettle q))

/-! ### Admission (R225, R228, R229, R231) -/

/-- The queue of a stall that admits next: round-robin in queue-number order after the last, among running queues with a descriptor to take
in whose engine is not frozen. -/
def State.admitNext (s : State) (st : Nat) : Option Nat :=
  let first := storeGet (fun _ => 0) s.admitted st
  ((List.range 64).map (fun i => (first + i) % 64)).find? (fun q =>
    s.queueOwner q == some st && (s.queue q).run == .running && s.queueHas q && !s.masterFrozen st 1 q)

/-- A read of n bytes for a queue engine: a violation is recorded; `none` after it; an error response gives `some none`. Host memory
answers from outside. (DEDUCED, log entry 40) -/
def State.queueRead (s : State) (st q a n : Nat) (host : Option (List Byte)) : State × Option (Option (List Byte)) :=
  match s.gateCheck st a false true with
  | (s1, .host _) => (s1, some host)
  | (s1, .viol r) => (s1.violate st 1 r q a false, none)
  | (s1, .phys p) => match s1.memLoad p n with | (s2, b) => (s2, some b)

/-- DESCRIPTOR_FETCHED: while the stall is ACTIVE and below its limit, its next queue's descriptor is admitted; a fetch that violates
admits nothing, and is made again after the thaw; one with an error response is admitted and will end with DESC_RANGE. A CHAIN
queue then issues its LINK-word read. (DEDUCED, log entry 32) -/
def execDescriptorFetched (st : Fin 16) (host : Option (List Byte)) (s : State) : Host.Outcome State Fault Refusal :=
  let s := s.begin
  .next (if s.running = false ∨ s.stallState st ≠ 1 ∨ s.admitMax st ≤ s.outstanding st then s
    else match s.admitNext st with
      | none => s
      | some q =>
        let a := if s.qchain q then s.queuePos q else (s.queueBase q + 64 * (s.qhead q % s.qsize q)) % 2 ^ 64
        match s.queueRead st q a 64 host with
        | (s1, none) => s1
        | (s1, some d) =>
          let seq := s1.qhead q
          let s2 := ({ s1 with admitted := storePut (fun _ => 0) s1.admitted st ((q + 1) % 64) }).wr (rQHEAD q) fQHEAD_HEAD (seq + 1)
          s2.modQueue q (fun x =>
            let y : QueueSt := { x with items := x.items ++ [{ seq := seq, addr := a, desc := d }] }
            if s.qchain q then { y with next := false, linking := true, dbSeen := false } else y))

/-- LINK_WORD_READ (R229): END = 0 follows LINK; END = 1 parks, or reads the word again at once if DB_SEEN is set. A read with an error
response parks. (DEDUCED, log entry 32) -/
def execLinkWordRead (q : Fin 64) (served : Served) (s : State) : Host.Outcome State Fault Refusal :=
  let s := s.begin
  .next (match s.queueOwner q with
    | none => s
    | some st =>
      if !(s.queue q).linking || s.masterFrozen st 1 q || s.stallState st = 4 then s
      else
        let a := (s.queuePos q + 0x38) % 2 ^ 64
        let host : Option (List Byte) := match served with | .word v => some (bytesLE 8 v.toNat) | _ => none
        match s.queueRead st q a 8 host with
        | (s1, none) => s1
        | (s1, some b) =>
          let w : Nat := match served, b with
            | .word v, _ => v.toNat
            | .now, some b => ofBytesLE b
            | _, _ => 1
          if w % 2 = 0 then (s1.setQueuePos q (w / 64 * 64)).modQueue q (fun x => { x with linking := false, next := true })
          else s1.modQueue q (fun x => if x.dbSeen then { x with dbSeen := false } else { x with linking := false }))

/-! ### Items (R224 to R226) -/

def qKind (d : List Byte) : Nat := fieldAt d 0 1
def qFlag (d : List Byte) (i : Nat) : Bool := bitOf (fieldAt d 1 1) i
def qParam (d : List Byte) : Nat := fieldAt d 0x18 4
/-- The layers of a COMMIT item. -/
def qLayers (d : List Byte) : List Nat := (List.range 8).filter (bitOf (qParam d / 256 % 256))

/-- The checks of a descriptor of stall st (R224). -/
def State.queueDescOk (s : State) (st q : Nat) (d : List Byte) : Bool :=
  decide (qKind d ≤ 4) && decide (fieldAt d 1 1 < 16) && decide (fieldAt d 2 1 < 64 ∧ fieldAt d 3 1 < 64) && zeroAt d 0x1C 20 &&
  (!s.qchain q || decide (fieldAt d 0x38 1 / 2 % 32 = 0)) &&
  (match qKind d with
    | 3 => decide (qParam d < 32) && bitOf (s.rw (rGDM st)).toNat (qParam d)
    | 4 => decide (fieldAt d 0x10 8 = 0 ∧ qParam d < 65536 ∧ qParam d / 8 % 32 = 0 ∧ qLayers d ≠ []) &&
        (qLayers d).all (fun m => s.layerGranted st (qParam d % 8) m)
    | 0 => decide (fieldAt d 0x10 8 = 0 ∧ qParam d = 0)
    | _ => decide (qParam d = 0))

/-- An item starts: its descriptor is checked; the work is handed on, or is done at once (R225). A write to a pipe that the WORLD_MAP
gives to the trusted world is a violation of the queue engine (R494). (DESIGN CHOICE, log entry 107) -/
def State.startQItem (s : State) (st q : Nat) (i : QItem) (d : List Byte) : State :=
  let s1 := s.modQueue q (fun x => { x with items := x.items.map (fun j => if j.seq = i.seq then { j with started := true } else j) })
  match qKind d with
  | 1 | 2 =>
    let it : WorkItem := { st := st, q := q, seq := i.seq, compute := qKind d == 2, work := fieldAt d 0x10 8 }
    (s1.setGpu (fun g => { g with items := g.items ++ [it] })).gpuKick
  | 3 => s1.dmSubmit st q i.seq (qParam d) (fieldAt d 0x10 8)
  | 4 =>
    let p := qParam d % 8
    let s2 := (qLayers d).foldl (fun s m =>
      match s.worldCheck (rCOMMIT p m) true with
      | .viol _ r => s.violate st 1 r q ((barOffset st (rCOMMIT p m)).getD 0) true
      | _ => if s.islandOn (3 + p) then s.wrCommit p m (wBit 0 fCOMMIT_COMMIT) else s.refuseOff (rCOMMIT p m) true) s1
    (s2.setResult q i.seq rcDONE).answer .none
  | _ => s1.setResult q i.seq rcDONE

/-- ITEM_START: the oldest item that has not started, once its wait fence is reached and the previous item of its queue has completed;
the binning of a pass with OVERLAP = 1 does not wait for that (R157). (DEDUCED, log entry 32) -/
def execItemStart (q : Fin 64) (s : State) : Host.Outcome State Fault Refusal :=
  let s := s.begin
  .next (match s.queueOwner q with
    | none => s
    | some st =>
      if (s.stallState st ≠ 1 ∧ s.stallState st ≠ 3) ∨ s.masterFrozen st 1 q = true then s
      else match (s.queue q).items.find? (fun i => !i.started) with
        | none => s
        | some i =>
          let first := s.prevDone q i.seq
          let bad (s : State) : State :=
            (s.modQueue q (fun x => { x with items := x.items.map (fun j => if j.seq = i.seq then { j with started := true } else j) })).setResult
              q i.seq rcDESC_RANGE
          match i.desc with
          | none => if first then bad s else s
          | some d =>
            if s.queueDescOk st q d = false then (if first then bad s else s)
            else if qFlag d 0 && !fenceReached (s.fence st (fieldAt d 2 1)) (fieldAt d 4 4) then s
            else if first then s.startQItem st q i d
            else if qKind d = 1 ∧ fieldAt d 0x10 8 % 64 = 0 ∧ s.gpuFrozen st = false then
              match s.stallLoad st gpuMaster (fieldAt d 0x10 8 + 6) 2 with
              | (s1, b) => if bitOf (ofBytesLE (b.getD [])) 1 then s1.startQItem st q i d else s1
            else s)

/-- WORK_ITEM_END (R226): COMPL into the descriptor, the fence, QDONE, the interrupt, in this order. A violation at COMPL freezes the
queue engine, and the rest follows after the thaw. A SIG_IDX out of range names no fence of the stall's table, and none is written (R240). -/
def execWorkItemEnd (q : Fin 64) (s : State) : Host.Outcome State Fault Refusal :=
  let s := s.begin
  .next (match s.queueOwner q, (s.queue q).items with
    | some st, i :: l =>
      (match i.result with
        | none => s
        | some r =>
          if s.masterFrozen st 1 q then s
          else
            let a := (i.addr + 0x30) % 2 ^ 64
            let b := bytesLE 4 (2 ^ 31 + r % 256) ++ bytesLE 4 0
            let s1 := if i.compl then s
              else match s.gateCheck st a true true with
                | (s1, .host h) => s1.emit (.hostWrite st h b)
                | (s1, .viol v) => s1.violate st 1 v q a true
                | (s1, .phys p) => (s1.memStore p b).1
            if s1.masterFrozen st 1 q then s1.modQueue q (fun x => { x with items := { i with compl := true } :: l })
            else
              let d := i.desc.getD []
              let s2 := if qFlag d 1 && (r == 0 || qFlag d 2) && decide (fieldAt d 3 1 < 64) then s1.setFence st (fieldAt d 3 1) (fieldAt d 8 4) else s1
              let s3 := (s2.wr (rQDONE q) fQDONE_DONE (s2.qdone q + 1)).bumpEv (rQITEMS q) 1
              let s4 := s3.modQueue q (fun x => { x with items := l })
              let s5 := if qFlag d 3 then s4.irq st q else s4
              (s5.queueSettle q).gpuKick)
    | _, _ => s)

end Sys2Proof.Machine
end

