-- ==== Sys2Proof/Machine/Stall.lean ====
section
/-! DEFINITION. Machine/Stall.lean: the life of a stall: creation, start, freeze and thaw, drain, squash, reset, destruction; the owner
tables; its interrupts and mailbox (R203 to R223, R233 to R246). -/
namespace Sys2Proof.Machine

/-- The stall entry's pages: SCTRL and its neighbours by stall; S0's GADM stands apart. -/
def rGadm (st : Nat) : Nat := if st = 0 then rGADM0 else rGADM (st - 1)

/-! ### Functions and grants (R203, R204, R207, R208) -/

/-- The stall bound to a function; a FREE stall is bound to none. -/
def State.boundStall (s : State) (ep fn : Nat) : Option Nat :=
  (List.range 16).find? (fun st => s.stallState st != 0 && s.binding st == (ep, fn))

/-- The class-S grant words of a stall. -/
def grantRegs (st : Nat) : List Nat :=
  [rGQ_LO st, rGQ_HI st, rGL_LO st, rGL_HI st, rGDM st, rGAUD st, rGMISC st, rGPIPE st]

/-- Does a grant word of one stall hold a resource that another stall, not FREE, has (R208 check 0x2)? -/
def State.grantConflict (s : State) (st k : Nat) (w : W64) : Bool :=
  (List.range 16).any (fun t => t != st && s.stallState t != 0 && (s.rw ((grantRegs t).getD k 0) &&& w) != 0)

/-- The translation table of a stall: its first and last 2 MiB page (R213). -/
def State.tablePages (s : State) (st : Nat) : List Nat :=
  let base := 2 ^ 16 * s.rd (rTCTX_LO st) fTCTX_LO_BASE + 2 ^ 32 * s.rd (rTCTX_HI st) fTCTX_HI_BASE
  let size := 8192 * 2 ^ s.rd (rTCTX_LO st) fTCTX_LO_SAS
  (List.range ((base + size - 1) / 2 ^ 21 - base / 2 ^ 21 + 1)).map (fun i => base / 2 ^ 21 + i)

/-- Does an enabled pitch that its owner names, as written or in force, belong to a stall (R208 check 0x6)? -/
def State.pitchNames (s : State) (st : Nat) : Bool :=
  (List.range 8).any (fun p => (List.range 16).any (fun k =>
    pcfgOwner (s.rw (rPCFG p k)) == some st || pcfgOwner (s.frw (rPCFG p k)) == some st))

/-- The checks of CREATE in their order: the code of the first that fails, or 0 (R208). (DEDUCED, log entry 33) -/
def State.createCheck (s : State) (st : Nat) : Nat :=
  let bind := s.binding st
  if s.stallState st ≠ 0 ∨ st = 0 then 1
  else if (List.range 8).any (fun k => s.grantConflict st k (s.rw ((grantRegs st).getD k 0))) then 2
  else if bind == (s.mgrEp, 0) || (s.boundStall bind.1 bind.2).isSome then 3
  else if (s.tablePages st).any (fun n => decide (16384 ≤ n) || s.ownDram n != 0) then 4
  else if s.rd (rGadm st) fGADM_NVEC = 0 ∨ 64 < s.rd (rGadm st) fGADM_NVEC ∨ s.rd (rGadm st) fGADM_ADMIT_MAX = 0 then 5
  else if s.pitchNames st then 6
  else 0

/-! ### Violation record and frozen masters (R235, R237, R241) -/

/-- The record is cleared. -/
def State.clearRecord (s : State) (st : Nat) : State :=
  ((((s.wr (rSSTAT st) fSSTAT_VREC_VALID 0).wr (rSSTAT st) fSSTAT_VREC_READ 0).setRw (rVKIND st) 0).setRw (rVADDR_LO st) 0).setRw
    (rVADDR_HI st) 0

/-- The frozen masters of a stall are released. -/
def State.thawMasters (s : State) (st : Nat) : State := { s with frozen := s.frozen.filter (fun f => f.1 != st) }

/-! ### Commands of SCTRL (R208, R211, R217, R237, R437) -/

/-- CREATE: refused before SERVICE_UP, where only S0 exists (R438). (DEDUCED, log entry 33) -/
def State.stallCreate (s : State) (st : Nat) : State :=
  if s.dstate < 3 then s.refuse (rSCTRL st)
  else
  let e := s.createCheck st
  let s1 := s.wr (rSSTAT st) fSSTAT_CREATE_ERR e
  if e = 0 then s1.toStall st 4 else if e = 1 then s1.refuse (rSCTRL st) else s1

/-- A touch panel beyond its registers. -/
def panelDflt (_ : Nat) : PanelSt := {}
def State.panel (s : State) (p : Nat) : PanelSt := storeGet panelDflt s.panels p
def State.modPanel (s : State) (p : Nat) (f : PanelSt → PanelSt) : State :=
  { s with panels := storePut panelDflt s.panels p (f (s.panel p)) }

/-- A touch panel's configuration and status. -/
def tpCfg (p : Nat) : Nat := rTP_CFG (p / 2) (p % 2)
def tpStat (p : Nat) : Nat := rTP_STAT (p / 2) (p % 2)
def State.tpOn (s : State) (p : Nat) : Bool := s.on (tpCfg p) fTP_CFG_EN

/-- FE_EVT takes the bit of a panel, in a field. -/
def State.feEvt (s : State) (p : Nat) (f : Fld) : State :=
  (s.wr (rFE_EVT (p / 2)) f (setBitN (s.rd (rFE_EVT (p / 2)) f) (p % 2) true)).showIrq s (0x30 + p / 2)

/-- An access to a panel's ring that the gate refuses ends its reports (R358). -/
def State.ringRefused (s : State) (p : Nat) : State :=
  (s.wr (tpStat p) fTP_STAT_RING_FAULT 1).feEvt p fFE_EVT_RING

/-- The stall address of a panel's ring. -/
def State.tpRing (s : State) (p : Nat) : Nat :=
  s.rd (rTP_RING_LO (p / 2) (p % 2)) fTP_RING_LO_ADDR * 256 + 2 ^ 32 * s.rd (rTP_RING_HI (p / 2) (p % 2)) fTP_RING_HI_ADDR

/-- WR, RD and DROPS in the header of a panel's ring, in stall `st`. -/
def State.tpRingHeader (s : State) (p st : Nat) : State × Option (Nat × Nat × Nat) :=
  match s.ringLoad st (s.tpRing p) 12 with
  | (s', some b) => (s', some (ofBytesLE (b.take 4), ofBytesLE ((b.drop 4).take 4), ofBytesLE (b.drop 8)))
  | (s', none) => (s', none)

/-- Panels granted to a stall that becomes ACTIVE from RESET read their ring header (R358), unless they write no reports. -/
def State.touchRejoin (s : State) (st : Nat) : State :=
  overN 8 (fun p s =>
    if bitOf (s.rd (rGMISC st) fGMISC_TP) p then
      let s1 := s.modPanel p (fun x => { x with ring := none, rejoin := true })
      if s.tpOn p && !(s.on (tpStat p) fTP_STAT_RING_FAULT) then
        match s1.tpRingHeader p st with
        | (s2, some h) => s2.modPanel p (fun x => { x with ring := some h })
        | (s2, none) => s2.ringRefused p
      else s1
    else s) s

/-- Streams, haptic channels and capture ports beyond their registers. -/
def streamDflt (_ : Nat) : StreamSt := {}
def hapDflt (_ : Nat) : HapSt := {}
def capDflt (_ : Nat) : CapSt := {}
def State.stream (s : State) (i : Nat) : StreamSt := storeGet streamDflt s.streams i
def State.hap (s : State) (h : Nat) : HapSt := storeGet hapDflt s.haps h
def State.cap (s : State) (p : Nat) : CapSt := storeGet capDflt s.caps p
def State.modStream (s : State) (i : Nat) (f : StreamSt → StreamSt) : State :=
  { s with streams := storePut streamDflt s.streams i (f (s.stream i)) }
def State.modHap (s : State) (h : Nat) (f : HapSt → HapSt) : State := { s with haps := storePut hapDflt s.haps h (f (s.hap h)) }
def State.modCap (s : State) (p : Nat) (f : CapSt → CapSt) : State := { s with caps := storePut capDflt s.caps p (f (s.cap p)) }

/-- Rings of a stall that becomes ACTIVE from RESET go on from their header (R364). -/
def State.audioRejoin (s : State) (st : Nat) : State :=
  let s1 := overN 32 (fun i s => if bitOf (s.rw (rGAUD st)).toNat i then s.modStream i (fun x => { x with rd := none }) else s) s
  let s2 := overN 8 (fun h s => if bitOf (s.rd (rGMISC st) fGMISC_HC) h then s.modHap h (fun x => { x with rd := none, cut := none }) else s) s1
  overN 2 (fun p s => if s.rd (rPORT_CFG p) fPORT_CFG_CAP_STALL = st then s.modCap p (fun x => { x with ring := none }) else s) s2

/-- A stall starts: ACTIVE, its interrupts cleared (R221), its record gone (R235), its enabled queues running, a CHAIN queue parked at
QBASE unread (R241). -/
def State.stallGo (s : State) (st : Nat) : State :=
  let s1 := overN 24 (fun i s => s.setRw (rIVEC st i) 0) (overN 3 (fun i s => (s.setRw (rISTAT st i) 0).setRw (rIMASK st i) 0) s)
  let s2 := (((s1.clearRecord st).thawMasters st).wr (rSSTAT st) fSSTAT_RESET_DONE 0).toStall st 1
  (overN 64 (fun q s =>
    if s.queueOwner q = some st ∧ s.on (rQCFG q) fQCFG_EN = true then
      let s' := s.modQueue q (fun x => { x with run := .running, next := !(s.qchain q), unread := s.qchain q, linking := false, dbSeen := false })
      if s.qchain q then s'.setQueuePos q (s'.queueBase q) else s'
    else s) ((s2.touchRejoin st).audioRejoin st)).gpuKick

/-- START: from RESET; refused before OPERATIONAL and DEGRADED for S1 to S15 (R437, R438). (DEDUCED, log entry 33) -/
def State.stallStart (s : State) (st : Nat) : State :=
  if s.stallState st = 4 ∧ st ≠ 0 ∧ 4 ≤ s.dstate then s.stallGo st else s.refuse (rSCTRL st)

/-- A stall enters DRAINING, for a cause of R211: its queues stop admitting, its pending commits are dropped, and frozen work goes on (R238), but for that of
data-mover channels, which stay frozen (R338). An FLR while it drains makes the cause 0x1 (R243). (DEDUCED, log entry 32; DESIGN CHOICE, log entries 34, 107) -/
def State.stallDrain (s : State) (st cause : Nat) : State :=
  if s.stallState st = 3 then (if cause = 1 then s.wr (rSSTAT st) fSSTAT_CAUSE 1 else s)
  else if s.stallState st = 1 ∨ s.stallState st = 2 then
    let s1 := ((s.wr (rSSTAT st) fSSTAT_CAUSE cause).bumpEv (rRESETS st) 1).dropStallCommits st
    let s2 := overN 64 (fun q s =>
      if s.queueOwner q = some st ∧ (s.queue q).run = .running then s.modQueue q (fun x => { x with run := .stopping }) else s) s1
    ({ s2 with frozen := s2.frozen.filter (fun f => f.1 != st || f.2.1 == 3) }.toStall st 3).gpuKick
  else s

/-- RESET; written by the keeper it is the keeper's request, which S0 takes too (R211). (DESIGN CHOICE, log entry 34) -/
def State.stallReset (s : State) (who : Who) (st : Nat) : State :=
  if s.stallState st = 1 ∨ s.stallState st = 2 then
    if who = .keeper then s.stallDrain st 4 else if st ≠ 0 then s.stallDrain st 0 else s.refuse (rSCTRL st)
  else s.refuse (rSCTRL st)

/-- THAW: only while FROZEN with the record read; every frozen master goes on. -/
def State.stallThaw (s : State) (st : Nat) : State :=
  if st ≠ 0 ∧ s.stallState st = 2 ∧ s.on (rSSTAT st) fSSTAT_VREC_READ = true then
    (((s.wr (rSSTAT st) fSSTAT_VREC_VALID 0).wr (rSSTAT st) fSSTAT_VREC_READ 0).thawMasters st).toStall st 1 |>.dmThawed |>.gpuKick
  else s.refuse (rSCTRL st)

/-- The words of an owner table that are not at their reset value, with the number of their first entry. -/
def State.ownerWords (s : State) (sram : Bool) : List (Nat × W64) :=
  let base := if sram then rOWN_SRAM 0 else rOWN_DRAM 0
  let n := if sram then 768 else 16384
  (s.regs.filter (fun p => decide (base ≤ p.1 ∧ p.1 < base + n))).map (fun p => (p.1 - base, p.2))

/-- The entries of a table that hold an owner code (not FREE). -/
def State.ownedBy (s : State) (sram : Bool) (code : Nat) : List Nat :=
  (s.ownerWords sram).flatMap (fun p => (List.range 4).filterMap (fun j =>
    if p.2.toNat / 2 ^ (8 * j) % 256 = code then some (p.1 + j) else none))

def State.setOwner (s : State) (sram : Bool) (n code : Nat) : State := if sram then s.setOwnSram n code else s.setOwnDram n code

/-- DESTROY: from RESET; every entry of the stall becomes CLEARING. (DEDUCED, log entry 33) -/
def State.stallDestroy (s : State) (st : Nat) : State :=
  if st ≠ 0 ∧ s.stallState st = 4 then
    let l := (s.ownedBy true st).map (fun g => (st, true, g)) ++ (s.ownedBy false st).map (fun n => (st, false, n))
    let s1 := l.foldl (fun s e => s.setOwner e.2.1 e.2.2 ownCLEARING) s
    (({ s1 with clearing := s1.clearing ++ l }).wr (rSSTAT st) fSSTAT_RESET_DONE 0).toStall st 5
  else s.refuse (rSCTRL st)

/-- SCTRL: several command bits of one write act in the order CREATE, RESET, THAW, START, DESTROY (R243: RESET before THAW). (DEDUCED, log entry 14) -/
def State.wrSctrl (s : State) (who : Who) (st : Nat) (w : W64) : State :=
  let act (f : Fld) (k : State → Nat → State) (s : State) : State := if getFld w f = 1 then k s st else s
  act fSCTRL_DESTROY State.stallDestroy (act fSCTRL_START State.stallStart (act fSCTRL_THAW State.stallThaw (act fSCTRL_RESET
    (fun s => s.stallReset who) (act fSCTRL_CREATE State.stallCreate s))))

/-- CREATE, START, RESET, DESTROY, THAW. -/
def execCreate (who : Who) (st : Fin 16) (s : State) : Host.Outcome State Fault Refusal :=
  .next (s.begin.write who (rSCTRL st) (fun s => s.wrSctrl who st (wBit 0 fSCTRL_CREATE)))
def execStallStart (who : Who) (st : Fin 16) (s : State) : Host.Outcome State Fault Refusal :=
  .next (s.begin.write who (rSCTRL st) (fun s => s.wrSctrl who st (wBit 0 fSCTRL_START)))
def execStallReset (who : Who) (st : Fin 16) (s : State) : Host.Outcome State Fault Refusal :=
  .next (s.begin.write who (rSCTRL st) (fun s => s.wrSctrl who st (wBit 0 fSCTRL_RESET)))
def execDestroy (who : Who) (st : Fin 16) (s : State) : Host.Outcome State Fault Refusal :=
  .next (s.begin.write who (rSCTRL st) (fun s => s.wrSctrl who st (wBit 0 fSCTRL_DESTROY)))
def execThaw (who : Who) (st : Fin 16) (s : State) : Host.Outcome State Fault Refusal :=
  .next (s.begin.write who (rSCTRL st) (fun s => s.wrSctrl who st (wBit 0 fSCTRL_THAW)))

/-! ### PCIe events (R211, R242) -/

/-- FUNCTION_LEVEL_RESET: the bound stall drains with CAUSE 0x1 and starts again after RESET_DONE; the function's MSI-X table is masked
again, and MSI-X disabled, as PCIe resets it. (PRESUMED, log entry 35) -/
def execFunctionLevelReset (ep : Fin 2) (fn : Fin 16) (s : State) : Host.Outcome State Fault Refusal :=
  let s := s.begin
  let s := s.guard s.running (fun s => s.setFnCfg ep fn {})
  .next (match if s.running then s.boundStall ep fn else none with
    | none => s
    | some st =>
      let s1 := overN 64 (fun v s => (((s.setRw (rMSIX st (4 * v)) 0).setRw (rMSIX st (4 * v + 1)) 0).setRw (rMSIX st (4 * v + 2)) 0).setRw
        (rMSIX st (4 * v + 3)) 1) s
      (((s1.setRw (rPBA st 0) 0).setRw (rPBA st 1) 0)).stallDrain st 1)

/-- VF_ENABLE_CLEARED: every stall bound to a VF of the endpoint drains. -/
def execVfEnableCleared (ep : Fin 2) (s : State) : Host.Outcome State Fault Refusal :=
  .next (overN 16 (fun st s =>
    if s.running ∧ st ≠ 0 ∧ s.stallState st ≠ 0 ∧ (s.binding st).1 = ep ∧ 1 ≤ (s.binding st).2 then s.stallDrain st 2 else s) s.begin)

/-- BUS_MASTER_ENABLE_CLEARED: the bound stall drains; S0 reaches DRAINING only through an FLR or the keeper. -/
def execBusMasterEnableCleared (ep : Fin 2) (fn : Fin 16) (s : State) : Host.Outcome State Fault Refusal :=
  let s := s.begin
  .next (match if s.running then s.boundStall ep fn else none with
    | none => s
    | some st => if st = 0 then s else s.stallDrain st 3)

/-! ### Squash and RESET_DONE (R239 to R241) -/

/-- Is any item of the stall in an engine? -/
def State.stallBusy (s : State) (st : Nat) : Bool :=
  s.outstanding st != 0 || s.gpu.items.any (fun it => it.st == st) ||
    (List.range 32).any (fun n => match (s.ch n).cur with | some w => w.owner == st | none => false)

/-- DRAIN_LIMIT (R239): DRAIN_US after the entry, or when nothing remains: what remains is squashed, and the gate drops the stall's writes
from here on. -/
def execDrainLimit (st : Fin 16) (times : List UnitTime) (s : State) : Host.Outcome State Fault Refusal :=
  let s := s.begin
  .next (s.guard (s.running && s.stallState st == 3 && !bitOf s.squashed st) (fun s =>
    let s1 := overN 64 (fun q s => if s.queueOwner q = some st.val then s.queueSquash q times else s) s
    let s2 := s1.dmSquash (fun w => w.owner == st.val)
    { s2 with squashed := setBitN s2.squashed st true }))

/-- RESET_DONE (R241): fences, queues and record are reset; the stall's layers are disabled at each pipe's next latch point; contexts
take INIT (R332); the credit is 0 until the next epoch (R199). After an FLR, and for S0, START follows at once (R211). -/
def State.resetDone (s : State) (st : Nat) : State :=
  let s1 := overN 64 (fun f s => s.setFence st f 0) s
  let s2 := overN 64 (fun q s =>
    if s.queueOwner q = some st then
      ((((s.wr (rQHEAD q) fQHEAD_HEAD 0).wr (rQTAIL q) fQTAIL_TAIL 0).wr (rQDONE q) fQDONE_DONE 0).setQueuePos q (s.queueBase q)).modQueue q
        (fun _ => {})
    else s) s1
  let s3 := overN 8 (fun p s => (List.range 8).foldl (fun s m =>
    if s.layerGranted st p m then s.modPipe p (fun x => { x with disable := setBitN x.disable m true }) else s) s) s2
  let s4 := (((s3.clearRecord st).thawMasters st).cvStallReset st).setCredit st 0
  let s5 := ({ s4 with squashed := setBitN s4.squashed st false }).wr (rSSTAT st) fSSTAT_RESET_DONE 1
  let s6 := s5.toStall st 4
  if st = 0 ∨ s6.rd (rSSTAT st) fSSTAT_CAUSE = 1 then s6.stallGo st else s6

/-- RESET_DONE. -/
def execResetDone (st : Fin 16) (s : State) : Host.Outcome State Fault Refusal :=
  let s := s.begin
  .next (s.guard (s.running && s.stallState st == 3 && bitOf s.squashed st && !s.stallBusy st) (fun s => s.resetDone st))

/-- The device writes zeros over a grain: whole words are written, so their errors go and their content is defined (R308). -/
def State.zeroGrain (s : State) (n : Nat) : State :=
  let lo := 0x10000 * n
  let s1 : State := { s with ecc := s.ecc.filter (fun p => decide (8 * p.1 < sramBase + lo ∨ sramBase + lo + 0x10000 ≤ 8 * p.1))
                             msr := { s.msr with mixed := s.msr.mixed.filter (fun g => g != n) } }
  s1.sramKeep (fun a => decide (a < lo ∨ lo + 0x10000 ≤ a))

/-- Zeros over a DRAM page: in a region with ECC with the check bytes of its words (R297, R299); what maps to a fenced channel is discarded (R288). -/
def State.zeroPage (s : State) (n : Nat) : State :=
  let lo := 0x200000 * n
  let region := lo / 2 ^ 28 * 2 ^ 28
  let check := region + eccData + lo % 2 ^ 28 / 8
  let inPage (a : Nat) : Bool := decide (lo ≤ a ∧ a < lo + 0x200000) && !(s.dramFenced a)
  let inCheck (a : Nat) : Bool := s.regionEcc lo && decide (lo % 2 ^ 28 < eccData) && decide (check ≤ a ∧ a < check + 0x40000) &&
    !(s.dramFenced a) && inPage (region + 8 * (a - region - eccData))
  let s1 : State := { s with ecc := s.ecc.filter (fun p => !(isDram (8 * p.1) && inPage (dramOff (8 * p.1)))) }
  s1.dramKeep (fun a => !(inPage a || inCheck a))

/-- The device writes zeros over a grain or a page. -/
def State.zeroOwned (s : State) (sram : Bool) (n : Nat) : State := if sram then s.zeroGrain n else s.zeroPage n

/-- The registers of a queue. -/
def queueRegs (q : Nat) : List Nat :=
  [rQCFG q, rQBASE_LO q, rQBASE_HI q, rQTAIL q, rQHEAD q, rQDONE q, rQSTAT q, rQPOS_LO q, rQPOS_HI q]

/-- The last entry of a destroyed stall is clear: it becomes FREE, its grants return to the pool, its queues and fences are zeroed,
SEALED clears (R217). -/
def State.stallFreed (s : State) (st : Nat) : State :=
  let s1 := overN 64 (fun q s =>
    if s.queueOwner q = some st then ((queueRegs q).foldl (fun s a => s.setRw a 0) s).modQueue q (fun _ => {}) else s) s
  let s2 := overN 64 (fun f s => s.setFence st f 0) s1
  let s3 := (grantRegs st).foldl (fun s a => s.setRw a 0) s2
  (((s3.wr (rGadm st) fGADM_NVEC 0).wr (rSCFG st) fSCFG_SEALED 0)).toStall st 0

/-- CLEARING_DONE (R217; R216 for a unit's grains, st = 16): what was being cleared is zeroed and FREE. (DEDUCED, log entry 36) -/
def execClearingDone (st : Fin 17) (s : State) : Host.Outcome State Fault Refusal :=
  let s := s.begin
  .next (
    let l := if s.works then s.clearing.filter (fun e => e.1 == st.val) else []
    let s1 := l.foldl (fun s e => (s.zeroOwned e.2.1 e.2.2).setOwner e.2.1 e.2.2 ownFREE)
      { s with clearing := s.clearing.filter (fun e => e.1 != st.val) }
    if st.val < 16 ∧ s.stallState st = 5 then s1.stallFreed st else s1)

/-! ### Translations and owner tables (R215, R216) -/

/-- TINV names entries of a stall by stall address bits 35:16, or with ALL every one. -/
def State.wrTinv (s : State) (w : W64) : State :=
  if getFld w fTINV_GO = 0 then s
  else if s.on rTINV_STAT fTINV_STAT_BUSY then s.refuse rTINV
  else
    let st := getFld w fTINV_STALL
    let key := 2 ^ 20 * st + getFld w fTINV_SA
    let gone (k : Nat) : Bool := if getFld w fTINV_ALL = 1 then k / 2 ^ 20 == st else k == key
    ({ s with tlb := s.tlb.filter (fun p => !gone p.1) }).wr rTINV_STAT fTINV_STAT_BUSY 1

/-- TINV. (DEDUCED, log entry 39) -/
def execTinv (who : Who) (all : Bool) (st : Fin 16) (sa : BitVec 20) (s : State) : Host.Outcome State Fault Refusal :=
  let w := putFld (putFld (putFld (wBit 0 fTINV_GO) fTINV_ALL (b2n all)) fTINV_STALL st) fTINV_SA sa.toNat
  .next (s.begin.write who rTINV (fun s => s.wrTinv w))

/-- TINV_DONE. (DEDUCED, log entry 39) -/
def execTinvDone (s : State) : Host.Outcome State Fault Refusal := .next (s.begin.wr rTINV_STAT fTINV_STAT_BUSY 0)

/-- A change of one owner entry by the manager: FREE to a stall, FREE to UNIT and UNIT to FREE in SRAM only. The flag says refused. (DEDUCED, log entry 36) -/
def State.wrOwner (s : State) (sram : Bool) (n v : Nat) : State × Bool :=
  let old := if sram then s.ownSram n else s.ownDram n
  if v = old then (s, false)
  else if old = ownFREE ∧ (v < 16 ∨ (sram = true ∧ v = ownUNIT)) then (s.setOwner sram n v, false)
  else if sram = true ∧ old = ownUNIT ∧ v = ownFREE then
    ({ s.setOwner sram n ownCLEARING with clearing := s.clearing ++ [(16, true, n)] }, false)
  else (s, true)

/-- A write of four owner entries, each accepted or refused by itself. (DEDUCED, log entry 36) -/
def State.wrOwners (s : State) (sram : Bool) (i : Nat) (w : W64) : State :=
  let r := (List.range 4).foldl (fun (acc : State × Bool) j =>
    match acc.1.wrOwner sram (4 * i + j) (w.toNat / 2 ^ (8 * j) % 256) with | (s1, bad) => (s1, acc.2 || bad)) (s, false)
  if r.2 then r.1.refuse (if sram then rOWN_SRAM i else rOWN_DRAM i) else r.1

/-- OWNER_TABLE_WRITE: word i of a table; the SRAM table has 192 words, and no word beyond them exists. -/
def execOwnerTableWrite (who : Who) (sram : Bool) (i : Fin 4096) (w : W32) (s : State) : Host.Outcome State Fault Refusal :=
  let s := s.begin
  .next (s.guard (!sram || decide (i.val < 192)) (fun s =>
    s.write who (if sram then rOWN_SRAM i else rOWN_DRAM i) (fun s => s.wrOwners sram i (wide w))))

/-! ### Binding and seal (R204, R209) -/

/-- SCFG: SEALED changes only from world T while FREE or RESET, EP and FUNC only while FREE or RESET, S0's not at all. A stall in RESET is bound: EP and FUNC that
name the manager's function, or one that another stall is bound to, are refused (R204). (DEDUCED, log entry 99) -/
def State.wrScfg (s : State) (who : Who) (st : Nat) (w : W64) : State :=
  let a := rSCFG st
  let bind := (getFld w fSCFG_EP, getFld w fSCFG_FUNC)
  let taken := bind == (s.mgrEp, 0) || (List.range 16).any (fun t => t != st && s.stallState t != 0 && s.binding t == bind)
  let open' := st != 0 && (s.stallState st == 0 || (s.stallState st == 4 && !taken))
  let sv := getFld w fSCFG_SEALED
  let sealBad := sv != s.rd a fSCFG_SEALED && !(st != 0 && (s.stallState st == 0 || s.stallState st == 4) && whoTrusted who)
  let s1 := if open' then (s.wr a fSCFG_EP (getFld w fSCFG_EP)).wr a fSCFG_FUNC (getFld w fSCFG_FUNC) else s
  let s2 := if sealBad then s1 else s1.wr a fSCFG_SEALED sv
  if sealBad || !open' then s2.refuse a else s2

/-- SCFG_WRITE. -/
def execScfgWrite (who : Who) (st : Fin 16) (w : W32) (s : State) : Host.Outcome State Fault Refusal :=
  .next (s.begin.write who (rSCFG st) (fun s => s.wrScfg who st (wide w)))

/-! ### Interrupts and mailbox (R220, R223) -/

/-- IMASK: a bit that becomes 1 while its source is pending sends its message. -/
def State.wrImask (s : State) (st i : Nat) (w : W64) : State :=
  let old := (s.rw (rIMASK st i)).toNat
  let pend := (s.rw (rISTAT st i)).toNat
  let s1 := s.setRw (rIMASK st i) (w.setWidth 32 |>.setWidth 64)
  ((List.range 32).filter (fun b => bitOf w.toNat b && !bitOf old b && bitOf pend b)).foldl
    (fun s b => s.sendMsix st (s.ivec st (32 * i + b))) s1

/-- IMASK_WRITE. -/
def execImaskWrite (st : Fin 16) (i : Fin 3) (w : W32) (s : State) : Host.Outcome State Fault Refusal :=
  .next (s.begin.write (.stall st) (rIMASK st i) (fun s => s.wrImask st i (wide w)))

/-- MB_CTRL: GO sends the request of LEN bytes. -/
def State.wrMbCtrl (s : State) (st : Nat) (w : W64) : State :=
  let len := getFld w fMB_CTRL_LEN
  if s.on (rMB_STAT st) fMB_STAT_BUSY then s.refuse (rMB_CTRL st)
  else if len = 0 ∨ 1024 < len then s.refuse (rMB_CTRL st)
  else if getFld w fMB_CTRL_GO = 0 then s
  else
    let s1 := (s.wr (rMB_STAT st) fMB_STAT_BUSY 1).wr (rMB_STAT st) fMB_STAT_RSP_READY 0
    { s1 with sm := { s1.sm with mbLen := storePut (fun _ => 0) s1.sm.mbLen st len } }

/-- MAILBOX_GO. (DEDUCED, log entry 59) -/
def execMailboxGo (st : Fin 16) (len : BitVec 11) (s : State) : Host.Outcome State Fault Refusal :=
  .next (s.begin.write (.stall st) (rMB_CTRL st) (fun s => s.wrMbCtrl st (putFld (wBit 0 fMB_CTRL_GO) fMB_CTRL_LEN len.toNat)))

/-- The response of the service mailbox: up to 1,024 bytes in MB_RSP; RSP_READY, source 89. (DEDUCED, log entry 59) -/
def State.mbAnswer (s : State) (st : Nat) (bytes : List Byte) : State :=
  let b := bytes.take 1024
  let s1 := overN ((b.length + 3) / 4) (fun i s => s.setRw (rMB_RSP st i) (BitVec.ofNat 64 (ofBytesLE ((b.drop (4 * i)).take 4)))) s
  let s2 := ((s1.wr (rMB_STAT st) fMB_STAT_BUSY 0).wr (rMB_STAT st) fMB_STAT_RSP_READY 1).wr (rMB_STAT st) fMB_STAT_RSP_LEN b.length
  s2.irq st 89

/-- MAILBOX_RESPONSE: the service firmware's answer is ready. -/
def execMailboxResponse (st : Fin 16) (bytes : List Byte) (s : State) : Host.Outcome State Fault Refusal :=
  let s := s.begin
  .next (s.guard (s.running && s.on (rMB_STAT st) fMB_STAT_BUSY) (fun s => s.mbAnswer st bytes))

end Sys2Proof.Machine
end

