-- ==== Sys2Proof/Machine/Device.lean ====
section
/-! DEFINITION. Machine/Device.lean: the device state word, halting, and which class-B settings are locked (R267, R268, R432 to R434). -/
namespace Sys2Proof.Machine

/-- Bits of the device state word (R432). -/
def bitFENCED_BOOT : Nat := 8
def bitFENCED_RUN : Nat := 9
def bitKEEPER_LOST : Nat := 10
def bitWARM : Nat := 11

/-- A bit of the device state word. -/
def State.stateBit (s : State) (i : Nat) : Bool := bitOf (s.rd rDSTATE fDSTATE_STATE_WORD) i
def State.setStateBit (s : State) (i : Nat) (b : Bool) : State :=
  s.wr rDSTATE fDSTATE_STATE_WORD (setBitN (s.rd rDSTATE fDSTATE_STATE_WORD) i b)

/-- A field of BOOT_STAT: in KPR and in its mirror in AON (R268). -/
def State.bootStat (s : State) (f : Fld) (v : Nat) : State := (s.wr rKPR_BOOT_STAT f v).wr rAON_BOOT_STAT f v

/-- An island has no power. -/
def State.powerDown (s : State) (n : Nat) : State := (s.wr (rISL_STAT n) fISL_STAT_PWR 1).wr (rISL_STAT n) fISL_STAT_CUR_STEP 0

/-- The islands of the units that are off in HALTED (R438): pipes, raster engine, memory controllers, touch, audio and haptics. -/
def haltIslands : List Nat := (List.range 17).map (· + 3) ++ [21, 22, 23, 24, 25]

/-- The device halts with an error (R268); its units are off (R438). -/
def State.halt (s : State) (err : Nat) : State :=
  let s1 := haltIslands.foldl (fun s n => s.powerDown n) ((s.bootStat fKPR_BOOT_STAT_ERR err).toDstate 8)
  { (overN 4 (fun ch s => s.wr (rMC_STAT ch) fMC_STAT_STATE 0) s1) with mem := {} }

/-- The first write of SVC_CTRL.RUN has been accepted: the class-B settings outside the WORLD_MAP are locked (R298, R454, R473). -/
def State.runLocked (s : State) : Bool := s.boot.runWritten

/-- The keeper is UP, RESTARTING, LOST (KSTAT.STATE). -/
def kBOOT : Nat := 0
def kUP : Nat := 1
def kRESTARTING : Nat := 2
def kLOST : Nat := 3
def State.kstate (s : State) : Nat := s.rd rKSTAT fKSTAT_STATE

end Sys2Proof.Machine
end

