-- ==== Sys2Proof/Machine/Audio.lean ====
section
/-! DEFINITION. Machine/Audio.lean: haptic channels, TDM ports and the mixer (R362 to R374). -/
namespace Sys2Proof.Machine

/-! ### Owners and rings (R362 to R364) -/

/-- The stall, not FREE, that a stream or a haptic channel is granted to (R207). -/
def State.streamOwner (s : State) (i : Nat) : Option Nat :=
  (List.range 16).find? (fun st => s.stallState st != 0 && bitOf (s.rw (rGAUD st)).toNat i)
def State.hapOwner (s : State) (h : Nat) : Option Nat :=
  (List.range 16).find? (fun st => s.stallState st != 0 && bitOf (s.rd (rGMISC st) fGMISC_HC) h)

/-- Rings are served while the owner is ACTIVE or FROZEN. -/
def State.served (s : State) (o : Option Nat) : Option Nat :=
  match o with
  | some st => if s.stallState st = 1 ∨ s.stallState st = 2 then some st else none
  | none => none

/-- The address that a LO and a HI register hold. -/
def State.ringBase (s : State) (lo hi : Nat) : Nat := s.rd lo fSTR_RING_LO_ADDR * 64 + 2 ^ 32 * s.rd hi fSTR_RING_HI_ADDR

/-- Entries that wait: at most the ring's size (R363). -/
def ringAvail (wr rd size : Nat) : Nat := min size (since32 wr rd)

/-- Little-endian fields of a header or an entry. -/
def fld (b : List Byte) (o n : Nat) : Nat := ofBytesLE ((b.drop o).take n)

/-- Entries of a ring from `rd` on, one read each; `none` as soon as one fails. -/
def State.ringEntries (s : State) (st base size len rd : Nat) : Nat → State × Option (List (List Byte))
  | 0 => (s, some [])
  | n + 1 =>
    match s.ringLoad st (base + 64 + len * (rd % size)) len with
    | (s1, none) => (s1, none)
    | (s1, some b) =>
      match s1.ringEntries st base size len ((rd + 1) % 2 ^ 32) n with
      | (s2, none) => (s2, none)
      | (s2, some l) => (s2, some (b :: l))

/-! ### Enabling (R364, R374) -/

/-- A write of a configuration whose class-S fields change only while `en` is 0, and whose enable needs an owner. -/
def State.wrStrCfg (s : State) (i : Nat) (w : W64) : State :=
  let a := rSTR_CFG i
  let was := s.on a fSTR_CFG_EN
  if getFld w fSTR_CFG_EN = 1 ∧ was = false ∧ (s.streamOwner i).isNone = true then s.refuse a
  else
    let s1 := s.settingWrite a w (!was) false
    if was = false ∧ s1.on a fSTR_CFG_EN = true then (s1.modStream i (fun _ => {})).setRw (rSTR_STAT i) 0
    else if was = true ∧ s1.on a fSTR_CFG_EN = false then
      ((s1.modStream i (fun _ => {})).wr (rSTR_STAT i) fSTR_STAT_PLAYING 0).wr (rSTR_STAT i) fSTR_STAT_UNDER 0
    else s1

/-- T at the nominal frequency, and its bounds (R366). -/
def State.nomHalf (s : State) (h : Nat) : Nat := 1000000 / (2 * s.rd (rHC_CFG h) fHC_CFG_F_NOM)

def State.wrHcCfg (s : State) (h : Nat) (w : W64) : State :=
  let a := rHC_CFG h
  let was := s.on a fHC_CFG_EN
  if getFld w fHC_CFG_EN = 1 ∧ was = false ∧ ((s.hapOwner h).isNone = true ∨ s.dstate < 3) then s.refuse a
  else
    let s1 := s.settingWrite a w (!was) false
    if was = false ∧ s1.on a fHC_CFG_EN = true then
      ((s1.modHap h (fun _ => { half := s1.nomHalf h })).setRw (rHC_STAT h) 0).wr (rHC_STAT h) fHC_STAT_HALF_US (s1.nomHalf h)
    else if was = true ∧ s1.on a fHC_CFG_EN = false then
      let s2 := (s1.modHap h (fun x => { half := x.half })).wr (rHC_STAT h) fHC_STAT_PLAYING 0
      if (s.hap h).seg.isSome then s2.emit (.bridge h .off) else s2
    else s1

/-- PORT_CFG: class S while AUD_CFG.EN = 0; capture needs a stall that is not FREE. -/
def State.wrPortCfg (s : State) (p : Nat) (w : W64) : State :=
  let a := rPORT_CFG p
  if getFld w fPORT_CFG_CAP_EN = 1 ∧ s.stallState (getFld w fPORT_CFG_CAP_STALL) = 0 then s.refuse a
  else
    let s1 := s.settingWrite a w (!s.on rAUD_CFG fAUD_CFG_EN) false
    if s.on a fPORT_CFG_CAP_EN = false ∧ s1.on a fPORT_CFG_CAP_EN = true then s1.modCap p (fun _ => {}) else s1

/-- AUD_CFG: EN is refused before SERVICE_UP (R438). -/
def State.wrAudCfg (s : State) (w : W64) : State :=
  let was := s.on rAUD_CFG fAUD_CFG_EN
  if getFld w fAUD_CFG_EN = 1 ∧ s.dstate < 3 then s.refuse rAUD_CFG
  else
  let s1 := s.settingWrite rAUD_CFG w (!was) false
  if was = true ∧ s1.on rAUD_CFG fAUD_CFG_EN = false then
    overN 2 (fun p s => s.modCap p (fun x => { x with frames := [], ring := none }))
      (overN 32 (fun i s => s.modStream i (fun x => { x with next := [], now := [], short := false })) s1)
  else s1

/-! ### Streams (R362, R370 to R372) -/

/-- The ring stops with FAULT. -/
def State.streamFault (s : State) (i : Nat) : State :=
  ((s.wr (rSTR_STAT i) fSTR_STAT_FAULT 1).wr (rSTR_STAT i) fSTR_STAT_PLAYING 0).modStream i (fun x => { x with next := [], short := false })

/-- A sample of an entry: S16 scaled by 256, or the upper 24 bits of S32. -/
def sampleOf (s32 : Bool) (b : List Byte) : Int :=
  if s32 then sx 24 (ofBytesLE b / 256) else sx 16 (ofBytesLE b) * 256

/-- Is a stream's CHIME honoured: its flag, and its stall is sealed? -/
def State.chimeOn (s : State) (i : Nat) : Bool :=
  (s.stream i).flag && (match s.streamOwner i with | some st => s.sealed st | none => false)

/-- Does sample c of the stream reach output o? -/
def State.routes (s : State) (i c o : Nat) : Bool :=
  let x := s.stream i
  (if c = 0 then x.dst0 else x.dst1) == o && (s.chimeOn i ||
    (match s.streamOwner i with | some st => bitOf (s.rd (rOUTCH o) fOUTCH_ALLOW) st | none => false))

/-- Destinations that ALLOW denies (R371). -/
def State.denies (s : State) (i : Nat) : Bool :=
  let x := s.stream i
  let bad (d : Nat) : Bool := decide (d < 16) && !(match s.streamOwner i with | some st => bitOf (s.rd (rOUTCH d) fOUTCH_ALLOW) st | none => false)
  !(s.chimeOn i) && (bad x.dst0 || (s.on (rSTR_CFG i) fSTR_CFG_STEREO && bad x.dst1))

/-- A stream at the tick: header, then the frames that the tick needs. (DEDUCED, log entry 56) -/
def State.streamTick (s : State) (i : Nat) : State :=
  let a := rSTR_STAT i
  let s := s.modStream i (fun x => { x with now := if (s.served (s.streamOwner i)).isSome then x.next else [], next := [] })
  if s.on (rSTR_CFG i) fSTR_CFG_EN = false ∨ s.on a fSTR_STAT_FAULT = true then s
  else match s.served (s.streamOwner i) with
  | none => (s.wr a fSTR_STAT_PLAYING 0).modStream i (fun x => { x with rd := none, short := false })
  | some st =>
    let base := s.ringBase (rSTR_RING_LO i) (rSTR_RING_HI i)
    match s.ringLoad st base 0x15 with
    | (s1, none) => s1.streamFault i
    | (s1, some h) =>
      let x := s1.stream i
      let flag := bitOf (fld h 0x14 1) 0
      let s2 := if flag && !x.flag && !(s1.sealed st) then s1.bumpErr rCHIME_REFUSED else s1
      let rd := x.rd.getD (fld h 4 4)
      let s3 := s2.modStream i (fun x => { x with flag := flag, gain := min 32768 (fld h 0x10 2), dst0 := fld h 0x12 1, dst1 := fld h 0x13 1, rd := some rd })
      let den := s3.denies i
      let s4 := if den && !(s3.on a fSTR_STAT_DENIED) then s3.bumpErr rROUTE_DENIED else s3
      let s5 := (s4.wr a fSTR_STAT_DENIED (b2n den)).wr a fSTR_STAT_CHIME (b2n (s4.chimeOn i))
      let size := 2 ^ s.rd (rSTR_CFG i) fSTR_CFG_LOG2
      let need := if s.on rAUD_CFG fAUD_CFG_MIX_RATE then 96 else 48
      let avail := ringAvail (fld h 0 4) rd size
      let n := min need avail
      let s32 := s.on (rSTR_CFG i) fSTR_CFG_FMT
      let st2 := s.on (rSTR_CFG i) fSTR_CFG_STEREO
      let w := if s32 then 4 else 2
      match s5.ringEntries st base size (if st2 then 2 * w else w) rd n with
      | (s6, none) => s6.streamFault i
      | (s6, some l) =>
        let frames := l.map (fun b => if st2 then [sampleOf s32 (b.take w), sampleOf s32 (b.drop w)] else [sampleOf s32 b])
        let rd1 := (rd + n) % 2 ^ 32
        let (s7, ok) := if n = 0 then (s6, true) else s6.ringStore st (base + 4) (bytesLE 4 rd1)
        if ok = false then s7.streamFault i
        else
          let s8 := ((s7.wr a fSTR_STAT_PLAYING (b2n (decide (0 < n)))).wr a fSTR_STAT_LEVEL avail).modStream i
            (fun x => { x with rd := some rd1, next := frames })
          if need ≤ avail then (s8.wr a fSTR_STAT_UNDER 0).modStream i (fun x => { x with short := false })
          else
            let (s9, ok) := s8.ringStore st (base + 8) (bytesLE 4 (fld h 8 4 + 1))
            if ok = false then s9.streamFault i
            else
              let s10 := ((s9.bumpErr (rSTR_UNDER i)).wr a fSTR_STAT_UNDER 1).modStream i (fun x => { x with short := true })
              if x.short then s10 else s10.irq st 92

/-- Outputs on which a chime is active in this tick: a chime stream routed there consumed a frame. -/
def State.chimeOutputs (s : State) : List Nat :=
  (List.range 16).filter (fun o => (List.range 32).any (fun i => s.chimeOn i && !((s.stream i).next.isEmpty) &&
    (s.routes i 0 o || (s.on (rSTR_CFG i) fSTR_CFG_STEREO && s.routes i 1 o))))

/-- Ducking at the tick: it starts with a chime, and ends once none has been active for 100 ms. (DEDUCED, log entry 56) -/
def State.duckTick (s : State) : State :=
  let act := s.chimeOutputs
  overN 16 (fun o s =>
    let on := act.contains o
    let q := if on then 0 else storeGet (fun _ => 0) s.mix.quiet o + 1
    let was := bitOf s.mix.ducking o
    let now := on || (was && decide (q < 100))
    let s1 := if now && !was then s.bumpEv rDUCKS 1 else s
    { s1 with mix := { s1.mix with quiet := storePut (fun _ => 0) s1.mix.quiet o (min 100 q), ducking := setBitN s1.mix.ducking o now,
                                   active := setBitN s1.mix.active o on } }) s

/-! ### Haptic channels (R365, R366) -/

/-- What the channel's segment makes the bridge do: the duty is |AMP| >> 4. -/
def State.segDrive (s : State) (h : Nat) : Bridge :=
  match (s.hap h).seg with
  | none => .off
  | some (amp, ms, freq, _) =>
    let duty := amp.natAbs / 16
    if s.on (rHC_CFG h) fHC_CFG_TYPE then .erm (if amp < 0 then -(duty : Int) else duty) ms else .lra duty freq (s.hap h).half ms

/-- A brake: an ERM at full duty in the opposite direction for 5 ms, an LRA in antiphase. -/
def State.hapBrake (s : State) (h : Nat) : State :=
  let drive : Bridge := match (s.hap h).seg with
    | none => .off
    | some (amp, _, freq, _) =>
      if s.on (rHC_CFG h) fHC_CFG_TYPE then .erm (if amp < 0 then 2047 else -2047) 5 else .antiphase freq (s.hap h).half
  (s.modHap h (fun x => { x with brake := true })).emit (.bridge h drive)

/-- The channel idles: bridge off. -/
def State.hapIdle (s : State) (h : Nat) : State :=
  let s1 := (s.modHap h (fun x => { x with seg := none, brake := false })).wr (rHC_STAT h) fHC_STAT_PLAYING 0
  if (s.hap h).seg.isSome then s1.emit (.bridge h .off) else s1
def State.hapFault (s : State) (h : Nat) : State := (s.hapIdle h).wr (rHC_STAT h) fHC_STAT_FAULT 1

/-- Is an entry in range? -/
def segOk (erm : Bool) (b : List Byte) : Bool :=
  fld b 0 2 != 0x8000 && fld b 2 2 != 0 && (erm || fld b 4 2 == 0 || (decide (500 ≤ fld b 4 2) && decide (fld b 4 2 ≤ 5000)))

/-- The next segment starts: entries out of range are skipped; an empty ring leaves the channel idle. -/
def State.hapNext (s : State) (h st wr : Nat) : Nat → State
  | 0 => s.hapIdle h
  | n + 1 =>
    let base := s.ringBase (rHC_RING_LO h) (rHC_RING_HI h)
    let size := 2 ^ s.rd (rHC_CFG h) fHC_CFG_LOG2
    let rd := ((s.hap h).rd).getD 0
    if ringAvail wr rd size = 0 then s.hapIdle h
    else match s.ringLoad st (base + 64 + 8 * (rd % size)) 8 with
    | (s1, none) => s1.hapFault h
    | (s1, some b) =>
      let rd1 := (rd + 1) % 2 ^ 32
      let (s2, ok) := s1.ringStore st (base + 4) (bytesLE 4 rd1)
      let s3 := s2.modHap h (fun x => { x with rd := some rd1 })
      if ok = false then s3.hapFault h
      else if segOk (s.on (rHC_CFG h) fHC_CFG_TYPE) b then
        let idle := (s.hap h).seg.isNone
        let s4 := (s3.modHap h (fun x => { x with
          seg := some (sx 16 (fld b 0 2), fld b 2 2, fld b 4 2, fld b 6 2), brake := false
          lastCross := if idle then none else x.lastCross, tm := if idle then none else x.tm })).wr (rHC_STAT h) fHC_STAT_PLAYING 1
        s4.emit (.bridge h (s4.segDrive h))
      else (s3.bumpErr rSEG_BAD).hapNext h st wr n

/-- The channel reads WR and goes on, or idles. RD that runs more than the ring behind WR counts as a full ring. (DEDUCED, log entry 57) -/
def State.hapGo (s : State) (h st : Nat) : State :=
  match s.ringLoad st (s.ringBase (rHC_RING_LO h) (rHC_RING_HI h)) 8 with
  | (s1, none) => s1.hapFault h
  | (s1, some b) =>
    let s2 := s1.modHap h (fun x => { x with rd := some (x.rd.getD (fld b 4 4)) })
    s2.hapNext h st (fld b 0 4) (2 ^ s.rd (rHC_CFG h) fHC_CFG_LOG2)

/-- A segment ends: counted, its interrupt raised. -/
def State.segDone (s : State) (h st : Nat) : State :=
  match (s.hap h).seg with
  | none => s
  | some (_, _, _, flags) =>
    let s1 := s.bumpEv (rHC_SEGS h) 1
    if bitOf flags 1 then s1.irq st 92 else s1

/-- A haptic channel at the tick: the header is read; a change of CUT ends the segment with a brake and empties the ring. (DEDUCED, log entry 57) -/
def State.hapTick (s : State) (h : Nat) : State :=
  if s.on (rHC_CFG h) fHC_CFG_EN = false ∨ s.on (rHC_STAT h) fHC_STAT_FAULT = true then s
  else match s.served (s.hapOwner h) with
  | none => (s.hapIdle h).modHap h (fun x => { x with rd := none, cut := none })
  | some st =>
    let base := s.ringBase (rHC_RING_LO h) (rHC_RING_HI h)
    match s.ringLoad st base 16 with
    | (s1, none) => s1.hapFault h
    | (s1, some b) =>
      let x := s1.hap h
      let cut := fld b 12 4
      let s2 := s1.modHap h (fun x => { x with cut := some cut })
      if x.cut.isSome ∧ x.cut ≠ some cut then
        let (s3, ok) := s2.ringStore st (base + 4) (b.take 4)
        let s4 := s3.modHap h (fun x => { x with rd := some (fld b 0 4) })
        if ok = false then s4.hapFault h
        else if x.seg.isSome ∧ x.brake = false then (s4.segDone h st).hapBrake h
        else s4
      else if x.seg.isNone then s2.hapGo h st
      else s2

/-- HAPTIC_SEGMENT_END: the segment's time is over: a brake follows if its flag asks for one, else the next segment; or the brake is over. (DEDUCED, log entry 57) -/
def execHapticSegmentEnd (h : Fin 8) (s : State) : Host.Outcome State Fault Refusal :=
  let s := s.begin
  .next (s.guard (s.running && (s.hap h).seg.isSome) (fun s =>
    match s.served (s.hapOwner h) with
    | none => s.hapIdle h
    | some st =>
      let x := s.hap h
      if x.brake then s.hapGo h st
      else
        let s1 := s.segDone h st
        match x.seg with
        | some (_, _, _, flags) => if bitOf flags 0 then s1.hapBrake h else s1.hapGo h st
        | none => s1))

/-- Does an LRA track its resonance: a segment with FREQ 0? -/
def State.tracking (s : State) (h : Nat) : Bool :=
  !(s.on (rHC_CFG h) fHC_CFG_TYPE) && !((s.hap h).brake) && (match (s.hap h).seg with | some (_, _, f, _) => f == 0 | none => false)

/-- Is an LRA driven, by a segment or a brake, so that every polarity change has its gap? -/
def State.lraDriven (s : State) (h : Nat) : Bool := !(s.on (rHC_CFG h) fHC_CFG_TYPE) && (s.hap h).seg.isSome

/-- BEMF_ZERO_CROSSING at time t in µs: Tm is the time since the crossing before it. (DESIGN CHOICE, log entry 3; DEDUCED, log entry 57) -/
def execBemfZeroCrossing (h : Fin 8) (t : Nat) (s : State) : Host.Outcome State Fault Refusal :=
  let s := s.begin
  .next (s.guard (s.running && s.lraDriven h) (fun s =>
    (s.modHap h (fun x => { x with
      tm := match x.lastCross with | some l => some (t - l) | none => x.tm
      lastCross := some t, crossed := true, misses := 0 })).wr (rHC_STAT h) fHC_STAT_NO_BEMF 0))

/-- LRA_HALF_PERIOD: at the end of a half period that tracks, T moves toward Tm, and LOCKED is judged; NO_BEMF after any 8 gaps with no crossing. (DEDUCED, log entry 57) -/
def execLraHalfPeriod (h : Fin 8) (s : State) : Host.Outcome State Fault Refusal :=
  let s := s.begin
  .next (s.guard (s.running && s.lraDriven h) (fun s =>
    let x := s.hap h
    let a := rHC_STAT h
    let misses := if x.crossed then 0 else x.misses + 1
    if misses = 8 then
      let s1 := (((((s.modHap h (fun x => { x with misses := misses, crossed := false, half := s.nomHalf h, passes := 0, lastCross := none, tm := none })).wr
        a fHC_STAT_NO_BEMF 1).bumpErr (rBEMF_LOSS h)).wr a fHC_STAT_LOCKED 0).wr a fHC_STAT_HALF_US (s.nomHalf h))
      if s.tracking h then s1.emit (.bridge h (s1.segDrive h)) else s1
    else if s.tracking h = false then s.modHap h (fun x => { x with misses := misses, crossed := false })
    else match x.tm with
    | none => (s.modHap h (fun x => { x with misses := misses, crossed := false, passes := 0 })).wr a fHC_STAT_LOCKED 0
    | some tm =>
      let pass := decide (natDist' tm x.half ≤ x.half / 100)
      let n := if pass then min 4 (x.passes + 1) else 0
      let t1 : Int := (x.half : Int) + ((tm : Int) - x.half) / 4
      let f := s.rd (rHC_CFG h) fHC_CFG_F_NOM
      let t2 := (max ((400000 / f : Nat) : Int) (min ((2000000 / (3 * f) : Nat) : Int) t1)).toNat
      let s1 := ((s.modHap h (fun x => { x with misses := misses, crossed := false, passes := n, half := t2 })).wr a fHC_STAT_LOCKED
        (b2n (n == 4))).wr a fHC_STAT_HALF_US t2
      s1.emit (.bridge h (s1.segDrive h))))
where
  /-- The distance of two numbers. -/
  natDist' (a b : Nat) : Nat := max (a - b) (b - a)

/-! ### Capture (R368) -/

/-- One frame enters the capture ring, or is dropped when it is full. -/
def State.capPut (s : State) (p st : Nat) (fr : List W32) : State :=
  let base := s.ringBase (rCAP_LO p) (rCAP_HI p)
  let size := 2 ^ s.rd (rPORT_CFG p) fPORT_CFG_CAP_LOG2
  let stopped (s : State) : State := s.modCap p (fun x => { x with stop := true })
  if (s.cap p).stop then s
  else
    let (s1, hdr) := match (s.cap p).ring with
      | some h => (s, some h)
      | none => match s.ringLoad st base 12 with
        | (s', some b) => (s', some (fld b 0 4, fld b 4 4, fld b 8 4))
        | (s', none) => (s', none)
    match hdr with
    | none => stopped s1
    | some (wr, rd0, drops) =>
      let full (rd : Nat) : Bool := since32 wr rd == size
      let (s2, rd) := if full rd0 then
          (match s1.ringLoad st (base + 4) 4 with | (s', some b) => (s', some (fld b 0 4)) | (s', none) => (s', none))
        else (s1, some rd0)
      match rd with
      | none => stopped s2
      | some rd =>
        if full rd then
          let d := (drops + 1) % 2 ^ 32
          let (a, ok) := s2.ringStore st (base + 8) (bytesLE 4 d)
          if ok then (a.bumpErr (rCAP_DROP p)).modCap p (fun x => { x with ring := some (wr, rd, d) }) else stopped a
        else
          let w := (wr + 1) % 2 ^ 32
          let (a, ok1) := s2.ringStore st (base + 64 + 32 * (wr % size)) (fr.flatMap (fun v => bytesLE 4 v.toNat))
          let (b, ok2) := if ok1 then a.ringStore st base (bytesLE 4 w) else (a, false)
          if ok1 && ok2 then b.modCap p (fun x => { x with ring := some (w, rd, drops) }) else stopped b

/-- The frames of the tick are written while the stall that receives them is ACTIVE or FROZEN. (DEDUCED, log entry 56) -/
def State.capTick (s : State) (p : Nat) : State :=
  let fr := (s.cap p).frames
  let s1 := s.modCap p (fun x => { x with frames := [] })
  let st := s.rd (rPORT_CFG p) fPORT_CFG_CAP_STALL
  match s.served (some st) with
  | some st => if s.on (rPORT_CFG p) fPORT_CFG_CAP_EN then fr.foldl (fun s f => s.capPut p st f) s1 else s1
  | none => s1.modCap p (fun x => { x with ring := none })

/-! ### Tick and frames (R362, R367 to R372) -/

/-- AUDIO_TICK. (DEDUCED, log entry 56) -/
def execAudioTick (s : State) : Host.Outcome State Fault Refusal :=
  let s := s.begin
  .next (s.guard (s.running && s.islandOn 25) (fun s =>
    let s1 := s.wr rAUD_STAT fAUD_STAT_TICK_LO (s.rd rAUD_STAT fAUD_STAT_TICK_LO + 1)
    let s2 := overN 8 (fun h s => s.hapTick h) s1
    if s.on rAUD_CFG fAUD_CFG_EN = false then s2
    else
      let s3 := (overN 2 (fun p s => s.capTick p) (overN 32 (fun i s => s.streamTick i) s2)).duckTick
      { s3 with mix := { s3.mix with frame := 0 } }))

/-- The duck factor of an output. -/
def State.duck (s : State) (o : Nat) : Nat := 32768 - storeGet (fun _ => 0) s.mix.lowered o

/-- The sample of an output in the frame that is sent (R370). -/
def State.mixOut (s : State) (o : Nat) : Int :=
  let f := s.mix.frame
  let terms := (List.range 32).flatMap (fun i =>
    let fr := (s.stream i).now.getD f []
    (List.range fr.length).filterMap (fun c => if s.routes i c o then some (i, fr.getD c 0) else none))
  let chm : Int := (terms.filter (fun t => s.chimeOn t.1)).foldl (fun a t => a + t.2 * ((s.stream t.1).gain : Int)) 0
  let acc : Int := (terms.filter (fun t => !(s.chimeOn t.1))).foldl
    (fun a t => a + t.2 * ((((s.stream t.1).gain * s.duck o) / 32768 : Nat) : Int)) 0
  let v := (((acc + 16384) / 32768) * (s.rd (rOUTCH o) fOUTCH_VOL : Int) + 16384) / 32768
  max (-8388608) (min 8388607 (v + (chm + 16384) / 32768))

/-- A duck factor moves one frame: toward DUCK while ducking, back toward 32768 otherwise. -/
def State.duckFrame (s : State) (o : Nat) : State :=
  let per := s.rd rAUD_CFG fAUD_CFG_RAMP_MS * (if s.on rAUD_CFG fAUD_CFG_MIX_RATE then 96 else 48)
  let goal := 32768 - s.rd rAUD_CFG fAUD_CFG_DUCK
  let step := (goal + per - 1) / per
  let l := storeGet (fun _ => 0) s.mix.lowered o
  let l1 := if bitOf s.mix.ducking o then (if l ≤ goal then min goal (l + step) else max goal (l - step)) else l - step
  { s with mix := { s.mix with lowered := storePut (fun _ => 0) s.mix.lowered o l1 } }

/-- What a port's FSYNC shows: a master drives it active-low or active-high. -/
def State.fsyncOf (s : State) (p : Nat) : Option Bool :=
  if s.on (rPORT_CFG p) fPORT_CFG_MASTER then some (!s.on (rPORT_CFG p) fPORT_CFG_FS_POL) else none

/-- In SAVING all outputs send 0 and the bridges are driven off from the next frame (R373). -/
def State.audioSaving (s : State) : State :=
  let z := List.replicate 8 0#32
  overN 8 (fun h s => s.hapIdle h) ((s.emit (.tdm 0 (s.fsyncOf 0) z)).emit (.tdm 1 (s.fsyncOf 1) z))

/-- TDM_FRAME: what each port receives; whether a slave port's rate is in range; a slip of port 1: 1 repeats, 2 drops a frame. (DEDUCED, log entry 56) -/
def execTdmFrame (rx0 rx1 : List W32) (ok0 ok1 : Bool) (slip : Fin 3) (s : State) : Host.Outcome State Fault Refusal :=
  let s := s.begin
  .next (s.guard ((s.running || s.dstate == 6) && s.islandOn 25 && s.on rAUD_CFG fAUD_CFG_EN) (fun s =>
    if s.dstate = 6 then s.audioSaving else
    let err (p : Nat) : Bool := !(s.on (rPORT_CFG p) fPORT_CFG_MASTER) && !(if p = 0 then ok0 else ok1)
    let slots (p : Nat) : List W32 := (List.range 8).map (fun k =>
      if err p then 0 else BitVec.ofNat 32 (toTwos 24 (s.mixOut (8 * p + k)) * 256))
    let take (p : Nat) (rx : List W32) (s : State) : State :=
      if err p || !(s.on (rPORT_CFG p) fPORT_CFG_CAP_EN) then s
      else s.modCap p (fun x => { x with frames := x.frames ++ [(List.range 8).map (fun k => rx.getD k 0 &&& 0xFFFFFF00#32)] })
    let s1 := (s.wr rAUD_STAT fAUD_STAT_CLK_ERR0 (b2n (err 0))).wr rAUD_STAT fAUD_STAT_CLK_ERR1 (b2n (err 1))
    let s2 := (take 1 rx1 (take 0 rx0 s1)).emit (.tdm 0 (s.fsyncOf 0) (slots 0))
    let slave1 := !(s.on (rPORT_CFG 1) fPORT_CFG_MASTER)
    let s3 := if slave1 && slip.val == 2 then s2.bumpErr rSLIP
      else if slave1 && slip.val == 1 then ((s2.bumpErr rSLIP).emit (.tdm 1 (s.fsyncOf 1) (if err 1 then slots 1 else s.mix.lastTdm))).emit (.tdm 1 (s.fsyncOf 1) (slots 1))
      else s2.emit (.tdm 1 (s.fsyncOf 1) (slots 1))
    let s4 := overN 16 (fun o s => s.duckFrame o) s3
    let s5 : State := { s4 with mix := { s4.mix with frame := s4.mix.frame + 1, lastTdm := slots 1 } }
    s5.wr rAUD_STAT fAUD_STAT_DUCKING (b2n ((List.range 16).any (fun o => s5.duck o != 32768)))))

end Sys2Proof.Machine
end

