-- ==== Sys2Proof/Machine/Pitch.lean ====
section
/-! DEFINITION. Machine/Pitch.lean: pitches: configuration, expected pairs, results, alive checks, responses (R121 to R135, R143). -/
namespace Sys2Proof.Machine

/-! Result codes (R128). -/
def resMATCH : Nat := 1
def resMISMATCH : Nat := 2
def resSKIP_NR : Nat := 3
def resSKIP_BLANK : Nat := 4
def resINVALID : Nat := 5
def resFB_MATCH : Nat := 6
def resFB_MISMATCH : Nat := 7

/-- SOURCE of a pitch's ledger entries (R491): the stall it names, or 0x80 for the keeper. -/
def pcfgSource (w : W64) : Nat := if getFld w fPCFG_OWN_KEEPER = 1 then 0x80 else getFld w fPCFG_STALL

/-- PX, PY, PW, PH, LAYERS of an entry (R142). -/
def State.pitchPayload (s : State) (v : View) (p k : Nat) : List Byte :=
  let r := s.pitchRect v p k
  bytesLE 2 r.x ++ bytesLE 2 r.y ++ bytesLE 2 r.w ++ bytesLE 2 r.h ++ bytesLE 1 (s.vrd v (rPCFG p k) fPCFG_LAYERS)

/-- An event of a pitch in the frame now scanned, if its LOG is not off (R143). -/
def State.pitchEvent (s : State) (p k code : Nat) : State :=
  if s.srd (rPCFG p k) fPCFG_LOG = 0 then s
  else s.ledger { typ := 3, pipe := p, pitch := k, source := pcfgSource (s.srw (rPCFG p k)), code := code, frame := s.frameCount p
                  frameEpoch := s.frameEpoch p }

/-! ### Register writes -/

/-- PCFG takes a word: EN = 1 for a stall asks for an existing, sealed one (R124). -/
def State.wrPcfg (s : State) (p k : Nat) (w : W64) : State :=
  match pcfgOwner w with
  | some st => if s.stallState st = 0 ∨ s.sealed st = false then s.refuse (rPCFG p k) else s.settingWrite (rPCFG p k) w true false
  | none => s.settingWrite (rPCFG p k) w true false

/-- PEXP_CTL takes a word: only the keeper-owned pitch's pair (R127). -/
def State.wrPexpCtl (s : State) (p k : Nat) (w : W64) : State :=
  if (pcfgOwner (s.rw (rPCFG p k))).isSome then s.refuse (rPEXP_CTL p k)
  else s.modPitch p k (fun x =>
    { x with pend := (BitVec.ofNat 32 (s.rd (rPEXP_VAL p k) fPEXP_VAL_VAL), BitVec.ofNat 4 (getFld w fPEXP_CTL_ALIVE)) })

/-- EXP_CTL of stall `st` takes a word (R127). -/
def State.wrExpCtl (s : State) (st p k : Nat) (w : W64) : State :=
  s.modPitch p k (fun x =>
    { x with pend := (BitVec.ofNat 32 (s.rd (rEXP_VAL st (16 * p + k)) fEXP_VAL_VAL), BitVec.ofNat 4 (getFld w fEXP_CTL_ALIVE)) })

/-- A clear of pitch k (R132). (DESIGN CHOICE, log entry 108) -/
def State.pitchClear (s : State) (p k : Nat) : State :=
  let a := rPSTAT p k
  ((((s.wr a fPSTAT_CHK_FAULT 0).wr a fPSTAT_ALIVE_FAULT 0).wr a fPSTAT_ALIVE_KIND 0).wr (rPITCH_SUM p) ⟨k, 1⟩ 0).modPitch p k
    (fun x => { x with respNext := 0, clr := true, noRefNext := true })

/-- PITCH_CTRL takes a word (R125, R132). -/
def State.wrPitchCtrl (s : State) (p : Nat) (w : W64) : State :=
  let com := getFld w fPITCH_CTRL_COMMIT
  let clr := getFld w fPITCH_CTRL_CLR
  overN 16 (fun k s =>
    let s1 := if bitOf com k then (s.wr (rPITCH_PEND p) ⟨k, 1⟩ 1).plate p else s
    if bitOf clr k then s1.pitchClear p k else s1) s

/-- PCFG_WRITE (R124, R127). -/
def execPcfgWrite (who : Who) (p : Fin 8) (k : Fin 16) (w : W32) (s : State) : Host.Outcome State Fault Refusal :=
  .next (s.begin.write who (rPCFG p k) (fun s => s.wrPcfg p k (wide w)))

/-- PITCH_COMMIT (R125): the groups whose bit is set. -/
def execPitchCommit (who : Who) (p : Fin 8) (ks : BitVec 16) (s : State) : Host.Outcome State Fault Refusal :=
  .next (s.begin.write who (rPITCH_CTRL p) (fun s => s.wrPitchCtrl p (putFld 0 fPITCH_CTRL_COMMIT ks.toNat)))

/-- PITCH_CLEAR (R132): the pitches whose bit is set. -/
def execPitchClear (who : Who) (p : Fin 8) (ks : BitVec 16) (s : State) : Host.Outcome State Fault Refusal :=
  .next (s.begin.write who (rPITCH_CTRL p) (fun s => s.wrPitchCtrl p (putFld 0 fPITCH_CTRL_CLR ks.toNat)))

/-- EXP_CTL (R127): the guest of a stall writes EXP_CTL of its slot, any other maker PEXP_CTL. -/
def execExpCtl (who : Who) (p : Fin 8) (k : Fin 16) (alive : BitVec 4) (s : State) : Host.Outcome State Fault Refusal :=
  .next (
    match who with
    | .stall st => s.begin.write who (rEXP_CTL st (16 * p + k)) (fun s => s.wrExpCtl st p k (alive.setWidth 64))
    | _ => s.begin.write who (rPEXP_CTL p k) (fun s => s.wrPexpCtl p k (alive.setWidth 64)))

/-! ### Latch point and frame boundary -/

/-- The settings of a pitch group (R125). -/
def pitchGroup (p k : Nat) : List Nat := [rPCFG p k, rPPOS p k, rPSIZE p k, rPFB_RG p k, rPFB_B p k, rPFB_EXP p k]

/-- The pitch's group, if its commit is pending, is taken, with the event PITCH_CFG for the next frame; every pitch takes its
pending pair (R125, R127). -/
def State.latchPitch (s : State) (p k : Nat) : State :=
  let s1 := if bitOf (s.rd (rPITCH_PEND p) fPITCH_PEND_PEND) k then
      let s1 := ((s.latchAll (pitchGroup p k)).wr (rPITCH_PEND p) ⟨k, 1⟩ 0).modPitch p k
        (fun x => { x with newCfg := true, noRefNext := true })
      let n := ((s1.lv (rFRAME p)).toNat + 1) % 2 ^ 48
      if s1.frd (rPCFG p k) fPCFG_LOG = 0 then s1
      else s1.ledger { typ := 3, pipe := p, pitch := k, source := pcfgSource (s1.frw (rPCFG p k)), code := 7, frame := n % 2 ^ 32
                       frameEpoch := n / 2 ^ 32, payload := s1.pitchPayload .force p k }
    else s
  s1.modPitch p k (fun x => { x with taken := x.pend })

/-- A frame begins for pitch k; the settings of the frame are in `scan` already and the frame count has advanced (R130 to
R132). -/
def State.pitchFrame (s : State) (p k : Nat) : State :=
  let x := s.pitch p k
  let resp := if x.clr then x.respNext else max x.resp x.respNext
  let en := s.pitchOn .scan p k
  let layers := s.srd (rPCFG p k) fPCFG_LAYERS
  let tie := s.srd (rPCFG p k) fPCFG_TIE
  let fb := en && (resp == 1 || (List.range 8).any (fun m => bitOf layers m && (s.lay p m).fallback))
  let wasFb := s.on (rPSTAT p k) fPSTAT_FALLBACK
  let wasBl := s.on (rPSTAT p k) fPSTAT_BLANKING
  let s1 := s.modPitch p k (fun x =>
    { x with resp := resp, respNext := 0, clr := false, newCfg := false, noRef := x.noRefNext, noRefNext := false, cur := x.taken
             crc := crcInit, done := false, waited := decide (tie < 8) && (s.lay p tie).notReady
             prev := if x.newCfg then none else x.prev })
  let s2 := (s1.wr (rPSTAT p k) fPSTAT_FALLBACK (b2n fb)).wr (rPSTAT p k) fPSTAT_BLANKING (b2n (resp == 2))
  let s3 := if fb = wasFb then s2 else s2.pitchEvent p k (if fb then 1 else 2)
  if (resp == 2) = wasBl then s3 else s3.pitchEvent p k (if resp = 2 then 3 else 4)

/-! ### Composition and the result -/

/-- Line y of the frame enters the check values of the pitches that contain it (R121, R122): `px` gives the line's pixels. -/
def State.pitchLine (s : State) (p y : Nat) (px : List Px) : State :=
  overN 16 (fun k s =>
    let r := s.pitchRect .scan p k
    if s.pitchOn .scan p k && decide (r.y ≤ y ∧ y < r.y + r.h) && decide (r.x + r.w ≤ px.length) then
      let l := (List.range (r.w / 2)).flatMap (fun i => pairBytes (px.getD (r.x + 2 * i) Px.clear) (px.getD (r.x + 2 * i + 1) Px.clear))
      s.modPitch p k (fun x => { x with crc := crcRun x.crc l })
    else s) s

/-- Does the rectangle lie wholly inside the active area (R123)? -/
def State.pitchInside (s : State) (p k : Nat) : Bool :=
  let r := s.pitchRect .scan p k
  decide (r.x + r.w ≤ (s.tmg p).ha ∧ r.y + r.h ≤ (s.tmg p).va)

/-- The line whose last pair decides the result (R128). -/
def State.pitchLastLine (s : State) (p k : Nat) : Nat :=
  let r := s.pitchRect .scan p k
  if s.pitchInside p k then r.y + r.h - 1 else (s.tmg p).va - 1

/-- The result, the measured and the expected value of a frame (R128, R491). -/
def State.pitchResult (s : State) (p k : Nat) : Nat × Nat × Nat :=
  let x := s.pitch p k
  let m := (crcFinal x.crc).toNat
  let tie := s.srd (rPCFG p k) fPCFG_TIE
  let fb := s.on (rPSTAT p k) fPSTAT_FALLBACK
  let e := if fb then s.srd (rPFB_EXP p k) fPFB_EXP_VAL else x.cur.1.toNat
  if s.pst p ≠ stRUNNING then (resSKIP_BLANK, 0, e)
  else if s.pitchInside p k = false then (resINVALID, 0, e)
  else if fb then (if m = e then resFB_MATCH else resFB_MISMATCH, m, e)
  else if x.waited || (decide (tie < 8) && bitOf (s.pipe p).reproj tie) then (resSKIP_NR, m, e)
  else (if m = e then resMATCH else resMISMATCH, m, e)

/-- One fault: flag, PITCH_SUM, counter, the owner's pitch interrupt, the keeper's event (R130). -/
def State.pitchFault (s : State) (p k : Nat) (alive : Bool) : State :=
  let w := s.srw (rPCFG p k)
  let s1 := (s.wr (rPSTAT p k) (if alive then fPSTAT_ALIVE_FAULT else fPSTAT_CHK_FAULT) 1).wr (rPITCH_SUM p) ⟨k, 1⟩ 1
  let s2 := s1.bumpErr (if alive then rPALVF p k else rPCHKF p k)
  let s3 := if getFld w fPCFG_OWN_KEEPER = 1 then s2 else s2.irq (getFld w fPCFG_STALL) (72 + p)
  s3.kevt (0x10 + p) (if alive then 0x06 else 0x05) k (s.frameCount p)

/-- ALIVE_KIND of a frame: 0 none, 1 REPEAT, 2 JUMP (R129). -/
def State.aliveKind (s : State) (p k res : Nat) : Nat :=
  let x := s.pitch p k
  let a := x.cur.2
  if x.noRef || res == resSKIP_BLANK || !(s.srd (rPCFG p k) fPCFG_ALIVE_EN == 1) then 0
  else if a = x.ref then 1 else if a = x.ref + 1 then 0 else 2

/-- Is a result a CHECK_FAULT; one with a comparison? -/
def isChkFault (res : Nat) : Bool := decide (res = resMISMATCH ∨ res = resINVALID ∨ res = resFB_MISMATCH)
def isCompared (res : Nat) : Bool := decide (res = resMATCH ∨ res = resMISMATCH ∨ res = resFB_MATCH ∨ res = resFB_MISMATCH)

/-- The result of a frame is reached (R128 to R130, R143). (DESIGN CHOICE, log entry 108) -/
def State.pitchCompare (s : State) (p k : Nat) : State :=
  let x := s.pitch p k
  let w := s.srw (rPCFG p k)
  let (res, m, e) := s.pitchResult p k
  let kind := s.aliveKind p k res
  let chk := isChkFault res
  let respChk := if chk then (if res = resFB_MISMATCH ∧ getFld w fPCFG_CHK_RESP ≠ 0 then 2 else getFld w fPCFG_CHK_RESP) else 0
  let respAlv := if kind = 0 then 0 else getFld w fPCFG_ALIVE_RESP
  let log := getFld w fPCFG_LOG
  let want := log == 3 || (decide (1 ≤ log) && (chk || kind != 0)) || (log == 2 && isCompared res && x.prev != some (res, BitVec.ofNat 32 m))
  let s1 := if chk then s.pitchFault p k false else s
  let s2 := if kind = 0 then s1 else (s1.wr (rPSTAT p k) fPSTAT_ALIVE_KIND kind).pitchFault p k true
  let s3 := s2.modPitch p k (fun y =>
    { y with done := true, respNext := max y.respNext (max respChk respAlv)
             ref := if x.noRef || res == resSKIP_BLANK || getFld w fPCFG_ALIVE_EN == 1 then x.cur.2 else y.ref
             prev := if isCompared res then some (res, BitVec.ofNat 32 m) else y.prev })
  let n := s.frameCount p
  let s4 := ((s3.wr (rPSTAT p k) fPSTAT_LAST res).wr (rPSTAT p k) fPSTAT_ALIVE_TAKEN x.cur.2.toNat).wr (rPSTAT p k) fPSTAT_FRAME_LO n
  let s5 := if res = resSKIP_BLANK ∨ res = resINVALID then s4
    else (((s4.wr (rPMEAS_H p k) fPMEAS_H_FRAME n).wr (rPMEAS_H p k) fPMEAS_H_HALF (m / 2 ^ 16)).wr (rPMEAS_L p k) fPMEAS_L_FRAME n).wr
      (rPMEAS_L p k) fPMEAS_L_HALF m
  if want then
    s5.ledger { typ := 1, pipe := p, pitch := k, source := pcfgSource w, code := res + 16 * kind, alive := x.cur.2.toNat, frame := n
                frameEpoch := s.frameEpoch p, measured := m, expected := e, payload := s.pitchPayload .scan p k }
  else s5

end Sys2Proof.Machine
end

