-- ==== Sys2Proof/Machine/Frame.lean ====
section
/-! DEFINITION. Machine/Frame.lean: the frame of a pipe: its boundary, lines, latch point and vertical blanking (R38, R45, R64, R76 to
R78, R86, R91, R92, R94, R95, R101 to R105, R147, R191, R192, R443, R444). -/
namespace Sys2Proof.Machine

/-! ### Settings of a frame -/

/-- The settings of a pipe whose values in force at a frame boundary the frame uses. -/
def scanRegs (p : Nat) : List Nat :=
  (List.range 8).flatMap (fun m => layerGroup p m ++ [rLTF_AB p m, rLTF_DE p m, rLTF_C p m, rLTF_F p m]) ++ pipeGroup p ++ awnGroup p ++
    [rAFCTL p] ++ (List.range 16).flatMap (fun k => pitchGroup p k)

/-- The frame takes the settings in force. -/
def State.takeScan (s : State) (p : Nat) : State := (scanRegs p).foldl (fun s a => s.setSrw a (s.frw a)) s

/-! ### Deadlines (R191, R192) -/

/-- Time from this line's start to the next latch point in µs, rounded down, with the trim, and from the start of vertical
blanking with the phase correction; with the lengthening of an alignment frame (R61). -/
def State.ttlUs (s : State) (p : Nat) : Nat :=
  let x := s.pipe p
  let t := s.tmg p
  let latch := t.va - x.guard
  let guardNext := match x.gfNext with | some g => g.1 | none => x.guard
  let corr (v : Int) : Int := if x.vblank then v else 0
  let pix : Int := if x.line ≤ latch then ((latch - x.line) * t.htotal : Nat)
    else ((t.vtotal : Int) + corr x.corrLines - x.line) * t.htotal + corr x.corrPix + x.alignPix + ((t.va - guardNext) * t.htotal : Nat)
  let hz : Int := (t.pclk : Int) * (1000000 + s.trimPpm p)
  (max 0 (1000000000 * pix / hz)).toNat

/-- Does the pipe take latch points, so that TTL is valid (R104, R191)? -/
def State.ttlValid (s : State) (p : Nat) : Bool := (s.pipe p).scanning && !(s.pipe p).goTaken

/-- TTL is published at a line start; the window opens at the first one at which it is at most LEAD_US. -/
def State.publishTtl (s : State) (p : Nat) : State :=
  let v := s.ttlUs p
  let ok := s.ttlValid p
  let s1 := (s.wr (rTTL p) fTTL_VALID (b2n ok)).wr (rTTL p) fTTL_TTL_US (if ok then v else 0)
  if ok && decide (v ≤ s.rd (rDL_CFG p) fDL_CFG_LEAD_US) then s1.wr (rTTL p) fTTL_WINDOW 1 else s1

/-! ### Blanking causes (R45, R147) -/

/-- Does a FULL ledger blank the pipe: an enabled pitch with LOG ≠ 0, in force at this boundary (R147)? -/
def State.fullBlanks (s : State) (v : View) (p : Nat) : Bool :=
  s.ledFull && s.on rLG_CTRL fLG_CTRL_FULL_BLANK &&
    (List.range 16).any (fun k => s.pitchOn v p k && s.vrd v (rPCFG p k) fPCFG_LOG != 0)

/-- Does a pitch response blank the frame that begins at the next boundary (R130, R132)? -/
def State.pitchWillBlank (s : State) (p : Nat) : Bool :=
  (List.range 16).any (fun k => let x := s.pitch p k; (if x.clr then x.respNext else max x.resp x.respNext) == 2)

/-- Does a pitch response blank the frame that has begun? -/
def State.pitchBlanks (s : State) (p : Nat) : Bool := (List.range 16).any (fun k => (s.pitch p k).resp == 2)

/-- FULL_BLANK is decided at the frame boundary; a change is an event of the ledger (R147, R491). -/
def State.decideFullBlank (s : State) (p : Nat) : State :=
  let b := s.fullBlanks .scan p
  if b = (s.pipe p).fullBlank then s
  else (s.modPipe p (fun x => { x with fullBlank := b })).ledger
    { typ := 3, pipe := p, code := if b then 3 else 4, frame := s.frameCount p, frameEpoch := s.frameEpoch p }

/-- The blank causes of the frame that begins, and RUNNING or BLANKED (R45). -/
def State.boundaryState (s : State) (p : Nat) : State :=
  let a := rPSTATE p
  let left := (s.pipe p).blackLeft
  let s1 := ((s.wr a fPSTATE_BLANK_SW (s.rd (rPCTRL p) fPCTRL_BLANK)).wr a fPSTATE_BLANK_PITCH
    (b2n ((s.pipe p).fullBlank || s.pitchBlanks p))).wr a fPSTATE_BLANK_FIRST (b2n (left != 0))
  if s1.pst p = stRUNNING ∨ s1.pst p = stBLANKED then
    let blank := s1.on a fPSTATE_BLANK_SW || s1.on a fPSTATE_BLANK_SAVE || s1.on a fPSTATE_BLANK_PITCH || left != 0
    s1.wr a fPSTATE_STATE (if blank then stBLANKED else stRUNNING)
  else s1

/-! ### Fetch and culling figures of a frame (R66, R74, R76, R78) -/

/-- What the frame that ends fetched: LSTAT.TILES. -/
def State.closeTiles (s : State) (p : Nat) : State :=
  if (s.pipe p).scanning = false then s else overN 8 (fun m s => s.wr (rLSTAT p m) fLSTAT_TILES
    (if s.pst p = stRUNNING then s.fetchTiles .scan (s.pipe p).reproj p m else 0)) s

/-- LCULL, CLAMPED, REPROJ of a frame that begins, and FERR where a span of it failed already. -/
def State.openLayers (s : State) (p : Nat) : State :=
  let rp := (s.pipe p).reproj
  overN 8 (fun m s =>
    let raw := s.ltf .scan p m
    let clamped := bitOf rp m && decide (raw.clamp (s.layerRect .scan p m).w ≠ raw)
    let s1 := ((s.wr (rLSTAT p m) fLSTAT_REPROJ (b2n (bitOf rp m))).wr (rLSTAT p m) fLSTAT_CLAMPED (b2n clamped)).wr (rLSTAT p m)
      fLSTAT_FERR (b2n (bitOf (s.pipe p).ferrNext m))
    let s2 := if clamped then s1.bumpErr (rLCLAMP p m) else s1
    if s2.pst p = stRUNNING then s2.bumpEv (rLCULL p m) (s2.cullCount .scan rp p m) else s2) s

/-- FETCH_STAT of a frame that begins. -/
def State.openFetch (s : State) (p : Nat) : State :=
  let s1 := ((s.showCap p).wr (rFETCH_STAT p) fFETCH_STAT_FETCH_STEP (s.fetchStep .scan p)).modPipe p (fun x => { x with ferrNext := 0 })
  (if s1.pst p = stRUNNING then s1 else s1.modPipe p (fun x => { x with spans := [], awn := [], awnAgain := .none })).updatePanic p

/-! ### Writeback (R91, R92) -/

/-- The stall that holds a pipe's writeback grant; with none granted it is S0. -/
def State.wbHolder (s : State) (p : Nat) : Nat :=
  ((List.range 16).filter (fun st => bitOf (s.rd (rGPIPE st) fGPIPE_WB) p && s.stallState st != 0)).headD 0

/-- A writeback ends with OVF (R92, R234); a one-shot keeps EN and writes the next RUNNING frame. (DESIGN CHOICE, log entry 88) -/
def State.wbEnd (s : State) (p : Nat) : State :=
  (((s.wr (rWB_STAT p) fWB_STAT_OVF 1).bumpErr (rWB_OVF p)).modPipe p (fun x => { x with wbStop := true })).showWb p

/-- A frame begins with its writeback, if it is RUNNING and EN = 1 in force, and not while a one-shot frame waits for its last write. (DESIGN CHOICE, log entry 88) -/
def State.wbBegin (s : State) (p : Nat) : State :=
  let cfg (f : Fld) : Bool := s.son (rWB_CFG p) f
  let on := s.pst p == stRUNNING && cfg fWB_CFG_EN && !(cfg fWB_CFG_ONESHOT && (s.pipe p).wbLast.any (fun q => q.2))
  (s.modPipe p (fun y => { y with wbOn := on, wbStop := false })).showWb p

/-- The address of row y of the writeback buffer. -/
def State.wbRow (s : State) (p y : Nat) : Nat :=
  s.srd (rWB_ADDR_LO p) fWB_ADDR_LO_ADDR * 64 + 2 ^ 32 * s.srd (rWB_ADDR_HI p) fWB_ADDR_HI_ADDR +
    y * (s.srd (rWB_STRIDE p) fWB_STRIDE_STRIDE64 * 64)

/-- A byte of the writeback buffer with an open value: what it holds after an overflow is undefined (R92). -/
def State.wbOpenByte (s : State) (p a : Nat) : State :=
  match s.gateCheck (s.wbHolder p) a true false with
  | (s1, .phys b) => (s1.useFree.memStore b [s1.free.setWidth 8]).1
  | (s1, _) => s1

/-- The rows from y on are left with open values. -/
def State.wbOpenRows (s : State) (p y : Nat) : State :=
  let n := (s.tmg p).ha * (wbBytes (s.srd (rWB_CFG p) fWB_CFG_FORMAT) Px.clear).length
  overN ((s.tmg p).va - y) (fun j s => overN n (fun i s => s.wbOpenByte p (s.wbRow p (y + j) + i)) s) s

/-- One row of a frame is written through the holder's gate; a write that the gate refuses ends the frame (R234), and so does one that fails in memory or is
dropped with its stall's squash. (DESIGN CHOICE, log entry 88) -/
def State.wbLine (s : State) (p y : Nat) (px : List Px) (overflow : Bool) : State :=
  let x := s.pipe p
  if x.wbOn && !x.wbStop then
    if overflow then (s.wbOpenRows p y).wbEnd p
    else
      let b := px.flatMap (fun q => wbBytes (s.srd (rWB_CFG p) fWB_CFG_FORMAT) q)
      let (s1, ok) := s.stallStore (s.wbHolder p) ⟨4, 16 * p + 8⟩ (s.wbRow p y) b
      if ok then s1 else s1.wbEnd p
  else s

/-! ### Lines (R77, R86, R91) -/

/-- The pixels of a line after dither. -/
def State.lineOut (s : State) (p y : Nat) (pre : List Px) : List Px :=
  pre.zipIdx.map (fun q => ditherPx (s.srd (rCCFG p) fCCFG_DITHER) (bpcBits (s.tmg p).bpc) y q.2 (s.frameCount p) q.1)

/-- The composition of the line that is being composed ends: transmitter, pitches and writeback are fed (R86, R91, R121). Awning data that arrived while it ran
replace the SAFE colour from the pixel reached then on, which is the device's: a free value (R139). (DEDUCED, log entry 22) -/
def State.lineEnd (s : State) (p : Nat) : State :=
  match (s.pipe p).openLine with
  | none => s
  | some l =>
    let late := !l.awn && (s.awnLineOf p l.y).isSome
    let reached := if late then s.free.toNat % (l.px.length + 1) else 0
    let pre := l.px.zipIdx.map (fun q => s.preDither p q.2 l.y (if reached ≤ q.2 then s.awnLineOf p l.y else none) q.1)
    let out := s.lineOut p l.y pre
    let s1 := ((if late then s.useFree else s).modPipe p (fun x => { x with openLine := .none })).pitchLine p l.y out
    (s1.wbLine p l.y (if s.son (rWB_CFG p) fWB_CFG_POINT then pre else out) l.overflow).emit (.video p l.y (out.map (fun q => (q.r, q.g, q.b))))

/-- The composition of line y of a RUNNING frame begins, that of the line before it has ended: underrun counted, its data leaves the FIFO; in BLANKED the
transmitter sends black (R44, R77, R86). (DEDUCED, log entry 22) -/
def State.composeLine (s0 : State) (p y : Nat) (overflow : Bool) : State :=
  let s := s0.lineEnd p
  if s.pst p = stRUNNING ∧ y < (s.tmg p).va then
    let s1 := (if s.lineComplete .scan (s.pipe p).reproj p y then s else s.bumpErr (rUNDERRUN p)).fifoSpoil p y
    let l : OpenLine := ⟨y, (List.range (s.tmg p).ha).map (fun x => s1.blendLayers p x y), (s.awnLineOf p y).isSome, overflow⟩
    (s1.modPipe p (fun x => { x with openLine := some l, spans := x.spans.filter (fun t => decide (y < t.line)) })).updatePanic p
  else if s.pst p = stBLANKED ∧ y < (s.tmg p).va then s.emit (.video p y (List.replicate (s.tmg p).ha (0, 0, 0)))
  else s

/-- PITCH_COMPARE (R128): the deciding pair of an enabled pitch has passed dither, once a frame. -/
def execPitchCompare (p : Fin 8) (k : Fin 16) (s : State) : Host.Outcome State Fault Refusal :=
  let s := s.begin
  .next (s.guard ((s.pipe p).scanning && s.pitchOn .scan p k && !(s.pitch p k).done && decide (s.pitchLastLine p k ≤ (s.pipe p).line))
    (fun s => (s.lineEnd p).pitchCompare p k))

/-- LINE_POS shows the line and the live frame count. -/
def State.showLine (s : State) (p : Nat) : State :=
  (s.wr (rLINE_POS p) fLINE_POS_LINE (s.pipe p).line).wr (rLINE_POS p) fLINE_POS_FRAME_LO (s.frameCount p)

/-! ### Fleet marks (R395, R396) -/

/-- Does the vertical blanking of frame `mark` + n start less than 2 frame periods from now (R396)? `lines` is how far the current frame has
come. -/
def State.armTooLate (s : State) (p mark n lines : Nat) : Bool :=
  let t := s.tmg p
  decide ((n : Int) * t.vtotal + t.va < ((since32 (s.frameCount p) mark + 2) * t.vtotal + lines : Nat))
/-- TALLY_CTRL.PIPE, TALLY_FRAME and ARM for frame `mark` + n; refused with FRAME_MISSED where it is too late. A busy TEL is no matter of
arming (R32). -/
def State.armAfterMark (s : State) (p mark n lines : Nat) : State :=
  let target := (mark + n) % 2 ^ 32
  if s.armTooLate p mark n lines then (s.wr rTALLY_CTRL fTALLY_CTRL_ARM 0).wr rTALLY_STAT fTALLY_STAT_FRAME_MISSED 1
  else ((s.wr rTALLY_CTRL fTALLY_CTRL_PIPE p).wr rTALLY_FRAME fTALLY_FRAME_TARGET target).wr rTALLY_CTRL fTALLY_CTRL_ARM 1

/-! ### The frame boundary -/

/-- SYNC_OUT pins in PIPE mode assert at a frame boundary of their pipe (R64). -/
def State.syncOutAssert (s : State) (p : Nat) : State :=
  (overN 2 (fun o s => if s.syncOutOf o p then { s with syncOut := setBitN s.syncOut o true } else s) s).syncDrive s

/-- A frame boundary of the marked pipe at least 1,000 µs after the mark arrived captures it (R395); `t` is in cycles of 1.6 GHz. A held
ARM_AFTER_MARK is applied, unless its vertical blanking would start less than 2 frame periods from here (R396). -/
def State.markBoundary (s : State) (p t : Nat) : State :=
  match s.sm.mark with
  | none => s
  | some k =>
    if k.pipe ≠ p ∨ t / 1600 < k.at_ + 1000 then s
    else
      let f := s.frameCount p
      let put (key : Nat) (b : List Byte) (s : State) : State :=
        { s with sm := { s.sm with dict := storePut (fun _ => []) s.sm.dict (0x9010 * 256 + key) b } }
      let seq := (ofBytesLE (storeGet (fun _ => []) s.sm.dict (0x9010 * 256 + 4)) + 1) % 65536
      let s1 := put 4 (bytesLE 2 seq) (put 3 (bytesLE 4 (t / 1600 - k.at_)) (put 2 (bytesLE 4 f) s))
      let s2 : State := { s1 with sm := { s1.sm with mark := none, markPipe := p, markValid := true } }
      match k.arm with
      | none => s2
      | some n => s2.armAfterMark p f n 0

/-- A frame that shows its layers shows the self-test pattern in its layer's place; one that is blanked does not (R399). (DESIGN CHOICE, log entry 66) -/
def State.patFrame (s : State) (p : Nat) : State :=
  let on := s.pst p == stRUNNING
  s.modPipe p (fun x => { x with
    patNow := if on then x.pattern.map (fun q => (q.1, q.2.1)) else .none
    patShown := x.patShown + b2n (on && x.pattern.isSome)
    pattern := if on then x.pattern.bind (fun q => if q.2.2 ≤ 1 then .none else some (q.1, q.2.1, q.2.2 - 1)) else x.pattern })

/-- A frame begins at time `t` (R38): the boundary is also the start of its line 0. (DEDUCED, log entry 22) -/
def State.frameBegin (s0 : State) (p t : Nat) (overflow : Bool) : State :=
  let s := ((s0.closeTiles p).wbClose p).bumpFrame (rFRAME p)
  let s1 := (s.modPipe p (fun x =>
    { x with scanning := true, bound := some t, line := 0, latched := false, vblank := false
             guard := match x.gfNext with | some g => g.1 | none => x.guard
             fallback := match x.gfNext with | some g => g.2 | none => x.fallback
             gfNext := .none, reproj := x.reprojNext, reprojNext := 0
             blackLeft := if x.realign then 1 else x.blackLeft - 1 })).takeScan p
  let s2 := s1.syncBoundary p t
  let s3 := overN 16 (fun k s => s.pitchFrame p k) s2
  let s4 := ((s3.decideFullBlank p).boundaryState p).patFrame p
  let s5 := s4.modPipe p (fun x =>
    let now := x.alignAsked && x.present && !x.offEdge
    { x with realign := false, alignDue := x.alignDue && decide (x.blackLeft ≠ 1), nextRunning := false, aligning := now
             alignPix := if now then s4.alignLen p t else 0 })
  let s6 := ((s5.awnSelect p).wr (rAFSTAT p) fAFSTAT_DOUBLE (b2n ((s5.pipe p).awn.any (fun q => q.bytes.isNone)))).openLayers p
  let s7 := (((s6.openFetch p).wbBegin p).setIslandStep p).pipeVolt.markBoundary p t
  let s8 := (s7.edgeToDependents p t).syncOutAssert p
  ((s8.showLine p).publishTtl p).composeLine p 0 overflow

/-- Does the pipe's frame boundary begin a new frame, stop the pipe, or is it no boundary: the end of the last old frame of a
timing change? -/
def State.frameBoundary (s : State) (p t : Nat) (overflow : Bool) : State :=
  let x := s.pipe p
  if !(x.scanning && x.vblank) then s
  else if x.stop = .atBoundary then (s.closeTiles p).stopIdle p
  else if x.goTaken then s
  else s.frameBegin p t overflow

/-- FRAME_BOUNDARY (R38, R45, R46, R64): `overflow` says that the writeback buffer overflows in line 0; `lost` which panels lose the pulse of the
boundary (bits 7:0) and that of the start of line 0 (bits 15:8). (DESIGN CHOICE, log entries 3, 80; DEDUCED, log entries 18, 25) -/
def execFrameBoundary (p : Fin 8) (t : Nat) (overflow : Bool) (lost : BitVec 16) (s : State) : Host.Outcome State Fault Refusal :=
  let l := if (s.pipe p).scanning then lost.toNat else 0
  .next (((s.begin.frameBoundary p t overflow).losePulses p 1 (l % 256)).losePulses p 2 (l / 256))

/-- LINE_START (R191, R77, R92): a line after line 0 starts; the last line of a frame may be lengthened, so no line follows it. (DEDUCED, log entry 25; DESIGN CHOICE, log entry 80) -/
def execLineStart (p : Fin 8) (overflow : Bool) (lost : BitVec 8) (s : State) : Host.Outcome State Fault Refusal :=
  let s := s.begin
  .next (s.guard ((s.pipe p).scanning && decide ((s.pipe p).line + 1 < (s.tmg p).vtotal)) (fun s =>
    let s1 := s.modPipe p (fun x => { x with line := x.line + 1 })
    (((s1.showLine p).publishTtl p).composeLine p (s1.pipe p).line overflow).losePulses p 2 lost.toNat))

/-- A timing change requested by GO is taken or refused at the latch point (R54 step 3). -/
def State.latchGo (s : State) (p : Nat) : State :=
  if s.on (rTSTAT p) fTSTAT_PENDING && !(s.pipe p).goTaken && !(s.pipe p).gap then
    let rej (r : Nat) : State := (s.wr (rTSTAT p) fTSTAT_PENDING 0).wr (rTSTAT p) fTSTAT_REJECT r
    if s.pst p ≠ stRUNNING ∧ s.pst p ≠ stBLANKED then rej 3
    else
      let t := s.tnx p
      let new := s.on (rTNX_CTRL p) fTNX_CTRL_NEW_LINK
      let rate := if new then s.rd (rTNX_CTRL p) fTNX_CTRL_RATE else s.rd (rLINK_STAT p) fLINK_STAT_RATE
      let lanes := if new then s.rd (rTNX_CTRL p) fTNX_CTRL_LANES else s.rd (rLINK_STAT p) fLINK_STAT_LANES
      if t.inLimits (s.pipe p).guard = false then rej 1
      else if t.fits rate lanes = false then rej 2
      else (s.latchAll [rTNX_H0 p, rTNX_H1 p, rTNX_V0 p, rTNX_V1 p, rTNX_CLK p, rTNX_CTRL p]).modPipe p (fun x => { x with goTaken := true })
  else s

/-- Whether the next frame will be RUNNING, as far as the latch point knows (R444). -/
def State.decideNext (s : State) (p : Nat) : State :=
  let x := s.pipe p
  let ok := (s.pst p == stRUNNING || s.pst p == stBLANKED) && x.stop == .none && !x.goTaken && !x.realign && decide (x.blackLeft ≤ 1) &&
    !(s.on (rPCTRL p) fPCTRL_BLANK) && !(s.on (rPSTATE p) fPSTATE_BLANK_SAVE) && !(s.fullBlanks .force p) && !(s.pitchWillBlank p)
  s.modPipe p (fun x => { x with nextRunning := ok })

/-- LATCH_POINT (R101, R105): once a frame, GUARD lines before vertical blanking. The deadline window closes. (DEDUCED, log entry 25) -/
def execLatchPoint (p : Fin 8) (s : State) : Host.Outcome State Fault Refusal :=
  let s := s.begin
  .next (s.guard ((s.pipe p).scanning && !(s.pipe p).latched && decide ((s.tmg p).va - (s.pipe p).guard ≤ (s.pipe p).line)) (fun s =>
    let s1 := (s.wr (rTTL p) fTTL_WINDOW 0).modPipe p (fun x => { x with latched := true })
    let s2 := overN 16 (fun k s => s.latchPitch p k) ((s1.awnLatch p).latchCommits p)
    (((s2.latchGo p).decideNext p).showCap p).pipeVolt.setIslandStep p))

/-- The frame tally: the selected pipe is RUNNING and its frame count is the target (R33). -/
def State.frameTally (s : State) (p : Nat) : State :=
  if s.on rTALLY_CTRL fTALLY_CTRL_ARM && s.rd rTALLY_CTRL fTALLY_CTRL_PIPE == p && s.pst p == stRUNNING &&
      s.frameCount p == s.rd rTALLY_FRAME fTALLY_FRAME_TARGET then s.tallyRequest .frame else s

/-- VERTICAL_BLANKING_START (R103, R108, R33, R443, R51): once a frame, after its latch point. (DEDUCED, log entry 25; DESIGN CHOICE, log entry 80) -/
def execVerticalBlankingStart (p : Fin 8) (lost : BitVec 8) (s : State) : Host.Outcome State Fault Refusal :=
  let s := s.begin
  .next (s.guard ((s.pipe p).scanning && (s.pipe p).latched && !(s.pipe p).vblank && decide ((s.tmg p).va ≤ (s.pipe p).line)) (fun s =>
    let s1 := s.modPipe p (fun x => { x with vblank := true, spans := [], awn := [], awnAgain := .none })
    let s2 := ((s1.publishCommits p).decideCorrection p).publishTtl p
    let s3 := if s2.hpdIgnored p && (s2.pst p == stRUNNING || s2.pst p == stBLANKED) then s2.modPipe p (fun x => { x with laneRead := true })
      else s2
    (s3.frameTally p).losePulses p 0 lost.toNat))

/-- The last write of a whole writeback frame completes, of the oldest that waits for it (R92). (DESIGN CHOICE, log entry 88) -/
def State.wbDone (s0 : State) (p : Nat) : State :=
  let s := if decide ((s0.tmg p).va ≤ (s0.pipe p).line + 1) then s0.lineEnd p else s0
  let x := s.pipe p
  let done (s : State) (frame : Nat) (oneShot : Bool) : State :=
    let s1 := ((((s.wr (rWB_STAT p) fWB_STAT_OVF 0).wr (rWB_STAT p) fWB_STAT_FRAME_LO frame).bumpEv (rWB_DONE p) 1).irq (s.wbHolder p) (80 + p))
    if oneShot then (s1.wr (rWB_CFG p) fWB_CFG_EN 0).fwr (rWB_CFG p) fWB_CFG_EN 0 else s1
  match x.wbLast with
  | f :: _ => ((done s f.1 f.2).modPipe p (fun y => { y with wbLast := y.wbLast.drop 1 })).showWb p
  | [] =>
    if x.wbOn && !x.wbStop && decide ((s.tmg p).va ≤ x.line + 1) then
      ((done s (s.frameCount p % 2 ^ 16) (s.son (rWB_CFG p) fWB_CFG_ONESHOT)).modPipe p (fun y => { y with wbOn := false })).showWb p
    else s

/-- WRITEBACK_FRAME_DONE (R92). -/
def execWritebackFrameDone (p : Fin 8) (s : State) : Host.Outcome State Fault Refusal := .next (s.begin.wbDone p)

end Sys2Proof.Machine
end

