-- ==== Sys2Proof/Machine/Pipe.lean ====
section
/-! DEFINITION. Machine/Pipe.lean: the commands of chapter 02: start and stop, live timing change, link training, HPD, AUX, sync lock
(R38 to R64, R442). -/
namespace Sys2Proof.Machine

/-! ### PCTRL (R45 to R47) -/

/-- Bits of a refused START or GO (R42 TSTAT). -/
def State.reject (s : State) (p code : Nat) : State := s.wr (rTSTAT p) fTSTAT_REJECT code

/-- START (R38, R47, R48), refused before SERVICE_UP, where the pipes are STOPPED (R438): the frame boundary of the first frame is at the moment of acceptance, time `t`. (DEDUCED, log entry 18) -/
def State.pipeStart (s : State) (p t : Nat) : State :=
  if s.pst p ≠ stSTOPPED ∨ (s.pipe p).stop ≠ .none ∨ s.dstate < 3 then s.reject p 3
  else if (s.tmg p).inLimits (s.pipe p).guard = false then s.reject p 1
  else if (s.tmg p).fits (s.rd (rLINK_CFG p) fLINK_CFG_MAX_RATE) (s.rd (rLINK_CFG p) fLINK_CFG_MAX_LANES) = false then s.reject p 2
  else (s.beginTraining p .start .none).frameBegin p t false

/-- PCTRL takes a word: AUTO_RECOVER and BLANK are stored, then STOP, then START act; a retry whose condition holds begins. (DEDUCED, log entry 14) -/
def State.wrPctrl (s : State) (p t : Nat) (w : W64) : State :=
  let s1 := s.settingWrite (rPCTRL p) w true false
  let s2 := if getFld w fPCTRL_STOP = 1 then s1.pipeStop p else s1
  let s3 := if getFld w fPCTRL_START = 1 then s2.pipeStart p t else s2
  (s3.tryRecover p).msrCompare

/-- PIPE_START (R47): PCTRL is written with START, its settings as they stand. (DESIGN CHOICE, log entry 3) -/
def execPipeStart (who : Who) (p : Fin 8) (t : Nat) (s : State) : Host.Outcome State Fault Refusal :=
  .next (s.begin.write who (rPCTRL p) (fun s => s.wrPctrl p t (wBit (s.rw (rPCTRL p)) fPCTRL_START)))

/-- PIPE_STOP (R46). -/
def execPipeStop (who : Who) (p : Fin 8) (s : State) : Host.Outcome State Fault Refusal :=
  .next (s.begin.write who (rPCTRL p) (fun s => s.wrPctrl p 0 (wBit (s.rw (rPCTRL p)) fPCTRL_STOP)))

/-- AUTO_RECOVER (R47). -/
def execAutoRecover (who : Who) (p : Fin 8) (en : Bool) (s : State) : Host.Outcome State Fault Refusal :=
  .next (s.begin.write who (rPCTRL p) (fun s => s.wrPctrl p 0 (putFld (s.rw (rPCTRL p)) fPCTRL_AUTO_RECOVER (b2n en))))

/-- STOPPED is reached (R46): lanes off, island clock gated, and its voltage no longer needed (R447). -/
def State.stopped (s : State) (p : Nat) : State :=
  let s1 := (((s.wr (rPSTATE p) fPSTATE_STATE stSTOPPED).wr (rPSTATE p) fPSTATE_FAULT_CAUSE 0).wr (rPSTATE p) fPSTATE_BLANK_FIRST 0).wr
    (rLINK_STAT p) fLINK_STAT_TRAINED 0
  (((s1.modPipe p (fun x => { x with stop := .none })).auxFree p).setIslandStep p).pipeVolt.syncOutStop p

/-- STOPPED_REACHED (R46). -/
def execStoppedReached (p : Fin 8) (s : State) : Host.Outcome State Fault Refusal :=
  let s := s.begin
  .next (s.guard (decide ((s.pipe p).stop = .idle)) (fun s => s.stopped p))

/-! ### Live timing change (R54) -/

/-- GO (R54 steps 1 to 3): a second GO before the change starts does nothing. (DEDUCED, log entry 18) -/
def State.timingGo (s : State) (p : Nat) : State :=
  let x := s.pipe p
  if (s.pst p ≠ stRUNNING ∧ s.pst p ≠ stBLANKED) ∨ x.stop = .idle then s.reject p 3
  else if s.on (rTSTAT p) fTSTAT_PENDING then s
  else
    let t := s.tnx p
    let new := s.on (rTNX_CTRL p) fTNX_CTRL_NEW_LINK
    let rate := if new then s.rd (rTNX_CTRL p) fTNX_CTRL_RATE else s.rd (rLINK_STAT p) fLINK_STAT_RATE
    let lanes := if new then s.rd (rTNX_CTRL p) fTNX_CTRL_LANES else s.rd (rLINK_STAT p) fLINK_STAT_LANES
    if t.inLimits x.guard = false then s.reject p 1
    else if t.fits rate lanes = false then s.reject p 2
    else (s.wr (rTSTAT p) fTSTAT_PENDING 1).wr (rTSTAT p) fTSTAT_LATE (b2n x.latched)

/-- TNX_CTRL takes a word. -/
def State.wrTnxCtrl (s : State) (p : Nat) (w : W64) : State :=
  let s1 := s.settingWrite (rTNX_CTRL p) w true false
  if regBadRange (rTNX_CTRL p) w then s1 else if getFld w fTNX_CTRL_GO = 1 then s1.timingGo p else s1

/-- TIMING_CHANGE_GO (R54): TNX_CTRL is written with GO. -/
def execTimingChangeGo (who : Who) (p : Fin 8) (w : W32) (s : State) : Host.Outcome State Fault Refusal :=
  .next (s.begin.write who (rTNX_CTRL p) (fun s => s.wrTnxCtrl p (wBit (wide w) fTNX_CTRL_GO)))

/-- Synthesiser and link are ready: the first frame of the new timing begins, black (R54 step 5, R45), to be aligned in a live change (R61); a STOP that
waited for this boundary acts in its place (R46). -/
def State.gapReady (s : State) (p t : Nat) : State :=
  let x := s.pipe p
  if !(x.gap && x.settled && x.linkReady) then s
  else if x.stop = .atBoundary then s.stopIdle p
  else
    let live := s.pst p == stRUNNING || s.pst p == stBLANKED || (s.pst p == stTRAINING && (x.reason == .live || x.reason == .sink))
    let s1 := (s.wr (rTSTAT p) fTSTAT_PENDING 0).modPipe p (fun y =>
      { y with gap := false, blackLeft := if live then 2 else y.blackLeft, alignDue := y.alignDue || live, reason := if live then .none else y.reason })
    (if live then s1.wr (rPSTATE p) fPSTATE_STATE stBLANKED else s1).frameBegin p t false

/-- The end of the last old frame (R54 step 4): the voltage that the new clock needs is requested (R40, R448). A retrain of the old link that is running
gives way to the training of a new one, or goes on and is waited for; a waiting STOP acts at once where the pipe is or comes into TRAINING (R46). -/
def State.oldFrameEnd (s0 : State) (p t : Nat) : State :=
  let s := s0.wbClose p
  let oldClk := (s.tmg p).pclk
  let s1 := (((((s.closeTiles p).setRw (rTMG_H0 p) (s.frw (rTNX_H0 p))).setRw (rTMG_H1 p) (s.frw (rTNX_H1 p))).setRw (rTMG_V0 p)
    (s.frw (rTNX_V0 p))).setRw (rTMG_V1 p) (s.frw (rTNX_V1 p))).setRw (rTMG_CLK p) (s.frw (rTNX_CLK p))
  let rl := (s.frd (rTNX_CTRL p) fTNX_CTRL_RATE, s.frd (rTNX_CTRL p) fTNX_CTRL_LANES)
  let sink := s.pst p == stTRAINING && (s.pipe p).reason == TrainReason.sink
  let live := s.pst p == stRUNNING || s.pst p == stBLANKED || sink
  let train := live && s.fon (rTNX_CTRL p) fTNX_CTRL_NEW_LINK &&
    decide (rl ≠ (s.rd (rLINK_STAT p) fLINK_STAT_RATE, s.rd (rLINK_STAT p) fLINK_STAT_LANES))
  let s2 := s1.modPipe p (fun y =>
    { y with scanning := false, gap := true, goTaken := false, settled := decide ((s1.tmg p).pclk = oldClk), linkReady := !(train || sink)
             nextRunning := false, ferrNext := 0, spans := [], awn := [], awnAgain := .none, openLine := .none, wbOn := false, wbStop := false, bound := .none })
  let s3 := ((((s2.wr (rTTL p) fTTL_VALID 0).wr (rTTL p) fTTL_WINDOW 0).wr (rFETCH_STAT p) fFETCH_STAT_PANIC 0).showWb p).pipeVolt.setIslandStep p
  if decide ((s.pipe p).stop = .atBoundary) && (train || sink) then s3.stopIdle p
  else (if train then s3.beginTraining p .live (some rl) else s3).gapReady p t

/-- LAST_OLD_FRAME_END (R54). -/
def execLastOldFrameEnd (p : Fin 8) (t : Nat) (s : State) : Host.Outcome State Fault Refusal :=
  let s := s.begin
  .next (s.guard ((s.pipe p).scanning && (s.pipe p).vblank && (s.pipe p).goTaken) (fun s => s.oldFrameEnd p t))

/-- SYNTHESISER_SETTLED (R41, R54). -/
def execSynthesiserSettled (p : Fin 8) (t : Nat) (s : State) : Host.Outcome State Fault Refusal :=
  let s := s.begin
  .next (s.guard ((s.pipe p).gap && !(s.pipe p).settled)
    (fun s => (s.modPipe p (fun x => { x with settled := true })).gapReady p t))

/-- PCLK_UNLOCK (R47): the generator runs in FAULT (R44), so a new timing that waits for the link alone begins. -/
def execPclkUnlock (p : Fin 8) (t : Nat) (s : State) : Host.Outcome State Fault Refusal :=
  let s := s.begin
  .next (s.guard (s.works && decide (s.pst p ≠ stSTOPPED) && decide ((s.pipe p).stop ≠ .idle)) (fun s => (s.pipeFault p 4).gapReady p t))

/-! ### Training (R48, R49) -/

/-- The highest rate and lane count: the lower of the sink's and the configured ones (R48 step 2). (DESIGN CHOICE, log entry 20) -/
def State.linkMax (s : State) (p sinkRate sinkLanes : Nat) : Nat × Nat :=
  (min sinkRate (s.rd (rLINK_CFG p) fLINK_CFG_MAX_RATE), min sinkLanes (s.rd (rLINK_CFG p) fLINK_CFG_MAX_LANES))

/-- The setting that training tries: the one it reached, or the first that meets R50; without AUTO_FALLBACK only the highest. -/
def State.curSetting (s : State) (p sinkRate sinkLanes : Nat) : Option (Nat × Nat) :=
  match (s.pipe p).setting with
  | some x => some x
  | none =>
    let m := s.linkMax p sinkRate sinkLanes
    if s.on (rLINK_CFG p) fLINK_CFG_AUTO_FALLBACK then firstFitting (s.tmg p) (lowerSettings m.1 m.1 m.2) else firstFitting (s.tmg p) [m]

/-- Training ends in FAULT (R45, R47, R55): LINK_EVT.TRAIN_FAIL; a waiting new timing goes on in FAULT. -/
def State.trainFault (s : State) (p t cause : Nat) : State :=
  ((s.wr (rLINK_EVT p) fLINK_EVT_TRAIN_FAIL 1).pipeFault p (failCause (s.pipe p).reason cause)).gapReady p t

/-- The equalisation pattern of a training (R48 step 4): the highest that the sink supports, TPS4 at 8.1 Gbit/s only. (DESIGN CHOICE, log entry 20) -/
def trainTps (rate sink : Nat) : Nat := min (max 1 sink) (if rate = 3 then 3 else 2)

/-- The levels of the lanes in use, within MAX_SWING and MAX_PREEMPH (R48 step 4). -/
def State.trainLevels (s : State) (p lanes levels : Nat) : Nat :=
  (List.range (lanesOf lanes)).foldl (fun v k =>
    v + (4 * min (levels / 2 ^ (4 * k + 2) % 4) (s.rd (rOUT_TRAIN_CFG p) fOUT_TRAIN_CFG_MAX_SWING) +
      min (levels / 2 ^ (4 * k) % 4) (s.rd (rOUT_TRAIN_CFG p) fOUT_TRAIN_CFG_MAX_PREEMPH)) * 2 ^ (4 * k)) 0

/-- The DPCD writes of R48 step 3 for a setting: LINK_BW_SET, LANE_COUNT_SET with enhanced framing, DOWNSPREAD_CTRL, the ASSR enable. (PRESUMED, log entry 84) -/
def State.dpcdSetup (s : State) (p : Nat) (rl : Nat × Nat) : State :=
  let s1 := ((s.emit (.dpcd p 0x100 ([6, 10, 20, 30].getD rl.1 0))).emit (.dpcd p 0x101 (0x80 + lanesOf rl.2))).emit
    (.dpcd p 0x107 (16 * s.rd (rLINK_CFG p) fLINK_CFG_SSC))
  if s.on (rLINK_CFG p) fLINK_CFG_MODE && s.on (rLINK_CFG p) fLINK_CFG_ASSR then s1.emit (.dpcd p 0x10A 1) else s1

/-- The link is trained at a setting (R48 steps 3 to 5, R45): the first whole frame after START is to be aligned (R61), that of a recovery out of FAULT is not. -/
def State.linkTrained (s : State) (p t : Nat) (rl : Nat × Nat) (tps levels : Nat) : State :=
  let a := rLINK_STAT p
  let r := (s.pipe p).reason
  let s0 := (s.dpcdSetup p rl).emit (.dpcd p 0x102 0)
  let s1 := ((((s0.wr a fLINK_STAT_TRAINED 1).wr a fLINK_STAT_RATE rl.1).wr a fLINK_STAT_LANES rl.2).wr a fLINK_STAT_TPS (trainTps rl.1 tps)).wr a
    fLINK_STAT_LEVELS (s.trainLevels p rl.2 levels)
  let s2 := s1.modPipe p (fun x => { x with setting := .none, linkReady := true })
  let s3 :=
    if r = .live ∨ (r = .sink ∧ (s.pipe p).gap = true) then s2.gapReady p t
    else
      let s3 := (s2.wr (rPSTATE p) fPSTATE_STATE stBLANKED).modPipe p (fun x => { x with reason := .none })
      if r = .sink then s3
      else (s3.wr (rPSTATE p) fPSTATE_BLANK_FIRST 1).modPipe p (fun x => { x with blackLeft := 2, alignDue := r == .start })
  s3.auxFree p

/-- LINK_TRAINED (R48): the sink's highest rate and lanes, the highest equalisation pattern it supports (1 TPS2, 2 TPS3, 3 TPS4) and the levels it
asked for come from outside. (DESIGN CHOICE, log entry 20) -/
def execLinkTrained (p : Fin 8) (t : Nat) (sinkRate : Fin 4) (sinkLanes : Fin 3) (tps : Fin 4) (levels : BitVec 16) (s : State) :
    Host.Outcome State Fault Refusal :=
  let s := s.begin
  .next (s.guard (s.trainingNow p) (fun s =>
    match s.curSetting p sinkRate sinkLanes with
    | some rl => s.linkTrained p t rl tps levels.toNat
    | none => s.trainFault p t 2))

/-- TRAINING_FAILED (R49): fallback, only in a bring-up with AUTO_FALLBACK = 1, or FAULT. (DESIGN CHOICE, log entry 20) -/
def execTrainingFailed (p : Fin 8) (t : Nat) (sinkRate : Fin 4) (sinkLanes : Fin 3) (s : State) : Host.Outcome State Fault Refusal :=
  let s := s.begin
  .next (s.guard (s.trainingNow p) (fun s =>
    let full := decide ((s.pipe p).reason = .start ∨ (s.pipe p).reason = .retry) && s.on (rLINK_CFG p) fLINK_CFG_AUTO_FALLBACK
    let nextSetting : Option (Nat × Nat) :=
      match s.curSetting p sinkRate sinkLanes with
      | some rl => if full then firstFitting (s.tmg p) (lowerSettings (s.linkMax p sinkRate sinkLanes).1 rl.1 rl.2).tail else none
      | none => none
    let s1 := match s.curSetting p sinkRate sinkLanes with | some rl => s.dpcdSetup p rl | none => s
    match nextSetting with
    | some rl => s1.modPipe p (fun x => { x with setting := some rl })
    | none => s1.trainFault p t 2))

/-- TRAIN_TIMEOUT (R49). -/
def execTrainTimeout (p : Fin 8) (t : Nat) (s : State) : Host.Outcome State Fault Refusal :=
  let s := s.begin
  .next (s.guard (s.trainingNow p) (fun s => s.trainFault p t 5))

/-- FAULT_RETRY (R47): 1,000 ms have passed in FAULT. -/
def execFaultRetry (p : Fin 8) (s : State) : Host.Outcome State Fault Refusal :=
  let s := s.begin
  .next (s.guard (s.works && s.pst p == stFAULT && decide (s.rd (rPSTATE p) fPSTATE_FAULT_CAUSE ≠ 1))
    (fun s => (s.modPipe p (fun x => { x with retryDue := true })).tryRecover p))

/-! ### HPD (R48, R51) -/

/-- HPD has risen after an unplug, or for the first time. -/
def State.hpdUp (s : State) (p : Nat) : State :=
  (s.wr (rLINK_STAT p) fLINK_STAT_HPD 1).modPipe p (fun x => { x with hpd := true, hpdLow := false, hpdStable := false })

/-- HPD has been low for more than 2 ms (R51); ignored in eDP mode with HPD_IGNORE = 1. -/
def State.hpdUnplug (s : State) (p t : Nat) : State :=
  let s1 := (s.wr (rLINK_STAT p) fLINK_STAT_HPD 0).modPipe p (fun x => { x with hpd := false, hpdLow := false, hpdStable := false })
  if s1.hpdIgnored p || !s1.works then s1
  else
    let s2 := (s1.wr (rLINK_EVT p) fLINK_EVT_UNPLUG 1).wr (rLINK_STAT p) fLINK_STAT_TRAINED 0
    if (s2.pst p = stRUNNING ∨ s2.pst p = stBLANKED ∨ s2.pst p = stTRAINING) ∧ (s2.pipe p).stop ≠ .idle then
      (s2.pipeFault p 1).gapReady p t
    else s2

/-- The transmitter watches HPD while its island is powered (R48). -/
def State.hpdWatched (s : State) (p : Nat) : Bool := s.islandOn (3 + p)

/-- HPD_FALL (R51); the pin of an unpowered island only has its level. (DEDUCED, log entry 19) -/
def execHpdFall (p : Fin 8) (s : State) : Host.Outcome State Fault Refusal :=
  let s := s.begin
  .next (s.guard (s.pipe p).hpd (fun s =>
    s.modPipe p (fun x => if s.hpdWatched p then { x with hpdLow := true } else { x with hpd := false })))

/-- HPD_RISE (R51): after a low pulse of `us` µs: IRQ_HPD from 250 µs
to 2 ms. (DEDUCED, log entry 19) -/
def execHpdRise (p : Fin 8) (us : Nat) (s : State) : Host.Outcome State Fault Refusal :=
  let s := s.begin
  .next (
    if s.hpdWatched p = false then s.modPipe p (fun x => { x with hpd := true })
    else if (s.pipe p).hpd = false then s.hpdUp p
    else if (s.pipe p).hpdLow = false then s
    else if us < 250 then s.modPipe p (fun x => { x with hpdLow := false, waitHpd := x.waitHpd && !x.hpdStable })
    else if us ≤ 2000 then
      let s1 := s.modPipe p (fun x => { x with hpdLow := false, hpdStable := false })
      if s1.hpdIgnored p || !s1.works then s1
      else ((s1.bumpEv (rHPD_IRQ p) 1).wr (rLINK_EVT p) fLINK_EVT_IRQ_HPD 1).modPipe p (fun x => { x with laneRead := true })
    else (s.hpdUnplug p 0).hpdUp p)

/-- HPD_UNPLUG (R51). (DEDUCED, log entry 19) -/
def execHpdUnplug (p : Fin 8) (t : Nat) (s : State) : Host.Outcome State Fault Refusal :=
  let s := s.begin
  .next (s.guard ((s.pipe p).hpd && (s.pipe p).hpdLow && s.hpdWatched p) (fun s => s.hpdUnplug p t))

/-- HPD_STABLE (R47, R48): high for 100 ms since the last rising edge. (DEDUCED, log entry 19) -/
def execHpdStable (p : Fin 8) (s : State) : Host.Outcome State Fault Refusal :=
  let s := s.begin
  .next (s.guard ((s.pipe p).hpd && !(s.pipe p).hpdLow && s.hpdWatched p)
    (fun s => (s.modPipe p (fun x => { x with hpdStable := true, waitHpd := false })).tryRecover p))

/-- LANE_STATUS_READ (R51, R45): a lane that has lost lock sets LINK_LOSS and, in RUNNING or BLANKED, starts a retrain at the current
setting; in the gap of a timing change the new timing waits for it. (DEDUCED, log entry 19) -/
def execLaneStatusRead (p : Fin 8) (lost : Bool) (s : State) : Host.Outcome State Fault Refusal :=
  let s := s.begin
  .next (s.guard (s.pipe p).laneRead (fun s =>
    let s1 := s.modPipe p (fun x => { x with laneRead := false })
    if lost then
      let s2 := s1.wr (rLINK_EVT p) fLINK_EVT_LINK_LOSS 1
      if (s2.pst p = stRUNNING ∨ s2.pst p = stBLANKED) ∧ (s2.pipe p).stop ≠ .idle then
        (s2.beginTraining p .sink (some (s2.rd (rLINK_STAT p) fLINK_STAT_RATE, s2.rd (rLINK_STAT p) fLINK_STAT_LANES))).modPipe p
          (fun x => { x with linkReady := !x.gap })
      else s2.auxFree p
    else s1.auxFree p))

/-! ### AUX (R52) -/

/-- AUX_CMD takes a word: CMD must be one of the listed ones; a GO while BUSY is refused. A write without GO while BUSY changes CMD and LEN of the
transaction in flight. (DESIGN CHOICE, log entry 81) -/
def State.wrAuxCmd (s : State) (p : Nat) (w : W64) : State :=
  if !(([0, 1, 4, 5, 8, 9] : List Nat).contains (getFld w fAUX_CMD_CMD)) then s.refuse (rAUX_CMD p)
  else if getFld w fAUX_CMD_GO = 1 then
    if s.on (rAUX_STAT p) fAUX_STAT_BUSY then s.refuse (rAUX_CMD p)
    else
      let s1 := (s.settingWrite (rAUX_CMD p) w true false).wr (rAUX_STAT p) fAUX_STAT_BUSY 1
      s1.modPipe p (fun x => { x with aux := if s1.auxBusySelf p then .waiting else .active, auxTries := 0 })
  else s.settingWrite (rAUX_CMD p) w true false

/-- AUX_GO (R52): AUX_CMD is written with GO. -/
def execAuxGo (who : Who) (p : Fin 8) (w : W32) (s : State) : Host.Outcome State Fault Refusal :=
  .next (s.begin.write who (rAUX_CMD p) (fun s => s.wrAuxCmd p (wBit (wide w) fAUX_CMD_GO)))

/-- A software transaction completes with an outcome and a byte count. -/
def State.auxDone (s : State) (p reply timeout count : Nat) : State :=
  let a := rAUX_STAT p
  ((((s.wr a fAUX_STAT_BUSY 0).wr a fAUX_STAT_REPLY reply).wr a fAUX_STAT_TIMEOUT timeout).wr a fAUX_STAT_COUNT count).modPipe p
    (fun x => { x with aux := .idle, auxTries := 0 })

/-- Is the request a read? -/
def State.auxIsRead (s : State) (p : Nat) : Bool := s.rd (rAUX_CMD p) fAUX_CMD_CMD % 2 == 1

/-- The bytes read go to AUX_DATA0 to 3. -/
def State.auxStore (s : State) (p : Nat) (d : List Byte) : State :=
  overN (min d.length 16) (fun i s => s.wr (rAUX_DATA p (i / 4)) ⟨8 * (i % 4), 8⟩ (d.getD i 0).toNat) s

/-- AUX_REPLY (R52): 0 ACK, 1 NACK, 2 DEFER; `data` are the bytes read, `n` the bytes a write transferred. -/
def execAuxReply (p : Fin 8) (code : Fin 3) (n : Nat) (data : List Byte) (s : State) : Host.Outcome State Fault Refusal :=
  let s := s.begin
  .next (s.guard (decide ((s.pipe p).aux = .active)) (fun s =>
    let len := s.rd (rAUX_CMD p) fAUX_CMD_LEN + 1
    if code.val = 2 then
      if (s.pipe p).auxTries < 7 then s.modPipe p (fun x => { x with auxTries := x.auxTries + 1 }) else s.auxDone p 2 0 0
    else if s.auxIsRead p then
      let d := if code.val = 0 then data.take len else []
      (s.auxStore p d).auxDone p code 0 d.length
    else s.auxDone p code 0 (min n len)))

/-- AUX_REPLY_TIMEOUT (R52). -/
def execAuxReplyTimeout (p : Fin 8) (s : State) : Host.Outcome State Fault Refusal :=
  let s := s.begin
  .next (s.guard (decide ((s.pipe p).aux = .active)) (fun s =>
    if (s.pipe p).auxTries < 7 then s.modPipe p (fun x => { x with auxTries := x.auxTries + 1 }) else s.auxDone p 0 1 0))

/-! ### Sync (R43, R56 to R64, R442) -/

/-- SYNC_SRC_WRITE (R43). -/
def execSyncSrcWrite (who : Who) (p : Fin 8) (w : W32) (s : State) : Host.Outcome State Fault Refusal :=
  .next (s.begin.write who (rSYNC_SRC p) (fun s => s.wrSyncSrc p (wide w)))

/-- SYNC_CTRL takes a word: REALIGN is ignored unless the pipe is RUNNING or BLANKED with its reference present and in range. -/
def State.wrSyncCtrl (s : State) (p : Nat) (w : W64) : State :=
  let x := s.pipe p
  if getFld w fSYNC_CTRL_REALIGN = 1 && (s.pst p == stRUNNING || s.pst p == stBLANKED) && x.present && !x.offEdge then
    s.modPipe p (fun x => { x with realign := true })
  else s

/-- REALIGN (R61). -/
def execRealign (who : Who) (p : Fin 8) (s : State) : Host.Outcome State Fault Refusal :=
  .next (s.begin.write who (rSYNC_CTRL p) (fun s => s.wrSyncCtrl p (wBit 0 fSYNC_CTRL_REALIGN)))

/-- REFERENCE_EDGE (R56, R442): an edge of SYNC_INn at time `t`, of a pulse shorter than 100 ns or not, reaches the pipes that follow
it, and the SYNC_OUT pins that pass it (R64). The active edge is set by POL; FILT removes short pulses (R63). -/
def execReferenceEdge (n : Fin 4) (rising short : Bool) (t : Nat) (s : State) : Host.Outcome State Fault Refusal :=
  let s := s.begin
  let pol := bitOf (s.rd rSYNC_IN_CFG fSYNC_IN_CFG_POL) n
  let filt := bitOf (s.rd rSYNC_IN_CFG fSYNC_IN_CFG_FILT) n
  let s1 := State.syncDrive { s with syncIn := setBitN s.syncIn n rising } s
  .next (s1.guard (rising != pol && !(short && filt)) (fun s => overN 8 (fun q s => s.seeEdge q (1 + n) t) s))

/-- MISSING_FRAME (R60, R442): a window closes without an edge, also in the gap of the pipe's own timing change. -/
def execMissingFrame (p : Fin 8) (s : State) : Host.Outcome State Fault Refusal :=
  let s := s.begin
  .next (s.guard (((s.pipe p).scanning || (s.pipe p).gap) && s.syncSrcOf p != 0 && (s.pipe p).base.isSome) (fun s => s.refMissing p))

/-- SYNC_OUT_PULSE_END (R64). -/
def execSyncOutPulseEnd (o : Fin 2) (s : State) : Host.Outcome State Fault Refusal :=
  let s := s.begin
  .next (State.syncDrive { s with syncOut := setBitN s.syncOut o false } s)

end Sys2Proof.Machine
end

