-- ==== Sys2Proof/Machine/Nvm.lean ====
section
/-! DEFINITION. Machine/Nvm.lean: the SRAM scrubber and the embedded non-volatile memory: keeper commands, wear map, persistent store
(R305 to R319). -/
namespace Sys2Proof.Machine

/-! ### SRAM scrub (R308, R310) -/

/-- SRAM_SCRUB_STEP: the next 64-byte block is read and corrected; `late` says, of the last block, that the pass ends later than PASS_S after
its start. OVERLAP and OWNER clear when a whole pass has not met their condition. Memory bits upset since the last command come first. (DEDUCED, log entry 52; DESIGN CHOICE, log entry 85) -/
def execSramScrubStep (late : Bool) (upsets : List (BitVec 36 × Bool)) (s : State) : Host.Outcome State Fault Refusal :=
  let s := s.begin.upset upsets
  .next (s.guard (s.works && s.on rMSR_SCRUB fMSR_SCRUB_EN && !s.anyPanic) (fun s =>
    let b := s.msr.block
    let s1 := (s.scrubBlock (sramBase + 64 * b)).wr rMSR_STAT fMSR_STAT_POS (b / 1024)
    if b + 1 < 786432 then { s1 with msr := { s1.msr with block := b + 1 } }
    else
      let shared := s1.sharedGrain.isSome
      let s2 := s1.bumpEv rMSR_SCRUB_PASSES 1
      let s3 := if late then s2.bumpErr rSCRUB_LATE else s2
      let s4 := if s3.msr.ovlSeen || shared then s3 else s3.wr rMSR_PART fMSR_PART_OVERLAP 0
      let s5 := if s4.msr.ownSeen then s4 else s4.wr rMSR_PART fMSR_PART_OWNER 0
      { s5 with msr := { s5.msr with block := 0, ovlSeen := shared, ownSeen := false } }))

/-! ### Sectors and lines (R312, R313, R314) -/

def State.modNvm (s : State) (f : NvmSt → NvmSt) : State := { s with nvm := f s.nvm }

/-- Erases so far of a sector. -/
def State.eraseCount (s : State) (k : Nat) : Nat := storeGet (fun _ => 0) s.nvm.erases k

/-- Has a sector no programmed line, and is it in use? -/
def State.sectorBlank (s : State) (k : Nat) : Bool := !(s.nvm.lines.any (fun l => l / 128 == k)) && !(s.nvm.retired.contains k)

/-- NVM_STAT shows the armed save sectors and the erased log sectors (R315, R317). -/
def State.armed (s : State) : List Nat := ((List.range 8).map (· + 164)).filter s.sectorBlank
def State.freeLog (s : State) : Nat := (((List.range 84).map (· + 172)).filter s.sectorBlank).length
def State.showNvm (s : State) : State := (s.wr rNVM_STAT fNVM_STAT_ARMED s.armed.length).wr rNVM_STAT fNVM_STAT_FREE_LOG s.freeLog

/-- A sector is erased; at 100,000 erases it is retired, and a retired one is used no more. (DEDUCED, log entry 53) -/
def State.eraseSector (s : State) (k : Nat) : State :=
  if s.nvm.retired.contains k then s
  else
  let n := s.eraseCount k + 1
  let out (a : Nat) : Bool := decide (a / 65536 ≠ k)
  let s1 := ((s.envKeep out).modNvm (fun x => { x with
    lines := x.lines.filter (fun l => decide (l / 128 ≠ k)), log := x.log.filter (fun l => decide (l.place / 128 ≠ k)),
    erases := storePut (fun _ => 0) x.erases k n })).bumpEv rNVM_ERASES 1
  let s2 := if n = 100000 then ((s1.modNvm (fun x => { x with retired := x.retired ++ [k] })).bumpErr rNVM_RETIRED).kevt 0x06 0x40 k 0 else s1
  s2.showNvm

/-- A line is programmed; a line of a retired sector is not. -/
def State.programLine (s : State) (place : Nat) (b : List Byte) : State :=
  if s.nvm.retired.contains (place / 128) then s
  else ((s.envWrite (place * 512) b).modNvm (fun x => { x with lines := place :: x.lines })).showNvm

/-- NVM_CMD: refused while BUSY; ERASE and PROGRAM not in sectors 162 to 255; a line is programmed once between two erases. -/
def State.wrNvmCmd (s : State) (w : W64) : State :=
  let op := getFld w fNVM_CMD_OP
  let k := getFld w fNVM_CMD_SECTOR
  let line := s.rd rNVM_ADDR fNVM_ADDR_LINE
  if op = 0 then s
  else if s.on rNVM_STAT fNVM_STAT_BUSY || (op != 3 && decide (162 ≤ k)) || (op == 2 && s.nvm.lines.contains (k * 128 + line)) then
    s.refuse rNVM_CMD
  else
    let b := (List.range 128).flatMap (fun i => bytesLE 4 (s.rw (rNVM_BUF i)).toNat)
    (s.modNvm (fun x => { x with op := some ⟨op, k, line, if op = 2 then b else []⟩ })).wr rNVM_STAT fNVM_STAT_BUSY 1

def nvmCmdWord (op k : Nat) : W64 := putFld (putFld 0 fNVM_CMD_OP op) fNVM_CMD_SECTOR k

/-- ERASE, PROGRAM, BLANK_CHECK. (DEDUCED, log entry 53) -/
def execErase (who : Who) (sector : BitVec 8) (s : State) : Host.Outcome State Fault Refusal :=
  .next (s.begin.write who rNVM_CMD (fun s => s.wrNvmCmd (nvmCmdWord 1 sector.toNat)))
/-- As its section says. (DEDUCED, log entry 53) -/
def execProgram (who : Who) (sector : BitVec 8) (s : State) : Host.Outcome State Fault Refusal :=
  .next (s.begin.write who rNVM_CMD (fun s => s.wrNvmCmd (nvmCmdWord 2 sector.toNat)))
/-- As its section says. (DEDUCED, log entry 53) -/
def execBlankCheck (who : Who) (sector : BitVec 8) (s : State) : Host.Outcome State Fault Refusal :=
  .next (s.begin.write who rNVM_CMD (fun s => s.wrNvmCmd (nvmCmdWord 3 sector.toNat)))

/-- The reads that waited for the sector are served (R313). -/
def State.serveReads (s : State) : State :=
  let go := s.nvm.reads.filter (fun r => !(s.sectorBusy (r.addr / 0x10000)))
  let s1 := s.modNvm (fun x => { x with reads := x.reads.filter (fun r => s.sectorBusy (r.addr / 0x10000)) })
  go.foldl (fun s r => s.emit (.envmRead r.who r.addr ((s.envRead r.addr 1).headD 0))) s1

/-- The keeper's command has done its work; `fail` says that an erase or a program failed its verification; what the cells then hold is free. In a retired
sector nothing is done, and the command fails. (DEDUCED, log entry 53; DESIGN CHOICE, log entry 91) -/
def State.nvmDone (s : State) (o : NvmOp) (fail : Bool) : State :=
  let s0 := (s.modNvm (fun x => { x with op := none })).wr rNVM_STAT fNVM_STAT_BUSY 0
  let place := o.sector * 128 + o.line
  if o.op = 3 then s0.wr rNVM_STAT fNVM_STAT_FAIL (b2n (s0.env.any (fun p => decide (p.1 / 65536 = o.sector))))
  else if s.nvm.retired.contains o.sector then s0.wr rNVM_STAT fNVM_STAT_FAIL 1
  else if o.op = 1 then
    let s1 := (s0.eraseSector o.sector).wr rNVM_STAT fNVM_STAT_FAIL (b2n fail)
    if fail then (s1.envWrite (65536 * o.sector) (s1.freeBytes 65536)).useFreeN 65536 else s1
  else
    let s1 := s0.wr rNVM_STAT fNVM_STAT_FAIL (b2n fail)
    if fail then (s1.programLine place (s1.freeBytes 512)).useFreeN 512 else s1.programLine place o.bytes

/-- NVM_OPERATION_DONE: not of an erase that SAVING suspended. The reads that waited are served. (DEDUCED, log entry 53) -/
def execNvmOperationDone (fail : Bool) (s : State) : Host.Outcome State Fault Refusal :=
  let s := s.begin
  .next (match s.nvm.op with
    | none => s
    | some o => if s.on rNVM_STAT fNVM_STAT_SUSPENDED then s else (s.nvmDone o fail).serveReads)

/-! ### The wear map (R314) -/

/-- A copy of the wear map: its sequence number and its erase counts. -/
def State.wearAt (s : State) (i : Nat) : Nat × Store Nat := storeGet (fun _ => (0, [])) s.nvm.wear i

/-- The copy of the wear map that counts: of those whose CRC-32C is valid, the one with the higher sequence number; none counts no erases. (DESIGN CHOICE, log entry 91) -/
def State.wearCopy (s : State) : Nat × Store Nat :=
  let ok (i : Nat) : Bool := !(s.nvm.wearBad.contains i)
  if ok 0 && (!(ok 1) || decide ((s.wearAt 1).1 ≤ (s.wearAt 0).1)) then s.wearAt 0 else if ok 1 then s.wearAt 1 else (0, [])

/-- The copy that an update writes: the other than the last one written, where its sector is not retired. -/
def State.wearNext (s : State) : Option Nat :=
  let old := if (s.wearAt 0).1 ≤ (s.wearAt 1).1 then 0 else 1
  if !(s.nvm.retired.contains (162 + old)) then some old else if !(s.nvm.retired.contains (163 - old)) then some (1 - old) else none

/-- The first of three lines in a row that are not programmed, in a sector. -/
def State.wearRoom (s : State) (k : Nat) : Option Nat :=
  (List.range 126).find? (fun l => !((List.range 128).any (fun j => decide (l ≤ j) && s.nvm.lines.contains (k * 128 + j))))

/-- A copy of the wear map has no valid CRC-32C. -/
def State.wearSpoil (s : State) (copy : Nat) : State :=
  s.modNvm (fun x => { x with wearBad := if x.wearBad.contains copy then x.wearBad else copy :: x.wearBad })

/-- The sector of a copy has room for an update: erased first where it has none. An erase that retires it leaves its copy without a valid CRC-32C. -/
def State.wearPrep (s : State) (copy : Nat) : State :=
  match s.wearRoom (162 + copy) with
  | some _ => s
  | none =>
    let s1 := s.eraseSector (162 + copy)
    if s1.nvm.retired.contains (162 + copy) then s1.wearSpoil copy else s1

/-- `n` of the three lines of an update are programmed in a copy's sector; the spec does not lay out their bytes. All three, programmed (`ok`), give the copy
its new sequence number; otherwise it is left without a valid CRC-32C. (DESIGN CHOICE, log entry 54) -/
def State.wearPut (s : State) (copy n : Nat) (ok : Bool) : State :=
  let l := (s.wearRoom (162 + copy)).getD 0
  let s2 := overN (min n 3) (fun i s => (s.programLine ((162 + copy) * 128 + l + i) (s.freeBytes 512)).useFreeN 512) s
  if n < 3 || !ok then s2.wearSpoil copy
  else s2.modNvm (fun x => { x with
    wear := storePut (fun _ => (0, [])) x.wear copy (max (s.wearAt 0).1 (s.wearAt 1).1 + 1, x.erases)
    wearBad := x.wearBad.filter (fun i => i != copy) })

/-- An update of the wear map, of which `n` lines are programmed, the last of them well or not: in the copy that is older, or, where making room retired its
sector, in the other (R314). (DEDUCED, log entry 53) -/
def State.wearLines (s : State) (n : Nat) (ok : Bool) : State :=
  if n = 0 then s
  else match s.wearNext with
    | none => s
    | some copy =>
      let s1 := s.wearPrep copy
      if s1.nvm.retired.contains (162 + copy) = false then s1.wearPut copy n ok
      else match s1.wearNext with
        | none => s1
        | some other =>
          let s2 := s1.wearPrep other
          if s2.nvm.retired.contains (162 + other) then s2 else s2.wearPut other n ok

/-- The map is written to the copy that is older. -/
def State.wearUpdate (s : State) : State := s.wearLines 3 true

/-- WEAR_MAP_UPDATE. -/
def execWearMapUpdate (s : State) : Host.Outcome State Fault Refusal := .next (s.begin.guard s.works (fun s => s.wearUpdate))

/-! ### The persistent store (R316, R317) -/

/-- Records of the cache. -/
def State.cacheSize (s : State) : Nat := s.rd rPCACHE_CFG fPCACHE_CFG_GRAINS * 1024
/-- The grain and the physical address of a cache record. -/
def State.cacheGrain (s : State) (i : Nat) : Nat := s.rd rPCACHE_CFG fPCACHE_CFG_BASE + i / 1024
def State.cacheAddr (s : State) (i : Nat) : Nat := sramBase + 65536 * s.cacheGrain i + i % 1024 * 64
/-- A record as it is read; zeros where the read fails (R307, R309). -/
def State.cacheRec (s : State) (i : Nat) : List Byte := s.unitBytes (64 * i) (s.cacheAddr i) 64
/-- What reads of records do. -/
def State.cacheTouch (s : State) (l : List Nat) : State :=
  let bad := ((List.range (s.rd rPCACHE_CFG fPCACHE_CFG_GRAINS)).map (fun g => s.cacheGrain (1024 * g))).filter (fun g =>
    s.ownSram g != ownUNIT && l.any (fun i => s.cacheGrain i == g))
  let s1 := bad.foldl (fun s g => s.unitGrainBad g) s
  let hit := (s1.ecc.map (·.1)).filter (fun k => l.any (fun i => s1.ownSram (s1.cacheGrain i) == ownUNIT && (wordsOf (s1.cacheAddr i) 64).contains k))
  (s1.touchWords hit).useFreeN (if s.msr.mixed.isEmpty then 0 else 64 * s.cacheSize)
/-- A write of the controller into the cache. -/
def State.cacheWrite (s : State) (i pos : Nat) (b : List Byte) : State :=
  if s.ownSram (s.cacheGrain i) = ownUNIT then (s.memStore (s.cacheAddr i + pos) b).1 else s.unitGrainBad (s.cacheGrain i)

/-- INDEX and SUB of a record as a key; VALID; DIRTY. -/
def recKey (r : List Byte) : Nat := ofBytesLE (r.take 3)
def recFlags (r : List Byte) : Nat := (r.getD 6 0).toNat
def recValid (r : List Byte) : Bool := bitOf (recFlags r) 0
def recDirty (r : List Byte) : Bool := bitOf (recFlags r) 1
/-- The record with its DIRTY bit cleared. -/
def recClean (r : List Byte) : List Byte := r.set 6 (BitVec.ofNat 8 (setBitN (recFlags r) 1 false))

/-- The next line of the log: the first that is not programmed, in rotation. -/
def State.logPlace (s : State) : Option Nat :=
  ((List.range (84 * 128)).map (fun i => 172 * 128 + (s.nvm.logPos - 172 * 128 + i) % (84 * 128))).find?
    (fun l => !(s.nvm.lines.contains l) && !(s.nvm.retired.contains (l / 128)))

/-- The bytes of a log line: sequence, record count, the rest of the header, whose layout the spec does not state, and up to 7 records. (DESIGN CHOICE, log entry 54) -/
def State.logBytes (s : State) (recs : List (List Byte)) : List Byte :=
  bytesLE 8 s.nvm.logSeq ++ bytesLE 1 recs.length ++ s.freeBytes 55 ++ recs.flatten

/-- A log line is programmed at a place. -/
def State.logPut (s : State) (l : Nat) (recs : List (List Byte)) : State :=
  ((s.programLine l (s.logBytes recs)).useFreeN 55).modNvm (fun x => { x with
    log := x.log ++ [{ seq := x.logSeq, place := l, recs := recs }], logSeq := x.logSeq + 1, logPos := l + 1 })

/-- A log line is programmed at the next place. -/
def State.logWrite (s : State) (recs : List (List Byte)) : State :=
  match s.logPlace with
  | none => s
  | some l => s.logPut l recs

/-- Records enter the cache's log line: the first dirty ones, 7 at most, are copied, and the line begins to be programmed. -/
def State.flushBegin (s : State) : State :=
  let s0 := s.cacheTouch (List.range s.cacheSize)
  let dirty := ((List.range s.cacheSize).filter (fun i => recDirty (s.cacheRec i))).take 7
  match s0.logPlace with
  | none => s0
  | some l =>
    if dirty.isEmpty then s0
    else s0.modNvm (fun x => { x with lines := l :: x.lines, logPos := l + 1, flush := some ⟨l, dirty.map (fun i => (i, s.cacheRec i))⟩ })

/-- GEN of a record. -/
def recGen (r : List Byte) : Nat := ofBytesLE ((r.drop 4).take 2)

/-- The line is programmed: DIRTY clears in every record whose GEN is still the value copied (R316). (DEDUCED, log entry 92) -/
def State.flushEnd (s : State) : State :=
  match s.nvm.flush with
  | none => s
  | some f =>
    let s1 := (s.modNvm (fun x => { x with flush := none, lines := x.lines.filter (fun l => l != f.place) })).logPut f.place (f.recs.map (·.2))
    (f.recs.foldl (fun s r =>
      let s1 := s.cacheTouch [r.1]
      if recGen (s.cacheRec r.1) = recGen r.2 then s1.cacheWrite r.1 6 [BitVec.ofNat 8 (setBitN (recFlags (s.cacheRec r.1)) 1 false)] else s1) s1).serveReads

/-- PSTORE_FLUSH: a line that is being programmed is done, otherwise one begins. (DEDUCED, log entry 92) -/
def execPstoreFlush (s : State) : Host.Outcome State Fault Refusal :=
  let s := s.begin
  .next (s.guard (s.works && s.on rPSTORE fPSTORE_EN) (fun s => if s.nvm.flush.isSome then s.flushEnd else s.flushBegin))

/-- Every record of the log with its place, in line order. -/
def State.logRecs (s : State) : List (Nat × List Byte) := (s.nvm.log.filter (fun l => !l.bad)).flatMap (fun l => l.recs.map (fun r => (l.place, r)))

/-- The last record of each key, deleted ones among them. -/
def lastRecs : List (Nat × List Byte) → List (Nat × List Byte)
  | [] => []
  | r :: l => if l.any (fun q => recKey q.2 == recKey r.2) then lastRecs l else r :: lastRecs l

/-- Live records of a sector: the last of its key, and not a deletion unless an older record of the key stands in another sector. -/
def State.liveRecs (s : State) (k : Nat) : List (List Byte) :=
  ((lastRecs s.logRecs).filter (fun r => r.1 / 128 == k &&
    (recValid r.2 || s.logRecs.any (fun q => recKey q.2 == recKey r.2 && q.1 / 128 != k)))).map (·.2)

/-- Records enter the log, 7 a line. -/
def State.logAll (s : State) (recs : List (List Byte)) : State :=
  overN ((recs.length + 6) / 7) (fun i s => s.logWrite ((recs.drop (7 * i)).take 7)) s

/-- Erased lines of the log outside a sector. -/
def State.logRoom (s : State) (k : Nat) : Nat :=
  ((List.range (84 * 128)).filter (fun i =>
    !(s.nvm.lines.contains (172 * 128 + i)) && !(s.nvm.retired.contains (172 + i / 128)) && decide (172 + i / 128 ≠ k))).length

/-- A full sector is freed: erased once its live records have been copied; it stays where they find no room. -/
def State.compactSector (s : State) (k : Nat) : State :=
  if s.logRoom k < ((s.liveRecs k).length + 6) / 7 then s else (s.logAll (s.liveRecs k)).eraseSector k

/-- Full log sectors. -/
def State.fullSectors (s : State) : List Nat :=
  ((List.range 84).map (· + 172)).filter (fun k => (List.range 128).all (fun j => s.nvm.lines.contains (k * 128 + j)) && !(s.nvm.retired.contains k))

/-- LOG_COMPACTION: with fewer than 4 erased log sectors, the full sector with the fewest live records, then the lowest erase count. (DEDUCED, log entry 53) -/
def execLogCompaction (s : State) : Host.Outcome State Fault Refusal :=
  let s := s.begin
  let key (k : Nat) : Nat := 2 ^ 24 * (s.liveRecs k).length + s.eraseCount k
  .next (s.guard (s.works && decide (s.freeLog < 4)) (fun s =>
    match s.fullSectors with
    | [] => s
    | k :: l => s.compactSector (l.foldl (fun a b => if key b < key a then b else a) k)))

/-- The cache is rebuilt from the log (R316): the last record of each key, deleted ones left out; the other records are empty. Lines whose CRC fails are
skipped and counted. A grain that is not the unit's takes nothing (R307). (DEDUCED, log entry 92) -/
def State.cacheRebuild (s : State) : State :=
  let recs := ((lastRecs s.logRecs).filter (fun r => recValid r.2)).map (fun r => recClean r.2)
  let s1 := s.bumpErrN rPS_BADLINE (s.nvm.log.filter (fun l => l.bad)).length
  overN (s.rd rPCACHE_CFG fPCACHE_CFG_GRAINS) (fun g s =>
    if s.ownSram (s.cacheGrain (1024 * g)) = ownUNIT then
      overN 1024 (fun j s => s.cacheWrite (1024 * g + j) 0 (recs.getD (1024 * g + j) (List.replicate 64 0))) s
    else s.unitGrainBad (s.cacheGrain (1024 * g))) s1

/-- The record of a dictionary entry in the cache, by key; the first free record. -/
def State.cacheFind (s : State) (key : Nat) : Option Nat :=
  (List.range s.cacheSize).find? (fun i => recValid (s.cacheRec i) && recKey (s.cacheRec i) == key)
def State.cacheSpare (s : State) : Option Nat := (List.range s.cacheSize).find? (fun i => !recValid (s.cacheRec i) && !recDirty (s.cacheRec i))

/-- A search of the cache reads its records in order up to the one it finds (R307, R309). -/
def State.lookTouch (s : State) (key : Nat) : State :=
  s.cacheTouch (List.range (match s.cacheFind key with | some i => i + 1 | none => s.cacheSize))

/-- A record is stored: DATA, then its header with GEN advanced and DIRTY set (R316). -/
def State.recStore (s : State) (key : Nat) (valid : Bool) (data : List Byte) : State :=
  match (match s.cacheFind key with | some i => some i | none => s.cacheSpare) with
  | none => s.lookTouch key
  | some i =>
    let gen := (recGen (s.cacheRec i) + 1) % 65536
    let s1 := (s.lookTouch key).cacheWrite i 8 (data.take 56 ++ List.replicate (56 - data.length) 0)
    s1.cacheWrite i 0 (bytesLE 3 key ++ bytesLE 1 (min 56 data.length) ++ bytesLE 2 gen ++ bytesLE 1 (2 + b2n valid) ++ [0])

/-- The data of a record, if the cache holds it. -/
def State.recLoad (s : State) (key : Nat) : Option (List Byte) :=
  (s.cacheFind key).map (fun i => ((s.cacheRec i).drop 8).take ((s.cacheRec i).getD 3 0).toNat)

/-- PSTORE and PCACHE_CFG (R318). -/
def State.wrPstore (s : State) (w : W64) : State := (s.settingWrite rPSTORE w true false).msrCompare
def State.wrPcacheCfg (s : State) (w : W64) : State :=
  if 768 < getFld w fPCACHE_CFG_BASE + getFld w fPCACHE_CFG_GRAINS then s.refuse rPCACHE_CFG
  else s.settingWrite rPCACHE_CFG w (!s.on rPSTORE fPSTORE_EN) false

end Sys2Proof.Machine
end

