-- ==== Sys2Proof/Machine/Touch.lean ====
section
/-! DEFINITION. Machine/Touch.lean: the touch front ends: scans, baselines, contacts, line checks, reports (R341 to R361). -/
namespace Sys2Proof.Machine

/-! ### A panel and its settings (R341) -/

def tpSTARTING : Nat := 1
def tpACTIVE : Nat := 2
def tpIDLE : Nat := 3
def tpDEEP : Nat := 4

def tpLines (p : Nat) : Nat := rTP_LINES (p / 2) (p % 2)
/-- Drive rows, sense columns, group size. -/
def State.tpRows (s : State) (p : Nat) : Nat := s.rd (tpLines p) fTP_LINES_DRV_COUNT
def State.tpCols (s : State) (p : Nat) : Nat := s.rd (tpLines p) fTP_LINES_SNS_COUNT
def State.tpG (s : State) (p : Nat) : Nat := if s.on (tpCfg p) fTP_CFG_G8 then 8 else 4
def State.tpThresh (s : State) (p : Nat) : Nat := s.rd (rTP_THR (p / 2) (p % 2)) fTP_THR_TOUCH_TH
/-- TOUCH_TH − HYST. -/
def State.tpLow (s : State) (p : Nat) : Nat := s.tpThresh p - s.rd (rTP_THR (p / 2) (p % 2)) fTP_THR_HYST

/-- The stall that owns a panel (R207), if it is not FREE. -/
def State.tpOwner (s : State) (p : Nat) : Option Nat :=
  (List.range 16).find? (fun st => s.stallState st != 0 && bitOf (s.rd (rGMISC st) fGMISC_TP) p)

/-- Values of a window of two nodes a word: raw counts and baseline. -/
def rawWord (p w : Nat) : Nat := if p % 2 = 0 then rRAW0 (p / 2) w else rRAW1 (p / 2) w
def baseWord (p w : Nat) : Nat := if p % 2 = 0 then rBASE0 (p / 2) w else rBASE1 (p / 2) w
def State.setWindow (s : State) (addr : Nat → Nat) (v : List Nat) : State :=
  overN ((v.length + 1) / 2) (fun w s => s.setRw (addr w) (BitVec.ofNat 64 (v.getD (2 * w) 0 + 65536 * v.getD (2 * w + 1) 0))) s
def State.baseline (s : State) (p : Nat) : List Nat :=
  (List.range (s.tpRows p * s.tpCols p)).map (fun n => (s.rw (baseWord p (n / 2))).toNat / 2 ^ (16 * (n % 2)) % 65536)

/-- Is a drive row, or a sense column, of the panel marked faulty? -/
def State.rowFault (s : State) (p i : Nat) : Bool :=
  let l := s.rd (tpLines p) fTP_LINES_DRV_FIRST + i
  bitOf (s.rd (rFE_LFAULT_D (p / 2) (l / 24)) fFE_LFAULT_D_DRV) (l % 24)
def State.colFault (s : State) (p j : Nat) : Bool :=
  let l := s.rd (tpLines p) fTP_LINES_SNS_FIRST + j
  bitOf (s.rd (rFE_LFAULT_S (p / 2) (l / 16)) fFE_LFAULT_S_SNS) (l % 16)
def State.nodeFault (s : State) (p n : Nat) : Bool := s.rowFault p (n / s.tpCols p) || s.colFault p (n % s.tpCols p)
def State.anyLineFault (s : State) (p : Nat) : Bool :=
  (List.range (s.tpRows p)).any (s.rowFault p) || (List.range (s.tpCols p)).any (s.colFault p)

/-! ### Enabling (R341, R347) -/

/-- Do two ranges (first, count) share a line? -/
def rangesMeet (a b : Nat × Nat) : Bool := decide (a.1 < b.1 + b.2) && decide (b.1 < a.1 + a.2)

/-- May a panel be enabled with G lines to a group? -/
def State.tpFits (s : State) (p g : Nat) : Bool :=
  let drv (p : Nat) : Nat × Nat := (s.rd (tpLines p) fTP_LINES_DRV_FIRST, s.tpRows p)
  let sns (p : Nat) : Nat × Nat := (s.rd (tpLines p) fTP_LINES_SNS_FIRST, s.tpCols p)
  let other := if p % 2 = 0 then p + 1 else p - 1
  decide (s.tpRows p % g = 0) && decide ((drv p).1 + (drv p).2 ≤ 48) && decide ((sns p).1 + (sns p).2 ≤ 32) &&
    !(s.tpOn other && (rangesMeet (drv p) (drv other) || rangesMeet (sns p) (sns other)))

/-- INDEX and SUB of a panel's records (R349). -/
def tpKey (p sub : Nat) : Nat := 0x6F00 + p + 65536 * sub

/-- The header of a last-good baseline under the panel's settings. -/
def State.tpHeader (s : State) (p crc saveNo : Nat) : List Byte :=
  bytesLE 1 (s.tpRows p) ++ bytesLE 1 (s.tpCols p) ++ bytesLE 2 (s.rd (rTP_DRIVE (p / 2) (p % 2)) fTP_DRIVE_FDRV_KHZ) ++
    bytesLE 1 (s.rd (rTP_DRIVE (p / 2) (p % 2)) fTP_DRIVE_NPULSE) ++ bytesLE 1 (s.tpG p) ++ [0, 0] ++ bytesLE 4 crc ++ bytesLE 4 saveNo

/-- The bytes of node values in node order. -/
def nodeBytes (v : List Nat) : List Byte := v.flatMap (bytesLE 2)

/-- The last-good baseline in the cache, if its record is valid: CRC and five settings (R347). -/
def State.tpGood (s : State) (p : Nat) : Option (List Nat × Nat) :=
  match s.recLoad (tpKey p 0) with
  | none => none
  | some h =>
    let n := s.tpRows p * s.tpCols p
    let b := ((List.range ((n + 27) / 28)).flatMap (fun i => (s.recLoad (tpKey p (i + 1))).getD [])).take (2 * n)
    let want := s.tpHeader p (crc32c b).toNat 0
    if h.take 6 = want.take 6 ∧ (h.drop 8).take 4 = (want.drop 8).take 4 ∧ b.length = 2 * n then
      some ((List.range n).map (fun i => ofBytesLE ((b.drop (2 * i)).take 2)), ofBytesLE (h.drop 12))
    else none

/-- The search for a last-good baseline reads the cache. -/
def State.tpLook (s : State) (p : Nat) : State :=
  match s.recLoad (tpKey p 0) with
  | none => s.lookTouch (tpKey p 0)
  | some _ => overN ((s.tpRows p * s.tpCols p + 27) / 28) (fun i s => s.lookTouch (tpKey p (i + 1))) (s.lookTouch (tpKey p 0))

/-- EN becomes 1; the settings of its opportunities come into force. (DEDUCED, log entry 55) -/
def State.panelStart (s : State) (p : Nat) : State :=
  let g := s.tpGood p
  let s1 := ((((((s.tpLook p).latch (rTP_SYNC (p / 2) (p % 2))).wr (tpStat p) fTP_STAT_STATE tpSTARTING).wr (tpStat p) fTP_STAT_BASE_SRC 0).wr (tpStat p) fTP_STAT_RING_FAULT 0).wr
    (tpStat p) fTP_STAT_SYNC_FREE 0).wr (tpStat p) fTP_STAT_CONTACTS 0
  s1.modPanel p (fun x => { last := x.last, recal := x.recal, count := x.count, saved := x.saved, good := g.map (·.1), gone := x.gone, saveNo := match g with | some v => v.2 | none => x.saveNo })

/-- FE_STAT shows the scan in progress. -/
def State.showFe (s : State) (fe : Nat) : State :=
  let a := (s.panel (2 * fe)).scan.isSome
  let b := (s.panel (2 * fe + 1)).scan.isSome
  (s.wr (rFE_STAT fe) fFE_STAT_BUSY (b2n (a || b))).wr (rFE_STAT fe) fFE_STAT_PANEL (b2n b)

/-- The other local panel of a front end. -/
def otherPanel (p : Nat) : Nat := if p % 2 = 0 then p + 1 else p - 1

/-- Does the panel take its opportunities from the timer: FREE mode, or its pipe STOPPED? -/
def State.tpPipe (s : State) (p : Nat) : Nat := s.rd (tpCfg p) fTP_CFG_PIPE
def State.tpTimed (s : State) (p : Nat) : Bool := s.rd (tpCfg p) fTP_CFG_SYNC == 0 || s.pst (s.tpPipe p) == stSTOPPED
/-- The pipe's frame count. -/
def State.tpFrame (s : State) (p : Nat) : Nat := (s.lv (rFRAME (s.tpPipe p))).toNat % 2 ^ 32

/-- A scan starts at time t; the settings of class F for it come into force, and it does a recalibration asked for before. (DEDUCED, log entry 55) -/
def State.scanStart (s : State) (p t : Nat) : State :=
  (((s.latch (rTP_RES (p / 2) (p % 2))).latch (tpCfg p)).modPanel p (fun x =>
    { x with scan := some { start := t, from' := t, frame := s.tpFrame p, recal := x.recal }, wait := false, last := some t, recal := false })).showFe (p / 2)

/-- EN becomes 0: the panel is OFF, and a waiting scan of the other local panel starts where this one's ended (R345): at the time of the
write, which the first step of that scan tells. (DEDUCED, log entry 55) -/
def State.panelStop (s : State) (p : Nat) : State :=
  let s1 := (((s.wr (tpStat p) fTP_STAT_STATE 0).wr (tpStat p) fTP_STAT_CONTACTS 0).modPanel p (fun x =>
    { last := x.last, recal := x.recal || x.scan.any (fun y => y.recal), count := x.count, saved := x.saved, saveNo := x.saveNo, gone := x.gone })).showFe (p / 2)
  let o := otherPanel p
  match (s.panel p).scan with
  | some sc => if (s1.panel o).wait && s1.tpOn o then (s1.scanStart o sc.from').modPanel o (fun x => { x with scan := x.scan.map (fun y => { y with untimed := true }) }) else s1
  | none => s1

/-- TP_CFG: class S fields only while EN = 0; EN = 1 is refused for lines that do not fit, and before SERVICE_UP (R438). (DEDUCED, log entry 55) -/
def State.wrTpCfg (s : State) (p : Nat) (w : W64) : State :=
  let was := s.tpOn p
  let en := getFld w fTP_CFG_EN = 1
  if was = false ∧ en ∧ (s.dstate < 3 ∨ s.tpFits p (if getFld w fTP_CFG_G8 = 1 then 8 else 4) = false ∨ regBadRange (tpCfg p) w = true) then s.refuse (tpCfg p)
  else
    let s1 := s.settingWrite (tpCfg p) w (!was) false
    if was = false ∧ s1.tpOn p = true then s1.panelStart p
    else if was = true ∧ s1.tpOn p = false then s1.panelStop p else s1

/-- PANEL_ENABLE. -/
def execPanelEnable (who : Who) (p : Fin 8) (s : State) : Host.Outcome State Fault Refusal :=
  .next (s.begin.write who (tpCfg p) (fun s => s.wrTpCfg p (wBit (s.rw (tpCfg p)) fTP_CFG_EN)))

/-- TP_THR: HYST below TOUCH_TH. TP_CTRL: RECAL at the next scan; only an enabled panel scans. -/
def State.wrTpThr (s : State) (p : Nat) (w : W64) : State :=
  let a := rTP_THR (p / 2) (p % 2)
  if getFld w fTP_THR_TOUCH_TH ≤ getFld w fTP_THR_HYST then s.refuse a else s.settingWrite a w true false
def State.wrTpCtrl (s : State) (p : Nat) (w : W64) : State :=
  if getFld w fTP_CTRL_RECAL = 1 ∧ s.tpOn p = true then s.modPanel p (fun x => { x with recal := true }) else s

/-- RECAL. -/
def execRecal (who : Who) (p : Fin 8) (s : State) : Host.Outcome State Fault Refusal :=
  .next (s.begin.write who (rTP_CTRL (p / 2) (p % 2)) (fun s => s.wrTpCtrl p (wBit 0 fTP_CTRL_RECAL)))

/-- FE_LFCLR: marks and run counts of the front end's lines are cleared. -/
def State.wrFeLfclr (s : State) (fe : Nat) (w : W64) : State :=
  if getFld w fFE_LFCLR_CLR = 0 then s
  else
    let s1 := overN 2 (fun i s => (s.wr (rFE_LFAULT_D fe i) fFE_LFAULT_D_DRV 0).wr (rFE_LFAULT_S fe i) fFE_LFAULT_S_SNS 0) s
    { s1 with lineRuns := s1.lineRuns.filter (fun r => decide (r.1 / 128 ≠ fe)) }

/-- FE_LFCLR. -/
def execFeLfclr (who : Who) (fe : Fin 4) (s : State) : Host.Outcome State Fault Refusal :=
  .next (s.begin.write who (rFE_LFCLR fe) (fun s => s.wrFeLfclr fe (wBit 0 fFE_LFCLR_CLR)))

/-! ### Opportunities (R344, R345, R354) -/

/-- The idle rate: the panel's state at time t. (DEDUCED, log entry 55) -/
def State.tpIdle (s : State) (p t : Nat) : State :=
  let x := s.panel p
  let ms := s.rd (rTP_IDLE (p / 2) (p % 2)) fTP_IDLE_IDLE_MS * 1000
  let deep := ms + 1000000 * s.rd (rTP_IDLE (p / 2) (p % 2)) fTP_IDLE_DEEP_S
  let st := s.rd (tpStat p) fTP_STAT_STATE
  if st = tpSTARTING then s
  else if x.wake then (s.wr (tpStat p) fTP_STAT_STATE tpACTIVE).modPanel p (fun x => { x with wake := false, skip := 0 })
  else
    let k := if x.touched + deep ≤ t then tpDEEP else if x.touched + ms ≤ t then tpIDLE else tpACTIVE
    if k = st then s else (s.wr (tpStat p) fTP_STAT_STATE k).modPanel p (fun x => { x with skip := 0 })

/-- Opportunities of which one is taken. -/
def State.tpDivider (s : State) (p : Nat) : Nat :=
  let st := s.rd (tpStat p) fTP_STAT_STATE
  if st = tpIDLE then s.rd (rTP_IDLE (p / 2) (p % 2)) fTP_IDLE_IDLE_DIV
  else if st = tpDEEP then s.rd (rTP_IDLE (p / 2) (p % 2)) fTP_IDLE_DEEP_DIV else 1

/-- The timer's period of a panel in µs (R344). -/
def State.tpPeriod (s : State) (p : Nat) : Nat :=
  if s.rd (tpCfg p) fTP_CFG_SYNC = 0 then s.frd (rTP_SYNC (p / 2) (p % 2)) fTP_SYNC_PERIOD_US else 16667

/-- The pipe's frame, and in LINE mode its line, which number the opportunities that a pipe gives. -/
def State.tpEdge (s : State) (p : Nat) : Nat × Nat := (s.tpFrame p, if s.rd (tpCfg p) fTP_CFG_SYNC = 2 then (s.pipe (s.tpPipe p)).line else 0)

/-- Is time t, with the pipe at the start of a line, an opportunity not taken yet (R344): the timer's period is over; or the pipe is in
vertical blanking, or at a line of the LINE mode? -/
def State.tpDue (s : State) (p t line : Nat) : Bool :=
  let a := rTP_SYNC (p / 2) (p % 2)
  let k := s.tpPipe p
  if s.tpTimed p then (match (s.panel p).timed with | some l => decide (l + s.tpPeriod p ≤ t) | none => true)
  else (s.pipe k).scanning && (s.panel p).opp != some (s.tpEdge p) &&
    (if s.rd (tpCfg p) fTP_CFG_SYNC = 1 then (s.pipe k).vblank
     else
       let vt := (s.tmg k).vtotal
       let n := s.frd a fTP_SYNC_SCANS_M1 + 1
       line == (s.pipe k).line && (List.range n).any (fun i => line == (s.frd a fTP_SYNC_START_LINE + i * (vt / n)) % vt))

/-- Does a panel reach an opportunity on this very edge, so that it comes before local panel 1 (R360)? -/
def State.tpOnEdge (s : State) (p t : Nat) : Bool :=
  s.tpOn p && (if s.tpTimed p then (s.panel p).timed == some (t - s.tpPeriod p) && decide (s.tpPeriod p ≤ t) else s.tpDue p t (s.pipe (s.tpPipe p)).line)

/-- A panel's opportunity at time t: the scan starts, waits or is skipped (R345, R354). (DEDUCED, log entry 55) -/
def State.opportunity (s : State) (p t : Nat) : State :=
  let s1 := (((s.modPanel p (fun x => { x with timed := if s.tpTimed p then some t else none, opp := if s.tpTimed p then none else some (s.tpEdge p) })).latch
    (rTP_SYNC (p / 2) (p % 2))).wr (tpStat p) fTP_STAT_SYNC_FREE (b2n (s.tpTimed p && s.rd (tpCfg p) fTP_CFG_SYNC != 0))).tpIdle p t
  let x := s1.panel p
  let busy := (s1.panel (otherPanel p)).scan.isSome
  if x.wait && !busy then s1.scanStart p t
  else if x.skip + 1 < s1.tpDivider p then s1.modPanel p (fun x => { x with skip := x.skip + 1 })
  else
    let s2 := s1.modPanel p (fun x => { x with skip := 0 })
    let soon := match x.last with | some l => decide (t < l + 4080) | none => false
    if x.scan.isSome || x.wait || soon then s2.bumpErr (rLATE_SCAN (p / 2) (p % 2))
    else if busy then (s2.bumpEv (rFE_COLLIDE (p / 2)) 1).modPanel p (fun x => { x with wait := true })
    else s2.scanStart p t

/-- SCAN_OPPORTUNITY of a panel at time t, and at which line of its pipe; local panel 0 comes first where it reaches an opportunity on the
same edge (R360). (DESIGN CHOICE, log entry 3; DEDUCED, log entry 55) -/
def execScanOpportunity (p : Fin 8) (t line : Nat) (s : State) : Host.Outcome State Fault Refusal :=
  let s := s.begin
  .next (s.guard (s.running && s.islandOn (21 + p.val / 2) && s.tpOn p && s.tpDue p t line) (fun s =>
    (if p.val % 2 = 1 ∧ s.tpOnEdge (p.val - 1) t = true then s.opportunity (p.val - 1) t else s).opportunity p t))

/-! ### Decoding, baseline, contacts (R342, R346 to R353) -/

/-- The parity of a number's bits: H(i, k) is −1 for an odd one. -/
def bitParity : Nat → Nat → Bool
  | 0, _ => false
  | n + 1, v => (v % 2 == 1) != bitParity n (v / 2)

/-- The raw count of node (r, j) from the samples of the steps. -/
def rawNode (g : Nat) (steps : List (List Int)) (r j : Nat) : Nat :=
  let q := r / g
  let i := r % g
  let acc : Int := (List.range g).foldl (fun a k =>
    let m := (steps.getD (q * g + k) []).getD j 0
    if bitParity 3 (Nat.land i k) then a - m else a + m) 0
  (max 0 (min 65535 ((acc + (g / 2 : Nat)) / (g : Int)))).toNat

/-- Neighbours of a node: up to 8. -/
def nodeNear (rows cols n d : Nat) : List Nat :=
  let r := n / cols
  let j := n % cols
  ((List.range (2 * d + 1)).flatMap (fun a => (List.range (2 * d + 1)).map (fun b => (r + a, j + b)))).filterMap (fun q =>
    if d ≤ q.1 ∧ d ≤ q.2 ∧ q.1 - d < rows ∧ q.2 - d < cols then some ((q.1 - d) * cols + (q.2 - d)) else none)

/-- Peaks (R352). -/
def isPeak (rows cols low : Nat) (sig : List Int) (n : Nat) : Bool :=
  let v := sig.getD n 0
  decide ((low : Int) ≤ v) && (nodeNear rows cols n 1).all (fun q =>
    if q < n then decide (sig.getD q 0 < v) else if n < q then decide (sig.getD q 0 ≤ v) else true)

/-- A peak's centroid, SIZE and STRENGTH. -/
structure Peak where
  node : Nat
  cx : Nat
  cy : Nat
  size : Nat
  strength : Nat
  deriving DecidableEq, Repr

def mkPeak (rows cols thresh : Nat) (sig : List Int) (n : Nat) : Peak :=
  let near := nodeNear rows cols n 1
  let w (q : Nat) : Nat := (sig.getD q 0).toNat
  let sw := (near.map w).sum
  { node := n
    cx := ((near.map (fun q => w q * (256 * (q % cols) + 128))).sum + sw / 2) / sw
    cy := ((near.map (fun q => w q * (256 * (q / cols) + 128))).sum + sw / 2) / sw
    size := (near.filter (fun q => decide ((thresh : Int) ≤ sig.getD q 0))).length
    strength := w n }

/-- The peaks kept: the 10 with the largest signal, the lower node on a tie; and whether there were more. -/
def keepPeaks (rows cols low thresh : Nat) (sig : List Int) : List Peak × Bool :=
  let all := ((List.range (rows * cols)).filter (isPeak rows cols low sig)).map (mkPeak rows cols thresh sig)
  let sorted := all.mergeSort (fun a b => decide (b.strength < a.strength) || (a.strength == b.strength && decide (a.node ≤ b.node)))
  (sorted.take 10, decide (10 < all.length))

/-- The absolute difference of two numbers. -/
def natDist (a b : Nat) : Nat := max (a - b) (b - a)

/-- Pairs (contact, peak) within the radius, in the order in which they are considered. -/
def pairOrder (radius : Nat) (cs : List TContact) (ps : List Peak) : List (TContact × Peak) :=
  let d (x : TContact × Peak) : Nat := natDist x.1.cx x.2.cx ^ 2 + natDist x.1.cy x.2.cy ^ 2
  ((cs.flatMap (fun k => ps.map (fun q => (k, q)))).filter (fun x =>
    decide (natDist x.1.cx x.2.cx ≤ 256 * radius) && decide (natDist x.1.cy x.2.cy ≤ 256 * radius))).mergeSort
    (fun a b => decide (d a < d b) || (d a == d b && decide (a.1.id ≤ b.1.id)))

/-- The pairs that are accepted: neither member matched before. -/
def acceptPairs (l : List (TContact × Peak)) : List (TContact × Peak) :=
  l.foldl (fun acc x => if acc.any (fun y => y.1.id == x.1.id || y.2.node == x.2.node) then acc else acc ++ [x]) []

/-- The reported position of a centroid (R352), under the settings in force for the scan. -/
def State.tpPos (s : State) (p cx cy : Nat) : Nat × Nat :=
  let swap := s.fon (tpCfg p) fTP_CFG_AXIS_SWAP
  let (ax, ay) := if swap then (cy, cx) else (cx, cy)
  let (nx, ny) := if swap then (s.tpRows p, s.tpCols p) else (s.tpCols p, s.tpRows p)
  let xm := s.frd (rTP_RES (p / 2) (p % 2)) fTP_RES_XMAX
  let ym := s.frd (rTP_RES (p / 2) (p % 2)) fTP_RES_YMAX
  let x := ax * xm / (256 * nx)
  let y := ay * ym / (256 * ny)
  (if s.fon (tpCfg p) fTP_CFG_X_FLIP then xm - 1 - x else x, if s.fon (tpCfg p) fTP_CFG_Y_FLIP then ym - 1 - y else y)

/-- The lower median of a list. -/
def lowerMedian (l : List Int) : Int := (l.mergeSort (fun a b => decide (a ≤ b))).getD ((l.length - 1) / 2) 0

/-- The baseline of the first scan, and BASE_SRC: 1 LASTGOOD, 2 SHIFTED, 3 FRESH (R347). -/
def State.firstBase (s : State) (p : Nat) (raw : List Nat) : List Nat × Nat :=
  match (s.panel p).good with
  | none => (raw, 3)
  | some l =>
    let o := lowerMedian ((raw.zipIdx.filter (fun x => !s.nodeFault p x.2)).map (fun x => (x.1 : Int) - l.getD x.2 0))
    if o.natAbs ≤ s.rd (rTP_BASE (p / 2) (p % 2)) fTP_BASE_SHIFT_MAX then
      (l.map (fun v => (max 0 (min 65535 ((v : Int) + o))).toNat), if o = 0 then 1 else 2)
    else (raw, 3)

/-- The baseline after a scan (R348), and whether a node was repaired. -/
def State.trackBase (s : State) (p : Nat) (raw base : List Nat) (sig : List Int) (peaks : List Nat) : List Nat × Bool :=
  let th : Int := s.tpThresh p
  let low : Int := s.tpLow p
  let step : Int := s.rd (rTP_TRACK (p / 2) (p % 2)) fTP_TRACK_TRACK_STEP
  let slow := (s.panel p).count % s.rd (rTP_TRACK (p / 2) (p % 2)) fTP_TRACK_TRACK_DIV == 0
  let frozen (n : Nat) : Bool := decide (low ≤ sig.getD n 0) || peaks.any (fun k => (nodeNear (s.tpRows p) (s.tpCols p) k 2).contains n)
  let act (n : Nat) : Bool := !(s.nodeFault p n) && !(frozen n)
  (base.zipIdx.map (fun b =>
    let v := sig.getD b.2 0
    if act b.2 = false then b.1
    else if v ≤ -th then raw.getD b.2 0
    else if v < 0 then b.1 + (min step (-v)).toNat
    else if 0 < v ∧ slow = true then b.1 - (min step v).toNat else b.1),
   (List.range base.length).any (fun n => act n && decide (sig.getD n 0 ≤ -th)))

/-! ### Line checks (R355) -/

/-- Does a line, given its nodes and those of the next line, meet a condition? -/
def lineBad (lowTh tol : Nat) (l : List Nat) (next : Option (List Nat)) : Bool :=
  l.all (fun v => decide (v < lowTh)) || l.all (fun v => v == 0 || v == 65535) ||
    (match next with | none => false | some m => (l.zip m).all (fun q => decide (natDist q.1 q.2 ≤ tol)))

/-- One line: its run count, and its mark after 8 consecutive scans. -/
def State.lineCheck (s : State) (p key : Nat) (bad : Bool) (marked : Bool) (mark : State → State) : State :=
  let k := 128 * (p / 2) + key
  let n := if bad then storeGet (fun _ => 0) s.lineRuns k + 1 else 0
  if 8 ≤ n then
    let s1 : State := { s with lineRuns := storePut (fun _ => 0) s.lineRuns k 0 }
    if marked then s1
    else ((mark s1).bumpErr (rFE_LFAULTS (p / 2))).feEvt p fFE_EVT_LINE
  else { s with lineRuns := storePut (fun _ => 0) s.lineRuns k n }

/-- Every line of the panel. -/
def State.lineChecks (s : State) (p : Nat) (raw : List Nat) : State :=
  let rows := s.tpRows p
  let cols := s.tpCols p
  let lowTh := s.rd (rTP_OS (p / 2) (p % 2)) fTP_OS_LOW_TH
  let tol := s.rd (rTP_OS (p / 2) (p % 2)) fTP_OS_PAIR_TOL
  let row (i : Nat) : List Nat := (List.range cols).map (fun j => raw.getD (i * cols + j) 0)
  let col (j : Nat) : List Nat := (List.range rows).map (fun i => raw.getD (i * cols + j) 0)
  let s1 := overN rows (fun i s =>
    let l := s.rd (tpLines p) fTP_LINES_DRV_FIRST + i
    let a := rFE_LFAULT_D (p / 2) (l / 24)
    s.lineCheck p l (lineBad lowTh tol (row i) (if i + 1 < rows then some (row (i + 1)) else none)) (s.rowFault p i)
      (fun s => s.wr a fFE_LFAULT_D_DRV (setBitN (s.rd a fFE_LFAULT_D_DRV) (l % 24) true))) s
  overN cols (fun j s =>
    let l := s.rd (tpLines p) fTP_LINES_SNS_FIRST + j
    let a := rFE_LFAULT_S (p / 2) (l / 16)
    s.lineCheck p (64 + l) (lineBad lowTh tol (col j) (if j + 1 < cols then some (col (j + 1)) else none)) (s.colFault p j)
      (fun s => s.wr a fFE_LFAULT_S_SNS (setBitN (s.rd a fFE_LFAULT_S_SNS) (l % 16) true))) s1

/-! ### Stuck contacts (R351) and the save (R349) -/

/-- A contact that has stayed long enough is flagged. -/
def State.stuckCheck (s : State) (p t : Nat) (x : TContact) : TContact :=
  let lim := s.rd (rTP_STUCK (p / 2) (p % 2)) fTP_STUCK_STUCK_LIMIT_S
  let mv := 16 * s.rd (rTP_STUCK (p / 2) (p % 2)) fTP_STUCK_STUCK_MOVE
  if natDist x.cx x.ax ≤ mv ∧ natDist x.cy x.ay ≤ mv then
    (if lim ≠ 0 ∧ x.since + 1000000 * lim ≤ t then { x with stuck := true } else x)
  else { x with ax := x.cx, ay := x.cy, since := t }

/-- The baseline is saved: node records, then the header. -/
def State.saveBase (s : State) (p t : Nat) : State :=
  if s.on rPSTORE fPSTORE_EN = false then s.wr (tpStat p) fTP_STAT_SAVE_OFF 1
  else
    let v := s.baseline p
    let no := (s.panel p).saveNo + 1
    let s1 := overN ((v.length + 27) / 28) (fun i s => s.recStore (tpKey p (i + 1)) true (nodeBytes ((v.drop (28 * i)).take 28))) s
    let s2 := s1.recStore (tpKey p 0) true (s.tpHeader p (crc32c (nodeBytes v)).toNat no)
    (((s2.bumpEv (rBASE_SAVES (p / 2) (p % 2)) 1).wr (tpStat p) fTP_STAT_BASE_SRC 1).wr (tpStat p) fTP_STAT_SAVE_OFF 0).modPanel p
      (fun x => { x with saved := t, saveNo := no })

/-- The save condition at the end of a scan: `quiet` when the scan had no contact, no anti-touch node and no faulted line. -/
def State.saveCheck (s : State) (p t : Nat) (quiet : Bool) : State :=
  if quiet = false then s.modPanel p (fun x => { x with clean := none })
  else
    let since := ((s.panel p).clean).getD t
    let us := 1000000 * s.rd (rTP_BASE (p / 2) (p % 2)) fTP_BASE_BASE_SAVE_S
    let s1 := s.modPanel p (fun x => { x with clean := some since })
    if since + us ≤ t ∧ (s.panel p).saved + us ≤ t then s1.saveBase p t else s1

/-! ### Reports (R356 to R358) -/

/-- An entry: 1 DOWN, 2 MOVE, 3 UP. -/
structure TEntry where
  id : Nat
  kind : Nat
  stuck : Bool
  size : Nat
  x : Nat
  y : Nat
  strength : Nat
  deriving DecidableEq, Repr

def TEntry.bytes (e : TEntry) : List Byte :=
  bytesLE 1 (e.id + 32 * e.kind + 128 * b2n e.stuck) ++ bytesLE 1 e.size ++ bytesLE 2 e.x ++ bytesLE 2 e.y ++ bytesLE 2 (min 65535 e.strength)

/-- The FLAGS byte. -/
def State.tpFlags (s : State) (p : Nat) (ovf : Bool) : Nat :=
  let st := s.rd (tpStat p) fTP_STAT_STATE
  b2n ovf + 2 * b2n (s.rd (tpStat p) fTP_STAT_BASE_SRC == 3) + 4 * s.rd (tpStat p) fTP_STAT_SYNC_FREE + 8 * b2n (s.anyLineFault p) +
    16 * (if st = tpIDLE then 1 else if st = tpDEEP then 2 else 0)


/-- A record, which reports the IDs `up` as UP, goes into the ring of stall `st`: as in R176, with DROPS counted in REP_DROP. -/
def State.putReport (s : State) (p st : Nat) (rec : List Byte) (flags : Nat) (up : List Nat) : State :=
  let u := p / 2
  let k := p % 2
  let ring := s.tpRing p
  let size := 2 ^ s.rd (tpCfg p) fTP_CFG_RING_LOG2
  let (s1, hdr) := match (s.panel p).ring with
    | some h => (s, some h)
    | none => s.tpRingHeader p st
  match hdr with
  | none => s1.ringRefused p
  | some (wr, rd0, drops) =>
    let full (rd : Nat) : Bool := since32 wr rd == size
    let (s2, rd) := if full rd0 then
        (match s1.ringLoad st (ring + 4) 4 with | (s', some b) => (s', some (ofBytesLE b)) | (s', none) => (s', none))
      else (s1, some rd0)
    match rd with
    | none => s2.ringRefused p
    | some rd =>
      let (s3, ok, hdr') :=
        if full rd then
          let d := (drops + 1) % 2 ^ 32
          let (a, ok) := s2.ringStore st (ring + 8) (bytesLE 4 d)
          (a.bumpErr (rREP_DROP u k), ok, (wr, rd, d))
        else
          let w := (wr + 1) % 2 ^ 32
          let (a, ok1) := s2.ringStore st (ring + 64 + 256 * (wr % size)) rec
          let (b, ok2) := if ok1 then a.ringStore st ring (bytesLE 4 w) else (a, false)
          (if ok1 && ok2 then b.bumpEv (rREPORTS u k) 1 else b, ok1 && ok2, (w, rd, drops))
      if ok then ((s3.modPanel p (fun x => { x with ring := some hdr', flags := flags, gone := up, rejoin := false })).irq st 91) else s3.ringRefused p

/-- The record of a scan, if one is to be written. -/
def State.report (s : State) (p start frame : Nat) (ovf : Bool) (cur up : List TEntry) : State :=
  let flags := s.tpFlags p ovf
  let x := s.panel p
  match s.tpOwner p with
  | none => (s.wr (tpStat p) fTP_STAT_NO_OWNER 1).modPanel p (fun x => { x with ring := none, rejoin := true })
  | some st =>
    if s.stallState st ≠ 1 ∧ s.stallState st ≠ 2 then
      (s.wr (tpStat p) fTP_STAT_NO_OWNER 1).modPanel p (fun x => { x with ring := none, rejoin := true })
    else
      let s1 := s.wr (tpStat p) fTP_STAT_NO_OWNER 0
      let ents := (if x.rejoin then cur.map (fun e => { e with kind := 1 }) else cur) ++ up
      if s.on (tpStat p) fTP_STAT_RING_FAULT || (ents.isEmpty && flags == x.flags && !(s.on (tpCfg p) fTP_CFG_REPORT_ALL)) then s1
      else
        let lo := if s.rd (tpCfg p) fTP_CFG_SYNC = 0 then 0 else frame % 65536
        let body := ents.flatMap TEntry.bytes
        s1.putReport p st (bytesLE 4 x.count ++ bytesLE 2 lo ++ bytesLE 1 p ++ bytesLE 1 ents.length ++ bytesLE 1 flags ++ [0, 0, 0] ++
          bytesLE 4 start ++ body ++ List.replicate (240 - body.length) 0) flags (up.map (·.id))

/-! ### The end of a scan -/

/-- New contacts take the lowest IDs not in use (R353). -/
def newIds (used : List Nat) : List Peak → List (Peak × Nat)
  | [] => []
  | q :: l =>
    let id := ((List.range 31).map (· + 1)).find? (fun i => !(used.contains i))
    match id with
    | none => []
    | some i => (q, i) :: newIds (i :: used) l

/-- The last step of a scan has ended at time t. -/
def State.scanEnd (s : State) (p t : Nat) (sc : TScan) : State :=
  let rows := s.tpRows p
  let cols := s.tpCols p
  let raw := (List.range (rows * cols)).map (fun n => rawNode (s.tpG p) sc.steps (n / cols) (n % cols))
  let starting := s.rd (tpStat p) fTP_STAT_STATE == tpSTARTING
  let found := if starting then s.firstBase p raw else (s.baseline p, s.rd (tpStat p) fTP_STAT_BASE_SRC)
  let (base0, src) := if sc.recal then (found.1.zipIdx.map (fun b => if s.nodeFault p b.2 then b.1 else raw.getD b.2 0), 3) else found
  let s1 := (((s.setWindow (rawWord p) raw).bumpEv (rSCANS (p / 2) (p % 2)) 1).wr (tpStat p) fTP_STAT_BASE_SRC src).modPanel p
    (fun x => { x with count := (x.count + 1) % 2 ^ 32, scan := none })
  let s2 := (s1.wr (tpStat p) fTP_STAT_SCAN_LO (s1.panel p).count)
  let s3 := if sc.late then s2.bumpErr (rLATE_SCAN (p / 2) (p % 2)) else s2
  let sig : List Int := raw.zipIdx.map (fun r => if s.nodeFault p r.2 then 0 else (base0.getD r.2 0 : Int) - r.1)
  let (peaks, ovf) := keepPeaks rows cols (s.tpLow p) (s.tpThresh p) sig
  let x := s3.panel p
  let pairs := acceptPairs (pairOrder (s.rd (rTP_TRACK (p / 2) (p % 2)) fTP_TRACK_TRACK_RADIUS) x.contacts peaks)
  let moved := pairs.map (fun q =>
    let xy := s.tpPos p q.2.cx q.2.cy
    s.stuckCheck p t { q.1 with cx := q.2.cx, cy := q.2.cy, x := xy.1, y := xy.2, peak := q.2.node, size := q.2.size, strength := q.2.strength })
  let lost := x.contacts.filter (fun k => !(pairs.any (fun q => q.1.id == k.id)))
  let freshPeaks := peaks.filter (fun q => decide (s.tpThresh p ≤ q.strength) && !(pairs.any (fun r => r.2.node == q.node)))
  let born := (newIds (x.contacts.map (·.id) ++ x.gone) freshPeaks).map (fun q =>
    let xy := s.tpPos p q.1.cx q.1.cy
    ({ id := q.2, cx := q.1.cx, cy := q.1.cy, x := xy.1, y := xy.2, peak := q.1.node, size := q.1.size, strength := q.1.strength
       ax := q.1.cx, ay := q.1.cy, since := t, stuck := false } : TContact))
  let cur := (moved ++ born).mergeSort (fun a b => decide (a.id ≤ b.id))
  let newStuck := (moved.filter (fun k => k.stuck && !(x.contacts.any (fun o => o.id == k.id && o.stuck)))).length
  let s4 := if newStuck = 0 then s3 else (s3.bumpErrN (rSTUCK_CNT (p / 2) (p % 2)) newStuck).feEvt p fFE_EVT_STUCK
  let tb := s4.trackBase p raw base0 sig (cur.map (·.peak))
  let s5 := s4.setWindow (baseWord p) tb.1
  let s6 := if tb.2 then s5.bumpEv (rANTI (p / 2) (p % 2)) 1 else s5
  let s7 := s6.lineChecks p raw
  let touch := peaks.any (fun q => decide (s.tpThresh p ≤ q.strength))
  let s8 := (s7.wr (tpStat p) fTP_STAT_CONTACTS cur.length).modPanel p (fun x =>
    { x with contacts := cur, touched := if cur.isEmpty && !starting then x.touched else t, wake := x.wake || touch })
  let s9 := if starting then s8.wr (tpStat p) fTP_STAT_STATE tpACTIVE else s8
  let entry (k : TContact) : TEntry := ⟨k.id, if born.any (fun b => b.id == k.id) then 1 else 2, k.stuck, k.size, k.x, k.y, k.strength⟩
  let sortedLost := lost.mergeSort (fun a b => decide (a.id ≤ b.id))
  let ups := sortedLost.zipIdx.map (fun q =>
    let v := (Config.freeValue (s9.fresh + q.2)).toNat
    ({ id := q.1.id, kind := 3, stuck := false, size := v % 256, x := q.1.x, y := q.1.y, strength := v / 256 % 65536 } : TEntry))
  let s10 := ({ s9 with fresh := s9.fresh + lost.length }).report p sc.start sc.frame ovf (cur.map entry) ups
  (s10.saveCheck p t (cur.isEmpty && !tb.2 && !s10.anyLineFault p)).showFe (p / 2)

/-- The least time of a step in ns (R343): settling and pulses; in LINE mode, whole lines of the panel's pipe, at its trimmed clock. -/
def State.tpStepNs (s : State) (p : Nat) : Nat :=
  let a := rTP_DRIVE (p / 2) (p % 2)
  let khz := s.rd a fTP_DRIVE_FDRV_KHZ
  let step := 2000 + s.rd a fTP_DRIVE_NPULSE * 1000000 / khz
  let m := s.tmg (s.tpPipe p)
  if s.rd (tpCfg p) fTP_CFG_SYNC = 2 ∧ s.tpTimed p = false then
    let clock := m.pclk * ((1000000 : Int) + s.trimPpm (s.tpPipe p)).toNat
    let line := m.htotal * 10 ^ 12
    (((2000 * khz + s.rd a fTP_DRIVE_NPULSE * 1000000) * clock + line * khz - 1) / (line * khz)) * line / clock
  else step

/-- Does a step of a panel end only inside the pipe's vertical blanking? -/
def State.tpBlanking (s : State) (p : Nat) : Bool := s.rd (tpCfg p) fTP_CFG_SYNC == 1 && !s.tpTimed p

/-- Can a panel's step end now: at any time by the timer, else while the pipe scans, and in VBLANK mode inside vertical blanking (R344)? -/
def State.tpStepRuns (s : State) (p : Nat) : Bool :=
  s.tpTimed p || ((s.pipe (s.tpPipe p)).scanning && (!s.tpBlanking p || (s.pipe (s.tpPipe p)).vblank))

/-- The scan with one step more, which ended at time t. -/
def State.scanStep (s : State) (p t : Nat) (samples : List (BitVec 16)) (sc : TScan) : TScan :=
  { sc with start := if sc.untimed then t - s.tpStepNs p / 1000 else sc.start, untimed := false, from' := t
            steps := sc.steps ++ [samples.map (fun v => v.toInt)], late := sc.late || (s.tpBlanking p && s.tpFrame p != sc.frame) }

/-- SCAN_STEP_END of the panel that a front end scans: the samples of the step, its end; and, after the last step, when the waiting panel's
scan starts in LINE mode: at its next line start. A step takes its time (R343). (DESIGN CHOICE, log entry 3; DEDUCED, log entry 55) -/
def execScanStepEnd (fe : Fin 4) (samples : List (BitVec 16)) (t tNext : Nat) (s : State) : Host.Outcome State Fault Refusal :=
  let s := s.begin
  let p := if (s.panel (2 * fe.val)).scan.isSome then 2 * fe.val else 2 * fe.val + 1
  let other := otherPanel p
  .next (match (s.panel p).scan with
    | none => s
    | some sc =>
      s.guard (s.running && s.islandOn (21 + fe.val) && s.tpOn p && s.tpStepRuns p && decide (1000 * sc.from' + s.tpStepNs p < 1000 * (t + 1))) (fun s =>
        let sc1 := s.scanStep p t samples sc
        let s0 := (if s.pst (s.tpPipe p) = stSTOPPED ∧ s.rd (tpCfg p) fTP_CFG_SYNC ≠ 0 then s.wr (tpStat p) fTP_STAT_SYNC_FREE 1 else s).modPanel p
          (fun x => { x with last := some sc1.start })
        if sc1.steps.length < s.tpRows p then s0.modPanel p (fun x => { x with scan := some sc1 })
        else
          let s1 := s0.scanEnd p t sc1
          if (s1.panel other).wait && s1.tpOn other then
            s1.scanStart other (if s1.rd (tpCfg other) fTP_CFG_SYNC = 2 ∧ s1.tpTimed other = false then max t tNext else t)
          else s1))

end Sys2Proof.Machine
end

