-- ==== Sys2Proof/Machine/Mc.lean ====
section
/-! DEFINITION. Machine/Mc.lean: the LP5X memory controllers: training, the map, tracking and retraining, scheduling, refresh, row
disturbance, inline ECC, patrol scrub (R279 to R304). -/
namespace Sys2Proof.Machine

/-- MC_STAT.STATE. -/
def mcOFF : Nat := 0
def mcTRAINING : Nat := 1
def mcRUNNING : Nat := 2
def mcRETRAIN : Nat := 3
def mcABSENT : Nat := 5

def State.mcState (s : State) (ch : Nat) : Nat := s.rd (rMC_STAT ch) fMC_STAT_STATE
def State.toMc (s : State) (ch k : Nat) : State := s.wr (rMC_STAT ch) fMC_STAT_STATE k

/-! ### Training (R282, R283, R287) -/

/-- MAP_STAT.DEGRADED: an enabled channel is fenced (R303). -/
def State.showDegraded (s : State) : State :=
  s.wr rMAP_STAT fMAP_STAT_DEGRADED (b2n ((List.range 4).any (fun ch => s.on (rMC_CFG ch) fMC_CFG_EN && s.mcState ch == mcFENCED)))

/-- The longest run of consecutive passing taps of a sweep: length and first tap; of runs of one length the first. -/
def longestRun (w : BitVec 128) : Nat × Nat :=
  let r := (List.range 128).foldl (fun (acc : (Nat × Nat) × Nat) i =>
    let n := if bitOf w.toNat i then acc.2 + 1 else 0
    (if acc.1.1 < n then (n, i + 1 - n) else acc.1, n)) ((0, 0), 0)
  r.1

/-- The setting with the longest run, the lower index on a tie: the run's length, its first tap, the setting. -/
def chosenRun (sweep : List (BitVec 128)) : Nat × Nat × Nat :=
  ((sweep.take 8).zipIdx).foldl (fun acc p =>
    let r := longestRun p.1
    if acc.1 < r.1 then (r.1, r.2, p.2) else acc) (0, 0, 0)

/-- A LANE register takes a chosen run; with no passing tap the delay is free. -/
def State.showLane (s : State) (a : Nat) (sweep : List (BitVec 128)) : State :=
  let (n, first, v) := chosenRun sweep
  let s1 := (s.wr a fLANE_RD_EYE n).wr a fLANE_RD_VREF v
  if n = 0 then s1.useFree.wr a fLANE_RD_DLY s.free.toNat else s1.wr a fLANE_RD_DLY ((2 * first + n - 1) / 2)

/-- The lanes of a channel take their runs. (DEDUCED, log entry 50) -/
def State.showLanes (s : State) (ch : Nat) (lanes : List LaneSweep) : State :=
  overN 4 (fun k s =>
    let l := lanes.getD k ⟨[], []⟩
    (s.showLane (rLANE_RD ch k) l.rd).showLane (rLANE_WR ch k) l.wr) s

/-- Lanes with a run shorter than EYE_MIN in either direction, as bits. -/
def State.failedLanes (s : State) (ch : Nat) (lanes : List LaneSweep) : Nat :=
  (List.range 4).foldl (fun acc k =>
    let l := lanes.getD k ⟨[], []⟩
    let m := s.rd (rMC_TRAIN_CFG ch) fMC_TRAIN_CFG_EYE_MIN
    if (chosenRun l.rd).1 < m ∨ (chosenRun l.wr).1 < m then acc + 2 ^ k else acc) 0

/-- A retrain of a RUNNING channel starts (R287). -/
def State.startRetrain (s : State) (ch : Nat) : State := (s.toMc ch mcRETRAIN).bumpErr (rRETRAINS ch)

/-- MC_CTRL: TRAIN from OFF, RETRAIN from RUNNING; anything else is refused (R282, R302, R303). (DEDUCED, log entry 14) -/
def State.wrMcCtrl (s : State) (ch : Nat) (w : W64) : State :=
  let t := getFld w fMC_CTRL_TRAIN = 1
  let r := getFld w fMC_CTRL_RETRAIN = 1
  let s1 := if t ∧ s.mcState ch = mcOFF then s.toMc ch mcTRAINING else s
  let s2 := if r ∧ s1.mcState ch = mcRUNNING then s1.startRetrain ch else s1
  if (t ∧ s.mcState ch ≠ mcOFF) ∨ (r ∧ s1.mcState ch ≠ mcRUNNING) then s2.refuse (rMC_CTRL ch) else s2

/-- TRAIN, RETRAIN. -/
def execTrain (who : Who) (ch : Fin 4) (s : State) : Host.Outcome State Fault Refusal :=
  .next (s.begin.write who (rMC_CTRL ch) (fun s => s.wrMcCtrl ch (wBit 0 fMC_CTRL_TRAIN)))
def execRetrain (who : Who) (ch : Fin 4) (s : State) : Host.Outcome State Fault Refusal :=
  .next (s.begin.write who (rMC_CTRL ch) (fun s => s.wrMcCtrl ch (wBit 0 fMC_CTRL_RETRAIN)))

/-- CHANNEL_TRAINED: the density code the memory reports, whether step 2 succeeded, whether it supports refresh management, the sweeps. (DEDUCED, log entry 50) -/
def execChannelTrained (ch : Fin 4) (density : Fin 4) (levelled rfm : Bool) (lanes : List LaneSweep) (s : State) :
    Host.Outcome State Fault Refusal :=
  let s := s.begin
  let fence (s : State) (cause bad : Nat) : State :=
    (((s.wr (rMC_STAT ch) fMC_STAT_FENCE_CAUSE cause).wr (rMC_STAT ch) fMC_STAT_LANE_FAIL bad).toMc ch mcFENCED).showDegraded
  .next (s.guard (s.works && s.mcState ch == mcTRAINING) (fun s0 =>
    let s := s0.wr (rMC_STAT ch) fMC_STAT_RFM_SUP (b2n rfm)
    if density.val ≠ s.rd (rMC_CFG ch) fMC_CFG_CAP then fence s 3 0
    else if levelled = false then fence s 1 0
    else
      let bad := s.failedLanes ch lanes
      let s1 := s.showLanes ch lanes
      if bad = 0 then s1.toMc ch mcRUNNING else fence s1 1 bad))

/-- The requests of a channel's queues leave them: they complete with an error response (R288, R455). (DEDUCED, log entry 48) -/
def State.dropRequests (s : State) (ch : Nat) : State :=
  overN 2 (fun sc s =>
    let x := s.sub ch sc
    ((x.burst ++ x.rq ++ x.wq).filter (fun r => r.fix == 0)).foldl (fun s r => s.emit (.memError r.off r.write))
      (s.modSub ch sc (fun x => { x with rq := [], wq := [], burst := [], drain := false, fixes := [] }))) s

/-- Stalls S1 to S15 that own at least one DRAM page. -/
def State.pageOwners (s : State) : List Nat := (List.range 16).filter (fun st => st != 0 && !(s.ownedBy false st).isEmpty)

/-- A retrain fails: the channel is fenced, the device DEGRADED, the stalls with DRAM drain with CAUSE 0x5 (R288, R434). (DEDUCED, log entry 50) -/
def State.fenceRun (s : State) (ch bad : Nat) : State :=
  let s1 := ((s.wr (rMC_STAT ch) fMC_STAT_FENCE_CAUSE 2).wr (rMC_STAT ch) fMC_STAT_LANE_FAIL bad).toMc ch mcFENCED
  let s2 := ((s1.dropRequests ch).showDegraded.kevt (0x08 + ch) 0x41 ch 2).setStateBit bitFENCED_RUN true
  let s3 := if s2.dstate = 4 then s2.toDstate 5 else s2
  s3.pageOwners.foldl (fun s st => s.stallDrain st 5) s3

/-- RETRAIN_DONE. (DEDUCED, log entry 50) -/
def execRetrainDone (ch : Fin 4) (levelled : Bool) (lanes : List LaneSweep) (s : State) : Host.Outcome State Fault Refusal :=
  let s := s.begin
  .next (s.guard (s.works && s.mcState ch == mcRETRAIN) (fun s =>
    if levelled = false then s.fenceRun ch 0
    else
      let bad := s.failedLanes ch lanes
      let s1 := s.showLanes ch lanes
      if bad = 0 then s1.toMc ch mcRUNNING else s1.fenceRun ch bad))

/-! ### The map (R281, R284) -/

/-- BUILD: refused once built, or while an enabled channel is neither RUNNING nor FENCED; entries at or above the capacity become UNIT. (DEDUCED, log entry 51) -/
def State.wrMapCtrl (s : State) (w : W64) : State :=
  let fitted (ch : Nat) : Bool := s.on (rMC_CFG ch) fMC_CFG_EN
  if getFld w fMAP_CTRL_BUILD = 0 then s
  else if s.on rMAP_STAT fMAP_STAT_BUILT ||
      (List.range 4).any (fun ch => fitted ch && s.mcState ch != mcRUNNING && s.mcState ch != mcFENCED) then s.refuse rMAP_CTRL
  else
    let s1 := overN 4 (fun ch s => if s.on (rMC_CFG ch) fMC_CFG_EN then s else s.toMc ch mcABSENT) s
    let surv := (List.range 4).filter (fun ch => s1.mcState ch == mcRUNNING)
    if surv.length < 2 then s1.halt 0x31
    else
      let s2 := ((s1.wr rMAP_STAT fMAP_STAT_BUILT 1).wr rMAP_STAT fMAP_STAT_N surv.length).wr rMAP_STAT fMAP_STAT_SURV
        (surv.foldl (fun a ch => a + 2 ^ ch) 0)
      let pages := s2.capacity / 2 ^ 21
      let s3 := overN 4096 (fun i s => if pages ≤ 4 * i then s.setRw (rOWN_DRAM i) 0xFEFEFEFE else s)
        (s2.wr rMAP_STAT fMAP_STAT_PAGES pages)
      if (List.range 4).any (fun ch => s.mcState ch == mcFENCED && fitted ch) then s3.setStateBit bitFENCED_BOOT true else s3

/-- BUILD. -/
def execBuild (who : Who) (s : State) : Host.Outcome State Fault Refusal :=
  .next (s.begin.write who rMAP_CTRL (fun s => s.wrMapCtrl (wBit 0 fMAP_CTRL_BUILD)))

/-! ### Drift tracking (R285, R286, R292) -/

/-- The run that a tracking step measures where the taps from `run.1` to `run.2` pass: each edge is searched within 16 taps of where the chosen run has it
(R285). (DEDUCED, log entry 50) -/
def State.driftRun (s : State) (a : Nat) (run : Fin 128 × Fin 128) : Fin 128 × Fin 128 :=
  let n := s.rd a fLANE_RD_EYE
  let lo := s.rd a fLANE_RD_DLY - (n - 1) / 2
  let hi := lo + n - 1
  let near (e : Nat) (x : Fin 128) : Fin 128 := Fin.ofNat 128 (min 127 (max (e - 16) (min (e + 16) x.val)))
  (near lo run.1, near hi run.2)

/-- Does a lane fail a tracking step in one direction? -/
def State.driftBad (s : State) (ch a : Nat) (run : Fin 128 × Fin 128) : Bool :=
  let n := run.2.val + 1 - run.1.val
  let c := (run.1.val + run.2.val) / 2
  let d := s.rd a fLANE_RD_DLY
  decide (n < s.rd (rMC_TRAIN_CFG ch) fMC_TRAIN_CFG_EYE_MIN) ||
    decide (s.rd (rDRIFT_CFG ch) fDRIFT_CFG_DRIFT_MAX < max (c - d) (d - c))

/-- A lane's register takes the newly measured run. -/
def State.driftMove (s : State) (a : Nat) (run : Fin 128 × Fin 128) : State :=
  (s.wr a fLANE_RD_EYE (run.2.val + 1 - run.1.val)).wr a fLANE_RD_DLY ((run.1.val + run.2.val) / 2)

/-- All-bank refreshes lower the debt, not below −8. (DESIGN CHOICE, log entry 49) -/
def State.refreshAb (s : State) (ch sc n : Nat) : State := s.modSub ch sc (fun x => { x with debt := max (-8) (x.debt - n) })

/-- REF_STAT shows the debts (R293). -/
def State.showDebt (s : State) (ch : Nat) : State :=
  (s.wr (rREF_STAT ch) fREF_STAT_DEBT_SC0 (toTwos 5 (s.sub ch 0).debt)).wr (rREF_STAT ch) fREF_STAT_DEBT_SC1 (toTwos 5 (s.sub ch 1).debt)

/-- A step's all-bank refreshes of a subchannel, up to 16 at a time without a burst; one with D at 8 is a forced one (R294). (DEDUCED, log entry 50) -/
def State.driftRefresh (s : State) (ch sc n : Nat) : State :=
  if n = 0 then s
  else
    let s1 := s.refreshAb ch sc n
    if 8 ≤ (s.sub ch sc).debt then s1.bumpEv (rREF_FORCED ch) 1 else s1

/-- A tracking step measures the lanes: each moves to its new centre, or the step fails and the channel retrains (R285, R286). -/
def State.trackStep (s : State) (ch : Nat) (runs : List LaneRun) : State :=
  let run (k : Nat) : LaneRun :=
    let r := runs.getD k ⟨(0, 0), (0, 0)⟩
    ⟨s.driftRun (rLANE_RD ch k) r.rd, s.driftRun (rLANE_WR ch k) r.wr⟩
  let bad := (List.range 4).filter (fun k => s.driftBad ch (rLANE_RD ch k) (run k).rd || s.driftBad ch (rLANE_WR ch k) (run k).wr)
  if bad.isEmpty then overN 4 (fun k s => (s.driftMove (rLANE_RD ch k) (run k).rd).driftMove (rLANE_WR ch k) (run k).wr) s
  else ((s.bumpErr (rDRIFT_FAIL ch)).kevt (0x08 + ch) 0x40 ch (bad.foldl (fun a k => a + 2 ^ k) 0)).startRetrain ch

/-- The tracking step of a channel that waits for a refresh, and a change of it. -/
def State.driftDue (s : State) (ch : Nat) : Option (Bool × List LaneRun) := storeGet (fun _ => none) s.mem.drift ch
def State.setDrift (s : State) (ch : Nat) (x : Option (Bool × List LaneRun)) : State :=
  { s with mem := { s.mem with drift := storePut (fun _ => none) s.mem.drift ch x } }

/-- The controller tracks drift: the channel is RUNNING with DRIFT_CFG.EN (R285). -/
def State.driftOn (s : State) (ch : Nat) : Bool := s.mcState ch == mcRUNNING && s.on (rDRIFT_CFG ch) fDRIFT_CFG_EN

/-- May the step that waits run inside an all-bank refresh made now: without panic, or inside a forced one where none has completed for 1,000 ms? -/
def State.driftMay (s : State) (ch : Nat) (forced : Bool) : Bool :=
  match s.driftDue ch with
  | none => false
  | some d => s.mcPanic ch == 0 || (forced && d.1)

/-- An all-bank refresh is made: a step that waits runs inside it; DRIFT_SKIP advances where it ran under panic (R292). A retrain has replaced it (R302). -/
def State.driftInRefresh (s : State) (ch : Nat) (forced : Bool) : State :=
  match s.driftDue ch with
  | none => s
  | some d =>
    if s.driftOn ch = false then s.setDrift ch none
    else if s.driftMay ch forced = false then s
    else ((if s.mcPanic ch = 0 then s else s.bumpErr (rDRIFT_SKIP ch)).setDrift ch none).trackStep ch d.2

/-- DRIFT_STEP: a step comes due with the taps that pass and the all-bank refreshes that it uses on each subchannel. Under panic, or while a burst is in
progress, which no refresh splits, it waits for a refresh: for the first after panic clears, or, where no step has completed for 1,000 ms (`late`), for the next
forced one (R292, R294). (DEDUCED, log entry 50) -/
def execDriftStep (ch : Fin 4) (late : Bool) (runs : List LaneRun) (ref0 ref1 : Fin 17) (s : State) : Host.Outcome State Fault Refusal :=
  let s := s.begin
  .next (s.guard (s.works && s.driftOn ch) (fun s =>
    if s.mcPanic ch ≠ 0 ∨ (s.sub ch 0).burst ≠ [] ∨ (s.sub ch 1).burst ≠ [] then s.setDrift ch (some (late, runs))
    else ((((s.setDrift ch none).driftRefresh ch 0 ref0).driftRefresh ch 1 ref1).showDebt ch).trackStep ch runs))

/-! ### Requests and their classes (R289, R291, R292) -/

/-- The class of a request. -/
def State.reqClass (s : State) (ch : Nat) (r : McReq) : Nat :=
  match r.src with
  | .fetch p => if bitOf (s.mcPanic ch) p then 3 else 2
  | .fore => if r.aged then 2 else 1
  | .back => 0

/-- Bank and row of a request. -/
def State.reqBank (s : State) (r : McReq) : Nat := (dramPlace s.surv r.off).bank
def State.reqRow (s : State) (r : McReq) : Nat := (dramPlace s.surv r.off).row

/-- Is a queued request eligible (R291)? -/
def SubSt.eligible (x : SubSt) (r : McReq) : Bool :=
  let before (l : List McReq) : Bool := l.any (fun q => q.off == r.off && decide (q.num < r.num))
  if r.write then
    !(before x.rq || before (x.burst.filter (fun q => !q.write))) &&
      (x.drain || decide (32 ≤ x.wq.length) || x.rq.isEmpty || x.rq.any (fun q => q.off == r.off && decide (r.num < q.num)))
  else !(before x.wq || before (x.burst.filter (fun q => q.write)))

/-- MEMORY_REQUEST: a request for 64 bytes at a DRAM offset, from its unit; a fenced channel answers at once with an error (R288); a full
queue does not take it. The bytes are those a write places at `pos` of the block; none where the unit's own command moves the data. (DEDUCED, log entry 48) -/
def execMemoryRequest (off : BitVec 35) (src : MemSrc) (write : Bool) (pos : Fin 64) (bytes : List Byte) (s : State) :
    Host.Outcome State Fault Refusal :=
  let s := s.begin
  let o := off.toNat / 64 * 64
  let pl := dramPlace s.surv o
  .next (s.guard (decide (o < s.capacity)) (fun s =>
    if s.works = false ∨ s.mcState pl.channel = mcFENCED then s.answer .errZero
    else
      let x := s.sub pl.channel pl.sub
      let r : McReq := { write := write, off := o, src := src, num := x.count, pos := pos.val, bytes := bytes.take (64 - pos.val) }
      if write then
        if 32 ≤ x.wq.length then s
        else (s.modSub pl.channel pl.sub (fun x => { x with wq := x.wq ++ [r], count := x.count + 1 })).updateDrain pl.channel pl.sub
      else if 64 ≤ x.rq.length then s
      else s.modSub pl.channel pl.sub (fun x => { x with rq := x.rq ++ [r], count := x.count + 1 })))

/-- AGE_PROMOTION: the i-th request of a queue has waited AGE_US in class 1. -/
def execAgePromotion (ch : Fin 4) (sc : Fin 2) (write : Bool) (i : Fin 64) (s : State) : Host.Outcome State Fault Refusal :=
  let up (l : List McReq) : List McReq :=
    l.zipIdx.map (fun p => if p.2 = i.val ∧ p.1.src = .fore then { p.1 with aged := true } else p.1)
  .next (s.begin.modSub ch sc (fun x => if write then { x with wq := up x.wq } else { x with rq := up x.rq }))

/-- SCRUB_STAT shows whether a patrol pass is in progress and not suspended, and how far it is (R300). -/
def State.eccRegions (s : State) : List Nat := (List.range 128).filter (fun r => s.regionEcc (2 ^ 28 * r) && decide (2 ^ 28 * r < s.capacity))
def State.scrubRuns (s : State) : Bool :=
  s.works && (s.on rSCRUB_CFG fSCRUB_CFG_EN || s.on rSCRUB_STAT fSCRUB_STAT_FAST) && !s.eccRegions.isEmpty && decide (s.mcPanic 0 = 0)
def State.showScrub (s : State) : State :=
  let total := (224 * 2 ^ 20) * s.eccRegions.length
  let passed := (s.eccRegions.map (fun r => min (224 * 2 ^ 20) (s.mem.patrol - 2 ^ 28 * r))).sum
  (s.wr rSCRUB_STAT fSCRUB_STAT_RUNNING (b2n s.scrubRuns)).wr rSCRUB_STAT fSCRUB_STAT_PROGRESS (if total = 0 then 0 else passed * 1000 / total)

/-- PANIC_FLAG_CHANGE: the pipes' flags reach a controller, `cycles` controller cycles after the last change it saw. (DEDUCED, log entry 51) -/
def execPanicFlagChange (ch : Fin 4) (cycles : Nat) (s : State) : Host.Outcome State Fault Refusal :=
  let s := s.begin
  let v := (List.range 8).foldl (fun a p => if s.on (rFETCH_STAT p) fFETCH_STAT_PANIC then a + 2 ^ p else a) 0
  let s1 := if s.mcPanic ch = 0 then s else s.bumpEv (rPANIC_CYC ch) cycles
  let s2 : State := { s1 with mem := { s1.mem with panic := storePut (fun _ => 0) s1.mem.panic ch v } }
  .next (((s2.updateDrain ch 0).updateDrain ch 1).showScrub)

/-! ### Refresh (R293, R294) -/

/-- TREFI: the debt grows, to 8 at most. -/
def execTrefi (ch : Fin 4) (sc : Fin 2) (s : State) : Host.Outcome State Fault Refusal :=
  .next (s.begin.guard s.works (fun s => (s.modSub ch sc (fun x => { x with debt := min 8 (x.debt + 1) })).showDebt ch))

/-- REFRESH_FACTOR_READ: the factor's code, 0x0 to 0x4. -/
def execRefreshFactorRead (ch : Fin 4) (factor : Fin 5) (s : State) : Host.Outcome State Fault Refusal :=
  .next (s.begin.guard s.works (fun s => s.wr (rMC_STAT ch) fMC_STAT_REF_FACTOR factor))

/-! ### Row disturbance (R295, R296) -/

/-- The activation table of a bank counts an activation of a row: the entries, and the count. -/
def actTable (t : List (Nat × Nat)) (row : Nat) : List (Nat × Nat) × Nat :=
  match t.find? (fun e => e.1 == row) with
  | some e => (t.map (fun x => if x.1 = row then (row, e.2 + 1) else x), e.2 + 1)
  | none =>
    if t.length < 64 then (t ++ [(row, 1)], 1)
    else
      let low := t.foldl (fun a x => min a x.2) (t.headD (0, 0)).2
      let i := t.findIdx (fun x => x.2 == low)
      (t.set i (row, low + 1), low + 1)

/-- A row is activated: counted in ACTS and in its bank's table; at THRESH a targeted refresh is scheduled and the count becomes 0. -/
def State.rowAct (s : State) (ch sc bank row : Nat) : State :=
  let s1 := s.bumpEv (rACTS ch) 1
  let r := actTable (storeGet (fun _ => []) (s.sub ch sc).acts bank) row
  let hit := s.on (rRH_CFG ch) fRH_CFG_EN && decide (s.rd (rRH_CFG ch) fRH_CFG_THRESH ≤ r.2)
  let t := if hit then r.1.map (fun e => if e.1 = row then (row, 0) else e) else r.1
  s1.modSub ch sc (fun x => { x with acts := storePut (fun _ => []) x.acts bank t
                                     trr := if hit then x.trr ++ [(bank, row)] else x.trr })

/-- Rows of a bank: the channel's capacity over 2 subchannels, 16 banks and 2 KiB (R279). -/
def State.mcRows (s : State) (ch : Nat) : Nat := 2 ^ (14 + s.rd (rMC_CFG ch) fMC_CFG_CAP)

/-- A targeted refresh: refresh-management commands, or an activation of each row next to it that exists. -/
def State.targeted (s : State) (ch sc bank row : Nat) : State :=
  let s1 := s.bumpEv (rRH_TRR ch) 1
  if s.on (rMC_STAT ch) fMC_STAT_RFM_SUP then s1
  else
    let rows := (if 2 ≤ row then [row - 2] else []) ++ (if 1 ≤ row then [row - 1] else []) ++
      ([row + 1, row + 2].filter (fun r => decide (r < s.mcRows ch)))
    rows.foldl (fun s r => s.rowAct ch sc bank r) s1

/-- ACTIVATION_TABLE_CLEAR. -/
def execActivationTableClear (ch : Fin 4) (s : State) : Host.Outcome State Fault Refusal :=
  .next (overN 2 (fun sc s => s.modSub ch sc (fun x => { x with acts := [] })) s.begin)

/-! ### The next command (R290) -/

/-- A request is issued: a write reaches the memory, a read takes what the memory holds. (DEDUCED, log entry 48) -/
def State.issue (s : State) (ch sc : Nat) (r : McReq) : State :=
  if r.write then
    let s1 := s.bumpEv (rWR_BYTES ch) 64
    let k := (dramBase + r.off) / 8
    if r.fix ≠ 0 then ((List.range 8).filter (bitOf r.fix)).foldl (fun s i => s.setEcc (k + i) 0) s1
    else if r.bytes.isEmpty then s1 else (s1.memStore (dramBase + r.off + r.pos) r.bytes).1
  else
    let errs := (wordsOf (dramBase + r.off) 64).map (fun k => if s.wordChecked k then s.eccOf k else 0)
    (s.bumpEv (rRD_BYTES ch) 64).modSub ch sc (fun x => { x with back := x.back ++ [⟨r.off, s.dramRead r.off 64, errs⟩] })

/-- A new activation: the oldest eligible request of the highest class present, and every eligible request queued for its bank and row. -/
def State.newBurst (s : State) (ch sc : Nat) : State :=
  let x := s.sub ch sc
  let all := (x.rq ++ x.wq).filter x.eligible
  let top := all.foldl (fun a r => max a (s.reqClass ch r)) 0
  let best := (all.filter (fun r => s.reqClass ch r == top)).foldl (fun (a : Option McReq) r =>
    match a with
    | none => some r
    | some b => if r.num < b.num then some r else a) none
  match best with
  | none => s
  | some r =>
    let set := all.filter (fun q => s.reqBank q == s.reqBank r && s.reqRow q == s.reqRow r)
    let sorted := set.mergeSort (fun a b => decide (a.num ≤ b.num))
    let inSet (q : McReq) : Bool := set.any (fun t => t.num == q.num)
    (s.modSub ch sc (fun x => { x with burst := sorted, rq := x.rq.filter (fun q => !inSet q), wq := x.wq.filter (fun q => !inSet q) })).rowAct
      ch sc (s.reqBank r) (s.reqRow r) |>.fillFixes ch sc

/-- A per-bank refresh in a gap: D falls once every bank has had one. -/
def State.refreshPb (s : State) (ch sc bank : Nat) : State :=
  s.modSub ch sc (fun x =>
    let m := setBitN x.perBank bank true
    if m = 0xFFFF then { x with perBank := 0, debt := max (-8) (x.debt - 1) } else { x with perBank := m })

/-- COMMAND_SELECT, after the upsets of memory bits since the last command: a forced refresh comes first, then the burst's next access; between bursts a targeted refresh, a per-bank refresh of a
bank that a gap leaves free (`pb`), an all-bank refresh after 1 µs with all banks idle (`idle`), or a new activation. During a retrain the burst in progress completes and forced refreshes follow; other requests wait (R287). (DEDUCED, log entry 48; DESIGN CHOICE, log entries 49, 85) -/
def execCommandSelect (ch : Fin 4) (sc : Fin 2) (pb : Option (Fin 16)) (idle : Bool) (upsets : List (BitVec 36 × Bool)) (s : State) :
    Host.Outcome State Fault Refusal :=
  let s := s.begin.upset upsets
  let x := s.sub ch sc
  .next (s.guard (s.works && (s.mcState ch == mcRUNNING || s.mcState ch == mcRETRAIN)) (fun s =>
    if x.burst = [] ∧ 8 ≤ x.debt then (((s.refreshAb ch sc 1).bumpEv (rREF_FORCED ch) 1).showDebt ch).driftInRefresh ch true
    else
      match x.burst with
      | r :: rest => (s.modSub ch sc (fun x => { x with burst := rest })).issue ch sc r
      | [] =>
        if s.mcState ch ≠ mcRUNNING then s
        else match x.trr with
        | t :: rest => (s.modSub ch sc (fun x => { x with trr := rest })).targeted ch sc t.1 t.2
        | [] =>
          match pb with
          | some b =>
            if -8 < x.debt ∧ (x.rq ++ x.wq).all (fun r => s.reqBank r != b.val) = true then
              (if s.driftMay ch false then ((s.refreshAb ch sc 1).showDebt ch).driftInRefresh ch false else (s.refreshPb ch sc b).showDebt ch)
            else s
          | none =>
            if idle then
              (if -8 < x.debt ∧ x.rq = [] ∧ x.wq = [] then ((s.refreshAb ch sc 1).showDebt ch).driftInRefresh ch false else s)
            else s.newBurst ch sc))

/-- A read returns: single-bit errors are corrected, their blocks written back, an uncorrectable one is reported (R299). -/
def State.readBack (s : State) (ch : Nat) (r : McRead) : State :=
  let k0 := (dramBase + r.off) / 8
  r.errs.zipIdx.foldl (fun s p =>
    if p.1 = 1 then (s.bumpErr (rCE ch)).queueFix (k0 + p.2)
    else if p.1 = 2 then s.reportUe (k0 + p.2) else s) s
def McRead.failed (r : McRead) : Bool := r.errs.any (fun e => e == 2)

/-- MEMORY_READ_DATA: the oldest read issued returns; an uncorrectable error answers with an error response. -/
def execMemoryReadData (ch : Fin 4) (sc : Fin 2) (s : State) : Host.Outcome State Fault Refusal :=
  let s := s.begin
  .next (match (s.sub ch sc).back with
    | [] => s
    | r :: rest => ((s.modSub ch sc (fun x => { x with back := rest })).readBack ch r).answer (if r.failed then .errZero else .bytes r.bytes))

/-- The burst in progress completes, and every read issued returns (R455). (DEDUCED, log entry 48) -/
def State.finishBursts (s : State) (ch : Nat) : State :=
  overN 2 (fun sc s =>
    let s1 := (s.sub ch sc).burst.foldl (fun s r => s.issue ch sc r) (s.modSub ch sc (fun x => { x with burst := [] }))
    (s1.sub ch sc).back.foldl (fun s r => (s.readBack ch r).emit (if r.failed then .memError r.off false else .memData r.off r.bytes))
      (s1.modSub ch sc (fun x => { x with back := [] }))) s

/-! ### Inline ECC and patrol scrub (R297 to R300) -/

/-- A region is initialised with zeros, check bytes included; its upper 32 MiB hold no data. -/
def State.initRegion (s : State) (r : Nat) : State :=
  let lo := 2 ^ 28 * r
  let out (a : Nat) : Bool := decide (a < lo ∨ 2 ^ 28 + lo ≤ a)
  let s1 : State := { s with ecc := s.ecc.filter (fun p => decide (8 * p.1 < dramBase + lo ∨ 2 ^ 28 + dramBase + lo ≤ 8 * p.1)) }
  overN 4 (fun i s => s.setRw (rOWN_DRAM (r * 32 + 28 + i)) 0xFEFEFEFE) (s1.dramKeep out)

/-- ECC_MAP: only after BUILD and before the first RUN; no region at or above the capacity. (DEDUCED, log entry 51) -/
def State.wrEccMap (s : State) (i : Nat) (w : W64) : State :=
  let old := (s.rw (rECC_MAP i)).toNat
  if s.on rMAP_STAT fMAP_STAT_BUILT = false || s.runLocked ||
      (List.range 32).any (fun b => bitOf w.toNat b && decide (s.capacity ≤ 2 ^ 28 * (32 * i + b))) then s.refuse (rECC_MAP i)
  else
    let fresh := (List.range 32).filter (fun b => bitOf w.toNat b && !bitOf old b)
    let gone := (List.range 32).filter (fun b => bitOf old b && !bitOf w.toNat b)
    let s1 := s.setRw (rECC_MAP i) (BitVec.ofNat 64 (w.toNat % 2 ^ 32))
    let s2 := fresh.foldl (fun s b => s.initRegion (32 * i + b)) s1
    let s3 := gone.foldl (fun s b => overN 4 (fun j s => s.setRw (rOWN_DRAM ((32 * i + b) * 32 + 28 + j)) 0xFFFFFFFF) s) s2
    (if fresh.isEmpty then s3 else s3.wr rMAP_STAT fMAP_STAT_ECC_BUSY 1).showScrub

/-- ECC_MAP_WRITE. -/
def execEccMapWrite (who : Who) (i : Fin 4) (w : W32) (s : State) : Host.Outcome State Fault Refusal :=
  .next (s.begin.write who (rECC_MAP i) (fun s => s.wrEccMap i (wide w)))

/-- ECC_INIT_DONE. -/
def execEccInitDone (s : State) : Host.Outcome State Fault Refusal := .next (s.begin.wr rMAP_STAT fMAP_STAT_ECC_BUSY 0)

/-- The data block of a region with ECC at or after an offset. -/
def State.patrolFrom (s : State) (o : Nat) : Option Nat :=
  (s.eccRegions.map (fun r => (2 ^ 28 * r, max o (2 ^ 28 * r)))).findSome? (fun p => if p.2 < 224 * 2 ^ 20 + p.1 then some p.2 else none)

/-- A patrol step: the next block is read and corrected (R299, R302), one on a fenced channel answers with an error only; the last one ends the pass. The
flags say whether the block holds an uncorrectable word and whether the pass ended. (DEDUCED, log entry 51) -/
def State.patrolStep (s : State) : State × Bool × Bool :=
  let o := match s.patrolFrom s.mem.patrol with | some o => o | none => (s.patrolFrom 0).getD 0
  let fenced := s.dramFenced o
  let bad := fenced || (wordsOf (dramBase + o) 64).any (fun k => s.wordChecked k && s.eccOf k == 2)
  let s1 := if fenced then s else s.scrubBlock (dramBase + o)
  match s.patrolFrom (o + 64) with
  | some n => (({ s1 with mem := { s1.mem with patrol := n } }).showScrub, bad, false)
  | none => ((({ s1 with mem := { s1.mem with patrol := 0 } }).bumpEv rMC_SCRUB_PASSES 1).showScrub, bad, true)

/-- SCHED_CFG: WR_LOW must be below WR_HIGH (R303). -/
def State.wrSchedCfg (s : State) (ch : Nat) (w : W64) : State :=
  if getFld w fSCHED_CFG_WR_HIGH ≤ getFld w fSCHED_CFG_WR_LOW then s.refuse (rSCHED_CFG ch)
  else ((s.settingWrite (rSCHED_CFG ch) w true false).updateDrain ch 0).updateDrain ch 1

end Sys2Proof.Machine
end

