-- ==== Sys2Proof/Machine/Dict.lean ====
section
/-! DEFINITION. Machine/Dict.lean: the dictionary-only entries of the object dictionary: types, access, defaults, ranges, values, and their
persistence (R397, R405 to R412, R417 to R430). -/
namespace Sys2Proof.Machine

/-! ### Types, access, ranges (R406 to R410) -/

/-- Access of a requester class. -/
inductive DAcc where
  | none | ro | wo | rw | rwp
  deriving DecidableEq, Repr

/-- What values an entry takes: unsigned in a range; two's complement in a range; bits of a mask; octets; text; a code of a list; HOST_LOSS_MS
(0, or 100 to 60,000); the images of a pipe profile: TIMING, LINK, SYNC (R419). -/
inductive DKind where
  | num (lo hi : Nat)
  | int (lo hi : Int)
  | bits (mask : Nat)
  | oct
  | str
  | codes (l : List Nat)
  | hostLoss
  | timing
  | link
  | sync
  deriving DecidableEq, Repr

/-- An entry: its length in bytes, its values, its access for keeper, manager, stall and fleet host, its class, its default. -/
structure DEntry where
  len : Nat
  kind : DKind
  acc : DAcc × DAcc × DAcc × DAcc
  cls : Cls := .no
  dflt : List Byte := []
  deriving DecidableEq, Repr

/-- The requester classes (R376). -/
def clsKEEPER : Nat := 0
def clsMANAGER : Nat := 1
def clsSTALL : Nat := 2
def clsFLEET : Nat := 3

/-- The access of a class. -/
def DEntry.accOf (e : DEntry) (c : Nat) : DAcc :=
  if c = 0 then e.acc.1 else if c = 1 then e.acc.2.1 else if c = 2 then e.acc.2.2.1 else e.acc.2.2.2

def DAcc.canRead : DAcc → Bool
  | .ro | .rw | .rwp => true
  | _ => false
def DAcc.canWrite : DAcc → Bool
  | .wo | .rw | .rwp => true
  | _ => false

def accRO : DAcc × DAcc × DAcc × DAcc := (.ro, .ro, .ro, .ro)
def accRONS : DAcc × DAcc × DAcc × DAcc := (.ro, .ro, .none, .ro)
def accRWP : DAcc × DAcc × DAcc × DAcc := (.rwp, .rwp, .none, .rwp)
def accRWPS : DAcc × DAcc × DAcc × DAcc := (.rwp, .rwp, .ro, .rwp)

/-- Text as bytes, filled with zeros to n. -/
def textBytes (n : Nat) (t : String) : List Byte :=
  let b := t.toList.map (fun c => BitVec.ofNat 8 c.toNat)
  b ++ List.replicate (n - b.length) 0

def zerosB (n : Nat) : List Byte := List.replicate n 0
def wordsB (l : List Nat) : List Byte := l.flatMap (bytesLE 4)

/-- The entry number of INDEX and SUB. -/
def dkey (idx sub : Nat) : Nat := idx * 256 + sub

/-- The kind of a number that no range limits. -/
def kU : DKind := .num 0 (2 ^ 64 - 1)

/-- The entries at fixed places. -/
def fixedEntries : List (Nat × DEntry) :=
  [(dkey 0x1000 0x01, { len := 4, kind := kU, acc := accRO }),
   (dkey 0x1000 0x02, { len := 16, kind := .str, acc := accRO, dflt := textBytes 16 "Bamulawyn" }),
   (dkey 0x1000 0x03, { len := 16, kind := .str, acc := accRO, dflt := textBytes 16 "Umxivis Z880" }),
   (dkey 0x1000 0x04, { len := 16, kind := .oct, acc := accRO }),
   (dkey 0x1000 0x05, { len := 4, kind := kU, acc := accRO }),
   (dkey 0x1000 0x06, { len := 4, kind := kU, acc := accRO }),
   (dkey 0x1000 0x07, { len := 4, kind := kU, acc := accRO }),
   (dkey 0x1000 0x08, { len := 32, kind := .str, acc := accRO, dflt := zerosB 32 }),
   (dkey 0x1000 0x09, { len := 1, kind := kU, acc := accRO }),
   (dkey 0x1000 0x0A, { len := 2, kind := kU, acc := accRO }),
   (dkey 0x1000 0x0B, { len := 8, kind := kU, acc := accRO }),
   (dkey 0x1000 0x0C, { len := 2, kind := kU, acc := accRO, dflt := bytesLE 2 0x0100 }),
   (dkey 0x1000 0x20, { len := 1, kind := .codes [0, 0x5A, 0xA5], acc := (.wo, .wo, .none, .wo), cls := .b, dflt := [0] }),
   (dkey 0x1000 0x21, { len := 32, kind := .str, acc := accRWPS, cls := .l, dflt := zerosB 32 })] ++
  [(dkey 0x1100 0x01, { len := 1, kind := .num 1 64, acc := accRWPS, cls := .b, dflt := [1] }),
   (dkey 0x1100 0x02, { len := 4, kind := .bits 7, acc := accRWP, cls := .b, dflt := bytesLE 4 7 }),
   (dkey 0x1100 0x03, { len := 1, kind := .num 0 1, acc := accRWP, cls := .b, dflt := [0] }),
   (dkey 0x1100 0x04, { len := 1, kind := .num 0 3, acc := accRWP, cls := .b, dflt := [0] }),
   (dkey 0x1100 0x05, { len := 2, kind := .num 10 10000, acc := accRWP, cls := .l, dflt := bytesLE 2 100 }),
   (dkey 0x1100 0x06, { len := 1, kind := .num 0 7, acc := accRWP, cls := .l, dflt := [0] }),
   (dkey 0x1100 0x07, { len := 2, kind := .hostLoss, acc := accRWP, cls := .l, dflt := bytesLE 2 1000 }),
   (dkey 0x1100 0x08, { len := 2, kind := .num 10 3600, acc := accRWP, cls := .l, dflt := bytesLE 2 600 }),
   (dkey 0x1100 0x09, { len := 16, kind := .oct, acc := accRWP, cls := .b, dflt := zerosB 16 }),
   (dkey 0x1100 0x0A, { len := 4, kind := .bits 0xA7C, acc := (.rw, .rw, .none, .ro), cls := .l, dflt := bytesLE 4 0xA7C })] ++
  ((List.range 7).map (fun i => (dkey 0x1100 (0x20 + i), ({ len := 8, kind := kU, acc := accRONS } : DEntry)))) ++
  [(dkey 0x2100 0x01, { len := 4, kind := kU, acc := accRONS, dflt := zerosB 4 }),
   (dkey 0x2100 0x02, { len := 4, kind := kU, acc := accRONS, dflt := zerosB 4 }),
   (dkey 0x2100 0x03, { len := 1, kind := kU, acc := accRONS, dflt := [0] }),
   (dkey 0x2100 0x04, { len := 4, kind := kU, acc := accRONS, dflt := zerosB 4 }),
   (dkey 0x8000 0x01, { len := 32, kind := .oct, acc := (.wo, .wo, .wo, .wo), cls := .l }),
   (dkey 0x8000 0x02, { len := 656, kind := .oct, acc := accRO }),
   (dkey 0x8000 0x03, { len := 131072, kind := .oct, acc := accRO }),
   (dkey 0x8000 0x04, { len := 4, kind := kU, acc := accRO })] ++
  ((List.range 8).map (fun i => (dkey 0x8000 (0x10 + i), ({ len := 48, kind := .oct, acc := accRO } : DEntry)))) ++
  [(dkey 0x8000 0x18, { len := 2, kind := kU, acc := accRO }),
   (dkey 0x8000 0x19, { len := 1, kind := kU, acc := accRO }),
   (dkey 0x8000 0x1A, { len := 2, kind := kU, acc := accRONS }),
   (dkey 0x8100 0x00, { len := 16, kind := .oct, acc := (.rw, .none, .none, .none), cls := .l, dflt := zerosB 16 }),
   (dkey 0x8100 0x01, { len := 16, kind := .oct, acc := (.none, .none, .none, .ro), cls := .l }),
   (dkey 0x8100 0x02, { len := 16, kind := .oct, acc := (.none, .none, .none, .wo), cls := .l }),
   (dkey 0x8100 0x03, { len := 1, kind := .num 0 255, acc := (.none, .none, .none, .wo), cls := .l }),
   (dkey 0x8100 0x04, { len := 1, kind := kU, acc := accRONS }),
   (dkey 0x9010 0x01, { len := 1, kind := .num 0 7, acc := (.none, .wo, .none, .wo), cls := .l }),
   (dkey 0x9010 0x02, { len := 4, kind := kU, acc := accRONS, dflt := zerosB 4 }),
   (dkey 0x9010 0x03, { len := 4, kind := kU, acc := accRONS, dflt := zerosB 4 }),
   (dkey 0x9010 0x04, { len := 2, kind := kU, acc := accRONS, dflt := zerosB 2 }),
   (dkey 0x9010 0x05, { len := 4, kind := .num 0 0xFFFFFFFF, acc := (.none, .wo, .none, .wo), cls := .l }),
   (dkey 0x9020 0x01, { len := 192, kind := .oct, acc := (.rw, .rw, .none, .rw), cls := .l, dflt := zerosB 192 }),
   (dkey 0x9020 0x02, { len := 516, kind := .oct, acc := accRONS })] ++
  ((List.range 17).map (fun i => (dkey 0x9030 (1 + i), ({ len := 2, kind := kU, acc := accRONS } : DEntry)))) ++
  [(dkey 0x9030 0x12, { len := 2, kind := .int (-640) 2400, acc := accRWP, cls := .l, dflt := bytesLE 2 2000 }),
   (dkey 0x9030 0x13, { len := 8, kind := kU, acc := accRONS }),
   (dkey 0xA002 0x09, { len := 48, kind := .oct, acc := accRONS, dflt := zerosB 48 }),
   (dkey 0xA002 0x10, { len := 3145728, kind := .oct, acc := (.wo, .wo, .none, .wo), cls := .l }),
   (dkey 0xA003 0x09, { len := 2, kind := .num 0 65535, acc := (.none, .none, .none, .wo), cls := .l }),
   (dkey 0xB010 0x01, { len := 97, kind := .oct, acc := accRO }),
   (dkey 0xB010 0x02, { len := 4194304, kind := .oct, acc := accRONS })]

/-- The entries of a pipe profile (R419). -/
def profileEntry (sub : Nat) : Option DEntry :=
  match sub with
  | 1 => some { len := 32, kind := .str, acc := accRWPS, cls := .l, dflt := zerosB 32 }
  | 2 => some { len := 1, kind := .num 0 1, acc := accRWP, cls := .b, dflt := [0] }
  | 3 => some { len := 20, kind := .timing, acc := accRWP, cls := .b,
                dflt := wordsB [0x0F0000B0, 0x00580128, 0x08700008, 0x000A0048, 0xE0091050] }
  | 4 => some { len := 8, kind := .link, acc := accRWP, cls := .b, dflt := wordsB [0x0000012C, 0x00000F64] }
  | 5 => some { len := 4, kind := .sync, acc := accRWP, cls := .b, dflt := zerosB 4 }
  | 6 => some { len := 1, kind := kU, acc := accRO, dflt := [0] }
  | _ => none

/-- The entries of a long operation (R397): CONTROL, STATE, PROGRESS, RESULT, ARG, OWNER, PENDING. Stalls may not control them (R399). -/
def opEntry (sub : Nat) : Option DEntry :=
  match sub with
  | 1 => some { len := 1, kind := .num 1 4, acc := (.wo, .wo, .none, .wo), cls := .l }
  | 2 => some { len := 1, kind := kU, acc := accRO }
  | 3 => some { len := 2, kind := kU, acc := accRO }
  | 4 => some { len := 4, kind := kU, acc := accRO }
  | 5 => some { len := 32, kind := .oct, acc := accRO }
  | 6 => some { len := 2, kind := kU, acc := accRO }
  | 7 => some { len := 4, kind := kU, acc := accRO }
  | _ => none

/-- A dictionary-only entry (R413); the last-good baselines stand in the persistent store (R421). -/
def dictEntry (idx sub : Nat) : Option DEntry :=
  if 0x4080 ≤ idx ∧ idx ≤ 0x4780 ∧ idx % 256 = 0x80 then profileEntry sub
  else if 0x7010 ≤ idx ∧ idx < 0x7400 ∧ idx % 0x40 = 0x10 then
    (if sub = 1 then some { len := 32, kind := .str, acc := (.rwp, .rwp, .ro, .ro), cls := .l, dflt := zerosB 32 } else none)
  else if 0xA000 ≤ idx ∧ idx ≤ 0xA006 ∧ 1 ≤ sub ∧ sub ≤ 7 then opEntry sub
  else if 0x6F00 ≤ idx ∧ idx ≤ 0x6F07 ∧ sub ≤ 0x37 then
    some { len := if sub = 0 then 16 else 56, kind := .oct, acc := accRONS }
  else ((fixedEntries.find? (fun e => e.1 == dkey idx sub))).map (·.2)

/-- The entries of access RWP (R428). -/
def rwpKeys : List Nat :=
  [dkey 0x1000 0x21] ++ (List.range 9).map (fun i => dkey 0x1100 (i + 1)) ++
    (List.range 8).flatMap (fun p => (List.range 5).map (fun k => dkey (0x4080 + 0x100 * p) (k + 1))) ++
    (List.range 16).map (fun st => dkey (0x7010 + 0x40 * st) 1) ++ [dkey 0x9030 0x12]

/-- The entry of an entry number. -/
def entryOf (key : Nat) : Option DEntry := dictEntry (key / 256) (key % 256)

/-! ### Ranges (R407, R419) -/

/-- Is a register image within the ranges of its register's fields? -/
def imageOk (a : Nat) (w : Nat) : Bool := !(regBadRange a (BitVec.ofNat 64 w))

/-- Word i of a byte string. -/
def wordAt (b : List Byte) (i : Nat) : Nat := ofBytesLE ((b.drop (4 * i)).take 4)

/-- Is text UTF-8 without a zero: sequences of one to four bytes, no sequence overlong, no surrogate? `more` continuation bytes
are due, the next of them from `lo` below `hi`. -/
def utf8Ok (more lo hi : Nat) : List Byte → Bool
  | [] => more == 0
  | b :: l =>
    let v := b.toNat
    if more ≠ 0 then decide (lo ≤ v ∧ v < hi) && utf8Ok (more - 1) 0x80 0xC0 l
    else if v = 0 then false
    else if v < 0x80 then utf8Ok 0 0 0 l
    else if 0xC2 ≤ v ∧ v < 0xE0 then utf8Ok 1 0x80 0xC0 l
    else if 0xE0 ≤ v ∧ v < 0xF0 then utf8Ok 2 (if v = 0xE0 then 0xA0 else 0x80) (if v = 0xED then 0xA0 else 0xC0) l
    else if 0xF0 ≤ v ∧ v < 0xF5 then utf8Ok 3 (if v = 0xF0 then 0x90 else 0x80) (if v = 0xF4 then 0x90 else 0xC0) l
    else false

/-- The timing of a TIMING value, and whether it keeps the limits of R39 with a GUARD, and the ranges of its registers. -/
def timingOk (b : List Byte) (guard : Nat) : Bool :=
  let w (i : Nat) : W64 := BitVec.ofNat 64 (wordAt b i)
  (timingOf (w 0) (w 1) (w 2) (w 3) (w 4)).inLimits guard && imageOk (rTMG_H0 0) (wordAt b 0) && imageOk (rTMG_H1 0) (wordAt b 1) &&
    imageOk (rTMG_V0 0) (wordAt b 2) && imageOk (rTMG_V1 0) (wordAt b 3) && imageOk (rTMG_CLK 0) (wordAt b 4)

/-- Is a SYNC_SRC image in range: a code of R42, an even OFFSET_PIX? How far the offsets may go depends on the timing in force when the register is
written (R43). -/
def syncOk (w : Nat) : Bool :=
  let src := getFld (BitVec.ofNat 64 w) fSYNC_SRC_SRC
  (decide (src ≤ 4) || decide (8 ≤ src)) && getFld (BitVec.ofNat 64 w) fSYNC_SRC_OFFSET_PIX % 2 == 0

/-- Does a value meet the entry's encoding and range? -/
def DEntry.ok (e : DEntry) (guard : Nat) (b : List Byte) : Bool :=
  let v := ofBytesLE b
  match e.kind with
  | .num lo hi => decide (lo ≤ v ∧ v ≤ hi)
  | .int lo hi => decide (lo ≤ sx (8 * e.len) v ∧ sx (8 * e.len) v ≤ hi)
  | .bits m => v &&& m == v
  | .oct => true
  | .str => utf8Ok 0 0 0 b
  | .codes l => l.contains v
  | .hostLoss => v == 0 || decide (100 ≤ v ∧ v ≤ 60000)
  | .timing => timingOk b guard
  | .link => imageOk (rLINK_CFG 0) (wordAt b 0) && imageOk (rOUT_TRAIN_CFG 0) (wordAt b 1)
  | .sync => syncOk (wordAt b 0)

/-- The pipe of a profile entry. -/
def profilePipe (key : Nat) : Nat := (key / 256 - 0x4080) / 0x100

/-- The GUARD against which a TIMING is checked: that of its pipe. -/
def State.guardOf (s : State) (key : Nat) : Nat := s.rd (rCMODE_CFG (profilePipe key)) fCMODE_CFG_GUARD

/-! ### Values -/

def State.modSm (s : State) (f : SmSt → SmSt) : State := { s with sm := f s.sm }

/-- The value of a dictionary-only entry as READ returns it: as last written or loaded, else its default. -/
def State.dval (s : State) (key : Nat) : List Byte :=
  match storeGet (fun _ => []) s.sm.dict key with
  | [] => match entryOf key with | some e => e.dflt | none => []
  | b => b
def State.setDval (s : State) (key : Nat) (b : List Byte) : State := s.modSm (fun x => { x with dict := storePut (fun _ => []) x.dict key b })
def State.dnum (s : State) (idx sub : Nat) : Nat := ofBytesLE (s.dval (dkey idx sub))

/-- The value of an entry of class B that is in force since the last boot (R405, R429). -/
def State.dforce (s : State) (key : Nat) : List Byte :=
  match storeGet (fun _ => []) s.sm.inForce key with
  | [] => match entryOf key with | some e => e.dflt | none => []
  | b => b
def State.dforceNum (s : State) (idx sub : Nat) : Nat := ofBytesLE (s.dforce (dkey idx sub))

/-- NODE_ID and COMM_EN in force. -/
def State.nodeId (s : State) : Nat := s.dforceNum 0x1100 1
def State.commEn (s : State) : Nat := s.dforceNum 0x1100 2

/-! ### Persistence (R428 to R430) -/

/-- The entries that 0x5A of FACTORY_DEFAULTS keeps: NODE_ID, COMM_EN, CAN_NOM, CAN_DATA, IP6_ADDR. -/
def keptDefaults : List Nat := [dkey 0x1100 1, dkey 0x1100 2, dkey 0x1100 3, dkey 0x1100 4, dkey 0x1100 9]

/-- A FACTORY_DEFAULTS request is carried out: RWP records are deleted; the request reads 0. -/
def State.factoryDefaults (s : State) : State :=
  let gone := if s.nvm.defaults = 0x5A then rwpKeys.filter (fun k => !(keptDefaults.contains k))
    else if s.nvm.defaults = 0xA5 then rwpKeys else []
  (gone.foldl (fun s k => if (s.cacheFind (k / 256 % 65536 + 65536 * (k % 256))).isSome then
    s.recStore (k / 256 % 65536 + 65536 * (k % 256)) false [] else s.lookTouch (k / 256 % 65536 + 65536 * (k % 256))) s).modNvm (fun x => { x with defaults := 0 })

/-- The record key of an entry number: INDEX and SUB as a record's first three bytes. -/
def recOf (key : Nat) : Nat := key / 256 % 65536 + 65536 * (key % 256)

/-- A text without its padding. -/
def stripZeros (b : List Byte) : List Byte := (b.reverse.dropWhile (fun x => x == 0)).reverse

/-- One RWP entry is loaded from its record; a record of another length or with a value out of range is ignored and counted. -/
def State.loadEntry (s : State) (key : Nat) : State :=
  match entryOf key with
  | none => s
  | some e =>
    let (v, bad) := match s.recLoad (recOf key) with
      | none => (e.dflt, false)
      | some b => if b.length = e.len && e.ok (s.guardOf key) (if e.kind == DKind.str then stripZeros b else b) then (b, false) else (e.dflt, true)
    let s1 := (s.lookTouch (recOf key)).modSm (fun x => {
      x with dict := storePut (fun _ => []) x.dict key v,
             inForce := if e.cls = .b then storePut (fun _ => []) x.inForce key v else x.inForce })
    if bad then s1.bumpErr (dictCtr 0x26) else s1

/-- In SERVICE_UP the service firmware loads every RWP entry (R429), after a deletion that was asked for (R430). -/
def State.loadRwp (s : State) : State := rwpKeys.foldl (fun s k => s.loadEntry k) s.factoryDefaults

/-- A start counter of the persistent store (R418) advances, and LAST_START is written. -/
def State.startCounter (s : State) (sub : Nat) : State :=
  let k := recOf (dkey 0x2100 sub)
  let n := match s.recLoad k with | some b => ofBytesLE b | none => 0
  s.recStore k true (bytesLE 4 ((n + 1) % 2 ^ 32))

end Sys2Proof.Machine
end

