-- ==== Sys2Proof/Machine/Save.lean ====
section
/-! DEFINITION. Machine/Save.lean: the save set: its layout, its programming, how a start finds it and what it restores (R314, R315, R402,
R457 to R463, R492). -/
namespace Sys2Proof.Machine

/-! ### The record (R457 to R459, R492) -/

/-- The shadow slots of the device in the order of the save: blocks ascending, slots of a block ascending, its XSTALE and XREFUSED last. -/
def savedSlots : List Nat :=
  blockIds.flatMap (fun id => (blockSlots id).mergeSort (fun a b => decide (a ≤ b)) ++ [rXSTALE id, rXREFUSED id])

/-- The unexported slots, oldest first; not those that an abandoned seal had reserved (R458). -/
def State.unexportedSlots (s : State) : List Nat :=
  ((List.range (s.ringDist s.ringAck s.led.next)).map (fun k => (s.ringAck + k) % s.ringSize)).filter (fun i => !(s.led.void.contains i))
def State.unexported (s : State) : List (List Byte) := s.unexportedSlots.map s.ringSlot

/-- The slots left out of the save and those kept; the entries among those left out. -/
def State.saveLedger (s : State) : List (List Byte) × List (List Byte) := keepNewest 693 s.unexported
def State.saveLostEntries (s : State) : Nat := (s.saveLedger.1.filter (fun b => !(isSealSlot b))).length

/-- The dirty cache records in cache order; the first 64 are saved. -/
def State.dirtyRecs (s : State) : List (List Byte) :=
  if s.on rPSTORE fPSTORE_EN then ((List.range s.cacheSize).map s.cacheRec).filter recDirty else []

/-- What gathering the save set does to the grains and words it reads. -/
def State.saveTouch (s : State) : State :=
  let s1 := s.ringTouch s.unexportedSlots
  if s1.on rPSTORE fPSTORE_EN then s1.cacheTouch (List.range s1.cacheSize) else s1

/-- Long operation k. -/
def opDflt (_ : Nat) : OpSt := {}
def State.op (s : State) (k : Nat) : OpSt := storeGet opDflt s.sm.ops k
def State.modOp (s : State) (k : Nat) (f : OpSt → OpSt) : State := s.modSm (fun x => { x with ops := storePut opDflt x.ops k (f (s.op k)) })

/-- Is an operation checkpointed: RUNNING or SUSPENDED at a suspend point (R402)? -/
def OpSt.saved (o : OpSt) : Bool := (o.state == 1 && o.atPoint) || o.state == 2

/-- The 64 bytes of an operation: STATE = IDLE where it is not checkpointed. -/
def OpSt.bytes (o : OpSt) : List Byte :=
  if o.saved then bytesLE 2 o.state ++ bytesLE 2 o.progress ++ bytesLE 2 o.owner ++ zerosB 2 ++ bytesLE 8 o.check ++ padTo 32 o.arg ++ zerosB 16
  else zerosB 64

/-- The ledger state of 128 bytes. -/
def State.saveLedState (s : State) : List Byte :=
  padTo 128 (headBytes s.led.h ++ bytesLE 8 s.led.seq ++ bytesLE 16 s.led.chain.toNat ++ bytesLE 4 s.led.sealNo ++
    bytesLE 1 (b2n s.ledEnabled + 2 * b2n s.noChain))

/-- The record. -/
def State.saveRecord (s : State) : List Byte :=
  s.saveLedState ++ padTo 512 ((List.range 7).flatMap (fun k => (s.op k).bytes)) ++ padTo 4096 ((s.dirtyRecs.take 64).flatten) ++
    padTo 16384 (savedSlots.flatMap (fun a => bytesLE 8 (s.rw a).toNat)) ++ s.saveLedger.2.flatten

/-- The header of a save sector. -/
structure SaveHdr where
  no : Nat
  len : Nat
  crc : Nat
  word : Nat
  meas : Nat
  tally : Nat
  nled : Nat
  nrec : Nat
  lostLed : Nat
  deriving DecidableEq, Repr

def saveMagic : Nat := 0x08805356

/-- The save sectors; SAVE_NO of a sector that holds a header. -/
def saveSectors : List Nat := (List.range 8).map (· + 164)
def State.sectorWord (s : State) (k off n : Nat) : Nat := ofBytesLE (s.envRead (65536 * k + off) n)
def State.hasHeader (s : State) (k : Nat) : Bool := s.sectorWord k 0 4 == saveMagic && s.sectorWord k 4 2 == 1
def State.nextSaveNo (s : State) : Nat :=
  (((saveSectors.filter s.hasHeader).map (fun k => s.sectorWord k 8 4)).foldl max s.nvm.lastSave) + 1

/-- The header and record of the save that SUPPLY_WARN started. -/
def State.saveBytes (s : State) (r : SaveRun) : List Byte :=
  let rec_ := s.saveRecord
  bytesLE 4 saveMagic ++ bytesLE 2 1 ++ zerosB 2 ++ bytesLE 4 s.nextSaveNo ++ bytesLE 4 rec_.length ++ bytesLE 4 (crc32c rec_).toNat ++
    bytesLE 2 r.word ++ bytesLE 2 s.measEpoch ++ bytesLE 2 (s.rd rTALLY_STAT fTALLY_STAT_EPOCH) ++ bytesLE 2 savedSlots.length ++
    bytesLE 2 s.saveLedger.2.length ++ bytesLE 1 (min 64 s.dirtyRecs.length) ++ zerosB 1 ++ bytesLE 8 r.uptime ++
    bytesLE 4 s.saveLostEntries ++ bytesLE 2 (s.dirtyRecs.length - 64) ++ zerosB 18 ++ rec_

/-- The lines of the save: 512 bytes each, the last filled with erased bytes. -/
def saveLines (b : List Byte) : List (List Byte) :=
  (List.range ((b.length + 511) / 512)).map (fun i => let l := (b.drop (512 * i)).take 512; l ++ List.replicate (512 - l.length) 0xFF)

/-- The armed sector with the lowest erase count (R315). -/
def State.saveSector (s : State) : Option Nat :=
  match s.armed with
  | [] => none
  | k :: l => some (l.foldl (fun a b => if s.eraseCount b < s.eraseCount a then b else a) k)

/-- Entries and records left out are counted (R459). -/
def State.saveLosses (s : State) : State :=
  let e := s.saveLostEntries
  let r := s.dirtyRecs.length - 64
  ((s.bumpErrN rSAVE_LOST (e + r)).bumpErrN rLG_DROP e).bumpErrN rPS_BADLINE r

/-- `n` steps of the sequencer are programmed: the lines from 1 upward, then the wear map's three lines (`ok`: the last of them well), then line 0 (R460). With
line 0 the operations that it interrupted are known (R402). (DEDUCED, log entry 68) -/
def State.programSave (s : State) (r : SaveRun) (n : Nat) (ok : Bool) : State :=
  match s.saveSector with
  | none => s
  | some k =>
    let lines := saveLines (s.saveBytes r)
    let m := lines.length - 1
    let s1 := overN (min n m) (fun i s => s.programLine (k * 128 + i + 1) (lines.getD (i + 1) [])) s
    let s2 := s1.wearLines (n - m) ok
    if m + 3 < n then
      (s2.programLine (k * 128) (lines.getD 0 [])).modNvm (fun x => { x with
        interrupted := (List.range 7).filter (fun i => (s.op i).state == 1 && !(s.op i).saved) })
    else s2

/-- A line that failed: what its cells hold is open. -/
def State.spoilLine (s : State) (place : Nat) : State := (s.envWrite (place * 512) (s.freeBytes 512)).useFreeN 512

/-! ### Finding and restoring it (R462, R463) -/

/-- Is a sector a valid save that has not been consumed? -/
def State.validSave (s : State) (k : Nat) : Bool :=
  let len := s.sectorWord k 12 4
  s.hasHeader k && decide (s.nvm.lastSave < s.sectorWord k 8 4) && decide (len ≤ 65472) &&
    (crc32c (s.envRead (65536 * k + 64) len)).toNat == s.sectorWord k 16 4

/-- The valid save with the highest SAVE_NO. -/
def State.findSave (s : State) : Option FoundSave :=
  match saveSectors.filter s.validSave with
  | [] => none
  | k :: l =>
    let b := l.foldl (fun a b => if s.sectorWord a 8 4 < s.sectorWord b 8 4 then b else a) k
    some ⟨b, s.envRead (65536 * b) (64 + s.sectorWord b 12 4)⟩

/-- A number in the found save; the record part from an offset. -/
def FoundSave.num (f : FoundSave) (off n : Nat) : Nat := ofBytesLE ((f.bytes.drop off).take n)
def FoundSave.part (f : FoundSave) (off n : Nat) : List Byte := (f.bytes.drop (64 + off)).take n

/-- The saved ledger. -/
def FoundSave.ledger (f : FoundSave) : SavedLedger :=
  let p := f.part 0 128
  let n (o k : Nat) : Nat := ofBytesLE ((p.drop o).take k)
  { h := BitVec.ofNat 256 (n 0 32), seq := n 0x20 8, chain := BitVec.ofNat 128 (n 0x28 16), sealNo := n 0x38 4
    noChain := bitOf (n 0x3C 1) 1, lost := f.num 0x28 4
    slots := (List.range (f.num 0x1C 2)).map (fun i => f.part (0x5280 + 64 * i) 64) }

/-- Event and error counters take their saved values, and their shadows read the saved slots (R462 step 2). -/
def State.restoreCounters (s : State) (f : FoundSave) : State :=
  (savedSlots.zipIdx).foldl (fun s q =>
    match lookupReg q.1 with
    | some (d, _, _) =>
      if d.kind = .event ∨ d.kind = .error then
        let w := ofBytesLE (f.part (0x1280 + 8 * q.2) 8)
        (s.setLv q.1 (BitVec.ofNat 64 (w % 2 ^ 48))).setRw q.1 (BitVec.ofNat 64 w)
      else s
    | none => s) (s.wr rTALLY_STAT fTALLY_STAT_EPOCH (f.num 0x18 2))

/-- A saved record enters the cache with GEN advanced and DIRTY set (R462 step 1). -/
def State.restoreRec (s : State) (b : List Byte) : State :=
  match (match s.cacheFind (recKey b) with | some i => some i | none => s.cacheSpare) with
  | none => s.lookTouch (recKey b)
  | some i =>
    let gen := (ofBytesLE ((b.drop 4).take 2) + 1) % 65536
    (s.lookTouch (recKey b)).cacheWrite i 0 (b.take 4 ++ bytesLE 2 gen ++ bytesLE 1 (setBitN (recFlags b) 1 true) ++ b.drop 7)
/-- As its section says. (DEDUCED, log entry 74) -/
def State.restoreRecs (s : State) (f : FoundSave) : State :=
  overN (f.num 0x1E 1) (fun i s => s.restoreRec (f.part (0x280 + 64 * i) 64)) s

/-- Operation checkpoints are restored (R402, R462 step 3): SUSPENDED at the checkpoint; others that were RUNNING read FAILED, INTERRUPTED. -/
def State.restoreOps (s : State) (f : FoundSave) : State :=
  overN 7 (fun k s =>
    let b := f.part (0x80 + 64 * k) 64
    let n (o l : Nat) : Nat := ofBytesLE ((b.drop o).take l)
    if n 0 1 ≠ 0 then s.modOp k (fun _ => { state := 2, progress := n 2 2, owner := n 4 2, check := n 8 8, arg := (b.drop 16).take 32, atPoint := true })
    else if s.nvm.interrupted.contains k then s.modOp k (fun o => { o with state := 4, result := 2 * 2 ^ 24 })
    else s) s

/-- The save is consumed (R463): LAST_SAVE enters the log as a line of its own, CONSUMED is set, save sectors that are not armed are erased
(R315). (DEDUCED, log entries 44, 74) -/
def State.consumeSave (s : State) : State :=
  match s.power.found with
  | none => s
  | some f =>
    if s.on rSAVE_STAT fSAVE_STAT_CONSUMED then s
    else
      let no := f.num 8 4
      let key := recOf (dkey 0x2100 4)
      let r := bytesLE 3 key ++ bytesLE 1 4 ++ bytesLE 2 0 ++ bytesLE 1 1 ++ [0] ++ bytesLE 4 no ++ zerosB 52
      let s1 := ((s.modNvm (fun x => { x with lastSave := no })).logWrite [r]).wr rSAVE_STAT fSAVE_STAT_CONSUMED 1
      saveSectors.foldl (fun s k => if s.sectorBlank k || s.nvm.retired.contains k then s else s.eraseSector k) s1

/-! ### LG_CTRL with the consumption (R144, R463) -/

/-- LG_CTRL takes a word; where the first EN restored a saved ledger, its RESTORED append consumes the save. (DEDUCED, log entry 24; DESIGN CHOICE, log entry 89) -/
def State.lgCtrl (s : State) (w : W64) (rnd : BitVec 128) : State :=
  let s1 := s.wrLgCtrl w rnd
  if s.led.saved.isSome && s1.led.saved.isNone && getFld w fLG_CTRL_INIT == 0 then s1.consumeSave else s1

/-- LEDGER_INIT (R144): LG_CTRL is written with INIT and the given EN, FULL_BLANK as it stands. -/
def execLedgerInit (who : Who) (en : Bool) (rnd : BitVec 128) (s : State) : Host.Outcome State Fault Refusal :=
  .next (s.begin.write who rLG_CTRL (fun s =>
    s.lgCtrl (putFld (wBit (s.rw rLG_CTRL) fLG_CTRL_INIT) fLG_CTRL_EN (b2n en)) rnd))

/-- LEDGER_ENABLE (R144, R146): LG_CTRL is written with the given EN and FULL_BLANK. -/
def execLedgerEnable (who : Who) (en fullBlank : Bool) (s : State) : Host.Outcome State Fault Refusal :=
  .next (s.begin.write who rLG_CTRL (fun s =>
    s.lgCtrl (putFld (putFld (s.rw rLG_CTRL) fLG_CTRL_EN (b2n en)) fLG_CTRL_FULL_BLANK (b2n fullBlank)) 0))

/-- SEAL (R145): LG_CTRL is written with SEAL, the other fields as they stand. -/
def execSeal (who : Who) (s : State) : Host.Outcome State Fault Refusal :=
  .next (s.begin.write who rLG_CTRL (fun s => s.lgCtrl (wBit (s.rw rLG_CTRL) fLG_CTRL_SEAL) 0))

end Sys2Proof.Machine
end

