-- ==== Sys2Proof/Machine/Worlds.lean ====
section
/-! DEFINITION. Machine/Worlds.lean: the keeper and the service harts: boot images, keeper restart, the WORLD_MAP lock, release and thaw of
harts, the keeper's event queue, the world extension, the call slots (R247 to R253, R255, R256, R261 to R277). -/
namespace Sys2Proof.Machine

/-! ### Measurement registers (R270) -/

def State.modBoot (s : State) (f : BootSt → BootSt) : State := { s with boot := f s.boot }

/-- MRk := SHA-384(MRk ‖ d). -/
def State.mrExtend (s : State) (k : Nat) (d : List Byte) : State :=
  s.modBoot (fun b => { b with mr := b.mr.set k (sha384 (sigBytes (b.mr.getD k 0) ++ d)) })

/-- MEAS_EPOCH takes a value; it saturates at 0xFFFF with EPOCH_SAT. -/
def State.setMeasEpoch (s : State) (v : Nat) : State :=
  if 0xFFFF < v then (s.wr rKSTAT fKSTAT_MEAS_EPOCH 0xFFFF).wr rKSTAT fKSTAT_EPOCH_SAT 1 else s.wr rKSTAT fKSTAT_MEAS_EPOCH v

/-! ### Images (R264 to R266) -/

/-- A little-endian number in a byte string. -/
def numAt (b : List Byte) (off n : Nat) : Nat := ofBytesLE ((b.drop off).take n)
/-- Bytes of a byte string. -/
def sliceB (b : List Byte) (off n : Nat) : List Byte := (b.drop off).take n
def allZero (b : List Byte) : Bool := b.all (fun x => x == 0)

/-- The digest as 48 bytes. -/
def sha384B (b : List Byte) : List Byte := sigBytes (sha384 b)

/-- The code and the configuration of an image. -/
def imgCode (b : List Byte) : List Byte := sliceB b 0x400 (numAt b 0x00C 4)
def imgCfg (b : List Byte) : List Byte := sliceB b (0x400 + numAt b 0x00C 4) 1024

/-- Grains that code of `n` bytes takes. -/
def codeGrains (n : Nat) : Nat := (0xFFFF + n) / 0x10000

/-- The reason why an image fails (R264), 0 if it passes: 1 MAGIC or VERSION (or a reserved field), 2 SIZE or ENTRY, 3 KEY, 4 DIGEST,
5 SIGNATURE, 6 SVN. (DEDUCED, log entry 46) -/
def imageReason (b : List Byte) (keyHash : BitVec 384) : Nat :=
  let code := numAt b 0x00C 4
  if numAt b 0 4 ≠ 0x08805A48 ∨ numAt b 4 2 ≠ 1 ∨ allZero (sliceB b 6 2 ++ sliceB b 0x18 8 ++ sliceB b 0x81 31 ++ sliceB b 0x130 720) = false then 1
  else if code % 64 ≠ 0 ∨ code < 0x10000 ∨ 1984 * 1024 < code ∨ b.length < 0x400 + code + 1024 ∨ numAt b 0x010 4 % 4 ≠ 0 ∨
      code ≤ numAt b 0x010 4 ∨ 768 < numAt b 0x014 4 + codeGrains code then 2
  else if numAt b 0x020 1 ≠ 4 ∨ sha384 (sliceB b 0x020 97) ≠ keyHash then 3
  else if sha384B (imgCode b ++ imgCfg b) ≠ sliceB b 0x0A0 48 then 4
  else if ecdsaVerify (sliceB b 0x020 97) (sha384 (sliceB b 0 0xD0)) (sliceB b 0x0D0 48) (sliceB b 0x100 48) = false then 5
  else if numAt b 0x008 4 < Config.minSvn then 6
  else 0

/-- The bytes of a Zhotor slot: A sectors 0 to 31, B sectors 32 to 63; a slot with a retired sector fails its check (R314). -/
def State.slotBytes (s : State) (slot : Nat) : List Byte := s.envRead (65536 * (slot * 32)) (32 * 65536)
/-- As its section says. (DEDUCED, log entry 46) -/
def State.slotReason (s : State) (slot : Nat) : Nat :=
  if s.nvm.retired.any (fun k => k / 32 == slot) then 1 else imageReason (s.slotBytes slot) Config.rootKeyHash

/-- Does the configuration leave any field out of range (R265)? `g` and `n`: the grains of the image. -/
def cfgOk (c : List Byte) (g n : Nat) : Bool :=
  let bar2 (v : Nat) : Bool := v == 0 || decide (6 ≤ v ∧ v ≤ 12)
  numAt c 0 4 == 0x08804346 && decide (numAt c 4 1 ≤ 1) && bar2 (numAt c 5 1) && bar2 (numAt c 6 1) &&
    decide (1 ≤ numAt c 7 1 ∧ numAt c 7 1 ≤ 100) && decide (10 ≤ numAt c 8 2 ∧ numAt c 8 2 ≤ 10000) && decide (numAt c 0x0C 4 < 16) &&
    numAt c 0x10 8 % 2 ^ 21 == 0 && (List.range n).all (fun i => bitOf (numAt c 0x40 96) (g + i)) && allZero (c.drop 0xA4)

/-- The image is in its grains. -/
def State.loadImage (s : State) (b : List Byte) : State :=
  let g := numAt b 0x014 4
  (s.memStore (sramBase + 0x10000 * g) (imgCode b)).1.modBoot (fun x => { x with
    grain := g, codeSize := numAt b 0x00C 4, svn := numAt b 8 4, cfg := imgCfg b })

/-- MR1 and MR2 take the header and the configuration (R267 step 4). -/
def State.measureImage (s : State) (b : List Byte) : State :=
  (s.mrExtend 1 (sha384B (sliceB b 0 0xD0))).mrExtend 2 (sha384B (imgCfg b))

/-- Boot step 4 (R267): the configuration is checked, MR1, MR2 and MEAS_EPOCH are set, and Zhotor is entered. (DEDUCED, log entry 46) -/
def State.enterZhotor (s : State) (b : List Byte) : State :=
  let s1 := s.loadImage b
  if cfgOk (imgCfg b) (numAt b 0x014 4) (codeGrains (numAt b 0x00C 4)) = false then s1.halt 0x20
  else
    let epoch := match s.power.found with | some f => f.num 0x16 2 + 1 | none => 0
    (((s1.measureImage b).setMeasEpoch epoch).modBoot (fun x => { x with zhotor := true })).toDstate 2

/-! ### Call slots (R251 to R253) -/

def hartDflt (_ : Nat) : HartSt := {}
def State.hart (s : State) (h : Nat) : HartSt := storeGet hartDflt s.harts h
def State.modHart (s : State) (h : Nat) (f : HartSt → HartSt) : State := { s with harts := storePut hartDflt s.harts h (f (s.hart h)) }

/-- Status codes of R253. -/
def wcOK : Nat := 0
def wcBUSY : Nat := 1
def wcDENIED : Nat := 2
def wcNO_FUNC : Nat := 3
def wcBAD_ARG : Nat := 4
def wcTIMEOUT : Nat := 5
def wcUNAVAILABLE : Nat := 6

/-- Is a call posted and not answered? -/
def State.callPending (s : State) (h : Nat) : Bool := s.on (rWC_CTL h) fWC_CTL_PENDING

/-- WC_ARGk of a slot. -/
def rWC_ARG (h k : Nat) : Nat := rWC_ARG0 h + 8 * k

/-- WCALL retires: a0 takes the status, a1 to a5 the results; mwcstat takes the status with VALID. (DESIGN CHOICE, log entry 42) -/
def State.retire (s : State) (h status : Nat) (args : List W64) : State :=
  s.modHart h (fun x => { x with args := BitVec.ofNat 64 status :: args, mwcstat := 0x100 + status })

/-- The call of a slot completes: DONE with the status, and the forwarder lets the WCALL retire. (DESIGN CHOICE, log entry 42) -/
def State.callDone (s : State) (h status : Nat) : State :=
  let s1 := ((s.wr (rWC_CTL h) fWC_CTL_PENDING 0).wr (rWC_CTL h) fWC_CTL_DONE 1).wr (rWC_CTL h) fWC_CTL_STATUS status
  let s2 := s1.wr rSVC_STAT fSVC_STAT_IN_CALL (setBitN (s1.rd rSVC_STAT fSVC_STAT_IN_CALL) h false)
  s2.retire h status ((List.range 5).map (fun k => s2.rw (rWC_ARG h (k + 1))))

/-- The forwarder writes the slot and posts, but from SAVING on, when the write is refused (R441) and the WCALL waits: answered at once while the keeper restarts or is lost; otherwise the keeper is told. (DESIGN CHOICE, log entry 42) -/
def State.callPost (s : State) (h prv fn : Nat) (args : List W64) : State :=
  let s1 := s.setRw (rWC_FN h) (putFld (putFld 0 fWC_FN_PRV prv) fWC_FN_FN fn)
  let s2 := overN 6 (fun k s => s.setRw (rWC_ARG h k) (args.getD k 0)) s1
  let s3 := ((s2.wr (rWC_CTL h) fWC_CTL_DONE 0).wr (rWC_CTL h) fWC_CTL_PENDING 1).wr rSVC_STAT fSVC_STAT_IN_CALL
    (setBitN (s2.rd rSVC_STAT fSVC_STAT_IN_CALL) h true)
  if 6 ≤ s.dstate then s.refuse (rWC_CTL h)
  else if s.kstate = kRESTARTING then (s3.bumpErr rWC_BUSY).callDone h wcBUSY
  else if s.kstate = kLOST then s3.callDone h wcUNAVAILABLE
  else s3.kevt 0x02 0x09 h fn

/-- Does the hart retire instructions: released, not frozen, not in a WCALL? -/
def State.hartRuns (s : State) (h : Nat) : Bool :=
  bitOf (s.rd rSVC_STAT fSVC_STAT_RUNNING) h && !bitOf (s.rd rSVC_STAT fSVC_STAT_FROZEN) h && !bitOf (s.rd rSVC_STAT fSVC_STAT_IN_CALL) h

/-- A hart that runs at privilege `prv` leaves predictor entries tagged with its world N, the privilege and the predictor epoch; it uses only entries with
its own tag (R255). -/
def State.predict (s : State) (h prv : Nat) : State :=
  let tag : PredTag := ⟨false, prv, s.boot.predEpoch⟩
  if (s.hart h).pred.contains tag then s else s.modHart h (fun x => { x with pred := tag :: x.pred })

/-- An illegal-instruction exception of a core (mcause 2): of the keeper or of a hart. -/
def State.illegal (s : State) (core : Option (Fin 4)) : State :=
  match core with
  | none => { s with keeperTrap := some 2 }
  | some h => s.modHart h (fun x => { x with trap := some 2 })

/-- WCALL (R250, R251) by hart `h` at privilege `prv` (0 U, 1 S, 3 M) with a7 and a0 to a5. (DESIGN CHOICE, log entry 42) -/
def State.wcall (s : State) (h : Fin 4) (prv : Nat) (a7 : W64) (args : List W64) : State :=
  if prv < (s.hart h).minprv then s.illegal (some h)
  else if a7.toNat / 2 ^ 32 ≠ 0 then s.retire h wcNO_FUNC ((args.drop 1).take 5)
  else if bitOf (s.rd rCALL_CFG fCALL_CFG_EN) h = false then s.retire h wcDENIED ((args.drop 1).take 5)
  else s.callPost h prv (a7.toNat % 2 ^ 32) args

/-- An access to a CSR of the world extension by a core (R249): mworld, mwcall, mwcstat; below M, a write of a read-only one, and mwcall or mwcstat on the
keeper cores are illegal. (PRESUMED, log entry 104) -/
def State.worldCsr (s : State) (core : Option (Fin 4)) (prv csr : Nat) (write : Option W64) : State :=
  if csr ≠ 0xFC0 ∧ csr ≠ 0x7C0 ∧ csr ≠ 0x7C1 then s
  else if prv ≠ 3 then s.illegal core
  else match core with
    | none => if csr = 0xFC0 ∧ write = none then s.answer (.data 1) else s.illegal core
    | some h =>
      match write with
      | some w =>
        if csr = 0x7C0 then
          (if w.toNat % 4 = 2 then s else s.modHart h (fun x => { x with minprv := w.toNat % 4 })).answer .ok
        else s.illegal core
      | none => s.answer (.data (BitVec.ofNat 64
          (if csr = 0x7C0 then (s.hart h).minprv else if csr = 0x7C1 then (s.hart h).mwcstat else 0)))

/-- WCALL: a core executes an instruction of the world extension, or accesses a CSR of it (R249 to R251). A word of opcode 0x0B other than that of WCALL, and a
WCALL on a keeper core, are illegal; other words are none of the extension. (DESIGN CHOICE, log entries 42, 101) -/
def execWcall (core : Option (Fin 4)) (prv : Fin 4) (op : WorldOp) (a7 : W64) (args : List W64) (s : State) : Host.Outcome State Fault Refusal :=
  let s := s.begin
  let up : Bool := match core with | none => s.alive .keeper | some h => s.hartRuns h
  .next (s.guard up (fun s =>
    let s1 := match core with | none => s | some h => s.predict h prv
    match op with
    | .csr n w => s1.worldCsr core prv n.toNat w
    | .word w =>
      if w.toNat % 128 ≠ 0x0B then s1
      else match core with
        | some h => if w.toNat = 0x0B then s1.wcall h prv a7 args else s1.illegal core
        | none => s1.illegal core))

/-- WC_RSP takes a word: the status completes the call; refused unless PENDING (R253). -/
def State.wrWcRsp (s : State) (h : Nat) (w : W64) : State :=
  if s.callPending h then s.callDone h (getFld w fWC_RSP_STATUS) else s.refuse (rWC_RSP h)

/-- WC_RSP: a write by whoever makes it; any world N write of a call slot is a violation (R252). -/
def execWcRsp (who : Who) (h : Fin 4) (status : BitVec 8) (s : State) : Host.Outcome State Fault Refusal :=
  .next (s.begin.write who (rWC_RSP h) (fun s => s.wrWcRsp h (putFld 0 fWC_RSP_STATUS status.toNat)))

/-- WC_LIMIT_EXPIRY (R253). -/
def execWcLimitExpiry (h : Fin 4) (s : State) : Host.Outcome State Fault Refusal :=
  .next (s.begin.guard (s.callPending h) (fun s => (s.bumpErr rWC_TIMEOUT).callDone h wcTIMEOUT))

/-! ### Keeper restart (R273 to R276) -/

/-- Every call still pending completes with BUSY. -/
def State.callsBusy (s : State) : State :=
  overN 4 (fun h s => if s.callPending h then (s.bumpErr rWC_BUSY).callDone h wcBUSY else s) s

/-- The keeper is LOST: the device enters DEGRADED. -/
def State.keeperLost (s : State) : State :=
  let s1 := (s.wr rKSTAT fKSTAT_STATE kLOST).setStateBit bitKEEPER_LOST true
  if 2 ≤ s.dstate ∧ s.dstate ≤ 4 then s1.toDstate 5 else s1

/-- Does a restart at time t (µs) follow three others, the first of them within 1 s? -/
def fourthRestart (earlier : List Nat) (t : Nat) : Bool :=
  match earlier with
  | _ :: _ :: t1 :: _ => decide (t ≤ 1000000 + t1)
  | _ => false

/-- A keeper restart begins (cause: 0 WATCHDOG, 1 LOCKSTEP, 2 SELF, 3 TRUSTED_ECC). There is none before Zhotor was first entered, none of a
lost keeper, and none from SAVING on. (DEDUCED, log entry 47) -/
def State.keeperRestart (s : State) (cause t : Nat) : State :=
  if s.dstate < 2 ∨ 5 < s.dstate ∨ s.kstate = kLOST then s
  else
    let s1 := ((s.bumpEv rKRESTARTS 1).wr rKSTAT fKSTAT_CAUSE cause).wr rKSTAT fKSTAT_STATE kRESTARTING
    let s2 := (s1.callsBusy.bootStat fKPR_BOOT_STAT_SRC 0).modBoot (fun b => { b with
      src := 0, zhotor := false, restarts := (t :: b.restarts).take 4, mr := [0, 0, 0] ++ b.mr.drop 3, predEpoch := (b.predEpoch + 1) % 16 })
    let s3 := s2.mrExtend 0 (sigBytes Config.romDigest)
    if fourthRestart s.boot.restarts t then s3.keeperLost else s3

/-- The restarted keeper's image passed (R274 steps 3 to 5): MR1, MR2, MEAS_EPOCH, the ledger's entry, predictors, Zhotor. -/
def State.restartDone (s : State) (b : List Byte) : State :=
  let s1 := ((s.loadImage b).measureImage b).setMeasEpoch (s.measEpoch + 1)
  let s2 := overN 4 (fun h s => s.modHart h (fun x => { x with pred := [] })) (s1.ledger { typ := 3, code := 6 })
  s2.modBoot (fun x => { x with zhotor := true })

/-! ### Boot from eNVM (R263, R267) -/

/-- The slot that passes, A first; both reasons are recorded. -/
def State.bootSlots (s : State) (ok : State → List Byte → State) (fail : State → State) : State :=
  let a := s.slotReason 0
  if a = 0 then ok ((s.bootStat fKPR_BOOT_STAT_FAIL_A 0).bootStat fKPR_BOOT_STAT_SLOT 0) (s.slotBytes 0)
  else
    let b := s.slotReason 1
    let s1 := (s.bootStat fKPR_BOOT_STAT_FAIL_A a).bootStat fKPR_BOOT_STAT_FAIL_B b
    if b = 0 then ok (s1.bootStat fKPR_BOOT_STAT_SLOT 1) (s.slotBytes 1) else fail s1

/-- BOOT_IMAGE_CHECKED: `otpOk` says that the key store's OTP passed its check (R267 step 2), which a boot from any source makes. At a start from eNVM the first
slot that passes enters Zhotor; the other sources' images come by commands of their own; in a keeper restart the keeper is lost where none does. (DEDUCED, log entry 46) -/
def execBootImageChecked (otpOk : Bool) (s : State) : Host.Outcome State Fault Refusal :=
  let s := s.begin
  .next (
    if s.dstate = 1 && !s.power.inReset then
      if otpOk = false then s.halt 0x18
      else if s.boot.src = 0 then s.bootSlots State.enterZhotor (fun s => s.halt 0x12)
      else s
    else if s.kstate = kRESTARTING && !s.boot.zhotor && decide (2 ≤ s.dstate ∧ s.dstate ≤ 5) then
      if otpOk then s.bootSlots State.restartDone State.keeperLost else s.keeperLost
    else s)

/-! ### Recovery boot (R269) -/

/-- Is the device in recovery boot, its ROM waiting for an image? -/
def State.inRecovery (s : State) : Bool := s.dstate == 1 && !s.power.inReset && s.boot.src == 1

/-- RECOV_GO takes a word: 1 makes the ROM check the image of RECOV_LEN bytes at SRAM offset 0. -/
def State.recovGo (s : State) : State :=
  match s.sramLoad 0 s.boot.recovLen with
  | (s1, none) => s1.halt 0x13
  | (s1, some b) => if imageReason b Config.rootKeyHash = 0 then s1.enterZhotor b else s1.halt 0x13

/-- RECOV_GO: the host writes it through PCIe A. -/
def execRecovGo (go : Bool) (s : State) : Host.Outcome State Fault Refusal :=
  .next (s.begin.guard (s.inRecovery && s.boot.linkUp && go) State.recovGo)

/-- RECOVERY_TIMEOUT: 60 s after link-up. -/
def execRecoveryTimeout (s : State) : Host.Outcome State Fault Refusal :=
  .next (s.begin.guard (s.inRecovery && s.boot.linkUp) (fun s => s.halt 0x13))

/-- PCIE_LINK_UP: the link of PCIe A comes up in recovery boot. -/
def execPcieLinkUp (s : State) : Host.Outcome State Fault Refusal :=
  .next (s.begin.guard s.inRecovery (fun s => s.modBoot (fun b => { b with linkUp := true })))

/-! ### The service firmware's slots (R266, R267 step 7) -/

/-- A firmware slot: A sectors 64 to 111, B sectors 112 to 159. -/
def fwSector (slot : Nat) : Nat := 64 + 48 * slot

/-- Is it valid? -/
def State.fwValid (s : State) (slot : Nat) : Bool :=
  let b := s.envRead (65536 * fwSector slot) 64
  let size := numAt b 8 4
  !(s.nvm.retired.any (fun k => decide (fwSector slot ≤ k ∧ k < fwSector slot + 48))) && numAt b 0 4 == 0x08805346 && size % 64 == 0 &&
    decide (64 ≤ size ∧ size ≤ 3 * 2 ^ 20 - 64) && allZero (b.drop 12)

/-- The valid slot with the higher SEQ modulo 2^32 (R107). -/
def State.fwSlot (s : State) : Option Nat :=
  let seq (k : Nat) : Nat := s.sectorWord (fwSector k) 4 4
  match s.fwValid 0, s.fwValid 1 with
  | true, true => some (if since32 (seq 0) (seq 1) < 2 ^ 31 then 0 else 1)
  | true, false => some 0
  | false, true => some 1
  | false, false => none

/-- Its image is loaded to SVC_LOAD and measured into MR3. -/
def State.loadFirmware (s : State) (slot : Nat) : State :=
  let b := s.envRead (65536 * fwSector slot) (64 + s.sectorWord (fwSector slot) 8 4)
  (((s.memStore (dramBase + numAt s.boot.cfg 0x10 8) (b.drop 64)).1).mrExtend 3 (sha384B b)).modBoot (fun x => { x with svcSeq := numAt b 4 4 })

/-! ### KCTRL, SVC_CTRL, SVC_THAW (R256, R261, R267, R274) -/

/-- SERVICE_UP is entered (R267 step 8): the saved records enter the cache before KEEPER_UP ends (R462), S0 is ACTIVE (R437), the service
firmware loads the RWP entries (R429), counts the start (R418) and restores the operations (R402). (DEDUCED, log entry 74) -/
def State.serviceUp (s : State) : State :=
  let ps := s.on rPSTORE fPSTORE_EN
  let s0 := s.cacheRebuild
  let s1 := match s.power.found with | some f => s0.restoreRecs f | none => s0
  let s2 := (s1.toDstate 3).stallGo 0
  let s3 := s2.loadRwp
  let s4 := if ps then (s3.startCounter (if s.boot.warm then 2 else 1)).recStore (recOf (dkey 0x2100 3)) true (bytesLE 1 s.power.cause) else s3
  match s.power.found with | some f => s4.restoreOps f | none => s4

/-- KCTRL.UP and SVC_CTRL.RUN both accepted end KEEPER_UP. -/
def State.trySvcUp (s : State) : State :=
  if s.dstate = 2 ∧ s.kstate = kUP ∧ s.rd rSVC_STAT fSVC_STAT_RUNNING ≠ 0 then s.serviceUp else s

/-- WM_LOCK: refused unless every grain of the image is trusted; refused in KEEPER_UP, it ends the boot. -/
def State.wmLock (s : State) : State :=
  if (List.range (codeGrains s.boot.codeSize)).all (fun i => s.grainTrusted (s.boot.grain + i)) then s.wr rKSTAT fKSTAT_WM_LOCKED 1
  else
    let s1 := s.refuse rKCTRL
    if s.dstate = 2 then s1.halt 0x20 else s1

/-- UP: from BOOT or RESTARTING, once Zhotor runs. -/
def State.keeperUp (s : State) : State :=
  if s.boot.zhotor && s.kstate != kLOST then ((s.wr rKSTAT fKSTAT_STATE kUP).modBoot (fun b => { b with upWritten := true })).trySvcUp else s

/-- KCTRL takes a word at time t (µs): KICK restarts the watchdog, whose expiry is a command; then WM_LOCK, UP, RESTART. (DEDUCED, log entry 14) -/
def State.wrKctrl (s : State) (t : Nat) (w : W64) : State :=
  let b (f : Fld) : Bool := getFld w f == 1
  let s1 := if b fKCTRL_WM_LOCK then s.wmLock else s
  let s2 := if b fKCTRL_UP then s1.keeperUp else s1
  if b fKCTRL_RESTART then s2.keeperRestart 2 t else s2

/-- KICK, RESTART, WM_LOCK, UP. -/
def execKick (who : Who) (s : State) : Host.Outcome State Fault Refusal :=
  .next (s.begin.write who rKCTRL (fun s => s.wrKctrl 0 (wBit 0 fKCTRL_KICK)))
/-- As its section says. (DESIGN CHOICE, log entry 3) -/
def execRestart (who : Who) (t : Nat) (s : State) : Host.Outcome State Fault Refusal :=
  .next (s.begin.write who rKCTRL (fun s => s.wrKctrl t (wBit 0 fKCTRL_RESTART)))
def execWmLock (who : Who) (s : State) : Host.Outcome State Fault Refusal :=
  .next (s.begin.write who rKCTRL (fun s => s.wrKctrl 0 (wBit 0 fKCTRL_WM_LOCK)))
def execUp (who : Who) (s : State) : Host.Outcome State Fault Refusal :=
  .next (s.begin.write who rKCTRL (fun s => s.wrKctrl 0 (wBit 0 fKCTRL_UP)))

/-- KEEPER_WATCHDOG_EXPIRY: the watchdog runs while Zhotor does. (DEDUCED, log entry 47) -/
def execKeeperWatchdogExpiry (t : Nat) (s : State) : Host.Outcome State Fault Refusal :=
  .next (s.begin.guard s.boot.zhotor (fun s => s.keeperRestart 0 t))

/-- LOCKSTEP_MISMATCH: also during a restart, which starts again (R277). (DEDUCED, log entry 47) -/
def execLockstepMismatch (t : Nat) (s : State) : Host.Outcome State Fault Refusal := .next (s.begin.keeperRestart 1 t)

/-- SVC_CTRL takes a word (R267): refused while the map is not locked; the first RUN in KEEPER_UP follows Zhotor's load of the service
firmware, and halts the device where there is none; it locks the class-B settings. -/
def State.wrSvcCtrl (s : State) (w : W64) : State :=
  let run := getFld w fSVC_CTRL_RUN
  if s.on rKSTAT fKSTAT_WM_LOCKED = false then s.refuse rSVC_CTRL
  else if run = 0 then s
  else
    let go (s : State) : State :=
      ((s.wr rSVC_STAT fSVC_STAT_RUNNING (s.rd rSVC_STAT fSVC_STAT_RUNNING ||| run)).modBoot (fun b => { b with runWritten := true })).trySvcUp
    if s.boot.runWritten then go s
    else match s.fwSlot with
      | none => s.halt 0x21
      | some k => go (s.loadFirmware k)

/-- SVC_RUN. (DEDUCED, log entry 46) -/
def execSvcRun (who : Who) (run : BitVec 4) (s : State) : Host.Outcome State Fault Refusal :=
  .next (s.begin.write who rSVC_CTRL (fun s => s.wrSvcCtrl (putFld 0 fSVC_CTRL_RUN run.toNat)))

/-- SVC_THAW takes a word: each hart named is thawed if it is frozen and its record was read since, and takes the access-fault exception of
its violation; otherwise the write is refused for it, and counted once. -/
def State.wrSvcThaw (s : State) (w : W64) : State :=
  let m := getFld w fSVC_THAW_THAW
  let ok (h : Nat) : Bool := bitOf (s.rd rSVC_STAT fSVC_STAT_FROZEN) h && bitOf s.vrecRead h
  let hs := (List.range 4).filter (bitOf m)
  let s1 := (hs.filter ok).foldl (fun s h =>
    let cause := if s.on (rSVC_VREC h) fSVC_VREC_FETCH then 1 else if s.on (rSVC_VREC h) fSVC_VREC_WRITE then 7 else 5
    (s.wr rSVC_STAT fSVC_STAT_FROZEN (setBitN (s.rd rSVC_STAT fSVC_STAT_FROZEN) h false)).modHart h (fun x => { x with trap := some cause })) s
  if hs.all ok then s1 else s1.refuse rSVC_THAW

/-- SVC_THAW. -/
def execSvcThaw (who : Who) (harts : BitVec 4) (s : State) : Host.Outcome State Fault Refusal :=
  .next (s.begin.write who rSVC_THAW (fun s => s.wrSvcThaw (putFld 0 fSVC_THAW_THAW harts.toNat)))

/-! ### The event queue (R262) -/

/-- The oldest entry leaves the queue. -/
def State.kevPop (s : State) : State :=
  ({ s with kevq := s.kevq.drop 1 }).wr rKEVT_LVL fKEVT_LVL_LEVEL (s.kevq.length - 1)

/-- A read of KEVT: whole, its low word, or its high word. -/
def State.readKevt (s : State) (part : Nat) : State :=
  let e := s.kevq.headD 0
  if part = 0 then (s.kevPop).answer (.data e)
  else if part = 1 then
    if s.kevq.isEmpty then s.answer (.data 0)
    else ({ s.kevPop with kevtHeld := some ((e >>> 32).setWidth 32) }).answer (.data (e &&& 0xFFFFFFFF#64))
  else match s.kevtHeld with
    | some v => ({ s with kevtHeld := none }).answer (.data (v.setWidth 64))
    | none => s.answer (.data 0)

/-- KEVT_READ: `part` 0 for a 64-bit read, 1 the low word, 2 the high word. -/
def execKevtRead (who : Who) (part : Fin 3) (s : State) : Host.Outcome State Fault Refusal :=
  .next (s.begin.access who rKEVT false (fun s => s.readKevt part))

/-- SVC_VREC_READ: a read of a hart's VKIND marks the record as read since the freeze. -/
def State.readSvcVrec (s : State) (h : Nat) (stale : Bool) : State :=
  ({ s with vrecRead := if bitOf (s.rd rSVC_STAT fSVC_STAT_FROZEN) h then setBitN s.vrecRead h true else s.vrecRead }).readReg (rSVC_VREC h) stale
def execSvcVrecRead (who : Who) (h : Fin 4) (stale : Bool) (s : State) : Host.Outcome State Fault Refusal :=
  .next (s.begin.access who (rSVC_VREC h) false (fun s => s.readSvcVrec h stale))

end Sys2Proof.Machine
end

