-- ==== Sys2Proof/Machine/Power.lean ====
section
/-! DEFINITION. Machine/Power.lean: reset and start, the supply monitor, the save, islands, variable rails (R434 to R436, R447 to R450,
R453 to R463, R470 to R476, R483, R485). -/
namespace Sys2Proof.Machine

def State.modPower (s : State) (f : PowerSt → PowerSt) : State := { s with power := f s.power }

/-! ### Reset (R434, R435, R475, R476) -/

/-- Registers that a reset leaves: the sync pin page, but not through power-on reset (R63); OUTCOME and DURATION of the last save since
power-on (R454). -/
def keptRegs : List Nat := [rSYNC_IN_CFG, rSYNC_OUT 0, rSYNC_OUT 1, rSAVE_STAT]

/-- The levels of pins, which no reset changes: VIN_SENSE against WARN_MV, the PG inputs, HPD. -/
def State.keepPins (s old : State) : State :=
  let s1 := (s.wr rSUPPLY_STAT fSUPPLY_STAT_BELOW (old.rd rSUPPLY_STAT fSUPPLY_STAT_BELOW)).wr rREG_STAT fREG_STAT_PG (old.rd rREG_STAT fREG_STAT_PG)
  overN 8 (fun p s => if (old.pipe p).hpd && !(old.pipe p).hpdLow then (s.wr (rLINK_STAT p) fLINK_STAT_HPD 1).modPipe p (fun x => { x with hpd := true }) else s) s1

/-- A log line whose programming a reset cut short: its CRC fails (R316). (DEDUCED, log entry 92) -/
def State.cutFlush (s : State) : State :=
  match s.nvm.flush with
  | none => s
  | some f =>
    ((s.envWrite (f.place * 512) (s.freeBytes 512)).useFreeN 512).modNvm (fun x => { x with
      flush := none, log := x.log ++ [{ seq := x.logSeq, place := f.place, recs := [], bad := true }], logSeq := x.logSeq + 1 })

/-- What an eNVM operation that a reset cut short leaves: open bytes in the line or sector it worked on. -/
def State.cutNvm (s0 : State) : State :=
  let s := (s0.modNvm (fun x => { x with reads := [] })).cutFlush
  match s.nvm.op with
  | none => s
  | some o =>
    let s1 := s.modNvm (fun x => { x with op := none })
    if o.op = 1 then
      ((s1.envWrite (65536 * o.sector) (s1.freeBytes 65536)).useFreeN 65536).modNvm (fun x => { x with lines := o.sector * 128 :: x.lines })
    else if o.op = 2 then (s1.programLine (o.sector * 128 + o.line) (s1.freeBytes 512)).useFreeN 512
    else s1

/-- Every unit at its reset values. What stays: eNVM, the waiting commands, the answer and what was said, the pins; market SRAM and DRAM
unless their power failed (`sramLost`, `dramLost`). -/
def State.resetKeep (s : State) (sramLost dramLost : Bool) : State :=
  let keepEcc (k : Nat) : Bool := if isSram (8 * k) then !sramLost else !dramLost
  { State.reset with
    env := s.env, nvm := s.nvm, sram := if sramLost then [] else s.sram, dram := if dramLost then [] else s.dram
    ecc := s.ecc.filter (fun p => keepEcc p.1), pending := s.pending, fresh := s.fresh, resp := s.resp, out := s.out, syncIn := s.syncIn
    power := { nreset := s.power.nreset, por := s.power.por, held := s.power.held, bootsel := s.power.bootsel, cause := s.power.cause } }

/-- The units start from reset, and what a reset other than power-on keeps is put back. `por`: power-on reset. (DEDUCED, log entry 68) -/
def State.afterReset (s0 : State) (por sramLost dramLost : Bool) : State :=
  let s := s0.cutNvm
  let r := s.resetKeep sramLost dramLost
  let r1 := (r.keepPins s).modPower (fun x => { x with dip := !por && s.on rSUPPLY_STAT fSUPPLY_STAT_BELOW })
  let r2 := if por then r1
    else ((keptRegs.foldl (fun r a => r.setRw a (s.rw a)) r1).wr rSAVE_STAT fSAVE_STAT_FOUND 0).wr rSAVE_STAT fSAVE_STAT_CONSUMED 0
  r2.syncDrive s

/-- The device leaves reset and enters BOOT_ROM (R267 step 1, R433, R462): a valid save makes the start warm and its counters are restored;
otherwise the source that BOOTSEL names is checked against LIFECYCLE (R263). At power-up the wear map is taken and save sectors that are not
armed are erased (R314, R315), but none that holds a valid save (R435). -/
def State.startDevice (s0 : State) : State :=
  let s := s0.modPower (fun x => { x with inReset := false, resetOut := false, found := s0.findSave })
  let warm := s.power.found.isSome
  let src := if warm then 0 else s.power.bootsel
  let word := 1 + b2n warm * 2 ^ bitWARM
  let s1 := ((s.wr rDSTATE fDSTATE_STATE_WORD word).kevt 0x00 0x0B 0 word).bootStat fKPR_BOOT_STAT_SRC src
  let s2 := ((s1.bootStat fKPR_BOOT_STAT_LIFECYCLE (b2n Config.provisioned)).modBoot (fun b => { b with src := src, warm := warm })).mrExtend 0
    (sigBytes Config.romDigest)
  let s3 := match s.power.found with
    | some f => ((s2.wr rSAVE_STAT fSAVE_STAT_FOUND 1).modLed (fun x => { x with saved := some f.ledger })).restoreCounters f
    | none => s2
  let s4 := if s.power.cause = 0 then
      saveSectors.foldl (fun s k => if s.sectorBlank k || s.nvm.retired.contains k || s.validSave k then s else s.eraseSector k)
        (s3.modNvm (fun x => { x with erases := s3.wearCopy.2 }))
    else s3
  let s5 := s4.showNvm
  if warm then s5.modPower (fun x => { x with cause := 3 })
  else if src = 3 then s5.halt 0x10
  else if (src = 2) = (Config.provisioned = true) then s5.halt 0x11
  else s5

/-- The device starts if nothing holds it in reset: nRESET, POR, SUPPLY_WARN (R435, R476). (DEDUCED, log entry 7) -/
def State.tryStart (s : State) : State :=
  if s.power.inReset && s.power.nreset && !s.power.por && !s.power.held then s.startDevice else s

/-! ### Entry to SAVING (R455, R458, R438) -/

/-- The islands that power off in SAVING: pipes and transmitters, raster front end, shaders, touch, audio and haptic, PCIe. -/
def shedIslands : List Nat := (List.range 13).map (· + 3) ++ [21, 22, 23, 24, 25, 27, 28]

/-- They are off once the SAVE tally has captured them. -/
def State.shed (s : State) : State := shedIslands.foldl (fun s n => s.powerDown n) s

/-- A seal in progress is abandoned: its reserved slots are not saved; the entries after them are (R458). -/
def State.dropSeal (s : State) : State :=
  match s.led.sealing with
  | none => s
  | some x => s.modLed (fun y => { y with sealing := none, void := [x.slot, (x.slot + 1) % s.ringSize, (x.slot + 2) % s.ringSize] })

/-- Every pipe that scans sends black and is BLANKED with BLANK_SAVE; TRAINING and FAULT stay. -/
def State.blankPipe (s : State) (p : Nat) : State :=
  let s1 := if s.pst p = stRUNNING ∨ s.pst p = stBLANKED then
      (s.wr (rPSTATE p) fPSTATE_STATE stBLANKED).wr (rPSTATE p) fPSTATE_BLANK_SAVE 1
    else s
  (((((s1.wr (rTTL p) fTTL_VALID 0).wr (rTTL p) fTTL_WINDOW 0).wr (rTSTAT p) fTSTAT_PENDING 0).dropFetch p).modPipe p
    (fun x => { hpd := x.hpd, hpdStable := x.hpdStable, hpdLow := x.hpdLow })).showWb p

/-- SUPPLY_WARN in SERVICE_UP, OPERATIONAL or DEGRADED; `uptime` is UPTIME_MS. (DEDUCED, log entry 68) -/
def State.enterSaving (s0 : State) (uptime : Nat) : State :=
  let word := s0.rd rDSTATE fDSTATE_STATE_WORD
  let s1 := (overN 4 (fun ch s => (s.finishBursts ch).dropRequests ch) s0.flushEnd).ledFlush.dropSeal.ledShow
  let s2 := ((s1.modPower (fun x => { x with save := some ⟨word, uptime⟩ })).toDstate 6).tallyRequest .save
  let s3 := (overN 8 (fun p s => (s.blankPipe p).hapIdle p) s2).wr rRSTAT fRSTAT_STATE rsSTOPPED
  let s4 : State := { s3.dramKeep (fun _ => false) with
    gpu := {}, queues := [], dmCh := [], dmEng := [], mem := {}, panels := [], streams := [], haps := [], caps := [], mix := {}
    ecc := s3.ecc.filter (fun p => isSram (8 * p.1))
    sm := { s3.sm with sessions := [], alive := [], blocks := [], waiting := [], tx := [], hbDue := false, exprt := none, mark := none } }
  match s4.nvm.op with
  | none => s4
  | some o =>
    if o.op = 1 then (s4.wr rNVM_STAT fNVM_STAT_SUSPENDED 1).serveReads
    else if o.op = 2 then (s4.nvmDone o false).serveReads
    else s4

/-! ### The supply monitor (R453, R454) -/

/-- SUPPLY_CFG takes a word: CLEAR_MV above WARN_MV; class B. While EN = 0 no dip is watched. -/
def State.wrSupplyCfg (s : State) (w : W64) : State :=
  if getFld w fSUPPLY_CFG_CLEAR_MV ≤ getFld w fSUPPLY_CFG_WARN_MV then s.refuse rSUPPLY_CFG
  else
    let s1 := s.settingWrite rSUPPLY_CFG w true s.runLocked
    if s1.on rSUPPLY_CFG fSUPPLY_CFG_EN && !s.on rSUPPLY_CFG fSUPPLY_CFG_EN && s.on rSUPPLY_STAT fSUPPLY_STAT_BELOW then
      s1.modPower (fun x => { x with dip := true })
    else if s1.on rSUPPLY_CFG fSUPPLY_CFG_EN then s1 else s1.modPower (fun x => { x with dip := false })

/-- VIN_SENSE_FALL. -/
def execVinSenseFall (s : State) : Host.Outcome State Fault Refusal :=
  let s := s.begin
  .next (s.guard (!s.on rSUPPLY_STAT fSUPPLY_STAT_BELOW) (fun s =>
    (s.wr rSUPPLY_STAT fSUPPLY_STAT_BELOW 1).modPower (fun x => { x with dip := s.on rSUPPLY_CFG fSUPPLY_CFG_EN && !x.por })))

/-- VIN_SENSE_RISE: a dip that did not last 20 µs is counted. -/
def execVinSenseRise (s : State) : Host.Outcome State Fault Refusal :=
  let s := s.begin
  .next (s.guard (s.on rSUPPLY_STAT fSUPPLY_STAT_BELOW) (fun s =>
    let s1 := if s.power.dip then s.bumpEv rSAG_SHORT 1 else s
    (s1.wr rSUPPLY_STAT fSUPPLY_STAT_BELOW 0).modPower (fun x => { x with dip := false })))

/-- SUPPLY_WARN: `uptime` is UPTIME_MS. In BOOT_ROM and KEEPER_UP the device resets itself and holds itself in reset (R435). (DEDUCED, log entry 68) -/
def execSupplyWarn (uptime : Nat) (s : State) : Host.Outcome State Fault Refusal :=
  let s := s.begin
  .next (s.guard (s.on rSUPPLY_CFG fSUPPLY_CFG_EN && s.power.dip && decide (s.dstate ≠ 0)) (fun s =>
    let warn (s : State) : State := (s.wr rSUPPLY_STAT fSUPPLY_STAT_WARN 1).wr rSUPPLY_STAT fSUPPLY_STAT_SAVE_ACT 1
    let s1 := s.modPower (fun x => { x with dip := false })
    if s.on rSUPPLY_STAT fSUPPLY_STAT_WARN then s1
    else if s.running then (warn s1).enterSaving uptime
    else if s.dstate < 3 then
      warn (((s1.modPower (fun x => { x with held := true })).afterReset false false false).modPower (fun x => { x with dip := false }))
    else warn s1))

/-- SUPPLY_WARN_CLEAR: the held device starts again, SAVED ends with a warm restart (R435, R461); in SAVING the save completes first. -/
def execSupplyWarnClear (s : State) : Host.Outcome State Fault Refusal :=
  let s := s.begin
  .next (s.guard (s.on rSUPPLY_STAT fSUPPLY_STAT_WARN && !s.on rSUPPLY_STAT fSUPPLY_STAT_BELOW) (fun s =>
    let s1 := s.wr rSUPPLY_STAT fSUPPLY_STAT_WARN 0
    if s.dstate = 6 then s1
    else
      let s2 := s1.wr rSUPPLY_STAT fSUPPLY_STAT_SAVE_ACT 0
      if s.power.held then (s2.modPower (fun x => { x with held := false })).tryStart
      else if s.dstate = 7 then (s2.afterReset false true true).tryStart
      else s2))

/-! ### The save (R459 to R461) -/

/-- The save ended with an outcome, `us` µs after SUPPLY_WARN. -/
def State.saveEnded (s : State) (outcome us : Nat) : State :=
  (s.wr rSAVE_STAT fSAVE_STAT_OUTCOME outcome).wr rSAVE_STAT fSAVE_STAT_DURATION_US (min 4095 us)

/-- The save sequencer's work. `fail` 0: every line is programmed and verified; 1: `line` fails to program; 2: it fails the read-back. The last three lines
are those of the wear map; where one fails to program, line 0 stays unprogrammed (R460). (DEDUCED, log entry 68) -/
def State.doSave (s : State) (r : SaveRun) (us fail line : Nat) : State :=
  match s.saveSector with
  | none => (s.bumpErr rSAVE_NONE).saveEnded 2 us
  | some k =>
    let m := (saveLines (s.saveBytes r)).length - 1
    let l := min line (m + 3)
    let steps := if fail = 1 then (if l = 0 then m + 3 else l) else m + 4
    let s1 := (s.programSave r steps (fail = 0 ∨ l ≤ m)).saveLosses.saveTouch
    if fail = 0 then (s1.bumpEv rSAVES 1).saveEnded 1 us
    else (if l ≤ m then s1.spoilLine (k * 128 + l) else s1).saveEnded 3 us

/-- SAVE_COMPLETE: with SUPPLY_WARN still set only the always-on island stays powered; otherwise the warm restart begins. -/
def execSaveComplete (us : Nat) (fail : Fin 3) (line : Fin 131) (s : State) : Host.Outcome State Fault Refusal :=
  let s := s.begin
  .next (match (if s.dstate = 6 then s.power.save else none) with
    | none => s
    | some r =>
      let s0 := if s.tally.saveWaits || s.tally.req == some .save then ((s.tallyDone (s.tally.waiting != 0)).tallyLaunch r.uptime).shed else s
      let s1 := (s0.doSave r us fail line).modPower (fun x => { x with save := none })
      if s.on rSUPPLY_STAT fSUPPLY_STAT_WARN then
        let s2 := overN 30 (fun n s => s.powerDown n) (s1.toDstate 7)
        { s2.sramKeep (fun _ => false) with ecc := [] }
      else ((s1.wr rSUPPLY_STAT fSUPPLY_STAT_SAVE_ACT 0).afterReset false false true).tryStart)

/-- TALLY_LAUNCH (R28, R30): an edge of the 48 MHz oscillator with a request pending, `t` µs after the device reset; the SAVE tally lets the shed islands power off. -/
def execTallyLaunch (t : Nat) (s : State) : Host.Outcome State Fault Refusal :=
  let s := s.begin
  let s1 := s.tallyLaunch (t / 1000)
  .next (if s.tally.req == some .save && !s.tallyBusy && s.dstate == 6 then s1.shed else s1)

/-! ### Reset pins (R475, R476) -/

/-- A save cut short by a reset had programmed `lines` steps. (DEDUCED, log entry 68) -/
def State.cutSave (s : State) (lines : Nat) : State :=
  match (if s.dstate = 6 then s.power.save else none) with
  | none => s
  | some r => s.programSave r lines true

/-- NRESET_LOW: a device reset; a save in progress is abandoned after `lines` steps of the sequencer, `us` µs after SUPPLY_WARN (R435). The
supply monitor starts again, but for a device that SUPPLY_WARN holds in reset. -/
def execNresetLow (lines us : Nat) (s : State) : Host.Outcome State Fault Refusal :=
  let s := s.begin
  .next (s.guard s.power.nreset (fun s =>
    let s1 := s.modPower (fun x => { x with nreset := false })
    if s.dstate = 0 then s1
    else
      let s2 := if s.dstate = 6 then (s1.cutSave lines).saveEnded 4 us else s1
      let lost := decide (s.dstate = 7)
      let s3 := (s2.modPower (fun x => { x with cause := 1 })).afterReset false lost (decide (6 ≤ s.dstate))
      if s.power.held then ((s3.wr rSUPPLY_STAT fSUPPLY_STAT_WARN 1).wr rSUPPLY_STAT fSUPPLY_STAT_SAVE_ACT 1).modPower (fun x => { x with dip := false })
      else s3))

/-- NRESET_RELEASE: BOOTSEL is sampled (R263). (DEDUCED, log entry 7) -/
def execNresetRelease (bootsel : Fin 4) (s : State) : Host.Outcome State Fault Refusal :=
  let s := s.begin
  .next (s.guard (!s.power.nreset) (fun s => (s.modPower (fun x => { x with nreset := true, bootsel := bootsel })).tryStart))

/-- POR_ASSERT: POWER_OFF; all that needs power is lost, with a save in progress that had programmed `lines` steps. -/
def execPorAssert (lines : Nat) (s : State) : Host.Outcome State Fault Refusal :=
  let s := s.begin
  .next (s.guard (!s.power.por) (fun s =>
    ((((s.cutSave lines).modPower (fun x => { x with por := true, held := false, cause := 0 })).afterReset true true true).wr rDSTATE
      fDSTATE_STATE_WORD 0)))

/-- POR_RELEASE. -/
def execPorRelease (bootsel : Fin 4) (s : State) : Host.Outcome State Fault Refusal :=
  let s := s.begin
  .next (s.guard s.power.por (fun s =>
    ((s.modPower (fun x => { x with por := false, bootsel := bootsel, dip := s.on rSUPPLY_STAT fSUPPLY_STAT_BELOW })).wr rDSTATE fDSTATE_STATE_WORD
      1).tryStart))

/-- RESET_OUT_RELEASE: 1 ms after the entry to BOOT_ROM. -/
def execResetOutRelease (s : State) : Host.Outcome State Fault Refusal :=
  let s := s.begin
  .next (s.guard (!s.power.inReset) (fun s => s.modPower (fun x => { x with resetOut := true })))

/-! ### Rails (R447, R448, R470 to R472, R485) -/

/-- The functional clock range of the islands whose clock MAX_STEP caps, in steps of 6.25 MHz (R13, R449). -/
def stepRange (n : Nat) : Option (Nat × Nat) :=
  if n ≤ 1 then some (16, 224) else if n = 2 ∨ n = 20 then some (32, 128) else if n = 11 then some (16, 128)
  else if 12 ≤ n ∧ n ≤ 15 then some (32, 256) else none

/-- The clock that an island's MAX_STEP allows. -/
def State.stepCap (s : State) (n : Nat) : Nat :=
  match stepRange n, s.rd (rISL_CTRL n) fISL_CTRL_MAX_STEP with
  | some r, 0 => r.2
  | some _, k => k
  | none, _ => 0

/-- The clock that the islands of VDD_GPU need of their rail: shaders, and twice the raster front end's; that of VDD_SRAM. -/
def State.gpuNeed (s : State) : Nat :=
  ([12, 13, 14, 15].filter s.islandOn).foldl (fun m n => max m (s.stepCap n)) (if s.islandOn 11 then 2 * s.stepCap 11 else 0)

/-- Voltages are requested for the clocks in use. -/
def State.railsAsk (s : State) : State := ((s.railAsk 1 (mvFor 1 s.gpuNeed)).railAsk 2 (mvFor 2 (s.stepCap 20))).pipeVolt

/-- A rail has reached the voltage written: the waiting clocks rise. (DEDUCED, log entry 70) -/
def State.railSettled (s : State) (r : Nat) : State :=
  let s1 := (s.modRail r (fun x => { x with mv := x.writing, phase := .idle, tries := 0, told := true })).wr (railDom r) fDOM_STAT_CHANGING 0
  let s2 := if r = 0 then overN 8 (fun p s => s.setIslandStep p) s1 else s1
  s2.busKick

/-- A rail has failed. -/
def State.railFail (s : State) (r : Nat) : State :=
  let x := s.rail r
  let s1 := (s.modRail r (fun x => { x with phase := .idle, tries := 0, want := x.mv })).wr rREG_STAT fREG_STAT_FAIL
    (setBitN (s.rd rREG_STAT fREG_STAT_FAIL) r true)
  let s2 := (((s1.wr (railDom r) fDOM_STAT_CHANGING 0).wr (railDom r) fDOM_STAT_MV (railAvs r x.mv)).bumpErr rREG_ERR).kevt 0x00 0x40 r 0
  (if r = 0 then overN 8 (fun p s => s.setIslandStep p) s2 else s2).busKick

/-- A transaction or a raise failed: repeated twice, then the rail fails; from SAVING on nothing is repeated. (DEDUCED, log entry 70) -/
def State.railAgain (s : State) (r : Nat) : State :=
  if 6 ≤ s.dstate then s
  else if (s.rail r).tries < 2 then
    (s.modRail r (fun x => { x with tries := x.tries + 1, phase := if x.phase = .mode then .mode else .write })).busKick
  else s.railFail r

/-- REG_CFG takes a word: class B; addresses 0x01 to 0x07 and 0x78 to 0x7F, and a slow bus for an addressed rail without PG, are refused. Each
addressed rail stands where it was last written, at first at the top of its range; after its VOUT_MODE its voltage is written (R470). (DEDUCED, log entry 70) -/
def State.wrRegCfg (s : State) (w : W64) : State :=
  let addr (r : Nat) : Nat := getFld w (if r = 0 then fREG_CFG_ADDR_PIPE else if r = 1 then fREG_CFG_ADDR_GPU else fREG_CFG_ADDR_SRAM)
  let badAddr (r : Nat) : Bool := decide ((1 ≤ addr r ∧ addr r ≤ 7) ∨ 0x78 ≤ addr r)
  let slow (r : Nat) : Bool := getFld w fREG_CFG_SPEED == 0 && addr r != 0 && !bitOf (getFld w fREG_CFG_PG_PRESENT) r
  if (List.range 3).any (fun r => badAddr r || slow r) || s.runLocked then s.refuse rREG_CFG
  else
    let s1 := ((s.settingWrite rREG_CFG w true false).wr rREG_STAT fREG_STAT_FAIL 0).wr rREG_STAT fREG_STAT_BUSY 0
    let stands (x : RailSt) (r : Nat) : Nat := if x.mv = 0 then railTop r else if x.phase = .write ∨ x.phase = .settle then min x.mv x.writing else x.mv
    let s2 := overN 3 (fun r s => ((s.modRail r (fun x =>
      if addr r = 0 ∧ x.mv = 0 then {} else { phase := if addr r = 0 then .idle else .mode, mv := stands x r })).wr (railDom r) fDOM_STAT_CHANGING 0).wr (railDom r) fDOM_STAT_MV
        (railTop r)) (s1.modPower (fun x => { x with bus := none }))
    s2.busKick.railsAsk

/-- REG_CFG_WRITE. -/
def execRegCfgWrite (who : Who) (w : W32) (s : State) : Host.Outcome State Fault Refusal :=
  .next (s.begin.write who rREG_CFG (fun s => s.wrRegCfg (wide w)))

/-- The exponent of VOUT_MODE in linear mode. -/
def voutExp (data : Nat) : Option Int := if data / 32 = 0 then some (sx 5 data) else none

/-- REGULATOR_TRANSACTION_DONE: the transaction on the bus ended, acknowledged or not (NACK, PEC, clock stretched); `data` is the VOUT_MODE read. (DEDUCED, log entry 70) -/
def execRegulatorTransactionDone (ok : Bool) (data : BitVec 8) (s : State) : Host.Outcome State Fault Refusal :=
  let s := s.begin
  .next (match s.power.bus with
    | none => s
    | some r =>
      let s1 := (s.modPower (fun x => { x with bus := none })).wr rREG_STAT fREG_STAT_BUSY 0
      let x := s.rail r
      match x.phase, ok, voutExp data.toNat with
      | _, false, _ => s1.railAgain r
      | .mode, true, none => s1.railAgain r
      | .mode, true, some n => (s1.modRail r (fun x => { x with exp := some n, phase := .idle, tries := 0 })).busKick
      | _, true, _ =>
        if x.writing ≤ x.mv then s1.railSettled r
        else if s.pgPresent r && s.pgHigh r then s1.railSettled r
        else (s1.modRail r (fun x => { x with phase := .settle })).busKick)

/-- RAIL_SETTLED: 100 µs after the write of a raise began, without PG. -/
def execRailSettled (r : Fin 3) (s : State) : Host.Outcome State Fault Refusal :=
  let s := s.begin
  .next (s.guard ((s.rail r).phase == .settle && !s.pgPresent r) (fun s => s.railSettled r))

/-- The level of a PG input. -/
def State.setPg (s : State) (r : Nat) (b : Bool) : State := s.wr rREG_STAT fREG_STAT_PG (setBitN (s.rd rREG_STAT fREG_STAT_PG) r b)

/-- PG_RISE. -/
def execPgRise (r : Fin 3) (s : State) : Host.Outcome State Fault Refusal :=
  let s := s.begin.setPg r true
  .next (if (s.rail r).phase == .settle && s.pgPresent r then s.railSettled r else s)

/-- Is a raise of the rail under way? -/
def State.pgAwaited (s : State) (r : Nat) : Bool :=
  let x := s.rail r
  x.phase == .settle || (x.phase == .write && decide (x.mv < x.writing))

/-- PG_DROP. (DEDUCED, log entry 70) -/
def execPgDrop (r : Fin 3) (s : State) : Host.Outcome State Fault Refusal :=
  let s := s.begin
  .next (s.guard (s.pgHigh r) (fun s =>
    let s1 := s.setPg r false
    if s.pgAwaited r || s.power.inReset then s1 else (s1.bumpErr rPG_DROP).kevt 0x00 0x41 r 0))

/-- PG_RAISE_TIMEOUT: PG has not risen within 1 ms of the write. -/
def execPgRaiseTimeout (r : Fin 3) (s : State) : Host.Outcome State Fault Refusal :=
  let s := s.begin
  .next (s.guard ((s.rail r).phase == .settle && s.pgPresent r && !s.pgHigh r) (fun s => s.railAgain r))

/-! ### Islands (R449, R450) -/

/-- May an island be powered off? -/
def State.offOk (s : State) (n : Nat) : Bool :=
  if 3 ≤ n ∧ n ≤ 10 then s.pst (n - 3) == stSTOPPED
  else if 11 ≤ n ∧ n ≤ 15 then s.rstate == rsSTOPPED
  else if 16 ≤ n ∧ n ≤ 19 then s.mcState (n - 16) == mcOFF || s.mcState (n - 16) == mcFENCED || s.mcState (n - 16) == mcABSENT
  else if 21 ≤ n ∧ n ≤ 24 then !s.tpOn (2 * (n - 21)) && !s.tpOn (2 * (n - 21) + 1)
  else if n = 25 then !s.on rAUD_CFG fAUD_CFG_EN && (List.range 8).all (fun h => !s.on (rHC_CFG h) fHC_CFG_EN)
  else if n = 27 ∨ n = 28 then s.mgrEp != n - 27 && (List.range 16).all (fun st => s.stallState st == 0 || (s.binding st).1 != n - 27)
  else decide (n = 26)

/-- What an island holds is at its reset values when it is powered again: registers outside the crossing pages (served from the fabric), live
counters, engines. (DEDUCED, log entry 69) -/
def State.islandReset (s : State) (n : Nat) : State :=
  let keep {α : Type} (x : Nat × α) : Bool := decide (0xFF00 ≤ x.1 % 0x10000) || decide (islandOf (refBlk x.1) ≠ n)
  let s1 : State := { s with
    regs := s.regs.filter keep, force := s.force.filter keep, scan := s.scan.filter keep, live := s.live.filter keep
    agreed := s.agreed.filter keep, heldLow := s.heldLow.filter keep }
  if 3 ≤ n ∧ n ≤ 10 then s1.modPipe (n - 3) (fun x => { hpd := x.hpd && !x.hpdLow })
  else if 16 ≤ n ∧ n ≤ 19 then overN 2 (fun sc s => s.modSub (n - 16) sc (fun _ => {})) s1
  else if 21 ≤ n ∧ n ≤ 24 then
    let fe := n - 21
    { (s1.modPanel (2 * fe) (fun _ => {})).modPanel (2 * fe + 1) (fun _ => {}) with lineRuns := s1.lineRuns.filter (fun x => decide (x.1 / 128 ≠ fe)) }
  else if n = 25 then { s1 with streams := [], haps := [], caps := [], mix := {} }
  else if n = 27 ∨ n = 28 then s1.modBoot (fun b => { b with fns := b.fns.filter (fun x => decide (x.1 / 16 ≠ n - 27)) })
  else s1

/-- The level of an output's HPD pin is there again. -/
def State.islandPins (s : State) (n : Nat) : State :=
  if 3 ≤ n ∧ n ≤ 10 then s.wr (rLINK_STAT (n - 3)) fLINK_STAT_HPD (b2n (s.pipe (n - 3)).hpd) else s

/-- ISL_CTRLn takes a word. (DEDUCED, log entry 69) -/
def State.wrIslCtrl (s : State) (n : Nat) (w : W64) : State :=
  let a := rISL_CTRL n
  let was := s.on a fISL_CTRL_OFF
  let off := getFld w fISL_CTRL_OFF = 1
  let k := getFld w fISL_CTRL_MAX_STEP
  let bad := match stepRange n with | some r => k != 0 && !(decide (r.1 ≤ k) && decide (k ≤ r.2)) | none => false
  if bad || (decide off && !was && !s.offOk n) then s.refuse a
  else
    let s1 := (s.wr a fISL_CTRL_OFF (b2n (decide off))).wr a fISL_CTRL_MAX_STEP (if (stepRange n).isSome then k else 0)
    let s2 := if off then (if was then s1.powerDown n else (s1.powerDown n).islandReset n)
              else if was then s1.wr (rISL_STAT n) fISL_STAT_PWR 2 else s1
    if n = 11 ∨ (12 ≤ n ∧ n ≤ 15) ∨ n = 20 then s2.railsAsk else s2

/-- ISLAND_OFF, ISLAND_ON: ISL_CTRLn is written with MAX_STEP as it stands. -/
def execIslandOff (who : Who) (n : Fin 31) (s : State) : Host.Outcome State Fault Refusal :=
  .next (s.begin.write who (rISL_CTRL n) (fun s => s.wrIslCtrl n (putFld (s.rw (rISL_CTRL n)) fISL_CTRL_OFF 1)))
def execIslandOn (who : Who) (n : Fin 31) (s : State) : Host.Outcome State Fault Refusal :=
  .next (s.begin.write who (rISL_CTRL n) (fun s => s.wrIslCtrl n (putFld (s.rw (rISL_CTRL n)) fISL_CTRL_OFF 0)))

/-- ISLAND_POWERED_ON: PWR reads ON. (DEDUCED, log entry 69) -/
def execIslandPoweredOn (n : Fin 31) (s : State) : Host.Outcome State Fault Refusal :=
  let s := s.begin
  .next (s.guard (s.rd (rISL_STAT n) fISL_STAT_PWR == 2) (fun s => ((s.wr (rISL_STAT n) fISL_STAT_PWR 0).islandPins n).railsAsk))

/-- The functional clock of an island that CUR_STEP shows, in steps of 6.25 MHz rounded down (R13); that of a pipe is kept in the register. A
shader's, the raster front end's and the SRAM's stay within what the settled voltage of their rail allows. (DEDUCED, log entry 71) -/
def State.curStep (s : State) (n : Nat) : Nat :=
  if s.islandOn n = false then 0
  else if n ≤ 2 then s.stepCap n
  else if n ≤ 10 then s.rd (rISL_STAT n) fISL_STAT_CUR_STEP
  else if n = 11 then min (s.stepCap n) (s.railStepNow 1 / 2)
  else if n ≤ 15 then min (s.stepCap n) (s.railStepNow 1)
  else if n ≤ 19 then [16, 21, 27, 32, 37, 42].getD (s.rd (rMC_CFG (n - 16)) fMC_CFG_RATE) 0
  else if n = 20 then min (s.stepCap n) (s.railStepNow 2)
  else if n ≤ 24 then 32
  else if n = 25 then 15
  else if n = 26 then 20
  else if n ≤ 28 then 80
  else if n = 29 then 64
  else 7

/-! ### I/O page (R473, R483) -/

/-- A GPIO register takes a word: in a world-N write the bits of trusted pins keep their values. (DEDUCED, log entry 71) -/
def State.wrGpio (s : State) (who : Who) (a : Nat) (w : W64) (mask : Nat) (bad : Bool) : State :=
  if bad then s.refuse a
  else if whoTrusted who then s.setRw a w
  else
    let old := (s.rw a).toNat
    let new := w.toNat
    let v := (List.range 32).foldl (fun v i => setBitN v i (if bitOf mask i then bitOf old i else bitOf new i)) 0
    let s1 := s.setRw a (BitVec.ofNat 64 v)
    if mask = 0 then s1 else s1.refuse a

/-- A mask of pins as a mask of the two-bit fields of GPIO_PULLw. -/
def pullMask (t w : Nat) : Nat := (List.range 16).foldl (fun m j => if bitOf t (16 * w + j) then m + 3 * 4 ^ j else m) 0

/-- GPIO_PULL: 0x3 is refused. -/
def pullBad (w : W64) : Bool := (List.range 16).any (fun j => w.toNat / 4 ^ j % 4 == 3)

/-- IO_CFG: class S, while the field network's island is off. -/
def State.wrIoCfg (s : State) (w : W64) : State := s.settingWrite rIO_CFG w (!s.islandOn 26) false

end Sys2Proof.Machine
end

