-- ==== Sys2Proof/Machine/RegWrite.lean ====
section
/-! DEFINITION. Machine/RegWrite.lean: register accesses by address: every register's effect when it is written, what a read shows, the halves of
64-bit registers (R7, R9, R486 to R488); accesses of hosts through BAR0 and BAR2, of cores to memory, configuration requests (R203 to R206,
R218, R219, R235, R268, R269, R306, R330, R490). -/
namespace Sys2Proof.Machine

/-! ### Settings (R439, R440) -/

/-- Is the unit of a class-S setting in its stopped condition (R439)? `u` is the unit's number, `i` the register's instance. -/
def State.stoppedOf (s : State) (k : BlkKind) (name : String) (u i : Nat) : Bool :=
  match k with
  | .kPIPE | .kOUT => s.pst u == stSTOPPED
  | .kRFE => s.rstate == rsSTOPPED
  | .kMC => s.mcState u == mcOFF
  | .kLGR => !s.ledEnabled
  | .kNVM => !s.on rPSTORE fPSTORE_EN
  | .kDM => s.chState (8 * u + i) == chSTOPPED
  | .kCVU => !s.cvHeld (8 * u + i)
  | .kTFE => !s.tpOn (2 * u + (if name = "BASE0" then 0 else if name = "BASE1" then 1 else i))
  | .kAHX =>
    if name = "STR_RING_LO" ∨ name = "STR_RING_HI" then !s.on (rSTR_CFG i) fSTR_CFG_EN
    else if name = "HC_RING_LO" ∨ name = "HC_RING_HI" then !s.on (rHC_CFG i) fHC_CFG_EN
    else !s.on rAUD_CFG fAUD_CFG_EN
  | .kQST =>
    if name = "GS_CTRL" then s.rstate == rsSTOPPED
    else
      let st := if name = "GADM" then i + 1 else i
      s.stallState st == 0 || s.stallState st == 4
  | .kAON => !s.islandOn 26
  | _ => true

/-- WORLD_MAP, KCFG and CALL_CFG take a word: until WM_LOCK; the bits of R257 read 1 always. -/
def State.wrWorldMap (s : State) (a : Nat) (w : W64) : State :=
  let fixed : W64 := if a = rWM_BLK 0 then 0xC4 else if a = rWM_ISL then 0x60000001 else 0
  let s1 := s.settingWrite a (w ||| fixed) true (s.on rKSTAT fKSTAT_WM_LOCKED)
  (List.range 12).foldl (fun x i => x.showIrq s (0x28 + i)) s1

/-! ### Grants and shares (R184, R207, R493) -/

/-- May S0 give up resource bit `j` of grant word `k`: is it idle (R493)? -/
def State.grantIdle (s : State) (k j : Nat) : Bool :=
  if k ≤ 1 then s.queueState (32 * k + j) == 0
  else if k ≤ 3 then
    let b := 32 * (k - 2) + j
    !s.on (rLCFG (b / 8) (b % 8)) fLCFG_EN && !s.fon (rLCFG (b / 8) (b % 8)) fLCFG_EN
  else if k = 4 then s.chState j == chSTOPPED
  else if k = 5 then !s.on (rSTR_CFG j) fSTR_CFG_EN
  else if k = 6 then (if j < 16 then !s.cvHeld j else if j < 24 then !s.on (rHC_CFG (j - 16)) fHC_CFG_EN else !s.tpOn (j - 24))
  else if 8 ≤ j ∧ j < 16 then !s.fon (rWB_CFG (j - 8)) fWB_CFG_EN
  else true

/-- Grant word `k` of a stall takes a word: of one in RESET none that another stall, not FREE, holds (R207). (DEDUCED, log entry 37) -/
def State.wrGrant (s : State) (st k : Nat) (w : W64) : State :=
  let a := (grantRegs st).getD k 0
  if st ≠ 0 then s.settingWrite a w (s.stallState st == 0 || (s.stallState st == 4 && !s.grantConflict st k w)) false
  else
    let old := s.rw a
    let gone := (old &&& ~~~w).toNat
    if s.grantConflict 0 k (w &&& ~~~old) || (List.range 32).any (fun j => bitOf gone j && !s.grantIdle k j) then s.refuse a
    else s.settingWrite a w true false

/-- The sum of SHARE over all stalls, as written. -/
def State.shareSum (s : State) : Nat := (List.range 16).foldl (fun n st => n + s.rd (rShare st) fGSHARE_SHARE) 0

/-- GSHARE takes a word. -/
def State.wrShare (s : State) (st : Nat) (w : W64) : State :=
  if 256 < s.shareSum - s.rd (rShare st) fGSHARE_SHARE + getFld w fGSHARE_SHARE then s.refuse (rShare st)
  else s.settingWrite (rShare st) w true false

/-! ### Registers of the control page -/

/-- IVEC takes a word: a byte whose vector is not below NVEC keeps its value (R220). (DEDUCED, log entry 37) -/
def State.wrIvec (s : State) (st i : Nat) (w : W64) : State :=
  let nvec := s.rd (rGadm st) fGADM_NVEC
  let old := (s.rw (rIVEC st i)).toNat
  let byte (v j : Nat) : Nat := v / 2 ^ (8 * j) % 64
  let ok (j : Nat) : Bool := decide (byte w.toNat j < nvec)
  let v := (List.range 4).foldl (fun t j => t + (if ok j then byte w.toNat j else byte old j) * 2 ^ (8 * j)) 0
  let s1 := s.setRw (rIVEC st i) (BitVec.ofNat 64 v)
  if (List.range 4).all ok then s1 else s1.refuse (rIVEC st i)

/-- A pending vector that nothing masks any more sends its message. (PRESUMED, log entry 35) -/
def State.flushVec (s : State) (st v : Nat) : State :=
  let p := (s.rw (rPBA st (v / 32))).toNat
  if (s.stallFn st).msixOn && !(s.stallFn st).msixMask && !bitOf (s.rw (rMSIX st (4 * v + 3))).toNat 0 && bitOf p (v % 32) then
    (s.setRw (rPBA st (v / 32)) (BitVec.ofNat 64 (setBitN p (v % 32) false))).emit (.msix st v)
  else s

/-- A word of the MSI-X table. (PRESUMED, log entry 35) -/
def State.wrMsix (s : State) (st i : Nat) (w : W64) : State := (s.setRw (rMSIX st i) w).flushVec st (i / 4)

/-- A register of the control page of stall `st` takes a word. -/
def State.barEffect (s : State) (st : Nat) (name : String) (i a : Nat) (w : W64) : State :=
  match name with
  | "IMASK" => s.wrImask st i w
  | "IVEC" => s.wrIvec st i w
  | "EXP_CTL" => s.wrExpCtl st (i / 16) (i % 16) w
  | "LSUB_CTRL" => s.wrLsubCtrl st w
  | "MB_REQ" => if s.on (rMB_STAT st) fMB_STAT_BUSY then s.refuse a else s.settingWrite a w true false
  | "MB_CTRL" => s.wrMbCtrl st w
  | "MSIX" => s.wrMsix st i w
  | _ => s.settingWrite a w true false

/-! ### Registers by block -/

/-- A register of AON takes a word (R63, R449, R454, R473, R483). -/
def State.aonEffect (s : State) (who : Who) (name : String) (i a : Nat) (w : W64) : State :=
  let t := s.rd rGPIO_TMASK fGPIO_TMASK_T
  match name with
  | "ISL_CTRL" => s.wrIslCtrl i w
  | "SUPPLY_CFG" => s.wrSupplyCfg w
  | "GPIO_OUT" | "GPIO_OE" | "GPIO_DRV" => s.wrGpio who a w t false
  | "GPIO_PULL" => s.wrGpio who a w (pullMask t i) (pullBad w)
  | "REG_CFG" => s.wrRegCfg w
  | "IO_CFG" => s.wrIoCfg w
  | "SYNC_OUT" => (s.settingWrite a w true s.runLocked).syncDrive s
  | _ => s.settingWrite a w true s.runLocked

/-- A register of KPR takes a word in world T (R252, R253, R256, R261, R274); `t` in µs. -/
def State.kprEffect (s : State) (t : Nat) (name : String) (i a : Nat) (w : W64) : State :=
  match name with
  | "KCTRL" => s.wrKctrl t w
  | "SVC_CTRL" => s.wrSvcCtrl w
  | "SVC_THAW" => s.wrSvcThaw w
  | "KCFG" | "CALL_CFG" | "WM_BLK" | "WM_GRN" | "WM_ISL" => s.wrWorldMap a w
  | "WC_FN" | "WC_ARG0" | "WC_CTL" => s.refuse a
  | "WC_RSP" => s.wrWcRsp i w
  | _ => s.settingWrite a w true false

/-- A register of NVM, of MCu, of LGR takes a word (R150, R303, R318). -/
def State.nvmEffect (s : State) (name : String) (a : Nat) (w : W64) : State :=
  match name with
  | "NVM_CMD" => s.wrNvmCmd w
  | "PSTORE" => s.wrPstore w
  | "PCACHE_CFG" => s.wrPcacheCfg w
  | _ => s.settingWrite a w true false
def State.mcEffect (s : State) (name : String) (u i a : Nat) (w : W64) : State :=
  match name with
  | "MC_CTRL" => s.wrMcCtrl u w
  | "SCHED_CFG" => s.wrSchedCfg u w
  | "MAP_CTRL" => s.wrMapCtrl w
  | "ECC_MAP" => s.wrEccMap i w
  | "SCRUB_CFG" => (s.settingWrite a w true false).showScrub
  | _ => s.settingWrite a w (s.stoppedOf .kMC name u i) false
def State.lgrEffect (s : State) (name : String) (a : Nat) (w : W64) : State :=
  match name with
  | "LG_CTRL" => (s.lgCtrl w (BitVec.ofNat 128 (2 ^ 64 * s.free.toNat + (Config.freeValue (s.fresh + 1)).toNat))).useFreeN 2
  | "LG_CFG" => s.wrLgCfg w
  | "LG_SEALCFG" => s.wrLgSealcfg w
  | "LG_ACK" => s.wrLgAck w
  | _ => s.settingWrite a w true false

/-- FETCH_CFG: the range stays within the 768 grains (R79). -/
def State.wrFetchCfg (s : State) (p : Nat) (w : W64) : State :=
  if 768 < getFld w fFETCH_CFG_FIFO_BASE + getFld w fFETCH_CFG_FIFO_GRAINS then s.refuse (rFETCH_CFG p)
  else s.settingWrite (rFETCH_CFG p) w (s.pst p == stSTOPPED) false
/-- ACFG: FORMAT is one of three codes (R88). -/
def State.wrAcfg (s : State) (p : Nat) (w : W64) : State :=
  if getFld w fACFG_FORMAT ∈ [1, 3, 4] then s.settingWrite (rACFG p) w true false else s.refuse (rACFG p)
/-- PANIC_CFG: PANIC_CLEAR above PANIC_LOW (R79). -/
def State.wrPanicCfg (s : State) (p : Nat) (w : W64) : State :=
  if getFld w fPANIC_CFG_PANIC_CLEAR ≤ getFld w fPANIC_CFG_PANIC_LOW then s.refuse (rPANIC_CFG p)
  else s.settingWrite (rPANIC_CFG p) w true false

/-- A register of PIPEp takes a word; `t` in cycles of the 1.6 GHz root clock. -/
def State.pipeEffect (s : State) (who : Who) (t : Nat) (name : String) (p i a : Nat) (w : W64) : State :=
  match name with
  | "PCTRL" => s.wrPctrl p t w
  | "TNX_CTRL" => s.wrTnxCtrl p w
  | "SYNC_SRC" => s.wrSyncSrc p w
  | "SYNC_CTRL" => s.wrSyncCtrl p w
  | "COMMIT" => s.wrCommit p i w
  | "CMODE_CFG" => s.wrCmodeCfg p w
  | "PCOMMIT" => s.wrPcommit who p w
  | "ACOMMIT" => s.wrAcommit p w
  | "KREL" => s.wrKrel p w
  | "ACFG" => s.wrAcfg p w
  | "AFCTL" => s.wrAfctl p w
  | "AFCLR" => s.wrAfclr p w
  | "FETCH_CFG" => s.wrFetchCfg p w
  | "PANIC_CFG" => s.wrPanicCfg p w
  | "DGM0" => s.wrLut p 0 i w
  | "DGM1" => s.wrLut p 1 i w
  | "RGM0" => s.wrLut p 2 i w
  | "RGM1" => s.wrLut p 3 i w
  | "PCFG" => s.wrPcfg p i w
  | "PEXP_CTL" => s.wrPexpCtl p i w
  | "PITCH_CTRL" => s.wrPitchCtrl p w
  | _ => s.settingWrite a w (s.stoppedOf .kPIPE name p i) false

/-- A register of DMe, of CVUu, of TFEf, of AHX takes a word. -/
def State.dmEffect (s : State) (who : Who) (name : String) (e i a : Nat) (w : W64) : State :=
  match name with
  | "CH_CFG" => s.wrChCfg who (8 * e + i) w
  | "CH_DB" => s.wrChDb (8 * e + i)
  | "DM_THAW" => s.wrDmThaw e (getFld w fDM_THAW_THAW)
  | _ => (s.settingWrite a w (s.stoppedOf .kDM name e i) false).showIrq s (0x28 + e)
def State.cvuEffect (s : State) (name : String) (u i a : Nat) (w : W64) : State :=
  match name with
  | "CV_CFG" => s.wrCvCfg (8 * u + i) w
  | "CV_CTRL" => s.wrCvCtrl (8 * u + i) w
  | _ => s.wrCvWord (8 * u + i) a w
def State.tfeEffect (s : State) (name : String) (f i a : Nat) (w : W64) : State :=
  match name with
  | "FE_LFCLR" => s.wrFeLfclr f w
  | "TP_CFG" => s.wrTpCfg (2 * f + i) w
  | "TP_THR" => s.wrTpThr (2 * f + i) w
  | "TP_CTRL" => s.wrTpCtrl (2 * f + i) w
  | _ => (s.settingWrite a w (s.stoppedOf .kTFE name f i) false).showIrq s (0x30 + f)
def State.ahxEffect (s : State) (name : String) (i a : Nat) (w : W64) : State :=
  match name with
  | "AUD_CFG" => s.wrAudCfg w
  | "PORT_CFG" => s.wrPortCfg i w
  | "STR_CFG" => s.wrStrCfg i w
  | "HC_CFG" => s.wrHcCfg i w
  | _ => s.settingWrite a w (s.stoppedOf .kAHX name 0 i) false

/-- A register of QST takes a word. -/
def State.qstEffect (s : State) (who : Who) (name : String) (i a : Nat) (w : W64) : State :=
  match name with
  | "QCFG" => s.wrQcfg i w
  | "QBASE_LO" | "QBASE_HI" => s.wrQbase i a w
  | "SCTRL" => s.wrSctrl who i w
  | "SCFG" => s.wrScfg who i w
  | "GQ_LO" => s.wrGrant i 0 w
  | "GQ_HI" => s.wrGrant i 1 w
  | "GL_LO" => s.wrGrant i 2 w
  | "GL_HI" => s.wrGrant i 3 w
  | "GDM" => s.wrGrant i 4 w
  | "GAUD" => s.wrGrant i 5 w
  | "GMISC" => s.wrGrant i 6 w
  | "GPIPE" => s.wrGrant i 7 w
  | "GADM0" => s.settingWrite a w false false
  | "OWN_SRAM" => s.wrOwners true i w
  | "OWN_DRAM" => s.wrOwners false i w
  | "TINV" => s.wrTinv w
  | "FVAL" => s.setFence (i / 64) (i % 64) (getFld w fFVAL_VAL)
  | "FADD" => s.setFence (i / 64) (i % 64) (s.fence (i / 64) (i % 64) + getFld w fFADD_ADD)
  | "GSHARE0" => s.wrShare 0 w
  | "GSHARE" => s.wrShare (i + 1) w
  | "GQATTR" => (s.settingWrite a w true false).gpuKick
  | _ => s.settingWrite a w (s.stoppedOf .kQST name 0 i) false

/-- A register takes a word, by its block and name; `t` in cycles of the 1.6 GHz root clock. The register with no row in the register table is
the doorbell of a queue slot (R227). -/
def State.regEffect (s : State) (who : Who) (t a : Nat) (w : W64) : State :=
  match lookupReg a with
  | none =>
    let off := a % 0x10000
    if 0x10000000000 ≤ a ∧ 0x1000 ≤ off ∧ off < 0x1800 ∧ off % 0x20 = 0 then s.doorbell ((a - 0x10000000000) / 0x10000) ((off - 0x1000) / 0x20) (w.toNat % 2 ^ 32)
    else s.answer .discarded
  | some (d, u, i) =>
    if d.readOnly then s.answer .discarded
    else if 0x10000000000 ≤ a then s.barEffect u d.name i a w
    else if 0xFF00 ≤ a % 0x10000 then
      (if d.name = "XCLR" then s.wrXclr (blkIdOf a) w else if d.name = "XCNT_CLR" then s.wrXcntClr (blkIdOf a) w else s.answer .discarded)
    else match blkKindOf (blkIdOf a) with
      | .kAON => s.aonEffect who d.name i a w
      | .kTEL => if d.name = "TALLY_CTRL" then s.wrTallyCtrl w else if d.name = "TALLY_PERIOD" then s.wrTallyPeriod w else s.settingWrite a w true false
      | .kKPR => s.kprEffect (t / 1600) d.name i a w
      | .kNVM => s.nvmEffect d.name a w
      | .kMC => s.mcEffect d.name u i a w
      | .kLGR => s.lgrEffect d.name a w
      | .kPIPE => s.pipeEffect who t d.name u i a w
      | .kOUT => if d.name = "AUX_CMD" then s.wrAuxCmd u w else s.settingWrite a w (s.stoppedOf .kOUT d.name u i) false
      | .kRFE => if d.name = "RCTRL" then s.wrRctrl w else if d.name = "TLP_CFG" then s.wrTlpCfg w else s.settingWrite a w (s.stoppedOf .kRFE d.name u i) false
      | .kDM => s.dmEffect who d.name u i a w
      | .kCVU => s.cvuEffect d.name u i a w
      | .kTFE => s.tfeEffect d.name u i a w
      | .kAHX => s.ahxEffect d.name i a w
      | .kQST => s.qstEffect who d.name i a w
      | _ => s.settingWrite a w true false

/-! ### Access sizes (R488) -/

/-- A register that is not read-only takes a value, which uses up the held low word, or refuses it, which does not. (DEDUCED, log entry 77) -/
def State.takeWide (s : State) (who : Who) (t a : Nat) (w : W64) : State :=
  let s1 := s.regEffect who t a w
  if s1.resp = .refused then s1 else { s1 with heldLow := storePut (fun _ => 0) s1.heldLow a 0 }

/-- A 32-bit write: the low word of a 64-bit register is held; the high word makes it take both, or its own low half where none is held. (DEDUCED, log entries 11, 77) -/
def State.busWrite32 (s : State) (who : Who) (t a : Nat) (w : W32) : State :=
  let r := regPlace a
  s.write who r.1 (fun s =>
    if isWide r.1 = false then s.regEffect who t r.1 (wide w)
    else if (match lookupReg r.1 with | some (d, _, _) => d.readOnly | none => true) then s.answer .discarded
    else if r.2 = false then { s with heldLow := storePut (fun _ => 0) s.heldLow r.1 (0x100000000#64 ||| wide w) }
    else
      let h := storeGet (fun _ => 0) s.heldLow r.1
      let lo := if h = 0 then s.rw r.1 else h
      s.takeWide who t r.1 (wide w <<< 32 ||| (lo &&& 0xFFFFFFFF#64)))

/-- A write access of 32 or 64 bits: a 64-bit access to 32-bit registers is two accesses, the lower address first. (DEDUCED, log entry 72) -/
def State.busWrite (s : State) (who : Who) (t a : Nat) (w64 : Bool) (w : W64) : State :=
  if w64 = false then s.busWrite32 who t a (w.setWidth 32)
  else if isWide a then s.write who a (fun s => s.takeWide who t a w)
  else (s.busWrite32 who t a (w.setWidth 32)).busWrite32 who t (a + 4) ((w >>> 32).setWidth 32)

/-- REGISTER_WRITE (R7, R9, R67, R486 to R488): any register, by its physical address; `t` in cycles of the 1.6 GHz root clock. -/
def execRegisterWrite (who : Who) (a : BitVec 36) (w64 : Bool) (w : W64) (t : Nat) (s : State) : Host.Outcome State Fault Refusal :=
  .next (s.begin.busWrite who t a.toNat w64 w)

/-! ### Reads -/

/-- The levels of the 32 GPIO pins: an output is at the level it drives; an input is at a level from outside (R483). (DEDUCED, log entry 71) -/
def State.pinLevels (s : State) : Nat :=
  let oe := s.rd rGPIO_OE fGPIO_OE_OE
  (s.rd rGPIO_OUT fGPIO_OUT_OUT &&& oe) ||| ((s.free.toNat % 2 ^ 32) &&& (oe ^^^ 0xFFFFFFFF))

/-- What a read shows of a register: its word, with the fields that follow other state. (DEDUCED, log entry 71) -/
def State.viewWord (s : State) (a : Nat) : W64 :=
  let w := s.rw a
  if 0x10000000000 ≤ a ∨ 0xFF00 ≤ a % 0x10000 then w
  else match lookupReg a with
    | none => 0
    | some (d, _, i) =>
      match blkKindOf (blkIdOf a), d.name with
      | .kAON, "ISL_STAT" => putFld w fISL_STAT_CUR_STEP (s.curStep i)
      | .kAON, "DOM_STAT" =>
        putFld w fDOM_STAT_MV (if i = 0 then 750 else if i = 4 then 800 else
          let r := if i = 3 then 2 else i - 1
          if s.railAddr r = 0 then railTop r else getFld w fDOM_STAT_MV)
      | .kAON, "GPIO_IN0" => putFld w fGPIO_IN0_IN (s.pinLevels % 2 ^ 16)
      | .kAON, "GPIO_IN1" => putFld w fGPIO_IN1_IN (s.pinLevels / 2 ^ 16)
      | .kTEL, "STALE_SUMMARY" =>
        BitVec.ofNat 64 ((List.range 16).foldl (fun t n => t + b2n (s.lv (rXSTALE (16 * i + n)) != 0) * 2 ^ n) 0)
      | .kMSR, "MSR_STAT" => putFld w fMSR_STAT_PAUSED (b2n (s.on rMSR_SCRUB fMSR_SCRUB_EN && s.anyPanic))
      | .kQST, "QSTAT" => putFld (putFld w fQSTAT_STATE (s.queueState i)) fQSTAT_OUTSTANDING (min 255 (s.queue i).items.length)
      | .kQST, "SSTAT" => putFld w fSSTAT_INFLIGHT (min 255 (s.outstanding i))
      | .kQST, "GADM0" => putFld w fGADM0_SHARE (s.share 0)
      | .kQST, "GADM" => putFld w fGADM_SHARE (s.share (i + 1))
      | .kQST, "GS_STAT" => putFld w fGS_STAT_SUM s.shareSum
      | .kQST, "OWN_SRAM" => BitVec.ofNat 64 ((List.range 4).foldl (fun t j => t + s.ownSram (4 * i + j) * 2 ^ (8 * j)) 0)
      | _, _ => w

/-- The identity page of a bound function (R219). -/
def State.identWord (s : State) (st off : Nat) : W64 :=
  let b := s.binding st
  let owned (i : Nat) : Bool := pcfgOwner (s.rw (rPCFG (i / 16) (i % 16))) == some st
  let grant (k : Nat) : W64 := s.rw ((grantRegs st).getD k 0)
  match off / 4 with
  | 0 => BitVec.ofNat 64 (2 ^ 31 * b2n (s.sealed st) + 2 ^ 30 * b2n (st == 0) + 2 ^ 20 * b.1 + 2 ^ 16 * b.2 + st)
  | 1 => BitVec.ofNat 64 (2 ^ 28 * s.stallState st + 2 ^ 27 * s.rd (rSSTAT st) fSSTAT_VREC_VALID)
  | 2 => grant 0
  | 3 => grant 1
  | 4 => grant 2
  | 5 => grant 3
  | 10 => grant 4
  | 11 => grant 5
  | 12 => grant 6
  | 13 => grant 7
  | 14 => BitVec.ofNat 64 (2 ^ 16 * (s.ownedBy true st).length + (s.ownedBy false st).length)
  | 15 => BitVec.ofNat 64 (2 ^ 24 * s.admitMax st + 2 ^ 16 * s.rd (rGadm st) fGADM_NVEC + s.share st)
  | k => BitVec.ofNat 64 ((List.range 32).foldl (fun t i => t + b2n (owned (32 * (k - 6) + i)) * 2 ^ i) 0)

/-- A read of a word of the identity page. STATE is read through an agreed crossing (R219, R20). -/
def State.readIdent (s : State) (st off : Nat) (stale : Bool) : State :=
  let v := s.identWord st off
  let a := bar0Addr st 4
  if off / 4 ≠ 1 then s.answer (.data v)
  else if stale then (s.bumpErr (rXSTALE (refBlk a))).answer (.data (storeGet (fun _ => 0) s.agreed a ||| 0x80000000#64))
  else ({ s with agreed := storePut (fun _ => 0) s.agreed a v }).answer (.data v)

/-- The effects of a read on what it reads: the violation records count as read (R235, R261, R330); a free value was used. -/
def State.readEffect (s : State) (a : Nat) : State :=
  match lookupReg a with
  | none => s
  | some (d, u, i) =>
    if 0x10000000000 ≤ a ∨ 0xFF00 ≤ a % 0x10000 then s
    else match blkKindOf (blkIdOf a), d.name with
      | .kQST, "VKIND" => if s.on (rSSTAT i) fSSTAT_VREC_VALID then s.wr (rSSTAT i) fSSTAT_VREC_READ 1 else s
      | .kDM, "CH_FAULT_KIND" => s.wr a fCH_FAULT_KIND_VREAD 1
      | .kKPR, "SVC_VREC" => { s with vrecRead := if bitOf (s.rd rSVC_STAT fSVC_STAT_FROZEN) (u + i) then setBitN s.vrecRead (u + i) true else s.vrecRead }
      | .kAON, "GPIO_IN0" | .kAON, "GPIO_IN1" => s.useFree
      | _, _ => s

/-- The answer of a register to a read, with its effects; `stale` as in R20. -/
def State.readWord (s : State) (a : Nat) (stale : Bool) : State :=
  let v := s.viewWord a
  let s1 := s.readEffect a
  if isAgreed a then
    if stale then (s1.bumpErr (rXSTALE (refBlk a))).answer (.data (storeGet resetWord s.agreed a ||| 0x80000000#64))
    else ({ s1 with agreed := storePut resetWord s1.agreed a v }).answer (.data v)
  else s1.answer (.data v)

/-- A 32-bit read: a half of a 64-bit register, KEVT as R262 states. -/
def State.busRead32 (s : State) (who : Who) (a : Nat) (stale : Bool) : State :=
  let r := regPlace a
  s.access who r.1 false (fun s =>
    if r.1 = rKEVT then s.readKevt (if r.2 then 2 else 1)
    else
      let s1 := s.readWord r.1 stale
      match s1.resp with
      | .data v => s1.answer (.data (if isWide r.1 then (if r.2 then v >>> 32 else v &&& 0xFFFFFFFF#64) else v))
      | _ => s1)

/-- A read of 32 or 64 bits. (DEDUCED, log entry 72) -/
def State.busRead (s : State) (who : Who) (a : Nat) (w64 stale : Bool) : State :=
  if w64 = false then s.busRead32 who a stale
  else if isWide a then s.access who a false (fun s => if a = rKEVT then s.readKevt 0 else s.readWord a stale)
  else
    let s1 := s.busRead32 who a stale
    match s1.resp with
    | .data lo =>
      let s2 := s1.busRead32 who (a + 4) stale
      (match s2.resp with | .data hi => s2.answer (.data (hi <<< 32 ||| (lo &&& 0xFFFFFFFF#64))) | _ => s2)
    | _ => s1

/-- VKIND_READ, CH_FAULT_KIND_READ. -/
def execVkindRead (who : Who) (st : Fin 16) (stale : Bool) (s : State) : Host.Outcome State Fault Refusal :=
  .next (s.begin.busRead who (rVKIND st) false stale)
def execChFaultKindRead (who : Who) (e : Fin 4) (c : Fin 8) (stale : Bool) (s : State) : Host.Outcome State Fault Refusal :=
  .next (s.begin.busRead who (rCH_FAULT_KIND e c) false stale)

/-! ### Hosts (R203 to R206, R268, R269) -/

/-- BAR2 size of an endpoint in bytes: 0, or 2^20 × 2^k from the boot configuration (R203, R265). -/
def State.bar2Size (s : State) (ep : Nat) : Nat :=
  let k := fieldAt s.boot.cfg (5 + ep) 1
  if k = 0 then 0 else 2 ^ (20 + k)

/-- A read of the PF that the boot ROM presents, in recovery boot and in HALTED: IDENT, BOOT_STAT, zeros. (DEDUCED, log entry 73) -/
def State.romBar (s : State) (off : Nat) : W64 :=
  if off = 0 then s.rw rIDENT else if off = 8 then s.rw rAON_BOOT_STAT else if off = 0x20 ∧ s.dstate = 1 then BitVec.ofNat 64 s.boot.recovLen else 0

/-- An access to the PF of PCIe A in recovery boot: BAR0, and 64 MiB of BAR2 of which 16 MiB are market SRAM. (DEDUCED, log entry 73) -/
def State.recovAccess (s : State) (bar2 : Bool) (off : Nat) (write : Bool) (n : Nat) (b : List Byte) : State :=
  if bar2 then
    if 0x4000000 ≤ off then s.answer .unsupported
    else if off + n ≤ 0x1000000 then
      if write then (s.memStore (sramBase + off) b).1.answer .ok
      else match s.sramLoad off n with
        | (s1, some d) => s1.answer (.bytes d)
        | (s1, none) => s1.answer .errZero
    else if write then s.answer .discarded else s.answer (.bytes (List.replicate n 0))
  else if 0x40 ≤ off then s.answer .unsupported
  else if write then
    if off = 0x20 then (s.modBoot (fun x => { x with recovLen := ofBytesLE (b.take 4) })).answer .ok
    else if off = 0x24 ∧ ofBytesLE (b.take 4) % 2 = 1 then (s.answer .ok).recovGo
    else s.answer .discarded
  else s.answer (.data (s.romBar off))

/-- An access through BAR2 of a bound function is split at 64-byte boundaries; a part that fails ends it (R206). `k` bounds the parts. -/
def State.bar2Write (s : State) (st : Nat) : Nat → Nat → List Byte → State
  | 0, _, _ => s
  | k + 1, x, b =>
    if b.isEmpty then s
    else
      let n := 64 - x % 64
      match s.stallStore st ⟨0, 0⟩ x (b.take n) with
      | (s1, true) => (s1.answer .ok).bar2Write st k (x + n) (b.drop n)
      | (s1, false) => s1.answer .discarded
def State.bar2Read (s : State) (st : Nat) : Nat → Nat → Nat → List Byte → State
  | 0, _, _, acc => s.answer (.bytes acc)
  | k + 1, x, len, acc =>
    if len = 0 then s.answer (.bytes acc)
    else
      let n := min len (64 - x % 64)
      match s.stallLoad st ⟨0, 0⟩ x n with
      | (s1, some d) => s1.bar2Read st k (x + n) (len - n) (acc ++ d)
      | (s1, none) => s1.answer .errZero

/-- An access of 32 bits, or of 64 to a 64-bit register, through BAR0 of a function bound to stall `st`. -/
def State.bar0One (s : State) (st off : Nat) (write w64 stale : Bool) (t : Nat) (w : W64) : State :=
  let a := (barReg st off).getD (bar0Addr st off)
  if write then s.busWrite (.stall (Fin.ofNat 16 st)) t a w64 w else s.busRead (.stall (Fin.ofNat 16 st)) a w64 stale

/-- An access through BAR0 of a function bound to stall `st`: the identity page, else a register; one of 64 bits to two 32-bit registers or reserved words
is one to each, by their own offsets. (DEDUCED, log entry 38) -/
def State.bar0Access (s : State) (st off : Nat) (write w64 stale : Bool) (t : Nat) (b : List Byte) : State :=
  let both (s1 s2 : State) : State := match s1.resp, s2.resp with | .data lo, .data hi => s2.answer (.data (hi <<< 32 ||| (lo &&& 0xFFFFFFFF#64))) | _, _ => s2
  if off < 0x40 then
    if s.barServed st off write = false then (s.bumpErr (rBAR_REFUSED st)).answer (if write then .discarded else .errZero)
    else if write then s.answer .discarded
    else if w64 = false then s.readIdent st off stale
    else
      let s1 := s.readIdent st off stale
      both s1 (s1.readIdent st (off + 4) stale)
  else if w64 = false then s.bar0One st off write false stale t (BitVec.ofNat 64 (ofBytesLE (b.take 4)))
  else if isWide ((barReg st off).getD (bar0Addr st off)) then s.bar0One st off write true stale t (BitVec.ofNat 64 (ofBytesLE (b.take 8)))
  else
    let s1 := s.bar0One st off write false stale t (BitVec.ofNat 64 (ofBytesLE (b.take 4)))
    if s1.resp = .errZero ∨ (write ∧ s1.resp = .discarded ∧ s1.stallState st ≠ s.stallState st) then s1
    else both s1 (s1.bar0One st (off + 4) write false stale t (BitVec.ofNat 64 (ofBytesLE ((b.drop 4).take 4))))

/-- HOST_BAR_ACCESS: an access of `n` bytes through BAR0 or BAR2 of a function; to BAR0, of 4 bytes, or of 8 where n is 8 or more. In SAVING, until the PCIe
islands are off, and in HALTED, register writes are refused (R441). (DEDUCED, log entry 73) -/
def execHostBarAccess (ep : Fin 2) (fn : Fin 16) (bar2 : Bool) (off : BitVec 36) (write : Bool) (n : Nat) (b : List Byte) (t : Nat)
    (stale : Bool) (s : State) : Host.Outcome State Fault Refusal :=
  let s := s.begin
  let o := off.toNat
  let len := if write then b.length else n
  .next (
    if s.power.inReset || s.dstate == 0 || !s.islandOn (27 + ep) then s
    else if s.dstate = 6 ∨ s.dstate = 7 then
      match s.boundStall ep fn with
      | some st => if write && !bar2 && decide (o < 0x10000) then s.bar0Access st o write (decide (8 ≤ len)) stale t b else s
      | none => s
    else if s.inRecovery then
      if ep.val = 0 ∧ fn.val = 0 ∧ s.boot.linkUp = true then s.recovAccess bar2 o write len b else s.answer .unsupported
    else if s.dstate = 8 then
      if ep.val = 0 ∧ fn.val = 0 ∧ bar2 = false ∧ o < 0x40 then (if write then s.refuse rIDENT else s.answer (.data (s.romBar o)))
      else s.answer .unsupported
    else if s.running = false then s.answer .unsupported
    else if bar2 then
      match s.boundStall ep fn with
      | none => s.answer .unsupported
      | some st =>
        if s.bar2Size ep ≤ o then s.answer .unsupported
        else if s.stallState st ≠ 1 then (s.bumpErr (rBAR_REFUSED st)).answer (if write then .discarded else .errZero)
        else if write then s.bar2Write st (b.length / 64 + 2) o b else s.bar2Read st (n / 64 + 2) o n []
    else if 0x10000 ≤ o then s.answer .unsupported
    else match s.boundStall ep fn with
      | none => if !write && decide (o < 0x40) then s.answer (.data (if o = 0 then 0xF else 0)) else s.answer .unsupported
      | some st => s.bar0Access st o write (decide (8 ≤ len)) stale t b)

/-- What a configuration read shows (R203): BAR0 is a 64 KiB 32-bit non-prefetchable memory BAR, BAR2 with its upper half a 64-bit prefetchable one; the MSI-X
table and its pending bits lie in BAR0 (R218). (PRESUMED, log entry 35) -/
def State.cfgWord (s : State) (ep fn : Nat) : CfgReq → Nat
  | .totalVfs => if fn = 0 ∧ s.dstate ≠ 8 then 15 else 0
  | .firstVf | .vfStride => if fn = 0 ∧ s.dstate ≠ 8 then 1 else 0
  | .bar k =>
    let size := if s.inRecovery then 2 ^ 26 else if s.dstate = 8 then 0 else s.bar2Size ep
    let m := 2 ^ 64 - size
    if k = 0 then 0xFFFF0000
    else if size = 0 then 0
    else if k = 2 then m % 2 ^ 32 + 0xC
    else if k = 3 then m / 2 ^ 32
    else 0
  | .msixSize => 63
  | .msixTable => 0x7000
  | .msixPba => 0x7800
  | .msixControl => 2 ^ 15 * b2n (s.fnCfg ep fn).msixOn + 2 ^ 14 * b2n (s.fnCfg ep fn).msixMask + 63
  | .setMsix _ _ => 0

/-- A configuration request to a function that answers: a read, or a write of the MSI-X control, which may let pending messages of a stall that is ACTIVE or
FROZEN go (R221). (PRESUMED, log entry 35) -/
def State.cfgServe (s : State) (ep fn : Nat) (req : CfgReq) : State :=
  match req with
  | .setMsix on mask =>
    let s1 := s.setFnCfg ep fn ⟨on, mask⟩
    (match s1.boundStall ep fn with
      | some st => if s1.stallState st = 1 ∨ s1.stallState st = 2 then overN 64 (fun v s => s.flushVec st v) s1 else s1
      | none => s1).answer .ok
  | _ => s.answer (.data (BitVec.ofNat 64 (s.cfgWord ep fn req)))

/-- CONFIG_REQUEST (R203, R268, R269): retry status before SERVICE_UP; the PF of PCIe A is there in recovery boot and in HALTED; no answer on a link
that is down, or of an endpoint without power. (DEDUCED, log entry 73) -/
def execConfigRequest (ep : Fin 2) (fn : Fin 16) (req : CfgReq) (s : State) : Host.Outcome State Fault Refusal :=
  let s := s.begin
  .next (
    if s.power.inReset || s.dstate == 0 || s.dstate == 6 || s.dstate == 7 || !s.islandOn (27 + ep) then s
    else if s.inRecovery && ep == 0 then
      if s.boot.linkUp = false then s else if fn = 0 then s.cfgServe ep fn req else s.answer .unsupported
    else if s.dstate = 8 ∧ ep = 0 then (if fn = 0 then s.cfgServe ep fn req else s.answer .unsupported)
    else if s.running then s.cfgServe ep fn req
    else s.answer .crs)

/-! ### Cores and memory (R258, R281, R306, R309, R490) -/

/-- May the keeper, or a service hart, access a grain (R306, R490)? -/
def State.grainOk (s : State) (hart : Bool) (g : Nat) (write : Bool) : Bool :=
  let own := s.ownSram g
  (own == ownUNIT && s.unitGrainOk (!hart) write g) || (!hart && (own == ownTRUSTED || decide (own < 16)))

/-- The KIND of the violation by an access of a core to an address of SRAM or DRAM. (DEDUCED, log entries 72, 76) -/
def State.coreKind (s : State) (hart write : Bool) (a : Nat) : Option Nat :=
  if isSram a then (if s.grainOk hart (grainOf a) write then none else some 2)
  else if s.capacity ≤ dramOff a then some 5 else none

/-- The L1 cache of a hart's core holds the lines of an access, which the WORLD_MAP admitted, in its world N (R255). -/
def State.l1Fill (s : State) (h a n : Nat) : State :=
  s.modHart h (fun x => { x with l1 := (((List.range ((a + n - 1) / 64 - a / 64 + 1)).map (fun i => (a / 64 + i, false))) ++ x.l1).eraseDups })

/-- CORE_MEMORY_ACCESS: by the keeper (`none`) or a hart; kind 0 load, 1 store, 2 fetch; a load or fetch of `n` bytes; `t` in µs, for a keeper
restart. Memory bits upset since the last command come first. (DEDUCED, log entry 72; DESIGN CHOICE, log entry 85) -/
def execCoreMemoryAccess (h : Option (Fin 4)) (kind : Fin 3) (a : BitVec 36) (n : Fin 65) (b : List Byte) (t : Nat) (upsets : List (BitVec 36 × Bool))
    (s : State) : Host.Outcome State Fault Refusal :=
  let s := s.begin.upset upsets
  let x := a.toNat
  let write := decide (kind.val = 1)
  let len := if write then b.length else n.val
  let last := x + (len - 1)
  let up : Bool := match h with | none => s.alive .keeper | some i => s.alive (.hart i)
  .next (
    if up = false ∨ len = 0 ∨ (isSram x && isSram last || isDram x && isDram last) = false then s
    else
      let bad (a : Nat) : Option Nat := s.coreKind h.isSome write a
      match (if (bad x).isSome then bad x else bad last) with
      | some k =>
        (match h with
        | none => ({ s with keeperTrap := some (if write then 7 else if kind.val = 2 then 1 else 5) }).answer (if write then .discarded else .errZero)
        | some i => (s.hartViolate i k (if (bad x).isSome then x else last) write (decide (kind.val = 2))).answer (if write then .discarded else .errZero))
      | none =>
        if write then
          match s.memStore x b with
          | (s1, true) => s1.answer .ok
          | (s1, false) => s1.answer .errZero
        else match s.memLoad x len with
          | (s1, some d) => (match h with | some i => s1.l1Fill i x len | none => s1).answer (.bytes d)
          | (s1, none) =>
            let s2 := s1.answer .errZero
            if h.isNone && isSram x && s.grainTrusted (grainOf x) then s2.keeperRestart 3 t else s2)

end Sys2Proof.Machine
end

