-- ==== Sys2Proof/Machine/Calls.lean ====
section
/-! DEFINITION. Machine/Calls.lean: the world-call functions that Zhotor serves (R254), the attestation report (R272), and what the service
firmware does before READY (R420). -/
namespace Sys2Proof.Machine

/-! ### Serving a call (R252 to R254) -/

/-- Argument k of the call of hart `h`. -/
def State.callArg (s : State) (h k : Nat) : Nat := (s.rw (rWC_ARG h k)).toNat

/-- Does a function of the running Zhotor build answer a number (R254)? (DESIGN CHOICE, log entry 42) -/
def servedFn (fn : Nat) : Bool :=
  decide (fn ∈ [0x00, 0x01, 0x02, 0x10, 0x11, 0x20, 0x21, 0x30, 0x7F]) || (decide (0x1000 ≤ fn ∧ fn < 0x2000) && Config.integratorFn fn)

/-- Zhotor, while it is UP, looks at the pending call of hart `h` in its service of function `fn`: a number that no function answers returns NO_FUNC, whatever
the privilege; a U-mode caller is DENIED but for VERSION; `f` has the call's effect and its status. From SAVING on the writes of a service are refused (R441): it has no effect. (DESIGN CHOICE, log entry 42) -/
def State.serveCall (s : State) (h fn : Nat) (f : State → State × Nat) : State :=
  if s.callPending h && s.kstate == kUP then
    if 6 ≤ s.dstate then s.refuse (rWC_RSP h)
    else if servedFn (s.rd (rWC_FN h) fWC_FN_FN) = false then s.callDone h wcNO_FUNC
    else if s.rd (rWC_FN h) fWC_FN_FN ≠ fn then s
    else if s.rd (rWC_FN h) fWC_FN_PRV = 0 ∧ fn ≠ 0 then s.callDone h wcDENIED
    else (f s).1.callDone h (f s).2
  else s

/-- A buffer of `n` bytes at a physical address lies wholly in memory of the normal world. -/
def State.normalBuf (s : State) (a n : Nat) (write : Bool) : Bool :=
  let l := a + n - 1
  ((isSram a && isSram l) || (isDram a && isDram l)) && (s.coreKind true write a).isNone && (s.coreKind true write l).isNone

/-- Its bytes, if Zhotor can read them. (DEDUCED, log entry 45) -/
def State.callRead (s : State) (a n : Nat) : State × Option (List Byte) := if s.normalBuf a n false then s.memLoad a n else (s, none)

/-- VERSION. -/
def execVersion (h : Fin 4) (s : State) : Host.Outcome State Fault Refusal :=
  .next (s.begin.serveCall h 0x00 (fun s =>
    (((s.setRw (rWC_ARG h 1) Config.zhotorVersion).setRw (rWC_ARG h 2) (BitVec.ofNat 64 s.boot.svn)).setRw (rWC_ARG h 3)
      (BitVec.ofNat 64 s.measEpoch), wcOK)))

/-- MEAS_EXTEND. -/
def execMeasExtend (h : Fin 4) (s : State) : Host.Outcome State Fault Refusal :=
  .next (s.begin.serveCall h 0x01 (fun s =>
    let k := s.callArg h 0
    if k < 4 ∨ 7 < k then (s, wcBAD_ARG)
    else match s.callRead (s.callArg h 1) 48 with
      | (s1, some d) => (s1.mrExtend k d, wcOK)
      | (s1, none) => (s1, wcBAD_ARG)))

/-- The ledger public key, 0x04 ‖ X ‖ Y. -/
def ledgerPubBytes : List Byte := (bytesLE 97 Config.ledgerPub.toNat).reverse

/-- BOOT_SRC of a report: 0 eNVM slot A, 1 eNVM slot B, 2 PCIe A, 3 CAN. -/
def State.bootSrc (s : State) : Nat :=
  if s.rd rKPR_BOOT_STAT fKPR_BOOT_STAT_SRC = 0 then s.rd rKPR_BOOT_STAT fKPR_BOOT_STAT_SLOT else s.rd rKPR_BOOT_STAT fKPR_BOOT_STAT_SRC + 1

/-- The attestation report for a nonce (R272). -/
def State.attReport (s : State) (nonce : List Byte) : List Byte :=
  let body := bytesLE 4 0x08804154 ++ bytesLE 2 1 ++ bytesLE 2 s.measEpoch ++ bytesLE 16 Config.deviceId.toNat ++ padTo 32 nonce ++
    bytesLE 1 (b2n Config.provisioned) ++ bytesLE 1 s.bootSrc ++ bytesLE 2 (s.rd rDSTATE fDSTATE_STATE_WORD) ++ bytesLE 4 s.boot.svn ++
    (List.range 8).flatMap (fun k => sigBytes (s.boot.mr.getD k 0)) ++ ledgerPubBytes ++ zerosB 15
  let sig := Config.ecdsaSign 0 (sha384 body)
  body ++ sigBytes sig.1 ++ sigBytes sig.2

/-- ATTEST. -/
def execAttest (h : Fin 4) (s : State) : Host.Outcome State Fault Refusal :=
  .next (s.begin.serveCall h 0x02 (fun s =>
    match s.callRead (s.callArg h 0) 32 with
    | (s1, none) => (s1, wcBAD_ARG)
    | (s1, some nonce) =>
      if s1.normalBuf (s.callArg h 1) 656 true then ((s1.memStore (s.callArg h 1) (s1.attReport nonce)).1, wcOK) else (s1, wcBAD_ARG)))

/-- Is a stall 1 to 15 named that is FREE or RESET? -/
def State.sealState (s : State) (st : Nat) : Bool := s.stallState st == 0 || s.stallState st == 4

/-- SEAL_STALL: SEAL_MASK stands in the boot configuration (R265). (DESIGN CHOICE, log entry 43) -/
def execSealStall (h : Fin 4) (s : State) : Host.Outcome State Fault Refusal :=
  .next (s.begin.serveCall h 0x10 (fun s =>
    let st := s.callArg h 0
    if st = 0 ∨ 15 < st then (s, wcBAD_ARG)
    else if bitOf (numAt s.boot.cfg 0x0A 2) st && s.sealState st then (s.wr (rSCFG st) fSCFG_SEALED 1, wcOK)
    else (s, wcDENIED)))

/-- UNSEAL_STALL. (DESIGN CHOICE, log entry 43) -/
def execUnsealStall (h : Fin 4) (s : State) : Host.Outcome State Fault Refusal :=
  .next (s.begin.serveCall h 0x11 (fun s =>
    let st := s.callArg h 0
    if st = 0 ∨ 15 < st then (s, wcBAD_ARG)
    else if s.sealState st && !s.pitchNames st then (s.wr (rSCFG st) fSCFG_SEALED 0, wcOK)
    else (s, wcDENIED)))

/-- PITCH_CFG: `allowed` says whether Zhotor's policy admits the configuration. A register write that is refused is not committed. (DESIGN CHOICE, log entry 43) -/
def execPitchCfg (h : Fin 4) (allowed : Bool) (s : State) : Host.Outcome State Fault Refusal :=
  .next (s.begin.serveCall h 0x20 (fun s =>
    let p := s.callArg h 0
    let k := s.callArg h 1
    if 7 < p ∨ 15 < k then (s, wcBAD_ARG)
    else match s.callRead (s.callArg h 2) 24 with
      | (s1, none) => (s1, wcBAD_ARG)
      | (s1, some b) =>
        if allowed = false ∨ s1.islandOn (3 + p) = false then (s1, wcDENIED)
        else
          let put (x : State × Bool) (i : Nat) : State × Bool :=
            let s2 := (x.1.answer .ok).regEffect .keeper 0 (rPCFG p k + 4 * i) (BitVec.ofNat 64 (numAt b (4 * i) 4))
            (s2.answer .none, x.2 || s2.resp == .refused)
          let r := (List.range 6).foldl put (s1, false)
          if r.2 then (r.1, wcDENIED) else (r.1.wrPitchCtrl p (putFld 0 fPITCH_CTRL_COMMIT (2 ^ k)), wcOK)))

/-- PITCH_CLR. (DESIGN CHOICE, log entry 43) -/
def execPitchClr (h : Fin 4) (s : State) : Host.Outcome State Fault Refusal :=
  .next (s.begin.serveCall h 0x21 (fun s =>
    let p := s.callArg h 0
    if 7 < p ∨ 0xFFFF < s.callArg h 1 then (s, wcBAD_ARG)
    else if s.islandOn (3 + p) = false then (s, wcDENIED)
    else (s.wrPitchCtrl p (putFld 0 fPITCH_CTRL_CLR (s.callArg h 1)), wcOK)))

/-- CLK_SET: the highest functional clock of an island in kHz, rounded down to steps of 6.25 MHz (R449); `allowed`: Zhotor's policy. (DESIGN CHOICE, log entry 43) -/
def execClkSet (h : Fin 4) (allowed : Bool) (s : State) : Host.Outcome State Fault Refusal :=
  .next (s.begin.serveCall h 0x30 (fun s =>
    let n := s.callArg h 0
    let k := s.callArg h 1 / 6250
    if 30 < n then (s, wcBAD_ARG)
    else match stepRange n with
      | none => (s, wcBAD_ARG)
      | some r =>
        if k < r.1 ∨ r.2 < k then (s, wcBAD_ARG)
        else if s.islTrusted n && allowed then (s.wrIslCtrl n (putFld (s.rw (rISL_CTRL n)) fISL_CTRL_MAX_STEP k), wcOK)
        else (s, wcDENIED)))

/-! ### READY (R254, R434, R463) -/

/-- The entry of a pipe's profile (R419). -/
def profKey (p sub : Nat) : Nat := dkey (0x4080 + 0x100 * p) sub

/-- What AUTOSTART does to a pipe (R420): its profile is written, then START; `t` in root cycles. -/
def State.autoPipe (s : State) (who : Who) (t p : Nat) : State :=
  let put (a v : Nat) (s : State) : State := s.regEffect who t a (BitVec.ofNat 64 v)
  let img (sub i : Nat) : Nat := wordAt (s.dforce (profKey p sub)) i
  let s1 := put (rOUT_TRAIN_CFG p) (img 4 1) (put (rLINK_CFG p) (img 4 0) s)
  let s2 := put (rTMG_CLK p) (img 3 4) (put (rTMG_V1 p) (img 3 3) (put (rTMG_V0 p) (img 3 2) (put (rTMG_H1 p) (img 3 1) (put (rTMG_H0 p) (img 3 0) s1))))
  let s3 := put (rSYNC_SRC p) (img 5 0) s2
  let open_ := s3.pst p == stSTOPPED && decide ((s3.pipe p).stop = .none)
  let s4 := s3.wrPctrl p t (wBit (s3.rw (rPCTRL p)) fPCTRL_START)
  let r := if open_ && decide (s4.pst p ≠ stSTOPPED) then 1 else 0x80 + s4.rd (rTSTAT p) fTSTAT_REJECT
  s4.setDval (profKey p 6) [BitVec.ofNat 8 r]

/-- AUTOSTART: pipes that the firmware may write, in ascending order. (DEDUCED, log entry 44) -/
def State.autoStart (s : State) (who : Who) (t : Nat) : State :=
  overN 8 (fun p s =>
    if s.dforce (profKey p 2) = [1] ∧ s.islandOn (3 + p) = true ∧ s.blkTrusted (0x10 + p) = false ∧ s.blkTrusted (0x18 + p) = false then
      s.autoPipe who t p
    else s) s

/-- READY of hart `h`; `t` in cycles of the 1.6 GHz root clock. (DEDUCED, log entry 44) -/
def execReady (h : Fin 4) (t : Nat) (s : State) : Host.Outcome State Fault Refusal :=
  .next (s.begin.serveCall h 0x7F (fun s =>
    if s.dstate = 3 then
      let s1 := ((s.autoStart (.hart h) t).consumeSave).answer .none
      (s1.toDstate (if s1.rd rDSTATE fDSTATE_STATE_WORD / 256 % 8 = 0 then 4 else 5), wcOK)
    else (s, wcOK)))

end Sys2Proof.Machine
end

