-- ==== Sys2Proof/Machine/Operation.lean ====
section
/-! DEFINITION. Machine/Operation.lean: messages that the device originates, long operations (R397 to R402), fleet marks (R395, R396). -/
namespace Sys2Proof.Machine

/-! ### Frames and datagrams (R377, R380 to R384) -/

/-- The largest payload of one segment without a trailer (R380). -/
def segPay : SmVia → Nat
  | .can _ => 60
  | .udp _ _ => 1224
  | .mailbox _ => 1016
  | .keeper => 8194

/-- A CAN FD data field is padded with zeros to a permitted length. -/
def canPad (b : List Byte) : List Byte :=
  let n := b.length
  let k := if n ≤ 8 then n else if n ≤ 12 then 12 else if n ≤ 16 then 16 else if n ≤ 20 then 20 else if n ≤ 24 then 24 else if n ≤ 32 then 32
    else if n ≤ 48 then 48 else 64
  b ++ zerosB (k - n)

/-- The segments of a payload, one at least. -/
def segments (size : Nat) : Nat → List Byte → List (List Byte)
  | 0, b => [b]
  | k + 1, b => if b.length ≤ size then [b] else b.take size :: segments size k (b.drop size)

/-- The device's link-local address, by modified EUI-64 from its MAC address (R384). -/
def linkLocal : BitVec 128 :=
  let m := Config.mac.toNat
  BitVec.ofNat 128 (0xFE80 * 2 ^ 112 + ((m / 2 ^ 24) ^^^ 0x020000) * 2 ^ 40 + 0xFFFE * 2 ^ 24 + m % 2 ^ 24)
/-- The address of broadcasts: ff02::1. -/
def allNodes : BitVec 128 := BitVec.ofNat 128 (0xFF02 * 2 ^ 112 + 1)
/-- IP6_ADDR in force, where it is not all zeros. -/
def State.ip6 (s : State) : Option (BitVec 128) :=
  let a := BitVec.ofNat 128 (ofBytesBE (s.dforce (dkey 0x1100 9)))
  if a = 0 then none else some a

/-- The 29-bit identifier of a frame (R382). -/
def canId (prio svc dest src : Nat) : Nat := prio * 2 ^ 26 + svc * 2 ^ 20 + dest * 2 ^ 13 + src * 2 ^ 6
/-- The prefix of a datagram or a mailbox message (R384). -/
def msgPrefix (prio svc dest src : Nat) : List Byte := [BitVec.ofNat 8 prio, BitVec.ofNat 8 svc, BitVec.ofNat 8 dest, BitVec.ofNat 8 src]

/-- A message as its way carries it to `dest`, back on the way `via`; what came to ff02::1 is answered from the link-local address. (DESIGN CHOICE, log entries 58, 103) -/
def wire (via : SmVia) (prio svc dest own : Nat) (msg : List Byte) : Out :=
  match via with
  | .can b => .canFrame b (canId prio svc dest own) (canPad msg)
  | .udp src dst => .datagram (if dst = allNodes then linkLocal else dst) src (msgPrefix prio svc dest own ++ msg)
  | _ => .keeperMsg msg

/-- The four bytes of a header without a trailer (R377). -/
def smHeader (alive trans seg status : Nat) (more resp : Bool) : List Byte :=
  [BitVec.ofNat 8 (alive * 16 + b2n more * 4 + b2n resp), BitVec.ofNat 8 trans, BitVec.ofNat 8 seg, BitVec.ofNat 8 status]

/-- A message in its segments: the first goes out, the others wait for the bus (R388). `src` is the source that a response answers. (DESIGN CHOICE, log entry 106) -/
def State.transmit (s : State) (src : Option Nat) (via : SmVia) (prio svc dest own alive trans status : Nat) (resp : Bool) (pl : List Byte) : State :=
  let segs := segments (segPay via) pl.length pl
  let outs := segs.zipIdx.map (fun p => wire via prio svc dest own (smHeader alive trans p.2 status (decide (p.2 + 1 < segs.length)) resp ++ p.1))
  match outs with
  | [] => s
  | o :: rest => (s.emit o).modSm (fun x => { x with tx := x.tx ++ rest.map (fun r => (src, r)) })

/-! ### Messages to a node (R378, R386) -/

/-- The device's alive counter toward a node (its heartbeats: 256), which advances with each message. -/
def State.originate (s : State) (node : Nat) : State × Nat :=
  let a := storeGet (fun _ => 0) s.sm.devAlive node
  (s.modSm (fun x => { x with devAlive := storePut (fun _ => 0) x.devAlive node ((a + 1) % 16) }), a)

/-- Every way that COMM_EN enables, to all nodes. -/
def State.everyWay (s : State) : List SmVia :=
  (if bitOf s.commEn 0 then [.can 0] else []) ++ (if bitOf s.commEn 1 then [.can 1] else []) ++
    (if bitOf s.commEn 2 then [.udp allNodes linkLocal] else [])

/-- A NOTIFY to a fleet host, with PRIO 2: by the way on which the host was last heard, else by every way. TRANS is open. (DESIGN CHOICE, log entry 106) -/
def State.notify (s : State) (host idx sub : Nat) (data : List Byte) : State :=
  let r := s.useFree.originate host
  let pl := bytesLE 2 idx ++ bytesLE 1 sub ++ [0] ++ bytesLE 2 data.length ++ data
  let ways := match storeGet (fun _ => none) s.sm.route host with | some v => [v] | none => s.everyWay
  ways.foldl (fun v w => v.transmit none w 2 0x10 host s.nodeId r.2 (s.free.toNat % 256) 0 false pl) r.1

/-! ### Status codes (R379) -/
def smOK : Nat := 0
def smBUSY : Nat := 1
def smNO_ENTRY : Nat := 2
def smDENIED : Nat := 3
def smAUTH : Nat := 4
def smRANGE : Nat := 5
def smSTATE : Nat := 6
def smLENGTH : Nat := 7
def smNO_SERVICE : Nat := 8
def smSEQUENCE : Nat := 9

/-! ### States and results of an operation (R397) -/
def opIDLE : Nat := 0
def opRUNNING : Nat := 1
def opSUSPENDED : Nat := 2
def opDONE : Nat := 3
def opFAILED : Nat := 4
def opCANCELLED : Nat := 5

/-- The operations by number (R399). -/
def opRETRAIN : Nat := 0
def opSCRUB : Nat := 1
def opSTAGE : Nat := 2
def opEXPORT : Nat := 3
def opRECAL : Nat := 4
def opPATTERN : Nat := 5
def opCOMPACT : Nat := 6

/-- Has an operation suspend points? -/
def opSuspends (k : Nat) : Bool := decide (k ∈ [opSCRUB, opSTAGE, opEXPORT, opCOMPACT])

/-- Byte i of an argument. -/
def argB (arg : List Byte) (i : Nat) : Nat := (arg.getD i 0).toNat

/-- A run ends: STATE, RESULT, and a NOTIFY to an owner of class fleet host (R398). (DEDUCED, log entry 65) -/
def State.opEnd (s : State) (k state code detail : Nat) : State :=
  let o := s.op k
  let r := 2 ^ 24 * code + detail % 2 ^ 24
  let s1 := (s.modOp k (fun o => { o with state := state, result := r, progress := if state = opDONE then 1000 else o.progress, pend := 0 })).modSm
    (fun x => { x with stageLen := if k = opSTAGE then 0 else x.stageLen })
  if o.owner / 256 = clsFLEET then s1.notify (o.owner % 256) (0xA000 + k) 2 (bytesLE 1 state ++ bytesLE 4 r) else s1

/-! ### Firmware stage and verify (R400) -/

/-- The staged image. -/
def State.staged (s : State) : List Byte := storeBytes (fun _ => 0) s.sm.stage 0 s.sm.stageLen

/-- The first sector and the number of sectors of a slot: kind 0 Zhotor, 1 service firmware (R266). -/
def slotSector (kind slot : Nat) : Nat := if kind = 0 then 32 * slot else fwSector slot
def slotSectors (kind : Nat) : Nat := if kind = 0 then 32 else 48

/-- Every sector of a slot is erased. -/
def State.eraseSlot (s : State) (kind slot : Nat) : State :=
  overN (slotSectors kind) (fun i s => s.eraseSector (slotSector kind slot + i)) s

/-- The next sector of the target slot, number `check` of the run, is erased and programmed. -/
def State.stageSector (s : State) : State :=
  let o := s.op opSTAGE
  let i := o.check
  if i < slotSectors (argB o.arg 0) then
    let k := slotSector (argB o.arg 0) (argB o.arg 1) + i
    let lines := ((saveLines s.staged).drop (128 * i)).take 128
    (overN lines.length (fun j s => s.programLine (k * 128 + j) (lines.getD j [])) (s.eraseSector k)).modOp opSTAGE
      (fun o => { o with check := i + 1 })
  else s

/-- Is a staged service firmware image well formed (R266)? -/
def fwImageOk (b : List Byte) : Bool :=
  let size := numAt b 8 4
  numAt b 0 4 == 0x08805346 && size % 64 == 0 && decide (64 ≤ size ∧ size ≤ 3 * 2 ^ 20 - 64 ∧ 64 + size ≤ b.length) && allZero (sliceB b 12 52)

/-- Why the staged image fails: the reason of R264 for Zhotor; 0 where it passes. -/
def State.stageReason (s : State) : Nat :=
  if argB (s.op opSTAGE).arg 0 = 0 then imageReason s.staged Config.rootKeyHash else if fwImageOk s.staged then 0 else 1
/-- A staged image that fails ends the run. -/
def State.stageFailed (s : State) : State :=
  s.opEnd opSTAGE opFAILED 5 (if argB (s.op opSTAGE).arg 0 = 0 then s.stageReason else 0)

/-- The end of a run, its sectors programmed: the slot is read back. -/
def State.stageRun (s : State) : State :=
  let arg := (s.op opSTAGE).arg
  let kind := argB arg 0
  let base := slotSector kind (argB arg 1)
  let b := s.staged
  if s.stageReason ≠ 0 then s.stageFailed
  else
    if s.envRead (65536 * base) b.length = b ∧ !(s.nvm.retired.any (fun k => decide (base ≤ k ∧ k < base + slotSectors kind))) then
      (if kind = 1 then s.setDval (dkey 0xA002 9) (sha384B b) else s).opEnd opSTAGE opDONE 0 0
    else s.opEnd opSTAGE opFAILED 5 0

/-! ### Ledger export (R401) -/

/-- The next message of up to 16 slots. -/
def State.exportSend (s : State) : State :=
  match s.sm.exprt with
  | none => s
  | some x =>
    let n := min 16 (s.ringDist x.first x.limit)
    let slots := (List.range n).map (fun i => (x.first + i) % s.ringSize)
    let data := bytesLE 2 x.first ++ slots.flatMap s.ringSlot
    ((s.ringTouch slots).modSm (fun y => { y with exprt := some { x with sent := n } })).notify ((s.op opEXPORT).owner % 256) 0xA003 8 data

/-- Between messages: the run ends, is cancelled or suspended, or goes on. -/
def State.exportNext (s : State) : State :=
  match s.sm.exprt with
  | none => s
  | some x =>
    let close (s : State) : State := s.modSm (fun y => { y with exprt := none })
    if s.ringDist x.first x.limit = 0 then (close s).opEnd opEXPORT opDONE 0 x.acked
    else if bitOf (s.op opEXPORT).pend 1 then (close s).opEnd opEXPORT opCANCELLED 1 x.acked
    else if bitOf (s.op opEXPORT).pend 0 then s.modOp opEXPORT (fun o => { o with state := opSUSPENDED, pend := 0, atPoint := true, check := x.first })
    else s.exportSend

/-- A run starts: the slots from LG_ACK up to LG_WR. -/
def State.exportStart (s : State) : State :=
  (s.modSm (fun y => { y with exprt := some ⟨s.ringAck, s.ringWr, 0, 0, 0⟩ })).exportNext

/-- EXPORT_ACK is written by the run's owner: LG_ACK takes the value under R146, and the next message follows; a value past the sampled LG_WR leaves
none. -/
def State.exportAck (s : State) (owner v : Nat) : State × Nat :=
  match s.sm.exprt with
  | none => (s, smSTATE)
  | some x =>
    if (s.op opEXPORT).state ≠ opRUNNING ∨ (s.op opEXPORT).owner ≠ owner then (s, smSTATE)
    else
      let n := s.ringDist s.ringAck v
      let next := if s.ringDist x.first x.limit < s.ringDist x.first v then x.limit else v
      let s1 := (s.answer .none).wrLgAck (putFld 0 fLG_ACK_INDEX v)
      if 0xFFFF < v ∨ s1.resp = .refused then (s1.answer .none, smSTATE)
      else (((s1.answer .none).modSm (fun y => { y with exprt := some { x with first := next, tries := 0, acked := x.acked + n } })).exportNext, smOK)

/-- EXPORT_ACK_TIMEOUT: the message is sent again, and after 3 repeats the run ends FAILED. -/
def execExportAckTimeout (s : State) : Host.Outcome State Fault Refusal :=
  let s := s.begin
  .next (s.guard (s.running && (s.op opEXPORT).state == opRUNNING) (fun s =>
    match s.sm.exprt with
    | none => s
    | some x =>
      if x.tries < 3 then (s.modSm (fun y => { y with exprt := some { x with tries := x.tries + 1 } })).exportSend
      else (s.modSm (fun y => { y with exprt := none })).opEnd opEXPORT opFAILED 5 x.acked))

/-! ### Starting, suspending, resuming, cancelling (R398, R399) -/

/-- Is an argument in range? -/
def argInRange (k : Nat) (arg : List Byte) : Bool :=
  if k = opRETRAIN then decide (argB arg 0 ≤ 3)
  else if k = opSTAGE then decide (argB arg 0 ≤ 1 ∧ argB arg 1 ≤ 1)
  else if k = opRECAL then decide (argB arg 0 ≤ 7)
  else if k = opPATTERN then decide (argB arg 0 ≤ 7 ∧ argB arg 1 ≤ 7 ∧ argB arg 2 ≤ 2 ∧ 1 ≤ argB arg 3)
  else true

/-- Does an argument pass the operation's own checks? -/
def State.argChecks (s : State) (k : Nat) (arg : List Byte) : Bool :=
  if k = opRETRAIN then s.mcState (argB arg 0) == mcRUNNING
  else if k = opSTAGE then
    (if argB arg 0 = 0 then s.slotReason (1 - argB arg 1) == 0 else s.fwValid (1 - argB arg 1))
  else if k = opRECAL then s.tpOn (argB arg 0)
  else if k = opPATTERN then s.pst (argB arg 0) == stRUNNING && s.layerGranted 0 (argB arg 0) (argB arg 1)
  else true

/-! ### The full scrub pass (R300, R301) -/

/-- A pass begins, or goes on, at the rate of the operation or at the periodic one. -/
def State.scrubPass (s : State) (from_ pass bad : Nat) (fast : Bool) : State :=
  ({ s with mem := { s.mem with patrol := from_, opPass := pass, opBad := bad } }.wr rSCRUB_STAT fSCRUB_STAT_FAST (b2n fast)).showScrub
/-- The pass goes on at the periodic rate, or no longer belongs to the operation. -/
def State.scrubSlow (s : State) (pass : Nat) : State := s.scrubPass s.mem.patrol pass s.mem.opBad false

/-- The operation starts a pass; with no region that has ECC it has none to make. -/
def State.scrubBegin (s : State) : State :=
  if s.eccRegions.isEmpty then s.opEnd opSCRUB opDONE 0 0 else s.scrubPass ((s.patrolFrom 0).getD 0) 1 0 true
/-- RESUME: the pass goes on, after a restart from its checkpoint; one that ended meanwhile ends the operation. -/
def State.scrubResume (s : State) : State :=
  if s.mem.opPass = 2 then (s.scrubSlow 0).opEnd opSCRUB opDONE 0 s.mem.opBad
  else if s.mem.opPass = 1 then s.scrubPass s.mem.patrol 1 s.mem.opBad true
  else s.scrubPass (s.op opSCRUB).check 1 0 true

/-- PATROL_SCRUB_STEP, after the upsets of memory bits since the last command: the next block; suspended under panic. The operation's pass ends with
the last block; at a 64 KiB boundary CANCEL comes before SUSPEND. (DEDUCED, log entries 51, 65; DESIGN CHOICE, log entry 85) -/
def execPatrolScrubStep (upsets : List (BitVec 36 × Bool)) (s : State) : Host.Outcome State Fault Refusal :=
  let s := s.begin.upset upsets
  .next (s.guard s.scrubRuns (fun s =>
    let (s1, bad, done) := s.patrolStep
    if s.mem.opPass ≠ 1 then s1
    else
      let s2 := { s1 with mem := { s1.mem with opBad := s1.mem.opBad + b2n bad } }
      let running := (s.op opSCRUB).state == opRUNNING
      if done then (if running then (s2.scrubSlow 0).opEnd opSCRUB opDONE 0 s2.mem.opBad else s2.scrubSlow 2)
      else if running && decide (s2.mem.patrol % 65536 = 0) then
        let s3 := s2.modOp opSCRUB (fun o => { o with progress := s2.rd rSCRUB_STAT fSCRUB_STAT_PROGRESS, check := s2.mem.patrol, atPoint := true })
        if bitOf (s.op opSCRUB).pend 1 then (s3.scrubSlow 0).opEnd opSCRUB opCANCELLED 1 s2.mem.opBad
        else if bitOf (s.op opSCRUB).pend 0 then (s3.scrubSlow 1).modOp opSCRUB (fun o => { o with state := opSUSPENDED, pend := 0 })
        else s3
      else s2.modOp opSCRUB (fun o => { o with atPoint := o.atPoint && !running })))

/-! ### Compaction (R317) -/

/-- The next full sector is compacted; `check` counts those that were freed. -/
def State.compactNext (s : State) : State :=
  match (s.op opCOMPACT).todo with
  | [] => s
  | k :: rest =>
    let s1 := s.compactSector k
    s1.modOp opCOMPACT (fun o => { o with todo := rest, check := o.check + b2n !(s1.fullSectors.contains k) })

/-- What an operation does first: the retrain and the recalibration are written, the export sends its first message, the scrub pass starts, the compaction
takes the sectors that are full, and the pattern takes its layer's place from the next frame on. -/
def State.opBegin (s : State) (k : Nat) (arg : List Byte) : State :=
  if k = opRETRAIN then (s.wrMcCtrl (argB arg 0) (wBit 0 fMC_CTRL_RETRAIN)).modOp k (fun o => { o with cancellable := false })
  else if k = opRECAL then
    let x := s.panel (argB arg 0)
    (s.wrTpCtrl (argB arg 0) (wBit 0 fTP_CTRL_RECAL)).modOp k (fun o => { o with cancellable := false, check := (x.count + 1 + b2n x.scan.isSome) % 2 ^ 32 })
  else if k = opEXPORT then s.exportStart
  else if k = opSCRUB then s.scrubBegin
  else if k = opCOMPACT then s.modOp k (fun o => { o with todo := s.fullSectors })
  else if k = opPATTERN then s.modPipe (argB arg 0) (fun x => { x with pattern := some (argB arg 1, argB arg 2, argB arg 3), patShown := 0 })
  else s

/-- START by a requester of a class and source. (DEDUCED, log entry 65; DESIGN CHOICE, log entry 66) -/
def State.opStart (s : State) (k c src : Nat) (arg : List Byte) : State × Nat :=
  let st := (s.op k).state
  if k = opEXPORT ∧ c ≠ clsFLEET then (s, smDENIED)
  else if st = opRUNNING ∨ st = opSUSPENDED then (s, smSTATE)
  else if argInRange k arg = false then (s, smRANGE)
  else if s.argChecks k arg = false then (s.modOp k (fun o => { o with result := 4 * 2 ^ 24 }), smSTATE)
  else ((s.modOp k (fun _ => { state := opRUNNING, arg := padTo 32 arg, owner := c * 256 + src })).opBegin k arg, smOK)

/-- SUSPEND. -/
def State.opSuspend (s : State) (k : Nat) : State × Nat :=
  if (s.op k).state = opRUNNING ∧ opSuspends k = true then (s.modOp k (fun o => { o with pend := setBitN o.pend 0 true }), smOK) else (s, smSTATE)

/-- RESUME. -/
def State.opResume (s : State) (k : Nat) : State × Nat :=
  if (s.op k).state = opSUSPENDED then
    let s1 := s.modOp k (fun o => { o with state := opRUNNING, pend := 0 })
    if k = opEXPORT then (match s.sm.exprt with | some _ => s1.exportNext | none => s1.exportStart, smOK)
    else if k = opSCRUB then (s1.scrubResume, smOK)
    else if k = opCOMPACT ∧ (s.op k).todo = [] then (s1.modOp k (fun o => { o with todo := s.fullSectors }), smOK)
    else (s1, smOK)
  else (s, smSTATE)

/-- A cancelled run is rolled back (R399). -/
def State.opRollback (s : State) (k : Nat) : State :=
  if k = opSTAGE then s.eraseSlot (argB (s.op k).arg 0) (argB (s.op k).arg 1)
  else if k = opPATTERN then s.modPipe (argB (s.op k).arg 0) (fun x => { x with pattern := none })
  else if k = opEXPORT then s.modSm (fun y => { y with exprt := none })
  else if k = opSCRUB then s.scrubSlow 0
  else s
/-- The DETAIL of a cancelled run (R399). -/
def State.cancelDetail (s : State) (k : Nat) : Nat :=
  if k = opEXPORT then (match s.sm.exprt with | some x => x.acked | none => 0)
  else if k = opSCRUB then s.mem.opBad
  else if k = opCOMPACT then (s.op k).check
  else if k = opPATTERN then (s.pipe (argB (s.op k).arg 0)).patShown
  else 0
def State.opCancelled (s : State) (k : Nat) : State :=
  (s.opRollback k).opEnd k opCANCELLED 1 (s.cancelDetail k)

/-- Sectors of an operation that are not done yet, the one in progress among them. -/
def State.piecesLeft (s : State) (k : Nat) : Nat :=
  if k = opSTAGE then slotSectors (argB (s.op k).arg 0) - (s.op k).check else if k = opCOMPACT then (s.op k).todo.length else 0

/-- Does a cancel point of a running operation remain (R398, R399): a boundary between sectors, messages or 64 KiB parts of the scrub pass, or a latch
point of the pattern's frames? -/
def State.cancelLeft (s : State) (k : Nat) : Bool :=
  (s.op k).cancellable &&
    (if k = opSTAGE ∨ k = opCOMPACT then decide (2 ≤ s.piecesLeft k)
     else if k = opEXPORT then (match s.sm.exprt with | some x => decide (x.sent < s.ringDist x.first x.limit) | none => false)
     else if k = opSCRUB then (s.patrolFrom ((s.mem.patrol / 65536 + 1) * 65536)).isSome
     else if k = opPATTERN then (s.pipe (argB (s.op k).arg 0)).pattern.isSome
     else true)

/-- CANCEL: of a suspended run at once, of a running one at its next cancel point. (DEDUCED, log entry 65) -/
def State.opCancel (s : State) (k : Nat) : State × Nat :=
  if (s.op k).state = opSUSPENDED then (s.opCancelled k, smOK)
  else if (s.op k).state = opRUNNING ∧ s.cancelLeft k = true then (s.modOp k (fun o => { o with pend := setBitN o.pend 1 true }), smOK)
  else (s, smSTATE)

/-! ### Points and ends -/

/-- The piece of work that a point ends: a sector programmed, or compacted. -/
def State.opPiece (s : State) (k : Nat) : State :=
  if k = opCOMPACT then s.compactNext else if k = opSTAGE then s.stageSector else s

/-- A sector is done, or a latch point is reached; between sectors, and at the latch point, CANCEL applies before SUSPEND (R398, R404). (DEDUCED, log entry 65) -/
def State.opPoint (s : State) (k progress : Nat) : State :=
  if k = opSTAGE ∧ s.stageReason ≠ 0 then s.stageFailed
  else
    let s0 := s.opPiece k
    let between := k == opPATTERN || s0.piecesLeft k != 0
    let s1 := s0.modOp k (fun o => { o with progress := progress, atPoint := opSuspends k && between })
    if between = false then s1
    else if bitOf (s.op k).pend 1 then s1.opCancelled k
    else if bitOf (s.op k).pend 0 then s1.modOp k (fun o => { o with state := opSUSPENDED, pend := 0 })
    else s1

/-- The work of an operation ends, once all its sectors, frames or scans are done; `detail` is what the work found, where the state does not tell it. (DEDUCED, log entry 65) -/
def State.opWorkEnd (s : State) (k detail : Nat) : State :=
  let arg := (s.op k).arg
  if k = opRETRAIN then
    let m := s.mcState (argB arg 0)
    if m = mcRETRAIN then s else if m = mcFENCED then s.opEnd k opFAILED 5 m else s.opEnd k opDONE 0 m
  else if k = opSTAGE then (if s.piecesLeft k ≠ 0 ∧ s.stageReason = 0 then s else s.stageRun)
  else if k = opEXPORT then s
  else if k = opRECAL then
    (if since32 (s.op k).check (s.panel (argB arg 0)).count ∈ [1, 2] then s else s.opEnd k opDONE 0 (s.rd (rTP_STAT (argB arg 0 / 2) (argB arg 0 % 2)) fTP_STAT_STATE))
  else if k = opPATTERN then
    (if (s.pipe (argB arg 0)).patShown < argB arg 3 then s else s.opEnd k opDONE 0 (argB arg 3))
  else if k = opCOMPACT then
    (if s.piecesLeft k ≠ 0 then s else s.opEnd k opDONE 0 (s.op k).check)
  else s.opEnd k opDONE 0 detail

/-- LONG_OPERATION_END: `ev` 0 a suspend or cancel point on the way, 1 the end of the work, 2 its failure. (DEDUCED, log entry 65) -/
def execLongOperationEnd (k : Fin 7) (ev : Fin 3) (progress : Fin 1001) (detail : BitVec 24) (s : State) :
    Host.Outcome State Fault Refusal :=
  let s := s.begin
  .next (s.guard (s.running && (s.op k).state == opRUNNING) (fun s =>
    if k.val = opSCRUB then (if ev.val = 2 then (s.scrubSlow 0).opEnd k opFAILED 5 s.mem.opBad else s)
    else if ev.val = 0 then
      (let x := s.pipe (argB (s.op k).arg 0)
       if k.val = opEXPORT ∨ k.val = opRETRAIN ∨ k.val = opRECAL ∨ (k.val = opPATTERN ∧ (x.latched && !x.vblank) = false) then s else s.opPoint k progress)
    else if ev.val = 1 then s.opWorkEnd k detail.toNat
    else if k.val = opEXPORT ∨ k.val = opRETRAIN then s
    else (if k.val = opPATTERN then s.opRollback k else s).opEnd k opFAILED 5 detail.toNat))

/-! ### Fleet marks (R395, R396) -/

/-- A WRITE of MARK at time `t` (µs). -/
def State.markWrite (s : State) (p t : Nat) : State × Nat :=
  if s.pst p = stRUNNING then (s.modSm (fun x => { x with mark := some { pipe := p, at_ := t }, markValid := false }), smOK)
  else (s.modSm (fun x => { x with markValid := false }), smSTATE)

/-- A WRITE of ARM_AFTER_MARK. -/
def State.armWrite (s : State) (n : Nat) : State × Nat :=
  match s.sm.mark with
  | some k => (s.modSm (fun x => { x with mark := some { k with arm := some n } }), smOK)
  | none =>
    let p := s.sm.markPipe
    let f := s.dnum 0x9010 2
    if s.sm.markValid = false ∨ s.armTooLate p f n (s.pipe p).line then (s, smSTATE)
    else (s.armAfterMark p f n (s.pipe p).line, smOK)

end Sys2Proof.Machine
end

