-- ==== Sys2Proof/Machine/Entries.lean ====
section
/-! DEFINITION. Machine/Entries.lean: what an entry of the object dictionary reads as and what a write of it does: register mirrors (R413 to R416,
R422), dictionary-only entries (R397, R405, R417 to R430), access per requester class (R376, R410 to R412). -/
namespace Sys2Proof.Machine

/-! ### Mirrors (R413, R414, R422) -/

/-- The register address that a mirror entry names. -/
def mirrorAddr (idx sub : Nat) : Option Nat :=
  let at_ (base blk lim : Nat) : Option Nat :=
    let off := (idx - base) * 1024 + 4 * sub
    if off < lim then some (blkAddr blk off) else none
  if 0x2000 ≤ idx ∧ idx ≤ 0x2003 then at_ 0x2000 0x00 0x1000
  else if 0x3000 ≤ idx ∧ idx ≤ 0x3003 then at_ idx (0x08 + (idx - 0x3000)) 0x400
  else if idx = 0x3010 then at_ idx 0x05 0x400
  else if idx = 0x3011 then at_ idx 0x06 0x400
  else if 0x3020 ≤ idx ∧ idx < 0x3030 then at_ (idx / 4 * 4) (0x28 + (idx - 0x3020) / 4) 0xC00
  else if 0x3030 ≤ idx ∧ idx < 0x3038 then at_ (idx / 4 * 4) (0x2C + (idx - 0x3030) / 4) 0xC00
  else if 0x4000 ≤ idx ∧ idx < 0x4800 then
    let p := (idx - 0x4000) / 0x100
    if idx % 0x100 < 0x20 then at_ (0x4000 + 0x100 * p) (0x10 + p) 0x5800
    else if idx % 0x100 = 0x20 then at_ idx (0x18 + p) 0x400
    else none
  else if idx = 0x5000 then at_ idx 0x20 0x400
  else if 0x5010 ≤ idx ∧ idx ≤ 0x5013 then at_ idx (0x21 + (idx - 0x5010)) 0x400
  else if 0x6000 ≤ idx ∧ idx < 0x6080 then at_ (idx / 0x20 * 0x20) (0x30 + (idx - 0x6000) / 0x20) 0x5000
  else if 0x6100 ≤ idx ∧ idx ≤ 0x6101 then at_ 0x6100 0x34 0x800
  else if 0x7000 ≤ idx ∧ idx < 0x7400 then
    let st := (idx - 0x7000) / 0x40
    if idx % 0x40 = 0 ∧ sub < 64 then some (blkAddr 0x40 (0x1000 + 0x100 * st + 4 * sub))
    else if idx % 0x40 = 1 ∧ sub < 8 then some (blkAddr 0x40 (0xA100 + 0x20 * st + 4 * sub))
    else if idx % 0x40 = 2 ∧ sub < 128 then some (blkAddr 0x40 (0x8000 + 0x200 * st + 4 * sub))
    else none
  else if 0x7400 ≤ idx ∧ idx ≤ 0x742B then at_ 0x7400 0x40 0xB000
  else if 0x8010 ≤ idx ∧ idx ≤ 0x8011 then at_ 0x8010 0x02 0x800
  else if idx = 0x9000 then at_ idx 0x01 0x400
  else if 0x9100 ≤ idx ∧ idx < 0x9200 ∧ blkAssigned (idx - 0x9100) ∧ sub < 64 then some (blkAddr (idx - 0x9100) (0xFF00 + 4 * sub))
  else if idx = 0xB000 then at_ idx 0x0C 0x400
  else none

/-- The register of a mirror entry. -/
def mirrorReg (idx sub : Nat) : Option (Nat × RegDef) :=
  match mirrorAddr idx sub with
  | none => none
  | some a => (lookupReg a).map (fun r => (a, r.1))

/-- A register's access. -/
def RegDef.acc (d : RegDef) : DAcc :=
  if d.readOnly then .ro else if d.fields.all (fun f => f.acc == .wo) then .wo else .rw

/-- The access of the manager to a register (R416). -/
def State.mgrAcc (s : State) (a : Nat) (d : RegDef) : DAcc :=
  if s.blkTrusted (blkIdOf a) && !(openRead a) && !(fixedItem a) then .none
  else if fixedItem a || (match clkCtrlAt a with | some n => s.islTrusted n | none => false) then (if d.acc = .wo then .none else .ro)
  else d.acc

/-- May fleet hosts write the mirrors of an index (R412)? -/
def State.fleetWr (s : State) (idx : Nat) : Bool :=
  decide (idx / 0x1000 ∈ [2, 3, 4, 5, 6, 9, 11]) && bitOf (s.dnum 0x1100 0x0A) (idx / 0x1000)

/-- The access of a requester to a mirror: class, and for class stall its stall. -/
def State.mirrorAcc (s : State) (c st idx a : Nat) (d : RegDef) : DAcc :=
  if c = clsKEEPER then d.acc
  else if c = clsMANAGER then s.mgrAcc a d
  else if c = clsSTALL then (if 0x7000 ≤ idx ∧ idx < 0x7400 ∧ (idx - 0x7000) / 0x40 = st then .ro else .none)
  else match s.mgrAcc a d with
    | .rw => if s.fleetWr idx then .rw else .ro
    | .wo => if s.fleetWr idx then .wo else .none
    | x => x

/-- Can the keeper not serve: RESTARTING or LOST (R411)? -/
def State.keeperAway (s : State) : Bool := s.kstate == kRESTARTING || s.kstate == kLOST

/-- READ of a mirror (R415): the register is read. -/
def State.mirrorRead (s : State) (a : Nat) (stale : Bool) : State × Nat × W64 :=
  if decide (a % 0x10000 < 0xFF00) && !(s.islandOn (islandOf (refBlk a))) then ((s.refuseOff a false).answer .none, smSTATE, 0)
  else
    let s1 := if a = rKEVT then s.readKevt 0 else s.readWord a stale
    match s1.resp with
    | .data v => (s1.answer .none, smOK, v)
    | _ => (s1.answer .none, smSTATE, 0)

/-- WRITE of a mirror at time `t` (µs): the register is written; a refused write is answered STATE and leaves the register as it was, in all its fields (R415). -/
def State.mirrorWrite (s : State) (who : Who) (t a : Nat) (v : W64) : State × Nat :=
  if decide (a % 0x10000 < 0xFF00) && !(s.islandOn (islandOf (refBlk a))) then ((s.refuseOff a true).answer .none, smSTATE)
  else
    let s0 := s.answer .ok
    let s1 := if isWide a then s0.takeWide who (t * 1600) a v else s0.regEffect who (t * 1600) a v
    if s1.resp = .refused then (((if s1.rw a = s.rw a then s1 else s.refuse a)).answer .none, smSTATE) else (s1.answer .none, smOK)

/-! ### Dictionary-only entries -/

/-- Its stall. -/
def Req.stall (q : Req) : Nat := q.src - 0x80

/-- The access of a requester to a dictionary-only entry; a stall sees its own name (R422). -/
def Req.acc (q : Req) (key : Nat) (e : DEntry) : DAcc :=
  if q.cls = clsSTALL ∧ 0x701000 ≤ key ∧ key < 0x740000 ∧ key / 256 % 0x40 = 0x10 then
    (if (key / 256 - 0x7000) / 0x40 = q.stall then .ro else .none)
  else e.accOf q.cls

/-- The security entries, which the keeper serves (R411, R423). -/
def keeperServed (idx : Nat) : Bool := decide (idx = 0x8000)

/-- The items of a tally list, up to the first with INDEX 0 (R425): INDEX and SUB. -/
def tsItems (b : List Byte) : List (Nat × Nat) :=
  ((List.range 64).map (fun i => (ofBytesLE ((b.drop (3 * i)).take 2), (b.getD (3 * i + 2) 0).toNat))).takeWhile (fun x => x.1 != 0)

/-- The shadow slot that an item names. -/
def tsSlot (x : Nat × Nat) : Option (Nat × RegDef) :=
  match mirrorReg x.1 x.2 with
  | some (a, d) => if d.kind = .plain then none else some (a, d)
  | none => none

/-- TS_LIST of a source. -/
def State.tsListOf (s : State) (src : Nat) : List Byte :=
  match storeGet (fun _ => []) s.sm.tsList src with
  | [] => zerosB 192
  | b => b

/-- TS_READ: the sequence of R35 over the list; BUSY while a tally runs; DENIED where the requester may not read a slot. -/
def State.tsRead (s : State) (q : Req) : Nat × List Byte :=
  let items := tsItems (s.tsListOf q.src)
  let ok (x : Nat × Nat) : Bool := match tsSlot x with
    | some (a, d) => (s.mirrorAcc q.cls q.stall x.1 a d).canRead
    | none => false
  if s.tallyBusy then (smBUSY, [])
  else if items.all ok = false then (smDENIED, [])
  else (smOK, padTo 516 (bytesLE 2 (s.rd rTALLY_STAT fTALLY_STAT_EPOCH) ++ bytesLE 2 items.length ++
    items.flatMap (fun x => match tsSlot x with | some (a, _) => bytesLE 8 (s.rw a).toNat | none => [])))

/-- The highest temperature of the last poll, in 1/16 °C. -/
def State.tempMax (s : State) : Int := match s.sm.temps with | [] => 0 | x :: l => l.foldl max x

/-- The value of a counter of the dictionary, as the last tally captured it (R12). -/
def State.dictCnt (s : State) (sub : Nat) : W64 := storeGet (fun _ => 0) s.sm.cnt sub

/-- A start counter of the persistent store (R418). -/
def State.startCnt (s : State) (sub n : Nat) : List Byte :=
  if sub = 4 then bytesLE 4 s.nvm.lastSave
  else match s.recLoad (recOf (dkey 0x2100 sub)) with
    | some b => padTo n b
    | none => zerosB n

/-- The values of R397 of operation k. -/
def State.opValue (s : State) (k sub : Nat) : List Byte :=
  let o := s.op k
  match sub with
  | 2 => bytesLE 1 o.state
  | 3 => bytesLE 2 o.progress
  | 4 => bytesLE 4 o.result
  | 5 => padTo 32 o.arg
  | 6 => bytesLE 2 o.owner
  | _ => bytesLE 4 o.pend

/-- The value of an entry for a requester: status and bytes. The two long ones, CERT_CHAIN and RING, are read by `entrySlice`. -/
def State.entryValue (s : State) (q : Req) (idx sub : Nat) : State × Nat × List Byte :=
  let ok (b : List Byte) : State × Nat × List Byte := (s, smOK, b)
  let key := dkey idx sub
  let nodeKey := q.src
  if idx = 0x1000 then
    match sub with
    | 0x01 => ok (bytesLE 4 (s.rw rIDENT).toNat)
    | 0x04 => ok (bytesLE 16 Config.deviceId.toNat)
    | 0x05 => ok (bytesLE 4 Config.zhotorVersion.toNat)
    | 0x06 => ok (bytesLE 4 s.boot.svn)
    | 0x07 => ok (bytesLE 4 s.boot.svcSeq)
    | 0x09 => ok (bytesLE 1 s.bootSrc)
    | 0x0A => ok (bytesLE 2 (s.rd rDSTATE fDSTATE_STATE_WORD))
    | 0x0B => ok (bytesLE 8 (s.dictCnt dictUptime).toNat)
    | _ => ok (s.dval key)
  else if idx = 0x1100 ∧ 0x20 ≤ sub then ok (bytesLE 8 (s.dictCnt sub).toNat)
  else if idx = 0x2100 then (if sub = 4 then s else s.lookTouch (recOf key), smOK, s.startCnt sub (if sub = 3 then 1 else 4))
  else if 0x6F00 ≤ idx ∧ idx ≤ 0x6F07 then
    match s.recLoad (recOf key) with
    | some b => (s.lookTouch (recOf key), smOK, padTo (if sub = 0 then 16 else 56) b)
    | none => (s.lookTouch (recOf key), smNO_ENTRY, [])
  else if idx = 0x8000 then
    if sub = 2 then
      match storeGet (fun _ => none) s.sm.attNonce nodeKey with
      | some n => ok (s.attReport n)
      | none => (s, smSTATE, [])
    else if sub = 4 then ok (bytesLE 4 Config.certLen)
    else if 0x10 ≤ sub ∧ sub ≤ 0x17 then ok (sigBytes (s.boot.mr.getD (sub - 0x10) 0))
    else if sub = 0x18 then ok (bytesLE 2 s.measEpoch)
    else if sub = 0x19 then ok (bytesLE 1 (b2n Config.provisioned))
    else ok (bytesLE 2 (numAt s.boot.cfg 0x0A 2))
  else if key = dkey 0x8100 0 then ok (zerosB 16)
  else if key = dkey 0x8100 1 then
    let n := s.free ++ Config.freeValue (s.fresh + 1)
    ((s.useFreeN 2).modSm (fun x => { x with devNonce := storePut (fun _ => none) x.devNonce nodeKey (some n) }), smOK, bytesLE 16 n.toNat)
  else if key = dkey 0x8100 4 then ok (bytesLE 1 s.sm.sessions.length)
  else if key = dkey 0x9020 1 then ok (s.tsListOf nodeKey)
  else if key = dkey 0x9020 2 then (s, (s.tsRead q).1, (s.tsRead q).2)
  else if idx = 0x9030 ∧ 1 ≤ sub ∧ sub ≤ 0x10 then ok (bytesLE 2 (toTwos 16 (s.sm.temps.getD (sub - 1) 0)))
  else if idx = 0x9030 ∧ sub = 0x11 then ok (bytesLE 2 (toTwos 16 s.tempMax))
  else if idx = 0x9030 ∧ sub = 0x13 then ok (bytesLE 8 (s.dictCnt 0x30).toNat)
  else if 0xA000 ≤ idx ∧ idx ≤ 0xA006 ∧ sub ≤ 7 then ok (s.opValue (idx - 0xA000) sub)
  else if key = dkey 0xB010 1 then ok ledgerPubBytes
  else ok (s.dval key)

/-- `n` bytes of an entry from an offset: its value is taken when the request executes (R409). -/
def State.entrySlice (s : State) (q : Req) (idx sub off n : Nat) : State × Nat × List Byte :=
  if dkey idx sub = dkey 0x8000 3 then
    (s, smOK, (s.envRead (160 * 65536 + off) n).zipIdx.map (fun p => if off + p.2 < Config.certLen then p.1 else 0))
  else if dkey idx sub = dkey 0xB010 2 then
    if s.ringSize * 64 < off + n then (s, smRANGE, [])
    else
      let slots := (List.range ((off + n + 63) / 64 - off / 64)).map (fun i => off / 64 + i)
      (s.ringTouch slots, smOK, ((slots.flatMap s.ringSlot).drop (off % 64)).take n)
  else
    let r := s.entryValue q idx sub
    (r.1, r.2.1, (r.2.2.drop off).take n)

/-! ### Writes of dictionary-only entries -/

/-- The session of a host. -/
def State.session (s : State) (host : Nat) : Option SmSession := s.sm.sessions.find? (fun x => x.host == host)
def State.closeSession (s : State) (host : Nat) : State :=
  s.modSm (fun x => { x with sessions := x.sessions.filter (fun y => y.host != host) })

/-- FLEET_KEY. -/
def State.fleetKey (s : State) : BitVec 128 := BitVec.ofNat 128 (ofBytesLE (s.dval (dkey 0x8100 0)).reverse)

/-- CONTROL of an operation (R397): START without an argument. -/
def State.opControl (s : State) (q : Req) (k v : Nat) : State × Nat :=
  if v = 1 then s.opStart k q.cls q.src []
  else if v = 2 then s.opSuspend k
  else if v = 3 then s.opResume k
  else s.opCancel k

/-- A value that meets the entry's encoding and range is written at time `t` (µs). -/
def State.entryWrite (s : State) (q : Req) (idx sub t : Nat) (e : DEntry) (b : List Byte) : State × Nat :=
  let key := dkey idx sub
  let v := ofBytesLE b
  let full := b ++ zerosB (e.len - b.length)
  if e.accOf q.cls = .rwp then
    if s.on rPSTORE fPSTORE_EN = false then (s, smSTATE) else ((s.recStore (recOf key) true full).setDval key full, smOK)
  else if key = dkey 0x1000 0x20 then (s.modNvm (fun x => { x with defaults := v }), smOK)
  else if key = dkey 0x8000 1 then
    (s.modSm (fun x => { x with attNonce := storePut (fun _ => none) x.attNonce q.src (some full) }), smOK)
  else if key = dkey 0x8100 3 then (s.closeSession q.src, smOK)
  else if key = dkey 0x9010 1 then s.markWrite v t
  else if key = dkey 0x9010 5 then s.armWrite v
  else if key = dkey 0x9020 1 then
    if (tsItems full).all (fun x => (tsSlot x).isSome) then
      (s.modSm (fun x => { x with tsList := storePut (fun _ => []) x.tsList q.src full }), smOK)
    else (s, smRANGE)
  else if 0xA000 ≤ idx ∧ idx ≤ 0xA006 ∧ sub = 1 then s.opControl q (idx - 0xA000) v
  else if key = dkey 0xA003 9 then s.exportAck (q.cls * 256 + q.src) v
  else (s.setDval key full, smOK)

/-- Bytes of the staging entry are written. -/
def State.stageWrite (s : State) (off : Nat) (b : List Byte) : State :=
  s.modSm (fun x => { x with stage := storePutBytes (fun _ => 0) x.stage off b, stageLen := max x.stageLen (off + b.length) })

/-! ### The four services on entries (R406 to R411) -/

/-- Is the index one of the vendor diagnostics, which are denied (R413)? -/
def vendorIdx (idx : Nat) : Bool := decide (0xF000 ≤ idx)

/-- READ: the longest value that one response segment holds is `lim` bytes. (DEDUCED, log entry 64) -/
def State.readEntry (s : State) (q : Req) (idx sub lim : Nat) (stale : Bool) : State × Nat × List Byte :=
  let no (st : Nat) : State × Nat × List Byte := (s, st, [])
  if vendorIdx idx then no smDENIED
  else match mirrorReg idx sub with
    | some (a, d) =>
      if s.blkTrusted (blkIdOf a) && s.keeperAway then no smBUSY
      else if (s.mirrorAcc q.cls q.stall idx a d).canRead = false then no smDENIED
      else
        let r := s.mirrorRead a stale
        if r.2.1 = smOK then (r.1, smOK, bytesLE (if d.w64 then 8 else 4) r.2.2.toNat) else (r.1, r.2.1, [])
    | none => match dictEntry idx sub with
      | none => no smNO_ENTRY
      | some e =>
        if keeperServed idx && s.keeperAway then no smBUSY
        else if (q.acc (dkey idx sub) e).canRead = false then no smDENIED
        else if lim < e.len then no smLENGTH
        else
          let r := s.entryValue q idx sub
          (r.1, r.2.1, if r.2.1 = smOK then (if e.kind = .str then stripZeros r.2.2 else r.2.2) else [])

/-- READ_BLOCK of `n` bytes from an offset. (DEDUCED, log entry 62) -/
def State.readBlock (s : State) (q : Req) (idx sub off n lim : Nat) : State × Nat × List Byte :=
  let no (st : Nat) : State × Nat × List Byte := (s, st, [])
  if vendorIdx idx then no smDENIED
  else match mirrorReg idx sub with
    | some (a, d) =>
      if s.blkTrusted (blkIdOf a) && s.keeperAway then no smBUSY
      else if (s.mirrorAcc q.cls q.stall idx a d).canRead = false then no smDENIED
      else no smLENGTH
    | none => match dictEntry idx sub with
      | none => no smNO_ENTRY
      | some e =>
        if keeperServed idx && s.keeperAway then no smBUSY
        else if (q.acc (dkey idx sub) e).canRead = false then no smDENIED
        else if e.kind ≠ .oct ∧ e.kind ≠ .str ∧ e.kind ≠ .timing ∧ e.kind ≠ .link ∧ e.kind ≠ .sync then no smLENGTH
        else if n = 0 ∨ lim < n ∨ e.len < off + n then no smRANGE
        else s.entrySlice q idx sub off n

/-- WRITE of a value by a requester; `who` makes the register access for a mirror. (DEDUCED, log entry 64) -/
def State.writeEntry (s : State) (q : Req) (who : Who) (idx sub t lim : Nat) (b : List Byte) : State × Nat :=
  if vendorIdx idx then (s, smDENIED)
  else match mirrorReg idx sub with
    | some (a, d) =>
      if s.blkTrusted (blkIdOf a) && s.keeperAway then (s, smBUSY)
      else if (s.mirrorAcc q.cls q.stall idx a d).canWrite = false then (s, smDENIED)
      else if b.length ≠ (if d.w64 then 8 else 4) then (s, smLENGTH)
      else s.mirrorWrite who t a (BitVec.ofNat 64 (ofBytesLE b))
    | none => match dictEntry idx sub with
      | none => (s, smNO_ENTRY)
      | some e =>
        if keeperServed idx && s.keeperAway then (s, smBUSY)
        else if (q.acc (dkey idx sub) e).canWrite = false then (s, smDENIED)
        else if lim < e.len ∨ (if e.kind = .str then e.len < b.length else b.length ≠ e.len) then (s, smLENGTH)
        else if e.ok (s.guardOf (dkey idx sub)) b = false then (s, smRANGE)
        else s.entryWrite q idx sub t e b

/-- A WRITE_BLOCK is applied whole: its parts, with their offsets. -/
def State.writeBlock (s : State) (q : Req) (idx sub t : Nat) (parts : List (Nat × List Byte)) : State × Nat :=
  if vendorIdx idx then (s, smDENIED)
  else match mirrorReg idx sub with
    | some (a, d) =>
      if s.blkTrusted (blkIdOf a) && s.keeperAway then (s, smBUSY)
      else if (s.mirrorAcc q.cls q.stall idx a d).canWrite = false then (s, smDENIED)
      else (s, smLENGTH)
    | none => match dictEntry idx sub with
      | none => (s, smNO_ENTRY)
      | some e =>
        if keeperServed idx && s.keeperAway then (s, smBUSY)
        else if (q.acc (dkey idx sub) e).canWrite = false then (s, smDENIED)
        else if e.kind ≠ .oct ∧ e.kind ≠ .str ∧ e.kind ≠ .timing ∧ e.kind ≠ .link ∧ e.kind ≠ .sync then (s, smLENGTH)
        else if parts.any (fun p => decide (e.len < p.1 + p.2.length)) then (s, smRANGE)
        else if dkey idx sub = dkey 0xA002 0x10 then (parts.foldl (fun s p => s.stageWrite p.1 p.2) s, smOK)
        else if dkey idx sub = dkey 0x8100 2 then (s, smSTATE)
        else
          let old := if dkey idx sub = dkey 0x9020 1 then s.tsListOf q.src else s.dval (dkey idx sub)
          let patch (b : List Byte) (p : Nat × List Byte) : List Byte := b.take p.1 ++ p.2 ++ b.drop (p.1 + p.2.length)
          let b := parts.foldl patch (old ++ zerosB (e.len - old.length))
          if e.ok (s.guardOf (dkey idx sub)) b = false then (s, smRANGE) else s.entryWrite q idx sub t e b

end Sys2Proof.Machine
end

