-- ==== Sys2Proof/Machine/Smiser.lean ====
section
/-! DEFINITION. Machine/Smiser.lean: Smiser messages: transports, alive records, sessions, the services, heartbeats, node reset, factory boot
(R375 to R396, R403, R404), and the thermal poll (R426). -/
namespace Sys2Proof.Machine

/-! ### Messages (R377, R382, R384) -/

/-- The header of R377 and, with AUTH = 1, the trailer in the last 12 bytes; a message too short for one has none. -/
def smParse (b : List Byte) : SmHdr :=
  let h := (b.getD 0 0).toNat
  let n := b.length
  let auth := bitOf h 1
  let trailer := auth && decide (16 ≤ n)
  { alive := h / 16, rsv := bitOf h 3, more := bitOf h 2, auth := auth, resp := bitOf h 0, trans := (b.getD 1 0).toNat, seg := (b.getD 2 0).toNat
    pl := if trailer then (b.take (n - 12)).drop 4 else b.drop 4, ctr := if trailer then ofBytesLE ((b.drop (n - 12)).take 4) else 0
    tag := if trailer then b.drop (n - 8) else [], covered := if trailer then b.take (n - 8) else b }

/-- Service codes (R378). -/
def svcREAD : Nat := 0x01
def svcWRITE : Nat := 0x02
def svcREAD_BLOCK : Nat := 0x03
def svcWRITE_BLOCK : Nat := 0x04
def svcOP_START : Nat := 0x08
def svcOP_SUSPEND : Nat := 0x09
def svcOP_RESUME : Nat := 0x0A
def svcOP_CANCEL : Nat := 0x0B
def svcHEARTBEAT : Nat := 0x11
def svcNODE_RESET : Nat := 0x12

/-- INDEX and SUB at the head of a payload. -/
def plIdx (pl : List Byte) : Nat := ofBytesLE (pl.take 2)
def plSub (pl : List Byte) : Nat := (pl.getD 2 0).toNat

/-- Counters of R405. -/
def ctRX_IGNORED : Nat := dictCtr 0x20
def ctAUTH_FAIL : Nat := dictCtr 0x21
def ctALIVE_JUMP : Nat := dictCtr 0x22
def ctDUP : Nat := dictCtr 0x23
def ctBUSY_SENT : Nat := dictCtr 0x24
def ctSESS_OPENED : Nat := dictCtr 0x25

/-- The request in the mailbox of a stall. -/
def State.mbRequest (s : State) (st : Nat) : List Byte :=
  let n := storeGet (fun _ => 0) s.sm.mbLen st
  ((List.range ((n + 3) / 4)).flatMap (fun i => bytesLE 4 (s.rw (rMB_REQ st i)).toNat)).take n

/-- A request that gets no response leaves the mailbox free. (DEDUCED, log entry 59) -/
def State.mbFree (s : State) (via : SmVia) : State :=
  match via with
  | .mailbox st => s.wr (rMB_STAT st) fMB_STAT_BUSY 0
  | _ => s

/-- Is the boot ROM serving the factory subset? (DEDUCED, log entry 67) -/
def State.inFactory (s : State) : Bool := s.dstate == 1 && !s.power.inReset && s.boot.src == 2

/-- PRIO, SERVICE, DEST and SRC of a frame's identifier or a datagram's prefix, and the message. -/
def smHead (m : SmMsg) : Nat × Nat × Nat × Nat × List Byte :=
  match m.via with
  | .can _ => (m.id.toNat / 2 ^ 26, m.id.toNat / 2 ^ 20 % 64, m.id.toNat / 2 ^ 13 % 128, m.id.toNat / 64 % 128, m.bytes)
  | _ =>
    let b (i : Nat) : Nat := (m.bytes.getD i 0).toNat
    (b 0 % 8, b 1 % 64, b 2, b 3, m.bytes.drop 4)

/-- Does a message arrive whole, on an enabled way, at an address of the device (R382 to R384)? Others are ignored. -/
def State.busHears (s : State) (m : SmMsg) : Bool :=
  let factory := s.inFactory
  (s.running || factory) && s.islandOn 26 && m.framed && decide (4 ≤ (smHead m).2.2.2.2.length) &&
    (match m.via with
     | .can b => (if factory then b == 0 else bitOf s.commEn b) && decide (m.bytes.length ≤ 64)
     | .udp _ dst => !factory && bitOf s.commEn 2 && decide (m.bytes.length ≤ 1232) && (dst == linkLocal || dst == allNodes || s.ip6 == some dst)
     | _ => false)

/-- Are a frame's reserved identifier bits 0? (DESIGN CHOICE, log entry 58) -/
def smIdOk (m : SmMsg) : Bool := match m.via with | .can _ => m.id.toNat % 64 == 0 | _ => true

/-- A message over CAN FD or UDP, of a service, that is for this device. (DEDUCED, log entry 60) -/
def State.busAccept (s : State) (svc : Nat) (m : SmMsg) : State × Option SmCtx :=
  let factory := s.inFactory
  let (prio, code, dest, src, b) := smHead m
  let node := if factory then 1 else s.nodeId
  if s.busHears m = false ∨ code ≠ svc ∨ src < 65 ∨ 126 < src ∨ (dest ≠ node ∧ (factory = true ∨ dest ≠ 0)) then (s, none)
  else
    let h := smParse b
    if smIdOk m = false ∨ h.rsv = true then (s.bumpErr ctRX_IGNORED, none)
    else if h.resp then (s, none)
    else
      let s1 := if factory then s else s.modSm (fun x => { x with hostLost := false, route := storePut (fun _ => none) x.route src (some m.via) })
      let mark := svc == svcWRITE && plIdx h.pl == 0x9010 && plSub h.pl == 1
      if dest = 0 ∧ svc ≠ svcHEARTBEAT ∧ mark = false then (s1.bumpErr ctRX_IGNORED, none)
      else (s1, some { via := m.via, prio := prio, svc := svc, q := ⟨clsFLEET, src⟩, dest := dest, h := h, bcast := decide (dest = 0)
                       factory := factory, t := m.t })

/-- A message that reaches the device: over a network, through the mailbox of a stall (R385), or from the keeper. (DEDUCED, log entries 60, 61) -/
def State.smAccept (s : State) (svc : Nat) (m : SmMsg) : State × Option SmCtx :=
  match m.via with
  | .keeper =>
    if s.running && !s.keeperDead && decide (4 ≤ m.bytes.length) then
      (s, some { via := .keeper, prio := 0, svc := svc, q := ⟨clsKEEPER, 0⟩, dest := 0, h := smParse m.bytes, bcast := false, factory := false, t := m.t })
    else (s, none)
  | .mailbox st =>
    let b := s.mbRequest st
    if !s.running || !(s.on (rMB_STAT st) fMB_STAT_BUSY) || decide ((b.getD 1 0).toNat % 64 ≠ svc) then (s, none)
    else if b.length < 8 then (s.mbFree m.via, none)
    else
      let h := smParse (b.drop 4)
      if h.rsv then ((s.bumpErr ctRX_IGNORED).mbFree m.via, none)
      else if h.resp then (s.mbFree m.via, none)
      else (s, some { via := m.via, prio := (b.getD 0 0).toNat % 8, svc := svc, q := ⟨if st.val = 0 then clsMANAGER else clsSTALL, 0x80 + st⟩
                      dest := 0, h := h, bcast := false, factory := false, t := m.t })
  | _ => s.busAccept svc m

/-! ### Responses (R377, R380 to R382, R386) -/

/-- A response is sent on the way of its request, with the device's ALIVE. -/
def State.smSend (s : State) (x : SmCtx) (r : SmResp) (alive : Nat) : State :=
  match x.via with
  | .mailbox st => s.mbAnswer st (msgPrefix x.prio x.svc x.q.src s.nodeId ++ smHeader alive x.h.trans 0 r.status false true ++ r.payload)
  | via => s.transmit (some x.q.src) via x.prio x.svc x.q.src (if x.factory then 1 else s.nodeId) alive x.h.trans r.status true r.payload

/-- A fresh response: the device's ALIVE advances; BUSY is counted. -/
def State.smAnswer (s : State) (x : SmCtx) (r : SmResp) : State × Nat :=
  let s1 := if r.status = smBUSY then s.bumpErr ctBUSY_SENT else s
  let o := s1.originate x.q.src
  (o.1.smSend x r o.2, o.2)

/-! ### Authentication (R389 to R391) -/

/-- The first 8 bytes of a CMAC. -/
def tagOf (k : BitVec 128) (b : List Byte) : List Byte := (bytesBE 16 (aesCmac k b).toNat).take 8

/-- What the TAG of a message covers. -/
def SmCtx.covered (x : SmCtx) : List Byte := [BitVec.ofNat 8 x.svc, BitVec.ofNat 8 x.dest, BitVec.ofNat 8 x.q.src] ++ x.h.covered

/-- Is a request protected (R389)? -/
def SmCtx.isProtected (x : SmCtx) : Bool :=
  let net : Bool := match x.via with | .can _ | .udp _ _ => true | _ => false
  let free := x.svc == svcWRITE && ((plIdx x.h.pl == 0x9010 && plSub x.h.pl == 1) || (plIdx x.h.pl == 0x8100 && plSub x.h.pl == 2))
  net && !x.factory && decide (x.svc ∈ [svcWRITE, svcWRITE_BLOCK, svcOP_START, svcOP_SUSPEND, svcOP_RESUME, svcOP_CANCEL, svcNODE_RESET]) && !free

/-- A protected request that passes moves its session's CTR on. -/
def State.smAuth (s : State) (x : SmCtx) : State × Bool :=
  match s.session x.q.src with
  | none => (s, false)
  | some k =>
    if x.h.auth && decide (k.ctr < x.h.ctr) && !x.h.tag.isEmpty && x.h.tag == tagOf k.key x.covered then
      (s.modSm (fun y => { y with sessions := y.sessions.map (fun z => if z.host = k.host then { z with ctr := x.h.ctr } else z) }), true)
    else (s, false)

/-- SESSION_OPEN. -/
def State.sessionOpen (s : State) (x : SmCtx) (hostNonce : List Byte) : State × Nat :=
  let host := x.q.src
  match storeGet (fun _ => none) s.sm.devNonce host with
  | none => (s.bumpErr ctAUTH_FAIL, smAUTH)
  | some n =>
    if s.fleetKey = 0 ∨ x.h.auth = false ∨ x.h.ctr ≠ 0 ∨ x.h.tag.isEmpty = true ∨ x.h.tag ≠ tagOf s.fleetKey x.covered then
      (s.bumpErr ctAUTH_FAIL, smAUTH)
    else if (s.session host).isNone ∧ 4 ≤ s.sm.sessions.length then (s, smSTATE)
    else
      let k := aesCmac s.fleetKey ([0x53, 0x4D, 0x53, 0x4B] ++ bytesLE 16 n.toNat ++ hostNonce ++ bytesLE 1 s.nodeId ++ bytesLE 1 host)
      let s1 := (s.closeSession host).modSm (fun y => { y with
        sessions := y.sessions ++ [⟨host, k, 0⟩], devNonce := storePut (fun _ => none) y.devNonce host none
        attNonce := storePut (fun _ => none) y.attNonce host none })
      (s1.bumpEv ctSESS_OPENED 1, smOK)

/-! ### The services (R378, R381) -/

/-- A response without a payload. -/
def bare (r : State × Nat) : State × Option SmResp := (r.1, some ⟨r.2, []⟩)

/-- The longest value that READ and WRITE carry. (DEDUCED, log entry 62) -/
def valueLimit (via : SmVia) : Nat := min 255 (segPay via - 1)

/-- The maker of a register access for a requester. -/
def Req.who (q : Req) : Who := if q.cls = clsKEEPER then .keeper else .mgr

/-- READ. -/
def State.svcRead (s : State) (x : SmCtx) : State × Option SmResp :=
  if x.h.pl.length < 3 then (s, some ⟨smLENGTH, []⟩)
  else
    let r := s.readEntry x.q (plIdx x.h.pl) (plSub x.h.pl) (valueLimit x.via) x.stale
    (r.1, some ⟨r.2.1, if r.2.1 = smOK then bytesLE 1 r.2.2.length ++ r.2.2 else []⟩)

/-- WRITE. -/
def State.svcWrite (s : State) (x : SmCtx) : State × Option SmResp :=
  let pl := x.h.pl
  let n := (pl.getD 3 0).toNat
  if pl.length < 4 + n then (s, some ⟨smLENGTH, []⟩)
  else
    let b := (pl.drop 4).take n
    if x.q.cls = clsFLEET ∧ plIdx pl = 0x8100 ∧ plSub pl = 2 then bare (if n = 16 then s.sessionOpen x b else (s, smLENGTH))
    else bare (s.writeEntry x.q x.q.who (plIdx pl) (plSub pl) x.t (valueLimit x.via) b)

/-- READ_BLOCK. -/
def State.svcReadBlock (s : State) (x : SmCtx) : State × Option SmResp :=
  let pl := x.h.pl
  if pl.length < 10 then (s, some ⟨smLENGTH, []⟩)
  else
    let lim := match x.via with | .mailbox _ => 1014 | _ => 8192
    let r := s.readBlock x.q (plIdx pl) (plSub pl) (ofBytesLE ((pl.drop 4).take 4)) (ofBytesLE ((pl.drop 8).take 2)) lim
    (r.1, some ⟨r.2.1, if r.2.1 = smOK then bytesLE 2 r.2.2.length ++ r.2.2 else []⟩)

/-- The factory image arrives in market SRAM (R403). -/
def State.factoryWrite (s : State) (parts : List (Nat × List Byte)) : State × Nat :=
  if parts.any (fun p => decide (768 * 0x10000 < p.1 + p.2.length)) then (s, smRANGE)
  else
    (parts.foldl (fun s p => ((s.memStore (sramBase + p.1) p.2).1).modSm (fun y => { y with stageLen := max y.stageLen (p.1 + p.2.length) })) s, smOK)

/-- A WRITE_BLOCK segment. (DEDUCED, log entry 62) -/
def State.blockSegment (s : State) (x : SmCtx) : State × Option SmResp :=
  let pl := x.h.pl
  let n := (pl.getD 8 0).toNat
  let key := dkey (plIdx pl) (plSub pl)
  let new : SmBlock := { src := x.q.src, trans := x.h.trans, alive := x.h.alive, key := key, seg := 0, parts := [], bad := none }
  let old := s.sm.blocks.find? (fun b => b.src == x.q.src && b.trans == x.h.trans && b.alive == x.h.alive)
  let b0 : SmBlock := if x.h.seg = 0 then new else match old with
    | some b => if b.seg = x.h.seg then b else { b with bad := some (b.bad.getD smSEQUENCE) }
    | none => { new with bad := some smSEQUENCE }
  let parts := b0.parts ++ [(ofBytesLE ((pl.drop 4).take 4), (pl.drop 9).take n)]
  let fault : Option Nat :=
    if x.authOk = false then some smAUTH
    else if pl.length < 9 + n ∨ b0.key ≠ key then some smLENGTH
    else if 8192 < (parts.map (fun p => p.2.length)).foldl (· + ·) 0 then some smRANGE
    else none
  let b1 : SmBlock := { b0 with
    seg := x.h.seg + 1, parts := parts, bad := match b0.bad with | some k => some k | none => fault }
  let rest := s.sm.blocks.filter (fun b => b.src != x.q.src)
  if x.h.more then (s.modSm (fun y => { y with blocks := rest ++ [b1] }), none)
  else
    let s1 := s.modSm (fun y => { y with blocks := rest })
    match b1.bad with
    | some k => (s1, some ⟨k, []⟩)
    | none =>
      if x.factory then bare (if key = dkey 0xA0FF 0 then s1.factoryWrite parts else (s1, smNO_SERVICE))
      else bare (s1.writeBlock x.q (key / 256) (key % 256) x.t parts)

/-- A request on a long operation: its index is at the head of the payload. -/
def State.onOp (s : State) (x : SmCtx) (need : Nat) (f : Nat → State → State × Nat) : State × Option SmResp :=
  let idx := plIdx x.h.pl
  bare (
    if x.h.pl.length < need then (s, smLENGTH)
    else if vendorIdx idx then (s, smDENIED)
    else if idx < 0xA000 ∨ 0xA006 < idx then (s, smNO_ENTRY)
    else if x.q.cls = clsSTALL then (s, smDENIED)
    else f (idx - 0xA000) s)

/-- OP_START of 0xA0FF in factory boot: the image is checked with the factory key, and the boot goes on from step 4, or halts (R403). -/
def State.factoryStart (s : State) : State × Nat :=
  match s.sramLoad 0 s.sm.stageLen with
  | (s1, some b) =>
    if imageReason b Config.factoryKeyHash = 0 then ((s1.enterZhotor b).modSm (fun y => { y with stageLen := 0 }), smOK) else (s1.halt 0x14, smSTATE)
  | (s1, none) => (s1.halt 0x14, smSTATE)

/-- OP_START. -/
def State.svcOpStart (s : State) (x : SmCtx) : State × Option SmResp :=
  let pl := x.h.pl
  let n := (pl.getD 2 0).toNat
  if x.factory then bare (if plIdx pl = 0xA0FF then s.factoryStart else (s, smNO_SERVICE))
  else s.onOp x (3 + n) (fun k s => if 32 < n then (s, smLENGTH) else s.opStart k x.q.cls x.q.src ((pl.drop 3).take n))

/-- NODE_RESET: KIND 1 COMM, 2 DEVICE; the reset waits for 10 ms (R394). -/
def State.nodeReset (s : State) (kind : Nat) : State × Nat :=
  if kind = 1 ∨ kind = 2 then (s.modSm (fun x => { x with nodeReset := some kind }), smOK) else (s, smRANGE)

/-- What the boot ROM answers to all it does not serve (R403). -/
def noService (f : State → SmCtx → State × Option SmResp) (s : State) (x : SmCtx) : State × Option SmResp :=
  if x.factory then (s, some ⟨smNO_SERVICE, []⟩) else f s x

/-- OP_SUSPEND, OP_RESUME, OP_CANCEL, NODE_RESET. -/
def State.svcOpSuspend (s : State) (x : SmCtx) : State × Option SmResp := s.onOp x 2 (fun k s => s.opSuspend k)
def State.svcOpResume (s : State) (x : SmCtx) : State × Option SmResp := s.onOp x 2 (fun k s => s.opResume k)
def State.svcOpCancel (s : State) (x : SmCtx) : State × Option SmResp := s.onOp x 2 (fun k s => s.opCancel k)
def State.svcNodeReset (s : State) (x : SmCtx) : State × Option SmResp :=
  bare (if x.h.pl.isEmpty then (s, smLENGTH) else s.nodeReset (x.h.pl.getD 0 0).toNat)
/-- A service that R378 does not list is answered with NO_SERVICE, a NOTIFY with nothing. -/
def State.svcUnknown (s : State) (x : SmCtx) : State × Option SmResp := (s, if x.svc = 0x10 then none else some ⟨smNO_SERVICE, []⟩)

/-- A request that waited is executed by its service. -/
def State.serve (s : State) (x : SmCtx) : State × Option SmResp :=
  if x.svc = svcWRITE_BLOCK then s.blockSegment x
  else if x.svc = svcOP_START then s.svcOpStart x
  else if x.svc = svcREAD then noService State.svcRead s x
  else if x.svc = svcWRITE then noService State.svcWrite s x
  else if x.svc = svcREAD_BLOCK then noService State.svcReadBlock s x
  else if x.svc = svcOP_SUSPEND then noService State.svcOpSuspend s x
  else if x.svc = svcOP_RESUME then noService State.svcOpResume s x
  else if x.svc = svcOP_CANCEL then noService State.svcOpCancel s x
  else if x.svc = svcNODE_RESET then noService State.svcNodeReset s x
  else s.svcUnknown x

/-! ### One request (R386, R387) -/

/-- The alive record of a source. (DEDUCED, log entry 61) -/
def State.smRecord (s : State) (src : Nat) : Option SmAlive := s.sm.alive.find? (fun r => r.src == src)

/-- A block of the source in assembly ends with a new TRANS (R381). -/
def State.dropBlocks (s : State) (src trans : Nat) : State :=
  s.modSm (fun y => { y with blocks := y.blocks.filter (fun b => b.src != src || b.trans == trans) })

/-- A repeat: the stored response is sent again; a request to node 0 is never answered (R383, R386). -/
def State.smRepeat (s : State) (x : SmCtx) (r : SmAlive) : State :=
  match r.resp with
  | some p => if x.bcast then s.bumpErr ctDUP else (s.bumpErr ctDUP).smSend x p.1 p.2
  | none => (s.bumpErr ctDUP).mbFree x.via

/-- A request that is no repeat: a protected one is authenticated; `f` executes it, it is answered, and its source's record set. (DEDUCED, log entry 61) -/
def State.smServe (s0 : State) (x : SmCtx) (old : Option SmAlive) (f : State → SmCtx → State × Option SmResp) : State :=
  let s := s0.dropBlocks x.q.src x.h.trans
  let mail : Bool := match x.via with | .mailbox _ => true | _ => false
  if mail && x.h.auth then (s.smAnswer x ⟨smAUTH, []⟩).1
  else
    let a := if x.isProtected then s.smAuth x else (s, true)
    if !a.2 && x.svc != svcWRITE_BLOCK then ((s.bumpErr ctAUTH_FAIL).smAnswer x ⟨smAUTH, []⟩).1
    else
      let y := f (if a.2 then a.1 else s.bumpErr ctAUTH_FAIL) { x with authOk := a.2 }
      match y.2 with
      | none => y.1.mbFree x.via
      | some r =>
        let jump : Bool := match old with | some o => !o.noCheck && decide ((o.alive + 1) % 16 ≠ x.h.alive) | none => false
        let s1 := if jump && r.status != smAUTH then y.1.bumpErr ctALIVE_JUMP else y.1
        let z := if x.bcast then (s1, 0) else s1.smAnswer x r
        if r.status = smAUTH then z.1
        else
          let opened := x.svc == svcWRITE && plIdx x.h.pl == 0x8100 && plSub x.h.pl == 2 && r.status == smOK
          let rec_ : SmAlive := ⟨x.q.src, x.h.trans, x.h.alive, x.svc, if x.bcast then none else some (r, z.2), opened⟩
          z.1.modSm (fun v => { v with alive := v.alive.filter (fun o => o.src != x.q.src) ++ [rec_] })

/-- A request whose turn it is: a repeat, or one that `f` executes. (DEDUCED, log entry 61) -/
def State.smExec (s : State) (x : SmCtx) (f : State → SmCtx → State × Option SmResp) : State :=
  let old := s.smRecord x.q.src
  match old.filter (fun r => r.trans == x.h.trans && r.alive == x.h.alive) with
  | some r => if x.h.more then s.mbFree x.via else s.smRepeat x r
  | none => s.smServe x old f

/-- Is the response to a source's last request still going out? -/
def State.smAnswering (s : State) (src : Nat) : Bool := s.sm.tx.any (fun f => f.1 == some src)

/-- A request arrives: one whose source's last response is still going out waits, behind at most 3 others; a fifth is answered BUSY (R387). (DESIGN CHOICE, log entry 106) -/
def State.smRun (s0 : State) (svc : Nat) (m : SmMsg) (stale : Bool) (f : State → SmCtx → State × Option SmResp) : State :=
  match s0.smAccept svc m with
  | (s, none) => s
  | (s, some x) =>
    let y := { x with stale := stale }
    if s.smAnswering x.q.src = false then s.smExec y f
    else if (s.sm.waiting.filter (fun w => w.q.src == x.q.src)).length < 4 then s.modSm (fun v => { v with waiting := v.waiting ++ [y] })
    else if x.bcast then s
    else (s.smAnswer x ⟨smBUSY, []⟩).1

/-- Waiting requests of a source are executed in their order, until the response of one takes more than its first frame. (DESIGN CHOICE, log entry 106) -/
def State.smWaiting (s : State) (src : Nat) : Nat → State
  | 0 => s
  | n + 1 =>
    match s.sm.waiting.find? (fun w => w.q.src == src) with
    | none => s
    | some x =>
      let s1 := (s.modSm (fun v => { v with waiting := v.waiting.erase x })).smExec x State.serve
      if s1.smAnswering src then s1 else s1.smWaiting src n

/-! ### The rows of the services -/

/-- Service codes of R378 that have a row. -/
def svcListed (c : Nat) : Bool := decide (c ∈ [1, 2, 3, 4, 8, 9, 0xA, 0xB, 0x11, 0x12])

/-- The service code that a message carries, where it carries one. -/
def State.svcOf (s : State) (m : SmMsg) : Option Nat :=
  match m.via with
  | .mailbox st => some (((s.mbRequest st).getD 1 0).toNat % 64)
  | .keeper => none
  | _ => some (smHead m).2.1

/-- READ; messages of services without a row come on it too. (DESIGN CHOICE, log entry 4) -/
def execRead (m : SmMsg) (stale : Bool) (s : State) : Host.Outcome State Fault Refusal :=
  .next (match (s.svcOf m).filter (fun c => !(svcListed c)) with
    | some c => s.begin.smRun c m stale State.svcUnknown
    | none => s.begin.smRun svcREAD m stale (noService State.svcRead))

/-- WRITE. -/
def execWrite (m : SmMsg) (s : State) : Host.Outcome State Fault Refusal := .next (s.begin.smRun svcWRITE m false (noService State.svcWrite))
/-- READ_BLOCK. -/
def execReadBlock (m : SmMsg) (s : State) : Host.Outcome State Fault Refusal := .next (s.begin.smRun svcREAD_BLOCK m false (noService State.svcReadBlock))
/-- WRITE_BLOCK. -/
def execWriteBlock (m : SmMsg) (s : State) : Host.Outcome State Fault Refusal := .next (s.begin.smRun svcWRITE_BLOCK m false State.blockSegment)
/-- OP_START. -/
def execOpStart (m : SmMsg) (s : State) : Host.Outcome State Fault Refusal := .next (s.begin.smRun svcOP_START m false State.svcOpStart)
/-- OP_SUSPEND. -/
def execOpSuspend (m : SmMsg) (s : State) : Host.Outcome State Fault Refusal := .next (s.begin.smRun svcOP_SUSPEND m false (noService State.svcOpSuspend))
/-- OP_RESUME. -/
def execOpResume (m : SmMsg) (s : State) : Host.Outcome State Fault Refusal := .next (s.begin.smRun svcOP_RESUME m false (noService State.svcOpResume))
/-- OP_CANCEL. -/
def execOpCancel (m : SmMsg) (s : State) : Host.Outcome State Fault Refusal := .next (s.begin.smRun svcOP_CANCEL m false (noService State.svcOpCancel))

/-! ### Heartbeats and hosts (R391 to R393) -/

/-- HEARTBEAT of a host: it counts as one; nothing answers. -/
def execHeartbeat (m : SmMsg) (s : State) : Host.Outcome State Fault Refusal :=
  let r := s.begin.smAccept svcHEARTBEAT m
  .next (r.1.mbFree m.via)

/-- The heartbeat record. -/
def State.hbRecord (s : State) : List Byte :=
  let p := s.dnum 0x1100 6 % 8
  let some8 (f : Nat → Bool) : Nat := (List.range 8).foldl (fun v i => v + b2n (f i) * 2 ^ i) 0
  let lost := (List.range 8).any (fun i => s.on (rSYNC_STAT i) fSYNC_STAT_SYNC_LOST)
  let flags := b2n s.sm.hostLost + b2n (s.kstate != kUP) * 2 + s.rd rLG_STAT fLG_STAT_FULL * 4 + b2n lost * 8 + b2n s.sm.markValid * 16
  bytesLE 2 (s.rd rDSTATE fDSTATE_STATE_WORD) ++ bytesLE 2 flags ++ bytesLE 2 s.measEpoch ++ bytesLE 2 (s.rd rTALLY_STAT fTALLY_STAT_EPOCH) ++
    bytesLE 4 (s.frameCount p) ++ bytesLE 2 (s.frameEpoch p) ++ bytesLE 1 (some8 (fun i => s.pst i == stRUNNING)) ++
    bytesLE 1 (some8 (fun i => s.on (rSYNC_STAT i) fSYNC_STAT_LOCKED)) ++ bytesLE 4 s.sm.hbSent ++ zerosB 4

/-- The heartbeat goes out by every enabled way, with PRIO 1, and counts as sent. Its TRANS is open. (DESIGN CHOICE, log entry 106) -/
def State.sendHeartbeat (s : State) : State :=
  let o := s.useFree.originate 256
  let s1 := s.everyWay.foldl (fun v w => v.emit (wire w 1 svcHEARTBEAT 0 s.nodeId (smHeader o.2 (s.free.toNat % 256) 0 0 false false ++ s.hbRecord))) o.1
  s1.modSm (fun x => { x with hbSent := (x.hbSent + 1) % 2 ^ 32, hbDue := false })

/-- HEARTBEAT_TIMER: the heartbeat goes out at once, or waits behind the frames that do, in the place of one that is still unsent (R392). (DESIGN CHOICE, log entry 106) -/
def execHeartbeatTimer (s : State) : Host.Outcome State Fault Refusal :=
  let s := s.begin
  .next (s.guard (s.running && s.islandOn 26 && s.commEn != 0) (fun s =>
    if s.sm.tx.isEmpty then s.sendHeartbeat else s.modSm (fun x => { x with hbDue := true })))

/-- What the block does with no command waiting: the next frame that waits goes out, an unsent heartbeat first; after the last frame of a response, the
waiting requests of its source are executed. (DESIGN CHOICE, log entries 1, 106) -/
def State.idle (s : State) : State :=
  if (s.running && s.islandOn 26) = false then s
  else if s.sm.hbDue then s.begin.sendHeartbeat
  else match s.sm.tx with
    | [] => s
    | f :: rest =>
      let s1 := (s.begin.modSm (fun x => { x with tx := rest })).emit f.2
      match f.1 with
      | some src => if s1.smAnswering src then s1 else s1.smWaiting src 4
      | none => s1

/-- HOST_LOSS. -/
def execHostLoss (s : State) : Host.Outcome State Fault Refusal :=
  let s := s.begin
  .next (s.guard (s.running && s.dnum 0x1100 7 != 0) (fun s => s.modSm (fun x => { x with hostLost := true })))

/-- SESSION_IDLE_EXPIRY, DEV_NONCE_EXPIRY. -/
def execSessionIdleExpiry (host : BitVec 7) (s : State) : Host.Outcome State Fault Refusal :=
  .next (s.begin.closeSession host.toNat)
def execDevNonceExpiry (host : BitVec 7) (s : State) : Host.Outcome State Fault Refusal :=
  .next (s.begin.modSm (fun x => { x with devNonce := storePut (fun _ => none) x.devNonce host.toNat none }))

/-! ### Node reset (R394) -/

/-- KIND of a message as the device will read it. (DEDUCED, log entry 63) -/
def State.kindOf (s : State) (m : SmMsg) : Nat :=
  match m.via with
  | .mailbox st => ((s.mbRequest st).getD 8 0).toNat
  | .keeper => ((smParse m.bytes).pl.getD 0 0).toNat
  | _ => ((smParse (smHead m).2.2.2.2).pl.getD 0 0).toNat

/-- NODE_RESET_COMM: any KIND but DEVICE. NODE_RESET_DEVICE. (DEDUCED, log entry 63) -/
def execNodeResetComm (m : SmMsg) (s : State) : Host.Outcome State Fault Refusal :=
  .next (s.begin.guard (s.kindOf m != 2) (fun s => s.smRun svcNODE_RESET m false (noService State.svcNodeReset)))
/-- As its section says. (DEDUCED, log entry 63) -/
def execNodeResetDevice (m : SmMsg) (s : State) : Host.Outcome State Fault Refusal :=
  .next (s.begin.guard (s.kindOf m == 2) (fun s => s.smRun svcNODE_RESET m false (noService State.svcNodeReset)))

/-- A communication reset: sessions, alive records, waiting requests and held transactions go (R394). -/
def State.commReset (s : State) : State := s.modSm (fun x => { x with sessions := [], alive := [], blocks := [], waiting := [] })

/-- NODE_RESET_ACT: a device reset, in any state but POWER_OFF, is as one from the reset pin; in SAVING the save is abandoned after an open number of steps and
µs (R434, R435). A communication reset acts while Smiser is served. (DEDUCED, log entry 68) -/
def execNodeResetAct (s : State) : Host.Outcome State Fault Refusal :=
  let s := s.begin
  .next (match s.sm.nodeReset with
    | none => s
    | some k =>
      let s1 := s.modSm (fun x => { x with nodeReset := none })
      if s.dstate = 6 ∧ k = 2 then
        let s2 := ((s1.useFreeN 2).cutSave s1.free.toNat).saveEnded 4 (Config.freeValue (s1.fresh + 1)).toNat
        ((s2.modPower (fun x => { x with cause := 2 })).afterReset false false true).tryStart
      else if k = 1 then (if s.running then s1.commReset else s1)
      else if s.dstate = 0 then s1
      else ((s1.modPower (fun x => { x with cause := 2 })).afterReset false (decide (s.dstate = 7)) (decide (6 ≤ s.dstate))).tryStart)

/-- FACTORY_TIMEOUT (R403). (DEDUCED, log entry 67) -/
def execFactoryTimeout (s : State) : Host.Outcome State Fault Refusal := .next (s.begin.guard s.inFactory (fun s => s.halt 0x14))

/-! ### Thermal poll (R426) -/

/-- THERMAL_POLL at time `t` (µs): the readings of the 16 sensors in 1/16 °C. (DESIGN CHOICE, log entry 3; DEDUCED, log entry 64) -/
def execThermalPoll (temps : List (BitVec 16)) (t : Nat) (s : State) : Host.Outcome State Fault Refusal :=
  let s := s.begin
  .next (s.guard (!s.power.inReset && s.dstate != 0) (fun s =>
    let s1 := s.modSm (fun x => { x with temps := (List.range 16).map (fun i => (temps.getD i 0).toInt) })
    if s1.tempMax < sx 16 (s1.dnum 0x9030 0x12) then s1
    else
      let s2 := s1.bumpErr (dictCtr 0x30)
      let due : Bool := match s.sm.lastWarn with | some u => decide (1000000 + u ≤ t) | none => true
      if s2.running && due && !s2.sm.sessions.isEmpty then
        s2.sm.sessions.foldl (fun s x => s.notify x.host 0x9030 0x11 (bytesLE 2 (toTwos 16 s.tempMax))) (s2.modSm (fun x => { x with lastWarn := some t }))
      else s2))

end Sys2Proof.Machine
end

