-- ==== Sys2Proof/Machine/Dispatch.lean ====
section
/-! DEFINITION. Machine/Dispatch.lean: one arm per command, each one direct call of its meaning. -/
namespace Sys2Proof.Machine

/-- The effect of a command on everything but the queue. -/
def exec (i : Instr) (s : State) : Host.Outcome State Fault Refusal :=
  match i with
  | .registerWrite who a w64 w t => Sys2Proof.Machine.execRegisterWrite who a w64 w t s
  | .unassignedAccess who a kind => Sys2Proof.Machine.execUnassignedAccess who a kind s
  | .readOnlyMemoryAccess who a kind => Sys2Proof.Machine.execReadOnlyMemoryAccess who a kind s
  | .xclr who blk w lost => Sys2Proof.Machine.execXclr who blk w lost s
  | .clrRefused who blk => Sys2Proof.Machine.execClrRefused who blk s
  | .clrStale who blk => Sys2Proof.Machine.execClrStale who blk s
  | .softwareTally who => Sys2Proof.Machine.execSoftwareTally who s
  | .arm who arm pipe => Sys2Proof.Machine.execArm who arm pipe s
  | .periodicEn who en => Sys2Proof.Machine.execPeriodicEn who en s
  | .periodMs who w => Sys2Proof.Machine.execPeriodMs who w s
  | .periodicTimerExpiry => Sys2Proof.Machine.execPeriodicTimerExpiry s
  | .tallyLaunch t => Sys2Proof.Machine.execTallyLaunch t s
  | .tallyAcknowledge isl => Sys2Proof.Machine.execTallyAcknowledge isl s
  | .tallyTimeout => Sys2Proof.Machine.execTallyTimeout s
  | .energyBilling es => Sys2Proof.Machine.execEnergyBilling es s
  | .pipeStart who p t => Sys2Proof.Machine.execPipeStart who p t s
  | .pipeStop who p => Sys2Proof.Machine.execPipeStop who p s
  | .stoppedReached p => Sys2Proof.Machine.execStoppedReached p s
  | .autoRecover who p en => Sys2Proof.Machine.execAutoRecover who p en s
  | .timingChangeGo who p w => Sys2Proof.Machine.execTimingChangeGo who p w s
  | .lastOldFrameEnd p t => Sys2Proof.Machine.execLastOldFrameEnd p t s
  | .synthesiserSettled p t => Sys2Proof.Machine.execSynthesiserSettled p t s
  | .pclkUnlock p t => Sys2Proof.Machine.execPclkUnlock p t s
  | .hpdFall p => Sys2Proof.Machine.execHpdFall p s
  | .hpdRise p us => Sys2Proof.Machine.execHpdRise p us s
  | .hpdUnplug p t => Sys2Proof.Machine.execHpdUnplug p t s
  | .hpdStable p => Sys2Proof.Machine.execHpdStable p s
  | .linkTrained p t sinkRate sinkLanes tps levels => Sys2Proof.Machine.execLinkTrained p t sinkRate sinkLanes tps levels s
  | .trainingFailed p t sinkRate sinkLanes => Sys2Proof.Machine.execTrainingFailed p t sinkRate sinkLanes s
  | .trainTimeout p t => Sys2Proof.Machine.execTrainTimeout p t s
  | .faultRetry p => Sys2Proof.Machine.execFaultRetry p s
  | .laneStatusRead p lost => Sys2Proof.Machine.execLaneStatusRead p lost s
  | .auxGo who p w => Sys2Proof.Machine.execAuxGo who p w s
  | .auxReply p code n data => Sys2Proof.Machine.execAuxReply p code n data s
  | .auxReplyTimeout p => Sys2Proof.Machine.execAuxReplyTimeout p s
  | .syncSrcWrite who p w => Sys2Proof.Machine.execSyncSrcWrite who p w s
  | .realign who p => Sys2Proof.Machine.execRealign who p s
  | .referenceEdge n rising short t => Sys2Proof.Machine.execReferenceEdge n rising short t s
  | .missingFrame p => Sys2Proof.Machine.execMissingFrame p s
  | .syncOutPulseEnd o => Sys2Proof.Machine.execSyncOutPulseEnd o s
  | .frameBoundary p t overflow lost => Sys2Proof.Machine.execFrameBoundary p t overflow lost s
  | .lineStart p overflow lost => Sys2Proof.Machine.execLineStart p overflow lost s
  | .latchPoint p => Sys2Proof.Machine.execLatchPoint p s
  | .verticalBlankingStart p lost => Sys2Proof.Machine.execVerticalBlankingStart p lost s
  | .lutWindowWrite who p win k w => Sys2Proof.Machine.execLutWindowWrite who p win k w s
  | .fetchSpanComplete p m line k error => Sys2Proof.Machine.execFetchSpanComplete p m line k error s
  | .writebackFrameDone p => Sys2Proof.Machine.execWritebackFrameDone p s
  | .awningLineFetched p y => Sys2Proof.Machine.execAwningLineFetched p y s
  | .awningFaultMasked p y => Sys2Proof.Machine.execAwningFaultMasked p y s
  | .afclr who p w => Sys2Proof.Machine.execAfclr who p w s
  | .layerCommit who p m => Sys2Proof.Machine.execLayerCommit who p m s
  | .layerCancel who p m => Sys2Proof.Machine.execLayerCancel who p m s
  | .pipeCommit who p => Sys2Proof.Machine.execPipeCommit who p s
  | .lockstepRequest who p => Sys2Proof.Machine.execLockstepRequest who p s
  | .cancelPipe who p => Sys2Proof.Machine.execCancelPipe who p s
  | .cancelLock who p => Sys2Proof.Machine.execCancelLock who p s
  | .awningCommit who p => Sys2Proof.Machine.execAwningCommit who p s
  | .awningCancel who p => Sys2Proof.Machine.execAwningCancel who p s
  | .krelRelease who p layers => Sys2Proof.Machine.execKrelRelease who p layers s
  | .krelReject who p layers => Sys2Proof.Machine.execKrelReject who p layers s
  | .fvalWrite who st f w => Sys2Proof.Machine.execFvalWrite who st f w s
  | .fadd who st f n => Sys2Proof.Machine.execFadd who st f n s
  | .pcfgWrite who p k w => Sys2Proof.Machine.execPcfgWrite who p k w s
  | .pitchCommit who p ks => Sys2Proof.Machine.execPitchCommit who p ks s
  | .pitchClear who p ks => Sys2Proof.Machine.execPitchClear who p ks s
  | .expCtl who p k alive => Sys2Proof.Machine.execExpCtl who p k alive s
  | .pitchCompare p k => Sys2Proof.Machine.execPitchCompare p k s
  | .ledgerAppend => Sys2Proof.Machine.execLedgerAppend s
  | .ledgerInit who en rnd => Sys2Proof.Machine.execLedgerInit who en rnd s
  | .ledgerEnable who en fullBlank => Sys2Proof.Machine.execLedgerEnable who en fullBlank s
  | .sealLedger who => Sys2Proof.Machine.execSeal who s
  | .sealPeriodWrite who w => Sys2Proof.Machine.execSealPeriodWrite who w s
  | .sealPeriodExpiry => Sys2Proof.Machine.execSealPeriodExpiry s
  | .sealComplete => Sys2Proof.Machine.execSealComplete s
  | .lgAckWrite who w => Sys2Proof.Machine.execLgAckWrite who w s
  | .lgCfgWrite who w => Sys2Proof.Machine.execLgCfgWrite who w s
  | .ledgerSubmit st w => Sys2Proof.Machine.execLedgerSubmit st w s
  | .rasterRun who => Sys2Proof.Machine.execRasterRun who s
  | .rasterStop who => Sys2Proof.Machine.execRasterStop who s
  | .passFloorReserved => Sys2Proof.Machine.execPassFloorReserved s
  | .drawBinned slot prog prims run => Sys2Proof.Machine.execDrawBinned slot prog prims run s
  | .renderTileDone cl frags run => Sys2Proof.Machine.execRenderTileDone cl frags run s
  | .computeTileDone cl run => Sys2Proof.Machine.execComputeTileDone cl run s
  | .computeTileKill cl times => Sys2Proof.Machine.execComputeTileKill cl times s
  | .tileMemoryError cl uncorrectable time => Sys2Proof.Machine.execTileMemoryError cl uncorrectable time s
  | .workItemEnd q => Sys2Proof.Machine.execWorkItemEnd q s
  | .schedulerEpoch => Sys2Proof.Machine.execSchedulerEpoch s
  | .deadlineWindowOpen p => Sys2Proof.Machine.execDeadlineWindowOpen p s
  | .latchEvent p => Sys2Proof.Machine.execLatchEvent p s
  | .longUnit res => Sys2Proof.Machine.execLongUnit res s
  | .create who st => Sys2Proof.Machine.execCreate who st s
  | .stallStart who st => Sys2Proof.Machine.execStallStart who st s
  | .stallReset who st => Sys2Proof.Machine.execStallReset who st s
  | .destroy who st => Sys2Proof.Machine.execDestroy who st s
  | .thaw who st => Sys2Proof.Machine.execThaw who st s
  | .functionLevelReset ep fn => Sys2Proof.Machine.execFunctionLevelReset ep fn s
  | .vfEnableCleared ep => Sys2Proof.Machine.execVfEnableCleared ep s
  | .busMasterEnableCleared ep fn => Sys2Proof.Machine.execBusMasterEnableCleared ep fn s
  | .drainLimit st times => Sys2Proof.Machine.execDrainLimit st times s
  | .resetDone st => Sys2Proof.Machine.execResetDone st s
  | .clearingDone st => Sys2Proof.Machine.execClearingDone st s
  | .hostBarAccess ep fn bar2 off write n b t stale => Sys2Proof.Machine.execHostBarAccess ep fn bar2 off write n b t stale s
  | .tinv who all st sa => Sys2Proof.Machine.execTinv who all st sa s
  | .tinvDone => Sys2Proof.Machine.execTinvDone s
  | .ownerTableWrite who sram k w => Sys2Proof.Machine.execOwnerTableWrite who sram k w s
  | .scfgWrite who st w => Sys2Proof.Machine.execScfgWrite who st w s
  | .imaskWrite st k w => Sys2Proof.Machine.execImaskWrite st k w s
  | .mailboxGo st len => Sys2Proof.Machine.execMailboxGo st len s
  | .mailboxResponse st bytes => Sys2Proof.Machine.execMailboxResponse st bytes s
  | .doorbell st q w => Sys2Proof.Machine.execDoorbell st q w s
  | .queueDisable who q => Sys2Proof.Machine.execQueueDisable who q s
  | .queueDisableLimit q times => Sys2Proof.Machine.execQueueDisableLimit q times s
  | .queueEnable who q => Sys2Proof.Machine.execQueueEnable who q s
  | .qbaseWrite who q high w => Sys2Proof.Machine.execQbaseWrite who q high w s
  | .descriptorFetched st host => Sys2Proof.Machine.execDescriptorFetched st host s
  | .linkWordRead q served => Sys2Proof.Machine.execLinkWordRead q served s
  | .itemStart q => Sys2Proof.Machine.execItemStart q s
  | .wcall core prv op a7 args => Sys2Proof.Machine.execWcall core prv op a7 args s
  | .wcRsp who h status => Sys2Proof.Machine.execWcRsp who h status s
  | .wcLimitExpiry h => Sys2Proof.Machine.execWcLimitExpiry h s
  | .version h => Sys2Proof.Machine.execVersion h s
  | .measExtend h => Sys2Proof.Machine.execMeasExtend h s
  | .attest h => Sys2Proof.Machine.execAttest h s
  | .sealStall h => Sys2Proof.Machine.execSealStall h s
  | .unsealStall h => Sys2Proof.Machine.execUnsealStall h s
  | .pitchCfg h allowed => Sys2Proof.Machine.execPitchCfg h allowed s
  | .pitchClr h => Sys2Proof.Machine.execPitchClr h s
  | .clkSet h allowed => Sys2Proof.Machine.execClkSet h allowed s
  | .ready h t => Sys2Proof.Machine.execReady h t s
  | .kick who => Sys2Proof.Machine.execKick who s
  | .restart who t => Sys2Proof.Machine.execRestart who t s
  | .wmLock who => Sys2Proof.Machine.execWmLock who s
  | .up who => Sys2Proof.Machine.execUp who s
  | .keeperWatchdogExpiry t => Sys2Proof.Machine.execKeeperWatchdogExpiry t s
  | .lockstepMismatch t => Sys2Proof.Machine.execLockstepMismatch t s
  | .svcRun who run => Sys2Proof.Machine.execSvcRun who run s
  | .svcThaw who harts => Sys2Proof.Machine.execSvcThaw who harts s
  | .kevtRead who part => Sys2Proof.Machine.execKevtRead who part s
  | .recovGo go => Sys2Proof.Machine.execRecovGo go s
  | .recoveryTimeout => Sys2Proof.Machine.execRecoveryTimeout s
  | .train who ch => Sys2Proof.Machine.execTrain who ch s
  | .channelTrained ch density levelled rfm lanes => Sys2Proof.Machine.execChannelTrained ch density levelled rfm lanes s
  | .retrain who ch => Sys2Proof.Machine.execRetrain who ch s
  | .retrainDone ch levelled lanes => Sys2Proof.Machine.execRetrainDone ch levelled lanes s
  | .build who => Sys2Proof.Machine.execBuild who s
  | .driftStep ch late runs ref0 ref1 => Sys2Proof.Machine.execDriftStep ch late runs ref0 ref1 s
  | .trefi ch sc => Sys2Proof.Machine.execTrefi ch sc s
  | .commandSelect ch sc pb idle upsets => Sys2Proof.Machine.execCommandSelect ch sc pb idle upsets s
  | .activationTableClear ch => Sys2Proof.Machine.execActivationTableClear ch s
  | .memoryRequest off src write pos bytes => Sys2Proof.Machine.execMemoryRequest off src write pos bytes s
  | .agePromotion ch sc write k => Sys2Proof.Machine.execAgePromotion ch sc write k s
  | .panicFlagChange ch cycles => Sys2Proof.Machine.execPanicFlagChange ch cycles s
  | .refreshFactorRead ch factor => Sys2Proof.Machine.execRefreshFactorRead ch factor s
  | .memoryReadData ch sc => Sys2Proof.Machine.execMemoryReadData ch sc s
  | .eccMapWrite who k w => Sys2Proof.Machine.execEccMapWrite who k w s
  | .eccInitDone => Sys2Proof.Machine.execEccInitDone s
  | .patrolScrubStep upsets => Sys2Proof.Machine.execPatrolScrubStep upsets s
  | .sramScrubStep late upsets => Sys2Proof.Machine.execSramScrubStep late upsets s
  | .erase who sector => Sys2Proof.Machine.execErase who sector s
  | .program who sector => Sys2Proof.Machine.execProgram who sector s
  | .blankCheck who sector => Sys2Proof.Machine.execBlankCheck who sector s
  | .nvmOperationDone fail => Sys2Proof.Machine.execNvmOperationDone fail s
  | .wearMapUpdate => Sys2Proof.Machine.execWearMapUpdate s
  | .pstoreFlush => Sys2Proof.Machine.execPstoreFlush s
  | .logCompaction => Sys2Proof.Machine.execLogCompaction s
  | .channelDisable who e c => Sys2Proof.Machine.execChannelDisable who e c s
  | .disLimitExpiry e c => Sys2Proof.Machine.execDisLimitExpiry e c s
  | .channelEnable who e c => Sys2Proof.Machine.execChannelEnable who e c s
  | .chDb who e c => Sys2Proof.Machine.execChDb who e c s
  | .dmThaw who e mask => Sys2Proof.Machine.execDmThaw who e mask s
  | .dmDescriptorFetched e host => Sys2Proof.Machine.execDmDescriptorFetched e host s
  | .dmWritesComplete e host => Sys2Proof.Machine.execDmWritesComplete e host s
  | .readbackDone e hostError => Sys2Proof.Machine.execReadbackDone e hostError s
  | .dmLinkRead e served => Sys2Proof.Machine.execDmLinkRead e served s
  | .dmAccessError e => Sys2Proof.Machine.execDmAccessError e s
  | .resetRun who cv => Sys2Proof.Machine.execResetRun who cv s
  | .scanOpportunity p t line => Sys2Proof.Machine.execScanOpportunity p t line s
  | .scanStepEnd fe samples t tNext => Sys2Proof.Machine.execScanStepEnd fe samples t tNext s
  | .panelEnable who p => Sys2Proof.Machine.execPanelEnable who p s
  | .recal who p => Sys2Proof.Machine.execRecal who p s
  | .feLfclr who fe => Sys2Proof.Machine.execFeLfclr who fe s
  | .audioTick => Sys2Proof.Machine.execAudioTick s
  | .tdmFrame rx0 rx1 ok0 ok1 slip => Sys2Proof.Machine.execTdmFrame rx0 rx1 ok0 ok1 slip s
  | .hapticSegmentEnd h => Sys2Proof.Machine.execHapticSegmentEnd h s
  | .lraHalfPeriod h => Sys2Proof.Machine.execLraHalfPeriod h s
  | .bemfZeroCrossing h t => Sys2Proof.Machine.execBemfZeroCrossing h t s
  | .read m stale => Sys2Proof.Machine.execRead m stale s
  | .write m => Sys2Proof.Machine.execWrite m s
  | .readBlock m => Sys2Proof.Machine.execReadBlock m s
  | .writeBlock m => Sys2Proof.Machine.execWriteBlock m s
  | .opStart m => Sys2Proof.Machine.execOpStart m s
  | .opSuspend m => Sys2Proof.Machine.execOpSuspend m s
  | .opResume m => Sys2Proof.Machine.execOpResume m s
  | .opCancel m => Sys2Proof.Machine.execOpCancel m s
  | .longOperationEnd k ev progress detail => Sys2Proof.Machine.execLongOperationEnd k ev progress detail s
  | .exportAckTimeout => Sys2Proof.Machine.execExportAckTimeout s
  | .heartbeat m => Sys2Proof.Machine.execHeartbeat m s
  | .heartbeatTimer => Sys2Proof.Machine.execHeartbeatTimer s
  | .hostLoss => Sys2Proof.Machine.execHostLoss s
  | .sessionIdleExpiry host => Sys2Proof.Machine.execSessionIdleExpiry host s
  | .devNonceExpiry host => Sys2Proof.Machine.execDevNonceExpiry host s
  | .nodeResetComm m => Sys2Proof.Machine.execNodeResetComm m s
  | .nodeResetDevice m => Sys2Proof.Machine.execNodeResetDevice m s
  | .nodeResetAct => Sys2Proof.Machine.execNodeResetAct s
  | .factoryTimeout => Sys2Proof.Machine.execFactoryTimeout s
  | .thermalPoll temps t => Sys2Proof.Machine.execThermalPoll temps t s
  | .vinSenseFall => Sys2Proof.Machine.execVinSenseFall s
  | .vinSenseRise => Sys2Proof.Machine.execVinSenseRise s
  | .supplyWarn uptime => Sys2Proof.Machine.execSupplyWarn uptime s
  | .supplyWarnClear => Sys2Proof.Machine.execSupplyWarnClear s
  | .saveComplete us fail line => Sys2Proof.Machine.execSaveComplete us fail line s
  | .islandOff who n => Sys2Proof.Machine.execIslandOff who n s
  | .islandOn who n => Sys2Proof.Machine.execIslandOn who n s
  | .islandPoweredOn n => Sys2Proof.Machine.execIslandPoweredOn n s
  | .regCfgWrite who w => Sys2Proof.Machine.execRegCfgWrite who w s
  | .regulatorTransactionDone ok data => Sys2Proof.Machine.execRegulatorTransactionDone ok data s
  | .railSettled r => Sys2Proof.Machine.execRailSettled r s
  | .pgRise r => Sys2Proof.Machine.execPgRise r s
  | .pgDrop r => Sys2Proof.Machine.execPgDrop r s
  | .porAssert lines => Sys2Proof.Machine.execPorAssert lines s
  | .porRelease bootsel => Sys2Proof.Machine.execPorRelease bootsel s
  | .nresetLow lines us => Sys2Proof.Machine.execNresetLow lines us s
  | .nresetRelease bootsel => Sys2Proof.Machine.execNresetRelease bootsel s
  | .resetOutRelease => Sys2Proof.Machine.execResetOutRelease s
  | .bootImageChecked otpOk => Sys2Proof.Machine.execBootImageChecked otpOk s
  | .coreMemoryAccess h kind a n b t upsets => Sys2Proof.Machine.execCoreMemoryAccess h kind a n b t upsets s
  | .vkindRead who st stale => Sys2Proof.Machine.execVkindRead who st stale s
  | .svcVrecRead who h stale => Sys2Proof.Machine.execSvcVrecRead who h stale s
  | .chFaultKindRead who e c stale => Sys2Proof.Machine.execChFaultKindRead who e c stale s
  | .pgRaiseTimeout r => Sys2Proof.Machine.execPgRaiseTimeout r s
  | .configRequest ep fn req => Sys2Proof.Machine.execConfigRequest ep fn req s
  | .pcieLinkUp => Sys2Proof.Machine.execPcieLinkUp s

end Sys2Proof.Machine
end

