-- ==== Sys2Proof/Machine/Step.lean ====
section
/-! DEFINITION. Machine/Step.lean: one step takes the command at the front of the queue. -/
namespace Sys2Proof.Machine

/-- One step: the front command's effect on the state with the queue's rest; with an empty queue the block idles, and what waits for
the field network goes out. (DESIGN CHOICE, log entries 1, 106) -/
def step (s : State) : Host.Outcome State Fault Refusal :=
  match s.pending with
  | [] => .next s.idle
  | c :: q => exec c { s with pending := q }

/-- The table gives no row any bits, so a word spells no command and nothing is put into the queue. (DESIGN CHOICE, log entry 1) -/
def State.withFetchWord (s : State) (nbits w : Nat) : State :=
  match Sys2Proof.decodeTableWord nbits w with
  | some c => { s with pending := c :: s.pending }
  | none => s

end Sys2Proof.Machine
end

