-- ==== Sys2Proof/WellFormed.lean ====
section
/-! DEFINITION. WellFormed.lean: which operands a command can have, where their types allow more. A meaning does not ask for it: it says what
a sender, or the outside world, can send. -/
namespace Sys2Proof

/-- The activity that the stalls account for is no more than the island's (R451). -/
def IslandEnergy.wf (e : IslandEnergy) : Bool := e.acts.length == 16 && decide (e.acts.sum ≤ e.total)

/-- A sweep has one line of taps for each of the 8 reference voltages (R282). -/
def LaneSweep.wf (l : LaneSweep) : Bool := l.rd.length == 8 && l.wr.length == 8

/-- A CAN FD data field has 0 to 8, 12, 16, 20, 24, 32, 48 or 64 bytes; a datagram is no longer than a UDP datagram can be. -/
def SmMsg.wf (m : SmMsg) : Bool :=
  match m.via with
  | .can _ => decide (m.bytes.length ≤ 8) || decide (m.bytes.length ∈ [12, 16, 20, 24, 32, 48, 64])
  | .udp _ _ => decide (m.bytes.length < 65536)
  | .mailbox _ => true
  | .keeper => true

/-- Is a command well formed? (DESIGN CHOICE, log entry 17) -/
def Instr.wellFormed : Instr → Bool
  | .energyBilling es => es.all IslandEnergy.wf
  | .auxReply _ _ n data => decide (n ≤ 16 ∧ data.length ≤ 16)
  | .renderTileDone _ frags _ => frags.all (fun x => x.outs.all (fun o => decide (o.1 < 8 ∧ o.2.length ≤ 4)))
  | .hostBarAccess _ _ _ _ wr n b _ _ => if wr then !b.isEmpty else b.isEmpty && n != 0
  | .mailboxResponse _ bytes => decide (1 ≤ bytes.length ∧ bytes.length ≤ 1024)
  | .descriptorFetched _ host => match host with | some b => b.length == 64 | none => true
  | .wcall _ prv _ _ args => prv != 2 && args.length == 6
  | .channelTrained _ _ _ _ lanes => lanes.length == 4 && lanes.all LaneSweep.wf
  | .retrainDone _ _ lanes => lanes.length == 4 && lanes.all LaneSweep.wf
  | .driftStep _ _ runs _ _ => runs.length == 4
  | .memoryRequest _ _ wr pos bytes => if wr then decide (pos.val + bytes.length ≤ 64) else bytes.isEmpty
  | .scanStepEnd _ samples _ _ => decide (samples.length ≤ 32)
  | .tdmFrame rx0 rx1 _ _ _ => rx0.length == 8 && rx1.length == 8
  | .read m _ => m.wf
  | .write m => m.wf
  | .readBlock m => m.wf
  | .writeBlock m => m.wf
  | .opStart m => m.wf
  | .opSuspend m => m.wf
  | .opResume m => m.wf
  | .opCancel m => m.wf
  | .heartbeat m => m.wf
  | .nodeResetComm m => m.wf
  | .nodeResetDevice m => m.wf
  | .ownerTableWrite _ sram i _ => !sram || decide (i.val < 192)
  | .thermalPoll temps _ => temps.length == 16
  | .coreMemoryAccess _ kind _ n b _ _ => if kind = 1 then decide (1 ≤ b.length ∧ b.length ≤ 64) else b.isEmpty && n != 0
  | .fetchSpanComplete .. | .drawBinned .. | .registerWrite .. | .unassignedAccess .. | .readOnlyMemoryAccess .. | .xclr .. | .clrRefused .. | .clrStale ..
  | .softwareTally .. | .arm .. | .periodicEn .. | .periodMs .. | .periodicTimerExpiry | .tallyLaunch .. | .tallyAcknowledge ..
  | .tallyTimeout | .pipeStart .. | .pipeStop .. | .stoppedReached .. | .autoRecover .. | .timingChangeGo ..
  | .lastOldFrameEnd .. | .synthesiserSettled .. | .pclkUnlock .. | .hpdFall .. | .hpdRise .. | .hpdUnplug .. | .hpdStable ..
  | .linkTrained .. | .trainingFailed .. | .trainTimeout .. | .faultRetry .. | .laneStatusRead .. | .auxGo ..
  | .auxReplyTimeout .. | .syncSrcWrite .. | .realign .. | .referenceEdge .. | .missingFrame .. | .syncOutPulseEnd ..
  | .frameBoundary .. | .lineStart .. | .latchPoint .. | .verticalBlankingStart .. | .lutWindowWrite .. | .writebackFrameDone ..
  | .awningLineFetched .. | .awningFaultMasked .. | .afclr .. | .layerCommit .. | .layerCancel .. | .pipeCommit ..
  | .lockstepRequest .. | .cancelPipe .. | .cancelLock .. | .awningCommit .. | .awningCancel .. | .krelRelease ..
  | .krelReject .. | .fvalWrite .. | .fadd .. | .pcfgWrite .. | .pitchCommit .. | .pitchClear .. | .expCtl .. | .pitchCompare ..
  | .ledgerAppend | .ledgerInit .. | .ledgerEnable .. | .sealLedger .. | .sealPeriodWrite .. | .sealPeriodExpiry | .sealComplete
  | .lgAckWrite .. | .lgCfgWrite .. | .ledgerSubmit .. | .rasterRun .. | .rasterStop .. | .passFloorReserved
  | .computeTileDone .. | .computeTileKill .. | .tileMemoryError .. | .workItemEnd .. | .schedulerEpoch | .deadlineWindowOpen ..
  | .latchEvent .. | .longUnit .. | .create .. | .stallStart .. | .stallReset .. | .destroy .. | .thaw ..
  | .functionLevelReset .. | .vfEnableCleared .. | .busMasterEnableCleared .. | .drainLimit .. | .resetDone .. | .clearingDone ..
  | .tinv .. | .tinvDone | .scfgWrite .. | .imaskWrite .. | .mailboxGo .. | .doorbell .. | .queueDisable ..
  | .queueDisableLimit .. | .queueEnable .. | .qbaseWrite .. | .linkWordRead .. | .itemStart .. | .wcRsp .. | .wcLimitExpiry ..
  | .version .. | .measExtend .. | .attest .. | .sealStall .. | .unsealStall .. | .pitchCfg .. | .pitchClr .. | .clkSet ..
  | .ready .. | .kick .. | .restart .. | .wmLock .. | .up .. | .keeperWatchdogExpiry .. | .lockstepMismatch .. | .svcRun ..
  | .svcThaw .. | .kevtRead .. | .recovGo .. | .recoveryTimeout | .train .. | .retrain .. | .build .. | .trefi ..
  | .commandSelect .. | .activationTableClear .. | .agePromotion .. | .panicFlagChange .. | .refreshFactorRead ..
  | .memoryReadData .. | .eccMapWrite .. | .eccInitDone | .patrolScrubStep .. | .sramScrubStep .. | .erase .. | .program ..
  | .blankCheck .. | .nvmOperationDone .. | .wearMapUpdate | .pstoreFlush | .logCompaction | .channelDisable ..
  | .disLimitExpiry .. | .channelEnable .. | .chDb .. | .dmThaw .. | .dmDescriptorFetched .. | .dmWritesComplete ..
  | .readbackDone .. | .dmLinkRead .. | .dmAccessError .. | .resetRun .. | .scanOpportunity .. | .panelEnable .. | .recal ..
  | .feLfclr .. | .audioTick | .hapticSegmentEnd .. | .lraHalfPeriod .. | .bemfZeroCrossing .. | .longOperationEnd ..
  | .exportAckTimeout | .heartbeatTimer | .hostLoss | .sessionIdleExpiry .. | .devNonceExpiry .. | .nodeResetAct
  | .factoryTimeout | .vinSenseFall | .vinSenseRise | .supplyWarn .. | .supplyWarnClear | .saveComplete .. | .islandOff ..
  | .islandOn .. | .islandPoweredOn .. | .regCfgWrite .. | .regulatorTransactionDone .. | .railSettled .. | .pgRise ..
  | .pgDrop .. | .porAssert .. | .porRelease .. | .nresetLow .. | .nresetRelease .. | .resetOutRelease | .bootImageChecked ..
  | .vkindRead .. | .svcVrecRead .. | .chFaultKindRead .. | .pgRaiseTimeout .. | .configRequest .. | .pcieLinkUp => true

end Sys2Proof
end

