-- ==== Sys2Proof/Safety.lean ====
section
/-! DEFINITION. Safety.lean: what counts as a safe state and a safe step, in the terms claims use. -/
namespace Sys2Proof.Machine

/-- The keeper's event queue holds at most 256 entries (R262). -/
abbrev State.kevqOk (s : State) : Prop := s.kevq.length ≤ 256

/-- Every waiting command is well formed. -/
abbrev State.pendingOk (s : State) : Prop := ∀ c ∈ s.pending, c.wellFormed = true

/-- The invariant of the block: the keeper's queue within its size, and well-formed commands only. -/
abbrev State.Inv (s : State) : Prop := s.kevqOk ∧ s.pendingOk

/-- The checks let a write of register `a` by `who` through (R4, R9, R18, R248, R258). -/
abbrev State.mayWrite (s : State) (who : Who) (a : Nat) : Prop := s.gate who a true = .ok

/-- The checks let a read of register `a` by `who` through. -/
abbrev State.mayRead (s : State) (who : Who) (a : Nat) : Prop := s.gate who a false = .ok

/-- The state in which a command's access has passed its checks: nothing said yet, the answer OK. -/
def State.accepted (s : State) : State := s.begin.answer .ok

/-- The memories hold the same bytes in both states. -/
def State.sameMemory (s t : State) : Prop := ∀ a, t.sramB a = s.sramB a ∧ t.dramB a = s.dramB a ∧ t.envB a = s.envB a

/-- The state of power, boot, the harts' calls, Smiser, the eNVM controller and the memory channels is the same. -/
def State.sameSystem (s t : State) : Prop :=
  t.power = s.power ∧ t.boot = s.boot ∧ t.harts = s.harts ∧ t.sm = s.sm ∧ t.nvm = s.nvm ∧ t.mem = s.mem

/-- The units' own state is the same: pipes, the ledger, queues, the work engine, the data mover, panels, sound and haptics, grains
being cleared. -/
def State.sameUnits (s t : State) : Prop :=
  t.pipes = s.pipes ∧ t.led = s.led ∧ t.queues = s.queues ∧ t.gpu = s.gpu ∧ t.dmCh = s.dmCh ∧ t.dmEng = s.dmEng ∧ t.clearing = s.clearing ∧
  t.panels = s.panels ∧ t.streams = s.streams ∧ t.haps = s.haps ∧ t.caps = s.caps

/-- A call is waiting in hart `h`'s slot for function `fn`, the keeper is UP and the caller is not in U-mode: what Zhotor's functions but
0x00 ask before they look at their arguments (R253, R254). -/
abbrev State.callWaits (s : State) (h fn : Nat) : Prop :=
  s.callPending h = true ∧ s.rd (rWC_FN h) fWC_FN_FN = fn ∧ s.kstate = kUP ∧ s.rd (rWC_FN h) fWC_FN_PRV ≠ 0 ∧ s.dstate < 6

/-- A Smiser message is accepted as a fresh request of service `svc`, addressed to this node, that needs no authentication and does not wait
(R385 to R387). -/
abbrev State.takes (s : State) (svc : Nat) (m : SmMsg) (x : SmCtx) : Prop :=
  (s.begin.smAccept svc m).2 = some x ∧ (s.begin.smAccept svc m).1.smAnswering x.q.src = false ∧
  (s.begin.smAccept svc m).1.smRecord x.q.src = none ∧
  x.svc = svc ∧ x.isProtected = false ∧ x.authOk = true ∧ x.bcast = false ∧ x.h.auth = false

/-- The state with which it is executed: an unfinished block of its source under another TRANS is dropped (R381). -/
def State.taken (s : State) (svc : Nat) (m : SmMsg) (x : SmCtx) : State := (s.begin.smAccept svc m).1.dropBlocks x.q.src x.h.trans

/-- The response `r` of a fresh request is sent and, but for AUTH, recorded for a repeat (R386). -/
def State.smReply (s : State) (svc : Nat) (x : SmCtx) (r : SmResp) : State :=
  if r.status = smAUTH then (s.smAnswer x r).1
  else (s.smAnswer x r).1.modSm (fun v => { v with alive := v.alive.filter (fun o => o.src != x.q.src) ++
    [(⟨x.q.src, x.h.trans, x.h.alive, svc, some (r, (s.smAnswer x r).2),
       svc == svcWRITE && plIdx x.h.pl == 0x8100 && plSub x.h.pl == 2 && r.status == smOK⟩ : SmAlive)] })

/-- The commands whose effect can change bytes of SRAM, DRAM or the eNVM. -/
def storesBytes : Instr → Bool
  | .registerWrite .. | .pipeStart .. | .pipeStop .. | .autoRecover .. | .lastOldFrameEnd .. | .synthesiserSettled .. | .pclkUnlock ..
  | .hpdRise .. | .hpdUnplug .. | .linkTrained .. | .trainingFailed .. | .trainTimeout .. | .frameBoundary .. | .lineStart ..
  | .writebackFrameDone .. | .pitchCompare .. | .ledgerAppend .. | .ledgerInit .. | .ledgerEnable .. | .sealLedger .. | .sealComplete ..
  | .lgAckWrite .. | .lgCfgWrite .. | .rasterRun .. | .rasterStop .. | .passFloorReserved .. | .drawBinned .. | .renderTileDone ..
  | .computeTileDone .. | .computeTileKill .. | .tileMemoryError .. | .workItemEnd .. | .schedulerEpoch .. | .deadlineWindowOpen ..
  | .latchEvent .. | .create .. | .stallStart .. | .stallReset .. | .destroy .. | .thaw .. | .functionLevelReset .. | .vfEnableCleared ..
  | .busMasterEnableCleared .. | .drainLimit .. | .resetDone .. | .clearingDone .. | .hostBarAccess .. | .queueDisableLimit ..
  | .itemStart .. | .attest .. | .pitchCfg .. | .ready .. | .kick .. | .restart .. | .wmLock .. | .up .. | .svcRun .. | .recovGo ..
  | .retrainDone .. | .commandSelect .. | .eccMapWrite .. | .nvmOperationDone .. | .wearMapUpdate .. | .pstoreFlush ..
  | .logCompaction .. | .disLimitExpiry .. | .dmDescriptorFetched .. | .dmWritesComplete .. | .readbackDone .. | .dmLinkRead ..
  | .dmAccessError .. | .scanStepEnd .. | .audioTick .. | .hapticSegmentEnd .. | .write .. | .writeBlock .. | .opStart .. | .opCancel ..
  | .longOperationEnd .. | .nodeResetAct .. | .supplyWarn .. | .supplyWarnClear .. | .saveComplete .. | .porAssert .. | .porRelease ..
  | .nresetLow .. | .nresetRelease .. | .bootImageChecked .. | .coreMemoryAccess .. => true
  | _ => false

/-- The commands whose effect can change the units' own state (`State.sameUnits`) or a memory. -/
def touchesUnits : Instr → Bool
  | .registerWrite .. | .pipeStart .. | .pipeStop .. | .stoppedReached .. | .autoRecover .. | .lastOldFrameEnd ..
  | .synthesiserSettled .. | .pclkUnlock .. | .hpdFall .. | .hpdRise .. | .hpdUnplug .. | .hpdStable .. | .linkTrained ..
  | .trainingFailed .. | .trainTimeout .. | .faultRetry .. | .laneStatusRead .. | .auxGo .. | .auxReply .. | .auxReplyTimeout ..
  | .syncSrcWrite .. | .realign .. | .referenceEdge .. | .missingFrame .. | .frameBoundary .. | .lineStart .. | .latchPoint ..
  | .verticalBlankingStart .. | .fetchSpanComplete .. | .writebackFrameDone .. | .awningLineFetched .. | .layerCommit ..
  | .layerCancel .. | .pipeCommit .. | .lockstepRequest .. | .cancelPipe .. | .cancelLock .. | .awningCommit .. | .awningCancel ..
  | .krelRelease .. | .krelReject .. | .pitchCommit .. | .pitchClear .. | .expCtl .. | .pitchCompare .. | .ledgerAppend ..
  | .ledgerInit .. | .ledgerEnable .. | .sealLedger .. | .sealPeriodWrite .. | .sealPeriodExpiry .. | .sealComplete .. | .lgAckWrite ..
  | .lgCfgWrite .. | .ledgerSubmit .. | .rasterRun .. | .rasterStop .. | .passFloorReserved .. | .drawBinned .. | .renderTileDone ..
  | .computeTileDone .. | .computeTileKill .. | .tileMemoryError .. | .workItemEnd .. | .schedulerEpoch .. | .deadlineWindowOpen ..
  | .latchEvent .. | .longUnit .. | .create .. | .stallStart .. | .stallReset .. | .destroy .. | .thaw .. | .functionLevelReset ..
  | .vfEnableCleared .. | .busMasterEnableCleared .. | .drainLimit .. | .resetDone .. | .clearingDone .. | .hostBarAccess ..
  | .ownerTableWrite .. | .doorbell .. | .queueDisable .. | .queueDisableLimit .. | .queueEnable .. | .qbaseWrite ..
  | .descriptorFetched .. | .linkWordRead .. | .itemStart .. | .attest .. | .pitchCfg .. | .pitchClr .. | .clkSet .. | .ready ..
  | .kick .. | .restart .. | .wmLock .. | .up .. | .svcRun .. | .recovGo .. | .retrainDone .. | .commandSelect .. | .eccMapWrite ..
  | .nvmOperationDone .. | .wearMapUpdate .. | .pstoreFlush .. | .logCompaction .. | .channelDisable .. | .disLimitExpiry ..
  | .channelEnable .. | .chDb .. | .dmThaw .. | .dmDescriptorFetched .. | .dmWritesComplete .. | .readbackDone .. | .dmLinkRead ..
  | .dmAccessError .. | .scanOpportunity .. | .scanStepEnd .. | .panelEnable .. | .recal .. | .audioTick .. | .tdmFrame ..
  | .hapticSegmentEnd .. | .lraHalfPeriod .. | .bemfZeroCrossing .. | .write .. | .writeBlock .. | .opStart .. | .opCancel ..
  | .longOperationEnd .. | .nodeResetAct .. | .supplyWarn .. | .supplyWarnClear .. | .saveComplete .. | .islandOff .. | .islandOn ..
  | .porAssert .. | .porRelease .. | .nresetLow .. | .nresetRelease .. | .bootImageChecked .. | .coreMemoryAccess .. => true
  | _ => false

/-- The commands whose effect can change the system's state (`State.sameSystem`) or a memory. -/
def touchesSystem : Instr → Bool
  | .registerWrite .. | .readOnlyMemoryAccess .. | .tallyLaunch .. | .pipeStart .. | .pipeStop .. | .stoppedReached .. | .autoRecover ..
  | .lastOldFrameEnd .. | .synthesiserSettled .. | .pclkUnlock .. | .hpdRise .. | .hpdUnplug .. | .linkTrained .. | .trainingFailed ..
  | .trainTimeout .. | .frameBoundary .. | .lineStart .. | .latchPoint .. | .fetchSpanComplete .. | .writebackFrameDone ..
  | .awningLineFetched .. | .pitchCompare .. | .ledgerAppend .. | .ledgerInit .. | .ledgerEnable .. | .sealLedger .. | .sealComplete ..
  | .lgAckWrite .. | .lgCfgWrite .. | .rasterRun .. | .rasterStop .. | .passFloorReserved .. | .drawBinned .. | .renderTileDone ..
  | .computeTileDone .. | .computeTileKill .. | .tileMemoryError .. | .workItemEnd .. | .schedulerEpoch .. | .deadlineWindowOpen ..
  | .latchEvent .. | .create .. | .stallStart .. | .stallReset .. | .destroy .. | .thaw .. | .functionLevelReset .. | .vfEnableCleared ..
  | .busMasterEnableCleared .. | .drainLimit .. | .resetDone .. | .clearingDone .. | .hostBarAccess .. | .mailboxGo ..
  | .queueDisableLimit .. | .descriptorFetched .. | .linkWordRead .. | .itemStart .. | .wcall .. | .wcRsp .. | .wcLimitExpiry ..
  | .version .. | .measExtend .. | .attest .. | .sealStall .. | .unsealStall .. | .pitchCfg .. | .pitchClr .. | .clkSet .. | .ready ..
  | .kick .. | .restart .. | .wmLock .. | .up .. | .keeperWatchdogExpiry .. | .lockstepMismatch .. | .svcRun .. | .svcThaw ..
  | .recovGo .. | .recoveryTimeout .. | .retrainDone .. | .build .. | .driftStep .. | .trefi .. | .commandSelect ..
  | .activationTableClear .. | .memoryRequest .. | .agePromotion .. | .panicFlagChange .. | .memoryReadData .. | .eccMapWrite ..
  | .patrolScrubStep .. | .sramScrubStep .. | .erase .. | .program .. | .blankCheck .. | .nvmOperationDone .. | .wearMapUpdate ..
  | .pstoreFlush .. | .logCompaction .. | .disLimitExpiry .. | .dmDescriptorFetched .. | .dmWritesComplete .. | .readbackDone ..
  | .dmLinkRead .. | .dmAccessError .. | .scanStepEnd .. | .panelEnable .. | .audioTick .. | .hapticSegmentEnd .. | .read .. | .write ..
  | .readBlock .. | .writeBlock .. | .opStart .. | .opSuspend .. | .opResume .. | .opCancel .. | .longOperationEnd ..
  | .exportAckTimeout .. | .heartbeat .. | .heartbeatTimer .. | .hostLoss .. | .sessionIdleExpiry .. | .devNonceExpiry ..
  | .nodeResetComm .. | .nodeResetDevice .. | .nodeResetAct .. | .factoryTimeout .. | .thermalPoll .. | .vinSenseFall ..
  | .vinSenseRise .. | .supplyWarn .. | .supplyWarnClear .. | .saveComplete .. | .islandOff .. | .islandOn .. | .islandPoweredOn ..
  | .regCfgWrite .. | .regulatorTransactionDone .. | .railSettled .. | .pgRise .. | .porAssert .. | .porRelease .. | .nresetLow ..
  | .nresetRelease .. | .resetOutRelease .. | .bootImageChecked .. | .coreMemoryAccess .. | .pgRaiseTimeout .. | .configRequest ..
  | .pcieLinkUp .. => true
  | _ => false

/-- A step is safe if it answers a next state. -/
def stepSafe (s : State) : Prop := ∃ t, step s = .next t

end Sys2Proof.Machine
end

