-- ==== Sys2Proof/Certificates/Slice0/Obligations.lean ====
section
/-! DEFINITION. Certificates/Slice0/Obligations.lean: the statements for the provers. A completion statement writes out the next state of
each command it names; `mayWrite` and `mayRead` say that an access passes the checks made before a register's own rules. -/
open Sys2Proof Sys2Proof.Machine

/-- Every command answers a next state and leaves the waiting commands alone. For every command and every state, exec answers a next state (no
fault, no refusal), and the queue of that state is the queue it was given. (00_scope.md, R9, R18, R486) -/
def Obligations.EveryCommandAnswers : Prop :=
  ∀ (i : Instr) (s : State), ∃ t, exec i s = .next t ∧ t.pending = s.pending

/-- Every step keeps the invariant: at most 256 keeper events, well-formed commands waiting. From every state with at most 256 keeper events
in the queue and only well-formed commands waiting, a step that answers next gives such a state. (R262, 08_stalls.md,
09_worlds_and_boot.md) -/
def Obligations.InvariantKept : Prop := ∀ (s t : State), s.Inv → step s = .next t → t.Inv

/-- Every step keeps the canonical form of SRAM, DRAM and eNVM. From every state whose memories list strictly rising offsets and no byte equal
to what an unlisted offset reads as, a step that answers next gives such a state. (R4, R302, R281, R312) -/
def Obligations.MemoryStaysCanonical : Prop := ∀ (s t : State), Memory.wf s = true → step s = .next t → Memory.wf t = true

/-- Commands that store nothing leave every byte of SRAM, DRAM and eNVM as it was. For every command that is not named in storesBytes
(Safety.lean), the next state reads every byte of SRAM, DRAM and eNVM as before. (00_scope.md, R206, R302, R312) -/
def Obligations.MemoryFrame : Prop :=
  ∀ (i : Instr) (s t : State), storesBytes i = false → exec i s = .next t → s.sameMemory t

/-- Commands outside the system families leave power, boot, calls, Smiser, eNVM and memory channels alone. For every command that is not named
in touchesSystem (Safety.lean), the next state has the same power, boot, hart, Smiser, eNVM-controller and memory-channel state. (R432,
R249, R279, R397, R470) -/
def Obligations.SystemFrame : Prop :=
  ∀ (i : Instr) (s t : State), touchesSystem i = false → exec i s = .next t → s.sameSystem t

/-- Commands outside the unit families leave pipes, ledger, queues, engines, panels and streams alone. For every command that is not named in
touchesUnits (Safety.lean), the next state has the same pipes, ledger, queues, raster engine, data mover, clearing list, panels, streams,
haptic channels and captures. (R44, R142, R151, R225, R324, R341, R362) -/
def Obligations.UnitsFrame : Prop :=
  ∀ (i : Instr) (s t : State), touchesUnits i = false → exec i s = .next t → s.sameUnits t

/-- A step runs the command at the front of the queue on the queue's rest; on an empty queue what waits for the field network goes out. For
every command i and state s whose queue is i followed by q, step s is exec i on s with queue q. On an empty queue step answers s.idle,
which is s itself where no heartbeat and no frame for the field network waits: the model's choice, log entries 1 and 106.
(opcode_table.json, 00_scope.md) -/
def Obligations.StepRunsFront : Prop :=
  (∀ (i : Instr) (q : List Instr) (s : State), s.pending = i :: q → step s = exec i { s with pending := q }) ∧
  (∀ (s : State), s.pending = [] → step s = .next s.idle) ∧
  (∀ (s : State), s.pending = [] → s.sm.hbDue = false → s.sm.tx = [] → step s = .next s)

/-- The state after reset has the values the spec gives, and meets the invariant. After reset: BOOT_ROM, IDENT 0x0880B020, ADMIT_MAX 255, NVEC
64 and share 256 for S0, share 0 for the others, the raster engine and all pipes STOPPED, live counters 0; and the model's invariant, its
canonical memories and an empty queue (log entries 1, 7 and 9). (R5, R184, R433, R493, 06_raster_engine.md, 02_display_timing.md) -/
def Obligations.ResetValues : Prop :=
  State.reset.dstate = 1 ∧ State.reset.rw rIDENT = 0x0880B020#64 ∧ State.reset.admitMax 0 = 255 ∧ State.reset.rd rGADM0 fGADM0_NVEC = 64 ∧
  State.reset.share 0 = 256 ∧ (∀ st : Fin 15, State.reset.share (st + 1) = 0) ∧ State.reset.rstate = rsSTOPPED ∧
  (∀ p : Fin 8, State.reset.pst p = stSTOPPED) ∧ (∀ a, State.reset.lv a = 0) ∧
  State.reset.Inv ∧ Memory.wf State.reset = true ∧ State.reset.pending = []

/-- An error counter counts to 0xFFFF, stays there with SAT until cleared, and signals each saturation once. An increment below 0xFFFE adds 1
and emits nothing; the increment from 0xFFFE gives 0xFFFF with SAT (bit 16) and emits the saturation event; at or above 0xFFFF nothing
changes; a clear sets count and SAT to 0; other counters are untouched. (R11) -/
def Obligations.ErrorCountersSaturate : Prop :=
  (∀ (s : State) (a : Nat), (s.lv a).toNat < 0xFFFE → (s.bumpErr a).lv a = s.lv a + 1 ∧ (s.bumpErr a).out = s.out) ∧
  (∀ (s : State) (a : Nat), (s.lv a).toNat = 0xFFFE → (s.bumpErr a).lv a = 0x1FFFF ∧ (s.bumpErr a).out = s.out ++ [.saturated a]) ∧
  (∀ (s : State) (a : Nat), 0xFFFE < (s.lv a).toNat → s.bumpErr a = s) ∧
  (∀ (s : State) (a : Nat), (s.clearCnt a).lv a = 0) ∧
  (∀ (s : State) (a b : Nat), b ≠ a → (s.bumpErr a).lv b = s.lv b ∧ (s.clearCnt a).lv b = s.lv b)

/-- A write kept back by its class keeps every setting, counts a refusal, and freezes nobody. A register write whose writable fields are all
class S while the unit is not stopped, or class B after the lock, is refused: no register but the block's XREF_OFFSET changes, XREFUSED
advances by one saturating step, the answer is the acknowledged refusal, no master is frozen. In any write the bits of kept fields stay as
they were. (R9) -/
def Obligations.RefusedWritesKeepTheSetting : Prop :=
  (∀ (s : State) (a u n : Nat) (w : W64) (stopped locked : Bool) (d : RegDef), lookupReg a = some (d, u, n) → d.readOnly = false →
    d.fields.any (fun f => f.badRange w) = false →
    (∀ f ∈ d.fields, f.acc ≠ .ro → (f.cls = .s ∧ stopped = false) ∨ (f.cls = .b ∧ locked = true)) →
    s.settingWrite a w stopped locked = s.refuse a) ∧
  (∀ (d : RegDef) (stopped locked : Bool) (old w : W64) (k : Nat),
    (∀ f ∈ d.fields, (f.acc = .rw ∧ f.kept stopped locked = false) ∨ f.acc = .w1c → k < f.lo ∨ f.hi < k) →
    (d.written stopped locked old w).getLsbD k = old.getLsbD k) ∧
  (∀ (s : State) (a b : Nat), b ≠ rXREF_OFFSET (refBlk a) → (s.refuse a).rw b = s.rw b) ∧
  (∀ (s : State) (a : Nat), (s.refuse a).lv (rXREFUSED (refBlk a)) = (s.bumpErr (rXREFUSED (refBlk a))).lv (rXREFUSED (refBlk a)) ∧
    (s.refuse a).resp = .refused ∧ (s.refuse a).frozen = s.frozen)

/-- An accepted register write gives each writable field its bits and changes no other register. Bits of a writable field take the written
bits; a write with a field out of range is refused as a whole (log entry 12); an accepted write is exactly the register's new word and the
answer OK; other registers keep their words. (R7, R67, R486) -/
def Obligations.WrittenFieldsTakeTheirBits : Prop :=
  (∀ (d : RegDef) (stopped locked : Bool) (old w : W64) (k : Nat),
    (d.fields.any (fun f => f.acc == .rw && !f.kept stopped locked && decide (f.lo ≤ k ∧ k ≤ f.hi)) = true) →
    d.fields.all (fun f => f.acc != .w1c) = true → k < 64 → (d.written stopped locked old w).getLsbD k = w.getLsbD k) ∧
  (∀ (s : State) (a u n : Nat) (w : W64) (stopped locked : Bool) (d : RegDef), lookupReg a = some (d, u, n) → d.readOnly = false →
    d.fields.any (fun f => f.badRange w) = true → s.settingWrite a w stopped locked = s.refuse a) ∧
  (∀ (s : State) (a u n : Nat) (w : W64) (d : RegDef), lookupReg a = some (d, u, n) → d.readOnly = false →
    d.fields.any (fun f => f.badRange w) = false → (∃ f ∈ d.fields, f.acc ≠ .ro) →
    s.settingWrite a w true false = (s.setRw a (d.written true false (s.rw a) w)).answer .ok) ∧
  (∀ (s : State) (a b : Nat) (w : W64), b ≠ a → (s.setRw a w).rw b = s.rw b)

/-- The keeper's queue holds 256 events, loses what finds it full, and KEVT removes the oldest. An event joins the end of a queue below 256
entries and LEVEL follows; a full queue loses it and EVT_LOST advances. A 64-bit read of KEVT returns and removes the oldest entry; the
low word returns it, removes it and holds the high half; the high word returns the held half and removes nothing, 0 where none is held; an
empty queue reads 0. (R262) -/
def Obligations.KeeperEventQueueRule : Prop :=
  (∀ (s : State) (blk code inst info : Nat), s.kevq.length < 256 →
    (s.kevt blk code inst info).kevq = s.kevq ++ [kevtWord blk code inst info] ∧
    (s.kevt blk code inst info).rd rKEVT_LVL fKEVT_LVL_LEVEL = s.kevq.length + 1) ∧
  (∀ (s : State) (blk code inst info : Nat), 256 ≤ s.kevq.length → s.kevt blk code inst info = s.bumpErr rEVT_LOST) ∧
  (∀ (who : Who) (s : State) (e : W64) (q : List W64), s.mayRead who rKEVT → s.kevq = e :: q →
    ∃ t, exec (.kevtRead who 0) s = .next t ∧ t.resp = .data e ∧ t.kevq = q ∧ t.kevtHeld = s.kevtHeld) ∧
  (∀ (who : Who) (s : State) (e : W64) (q : List W64), s.mayRead who rKEVT → s.kevq = e :: q →
    ∃ t, exec (.kevtRead who 1) s = .next t ∧ t.resp = .data (e &&& 0xFFFFFFFF#64) ∧ t.kevq = q ∧ t.kevtHeld = some ((e >>> 32).setWidth 32)) ∧
  (∀ (who : Who) (s : State) (v : W32), s.mayRead who rKEVT → s.kevtHeld = some v →
    ∃ t, exec (.kevtRead who 2) s = .next t ∧ t.resp = .data (v.setWidth 64) ∧ t.kevq = s.kevq ∧ t.kevtHeld = none) ∧
  (∀ (who : Who) (s : State), s.mayRead who rKEVT → s.kevtHeld = none →
    ∃ t, exec (.kevtRead who 2) s = .next t ∧ t.resp = .data 0 ∧ t.kevq = s.kevq) ∧
  (∀ (who : Who) (s : State), s.mayRead who rKEVT → s.kevq = [] →
    ∃ t, exec (.kevtRead who 1) s = .next t ∧ t.resp = .data 0 ∧ t.kevq = [])

/-- A violation by a service hart is recorded, freezes that hart alone and tells the keeper. After a violation by hart h: SVC_VRECh holds
KIND, WRITE and FETCH; the FROZEN bit of h is set and those of the others are as before; the record counts as unread; SVC_VIOL advances;
SVC_VIOLATION for h joins the keeper's queue if there is room. (R261) -/
def Obligations.HartViolationRule : Prop :=
  ∀ (s : State) (h : Fin 4) (kind a : Nat) (write fetch : Bool), kind < 2 ^ fSVC_VREC_KIND.w →
    (s.hartViolate h kind a write fetch).rd (rSVC_VREC h) fSVC_VREC_KIND = kind ∧
    (s.hartViolate h kind a write fetch).rd (rSVC_VREC h) fSVC_VREC_WRITE = b2n write ∧
    (s.hartViolate h kind a write fetch).rd (rSVC_VREC h) fSVC_VREC_FETCH = b2n fetch ∧
    (∀ k : Fin 4, bitOf ((s.hartViolate h kind a write fetch).rd rSVC_STAT fSVC_STAT_FROZEN) k =
      (decide (k = h) || bitOf (s.rd rSVC_STAT fSVC_STAT_FROZEN) k)) ∧
    bitOf (s.hartViolate h kind a write fetch).vrecRead h = false ∧
    (s.hartViolate h kind a write fetch).lv rSVC_VIOL = (s.bumpErr rSVC_VIOL).lv rSVC_VIOL ∧
    (s.kevq.length < 256 → (s.hartViolate h kind a write fetch).kevq = s.kevq ++ [kevtWord 0x02 0x07 h 0])

/-- A stall's violation record holds the first violation; the master freezes and the stall enters FROZEN. With VREC_VALID = 1 a further
violation leaves VKIND and VADDR as they are and VALID set. With VREC_VALID = 0 it sets VALID and records MASTER, REASON, INST and WRITE.
In both cases VCOUNT advances, the master is frozen, and an ACTIVE stall becomes FROZEN. (R233, R235) -/
def Obligations.StallViolationRule : Prop :=
  (∀ (s : State) (st : Fin 16) (m r k a : Nat) (write : Bool), s.on (rSSTAT st) fSSTAT_VREC_VALID = true →
    (s.violate st m r k a write).rw (rVKIND st) = s.rw (rVKIND st) ∧ (s.violate st m r k a write).rw (rVADDR_LO st) = s.rw (rVADDR_LO st) ∧
    (s.violate st m r k a write).rw (rVADDR_HI st) = s.rw (rVADDR_HI st) ∧
    (s.violate st m r k a write).on (rSSTAT st) fSSTAT_VREC_VALID = true) ∧
  (∀ (s : State) (st : Fin 16) (m r k a : Nat) (write : Bool), s.on (rSSTAT st) fSSTAT_VREC_VALID = false → m < 8 → r < 16 → k < 256 →
    (s.violate st m r k a write).on (rSSTAT st) fSSTAT_VREC_VALID = true ∧
    (s.violate st m r k a write).rd (rVKIND st) fVKIND_MASTER = m ∧ (s.violate st m r k a write).rd (rVKIND st) fVKIND_REASON = r ∧
    (s.violate st m r k a write).rd (rVKIND st) fVKIND_INST = k ∧ (s.violate st m r k a write).rd (rVKIND st) fVKIND_WRITE = b2n write) ∧
  (∀ (s : State) (st : Fin 16) (m r k a : Nat) (write : Bool), (s.violate st m r k a write).lv (rVCOUNT st) = (s.bumpErr (rVCOUNT st)).lv (rVCOUNT st) ∧
    (s.violate st m r k a write).masterFrozen st m k = true ∧
    (s.stallState st = 1 → (s.violate st m r k a write).stallState st = 2))

/-- THAW is accepted only while FROZEN with the record read; it frees every master and clears the record. THAW of a stall that is not FROZEN,
or whose record was not read, is refused (for S0 always, which takes no SCTRL commands). Otherwise the stall is ACTIVE, VREC_VALID and
VREC_READ are 0, no master of the stall is frozen, masters of other stalls are as before, and the movers and the raster engine go on from
there. (R237) -/
def Obligations.ThawRule : Prop :=
  (∀ (who : Who) (st : Fin 16) (s : State), s.mayWrite who (rSCTRL st) → st ≠ 0 →
    s.stallState st ≠ 2 ∨ s.on (rSSTAT st) fSSTAT_VREC_READ = false →
    exec (.thaw who st) s = .next (s.accepted.refuse (rSCTRL st))) ∧
  (∀ (who : Who) (s : State), s.mayWrite who (rSCTRL 0) → exec (.thaw who 0) s = .next (s.accepted.refuse (rSCTRL 0))) ∧
  (∀ (who : Who) (st : Fin 16) (s : State), s.mayWrite who (rSCTRL st) → st ≠ 0 → s.stallState st = 2 →
    s.on (rSSTAT st) fSSTAT_VREC_READ = true →
    ∃ s1 : State, exec (.thaw who st) s = .next s1.dmThawed.gpuKick ∧ s1.stallState st = 1 ∧ s1.on (rSSTAT st) fSSTAT_VREC_VALID = false ∧
      s1.on (rSSTAT st) fSSTAT_VREC_READ = false ∧ (∀ m k, s1.masterFrozen st m k = false) ∧
      (∀ st' m k, st' ≠ st.val → s1.masterFrozen st' m k = s.masterFrozen st' m k))

/-- An interrupt source sets its ISTAT bit once and sends a message only if its IMASK bit is 1. A stall that is neither ACTIVE nor FROZEN gets
no bit and no message; a bit already 1 changes nothing; a stall without the grant of the source gets nothing; otherwise the bit is set,
and a message on the vector of IVEC is sent when the IMASK bit is 1, MSI-X is enabled and neither the function nor the vector is masked;
with the IMASK bit 0 none is sent. (R220, R221) -/
def Obligations.InterruptRule : Prop :=
  (∀ (s : State) (st src : Nat), s.stallState st ≠ 1 → s.stallState st ≠ 2 → s.irq st src = s) ∧
  (∀ (s : State) (st src : Nat), s.hasSource st src = false → s.irq st src = s) ∧
  (∀ (s : State) (st src : Nat), bitOf (s.rw (rISTAT st (src / 32))).toNat (src % 32) = true → s.irq st src = s) ∧
  (∀ (s : State) (st : Fin 16) (src : Fin 96), s.stallState st = 1 ∨ s.stallState st = 2 → s.hasSource st src = true →
    (s.irq st src).rw (rISTAT st (src / 32)) = s.rw (rISTAT st (src / 32)) ||| 1#64 <<< (src.val % 32)) ∧
  (∀ (s : State) (st : Fin 16) (src : Fin 96), s.stallState st = 1 ∨ s.stallState st = 2 → s.hasSource st src = true →
    bitOf (s.rw (rISTAT st (src / 32))).toNat (src % 32) = false → bitOf (s.rw (rIMASK st (src / 32))).toNat (src % 32) = true →
    (s.stallFn st).msixOn = true → (s.stallFn st).msixMask = false →
    bitOf (s.rw (rMSIX st (4 * s.ivec st src + 3))).toNat 0 = false →
    (s.irq st src).out = s.out ++ [.msix st (s.ivec st src)]) ∧
  (∀ (s : State) (st : Fin 16) (src : Fin 96), bitOf (s.rw (rIMASK st (src / 32))).toNat (src % 32) = false → (s.irq st src).out = s.out)

/-- A store of bytes into market SRAM changes exactly those bytes. In a state without uncorrectable words, a store that lies in SRAM
completes; every SRAM byte in its range reads the stored byte, every other byte of SRAM, DRAM and eNVM reads as before. (R302, R305) -/
def Obligations.MemoryStoreRule : Prop :=
  (∀ (s : State) (a : Nat) (b : List Byte), b ≠ [] → isSram a = true → isSram (a + (b.length - 1)) = true → (∀ k, s.eccOf k ≠ 2) →
    (s.memStore a b).2 = true ∧
    (∀ x, (s.memStore a b).1.sramB x = if sramOff a ≤ x ∧ x < sramOff a + b.length then b.getD (x - sramOff a) 0 else s.sramB x) ∧
    (∀ x, (s.memStore a b).1.dramB x = s.dramB x ∧ (s.memStore a b).1.envB x = s.envB x))

/-- Blending covers, passes through and stays in 12 bits; dither leaves the low bits 0. An opaque source over D gives the source, a
transparent one gives D, every result is at most 4095; a post-dither component of n bits has its low 12 - n bits 0 and is at most 4095.
(R80, R85, R86) -/
def Obligations.PixelArithmetic : Prop :=
  (∀ v d la, v ≤ 4095 → d ≤ 4095 → blend1 v 4095 4095 false d = v ∧ blend1 v 0 la false d = d) ∧
  (∀ v as la p d, blend1 v as la p d ≤ 4095) ∧
  (∀ (mode n y x f : Nat) (p : Px), n = 6 ∨ n = 8 ∨ n = 10 →
    (ditherPx mode n y x f p).r % 2 ^ (12 - n) = 0 ∧ (ditherPx mode n y x f p).g % 2 ^ (12 - n) = 0 ∧ (ditherPx mode n y x f p).b % 2 ^ (12 - n) = 0 ∧
    (ditherPx mode n y x f p).r ≤ 4095 ∧ (ditherPx mode n y x f p).g ≤ 4095 ∧ (ditherPx mode n y x f p).b ≤ 4095)

/-- REGISTER_WRITE that passes the checks takes effect by the register's own rules. REGISTER_WRITE completes with a next state, written out,
for every operand under the stated conditions; a 32-bit write to a used 32-bit register runs the register's effect, a 64-bit write to a
64-bit register is taken whole, a 64-bit write elsewhere is two 32-bit writes, low word first (log entry 72). (R7, R488, R3) -/
def Obligations.RegisterWriteReachesRegister : Prop :=
  (∀ (who : Who) (a : BitVec 36) (w : W64) (t : Nat) (s : State), usedAddr a.toNat = true → isWide a.toNat = false → s.mayWrite who a.toNat →
    exec (.registerWrite who a false w t) s = .next (s.accepted.regEffect who t a.toNat (wide (w.setWidth 32)))) ∧
  (∀ (who : Who) (a : BitVec 36) (w : W64) (t : Nat) (s : State), isWide a.toNat = true → s.mayWrite who a.toNat →
    exec (.registerWrite who a true w t) s = .next (s.accepted.takeWide who t a.toNat w)) ∧
  (∀ (who : Who) (a : BitVec 36) (w : W64) (t : Nat) (s : State), isWide a.toNat = false →
    exec (.registerWrite who a true w t) s =
      .next ((s.begin.busWrite32 who t a.toNat (w.setWidth 32)).busWrite32 who t (a.toNat + 4) ((w >>> 32).setWidth 32)))

/-- UNASSIGNED_ACCESS and READ_ONLY_MEMORY_ACCESS answer by their maker; XCLR and the crossing page's counter clears complete. A hart is
frozen with the violation recorded (kind 5, kind 6 for a write to read-only memory), the keeper takes its access-fault exception, and the
keeper's read of the eNVM window returns its byte. XCLR clears the lost-pulse counts it names, but for a pulse lost in the same cycle;
CLR_REFUSED clears XREFUSED; CLR_STALE clears XSTALE and the block's bit of the STALE summary. (R4, R489, R312, R261, R22, R24, R11) -/
def Obligations.OtherAddressesAndCrossingPageAnswer : Prop :=
  (∀ (h : Fin 4) (a : BitVec 36) (kind : Fin 3) (s : State), assignedAddr a.toNat = false → s.alive (.hart h) = true →
    exec (.unassignedAccess (.hart h) a kind) s =
      .next ((s.begin.hartViolate h 5 a.toNat (kind == 1) (kind == 2)).answer (if kind == 1 then .discarded else .errZero))) ∧
  (∀ (a : BitVec 36) (kind : Fin 3) (s : State), assignedAddr a.toNat = false → s.alive .keeper = true →
    exec (.unassignedAccess .keeper a kind) s =
      .next (({ s.begin with keeperTrap := some (if kind == 1 then 7 else if kind == 2 then 1 else 5) }).answer (if kind == 1 then .discarded else .errZero))) ∧
  (∀ (h : Fin 4) (a : BitVec 36) (s : State), a.toNat < 0x10000 ∨ (0x08000000 ≤ a.toNat ∧ a.toNat < 0x09000000) → s.alive (.hart h) = true →
    exec (.readOnlyMemoryAccess (.hart h) a 1) s = .next ((s.begin.hartViolate h 6 a.toNat true false).answer .discarded)) ∧
  (∀ (a : BitVec 36) (kind : Fin 3) (s : State), 0x08000000 ≤ a.toNat → a.toNat < 0x09000000 → s.alive .keeper = true → kind ≠ 1 →
    s.sectorBusy ((a.toNat - 0x08000000) / 0x10000) = false →
    exec (.readOnlyMemoryAccess .keeper a kind) s = .next (s.begin.answer (.bytes [s.envB (a.toNat - 0x08000000)]))) ∧
  (∀ (who : Who) (blk : BitVec 8) (w : W32) (lost : BitVec 31) (s : State), s.mayWrite who (rXCLR blk.toNat) →
    exec (.xclr who blk w lost) s = 
      .next (overN 31 (fun n s => if bitOf lost.toNat n = true then s.losePulse blk.toNat n else s) (s.accepted.wrXclr blk.toNat (wide w)))) ∧
  (∀ (who : Who) (blk : BitVec 8) (s : State), s.mayWrite who (rXCNT_CLR blk.toNat) →
    exec (.clrRefused who blk) s = .next (s.accepted.clearCnt (rXREFUSED blk.toNat))) ∧
  (∀ (who : Who) (blk : BitVec 8) (s : State), s.mayWrite who (rXCNT_CLR blk.toNat) →
    exec (.clrStale who blk) s =
      .next ((s.accepted.clearCnt (rXSTALE blk.toNat)).wr (rSTALE_SUMMARY (blk.toNat / 16)) ⟨blk.toNat % 16, 1⟩ 0))

/-- CORE_MEMORY_ACCESS, HOST_BAR_ACCESS and CONFIG_REQUEST complete. The keeper's loads and stores in SRAM give and store the bytes; accesses
of a bound function to BAR0 and BAR2 reach the stall's page and aperture; configuration requests answer OK when running and retry before.
(R204, R206, R236, R268, R305) -/
def Obligations.CoreAndHostAccessesComplete : Prop :=
  (∀ (a : BitVec 36) (n : Fin 65) (t : Nat) (ups : List (BitVec 36 × Bool)) (d : List Byte) (s v : State), v = s.begin.upset ups →
    v.alive .keeper = true → n.val ≠ 0 → isSram a.toNat = true → isSram (a.toNat + (n.val - 1)) = true →
    v.coreKind false false a.toNat = none → v.coreKind false false (a.toNat + (n.val - 1)) = none → (v.memLoad a.toNat n.val).2 = some d →
    exec (.coreMemoryAccess none 0 a n [] t ups) s = .next ((v.memLoad a.toNat n.val).1.answer (.bytes d))) ∧
  (∀ (a : BitVec 36) (b : List Byte) (t : Nat) (ups : List (BitVec 36 × Bool)) (s v : State), v = s.begin.upset ups →
    v.alive .keeper = true → b ≠ [] → isSram a.toNat = true → isSram (a.toNat + (b.length - 1)) = true →
    v.coreKind false true a.toNat = none → v.coreKind false true (a.toNat + (b.length - 1)) = none → (v.memStore a.toNat b).2 = true →
    exec (.coreMemoryAccess none 1 a 0 b t ups) s = .next ((v.memStore a.toNat b).1.answer .ok)) ∧
  (∀ (ep : Fin 2) (fn : Fin 16) (off : BitVec 36) (write : Bool) (n : Nat) (b : List Byte) (t st : Nat) (stale : Bool) (s : State),
    s.running = true → s.power.inReset = false → s.islandOn (27 + ep) = true → off.toNat < 0x10000 → s.boundStall ep fn = some st →
    exec (.hostBarAccess ep fn false off write n b t stale) s =
      .next (s.begin.bar0Access st off.toNat write (decide (8 ≤ (if write then b.length else n))) stale t b)) ∧
  (∀ (ep : Fin 2) (fn : Fin 16) (off : BitVec 36) (n t st : Nat) (stale : Bool) (s : State),
    s.running = true → s.power.inReset = false → s.islandOn (27 + ep) = true → s.boundStall ep fn = some st → off.toNat < s.bar2Size ep →
    s.stallState st = 1 →
    exec (.hostBarAccess ep fn true off false n [] t stale) s = .next (s.begin.bar2Read st (n / 64 + 2) off.toNat n [])) ∧
  (∀ (ep : Fin 2) (fn : Fin 16) (req : CfgReq) (s : State), s.power.inReset = false → s.islandOn (27 + ep) = true → s.running = true →
    exec (.configRequest ep fn req) s = .next (s.begin.cfgServe ep fn req)) ∧
  (∀ (ep : Fin 2) (fn : Fin 16) (req : CfgReq) (s : State), s.power.inReset = false → s.islandOn (27 + ep) = true → s.dstate = 2 →
    exec (.configRequest ep fn req) s = .next (s.begin.answer .crs))

/-- The commands of the tally block complete. SOFTWARE_TALLY, ARM, PERIODIC_EN, PERIOD_MS, the timer's expiry, launch, acknowledgements, the 2
µs time-out and energy billing complete with a next state, written out, for every operand under the stated conditions; the last
acknowledgement or the time-out ends the tally. (R28, R30, R31, R32, R33, R34, R37) -/
def Obligations.TallyCommandsComplete : Prop :=
  (∀ (who : Who) (s : State), s.mayWrite who rTALLY_CTRL →
    exec (.softwareTally who) s = .next (s.accepted.wrTallyCtrl (wBit (s.rw rTALLY_CTRL) fTALLY_CTRL_START))) ∧
  (∀ (who : Who) (arm : Bool) (pipe : Fin 8) (s : State), s.mayWrite who rTALLY_CTRL →
    exec (.arm who arm pipe) s = .next (s.accepted.wrTallyCtrl
      (putFld (putFld (s.rw rTALLY_CTRL) fTALLY_CTRL_ARM (b2n arm)) fTALLY_CTRL_PIPE pipe))) ∧
  (∀ (who : Who) (en : Bool) (s : State), s.mayWrite who rTALLY_CTRL →
    exec (.periodicEn who en) s = .next (s.accepted.wrTallyCtrl (putFld (s.rw rTALLY_CTRL) fTALLY_CTRL_PERIODIC_EN (b2n en)))) ∧
  (∀ (who : Who) (w : W32) (s : State), s.mayWrite who rTALLY_PERIOD → regBadRange rTALLY_PERIOD (wide w) = false →
    exec (.periodMs who w) s =
      .next (let s1 := (s.accepted.setRw rTALLY_PERIOD (putFld (s.rw rTALLY_PERIOD) fTALLY_PERIOD_PERIOD_MS
               (getFld (wide w) fTALLY_PERIOD_PERIOD_MS))).answer .ok
             if s.tally.timer.isSome then { s1 with tally := { s.tally with timer := some (s1.rd rTALLY_PERIOD fTALLY_PERIOD_PERIOD_MS) } }
             else s1)) ∧
  (∀ (s : State), s.tally.timer.isSome = true → s.dstate ≠ 6 →
    exec .periodicTimerExpiry s = .next (({ s.begin with tally := { s.tally with
      timer := some (s.rd rTALLY_PERIOD fTALLY_PERIOD_PERIOD_MS) } }).tallyRequest .periodic)) ∧
  (∀ (src : TallySrc) (t : Nat) (s : State), s.tally.req = some src → s.tallyBusy = false → s.dstate ≠ 6 →
    exec (.tallyLaunch t) s = .next (s.begin.tallyLaunch (t / 1000))) ∧
  (∀ (isl : Fin 31) (s : State), s.tallyBusy = true → bitOf s.tally.waiting isl = true → setBitN s.tally.waiting isl false ≠ 0 →
    exec (.tallyAcknowledge isl) s = .next { s.begin with tally := { s.tally with
      waiting := setBitN s.tally.waiting isl false, acked := setBitN s.tally.acked isl true } }) ∧
  (∀ (isl : Fin 31) (s : State), s.tallyBusy = true → bitOf s.tally.waiting isl = true → setBitN s.tally.waiting isl false = 0 →
    exec (.tallyAcknowledge isl) s = .next (({ s.begin with tally := { s.tally with
      waiting := 0, acked := setBitN s.tally.acked isl true } }).tallyDone false)) ∧
  (∀ (s : State), s.tallyBusy = true → s.tally.waiting ≠ 0 → exec .tallyTimeout s = .next (s.begin.tallyDone true)) ∧
  (∀ (e : IslandEnergy) (es : List IslandEnergy) (s : State),
    exec (.energyBilling (e :: es)) s = .next (es.foldl (fun s e => s.billIsland e) (s.begin.billIsland e)))

/-- A tally request that finds TEL busy waits, is counted, is dropped or is reported by its source. Idle TEL takes a request. While TEL is
busy, SAVE waits, SOFTWARE advances TALLY_REFUSED, PERIODIC changes nothing, and FRAME sets FRAME_MISSED and clears ARM. A SAVE displaces
a request not yet launched. (R32) -/
def Obligations.TallyRequestRule : Prop :=
  (∀ (src : TallySrc) (s : State), s.tallyBusy = false → s.tally.req = none →
    s.tallyRequest src = { s with tally := { s.tally with req := some src } }) ∧
  (∀ (s : State), s.tallyBusy = true →
    s.tallyRequest .save = { s with tally := { s.tally with saveWaits := true } } ∧
    s.tallyRequest .software = s.bumpErr rTALLY_REFUSED ∧ s.tallyRequest .periodic = s ∧
    (s.tallyRequest .frame).rd rTALLY_STAT fTALLY_STAT_FRAME_MISSED = 1 ∧
    (s.tallyRequest .frame).rd rTALLY_CTRL fTALLY_CTRL_ARM = 0) ∧
  (∀ (s : State) (r : TallySrc), s.tallyBusy = false → s.tally.req = some r → r ≠ .save →
    s.tallyRequest .save = ({ s with tally := { s.tally with req := some .save } }).tallyMissed r)

/-- PIPE_START, PIPE_STOP, AUTO_RECOVER and the end of the idle pattern complete. The three PCTRL commands complete with a next state, written
out, for every operand under the stated conditions; START of a stopped pipe with timing in limits that fits the link begins training and
the first frame; STOP waits for the boundary of a running pipe and acts at once in TRAINING and FAULT (log entry 18). (R39, R44, R45, R46,
R47, R50) -/
def Obligations.PipeStartStopComplete : Prop :=
  (∀ (who : Who) (p : Fin 8) (t : Nat) (s : State), s.mayWrite who (rPCTRL p) →
    exec (.pipeStart who p t) s = .next (s.accepted.wrPctrl p t (wBit (s.rw (rPCTRL p)) fPCTRL_START))) ∧
  (∀ (p t : Nat) (s : State), s.pst p = stSTOPPED → (s.pipe p).stop = .none → 3 ≤ s.dstate → (s.tmg p).inLimits (s.pipe p).guard = true →
    (s.tmg p).fits (s.rd (rLINK_CFG p) fLINK_CFG_MAX_RATE) (s.rd (rLINK_CFG p) fLINK_CFG_MAX_LANES) = true →
    s.pipeStart p t = (s.beginTraining p .start .none).frameBegin p t false) ∧
  (∀ (who : Who) (p : Fin 8) (s : State), s.mayWrite who (rPCTRL p) →
    exec (.pipeStop who p) s = .next (s.accepted.wrPctrl p 0 (wBit (s.rw (rPCTRL p)) fPCTRL_STOP))) ∧
  (∀ (p : Nat) (s : State), (s.pst p = stRUNNING ∨ s.pst p = stBLANKED) → (s.pipe p).stop = .none →
    s.pipeStop p = s.modPipe p (fun x => { x with stop := .atBoundary })) ∧
  (∀ (p : Nat) (s : State), (s.pst p = stTRAINING ∨ s.pst p = stFAULT) → (s.pipe p).stop = .none → s.pipeStop p = s.stopIdle p) ∧
  (∀ (who : Who) (p : Fin 8) (en : Bool) (s : State), s.mayWrite who (rPCTRL p) →
    exec (.autoRecover who p en) s = .next (s.accepted.wrPctrl p 0 (putFld (s.rw (rPCTRL p)) fPCTRL_AUTO_RECOVER (b2n en)))) ∧
  (∀ (p : Fin 8) (s : State), (s.pipe p).stop = .idle → exec (.stoppedReached p) s = .next (s.begin.stopped p))

/-- TIMING_CHANGE_GO and the steps of a live timing change complete. GO completes with a next state, written out, for every operand under the
stated conditions; a valid change becomes PENDING, LATE after the latch point; the last old frame, the synthesiser's settling and
PCLK_UNLOCK act as the order of R54 says. (R54, R41, R55) -/
def Obligations.TimingChangeCommandsComplete : Prop :=
  (∀ (who : Who) (p : Fin 8) (w : W32) (s : State), s.mayWrite who (rTNX_CTRL p) → regBadRange (rTNX_CTRL p) (wBit (wide w) fTNX_CTRL_GO) = false →
    exec (.timingChangeGo who p w) s =
      .next ((s.accepted.settingWrite (rTNX_CTRL p) (wBit (wide w) fTNX_CTRL_GO) true false).timingGo p)) ∧
  (∀ (p : Nat) (s : State), (s.pst p = stRUNNING ∨ s.pst p = stBLANKED) → (s.pipe p).stop ≠ .idle →
    s.on (rTSTAT p) fTSTAT_PENDING = false → s.on (rTNX_CTRL p) fTNX_CTRL_NEW_LINK = false → (s.tnx p).inLimits (s.pipe p).guard = true →
    (s.tnx p).fits (s.rd (rLINK_STAT p) fLINK_STAT_RATE) (s.rd (rLINK_STAT p) fLINK_STAT_LANES) = true →
    s.timingGo p = (s.wr (rTSTAT p) fTSTAT_PENDING 1).wr (rTSTAT p) fTSTAT_LATE (b2n (s.pipe p).latched)) ∧
  (∀ (p : Fin 8) (t : Nat) (s : State), (s.pipe p).scanning = true → (s.pipe p).vblank = true → (s.pipe p).goTaken = true →
    exec (.lastOldFrameEnd p t) s = .next (s.begin.oldFrameEnd p t)) ∧
  (∀ (p : Fin 8) (t : Nat) (s : State), (s.pipe p).gap = true → (s.pipe p).settled = false →
    exec (.synthesiserSettled p t) s = .next ((s.begin.modPipe p (fun x => { x with settled := true })).gapReady p t)) ∧
  (∀ (p : Fin 8) (t : Nat) (s : State), s.works = true → s.pst p ≠ stSTOPPED → (s.pipe p).stop ≠ .idle →
    exec (.pclkUnlock p t) s = .next ((s.begin.pipeFault p 4).gapReady p t))

/-- Link training succeeds, falls back, fails, times out and is retried; lane status is judged. LINK_TRAINED, TRAINING_FAILED, TRAIN_TIMEOUT,
FAULT_RETRY and LANE_STATUS_READ complete with a next state, written out, for every operand under the stated conditions; the sink's
results are operands (log entry 20). (R47, R48, R49, R51) -/
def Obligations.LinkTrainingCommandsComplete : Prop :=
  (∀ (p : Fin 8) (t : Nat) (sr : Fin 4) (sl : Fin 3) (tps : Fin 4) (lv : BitVec 16) (rl : Nat × Nat) (s : State),
    s.trainingNow p = true → s.curSetting p sr sl = some rl →
    exec (.linkTrained p t sr sl tps lv) s = .next (s.begin.linkTrained p t rl tps lv.toNat)) ∧
  (∀ (p : Fin 8) (t : Nat) (sr : Fin 4) (sl : Fin 3) (rl rl' : Nat × Nat) (s : State), s.trainingNow p = true →
    (s.pipe p).reason = .start ∨ (s.pipe p).reason = .retry → s.on (rLINK_CFG p) fLINK_CFG_AUTO_FALLBACK = true →
    s.curSetting p sr sl = some rl → firstFitting (s.tmg p) (lowerSettings (s.linkMax p sr sl).1 rl.1 rl.2).tail = some rl' →
    exec (.trainingFailed p t sr sl) s = .next ((s.begin.dpcdSetup p rl).modPipe p (fun x => { x with setting := some rl' }))) ∧
  (∀ (p : Fin 8) (t : Nat) (sr : Fin 4) (sl : Fin 3) (rl : Nat × Nat) (s : State), s.trainingNow p = true →
    s.on (rLINK_CFG p) fLINK_CFG_AUTO_FALLBACK = false → s.curSetting p sr sl = some rl →
    exec (.trainingFailed p t sr sl) s = .next ((s.begin.dpcdSetup p rl).trainFault p t 2)) ∧
  (∀ (p : Fin 8) (t : Nat) (s : State), s.trainingNow p = true → exec (.trainTimeout p t) s = .next (s.begin.trainFault p t 5)) ∧
  (∀ (p : Fin 8) (s : State), s.works = true → s.pst p = stFAULT → s.rd (rPSTATE p) fPSTATE_FAULT_CAUSE ≠ 1 →
    exec (.faultRetry p) s = .next ((s.begin.modPipe p (fun x => { x with retryDue := true })).tryRecover p)) ∧
  (∀ (p : Fin 8) (s : State), (s.pipe p).laneRead = true →
    exec (.laneStatusRead p false) s = .next ((s.begin.modPipe p (fun x => { x with laneRead := false })).auxFree p)) ∧
  (∀ (p : Fin 8) (s : State), (s.pipe p).laneRead = true → s.pst p = stRUNNING ∨ s.pst p = stBLANKED → (s.pipe p).stop ≠ .idle →
    exec (.laneStatusRead p true) s = .next ((((s.begin.modPipe p (fun x => { x with laneRead := false })).wr (rLINK_EVT p)
      fLINK_EVT_LINK_LOSS 1).beginTraining p .sink (some (s.rd (rLINK_STAT p) fLINK_STAT_RATE, s.rd (rLINK_STAT p) fLINK_STAT_LANES))).modPipe p
      (fun x => { x with linkReady := !x.gap }))) ∧
  (∀ (p : Fin 8) (s : State), (s.pipe p).laneRead = true → s.pst p ≠ stRUNNING → s.pst p ≠ stBLANKED →
    exec (.laneStatusRead p true) s = .next (((s.begin.modPipe p (fun x => { x with laneRead := false })).wr (rLINK_EVT p)
      fLINK_EVT_LINK_LOSS 1).auxFree p))

/-- Hot-plug edges, interrupt pulses, unplug and stable HPD complete. HPD_FALL, HPD_RISE (new plug, short pulse, interrupt pulse, long low),
HPD_UNPLUG and HPD_STABLE complete with a next state, written out, for every operand under the stated conditions; with the readings of log
entry 19. (R51, R48) -/
def Obligations.HpdCommandsComplete : Prop :=
  (∀ (p : Fin 8) (s : State), (s.pipe p).hpd = true → s.hpdWatched p = true →
    exec (.hpdFall p) s = .next (s.begin.modPipe p (fun x => { x with hpdLow := true }))) ∧
  (∀ (p : Fin 8) (s : State), (s.pipe p).hpd = true → s.hpdWatched p = false →
    exec (.hpdFall p) s = .next (s.begin.modPipe p (fun x => { x with hpd := false }))) ∧
  (∀ (p : Fin 8) (us : Nat) (s : State), s.hpdWatched p = false →
    exec (.hpdRise p us) s = .next (s.begin.modPipe p (fun x => { x with hpd := true }))) ∧
  (∀ (p : Fin 8) (us : Nat) (s : State), s.hpdWatched p = true → (s.pipe p).hpd = false → exec (.hpdRise p us) s = .next (s.begin.hpdUp p)) ∧
  (∀ (p : Fin 8) (us : Nat) (s : State), s.hpdWatched p = true → (s.pipe p).hpd = true → (s.pipe p).hpdLow = true → us < 250 →
    exec (.hpdRise p us) s = .next (s.begin.modPipe p (fun x => { x with hpdLow := false, waitHpd := x.waitHpd && !x.hpdStable }))) ∧
  (∀ (p : Fin 8) (us : Nat) (s : State), s.hpdWatched p = true → (s.pipe p).hpd = true → (s.pipe p).hpdLow = true → 250 ≤ us → us ≤ 2000 →
    s.hpdIgnored p = false → s.works = true →
    exec (.hpdRise p us) s = .next ((((s.begin.modPipe p (fun x => { x with hpdLow := false, hpdStable := false })).bumpEv (rHPD_IRQ p) 1).wr
      (rLINK_EVT p) fLINK_EVT_IRQ_HPD 1).modPipe p (fun x => { x with laneRead := true }))) ∧
  (∀ (p : Fin 8) (us : Nat) (s : State), s.hpdWatched p = true → (s.pipe p).hpd = true → (s.pipe p).hpdLow = true → 2000 < us →
    exec (.hpdRise p us) s = .next ((s.begin.hpdUnplug p 0).hpdUp p)) ∧
  (∀ (p : Fin 8) (t : Nat) (s : State), s.hpdWatched p = true → (s.pipe p).hpd = true → (s.pipe p).hpdLow = true →
    exec (.hpdUnplug p t) s = .next (s.begin.hpdUnplug p t)) ∧
  (∀ (p : Fin 8) (s : State), s.hpdWatched p = true → (s.pipe p).hpd = true → (s.pipe p).hpdLow = false →
    exec (.hpdStable p) s = .next ((s.begin.modPipe p (fun x => { x with hpdStable := true, waitHpd := false })).tryRecover p))

/-- AUX_GO, AUX_REPLY and AUX_REPLY_TIMEOUT complete. A GO with a legal command while not BUSY sets BUSY; a DEFER or time-out is retried up to
7 times and then reported; an ACK of a read stores its bytes. (R52, R53) -/
def Obligations.AuxCommandsComplete : Prop :=
  (∀ (who : Who) (p : Fin 8) (w : W32) (s : State), s.mayWrite who (rAUX_CMD p) →
    ([0, 1, 4, 5, 8, 9] : List Nat).contains (getFld (wide w) fAUX_CMD_CMD) = true → s.on (rAUX_STAT p) fAUX_STAT_BUSY = false →
    exec (.auxGo who p w) s =
      .next (let s1 := (s.accepted.settingWrite (rAUX_CMD p) (wBit (wide w) fAUX_CMD_GO) true false).wr (rAUX_STAT p) fAUX_STAT_BUSY 1
             s1.modPipe p (fun x => { x with aux := if s1.auxBusySelf p then .waiting else .active, auxTries := 0 }))) ∧
  (∀ (p : Fin 8) (code : Fin 3) (n : Nat) (d : List Byte) (s : State), (s.pipe p).aux = .active → code.val = 2 → (s.pipe p).auxTries < 7 →
    exec (.auxReply p code n d) s = .next (s.begin.modPipe p (fun x => { x with auxTries := x.auxTries + 1 }))) ∧
  (∀ (p : Fin 8) (n : Nat) (d : List Byte) (s : State), (s.pipe p).aux = .active → 7 ≤ (s.pipe p).auxTries →
    exec (.auxReply p 2 n d) s = .next (s.begin.auxDone p 2 0 0)) ∧
  (∀ (p : Fin 8) (n : Nat) (d : List Byte) (s : State), (s.pipe p).aux = .active → s.auxIsRead p = true →
    exec (.auxReply p 0 n d) s = .next ((s.begin.auxStore p (d.take (s.rd (rAUX_CMD p) fAUX_CMD_LEN + 1))).auxDone p 0 0
      (d.take (s.rd (rAUX_CMD p) fAUX_CMD_LEN + 1)).length)) ∧
  (∀ (p : Fin 8) (code : Fin 3) (n : Nat) (d : List Byte) (s : State), (s.pipe p).aux = .active → code.val ≠ 2 → s.auxIsRead p = false →
    exec (.auxReply p code n d) s = .next (s.begin.auxDone p code 0 (min n (s.rd (rAUX_CMD p) fAUX_CMD_LEN + 1)))) ∧
  (∀ (p : Fin 8) (s : State), (s.pipe p).aux = .active → (s.pipe p).auxTries < 7 →
    exec (.auxReplyTimeout p) s = .next (s.begin.modPipe p (fun x => { x with auxTries := x.auxTries + 1 }))) ∧
  (∀ (p : Fin 8) (s : State), (s.pipe p).aux = .active → 7 ≤ (s.pipe p).auxTries →
    exec (.auxReplyTimeout p) s = .next (s.begin.auxDone p 0 1 0))

/-- The commands of sync lock complete. SYNC_SRC_WRITE, REALIGN, REFERENCE_EDGE, MISSING_FRAME and SYNC_OUT_PULSE_END complete with a next
state, written out, for every operand under the stated conditions; with the readings of log entry 21. (R43, R56, R57, R61, R64) -/
def Obligations.SyncCommandsComplete : Prop :=
  (∀ (who : Who) (p : Fin 8) (w : W32) (s : State), s.mayWrite who (rSYNC_SRC p) →
    getFld (wide w) fSYNC_SRC_SRC ≤ 4 → s.syncOffsetsOk p (wide w) = true →
    exec (.syncSrcWrite who p w) s = .next ((if s.rd (rSYNC_SRC p) fSYNC_SRC_SRC = getFld (wide w) fSYNC_SRC_SRC then s.accepted
      else s.accepted.modPipe p (fun x => { x with nextEdges := [] })).settingWrite (rSYNC_SRC p) (wide w) true false)) ∧
  (∀ (who : Who) (p : Fin 8) (s : State), s.mayWrite who (rSYNC_CTRL p) → s.pst p = stRUNNING ∨ s.pst p = stBLANKED →
    (s.pipe p).present = true → (s.pipe p).offEdge = false →
    exec (.realign who p) s = .next (s.accepted.modPipe p (fun x => { x with realign := true }))) ∧
  (∀ (n : Fin 4) (rising : Bool) (t : Nat) (s : State), rising ≠ bitOf (s.rd rSYNC_IN_CFG fSYNC_IN_CFG_POL) n →
    exec (.referenceEdge n rising false t) s = .next (overN 8 (fun q s => s.seeEdge q (1 + n) t)
      (State.syncDrive { s.begin with syncIn := setBitN s.syncIn n rising } s.begin))) ∧
  (∀ (n : Fin 4) (rising short : Bool) (t : Nat) (s : State),
    rising = bitOf (s.rd rSYNC_IN_CFG fSYNC_IN_CFG_POL) n ∨ (short = true ∧ bitOf (s.rd rSYNC_IN_CFG fSYNC_IN_CFG_FILT) n = true) →
    exec (.referenceEdge n rising short t) s = .next (State.syncDrive { s.begin with syncIn := setBitN s.syncIn n rising } s.begin)) ∧
  (∀ (p : Fin 8) (s : State), ((s.pipe p).scanning = true ∨ (s.pipe p).gap = true) → s.syncSrcOf p ≠ 0 → (s.pipe p).base.isSome = true →
    exec (.missingFrame p) s = .next (s.begin.refMissing p)) ∧
  (∀ (o : Fin 2) (s : State), exec (.syncOutPulseEnd o) s =
    .next (State.syncDrive { s.begin with syncOut := setBitN s.syncOut o false } s.begin))

/-- The events of a frame complete: boundary, line, latch point, vertical blanking, writeback end. FRAME_BOUNDARY, LINE_START, LATCH_POINT,
VERTICAL_BLANKING_START and WRITEBACK_FRAME_DONE complete with a next state, written out, for every operand under the stated conditions;
with the readings of log entry 22. (R98, R101, R103, R38, R92, R46) -/
def Obligations.FrameCommandsComplete : Prop :=
  (∀ (p : Fin 8) (t : Nat) (o : Bool) (lost : BitVec 16) (s : State), (s.pipe p).scanning = true → (s.pipe p).vblank = true → (s.pipe p).stop ≠ .atBoundary →
    (s.pipe p).goTaken = false → exec (.frameBoundary p t o lost) s = .next (((s.begin.frameBegin p t o).losePulses p 1 (lost.toNat % 256)).losePulses p 2 (lost.toNat / 256))) ∧
  (∀ (p : Fin 8) (t : Nat) (o : Bool) (lost : BitVec 16) (s : State), (s.pipe p).scanning = true → (s.pipe p).vblank = true → (s.pipe p).stop = .atBoundary →
    exec (.frameBoundary p t o lost) s = .next ((((s.begin.closeTiles p).stopIdle p).losePulses p 1 (lost.toNat % 256)).losePulses p 2 (lost.toNat / 256))) ∧
  (∀ (p : Fin 8) (o : Bool) (lost : BitVec 8) (s : State), (s.pipe p).scanning = true → (s.pipe p).line + 1 < (s.tmg p).vtotal →
    exec (.lineStart p o lost) s = .next (let s1 := s.begin.modPipe p (fun x => { x with line := x.line + 1 })
      (((s1.showLine p).publishTtl p).composeLine p (s1.pipe p).line o).losePulses p 2 lost.toNat)) ∧
  (∀ (p : Fin 8) (s : State), (s.pipe p).scanning = true → (s.pipe p).latched = false → (s.tmg p).va - (s.pipe p).guard ≤ (s.pipe p).line →
    exec (.latchPoint p) s = .next (let s1 := (s.begin.wr (rTTL p) fTTL_WINDOW 0).modPipe p (fun x => { x with latched := true })
      ((((overN 16 (fun k s => s.latchPitch p k) ((s1.awnLatch p).latchCommits p)).latchGo p).decideNext p).showCap p).pipeVolt.setIslandStep p)) ∧
  (∀ (p : Fin 8) (lost : BitVec 8) (s : State), (s.pipe p).scanning = true → (s.pipe p).latched = true → (s.pipe p).vblank = false →
    (s.tmg p).va ≤ (s.pipe p).line →
    exec (.verticalBlankingStart p lost) s = .next (
      let s1 := s.begin.modPipe p (fun x => { x with vblank := true, spans := [], awn := [], awnAgain := .none })
      let s2 := ((s1.publishCommits p).decideCorrection p).publishTtl p
      ((if s2.hpdIgnored p && (s2.pst p == stRUNNING || s2.pst p == stBLANKED) then s2.modPipe p (fun x => { x with laneRead := true })
       else s2).frameTally p).losePulses p 0 lost.toNat)) ∧
  (∀ (p : Fin 8) (f : Nat) (one : Bool) (rest : List (Nat × Bool)) (s v : State),
    v = (if (s.tmg p).va ≤ (s.pipe p).line + 1 then s.begin.lineEnd p else s.begin) → (v.pipe p).wbLast = (f, one) :: rest →
    exec (.writebackFrameDone p) s = .next (
      let s1 := ((((v.wr (rWB_STAT p) fWB_STAT_OVF 0).wr (rWB_STAT p) fWB_STAT_FRAME_LO f).bumpEv (rWB_DONE p) 1).irq (v.wbHolder p) (80 + p))
      ((if one then (s1.wr (rWB_CFG p) fWB_CFG_EN 0).fwr (rWB_CFG p) fWB_CFG_EN 0 else s1).modPipe p
        (fun y => { y with wbLast := y.wbLast.drop 1 })).showWb p))

/-- LUT windows, fetch spans, awning lines and AFCLR complete. Writes of banks not in use, span and awning-line completions,
AWNING_FAULT_MASKED and AFCLR complete with a next state, written out, for every operand under the stated conditions; AFCLR clears exactly
the BAD bits it names and leaves CUR. (R83, R75, R77, R137, R138, R141) -/
def Obligations.FetchCommandsComplete : Prop :=
  (∀ (who : Who) (p : Fin 8) (k : Fin 1024) (w : W32) (s : State), s.mayWrite who (rDGM0 p k) → s.pst p = stSTOPPED →
    exec (.lutWindowWrite who p 0 k w) s = .next (s.accepted.settingWrite (rDGM0 p k) (wide w) true false)) ∧
  (∀ (who : Who) (p : Fin 8) (k : Fin 1024) (w : W32) (s : State), s.mayWrite who (rDGM1 p k) → s.bankUsed p fCCFG_DGM_BANK 1 = false →
    exec (.lutWindowWrite who p 1 k w) s = .next (s.accepted.settingWrite (rDGM1 p k) (wide w) true false)) ∧
  (∀ (who : Who) (p : Fin 8) (k : Fin 1024) (w : W32) (s : State), s.mayWrite who (rRGM0 p k) → s.bankUsed p fCCFG_RGM_BANK 0 = false →
    exec (.lutWindowWrite who p 2 k w) s = .next (s.accepted.settingWrite (rRGM0 p k) (wide w) true false)) ∧
  (∀ (who : Who) (p : Fin 8) (k : Fin 1024) (w : W32) (s : State), s.mayWrite who (rRGM1 p k) → s.bankUsed p fCCFG_RGM_BANK 1 = false →
    exec (.lutWindowWrite who p 3 k w) s = .next (s.accepted.settingWrite (rRGM1 p k) (wide w) true false)) ∧
  (∀ (p m : Fin 8) (line k : Nat) (e : Bool) (s : State),
    exec (.fetchSpanComplete p m line k e) s = .next (s.begin.fetchSpan p m line k e)) ∧
  (∀ (p : Fin 8) (y : Nat) (s : State), exec (.awningLineFetched p y) s = .next (s.begin.awnFetched p y)) ∧
  (∀ (p : Fin 8) (y : Nat) (s : State), (s.pipe p).scanning = true →
    exec (.awningFaultMasked p y) s = .next ((s.begin.bumpErr (rAFMASKED p)).kevt (0x10 + p) 0x04 0 y)) ∧
  (∀ (who : Who) (p : Fin 8) (w : W32) (s : State), s.mayWrite who (rAFCLR p) →
    ∃ t, exec (.afclr who p w) s = .next t ∧
      (bitOf (getFld (wide w) fAFCLR_CLR) 0 = true → t.rd (rAFSTAT p) fAFSTAT_BAD0 = 0) ∧
      (bitOf (getFld (wide w) fAFCLR_CLR) 0 = false → t.rd (rAFSTAT p) fAFSTAT_BAD0 = s.rd (rAFSTAT p) fAFSTAT_BAD0) ∧
      (bitOf (getFld (wide w) fAFCLR_CLR) 1 = true → t.rd (rAFSTAT p) fAFSTAT_BAD1 = 0) ∧
      (bitOf (getFld (wide w) fAFCLR_CLR) 1 = false → t.rd (rAFSTAT p) fAFSTAT_BAD1 = s.rd (rAFSTAT p) fAFSTAT_BAD1) ∧
      t.rd (rAFSTAT p) fAFSTAT_CUR = s.rd (rAFSTAT p) fAFSTAT_CUR)

/-- Fence writes and layer commits, cancels, releases and rejections complete. FVAL_WRITE sets the fence and FADD adds modulo 2^32;
LAYER_COMMIT becomes pending, held for the keeper or late; LAYER_CANCEL ends a pending commit; KREL releases or rejects held commits.
(R120, R99, R105, R108, R110, R114) -/
def Obligations.FenceAndLayerCommitCommandsComplete : Prop :=
  (∀ (who : Who) (st : Fin 16) (f : Fin 64) (w : W32) (s : State), s.mayWrite who (rFVAL (64 * st + f)) →
    exec (.fvalWrite who st f w) s = .next (s.accepted.wr (rFVAL (64 * st + f)) fFVAL_VAL w.toNat)) ∧
  (∀ (who : Who) (st : Fin 16) (f : Fin 64) (n : W32) (s : State), s.mayWrite who (rFADD (64 * st + f)) →
    ∃ t, exec (.fadd who st f n) s = .next t ∧ t = s.accepted.wr (rFVAL (64 * st + f)) fFVAL_VAL (s.fence st f + n.toNat) ∧
      t.fence st f = (s.fence st f + n.toNat) % 2 ^ 32) ∧
  (∀ (who : Who) (p m : Fin 8) (s : State), s.mayWrite who (rCOMMIT p m) → s.layerHeld p m = false → s.lateNow p = false →
    exec (.layerCommit who p m) s =
      .next ((s.accepted.modLay p m (fun l => { l with pending := true, held := false, late := false })).showPend p m)) ∧
  (∀ (who : Who) (p m : Fin 8) (s : State), s.mayWrite who (rCOMMIT p m) → s.layerHeld p m = false → s.lateNow p = true →
    exec (.layerCommit who p m) s =
      .next (((s.accepted.modLay p m (fun l => { l with pending := true, held := false, late := true })).showPend p m).bumpErr (rLLATE p m))) ∧
  (∀ (who : Who) (p m : Fin 8) (s : State), s.mayWrite who (rCOMMIT p m) → s.layerHeld p m = true →
    exec (.layerCommit who p m) s =
      .next (((s.accepted.modLay p m (fun l => { l with pending := true, held := true, late := false })).showPend p m).kevt (0x10 + p) 0x01 m
        (s.layerOwner p m))) ∧
  (∀ (who : Who) (p m : Fin 8) (s : State), s.mayWrite who (rCOMMIT p m) → (s.lay p m).pending = true →
    exec (.layerCancel who p m) s =
      .next (((((s.accepted.modLay p m (fun l => l.ended resCANCELLED)).showLayer p m).releaseNow p m)).flip p m)) ∧
  (∀ (who : Who) (p m : Fin 8) (s : State), s.mayWrite who (rCOMMIT p m) → (s.lay p m).pending = false →
    exec (.layerCancel who p m) s = .next s.accepted) ∧
  (∀ (who : Who) (p : Fin 8) (b : BitVec 8) (s : State), s.mayWrite who (rKREL p) →
    exec (.krelRelease who p b) s = .next (overN 8 (fun m s =>
      if (s.lay p m).pending && (s.lay p m).held then if bitOf b.toNat m then s.commitArrives p m else s else s) s.accepted)) ∧
  (∀ (who : Who) (p : Fin 8) (b : BitVec 8) (s : State), s.mayWrite who (rKREL p) →
    exec (.krelReject who p b) s = .next (overN 8 (fun m s =>
      if (s.lay p m).pending && (s.lay p m).held then if bitOf b.toNat m then s.dropCommit p m resREJECTED true else s else s) s.accepted))

/-- Pipe, lockstep and awning commits and their cancels complete. PIPE_COMMIT, LOCKSTEP_REQUEST, CANCEL_PIPE, CANCEL_LOCK, AWNING_COMMIT and
AWNING_CANCEL complete with a next state, written out, for every operand under the stated conditions; a late one advances PLATE. (R104,
R105, R112, R118, R140) -/
def Obligations.GroupCommitCommandsComplete : Prop :=
  (∀ (who : Who) (p : Fin 8) (s : State), s.mayWrite who (rPCOMMIT p) →
    exec (.pipeCommit who p) s =
      .next (((s.accepted.modPipe p (fun x => { x with pipePend := true, pipeLate := s.lateNow p })).plate p).showPcommit p)) ∧
  (∀ (who : Who) (p : Fin 8) (s : State), s.mayWrite who (rPCOMMIT p) → colourOnly who = false →
    exec (.lockstepRequest who p) s =
      .next (((s.accepted.modPipe p (fun x => { x with lockPend := true, lockLate := s.lateNow p })).plate p).showPcommit p)) ∧
  (∀ (who : Who) (p : Fin 8) (s : State), s.mayWrite who (rPCOMMIT p) → (s.pipe p).pipePend = true →
    exec (.cancelPipe who p) s =
      .next (((s.accepted.modPipe p (fun x => { x with pipePend := false })).presultNow p resCANCELLED).showPcommit p)) ∧
  (∀ (who : Who) (p : Fin 8) (s : State), s.mayWrite who (rPCOMMIT p) → colourOnly who = false → (s.pipe p).lockPend = true →
    exec (.cancelLock who p) s =
      .next (((s.accepted.modPipe p (fun x => { x with lockPend := false })).presultNow p resCANCELLED).showPcommit p)) ∧
  (∀ (who : Who) (p : Fin 8) (s : State), s.mayWrite who (rPCOMMIT p) → colourOnly who = true →
    exec (.lockstepRequest who p) s = .next ((s.accepted.refuse (rPCOMMIT p)).showPcommit p) ∧
    exec (.cancelLock who p) s = .next ((s.accepted.refuse (rPCOMMIT p)).showPcommit p)) ∧
  (∀ (who : Who) (p : Fin 8) (s : State), s.mayWrite who (rACOMMIT p) →
    exec (.awningCommit who p) s =
      .next (((s.accepted.modPipe p (fun x => { x with awnPend := true, awnLate := s.lateNow p })).plate p).showPcommit p)) ∧
  (∀ (who : Who) (p : Fin 8) (s : State), s.mayWrite who (rACOMMIT p) →
    exec (.awningCancel who p) s = .next ((s.accepted.modPipe p (fun x => { x with awnPend := false })).showPcommit p)) ∧
  (∀ (s : State) (p : Nat), s.lateNow p = false → s.plate p = s) ∧
  (∀ (s : State) (p : Nat), s.lateNow p = true → s.plate p = s.bumpErr (rPLATE p))

/-- Pitch configuration, commit, clear, staged pair and comparison complete. PCFG_WRITE, PITCH_COMMIT, PITCH_CLEAR, EXP_CTL (guest and keeper)
and PITCH_COMPARE complete with a next state, written out, for every operand under the stated conditions; the pair staged is the expected
value and the alive counter. (R121, R127, R128, R132, R135) -/
def Obligations.PitchCommandsComplete : Prop :=
  (∀ (who : Who) (p : Fin 8) (k : Fin 16) (w : W32) (st : Nat) (s : State), s.mayWrite who (rPCFG p k) → pcfgOwner (wide w) = some st →
    s.stallState st ≠ 0 → s.sealed st = true →
    exec (.pcfgWrite who p k w) s = .next (s.accepted.settingWrite (rPCFG p k) (wide w) true false)) ∧
  (∀ (who : Who) (p : Fin 8) (k : Fin 16) (w : W32) (s : State), s.mayWrite who (rPCFG p k) → pcfgOwner (wide w) = none →
    exec (.pcfgWrite who p k w) s = .next (s.accepted.settingWrite (rPCFG p k) (wide w) true false)) ∧
  (∀ (who : Who) (p : Fin 8) (ks : BitVec 16) (s : State), s.mayWrite who (rPITCH_CTRL p) →
    exec (.pitchCommit who p ks) s = .next (overN 16 (fun k s =>
      if bitOf ks.toNat k then (s.wr (rPITCH_PEND p) ⟨k, 1⟩ 1).plate p else s) s.accepted)) ∧
  (∀ (who : Who) (p : Fin 8) (ks : BitVec 16) (s : State), s.mayWrite who (rPITCH_CTRL p) →
    exec (.pitchClear who p ks) s = .next (overN 16 (fun k s => if bitOf ks.toNat k then s.pitchClear p k else s) s.accepted)) ∧
  (∀ (st : Fin 16) (p : Fin 8) (k : Fin 16) (a : BitVec 4) (s : State), s.mayWrite (.stall st) (rEXP_CTL st (16 * p + k)) →
    exec (.expCtl (.stall st) p k a) s = .next (s.accepted.modPitch p k (fun x =>
      { x with pend := (BitVec.ofNat 32 (s.rd (rEXP_VAL st (16 * p + k)) fEXP_VAL_VAL), a) }))) ∧
  (∀ (p : Fin 8) (k : Fin 16) (a : BitVec 4) (s : State), s.mayWrite .keeper (rPEXP_CTL p k) → pcfgOwner (s.rw (rPCFG p k)) = none →
    exec (.expCtl .keeper p k a) s = .next (s.accepted.modPitch p k (fun x =>
      { x with pend := (BitVec.ofNat 32 (s.rd (rPEXP_VAL p k) fPEXP_VAL_VAL), a) }))) ∧
  (∀ (p : Fin 8) (k : Fin 16) (s : State), (s.pipe p).scanning = true → s.pitchOn .scan p k = true → (s.pitch p k).done = false →
    s.pitchLastLine p k ≤ (s.pipe p).line → exec (.pitchCompare p k) s = .next ((s.begin.lineEnd p).pitchCompare p k))

/-- The ledger's commands complete. LEDGER_INIT, LEDGER_ENABLE, SEAL, LEDGER_APPEND, SEAL_PERIOD_WRITE, SEAL_PERIOD_EXPIRY, SEAL_COMPLETE,
LG_ACK_WRITE, LG_CFG_WRITE and LEDGER_SUBMIT complete with a next state, written out, for every operand under the stated conditions; with
the readings of log entry 24. (R142, R144, R145, R147, R149) -/
def Obligations.LedgerCommandsComplete : Prop :=
  (∀ (who : Who) (en : Bool) (rnd : BitVec 128) (s : State), s.mayWrite who rLG_CTRL → s.ledEnabled = false →
    exec (.ledgerInit who en rnd) s =
      .next (s.accepted.lgCtrl (putFld (wBit (s.rw rLG_CTRL) fLG_CTRL_INIT) fLG_CTRL_EN (b2n en)) rnd)) ∧
  (∀ (who : Who) (en fb : Bool) (s : State), s.mayWrite who rLG_CTRL →
    exec (.ledgerEnable who en fb) s =
      .next (s.accepted.lgCtrl (putFld (putFld (s.rw rLG_CTRL) fLG_CTRL_EN (b2n en)) fLG_CTRL_FULL_BLANK (b2n fb)) 0)) ∧
  (∀ (who : Who) (s : State), s.mayWrite who rLG_CTRL →
    exec (.sealLedger who) s = .next (s.accepted.lgCtrl (wBit (s.rw rLG_CTRL) fLG_CTRL_SEAL) 0)) ∧
  (∀ (s : State) (e : LedEntry) (q : List LedEntry), s.led.queue = e :: q →
    exec .ledgerAppend s = .next ((s.begin.modLed (fun x => { x with queue := q })).ledAppend e)) ∧
  (∀ (who : Who) (w : W32) (s : State), s.mayWrite who rLG_SEALCFG → regBadRange rLG_SEALCFG (wide w) = false →
    ∃ t, exec (.sealPeriodWrite who w) s = .next t ∧ t.rd rLG_SEALCFG fLG_SEALCFG_SEAL_PERIOD_S = getFld (wide w) fLG_SEALCFG_SEAL_PERIOD_S ∧
      t.led = { s.led with period := decide (getFld (wide w) fLG_SEALCFG_SEAL_PERIOD_S ≠ 0) }) ∧
  (∀ (s : State), s.led.period = true → s.dstate < 6 → exec .sealPeriodExpiry s = .next s.begin.sealReq) ∧
  (∀ (s : State), s.dstate < 6 → exec .sealComplete s = .next s.begin.sealDone) ∧
  (∀ (who : Who) (w : W32) (s : State), s.mayWrite who rLG_ACK → getFld (wide w) fLG_ACK_INDEX < s.ringSize →
    s.ringDist s.ringAck (getFld (wide w) fLG_ACK_INDEX) ≤ s.ringDist s.ringAck s.ringWr →
    exec (.lgAckWrite who w) s = .next ((s.accepted.settingWrite rLG_ACK (wide w) true false).ledFreed)) ∧
  (∀ (who : Who) (w : W32) (s : State), s.mayWrite who rLG_CFG → s.led.queue = [] → s.ledEnabled = false →
    getFld (wide w) fLG_CFG_RING_BASE + getFld (wide w) fLG_CFG_RING_GRAINS ≤ 768 → regBadRange rLG_CFG (wide w) = false →
    ∃ t, exec (.lgCfgWrite who w) s = .next t ∧ t = s.accepted.wrLgCfg (wide w) ∧
      (s.ledFull = false → s.on rLG_STAT fLG_STAT_SEAL_WAIT = false → t.led.next = 0 ∧ t.led.sealing = none ∧ t.led.sealSlots = [] ∧ t.ledFull = false)) ∧
  (∀ (st : Fin 16) (w : W32) (s : State), s.mayWrite (.stall st) (rLSUB_CTRL st) → getFld (wide w) fLSUB_CTRL_GO = 1 →
    s.on (rLSUB_STAT st) fLSUB_STAT_BUSY = false → s.ledEnabled = true → s.dstate < 6 →
    exec (.ledgerSubmit st w) s = .next ((s.accepted.wr (rLSUB_STAT st) fLSUB_STAT_BUSY 1).ledger
      { typ := 2, pipe := getFld (wide w) fLSUB_CTRL_PIPE, source := st, code := getFld (wide w) fLSUB_CTRL_TAG
        payload := (List.range 8).flatMap (fun k => bytesLE 4 (s.rd (rLSUB_DATA st k) fLSUB_DATA_DATA)) }))

/-- RASTER_RUN, RASTER_STOP, floors, kills, tile-memory errors and long units complete. These commands complete with a next state, written
out, for every operand under the stated conditions; a killed tile ends its item with KILLED, a corrected error is counted, an
uncorrectable one fails the item. (R151, R159, R162, R182, R197) -/
def Obligations.RasterCommandsComplete : Prop :=
  (∀ (who : Who) (s : State), s.mayWrite who rRCTRL → s.rstate = rsSTOPPED → 3 ≤ s.dstate →
    exec (.rasterRun who) s = .next (let a := s.accepted.wr rRSTAT fRSTAT_STATE rsRUNNING
      (a.wr rTLP_STAT fTLP_STAT_FREE a.poolFree).gpuKick.msrCompare)) ∧
  (∀ (who : Who) (s : State), s.mayWrite who rRCTRL → s.rstate = rsRUNNING →
    exec (.rasterStop who) s = .next (s.accepted.wr rRSTAT fRSTAT_STATE (if s.activeItems = 0 then rsSTOPPED else rsSTOPPING))) ∧
  (∀ (it : WorkItem) (s : State), s.floorNext [] s.gpu.floorQ = some it →
    exec .passFloorReserved s = .next (
      let s1 := s.begin.modItem it.q it.seq (fun x => { x with stage := .bin, chunks := rpdTiles x.desc })
      ((s1.setGpu (fun g => { g with floorQ := g.floorQ.filter (fun k => k != (it.q, it.seq)) })).showPool it.st).gpuKick)) ∧
  (∀ (cl : Fin 12) (times : List UnitTime) (u : GUnit) (it : WorkItem) (s : State), s.unit cl = some u → s.gpuItem u.q u.seq = some it →
    u.kind = 2 →
    exec (.computeTileKill cl times) s = .next ((((s.begin.endUnit cl ⟨2000000, (times.getD cl.val ⟨0, 0⟩).cycles⟩).cutUnits u.q u.seq
      times).bumpErr (rGKILL it.st)).endItem it rcKILLED).gpuKick) ∧
  (∀ (cl : Fin 12) (t : UnitTime) (u : GUnit) (s : State), s.unit cl = some u →
    exec (.tileMemoryError cl false t) s = .next (s.begin.bumpErr (rTM_CORR (cl / 3) (cl % 3)))) ∧
  (∀ (cl : Fin 12) (t : UnitTime) (u : GUnit) (s : State), s.unit cl = some u →
    exec (.tileMemoryError cl true t) s = .next (
      let s1 := ((s.begin.bumpErr (rTM_UNCORR (cl / 3) (cl % 3))).modItem u.q u.seq (fun it => { it with fail := rcTM_UNCORR })).endUnit cl t
      (if u.kind = 0 then s1.cutUnits u.q u.seq [] else s1).gpuKick)) ∧
  (∀ (res : Fin 14) (u : GUnit) (s : State), s.unit res = some u → u.kind ≠ 2 → u.long = false → (u.kind = 0 → 12 ≤ res.val) →
    exec (.longUnit res) s = .next ((s.begin.bumpErr rGS_LONG).setUnit res (some { u with long := true })))

/-- Draws, render tiles, compute tiles, scheduler epochs and deadline windows complete. DRAW_BINNED, RENDER_TILE_DONE, COMPUTE_TILE_DONE,
SCHEDULER_EPOCH, DEADLINE_WINDOW_OPEN and LATCH_EVENT complete with a next state, written out, for every operand under the stated
conditions; what programs compute is an operand (log entry 26). (R158, R160, R162, R181, R185, R192, R196) -/
def Obligations.RasterUnitsComplete : Prop :=
  (∀ (s : State) (r : Nat) (u : GUnit) (it : WorkItem) (ops : List GpuOp) (fin : State → State), s.gpuFrozen it.st = false → u.todo = [] →
    u.ending = false → ((s.setUnit r (some { u with todo := ops, ending := true })).runUnit r).gpuFrozen it.st = false →
    s.unitRun r u it ops fin = (fin ((s.setUnit r (some { u with todo := ops, ending := true })).runUnit r)).gpuKick) ∧
  (∀ (slot : Fin 2) (prog : DrawProg) (prims : List BinPrim) (run : UnitRun) (u : GUnit) (it : WorkItem) (s : State),
    s.unit (12 + slot) = some u → s.gpuItem u.q u.seq = some it → s.gpuFrozen it.st = false → u.todo = [] → u.tile = 1 →
    exec (.drawBinned slot prog prims run) s = .next ((s.begin.binDraw it []).endUnit (12 + slot) ⟨0, 0⟩).gpuKick) ∧
  (∀ (slot : Fin 2) (prog : DrawProg) (prims : List BinPrim) (run : UnitRun) (u v : GUnit) (cl : Nat) (it : WorkItem) (s : State),
    s.unit (12 + slot) = some u → s.gpuItem u.q u.seq = some it → s.gpuFrozen it.st = false → u.todo = [] → u.tile ≠ 1 →
    (s.unitsOf u.q u.seq).find? (fun k => decide (k < 12)) = some cl → s.unit cl = some v →
    exec (.drawBinned slot prog prims run) s = .next (s.begin.unitRun cl v it
      ((if drawIndexed (it.drawBytes it.draw) && it.rest == [] then [GpuOp.index (fieldAt (it.drawBytes it.draw) 0x18 4)] else []) ++ accOps run.accs) (fun s =>
      (s.unitEnd cl it run (fun x s =>
        if x.rest = [] then
          let idx := match s.unit cl with | some w => w.idx | none => []
          let s1 := s.drawAssembled cl x prog idx
          let ps := prims.take ((drawPrims (it.drawBytes it.draw) idx).length * fieldAt (it.drawBytes it.draw) 0x20 4)
          match s1.gpuItem x.q x.seq with | some y => s1.binDraw y ps | none => s1
        else s.binDraw x x.rest)).endUnit (12 + slot) ⟨0, 0⟩))) ∧
  (∀ (cl : Fin 12) (frags : List TileFrag) (run : UnitRun) (u : GUnit) (it : WorkItem) (s : State), s.unit cl = some u →
    s.gpuItem u.q u.seq = some it → u.kind = 1 →
    exec (.renderTileDone cl frags run) s = .next (s.begin.unitRun cl u it (accOps run.accs ++ [.shade frags, .store]) (fun s =>
      s.unitEnd cl it run (fun _ s =>
        let s1 := s.modItem u.q u.seq (fun x => if x.stage = .partialRender then { x with spilled := x.spilled ++ [u.tile] } else x)
        ((s1.bumpEv (rTILES (cl / 3) (cl % 3)) 1).bumpEv (rFRAGS (cl / 3) (cl % 3)) run.frags).bumpEv
          (rILK_WAIT (cl / 3) (cl % 3)) run.ilkWait)))) ∧
  (∀ (cl : Fin 12) (run : UnitRun) (u : GUnit) (it : WorkItem) (s : State), s.unit cl = some u → s.gpuItem u.q u.seq = some it → u.kind = 2 →
    exec (.computeTileDone cl run) s =
      .next (s.begin.unitRun cl u it (accOps run.accs) (fun s => s.unitEnd cl it run (fun _ s => s)))) ∧
  (∀ (s : State), s.power.inReset = false → 1 ≤ s.dstate →
    exec .schedulerEpoch s = .next (
      let s1 := if s.dstate = 1 then s.begin else overN 16 (fun st s =>
        let a := (s.latch (rShare st)).latch (if st = 0 then rGADM0 else rGADM (st - 1))
        a.setCredit st (max (-12000000) (min (a.credit st) 0) + a.budget st)) s.begin
      let s2 := s1.bumpEv rGS_EPOCHS 1
      (s2.wr rGS_STAT fGS_STAT_EPOCH_LO (s2.lv rGS_EPOCHS).toNat).gpuKick)) ∧
  (∀ (p : Fin 8) (s : State), s.on (rTTL p) fTTL_WINDOW = true →
    exec (.deadlineWindowOpen p) s = .next ((s.begin.setGpu (fun g =>
      { g with win := setBitN g.win p true, items := g.items.map (fun it => { it with preempted := false }) })).gpuKick)) ∧
  (∀ (p : Fin 8) (s : State), bitOf s.gpu.win p = true →
    exec (.latchEvent p) s = .next (
      let s1 := overN 64 (fun q s =>
        if s.qattr q fGQATTR_DL_EN = 1 ∧ s.qattr q fGQATTR_DL_PIPE = p then
          match s.queueOwner q with
          | some st => if s.stallState st = 2 ∨ s.gpuFrozen st = true then s else s.bumpErrN (rGDLMISS st) (s.urgentItems q).length
          | none => s
        else s) s.begin
      (s1.setGpu (fun g => { g with win := setBitN g.win p false })).gpuKick))

/-- A ring doorbell moves QTAIL forward within the ring and is refused otherwise; a chain doorbell is remembered. A doorbell whose value is
not behind QTAIL and not more than the ring size ahead of QDONE sets QTAIL; any other is refused and counted in QREFUSED; in CHAIN mode it
sets DB_SEEN or starts the read it asks for. (R227, R229, R230) -/
def Obligations.DoorbellRule : Prop :=
  (∀ (st : Fin 16) (q : Fin 64) (w : W32) (s : State), s.mayWrite (.stall st) (rQDB st q) → s.qchain q = false →
    since32 w.toNat (s.qtail q) < 2 ^ 31 → since32 w.toNat (s.qdone q) ≤ s.qsize q →
    exec (.doorbell st q w) s = .next (s.accepted.wr (rQTAIL q) fQTAIL_TAIL w.toNat)) ∧
  (∀ (st : Fin 16) (q : Fin 64) (w : W32) (s : State), s.mayWrite (.stall st) (rQDB st q) → s.qchain q = false →
    (2 ^ 31 ≤ since32 w.toNat (s.qtail q) ∨ s.qsize q < since32 w.toNat (s.qdone q)) →
    exec (.doorbell st q w) s = .next ((s.accepted.refuse (rQDB st q)).bumpErr (rQREFUSED q))) ∧
  (∀ (st : Fin 16) (q : Fin 64) (w : W32) (s : State), s.mayWrite (.stall st) (rQDB st q) → s.qchain q = true →
    exec (.doorbell st q w) s = .next (s.accepted.modQueue q (fun x =>
      if (x.run == .running && !x.next && !x.linking) && x.unread then { x with dbSeen := true, next := true, unread := false }
      else if x.run == .running && !x.next && !x.linking then { x with dbSeen := false, linking := true }
      else { x with dbSeen := true })))

/-- Queue enable, disable, base writes and the disable limit complete. QUEUE_DISABLE, QUEUE_ENABLE, QBASE_WRITE and QUEUE_DISABLE_LIMIT
complete with a next state, written out, for every operand under the stated conditions; a queue with nothing left and no owner becomes
STOPPED. (R231, R232, R207) -/
def Obligations.QueueControlCommandsComplete : Prop :=
  (∀ (who : Who) (q : Fin 64) (s : State), s.mayWrite who (rQCFG q) →
    exec (.queueDisable who q) s = .next (s.accepted.wrQcfg q (putFld (s.rw (rQCFG q)) fQCFG_EN 0))) ∧
  (∀ (who : Who) (q : Fin 64) (s : State), s.mayWrite who (rQCFG q) →
    exec (.queueEnable who q) s = .next (s.accepted.wrQcfg q (putFld (s.rw (rQCFG q)) fQCFG_EN 1))) ∧
  (∀ (who : Who) (q : Fin 64) (high : Bool) (w : W32) (s : State), s.mayWrite who (if high then rQBASE_HI q else rQBASE_LO q) →
    exec (.qbaseWrite who q high w) s = .next (s.accepted.wrQbase q (if high then rQBASE_HI q else rQBASE_LO q) (wide w))) ∧
  (∀ (q : Fin 64) (times : List UnitTime) (s : State), (s.queue q).run = .stopping →
    exec (.queueDisableLimit q times) s = .next ((s.begin.queueSquash q times).queueSettle q)) ∧
  (∀ (s : State) (q : Nat), (s.queue q).run = .stopping → (s.queue q).items = [] → s.queueOwner q = none →
    s.queueSettle q = s.modQueue q (fun x => { x with run := .stopped }))

/-- Descriptor fetch, LINK read, item start and item end complete. DESCRIPTOR_FETCHED admits the descriptor and moves QHEAD; LINK_WORD_READ
goes on or parks; ITEM_START starts a valid descriptor whose wait fence is reached; WORK_ITEM_END writes the completion, signals, advances
QDONE and interrupts. (R224, R225, R226, R228, R229) -/
def Obligations.QueueItemCommandsComplete : Prop :=
  (∀ (st : Fin 16) (host : Option (List Byte)) (q : Nat) (s s1 : State) (d : Option (List Byte)), s.running = true → s.stallState st = 1 →
    s.outstanding st < s.admitMax st → s.admitNext st = some q → s.qchain q = false →
    s.begin.queueRead st q ((s.queueBase q + 64 * (s.qhead q % s.qsize q)) % 2 ^ 64) 64 host = (s1, some d) →
    exec (.descriptorFetched st host) s = .next ((({ s1 with admitted := storePut (fun _ => 0) s1.admitted st ((q + 1) % 64) }).wr (rQHEAD q)
      fQHEAD_HEAD (s1.qhead q + 1)).modQueue q (fun x => { x with items := x.items ++ [({
        seq := s1.qhead q, addr := (s.queueBase q + 64 * (s.qhead q % s.qsize q)) % 2 ^ 64, desc := d } : QItem)] }))) ∧
  (∀ (q : Fin 64) (w : W64) (st : Nat) (s s1 : State) (b : Option (List Byte)), s.queueOwner q = some st → (s.queue q).linking = true →
    s.masterFrozen st 1 q = false → s.stallState st ≠ 4 → w.toNat % 2 = 0 →
    s.begin.queueRead st q ((s.queuePos q + 0x38) % 2 ^ 64) 8 (some (bytesLE 8 w.toNat)) = (s1, some b) →
    exec (.linkWordRead q (.word w)) s =
      .next ((s1.setQueuePos q (w.toNat / 64 * 64)).modQueue q (fun x => { x with linking := false, next := true }))) ∧
  (∀ (q : Fin 64) (w : W64) (st : Nat) (s s1 : State) (b : Option (List Byte)), s.queueOwner q = some st → (s.queue q).linking = true →
    s.masterFrozen st 1 q = false → s.stallState st ≠ 4 → w.toNat % 2 = 1 →
    s.begin.queueRead st q ((s.queuePos q + 0x38) % 2 ^ 64) 8 (some (bytesLE 8 w.toNat)) = (s1, some b) →
    exec (.linkWordRead q (.word w)) s =
      .next (s1.modQueue q (fun x => if x.dbSeen then { x with dbSeen := false } else { x with linking := false }))) ∧
  (∀ (q : Fin 64) (st : Nat) (x : QItem) (d : List Byte) (s : State), s.queueOwner q = some st → s.stallState st = 1 ∨ s.stallState st = 3 →
    s.masterFrozen st 1 q = false → (s.queue q).items.find? (fun y => !y.started) = some x → x.desc = some d →
    s.queueDescOk st q d = true → qFlag d 0 = false ∨ fenceReached (s.fence st (fieldAt d 2 1)) (fieldAt d 4 4) = true →
    s.prevDone q x.seq = true →
    exec (.itemStart q) s = .next (s.begin.startQItem st q x d)) ∧
  (∀ (q : Fin 64) (st r p : Nat) (x : QItem) (l : List QItem) (s s0 s1 : State), s.queueOwner q = some st → (s.queue q).items = x :: l →
    x.result = some r → x.compl = false → s.masterFrozen st 1 q = false →
    s.begin.gateCheck st ((x.addr + 0x30) % 2 ^ 64) true true = (s0, .phys p) →
    s1 = (s0.memStore p (bytesLE 4 (2 ^ 31 + r % 256) ++ bytesLE 4 0)).1 → s1.masterFrozen st 1 q = false →
    exec (.workItemEnd q) s = .next (
      let d := x.desc.getD []
      let s2 := if qFlag d 1 && (r == 0 || qFlag d 2) && decide (fieldAt d 3 1 < 64) then s1.setFence st (fieldAt d 3 1) (fieldAt d 8 4) else s1
      let s3 := (s2.wr (rQDONE q) fQDONE_DONE (s2.qdone q + 1)).bumpEv (rQITEMS q) 1
      let s4 := s3.modQueue q (fun x => { x with items := l })
      let s5 := if qFlag d 3 then s4.irq st q else s4
      (s5.queueSettle q).gpuKick))

/-- The life of a stall: create, start, reset, thaw, destroy, PCIe resets, drain, clear. CREATE, STALL_START, STALL_RESET, THAW, DESTROY,
VF_ENABLE_CLEARED, BUS_MASTER_ENABLE_CLEARED, FUNCTION_LEVEL_RESET, DRAIN_LIMIT, RESET_DONE and CLEARING_DONE complete with a next state,
written out, for every operand under the stated conditions; with the readings of log entries 33 to 35. (R208, R210, R211, R217, R237,
R238, R239, R241, R242) -/
def Obligations.StallCommandsComplete : Prop :=
  (∀ (who : Who) (st : Fin 16) (s : State), s.mayWrite who (rSCTRL st) → s.createCheck st = 0 → 3 ≤ s.dstate →
    exec (.create who st) s = .next ((s.accepted.wr (rSSTAT st) fSSTAT_CREATE_ERR 0).toStall st 4)) ∧
  (∀ (who : Who) (st : Fin 16) (s : State), s.mayWrite who (rSCTRL st) → 1 < s.createCheck st → 3 ≤ s.dstate →
    exec (.create who st) s = .next (s.accepted.wr (rSSTAT st) fSSTAT_CREATE_ERR (s.createCheck st))) ∧
  (∀ (who : Who) (st : Fin 16) (s : State), s.mayWrite who (rSCTRL st) → s.stallState st = 4 → st ≠ 0 → 4 ≤ s.dstate →
    exec (.stallStart who st) s = .next (s.accepted.stallGo st)) ∧
  (∀ (who : Who) (st : Fin 16) (s : State), s.mayWrite who (rSCTRL st) → st ≠ 0 → who ≠ .keeper → s.stallState st = 1 ∨ s.stallState st = 2 →
    exec (.stallReset who st) s = .next (s.accepted.stallDrain st 0)) ∧
  (∀ (st : Fin 16) (s : State), s.mayWrite .keeper (rSCTRL st) → s.stallState st = 1 ∨ s.stallState st = 2 →
    exec (.stallReset .keeper st) s = .next (s.accepted.stallDrain st 4)) ∧
  (∀ (who : Who) (st : Fin 16) (s : State), s.mayWrite who (rSCTRL st) → st ≠ 0 → s.stallState st = 2 →
    s.on (rSSTAT st) fSSTAT_VREC_READ = true →
    exec (.thaw who st) s = .next ((((((s.accepted.wr (rSSTAT st) fSSTAT_VREC_VALID 0).wr (rSSTAT st) fSSTAT_VREC_READ 0).thawMasters
      st).toStall st 1).dmThawed).gpuKick)) ∧
  (∀ (who : Who) (st : Fin 16) (s : State), s.mayWrite who (rSCTRL st) → st ≠ 0 → s.stallState st = 4 →
    exec (.destroy who st) s = .next (s.accepted.stallDestroy st)) ∧
  (∀ (ep : Fin 2) (s : State), exec (.vfEnableCleared ep) s = .next (overN 16 (fun st s =>
    if s.running ∧ st ≠ 0 ∧ s.stallState st ≠ 0 ∧ (s.binding st).1 = ep ∧ 1 ≤ (s.binding st).2 then s.stallDrain st 2 else s) s.begin)) ∧
  (∀ (ep : Fin 2) (fn : Fin 16) (st : Nat) (s : State), s.running = true → s.boundStall ep fn = some st → st ≠ 0 →
    exec (.busMasterEnableCleared ep fn) s = .next (s.begin.stallDrain st 3)) ∧
  (∀ (ep : Fin 2) (fn : Fin 16) (st : Nat) (s : State), s.running = true → s.boundStall ep fn = some st →
    exec (.functionLevelReset ep fn) s = .next ((((overN 64 (fun v s => (((s.setRw (rMSIX st (4 * v)) 0).setRw (rMSIX st (4 * v + 1)) 0).setRw
      (rMSIX st (4 * v + 2)) 0).setRw (rMSIX st (4 * v + 3)) 1) (s.begin.setFnCfg ep fn {})).setRw (rPBA st 0) 0).setRw (rPBA st 1) 0).stallDrain st 1)) ∧
  (∀ (st : Fin 16) (times : List UnitTime) (s : State), s.running = true → s.stallState st = 3 → bitOf s.squashed st = false →
    ∃ t, exec (.drainLimit st times) s = .next t ∧ bitOf t.squashed st = true) ∧
  (∀ (st : Fin 16) (s : State), s.running = true → s.stallState st = 3 → bitOf s.squashed st = true → s.stallBusy st = false →
    exec (.resetDone st) s = .next (s.begin.resetDone st)) ∧
  (∀ (st : Fin 17) (s : State), s.works = true → s.stallState st ≠ 5 ∨ st.val = 16 →
    exec (.clearingDone st) s = .next ((s.clearing.filter (fun e => e.1 == st.val)).foldl
      (fun (s : State) (e : Nat × Bool × Nat) => (s.zeroOwned e.2.1 e.2.2).setOwner e.2.1 e.2.2 ownFREE)
      { s.begin with clearing := s.clearing.filter (fun e => e.1 != st.val) })) ∧
  (∀ (st : Fin 17) (s : State), s.works = true → s.stallState st = 5 → st.val < 16 →
    exec (.clearingDone st) s = .next (((s.clearing.filter (fun e => e.1 == st.val)).foldl
      (fun (s : State) (e : Nat × Bool × Nat) => (s.zeroOwned e.2.1 e.2.2).setOwner e.2.1 e.2.2 ownFREE)
      { s.begin with clearing := s.clearing.filter (fun e => e.1 != st.val) }).stallFreed st))

/-- TINV, TINV_DONE, OWNER_TABLE_WRITE and SCFG_WRITE complete. TINV, TINV_DONE, OWNER_TABLE_WRITE (an SRAM word below 192, a DRAM word of the
installed part) and SCFG_WRITE complete with a next state, written out, for every operand under the stated conditions; TINV drops the
translations it names and sets BUSY until TINV_DONE; OWNER_TABLE_WRITE changes the entries that R216 lets change; SCFG takes binding and
SEALED in FREE or RESET and is refused elsewhere. (R203, R204, R215, R216, R246) -/
def Obligations.TranslationAndTableCommandsComplete : Prop :=
  (∀ (who : Who) (all : Bool) (st : Fin 16) (sa : BitVec 20) (s : State), s.mayWrite who rTINV → s.on rTINV_STAT fTINV_STAT_BUSY = false →
    exec (.tinv who all st sa) s = .next (({ s.accepted with tlb := s.tlb.filter (fun p =>
      !(if all then p.1 / 2 ^ 20 == st.val else p.1 == 2 ^ 20 * st + sa.toNat)) }).wr rTINV_STAT fTINV_STAT_BUSY 1)) ∧
  (∀ (s : State), exec .tinvDone s = .next (s.begin.wr rTINV_STAT fTINV_STAT_BUSY 0)) ∧
  (∀ (who : Who) (k : Fin 4096) (w : W32) (s : State), k.val < 192 → s.mayWrite who (rOWN_SRAM k) →
    exec (.ownerTableWrite who true k w) s = .next (s.accepted.wrOwners true k (wide w))) ∧
  (∀ (who : Who) (k : Fin 4096) (w : W32) (s : State), s.mayWrite who (rOWN_DRAM k) →
    exec (.ownerTableWrite who false k w) s = .next (s.accepted.wrOwners false k (wide w))) ∧
  (∀ (who : Who) (st : Fin 16) (w : W32) (s : State), s.mayWrite who (rSCFG st) → st ≠ 0 → s.stallState st = 0 →
    getFld (wide w) fSCFG_SEALED = s.rd (rSCFG st) fSCFG_SEALED ∨ whoTrusted who = true →
    exec (.scfgWrite who st w) s = .next (((s.accepted.wr (rSCFG st) fSCFG_EP (getFld (wide w) fSCFG_EP)).wr (rSCFG st) fSCFG_FUNC
      (getFld (wide w) fSCFG_FUNC)).wr (rSCFG st) fSCFG_SEALED (getFld (wide w) fSCFG_SEALED))) ∧
  (∀ (who : Who) (st : Fin 16) (w : W32) (s : State), s.mayWrite who (rSCFG st) → st ≠ 0 → s.stallState st = 4 →
    (getFld (wide w) fSCFG_EP, getFld (wide w) fSCFG_FUNC) ≠ (s.mgrEp, 0) →
    (∀ t < 16, t ≠ st.val → s.stallState t ≠ 0 → s.binding t ≠ (getFld (wide w) fSCFG_EP, getFld (wide w) fSCFG_FUNC)) →
    getFld (wide w) fSCFG_SEALED = s.rd (rSCFG st) fSCFG_SEALED ∨ whoTrusted who = true →
    exec (.scfgWrite who st w) s = .next (((s.accepted.wr (rSCFG st) fSCFG_EP (getFld (wide w) fSCFG_EP)).wr (rSCFG st) fSCFG_FUNC
      (getFld (wide w) fSCFG_FUNC)).wr (rSCFG st) fSCFG_SEALED (getFld (wide w) fSCFG_SEALED))) ∧
  (∀ (who : Who) (st : Fin 16) (w : W32) (s : State), s.mayWrite who (rSCFG st) → s.stallState st ≠ 0 → s.stallState st ≠ 4 →
    getFld (wide w) fSCFG_SEALED ≠ s.rd (rSCFG st) fSCFG_SEALED →
    exec (.scfgWrite who st w) s = .next (s.accepted.refuse (rSCFG st)))

/-- A stall's entry of an owner table never changes by a write; a FREE entry takes a stall; a UNIT grain set to FREE is cleared first. A FREE
entry given a stall's code takes it. A stall's entry given any other code stays, and the write is refused. A UNIT grain given FREE becomes
CLEARING and joins the grains being cleared. A write of a word of the DRAM table leaves every page of a stall with its owner. (R216) -/
def Obligations.OwnerTableRule : Prop :=
  (∀ (s : State) (sram : Bool) (n v : Nat), v < 16 → (if sram then s.ownSram n else s.ownDram n) = ownFREE →
    s.wrOwner sram n v = (s.setOwner sram n v, false)) ∧
  (∀ (s : State) (sram : Bool) (n st v : Nat), st < 16 → v ≠ st → (if sram then s.ownSram n else s.ownDram n) = st →
    s.wrOwner sram n v = (s, true)) ∧
  (∀ (s : State) (n : Nat), s.ownSram n = ownUNIT → s.wrOwner true n ownFREE =
    ({ s.setOwner true n ownCLEARING with clearing := s.clearing ++ [(16, true, n)] }, false)) ∧
  (∀ (s : State) (k n st : Nat) (w : W64), n < 16384 → st < 16 → s.ownDram n = st → (s.wrOwners false k w).ownDram n = st)

/-- IMASK, the mailbox's GO and its response complete. IMASK_WRITE sends a message for each newly enabled source whose bit is set; MAILBOX_GO
takes a length of 1 to 1,024 bytes while not BUSY; MAILBOX_RESPONSE answers while BUSY. (R220, R223) -/
def Obligations.GuestInterfaceCommandsComplete : Prop :=
  (∀ (st : Fin 16) (k : Fin 3) (w : W32) (s : State), s.mayWrite (.stall st) (rIMASK st k) →
    exec (.imaskWrite st k w) s = .next (((List.range 32).filter (fun b => bitOf w.toNat b && !bitOf (s.rw (rIMASK st k)).toNat b &&
      bitOf (s.rw (rISTAT st k)).toNat b)).foldl (fun t b => t.sendMsix st (t.ivec st (32 * k + b)))
      (s.accepted.setRw (rIMASK st k) (wide w)))) ∧
  (∀ (st : Fin 16) (len : BitVec 11) (s : State), s.mayWrite (.stall st) (rMB_CTRL st) → s.on (rMB_STAT st) fMB_STAT_BUSY = false →
    len ≠ 0 → len.toNat ≤ 1024 →
    exec (.mailboxGo st len) s = .next (let s1 := (s.accepted.wr (rMB_STAT st) fMB_STAT_BUSY 1).wr (rMB_STAT st) fMB_STAT_RSP_READY 0
      { s1 with sm := { s1.sm with mbLen := storePut (fun _ => 0) s1.sm.mbLen st len.toNat } })) ∧
  (∀ (st : Fin 16) (b : List Byte) (s : State), s.running = true → s.on (rMB_STAT st) fMB_STAT_BUSY = true →
    exec (.mailboxResponse st b) s = .next (s.begin.mbAnswer st b))

/-- Data-mover channels and check contexts: enable, disable, doorbell, thaw, run reset. CHANNEL_ENABLE, CHANNEL_DISABLE, DIS_LIMIT_EXPIRY,
CH_DB, DM_THAW and RESET_RUN complete with a next state, written out, for every operand under the stated conditions; a held context
refuses RESET_RUN; DM_THAW acts on all channels named (log entry 41). (R329, R330, R331, R336, R339) -/
def Obligations.MoverChannelCommandsComplete : Prop :=
  (∀ (who : Who) (e : Fin 4) (k : Fin 8) (s : State), s.mayWrite who (rCH_CFG e k) →
    exec (.channelEnable who e k) s = .next (s.accepted.wrChCfg who (8 * e + k) (putFld (s.rw (rCH_CFG e k)) fCH_CFG_EN 1))) ∧
  (∀ (who : Who) (e : Fin 4) (k : Fin 8) (s : State), s.mayWrite who (rCH_CFG e k) →
    exec (.channelDisable who e k) s = .next (s.accepted.wrChCfg who (8 * e + k) (putFld (s.rw (rCH_CFG e k)) fCH_CFG_EN 0))) ∧
  (∀ (e : Fin 4) (k : Fin 8) (s : State), s.chOn (8 * e + k) = false → (s.ch (8 * e + k)).cur.isSome = true →
    exec (.disLimitExpiry e k) s = .next (s.begin.dmAbandon (8 * e + k) (some dmABORTED))) ∧
  (∀ (who : Who) (e : Fin 4) (k : Fin 8) (s : State), s.mayWrite who (rCH_DB e k) → s.chDirect (8 * e + k) = true →
    s.chOn (8 * e + k) = true → (s.ch (8 * e + k)).phase = .parked ∨ (s.ch (8 * e + k)).phase = .idle →
    ∃ s1, s1 = s.accepted.modCh (8 * e + k) (fun x => { x with dbSeen := true }) ∧
    exec (.chDb who e k) s = .next ((((s1.modCh (8 * e + k) (fun x => { x with phase := .link, result := 0, back := x.phase, recorded := false, fault := none })).toCh (8 * e + k) chWAITING).dmWait
      (8 * e + k) false).dmKick e)) ∧
  (∀ (who : Who) (e : Fin 4) (mask : BitVec 8) (s : State), s.mayWrite who (rDM_THAW e) →
    (∀ k, k < 8 → bitOf mask.toNat k = true → (s.ch (8 * e + k)).frozen = true ∧ s.on (rCH_FAULT_KIND e k) fCH_FAULT_KIND_VREAD = true) →
    exec (.dmThaw who e mask) s = .next (((List.range 8).filter (bitOf mask.toNat)).foldl (fun t k =>
      ((t.modCh (8 * e + k) (fun x => { x with frozen := false })).toCh (8 * e + k) (if t.chOn (8 * e + k) then chWAITING else chSTOPPING)).dmKick e)
      s.accepted)) ∧
  (∀ (who : Who) (cv : Fin 16) (s : State), s.mayWrite who (rCV_CTRL (cv / 8) (cv % 8)) → s.cvHeld cv = false →
    exec (.resetRun who cv) s = .next (s.accepted.cvInit cv)) ∧
  (∀ (who : Who) (cv : Fin 16) (s : State), s.mayWrite who (rCV_CTRL (cv / 8) (cv % 8)) → s.cvHeld cv = true →
    exec (.resetRun who cv) s = .next (s.accepted.refuse (rCV_CTRL (cv / 8) (cv % 8))))

/-- A data-mover descriptor: fetch, operation, read-back, link and error. DM_DESCRIPTOR_FETCHED, DM_WRITES_COMPLETE, READBACK_DONE,
DM_LINK_READ and DM_ACCESS_ERROR complete with a next state, written out, for every operand under the stated conditions; host memory
contents are operands (log entry 40). (R324, R325, R326, R327, R328) -/
def Obligations.MoverOperationCommandsComplete : Prop :=
  (∀ (e : Fin 4) (host : List (Option (List Byte))) (n : Nat) (w : DmWork) (d : List Byte) (h : List (Option (List Byte))) (s s1 : State),
    s.dmHolder e = some n → (s.ch n).cur = some w → (s.ch n).phase = .fetch → s.begin.dmRead w.owner (s.ch n).pos 64 host = (s1, .ok d, h) →
    (s.ch n).pos % 64 = 0 → s1.dmDescOk w.owner d = true → dUsesCv d = false →
    exec (.dmDescriptorFetched e host) s = .next (let s2 := s1.modCh n (fun x => { x with
        desc := d, done := 0, fixed := [], data := none, sent := 0, err := none, result := 0, mismatch := false, back := .none })
      (((s2.modCh n (fun x => { x with phase := .moving, holds := false })).showRemain n).dmOperate n h).dmAfter n)) ∧
  (∀ (e : Fin 4) (host : List (Option (List Byte))) (n : Nat) (s : State), s.dmHolder e = some n → (s.ch n).phase = .moving →
    (s.ch n).err = none → (s.ch n).opDone = true → dOp (s.ch n).desc ≠ 1 → s.chFrozen n = false →
    exec (.dmWritesComplete e host) s = .next (s.begin.modCh n (fun x => { x with phase := .readback }))) ∧
  (∀ (e : Fin 4) (n : Nat) (w : DmWork) (b : List Byte) (h : List (Option (List Byte))) (s s1 : State), s.dmHolder e = some n →
    (s.ch n).cur = some w → (s.ch n).phase = .readback → (s.ch n).mismatch = false →
    s.begin.dmRead w.owner (dLast (s.ch n).desc / 64 * 64) 64 [some []] = (s1, .ok b, h) →
    exec (.readbackDone e false) s = .next (s1.dmDescEnd n 0 none)) ∧
  (∀ (e : Fin 4) (v : W64) (n : Nat) (w : DmWork) (b : List Byte) (h : List (Option (List Byte))) (s s1 : State), s.dmHolder e = some n →
    (s.ch n).cur = some w → (s.ch n).phase = .link → (s.ch n).result = 0 → ofBytesLE b % 2 = 0 →
    (if (s.ch n).holds then (s.begin.dropCv n).dmKickAll else s.begin).dmRead w.owner ((s.ch n).pos + 0x38) 8 [some (bytesLE 8 v.toNat)] = (s1, .ok b, h) →
    exec (.dmLinkRead e (.word v)) s = .next ((s1.modCh n (fun y => { y with phase := .fetch, descViol := false, fault := none, back := .none })).showPos n (ofBytesLE b / 64 * 64))) ∧
  (∀ (e : Fin 4) (n code a : Nat) (s : State), s.dmHolder e = some n → (s.ch n).phase = .moving → (s.ch n).err = some (code, a) →
    exec (.dmAccessError e) s = .next (s.begin.dmDescEnd n code (some a)))

/-- WCALL, WC_RSP and the call limit complete. WCALL below MINPRV traps, an undefined number retires with NO_FUNC, a call of an enabled hart
is posted; WC_RSP completes a pending call; the limit completes it with TIMEOUT and counts it. (R249, R251, R252, R253) -/
def Obligations.CallSlotCommandsComplete : Prop :=
  (∀ (h prv : Fin 4) (a7 : W64) (args : List W64) (s : State), s.hartRuns h = true →
    exec (.wcall (some h) prv (.word 0x0B) a7 args) s = .next ((s.begin.predict h prv).wcall h prv a7 args)) ∧
  (∀ (h prv : Fin 4) (w : W32) (a7 : W64) (args : List W64) (s : State), s.hartRuns h = true → w.toNat % 128 = 0x0B → w.toNat ≠ 0x0B →
    exec (.wcall (some h) prv (.word w) a7 args) s = .next ((s.begin.predict h prv).illegal (some h))) ∧
  (∀ (prv : Fin 4) (w : W32) (a7 : W64) (args : List W64) (s : State), s.alive .keeper = true → w.toNat % 128 = 0x0B →
    exec (.wcall none prv (.word w) a7 args) s = .next { s.begin with keeperTrap := some 2 }) ∧
  (∀ (h prv : Fin 4) (n : BitVec 12) (w : Option W64) (a7 : W64) (args : List W64) (s : State), s.hartRuns h = true →
    exec (.wcall (some h) prv (.csr n w) a7 args) s = .next ((s.begin.predict h prv).worldCsr (some h) prv n.toNat w)) ∧
  (∀ (h : Fin 4) (prv : Nat) (a7 : W64) (args : List W64) (s : State), prv < (s.hart h).minprv →
    s.wcall h prv a7 args = s.modHart h (fun x => { x with trap := some 2 })) ∧
  (∀ (h : Fin 4) (prv : Nat) (a7 : W64) (args : List W64) (s : State), (s.hart h).minprv ≤ prv → a7.toNat / 2 ^ 32 ≠ 0 →
    s.wcall h prv a7 args = s.retire h wcNO_FUNC ((args.drop 1).take 5)) ∧
  (∀ (h : Fin 4) (prv : Nat) (a7 : W64) (args : List W64) (s : State), (s.hart h).minprv ≤ prv → a7.toNat / 2 ^ 32 = 0 →
    bitOf (s.rd rCALL_CFG fCALL_CFG_EN) h = true → s.wcall h prv a7 args = s.callPost h prv (a7.toNat % 2 ^ 32) args) ∧
  (∀ (who : Who) (h : Fin 4) (status : BitVec 8) (s : State), s.mayWrite who (rWC_RSP h) → s.callPending h = true →
    exec (.wcRsp who h status) s = .next (s.accepted.callDone h status.toNat)) ∧
  (∀ (h : Fin 4) (s : State), s.callPending h = true →
    exec (.wcLimitExpiry h) s = .next ((s.begin.bumpErr rWC_TIMEOUT).callDone h wcTIMEOUT))

/-- The keeper's commands complete: KICK, RESTART, WM_LOCK, UP, watchdog, lockstep, service cores, event reads. These commands complete with a
next state, written out, for every operand under the stated conditions; SVC_THAW of frozen harts whose records were read unfreezes them
and gives each its access-fault exception. (R256, R261, R262, R270, R273, R274) -/
def Obligations.KeeperCommandsComplete : Prop :=
  (∀ (who : Who) (s : State), s.mayWrite who rKCTRL → exec (.kick who) s = .next s.accepted) ∧
  (∀ (who : Who) (t : Nat) (s : State), s.mayWrite who rKCTRL → exec (.restart who t) s = .next (s.accepted.keeperRestart 2 t)) ∧
  (∀ (who : Who) (s : State), s.mayWrite who rKCTRL →
    (∀ k < codeGrains s.boot.codeSize, s.grainTrusted (s.boot.grain + k) = true) →
    exec (.wmLock who) s = .next (s.accepted.wr rKSTAT fKSTAT_WM_LOCKED 1)) ∧
  (∀ (who : Who) (s : State), s.mayWrite who rKCTRL → s.boot.zhotor = true → s.kstate ≠ kLOST →
    exec (.up who) s = .next (((s.accepted.wr rKSTAT fKSTAT_STATE kUP).modBoot (fun b => { b with upWritten := true })).trySvcUp)) ∧
  (∀ (t : Nat) (s : State), s.boot.zhotor = true → exec (.keeperWatchdogExpiry t) s = .next (s.begin.keeperRestart 0 t)) ∧
  (∀ (t : Nat) (s : State), exec (.lockstepMismatch t) s = .next (s.begin.keeperRestart 1 t)) ∧
  (∀ (who : Who) (run : BitVec 4) (s : State), s.mayWrite who rSVC_CTRL → s.on rKSTAT fKSTAT_WM_LOCKED = true → run ≠ 0 →
    s.boot.runWritten = true →
    exec (.svcRun who run) s = .next (((s.accepted.wr rSVC_STAT fSVC_STAT_RUNNING (s.rd rSVC_STAT fSVC_STAT_RUNNING ||| run.toNat)).modBoot
      (fun b => { b with runWritten := true })).trySvcUp)) ∧
  (∀ (who : Who) (harts : BitVec 4) (s : State), s.mayWrite who rSVC_THAW →
    (∀ h < 4, bitOf harts.toNat h = true → bitOf (s.rd rSVC_STAT fSVC_STAT_FROZEN) h = true ∧ bitOf s.vrecRead h = true) →
    exec (.svcThaw who harts) s = .next (((List.range 4).filter (bitOf harts.toNat)).foldl (fun t h =>
      let cause := if t.on (rSVC_VREC h) fSVC_VREC_FETCH then 1 else if t.on (rSVC_VREC h) fSVC_VREC_WRITE then 7 else 5
      (t.wr rSVC_STAT fSVC_STAT_FROZEN (setBitN (t.rd rSVC_STAT fSVC_STAT_FROZEN) h false)).modHart h (fun x => { x with trap := some cause }))
      s.accepted)) ∧
  (∀ (who : Who) (s : State), s.mayRead who rKEVT → exec (.kevtRead who 0) s = .next (s.accepted.kevPop.answer (.data (s.kevq.headD 0)))) ∧
  (∀ (who : Who) (h : Fin 4) (stale : Bool) (s : State), s.mayRead who (rSVC_VREC h) →
    exec (.svcVrecRead who h stale) s = .next (s.accepted.readSvcVrec h stale))

/-- Boot and recovery commands complete. BOOT_IMAGE_CHECKED enters Zhotor with the first good slot, A before B, or halts with 0x12, halts with
0x18 on an OTP failure, ends a keeper restart or loses the keeper; RECOV_GO reads the image from SRAM and enters Zhotor or halts with 0x13
where it fails or cannot be read; RECOVERY_TIMEOUT and PCIE_LINK_UP act in recovery boot. (R263, R264, R268, R269, R273) -/
def Obligations.BootCommandsComplete : Prop :=
  (∀ (s : State), s.dstate = 1 → s.power.inReset = false → s.boot.src = 0 →
    exec (.bootImageChecked true) s = .next (
      if s.slotReason 0 = 0 then ((s.begin.bootStat fKPR_BOOT_STAT_FAIL_A 0).bootStat fKPR_BOOT_STAT_SLOT 0).enterZhotor (s.slotBytes 0)
      else
        let s1 := (s.begin.bootStat fKPR_BOOT_STAT_FAIL_A (s.slotReason 0)).bootStat fKPR_BOOT_STAT_FAIL_B (s.slotReason 1)
        if s.slotReason 1 = 0 then (s1.bootStat fKPR_BOOT_STAT_SLOT 1).enterZhotor (s.slotBytes 1) else s1.halt 0x12)) ∧
  (∀ (s : State), s.dstate = 1 → s.power.inReset = false →
    exec (.bootImageChecked false) s = .next (s.begin.halt 0x18)) ∧
  (∀ (s : State), 2 ≤ s.dstate → s.dstate ≤ 5 → s.kstate = kRESTARTING → s.boot.zhotor = false →
    exec (.bootImageChecked true) s = .next (
      if s.slotReason 0 = 0 then ((s.begin.bootStat fKPR_BOOT_STAT_FAIL_A 0).bootStat fKPR_BOOT_STAT_SLOT 0).restartDone (s.slotBytes 0)
      else
        let s1 := (s.begin.bootStat fKPR_BOOT_STAT_FAIL_A (s.slotReason 0)).bootStat fKPR_BOOT_STAT_FAIL_B (s.slotReason 1)
        if s.slotReason 1 = 0 then (s1.bootStat fKPR_BOOT_STAT_SLOT 1).restartDone (s.slotBytes 1) else s1.keeperLost)) ∧
  (∀ (s : State), s.inRecovery = true → s.boot.linkUp = true →
    exec (.recovGo true) s = .next s.begin.recovGo ∧
    (∀ s1 b, s.begin.sramLoad 0 s.boot.recovLen = (s1, some b) →
      s.begin.recovGo = if imageReason b Config.rootKeyHash = 0 then s1.enterZhotor b else s1.halt 0x13) ∧
    (∀ s1, s.begin.sramLoad 0 s.boot.recovLen = (s1, none) → s.begin.recovGo = s1.halt 0x13)) ∧
  (∀ (s : State), s.inRecovery = true → s.boot.linkUp = true → exec .recoveryTimeout s = .next (s.begin.halt 0x13)) ∧
  (∀ (s : State), s.inRecovery = true → exec .pcieLinkUp s = .next (s.begin.modBoot (fun b => { b with linkUp := true })))

/-- The functions that Zhotor serves complete. VERSION, MEAS_EXTEND, ATTEST, SEAL_STALL, UNSEAL_STALL, PITCH_CFG, PITCH_CLR, CLK_SET and READY
complete with a next state, written out, for every operand under the stated conditions; the device does not save; with the readings of log
entries 42 to 44. (R254, R271, R272, R127, R420) -/
def Obligations.CallsComplete : Prop :=
  (∀ (h : Fin 4) (s : State), s.callPending h = true → s.rd (rWC_FN h) fWC_FN_FN = 0 → s.kstate = kUP → s.dstate < 6 →
    exec (.version h) s = .next ((((s.begin.setRw (rWC_ARG h 1) Config.zhotorVersion).setRw (rWC_ARG h 2) (BitVec.ofNat 64 s.boot.svn)).setRw
      (rWC_ARG h 3) (BitVec.ofNat 64 s.measEpoch)).callDone h wcOK)) ∧
  (∀ (h : Fin 4) (d : List Byte) (s s1 : State), s.callWaits h 0x01 → 4 ≤ s.callArg h 0 → s.callArg h 0 ≤ 7 →
    s.begin.callRead (s.callArg h 1) 48 = (s1, some d) →
    exec (.measExtend h) s = .next ((s1.mrExtend (s.callArg h 0) d).callDone h wcOK)) ∧
  (∀ (h : Fin 4) (n : List Byte) (s s1 : State), s.callWaits h 0x02 → s.begin.callRead (s.callArg h 0) 32 = (s1, some n) →
    s1.normalBuf (s.callArg h 1) 656 true = true →
    exec (.attest h) s = .next ((s1.memStore (s.callArg h 1) (s1.attReport n)).1.callDone h wcOK)) ∧
  (∀ (h : Fin 4) (s : State), s.callWaits h 0x10 → 1 ≤ s.callArg h 0 → s.callArg h 0 ≤ 15 →
    bitOf (numAt s.boot.cfg 0x0A 2) (s.callArg h 0) = true → s.stallState (s.callArg h 0) = 0 ∨ s.stallState (s.callArg h 0) = 4 →
    exec (.sealStall h) s = .next ((s.begin.wr (rSCFG (s.callArg h 0)) fSCFG_SEALED 1).callDone h wcOK)) ∧
  (∀ (h : Fin 4) (s : State), s.callWaits h 0x10 → (s.callArg h 0 = 0 ∨ 15 < s.callArg h 0) →
    exec (.sealStall h) s = .next (s.begin.callDone h wcBAD_ARG)) ∧
  (∀ (h : Fin 4) (s : State), s.callWaits h 0x11 → 1 ≤ s.callArg h 0 → s.callArg h 0 ≤ 15 →
    s.stallState (s.callArg h 0) = 0 ∨ s.stallState (s.callArg h 0) = 4 → s.pitchNames (s.callArg h 0) = false →
    exec (.unsealStall h) s = .next ((s.begin.wr (rSCFG (s.callArg h 0)) fSCFG_SEALED 0).callDone h wcOK)) ∧
  (∀ (h : Fin 4) (s : State), s.callWaits h 0x21 → s.callArg h 0 ≤ 7 → s.callArg h 1 ≤ 0xFFFF → s.islandOn (3 + s.callArg h 0) = true →
    exec (.pitchClr h) s = .next ((s.begin.wrPitchCtrl (s.callArg h 0) (putFld 0 fPITCH_CTRL_CLR (s.callArg h 1))).callDone h wcOK)) ∧
  (∀ (h : Fin 4) (r : Nat × Nat) (s : State), s.callWaits h 0x30 → s.callArg h 0 ≤ 30 → stepRange (s.callArg h 0) = some r →
    r.1 ≤ s.callArg h 1 / 6250 → s.callArg h 1 / 6250 ≤ r.2 → s.islTrusted (s.callArg h 0) = true →
    exec (.clkSet h true) s = .next ((s.begin.wrIslCtrl (s.callArg h 0) (putFld (s.rw (rISL_CTRL (s.callArg h 0))) fISL_CTRL_MAX_STEP
      (s.callArg h 1 / 6250))).callDone h wcOK)) ∧
  (∀ (h : Fin 4) (t : Nat) (s : State), s.callWaits h 0x7F → s.dstate = 3 →
    exec (.ready h t) s = .next (let s1 := ((s.begin.autoStart (.hart h) t).consumeSave).answer .none
      (s1.toDstate (if s1.rd rDSTATE fDSTATE_STATE_WORD / 256 % 8 = 0 then 4 else 5)).callDone h wcOK)) ∧
  (∀ (h : Fin 4) (b : List Byte) (s s1 : State), s.callWaits h 0x20 → s.callArg h 0 ≤ 7 → s.callArg h 1 ≤ 15 →
    s.begin.callRead (s.callArg h 2) 24 = (s1, some b) → s1.islandOn (3 + s.callArg h 0) = true →
    exec (.pitchCfg h true) s = .next (
      let put (x : State × Bool) (j : Nat) : State × Bool :=
        let s2 := (x.1.answer .ok).regEffect .keeper 0 (rPCFG (s.callArg h 0) (s.callArg h 1) + 4 * j) (BitVec.ofNat 64 (numAt b (4 * j) 4))
        (s2.answer .none, x.2 || s2.resp == .refused)
      let r := (List.range 6).foldl put (s1, false)
      if r.2 then r.1.callDone h wcDENIED
      else (r.1.wrPitchCtrl (s.callArg h 0) (putFld 0 fPITCH_CTRL_COMMIT (2 ^ s.callArg h 1))).callDone h wcOK)) ∧
  (∀ (h : Fin 4) (s : State), s.callPending h = true → s.rd (rWC_FN h) fWC_FN_FN = 0x02 → s.kstate = kUP → s.dstate < 6 → s.rd (rWC_FN h) fWC_FN_PRV = 0 →
    exec (.attest h) s = .next (s.begin.callDone h wcDENIED)) ∧
  (∀ (h : Fin 4) (s : State), s.callPending h = true → servedFn (s.rd (rWC_FN h) fWC_FN_FN) = false → s.kstate = kUP → s.dstate < 6 →
    exec (.version h) s = .next (s.begin.callDone h wcNO_FUNC))

/-- Requests, command selection, read data, ages, PANIC, refresh debt and activation tables complete. The commands of a memory channel's
traffic complete with a next state, written out, for every operand under the stated conditions; with the readings of log entries 48 and
49. (R289, R290, R292, R293, R294, R296) -/
def Obligations.MemoryTrafficCommandsComplete : Prop :=
  (∀ (off : BitVec 35) (src : MemSrc) (pos : Fin 64) (b : List Byte) (s : State) (pl : DramPlace), pl = dramPlace s.surv (off.toNat / 64 * 64) →
    off.toNat / 64 * 64 < s.capacity → s.works = true → s.mcState pl.channel ≠ mcFENCED → (s.sub pl.channel pl.sub).rq.length < 64 →
    exec (.memoryRequest off src false pos b) s = .next (s.begin.modSub pl.channel pl.sub (fun x => { x with
      rq := x.rq ++ [({ write := false, off := off.toNat / 64 * 64, src := src, num := (s.sub pl.channel pl.sub).count, pos := pos.val,
                        bytes := b.take (64 - pos.val) } : McReq)], count := x.count + 1 }))) ∧
  (∀ (off : BitVec 35) (src : MemSrc) (pos : Fin 64) (b : List Byte) (s : State) (pl : DramPlace), pl = dramPlace s.surv (off.toNat / 64 * 64) →
    off.toNat / 64 * 64 < s.capacity → s.works = true → s.mcState pl.channel ≠ mcFENCED → (s.sub pl.channel pl.sub).wq.length < 32 →
    exec (.memoryRequest off src true pos b) s = .next ((s.begin.modSub pl.channel pl.sub (fun x => { x with
      wq := x.wq ++ [({ write := true, off := off.toNat / 64 * 64, src := src, num := (s.sub pl.channel pl.sub).count, pos := pos.val,
                        bytes := b.take (64 - pos.val) } : McReq)], count := x.count + 1 })).updateDrain pl.channel pl.sub)) ∧
  (∀ (ch : Fin 4) (sc : Fin 2) (pb : Option (Fin 16)) (idle : Bool) (ups : List (BitVec 36 × Bool)) (r : McReq) (rest : List McReq) (s v : State),
    v = s.begin.upset ups → v.works = true → v.mcState ch = mcRUNNING ∨ v.mcState ch = mcRETRAIN → (v.sub ch sc).burst = r :: rest →
    exec (.commandSelect ch sc pb idle ups) s = .next ((v.modSub ch sc (fun x => { x with burst := rest })).issue ch sc r)) ∧
  (∀ (ch : Fin 4) (sc : Fin 2) (pb : Option (Fin 16)) (idle : Bool) (ups : List (BitVec 36 × Bool)) (s v : State),
    v = s.begin.upset ups → v.works = true → v.mcState ch = mcRUNNING ∨ v.mcState ch = mcRETRAIN → (v.sub ch sc).burst = [] → 8 ≤ (v.sub ch sc).debt →
    exec (.commandSelect ch sc pb idle ups) s = .next ((((v.refreshAb ch sc 1).bumpEv (rREF_FORCED ch) 1).showDebt ch).driftInRefresh ch true)) ∧
  (∀ (ch : Fin 4) (sc : Fin 2) (r : McRead) (rest : List McRead) (s : State), (s.sub ch sc).back = r :: rest → r.errs = [] →
    exec (.memoryReadData ch sc) s = .next ((s.begin.modSub ch sc (fun x => { x with back := rest })).answer (.bytes r.bytes))) ∧
  (∀ (ch : Fin 4) (sc : Fin 2) (write : Bool) (k : Fin 64) (s : State),
    exec (.agePromotion ch sc write k) s = .next (
      let up (l : List McReq) : List McReq := l.zipIdx.map (fun p => if p.2 = k.val ∧ p.1.src = .fore then { p.1 with aged := true } else p.1)
      s.begin.modSub ch sc (fun x => if write then { x with wq := up x.wq } else { x with rq := up x.rq }))) ∧
  (∀ (ch : Fin 4) (n : Nat) (s : State), s.mcPanic ch = 0 →
    exec (.panicFlagChange ch n) s = .next (
      let v := (List.range 8).foldl (fun a p => if s.on (rFETCH_STAT p) fFETCH_STAT_PANIC then a + 2 ^ p else a) 0
      let s2 : State := { s.begin with mem := { s.mem with panic := storePut (fun _ => 0) s.mem.panic ch v } }
      ((s2.updateDrain ch 0).updateDrain ch 1).showScrub)) ∧
  (∀ (ch : Fin 4) (sc : Fin 2) (s : State), s.works = true →
    exec (.trefi ch sc) s = .next ((s.begin.modSub ch sc (fun x => { x with debt := min 8 (x.debt + 1) })).showDebt ch)) ∧
  (∀ (ch : Fin 4) (f : Fin 5) (s : State), s.works = true →
    exec (.refreshFactorRead ch f) s = .next (s.begin.wr (rMC_STAT ch) fMC_STAT_REF_FACTOR f)) ∧
  (∀ (ch : Fin 4) (s : State), exec (.activationTableClear ch) s =
    .next (overN 2 (fun sc s => s.modSub ch sc (fun x => { x with acts := [] })) s.begin))

/-- Training, retraining, BUILD, drift, ECC regions and the patrol scrubber complete. TRAIN, RETRAIN, CHANNEL_TRAINED, RETRAIN_DONE, BUILD,
DRIFT_STEP, ECC_MAP_WRITE, ECC_INIT_DONE and PATROL_SCRUB_STEP complete with a next state, written out, for every operand under the stated
conditions; a drift step that comes due under panic waits; with the readings of log entries 50 and 51. (R280, R282, R284, R286, R288,
R298, R300) -/
def Obligations.MemoryControlCommandsComplete : Prop :=
  (∀ (who : Who) (ch : Fin 4) (s : State), s.mayWrite who (rMC_CTRL ch) → s.mcState ch = mcOFF →
    exec (.train who ch) s = .next (s.accepted.toMc ch mcTRAINING)) ∧
  (∀ (who : Who) (ch : Fin 4) (s : State), s.mayWrite who (rMC_CTRL ch) → s.mcState ch = mcRUNNING →
    exec (.retrain who ch) s = .next (s.accepted.startRetrain ch)) ∧
  (∀ (ch d : Fin 4) (rfm : Bool) (lanes : List LaneSweep) (s : State), s.works = true → s.mcState ch = mcTRAINING →
    (s.wr (rMC_STAT ch) fMC_STAT_RFM_SUP (b2n rfm)).rd (rMC_CFG ch) fMC_CFG_CAP = d.val →
    (s.wr (rMC_STAT ch) fMC_STAT_RFM_SUP (b2n rfm)).failedLanes ch lanes = 0 →
    exec (.channelTrained ch d true rfm lanes) s =
      .next (((s.begin.wr (rMC_STAT ch) fMC_STAT_RFM_SUP (b2n rfm)).showLanes ch lanes).toMc ch mcRUNNING)) ∧
  (∀ (ch d : Fin 4) (levelled rfm : Bool) (lanes : List LaneSweep) (s : State), s.works = true → s.mcState ch = mcTRAINING →
    (s.wr (rMC_STAT ch) fMC_STAT_RFM_SUP (b2n rfm)).rd (rMC_CFG ch) fMC_CFG_CAP ≠ d.val →
    exec (.channelTrained ch d levelled rfm lanes) s =
      .next (((((s.begin.wr (rMC_STAT ch) fMC_STAT_RFM_SUP (b2n rfm)).wr (rMC_STAT ch) fMC_STAT_FENCE_CAUSE 3).wr (rMC_STAT ch)
        fMC_STAT_LANE_FAIL 0).toMc ch mcFENCED).showDegraded)) ∧
  (∀ (ch : Fin 4) (lanes : List LaneSweep) (s : State), s.works = true → s.mcState ch = mcRETRAIN → s.failedLanes ch lanes = 0 →
    exec (.retrainDone ch true lanes) s = .next ((s.begin.showLanes ch lanes).toMc ch mcRUNNING)) ∧
  (∀ (ch : Fin 4) (lanes : List LaneSweep) (s : State), s.works = true → s.mcState ch = mcRETRAIN →
    exec (.retrainDone ch false lanes) s = .next (s.begin.fenceRun ch 0)) ∧
  (∀ (who : Who) (s : State), s.mayWrite who rMAP_CTRL →
    exec (.build who) s = .next (s.accepted.wrMapCtrl (wBit 0 fMAP_CTRL_BUILD))) ∧
  (∀ (ch : Fin 4) (late : Bool) (runs : List LaneRun) (r0 r1 : Fin 17) (s v : State), s.works = true → s.mcState ch = mcRUNNING →
    s.on (rDRIFT_CFG ch) fDRIFT_CFG_EN = true → s.mcPanic ch = 0 → (s.sub ch 0).burst = [] → (s.sub ch 1).burst = [] →
    v = (((s.begin.setDrift ch none).driftRefresh ch 0 r0).driftRefresh ch 1 r1).showDebt ch →
    (∀ k < 4, v.driftBad ch (rLANE_RD ch k) (v.driftRun (rLANE_RD ch k) (runs.getD k ⟨(0, 0), (0, 0)⟩).rd) = false ∧
      v.driftBad ch (rLANE_WR ch k) (v.driftRun (rLANE_WR ch k) (runs.getD k ⟨(0, 0), (0, 0)⟩).wr) = false) →
    exec (.driftStep ch late runs r0 r1) s = .next (overN 4 (fun k t =>
      (t.driftMove (rLANE_RD ch k) (v.driftRun (rLANE_RD ch k) (runs.getD k ⟨(0, 0), (0, 0)⟩).rd)).driftMove (rLANE_WR ch k)
        (v.driftRun (rLANE_WR ch k) (runs.getD k ⟨(0, 0), (0, 0)⟩).wr)) v)) ∧
  (∀ (ch : Fin 4) (late : Bool) (runs : List LaneRun) (r0 r1 : Fin 17) (s : State), s.works = true → s.mcState ch = mcRUNNING →
    s.on (rDRIFT_CFG ch) fDRIFT_CFG_EN = true → s.mcPanic ch ≠ 0 →
    exec (.driftStep ch late runs r0 r1) s = .next (s.begin.setDrift ch (some (late, runs)))) ∧
  (∀ (who : Who) (k : Fin 4) (w : W32) (s : State), s.mayWrite who (rECC_MAP k) →
    exec (.eccMapWrite who k w) s = .next (s.accepted.wrEccMap k (wide w))) ∧
  (∀ (s : State), exec .eccInitDone s = .next (s.begin.wr rMAP_STAT fMAP_STAT_ECC_BUSY 0)) ∧
  (∀ (ups : List (BitVec 36 × Bool)) (s v : State) (o n : Nat), v = s.begin.upset ups → v.scrubRuns = true → v.mem.opPass ≠ 1 →
    v.patrolFrom v.mem.patrol = some o → v.patrolFrom (o + 64) = some n → v.dramFenced o = false →
    exec (.patrolScrubStep ups) s = .next (State.showScrub { v.scrubBlock (dramBase + o) with
      mem := { (v.scrubBlock (dramBase + o)).mem with patrol := n } }))

/-- eNVM operations, wear map, log compaction and the SRAM scrubber complete. ERASE, PROGRAM, BLANK_CHECK, their end, WEAR_MAP_UPDATE,
LOG_COMPACTION and SRAM_SCRUB_STEP complete with a next state, written out, for every operand under the stated conditions; with the
readings of log entries 53 and 54. (R308, R313, R314, R316, R317) -/
def Obligations.NvmCommandsComplete : Prop :=
  (∀ (who : Who) (k : BitVec 8) (s : State), s.mayWrite who rNVM_CMD → s.on rNVM_STAT fNVM_STAT_BUSY = false → k.toNat < 162 →
    exec (.erase who k) s = .next ((s.accepted.modNvm (fun x => { x with
      op := some ⟨1, k.toNat, s.rd rNVM_ADDR fNVM_ADDR_LINE, []⟩ })).wr rNVM_STAT fNVM_STAT_BUSY 1)) ∧
  (∀ (who : Who) (k : BitVec 8) (s : State), s.mayWrite who rNVM_CMD → s.on rNVM_STAT fNVM_STAT_BUSY = false → k.toNat < 162 →
    s.nvm.lines.contains (k.toNat * 128 + s.rd rNVM_ADDR fNVM_ADDR_LINE) = false →
    exec (.program who k) s = .next ((s.accepted.modNvm (fun x => { x with
      op := some ⟨2, k.toNat, s.rd rNVM_ADDR fNVM_ADDR_LINE, (List.range 128).flatMap (fun j => bytesLE 4 (s.rw (rNVM_BUF j)).toNat)⟩ })).wr
      rNVM_STAT fNVM_STAT_BUSY 1)) ∧
  (∀ (who : Who) (k : BitVec 8) (s : State), s.mayWrite who rNVM_CMD → s.on rNVM_STAT fNVM_STAT_BUSY = false →
    exec (.blankCheck who k) s = .next ((s.accepted.modNvm (fun x => { x with
      op := some ⟨3, k.toNat, s.rd rNVM_ADDR fNVM_ADDR_LINE, []⟩ })).wr rNVM_STAT fNVM_STAT_BUSY 1)) ∧
  (∀ (o : NvmOp) (s : State), s.nvm.op = some o → s.on rNVM_STAT fNVM_STAT_SUSPENDED = false → o.op = 1 →
    s.nvm.retired.contains o.sector = false →
    exec (.nvmOperationDone false) s = .next ((((s.begin.modNvm (fun x => { x with op := none })).wr rNVM_STAT fNVM_STAT_BUSY 0).eraseSector
      o.sector).wr rNVM_STAT fNVM_STAT_FAIL 0).serveReads) ∧
  (∀ (o : NvmOp) (s : State), s.nvm.op = some o → s.on rNVM_STAT fNVM_STAT_SUSPENDED = false → o.op = 2 →
    s.nvm.retired.contains o.sector = false →
    exec (.nvmOperationDone false) s = .next ((((s.begin.modNvm (fun x => { x with op := none })).wr rNVM_STAT fNVM_STAT_BUSY 0).wr
      rNVM_STAT fNVM_STAT_FAIL 0).programLine (o.sector * 128 + o.line) o.bytes).serveReads) ∧
  (∀ (o : NvmOp) (f : Bool) (s : State), s.nvm.op = some o → s.on rNVM_STAT fNVM_STAT_SUSPENDED = false → o.op ≠ 3 →
    s.nvm.retired.contains o.sector = true →
    exec (.nvmOperationDone f) s = .next (((s.begin.modNvm (fun x => { x with op := none })).wr rNVM_STAT fNVM_STAT_BUSY 0).wr
      rNVM_STAT fNVM_STAT_FAIL 1).serveReads) ∧
  (∀ (o : NvmOp) (f : Bool) (s : State), s.nvm.op = some o → s.on rNVM_STAT fNVM_STAT_SUSPENDED = false → o.op = 3 →
    exec (.nvmOperationDone f) s = .next (((s.begin.modNvm (fun x => { x with op := none })).wr rNVM_STAT fNVM_STAT_BUSY 0).wr
      rNVM_STAT fNVM_STAT_FAIL (b2n (s.env.any (fun p => decide (p.1 / 65536 = o.sector))))).serveReads) ∧
  (∀ (s : State), s.works = true → exec .wearMapUpdate s = .next s.begin.wearUpdate) ∧
  (∀ (s : State), s.works = true → s.freeLog < 4 → s.fullSectors = [] → exec .logCompaction s = .next s.begin) ∧
  (∀ (s : State) (k : Nat), s.works = true → s.freeLog < 4 → s.fullSectors = [k] → exec .logCompaction s = .next (s.begin.compactSector k)) ∧
  (∀ (late : Bool) (ups : List (BitVec 36 × Bool)) (s v : State), v = s.begin.upset ups → v.works = true →
    v.on rMSR_SCRUB fMSR_SCRUB_EN = true → v.anyPanic = false → v.msr.block + 1 < 786432 →
    exec (.sramScrubStep late ups) s = .next (
      let s1 := (v.scrubBlock (sramBase + 64 * v.msr.block)).wr rMSR_STAT fMSR_STAT_POS (v.msr.block / 1024)
      { s1 with msr := { s1.msr with block := v.msr.block + 1 } }))

/-- Touch panels: enable, recalibrate, clear faults, scan opportunity and scan step complete. PANEL_ENABLE, RECAL, FE_LFCLR, SCAN_OPPORTUNITY
and SCAN_STEP_END complete with a next state, written out, for every operand under the stated conditions; with the readings of log entry
55. (R341, R342, R343, R350, R354) -/
def Obligations.TouchCommandsComplete : Prop :=
  (∀ (who : Who) (p : Fin 8) (s : State), s.mayWrite who (tpCfg p) →
    exec (.panelEnable who p) s = .next (s.accepted.wrTpCfg p (wBit (s.rw (tpCfg p)) fTP_CFG_EN))) ∧
  (∀ (who : Who) (p : Fin 8) (s : State), s.mayWrite who (rTP_CTRL (p / 2) (p % 2)) → s.tpOn p = true →
    exec (.recal who p) s = .next (s.accepted.modPanel p (fun x => { x with recal := true }))) ∧
  (∀ (who : Who) (fe : Fin 4) (s : State), s.mayWrite who (rFE_LFCLR fe) →
    exec (.feLfclr who fe) s = .next (
      let s1 := overN 2 (fun k s => (s.wr (rFE_LFAULT_D fe k) fFE_LFAULT_D_DRV 0).wr (rFE_LFAULT_S fe k) fFE_LFAULT_S_SNS 0) s.accepted
      { s1 with lineRuns := s1.lineRuns.filter (fun r => decide (r.1 / 128 ≠ fe.val)) })) ∧
  (∀ (p : Fin 8) (t line : Nat) (s s1 : State), s.running = true → s.islandOn (21 + p / 2) = true → s.tpOn p = true → s.tpDue p t line = true →
    (p.val % 2 = 1 → s.tpOnEdge (p - 1) t = false) →
    s1 = (((s.begin.modPanel p (fun x => { x with timed := if s.tpTimed p then some t else none, opp := if s.tpTimed p then none else some (s.tpEdge p) })).latch (rTP_SYNC (p / 2) (p % 2))).wr (tpStat p) fTP_STAT_SYNC_FREE
      (b2n (s.tpTimed p && s.rd (tpCfg p) fTP_CFG_SYNC != 0))).tpIdle p t →
    (s1.panel p).wait = false → (s1.panel p).scan = none → (∀ l, (s1.panel p).last = some l → l + 4080 ≤ t) → s1.tpDivider p ≤ (s1.panel p).skip + 1 →
    (s1.panel (otherPanel p)).scan = none →
    exec (.scanOpportunity p t line) s = .next ((s1.modPanel p (fun x => { x with skip := 0 })).scanStart p t)) ∧
  (∀ (fe : Fin 4) (v : List (BitVec 16)) (t tn : Nat) (sc : TScan) (s : State), (s.panel (2 * fe)).scan = some sc → s.running = true →
    s.islandOn (21 + fe) = true → s.tpOn (2 * fe) = true → s.rd (tpCfg (2 * fe)) fTP_CFG_SYNC = 0 → sc.steps.length + 1 < s.tpRows (2 * fe) →
    1000 * sc.from' + s.tpStepNs (2 * fe) < 1000 * (t + 1) →
    exec (.scanStepEnd fe v t tn) s = .next ((s.begin.modPanel (2 * fe) (fun x => { x with last := some (s.scanStep (2 * fe) t v sc).start })).modPanel (2 * fe)
      (fun x => { x with scan := some (s.scanStep (2 * fe) t v sc) }))) ∧
  (∀ (s : State) (p t : Nat) (v : List (BitVec 16)) (sc : TScan), sc.untimed = false → s.tpBlanking p = false →
    s.scanStep p t v sc = { sc with from' := t, steps := sc.steps ++ [v.map (fun w => w.toInt)] })

/-- Audio ticks, TDM frames and haptic events complete. AUDIO_TICK, TDM_FRAME, HAPTIC_SEGMENT_END, BEMF_ZERO_CROSSING and LRA_HALF_PERIOD
complete with a next state, written out, for every operand under the stated conditions; with the readings of log entries 56 and 57. (R362,
R365, R366, R367, R370) -/
def Obligations.AudioAndHapticsCommandsComplete : Prop :=
  (∀ (s s2 : State), s.running = true → s.islandOn 25 = true →
    s2 = overN 8 (fun h s => s.hapTick h) (s.begin.wr rAUD_STAT fAUD_STAT_TICK_LO (s.rd rAUD_STAT fAUD_STAT_TICK_LO + 1)) →
    (s.on rAUD_CFG fAUD_CFG_EN = false → exec .audioTick s = .next s2) ∧
    (s.on rAUD_CFG fAUD_CFG_EN = true →
      exec .audioTick s = .next (let s3 := (overN 2 (fun p s => s.capTick p) (overN 32 (fun k s => s.streamTick k) s2)).duckTick
        { s3 with mix := { s3.mix with frame := 0 } }))) ∧
  (∀ (h : Fin 8) (st : Nat) (s : State), s.running = true → (s.hap h).seg.isSome = true → s.served (s.hapOwner h) = some st →
    (s.hap h).brake = true → exec (.hapticSegmentEnd h) s = .next (s.begin.hapGo h st)) ∧
  (∀ (h : Fin 8) (s : State), s.running = true → (s.hap h).seg.isSome = true → s.served (s.hapOwner h) = none →
    exec (.hapticSegmentEnd h) s = .next (s.begin.hapIdle h)) ∧
  (∀ (h : Fin 8) (t : Nat) (s : State), s.running = true → s.lraDriven h = true →
    exec (.bemfZeroCrossing h t) s = .next ((s.begin.modHap h (fun x => { x with
      tm := match x.lastCross with | some l => some (t - l) | none => x.tm
      lastCross := some t, crossed := true, misses := 0 })).wr (rHC_STAT h) fHC_STAT_NO_BEMF 0)) ∧
  (∀ (h : Fin 8) (s : State), s.running = true → s.lraDriven h = true → s.tracking h = true → (s.hap h).tm = none → (s.hap h).crossed = true →
    exec (.lraHalfPeriod h) s = .next ((s.begin.modHap h (fun x => { x with misses := 0, crossed := false, passes := 0 })).wr (rHC_STAT h)
      fHC_STAT_LOCKED 0)) ∧
  (∀ (h : Fin 8) (s : State), s.running = true → s.lraDriven h = true → s.tracking h = false → (s.hap h).crossed = true →
    exec (.lraHalfPeriod h) s = .next (s.begin.modHap h (fun x => { x with misses := 0, crossed := false }))) ∧
  (∀ (rx0 rx1 : List W32) (ok0 ok1 : Bool) (slip : Fin 3) (s : State), s.running = true → s.islandOn 25 = true →
    s.on rAUD_CFG fAUD_CFG_EN = true →
    ∃ t, exec (.tdmFrame rx0 rx1 ok0 ok1 slip) s = .next t ∧ t.mix.frame = s.mix.frame + 1)

/-- Smiser requests that are accepted as fresh complete and are answered and recorded. READ, WRITE, READ_BLOCK, WRITE_BLOCK, OP_START,
OP_SUSPEND, OP_RESUME, OP_CANCEL and the two NODE_RESETs complete with a next state, written out, for every operand under the stated
conditions; a request that comes while its source is being answered waits behind at most 3, and a fifth is answered BUSY; with the
readings of log entries 58 to 65 and 106. (R378, R380, R381, R385, R386, R387, R397, R403) -/
def Obligations.SmiserRequestsComplete : Prop :=
  (∀ (m : SmMsg) (stale : Bool) (x : SmCtx) (s s1 v : State) (st : Nat) (b : List Byte), s.takes svcREAD m x → v = s.taken svcREAD m x → (∀ c, s.svcOf m = some c → svcListed c = true) → x.factory = false →
    3 ≤ x.h.pl.length → v.readEntry x.q (plIdx x.h.pl) (plSub x.h.pl) (valueLimit x.via) stale = (s1, st, b) →
    exec (.read m stale) s = .next (s1.smReply svcREAD x ⟨st, if st = smOK then bytesLE 1 b.length ++ b else []⟩)) ∧
  (∀ (m : SmMsg) (x : SmCtx) (s s1 v : State) (st : Nat), s.takes svcWRITE m x → v = s.taken svcWRITE m x → x.factory = false → x.q.cls ≠ clsFLEET →
    4 + (x.h.pl.getD 3 0).toNat ≤ x.h.pl.length →
    v.writeEntry x.q x.q.who (plIdx x.h.pl) (plSub x.h.pl) x.t (valueLimit x.via) ((x.h.pl.drop 4).take (x.h.pl.getD 3 0).toNat) =
      (s1, st) →
    exec (.write m) s = .next (s1.smReply svcWRITE x ⟨st, []⟩)) ∧
  (∀ (m : SmMsg) (x : SmCtx) (s s1 v : State) (st : Nat) (b : List Byte), s.takes svcREAD_BLOCK m x → v = s.taken svcREAD_BLOCK m x → x.factory = false →
    10 ≤ x.h.pl.length → (∀ st, x.via ≠ .mailbox st) →
    v.readBlock x.q (plIdx x.h.pl) (plSub x.h.pl) (ofBytesLE ((x.h.pl.drop 4).take 4)) (ofBytesLE ((x.h.pl.drop 8).take 2))
      8192 = (s1, st, b) →
    exec (.readBlock m) s = .next (s1.smReply svcREAD_BLOCK x ⟨st, if st = smOK then bytesLE 2 b.length ++ b else []⟩)) ∧
  (∀ (m : SmMsg) (x : SmCtx) (s s1 v : State) (r : SmResp), s.takes svcWRITE_BLOCK m x → v = s.taken svcWRITE_BLOCK m x → v.blockSegment { x with stale := false } = (s1, some r) →
    exec (.writeBlock m) s = .next (s1.smReply svcWRITE_BLOCK x r)) ∧
  (∀ (m : SmMsg) (x : SmCtx) (s s1 v : State) (st n : Nat), s.takes svcOP_START m x → v = s.taken svcOP_START m x → x.factory = false →
    n = (x.h.pl.getD 2 0).toNat → n ≤ 32 → 3 + n ≤ x.h.pl.length → 0xA000 ≤ plIdx x.h.pl → plIdx x.h.pl ≤ 0xA006 → x.q.cls ≠ clsSTALL →
    v.opStart (plIdx x.h.pl - 0xA000) x.q.cls x.q.src ((x.h.pl.drop 3).take n) = (s1, st) →
    exec (.opStart m) s = .next (s1.smReply svcOP_START x ⟨st, []⟩)) ∧
  (∀ (m : SmMsg) (x : SmCtx) (s s1 v : State) (st : Nat), s.takes svcOP_SUSPEND m x → v = s.taken svcOP_SUSPEND m x → x.factory = false → 2 ≤ x.h.pl.length →
    0xA000 ≤ plIdx x.h.pl → plIdx x.h.pl ≤ 0xA006 → x.q.cls ≠ clsSTALL → v.opSuspend (plIdx x.h.pl - 0xA000) = (s1, st) →
    exec (.opSuspend m) s = .next (s1.smReply svcOP_SUSPEND x ⟨st, []⟩)) ∧
  (∀ (m : SmMsg) (x : SmCtx) (s s1 v : State) (st : Nat), s.takes svcOP_RESUME m x → v = s.taken svcOP_RESUME m x → x.factory = false → 2 ≤ x.h.pl.length →
    0xA000 ≤ plIdx x.h.pl → plIdx x.h.pl ≤ 0xA006 → x.q.cls ≠ clsSTALL → v.opResume (plIdx x.h.pl - 0xA000) = (s1, st) →
    exec (.opResume m) s = .next (s1.smReply svcOP_RESUME x ⟨st, []⟩)) ∧
  (∀ (m : SmMsg) (x : SmCtx) (s s1 v : State) (st : Nat), s.takes svcOP_CANCEL m x → v = s.taken svcOP_CANCEL m x → x.factory = false → 2 ≤ x.h.pl.length →
    0xA000 ≤ plIdx x.h.pl → plIdx x.h.pl ≤ 0xA006 → x.q.cls ≠ clsSTALL → v.opCancel (plIdx x.h.pl - 0xA000) = (s1, st) →
    exec (.opCancel m) s = .next (s1.smReply svcOP_CANCEL x ⟨st, []⟩)) ∧
  (∀ (m : SmMsg) (x : SmCtx) (s v : State), s.takes svcNODE_RESET m x → v = s.taken svcNODE_RESET m x → x.factory = false → s.kindOf m ≠ 2 → (x.h.pl.getD 0 0).toNat = 1 →
    x.h.pl ≠ [] →
    exec (.nodeResetComm m) s = .next ((v.modSm (fun y => { y with nodeReset := some 1 })).smReply svcNODE_RESET x ⟨smOK, []⟩)) ∧
  (∀ (m : SmMsg) (x : SmCtx) (s v : State), s.takes svcNODE_RESET m x → v = s.taken svcNODE_RESET m x → x.factory = false → s.kindOf m = 2 → (x.h.pl.getD 0 0).toNat = 2 →
    x.h.pl ≠ [] →
    exec (.nodeResetDevice m) s = .next ((v.modSm (fun y => { y with nodeReset := some 2 })).smReply svcNODE_RESET x ⟨smOK, []⟩)) ∧
  (∀ (m : SmMsg) (x : SmCtx) (s w : State), s.begin.smAccept svcWRITE m = (w, some x) → w.smAnswering x.q.src = true →
    ((w.sm.waiting.filter (fun y => y.q.src == x.q.src)).length < 4 →
      exec (.write m) s = .next (w.modSm (fun v => { v with waiting := v.waiting ++ [{ x with stale := false }] }))) ∧
    (4 ≤ (w.sm.waiting.filter (fun y => y.q.src == x.q.src)).length → x.bcast = false →
      exec (.write m) s = .next (w.smAnswer x ⟨smBUSY, []⟩).1))

/-- Smiser's timers, operation ends, sessions, node resets and thermal polls complete. EXPORT_ACK_TIMEOUT, LONG_OPERATION_END, HEARTBEAT,
HEARTBEAT_TIMER, HOST_LOSS, SESSION_IDLE_EXPIRY, DEV_NONCE_EXPIRY, NODE_RESET_ACT, FACTORY_TIMEOUT and THERMAL_POLL complete with a next
state, written out, for every operand under the stated conditions; a heartbeat goes out, or waits while frames do; with the readings of
log entries 65, 67 and 106. (R391, R392, R393, R398, R401, R404, R412) -/
def Obligations.SmiserEventsComplete : Prop :=
  (∀ (s : State) (x : SmExport), s.running = true → (s.op opEXPORT).state = opRUNNING → s.sm.exprt = some x → x.tries < 3 →
    exec .exportAckTimeout s = .next ((s.begin.modSm (fun y => { y with exprt := some { x with tries := x.tries + 1 } })).exportSend)) ∧
  (∀ (k : Fin 7) (progress : Fin 1001) (d : BitVec 24) (s : State), s.running = true → (s.op k).state = opRUNNING →
    k.val ≠ opSCRUB → k.val ≠ opEXPORT → k.val ≠ opRETRAIN → k.val ≠ opRECAL →
    (k.val = opPATTERN → (s.pipe (argB (s.op k).arg 0)).latched = true ∧ (s.pipe (argB (s.op k).arg 0)).vblank = false) →
    exec (.longOperationEnd k 0 progress d) s = .next (s.begin.opPoint k progress)) ∧
  (∀ (k : Fin 7) (progress : Fin 1001) (d : BitVec 24) (s : State), s.running = true → (s.op k).state = opRUNNING → k.val ≠ opSCRUB →
    exec (.longOperationEnd k 1 progress d) s = .next (s.begin.opWorkEnd k d.toNat)) ∧
  (∀ (k : Fin 7) (progress : Fin 1001) (d : BitVec 24) (s : State), s.running = true → (s.op k).state = opRUNNING →
    k.val ≠ opSCRUB → k.val ≠ opEXPORT → k.val ≠ opRETRAIN →
    exec (.longOperationEnd k 2 progress d) s =
      .next ((if k.val = opPATTERN then s.begin.opRollback k else s.begin).opEnd k opFAILED 5 d.toNat)) ∧
  (∀ (progress : Fin 1001) (d : BitVec 24) (s : State), s.running = true → (s.op opSCRUB).state = opRUNNING →
    exec (.longOperationEnd 1 2 progress d) s = .next ((s.begin.scrubSlow 0).opEnd opSCRUB opFAILED 5 s.mem.opBad)) ∧
  (∀ (m : SmMsg) (s : State), exec (.heartbeat m) s = .next ((s.begin.smAccept svcHEARTBEAT m).1.mbFree m.via)) ∧
  (∀ (s : State), s.running = true → s.islandOn 26 = true → s.commEn ≠ 0 →
    (s.sm.tx = [] → exec .heartbeatTimer s = .next s.begin.sendHeartbeat) ∧
    (s.sm.tx ≠ [] → exec .heartbeatTimer s = .next (s.begin.modSm (fun x => { x with hbDue := true })))) ∧
  (∀ (s : State), s.running = true → s.dnum 0x1100 7 ≠ 0 →
    exec .hostLoss s = .next (s.begin.modSm (fun x => { x with hostLost := true }))) ∧
  (∀ (h : BitVec 7) (s : State), exec (.sessionIdleExpiry h) s = .next (s.begin.closeSession h.toNat)) ∧
  (∀ (h : BitVec 7) (s : State), exec (.devNonceExpiry h) s =
    .next (s.begin.modSm (fun x => { x with devNonce := storePut (fun _ => none) x.devNonce h.toNat none }))) ∧
  (∀ (s : State), s.running = true → s.sm.nodeReset = some 1 →
    exec .nodeResetAct s = .next ((s.begin.modSm (fun x => { x with nodeReset := none })).commReset)) ∧
  (∀ (s : State), s.dstate ≠ 0 → s.dstate < 6 → s.sm.nodeReset = some 2 →
    exec .nodeResetAct s = .next ((((s.begin.modSm (fun x => { x with nodeReset := none })).modPower (fun x => { x with cause := 2 })).afterReset
      false false false).tryStart)) ∧
  (∀ (s : State), s.inFactory = true → exec .factoryTimeout s = .next (s.begin.halt 0x14)) ∧
  (∀ (temps : List (BitVec 16)) (t : Nat) (s : State), s.power.inReset = false → s.dstate ≠ 0 →
    (s.modSm (fun x => { x with temps := (List.range 16).map (fun k => (temps.getD k 0).toInt) })).tempMax < sx 16 (s.dnum 0x9030 0x12) →
    exec (.thermalPoll temps t) s = .next (s.begin.modSm (fun x => { x with temps := (List.range 16).map (fun k => (temps.getD k 0).toInt) })))

/-- Supply dips, warnings, the save, POR and nRESET complete. VIN_SENSE_FALL, VIN_SENSE_RISE, SUPPLY_WARN, SUPPLY_WARN_CLEAR, SAVE_COMPLETE,
POR_ASSERT, POR_RELEASE, NRESET_LOW, NRESET_RELEASE and RESET_OUT_RELEASE complete with a next state, written out, for every operand under
the stated conditions; with the readings of log entry 68. (R434, R435, R453, R454, R455, R476) -/
def Obligations.SupplyAndResetCommandsComplete : Prop :=
  (∀ (s : State), s.on rSUPPLY_STAT fSUPPLY_STAT_BELOW = false →
    exec .vinSenseFall s = .next ((s.begin.wr rSUPPLY_STAT fSUPPLY_STAT_BELOW 1).modPower (fun x =>
      { x with dip := s.on rSUPPLY_CFG fSUPPLY_CFG_EN && !x.por }))) ∧
  (∀ (s : State), s.on rSUPPLY_STAT fSUPPLY_STAT_BELOW = true →
    exec .vinSenseRise s = .next (((if s.power.dip then s.begin.bumpEv rSAG_SHORT 1 else s.begin).wr rSUPPLY_STAT fSUPPLY_STAT_BELOW 0).modPower
      (fun x => { x with dip := false }))) ∧
  (∀ (n : Nat) (s : State), s.on rSUPPLY_CFG fSUPPLY_CFG_EN = true → s.power.dip = true → s.running = true →
    s.on rSUPPLY_STAT fSUPPLY_STAT_WARN = false →
    exec (.supplyWarn n) s = .next ((((s.begin.modPower (fun x => { x with dip := false })).wr rSUPPLY_STAT fSUPPLY_STAT_WARN 1).wr
      rSUPPLY_STAT fSUPPLY_STAT_SAVE_ACT 1).enterSaving n)) ∧
  (∀ (s : State), s.on rSUPPLY_STAT fSUPPLY_STAT_WARN = true → s.on rSUPPLY_STAT fSUPPLY_STAT_BELOW = false → s.dstate = 6 →
    exec .supplyWarnClear s = .next (s.begin.wr rSUPPLY_STAT fSUPPLY_STAT_WARN 0)) ∧
  (∀ (n : Nat) (r : SaveRun) (f : Fin 3) (l : Fin 131) (s : State), s.dstate = 6 → s.power.save = some r → s.tally.saveWaits = false →
    s.tally.req ≠ some .save → s.on rSUPPLY_STAT fSUPPLY_STAT_WARN = false →
    exec (.saveComplete n f l) s = .next (((((s.begin.doSave r n f l).modPower (fun x => { x with save := none })).wr rSUPPLY_STAT
      fSUPPLY_STAT_SAVE_ACT 0).afterReset false false true).tryStart)) ∧
  (∀ (lines : Nat) (s : State), s.power.por = false →
    exec (.porAssert lines) s = .next ((((s.begin.cutSave lines).modPower (fun x => { x with por := true, held := false, cause := 0 })).afterReset
      true true true).wr rDSTATE fDSTATE_STATE_WORD 0)) ∧
  (∀ (b : Fin 4) (s : State), s.power.por = true →
    exec (.porRelease b) s = .next (((s.begin.modPower (fun x => { x with por := false, bootsel := b, dip := s.on rSUPPLY_STAT fSUPPLY_STAT_BELOW })).wr rDSTATE fDSTATE_STATE_WORD 1).tryStart)) ∧
  (∀ (lines us : Nat) (s : State), s.power.nreset = true → 1 ≤ s.dstate → s.dstate ≤ 5 → s.power.held = false →
    exec (.nresetLow lines us) s = .next (((s.begin.modPower (fun x => { x with nreset := false })).modPower (fun x => { x with cause := 1 })).afterReset false false false)) ∧
  (∀ (b : Fin 4) (s : State), s.power.nreset = false →
    exec (.nresetRelease b) s = .next ((s.begin.modPower (fun x => { x with nreset := true, bootsel := b })).tryStart)) ∧
  (∀ (s : State), s.power.inReset = false → exec .resetOutRelease s = .next (s.begin.modPower (fun x => { x with resetOut := true })))

/-- Islands, regulators and rails, and the cache flush complete. ISLAND_OFF, ISLAND_ON, ISLAND_POWERED_ON, REG_CFG_WRITE,
REGULATOR_TRANSACTION_DONE, RAIL_SETTLED, PG_RISE, PG_DROP, PG_RAISE_TIMEOUT and PSTORE_FLUSH complete with a next state, written out, for
every operand under the stated conditions; with the readings of log entries 69 and 70. (R450, R470, R471, R472, R473, R316) -/
def Obligations.PowerCommandsComplete : Prop :=
  (∀ (who : Who) (n : Fin 31) (s : State), s.mayWrite who (rISL_CTRL n) →
    exec (.islandOff who n) s = .next (s.accepted.wrIslCtrl n (putFld (s.rw (rISL_CTRL n)) fISL_CTRL_OFF 1))) ∧
  (∀ (who : Who) (n : Fin 31) (s : State), s.mayWrite who (rISL_CTRL n) →
    exec (.islandOn who n) s = .next (s.accepted.wrIslCtrl n (putFld (s.rw (rISL_CTRL n)) fISL_CTRL_OFF 0))) ∧
  (∀ (n : Fin 31) (s : State), s.rd (rISL_STAT n) fISL_STAT_PWR = 2 →
    exec (.islandPoweredOn n) s = .next (((s.begin.wr (rISL_STAT n) fISL_STAT_PWR 0).islandPins n).railsAsk)) ∧
  (∀ (who : Who) (w : W32) (s : State), s.mayWrite who rREG_CFG →
    exec (.regCfgWrite who w) s = .next (s.accepted.wrRegCfg (wide w))) ∧
  (∀ (d : BitVec 8) (r : Nat) (s : State), s.power.bus = some r →
    exec (.regulatorTransactionDone false d) s = .next (((s.begin.modPower (fun x => { x with bus := none })).wr rREG_STAT fREG_STAT_BUSY
      0).railAgain r)) ∧
  (∀ (d : BitVec 8) (r : Nat) (n : Int) (s : State), s.power.bus = some r → (s.rail r).phase = .mode → voutExp d.toNat = some n →
    exec (.regulatorTransactionDone true d) s = .next ((((s.begin.modPower (fun x => { x with bus := none })).wr rREG_STAT fREG_STAT_BUSY
      0).modRail r (fun x => { x with exp := some n, phase := .idle, tries := 0 })).busKick)) ∧
  (∀ (r : Fin 3) (s : State), (s.rail r).phase = .settle → s.pgPresent r = false →
    exec (.railSettled r) s = .next (s.begin.railSettled r)) ∧
  (∀ (r : Fin 3) (s : State), ((s.begin.setPg r true).rail r).phase = .settle → (s.begin.setPg r true).pgPresent r = true →
    exec (.pgRise r) s = .next ((s.begin.setPg r true).railSettled r)) ∧
  (∀ (r : Fin 3) (s : State), s.pgHigh r = true → (s.begin.setPg r false).pgAwaited r = false → (s.begin.setPg r false).power.inReset = false →
    s.pgAwaited r = false → s.power.inReset = false →
    exec (.pgDrop r) s = .next (((s.begin.setPg r false).bumpErr rPG_DROP).kevt 0x00 0x41 r 0)) ∧
  (∀ (r : Fin 3) (s : State), (s.rail r).phase = .settle → s.pgPresent r = true → s.pgHigh r = false →
    exec (.pgRaiseTimeout r) s = .next (s.begin.railAgain r)) ∧
  (∀ (s s0 : State) (d : List Nat) (l : Nat), s.works = true → s.on rPSTORE fPSTORE_EN = true → s.nvm.flush = none →
    s0 = s.begin.cacheTouch (List.range s.cacheSize) → s0.logPlace = some l →
    d = ((List.range s.cacheSize).filter (fun k => recDirty (s.cacheRec k))).take 7 → d ≠ [] →
    exec .pstoreFlush s = .next (s0.modNvm (fun x => { x with
      lines := l :: x.lines, logPos := l + 1, flush := some ⟨l, d.map (fun k => (k, s.cacheRec k))⟩ }))) ∧
  (∀ (s : State) (f : FlushSt), s.works = true → s.on rPSTORE fPSTORE_EN = true → s.nvm.flush = some f →
    exec .pstoreFlush s = .next (f.recs.foldl (fun t r =>
      if recGen (t.cacheRec r.1) = recGen r.2 then
        (t.cacheTouch [r.1]).cacheWrite r.1 6 [BitVec.ofNat 8 (setBitN (recFlags (t.cacheRec r.1)) 1 false)] else t.cacheTouch [r.1])
      ((s.begin.modNvm (fun x => { x with flush := none, lines := x.lines.filter (fun l => l != f.place) })).logPut f.place (f.recs.map (·.2)))).serveReads)

/-- A read of VKIND or CH_FAULT_KIND marks the record as read and answers it. An agreed read of VKIND with a valid record sets VREC_READ, one
of CH_FAULT_KIND sets VREAD, and both answer what the register shows; besides, only the last agreed values change. (R235, R330, R20) -/
def Obligations.ViolationRecordReads : Prop :=
  (∀ (who : Who) (st : Fin 16) (s : State), s.mayRead who (rVKIND st) → s.on (rSSTAT st) fSSTAT_VREC_VALID = true →
    ∃ t, exec (.vkindRead who st false) s = .next (({ s.accepted.wr (rSSTAT st) fSSTAT_VREC_READ 1 with agreed := t }).answer
      (.data (s.accepted.viewWord (rVKIND st))))) ∧
  (∀ (who : Who) (e : Fin 4) (k : Fin 8) (s : State), s.mayRead who (rCH_FAULT_KIND e k) →
    ∃ t, exec (.chFaultKindRead who e k false) s = .next (({ s.accepted.wr (rCH_FAULT_KIND e k) fCH_FAULT_KIND_VREAD 1 with agreed := t }).answer
      (.data (s.accepted.viewWord (rCH_FAULT_KIND e k)))))
end

