-- ==== Sys2Proof/Laws/Field.lean ====
section
/-! SUPPORT. Laws/Field.lean: fields of words: what a field reads after it, or another field, was written. -/
namespace Sys2Proof.Machine

theorem getFld_testBit (w : W64) (f : Fld) (i : Nat) : (getFld w f).testBit i = (decide (i < f.w) && w.getLsbD (f.lo + i)) := by
  simp only [getFld, ← Nat.shiftRight_eq_div_pow, Nat.testBit_mod_two_pow, Nat.testBit_shiftRight, BitVec.testBit_toNat]

theorem fldMask_getLsbD (f : Fld) (i : Nat) : (fldMask f).getLsbD i = (decide (i < 64) && (decide (f.lo ≤ i) && decide (i - f.lo < f.w))) := by
  simp only [fldMask, BitVec.getLsbD_ofNat, Nat.testBit_mul_two_pow, Nat.testBit_two_pow_sub_one]

theorem putFld_getLsbD (w : W64) (f : Fld) (v i : Nat) : (putFld w f v).getLsbD i =
    if f.lo ≤ i ∧ i - f.lo < f.w then (decide (i < 64) && v.testBit (i - f.lo)) else w.getLsbD i := by
  simp only [putFld, BitVec.getLsbD_or, BitVec.getLsbD_and, BitVec.getLsbD_not, fldMask_getLsbD, BitVec.getLsbD_ofNat,
    Nat.testBit_mul_two_pow, Nat.testBit_mod_two_pow]
  by_cases h1 : f.lo ≤ i <;> by_cases h2 : i - f.lo < f.w <;> by_cases h3 : i < 64 <;> simp [h1, h2, h3]
  · exact BitVec.getLsbD_of_ge w i (by omega)
  · exact BitVec.getLsbD_of_ge w i (by omega)
  · exact BitVec.getLsbD_of_ge w i (by omega)

/-- A field reads the value written to it. -/
theorem getFld_putFld_same (w : W64) (f : Fld) (v : Nat) (h : f.lo + f.w ≤ 64) : getFld (putFld w f v) f = v % 2 ^ f.w := by
  apply Nat.eq_of_testBit_eq
  intro i
  rw [getFld_testBit, putFld_getLsbD, Nat.testBit_mod_two_pow]
  by_cases hi : i < f.w
  · have : f.lo + i < 64 := by omega
    simp [hi, this]
  · simp [hi]

/-- A write of one field leaves another as it was. -/
theorem getFld_putFld_ne (w : W64) (f g : Fld) (v : Nat) (h : f.lo + f.w ≤ g.lo ∨ g.lo + g.w ≤ f.lo) : getFld (putFld w f v) g = getFld w g := by
  apply Nat.eq_of_testBit_eq
  intro i
  rw [getFld_testBit, getFld_testBit, putFld_getLsbD]
  by_cases hi : i < g.w
  · have : ¬ (f.lo ≤ g.lo + i ∧ g.lo + i - f.lo < f.w) := by omega
    simp [hi, this]
  · simp [hi]

/-- Every field of a zero word reads 0. -/
@[simp] theorem getFld_zero (f : Fld) : getFld 0 f = 0 := by simp [getFld]

theorem getFld_lt (w : W64) (f : Fld) : getFld w f < 2 ^ f.w := Nat.mod_lt _ (Nat.two_pow_pos _)

end Sys2Proof.Machine
end

