-- ==== Sys2Proof/Laws/Store.lean ====
section
/-! SUPPORT. Laws/Store.lean: reads after writes of sparse contents, and that every write keeps the canonical form. -/
namespace Sys2Proof.Machine

variable {α : Type}

theorem storeGet_erase_same (d : Nat → α) (l : Store α) (a : Nat) : storeGet d (storeErase l a) a = d a := by
  induction l with
  | nil => rfl
  | cons p l ih =>
    obtain ⟨k, v⟩ := p
    by_cases h : k = a <;> simp [storeErase, storeGet, h, ih]

theorem storeGet_erase_ne (d : Nat → α) (l : Store α) {a b : Nat} (h : a ≠ b) : storeGet d (storeErase l a) b = storeGet d l b := by
  induction l with
  | nil => rfl
  | cons p l ih =>
    obtain ⟨k, v⟩ := p
    by_cases hk : k = a
    · subst hk; simp [storeErase, storeGet, h, ih]
    · by_cases hb : k = b
      · subst hb; simp [storeErase, hk, storeGet]
      · simp only [storeErase, hk, if_false, storeGet, hb, ih]

theorem storeGet_insert_same (d : Nat → α) (l : Store α) (a : Nat) (v : α) : storeGet d (storeInsert l a v) a = v := by
  induction l with
  | nil => simp [storeInsert, storeGet]
  | cons p l ih =>
    obtain ⟨k, w⟩ := p
    by_cases h : k = a
    · simp [storeInsert, storeGet, h]
    · by_cases h2 : a < k <;> simp [storeInsert, storeGet, h, h2, ih]

theorem storeGet_insert_ne (d : Nat → α) (l : Store α) {a b : Nat} (v : α) (h : a ≠ b) :
    storeGet d (storeInsert l a v) b = storeGet d l b := by
  induction l with
  | nil => simp [storeInsert, storeGet, h]
  | cons p l ih =>
    obtain ⟨k, w⟩ := p
    by_cases hk : k = a
    · subst hk; simp [storeInsert, storeGet, h, storeGet_erase_ne d l h]
    · by_cases hb : k = b
      · subst hb
        by_cases h2 : a < k <;> simp [storeInsert, storeGet, hk, h2, h]
      · by_cases h2 : a < k <;> simp [storeInsert, storeGet, hk, h2, hb, h, ih, storeGet_erase_ne d l h]

@[simp] theorem storeGet_put_same [DecidableEq α] (d : Nat → α) (l : Store α) (a : Nat) (v : α) : storeGet d (storePut d l a v) a = v := by
  by_cases h : v = d a
  · simp [storePut, h, storeGet_erase_same]
  · simp [storePut, h, storeGet_insert_same]

theorem storeGet_put_ne [DecidableEq α] (d : Nat → α) (l : Store α) {a b : Nat} (v : α) (h : a ≠ b) :
    storeGet d (storePut d l a v) b = storeGet d l b := by
  by_cases hv : v = d a
  · simp [storePut, hv, storeGet_erase_ne d l h]
  · simp [storePut, hv, storeGet_insert_ne d l v h]

theorem storeGet_put [DecidableEq α] (d : Nat → α) (l : Store α) (a b : Nat) (v : α) :
    storeGet d (storePut d l a v) b = if a = b then v else storeGet d l b := by
  by_cases h : a = b
  · subst h; simp
  · simp [storeGet_put_ne d l v h, h]

/-! ### The canonical form -/

theorem storeRising_mono {l : Store α} : ∀ {m n : Nat}, m ≤ n → storeRising n l = true → storeRising m l = true := by
  cases l with
  | nil => intros; rfl
  | cons p l =>
    intro m n h hr
    simp only [storeRising, Bool.and_eq_true, decide_eq_true_eq] at hr ⊢
    exact ⟨le_trans h hr.1, hr.2⟩

theorem storeErase_rising {l : Store α} : ∀ {m a : Nat}, storeRising m l = true → storeRising m (storeErase l a) = true := by
  induction l with
  | nil => intros; rfl
  | cons p l ih =>
    obtain ⟨k, v⟩ := p
    intro m a hr
    simp only [storeRising, Bool.and_eq_true, decide_eq_true_eq] at hr
    by_cases h : k = a
    · simp only [storeErase, h, if_true]
      exact storeRising_mono (by omega) (ih (a := a) hr.2)
    · simp only [storeErase, h, if_false, storeRising, Bool.and_eq_true, decide_eq_true_eq]
      exact ⟨hr.1, ih hr.2⟩

theorem storeErase_of_rising {l : Store α} : ∀ {m a : Nat}, a < m → storeRising m l = true → storeErase l a = l := by
  induction l with
  | nil => intros; rfl
  | cons p l ih =>
    obtain ⟨k, v⟩ := p
    intro m a h hr
    simp only [storeRising, Bool.and_eq_true, decide_eq_true_eq] at hr
    have hk : k ≠ a := by omega
    simp [storeErase, hk, ih (m := k + 1) (a := a) (by omega) hr.2]

theorem storeInsert_rising {l : Store α} : ∀ {m a : Nat} {v : α}, m ≤ a → storeRising m l = true → storeRising m (storeInsert l a v) = true := by
  induction l with
  | nil => intro m a v h _; simp [storeInsert, storeRising, h]
  | cons p l ih =>
    obtain ⟨k, w⟩ := p
    intro m a v h hr
    simp only [storeRising, Bool.and_eq_true, decide_eq_true_eq] at hr
    by_cases hk : k = a
    · subst hk
      simp only [storeInsert, if_true, storeRising, Bool.and_eq_true, decide_eq_true_eq]
      exact ⟨h, storeErase_rising hr.2⟩
    · by_cases h2 : a < k
      · simp only [storeInsert, hk, if_false, h2, if_true, storeRising, Bool.and_eq_true, decide_eq_true_eq]
        exact ⟨h, by omega, storeErase_rising hr.2⟩
      · simp only [storeInsert, hk, if_false, h2, storeRising, Bool.and_eq_true, decide_eq_true_eq]
        exact ⟨hr.1, ih (by omega) hr.2⟩

theorem storeErase_all {P : Nat × α → Bool} {l : Store α} {a : Nat} (h : l.all P = true) : (storeErase l a).all P = true := by
  induction l with
  | nil => rfl
  | cons p l ih =>
    obtain ⟨k, v⟩ := p
    simp only [List.all_cons, Bool.and_eq_true] at h
    by_cases hk : k = a
    · simp [storeErase, hk, ih h.2]
    · simp [storeErase, hk, ih h.2, h.1]

theorem storeInsert_all {P : Nat × α → Bool} {l : Store α} {a : Nat} {v : α} (h : l.all P = true) (hv : P (a, v) = true) :
    (storeInsert l a v).all P = true := by
  induction l with
  | nil => simp [storeInsert, hv]
  | cons p l ih =>
    obtain ⟨k, w⟩ := p
    simp only [List.all_cons, Bool.and_eq_true] at h
    by_cases hk : k = a
    · simp only [storeInsert, hk, if_true, List.all_cons, Bool.and_eq_true]; exact ⟨hv, storeErase_all h.2⟩
    · by_cases h2 : a < k
      · simp only [storeInsert, hk, if_false, h2, if_true, List.all_cons, Bool.and_eq_true]; exact ⟨hv, h.1, storeErase_all h.2⟩
      · simp only [storeInsert, hk, if_false, h2, List.all_cons, Bool.and_eq_true]; exact ⟨h.1, ih h.2⟩

/-- A write keeps the canonical form. -/
theorem storePut_wf [DecidableEq α] (d : Nat → α) {l : Store α} (a : Nat) (v : α) (h : storeWf d l = true) : storeWf d (storePut d l a v) = true := by
  simp only [storeWf, Bool.and_eq_true] at h ⊢
  unfold storePut
  split
  · exact ⟨storeErase_rising h.1, storeErase_all h.2⟩
  · exact ⟨storeInsert_rising (Nat.zero_le _) h.1, storeInsert_all h.2 (by simpa)⟩

theorem storePutBytes_wf (d : Nat → Byte) (b : List Byte) : ∀ (m : Store Byte) (a : Nat), storeWf d m = true →
    storeWf d (storePutBytes d m a b) = true := by
  induction b with
  | nil => intro m a h; exact h
  | cons x l ih => intro m a h; exact ih _ _ (storePut_wf d a x h)

/-- What an address holds after bytes were written. -/
theorem storeGet_putBytes (d : Nat → Byte) (b : List Byte) : ∀ (m : Store Byte) (a x : Nat),
    storeGet d (storePutBytes d m a b) x = if a ≤ x ∧ x < a + b.length then b.getD (x - a) 0 else storeGet d m x := by
  induction b with
  | nil => intro m a x; simp [storePutBytes]
  | cons v l ih =>
    intro m a x
    rw [storePutBytes, ih, storeGet_put]
    by_cases h : x = a
    · subst h; simp
    · by_cases h2 : a + 1 ≤ x ∧ x < a + 1 + l.length
      · have e : x - a = (x - (a + 1)) + 1 := by omega
        have h3 : a ≤ x ∧ x < a + (v :: l).length := by simp only [List.length_cons]; omega
        rw [if_pos h2, if_pos h3, e]; simp
      · have h3 : ¬ (a ≤ x ∧ x < a + (v :: l).length) := by simp only [List.length_cons]; omega
        rw [if_neg h2, if_neg h3, if_neg (Ne.symm h)]

/-! ### The memories -/

theorem sramWrite_wf (s : State) (o : Nat) (b : List Byte) (h : Memory.wf s = true) : Memory.wf (s.sramWrite o b) = true := by
  simp only [Memory.wf, Bool.and_eq_true] at h ⊢
  exact ⟨⟨storePutBytes_wf _ _ _ _ h.1.1, h.1.2⟩, h.2⟩

theorem dramWrite_wf (s : State) (o : Nat) (b : List Byte) (h : Memory.wf s = true) : Memory.wf (s.dramWrite o b) = true := by
  simp only [Memory.wf, Bool.and_eq_true] at h ⊢
  exact ⟨⟨h.1.1, storePutBytes_wf _ _ _ _ h.1.2⟩, h.2⟩

theorem envWrite_wf (s : State) (o : Nat) (b : List Byte) (h : Memory.wf s = true) : Memory.wf (s.envWrite o b) = true := by
  simp only [Memory.wf, Bool.and_eq_true] at h ⊢
  exact ⟨h.1, storePutBytes_wf _ _ _ _ h.2⟩

theorem reset_memory_wf : Memory.wf State.reset = true := by decide

end Sys2Proof.Machine
end

