-- ==== Sys2Proof/Laws/State.lean ====
section
/-! SUPPORT. Laws/State.lean: what each update of a state leaves as it was, field by field, so that no proof unfolds a record update. -/
set_option linter.all false
namespace Sys2Proof.Machine

/-! setRw -/
@[simp] theorem State.setRw_force (s : State) (a : Nat) (w : W64) : (s.setRw a w).force = s.force := rfl
@[simp] theorem State.setRw_scan (s : State) (a : Nat) (w : W64) : (s.setRw a w).scan = s.scan := rfl
@[simp] theorem State.setRw_live (s : State) (a : Nat) (w : W64) : (s.setRw a w).live = s.live := rfl
@[simp] theorem State.setRw_agreed (s : State) (a : Nat) (w : W64) : (s.setRw a w).agreed = s.agreed := rfl
@[simp] theorem State.setRw_heldLow (s : State) (a : Nat) (w : W64) : (s.setRw a w).heldLow = s.heldLow := rfl
@[simp] theorem State.setRw_kevtHeld (s : State) (a : Nat) (w : W64) : (s.setRw a w).kevtHeld = s.kevtHeld := rfl
@[simp] theorem State.setRw_kevq (s : State) (a : Nat) (w : W64) : (s.setRw a w).kevq = s.kevq := rfl
@[simp] theorem State.setRw_vrecRead (s : State) (a : Nat) (w : W64) : (s.setRw a w).vrecRead = s.vrecRead := rfl
@[simp] theorem State.setRw_frozen (s : State) (a : Nat) (w : W64) : (s.setRw a w).frozen = s.frozen := rfl
@[simp] theorem State.setRw_sram (s : State) (a : Nat) (w : W64) : (s.setRw a w).sram = s.sram := rfl
@[simp] theorem State.setRw_dram (s : State) (a : Nat) (w : W64) : (s.setRw a w).dram = s.dram := rfl
@[simp] theorem State.setRw_ecc (s : State) (a : Nat) (w : W64) : (s.setRw a w).ecc = s.ecc := rfl
@[simp] theorem State.setRw_tlb (s : State) (a : Nat) (w : W64) : (s.setRw a w).tlb = s.tlb := rfl
@[simp] theorem State.setRw_env (s : State) (a : Nat) (w : W64) : (s.setRw a w).env = s.env := rfl
@[simp] theorem State.setRw_tally (s : State) (a : Nat) (w : W64) : (s.setRw a w).tally = s.tally := rfl
@[simp] theorem State.setRw_pipes (s : State) (a : Nat) (w : W64) : (s.setRw a w).pipes = s.pipes := rfl
@[simp] theorem State.setRw_led (s : State) (a : Nat) (w : W64) : (s.setRw a w).led = s.led := rfl
@[simp] theorem State.setRw_queues (s : State) (a : Nat) (w : W64) : (s.setRw a w).queues = s.queues := rfl
@[simp] theorem State.setRw_admitted (s : State) (a : Nat) (w : W64) : (s.setRw a w).admitted = s.admitted := rfl
@[simp] theorem State.setRw_gpu (s : State) (a : Nat) (w : W64) : (s.setRw a w).gpu = s.gpu := rfl
@[simp] theorem State.setRw_dmCh (s : State) (a : Nat) (w : W64) : (s.setRw a w).dmCh = s.dmCh := rfl
@[simp] theorem State.setRw_dmEng (s : State) (a : Nat) (w : W64) : (s.setRw a w).dmEng = s.dmEng := rfl
@[simp] theorem State.setRw_squashed (s : State) (a : Nat) (w : W64) : (s.setRw a w).squashed = s.squashed := rfl
@[simp] theorem State.setRw_clearing (s : State) (a : Nat) (w : W64) : (s.setRw a w).clearing = s.clearing := rfl
@[simp] theorem State.setRw_boot (s : State) (a : Nat) (w : W64) : (s.setRw a w).boot = s.boot := rfl
@[simp] theorem State.setRw_harts (s : State) (a : Nat) (w : W64) : (s.setRw a w).harts = s.harts := rfl
@[simp] theorem State.setRw_keeperTrap (s : State) (a : Nat) (w : W64) : (s.setRw a w).keeperTrap = s.keeperTrap := rfl
@[simp] theorem State.setRw_power (s : State) (a : Nat) (w : W64) : (s.setRw a w).power = s.power := rfl
@[simp] theorem State.setRw_sm (s : State) (a : Nat) (w : W64) : (s.setRw a w).sm = s.sm := rfl
@[simp] theorem State.setRw_mem (s : State) (a : Nat) (w : W64) : (s.setRw a w).mem = s.mem := rfl
@[simp] theorem State.setRw_msr (s : State) (a : Nat) (w : W64) : (s.setRw a w).msr = s.msr := rfl
@[simp] theorem State.setRw_nvm (s : State) (a : Nat) (w : W64) : (s.setRw a w).nvm = s.nvm := rfl
@[simp] theorem State.setRw_panels (s : State) (a : Nat) (w : W64) : (s.setRw a w).panels = s.panels := rfl
@[simp] theorem State.setRw_lineRuns (s : State) (a : Nat) (w : W64) : (s.setRw a w).lineRuns = s.lineRuns := rfl
@[simp] theorem State.setRw_streams (s : State) (a : Nat) (w : W64) : (s.setRw a w).streams = s.streams := rfl
@[simp] theorem State.setRw_haps (s : State) (a : Nat) (w : W64) : (s.setRw a w).haps = s.haps := rfl
@[simp] theorem State.setRw_caps (s : State) (a : Nat) (w : W64) : (s.setRw a w).caps = s.caps := rfl
@[simp] theorem State.setRw_mix (s : State) (a : Nat) (w : W64) : (s.setRw a w).mix = s.mix := rfl
@[simp] theorem State.setRw_syncOut (s : State) (a : Nat) (w : W64) : (s.setRw a w).syncOut = s.syncOut := rfl
@[simp] theorem State.setRw_syncIn (s : State) (a : Nat) (w : W64) : (s.setRw a w).syncIn = s.syncIn := rfl
@[simp] theorem State.setRw_resp (s : State) (a : Nat) (w : W64) : (s.setRw a w).resp = s.resp := rfl
@[simp] theorem State.setRw_out (s : State) (a : Nat) (w : W64) : (s.setRw a w).out = s.out := rfl
@[simp] theorem State.setRw_fresh (s : State) (a : Nat) (w : W64) : (s.setRw a w).fresh = s.fresh := rfl
@[simp] theorem State.setRw_pending (s : State) (a : Nat) (w : W64) : (s.setRw a w).pending = s.pending := rfl
@[simp] theorem State.setRw_frw_of (s : State) (a : Nat) (w : W64) (x : Nat) : (s.setRw a w).frw x = s.frw x := rfl
@[simp] theorem State.setRw_frd_of (s : State) (a : Nat) (w : W64) (x : Nat) (g : Fld) : (s.setRw a w).frd x g = s.frd x g := rfl
@[simp] theorem State.setRw_srw_of (s : State) (a : Nat) (w : W64) (x : Nat) : (s.setRw a w).srw x = s.srw x := rfl
@[simp] theorem State.setRw_srd_of (s : State) (a : Nat) (w : W64) (x : Nat) (g : Fld) : (s.setRw a w).srd x g = s.srd x g := rfl
@[simp] theorem State.setRw_lv_of (s : State) (a : Nat) (w : W64) (x : Nat) : (s.setRw a w).lv x = s.lv x := rfl
@[simp] theorem State.setRw_pipe_of (s : State) (a : Nat) (w : W64) (x : Nat) : (s.setRw a w).pipe x = s.pipe x := rfl
@[simp] theorem State.setRw_queue_of (s : State) (a : Nat) (w : W64) (x : Nat) : (s.setRw a w).queue x = s.queue x := rfl
@[simp] theorem State.setRw_ch_of (s : State) (a : Nat) (w : W64) (x : Nat) : (s.setRw a w).ch x = s.ch x := rfl
@[simp] theorem State.setRw_eng_of (s : State) (a : Nat) (w : W64) (x : Nat) : (s.setRw a w).eng x = s.eng x := rfl
@[simp] theorem State.setRw_panel_of (s : State) (a : Nat) (w : W64) (x : Nat) : (s.setRw a w).panel x = s.panel x := rfl
@[simp] theorem State.setRw_stream_of (s : State) (a : Nat) (w : W64) (x : Nat) : (s.setRw a w).stream x = s.stream x := rfl
@[simp] theorem State.setRw_hap_of (s : State) (a : Nat) (w : W64) (x : Nat) : (s.setRw a w).hap x = s.hap x := rfl
@[simp] theorem State.setRw_cap_of (s : State) (a : Nat) (w : W64) (x : Nat) : (s.setRw a w).cap x = s.cap x := rfl
@[simp] theorem State.setRw_hart_of (s : State) (a : Nat) (w : W64) (x : Nat) : (s.setRw a w).hart x = s.hart x := rfl
@[simp] theorem State.setRw_op_of (s : State) (a : Nat) (w : W64) (x : Nat) : (s.setRw a w).op x = s.op x := rfl
@[simp] theorem State.setRw_rail_of (s : State) (a : Nat) (w : W64) (x : Nat) : (s.setRw a w).rail x = s.rail x := rfl
@[simp] theorem State.setRw_sramB_of (s : State) (a : Nat) (w : W64) (x : Nat) : (s.setRw a w).sramB x = s.sramB x := rfl
@[simp] theorem State.setRw_dramB_of (s : State) (a : Nat) (w : W64) (x : Nat) : (s.setRw a w).dramB x = s.dramB x := rfl
@[simp] theorem State.setRw_envB_of (s : State) (a : Nat) (w : W64) (x : Nat) : (s.setRw a w).envB x = s.envB x := rfl
@[simp] theorem State.setRw_free_of (s : State) (a : Nat) (w : W64) : (s.setRw a w).free = s.free := rfl

/-! setFrw -/
@[simp] theorem State.setFrw_regs (s : State) (a : Nat) (w : W64) : (s.setFrw a w).regs = s.regs := rfl
@[simp] theorem State.setFrw_scan (s : State) (a : Nat) (w : W64) : (s.setFrw a w).scan = s.scan := rfl
@[simp] theorem State.setFrw_live (s : State) (a : Nat) (w : W64) : (s.setFrw a w).live = s.live := rfl
@[simp] theorem State.setFrw_agreed (s : State) (a : Nat) (w : W64) : (s.setFrw a w).agreed = s.agreed := rfl
@[simp] theorem State.setFrw_heldLow (s : State) (a : Nat) (w : W64) : (s.setFrw a w).heldLow = s.heldLow := rfl
@[simp] theorem State.setFrw_kevtHeld (s : State) (a : Nat) (w : W64) : (s.setFrw a w).kevtHeld = s.kevtHeld := rfl
@[simp] theorem State.setFrw_kevq (s : State) (a : Nat) (w : W64) : (s.setFrw a w).kevq = s.kevq := rfl
@[simp] theorem State.setFrw_vrecRead (s : State) (a : Nat) (w : W64) : (s.setFrw a w).vrecRead = s.vrecRead := rfl
@[simp] theorem State.setFrw_frozen (s : State) (a : Nat) (w : W64) : (s.setFrw a w).frozen = s.frozen := rfl
@[simp] theorem State.setFrw_sram (s : State) (a : Nat) (w : W64) : (s.setFrw a w).sram = s.sram := rfl
@[simp] theorem State.setFrw_dram (s : State) (a : Nat) (w : W64) : (s.setFrw a w).dram = s.dram := rfl
@[simp] theorem State.setFrw_ecc (s : State) (a : Nat) (w : W64) : (s.setFrw a w).ecc = s.ecc := rfl
@[simp] theorem State.setFrw_tlb (s : State) (a : Nat) (w : W64) : (s.setFrw a w).tlb = s.tlb := rfl
@[simp] theorem State.setFrw_env (s : State) (a : Nat) (w : W64) : (s.setFrw a w).env = s.env := rfl
@[simp] theorem State.setFrw_tally (s : State) (a : Nat) (w : W64) : (s.setFrw a w).tally = s.tally := rfl
@[simp] theorem State.setFrw_pipes (s : State) (a : Nat) (w : W64) : (s.setFrw a w).pipes = s.pipes := rfl
@[simp] theorem State.setFrw_led (s : State) (a : Nat) (w : W64) : (s.setFrw a w).led = s.led := rfl
@[simp] theorem State.setFrw_queues (s : State) (a : Nat) (w : W64) : (s.setFrw a w).queues = s.queues := rfl
@[simp] theorem State.setFrw_admitted (s : State) (a : Nat) (w : W64) : (s.setFrw a w).admitted = s.admitted := rfl
@[simp] theorem State.setFrw_gpu (s : State) (a : Nat) (w : W64) : (s.setFrw a w).gpu = s.gpu := rfl
@[simp] theorem State.setFrw_dmCh (s : State) (a : Nat) (w : W64) : (s.setFrw a w).dmCh = s.dmCh := rfl
@[simp] theorem State.setFrw_dmEng (s : State) (a : Nat) (w : W64) : (s.setFrw a w).dmEng = s.dmEng := rfl
@[simp] theorem State.setFrw_squashed (s : State) (a : Nat) (w : W64) : (s.setFrw a w).squashed = s.squashed := rfl
@[simp] theorem State.setFrw_clearing (s : State) (a : Nat) (w : W64) : (s.setFrw a w).clearing = s.clearing := rfl
@[simp] theorem State.setFrw_boot (s : State) (a : Nat) (w : W64) : (s.setFrw a w).boot = s.boot := rfl
@[simp] theorem State.setFrw_harts (s : State) (a : Nat) (w : W64) : (s.setFrw a w).harts = s.harts := rfl
@[simp] theorem State.setFrw_keeperTrap (s : State) (a : Nat) (w : W64) : (s.setFrw a w).keeperTrap = s.keeperTrap := rfl
@[simp] theorem State.setFrw_power (s : State) (a : Nat) (w : W64) : (s.setFrw a w).power = s.power := rfl
@[simp] theorem State.setFrw_sm (s : State) (a : Nat) (w : W64) : (s.setFrw a w).sm = s.sm := rfl
@[simp] theorem State.setFrw_mem (s : State) (a : Nat) (w : W64) : (s.setFrw a w).mem = s.mem := rfl
@[simp] theorem State.setFrw_msr (s : State) (a : Nat) (w : W64) : (s.setFrw a w).msr = s.msr := rfl
@[simp] theorem State.setFrw_nvm (s : State) (a : Nat) (w : W64) : (s.setFrw a w).nvm = s.nvm := rfl
@[simp] theorem State.setFrw_panels (s : State) (a : Nat) (w : W64) : (s.setFrw a w).panels = s.panels := rfl
@[simp] theorem State.setFrw_lineRuns (s : State) (a : Nat) (w : W64) : (s.setFrw a w).lineRuns = s.lineRuns := rfl
@[simp] theorem State.setFrw_streams (s : State) (a : Nat) (w : W64) : (s.setFrw a w).streams = s.streams := rfl
@[simp] theorem State.setFrw_haps (s : State) (a : Nat) (w : W64) : (s.setFrw a w).haps = s.haps := rfl
@[simp] theorem State.setFrw_caps (s : State) (a : Nat) (w : W64) : (s.setFrw a w).caps = s.caps := rfl
@[simp] theorem State.setFrw_mix (s : State) (a : Nat) (w : W64) : (s.setFrw a w).mix = s.mix := rfl
@[simp] theorem State.setFrw_syncOut (s : State) (a : Nat) (w : W64) : (s.setFrw a w).syncOut = s.syncOut := rfl
@[simp] theorem State.setFrw_syncIn (s : State) (a : Nat) (w : W64) : (s.setFrw a w).syncIn = s.syncIn := rfl
@[simp] theorem State.setFrw_resp (s : State) (a : Nat) (w : W64) : (s.setFrw a w).resp = s.resp := rfl
@[simp] theorem State.setFrw_out (s : State) (a : Nat) (w : W64) : (s.setFrw a w).out = s.out := rfl
@[simp] theorem State.setFrw_fresh (s : State) (a : Nat) (w : W64) : (s.setFrw a w).fresh = s.fresh := rfl
@[simp] theorem State.setFrw_pending (s : State) (a : Nat) (w : W64) : (s.setFrw a w).pending = s.pending := rfl
@[simp] theorem State.setFrw_rw_of (s : State) (a : Nat) (w : W64) (x : Nat) : (s.setFrw a w).rw x = s.rw x := rfl
@[simp] theorem State.setFrw_rd_of (s : State) (a : Nat) (w : W64) (x : Nat) (g : Fld) : (s.setFrw a w).rd x g = s.rd x g := rfl
@[simp] theorem State.setFrw_on_of (s : State) (a : Nat) (w : W64) (x : Nat) (g : Fld) : (s.setFrw a w).on x g = s.on x g := rfl
@[simp] theorem State.setFrw_srw_of (s : State) (a : Nat) (w : W64) (x : Nat) : (s.setFrw a w).srw x = s.srw x := rfl
@[simp] theorem State.setFrw_srd_of (s : State) (a : Nat) (w : W64) (x : Nat) (g : Fld) : (s.setFrw a w).srd x g = s.srd x g := rfl
@[simp] theorem State.setFrw_lv_of (s : State) (a : Nat) (w : W64) (x : Nat) : (s.setFrw a w).lv x = s.lv x := rfl
@[simp] theorem State.setFrw_pipe_of (s : State) (a : Nat) (w : W64) (x : Nat) : (s.setFrw a w).pipe x = s.pipe x := rfl
@[simp] theorem State.setFrw_queue_of (s : State) (a : Nat) (w : W64) (x : Nat) : (s.setFrw a w).queue x = s.queue x := rfl
@[simp] theorem State.setFrw_ch_of (s : State) (a : Nat) (w : W64) (x : Nat) : (s.setFrw a w).ch x = s.ch x := rfl
@[simp] theorem State.setFrw_eng_of (s : State) (a : Nat) (w : W64) (x : Nat) : (s.setFrw a w).eng x = s.eng x := rfl
@[simp] theorem State.setFrw_panel_of (s : State) (a : Nat) (w : W64) (x : Nat) : (s.setFrw a w).panel x = s.panel x := rfl
@[simp] theorem State.setFrw_stream_of (s : State) (a : Nat) (w : W64) (x : Nat) : (s.setFrw a w).stream x = s.stream x := rfl
@[simp] theorem State.setFrw_hap_of (s : State) (a : Nat) (w : W64) (x : Nat) : (s.setFrw a w).hap x = s.hap x := rfl
@[simp] theorem State.setFrw_cap_of (s : State) (a : Nat) (w : W64) (x : Nat) : (s.setFrw a w).cap x = s.cap x := rfl
@[simp] theorem State.setFrw_hart_of (s : State) (a : Nat) (w : W64) (x : Nat) : (s.setFrw a w).hart x = s.hart x := rfl
@[simp] theorem State.setFrw_op_of (s : State) (a : Nat) (w : W64) (x : Nat) : (s.setFrw a w).op x = s.op x := rfl
@[simp] theorem State.setFrw_rail_of (s : State) (a : Nat) (w : W64) (x : Nat) : (s.setFrw a w).rail x = s.rail x := rfl
@[simp] theorem State.setFrw_stallState_of (s : State) (a : Nat) (w : W64) (x : Nat) : (s.setFrw a w).stallState x = s.stallState x := rfl
@[simp] theorem State.setFrw_islandOn_of (s : State) (a : Nat) (w : W64) (x : Nat) : (s.setFrw a w).islandOn x = s.islandOn x := rfl
@[simp] theorem State.setFrw_dstate_of (s : State) (a : Nat) (w : W64) : (s.setFrw a w).dstate = s.dstate := rfl
@[simp] theorem State.setFrw_running_of (s : State) (a : Nat) (w : W64) : (s.setFrw a w).running = s.running := rfl
@[simp] theorem State.setFrw_sramB_of (s : State) (a : Nat) (w : W64) (x : Nat) : (s.setFrw a w).sramB x = s.sramB x := rfl
@[simp] theorem State.setFrw_dramB_of (s : State) (a : Nat) (w : W64) (x : Nat) : (s.setFrw a w).dramB x = s.dramB x := rfl
@[simp] theorem State.setFrw_envB_of (s : State) (a : Nat) (w : W64) (x : Nat) : (s.setFrw a w).envB x = s.envB x := rfl
@[simp] theorem State.setFrw_free_of (s : State) (a : Nat) (w : W64) : (s.setFrw a w).free = s.free := rfl

/-! setSrw -/
@[simp] theorem State.setSrw_regs (s : State) (a : Nat) (w : W64) : (s.setSrw a w).regs = s.regs := rfl
@[simp] theorem State.setSrw_force (s : State) (a : Nat) (w : W64) : (s.setSrw a w).force = s.force := rfl
@[simp] theorem State.setSrw_live (s : State) (a : Nat) (w : W64) : (s.setSrw a w).live = s.live := rfl
@[simp] theorem State.setSrw_agreed (s : State) (a : Nat) (w : W64) : (s.setSrw a w).agreed = s.agreed := rfl
@[simp] theorem State.setSrw_heldLow (s : State) (a : Nat) (w : W64) : (s.setSrw a w).heldLow = s.heldLow := rfl
@[simp] theorem State.setSrw_kevtHeld (s : State) (a : Nat) (w : W64) : (s.setSrw a w).kevtHeld = s.kevtHeld := rfl
@[simp] theorem State.setSrw_kevq (s : State) (a : Nat) (w : W64) : (s.setSrw a w).kevq = s.kevq := rfl
@[simp] theorem State.setSrw_vrecRead (s : State) (a : Nat) (w : W64) : (s.setSrw a w).vrecRead = s.vrecRead := rfl
@[simp] theorem State.setSrw_frozen (s : State) (a : Nat) (w : W64) : (s.setSrw a w).frozen = s.frozen := rfl
@[simp] theorem State.setSrw_sram (s : State) (a : Nat) (w : W64) : (s.setSrw a w).sram = s.sram := rfl
@[simp] theorem State.setSrw_dram (s : State) (a : Nat) (w : W64) : (s.setSrw a w).dram = s.dram := rfl
@[simp] theorem State.setSrw_ecc (s : State) (a : Nat) (w : W64) : (s.setSrw a w).ecc = s.ecc := rfl
@[simp] theorem State.setSrw_tlb (s : State) (a : Nat) (w : W64) : (s.setSrw a w).tlb = s.tlb := rfl
@[simp] theorem State.setSrw_env (s : State) (a : Nat) (w : W64) : (s.setSrw a w).env = s.env := rfl
@[simp] theorem State.setSrw_tally (s : State) (a : Nat) (w : W64) : (s.setSrw a w).tally = s.tally := rfl
@[simp] theorem State.setSrw_pipes (s : State) (a : Nat) (w : W64) : (s.setSrw a w).pipes = s.pipes := rfl
@[simp] theorem State.setSrw_led (s : State) (a : Nat) (w : W64) : (s.setSrw a w).led = s.led := rfl
@[simp] theorem State.setSrw_queues (s : State) (a : Nat) (w : W64) : (s.setSrw a w).queues = s.queues := rfl
@[simp] theorem State.setSrw_admitted (s : State) (a : Nat) (w : W64) : (s.setSrw a w).admitted = s.admitted := rfl
@[simp] theorem State.setSrw_gpu (s : State) (a : Nat) (w : W64) : (s.setSrw a w).gpu = s.gpu := rfl
@[simp] theorem State.setSrw_dmCh (s : State) (a : Nat) (w : W64) : (s.setSrw a w).dmCh = s.dmCh := rfl
@[simp] theorem State.setSrw_dmEng (s : State) (a : Nat) (w : W64) : (s.setSrw a w).dmEng = s.dmEng := rfl
@[simp] theorem State.setSrw_squashed (s : State) (a : Nat) (w : W64) : (s.setSrw a w).squashed = s.squashed := rfl
@[simp] theorem State.setSrw_clearing (s : State) (a : Nat) (w : W64) : (s.setSrw a w).clearing = s.clearing := rfl
@[simp] theorem State.setSrw_boot (s : State) (a : Nat) (w : W64) : (s.setSrw a w).boot = s.boot := rfl
@[simp] theorem State.setSrw_harts (s : State) (a : Nat) (w : W64) : (s.setSrw a w).harts = s.harts := rfl
@[simp] theorem State.setSrw_keeperTrap (s : State) (a : Nat) (w : W64) : (s.setSrw a w).keeperTrap = s.keeperTrap := rfl
@[simp] theorem State.setSrw_power (s : State) (a : Nat) (w : W64) : (s.setSrw a w).power = s.power := rfl
@[simp] theorem State.setSrw_sm (s : State) (a : Nat) (w : W64) : (s.setSrw a w).sm = s.sm := rfl
@[simp] theorem State.setSrw_mem (s : State) (a : Nat) (w : W64) : (s.setSrw a w).mem = s.mem := rfl
@[simp] theorem State.setSrw_msr (s : State) (a : Nat) (w : W64) : (s.setSrw a w).msr = s.msr := rfl
@[simp] theorem State.setSrw_nvm (s : State) (a : Nat) (w : W64) : (s.setSrw a w).nvm = s.nvm := rfl
@[simp] theorem State.setSrw_panels (s : State) (a : Nat) (w : W64) : (s.setSrw a w).panels = s.panels := rfl
@[simp] theorem State.setSrw_lineRuns (s : State) (a : Nat) (w : W64) : (s.setSrw a w).lineRuns = s.lineRuns := rfl
@[simp] theorem State.setSrw_streams (s : State) (a : Nat) (w : W64) : (s.setSrw a w).streams = s.streams := rfl
@[simp] theorem State.setSrw_haps (s : State) (a : Nat) (w : W64) : (s.setSrw a w).haps = s.haps := rfl
@[simp] theorem State.setSrw_caps (s : State) (a : Nat) (w : W64) : (s.setSrw a w).caps = s.caps := rfl
@[simp] theorem State.setSrw_mix (s : State) (a : Nat) (w : W64) : (s.setSrw a w).mix = s.mix := rfl
@[simp] theorem State.setSrw_syncOut (s : State) (a : Nat) (w : W64) : (s.setSrw a w).syncOut = s.syncOut := rfl
@[simp] theorem State.setSrw_syncIn (s : State) (a : Nat) (w : W64) : (s.setSrw a w).syncIn = s.syncIn := rfl
@[simp] theorem State.setSrw_resp (s : State) (a : Nat) (w : W64) : (s.setSrw a w).resp = s.resp := rfl
@[simp] theorem State.setSrw_out (s : State) (a : Nat) (w : W64) : (s.setSrw a w).out = s.out := rfl
@[simp] theorem State.setSrw_fresh (s : State) (a : Nat) (w : W64) : (s.setSrw a w).fresh = s.fresh := rfl
@[simp] theorem State.setSrw_pending (s : State) (a : Nat) (w : W64) : (s.setSrw a w).pending = s.pending := rfl
@[simp] theorem State.setSrw_rw_of (s : State) (a : Nat) (w : W64) (x : Nat) : (s.setSrw a w).rw x = s.rw x := rfl
@[simp] theorem State.setSrw_rd_of (s : State) (a : Nat) (w : W64) (x : Nat) (g : Fld) : (s.setSrw a w).rd x g = s.rd x g := rfl
@[simp] theorem State.setSrw_on_of (s : State) (a : Nat) (w : W64) (x : Nat) (g : Fld) : (s.setSrw a w).on x g = s.on x g := rfl
@[simp] theorem State.setSrw_frw_of (s : State) (a : Nat) (w : W64) (x : Nat) : (s.setSrw a w).frw x = s.frw x := rfl
@[simp] theorem State.setSrw_frd_of (s : State) (a : Nat) (w : W64) (x : Nat) (g : Fld) : (s.setSrw a w).frd x g = s.frd x g := rfl
@[simp] theorem State.setSrw_lv_of (s : State) (a : Nat) (w : W64) (x : Nat) : (s.setSrw a w).lv x = s.lv x := rfl
@[simp] theorem State.setSrw_pipe_of (s : State) (a : Nat) (w : W64) (x : Nat) : (s.setSrw a w).pipe x = s.pipe x := rfl
@[simp] theorem State.setSrw_queue_of (s : State) (a : Nat) (w : W64) (x : Nat) : (s.setSrw a w).queue x = s.queue x := rfl
@[simp] theorem State.setSrw_ch_of (s : State) (a : Nat) (w : W64) (x : Nat) : (s.setSrw a w).ch x = s.ch x := rfl
@[simp] theorem State.setSrw_eng_of (s : State) (a : Nat) (w : W64) (x : Nat) : (s.setSrw a w).eng x = s.eng x := rfl
@[simp] theorem State.setSrw_panel_of (s : State) (a : Nat) (w : W64) (x : Nat) : (s.setSrw a w).panel x = s.panel x := rfl
@[simp] theorem State.setSrw_stream_of (s : State) (a : Nat) (w : W64) (x : Nat) : (s.setSrw a w).stream x = s.stream x := rfl
@[simp] theorem State.setSrw_hap_of (s : State) (a : Nat) (w : W64) (x : Nat) : (s.setSrw a w).hap x = s.hap x := rfl
@[simp] theorem State.setSrw_cap_of (s : State) (a : Nat) (w : W64) (x : Nat) : (s.setSrw a w).cap x = s.cap x := rfl
@[simp] theorem State.setSrw_hart_of (s : State) (a : Nat) (w : W64) (x : Nat) : (s.setSrw a w).hart x = s.hart x := rfl
@[simp] theorem State.setSrw_op_of (s : State) (a : Nat) (w : W64) (x : Nat) : (s.setSrw a w).op x = s.op x := rfl
@[simp] theorem State.setSrw_rail_of (s : State) (a : Nat) (w : W64) (x : Nat) : (s.setSrw a w).rail x = s.rail x := rfl
@[simp] theorem State.setSrw_stallState_of (s : State) (a : Nat) (w : W64) (x : Nat) : (s.setSrw a w).stallState x = s.stallState x := rfl
@[simp] theorem State.setSrw_islandOn_of (s : State) (a : Nat) (w : W64) (x : Nat) : (s.setSrw a w).islandOn x = s.islandOn x := rfl
@[simp] theorem State.setSrw_dstate_of (s : State) (a : Nat) (w : W64) : (s.setSrw a w).dstate = s.dstate := rfl
@[simp] theorem State.setSrw_running_of (s : State) (a : Nat) (w : W64) : (s.setSrw a w).running = s.running := rfl
@[simp] theorem State.setSrw_sramB_of (s : State) (a : Nat) (w : W64) (x : Nat) : (s.setSrw a w).sramB x = s.sramB x := rfl
@[simp] theorem State.setSrw_dramB_of (s : State) (a : Nat) (w : W64) (x : Nat) : (s.setSrw a w).dramB x = s.dramB x := rfl
@[simp] theorem State.setSrw_envB_of (s : State) (a : Nat) (w : W64) (x : Nat) : (s.setSrw a w).envB x = s.envB x := rfl
@[simp] theorem State.setSrw_free_of (s : State) (a : Nat) (w : W64) : (s.setSrw a w).free = s.free := rfl

/-! setLv -/
@[simp] theorem State.setLv_regs (s : State) (a : Nat) (w : W64) : (s.setLv a w).regs = s.regs := rfl
@[simp] theorem State.setLv_force (s : State) (a : Nat) (w : W64) : (s.setLv a w).force = s.force := rfl
@[simp] theorem State.setLv_scan (s : State) (a : Nat) (w : W64) : (s.setLv a w).scan = s.scan := rfl
@[simp] theorem State.setLv_agreed (s : State) (a : Nat) (w : W64) : (s.setLv a w).agreed = s.agreed := rfl
@[simp] theorem State.setLv_heldLow (s : State) (a : Nat) (w : W64) : (s.setLv a w).heldLow = s.heldLow := rfl
@[simp] theorem State.setLv_kevtHeld (s : State) (a : Nat) (w : W64) : (s.setLv a w).kevtHeld = s.kevtHeld := rfl
@[simp] theorem State.setLv_kevq (s : State) (a : Nat) (w : W64) : (s.setLv a w).kevq = s.kevq := rfl
@[simp] theorem State.setLv_vrecRead (s : State) (a : Nat) (w : W64) : (s.setLv a w).vrecRead = s.vrecRead := rfl
@[simp] theorem State.setLv_frozen (s : State) (a : Nat) (w : W64) : (s.setLv a w).frozen = s.frozen := rfl
@[simp] theorem State.setLv_sram (s : State) (a : Nat) (w : W64) : (s.setLv a w).sram = s.sram := rfl
@[simp] theorem State.setLv_dram (s : State) (a : Nat) (w : W64) : (s.setLv a w).dram = s.dram := rfl
@[simp] theorem State.setLv_ecc (s : State) (a : Nat) (w : W64) : (s.setLv a w).ecc = s.ecc := rfl
@[simp] theorem State.setLv_tlb (s : State) (a : Nat) (w : W64) : (s.setLv a w).tlb = s.tlb := rfl
@[simp] theorem State.setLv_env (s : State) (a : Nat) (w : W64) : (s.setLv a w).env = s.env := rfl
@[simp] theorem State.setLv_tally (s : State) (a : Nat) (w : W64) : (s.setLv a w).tally = s.tally := rfl
@[simp] theorem State.setLv_pipes (s : State) (a : Nat) (w : W64) : (s.setLv a w).pipes = s.pipes := rfl
@[simp] theorem State.setLv_led (s : State) (a : Nat) (w : W64) : (s.setLv a w).led = s.led := rfl
@[simp] theorem State.setLv_queues (s : State) (a : Nat) (w : W64) : (s.setLv a w).queues = s.queues := rfl
@[simp] theorem State.setLv_admitted (s : State) (a : Nat) (w : W64) : (s.setLv a w).admitted = s.admitted := rfl
@[simp] theorem State.setLv_gpu (s : State) (a : Nat) (w : W64) : (s.setLv a w).gpu = s.gpu := rfl
@[simp] theorem State.setLv_dmCh (s : State) (a : Nat) (w : W64) : (s.setLv a w).dmCh = s.dmCh := rfl
@[simp] theorem State.setLv_dmEng (s : State) (a : Nat) (w : W64) : (s.setLv a w).dmEng = s.dmEng := rfl
@[simp] theorem State.setLv_squashed (s : State) (a : Nat) (w : W64) : (s.setLv a w).squashed = s.squashed := rfl
@[simp] theorem State.setLv_clearing (s : State) (a : Nat) (w : W64) : (s.setLv a w).clearing = s.clearing := rfl
@[simp] theorem State.setLv_boot (s : State) (a : Nat) (w : W64) : (s.setLv a w).boot = s.boot := rfl
@[simp] theorem State.setLv_harts (s : State) (a : Nat) (w : W64) : (s.setLv a w).harts = s.harts := rfl
@[simp] theorem State.setLv_keeperTrap (s : State) (a : Nat) (w : W64) : (s.setLv a w).keeperTrap = s.keeperTrap := rfl
@[simp] theorem State.setLv_power (s : State) (a : Nat) (w : W64) : (s.setLv a w).power = s.power := rfl
@[simp] theorem State.setLv_sm (s : State) (a : Nat) (w : W64) : (s.setLv a w).sm = s.sm := rfl
@[simp] theorem State.setLv_mem (s : State) (a : Nat) (w : W64) : (s.setLv a w).mem = s.mem := rfl
@[simp] theorem State.setLv_msr (s : State) (a : Nat) (w : W64) : (s.setLv a w).msr = s.msr := rfl
@[simp] theorem State.setLv_nvm (s : State) (a : Nat) (w : W64) : (s.setLv a w).nvm = s.nvm := rfl
@[simp] theorem State.setLv_panels (s : State) (a : Nat) (w : W64) : (s.setLv a w).panels = s.panels := rfl
@[simp] theorem State.setLv_lineRuns (s : State) (a : Nat) (w : W64) : (s.setLv a w).lineRuns = s.lineRuns := rfl
@[simp] theorem State.setLv_streams (s : State) (a : Nat) (w : W64) : (s.setLv a w).streams = s.streams := rfl
@[simp] theorem State.setLv_haps (s : State) (a : Nat) (w : W64) : (s.setLv a w).haps = s.haps := rfl
@[simp] theorem State.setLv_caps (s : State) (a : Nat) (w : W64) : (s.setLv a w).caps = s.caps := rfl
@[simp] theorem State.setLv_mix (s : State) (a : Nat) (w : W64) : (s.setLv a w).mix = s.mix := rfl
@[simp] theorem State.setLv_syncOut (s : State) (a : Nat) (w : W64) : (s.setLv a w).syncOut = s.syncOut := rfl
@[simp] theorem State.setLv_syncIn (s : State) (a : Nat) (w : W64) : (s.setLv a w).syncIn = s.syncIn := rfl
@[simp] theorem State.setLv_resp (s : State) (a : Nat) (w : W64) : (s.setLv a w).resp = s.resp := rfl
@[simp] theorem State.setLv_out (s : State) (a : Nat) (w : W64) : (s.setLv a w).out = s.out := rfl
@[simp] theorem State.setLv_fresh (s : State) (a : Nat) (w : W64) : (s.setLv a w).fresh = s.fresh := rfl
@[simp] theorem State.setLv_pending (s : State) (a : Nat) (w : W64) : (s.setLv a w).pending = s.pending := rfl
@[simp] theorem State.setLv_rw_of (s : State) (a : Nat) (w : W64) (x : Nat) : (s.setLv a w).rw x = s.rw x := rfl
@[simp] theorem State.setLv_rd_of (s : State) (a : Nat) (w : W64) (x : Nat) (g : Fld) : (s.setLv a w).rd x g = s.rd x g := rfl
@[simp] theorem State.setLv_on_of (s : State) (a : Nat) (w : W64) (x : Nat) (g : Fld) : (s.setLv a w).on x g = s.on x g := rfl
@[simp] theorem State.setLv_frw_of (s : State) (a : Nat) (w : W64) (x : Nat) : (s.setLv a w).frw x = s.frw x := rfl
@[simp] theorem State.setLv_frd_of (s : State) (a : Nat) (w : W64) (x : Nat) (g : Fld) : (s.setLv a w).frd x g = s.frd x g := rfl
@[simp] theorem State.setLv_srw_of (s : State) (a : Nat) (w : W64) (x : Nat) : (s.setLv a w).srw x = s.srw x := rfl
@[simp] theorem State.setLv_srd_of (s : State) (a : Nat) (w : W64) (x : Nat) (g : Fld) : (s.setLv a w).srd x g = s.srd x g := rfl
@[simp] theorem State.setLv_pipe_of (s : State) (a : Nat) (w : W64) (x : Nat) : (s.setLv a w).pipe x = s.pipe x := rfl
@[simp] theorem State.setLv_queue_of (s : State) (a : Nat) (w : W64) (x : Nat) : (s.setLv a w).queue x = s.queue x := rfl
@[simp] theorem State.setLv_ch_of (s : State) (a : Nat) (w : W64) (x : Nat) : (s.setLv a w).ch x = s.ch x := rfl
@[simp] theorem State.setLv_eng_of (s : State) (a : Nat) (w : W64) (x : Nat) : (s.setLv a w).eng x = s.eng x := rfl
@[simp] theorem State.setLv_panel_of (s : State) (a : Nat) (w : W64) (x : Nat) : (s.setLv a w).panel x = s.panel x := rfl
@[simp] theorem State.setLv_stream_of (s : State) (a : Nat) (w : W64) (x : Nat) : (s.setLv a w).stream x = s.stream x := rfl
@[simp] theorem State.setLv_hap_of (s : State) (a : Nat) (w : W64) (x : Nat) : (s.setLv a w).hap x = s.hap x := rfl
@[simp] theorem State.setLv_cap_of (s : State) (a : Nat) (w : W64) (x : Nat) : (s.setLv a w).cap x = s.cap x := rfl
@[simp] theorem State.setLv_hart_of (s : State) (a : Nat) (w : W64) (x : Nat) : (s.setLv a w).hart x = s.hart x := rfl
@[simp] theorem State.setLv_op_of (s : State) (a : Nat) (w : W64) (x : Nat) : (s.setLv a w).op x = s.op x := rfl
@[simp] theorem State.setLv_rail_of (s : State) (a : Nat) (w : W64) (x : Nat) : (s.setLv a w).rail x = s.rail x := rfl
@[simp] theorem State.setLv_stallState_of (s : State) (a : Nat) (w : W64) (x : Nat) : (s.setLv a w).stallState x = s.stallState x := rfl
@[simp] theorem State.setLv_islandOn_of (s : State) (a : Nat) (w : W64) (x : Nat) : (s.setLv a w).islandOn x = s.islandOn x := rfl
@[simp] theorem State.setLv_dstate_of (s : State) (a : Nat) (w : W64) : (s.setLv a w).dstate = s.dstate := rfl
@[simp] theorem State.setLv_running_of (s : State) (a : Nat) (w : W64) : (s.setLv a w).running = s.running := rfl
@[simp] theorem State.setLv_sramB_of (s : State) (a : Nat) (w : W64) (x : Nat) : (s.setLv a w).sramB x = s.sramB x := rfl
@[simp] theorem State.setLv_dramB_of (s : State) (a : Nat) (w : W64) (x : Nat) : (s.setLv a w).dramB x = s.dramB x := rfl
@[simp] theorem State.setLv_envB_of (s : State) (a : Nat) (w : W64) (x : Nat) : (s.setLv a w).envB x = s.envB x := rfl
@[simp] theorem State.setLv_free_of (s : State) (a : Nat) (w : W64) : (s.setLv a w).free = s.free := rfl

/-! wr -/
@[simp] theorem State.wr_force (s : State) (a : Nat) (f : Fld) (v : Nat) : (s.wr a f v).force = s.force := rfl
@[simp] theorem State.wr_scan (s : State) (a : Nat) (f : Fld) (v : Nat) : (s.wr a f v).scan = s.scan := rfl
@[simp] theorem State.wr_live (s : State) (a : Nat) (f : Fld) (v : Nat) : (s.wr a f v).live = s.live := rfl
@[simp] theorem State.wr_agreed (s : State) (a : Nat) (f : Fld) (v : Nat) : (s.wr a f v).agreed = s.agreed := rfl
@[simp] theorem State.wr_heldLow (s : State) (a : Nat) (f : Fld) (v : Nat) : (s.wr a f v).heldLow = s.heldLow := rfl
@[simp] theorem State.wr_kevtHeld (s : State) (a : Nat) (f : Fld) (v : Nat) : (s.wr a f v).kevtHeld = s.kevtHeld := rfl
@[simp] theorem State.wr_kevq (s : State) (a : Nat) (f : Fld) (v : Nat) : (s.wr a f v).kevq = s.kevq := rfl
@[simp] theorem State.wr_vrecRead (s : State) (a : Nat) (f : Fld) (v : Nat) : (s.wr a f v).vrecRead = s.vrecRead := rfl
@[simp] theorem State.wr_frozen (s : State) (a : Nat) (f : Fld) (v : Nat) : (s.wr a f v).frozen = s.frozen := rfl
@[simp] theorem State.wr_sram (s : State) (a : Nat) (f : Fld) (v : Nat) : (s.wr a f v).sram = s.sram := rfl
@[simp] theorem State.wr_dram (s : State) (a : Nat) (f : Fld) (v : Nat) : (s.wr a f v).dram = s.dram := rfl
@[simp] theorem State.wr_ecc (s : State) (a : Nat) (f : Fld) (v : Nat) : (s.wr a f v).ecc = s.ecc := rfl
@[simp] theorem State.wr_tlb (s : State) (a : Nat) (f : Fld) (v : Nat) : (s.wr a f v).tlb = s.tlb := rfl
@[simp] theorem State.wr_env (s : State) (a : Nat) (f : Fld) (v : Nat) : (s.wr a f v).env = s.env := rfl
@[simp] theorem State.wr_tally (s : State) (a : Nat) (f : Fld) (v : Nat) : (s.wr a f v).tally = s.tally := rfl
@[simp] theorem State.wr_pipes (s : State) (a : Nat) (f : Fld) (v : Nat) : (s.wr a f v).pipes = s.pipes := rfl
@[simp] theorem State.wr_led (s : State) (a : Nat) (f : Fld) (v : Nat) : (s.wr a f v).led = s.led := rfl
@[simp] theorem State.wr_queues (s : State) (a : Nat) (f : Fld) (v : Nat) : (s.wr a f v).queues = s.queues := rfl
@[simp] theorem State.wr_admitted (s : State) (a : Nat) (f : Fld) (v : Nat) : (s.wr a f v).admitted = s.admitted := rfl
@[simp] theorem State.wr_gpu (s : State) (a : Nat) (f : Fld) (v : Nat) : (s.wr a f v).gpu = s.gpu := rfl
@[simp] theorem State.wr_dmCh (s : State) (a : Nat) (f : Fld) (v : Nat) : (s.wr a f v).dmCh = s.dmCh := rfl
@[simp] theorem State.wr_dmEng (s : State) (a : Nat) (f : Fld) (v : Nat) : (s.wr a f v).dmEng = s.dmEng := rfl
@[simp] theorem State.wr_squashed (s : State) (a : Nat) (f : Fld) (v : Nat) : (s.wr a f v).squashed = s.squashed := rfl
@[simp] theorem State.wr_clearing (s : State) (a : Nat) (f : Fld) (v : Nat) : (s.wr a f v).clearing = s.clearing := rfl
@[simp] theorem State.wr_boot (s : State) (a : Nat) (f : Fld) (v : Nat) : (s.wr a f v).boot = s.boot := rfl
@[simp] theorem State.wr_harts (s : State) (a : Nat) (f : Fld) (v : Nat) : (s.wr a f v).harts = s.harts := rfl
@[simp] theorem State.wr_keeperTrap (s : State) (a : Nat) (f : Fld) (v : Nat) : (s.wr a f v).keeperTrap = s.keeperTrap := rfl
@[simp] theorem State.wr_power (s : State) (a : Nat) (f : Fld) (v : Nat) : (s.wr a f v).power = s.power := rfl
@[simp] theorem State.wr_sm (s : State) (a : Nat) (f : Fld) (v : Nat) : (s.wr a f v).sm = s.sm := rfl
@[simp] theorem State.wr_mem (s : State) (a : Nat) (f : Fld) (v : Nat) : (s.wr a f v).mem = s.mem := rfl
@[simp] theorem State.wr_msr (s : State) (a : Nat) (f : Fld) (v : Nat) : (s.wr a f v).msr = s.msr := rfl
@[simp] theorem State.wr_nvm (s : State) (a : Nat) (f : Fld) (v : Nat) : (s.wr a f v).nvm = s.nvm := rfl
@[simp] theorem State.wr_panels (s : State) (a : Nat) (f : Fld) (v : Nat) : (s.wr a f v).panels = s.panels := rfl
@[simp] theorem State.wr_lineRuns (s : State) (a : Nat) (f : Fld) (v : Nat) : (s.wr a f v).lineRuns = s.lineRuns := rfl
@[simp] theorem State.wr_streams (s : State) (a : Nat) (f : Fld) (v : Nat) : (s.wr a f v).streams = s.streams := rfl
@[simp] theorem State.wr_haps (s : State) (a : Nat) (f : Fld) (v : Nat) : (s.wr a f v).haps = s.haps := rfl
@[simp] theorem State.wr_caps (s : State) (a : Nat) (f : Fld) (v : Nat) : (s.wr a f v).caps = s.caps := rfl
@[simp] theorem State.wr_mix (s : State) (a : Nat) (f : Fld) (v : Nat) : (s.wr a f v).mix = s.mix := rfl
@[simp] theorem State.wr_syncOut (s : State) (a : Nat) (f : Fld) (v : Nat) : (s.wr a f v).syncOut = s.syncOut := rfl
@[simp] theorem State.wr_syncIn (s : State) (a : Nat) (f : Fld) (v : Nat) : (s.wr a f v).syncIn = s.syncIn := rfl
@[simp] theorem State.wr_resp (s : State) (a : Nat) (f : Fld) (v : Nat) : (s.wr a f v).resp = s.resp := rfl
@[simp] theorem State.wr_out (s : State) (a : Nat) (f : Fld) (v : Nat) : (s.wr a f v).out = s.out := rfl
@[simp] theorem State.wr_fresh (s : State) (a : Nat) (f : Fld) (v : Nat) : (s.wr a f v).fresh = s.fresh := rfl
@[simp] theorem State.wr_pending (s : State) (a : Nat) (f : Fld) (v : Nat) : (s.wr a f v).pending = s.pending := rfl
@[simp] theorem State.wr_frw_of (s : State) (a : Nat) (f : Fld) (v : Nat) (x : Nat) : (s.wr a f v).frw x = s.frw x := rfl
@[simp] theorem State.wr_frd_of (s : State) (a : Nat) (f : Fld) (v : Nat) (x : Nat) (g : Fld) : (s.wr a f v).frd x g = s.frd x g := rfl
@[simp] theorem State.wr_srw_of (s : State) (a : Nat) (f : Fld) (v : Nat) (x : Nat) : (s.wr a f v).srw x = s.srw x := rfl
@[simp] theorem State.wr_srd_of (s : State) (a : Nat) (f : Fld) (v : Nat) (x : Nat) (g : Fld) : (s.wr a f v).srd x g = s.srd x g := rfl
@[simp] theorem State.wr_lv_of (s : State) (a : Nat) (f : Fld) (v : Nat) (x : Nat) : (s.wr a f v).lv x = s.lv x := rfl
@[simp] theorem State.wr_pipe_of (s : State) (a : Nat) (f : Fld) (v : Nat) (x : Nat) : (s.wr a f v).pipe x = s.pipe x := rfl
@[simp] theorem State.wr_queue_of (s : State) (a : Nat) (f : Fld) (v : Nat) (x : Nat) : (s.wr a f v).queue x = s.queue x := rfl
@[simp] theorem State.wr_ch_of (s : State) (a : Nat) (f : Fld) (v : Nat) (x : Nat) : (s.wr a f v).ch x = s.ch x := rfl
@[simp] theorem State.wr_eng_of (s : State) (a : Nat) (f : Fld) (v : Nat) (x : Nat) : (s.wr a f v).eng x = s.eng x := rfl
@[simp] theorem State.wr_panel_of (s : State) (a : Nat) (f : Fld) (v : Nat) (x : Nat) : (s.wr a f v).panel x = s.panel x := rfl
@[simp] theorem State.wr_stream_of (s : State) (a : Nat) (f : Fld) (v : Nat) (x : Nat) : (s.wr a f v).stream x = s.stream x := rfl
@[simp] theorem State.wr_hap_of (s : State) (a : Nat) (f : Fld) (v : Nat) (x : Nat) : (s.wr a f v).hap x = s.hap x := rfl
@[simp] theorem State.wr_cap_of (s : State) (a : Nat) (f : Fld) (v : Nat) (x : Nat) : (s.wr a f v).cap x = s.cap x := rfl
@[simp] theorem State.wr_hart_of (s : State) (a : Nat) (f : Fld) (v : Nat) (x : Nat) : (s.wr a f v).hart x = s.hart x := rfl
@[simp] theorem State.wr_op_of (s : State) (a : Nat) (f : Fld) (v : Nat) (x : Nat) : (s.wr a f v).op x = s.op x := rfl
@[simp] theorem State.wr_rail_of (s : State) (a : Nat) (f : Fld) (v : Nat) (x : Nat) : (s.wr a f v).rail x = s.rail x := rfl
@[simp] theorem State.wr_sramB_of (s : State) (a : Nat) (f : Fld) (v : Nat) (x : Nat) : (s.wr a f v).sramB x = s.sramB x := rfl
@[simp] theorem State.wr_dramB_of (s : State) (a : Nat) (f : Fld) (v : Nat) (x : Nat) : (s.wr a f v).dramB x = s.dramB x := rfl
@[simp] theorem State.wr_envB_of (s : State) (a : Nat) (f : Fld) (v : Nat) (x : Nat) : (s.wr a f v).envB x = s.envB x := rfl
@[simp] theorem State.wr_free_of (s : State) (a : Nat) (f : Fld) (v : Nat) : (s.wr a f v).free = s.free := rfl

/-! fwr -/
@[simp] theorem State.fwr_regs (s : State) (a : Nat) (f : Fld) (v : Nat) : (s.fwr a f v).regs = s.regs := rfl
@[simp] theorem State.fwr_scan (s : State) (a : Nat) (f : Fld) (v : Nat) : (s.fwr a f v).scan = s.scan := rfl
@[simp] theorem State.fwr_live (s : State) (a : Nat) (f : Fld) (v : Nat) : (s.fwr a f v).live = s.live := rfl
@[simp] theorem State.fwr_agreed (s : State) (a : Nat) (f : Fld) (v : Nat) : (s.fwr a f v).agreed = s.agreed := rfl
@[simp] theorem State.fwr_heldLow (s : State) (a : Nat) (f : Fld) (v : Nat) : (s.fwr a f v).heldLow = s.heldLow := rfl
@[simp] theorem State.fwr_kevtHeld (s : State) (a : Nat) (f : Fld) (v : Nat) : (s.fwr a f v).kevtHeld = s.kevtHeld := rfl
@[simp] theorem State.fwr_kevq (s : State) (a : Nat) (f : Fld) (v : Nat) : (s.fwr a f v).kevq = s.kevq := rfl
@[simp] theorem State.fwr_vrecRead (s : State) (a : Nat) (f : Fld) (v : Nat) : (s.fwr a f v).vrecRead = s.vrecRead := rfl
@[simp] theorem State.fwr_frozen (s : State) (a : Nat) (f : Fld) (v : Nat) : (s.fwr a f v).frozen = s.frozen := rfl
@[simp] theorem State.fwr_sram (s : State) (a : Nat) (f : Fld) (v : Nat) : (s.fwr a f v).sram = s.sram := rfl
@[simp] theorem State.fwr_dram (s : State) (a : Nat) (f : Fld) (v : Nat) : (s.fwr a f v).dram = s.dram := rfl
@[simp] theorem State.fwr_ecc (s : State) (a : Nat) (f : Fld) (v : Nat) : (s.fwr a f v).ecc = s.ecc := rfl
@[simp] theorem State.fwr_tlb (s : State) (a : Nat) (f : Fld) (v : Nat) : (s.fwr a f v).tlb = s.tlb := rfl
@[simp] theorem State.fwr_env (s : State) (a : Nat) (f : Fld) (v : Nat) : (s.fwr a f v).env = s.env := rfl
@[simp] theorem State.fwr_tally (s : State) (a : Nat) (f : Fld) (v : Nat) : (s.fwr a f v).tally = s.tally := rfl
@[simp] theorem State.fwr_pipes (s : State) (a : Nat) (f : Fld) (v : Nat) : (s.fwr a f v).pipes = s.pipes := rfl
@[simp] theorem State.fwr_led (s : State) (a : Nat) (f : Fld) (v : Nat) : (s.fwr a f v).led = s.led := rfl
@[simp] theorem State.fwr_queues (s : State) (a : Nat) (f : Fld) (v : Nat) : (s.fwr a f v).queues = s.queues := rfl
@[simp] theorem State.fwr_admitted (s : State) (a : Nat) (f : Fld) (v : Nat) : (s.fwr a f v).admitted = s.admitted := rfl
@[simp] theorem State.fwr_gpu (s : State) (a : Nat) (f : Fld) (v : Nat) : (s.fwr a f v).gpu = s.gpu := rfl
@[simp] theorem State.fwr_dmCh (s : State) (a : Nat) (f : Fld) (v : Nat) : (s.fwr a f v).dmCh = s.dmCh := rfl
@[simp] theorem State.fwr_dmEng (s : State) (a : Nat) (f : Fld) (v : Nat) : (s.fwr a f v).dmEng = s.dmEng := rfl
@[simp] theorem State.fwr_squashed (s : State) (a : Nat) (f : Fld) (v : Nat) : (s.fwr a f v).squashed = s.squashed := rfl
@[simp] theorem State.fwr_clearing (s : State) (a : Nat) (f : Fld) (v : Nat) : (s.fwr a f v).clearing = s.clearing := rfl
@[simp] theorem State.fwr_boot (s : State) (a : Nat) (f : Fld) (v : Nat) : (s.fwr a f v).boot = s.boot := rfl
@[simp] theorem State.fwr_harts (s : State) (a : Nat) (f : Fld) (v : Nat) : (s.fwr a f v).harts = s.harts := rfl
@[simp] theorem State.fwr_keeperTrap (s : State) (a : Nat) (f : Fld) (v : Nat) : (s.fwr a f v).keeperTrap = s.keeperTrap := rfl
@[simp] theorem State.fwr_power (s : State) (a : Nat) (f : Fld) (v : Nat) : (s.fwr a f v).power = s.power := rfl
@[simp] theorem State.fwr_sm (s : State) (a : Nat) (f : Fld) (v : Nat) : (s.fwr a f v).sm = s.sm := rfl
@[simp] theorem State.fwr_mem (s : State) (a : Nat) (f : Fld) (v : Nat) : (s.fwr a f v).mem = s.mem := rfl
@[simp] theorem State.fwr_msr (s : State) (a : Nat) (f : Fld) (v : Nat) : (s.fwr a f v).msr = s.msr := rfl
@[simp] theorem State.fwr_nvm (s : State) (a : Nat) (f : Fld) (v : Nat) : (s.fwr a f v).nvm = s.nvm := rfl
@[simp] theorem State.fwr_panels (s : State) (a : Nat) (f : Fld) (v : Nat) : (s.fwr a f v).panels = s.panels := rfl
@[simp] theorem State.fwr_lineRuns (s : State) (a : Nat) (f : Fld) (v : Nat) : (s.fwr a f v).lineRuns = s.lineRuns := rfl
@[simp] theorem State.fwr_streams (s : State) (a : Nat) (f : Fld) (v : Nat) : (s.fwr a f v).streams = s.streams := rfl
@[simp] theorem State.fwr_haps (s : State) (a : Nat) (f : Fld) (v : Nat) : (s.fwr a f v).haps = s.haps := rfl
@[simp] theorem State.fwr_caps (s : State) (a : Nat) (f : Fld) (v : Nat) : (s.fwr a f v).caps = s.caps := rfl
@[simp] theorem State.fwr_mix (s : State) (a : Nat) (f : Fld) (v : Nat) : (s.fwr a f v).mix = s.mix := rfl
@[simp] theorem State.fwr_syncOut (s : State) (a : Nat) (f : Fld) (v : Nat) : (s.fwr a f v).syncOut = s.syncOut := rfl
@[simp] theorem State.fwr_syncIn (s : State) (a : Nat) (f : Fld) (v : Nat) : (s.fwr a f v).syncIn = s.syncIn := rfl
@[simp] theorem State.fwr_resp (s : State) (a : Nat) (f : Fld) (v : Nat) : (s.fwr a f v).resp = s.resp := rfl
@[simp] theorem State.fwr_out (s : State) (a : Nat) (f : Fld) (v : Nat) : (s.fwr a f v).out = s.out := rfl
@[simp] theorem State.fwr_fresh (s : State) (a : Nat) (f : Fld) (v : Nat) : (s.fwr a f v).fresh = s.fresh := rfl
@[simp] theorem State.fwr_pending (s : State) (a : Nat) (f : Fld) (v : Nat) : (s.fwr a f v).pending = s.pending := rfl
@[simp] theorem State.fwr_rw_of (s : State) (a : Nat) (f : Fld) (v : Nat) (x : Nat) : (s.fwr a f v).rw x = s.rw x := rfl
@[simp] theorem State.fwr_rd_of (s : State) (a : Nat) (f : Fld) (v : Nat) (x : Nat) (g : Fld) : (s.fwr a f v).rd x g = s.rd x g := rfl
@[simp] theorem State.fwr_on_of (s : State) (a : Nat) (f : Fld) (v : Nat) (x : Nat) (g : Fld) : (s.fwr a f v).on x g = s.on x g := rfl
@[simp] theorem State.fwr_srw_of (s : State) (a : Nat) (f : Fld) (v : Nat) (x : Nat) : (s.fwr a f v).srw x = s.srw x := rfl
@[simp] theorem State.fwr_srd_of (s : State) (a : Nat) (f : Fld) (v : Nat) (x : Nat) (g : Fld) : (s.fwr a f v).srd x g = s.srd x g := rfl
@[simp] theorem State.fwr_lv_of (s : State) (a : Nat) (f : Fld) (v : Nat) (x : Nat) : (s.fwr a f v).lv x = s.lv x := rfl
@[simp] theorem State.fwr_pipe_of (s : State) (a : Nat) (f : Fld) (v : Nat) (x : Nat) : (s.fwr a f v).pipe x = s.pipe x := rfl
@[simp] theorem State.fwr_queue_of (s : State) (a : Nat) (f : Fld) (v : Nat) (x : Nat) : (s.fwr a f v).queue x = s.queue x := rfl
@[simp] theorem State.fwr_ch_of (s : State) (a : Nat) (f : Fld) (v : Nat) (x : Nat) : (s.fwr a f v).ch x = s.ch x := rfl
@[simp] theorem State.fwr_eng_of (s : State) (a : Nat) (f : Fld) (v : Nat) (x : Nat) : (s.fwr a f v).eng x = s.eng x := rfl
@[simp] theorem State.fwr_panel_of (s : State) (a : Nat) (f : Fld) (v : Nat) (x : Nat) : (s.fwr a f v).panel x = s.panel x := rfl
@[simp] theorem State.fwr_stream_of (s : State) (a : Nat) (f : Fld) (v : Nat) (x : Nat) : (s.fwr a f v).stream x = s.stream x := rfl
@[simp] theorem State.fwr_hap_of (s : State) (a : Nat) (f : Fld) (v : Nat) (x : Nat) : (s.fwr a f v).hap x = s.hap x := rfl
@[simp] theorem State.fwr_cap_of (s : State) (a : Nat) (f : Fld) (v : Nat) (x : Nat) : (s.fwr a f v).cap x = s.cap x := rfl
@[simp] theorem State.fwr_hart_of (s : State) (a : Nat) (f : Fld) (v : Nat) (x : Nat) : (s.fwr a f v).hart x = s.hart x := rfl
@[simp] theorem State.fwr_op_of (s : State) (a : Nat) (f : Fld) (v : Nat) (x : Nat) : (s.fwr a f v).op x = s.op x := rfl
@[simp] theorem State.fwr_rail_of (s : State) (a : Nat) (f : Fld) (v : Nat) (x : Nat) : (s.fwr a f v).rail x = s.rail x := rfl
@[simp] theorem State.fwr_stallState_of (s : State) (a : Nat) (f : Fld) (v : Nat) (x : Nat) : (s.fwr a f v).stallState x = s.stallState x := rfl
@[simp] theorem State.fwr_islandOn_of (s : State) (a : Nat) (f : Fld) (v : Nat) (x : Nat) : (s.fwr a f v).islandOn x = s.islandOn x := rfl
@[simp] theorem State.fwr_dstate_of (s : State) (a : Nat) (f : Fld) (v : Nat) : (s.fwr a f v).dstate = s.dstate := rfl
@[simp] theorem State.fwr_running_of (s : State) (a : Nat) (f : Fld) (v : Nat) : (s.fwr a f v).running = s.running := rfl
@[simp] theorem State.fwr_sramB_of (s : State) (a : Nat) (f : Fld) (v : Nat) (x : Nat) : (s.fwr a f v).sramB x = s.sramB x := rfl
@[simp] theorem State.fwr_dramB_of (s : State) (a : Nat) (f : Fld) (v : Nat) (x : Nat) : (s.fwr a f v).dramB x = s.dramB x := rfl
@[simp] theorem State.fwr_envB_of (s : State) (a : Nat) (f : Fld) (v : Nat) (x : Nat) : (s.fwr a f v).envB x = s.envB x := rfl
@[simp] theorem State.fwr_free_of (s : State) (a : Nat) (f : Fld) (v : Nat) : (s.fwr a f v).free = s.free := rfl

/-! latch -/
@[simp] theorem State.latch_regs (s : State) (a : Nat) : (s.latch a).regs = s.regs := rfl
@[simp] theorem State.latch_scan (s : State) (a : Nat) : (s.latch a).scan = s.scan := rfl
@[simp] theorem State.latch_live (s : State) (a : Nat) : (s.latch a).live = s.live := rfl
@[simp] theorem State.latch_agreed (s : State) (a : Nat) : (s.latch a).agreed = s.agreed := rfl
@[simp] theorem State.latch_heldLow (s : State) (a : Nat) : (s.latch a).heldLow = s.heldLow := rfl
@[simp] theorem State.latch_kevtHeld (s : State) (a : Nat) : (s.latch a).kevtHeld = s.kevtHeld := rfl
@[simp] theorem State.latch_kevq (s : State) (a : Nat) : (s.latch a).kevq = s.kevq := rfl
@[simp] theorem State.latch_vrecRead (s : State) (a : Nat) : (s.latch a).vrecRead = s.vrecRead := rfl
@[simp] theorem State.latch_frozen (s : State) (a : Nat) : (s.latch a).frozen = s.frozen := rfl
@[simp] theorem State.latch_sram (s : State) (a : Nat) : (s.latch a).sram = s.sram := rfl
@[simp] theorem State.latch_dram (s : State) (a : Nat) : (s.latch a).dram = s.dram := rfl
@[simp] theorem State.latch_ecc (s : State) (a : Nat) : (s.latch a).ecc = s.ecc := rfl
@[simp] theorem State.latch_tlb (s : State) (a : Nat) : (s.latch a).tlb = s.tlb := rfl
@[simp] theorem State.latch_env (s : State) (a : Nat) : (s.latch a).env = s.env := rfl
@[simp] theorem State.latch_tally (s : State) (a : Nat) : (s.latch a).tally = s.tally := rfl
@[simp] theorem State.latch_pipes (s : State) (a : Nat) : (s.latch a).pipes = s.pipes := rfl
@[simp] theorem State.latch_led (s : State) (a : Nat) : (s.latch a).led = s.led := rfl
@[simp] theorem State.latch_queues (s : State) (a : Nat) : (s.latch a).queues = s.queues := rfl
@[simp] theorem State.latch_admitted (s : State) (a : Nat) : (s.latch a).admitted = s.admitted := rfl
@[simp] theorem State.latch_gpu (s : State) (a : Nat) : (s.latch a).gpu = s.gpu := rfl
@[simp] theorem State.latch_dmCh (s : State) (a : Nat) : (s.latch a).dmCh = s.dmCh := rfl
@[simp] theorem State.latch_dmEng (s : State) (a : Nat) : (s.latch a).dmEng = s.dmEng := rfl
@[simp] theorem State.latch_squashed (s : State) (a : Nat) : (s.latch a).squashed = s.squashed := rfl
@[simp] theorem State.latch_clearing (s : State) (a : Nat) : (s.latch a).clearing = s.clearing := rfl
@[simp] theorem State.latch_boot (s : State) (a : Nat) : (s.latch a).boot = s.boot := rfl
@[simp] theorem State.latch_harts (s : State) (a : Nat) : (s.latch a).harts = s.harts := rfl
@[simp] theorem State.latch_keeperTrap (s : State) (a : Nat) : (s.latch a).keeperTrap = s.keeperTrap := rfl
@[simp] theorem State.latch_power (s : State) (a : Nat) : (s.latch a).power = s.power := rfl
@[simp] theorem State.latch_sm (s : State) (a : Nat) : (s.latch a).sm = s.sm := rfl
@[simp] theorem State.latch_mem (s : State) (a : Nat) : (s.latch a).mem = s.mem := rfl
@[simp] theorem State.latch_msr (s : State) (a : Nat) : (s.latch a).msr = s.msr := rfl
@[simp] theorem State.latch_nvm (s : State) (a : Nat) : (s.latch a).nvm = s.nvm := rfl
@[simp] theorem State.latch_panels (s : State) (a : Nat) : (s.latch a).panels = s.panels := rfl
@[simp] theorem State.latch_lineRuns (s : State) (a : Nat) : (s.latch a).lineRuns = s.lineRuns := rfl
@[simp] theorem State.latch_streams (s : State) (a : Nat) : (s.latch a).streams = s.streams := rfl
@[simp] theorem State.latch_haps (s : State) (a : Nat) : (s.latch a).haps = s.haps := rfl
@[simp] theorem State.latch_caps (s : State) (a : Nat) : (s.latch a).caps = s.caps := rfl
@[simp] theorem State.latch_mix (s : State) (a : Nat) : (s.latch a).mix = s.mix := rfl
@[simp] theorem State.latch_syncOut (s : State) (a : Nat) : (s.latch a).syncOut = s.syncOut := rfl
@[simp] theorem State.latch_syncIn (s : State) (a : Nat) : (s.latch a).syncIn = s.syncIn := rfl
@[simp] theorem State.latch_resp (s : State) (a : Nat) : (s.latch a).resp = s.resp := rfl
@[simp] theorem State.latch_out (s : State) (a : Nat) : (s.latch a).out = s.out := rfl
@[simp] theorem State.latch_fresh (s : State) (a : Nat) : (s.latch a).fresh = s.fresh := rfl
@[simp] theorem State.latch_pending (s : State) (a : Nat) : (s.latch a).pending = s.pending := rfl
@[simp] theorem State.latch_rw_of (s : State) (a : Nat) (x : Nat) : (s.latch a).rw x = s.rw x := rfl
@[simp] theorem State.latch_rd_of (s : State) (a : Nat) (x : Nat) (g : Fld) : (s.latch a).rd x g = s.rd x g := rfl
@[simp] theorem State.latch_on_of (s : State) (a : Nat) (x : Nat) (g : Fld) : (s.latch a).on x g = s.on x g := rfl
@[simp] theorem State.latch_srw_of (s : State) (a : Nat) (x : Nat) : (s.latch a).srw x = s.srw x := rfl
@[simp] theorem State.latch_srd_of (s : State) (a : Nat) (x : Nat) (g : Fld) : (s.latch a).srd x g = s.srd x g := rfl
@[simp] theorem State.latch_lv_of (s : State) (a : Nat) (x : Nat) : (s.latch a).lv x = s.lv x := rfl
@[simp] theorem State.latch_pipe_of (s : State) (a : Nat) (x : Nat) : (s.latch a).pipe x = s.pipe x := rfl
@[simp] theorem State.latch_queue_of (s : State) (a : Nat) (x : Nat) : (s.latch a).queue x = s.queue x := rfl
@[simp] theorem State.latch_ch_of (s : State) (a : Nat) (x : Nat) : (s.latch a).ch x = s.ch x := rfl
@[simp] theorem State.latch_eng_of (s : State) (a : Nat) (x : Nat) : (s.latch a).eng x = s.eng x := rfl
@[simp] theorem State.latch_panel_of (s : State) (a : Nat) (x : Nat) : (s.latch a).panel x = s.panel x := rfl
@[simp] theorem State.latch_stream_of (s : State) (a : Nat) (x : Nat) : (s.latch a).stream x = s.stream x := rfl
@[simp] theorem State.latch_hap_of (s : State) (a : Nat) (x : Nat) : (s.latch a).hap x = s.hap x := rfl
@[simp] theorem State.latch_cap_of (s : State) (a : Nat) (x : Nat) : (s.latch a).cap x = s.cap x := rfl
@[simp] theorem State.latch_hart_of (s : State) (a : Nat) (x : Nat) : (s.latch a).hart x = s.hart x := rfl
@[simp] theorem State.latch_op_of (s : State) (a : Nat) (x : Nat) : (s.latch a).op x = s.op x := rfl
@[simp] theorem State.latch_rail_of (s : State) (a : Nat) (x : Nat) : (s.latch a).rail x = s.rail x := rfl
@[simp] theorem State.latch_stallState_of (s : State) (a : Nat) (x : Nat) : (s.latch a).stallState x = s.stallState x := rfl
@[simp] theorem State.latch_islandOn_of (s : State) (a : Nat) (x : Nat) : (s.latch a).islandOn x = s.islandOn x := rfl
@[simp] theorem State.latch_dstate_of (s : State) (a : Nat) : (s.latch a).dstate = s.dstate := rfl
@[simp] theorem State.latch_running_of (s : State) (a : Nat) : (s.latch a).running = s.running := rfl
@[simp] theorem State.latch_sramB_of (s : State) (a : Nat) (x : Nat) : (s.latch a).sramB x = s.sramB x := rfl
@[simp] theorem State.latch_dramB_of (s : State) (a : Nat) (x : Nat) : (s.latch a).dramB x = s.dramB x := rfl
@[simp] theorem State.latch_envB_of (s : State) (a : Nat) (x : Nat) : (s.latch a).envB x = s.envB x := rfl
@[simp] theorem State.latch_free_of (s : State) (a : Nat) : (s.latch a).free = s.free := rfl

/-! emit -/
@[simp] theorem State.emit_regs (s : State) (o : Out) : (s.emit o).regs = s.regs := rfl
@[simp] theorem State.emit_force (s : State) (o : Out) : (s.emit o).force = s.force := rfl
@[simp] theorem State.emit_scan (s : State) (o : Out) : (s.emit o).scan = s.scan := rfl
@[simp] theorem State.emit_live (s : State) (o : Out) : (s.emit o).live = s.live := rfl
@[simp] theorem State.emit_agreed (s : State) (o : Out) : (s.emit o).agreed = s.agreed := rfl
@[simp] theorem State.emit_heldLow (s : State) (o : Out) : (s.emit o).heldLow = s.heldLow := rfl
@[simp] theorem State.emit_kevtHeld (s : State) (o : Out) : (s.emit o).kevtHeld = s.kevtHeld := rfl
@[simp] theorem State.emit_kevq (s : State) (o : Out) : (s.emit o).kevq = s.kevq := rfl
@[simp] theorem State.emit_vrecRead (s : State) (o : Out) : (s.emit o).vrecRead = s.vrecRead := rfl
@[simp] theorem State.emit_frozen (s : State) (o : Out) : (s.emit o).frozen = s.frozen := rfl
@[simp] theorem State.emit_sram (s : State) (o : Out) : (s.emit o).sram = s.sram := rfl
@[simp] theorem State.emit_dram (s : State) (o : Out) : (s.emit o).dram = s.dram := rfl
@[simp] theorem State.emit_ecc (s : State) (o : Out) : (s.emit o).ecc = s.ecc := rfl
@[simp] theorem State.emit_tlb (s : State) (o : Out) : (s.emit o).tlb = s.tlb := rfl
@[simp] theorem State.emit_env (s : State) (o : Out) : (s.emit o).env = s.env := rfl
@[simp] theorem State.emit_tally (s : State) (o : Out) : (s.emit o).tally = s.tally := rfl
@[simp] theorem State.emit_pipes (s : State) (o : Out) : (s.emit o).pipes = s.pipes := rfl
@[simp] theorem State.emit_led (s : State) (o : Out) : (s.emit o).led = s.led := rfl
@[simp] theorem State.emit_queues (s : State) (o : Out) : (s.emit o).queues = s.queues := rfl
@[simp] theorem State.emit_admitted (s : State) (o : Out) : (s.emit o).admitted = s.admitted := rfl
@[simp] theorem State.emit_gpu (s : State) (o : Out) : (s.emit o).gpu = s.gpu := rfl
@[simp] theorem State.emit_dmCh (s : State) (o : Out) : (s.emit o).dmCh = s.dmCh := rfl
@[simp] theorem State.emit_dmEng (s : State) (o : Out) : (s.emit o).dmEng = s.dmEng := rfl
@[simp] theorem State.emit_squashed (s : State) (o : Out) : (s.emit o).squashed = s.squashed := rfl
@[simp] theorem State.emit_clearing (s : State) (o : Out) : (s.emit o).clearing = s.clearing := rfl
@[simp] theorem State.emit_boot (s : State) (o : Out) : (s.emit o).boot = s.boot := rfl
@[simp] theorem State.emit_harts (s : State) (o : Out) : (s.emit o).harts = s.harts := rfl
@[simp] theorem State.emit_keeperTrap (s : State) (o : Out) : (s.emit o).keeperTrap = s.keeperTrap := rfl
@[simp] theorem State.emit_power (s : State) (o : Out) : (s.emit o).power = s.power := rfl
@[simp] theorem State.emit_sm (s : State) (o : Out) : (s.emit o).sm = s.sm := rfl
@[simp] theorem State.emit_mem (s : State) (o : Out) : (s.emit o).mem = s.mem := rfl
@[simp] theorem State.emit_msr (s : State) (o : Out) : (s.emit o).msr = s.msr := rfl
@[simp] theorem State.emit_nvm (s : State) (o : Out) : (s.emit o).nvm = s.nvm := rfl
@[simp] theorem State.emit_panels (s : State) (o : Out) : (s.emit o).panels = s.panels := rfl
@[simp] theorem State.emit_lineRuns (s : State) (o : Out) : (s.emit o).lineRuns = s.lineRuns := rfl
@[simp] theorem State.emit_streams (s : State) (o : Out) : (s.emit o).streams = s.streams := rfl
@[simp] theorem State.emit_haps (s : State) (o : Out) : (s.emit o).haps = s.haps := rfl
@[simp] theorem State.emit_caps (s : State) (o : Out) : (s.emit o).caps = s.caps := rfl
@[simp] theorem State.emit_mix (s : State) (o : Out) : (s.emit o).mix = s.mix := rfl
@[simp] theorem State.emit_syncOut (s : State) (o : Out) : (s.emit o).syncOut = s.syncOut := rfl
@[simp] theorem State.emit_syncIn (s : State) (o : Out) : (s.emit o).syncIn = s.syncIn := rfl
@[simp] theorem State.emit_resp (s : State) (o : Out) : (s.emit o).resp = s.resp := rfl
@[simp] theorem State.emit_fresh (s : State) (o : Out) : (s.emit o).fresh = s.fresh := rfl
@[simp] theorem State.emit_pending (s : State) (o : Out) : (s.emit o).pending = s.pending := rfl
@[simp] theorem State.emit_rw_of (s : State) (o : Out) (x : Nat) : (s.emit o).rw x = s.rw x := rfl
@[simp] theorem State.emit_rd_of (s : State) (o : Out) (x : Nat) (g : Fld) : (s.emit o).rd x g = s.rd x g := rfl
@[simp] theorem State.emit_on_of (s : State) (o : Out) (x : Nat) (g : Fld) : (s.emit o).on x g = s.on x g := rfl
@[simp] theorem State.emit_frw_of (s : State) (o : Out) (x : Nat) : (s.emit o).frw x = s.frw x := rfl
@[simp] theorem State.emit_frd_of (s : State) (o : Out) (x : Nat) (g : Fld) : (s.emit o).frd x g = s.frd x g := rfl
@[simp] theorem State.emit_srw_of (s : State) (o : Out) (x : Nat) : (s.emit o).srw x = s.srw x := rfl
@[simp] theorem State.emit_srd_of (s : State) (o : Out) (x : Nat) (g : Fld) : (s.emit o).srd x g = s.srd x g := rfl
@[simp] theorem State.emit_lv_of (s : State) (o : Out) (x : Nat) : (s.emit o).lv x = s.lv x := rfl
@[simp] theorem State.emit_pipe_of (s : State) (o : Out) (x : Nat) : (s.emit o).pipe x = s.pipe x := rfl
@[simp] theorem State.emit_queue_of (s : State) (o : Out) (x : Nat) : (s.emit o).queue x = s.queue x := rfl
@[simp] theorem State.emit_ch_of (s : State) (o : Out) (x : Nat) : (s.emit o).ch x = s.ch x := rfl
@[simp] theorem State.emit_eng_of (s : State) (o : Out) (x : Nat) : (s.emit o).eng x = s.eng x := rfl
@[simp] theorem State.emit_panel_of (s : State) (o : Out) (x : Nat) : (s.emit o).panel x = s.panel x := rfl
@[simp] theorem State.emit_stream_of (s : State) (o : Out) (x : Nat) : (s.emit o).stream x = s.stream x := rfl
@[simp] theorem State.emit_hap_of (s : State) (o : Out) (x : Nat) : (s.emit o).hap x = s.hap x := rfl
@[simp] theorem State.emit_cap_of (s : State) (o : Out) (x : Nat) : (s.emit o).cap x = s.cap x := rfl
@[simp] theorem State.emit_hart_of (s : State) (o : Out) (x : Nat) : (s.emit o).hart x = s.hart x := rfl
@[simp] theorem State.emit_op_of (s : State) (o : Out) (x : Nat) : (s.emit o).op x = s.op x := rfl
@[simp] theorem State.emit_rail_of (s : State) (o : Out) (x : Nat) : (s.emit o).rail x = s.rail x := rfl
@[simp] theorem State.emit_stallState_of (s : State) (o : Out) (x : Nat) : (s.emit o).stallState x = s.stallState x := rfl
@[simp] theorem State.emit_islandOn_of (s : State) (o : Out) (x : Nat) : (s.emit o).islandOn x = s.islandOn x := rfl
@[simp] theorem State.emit_dstate_of (s : State) (o : Out) : (s.emit o).dstate = s.dstate := rfl
@[simp] theorem State.emit_running_of (s : State) (o : Out) : (s.emit o).running = s.running := rfl
@[simp] theorem State.emit_sramB_of (s : State) (o : Out) (x : Nat) : (s.emit o).sramB x = s.sramB x := rfl
@[simp] theorem State.emit_dramB_of (s : State) (o : Out) (x : Nat) : (s.emit o).dramB x = s.dramB x := rfl
@[simp] theorem State.emit_envB_of (s : State) (o : Out) (x : Nat) : (s.emit o).envB x = s.envB x := rfl
@[simp] theorem State.emit_free_of (s : State) (o : Out) : (s.emit o).free = s.free := rfl

/-! bumpEv -/
@[simp] theorem State.bumpEv_regs (s : State) (a k : Nat) : (s.bumpEv a k).regs = s.regs := rfl
@[simp] theorem State.bumpEv_force (s : State) (a k : Nat) : (s.bumpEv a k).force = s.force := rfl
@[simp] theorem State.bumpEv_scan (s : State) (a k : Nat) : (s.bumpEv a k).scan = s.scan := rfl
@[simp] theorem State.bumpEv_agreed (s : State) (a k : Nat) : (s.bumpEv a k).agreed = s.agreed := rfl
@[simp] theorem State.bumpEv_heldLow (s : State) (a k : Nat) : (s.bumpEv a k).heldLow = s.heldLow := rfl
@[simp] theorem State.bumpEv_kevtHeld (s : State) (a k : Nat) : (s.bumpEv a k).kevtHeld = s.kevtHeld := rfl
@[simp] theorem State.bumpEv_kevq (s : State) (a k : Nat) : (s.bumpEv a k).kevq = s.kevq := rfl
@[simp] theorem State.bumpEv_vrecRead (s : State) (a k : Nat) : (s.bumpEv a k).vrecRead = s.vrecRead := rfl
@[simp] theorem State.bumpEv_frozen (s : State) (a k : Nat) : (s.bumpEv a k).frozen = s.frozen := rfl
@[simp] theorem State.bumpEv_sram (s : State) (a k : Nat) : (s.bumpEv a k).sram = s.sram := rfl
@[simp] theorem State.bumpEv_dram (s : State) (a k : Nat) : (s.bumpEv a k).dram = s.dram := rfl
@[simp] theorem State.bumpEv_ecc (s : State) (a k : Nat) : (s.bumpEv a k).ecc = s.ecc := rfl
@[simp] theorem State.bumpEv_tlb (s : State) (a k : Nat) : (s.bumpEv a k).tlb = s.tlb := rfl
@[simp] theorem State.bumpEv_env (s : State) (a k : Nat) : (s.bumpEv a k).env = s.env := rfl
@[simp] theorem State.bumpEv_tally (s : State) (a k : Nat) : (s.bumpEv a k).tally = s.tally := rfl
@[simp] theorem State.bumpEv_pipes (s : State) (a k : Nat) : (s.bumpEv a k).pipes = s.pipes := rfl
@[simp] theorem State.bumpEv_led (s : State) (a k : Nat) : (s.bumpEv a k).led = s.led := rfl
@[simp] theorem State.bumpEv_queues (s : State) (a k : Nat) : (s.bumpEv a k).queues = s.queues := rfl
@[simp] theorem State.bumpEv_admitted (s : State) (a k : Nat) : (s.bumpEv a k).admitted = s.admitted := rfl
@[simp] theorem State.bumpEv_gpu (s : State) (a k : Nat) : (s.bumpEv a k).gpu = s.gpu := rfl
@[simp] theorem State.bumpEv_dmCh (s : State) (a k : Nat) : (s.bumpEv a k).dmCh = s.dmCh := rfl
@[simp] theorem State.bumpEv_dmEng (s : State) (a k : Nat) : (s.bumpEv a k).dmEng = s.dmEng := rfl
@[simp] theorem State.bumpEv_squashed (s : State) (a k : Nat) : (s.bumpEv a k).squashed = s.squashed := rfl
@[simp] theorem State.bumpEv_clearing (s : State) (a k : Nat) : (s.bumpEv a k).clearing = s.clearing := rfl
@[simp] theorem State.bumpEv_boot (s : State) (a k : Nat) : (s.bumpEv a k).boot = s.boot := rfl
@[simp] theorem State.bumpEv_harts (s : State) (a k : Nat) : (s.bumpEv a k).harts = s.harts := rfl
@[simp] theorem State.bumpEv_keeperTrap (s : State) (a k : Nat) : (s.bumpEv a k).keeperTrap = s.keeperTrap := rfl
@[simp] theorem State.bumpEv_power (s : State) (a k : Nat) : (s.bumpEv a k).power = s.power := rfl
@[simp] theorem State.bumpEv_sm (s : State) (a k : Nat) : (s.bumpEv a k).sm = s.sm := rfl
@[simp] theorem State.bumpEv_mem (s : State) (a k : Nat) : (s.bumpEv a k).mem = s.mem := rfl
@[simp] theorem State.bumpEv_msr (s : State) (a k : Nat) : (s.bumpEv a k).msr = s.msr := rfl
@[simp] theorem State.bumpEv_nvm (s : State) (a k : Nat) : (s.bumpEv a k).nvm = s.nvm := rfl
@[simp] theorem State.bumpEv_panels (s : State) (a k : Nat) : (s.bumpEv a k).panels = s.panels := rfl
@[simp] theorem State.bumpEv_lineRuns (s : State) (a k : Nat) : (s.bumpEv a k).lineRuns = s.lineRuns := rfl
@[simp] theorem State.bumpEv_streams (s : State) (a k : Nat) : (s.bumpEv a k).streams = s.streams := rfl
@[simp] theorem State.bumpEv_haps (s : State) (a k : Nat) : (s.bumpEv a k).haps = s.haps := rfl
@[simp] theorem State.bumpEv_caps (s : State) (a k : Nat) : (s.bumpEv a k).caps = s.caps := rfl
@[simp] theorem State.bumpEv_mix (s : State) (a k : Nat) : (s.bumpEv a k).mix = s.mix := rfl
@[simp] theorem State.bumpEv_syncOut (s : State) (a k : Nat) : (s.bumpEv a k).syncOut = s.syncOut := rfl
@[simp] theorem State.bumpEv_syncIn (s : State) (a k : Nat) : (s.bumpEv a k).syncIn = s.syncIn := rfl
@[simp] theorem State.bumpEv_resp (s : State) (a k : Nat) : (s.bumpEv a k).resp = s.resp := rfl
@[simp] theorem State.bumpEv_out (s : State) (a k : Nat) : (s.bumpEv a k).out = s.out := rfl
@[simp] theorem State.bumpEv_fresh (s : State) (a k : Nat) : (s.bumpEv a k).fresh = s.fresh := rfl
@[simp] theorem State.bumpEv_pending (s : State) (a k : Nat) : (s.bumpEv a k).pending = s.pending := rfl
@[simp] theorem State.bumpEv_rw_of (s : State) (a k : Nat) (x : Nat) : (s.bumpEv a k).rw x = s.rw x := rfl
@[simp] theorem State.bumpEv_rd_of (s : State) (a k : Nat) (x : Nat) (g : Fld) : (s.bumpEv a k).rd x g = s.rd x g := rfl
@[simp] theorem State.bumpEv_on_of (s : State) (a k : Nat) (x : Nat) (g : Fld) : (s.bumpEv a k).on x g = s.on x g := rfl
@[simp] theorem State.bumpEv_frw_of (s : State) (a k : Nat) (x : Nat) : (s.bumpEv a k).frw x = s.frw x := rfl
@[simp] theorem State.bumpEv_frd_of (s : State) (a k : Nat) (x : Nat) (g : Fld) : (s.bumpEv a k).frd x g = s.frd x g := rfl
@[simp] theorem State.bumpEv_srw_of (s : State) (a k : Nat) (x : Nat) : (s.bumpEv a k).srw x = s.srw x := rfl
@[simp] theorem State.bumpEv_srd_of (s : State) (a k : Nat) (x : Nat) (g : Fld) : (s.bumpEv a k).srd x g = s.srd x g := rfl
@[simp] theorem State.bumpEv_pipe_of (s : State) (a k : Nat) (x : Nat) : (s.bumpEv a k).pipe x = s.pipe x := rfl
@[simp] theorem State.bumpEv_queue_of (s : State) (a k : Nat) (x : Nat) : (s.bumpEv a k).queue x = s.queue x := rfl
@[simp] theorem State.bumpEv_ch_of (s : State) (a k : Nat) (x : Nat) : (s.bumpEv a k).ch x = s.ch x := rfl
@[simp] theorem State.bumpEv_eng_of (s : State) (a k : Nat) (x : Nat) : (s.bumpEv a k).eng x = s.eng x := rfl
@[simp] theorem State.bumpEv_panel_of (s : State) (a k : Nat) (x : Nat) : (s.bumpEv a k).panel x = s.panel x := rfl
@[simp] theorem State.bumpEv_stream_of (s : State) (a k : Nat) (x : Nat) : (s.bumpEv a k).stream x = s.stream x := rfl
@[simp] theorem State.bumpEv_hap_of (s : State) (a k : Nat) (x : Nat) : (s.bumpEv a k).hap x = s.hap x := rfl
@[simp] theorem State.bumpEv_cap_of (s : State) (a k : Nat) (x : Nat) : (s.bumpEv a k).cap x = s.cap x := rfl
@[simp] theorem State.bumpEv_hart_of (s : State) (a k : Nat) (x : Nat) : (s.bumpEv a k).hart x = s.hart x := rfl
@[simp] theorem State.bumpEv_op_of (s : State) (a k : Nat) (x : Nat) : (s.bumpEv a k).op x = s.op x := rfl
@[simp] theorem State.bumpEv_rail_of (s : State) (a k : Nat) (x : Nat) : (s.bumpEv a k).rail x = s.rail x := rfl
@[simp] theorem State.bumpEv_stallState_of (s : State) (a k : Nat) (x : Nat) : (s.bumpEv a k).stallState x = s.stallState x := rfl
@[simp] theorem State.bumpEv_islandOn_of (s : State) (a k : Nat) (x : Nat) : (s.bumpEv a k).islandOn x = s.islandOn x := rfl
@[simp] theorem State.bumpEv_dstate_of (s : State) (a k : Nat) : (s.bumpEv a k).dstate = s.dstate := rfl
@[simp] theorem State.bumpEv_running_of (s : State) (a k : Nat) : (s.bumpEv a k).running = s.running := rfl
@[simp] theorem State.bumpEv_sramB_of (s : State) (a k : Nat) (x : Nat) : (s.bumpEv a k).sramB x = s.sramB x := rfl
@[simp] theorem State.bumpEv_dramB_of (s : State) (a k : Nat) (x : Nat) : (s.bumpEv a k).dramB x = s.dramB x := rfl
@[simp] theorem State.bumpEv_envB_of (s : State) (a k : Nat) (x : Nat) : (s.bumpEv a k).envB x = s.envB x := rfl
@[simp] theorem State.bumpEv_free_of (s : State) (a k : Nat) : (s.bumpEv a k).free = s.free := rfl

/-! bumpFrame -/
@[simp] theorem State.bumpFrame_regs (s : State) (a : Nat) : (s.bumpFrame a).regs = s.regs := rfl
@[simp] theorem State.bumpFrame_force (s : State) (a : Nat) : (s.bumpFrame a).force = s.force := rfl
@[simp] theorem State.bumpFrame_scan (s : State) (a : Nat) : (s.bumpFrame a).scan = s.scan := rfl
@[simp] theorem State.bumpFrame_agreed (s : State) (a : Nat) : (s.bumpFrame a).agreed = s.agreed := rfl
@[simp] theorem State.bumpFrame_heldLow (s : State) (a : Nat) : (s.bumpFrame a).heldLow = s.heldLow := rfl
@[simp] theorem State.bumpFrame_kevtHeld (s : State) (a : Nat) : (s.bumpFrame a).kevtHeld = s.kevtHeld := rfl
@[simp] theorem State.bumpFrame_kevq (s : State) (a : Nat) : (s.bumpFrame a).kevq = s.kevq := rfl
@[simp] theorem State.bumpFrame_vrecRead (s : State) (a : Nat) : (s.bumpFrame a).vrecRead = s.vrecRead := rfl
@[simp] theorem State.bumpFrame_frozen (s : State) (a : Nat) : (s.bumpFrame a).frozen = s.frozen := rfl
@[simp] theorem State.bumpFrame_sram (s : State) (a : Nat) : (s.bumpFrame a).sram = s.sram := rfl
@[simp] theorem State.bumpFrame_dram (s : State) (a : Nat) : (s.bumpFrame a).dram = s.dram := rfl
@[simp] theorem State.bumpFrame_ecc (s : State) (a : Nat) : (s.bumpFrame a).ecc = s.ecc := rfl
@[simp] theorem State.bumpFrame_tlb (s : State) (a : Nat) : (s.bumpFrame a).tlb = s.tlb := rfl
@[simp] theorem State.bumpFrame_env (s : State) (a : Nat) : (s.bumpFrame a).env = s.env := rfl
@[simp] theorem State.bumpFrame_tally (s : State) (a : Nat) : (s.bumpFrame a).tally = s.tally := rfl
@[simp] theorem State.bumpFrame_pipes (s : State) (a : Nat) : (s.bumpFrame a).pipes = s.pipes := rfl
@[simp] theorem State.bumpFrame_led (s : State) (a : Nat) : (s.bumpFrame a).led = s.led := rfl
@[simp] theorem State.bumpFrame_queues (s : State) (a : Nat) : (s.bumpFrame a).queues = s.queues := rfl
@[simp] theorem State.bumpFrame_admitted (s : State) (a : Nat) : (s.bumpFrame a).admitted = s.admitted := rfl
@[simp] theorem State.bumpFrame_gpu (s : State) (a : Nat) : (s.bumpFrame a).gpu = s.gpu := rfl
@[simp] theorem State.bumpFrame_dmCh (s : State) (a : Nat) : (s.bumpFrame a).dmCh = s.dmCh := rfl
@[simp] theorem State.bumpFrame_dmEng (s : State) (a : Nat) : (s.bumpFrame a).dmEng = s.dmEng := rfl
@[simp] theorem State.bumpFrame_squashed (s : State) (a : Nat) : (s.bumpFrame a).squashed = s.squashed := rfl
@[simp] theorem State.bumpFrame_clearing (s : State) (a : Nat) : (s.bumpFrame a).clearing = s.clearing := rfl
@[simp] theorem State.bumpFrame_boot (s : State) (a : Nat) : (s.bumpFrame a).boot = s.boot := rfl
@[simp] theorem State.bumpFrame_harts (s : State) (a : Nat) : (s.bumpFrame a).harts = s.harts := rfl
@[simp] theorem State.bumpFrame_keeperTrap (s : State) (a : Nat) : (s.bumpFrame a).keeperTrap = s.keeperTrap := rfl
@[simp] theorem State.bumpFrame_power (s : State) (a : Nat) : (s.bumpFrame a).power = s.power := rfl
@[simp] theorem State.bumpFrame_sm (s : State) (a : Nat) : (s.bumpFrame a).sm = s.sm := rfl
@[simp] theorem State.bumpFrame_mem (s : State) (a : Nat) : (s.bumpFrame a).mem = s.mem := rfl
@[simp] theorem State.bumpFrame_msr (s : State) (a : Nat) : (s.bumpFrame a).msr = s.msr := rfl
@[simp] theorem State.bumpFrame_nvm (s : State) (a : Nat) : (s.bumpFrame a).nvm = s.nvm := rfl
@[simp] theorem State.bumpFrame_panels (s : State) (a : Nat) : (s.bumpFrame a).panels = s.panels := rfl
@[simp] theorem State.bumpFrame_lineRuns (s : State) (a : Nat) : (s.bumpFrame a).lineRuns = s.lineRuns := rfl
@[simp] theorem State.bumpFrame_streams (s : State) (a : Nat) : (s.bumpFrame a).streams = s.streams := rfl
@[simp] theorem State.bumpFrame_haps (s : State) (a : Nat) : (s.bumpFrame a).haps = s.haps := rfl
@[simp] theorem State.bumpFrame_caps (s : State) (a : Nat) : (s.bumpFrame a).caps = s.caps := rfl
@[simp] theorem State.bumpFrame_mix (s : State) (a : Nat) : (s.bumpFrame a).mix = s.mix := rfl
@[simp] theorem State.bumpFrame_syncOut (s : State) (a : Nat) : (s.bumpFrame a).syncOut = s.syncOut := rfl
@[simp] theorem State.bumpFrame_syncIn (s : State) (a : Nat) : (s.bumpFrame a).syncIn = s.syncIn := rfl
@[simp] theorem State.bumpFrame_resp (s : State) (a : Nat) : (s.bumpFrame a).resp = s.resp := rfl
@[simp] theorem State.bumpFrame_out (s : State) (a : Nat) : (s.bumpFrame a).out = s.out := rfl
@[simp] theorem State.bumpFrame_fresh (s : State) (a : Nat) : (s.bumpFrame a).fresh = s.fresh := rfl
@[simp] theorem State.bumpFrame_pending (s : State) (a : Nat) : (s.bumpFrame a).pending = s.pending := rfl
@[simp] theorem State.bumpFrame_rw_of (s : State) (a : Nat) (x : Nat) : (s.bumpFrame a).rw x = s.rw x := rfl
@[simp] theorem State.bumpFrame_rd_of (s : State) (a : Nat) (x : Nat) (g : Fld) : (s.bumpFrame a).rd x g = s.rd x g := rfl
@[simp] theorem State.bumpFrame_on_of (s : State) (a : Nat) (x : Nat) (g : Fld) : (s.bumpFrame a).on x g = s.on x g := rfl
@[simp] theorem State.bumpFrame_frw_of (s : State) (a : Nat) (x : Nat) : (s.bumpFrame a).frw x = s.frw x := rfl
@[simp] theorem State.bumpFrame_frd_of (s : State) (a : Nat) (x : Nat) (g : Fld) : (s.bumpFrame a).frd x g = s.frd x g := rfl
@[simp] theorem State.bumpFrame_srw_of (s : State) (a : Nat) (x : Nat) : (s.bumpFrame a).srw x = s.srw x := rfl
@[simp] theorem State.bumpFrame_srd_of (s : State) (a : Nat) (x : Nat) (g : Fld) : (s.bumpFrame a).srd x g = s.srd x g := rfl
@[simp] theorem State.bumpFrame_pipe_of (s : State) (a : Nat) (x : Nat) : (s.bumpFrame a).pipe x = s.pipe x := rfl
@[simp] theorem State.bumpFrame_queue_of (s : State) (a : Nat) (x : Nat) : (s.bumpFrame a).queue x = s.queue x := rfl
@[simp] theorem State.bumpFrame_ch_of (s : State) (a : Nat) (x : Nat) : (s.bumpFrame a).ch x = s.ch x := rfl
@[simp] theorem State.bumpFrame_eng_of (s : State) (a : Nat) (x : Nat) : (s.bumpFrame a).eng x = s.eng x := rfl
@[simp] theorem State.bumpFrame_panel_of (s : State) (a : Nat) (x : Nat) : (s.bumpFrame a).panel x = s.panel x := rfl
@[simp] theorem State.bumpFrame_stream_of (s : State) (a : Nat) (x : Nat) : (s.bumpFrame a).stream x = s.stream x := rfl
@[simp] theorem State.bumpFrame_hap_of (s : State) (a : Nat) (x : Nat) : (s.bumpFrame a).hap x = s.hap x := rfl
@[simp] theorem State.bumpFrame_cap_of (s : State) (a : Nat) (x : Nat) : (s.bumpFrame a).cap x = s.cap x := rfl
@[simp] theorem State.bumpFrame_hart_of (s : State) (a : Nat) (x : Nat) : (s.bumpFrame a).hart x = s.hart x := rfl
@[simp] theorem State.bumpFrame_op_of (s : State) (a : Nat) (x : Nat) : (s.bumpFrame a).op x = s.op x := rfl
@[simp] theorem State.bumpFrame_rail_of (s : State) (a : Nat) (x : Nat) : (s.bumpFrame a).rail x = s.rail x := rfl
@[simp] theorem State.bumpFrame_stallState_of (s : State) (a : Nat) (x : Nat) : (s.bumpFrame a).stallState x = s.stallState x := rfl
@[simp] theorem State.bumpFrame_islandOn_of (s : State) (a : Nat) (x : Nat) : (s.bumpFrame a).islandOn x = s.islandOn x := rfl
@[simp] theorem State.bumpFrame_dstate_of (s : State) (a : Nat) : (s.bumpFrame a).dstate = s.dstate := rfl
@[simp] theorem State.bumpFrame_running_of (s : State) (a : Nat) : (s.bumpFrame a).running = s.running := rfl
@[simp] theorem State.bumpFrame_sramB_of (s : State) (a : Nat) (x : Nat) : (s.bumpFrame a).sramB x = s.sramB x := rfl
@[simp] theorem State.bumpFrame_dramB_of (s : State) (a : Nat) (x : Nat) : (s.bumpFrame a).dramB x = s.dramB x := rfl
@[simp] theorem State.bumpFrame_envB_of (s : State) (a : Nat) (x : Nat) : (s.bumpFrame a).envB x = s.envB x := rfl
@[simp] theorem State.bumpFrame_free_of (s : State) (a : Nat) : (s.bumpFrame a).free = s.free := rfl

/-! clearCnt -/
@[simp] theorem State.clearCnt_regs (s : State) (a : Nat) : (s.clearCnt a).regs = s.regs := rfl
@[simp] theorem State.clearCnt_force (s : State) (a : Nat) : (s.clearCnt a).force = s.force := rfl
@[simp] theorem State.clearCnt_scan (s : State) (a : Nat) : (s.clearCnt a).scan = s.scan := rfl
@[simp] theorem State.clearCnt_agreed (s : State) (a : Nat) : (s.clearCnt a).agreed = s.agreed := rfl
@[simp] theorem State.clearCnt_heldLow (s : State) (a : Nat) : (s.clearCnt a).heldLow = s.heldLow := rfl
@[simp] theorem State.clearCnt_kevtHeld (s : State) (a : Nat) : (s.clearCnt a).kevtHeld = s.kevtHeld := rfl
@[simp] theorem State.clearCnt_kevq (s : State) (a : Nat) : (s.clearCnt a).kevq = s.kevq := rfl
@[simp] theorem State.clearCnt_vrecRead (s : State) (a : Nat) : (s.clearCnt a).vrecRead = s.vrecRead := rfl
@[simp] theorem State.clearCnt_frozen (s : State) (a : Nat) : (s.clearCnt a).frozen = s.frozen := rfl
@[simp] theorem State.clearCnt_sram (s : State) (a : Nat) : (s.clearCnt a).sram = s.sram := rfl
@[simp] theorem State.clearCnt_dram (s : State) (a : Nat) : (s.clearCnt a).dram = s.dram := rfl
@[simp] theorem State.clearCnt_ecc (s : State) (a : Nat) : (s.clearCnt a).ecc = s.ecc := rfl
@[simp] theorem State.clearCnt_tlb (s : State) (a : Nat) : (s.clearCnt a).tlb = s.tlb := rfl
@[simp] theorem State.clearCnt_env (s : State) (a : Nat) : (s.clearCnt a).env = s.env := rfl
@[simp] theorem State.clearCnt_tally (s : State) (a : Nat) : (s.clearCnt a).tally = s.tally := rfl
@[simp] theorem State.clearCnt_pipes (s : State) (a : Nat) : (s.clearCnt a).pipes = s.pipes := rfl
@[simp] theorem State.clearCnt_led (s : State) (a : Nat) : (s.clearCnt a).led = s.led := rfl
@[simp] theorem State.clearCnt_queues (s : State) (a : Nat) : (s.clearCnt a).queues = s.queues := rfl
@[simp] theorem State.clearCnt_admitted (s : State) (a : Nat) : (s.clearCnt a).admitted = s.admitted := rfl
@[simp] theorem State.clearCnt_gpu (s : State) (a : Nat) : (s.clearCnt a).gpu = s.gpu := rfl
@[simp] theorem State.clearCnt_dmCh (s : State) (a : Nat) : (s.clearCnt a).dmCh = s.dmCh := rfl
@[simp] theorem State.clearCnt_dmEng (s : State) (a : Nat) : (s.clearCnt a).dmEng = s.dmEng := rfl
@[simp] theorem State.clearCnt_squashed (s : State) (a : Nat) : (s.clearCnt a).squashed = s.squashed := rfl
@[simp] theorem State.clearCnt_clearing (s : State) (a : Nat) : (s.clearCnt a).clearing = s.clearing := rfl
@[simp] theorem State.clearCnt_boot (s : State) (a : Nat) : (s.clearCnt a).boot = s.boot := rfl
@[simp] theorem State.clearCnt_harts (s : State) (a : Nat) : (s.clearCnt a).harts = s.harts := rfl
@[simp] theorem State.clearCnt_keeperTrap (s : State) (a : Nat) : (s.clearCnt a).keeperTrap = s.keeperTrap := rfl
@[simp] theorem State.clearCnt_power (s : State) (a : Nat) : (s.clearCnt a).power = s.power := rfl
@[simp] theorem State.clearCnt_sm (s : State) (a : Nat) : (s.clearCnt a).sm = s.sm := rfl
@[simp] theorem State.clearCnt_mem (s : State) (a : Nat) : (s.clearCnt a).mem = s.mem := rfl
@[simp] theorem State.clearCnt_msr (s : State) (a : Nat) : (s.clearCnt a).msr = s.msr := rfl
@[simp] theorem State.clearCnt_nvm (s : State) (a : Nat) : (s.clearCnt a).nvm = s.nvm := rfl
@[simp] theorem State.clearCnt_panels (s : State) (a : Nat) : (s.clearCnt a).panels = s.panels := rfl
@[simp] theorem State.clearCnt_lineRuns (s : State) (a : Nat) : (s.clearCnt a).lineRuns = s.lineRuns := rfl
@[simp] theorem State.clearCnt_streams (s : State) (a : Nat) : (s.clearCnt a).streams = s.streams := rfl
@[simp] theorem State.clearCnt_haps (s : State) (a : Nat) : (s.clearCnt a).haps = s.haps := rfl
@[simp] theorem State.clearCnt_caps (s : State) (a : Nat) : (s.clearCnt a).caps = s.caps := rfl
@[simp] theorem State.clearCnt_mix (s : State) (a : Nat) : (s.clearCnt a).mix = s.mix := rfl
@[simp] theorem State.clearCnt_syncOut (s : State) (a : Nat) : (s.clearCnt a).syncOut = s.syncOut := rfl
@[simp] theorem State.clearCnt_syncIn (s : State) (a : Nat) : (s.clearCnt a).syncIn = s.syncIn := rfl
@[simp] theorem State.clearCnt_resp (s : State) (a : Nat) : (s.clearCnt a).resp = s.resp := rfl
@[simp] theorem State.clearCnt_out (s : State) (a : Nat) : (s.clearCnt a).out = s.out := rfl
@[simp] theorem State.clearCnt_fresh (s : State) (a : Nat) : (s.clearCnt a).fresh = s.fresh := rfl
@[simp] theorem State.clearCnt_pending (s : State) (a : Nat) : (s.clearCnt a).pending = s.pending := rfl
@[simp] theorem State.clearCnt_rw_of (s : State) (a : Nat) (x : Nat) : (s.clearCnt a).rw x = s.rw x := rfl
@[simp] theorem State.clearCnt_rd_of (s : State) (a : Nat) (x : Nat) (g : Fld) : (s.clearCnt a).rd x g = s.rd x g := rfl
@[simp] theorem State.clearCnt_on_of (s : State) (a : Nat) (x : Nat) (g : Fld) : (s.clearCnt a).on x g = s.on x g := rfl
@[simp] theorem State.clearCnt_frw_of (s : State) (a : Nat) (x : Nat) : (s.clearCnt a).frw x = s.frw x := rfl
@[simp] theorem State.clearCnt_frd_of (s : State) (a : Nat) (x : Nat) (g : Fld) : (s.clearCnt a).frd x g = s.frd x g := rfl
@[simp] theorem State.clearCnt_srw_of (s : State) (a : Nat) (x : Nat) : (s.clearCnt a).srw x = s.srw x := rfl
@[simp] theorem State.clearCnt_srd_of (s : State) (a : Nat) (x : Nat) (g : Fld) : (s.clearCnt a).srd x g = s.srd x g := rfl
@[simp] theorem State.clearCnt_pipe_of (s : State) (a : Nat) (x : Nat) : (s.clearCnt a).pipe x = s.pipe x := rfl
@[simp] theorem State.clearCnt_queue_of (s : State) (a : Nat) (x : Nat) : (s.clearCnt a).queue x = s.queue x := rfl
@[simp] theorem State.clearCnt_ch_of (s : State) (a : Nat) (x : Nat) : (s.clearCnt a).ch x = s.ch x := rfl
@[simp] theorem State.clearCnt_eng_of (s : State) (a : Nat) (x : Nat) : (s.clearCnt a).eng x = s.eng x := rfl
@[simp] theorem State.clearCnt_panel_of (s : State) (a : Nat) (x : Nat) : (s.clearCnt a).panel x = s.panel x := rfl
@[simp] theorem State.clearCnt_stream_of (s : State) (a : Nat) (x : Nat) : (s.clearCnt a).stream x = s.stream x := rfl
@[simp] theorem State.clearCnt_hap_of (s : State) (a : Nat) (x : Nat) : (s.clearCnt a).hap x = s.hap x := rfl
@[simp] theorem State.clearCnt_cap_of (s : State) (a : Nat) (x : Nat) : (s.clearCnt a).cap x = s.cap x := rfl
@[simp] theorem State.clearCnt_hart_of (s : State) (a : Nat) (x : Nat) : (s.clearCnt a).hart x = s.hart x := rfl
@[simp] theorem State.clearCnt_op_of (s : State) (a : Nat) (x : Nat) : (s.clearCnt a).op x = s.op x := rfl
@[simp] theorem State.clearCnt_rail_of (s : State) (a : Nat) (x : Nat) : (s.clearCnt a).rail x = s.rail x := rfl
@[simp] theorem State.clearCnt_stallState_of (s : State) (a : Nat) (x : Nat) : (s.clearCnt a).stallState x = s.stallState x := rfl
@[simp] theorem State.clearCnt_islandOn_of (s : State) (a : Nat) (x : Nat) : (s.clearCnt a).islandOn x = s.islandOn x := rfl
@[simp] theorem State.clearCnt_dstate_of (s : State) (a : Nat) : (s.clearCnt a).dstate = s.dstate := rfl
@[simp] theorem State.clearCnt_running_of (s : State) (a : Nat) : (s.clearCnt a).running = s.running := rfl
@[simp] theorem State.clearCnt_sramB_of (s : State) (a : Nat) (x : Nat) : (s.clearCnt a).sramB x = s.sramB x := rfl
@[simp] theorem State.clearCnt_dramB_of (s : State) (a : Nat) (x : Nat) : (s.clearCnt a).dramB x = s.dramB x := rfl
@[simp] theorem State.clearCnt_envB_of (s : State) (a : Nat) (x : Nat) : (s.clearCnt a).envB x = s.envB x := rfl
@[simp] theorem State.clearCnt_free_of (s : State) (a : Nat) : (s.clearCnt a).free = s.free := rfl

/-! useFree -/
@[simp] theorem State.useFree_regs (s : State) : (s.useFree).regs = s.regs := rfl
@[simp] theorem State.useFree_force (s : State) : (s.useFree).force = s.force := rfl
@[simp] theorem State.useFree_scan (s : State) : (s.useFree).scan = s.scan := rfl
@[simp] theorem State.useFree_live (s : State) : (s.useFree).live = s.live := rfl
@[simp] theorem State.useFree_agreed (s : State) : (s.useFree).agreed = s.agreed := rfl
@[simp] theorem State.useFree_heldLow (s : State) : (s.useFree).heldLow = s.heldLow := rfl
@[simp] theorem State.useFree_kevtHeld (s : State) : (s.useFree).kevtHeld = s.kevtHeld := rfl
@[simp] theorem State.useFree_kevq (s : State) : (s.useFree).kevq = s.kevq := rfl
@[simp] theorem State.useFree_vrecRead (s : State) : (s.useFree).vrecRead = s.vrecRead := rfl
@[simp] theorem State.useFree_frozen (s : State) : (s.useFree).frozen = s.frozen := rfl
@[simp] theorem State.useFree_sram (s : State) : (s.useFree).sram = s.sram := rfl
@[simp] theorem State.useFree_dram (s : State) : (s.useFree).dram = s.dram := rfl
@[simp] theorem State.useFree_ecc (s : State) : (s.useFree).ecc = s.ecc := rfl
@[simp] theorem State.useFree_tlb (s : State) : (s.useFree).tlb = s.tlb := rfl
@[simp] theorem State.useFree_env (s : State) : (s.useFree).env = s.env := rfl
@[simp] theorem State.useFree_tally (s : State) : (s.useFree).tally = s.tally := rfl
@[simp] theorem State.useFree_pipes (s : State) : (s.useFree).pipes = s.pipes := rfl
@[simp] theorem State.useFree_led (s : State) : (s.useFree).led = s.led := rfl
@[simp] theorem State.useFree_queues (s : State) : (s.useFree).queues = s.queues := rfl
@[simp] theorem State.useFree_admitted (s : State) : (s.useFree).admitted = s.admitted := rfl
@[simp] theorem State.useFree_gpu (s : State) : (s.useFree).gpu = s.gpu := rfl
@[simp] theorem State.useFree_dmCh (s : State) : (s.useFree).dmCh = s.dmCh := rfl
@[simp] theorem State.useFree_dmEng (s : State) : (s.useFree).dmEng = s.dmEng := rfl
@[simp] theorem State.useFree_squashed (s : State) : (s.useFree).squashed = s.squashed := rfl
@[simp] theorem State.useFree_clearing (s : State) : (s.useFree).clearing = s.clearing := rfl
@[simp] theorem State.useFree_boot (s : State) : (s.useFree).boot = s.boot := rfl
@[simp] theorem State.useFree_harts (s : State) : (s.useFree).harts = s.harts := rfl
@[simp] theorem State.useFree_keeperTrap (s : State) : (s.useFree).keeperTrap = s.keeperTrap := rfl
@[simp] theorem State.useFree_power (s : State) : (s.useFree).power = s.power := rfl
@[simp] theorem State.useFree_sm (s : State) : (s.useFree).sm = s.sm := rfl
@[simp] theorem State.useFree_mem (s : State) : (s.useFree).mem = s.mem := rfl
@[simp] theorem State.useFree_msr (s : State) : (s.useFree).msr = s.msr := rfl
@[simp] theorem State.useFree_nvm (s : State) : (s.useFree).nvm = s.nvm := rfl
@[simp] theorem State.useFree_panels (s : State) : (s.useFree).panels = s.panels := rfl
@[simp] theorem State.useFree_lineRuns (s : State) : (s.useFree).lineRuns = s.lineRuns := rfl
@[simp] theorem State.useFree_streams (s : State) : (s.useFree).streams = s.streams := rfl
@[simp] theorem State.useFree_haps (s : State) : (s.useFree).haps = s.haps := rfl
@[simp] theorem State.useFree_caps (s : State) : (s.useFree).caps = s.caps := rfl
@[simp] theorem State.useFree_mix (s : State) : (s.useFree).mix = s.mix := rfl
@[simp] theorem State.useFree_syncOut (s : State) : (s.useFree).syncOut = s.syncOut := rfl
@[simp] theorem State.useFree_syncIn (s : State) : (s.useFree).syncIn = s.syncIn := rfl
@[simp] theorem State.useFree_resp (s : State) : (s.useFree).resp = s.resp := rfl
@[simp] theorem State.useFree_out (s : State) : (s.useFree).out = s.out := rfl
@[simp] theorem State.useFree_pending (s : State) : (s.useFree).pending = s.pending := rfl
@[simp] theorem State.useFree_rw_of (s : State) (x : Nat) : (s.useFree).rw x = s.rw x := rfl
@[simp] theorem State.useFree_rd_of (s : State) (x : Nat) (g : Fld) : (s.useFree).rd x g = s.rd x g := rfl
@[simp] theorem State.useFree_on_of (s : State) (x : Nat) (g : Fld) : (s.useFree).on x g = s.on x g := rfl
@[simp] theorem State.useFree_frw_of (s : State) (x : Nat) : (s.useFree).frw x = s.frw x := rfl
@[simp] theorem State.useFree_frd_of (s : State) (x : Nat) (g : Fld) : (s.useFree).frd x g = s.frd x g := rfl
@[simp] theorem State.useFree_srw_of (s : State) (x : Nat) : (s.useFree).srw x = s.srw x := rfl
@[simp] theorem State.useFree_srd_of (s : State) (x : Nat) (g : Fld) : (s.useFree).srd x g = s.srd x g := rfl
@[simp] theorem State.useFree_lv_of (s : State) (x : Nat) : (s.useFree).lv x = s.lv x := rfl
@[simp] theorem State.useFree_pipe_of (s : State) (x : Nat) : (s.useFree).pipe x = s.pipe x := rfl
@[simp] theorem State.useFree_queue_of (s : State) (x : Nat) : (s.useFree).queue x = s.queue x := rfl
@[simp] theorem State.useFree_ch_of (s : State) (x : Nat) : (s.useFree).ch x = s.ch x := rfl
@[simp] theorem State.useFree_eng_of (s : State) (x : Nat) : (s.useFree).eng x = s.eng x := rfl
@[simp] theorem State.useFree_panel_of (s : State) (x : Nat) : (s.useFree).panel x = s.panel x := rfl
@[simp] theorem State.useFree_stream_of (s : State) (x : Nat) : (s.useFree).stream x = s.stream x := rfl
@[simp] theorem State.useFree_hap_of (s : State) (x : Nat) : (s.useFree).hap x = s.hap x := rfl
@[simp] theorem State.useFree_cap_of (s : State) (x : Nat) : (s.useFree).cap x = s.cap x := rfl
@[simp] theorem State.useFree_hart_of (s : State) (x : Nat) : (s.useFree).hart x = s.hart x := rfl
@[simp] theorem State.useFree_op_of (s : State) (x : Nat) : (s.useFree).op x = s.op x := rfl
@[simp] theorem State.useFree_rail_of (s : State) (x : Nat) : (s.useFree).rail x = s.rail x := rfl
@[simp] theorem State.useFree_stallState_of (s : State) (x : Nat) : (s.useFree).stallState x = s.stallState x := rfl
@[simp] theorem State.useFree_islandOn_of (s : State) (x : Nat) : (s.useFree).islandOn x = s.islandOn x := rfl
@[simp] theorem State.useFree_dstate_of (s : State) : (s.useFree).dstate = s.dstate := rfl
@[simp] theorem State.useFree_running_of (s : State) : (s.useFree).running = s.running := rfl
@[simp] theorem State.useFree_sramB_of (s : State) (x : Nat) : (s.useFree).sramB x = s.sramB x := rfl
@[simp] theorem State.useFree_dramB_of (s : State) (x : Nat) : (s.useFree).dramB x = s.dramB x := rfl
@[simp] theorem State.useFree_envB_of (s : State) (x : Nat) : (s.useFree).envB x = s.envB x := rfl

/-! useFreeN -/
@[simp] theorem State.useFreeN_regs (s : State) (n : Nat) : (s.useFreeN n).regs = s.regs := rfl
@[simp] theorem State.useFreeN_force (s : State) (n : Nat) : (s.useFreeN n).force = s.force := rfl
@[simp] theorem State.useFreeN_scan (s : State) (n : Nat) : (s.useFreeN n).scan = s.scan := rfl
@[simp] theorem State.useFreeN_live (s : State) (n : Nat) : (s.useFreeN n).live = s.live := rfl
@[simp] theorem State.useFreeN_agreed (s : State) (n : Nat) : (s.useFreeN n).agreed = s.agreed := rfl
@[simp] theorem State.useFreeN_heldLow (s : State) (n : Nat) : (s.useFreeN n).heldLow = s.heldLow := rfl
@[simp] theorem State.useFreeN_kevtHeld (s : State) (n : Nat) : (s.useFreeN n).kevtHeld = s.kevtHeld := rfl
@[simp] theorem State.useFreeN_kevq (s : State) (n : Nat) : (s.useFreeN n).kevq = s.kevq := rfl
@[simp] theorem State.useFreeN_vrecRead (s : State) (n : Nat) : (s.useFreeN n).vrecRead = s.vrecRead := rfl
@[simp] theorem State.useFreeN_frozen (s : State) (n : Nat) : (s.useFreeN n).frozen = s.frozen := rfl
@[simp] theorem State.useFreeN_sram (s : State) (n : Nat) : (s.useFreeN n).sram = s.sram := rfl
@[simp] theorem State.useFreeN_dram (s : State) (n : Nat) : (s.useFreeN n).dram = s.dram := rfl
@[simp] theorem State.useFreeN_ecc (s : State) (n : Nat) : (s.useFreeN n).ecc = s.ecc := rfl
@[simp] theorem State.useFreeN_tlb (s : State) (n : Nat) : (s.useFreeN n).tlb = s.tlb := rfl
@[simp] theorem State.useFreeN_env (s : State) (n : Nat) : (s.useFreeN n).env = s.env := rfl
@[simp] theorem State.useFreeN_tally (s : State) (n : Nat) : (s.useFreeN n).tally = s.tally := rfl
@[simp] theorem State.useFreeN_pipes (s : State) (n : Nat) : (s.useFreeN n).pipes = s.pipes := rfl
@[simp] theorem State.useFreeN_led (s : State) (n : Nat) : (s.useFreeN n).led = s.led := rfl
@[simp] theorem State.useFreeN_queues (s : State) (n : Nat) : (s.useFreeN n).queues = s.queues := rfl
@[simp] theorem State.useFreeN_admitted (s : State) (n : Nat) : (s.useFreeN n).admitted = s.admitted := rfl
@[simp] theorem State.useFreeN_gpu (s : State) (n : Nat) : (s.useFreeN n).gpu = s.gpu := rfl
@[simp] theorem State.useFreeN_dmCh (s : State) (n : Nat) : (s.useFreeN n).dmCh = s.dmCh := rfl
@[simp] theorem State.useFreeN_dmEng (s : State) (n : Nat) : (s.useFreeN n).dmEng = s.dmEng := rfl
@[simp] theorem State.useFreeN_squashed (s : State) (n : Nat) : (s.useFreeN n).squashed = s.squashed := rfl
@[simp] theorem State.useFreeN_clearing (s : State) (n : Nat) : (s.useFreeN n).clearing = s.clearing := rfl
@[simp] theorem State.useFreeN_boot (s : State) (n : Nat) : (s.useFreeN n).boot = s.boot := rfl
@[simp] theorem State.useFreeN_harts (s : State) (n : Nat) : (s.useFreeN n).harts = s.harts := rfl
@[simp] theorem State.useFreeN_keeperTrap (s : State) (n : Nat) : (s.useFreeN n).keeperTrap = s.keeperTrap := rfl
@[simp] theorem State.useFreeN_power (s : State) (n : Nat) : (s.useFreeN n).power = s.power := rfl
@[simp] theorem State.useFreeN_sm (s : State) (n : Nat) : (s.useFreeN n).sm = s.sm := rfl
@[simp] theorem State.useFreeN_mem (s : State) (n : Nat) : (s.useFreeN n).mem = s.mem := rfl
@[simp] theorem State.useFreeN_msr (s : State) (n : Nat) : (s.useFreeN n).msr = s.msr := rfl
@[simp] theorem State.useFreeN_nvm (s : State) (n : Nat) : (s.useFreeN n).nvm = s.nvm := rfl
@[simp] theorem State.useFreeN_panels (s : State) (n : Nat) : (s.useFreeN n).panels = s.panels := rfl
@[simp] theorem State.useFreeN_lineRuns (s : State) (n : Nat) : (s.useFreeN n).lineRuns = s.lineRuns := rfl
@[simp] theorem State.useFreeN_streams (s : State) (n : Nat) : (s.useFreeN n).streams = s.streams := rfl
@[simp] theorem State.useFreeN_haps (s : State) (n : Nat) : (s.useFreeN n).haps = s.haps := rfl
@[simp] theorem State.useFreeN_caps (s : State) (n : Nat) : (s.useFreeN n).caps = s.caps := rfl
@[simp] theorem State.useFreeN_mix (s : State) (n : Nat) : (s.useFreeN n).mix = s.mix := rfl
@[simp] theorem State.useFreeN_syncOut (s : State) (n : Nat) : (s.useFreeN n).syncOut = s.syncOut := rfl
@[simp] theorem State.useFreeN_syncIn (s : State) (n : Nat) : (s.useFreeN n).syncIn = s.syncIn := rfl
@[simp] theorem State.useFreeN_resp (s : State) (n : Nat) : (s.useFreeN n).resp = s.resp := rfl
@[simp] theorem State.useFreeN_out (s : State) (n : Nat) : (s.useFreeN n).out = s.out := rfl
@[simp] theorem State.useFreeN_pending (s : State) (n : Nat) : (s.useFreeN n).pending = s.pending := rfl
@[simp] theorem State.useFreeN_rw_of (s : State) (n : Nat) (x : Nat) : (s.useFreeN n).rw x = s.rw x := rfl
@[simp] theorem State.useFreeN_rd_of (s : State) (n : Nat) (x : Nat) (g : Fld) : (s.useFreeN n).rd x g = s.rd x g := rfl
@[simp] theorem State.useFreeN_on_of (s : State) (n : Nat) (x : Nat) (g : Fld) : (s.useFreeN n).on x g = s.on x g := rfl
@[simp] theorem State.useFreeN_frw_of (s : State) (n : Nat) (x : Nat) : (s.useFreeN n).frw x = s.frw x := rfl
@[simp] theorem State.useFreeN_frd_of (s : State) (n : Nat) (x : Nat) (g : Fld) : (s.useFreeN n).frd x g = s.frd x g := rfl
@[simp] theorem State.useFreeN_srw_of (s : State) (n : Nat) (x : Nat) : (s.useFreeN n).srw x = s.srw x := rfl
@[simp] theorem State.useFreeN_srd_of (s : State) (n : Nat) (x : Nat) (g : Fld) : (s.useFreeN n).srd x g = s.srd x g := rfl
@[simp] theorem State.useFreeN_lv_of (s : State) (n : Nat) (x : Nat) : (s.useFreeN n).lv x = s.lv x := rfl
@[simp] theorem State.useFreeN_pipe_of (s : State) (n : Nat) (x : Nat) : (s.useFreeN n).pipe x = s.pipe x := rfl
@[simp] theorem State.useFreeN_queue_of (s : State) (n : Nat) (x : Nat) : (s.useFreeN n).queue x = s.queue x := rfl
@[simp] theorem State.useFreeN_ch_of (s : State) (n : Nat) (x : Nat) : (s.useFreeN n).ch x = s.ch x := rfl
@[simp] theorem State.useFreeN_eng_of (s : State) (n : Nat) (x : Nat) : (s.useFreeN n).eng x = s.eng x := rfl
@[simp] theorem State.useFreeN_panel_of (s : State) (n : Nat) (x : Nat) : (s.useFreeN n).panel x = s.panel x := rfl
@[simp] theorem State.useFreeN_stream_of (s : State) (n : Nat) (x : Nat) : (s.useFreeN n).stream x = s.stream x := rfl
@[simp] theorem State.useFreeN_hap_of (s : State) (n : Nat) (x : Nat) : (s.useFreeN n).hap x = s.hap x := rfl
@[simp] theorem State.useFreeN_cap_of (s : State) (n : Nat) (x : Nat) : (s.useFreeN n).cap x = s.cap x := rfl
@[simp] theorem State.useFreeN_hart_of (s : State) (n : Nat) (x : Nat) : (s.useFreeN n).hart x = s.hart x := rfl
@[simp] theorem State.useFreeN_op_of (s : State) (n : Nat) (x : Nat) : (s.useFreeN n).op x = s.op x := rfl
@[simp] theorem State.useFreeN_rail_of (s : State) (n : Nat) (x : Nat) : (s.useFreeN n).rail x = s.rail x := rfl
@[simp] theorem State.useFreeN_stallState_of (s : State) (n : Nat) (x : Nat) : (s.useFreeN n).stallState x = s.stallState x := rfl
@[simp] theorem State.useFreeN_islandOn_of (s : State) (n : Nat) (x : Nat) : (s.useFreeN n).islandOn x = s.islandOn x := rfl
@[simp] theorem State.useFreeN_dstate_of (s : State) (n : Nat) : (s.useFreeN n).dstate = s.dstate := rfl
@[simp] theorem State.useFreeN_running_of (s : State) (n : Nat) : (s.useFreeN n).running = s.running := rfl
@[simp] theorem State.useFreeN_sramB_of (s : State) (n : Nat) (x : Nat) : (s.useFreeN n).sramB x = s.sramB x := rfl
@[simp] theorem State.useFreeN_dramB_of (s : State) (n : Nat) (x : Nat) : (s.useFreeN n).dramB x = s.dramB x := rfl
@[simp] theorem State.useFreeN_envB_of (s : State) (n : Nat) (x : Nat) : (s.useFreeN n).envB x = s.envB x := rfl

/-! begin -/
@[simp] theorem State.begin_regs (s : State) : (s.begin).regs = s.regs := rfl
@[simp] theorem State.begin_force (s : State) : (s.begin).force = s.force := rfl
@[simp] theorem State.begin_scan (s : State) : (s.begin).scan = s.scan := rfl
@[simp] theorem State.begin_live (s : State) : (s.begin).live = s.live := rfl
@[simp] theorem State.begin_agreed (s : State) : (s.begin).agreed = s.agreed := rfl
@[simp] theorem State.begin_heldLow (s : State) : (s.begin).heldLow = s.heldLow := rfl
@[simp] theorem State.begin_kevtHeld (s : State) : (s.begin).kevtHeld = s.kevtHeld := rfl
@[simp] theorem State.begin_kevq (s : State) : (s.begin).kevq = s.kevq := rfl
@[simp] theorem State.begin_vrecRead (s : State) : (s.begin).vrecRead = s.vrecRead := rfl
@[simp] theorem State.begin_frozen (s : State) : (s.begin).frozen = s.frozen := rfl
@[simp] theorem State.begin_sram (s : State) : (s.begin).sram = s.sram := rfl
@[simp] theorem State.begin_dram (s : State) : (s.begin).dram = s.dram := rfl
@[simp] theorem State.begin_ecc (s : State) : (s.begin).ecc = s.ecc := rfl
@[simp] theorem State.begin_tlb (s : State) : (s.begin).tlb = s.tlb := rfl
@[simp] theorem State.begin_env (s : State) : (s.begin).env = s.env := rfl
@[simp] theorem State.begin_tally (s : State) : (s.begin).tally = s.tally := rfl
@[simp] theorem State.begin_pipes (s : State) : (s.begin).pipes = s.pipes := rfl
@[simp] theorem State.begin_led (s : State) : (s.begin).led = s.led := rfl
@[simp] theorem State.begin_queues (s : State) : (s.begin).queues = s.queues := rfl
@[simp] theorem State.begin_admitted (s : State) : (s.begin).admitted = s.admitted := rfl
@[simp] theorem State.begin_gpu (s : State) : (s.begin).gpu = s.gpu := rfl
@[simp] theorem State.begin_dmCh (s : State) : (s.begin).dmCh = s.dmCh := rfl
@[simp] theorem State.begin_dmEng (s : State) : (s.begin).dmEng = s.dmEng := rfl
@[simp] theorem State.begin_squashed (s : State) : (s.begin).squashed = s.squashed := rfl
@[simp] theorem State.begin_clearing (s : State) : (s.begin).clearing = s.clearing := rfl
@[simp] theorem State.begin_boot (s : State) : (s.begin).boot = s.boot := rfl
@[simp] theorem State.begin_harts (s : State) : (s.begin).harts = s.harts := rfl
@[simp] theorem State.begin_keeperTrap (s : State) : (s.begin).keeperTrap = s.keeperTrap := rfl
@[simp] theorem State.begin_power (s : State) : (s.begin).power = s.power := rfl
@[simp] theorem State.begin_sm (s : State) : (s.begin).sm = s.sm := rfl
@[simp] theorem State.begin_mem (s : State) : (s.begin).mem = s.mem := rfl
@[simp] theorem State.begin_msr (s : State) : (s.begin).msr = s.msr := rfl
@[simp] theorem State.begin_nvm (s : State) : (s.begin).nvm = s.nvm := rfl
@[simp] theorem State.begin_panels (s : State) : (s.begin).panels = s.panels := rfl
@[simp] theorem State.begin_lineRuns (s : State) : (s.begin).lineRuns = s.lineRuns := rfl
@[simp] theorem State.begin_streams (s : State) : (s.begin).streams = s.streams := rfl
@[simp] theorem State.begin_haps (s : State) : (s.begin).haps = s.haps := rfl
@[simp] theorem State.begin_caps (s : State) : (s.begin).caps = s.caps := rfl
@[simp] theorem State.begin_mix (s : State) : (s.begin).mix = s.mix := rfl
@[simp] theorem State.begin_syncOut (s : State) : (s.begin).syncOut = s.syncOut := rfl
@[simp] theorem State.begin_syncIn (s : State) : (s.begin).syncIn = s.syncIn := rfl
@[simp] theorem State.begin_fresh (s : State) : (s.begin).fresh = s.fresh := rfl
@[simp] theorem State.begin_pending (s : State) : (s.begin).pending = s.pending := rfl
@[simp] theorem State.begin_rw_of (s : State) (x : Nat) : (s.begin).rw x = s.rw x := rfl
@[simp] theorem State.begin_rd_of (s : State) (x : Nat) (g : Fld) : (s.begin).rd x g = s.rd x g := rfl
@[simp] theorem State.begin_on_of (s : State) (x : Nat) (g : Fld) : (s.begin).on x g = s.on x g := rfl
@[simp] theorem State.begin_frw_of (s : State) (x : Nat) : (s.begin).frw x = s.frw x := rfl
@[simp] theorem State.begin_frd_of (s : State) (x : Nat) (g : Fld) : (s.begin).frd x g = s.frd x g := rfl
@[simp] theorem State.begin_srw_of (s : State) (x : Nat) : (s.begin).srw x = s.srw x := rfl
@[simp] theorem State.begin_srd_of (s : State) (x : Nat) (g : Fld) : (s.begin).srd x g = s.srd x g := rfl
@[simp] theorem State.begin_lv_of (s : State) (x : Nat) : (s.begin).lv x = s.lv x := rfl
@[simp] theorem State.begin_pipe_of (s : State) (x : Nat) : (s.begin).pipe x = s.pipe x := rfl
@[simp] theorem State.begin_queue_of (s : State) (x : Nat) : (s.begin).queue x = s.queue x := rfl
@[simp] theorem State.begin_ch_of (s : State) (x : Nat) : (s.begin).ch x = s.ch x := rfl
@[simp] theorem State.begin_eng_of (s : State) (x : Nat) : (s.begin).eng x = s.eng x := rfl
@[simp] theorem State.begin_panel_of (s : State) (x : Nat) : (s.begin).panel x = s.panel x := rfl
@[simp] theorem State.begin_stream_of (s : State) (x : Nat) : (s.begin).stream x = s.stream x := rfl
@[simp] theorem State.begin_hap_of (s : State) (x : Nat) : (s.begin).hap x = s.hap x := rfl
@[simp] theorem State.begin_cap_of (s : State) (x : Nat) : (s.begin).cap x = s.cap x := rfl
@[simp] theorem State.begin_hart_of (s : State) (x : Nat) : (s.begin).hart x = s.hart x := rfl
@[simp] theorem State.begin_op_of (s : State) (x : Nat) : (s.begin).op x = s.op x := rfl
@[simp] theorem State.begin_rail_of (s : State) (x : Nat) : (s.begin).rail x = s.rail x := rfl
@[simp] theorem State.begin_stallState_of (s : State) (x : Nat) : (s.begin).stallState x = s.stallState x := rfl
@[simp] theorem State.begin_islandOn_of (s : State) (x : Nat) : (s.begin).islandOn x = s.islandOn x := rfl
@[simp] theorem State.begin_dstate_of (s : State) : (s.begin).dstate = s.dstate := rfl
@[simp] theorem State.begin_running_of (s : State) : (s.begin).running = s.running := rfl
@[simp] theorem State.begin_sramB_of (s : State) (x : Nat) : (s.begin).sramB x = s.sramB x := rfl
@[simp] theorem State.begin_dramB_of (s : State) (x : Nat) : (s.begin).dramB x = s.dramB x := rfl
@[simp] theorem State.begin_envB_of (s : State) (x : Nat) : (s.begin).envB x = s.envB x := rfl
@[simp] theorem State.begin_free_of (s : State) : (s.begin).free = s.free := rfl

/-! answer -/
@[simp] theorem State.answer_regs (s : State) (r : Resp) : (s.answer r).regs = s.regs := rfl
@[simp] theorem State.answer_force (s : State) (r : Resp) : (s.answer r).force = s.force := rfl
@[simp] theorem State.answer_scan (s : State) (r : Resp) : (s.answer r).scan = s.scan := rfl
@[simp] theorem State.answer_live (s : State) (r : Resp) : (s.answer r).live = s.live := rfl
@[simp] theorem State.answer_agreed (s : State) (r : Resp) : (s.answer r).agreed = s.agreed := rfl
@[simp] theorem State.answer_heldLow (s : State) (r : Resp) : (s.answer r).heldLow = s.heldLow := rfl
@[simp] theorem State.answer_kevtHeld (s : State) (r : Resp) : (s.answer r).kevtHeld = s.kevtHeld := rfl
@[simp] theorem State.answer_kevq (s : State) (r : Resp) : (s.answer r).kevq = s.kevq := rfl
@[simp] theorem State.answer_vrecRead (s : State) (r : Resp) : (s.answer r).vrecRead = s.vrecRead := rfl
@[simp] theorem State.answer_frozen (s : State) (r : Resp) : (s.answer r).frozen = s.frozen := rfl
@[simp] theorem State.answer_sram (s : State) (r : Resp) : (s.answer r).sram = s.sram := rfl
@[simp] theorem State.answer_dram (s : State) (r : Resp) : (s.answer r).dram = s.dram := rfl
@[simp] theorem State.answer_ecc (s : State) (r : Resp) : (s.answer r).ecc = s.ecc := rfl
@[simp] theorem State.answer_tlb (s : State) (r : Resp) : (s.answer r).tlb = s.tlb := rfl
@[simp] theorem State.answer_env (s : State) (r : Resp) : (s.answer r).env = s.env := rfl
@[simp] theorem State.answer_tally (s : State) (r : Resp) : (s.answer r).tally = s.tally := rfl
@[simp] theorem State.answer_pipes (s : State) (r : Resp) : (s.answer r).pipes = s.pipes := rfl
@[simp] theorem State.answer_led (s : State) (r : Resp) : (s.answer r).led = s.led := rfl
@[simp] theorem State.answer_queues (s : State) (r : Resp) : (s.answer r).queues = s.queues := rfl
@[simp] theorem State.answer_admitted (s : State) (r : Resp) : (s.answer r).admitted = s.admitted := rfl
@[simp] theorem State.answer_gpu (s : State) (r : Resp) : (s.answer r).gpu = s.gpu := rfl
@[simp] theorem State.answer_dmCh (s : State) (r : Resp) : (s.answer r).dmCh = s.dmCh := rfl
@[simp] theorem State.answer_dmEng (s : State) (r : Resp) : (s.answer r).dmEng = s.dmEng := rfl
@[simp] theorem State.answer_squashed (s : State) (r : Resp) : (s.answer r).squashed = s.squashed := rfl
@[simp] theorem State.answer_clearing (s : State) (r : Resp) : (s.answer r).clearing = s.clearing := rfl
@[simp] theorem State.answer_boot (s : State) (r : Resp) : (s.answer r).boot = s.boot := rfl
@[simp] theorem State.answer_harts (s : State) (r : Resp) : (s.answer r).harts = s.harts := rfl
@[simp] theorem State.answer_keeperTrap (s : State) (r : Resp) : (s.answer r).keeperTrap = s.keeperTrap := rfl
@[simp] theorem State.answer_power (s : State) (r : Resp) : (s.answer r).power = s.power := rfl
@[simp] theorem State.answer_sm (s : State) (r : Resp) : (s.answer r).sm = s.sm := rfl
@[simp] theorem State.answer_mem (s : State) (r : Resp) : (s.answer r).mem = s.mem := rfl
@[simp] theorem State.answer_msr (s : State) (r : Resp) : (s.answer r).msr = s.msr := rfl
@[simp] theorem State.answer_nvm (s : State) (r : Resp) : (s.answer r).nvm = s.nvm := rfl
@[simp] theorem State.answer_panels (s : State) (r : Resp) : (s.answer r).panels = s.panels := rfl
@[simp] theorem State.answer_lineRuns (s : State) (r : Resp) : (s.answer r).lineRuns = s.lineRuns := rfl
@[simp] theorem State.answer_streams (s : State) (r : Resp) : (s.answer r).streams = s.streams := rfl
@[simp] theorem State.answer_haps (s : State) (r : Resp) : (s.answer r).haps = s.haps := rfl
@[simp] theorem State.answer_caps (s : State) (r : Resp) : (s.answer r).caps = s.caps := rfl
@[simp] theorem State.answer_mix (s : State) (r : Resp) : (s.answer r).mix = s.mix := rfl
@[simp] theorem State.answer_syncOut (s : State) (r : Resp) : (s.answer r).syncOut = s.syncOut := rfl
@[simp] theorem State.answer_syncIn (s : State) (r : Resp) : (s.answer r).syncIn = s.syncIn := rfl
@[simp] theorem State.answer_out (s : State) (r : Resp) : (s.answer r).out = s.out := rfl
@[simp] theorem State.answer_fresh (s : State) (r : Resp) : (s.answer r).fresh = s.fresh := rfl
@[simp] theorem State.answer_pending (s : State) (r : Resp) : (s.answer r).pending = s.pending := rfl
@[simp] theorem State.answer_rw_of (s : State) (r : Resp) (x : Nat) : (s.answer r).rw x = s.rw x := rfl
@[simp] theorem State.answer_rd_of (s : State) (r : Resp) (x : Nat) (g : Fld) : (s.answer r).rd x g = s.rd x g := rfl
@[simp] theorem State.answer_on_of (s : State) (r : Resp) (x : Nat) (g : Fld) : (s.answer r).on x g = s.on x g := rfl
@[simp] theorem State.answer_frw_of (s : State) (r : Resp) (x : Nat) : (s.answer r).frw x = s.frw x := rfl
@[simp] theorem State.answer_frd_of (s : State) (r : Resp) (x : Nat) (g : Fld) : (s.answer r).frd x g = s.frd x g := rfl
@[simp] theorem State.answer_srw_of (s : State) (r : Resp) (x : Nat) : (s.answer r).srw x = s.srw x := rfl
@[simp] theorem State.answer_srd_of (s : State) (r : Resp) (x : Nat) (g : Fld) : (s.answer r).srd x g = s.srd x g := rfl
@[simp] theorem State.answer_lv_of (s : State) (r : Resp) (x : Nat) : (s.answer r).lv x = s.lv x := rfl
@[simp] theorem State.answer_pipe_of (s : State) (r : Resp) (x : Nat) : (s.answer r).pipe x = s.pipe x := rfl
@[simp] theorem State.answer_queue_of (s : State) (r : Resp) (x : Nat) : (s.answer r).queue x = s.queue x := rfl
@[simp] theorem State.answer_ch_of (s : State) (r : Resp) (x : Nat) : (s.answer r).ch x = s.ch x := rfl
@[simp] theorem State.answer_eng_of (s : State) (r : Resp) (x : Nat) : (s.answer r).eng x = s.eng x := rfl
@[simp] theorem State.answer_panel_of (s : State) (r : Resp) (x : Nat) : (s.answer r).panel x = s.panel x := rfl
@[simp] theorem State.answer_stream_of (s : State) (r : Resp) (x : Nat) : (s.answer r).stream x = s.stream x := rfl
@[simp] theorem State.answer_hap_of (s : State) (r : Resp) (x : Nat) : (s.answer r).hap x = s.hap x := rfl
@[simp] theorem State.answer_cap_of (s : State) (r : Resp) (x : Nat) : (s.answer r).cap x = s.cap x := rfl
@[simp] theorem State.answer_hart_of (s : State) (r : Resp) (x : Nat) : (s.answer r).hart x = s.hart x := rfl
@[simp] theorem State.answer_op_of (s : State) (r : Resp) (x : Nat) : (s.answer r).op x = s.op x := rfl
@[simp] theorem State.answer_rail_of (s : State) (r : Resp) (x : Nat) : (s.answer r).rail x = s.rail x := rfl
@[simp] theorem State.answer_stallState_of (s : State) (r : Resp) (x : Nat) : (s.answer r).stallState x = s.stallState x := rfl
@[simp] theorem State.answer_islandOn_of (s : State) (r : Resp) (x : Nat) : (s.answer r).islandOn x = s.islandOn x := rfl
@[simp] theorem State.answer_dstate_of (s : State) (r : Resp) : (s.answer r).dstate = s.dstate := rfl
@[simp] theorem State.answer_running_of (s : State) (r : Resp) : (s.answer r).running = s.running := rfl
@[simp] theorem State.answer_sramB_of (s : State) (r : Resp) (x : Nat) : (s.answer r).sramB x = s.sramB x := rfl
@[simp] theorem State.answer_dramB_of (s : State) (r : Resp) (x : Nat) : (s.answer r).dramB x = s.dramB x := rfl
@[simp] theorem State.answer_envB_of (s : State) (r : Resp) (x : Nat) : (s.answer r).envB x = s.envB x := rfl
@[simp] theorem State.answer_free_of (s : State) (r : Resp) : (s.answer r).free = s.free := rfl

/-! modQueue -/
@[simp] theorem State.modQueue_regs (s : State) (q : Nat) (f : QueueSt → QueueSt) : (s.modQueue q f).regs = s.regs := rfl
@[simp] theorem State.modQueue_force (s : State) (q : Nat) (f : QueueSt → QueueSt) : (s.modQueue q f).force = s.force := rfl
@[simp] theorem State.modQueue_scan (s : State) (q : Nat) (f : QueueSt → QueueSt) : (s.modQueue q f).scan = s.scan := rfl
@[simp] theorem State.modQueue_live (s : State) (q : Nat) (f : QueueSt → QueueSt) : (s.modQueue q f).live = s.live := rfl
@[simp] theorem State.modQueue_agreed (s : State) (q : Nat) (f : QueueSt → QueueSt) : (s.modQueue q f).agreed = s.agreed := rfl
@[simp] theorem State.modQueue_heldLow (s : State) (q : Nat) (f : QueueSt → QueueSt) : (s.modQueue q f).heldLow = s.heldLow := rfl
@[simp] theorem State.modQueue_kevtHeld (s : State) (q : Nat) (f : QueueSt → QueueSt) : (s.modQueue q f).kevtHeld = s.kevtHeld := rfl
@[simp] theorem State.modQueue_kevq (s : State) (q : Nat) (f : QueueSt → QueueSt) : (s.modQueue q f).kevq = s.kevq := rfl
@[simp] theorem State.modQueue_vrecRead (s : State) (q : Nat) (f : QueueSt → QueueSt) : (s.modQueue q f).vrecRead = s.vrecRead := rfl
@[simp] theorem State.modQueue_frozen (s : State) (q : Nat) (f : QueueSt → QueueSt) : (s.modQueue q f).frozen = s.frozen := rfl
@[simp] theorem State.modQueue_sram (s : State) (q : Nat) (f : QueueSt → QueueSt) : (s.modQueue q f).sram = s.sram := rfl
@[simp] theorem State.modQueue_dram (s : State) (q : Nat) (f : QueueSt → QueueSt) : (s.modQueue q f).dram = s.dram := rfl
@[simp] theorem State.modQueue_ecc (s : State) (q : Nat) (f : QueueSt → QueueSt) : (s.modQueue q f).ecc = s.ecc := rfl
@[simp] theorem State.modQueue_tlb (s : State) (q : Nat) (f : QueueSt → QueueSt) : (s.modQueue q f).tlb = s.tlb := rfl
@[simp] theorem State.modQueue_env (s : State) (q : Nat) (f : QueueSt → QueueSt) : (s.modQueue q f).env = s.env := rfl
@[simp] theorem State.modQueue_tally (s : State) (q : Nat) (f : QueueSt → QueueSt) : (s.modQueue q f).tally = s.tally := rfl
@[simp] theorem State.modQueue_pipes (s : State) (q : Nat) (f : QueueSt → QueueSt) : (s.modQueue q f).pipes = s.pipes := rfl
@[simp] theorem State.modQueue_led (s : State) (q : Nat) (f : QueueSt → QueueSt) : (s.modQueue q f).led = s.led := rfl
@[simp] theorem State.modQueue_admitted (s : State) (q : Nat) (f : QueueSt → QueueSt) : (s.modQueue q f).admitted = s.admitted := rfl
@[simp] theorem State.modQueue_gpu (s : State) (q : Nat) (f : QueueSt → QueueSt) : (s.modQueue q f).gpu = s.gpu := rfl
@[simp] theorem State.modQueue_dmCh (s : State) (q : Nat) (f : QueueSt → QueueSt) : (s.modQueue q f).dmCh = s.dmCh := rfl
@[simp] theorem State.modQueue_dmEng (s : State) (q : Nat) (f : QueueSt → QueueSt) : (s.modQueue q f).dmEng = s.dmEng := rfl
@[simp] theorem State.modQueue_squashed (s : State) (q : Nat) (f : QueueSt → QueueSt) : (s.modQueue q f).squashed = s.squashed := rfl
@[simp] theorem State.modQueue_clearing (s : State) (q : Nat) (f : QueueSt → QueueSt) : (s.modQueue q f).clearing = s.clearing := rfl
@[simp] theorem State.modQueue_boot (s : State) (q : Nat) (f : QueueSt → QueueSt) : (s.modQueue q f).boot = s.boot := rfl
@[simp] theorem State.modQueue_harts (s : State) (q : Nat) (f : QueueSt → QueueSt) : (s.modQueue q f).harts = s.harts := rfl
@[simp] theorem State.modQueue_keeperTrap (s : State) (q : Nat) (f : QueueSt → QueueSt) : (s.modQueue q f).keeperTrap = s.keeperTrap := rfl
@[simp] theorem State.modQueue_power (s : State) (q : Nat) (f : QueueSt → QueueSt) : (s.modQueue q f).power = s.power := rfl
@[simp] theorem State.modQueue_sm (s : State) (q : Nat) (f : QueueSt → QueueSt) : (s.modQueue q f).sm = s.sm := rfl
@[simp] theorem State.modQueue_mem (s : State) (q : Nat) (f : QueueSt → QueueSt) : (s.modQueue q f).mem = s.mem := rfl
@[simp] theorem State.modQueue_msr (s : State) (q : Nat) (f : QueueSt → QueueSt) : (s.modQueue q f).msr = s.msr := rfl
@[simp] theorem State.modQueue_nvm (s : State) (q : Nat) (f : QueueSt → QueueSt) : (s.modQueue q f).nvm = s.nvm := rfl
@[simp] theorem State.modQueue_panels (s : State) (q : Nat) (f : QueueSt → QueueSt) : (s.modQueue q f).panels = s.panels := rfl
@[simp] theorem State.modQueue_lineRuns (s : State) (q : Nat) (f : QueueSt → QueueSt) : (s.modQueue q f).lineRuns = s.lineRuns := rfl
@[simp] theorem State.modQueue_streams (s : State) (q : Nat) (f : QueueSt → QueueSt) : (s.modQueue q f).streams = s.streams := rfl
@[simp] theorem State.modQueue_haps (s : State) (q : Nat) (f : QueueSt → QueueSt) : (s.modQueue q f).haps = s.haps := rfl
@[simp] theorem State.modQueue_caps (s : State) (q : Nat) (f : QueueSt → QueueSt) : (s.modQueue q f).caps = s.caps := rfl
@[simp] theorem State.modQueue_mix (s : State) (q : Nat) (f : QueueSt → QueueSt) : (s.modQueue q f).mix = s.mix := rfl
@[simp] theorem State.modQueue_syncOut (s : State) (q : Nat) (f : QueueSt → QueueSt) : (s.modQueue q f).syncOut = s.syncOut := rfl
@[simp] theorem State.modQueue_syncIn (s : State) (q : Nat) (f : QueueSt → QueueSt) : (s.modQueue q f).syncIn = s.syncIn := rfl
@[simp] theorem State.modQueue_resp (s : State) (q : Nat) (f : QueueSt → QueueSt) : (s.modQueue q f).resp = s.resp := rfl
@[simp] theorem State.modQueue_out (s : State) (q : Nat) (f : QueueSt → QueueSt) : (s.modQueue q f).out = s.out := rfl
@[simp] theorem State.modQueue_fresh (s : State) (q : Nat) (f : QueueSt → QueueSt) : (s.modQueue q f).fresh = s.fresh := rfl
@[simp] theorem State.modQueue_pending (s : State) (q : Nat) (f : QueueSt → QueueSt) : (s.modQueue q f).pending = s.pending := rfl
@[simp] theorem State.modQueue_rw_of (s : State) (q : Nat) (f : QueueSt → QueueSt) (x : Nat) : (s.modQueue q f).rw x = s.rw x := rfl
@[simp] theorem State.modQueue_rd_of (s : State) (q : Nat) (f : QueueSt → QueueSt) (x : Nat) (g : Fld) : (s.modQueue q f).rd x g = s.rd x g := rfl
@[simp] theorem State.modQueue_on_of (s : State) (q : Nat) (f : QueueSt → QueueSt) (x : Nat) (g : Fld) : (s.modQueue q f).on x g = s.on x g := rfl
@[simp] theorem State.modQueue_frw_of (s : State) (q : Nat) (f : QueueSt → QueueSt) (x : Nat) : (s.modQueue q f).frw x = s.frw x := rfl
@[simp] theorem State.modQueue_frd_of (s : State) (q : Nat) (f : QueueSt → QueueSt) (x : Nat) (g : Fld) : (s.modQueue q f).frd x g = s.frd x g := rfl
@[simp] theorem State.modQueue_srw_of (s : State) (q : Nat) (f : QueueSt → QueueSt) (x : Nat) : (s.modQueue q f).srw x = s.srw x := rfl
@[simp] theorem State.modQueue_srd_of (s : State) (q : Nat) (f : QueueSt → QueueSt) (x : Nat) (g : Fld) : (s.modQueue q f).srd x g = s.srd x g := rfl
@[simp] theorem State.modQueue_lv_of (s : State) (q : Nat) (f : QueueSt → QueueSt) (x : Nat) : (s.modQueue q f).lv x = s.lv x := rfl
@[simp] theorem State.modQueue_pipe_of (s : State) (q : Nat) (f : QueueSt → QueueSt) (x : Nat) : (s.modQueue q f).pipe x = s.pipe x := rfl
@[simp] theorem State.modQueue_ch_of (s : State) (q : Nat) (f : QueueSt → QueueSt) (x : Nat) : (s.modQueue q f).ch x = s.ch x := rfl
@[simp] theorem State.modQueue_eng_of (s : State) (q : Nat) (f : QueueSt → QueueSt) (x : Nat) : (s.modQueue q f).eng x = s.eng x := rfl
@[simp] theorem State.modQueue_panel_of (s : State) (q : Nat) (f : QueueSt → QueueSt) (x : Nat) : (s.modQueue q f).panel x = s.panel x := rfl
@[simp] theorem State.modQueue_stream_of (s : State) (q : Nat) (f : QueueSt → QueueSt) (x : Nat) : (s.modQueue q f).stream x = s.stream x := rfl
@[simp] theorem State.modQueue_hap_of (s : State) (q : Nat) (f : QueueSt → QueueSt) (x : Nat) : (s.modQueue q f).hap x = s.hap x := rfl
@[simp] theorem State.modQueue_cap_of (s : State) (q : Nat) (f : QueueSt → QueueSt) (x : Nat) : (s.modQueue q f).cap x = s.cap x := rfl
@[simp] theorem State.modQueue_hart_of (s : State) (q : Nat) (f : QueueSt → QueueSt) (x : Nat) : (s.modQueue q f).hart x = s.hart x := rfl
@[simp] theorem State.modQueue_op_of (s : State) (q : Nat) (f : QueueSt → QueueSt) (x : Nat) : (s.modQueue q f).op x = s.op x := rfl
@[simp] theorem State.modQueue_rail_of (s : State) (q : Nat) (f : QueueSt → QueueSt) (x : Nat) : (s.modQueue q f).rail x = s.rail x := rfl
@[simp] theorem State.modQueue_stallState_of (s : State) (q : Nat) (f : QueueSt → QueueSt) (x : Nat) : (s.modQueue q f).stallState x = s.stallState x := rfl
@[simp] theorem State.modQueue_islandOn_of (s : State) (q : Nat) (f : QueueSt → QueueSt) (x : Nat) : (s.modQueue q f).islandOn x = s.islandOn x := rfl
@[simp] theorem State.modQueue_dstate_of (s : State) (q : Nat) (f : QueueSt → QueueSt) : (s.modQueue q f).dstate = s.dstate := rfl
@[simp] theorem State.modQueue_running_of (s : State) (q : Nat) (f : QueueSt → QueueSt) : (s.modQueue q f).running = s.running := rfl
@[simp] theorem State.modQueue_sramB_of (s : State) (q : Nat) (f : QueueSt → QueueSt) (x : Nat) : (s.modQueue q f).sramB x = s.sramB x := rfl
@[simp] theorem State.modQueue_dramB_of (s : State) (q : Nat) (f : QueueSt → QueueSt) (x : Nat) : (s.modQueue q f).dramB x = s.dramB x := rfl
@[simp] theorem State.modQueue_envB_of (s : State) (q : Nat) (f : QueueSt → QueueSt) (x : Nat) : (s.modQueue q f).envB x = s.envB x := rfl
@[simp] theorem State.modQueue_free_of (s : State) (q : Nat) (f : QueueSt → QueueSt) : (s.modQueue q f).free = s.free := rfl

/-! modPipe -/
@[simp] theorem State.modPipe_regs (s : State) (p : Nat) (f : PipeSt → PipeSt) : (s.modPipe p f).regs = s.regs := rfl
@[simp] theorem State.modPipe_force (s : State) (p : Nat) (f : PipeSt → PipeSt) : (s.modPipe p f).force = s.force := rfl
@[simp] theorem State.modPipe_scan (s : State) (p : Nat) (f : PipeSt → PipeSt) : (s.modPipe p f).scan = s.scan := rfl
@[simp] theorem State.modPipe_live (s : State) (p : Nat) (f : PipeSt → PipeSt) : (s.modPipe p f).live = s.live := rfl
@[simp] theorem State.modPipe_agreed (s : State) (p : Nat) (f : PipeSt → PipeSt) : (s.modPipe p f).agreed = s.agreed := rfl
@[simp] theorem State.modPipe_heldLow (s : State) (p : Nat) (f : PipeSt → PipeSt) : (s.modPipe p f).heldLow = s.heldLow := rfl
@[simp] theorem State.modPipe_kevtHeld (s : State) (p : Nat) (f : PipeSt → PipeSt) : (s.modPipe p f).kevtHeld = s.kevtHeld := rfl
@[simp] theorem State.modPipe_kevq (s : State) (p : Nat) (f : PipeSt → PipeSt) : (s.modPipe p f).kevq = s.kevq := rfl
@[simp] theorem State.modPipe_vrecRead (s : State) (p : Nat) (f : PipeSt → PipeSt) : (s.modPipe p f).vrecRead = s.vrecRead := rfl
@[simp] theorem State.modPipe_frozen (s : State) (p : Nat) (f : PipeSt → PipeSt) : (s.modPipe p f).frozen = s.frozen := rfl
@[simp] theorem State.modPipe_sram (s : State) (p : Nat) (f : PipeSt → PipeSt) : (s.modPipe p f).sram = s.sram := rfl
@[simp] theorem State.modPipe_dram (s : State) (p : Nat) (f : PipeSt → PipeSt) : (s.modPipe p f).dram = s.dram := rfl
@[simp] theorem State.modPipe_ecc (s : State) (p : Nat) (f : PipeSt → PipeSt) : (s.modPipe p f).ecc = s.ecc := rfl
@[simp] theorem State.modPipe_tlb (s : State) (p : Nat) (f : PipeSt → PipeSt) : (s.modPipe p f).tlb = s.tlb := rfl
@[simp] theorem State.modPipe_env (s : State) (p : Nat) (f : PipeSt → PipeSt) : (s.modPipe p f).env = s.env := rfl
@[simp] theorem State.modPipe_tally (s : State) (p : Nat) (f : PipeSt → PipeSt) : (s.modPipe p f).tally = s.tally := rfl
@[simp] theorem State.modPipe_led (s : State) (p : Nat) (f : PipeSt → PipeSt) : (s.modPipe p f).led = s.led := rfl
@[simp] theorem State.modPipe_queues (s : State) (p : Nat) (f : PipeSt → PipeSt) : (s.modPipe p f).queues = s.queues := rfl
@[simp] theorem State.modPipe_admitted (s : State) (p : Nat) (f : PipeSt → PipeSt) : (s.modPipe p f).admitted = s.admitted := rfl
@[simp] theorem State.modPipe_gpu (s : State) (p : Nat) (f : PipeSt → PipeSt) : (s.modPipe p f).gpu = s.gpu := rfl
@[simp] theorem State.modPipe_dmCh (s : State) (p : Nat) (f : PipeSt → PipeSt) : (s.modPipe p f).dmCh = s.dmCh := rfl
@[simp] theorem State.modPipe_dmEng (s : State) (p : Nat) (f : PipeSt → PipeSt) : (s.modPipe p f).dmEng = s.dmEng := rfl
@[simp] theorem State.modPipe_squashed (s : State) (p : Nat) (f : PipeSt → PipeSt) : (s.modPipe p f).squashed = s.squashed := rfl
@[simp] theorem State.modPipe_clearing (s : State) (p : Nat) (f : PipeSt → PipeSt) : (s.modPipe p f).clearing = s.clearing := rfl
@[simp] theorem State.modPipe_boot (s : State) (p : Nat) (f : PipeSt → PipeSt) : (s.modPipe p f).boot = s.boot := rfl
@[simp] theorem State.modPipe_harts (s : State) (p : Nat) (f : PipeSt → PipeSt) : (s.modPipe p f).harts = s.harts := rfl
@[simp] theorem State.modPipe_keeperTrap (s : State) (p : Nat) (f : PipeSt → PipeSt) : (s.modPipe p f).keeperTrap = s.keeperTrap := rfl
@[simp] theorem State.modPipe_power (s : State) (p : Nat) (f : PipeSt → PipeSt) : (s.modPipe p f).power = s.power := rfl
@[simp] theorem State.modPipe_sm (s : State) (p : Nat) (f : PipeSt → PipeSt) : (s.modPipe p f).sm = s.sm := rfl
@[simp] theorem State.modPipe_mem (s : State) (p : Nat) (f : PipeSt → PipeSt) : (s.modPipe p f).mem = s.mem := rfl
@[simp] theorem State.modPipe_msr (s : State) (p : Nat) (f : PipeSt → PipeSt) : (s.modPipe p f).msr = s.msr := rfl
@[simp] theorem State.modPipe_nvm (s : State) (p : Nat) (f : PipeSt → PipeSt) : (s.modPipe p f).nvm = s.nvm := rfl
@[simp] theorem State.modPipe_panels (s : State) (p : Nat) (f : PipeSt → PipeSt) : (s.modPipe p f).panels = s.panels := rfl
@[simp] theorem State.modPipe_lineRuns (s : State) (p : Nat) (f : PipeSt → PipeSt) : (s.modPipe p f).lineRuns = s.lineRuns := rfl
@[simp] theorem State.modPipe_streams (s : State) (p : Nat) (f : PipeSt → PipeSt) : (s.modPipe p f).streams = s.streams := rfl
@[simp] theorem State.modPipe_haps (s : State) (p : Nat) (f : PipeSt → PipeSt) : (s.modPipe p f).haps = s.haps := rfl
@[simp] theorem State.modPipe_caps (s : State) (p : Nat) (f : PipeSt → PipeSt) : (s.modPipe p f).caps = s.caps := rfl
@[simp] theorem State.modPipe_mix (s : State) (p : Nat) (f : PipeSt → PipeSt) : (s.modPipe p f).mix = s.mix := rfl
@[simp] theorem State.modPipe_syncOut (s : State) (p : Nat) (f : PipeSt → PipeSt) : (s.modPipe p f).syncOut = s.syncOut := rfl
@[simp] theorem State.modPipe_syncIn (s : State) (p : Nat) (f : PipeSt → PipeSt) : (s.modPipe p f).syncIn = s.syncIn := rfl
@[simp] theorem State.modPipe_resp (s : State) (p : Nat) (f : PipeSt → PipeSt) : (s.modPipe p f).resp = s.resp := rfl
@[simp] theorem State.modPipe_out (s : State) (p : Nat) (f : PipeSt → PipeSt) : (s.modPipe p f).out = s.out := rfl
@[simp] theorem State.modPipe_fresh (s : State) (p : Nat) (f : PipeSt → PipeSt) : (s.modPipe p f).fresh = s.fresh := rfl
@[simp] theorem State.modPipe_pending (s : State) (p : Nat) (f : PipeSt → PipeSt) : (s.modPipe p f).pending = s.pending := rfl
@[simp] theorem State.modPipe_rw_of (s : State) (p : Nat) (f : PipeSt → PipeSt) (x : Nat) : (s.modPipe p f).rw x = s.rw x := rfl
@[simp] theorem State.modPipe_rd_of (s : State) (p : Nat) (f : PipeSt → PipeSt) (x : Nat) (g : Fld) : (s.modPipe p f).rd x g = s.rd x g := rfl
@[simp] theorem State.modPipe_on_of (s : State) (p : Nat) (f : PipeSt → PipeSt) (x : Nat) (g : Fld) : (s.modPipe p f).on x g = s.on x g := rfl
@[simp] theorem State.modPipe_frw_of (s : State) (p : Nat) (f : PipeSt → PipeSt) (x : Nat) : (s.modPipe p f).frw x = s.frw x := rfl
@[simp] theorem State.modPipe_frd_of (s : State) (p : Nat) (f : PipeSt → PipeSt) (x : Nat) (g : Fld) : (s.modPipe p f).frd x g = s.frd x g := rfl
@[simp] theorem State.modPipe_srw_of (s : State) (p : Nat) (f : PipeSt → PipeSt) (x : Nat) : (s.modPipe p f).srw x = s.srw x := rfl
@[simp] theorem State.modPipe_srd_of (s : State) (p : Nat) (f : PipeSt → PipeSt) (x : Nat) (g : Fld) : (s.modPipe p f).srd x g = s.srd x g := rfl
@[simp] theorem State.modPipe_lv_of (s : State) (p : Nat) (f : PipeSt → PipeSt) (x : Nat) : (s.modPipe p f).lv x = s.lv x := rfl
@[simp] theorem State.modPipe_queue_of (s : State) (p : Nat) (f : PipeSt → PipeSt) (x : Nat) : (s.modPipe p f).queue x = s.queue x := rfl
@[simp] theorem State.modPipe_ch_of (s : State) (p : Nat) (f : PipeSt → PipeSt) (x : Nat) : (s.modPipe p f).ch x = s.ch x := rfl
@[simp] theorem State.modPipe_eng_of (s : State) (p : Nat) (f : PipeSt → PipeSt) (x : Nat) : (s.modPipe p f).eng x = s.eng x := rfl
@[simp] theorem State.modPipe_panel_of (s : State) (p : Nat) (f : PipeSt → PipeSt) (x : Nat) : (s.modPipe p f).panel x = s.panel x := rfl
@[simp] theorem State.modPipe_stream_of (s : State) (p : Nat) (f : PipeSt → PipeSt) (x : Nat) : (s.modPipe p f).stream x = s.stream x := rfl
@[simp] theorem State.modPipe_hap_of (s : State) (p : Nat) (f : PipeSt → PipeSt) (x : Nat) : (s.modPipe p f).hap x = s.hap x := rfl
@[simp] theorem State.modPipe_cap_of (s : State) (p : Nat) (f : PipeSt → PipeSt) (x : Nat) : (s.modPipe p f).cap x = s.cap x := rfl
@[simp] theorem State.modPipe_hart_of (s : State) (p : Nat) (f : PipeSt → PipeSt) (x : Nat) : (s.modPipe p f).hart x = s.hart x := rfl
@[simp] theorem State.modPipe_op_of (s : State) (p : Nat) (f : PipeSt → PipeSt) (x : Nat) : (s.modPipe p f).op x = s.op x := rfl
@[simp] theorem State.modPipe_rail_of (s : State) (p : Nat) (f : PipeSt → PipeSt) (x : Nat) : (s.modPipe p f).rail x = s.rail x := rfl
@[simp] theorem State.modPipe_stallState_of (s : State) (p : Nat) (f : PipeSt → PipeSt) (x : Nat) : (s.modPipe p f).stallState x = s.stallState x := rfl
@[simp] theorem State.modPipe_islandOn_of (s : State) (p : Nat) (f : PipeSt → PipeSt) (x : Nat) : (s.modPipe p f).islandOn x = s.islandOn x := rfl
@[simp] theorem State.modPipe_dstate_of (s : State) (p : Nat) (f : PipeSt → PipeSt) : (s.modPipe p f).dstate = s.dstate := rfl
@[simp] theorem State.modPipe_running_of (s : State) (p : Nat) (f : PipeSt → PipeSt) : (s.modPipe p f).running = s.running := rfl
@[simp] theorem State.modPipe_sramB_of (s : State) (p : Nat) (f : PipeSt → PipeSt) (x : Nat) : (s.modPipe p f).sramB x = s.sramB x := rfl
@[simp] theorem State.modPipe_dramB_of (s : State) (p : Nat) (f : PipeSt → PipeSt) (x : Nat) : (s.modPipe p f).dramB x = s.dramB x := rfl
@[simp] theorem State.modPipe_envB_of (s : State) (p : Nat) (f : PipeSt → PipeSt) (x : Nat) : (s.modPipe p f).envB x = s.envB x := rfl
@[simp] theorem State.modPipe_free_of (s : State) (p : Nat) (f : PipeSt → PipeSt) : (s.modPipe p f).free = s.free := rfl

/-! modLay -/
@[simp] theorem State.modLay_regs (s : State) (p m : Nat) (f : LaySt → LaySt) : (s.modLay p m f).regs = s.regs := rfl
@[simp] theorem State.modLay_force (s : State) (p m : Nat) (f : LaySt → LaySt) : (s.modLay p m f).force = s.force := rfl
@[simp] theorem State.modLay_scan (s : State) (p m : Nat) (f : LaySt → LaySt) : (s.modLay p m f).scan = s.scan := rfl
@[simp] theorem State.modLay_live (s : State) (p m : Nat) (f : LaySt → LaySt) : (s.modLay p m f).live = s.live := rfl
@[simp] theorem State.modLay_agreed (s : State) (p m : Nat) (f : LaySt → LaySt) : (s.modLay p m f).agreed = s.agreed := rfl
@[simp] theorem State.modLay_heldLow (s : State) (p m : Nat) (f : LaySt → LaySt) : (s.modLay p m f).heldLow = s.heldLow := rfl
@[simp] theorem State.modLay_kevtHeld (s : State) (p m : Nat) (f : LaySt → LaySt) : (s.modLay p m f).kevtHeld = s.kevtHeld := rfl
@[simp] theorem State.modLay_kevq (s : State) (p m : Nat) (f : LaySt → LaySt) : (s.modLay p m f).kevq = s.kevq := rfl
@[simp] theorem State.modLay_vrecRead (s : State) (p m : Nat) (f : LaySt → LaySt) : (s.modLay p m f).vrecRead = s.vrecRead := rfl
@[simp] theorem State.modLay_frozen (s : State) (p m : Nat) (f : LaySt → LaySt) : (s.modLay p m f).frozen = s.frozen := rfl
@[simp] theorem State.modLay_sram (s : State) (p m : Nat) (f : LaySt → LaySt) : (s.modLay p m f).sram = s.sram := rfl
@[simp] theorem State.modLay_dram (s : State) (p m : Nat) (f : LaySt → LaySt) : (s.modLay p m f).dram = s.dram := rfl
@[simp] theorem State.modLay_ecc (s : State) (p m : Nat) (f : LaySt → LaySt) : (s.modLay p m f).ecc = s.ecc := rfl
@[simp] theorem State.modLay_tlb (s : State) (p m : Nat) (f : LaySt → LaySt) : (s.modLay p m f).tlb = s.tlb := rfl
@[simp] theorem State.modLay_env (s : State) (p m : Nat) (f : LaySt → LaySt) : (s.modLay p m f).env = s.env := rfl
@[simp] theorem State.modLay_tally (s : State) (p m : Nat) (f : LaySt → LaySt) : (s.modLay p m f).tally = s.tally := rfl
@[simp] theorem State.modLay_led (s : State) (p m : Nat) (f : LaySt → LaySt) : (s.modLay p m f).led = s.led := rfl
@[simp] theorem State.modLay_queues (s : State) (p m : Nat) (f : LaySt → LaySt) : (s.modLay p m f).queues = s.queues := rfl
@[simp] theorem State.modLay_admitted (s : State) (p m : Nat) (f : LaySt → LaySt) : (s.modLay p m f).admitted = s.admitted := rfl
@[simp] theorem State.modLay_gpu (s : State) (p m : Nat) (f : LaySt → LaySt) : (s.modLay p m f).gpu = s.gpu := rfl
@[simp] theorem State.modLay_dmCh (s : State) (p m : Nat) (f : LaySt → LaySt) : (s.modLay p m f).dmCh = s.dmCh := rfl
@[simp] theorem State.modLay_dmEng (s : State) (p m : Nat) (f : LaySt → LaySt) : (s.modLay p m f).dmEng = s.dmEng := rfl
@[simp] theorem State.modLay_squashed (s : State) (p m : Nat) (f : LaySt → LaySt) : (s.modLay p m f).squashed = s.squashed := rfl
@[simp] theorem State.modLay_clearing (s : State) (p m : Nat) (f : LaySt → LaySt) : (s.modLay p m f).clearing = s.clearing := rfl
@[simp] theorem State.modLay_boot (s : State) (p m : Nat) (f : LaySt → LaySt) : (s.modLay p m f).boot = s.boot := rfl
@[simp] theorem State.modLay_harts (s : State) (p m : Nat) (f : LaySt → LaySt) : (s.modLay p m f).harts = s.harts := rfl
@[simp] theorem State.modLay_keeperTrap (s : State) (p m : Nat) (f : LaySt → LaySt) : (s.modLay p m f).keeperTrap = s.keeperTrap := rfl
@[simp] theorem State.modLay_power (s : State) (p m : Nat) (f : LaySt → LaySt) : (s.modLay p m f).power = s.power := rfl
@[simp] theorem State.modLay_sm (s : State) (p m : Nat) (f : LaySt → LaySt) : (s.modLay p m f).sm = s.sm := rfl
@[simp] theorem State.modLay_mem (s : State) (p m : Nat) (f : LaySt → LaySt) : (s.modLay p m f).mem = s.mem := rfl
@[simp] theorem State.modLay_msr (s : State) (p m : Nat) (f : LaySt → LaySt) : (s.modLay p m f).msr = s.msr := rfl
@[simp] theorem State.modLay_nvm (s : State) (p m : Nat) (f : LaySt → LaySt) : (s.modLay p m f).nvm = s.nvm := rfl
@[simp] theorem State.modLay_panels (s : State) (p m : Nat) (f : LaySt → LaySt) : (s.modLay p m f).panels = s.panels := rfl
@[simp] theorem State.modLay_lineRuns (s : State) (p m : Nat) (f : LaySt → LaySt) : (s.modLay p m f).lineRuns = s.lineRuns := rfl
@[simp] theorem State.modLay_streams (s : State) (p m : Nat) (f : LaySt → LaySt) : (s.modLay p m f).streams = s.streams := rfl
@[simp] theorem State.modLay_haps (s : State) (p m : Nat) (f : LaySt → LaySt) : (s.modLay p m f).haps = s.haps := rfl
@[simp] theorem State.modLay_caps (s : State) (p m : Nat) (f : LaySt → LaySt) : (s.modLay p m f).caps = s.caps := rfl
@[simp] theorem State.modLay_mix (s : State) (p m : Nat) (f : LaySt → LaySt) : (s.modLay p m f).mix = s.mix := rfl
@[simp] theorem State.modLay_syncOut (s : State) (p m : Nat) (f : LaySt → LaySt) : (s.modLay p m f).syncOut = s.syncOut := rfl
@[simp] theorem State.modLay_syncIn (s : State) (p m : Nat) (f : LaySt → LaySt) : (s.modLay p m f).syncIn = s.syncIn := rfl
@[simp] theorem State.modLay_resp (s : State) (p m : Nat) (f : LaySt → LaySt) : (s.modLay p m f).resp = s.resp := rfl
@[simp] theorem State.modLay_out (s : State) (p m : Nat) (f : LaySt → LaySt) : (s.modLay p m f).out = s.out := rfl
@[simp] theorem State.modLay_fresh (s : State) (p m : Nat) (f : LaySt → LaySt) : (s.modLay p m f).fresh = s.fresh := rfl
@[simp] theorem State.modLay_pending (s : State) (p m : Nat) (f : LaySt → LaySt) : (s.modLay p m f).pending = s.pending := rfl
@[simp] theorem State.modLay_rw_of (s : State) (p m : Nat) (f : LaySt → LaySt) (x : Nat) : (s.modLay p m f).rw x = s.rw x := rfl
@[simp] theorem State.modLay_rd_of (s : State) (p m : Nat) (f : LaySt → LaySt) (x : Nat) (g : Fld) : (s.modLay p m f).rd x g = s.rd x g := rfl
@[simp] theorem State.modLay_on_of (s : State) (p m : Nat) (f : LaySt → LaySt) (x : Nat) (g : Fld) : (s.modLay p m f).on x g = s.on x g := rfl
@[simp] theorem State.modLay_frw_of (s : State) (p m : Nat) (f : LaySt → LaySt) (x : Nat) : (s.modLay p m f).frw x = s.frw x := rfl
@[simp] theorem State.modLay_frd_of (s : State) (p m : Nat) (f : LaySt → LaySt) (x : Nat) (g : Fld) : (s.modLay p m f).frd x g = s.frd x g := rfl
@[simp] theorem State.modLay_srw_of (s : State) (p m : Nat) (f : LaySt → LaySt) (x : Nat) : (s.modLay p m f).srw x = s.srw x := rfl
@[simp] theorem State.modLay_srd_of (s : State) (p m : Nat) (f : LaySt → LaySt) (x : Nat) (g : Fld) : (s.modLay p m f).srd x g = s.srd x g := rfl
@[simp] theorem State.modLay_lv_of (s : State) (p m : Nat) (f : LaySt → LaySt) (x : Nat) : (s.modLay p m f).lv x = s.lv x := rfl
@[simp] theorem State.modLay_queue_of (s : State) (p m : Nat) (f : LaySt → LaySt) (x : Nat) : (s.modLay p m f).queue x = s.queue x := rfl
@[simp] theorem State.modLay_ch_of (s : State) (p m : Nat) (f : LaySt → LaySt) (x : Nat) : (s.modLay p m f).ch x = s.ch x := rfl
@[simp] theorem State.modLay_eng_of (s : State) (p m : Nat) (f : LaySt → LaySt) (x : Nat) : (s.modLay p m f).eng x = s.eng x := rfl
@[simp] theorem State.modLay_panel_of (s : State) (p m : Nat) (f : LaySt → LaySt) (x : Nat) : (s.modLay p m f).panel x = s.panel x := rfl
@[simp] theorem State.modLay_stream_of (s : State) (p m : Nat) (f : LaySt → LaySt) (x : Nat) : (s.modLay p m f).stream x = s.stream x := rfl
@[simp] theorem State.modLay_hap_of (s : State) (p m : Nat) (f : LaySt → LaySt) (x : Nat) : (s.modLay p m f).hap x = s.hap x := rfl
@[simp] theorem State.modLay_cap_of (s : State) (p m : Nat) (f : LaySt → LaySt) (x : Nat) : (s.modLay p m f).cap x = s.cap x := rfl
@[simp] theorem State.modLay_hart_of (s : State) (p m : Nat) (f : LaySt → LaySt) (x : Nat) : (s.modLay p m f).hart x = s.hart x := rfl
@[simp] theorem State.modLay_op_of (s : State) (p m : Nat) (f : LaySt → LaySt) (x : Nat) : (s.modLay p m f).op x = s.op x := rfl
@[simp] theorem State.modLay_rail_of (s : State) (p m : Nat) (f : LaySt → LaySt) (x : Nat) : (s.modLay p m f).rail x = s.rail x := rfl
@[simp] theorem State.modLay_stallState_of (s : State) (p m : Nat) (f : LaySt → LaySt) (x : Nat) : (s.modLay p m f).stallState x = s.stallState x := rfl
@[simp] theorem State.modLay_islandOn_of (s : State) (p m : Nat) (f : LaySt → LaySt) (x : Nat) : (s.modLay p m f).islandOn x = s.islandOn x := rfl
@[simp] theorem State.modLay_dstate_of (s : State) (p m : Nat) (f : LaySt → LaySt) : (s.modLay p m f).dstate = s.dstate := rfl
@[simp] theorem State.modLay_running_of (s : State) (p m : Nat) (f : LaySt → LaySt) : (s.modLay p m f).running = s.running := rfl
@[simp] theorem State.modLay_sramB_of (s : State) (p m : Nat) (f : LaySt → LaySt) (x : Nat) : (s.modLay p m f).sramB x = s.sramB x := rfl
@[simp] theorem State.modLay_dramB_of (s : State) (p m : Nat) (f : LaySt → LaySt) (x : Nat) : (s.modLay p m f).dramB x = s.dramB x := rfl
@[simp] theorem State.modLay_envB_of (s : State) (p m : Nat) (f : LaySt → LaySt) (x : Nat) : (s.modLay p m f).envB x = s.envB x := rfl
@[simp] theorem State.modLay_free_of (s : State) (p m : Nat) (f : LaySt → LaySt) : (s.modLay p m f).free = s.free := rfl

/-! modPitch -/
@[simp] theorem State.modPitch_regs (s : State) (p k : Nat) (f : PitchSt → PitchSt) : (s.modPitch p k f).regs = s.regs := rfl
@[simp] theorem State.modPitch_force (s : State) (p k : Nat) (f : PitchSt → PitchSt) : (s.modPitch p k f).force = s.force := rfl
@[simp] theorem State.modPitch_scan (s : State) (p k : Nat) (f : PitchSt → PitchSt) : (s.modPitch p k f).scan = s.scan := rfl
@[simp] theorem State.modPitch_live (s : State) (p k : Nat) (f : PitchSt → PitchSt) : (s.modPitch p k f).live = s.live := rfl
@[simp] theorem State.modPitch_agreed (s : State) (p k : Nat) (f : PitchSt → PitchSt) : (s.modPitch p k f).agreed = s.agreed := rfl
@[simp] theorem State.modPitch_heldLow (s : State) (p k : Nat) (f : PitchSt → PitchSt) : (s.modPitch p k f).heldLow = s.heldLow := rfl
@[simp] theorem State.modPitch_kevtHeld (s : State) (p k : Nat) (f : PitchSt → PitchSt) : (s.modPitch p k f).kevtHeld = s.kevtHeld := rfl
@[simp] theorem State.modPitch_kevq (s : State) (p k : Nat) (f : PitchSt → PitchSt) : (s.modPitch p k f).kevq = s.kevq := rfl
@[simp] theorem State.modPitch_vrecRead (s : State) (p k : Nat) (f : PitchSt → PitchSt) : (s.modPitch p k f).vrecRead = s.vrecRead := rfl
@[simp] theorem State.modPitch_frozen (s : State) (p k : Nat) (f : PitchSt → PitchSt) : (s.modPitch p k f).frozen = s.frozen := rfl
@[simp] theorem State.modPitch_sram (s : State) (p k : Nat) (f : PitchSt → PitchSt) : (s.modPitch p k f).sram = s.sram := rfl
@[simp] theorem State.modPitch_dram (s : State) (p k : Nat) (f : PitchSt → PitchSt) : (s.modPitch p k f).dram = s.dram := rfl
@[simp] theorem State.modPitch_ecc (s : State) (p k : Nat) (f : PitchSt → PitchSt) : (s.modPitch p k f).ecc = s.ecc := rfl
@[simp] theorem State.modPitch_tlb (s : State) (p k : Nat) (f : PitchSt → PitchSt) : (s.modPitch p k f).tlb = s.tlb := rfl
@[simp] theorem State.modPitch_env (s : State) (p k : Nat) (f : PitchSt → PitchSt) : (s.modPitch p k f).env = s.env := rfl
@[simp] theorem State.modPitch_tally (s : State) (p k : Nat) (f : PitchSt → PitchSt) : (s.modPitch p k f).tally = s.tally := rfl
@[simp] theorem State.modPitch_led (s : State) (p k : Nat) (f : PitchSt → PitchSt) : (s.modPitch p k f).led = s.led := rfl
@[simp] theorem State.modPitch_queues (s : State) (p k : Nat) (f : PitchSt → PitchSt) : (s.modPitch p k f).queues = s.queues := rfl
@[simp] theorem State.modPitch_admitted (s : State) (p k : Nat) (f : PitchSt → PitchSt) : (s.modPitch p k f).admitted = s.admitted := rfl
@[simp] theorem State.modPitch_gpu (s : State) (p k : Nat) (f : PitchSt → PitchSt) : (s.modPitch p k f).gpu = s.gpu := rfl
@[simp] theorem State.modPitch_dmCh (s : State) (p k : Nat) (f : PitchSt → PitchSt) : (s.modPitch p k f).dmCh = s.dmCh := rfl
@[simp] theorem State.modPitch_dmEng (s : State) (p k : Nat) (f : PitchSt → PitchSt) : (s.modPitch p k f).dmEng = s.dmEng := rfl
@[simp] theorem State.modPitch_squashed (s : State) (p k : Nat) (f : PitchSt → PitchSt) : (s.modPitch p k f).squashed = s.squashed := rfl
@[simp] theorem State.modPitch_clearing (s : State) (p k : Nat) (f : PitchSt → PitchSt) : (s.modPitch p k f).clearing = s.clearing := rfl
@[simp] theorem State.modPitch_boot (s : State) (p k : Nat) (f : PitchSt → PitchSt) : (s.modPitch p k f).boot = s.boot := rfl
@[simp] theorem State.modPitch_harts (s : State) (p k : Nat) (f : PitchSt → PitchSt) : (s.modPitch p k f).harts = s.harts := rfl
@[simp] theorem State.modPitch_keeperTrap (s : State) (p k : Nat) (f : PitchSt → PitchSt) : (s.modPitch p k f).keeperTrap = s.keeperTrap := rfl
@[simp] theorem State.modPitch_power (s : State) (p k : Nat) (f : PitchSt → PitchSt) : (s.modPitch p k f).power = s.power := rfl
@[simp] theorem State.modPitch_sm (s : State) (p k : Nat) (f : PitchSt → PitchSt) : (s.modPitch p k f).sm = s.sm := rfl
@[simp] theorem State.modPitch_mem (s : State) (p k : Nat) (f : PitchSt → PitchSt) : (s.modPitch p k f).mem = s.mem := rfl
@[simp] theorem State.modPitch_msr (s : State) (p k : Nat) (f : PitchSt → PitchSt) : (s.modPitch p k f).msr = s.msr := rfl
@[simp] theorem State.modPitch_nvm (s : State) (p k : Nat) (f : PitchSt → PitchSt) : (s.modPitch p k f).nvm = s.nvm := rfl
@[simp] theorem State.modPitch_panels (s : State) (p k : Nat) (f : PitchSt → PitchSt) : (s.modPitch p k f).panels = s.panels := rfl
@[simp] theorem State.modPitch_lineRuns (s : State) (p k : Nat) (f : PitchSt → PitchSt) : (s.modPitch p k f).lineRuns = s.lineRuns := rfl
@[simp] theorem State.modPitch_streams (s : State) (p k : Nat) (f : PitchSt → PitchSt) : (s.modPitch p k f).streams = s.streams := rfl
@[simp] theorem State.modPitch_haps (s : State) (p k : Nat) (f : PitchSt → PitchSt) : (s.modPitch p k f).haps = s.haps := rfl
@[simp] theorem State.modPitch_caps (s : State) (p k : Nat) (f : PitchSt → PitchSt) : (s.modPitch p k f).caps = s.caps := rfl
@[simp] theorem State.modPitch_mix (s : State) (p k : Nat) (f : PitchSt → PitchSt) : (s.modPitch p k f).mix = s.mix := rfl
@[simp] theorem State.modPitch_syncOut (s : State) (p k : Nat) (f : PitchSt → PitchSt) : (s.modPitch p k f).syncOut = s.syncOut := rfl
@[simp] theorem State.modPitch_syncIn (s : State) (p k : Nat) (f : PitchSt → PitchSt) : (s.modPitch p k f).syncIn = s.syncIn := rfl
@[simp] theorem State.modPitch_resp (s : State) (p k : Nat) (f : PitchSt → PitchSt) : (s.modPitch p k f).resp = s.resp := rfl
@[simp] theorem State.modPitch_out (s : State) (p k : Nat) (f : PitchSt → PitchSt) : (s.modPitch p k f).out = s.out := rfl
@[simp] theorem State.modPitch_fresh (s : State) (p k : Nat) (f : PitchSt → PitchSt) : (s.modPitch p k f).fresh = s.fresh := rfl
@[simp] theorem State.modPitch_pending (s : State) (p k : Nat) (f : PitchSt → PitchSt) : (s.modPitch p k f).pending = s.pending := rfl
@[simp] theorem State.modPitch_rw_of (s : State) (p k : Nat) (f : PitchSt → PitchSt) (x : Nat) : (s.modPitch p k f).rw x = s.rw x := rfl
@[simp] theorem State.modPitch_rd_of (s : State) (p k : Nat) (f : PitchSt → PitchSt) (x : Nat) (g : Fld) : (s.modPitch p k f).rd x g = s.rd x g := rfl
@[simp] theorem State.modPitch_on_of (s : State) (p k : Nat) (f : PitchSt → PitchSt) (x : Nat) (g : Fld) : (s.modPitch p k f).on x g = s.on x g := rfl
@[simp] theorem State.modPitch_frw_of (s : State) (p k : Nat) (f : PitchSt → PitchSt) (x : Nat) : (s.modPitch p k f).frw x = s.frw x := rfl
@[simp] theorem State.modPitch_frd_of (s : State) (p k : Nat) (f : PitchSt → PitchSt) (x : Nat) (g : Fld) : (s.modPitch p k f).frd x g = s.frd x g := rfl
@[simp] theorem State.modPitch_srw_of (s : State) (p k : Nat) (f : PitchSt → PitchSt) (x : Nat) : (s.modPitch p k f).srw x = s.srw x := rfl
@[simp] theorem State.modPitch_srd_of (s : State) (p k : Nat) (f : PitchSt → PitchSt) (x : Nat) (g : Fld) : (s.modPitch p k f).srd x g = s.srd x g := rfl
@[simp] theorem State.modPitch_lv_of (s : State) (p k : Nat) (f : PitchSt → PitchSt) (x : Nat) : (s.modPitch p k f).lv x = s.lv x := rfl
@[simp] theorem State.modPitch_queue_of (s : State) (p k : Nat) (f : PitchSt → PitchSt) (x : Nat) : (s.modPitch p k f).queue x = s.queue x := rfl
@[simp] theorem State.modPitch_ch_of (s : State) (p k : Nat) (f : PitchSt → PitchSt) (x : Nat) : (s.modPitch p k f).ch x = s.ch x := rfl
@[simp] theorem State.modPitch_eng_of (s : State) (p k : Nat) (f : PitchSt → PitchSt) (x : Nat) : (s.modPitch p k f).eng x = s.eng x := rfl
@[simp] theorem State.modPitch_panel_of (s : State) (p k : Nat) (f : PitchSt → PitchSt) (x : Nat) : (s.modPitch p k f).panel x = s.panel x := rfl
@[simp] theorem State.modPitch_stream_of (s : State) (p k : Nat) (f : PitchSt → PitchSt) (x : Nat) : (s.modPitch p k f).stream x = s.stream x := rfl
@[simp] theorem State.modPitch_hap_of (s : State) (p k : Nat) (f : PitchSt → PitchSt) (x : Nat) : (s.modPitch p k f).hap x = s.hap x := rfl
@[simp] theorem State.modPitch_cap_of (s : State) (p k : Nat) (f : PitchSt → PitchSt) (x : Nat) : (s.modPitch p k f).cap x = s.cap x := rfl
@[simp] theorem State.modPitch_hart_of (s : State) (p k : Nat) (f : PitchSt → PitchSt) (x : Nat) : (s.modPitch p k f).hart x = s.hart x := rfl
@[simp] theorem State.modPitch_op_of (s : State) (p k : Nat) (f : PitchSt → PitchSt) (x : Nat) : (s.modPitch p k f).op x = s.op x := rfl
@[simp] theorem State.modPitch_rail_of (s : State) (p k : Nat) (f : PitchSt → PitchSt) (x : Nat) : (s.modPitch p k f).rail x = s.rail x := rfl
@[simp] theorem State.modPitch_stallState_of (s : State) (p k : Nat) (f : PitchSt → PitchSt) (x : Nat) : (s.modPitch p k f).stallState x = s.stallState x := rfl
@[simp] theorem State.modPitch_islandOn_of (s : State) (p k : Nat) (f : PitchSt → PitchSt) (x : Nat) : (s.modPitch p k f).islandOn x = s.islandOn x := rfl
@[simp] theorem State.modPitch_dstate_of (s : State) (p k : Nat) (f : PitchSt → PitchSt) : (s.modPitch p k f).dstate = s.dstate := rfl
@[simp] theorem State.modPitch_running_of (s : State) (p k : Nat) (f : PitchSt → PitchSt) : (s.modPitch p k f).running = s.running := rfl
@[simp] theorem State.modPitch_sramB_of (s : State) (p k : Nat) (f : PitchSt → PitchSt) (x : Nat) : (s.modPitch p k f).sramB x = s.sramB x := rfl
@[simp] theorem State.modPitch_dramB_of (s : State) (p k : Nat) (f : PitchSt → PitchSt) (x : Nat) : (s.modPitch p k f).dramB x = s.dramB x := rfl
@[simp] theorem State.modPitch_envB_of (s : State) (p k : Nat) (f : PitchSt → PitchSt) (x : Nat) : (s.modPitch p k f).envB x = s.envB x := rfl
@[simp] theorem State.modPitch_free_of (s : State) (p k : Nat) (f : PitchSt → PitchSt) : (s.modPitch p k f).free = s.free := rfl

/-! modLed -/
@[simp] theorem State.modLed_regs (s : State) (f : LedgerSt → LedgerSt) : (s.modLed f).regs = s.regs := rfl
@[simp] theorem State.modLed_force (s : State) (f : LedgerSt → LedgerSt) : (s.modLed f).force = s.force := rfl
@[simp] theorem State.modLed_scan (s : State) (f : LedgerSt → LedgerSt) : (s.modLed f).scan = s.scan := rfl
@[simp] theorem State.modLed_live (s : State) (f : LedgerSt → LedgerSt) : (s.modLed f).live = s.live := rfl
@[simp] theorem State.modLed_agreed (s : State) (f : LedgerSt → LedgerSt) : (s.modLed f).agreed = s.agreed := rfl
@[simp] theorem State.modLed_heldLow (s : State) (f : LedgerSt → LedgerSt) : (s.modLed f).heldLow = s.heldLow := rfl
@[simp] theorem State.modLed_kevtHeld (s : State) (f : LedgerSt → LedgerSt) : (s.modLed f).kevtHeld = s.kevtHeld := rfl
@[simp] theorem State.modLed_kevq (s : State) (f : LedgerSt → LedgerSt) : (s.modLed f).kevq = s.kevq := rfl
@[simp] theorem State.modLed_vrecRead (s : State) (f : LedgerSt → LedgerSt) : (s.modLed f).vrecRead = s.vrecRead := rfl
@[simp] theorem State.modLed_frozen (s : State) (f : LedgerSt → LedgerSt) : (s.modLed f).frozen = s.frozen := rfl
@[simp] theorem State.modLed_sram (s : State) (f : LedgerSt → LedgerSt) : (s.modLed f).sram = s.sram := rfl
@[simp] theorem State.modLed_dram (s : State) (f : LedgerSt → LedgerSt) : (s.modLed f).dram = s.dram := rfl
@[simp] theorem State.modLed_ecc (s : State) (f : LedgerSt → LedgerSt) : (s.modLed f).ecc = s.ecc := rfl
@[simp] theorem State.modLed_tlb (s : State) (f : LedgerSt → LedgerSt) : (s.modLed f).tlb = s.tlb := rfl
@[simp] theorem State.modLed_env (s : State) (f : LedgerSt → LedgerSt) : (s.modLed f).env = s.env := rfl
@[simp] theorem State.modLed_tally (s : State) (f : LedgerSt → LedgerSt) : (s.modLed f).tally = s.tally := rfl
@[simp] theorem State.modLed_pipes (s : State) (f : LedgerSt → LedgerSt) : (s.modLed f).pipes = s.pipes := rfl
@[simp] theorem State.modLed_queues (s : State) (f : LedgerSt → LedgerSt) : (s.modLed f).queues = s.queues := rfl
@[simp] theorem State.modLed_admitted (s : State) (f : LedgerSt → LedgerSt) : (s.modLed f).admitted = s.admitted := rfl
@[simp] theorem State.modLed_gpu (s : State) (f : LedgerSt → LedgerSt) : (s.modLed f).gpu = s.gpu := rfl
@[simp] theorem State.modLed_dmCh (s : State) (f : LedgerSt → LedgerSt) : (s.modLed f).dmCh = s.dmCh := rfl
@[simp] theorem State.modLed_dmEng (s : State) (f : LedgerSt → LedgerSt) : (s.modLed f).dmEng = s.dmEng := rfl
@[simp] theorem State.modLed_squashed (s : State) (f : LedgerSt → LedgerSt) : (s.modLed f).squashed = s.squashed := rfl
@[simp] theorem State.modLed_clearing (s : State) (f : LedgerSt → LedgerSt) : (s.modLed f).clearing = s.clearing := rfl
@[simp] theorem State.modLed_boot (s : State) (f : LedgerSt → LedgerSt) : (s.modLed f).boot = s.boot := rfl
@[simp] theorem State.modLed_harts (s : State) (f : LedgerSt → LedgerSt) : (s.modLed f).harts = s.harts := rfl
@[simp] theorem State.modLed_keeperTrap (s : State) (f : LedgerSt → LedgerSt) : (s.modLed f).keeperTrap = s.keeperTrap := rfl
@[simp] theorem State.modLed_power (s : State) (f : LedgerSt → LedgerSt) : (s.modLed f).power = s.power := rfl
@[simp] theorem State.modLed_sm (s : State) (f : LedgerSt → LedgerSt) : (s.modLed f).sm = s.sm := rfl
@[simp] theorem State.modLed_mem (s : State) (f : LedgerSt → LedgerSt) : (s.modLed f).mem = s.mem := rfl
@[simp] theorem State.modLed_msr (s : State) (f : LedgerSt → LedgerSt) : (s.modLed f).msr = s.msr := rfl
@[simp] theorem State.modLed_nvm (s : State) (f : LedgerSt → LedgerSt) : (s.modLed f).nvm = s.nvm := rfl
@[simp] theorem State.modLed_panels (s : State) (f : LedgerSt → LedgerSt) : (s.modLed f).panels = s.panels := rfl
@[simp] theorem State.modLed_lineRuns (s : State) (f : LedgerSt → LedgerSt) : (s.modLed f).lineRuns = s.lineRuns := rfl
@[simp] theorem State.modLed_streams (s : State) (f : LedgerSt → LedgerSt) : (s.modLed f).streams = s.streams := rfl
@[simp] theorem State.modLed_haps (s : State) (f : LedgerSt → LedgerSt) : (s.modLed f).haps = s.haps := rfl
@[simp] theorem State.modLed_caps (s : State) (f : LedgerSt → LedgerSt) : (s.modLed f).caps = s.caps := rfl
@[simp] theorem State.modLed_mix (s : State) (f : LedgerSt → LedgerSt) : (s.modLed f).mix = s.mix := rfl
@[simp] theorem State.modLed_syncOut (s : State) (f : LedgerSt → LedgerSt) : (s.modLed f).syncOut = s.syncOut := rfl
@[simp] theorem State.modLed_syncIn (s : State) (f : LedgerSt → LedgerSt) : (s.modLed f).syncIn = s.syncIn := rfl
@[simp] theorem State.modLed_resp (s : State) (f : LedgerSt → LedgerSt) : (s.modLed f).resp = s.resp := rfl
@[simp] theorem State.modLed_out (s : State) (f : LedgerSt → LedgerSt) : (s.modLed f).out = s.out := rfl
@[simp] theorem State.modLed_fresh (s : State) (f : LedgerSt → LedgerSt) : (s.modLed f).fresh = s.fresh := rfl
@[simp] theorem State.modLed_pending (s : State) (f : LedgerSt → LedgerSt) : (s.modLed f).pending = s.pending := rfl
@[simp] theorem State.modLed_rw_of (s : State) (f : LedgerSt → LedgerSt) (x : Nat) : (s.modLed f).rw x = s.rw x := rfl
@[simp] theorem State.modLed_rd_of (s : State) (f : LedgerSt → LedgerSt) (x : Nat) (g : Fld) : (s.modLed f).rd x g = s.rd x g := rfl
@[simp] theorem State.modLed_on_of (s : State) (f : LedgerSt → LedgerSt) (x : Nat) (g : Fld) : (s.modLed f).on x g = s.on x g := rfl
@[simp] theorem State.modLed_frw_of (s : State) (f : LedgerSt → LedgerSt) (x : Nat) : (s.modLed f).frw x = s.frw x := rfl
@[simp] theorem State.modLed_frd_of (s : State) (f : LedgerSt → LedgerSt) (x : Nat) (g : Fld) : (s.modLed f).frd x g = s.frd x g := rfl
@[simp] theorem State.modLed_srw_of (s : State) (f : LedgerSt → LedgerSt) (x : Nat) : (s.modLed f).srw x = s.srw x := rfl
@[simp] theorem State.modLed_srd_of (s : State) (f : LedgerSt → LedgerSt) (x : Nat) (g : Fld) : (s.modLed f).srd x g = s.srd x g := rfl
@[simp] theorem State.modLed_lv_of (s : State) (f : LedgerSt → LedgerSt) (x : Nat) : (s.modLed f).lv x = s.lv x := rfl
@[simp] theorem State.modLed_pipe_of (s : State) (f : LedgerSt → LedgerSt) (x : Nat) : (s.modLed f).pipe x = s.pipe x := rfl
@[simp] theorem State.modLed_queue_of (s : State) (f : LedgerSt → LedgerSt) (x : Nat) : (s.modLed f).queue x = s.queue x := rfl
@[simp] theorem State.modLed_ch_of (s : State) (f : LedgerSt → LedgerSt) (x : Nat) : (s.modLed f).ch x = s.ch x := rfl
@[simp] theorem State.modLed_eng_of (s : State) (f : LedgerSt → LedgerSt) (x : Nat) : (s.modLed f).eng x = s.eng x := rfl
@[simp] theorem State.modLed_panel_of (s : State) (f : LedgerSt → LedgerSt) (x : Nat) : (s.modLed f).panel x = s.panel x := rfl
@[simp] theorem State.modLed_stream_of (s : State) (f : LedgerSt → LedgerSt) (x : Nat) : (s.modLed f).stream x = s.stream x := rfl
@[simp] theorem State.modLed_hap_of (s : State) (f : LedgerSt → LedgerSt) (x : Nat) : (s.modLed f).hap x = s.hap x := rfl
@[simp] theorem State.modLed_cap_of (s : State) (f : LedgerSt → LedgerSt) (x : Nat) : (s.modLed f).cap x = s.cap x := rfl
@[simp] theorem State.modLed_hart_of (s : State) (f : LedgerSt → LedgerSt) (x : Nat) : (s.modLed f).hart x = s.hart x := rfl
@[simp] theorem State.modLed_op_of (s : State) (f : LedgerSt → LedgerSt) (x : Nat) : (s.modLed f).op x = s.op x := rfl
@[simp] theorem State.modLed_rail_of (s : State) (f : LedgerSt → LedgerSt) (x : Nat) : (s.modLed f).rail x = s.rail x := rfl
@[simp] theorem State.modLed_stallState_of (s : State) (f : LedgerSt → LedgerSt) (x : Nat) : (s.modLed f).stallState x = s.stallState x := rfl
@[simp] theorem State.modLed_islandOn_of (s : State) (f : LedgerSt → LedgerSt) (x : Nat) : (s.modLed f).islandOn x = s.islandOn x := rfl
@[simp] theorem State.modLed_dstate_of (s : State) (f : LedgerSt → LedgerSt) : (s.modLed f).dstate = s.dstate := rfl
@[simp] theorem State.modLed_running_of (s : State) (f : LedgerSt → LedgerSt) : (s.modLed f).running = s.running := rfl
@[simp] theorem State.modLed_sramB_of (s : State) (f : LedgerSt → LedgerSt) (x : Nat) : (s.modLed f).sramB x = s.sramB x := rfl
@[simp] theorem State.modLed_dramB_of (s : State) (f : LedgerSt → LedgerSt) (x : Nat) : (s.modLed f).dramB x = s.dramB x := rfl
@[simp] theorem State.modLed_envB_of (s : State) (f : LedgerSt → LedgerSt) (x : Nat) : (s.modLed f).envB x = s.envB x := rfl
@[simp] theorem State.modLed_free_of (s : State) (f : LedgerSt → LedgerSt) : (s.modLed f).free = s.free := rfl

/-! modSm -/
@[simp] theorem State.modSm_regs (s : State) (f : SmSt → SmSt) : (s.modSm f).regs = s.regs := rfl
@[simp] theorem State.modSm_force (s : State) (f : SmSt → SmSt) : (s.modSm f).force = s.force := rfl
@[simp] theorem State.modSm_scan (s : State) (f : SmSt → SmSt) : (s.modSm f).scan = s.scan := rfl
@[simp] theorem State.modSm_live (s : State) (f : SmSt → SmSt) : (s.modSm f).live = s.live := rfl
@[simp] theorem State.modSm_agreed (s : State) (f : SmSt → SmSt) : (s.modSm f).agreed = s.agreed := rfl
@[simp] theorem State.modSm_heldLow (s : State) (f : SmSt → SmSt) : (s.modSm f).heldLow = s.heldLow := rfl
@[simp] theorem State.modSm_kevtHeld (s : State) (f : SmSt → SmSt) : (s.modSm f).kevtHeld = s.kevtHeld := rfl
@[simp] theorem State.modSm_kevq (s : State) (f : SmSt → SmSt) : (s.modSm f).kevq = s.kevq := rfl
@[simp] theorem State.modSm_vrecRead (s : State) (f : SmSt → SmSt) : (s.modSm f).vrecRead = s.vrecRead := rfl
@[simp] theorem State.modSm_frozen (s : State) (f : SmSt → SmSt) : (s.modSm f).frozen = s.frozen := rfl
@[simp] theorem State.modSm_sram (s : State) (f : SmSt → SmSt) : (s.modSm f).sram = s.sram := rfl
@[simp] theorem State.modSm_dram (s : State) (f : SmSt → SmSt) : (s.modSm f).dram = s.dram := rfl
@[simp] theorem State.modSm_ecc (s : State) (f : SmSt → SmSt) : (s.modSm f).ecc = s.ecc := rfl
@[simp] theorem State.modSm_tlb (s : State) (f : SmSt → SmSt) : (s.modSm f).tlb = s.tlb := rfl
@[simp] theorem State.modSm_env (s : State) (f : SmSt → SmSt) : (s.modSm f).env = s.env := rfl
@[simp] theorem State.modSm_tally (s : State) (f : SmSt → SmSt) : (s.modSm f).tally = s.tally := rfl
@[simp] theorem State.modSm_pipes (s : State) (f : SmSt → SmSt) : (s.modSm f).pipes = s.pipes := rfl
@[simp] theorem State.modSm_led (s : State) (f : SmSt → SmSt) : (s.modSm f).led = s.led := rfl
@[simp] theorem State.modSm_queues (s : State) (f : SmSt → SmSt) : (s.modSm f).queues = s.queues := rfl
@[simp] theorem State.modSm_admitted (s : State) (f : SmSt → SmSt) : (s.modSm f).admitted = s.admitted := rfl
@[simp] theorem State.modSm_gpu (s : State) (f : SmSt → SmSt) : (s.modSm f).gpu = s.gpu := rfl
@[simp] theorem State.modSm_dmCh (s : State) (f : SmSt → SmSt) : (s.modSm f).dmCh = s.dmCh := rfl
@[simp] theorem State.modSm_dmEng (s : State) (f : SmSt → SmSt) : (s.modSm f).dmEng = s.dmEng := rfl
@[simp] theorem State.modSm_squashed (s : State) (f : SmSt → SmSt) : (s.modSm f).squashed = s.squashed := rfl
@[simp] theorem State.modSm_clearing (s : State) (f : SmSt → SmSt) : (s.modSm f).clearing = s.clearing := rfl
@[simp] theorem State.modSm_boot (s : State) (f : SmSt → SmSt) : (s.modSm f).boot = s.boot := rfl
@[simp] theorem State.modSm_harts (s : State) (f : SmSt → SmSt) : (s.modSm f).harts = s.harts := rfl
@[simp] theorem State.modSm_keeperTrap (s : State) (f : SmSt → SmSt) : (s.modSm f).keeperTrap = s.keeperTrap := rfl
@[simp] theorem State.modSm_power (s : State) (f : SmSt → SmSt) : (s.modSm f).power = s.power := rfl
@[simp] theorem State.modSm_mem (s : State) (f : SmSt → SmSt) : (s.modSm f).mem = s.mem := rfl
@[simp] theorem State.modSm_msr (s : State) (f : SmSt → SmSt) : (s.modSm f).msr = s.msr := rfl
@[simp] theorem State.modSm_nvm (s : State) (f : SmSt → SmSt) : (s.modSm f).nvm = s.nvm := rfl
@[simp] theorem State.modSm_panels (s : State) (f : SmSt → SmSt) : (s.modSm f).panels = s.panels := rfl
@[simp] theorem State.modSm_lineRuns (s : State) (f : SmSt → SmSt) : (s.modSm f).lineRuns = s.lineRuns := rfl
@[simp] theorem State.modSm_streams (s : State) (f : SmSt → SmSt) : (s.modSm f).streams = s.streams := rfl
@[simp] theorem State.modSm_haps (s : State) (f : SmSt → SmSt) : (s.modSm f).haps = s.haps := rfl
@[simp] theorem State.modSm_caps (s : State) (f : SmSt → SmSt) : (s.modSm f).caps = s.caps := rfl
@[simp] theorem State.modSm_mix (s : State) (f : SmSt → SmSt) : (s.modSm f).mix = s.mix := rfl
@[simp] theorem State.modSm_syncOut (s : State) (f : SmSt → SmSt) : (s.modSm f).syncOut = s.syncOut := rfl
@[simp] theorem State.modSm_syncIn (s : State) (f : SmSt → SmSt) : (s.modSm f).syncIn = s.syncIn := rfl
@[simp] theorem State.modSm_resp (s : State) (f : SmSt → SmSt) : (s.modSm f).resp = s.resp := rfl
@[simp] theorem State.modSm_out (s : State) (f : SmSt → SmSt) : (s.modSm f).out = s.out := rfl
@[simp] theorem State.modSm_fresh (s : State) (f : SmSt → SmSt) : (s.modSm f).fresh = s.fresh := rfl
@[simp] theorem State.modSm_pending (s : State) (f : SmSt → SmSt) : (s.modSm f).pending = s.pending := rfl
@[simp] theorem State.modSm_rw_of (s : State) (f : SmSt → SmSt) (x : Nat) : (s.modSm f).rw x = s.rw x := rfl
@[simp] theorem State.modSm_rd_of (s : State) (f : SmSt → SmSt) (x : Nat) (g : Fld) : (s.modSm f).rd x g = s.rd x g := rfl
@[simp] theorem State.modSm_on_of (s : State) (f : SmSt → SmSt) (x : Nat) (g : Fld) : (s.modSm f).on x g = s.on x g := rfl
@[simp] theorem State.modSm_frw_of (s : State) (f : SmSt → SmSt) (x : Nat) : (s.modSm f).frw x = s.frw x := rfl
@[simp] theorem State.modSm_frd_of (s : State) (f : SmSt → SmSt) (x : Nat) (g : Fld) : (s.modSm f).frd x g = s.frd x g := rfl
@[simp] theorem State.modSm_srw_of (s : State) (f : SmSt → SmSt) (x : Nat) : (s.modSm f).srw x = s.srw x := rfl
@[simp] theorem State.modSm_srd_of (s : State) (f : SmSt → SmSt) (x : Nat) (g : Fld) : (s.modSm f).srd x g = s.srd x g := rfl
@[simp] theorem State.modSm_lv_of (s : State) (f : SmSt → SmSt) (x : Nat) : (s.modSm f).lv x = s.lv x := rfl
@[simp] theorem State.modSm_pipe_of (s : State) (f : SmSt → SmSt) (x : Nat) : (s.modSm f).pipe x = s.pipe x := rfl
@[simp] theorem State.modSm_queue_of (s : State) (f : SmSt → SmSt) (x : Nat) : (s.modSm f).queue x = s.queue x := rfl
@[simp] theorem State.modSm_ch_of (s : State) (f : SmSt → SmSt) (x : Nat) : (s.modSm f).ch x = s.ch x := rfl
@[simp] theorem State.modSm_eng_of (s : State) (f : SmSt → SmSt) (x : Nat) : (s.modSm f).eng x = s.eng x := rfl
@[simp] theorem State.modSm_panel_of (s : State) (f : SmSt → SmSt) (x : Nat) : (s.modSm f).panel x = s.panel x := rfl
@[simp] theorem State.modSm_stream_of (s : State) (f : SmSt → SmSt) (x : Nat) : (s.modSm f).stream x = s.stream x := rfl
@[simp] theorem State.modSm_hap_of (s : State) (f : SmSt → SmSt) (x : Nat) : (s.modSm f).hap x = s.hap x := rfl
@[simp] theorem State.modSm_cap_of (s : State) (f : SmSt → SmSt) (x : Nat) : (s.modSm f).cap x = s.cap x := rfl
@[simp] theorem State.modSm_hart_of (s : State) (f : SmSt → SmSt) (x : Nat) : (s.modSm f).hart x = s.hart x := rfl
@[simp] theorem State.modSm_rail_of (s : State) (f : SmSt → SmSt) (x : Nat) : (s.modSm f).rail x = s.rail x := rfl
@[simp] theorem State.modSm_stallState_of (s : State) (f : SmSt → SmSt) (x : Nat) : (s.modSm f).stallState x = s.stallState x := rfl
@[simp] theorem State.modSm_islandOn_of (s : State) (f : SmSt → SmSt) (x : Nat) : (s.modSm f).islandOn x = s.islandOn x := rfl
@[simp] theorem State.modSm_dstate_of (s : State) (f : SmSt → SmSt) : (s.modSm f).dstate = s.dstate := rfl
@[simp] theorem State.modSm_running_of (s : State) (f : SmSt → SmSt) : (s.modSm f).running = s.running := rfl
@[simp] theorem State.modSm_sramB_of (s : State) (f : SmSt → SmSt) (x : Nat) : (s.modSm f).sramB x = s.sramB x := rfl
@[simp] theorem State.modSm_dramB_of (s : State) (f : SmSt → SmSt) (x : Nat) : (s.modSm f).dramB x = s.dramB x := rfl
@[simp] theorem State.modSm_envB_of (s : State) (f : SmSt → SmSt) (x : Nat) : (s.modSm f).envB x = s.envB x := rfl
@[simp] theorem State.modSm_free_of (s : State) (f : SmSt → SmSt) : (s.modSm f).free = s.free := rfl

/-! modOp -/
@[simp] theorem State.modOp_regs (s : State) (k : Nat) (f : OpSt → OpSt) : (s.modOp k f).regs = s.regs := rfl
@[simp] theorem State.modOp_force (s : State) (k : Nat) (f : OpSt → OpSt) : (s.modOp k f).force = s.force := rfl
@[simp] theorem State.modOp_scan (s : State) (k : Nat) (f : OpSt → OpSt) : (s.modOp k f).scan = s.scan := rfl
@[simp] theorem State.modOp_live (s : State) (k : Nat) (f : OpSt → OpSt) : (s.modOp k f).live = s.live := rfl
@[simp] theorem State.modOp_agreed (s : State) (k : Nat) (f : OpSt → OpSt) : (s.modOp k f).agreed = s.agreed := rfl
@[simp] theorem State.modOp_heldLow (s : State) (k : Nat) (f : OpSt → OpSt) : (s.modOp k f).heldLow = s.heldLow := rfl
@[simp] theorem State.modOp_kevtHeld (s : State) (k : Nat) (f : OpSt → OpSt) : (s.modOp k f).kevtHeld = s.kevtHeld := rfl
@[simp] theorem State.modOp_kevq (s : State) (k : Nat) (f : OpSt → OpSt) : (s.modOp k f).kevq = s.kevq := rfl
@[simp] theorem State.modOp_vrecRead (s : State) (k : Nat) (f : OpSt → OpSt) : (s.modOp k f).vrecRead = s.vrecRead := rfl
@[simp] theorem State.modOp_frozen (s : State) (k : Nat) (f : OpSt → OpSt) : (s.modOp k f).frozen = s.frozen := rfl
@[simp] theorem State.modOp_sram (s : State) (k : Nat) (f : OpSt → OpSt) : (s.modOp k f).sram = s.sram := rfl
@[simp] theorem State.modOp_dram (s : State) (k : Nat) (f : OpSt → OpSt) : (s.modOp k f).dram = s.dram := rfl
@[simp] theorem State.modOp_ecc (s : State) (k : Nat) (f : OpSt → OpSt) : (s.modOp k f).ecc = s.ecc := rfl
@[simp] theorem State.modOp_tlb (s : State) (k : Nat) (f : OpSt → OpSt) : (s.modOp k f).tlb = s.tlb := rfl
@[simp] theorem State.modOp_env (s : State) (k : Nat) (f : OpSt → OpSt) : (s.modOp k f).env = s.env := rfl
@[simp] theorem State.modOp_tally (s : State) (k : Nat) (f : OpSt → OpSt) : (s.modOp k f).tally = s.tally := rfl
@[simp] theorem State.modOp_pipes (s : State) (k : Nat) (f : OpSt → OpSt) : (s.modOp k f).pipes = s.pipes := rfl
@[simp] theorem State.modOp_led (s : State) (k : Nat) (f : OpSt → OpSt) : (s.modOp k f).led = s.led := rfl
@[simp] theorem State.modOp_queues (s : State) (k : Nat) (f : OpSt → OpSt) : (s.modOp k f).queues = s.queues := rfl
@[simp] theorem State.modOp_admitted (s : State) (k : Nat) (f : OpSt → OpSt) : (s.modOp k f).admitted = s.admitted := rfl
@[simp] theorem State.modOp_gpu (s : State) (k : Nat) (f : OpSt → OpSt) : (s.modOp k f).gpu = s.gpu := rfl
@[simp] theorem State.modOp_dmCh (s : State) (k : Nat) (f : OpSt → OpSt) : (s.modOp k f).dmCh = s.dmCh := rfl
@[simp] theorem State.modOp_dmEng (s : State) (k : Nat) (f : OpSt → OpSt) : (s.modOp k f).dmEng = s.dmEng := rfl
@[simp] theorem State.modOp_squashed (s : State) (k : Nat) (f : OpSt → OpSt) : (s.modOp k f).squashed = s.squashed := rfl
@[simp] theorem State.modOp_clearing (s : State) (k : Nat) (f : OpSt → OpSt) : (s.modOp k f).clearing = s.clearing := rfl
@[simp] theorem State.modOp_boot (s : State) (k : Nat) (f : OpSt → OpSt) : (s.modOp k f).boot = s.boot := rfl
@[simp] theorem State.modOp_harts (s : State) (k : Nat) (f : OpSt → OpSt) : (s.modOp k f).harts = s.harts := rfl
@[simp] theorem State.modOp_keeperTrap (s : State) (k : Nat) (f : OpSt → OpSt) : (s.modOp k f).keeperTrap = s.keeperTrap := rfl
@[simp] theorem State.modOp_power (s : State) (k : Nat) (f : OpSt → OpSt) : (s.modOp k f).power = s.power := rfl
@[simp] theorem State.modOp_mem (s : State) (k : Nat) (f : OpSt → OpSt) : (s.modOp k f).mem = s.mem := rfl
@[simp] theorem State.modOp_msr (s : State) (k : Nat) (f : OpSt → OpSt) : (s.modOp k f).msr = s.msr := rfl
@[simp] theorem State.modOp_nvm (s : State) (k : Nat) (f : OpSt → OpSt) : (s.modOp k f).nvm = s.nvm := rfl
@[simp] theorem State.modOp_panels (s : State) (k : Nat) (f : OpSt → OpSt) : (s.modOp k f).panels = s.panels := rfl
@[simp] theorem State.modOp_lineRuns (s : State) (k : Nat) (f : OpSt → OpSt) : (s.modOp k f).lineRuns = s.lineRuns := rfl
@[simp] theorem State.modOp_streams (s : State) (k : Nat) (f : OpSt → OpSt) : (s.modOp k f).streams = s.streams := rfl
@[simp] theorem State.modOp_haps (s : State) (k : Nat) (f : OpSt → OpSt) : (s.modOp k f).haps = s.haps := rfl
@[simp] theorem State.modOp_caps (s : State) (k : Nat) (f : OpSt → OpSt) : (s.modOp k f).caps = s.caps := rfl
@[simp] theorem State.modOp_mix (s : State) (k : Nat) (f : OpSt → OpSt) : (s.modOp k f).mix = s.mix := rfl
@[simp] theorem State.modOp_syncOut (s : State) (k : Nat) (f : OpSt → OpSt) : (s.modOp k f).syncOut = s.syncOut := rfl
@[simp] theorem State.modOp_syncIn (s : State) (k : Nat) (f : OpSt → OpSt) : (s.modOp k f).syncIn = s.syncIn := rfl
@[simp] theorem State.modOp_resp (s : State) (k : Nat) (f : OpSt → OpSt) : (s.modOp k f).resp = s.resp := rfl
@[simp] theorem State.modOp_out (s : State) (k : Nat) (f : OpSt → OpSt) : (s.modOp k f).out = s.out := rfl
@[simp] theorem State.modOp_fresh (s : State) (k : Nat) (f : OpSt → OpSt) : (s.modOp k f).fresh = s.fresh := rfl
@[simp] theorem State.modOp_pending (s : State) (k : Nat) (f : OpSt → OpSt) : (s.modOp k f).pending = s.pending := rfl
@[simp] theorem State.modOp_rw_of (s : State) (k : Nat) (f : OpSt → OpSt) (x : Nat) : (s.modOp k f).rw x = s.rw x := rfl
@[simp] theorem State.modOp_rd_of (s : State) (k : Nat) (f : OpSt → OpSt) (x : Nat) (g : Fld) : (s.modOp k f).rd x g = s.rd x g := rfl
@[simp] theorem State.modOp_on_of (s : State) (k : Nat) (f : OpSt → OpSt) (x : Nat) (g : Fld) : (s.modOp k f).on x g = s.on x g := rfl
@[simp] theorem State.modOp_frw_of (s : State) (k : Nat) (f : OpSt → OpSt) (x : Nat) : (s.modOp k f).frw x = s.frw x := rfl
@[simp] theorem State.modOp_frd_of (s : State) (k : Nat) (f : OpSt → OpSt) (x : Nat) (g : Fld) : (s.modOp k f).frd x g = s.frd x g := rfl
@[simp] theorem State.modOp_srw_of (s : State) (k : Nat) (f : OpSt → OpSt) (x : Nat) : (s.modOp k f).srw x = s.srw x := rfl
@[simp] theorem State.modOp_srd_of (s : State) (k : Nat) (f : OpSt → OpSt) (x : Nat) (g : Fld) : (s.modOp k f).srd x g = s.srd x g := rfl
@[simp] theorem State.modOp_lv_of (s : State) (k : Nat) (f : OpSt → OpSt) (x : Nat) : (s.modOp k f).lv x = s.lv x := rfl
@[simp] theorem State.modOp_pipe_of (s : State) (k : Nat) (f : OpSt → OpSt) (x : Nat) : (s.modOp k f).pipe x = s.pipe x := rfl
@[simp] theorem State.modOp_queue_of (s : State) (k : Nat) (f : OpSt → OpSt) (x : Nat) : (s.modOp k f).queue x = s.queue x := rfl
@[simp] theorem State.modOp_ch_of (s : State) (k : Nat) (f : OpSt → OpSt) (x : Nat) : (s.modOp k f).ch x = s.ch x := rfl
@[simp] theorem State.modOp_eng_of (s : State) (k : Nat) (f : OpSt → OpSt) (x : Nat) : (s.modOp k f).eng x = s.eng x := rfl
@[simp] theorem State.modOp_panel_of (s : State) (k : Nat) (f : OpSt → OpSt) (x : Nat) : (s.modOp k f).panel x = s.panel x := rfl
@[simp] theorem State.modOp_stream_of (s : State) (k : Nat) (f : OpSt → OpSt) (x : Nat) : (s.modOp k f).stream x = s.stream x := rfl
@[simp] theorem State.modOp_hap_of (s : State) (k : Nat) (f : OpSt → OpSt) (x : Nat) : (s.modOp k f).hap x = s.hap x := rfl
@[simp] theorem State.modOp_cap_of (s : State) (k : Nat) (f : OpSt → OpSt) (x : Nat) : (s.modOp k f).cap x = s.cap x := rfl
@[simp] theorem State.modOp_hart_of (s : State) (k : Nat) (f : OpSt → OpSt) (x : Nat) : (s.modOp k f).hart x = s.hart x := rfl
@[simp] theorem State.modOp_rail_of (s : State) (k : Nat) (f : OpSt → OpSt) (x : Nat) : (s.modOp k f).rail x = s.rail x := rfl
@[simp] theorem State.modOp_stallState_of (s : State) (k : Nat) (f : OpSt → OpSt) (x : Nat) : (s.modOp k f).stallState x = s.stallState x := rfl
@[simp] theorem State.modOp_islandOn_of (s : State) (k : Nat) (f : OpSt → OpSt) (x : Nat) : (s.modOp k f).islandOn x = s.islandOn x := rfl
@[simp] theorem State.modOp_dstate_of (s : State) (k : Nat) (f : OpSt → OpSt) : (s.modOp k f).dstate = s.dstate := rfl
@[simp] theorem State.modOp_running_of (s : State) (k : Nat) (f : OpSt → OpSt) : (s.modOp k f).running = s.running := rfl
@[simp] theorem State.modOp_sramB_of (s : State) (k : Nat) (f : OpSt → OpSt) (x : Nat) : (s.modOp k f).sramB x = s.sramB x := rfl
@[simp] theorem State.modOp_dramB_of (s : State) (k : Nat) (f : OpSt → OpSt) (x : Nat) : (s.modOp k f).dramB x = s.dramB x := rfl
@[simp] theorem State.modOp_envB_of (s : State) (k : Nat) (f : OpSt → OpSt) (x : Nat) : (s.modOp k f).envB x = s.envB x := rfl
@[simp] theorem State.modOp_free_of (s : State) (k : Nat) (f : OpSt → OpSt) : (s.modOp k f).free = s.free := rfl

/-! modNvm -/
@[simp] theorem State.modNvm_regs (s : State) (f : NvmSt → NvmSt) : (s.modNvm f).regs = s.regs := rfl
@[simp] theorem State.modNvm_force (s : State) (f : NvmSt → NvmSt) : (s.modNvm f).force = s.force := rfl
@[simp] theorem State.modNvm_scan (s : State) (f : NvmSt → NvmSt) : (s.modNvm f).scan = s.scan := rfl
@[simp] theorem State.modNvm_live (s : State) (f : NvmSt → NvmSt) : (s.modNvm f).live = s.live := rfl
@[simp] theorem State.modNvm_agreed (s : State) (f : NvmSt → NvmSt) : (s.modNvm f).agreed = s.agreed := rfl
@[simp] theorem State.modNvm_heldLow (s : State) (f : NvmSt → NvmSt) : (s.modNvm f).heldLow = s.heldLow := rfl
@[simp] theorem State.modNvm_kevtHeld (s : State) (f : NvmSt → NvmSt) : (s.modNvm f).kevtHeld = s.kevtHeld := rfl
@[simp] theorem State.modNvm_kevq (s : State) (f : NvmSt → NvmSt) : (s.modNvm f).kevq = s.kevq := rfl
@[simp] theorem State.modNvm_vrecRead (s : State) (f : NvmSt → NvmSt) : (s.modNvm f).vrecRead = s.vrecRead := rfl
@[simp] theorem State.modNvm_frozen (s : State) (f : NvmSt → NvmSt) : (s.modNvm f).frozen = s.frozen := rfl
@[simp] theorem State.modNvm_sram (s : State) (f : NvmSt → NvmSt) : (s.modNvm f).sram = s.sram := rfl
@[simp] theorem State.modNvm_dram (s : State) (f : NvmSt → NvmSt) : (s.modNvm f).dram = s.dram := rfl
@[simp] theorem State.modNvm_ecc (s : State) (f : NvmSt → NvmSt) : (s.modNvm f).ecc = s.ecc := rfl
@[simp] theorem State.modNvm_tlb (s : State) (f : NvmSt → NvmSt) : (s.modNvm f).tlb = s.tlb := rfl
@[simp] theorem State.modNvm_env (s : State) (f : NvmSt → NvmSt) : (s.modNvm f).env = s.env := rfl
@[simp] theorem State.modNvm_tally (s : State) (f : NvmSt → NvmSt) : (s.modNvm f).tally = s.tally := rfl
@[simp] theorem State.modNvm_pipes (s : State) (f : NvmSt → NvmSt) : (s.modNvm f).pipes = s.pipes := rfl
@[simp] theorem State.modNvm_led (s : State) (f : NvmSt → NvmSt) : (s.modNvm f).led = s.led := rfl
@[simp] theorem State.modNvm_queues (s : State) (f : NvmSt → NvmSt) : (s.modNvm f).queues = s.queues := rfl
@[simp] theorem State.modNvm_admitted (s : State) (f : NvmSt → NvmSt) : (s.modNvm f).admitted = s.admitted := rfl
@[simp] theorem State.modNvm_gpu (s : State) (f : NvmSt → NvmSt) : (s.modNvm f).gpu = s.gpu := rfl
@[simp] theorem State.modNvm_dmCh (s : State) (f : NvmSt → NvmSt) : (s.modNvm f).dmCh = s.dmCh := rfl
@[simp] theorem State.modNvm_dmEng (s : State) (f : NvmSt → NvmSt) : (s.modNvm f).dmEng = s.dmEng := rfl
@[simp] theorem State.modNvm_squashed (s : State) (f : NvmSt → NvmSt) : (s.modNvm f).squashed = s.squashed := rfl
@[simp] theorem State.modNvm_clearing (s : State) (f : NvmSt → NvmSt) : (s.modNvm f).clearing = s.clearing := rfl
@[simp] theorem State.modNvm_boot (s : State) (f : NvmSt → NvmSt) : (s.modNvm f).boot = s.boot := rfl
@[simp] theorem State.modNvm_harts (s : State) (f : NvmSt → NvmSt) : (s.modNvm f).harts = s.harts := rfl
@[simp] theorem State.modNvm_keeperTrap (s : State) (f : NvmSt → NvmSt) : (s.modNvm f).keeperTrap = s.keeperTrap := rfl
@[simp] theorem State.modNvm_power (s : State) (f : NvmSt → NvmSt) : (s.modNvm f).power = s.power := rfl
@[simp] theorem State.modNvm_sm (s : State) (f : NvmSt → NvmSt) : (s.modNvm f).sm = s.sm := rfl
@[simp] theorem State.modNvm_mem (s : State) (f : NvmSt → NvmSt) : (s.modNvm f).mem = s.mem := rfl
@[simp] theorem State.modNvm_msr (s : State) (f : NvmSt → NvmSt) : (s.modNvm f).msr = s.msr := rfl
@[simp] theorem State.modNvm_panels (s : State) (f : NvmSt → NvmSt) : (s.modNvm f).panels = s.panels := rfl
@[simp] theorem State.modNvm_lineRuns (s : State) (f : NvmSt → NvmSt) : (s.modNvm f).lineRuns = s.lineRuns := rfl
@[simp] theorem State.modNvm_streams (s : State) (f : NvmSt → NvmSt) : (s.modNvm f).streams = s.streams := rfl
@[simp] theorem State.modNvm_haps (s : State) (f : NvmSt → NvmSt) : (s.modNvm f).haps = s.haps := rfl
@[simp] theorem State.modNvm_caps (s : State) (f : NvmSt → NvmSt) : (s.modNvm f).caps = s.caps := rfl
@[simp] theorem State.modNvm_mix (s : State) (f : NvmSt → NvmSt) : (s.modNvm f).mix = s.mix := rfl
@[simp] theorem State.modNvm_syncOut (s : State) (f : NvmSt → NvmSt) : (s.modNvm f).syncOut = s.syncOut := rfl
@[simp] theorem State.modNvm_syncIn (s : State) (f : NvmSt → NvmSt) : (s.modNvm f).syncIn = s.syncIn := rfl
@[simp] theorem State.modNvm_resp (s : State) (f : NvmSt → NvmSt) : (s.modNvm f).resp = s.resp := rfl
@[simp] theorem State.modNvm_out (s : State) (f : NvmSt → NvmSt) : (s.modNvm f).out = s.out := rfl
@[simp] theorem State.modNvm_fresh (s : State) (f : NvmSt → NvmSt) : (s.modNvm f).fresh = s.fresh := rfl
@[simp] theorem State.modNvm_pending (s : State) (f : NvmSt → NvmSt) : (s.modNvm f).pending = s.pending := rfl
@[simp] theorem State.modNvm_rw_of (s : State) (f : NvmSt → NvmSt) (x : Nat) : (s.modNvm f).rw x = s.rw x := rfl
@[simp] theorem State.modNvm_rd_of (s : State) (f : NvmSt → NvmSt) (x : Nat) (g : Fld) : (s.modNvm f).rd x g = s.rd x g := rfl
@[simp] theorem State.modNvm_on_of (s : State) (f : NvmSt → NvmSt) (x : Nat) (g : Fld) : (s.modNvm f).on x g = s.on x g := rfl
@[simp] theorem State.modNvm_frw_of (s : State) (f : NvmSt → NvmSt) (x : Nat) : (s.modNvm f).frw x = s.frw x := rfl
@[simp] theorem State.modNvm_frd_of (s : State) (f : NvmSt → NvmSt) (x : Nat) (g : Fld) : (s.modNvm f).frd x g = s.frd x g := rfl
@[simp] theorem State.modNvm_srw_of (s : State) (f : NvmSt → NvmSt) (x : Nat) : (s.modNvm f).srw x = s.srw x := rfl
@[simp] theorem State.modNvm_srd_of (s : State) (f : NvmSt → NvmSt) (x : Nat) (g : Fld) : (s.modNvm f).srd x g = s.srd x g := rfl
@[simp] theorem State.modNvm_lv_of (s : State) (f : NvmSt → NvmSt) (x : Nat) : (s.modNvm f).lv x = s.lv x := rfl
@[simp] theorem State.modNvm_pipe_of (s : State) (f : NvmSt → NvmSt) (x : Nat) : (s.modNvm f).pipe x = s.pipe x := rfl
@[simp] theorem State.modNvm_queue_of (s : State) (f : NvmSt → NvmSt) (x : Nat) : (s.modNvm f).queue x = s.queue x := rfl
@[simp] theorem State.modNvm_ch_of (s : State) (f : NvmSt → NvmSt) (x : Nat) : (s.modNvm f).ch x = s.ch x := rfl
@[simp] theorem State.modNvm_eng_of (s : State) (f : NvmSt → NvmSt) (x : Nat) : (s.modNvm f).eng x = s.eng x := rfl
@[simp] theorem State.modNvm_panel_of (s : State) (f : NvmSt → NvmSt) (x : Nat) : (s.modNvm f).panel x = s.panel x := rfl
@[simp] theorem State.modNvm_stream_of (s : State) (f : NvmSt → NvmSt) (x : Nat) : (s.modNvm f).stream x = s.stream x := rfl
@[simp] theorem State.modNvm_hap_of (s : State) (f : NvmSt → NvmSt) (x : Nat) : (s.modNvm f).hap x = s.hap x := rfl
@[simp] theorem State.modNvm_cap_of (s : State) (f : NvmSt → NvmSt) (x : Nat) : (s.modNvm f).cap x = s.cap x := rfl
@[simp] theorem State.modNvm_hart_of (s : State) (f : NvmSt → NvmSt) (x : Nat) : (s.modNvm f).hart x = s.hart x := rfl
@[simp] theorem State.modNvm_op_of (s : State) (f : NvmSt → NvmSt) (x : Nat) : (s.modNvm f).op x = s.op x := rfl
@[simp] theorem State.modNvm_rail_of (s : State) (f : NvmSt → NvmSt) (x : Nat) : (s.modNvm f).rail x = s.rail x := rfl
@[simp] theorem State.modNvm_stallState_of (s : State) (f : NvmSt → NvmSt) (x : Nat) : (s.modNvm f).stallState x = s.stallState x := rfl
@[simp] theorem State.modNvm_islandOn_of (s : State) (f : NvmSt → NvmSt) (x : Nat) : (s.modNvm f).islandOn x = s.islandOn x := rfl
@[simp] theorem State.modNvm_dstate_of (s : State) (f : NvmSt → NvmSt) : (s.modNvm f).dstate = s.dstate := rfl
@[simp] theorem State.modNvm_running_of (s : State) (f : NvmSt → NvmSt) : (s.modNvm f).running = s.running := rfl
@[simp] theorem State.modNvm_sramB_of (s : State) (f : NvmSt → NvmSt) (x : Nat) : (s.modNvm f).sramB x = s.sramB x := rfl
@[simp] theorem State.modNvm_dramB_of (s : State) (f : NvmSt → NvmSt) (x : Nat) : (s.modNvm f).dramB x = s.dramB x := rfl
@[simp] theorem State.modNvm_envB_of (s : State) (f : NvmSt → NvmSt) (x : Nat) : (s.modNvm f).envB x = s.envB x := rfl
@[simp] theorem State.modNvm_free_of (s : State) (f : NvmSt → NvmSt) : (s.modNvm f).free = s.free := rfl

/-! modSub -/
@[simp] theorem State.modSub_regs (s : State) (ch sc : Nat) (f : SubSt → SubSt) : (s.modSub ch sc f).regs = s.regs := rfl
@[simp] theorem State.modSub_force (s : State) (ch sc : Nat) (f : SubSt → SubSt) : (s.modSub ch sc f).force = s.force := rfl
@[simp] theorem State.modSub_scan (s : State) (ch sc : Nat) (f : SubSt → SubSt) : (s.modSub ch sc f).scan = s.scan := rfl
@[simp] theorem State.modSub_live (s : State) (ch sc : Nat) (f : SubSt → SubSt) : (s.modSub ch sc f).live = s.live := rfl
@[simp] theorem State.modSub_agreed (s : State) (ch sc : Nat) (f : SubSt → SubSt) : (s.modSub ch sc f).agreed = s.agreed := rfl
@[simp] theorem State.modSub_heldLow (s : State) (ch sc : Nat) (f : SubSt → SubSt) : (s.modSub ch sc f).heldLow = s.heldLow := rfl
@[simp] theorem State.modSub_kevtHeld (s : State) (ch sc : Nat) (f : SubSt → SubSt) : (s.modSub ch sc f).kevtHeld = s.kevtHeld := rfl
@[simp] theorem State.modSub_kevq (s : State) (ch sc : Nat) (f : SubSt → SubSt) : (s.modSub ch sc f).kevq = s.kevq := rfl
@[simp] theorem State.modSub_vrecRead (s : State) (ch sc : Nat) (f : SubSt → SubSt) : (s.modSub ch sc f).vrecRead = s.vrecRead := rfl
@[simp] theorem State.modSub_frozen (s : State) (ch sc : Nat) (f : SubSt → SubSt) : (s.modSub ch sc f).frozen = s.frozen := rfl
@[simp] theorem State.modSub_sram (s : State) (ch sc : Nat) (f : SubSt → SubSt) : (s.modSub ch sc f).sram = s.sram := rfl
@[simp] theorem State.modSub_dram (s : State) (ch sc : Nat) (f : SubSt → SubSt) : (s.modSub ch sc f).dram = s.dram := rfl
@[simp] theorem State.modSub_ecc (s : State) (ch sc : Nat) (f : SubSt → SubSt) : (s.modSub ch sc f).ecc = s.ecc := rfl
@[simp] theorem State.modSub_tlb (s : State) (ch sc : Nat) (f : SubSt → SubSt) : (s.modSub ch sc f).tlb = s.tlb := rfl
@[simp] theorem State.modSub_env (s : State) (ch sc : Nat) (f : SubSt → SubSt) : (s.modSub ch sc f).env = s.env := rfl
@[simp] theorem State.modSub_tally (s : State) (ch sc : Nat) (f : SubSt → SubSt) : (s.modSub ch sc f).tally = s.tally := rfl
@[simp] theorem State.modSub_pipes (s : State) (ch sc : Nat) (f : SubSt → SubSt) : (s.modSub ch sc f).pipes = s.pipes := rfl
@[simp] theorem State.modSub_led (s : State) (ch sc : Nat) (f : SubSt → SubSt) : (s.modSub ch sc f).led = s.led := rfl
@[simp] theorem State.modSub_queues (s : State) (ch sc : Nat) (f : SubSt → SubSt) : (s.modSub ch sc f).queues = s.queues := rfl
@[simp] theorem State.modSub_admitted (s : State) (ch sc : Nat) (f : SubSt → SubSt) : (s.modSub ch sc f).admitted = s.admitted := rfl
@[simp] theorem State.modSub_gpu (s : State) (ch sc : Nat) (f : SubSt → SubSt) : (s.modSub ch sc f).gpu = s.gpu := rfl
@[simp] theorem State.modSub_dmCh (s : State) (ch sc : Nat) (f : SubSt → SubSt) : (s.modSub ch sc f).dmCh = s.dmCh := rfl
@[simp] theorem State.modSub_dmEng (s : State) (ch sc : Nat) (f : SubSt → SubSt) : (s.modSub ch sc f).dmEng = s.dmEng := rfl
@[simp] theorem State.modSub_squashed (s : State) (ch sc : Nat) (f : SubSt → SubSt) : (s.modSub ch sc f).squashed = s.squashed := rfl
@[simp] theorem State.modSub_clearing (s : State) (ch sc : Nat) (f : SubSt → SubSt) : (s.modSub ch sc f).clearing = s.clearing := rfl
@[simp] theorem State.modSub_boot (s : State) (ch sc : Nat) (f : SubSt → SubSt) : (s.modSub ch sc f).boot = s.boot := rfl
@[simp] theorem State.modSub_harts (s : State) (ch sc : Nat) (f : SubSt → SubSt) : (s.modSub ch sc f).harts = s.harts := rfl
@[simp] theorem State.modSub_keeperTrap (s : State) (ch sc : Nat) (f : SubSt → SubSt) : (s.modSub ch sc f).keeperTrap = s.keeperTrap := rfl
@[simp] theorem State.modSub_power (s : State) (ch sc : Nat) (f : SubSt → SubSt) : (s.modSub ch sc f).power = s.power := rfl
@[simp] theorem State.modSub_sm (s : State) (ch sc : Nat) (f : SubSt → SubSt) : (s.modSub ch sc f).sm = s.sm := rfl
@[simp] theorem State.modSub_msr (s : State) (ch sc : Nat) (f : SubSt → SubSt) : (s.modSub ch sc f).msr = s.msr := rfl
@[simp] theorem State.modSub_nvm (s : State) (ch sc : Nat) (f : SubSt → SubSt) : (s.modSub ch sc f).nvm = s.nvm := rfl
@[simp] theorem State.modSub_panels (s : State) (ch sc : Nat) (f : SubSt → SubSt) : (s.modSub ch sc f).panels = s.panels := rfl
@[simp] theorem State.modSub_lineRuns (s : State) (ch sc : Nat) (f : SubSt → SubSt) : (s.modSub ch sc f).lineRuns = s.lineRuns := rfl
@[simp] theorem State.modSub_streams (s : State) (ch sc : Nat) (f : SubSt → SubSt) : (s.modSub ch sc f).streams = s.streams := rfl
@[simp] theorem State.modSub_haps (s : State) (ch sc : Nat) (f : SubSt → SubSt) : (s.modSub ch sc f).haps = s.haps := rfl
@[simp] theorem State.modSub_caps (s : State) (ch sc : Nat) (f : SubSt → SubSt) : (s.modSub ch sc f).caps = s.caps := rfl
@[simp] theorem State.modSub_mix (s : State) (ch sc : Nat) (f : SubSt → SubSt) : (s.modSub ch sc f).mix = s.mix := rfl
@[simp] theorem State.modSub_syncOut (s : State) (ch sc : Nat) (f : SubSt → SubSt) : (s.modSub ch sc f).syncOut = s.syncOut := rfl
@[simp] theorem State.modSub_syncIn (s : State) (ch sc : Nat) (f : SubSt → SubSt) : (s.modSub ch sc f).syncIn = s.syncIn := rfl
@[simp] theorem State.modSub_resp (s : State) (ch sc : Nat) (f : SubSt → SubSt) : (s.modSub ch sc f).resp = s.resp := rfl
@[simp] theorem State.modSub_out (s : State) (ch sc : Nat) (f : SubSt → SubSt) : (s.modSub ch sc f).out = s.out := rfl
@[simp] theorem State.modSub_fresh (s : State) (ch sc : Nat) (f : SubSt → SubSt) : (s.modSub ch sc f).fresh = s.fresh := rfl
@[simp] theorem State.modSub_pending (s : State) (ch sc : Nat) (f : SubSt → SubSt) : (s.modSub ch sc f).pending = s.pending := rfl
@[simp] theorem State.modSub_rw_of (s : State) (ch sc : Nat) (f : SubSt → SubSt) (x : Nat) : (s.modSub ch sc f).rw x = s.rw x := rfl
@[simp] theorem State.modSub_rd_of (s : State) (ch sc : Nat) (f : SubSt → SubSt) (x : Nat) (g : Fld) : (s.modSub ch sc f).rd x g = s.rd x g := rfl
@[simp] theorem State.modSub_on_of (s : State) (ch sc : Nat) (f : SubSt → SubSt) (x : Nat) (g : Fld) : (s.modSub ch sc f).on x g = s.on x g := rfl
@[simp] theorem State.modSub_frw_of (s : State) (ch sc : Nat) (f : SubSt → SubSt) (x : Nat) : (s.modSub ch sc f).frw x = s.frw x := rfl
@[simp] theorem State.modSub_frd_of (s : State) (ch sc : Nat) (f : SubSt → SubSt) (x : Nat) (g : Fld) : (s.modSub ch sc f).frd x g = s.frd x g := rfl
@[simp] theorem State.modSub_srw_of (s : State) (ch sc : Nat) (f : SubSt → SubSt) (x : Nat) : (s.modSub ch sc f).srw x = s.srw x := rfl
@[simp] theorem State.modSub_srd_of (s : State) (ch sc : Nat) (f : SubSt → SubSt) (x : Nat) (g : Fld) : (s.modSub ch sc f).srd x g = s.srd x g := rfl
@[simp] theorem State.modSub_lv_of (s : State) (ch sc : Nat) (f : SubSt → SubSt) (x : Nat) : (s.modSub ch sc f).lv x = s.lv x := rfl
@[simp] theorem State.modSub_pipe_of (s : State) (ch sc : Nat) (f : SubSt → SubSt) (x : Nat) : (s.modSub ch sc f).pipe x = s.pipe x := rfl
@[simp] theorem State.modSub_queue_of (s : State) (ch sc : Nat) (f : SubSt → SubSt) (x : Nat) : (s.modSub ch sc f).queue x = s.queue x := rfl
@[simp] theorem State.modSub_ch_of (s : State) (ch sc : Nat) (f : SubSt → SubSt) (x : Nat) : (s.modSub ch sc f).ch x = s.ch x := rfl
@[simp] theorem State.modSub_eng_of (s : State) (ch sc : Nat) (f : SubSt → SubSt) (x : Nat) : (s.modSub ch sc f).eng x = s.eng x := rfl
@[simp] theorem State.modSub_panel_of (s : State) (ch sc : Nat) (f : SubSt → SubSt) (x : Nat) : (s.modSub ch sc f).panel x = s.panel x := rfl
@[simp] theorem State.modSub_stream_of (s : State) (ch sc : Nat) (f : SubSt → SubSt) (x : Nat) : (s.modSub ch sc f).stream x = s.stream x := rfl
@[simp] theorem State.modSub_hap_of (s : State) (ch sc : Nat) (f : SubSt → SubSt) (x : Nat) : (s.modSub ch sc f).hap x = s.hap x := rfl
@[simp] theorem State.modSub_cap_of (s : State) (ch sc : Nat) (f : SubSt → SubSt) (x : Nat) : (s.modSub ch sc f).cap x = s.cap x := rfl
@[simp] theorem State.modSub_hart_of (s : State) (ch sc : Nat) (f : SubSt → SubSt) (x : Nat) : (s.modSub ch sc f).hart x = s.hart x := rfl
@[simp] theorem State.modSub_op_of (s : State) (ch sc : Nat) (f : SubSt → SubSt) (x : Nat) : (s.modSub ch sc f).op x = s.op x := rfl
@[simp] theorem State.modSub_rail_of (s : State) (ch sc : Nat) (f : SubSt → SubSt) (x : Nat) : (s.modSub ch sc f).rail x = s.rail x := rfl
@[simp] theorem State.modSub_stallState_of (s : State) (ch sc : Nat) (f : SubSt → SubSt) (x : Nat) : (s.modSub ch sc f).stallState x = s.stallState x := rfl
@[simp] theorem State.modSub_islandOn_of (s : State) (ch sc : Nat) (f : SubSt → SubSt) (x : Nat) : (s.modSub ch sc f).islandOn x = s.islandOn x := rfl
@[simp] theorem State.modSub_dstate_of (s : State) (ch sc : Nat) (f : SubSt → SubSt) : (s.modSub ch sc f).dstate = s.dstate := rfl
@[simp] theorem State.modSub_running_of (s : State) (ch sc : Nat) (f : SubSt → SubSt) : (s.modSub ch sc f).running = s.running := rfl
@[simp] theorem State.modSub_sramB_of (s : State) (ch sc : Nat) (f : SubSt → SubSt) (x : Nat) : (s.modSub ch sc f).sramB x = s.sramB x := rfl
@[simp] theorem State.modSub_dramB_of (s : State) (ch sc : Nat) (f : SubSt → SubSt) (x : Nat) : (s.modSub ch sc f).dramB x = s.dramB x := rfl
@[simp] theorem State.modSub_envB_of (s : State) (ch sc : Nat) (f : SubSt → SubSt) (x : Nat) : (s.modSub ch sc f).envB x = s.envB x := rfl
@[simp] theorem State.modSub_free_of (s : State) (ch sc : Nat) (f : SubSt → SubSt) : (s.modSub ch sc f).free = s.free := rfl

/-! modCh -/
@[simp] theorem State.modCh_regs (s : State) (n : Nat) (f : DmCh → DmCh) : (s.modCh n f).regs = s.regs := rfl
@[simp] theorem State.modCh_force (s : State) (n : Nat) (f : DmCh → DmCh) : (s.modCh n f).force = s.force := rfl
@[simp] theorem State.modCh_scan (s : State) (n : Nat) (f : DmCh → DmCh) : (s.modCh n f).scan = s.scan := rfl
@[simp] theorem State.modCh_live (s : State) (n : Nat) (f : DmCh → DmCh) : (s.modCh n f).live = s.live := rfl
@[simp] theorem State.modCh_agreed (s : State) (n : Nat) (f : DmCh → DmCh) : (s.modCh n f).agreed = s.agreed := rfl
@[simp] theorem State.modCh_heldLow (s : State) (n : Nat) (f : DmCh → DmCh) : (s.modCh n f).heldLow = s.heldLow := rfl
@[simp] theorem State.modCh_kevtHeld (s : State) (n : Nat) (f : DmCh → DmCh) : (s.modCh n f).kevtHeld = s.kevtHeld := rfl
@[simp] theorem State.modCh_kevq (s : State) (n : Nat) (f : DmCh → DmCh) : (s.modCh n f).kevq = s.kevq := rfl
@[simp] theorem State.modCh_vrecRead (s : State) (n : Nat) (f : DmCh → DmCh) : (s.modCh n f).vrecRead = s.vrecRead := rfl
@[simp] theorem State.modCh_frozen (s : State) (n : Nat) (f : DmCh → DmCh) : (s.modCh n f).frozen = s.frozen := rfl
@[simp] theorem State.modCh_sram (s : State) (n : Nat) (f : DmCh → DmCh) : (s.modCh n f).sram = s.sram := rfl
@[simp] theorem State.modCh_dram (s : State) (n : Nat) (f : DmCh → DmCh) : (s.modCh n f).dram = s.dram := rfl
@[simp] theorem State.modCh_ecc (s : State) (n : Nat) (f : DmCh → DmCh) : (s.modCh n f).ecc = s.ecc := rfl
@[simp] theorem State.modCh_tlb (s : State) (n : Nat) (f : DmCh → DmCh) : (s.modCh n f).tlb = s.tlb := rfl
@[simp] theorem State.modCh_env (s : State) (n : Nat) (f : DmCh → DmCh) : (s.modCh n f).env = s.env := rfl
@[simp] theorem State.modCh_tally (s : State) (n : Nat) (f : DmCh → DmCh) : (s.modCh n f).tally = s.tally := rfl
@[simp] theorem State.modCh_pipes (s : State) (n : Nat) (f : DmCh → DmCh) : (s.modCh n f).pipes = s.pipes := rfl
@[simp] theorem State.modCh_led (s : State) (n : Nat) (f : DmCh → DmCh) : (s.modCh n f).led = s.led := rfl
@[simp] theorem State.modCh_queues (s : State) (n : Nat) (f : DmCh → DmCh) : (s.modCh n f).queues = s.queues := rfl
@[simp] theorem State.modCh_admitted (s : State) (n : Nat) (f : DmCh → DmCh) : (s.modCh n f).admitted = s.admitted := rfl
@[simp] theorem State.modCh_gpu (s : State) (n : Nat) (f : DmCh → DmCh) : (s.modCh n f).gpu = s.gpu := rfl
@[simp] theorem State.modCh_dmEng (s : State) (n : Nat) (f : DmCh → DmCh) : (s.modCh n f).dmEng = s.dmEng := rfl
@[simp] theorem State.modCh_squashed (s : State) (n : Nat) (f : DmCh → DmCh) : (s.modCh n f).squashed = s.squashed := rfl
@[simp] theorem State.modCh_clearing (s : State) (n : Nat) (f : DmCh → DmCh) : (s.modCh n f).clearing = s.clearing := rfl
@[simp] theorem State.modCh_boot (s : State) (n : Nat) (f : DmCh → DmCh) : (s.modCh n f).boot = s.boot := rfl
@[simp] theorem State.modCh_harts (s : State) (n : Nat) (f : DmCh → DmCh) : (s.modCh n f).harts = s.harts := rfl
@[simp] theorem State.modCh_keeperTrap (s : State) (n : Nat) (f : DmCh → DmCh) : (s.modCh n f).keeperTrap = s.keeperTrap := rfl
@[simp] theorem State.modCh_power (s : State) (n : Nat) (f : DmCh → DmCh) : (s.modCh n f).power = s.power := rfl
@[simp] theorem State.modCh_sm (s : State) (n : Nat) (f : DmCh → DmCh) : (s.modCh n f).sm = s.sm := rfl
@[simp] theorem State.modCh_mem (s : State) (n : Nat) (f : DmCh → DmCh) : (s.modCh n f).mem = s.mem := rfl
@[simp] theorem State.modCh_msr (s : State) (n : Nat) (f : DmCh → DmCh) : (s.modCh n f).msr = s.msr := rfl
@[simp] theorem State.modCh_nvm (s : State) (n : Nat) (f : DmCh → DmCh) : (s.modCh n f).nvm = s.nvm := rfl
@[simp] theorem State.modCh_panels (s : State) (n : Nat) (f : DmCh → DmCh) : (s.modCh n f).panels = s.panels := rfl
@[simp] theorem State.modCh_lineRuns (s : State) (n : Nat) (f : DmCh → DmCh) : (s.modCh n f).lineRuns = s.lineRuns := rfl
@[simp] theorem State.modCh_streams (s : State) (n : Nat) (f : DmCh → DmCh) : (s.modCh n f).streams = s.streams := rfl
@[simp] theorem State.modCh_haps (s : State) (n : Nat) (f : DmCh → DmCh) : (s.modCh n f).haps = s.haps := rfl
@[simp] theorem State.modCh_caps (s : State) (n : Nat) (f : DmCh → DmCh) : (s.modCh n f).caps = s.caps := rfl
@[simp] theorem State.modCh_mix (s : State) (n : Nat) (f : DmCh → DmCh) : (s.modCh n f).mix = s.mix := rfl
@[simp] theorem State.modCh_syncOut (s : State) (n : Nat) (f : DmCh → DmCh) : (s.modCh n f).syncOut = s.syncOut := rfl
@[simp] theorem State.modCh_syncIn (s : State) (n : Nat) (f : DmCh → DmCh) : (s.modCh n f).syncIn = s.syncIn := rfl
@[simp] theorem State.modCh_resp (s : State) (n : Nat) (f : DmCh → DmCh) : (s.modCh n f).resp = s.resp := rfl
@[simp] theorem State.modCh_out (s : State) (n : Nat) (f : DmCh → DmCh) : (s.modCh n f).out = s.out := rfl
@[simp] theorem State.modCh_fresh (s : State) (n : Nat) (f : DmCh → DmCh) : (s.modCh n f).fresh = s.fresh := rfl
@[simp] theorem State.modCh_pending (s : State) (n : Nat) (f : DmCh → DmCh) : (s.modCh n f).pending = s.pending := rfl
@[simp] theorem State.modCh_rw_of (s : State) (n : Nat) (f : DmCh → DmCh) (x : Nat) : (s.modCh n f).rw x = s.rw x := rfl
@[simp] theorem State.modCh_rd_of (s : State) (n : Nat) (f : DmCh → DmCh) (x : Nat) (g : Fld) : (s.modCh n f).rd x g = s.rd x g := rfl
@[simp] theorem State.modCh_on_of (s : State) (n : Nat) (f : DmCh → DmCh) (x : Nat) (g : Fld) : (s.modCh n f).on x g = s.on x g := rfl
@[simp] theorem State.modCh_frw_of (s : State) (n : Nat) (f : DmCh → DmCh) (x : Nat) : (s.modCh n f).frw x = s.frw x := rfl
@[simp] theorem State.modCh_frd_of (s : State) (n : Nat) (f : DmCh → DmCh) (x : Nat) (g : Fld) : (s.modCh n f).frd x g = s.frd x g := rfl
@[simp] theorem State.modCh_srw_of (s : State) (n : Nat) (f : DmCh → DmCh) (x : Nat) : (s.modCh n f).srw x = s.srw x := rfl
@[simp] theorem State.modCh_srd_of (s : State) (n : Nat) (f : DmCh → DmCh) (x : Nat) (g : Fld) : (s.modCh n f).srd x g = s.srd x g := rfl
@[simp] theorem State.modCh_lv_of (s : State) (n : Nat) (f : DmCh → DmCh) (x : Nat) : (s.modCh n f).lv x = s.lv x := rfl
@[simp] theorem State.modCh_pipe_of (s : State) (n : Nat) (f : DmCh → DmCh) (x : Nat) : (s.modCh n f).pipe x = s.pipe x := rfl
@[simp] theorem State.modCh_queue_of (s : State) (n : Nat) (f : DmCh → DmCh) (x : Nat) : (s.modCh n f).queue x = s.queue x := rfl
@[simp] theorem State.modCh_eng_of (s : State) (n : Nat) (f : DmCh → DmCh) (x : Nat) : (s.modCh n f).eng x = s.eng x := rfl
@[simp] theorem State.modCh_panel_of (s : State) (n : Nat) (f : DmCh → DmCh) (x : Nat) : (s.modCh n f).panel x = s.panel x := rfl
@[simp] theorem State.modCh_stream_of (s : State) (n : Nat) (f : DmCh → DmCh) (x : Nat) : (s.modCh n f).stream x = s.stream x := rfl
@[simp] theorem State.modCh_hap_of (s : State) (n : Nat) (f : DmCh → DmCh) (x : Nat) : (s.modCh n f).hap x = s.hap x := rfl
@[simp] theorem State.modCh_cap_of (s : State) (n : Nat) (f : DmCh → DmCh) (x : Nat) : (s.modCh n f).cap x = s.cap x := rfl
@[simp] theorem State.modCh_hart_of (s : State) (n : Nat) (f : DmCh → DmCh) (x : Nat) : (s.modCh n f).hart x = s.hart x := rfl
@[simp] theorem State.modCh_op_of (s : State) (n : Nat) (f : DmCh → DmCh) (x : Nat) : (s.modCh n f).op x = s.op x := rfl
@[simp] theorem State.modCh_rail_of (s : State) (n : Nat) (f : DmCh → DmCh) (x : Nat) : (s.modCh n f).rail x = s.rail x := rfl
@[simp] theorem State.modCh_stallState_of (s : State) (n : Nat) (f : DmCh → DmCh) (x : Nat) : (s.modCh n f).stallState x = s.stallState x := rfl
@[simp] theorem State.modCh_islandOn_of (s : State) (n : Nat) (f : DmCh → DmCh) (x : Nat) : (s.modCh n f).islandOn x = s.islandOn x := rfl
@[simp] theorem State.modCh_dstate_of (s : State) (n : Nat) (f : DmCh → DmCh) : (s.modCh n f).dstate = s.dstate := rfl
@[simp] theorem State.modCh_running_of (s : State) (n : Nat) (f : DmCh → DmCh) : (s.modCh n f).running = s.running := rfl
@[simp] theorem State.modCh_sramB_of (s : State) (n : Nat) (f : DmCh → DmCh) (x : Nat) : (s.modCh n f).sramB x = s.sramB x := rfl
@[simp] theorem State.modCh_dramB_of (s : State) (n : Nat) (f : DmCh → DmCh) (x : Nat) : (s.modCh n f).dramB x = s.dramB x := rfl
@[simp] theorem State.modCh_envB_of (s : State) (n : Nat) (f : DmCh → DmCh) (x : Nat) : (s.modCh n f).envB x = s.envB x := rfl
@[simp] theorem State.modCh_free_of (s : State) (n : Nat) (f : DmCh → DmCh) : (s.modCh n f).free = s.free := rfl

/-! modEng -/
@[simp] theorem State.modEng_regs (s : State) (e : Nat) (f : DmEng → DmEng) : (s.modEng e f).regs = s.regs := rfl
@[simp] theorem State.modEng_force (s : State) (e : Nat) (f : DmEng → DmEng) : (s.modEng e f).force = s.force := rfl
@[simp] theorem State.modEng_scan (s : State) (e : Nat) (f : DmEng → DmEng) : (s.modEng e f).scan = s.scan := rfl
@[simp] theorem State.modEng_live (s : State) (e : Nat) (f : DmEng → DmEng) : (s.modEng e f).live = s.live := rfl
@[simp] theorem State.modEng_agreed (s : State) (e : Nat) (f : DmEng → DmEng) : (s.modEng e f).agreed = s.agreed := rfl
@[simp] theorem State.modEng_heldLow (s : State) (e : Nat) (f : DmEng → DmEng) : (s.modEng e f).heldLow = s.heldLow := rfl
@[simp] theorem State.modEng_kevtHeld (s : State) (e : Nat) (f : DmEng → DmEng) : (s.modEng e f).kevtHeld = s.kevtHeld := rfl
@[simp] theorem State.modEng_kevq (s : State) (e : Nat) (f : DmEng → DmEng) : (s.modEng e f).kevq = s.kevq := rfl
@[simp] theorem State.modEng_vrecRead (s : State) (e : Nat) (f : DmEng → DmEng) : (s.modEng e f).vrecRead = s.vrecRead := rfl
@[simp] theorem State.modEng_frozen (s : State) (e : Nat) (f : DmEng → DmEng) : (s.modEng e f).frozen = s.frozen := rfl
@[simp] theorem State.modEng_sram (s : State) (e : Nat) (f : DmEng → DmEng) : (s.modEng e f).sram = s.sram := rfl
@[simp] theorem State.modEng_dram (s : State) (e : Nat) (f : DmEng → DmEng) : (s.modEng e f).dram = s.dram := rfl
@[simp] theorem State.modEng_ecc (s : State) (e : Nat) (f : DmEng → DmEng) : (s.modEng e f).ecc = s.ecc := rfl
@[simp] theorem State.modEng_tlb (s : State) (e : Nat) (f : DmEng → DmEng) : (s.modEng e f).tlb = s.tlb := rfl
@[simp] theorem State.modEng_env (s : State) (e : Nat) (f : DmEng → DmEng) : (s.modEng e f).env = s.env := rfl
@[simp] theorem State.modEng_tally (s : State) (e : Nat) (f : DmEng → DmEng) : (s.modEng e f).tally = s.tally := rfl
@[simp] theorem State.modEng_pipes (s : State) (e : Nat) (f : DmEng → DmEng) : (s.modEng e f).pipes = s.pipes := rfl
@[simp] theorem State.modEng_led (s : State) (e : Nat) (f : DmEng → DmEng) : (s.modEng e f).led = s.led := rfl
@[simp] theorem State.modEng_queues (s : State) (e : Nat) (f : DmEng → DmEng) : (s.modEng e f).queues = s.queues := rfl
@[simp] theorem State.modEng_admitted (s : State) (e : Nat) (f : DmEng → DmEng) : (s.modEng e f).admitted = s.admitted := rfl
@[simp] theorem State.modEng_gpu (s : State) (e : Nat) (f : DmEng → DmEng) : (s.modEng e f).gpu = s.gpu := rfl
@[simp] theorem State.modEng_dmCh (s : State) (e : Nat) (f : DmEng → DmEng) : (s.modEng e f).dmCh = s.dmCh := rfl
@[simp] theorem State.modEng_squashed (s : State) (e : Nat) (f : DmEng → DmEng) : (s.modEng e f).squashed = s.squashed := rfl
@[simp] theorem State.modEng_clearing (s : State) (e : Nat) (f : DmEng → DmEng) : (s.modEng e f).clearing = s.clearing := rfl
@[simp] theorem State.modEng_boot (s : State) (e : Nat) (f : DmEng → DmEng) : (s.modEng e f).boot = s.boot := rfl
@[simp] theorem State.modEng_harts (s : State) (e : Nat) (f : DmEng → DmEng) : (s.modEng e f).harts = s.harts := rfl
@[simp] theorem State.modEng_keeperTrap (s : State) (e : Nat) (f : DmEng → DmEng) : (s.modEng e f).keeperTrap = s.keeperTrap := rfl
@[simp] theorem State.modEng_power (s : State) (e : Nat) (f : DmEng → DmEng) : (s.modEng e f).power = s.power := rfl
@[simp] theorem State.modEng_sm (s : State) (e : Nat) (f : DmEng → DmEng) : (s.modEng e f).sm = s.sm := rfl
@[simp] theorem State.modEng_mem (s : State) (e : Nat) (f : DmEng → DmEng) : (s.modEng e f).mem = s.mem := rfl
@[simp] theorem State.modEng_msr (s : State) (e : Nat) (f : DmEng → DmEng) : (s.modEng e f).msr = s.msr := rfl
@[simp] theorem State.modEng_nvm (s : State) (e : Nat) (f : DmEng → DmEng) : (s.modEng e f).nvm = s.nvm := rfl
@[simp] theorem State.modEng_panels (s : State) (e : Nat) (f : DmEng → DmEng) : (s.modEng e f).panels = s.panels := rfl
@[simp] theorem State.modEng_lineRuns (s : State) (e : Nat) (f : DmEng → DmEng) : (s.modEng e f).lineRuns = s.lineRuns := rfl
@[simp] theorem State.modEng_streams (s : State) (e : Nat) (f : DmEng → DmEng) : (s.modEng e f).streams = s.streams := rfl
@[simp] theorem State.modEng_haps (s : State) (e : Nat) (f : DmEng → DmEng) : (s.modEng e f).haps = s.haps := rfl
@[simp] theorem State.modEng_caps (s : State) (e : Nat) (f : DmEng → DmEng) : (s.modEng e f).caps = s.caps := rfl
@[simp] theorem State.modEng_mix (s : State) (e : Nat) (f : DmEng → DmEng) : (s.modEng e f).mix = s.mix := rfl
@[simp] theorem State.modEng_syncOut (s : State) (e : Nat) (f : DmEng → DmEng) : (s.modEng e f).syncOut = s.syncOut := rfl
@[simp] theorem State.modEng_syncIn (s : State) (e : Nat) (f : DmEng → DmEng) : (s.modEng e f).syncIn = s.syncIn := rfl
@[simp] theorem State.modEng_resp (s : State) (e : Nat) (f : DmEng → DmEng) : (s.modEng e f).resp = s.resp := rfl
@[simp] theorem State.modEng_out (s : State) (e : Nat) (f : DmEng → DmEng) : (s.modEng e f).out = s.out := rfl
@[simp] theorem State.modEng_fresh (s : State) (e : Nat) (f : DmEng → DmEng) : (s.modEng e f).fresh = s.fresh := rfl
@[simp] theorem State.modEng_pending (s : State) (e : Nat) (f : DmEng → DmEng) : (s.modEng e f).pending = s.pending := rfl
@[simp] theorem State.modEng_rw_of (s : State) (e : Nat) (f : DmEng → DmEng) (x : Nat) : (s.modEng e f).rw x = s.rw x := rfl
@[simp] theorem State.modEng_rd_of (s : State) (e : Nat) (f : DmEng → DmEng) (x : Nat) (g : Fld) : (s.modEng e f).rd x g = s.rd x g := rfl
@[simp] theorem State.modEng_on_of (s : State) (e : Nat) (f : DmEng → DmEng) (x : Nat) (g : Fld) : (s.modEng e f).on x g = s.on x g := rfl
@[simp] theorem State.modEng_frw_of (s : State) (e : Nat) (f : DmEng → DmEng) (x : Nat) : (s.modEng e f).frw x = s.frw x := rfl
@[simp] theorem State.modEng_frd_of (s : State) (e : Nat) (f : DmEng → DmEng) (x : Nat) (g : Fld) : (s.modEng e f).frd x g = s.frd x g := rfl
@[simp] theorem State.modEng_srw_of (s : State) (e : Nat) (f : DmEng → DmEng) (x : Nat) : (s.modEng e f).srw x = s.srw x := rfl
@[simp] theorem State.modEng_srd_of (s : State) (e : Nat) (f : DmEng → DmEng) (x : Nat) (g : Fld) : (s.modEng e f).srd x g = s.srd x g := rfl
@[simp] theorem State.modEng_lv_of (s : State) (e : Nat) (f : DmEng → DmEng) (x : Nat) : (s.modEng e f).lv x = s.lv x := rfl
@[simp] theorem State.modEng_pipe_of (s : State) (e : Nat) (f : DmEng → DmEng) (x : Nat) : (s.modEng e f).pipe x = s.pipe x := rfl
@[simp] theorem State.modEng_queue_of (s : State) (e : Nat) (f : DmEng → DmEng) (x : Nat) : (s.modEng e f).queue x = s.queue x := rfl
@[simp] theorem State.modEng_ch_of (s : State) (e : Nat) (f : DmEng → DmEng) (x : Nat) : (s.modEng e f).ch x = s.ch x := rfl
@[simp] theorem State.modEng_panel_of (s : State) (e : Nat) (f : DmEng → DmEng) (x : Nat) : (s.modEng e f).panel x = s.panel x := rfl
@[simp] theorem State.modEng_stream_of (s : State) (e : Nat) (f : DmEng → DmEng) (x : Nat) : (s.modEng e f).stream x = s.stream x := rfl
@[simp] theorem State.modEng_hap_of (s : State) (e : Nat) (f : DmEng → DmEng) (x : Nat) : (s.modEng e f).hap x = s.hap x := rfl
@[simp] theorem State.modEng_cap_of (s : State) (e : Nat) (f : DmEng → DmEng) (x : Nat) : (s.modEng e f).cap x = s.cap x := rfl
@[simp] theorem State.modEng_hart_of (s : State) (e : Nat) (f : DmEng → DmEng) (x : Nat) : (s.modEng e f).hart x = s.hart x := rfl
@[simp] theorem State.modEng_op_of (s : State) (e : Nat) (f : DmEng → DmEng) (x : Nat) : (s.modEng e f).op x = s.op x := rfl
@[simp] theorem State.modEng_rail_of (s : State) (e : Nat) (f : DmEng → DmEng) (x : Nat) : (s.modEng e f).rail x = s.rail x := rfl
@[simp] theorem State.modEng_stallState_of (s : State) (e : Nat) (f : DmEng → DmEng) (x : Nat) : (s.modEng e f).stallState x = s.stallState x := rfl
@[simp] theorem State.modEng_islandOn_of (s : State) (e : Nat) (f : DmEng → DmEng) (x : Nat) : (s.modEng e f).islandOn x = s.islandOn x := rfl
@[simp] theorem State.modEng_dstate_of (s : State) (e : Nat) (f : DmEng → DmEng) : (s.modEng e f).dstate = s.dstate := rfl
@[simp] theorem State.modEng_running_of (s : State) (e : Nat) (f : DmEng → DmEng) : (s.modEng e f).running = s.running := rfl
@[simp] theorem State.modEng_sramB_of (s : State) (e : Nat) (f : DmEng → DmEng) (x : Nat) : (s.modEng e f).sramB x = s.sramB x := rfl
@[simp] theorem State.modEng_dramB_of (s : State) (e : Nat) (f : DmEng → DmEng) (x : Nat) : (s.modEng e f).dramB x = s.dramB x := rfl
@[simp] theorem State.modEng_envB_of (s : State) (e : Nat) (f : DmEng → DmEng) (x : Nat) : (s.modEng e f).envB x = s.envB x := rfl
@[simp] theorem State.modEng_free_of (s : State) (e : Nat) (f : DmEng → DmEng) : (s.modEng e f).free = s.free := rfl

/-! modPower -/
@[simp] theorem State.modPower_regs (s : State) (f : PowerSt → PowerSt) : (s.modPower f).regs = s.regs := rfl
@[simp] theorem State.modPower_force (s : State) (f : PowerSt → PowerSt) : (s.modPower f).force = s.force := rfl
@[simp] theorem State.modPower_scan (s : State) (f : PowerSt → PowerSt) : (s.modPower f).scan = s.scan := rfl
@[simp] theorem State.modPower_live (s : State) (f : PowerSt → PowerSt) : (s.modPower f).live = s.live := rfl
@[simp] theorem State.modPower_agreed (s : State) (f : PowerSt → PowerSt) : (s.modPower f).agreed = s.agreed := rfl
@[simp] theorem State.modPower_heldLow (s : State) (f : PowerSt → PowerSt) : (s.modPower f).heldLow = s.heldLow := rfl
@[simp] theorem State.modPower_kevtHeld (s : State) (f : PowerSt → PowerSt) : (s.modPower f).kevtHeld = s.kevtHeld := rfl
@[simp] theorem State.modPower_kevq (s : State) (f : PowerSt → PowerSt) : (s.modPower f).kevq = s.kevq := rfl
@[simp] theorem State.modPower_vrecRead (s : State) (f : PowerSt → PowerSt) : (s.modPower f).vrecRead = s.vrecRead := rfl
@[simp] theorem State.modPower_frozen (s : State) (f : PowerSt → PowerSt) : (s.modPower f).frozen = s.frozen := rfl
@[simp] theorem State.modPower_sram (s : State) (f : PowerSt → PowerSt) : (s.modPower f).sram = s.sram := rfl
@[simp] theorem State.modPower_dram (s : State) (f : PowerSt → PowerSt) : (s.modPower f).dram = s.dram := rfl
@[simp] theorem State.modPower_ecc (s : State) (f : PowerSt → PowerSt) : (s.modPower f).ecc = s.ecc := rfl
@[simp] theorem State.modPower_tlb (s : State) (f : PowerSt → PowerSt) : (s.modPower f).tlb = s.tlb := rfl
@[simp] theorem State.modPower_env (s : State) (f : PowerSt → PowerSt) : (s.modPower f).env = s.env := rfl
@[simp] theorem State.modPower_tally (s : State) (f : PowerSt → PowerSt) : (s.modPower f).tally = s.tally := rfl
@[simp] theorem State.modPower_pipes (s : State) (f : PowerSt → PowerSt) : (s.modPower f).pipes = s.pipes := rfl
@[simp] theorem State.modPower_led (s : State) (f : PowerSt → PowerSt) : (s.modPower f).led = s.led := rfl
@[simp] theorem State.modPower_queues (s : State) (f : PowerSt → PowerSt) : (s.modPower f).queues = s.queues := rfl
@[simp] theorem State.modPower_admitted (s : State) (f : PowerSt → PowerSt) : (s.modPower f).admitted = s.admitted := rfl
@[simp] theorem State.modPower_gpu (s : State) (f : PowerSt → PowerSt) : (s.modPower f).gpu = s.gpu := rfl
@[simp] theorem State.modPower_dmCh (s : State) (f : PowerSt → PowerSt) : (s.modPower f).dmCh = s.dmCh := rfl
@[simp] theorem State.modPower_dmEng (s : State) (f : PowerSt → PowerSt) : (s.modPower f).dmEng = s.dmEng := rfl
@[simp] theorem State.modPower_squashed (s : State) (f : PowerSt → PowerSt) : (s.modPower f).squashed = s.squashed := rfl
@[simp] theorem State.modPower_clearing (s : State) (f : PowerSt → PowerSt) : (s.modPower f).clearing = s.clearing := rfl
@[simp] theorem State.modPower_boot (s : State) (f : PowerSt → PowerSt) : (s.modPower f).boot = s.boot := rfl
@[simp] theorem State.modPower_harts (s : State) (f : PowerSt → PowerSt) : (s.modPower f).harts = s.harts := rfl
@[simp] theorem State.modPower_keeperTrap (s : State) (f : PowerSt → PowerSt) : (s.modPower f).keeperTrap = s.keeperTrap := rfl
@[simp] theorem State.modPower_sm (s : State) (f : PowerSt → PowerSt) : (s.modPower f).sm = s.sm := rfl
@[simp] theorem State.modPower_mem (s : State) (f : PowerSt → PowerSt) : (s.modPower f).mem = s.mem := rfl
@[simp] theorem State.modPower_msr (s : State) (f : PowerSt → PowerSt) : (s.modPower f).msr = s.msr := rfl
@[simp] theorem State.modPower_nvm (s : State) (f : PowerSt → PowerSt) : (s.modPower f).nvm = s.nvm := rfl
@[simp] theorem State.modPower_panels (s : State) (f : PowerSt → PowerSt) : (s.modPower f).panels = s.panels := rfl
@[simp] theorem State.modPower_lineRuns (s : State) (f : PowerSt → PowerSt) : (s.modPower f).lineRuns = s.lineRuns := rfl
@[simp] theorem State.modPower_streams (s : State) (f : PowerSt → PowerSt) : (s.modPower f).streams = s.streams := rfl
@[simp] theorem State.modPower_haps (s : State) (f : PowerSt → PowerSt) : (s.modPower f).haps = s.haps := rfl
@[simp] theorem State.modPower_caps (s : State) (f : PowerSt → PowerSt) : (s.modPower f).caps = s.caps := rfl
@[simp] theorem State.modPower_mix (s : State) (f : PowerSt → PowerSt) : (s.modPower f).mix = s.mix := rfl
@[simp] theorem State.modPower_syncOut (s : State) (f : PowerSt → PowerSt) : (s.modPower f).syncOut = s.syncOut := rfl
@[simp] theorem State.modPower_syncIn (s : State) (f : PowerSt → PowerSt) : (s.modPower f).syncIn = s.syncIn := rfl
@[simp] theorem State.modPower_resp (s : State) (f : PowerSt → PowerSt) : (s.modPower f).resp = s.resp := rfl
@[simp] theorem State.modPower_out (s : State) (f : PowerSt → PowerSt) : (s.modPower f).out = s.out := rfl
@[simp] theorem State.modPower_fresh (s : State) (f : PowerSt → PowerSt) : (s.modPower f).fresh = s.fresh := rfl
@[simp] theorem State.modPower_pending (s : State) (f : PowerSt → PowerSt) : (s.modPower f).pending = s.pending := rfl
@[simp] theorem State.modPower_rw_of (s : State) (f : PowerSt → PowerSt) (x : Nat) : (s.modPower f).rw x = s.rw x := rfl
@[simp] theorem State.modPower_rd_of (s : State) (f : PowerSt → PowerSt) (x : Nat) (g : Fld) : (s.modPower f).rd x g = s.rd x g := rfl
@[simp] theorem State.modPower_on_of (s : State) (f : PowerSt → PowerSt) (x : Nat) (g : Fld) : (s.modPower f).on x g = s.on x g := rfl
@[simp] theorem State.modPower_frw_of (s : State) (f : PowerSt → PowerSt) (x : Nat) : (s.modPower f).frw x = s.frw x := rfl
@[simp] theorem State.modPower_frd_of (s : State) (f : PowerSt → PowerSt) (x : Nat) (g : Fld) : (s.modPower f).frd x g = s.frd x g := rfl
@[simp] theorem State.modPower_srw_of (s : State) (f : PowerSt → PowerSt) (x : Nat) : (s.modPower f).srw x = s.srw x := rfl
@[simp] theorem State.modPower_srd_of (s : State) (f : PowerSt → PowerSt) (x : Nat) (g : Fld) : (s.modPower f).srd x g = s.srd x g := rfl
@[simp] theorem State.modPower_lv_of (s : State) (f : PowerSt → PowerSt) (x : Nat) : (s.modPower f).lv x = s.lv x := rfl
@[simp] theorem State.modPower_pipe_of (s : State) (f : PowerSt → PowerSt) (x : Nat) : (s.modPower f).pipe x = s.pipe x := rfl
@[simp] theorem State.modPower_queue_of (s : State) (f : PowerSt → PowerSt) (x : Nat) : (s.modPower f).queue x = s.queue x := rfl
@[simp] theorem State.modPower_ch_of (s : State) (f : PowerSt → PowerSt) (x : Nat) : (s.modPower f).ch x = s.ch x := rfl
@[simp] theorem State.modPower_eng_of (s : State) (f : PowerSt → PowerSt) (x : Nat) : (s.modPower f).eng x = s.eng x := rfl
@[simp] theorem State.modPower_panel_of (s : State) (f : PowerSt → PowerSt) (x : Nat) : (s.modPower f).panel x = s.panel x := rfl
@[simp] theorem State.modPower_stream_of (s : State) (f : PowerSt → PowerSt) (x : Nat) : (s.modPower f).stream x = s.stream x := rfl
@[simp] theorem State.modPower_hap_of (s : State) (f : PowerSt → PowerSt) (x : Nat) : (s.modPower f).hap x = s.hap x := rfl
@[simp] theorem State.modPower_cap_of (s : State) (f : PowerSt → PowerSt) (x : Nat) : (s.modPower f).cap x = s.cap x := rfl
@[simp] theorem State.modPower_hart_of (s : State) (f : PowerSt → PowerSt) (x : Nat) : (s.modPower f).hart x = s.hart x := rfl
@[simp] theorem State.modPower_op_of (s : State) (f : PowerSt → PowerSt) (x : Nat) : (s.modPower f).op x = s.op x := rfl
@[simp] theorem State.modPower_stallState_of (s : State) (f : PowerSt → PowerSt) (x : Nat) : (s.modPower f).stallState x = s.stallState x := rfl
@[simp] theorem State.modPower_islandOn_of (s : State) (f : PowerSt → PowerSt) (x : Nat) : (s.modPower f).islandOn x = s.islandOn x := rfl
@[simp] theorem State.modPower_dstate_of (s : State) (f : PowerSt → PowerSt) : (s.modPower f).dstate = s.dstate := rfl
@[simp] theorem State.modPower_running_of (s : State) (f : PowerSt → PowerSt) : (s.modPower f).running = s.running := rfl
@[simp] theorem State.modPower_sramB_of (s : State) (f : PowerSt → PowerSt) (x : Nat) : (s.modPower f).sramB x = s.sramB x := rfl
@[simp] theorem State.modPower_dramB_of (s : State) (f : PowerSt → PowerSt) (x : Nat) : (s.modPower f).dramB x = s.dramB x := rfl
@[simp] theorem State.modPower_envB_of (s : State) (f : PowerSt → PowerSt) (x : Nat) : (s.modPower f).envB x = s.envB x := rfl
@[simp] theorem State.modPower_free_of (s : State) (f : PowerSt → PowerSt) : (s.modPower f).free = s.free := rfl

/-! modRail -/
@[simp] theorem State.modRail_regs (s : State) (r : Nat) (f : RailSt → RailSt) : (s.modRail r f).regs = s.regs := rfl
@[simp] theorem State.modRail_force (s : State) (r : Nat) (f : RailSt → RailSt) : (s.modRail r f).force = s.force := rfl
@[simp] theorem State.modRail_scan (s : State) (r : Nat) (f : RailSt → RailSt) : (s.modRail r f).scan = s.scan := rfl
@[simp] theorem State.modRail_live (s : State) (r : Nat) (f : RailSt → RailSt) : (s.modRail r f).live = s.live := rfl
@[simp] theorem State.modRail_agreed (s : State) (r : Nat) (f : RailSt → RailSt) : (s.modRail r f).agreed = s.agreed := rfl
@[simp] theorem State.modRail_heldLow (s : State) (r : Nat) (f : RailSt → RailSt) : (s.modRail r f).heldLow = s.heldLow := rfl
@[simp] theorem State.modRail_kevtHeld (s : State) (r : Nat) (f : RailSt → RailSt) : (s.modRail r f).kevtHeld = s.kevtHeld := rfl
@[simp] theorem State.modRail_kevq (s : State) (r : Nat) (f : RailSt → RailSt) : (s.modRail r f).kevq = s.kevq := rfl
@[simp] theorem State.modRail_vrecRead (s : State) (r : Nat) (f : RailSt → RailSt) : (s.modRail r f).vrecRead = s.vrecRead := rfl
@[simp] theorem State.modRail_frozen (s : State) (r : Nat) (f : RailSt → RailSt) : (s.modRail r f).frozen = s.frozen := rfl
@[simp] theorem State.modRail_sram (s : State) (r : Nat) (f : RailSt → RailSt) : (s.modRail r f).sram = s.sram := rfl
@[simp] theorem State.modRail_dram (s : State) (r : Nat) (f : RailSt → RailSt) : (s.modRail r f).dram = s.dram := rfl
@[simp] theorem State.modRail_ecc (s : State) (r : Nat) (f : RailSt → RailSt) : (s.modRail r f).ecc = s.ecc := rfl
@[simp] theorem State.modRail_tlb (s : State) (r : Nat) (f : RailSt → RailSt) : (s.modRail r f).tlb = s.tlb := rfl
@[simp] theorem State.modRail_env (s : State) (r : Nat) (f : RailSt → RailSt) : (s.modRail r f).env = s.env := rfl
@[simp] theorem State.modRail_tally (s : State) (r : Nat) (f : RailSt → RailSt) : (s.modRail r f).tally = s.tally := rfl
@[simp] theorem State.modRail_pipes (s : State) (r : Nat) (f : RailSt → RailSt) : (s.modRail r f).pipes = s.pipes := rfl
@[simp] theorem State.modRail_led (s : State) (r : Nat) (f : RailSt → RailSt) : (s.modRail r f).led = s.led := rfl
@[simp] theorem State.modRail_queues (s : State) (r : Nat) (f : RailSt → RailSt) : (s.modRail r f).queues = s.queues := rfl
@[simp] theorem State.modRail_admitted (s : State) (r : Nat) (f : RailSt → RailSt) : (s.modRail r f).admitted = s.admitted := rfl
@[simp] theorem State.modRail_gpu (s : State) (r : Nat) (f : RailSt → RailSt) : (s.modRail r f).gpu = s.gpu := rfl
@[simp] theorem State.modRail_dmCh (s : State) (r : Nat) (f : RailSt → RailSt) : (s.modRail r f).dmCh = s.dmCh := rfl
@[simp] theorem State.modRail_dmEng (s : State) (r : Nat) (f : RailSt → RailSt) : (s.modRail r f).dmEng = s.dmEng := rfl
@[simp] theorem State.modRail_squashed (s : State) (r : Nat) (f : RailSt → RailSt) : (s.modRail r f).squashed = s.squashed := rfl
@[simp] theorem State.modRail_clearing (s : State) (r : Nat) (f : RailSt → RailSt) : (s.modRail r f).clearing = s.clearing := rfl
@[simp] theorem State.modRail_boot (s : State) (r : Nat) (f : RailSt → RailSt) : (s.modRail r f).boot = s.boot := rfl
@[simp] theorem State.modRail_harts (s : State) (r : Nat) (f : RailSt → RailSt) : (s.modRail r f).harts = s.harts := rfl
@[simp] theorem State.modRail_keeperTrap (s : State) (r : Nat) (f : RailSt → RailSt) : (s.modRail r f).keeperTrap = s.keeperTrap := rfl
@[simp] theorem State.modRail_sm (s : State) (r : Nat) (f : RailSt → RailSt) : (s.modRail r f).sm = s.sm := rfl
@[simp] theorem State.modRail_mem (s : State) (r : Nat) (f : RailSt → RailSt) : (s.modRail r f).mem = s.mem := rfl
@[simp] theorem State.modRail_msr (s : State) (r : Nat) (f : RailSt → RailSt) : (s.modRail r f).msr = s.msr := rfl
@[simp] theorem State.modRail_nvm (s : State) (r : Nat) (f : RailSt → RailSt) : (s.modRail r f).nvm = s.nvm := rfl
@[simp] theorem State.modRail_panels (s : State) (r : Nat) (f : RailSt → RailSt) : (s.modRail r f).panels = s.panels := rfl
@[simp] theorem State.modRail_lineRuns (s : State) (r : Nat) (f : RailSt → RailSt) : (s.modRail r f).lineRuns = s.lineRuns := rfl
@[simp] theorem State.modRail_streams (s : State) (r : Nat) (f : RailSt → RailSt) : (s.modRail r f).streams = s.streams := rfl
@[simp] theorem State.modRail_haps (s : State) (r : Nat) (f : RailSt → RailSt) : (s.modRail r f).haps = s.haps := rfl
@[simp] theorem State.modRail_caps (s : State) (r : Nat) (f : RailSt → RailSt) : (s.modRail r f).caps = s.caps := rfl
@[simp] theorem State.modRail_mix (s : State) (r : Nat) (f : RailSt → RailSt) : (s.modRail r f).mix = s.mix := rfl
@[simp] theorem State.modRail_syncOut (s : State) (r : Nat) (f : RailSt → RailSt) : (s.modRail r f).syncOut = s.syncOut := rfl
@[simp] theorem State.modRail_syncIn (s : State) (r : Nat) (f : RailSt → RailSt) : (s.modRail r f).syncIn = s.syncIn := rfl
@[simp] theorem State.modRail_resp (s : State) (r : Nat) (f : RailSt → RailSt) : (s.modRail r f).resp = s.resp := rfl
@[simp] theorem State.modRail_out (s : State) (r : Nat) (f : RailSt → RailSt) : (s.modRail r f).out = s.out := rfl
@[simp] theorem State.modRail_fresh (s : State) (r : Nat) (f : RailSt → RailSt) : (s.modRail r f).fresh = s.fresh := rfl
@[simp] theorem State.modRail_pending (s : State) (r : Nat) (f : RailSt → RailSt) : (s.modRail r f).pending = s.pending := rfl
@[simp] theorem State.modRail_rw_of (s : State) (r : Nat) (f : RailSt → RailSt) (x : Nat) : (s.modRail r f).rw x = s.rw x := rfl
@[simp] theorem State.modRail_rd_of (s : State) (r : Nat) (f : RailSt → RailSt) (x : Nat) (g : Fld) : (s.modRail r f).rd x g = s.rd x g := rfl
@[simp] theorem State.modRail_on_of (s : State) (r : Nat) (f : RailSt → RailSt) (x : Nat) (g : Fld) : (s.modRail r f).on x g = s.on x g := rfl
@[simp] theorem State.modRail_frw_of (s : State) (r : Nat) (f : RailSt → RailSt) (x : Nat) : (s.modRail r f).frw x = s.frw x := rfl
@[simp] theorem State.modRail_frd_of (s : State) (r : Nat) (f : RailSt → RailSt) (x : Nat) (g : Fld) : (s.modRail r f).frd x g = s.frd x g := rfl
@[simp] theorem State.modRail_srw_of (s : State) (r : Nat) (f : RailSt → RailSt) (x : Nat) : (s.modRail r f).srw x = s.srw x := rfl
@[simp] theorem State.modRail_srd_of (s : State) (r : Nat) (f : RailSt → RailSt) (x : Nat) (g : Fld) : (s.modRail r f).srd x g = s.srd x g := rfl
@[simp] theorem State.modRail_lv_of (s : State) (r : Nat) (f : RailSt → RailSt) (x : Nat) : (s.modRail r f).lv x = s.lv x := rfl
@[simp] theorem State.modRail_pipe_of (s : State) (r : Nat) (f : RailSt → RailSt) (x : Nat) : (s.modRail r f).pipe x = s.pipe x := rfl
@[simp] theorem State.modRail_queue_of (s : State) (r : Nat) (f : RailSt → RailSt) (x : Nat) : (s.modRail r f).queue x = s.queue x := rfl
@[simp] theorem State.modRail_ch_of (s : State) (r : Nat) (f : RailSt → RailSt) (x : Nat) : (s.modRail r f).ch x = s.ch x := rfl
@[simp] theorem State.modRail_eng_of (s : State) (r : Nat) (f : RailSt → RailSt) (x : Nat) : (s.modRail r f).eng x = s.eng x := rfl
@[simp] theorem State.modRail_panel_of (s : State) (r : Nat) (f : RailSt → RailSt) (x : Nat) : (s.modRail r f).panel x = s.panel x := rfl
@[simp] theorem State.modRail_stream_of (s : State) (r : Nat) (f : RailSt → RailSt) (x : Nat) : (s.modRail r f).stream x = s.stream x := rfl
@[simp] theorem State.modRail_hap_of (s : State) (r : Nat) (f : RailSt → RailSt) (x : Nat) : (s.modRail r f).hap x = s.hap x := rfl
@[simp] theorem State.modRail_cap_of (s : State) (r : Nat) (f : RailSt → RailSt) (x : Nat) : (s.modRail r f).cap x = s.cap x := rfl
@[simp] theorem State.modRail_hart_of (s : State) (r : Nat) (f : RailSt → RailSt) (x : Nat) : (s.modRail r f).hart x = s.hart x := rfl
@[simp] theorem State.modRail_op_of (s : State) (r : Nat) (f : RailSt → RailSt) (x : Nat) : (s.modRail r f).op x = s.op x := rfl
@[simp] theorem State.modRail_stallState_of (s : State) (r : Nat) (f : RailSt → RailSt) (x : Nat) : (s.modRail r f).stallState x = s.stallState x := rfl
@[simp] theorem State.modRail_islandOn_of (s : State) (r : Nat) (f : RailSt → RailSt) (x : Nat) : (s.modRail r f).islandOn x = s.islandOn x := rfl
@[simp] theorem State.modRail_dstate_of (s : State) (r : Nat) (f : RailSt → RailSt) : (s.modRail r f).dstate = s.dstate := rfl
@[simp] theorem State.modRail_running_of (s : State) (r : Nat) (f : RailSt → RailSt) : (s.modRail r f).running = s.running := rfl
@[simp] theorem State.modRail_sramB_of (s : State) (r : Nat) (f : RailSt → RailSt) (x : Nat) : (s.modRail r f).sramB x = s.sramB x := rfl
@[simp] theorem State.modRail_dramB_of (s : State) (r : Nat) (f : RailSt → RailSt) (x : Nat) : (s.modRail r f).dramB x = s.dramB x := rfl
@[simp] theorem State.modRail_envB_of (s : State) (r : Nat) (f : RailSt → RailSt) (x : Nat) : (s.modRail r f).envB x = s.envB x := rfl
@[simp] theorem State.modRail_free_of (s : State) (r : Nat) (f : RailSt → RailSt) : (s.modRail r f).free = s.free := rfl

/-! modPanel -/
@[simp] theorem State.modPanel_regs (s : State) (p : Nat) (f : PanelSt → PanelSt) : (s.modPanel p f).regs = s.regs := rfl
@[simp] theorem State.modPanel_force (s : State) (p : Nat) (f : PanelSt → PanelSt) : (s.modPanel p f).force = s.force := rfl
@[simp] theorem State.modPanel_scan (s : State) (p : Nat) (f : PanelSt → PanelSt) : (s.modPanel p f).scan = s.scan := rfl
@[simp] theorem State.modPanel_live (s : State) (p : Nat) (f : PanelSt → PanelSt) : (s.modPanel p f).live = s.live := rfl
@[simp] theorem State.modPanel_agreed (s : State) (p : Nat) (f : PanelSt → PanelSt) : (s.modPanel p f).agreed = s.agreed := rfl
@[simp] theorem State.modPanel_heldLow (s : State) (p : Nat) (f : PanelSt → PanelSt) : (s.modPanel p f).heldLow = s.heldLow := rfl
@[simp] theorem State.modPanel_kevtHeld (s : State) (p : Nat) (f : PanelSt → PanelSt) : (s.modPanel p f).kevtHeld = s.kevtHeld := rfl
@[simp] theorem State.modPanel_kevq (s : State) (p : Nat) (f : PanelSt → PanelSt) : (s.modPanel p f).kevq = s.kevq := rfl
@[simp] theorem State.modPanel_vrecRead (s : State) (p : Nat) (f : PanelSt → PanelSt) : (s.modPanel p f).vrecRead = s.vrecRead := rfl
@[simp] theorem State.modPanel_frozen (s : State) (p : Nat) (f : PanelSt → PanelSt) : (s.modPanel p f).frozen = s.frozen := rfl
@[simp] theorem State.modPanel_sram (s : State) (p : Nat) (f : PanelSt → PanelSt) : (s.modPanel p f).sram = s.sram := rfl
@[simp] theorem State.modPanel_dram (s : State) (p : Nat) (f : PanelSt → PanelSt) : (s.modPanel p f).dram = s.dram := rfl
@[simp] theorem State.modPanel_ecc (s : State) (p : Nat) (f : PanelSt → PanelSt) : (s.modPanel p f).ecc = s.ecc := rfl
@[simp] theorem State.modPanel_tlb (s : State) (p : Nat) (f : PanelSt → PanelSt) : (s.modPanel p f).tlb = s.tlb := rfl
@[simp] theorem State.modPanel_env (s : State) (p : Nat) (f : PanelSt → PanelSt) : (s.modPanel p f).env = s.env := rfl
@[simp] theorem State.modPanel_tally (s : State) (p : Nat) (f : PanelSt → PanelSt) : (s.modPanel p f).tally = s.tally := rfl
@[simp] theorem State.modPanel_pipes (s : State) (p : Nat) (f : PanelSt → PanelSt) : (s.modPanel p f).pipes = s.pipes := rfl
@[simp] theorem State.modPanel_led (s : State) (p : Nat) (f : PanelSt → PanelSt) : (s.modPanel p f).led = s.led := rfl
@[simp] theorem State.modPanel_queues (s : State) (p : Nat) (f : PanelSt → PanelSt) : (s.modPanel p f).queues = s.queues := rfl
@[simp] theorem State.modPanel_admitted (s : State) (p : Nat) (f : PanelSt → PanelSt) : (s.modPanel p f).admitted = s.admitted := rfl
@[simp] theorem State.modPanel_gpu (s : State) (p : Nat) (f : PanelSt → PanelSt) : (s.modPanel p f).gpu = s.gpu := rfl
@[simp] theorem State.modPanel_dmCh (s : State) (p : Nat) (f : PanelSt → PanelSt) : (s.modPanel p f).dmCh = s.dmCh := rfl
@[simp] theorem State.modPanel_dmEng (s : State) (p : Nat) (f : PanelSt → PanelSt) : (s.modPanel p f).dmEng = s.dmEng := rfl
@[simp] theorem State.modPanel_squashed (s : State) (p : Nat) (f : PanelSt → PanelSt) : (s.modPanel p f).squashed = s.squashed := rfl
@[simp] theorem State.modPanel_clearing (s : State) (p : Nat) (f : PanelSt → PanelSt) : (s.modPanel p f).clearing = s.clearing := rfl
@[simp] theorem State.modPanel_boot (s : State) (p : Nat) (f : PanelSt → PanelSt) : (s.modPanel p f).boot = s.boot := rfl
@[simp] theorem State.modPanel_harts (s : State) (p : Nat) (f : PanelSt → PanelSt) : (s.modPanel p f).harts = s.harts := rfl
@[simp] theorem State.modPanel_keeperTrap (s : State) (p : Nat) (f : PanelSt → PanelSt) : (s.modPanel p f).keeperTrap = s.keeperTrap := rfl
@[simp] theorem State.modPanel_power (s : State) (p : Nat) (f : PanelSt → PanelSt) : (s.modPanel p f).power = s.power := rfl
@[simp] theorem State.modPanel_sm (s : State) (p : Nat) (f : PanelSt → PanelSt) : (s.modPanel p f).sm = s.sm := rfl
@[simp] theorem State.modPanel_mem (s : State) (p : Nat) (f : PanelSt → PanelSt) : (s.modPanel p f).mem = s.mem := rfl
@[simp] theorem State.modPanel_msr (s : State) (p : Nat) (f : PanelSt → PanelSt) : (s.modPanel p f).msr = s.msr := rfl
@[simp] theorem State.modPanel_nvm (s : State) (p : Nat) (f : PanelSt → PanelSt) : (s.modPanel p f).nvm = s.nvm := rfl
@[simp] theorem State.modPanel_lineRuns (s : State) (p : Nat) (f : PanelSt → PanelSt) : (s.modPanel p f).lineRuns = s.lineRuns := rfl
@[simp] theorem State.modPanel_streams (s : State) (p : Nat) (f : PanelSt → PanelSt) : (s.modPanel p f).streams = s.streams := rfl
@[simp] theorem State.modPanel_haps (s : State) (p : Nat) (f : PanelSt → PanelSt) : (s.modPanel p f).haps = s.haps := rfl
@[simp] theorem State.modPanel_caps (s : State) (p : Nat) (f : PanelSt → PanelSt) : (s.modPanel p f).caps = s.caps := rfl
@[simp] theorem State.modPanel_mix (s : State) (p : Nat) (f : PanelSt → PanelSt) : (s.modPanel p f).mix = s.mix := rfl
@[simp] theorem State.modPanel_syncOut (s : State) (p : Nat) (f : PanelSt → PanelSt) : (s.modPanel p f).syncOut = s.syncOut := rfl
@[simp] theorem State.modPanel_syncIn (s : State) (p : Nat) (f : PanelSt → PanelSt) : (s.modPanel p f).syncIn = s.syncIn := rfl
@[simp] theorem State.modPanel_resp (s : State) (p : Nat) (f : PanelSt → PanelSt) : (s.modPanel p f).resp = s.resp := rfl
@[simp] theorem State.modPanel_out (s : State) (p : Nat) (f : PanelSt → PanelSt) : (s.modPanel p f).out = s.out := rfl
@[simp] theorem State.modPanel_fresh (s : State) (p : Nat) (f : PanelSt → PanelSt) : (s.modPanel p f).fresh = s.fresh := rfl
@[simp] theorem State.modPanel_pending (s : State) (p : Nat) (f : PanelSt → PanelSt) : (s.modPanel p f).pending = s.pending := rfl
@[simp] theorem State.modPanel_rw_of (s : State) (p : Nat) (f : PanelSt → PanelSt) (x : Nat) : (s.modPanel p f).rw x = s.rw x := rfl
@[simp] theorem State.modPanel_rd_of (s : State) (p : Nat) (f : PanelSt → PanelSt) (x : Nat) (g : Fld) : (s.modPanel p f).rd x g = s.rd x g := rfl
@[simp] theorem State.modPanel_on_of (s : State) (p : Nat) (f : PanelSt → PanelSt) (x : Nat) (g : Fld) : (s.modPanel p f).on x g = s.on x g := rfl
@[simp] theorem State.modPanel_frw_of (s : State) (p : Nat) (f : PanelSt → PanelSt) (x : Nat) : (s.modPanel p f).frw x = s.frw x := rfl
@[simp] theorem State.modPanel_frd_of (s : State) (p : Nat) (f : PanelSt → PanelSt) (x : Nat) (g : Fld) : (s.modPanel p f).frd x g = s.frd x g := rfl
@[simp] theorem State.modPanel_srw_of (s : State) (p : Nat) (f : PanelSt → PanelSt) (x : Nat) : (s.modPanel p f).srw x = s.srw x := rfl
@[simp] theorem State.modPanel_srd_of (s : State) (p : Nat) (f : PanelSt → PanelSt) (x : Nat) (g : Fld) : (s.modPanel p f).srd x g = s.srd x g := rfl
@[simp] theorem State.modPanel_lv_of (s : State) (p : Nat) (f : PanelSt → PanelSt) (x : Nat) : (s.modPanel p f).lv x = s.lv x := rfl
@[simp] theorem State.modPanel_pipe_of (s : State) (p : Nat) (f : PanelSt → PanelSt) (x : Nat) : (s.modPanel p f).pipe x = s.pipe x := rfl
@[simp] theorem State.modPanel_queue_of (s : State) (p : Nat) (f : PanelSt → PanelSt) (x : Nat) : (s.modPanel p f).queue x = s.queue x := rfl
@[simp] theorem State.modPanel_ch_of (s : State) (p : Nat) (f : PanelSt → PanelSt) (x : Nat) : (s.modPanel p f).ch x = s.ch x := rfl
@[simp] theorem State.modPanel_eng_of (s : State) (p : Nat) (f : PanelSt → PanelSt) (x : Nat) : (s.modPanel p f).eng x = s.eng x := rfl
@[simp] theorem State.modPanel_stream_of (s : State) (p : Nat) (f : PanelSt → PanelSt) (x : Nat) : (s.modPanel p f).stream x = s.stream x := rfl
@[simp] theorem State.modPanel_hap_of (s : State) (p : Nat) (f : PanelSt → PanelSt) (x : Nat) : (s.modPanel p f).hap x = s.hap x := rfl
@[simp] theorem State.modPanel_cap_of (s : State) (p : Nat) (f : PanelSt → PanelSt) (x : Nat) : (s.modPanel p f).cap x = s.cap x := rfl
@[simp] theorem State.modPanel_hart_of (s : State) (p : Nat) (f : PanelSt → PanelSt) (x : Nat) : (s.modPanel p f).hart x = s.hart x := rfl
@[simp] theorem State.modPanel_op_of (s : State) (p : Nat) (f : PanelSt → PanelSt) (x : Nat) : (s.modPanel p f).op x = s.op x := rfl
@[simp] theorem State.modPanel_rail_of (s : State) (p : Nat) (f : PanelSt → PanelSt) (x : Nat) : (s.modPanel p f).rail x = s.rail x := rfl
@[simp] theorem State.modPanel_stallState_of (s : State) (p : Nat) (f : PanelSt → PanelSt) (x : Nat) : (s.modPanel p f).stallState x = s.stallState x := rfl
@[simp] theorem State.modPanel_islandOn_of (s : State) (p : Nat) (f : PanelSt → PanelSt) (x : Nat) : (s.modPanel p f).islandOn x = s.islandOn x := rfl
@[simp] theorem State.modPanel_dstate_of (s : State) (p : Nat) (f : PanelSt → PanelSt) : (s.modPanel p f).dstate = s.dstate := rfl
@[simp] theorem State.modPanel_running_of (s : State) (p : Nat) (f : PanelSt → PanelSt) : (s.modPanel p f).running = s.running := rfl
@[simp] theorem State.modPanel_sramB_of (s : State) (p : Nat) (f : PanelSt → PanelSt) (x : Nat) : (s.modPanel p f).sramB x = s.sramB x := rfl
@[simp] theorem State.modPanel_dramB_of (s : State) (p : Nat) (f : PanelSt → PanelSt) (x : Nat) : (s.modPanel p f).dramB x = s.dramB x := rfl
@[simp] theorem State.modPanel_envB_of (s : State) (p : Nat) (f : PanelSt → PanelSt) (x : Nat) : (s.modPanel p f).envB x = s.envB x := rfl
@[simp] theorem State.modPanel_free_of (s : State) (p : Nat) (f : PanelSt → PanelSt) : (s.modPanel p f).free = s.free := rfl

/-! modStream -/
@[simp] theorem State.modStream_regs (s : State) (i : Nat) (f : StreamSt → StreamSt) : (s.modStream i f).regs = s.regs := rfl
@[simp] theorem State.modStream_force (s : State) (i : Nat) (f : StreamSt → StreamSt) : (s.modStream i f).force = s.force := rfl
@[simp] theorem State.modStream_scan (s : State) (i : Nat) (f : StreamSt → StreamSt) : (s.modStream i f).scan = s.scan := rfl
@[simp] theorem State.modStream_live (s : State) (i : Nat) (f : StreamSt → StreamSt) : (s.modStream i f).live = s.live := rfl
@[simp] theorem State.modStream_agreed (s : State) (i : Nat) (f : StreamSt → StreamSt) : (s.modStream i f).agreed = s.agreed := rfl
@[simp] theorem State.modStream_heldLow (s : State) (i : Nat) (f : StreamSt → StreamSt) : (s.modStream i f).heldLow = s.heldLow := rfl
@[simp] theorem State.modStream_kevtHeld (s : State) (i : Nat) (f : StreamSt → StreamSt) : (s.modStream i f).kevtHeld = s.kevtHeld := rfl
@[simp] theorem State.modStream_kevq (s : State) (i : Nat) (f : StreamSt → StreamSt) : (s.modStream i f).kevq = s.kevq := rfl
@[simp] theorem State.modStream_vrecRead (s : State) (i : Nat) (f : StreamSt → StreamSt) : (s.modStream i f).vrecRead = s.vrecRead := rfl
@[simp] theorem State.modStream_frozen (s : State) (i : Nat) (f : StreamSt → StreamSt) : (s.modStream i f).frozen = s.frozen := rfl
@[simp] theorem State.modStream_sram (s : State) (i : Nat) (f : StreamSt → StreamSt) : (s.modStream i f).sram = s.sram := rfl
@[simp] theorem State.modStream_dram (s : State) (i : Nat) (f : StreamSt → StreamSt) : (s.modStream i f).dram = s.dram := rfl
@[simp] theorem State.modStream_ecc (s : State) (i : Nat) (f : StreamSt → StreamSt) : (s.modStream i f).ecc = s.ecc := rfl
@[simp] theorem State.modStream_tlb (s : State) (i : Nat) (f : StreamSt → StreamSt) : (s.modStream i f).tlb = s.tlb := rfl
@[simp] theorem State.modStream_env (s : State) (i : Nat) (f : StreamSt → StreamSt) : (s.modStream i f).env = s.env := rfl
@[simp] theorem State.modStream_tally (s : State) (i : Nat) (f : StreamSt → StreamSt) : (s.modStream i f).tally = s.tally := rfl
@[simp] theorem State.modStream_pipes (s : State) (i : Nat) (f : StreamSt → StreamSt) : (s.modStream i f).pipes = s.pipes := rfl
@[simp] theorem State.modStream_led (s : State) (i : Nat) (f : StreamSt → StreamSt) : (s.modStream i f).led = s.led := rfl
@[simp] theorem State.modStream_queues (s : State) (i : Nat) (f : StreamSt → StreamSt) : (s.modStream i f).queues = s.queues := rfl
@[simp] theorem State.modStream_admitted (s : State) (i : Nat) (f : StreamSt → StreamSt) : (s.modStream i f).admitted = s.admitted := rfl
@[simp] theorem State.modStream_gpu (s : State) (i : Nat) (f : StreamSt → StreamSt) : (s.modStream i f).gpu = s.gpu := rfl
@[simp] theorem State.modStream_dmCh (s : State) (i : Nat) (f : StreamSt → StreamSt) : (s.modStream i f).dmCh = s.dmCh := rfl
@[simp] theorem State.modStream_dmEng (s : State) (i : Nat) (f : StreamSt → StreamSt) : (s.modStream i f).dmEng = s.dmEng := rfl
@[simp] theorem State.modStream_squashed (s : State) (i : Nat) (f : StreamSt → StreamSt) : (s.modStream i f).squashed = s.squashed := rfl
@[simp] theorem State.modStream_clearing (s : State) (i : Nat) (f : StreamSt → StreamSt) : (s.modStream i f).clearing = s.clearing := rfl
@[simp] theorem State.modStream_boot (s : State) (i : Nat) (f : StreamSt → StreamSt) : (s.modStream i f).boot = s.boot := rfl
@[simp] theorem State.modStream_harts (s : State) (i : Nat) (f : StreamSt → StreamSt) : (s.modStream i f).harts = s.harts := rfl
@[simp] theorem State.modStream_keeperTrap (s : State) (i : Nat) (f : StreamSt → StreamSt) : (s.modStream i f).keeperTrap = s.keeperTrap := rfl
@[simp] theorem State.modStream_power (s : State) (i : Nat) (f : StreamSt → StreamSt) : (s.modStream i f).power = s.power := rfl
@[simp] theorem State.modStream_sm (s : State) (i : Nat) (f : StreamSt → StreamSt) : (s.modStream i f).sm = s.sm := rfl
@[simp] theorem State.modStream_mem (s : State) (i : Nat) (f : StreamSt → StreamSt) : (s.modStream i f).mem = s.mem := rfl
@[simp] theorem State.modStream_msr (s : State) (i : Nat) (f : StreamSt → StreamSt) : (s.modStream i f).msr = s.msr := rfl
@[simp] theorem State.modStream_nvm (s : State) (i : Nat) (f : StreamSt → StreamSt) : (s.modStream i f).nvm = s.nvm := rfl
@[simp] theorem State.modStream_panels (s : State) (i : Nat) (f : StreamSt → StreamSt) : (s.modStream i f).panels = s.panels := rfl
@[simp] theorem State.modStream_lineRuns (s : State) (i : Nat) (f : StreamSt → StreamSt) : (s.modStream i f).lineRuns = s.lineRuns := rfl
@[simp] theorem State.modStream_haps (s : State) (i : Nat) (f : StreamSt → StreamSt) : (s.modStream i f).haps = s.haps := rfl
@[simp] theorem State.modStream_caps (s : State) (i : Nat) (f : StreamSt → StreamSt) : (s.modStream i f).caps = s.caps := rfl
@[simp] theorem State.modStream_mix (s : State) (i : Nat) (f : StreamSt → StreamSt) : (s.modStream i f).mix = s.mix := rfl
@[simp] theorem State.modStream_syncOut (s : State) (i : Nat) (f : StreamSt → StreamSt) : (s.modStream i f).syncOut = s.syncOut := rfl
@[simp] theorem State.modStream_syncIn (s : State) (i : Nat) (f : StreamSt → StreamSt) : (s.modStream i f).syncIn = s.syncIn := rfl
@[simp] theorem State.modStream_resp (s : State) (i : Nat) (f : StreamSt → StreamSt) : (s.modStream i f).resp = s.resp := rfl
@[simp] theorem State.modStream_out (s : State) (i : Nat) (f : StreamSt → StreamSt) : (s.modStream i f).out = s.out := rfl
@[simp] theorem State.modStream_fresh (s : State) (i : Nat) (f : StreamSt → StreamSt) : (s.modStream i f).fresh = s.fresh := rfl
@[simp] theorem State.modStream_pending (s : State) (i : Nat) (f : StreamSt → StreamSt) : (s.modStream i f).pending = s.pending := rfl
@[simp] theorem State.modStream_rw_of (s : State) (i : Nat) (f : StreamSt → StreamSt) (x : Nat) : (s.modStream i f).rw x = s.rw x := rfl
@[simp] theorem State.modStream_rd_of (s : State) (i : Nat) (f : StreamSt → StreamSt) (x : Nat) (g : Fld) : (s.modStream i f).rd x g = s.rd x g := rfl
@[simp] theorem State.modStream_on_of (s : State) (i : Nat) (f : StreamSt → StreamSt) (x : Nat) (g : Fld) : (s.modStream i f).on x g = s.on x g := rfl
@[simp] theorem State.modStream_frw_of (s : State) (i : Nat) (f : StreamSt → StreamSt) (x : Nat) : (s.modStream i f).frw x = s.frw x := rfl
@[simp] theorem State.modStream_frd_of (s : State) (i : Nat) (f : StreamSt → StreamSt) (x : Nat) (g : Fld) : (s.modStream i f).frd x g = s.frd x g := rfl
@[simp] theorem State.modStream_srw_of (s : State) (i : Nat) (f : StreamSt → StreamSt) (x : Nat) : (s.modStream i f).srw x = s.srw x := rfl
@[simp] theorem State.modStream_srd_of (s : State) (i : Nat) (f : StreamSt → StreamSt) (x : Nat) (g : Fld) : (s.modStream i f).srd x g = s.srd x g := rfl
@[simp] theorem State.modStream_lv_of (s : State) (i : Nat) (f : StreamSt → StreamSt) (x : Nat) : (s.modStream i f).lv x = s.lv x := rfl
@[simp] theorem State.modStream_pipe_of (s : State) (i : Nat) (f : StreamSt → StreamSt) (x : Nat) : (s.modStream i f).pipe x = s.pipe x := rfl
@[simp] theorem State.modStream_queue_of (s : State) (i : Nat) (f : StreamSt → StreamSt) (x : Nat) : (s.modStream i f).queue x = s.queue x := rfl
@[simp] theorem State.modStream_ch_of (s : State) (i : Nat) (f : StreamSt → StreamSt) (x : Nat) : (s.modStream i f).ch x = s.ch x := rfl
@[simp] theorem State.modStream_eng_of (s : State) (i : Nat) (f : StreamSt → StreamSt) (x : Nat) : (s.modStream i f).eng x = s.eng x := rfl
@[simp] theorem State.modStream_panel_of (s : State) (i : Nat) (f : StreamSt → StreamSt) (x : Nat) : (s.modStream i f).panel x = s.panel x := rfl
@[simp] theorem State.modStream_hap_of (s : State) (i : Nat) (f : StreamSt → StreamSt) (x : Nat) : (s.modStream i f).hap x = s.hap x := rfl
@[simp] theorem State.modStream_cap_of (s : State) (i : Nat) (f : StreamSt → StreamSt) (x : Nat) : (s.modStream i f).cap x = s.cap x := rfl
@[simp] theorem State.modStream_hart_of (s : State) (i : Nat) (f : StreamSt → StreamSt) (x : Nat) : (s.modStream i f).hart x = s.hart x := rfl
@[simp] theorem State.modStream_op_of (s : State) (i : Nat) (f : StreamSt → StreamSt) (x : Nat) : (s.modStream i f).op x = s.op x := rfl
@[simp] theorem State.modStream_rail_of (s : State) (i : Nat) (f : StreamSt → StreamSt) (x : Nat) : (s.modStream i f).rail x = s.rail x := rfl
@[simp] theorem State.modStream_stallState_of (s : State) (i : Nat) (f : StreamSt → StreamSt) (x : Nat) : (s.modStream i f).stallState x = s.stallState x := rfl
@[simp] theorem State.modStream_islandOn_of (s : State) (i : Nat) (f : StreamSt → StreamSt) (x : Nat) : (s.modStream i f).islandOn x = s.islandOn x := rfl
@[simp] theorem State.modStream_dstate_of (s : State) (i : Nat) (f : StreamSt → StreamSt) : (s.modStream i f).dstate = s.dstate := rfl
@[simp] theorem State.modStream_running_of (s : State) (i : Nat) (f : StreamSt → StreamSt) : (s.modStream i f).running = s.running := rfl
@[simp] theorem State.modStream_sramB_of (s : State) (i : Nat) (f : StreamSt → StreamSt) (x : Nat) : (s.modStream i f).sramB x = s.sramB x := rfl
@[simp] theorem State.modStream_dramB_of (s : State) (i : Nat) (f : StreamSt → StreamSt) (x : Nat) : (s.modStream i f).dramB x = s.dramB x := rfl
@[simp] theorem State.modStream_envB_of (s : State) (i : Nat) (f : StreamSt → StreamSt) (x : Nat) : (s.modStream i f).envB x = s.envB x := rfl
@[simp] theorem State.modStream_free_of (s : State) (i : Nat) (f : StreamSt → StreamSt) : (s.modStream i f).free = s.free := rfl

/-! modHap -/
@[simp] theorem State.modHap_regs (s : State) (h : Nat) (f : HapSt → HapSt) : (s.modHap h f).regs = s.regs := rfl
@[simp] theorem State.modHap_force (s : State) (h : Nat) (f : HapSt → HapSt) : (s.modHap h f).force = s.force := rfl
@[simp] theorem State.modHap_scan (s : State) (h : Nat) (f : HapSt → HapSt) : (s.modHap h f).scan = s.scan := rfl
@[simp] theorem State.modHap_live (s : State) (h : Nat) (f : HapSt → HapSt) : (s.modHap h f).live = s.live := rfl
@[simp] theorem State.modHap_agreed (s : State) (h : Nat) (f : HapSt → HapSt) : (s.modHap h f).agreed = s.agreed := rfl
@[simp] theorem State.modHap_heldLow (s : State) (h : Nat) (f : HapSt → HapSt) : (s.modHap h f).heldLow = s.heldLow := rfl
@[simp] theorem State.modHap_kevtHeld (s : State) (h : Nat) (f : HapSt → HapSt) : (s.modHap h f).kevtHeld = s.kevtHeld := rfl
@[simp] theorem State.modHap_kevq (s : State) (h : Nat) (f : HapSt → HapSt) : (s.modHap h f).kevq = s.kevq := rfl
@[simp] theorem State.modHap_vrecRead (s : State) (h : Nat) (f : HapSt → HapSt) : (s.modHap h f).vrecRead = s.vrecRead := rfl
@[simp] theorem State.modHap_frozen (s : State) (h : Nat) (f : HapSt → HapSt) : (s.modHap h f).frozen = s.frozen := rfl
@[simp] theorem State.modHap_sram (s : State) (h : Nat) (f : HapSt → HapSt) : (s.modHap h f).sram = s.sram := rfl
@[simp] theorem State.modHap_dram (s : State) (h : Nat) (f : HapSt → HapSt) : (s.modHap h f).dram = s.dram := rfl
@[simp] theorem State.modHap_ecc (s : State) (h : Nat) (f : HapSt → HapSt) : (s.modHap h f).ecc = s.ecc := rfl
@[simp] theorem State.modHap_tlb (s : State) (h : Nat) (f : HapSt → HapSt) : (s.modHap h f).tlb = s.tlb := rfl
@[simp] theorem State.modHap_env (s : State) (h : Nat) (f : HapSt → HapSt) : (s.modHap h f).env = s.env := rfl
@[simp] theorem State.modHap_tally (s : State) (h : Nat) (f : HapSt → HapSt) : (s.modHap h f).tally = s.tally := rfl
@[simp] theorem State.modHap_pipes (s : State) (h : Nat) (f : HapSt → HapSt) : (s.modHap h f).pipes = s.pipes := rfl
@[simp] theorem State.modHap_led (s : State) (h : Nat) (f : HapSt → HapSt) : (s.modHap h f).led = s.led := rfl
@[simp] theorem State.modHap_queues (s : State) (h : Nat) (f : HapSt → HapSt) : (s.modHap h f).queues = s.queues := rfl
@[simp] theorem State.modHap_admitted (s : State) (h : Nat) (f : HapSt → HapSt) : (s.modHap h f).admitted = s.admitted := rfl
@[simp] theorem State.modHap_gpu (s : State) (h : Nat) (f : HapSt → HapSt) : (s.modHap h f).gpu = s.gpu := rfl
@[simp] theorem State.modHap_dmCh (s : State) (h : Nat) (f : HapSt → HapSt) : (s.modHap h f).dmCh = s.dmCh := rfl
@[simp] theorem State.modHap_dmEng (s : State) (h : Nat) (f : HapSt → HapSt) : (s.modHap h f).dmEng = s.dmEng := rfl
@[simp] theorem State.modHap_squashed (s : State) (h : Nat) (f : HapSt → HapSt) : (s.modHap h f).squashed = s.squashed := rfl
@[simp] theorem State.modHap_clearing (s : State) (h : Nat) (f : HapSt → HapSt) : (s.modHap h f).clearing = s.clearing := rfl
@[simp] theorem State.modHap_boot (s : State) (h : Nat) (f : HapSt → HapSt) : (s.modHap h f).boot = s.boot := rfl
@[simp] theorem State.modHap_harts (s : State) (h : Nat) (f : HapSt → HapSt) : (s.modHap h f).harts = s.harts := rfl
@[simp] theorem State.modHap_keeperTrap (s : State) (h : Nat) (f : HapSt → HapSt) : (s.modHap h f).keeperTrap = s.keeperTrap := rfl
@[simp] theorem State.modHap_power (s : State) (h : Nat) (f : HapSt → HapSt) : (s.modHap h f).power = s.power := rfl
@[simp] theorem State.modHap_sm (s : State) (h : Nat) (f : HapSt → HapSt) : (s.modHap h f).sm = s.sm := rfl
@[simp] theorem State.modHap_mem (s : State) (h : Nat) (f : HapSt → HapSt) : (s.modHap h f).mem = s.mem := rfl
@[simp] theorem State.modHap_msr (s : State) (h : Nat) (f : HapSt → HapSt) : (s.modHap h f).msr = s.msr := rfl
@[simp] theorem State.modHap_nvm (s : State) (h : Nat) (f : HapSt → HapSt) : (s.modHap h f).nvm = s.nvm := rfl
@[simp] theorem State.modHap_panels (s : State) (h : Nat) (f : HapSt → HapSt) : (s.modHap h f).panels = s.panels := rfl
@[simp] theorem State.modHap_lineRuns (s : State) (h : Nat) (f : HapSt → HapSt) : (s.modHap h f).lineRuns = s.lineRuns := rfl
@[simp] theorem State.modHap_streams (s : State) (h : Nat) (f : HapSt → HapSt) : (s.modHap h f).streams = s.streams := rfl
@[simp] theorem State.modHap_caps (s : State) (h : Nat) (f : HapSt → HapSt) : (s.modHap h f).caps = s.caps := rfl
@[simp] theorem State.modHap_mix (s : State) (h : Nat) (f : HapSt → HapSt) : (s.modHap h f).mix = s.mix := rfl
@[simp] theorem State.modHap_syncOut (s : State) (h : Nat) (f : HapSt → HapSt) : (s.modHap h f).syncOut = s.syncOut := rfl
@[simp] theorem State.modHap_syncIn (s : State) (h : Nat) (f : HapSt → HapSt) : (s.modHap h f).syncIn = s.syncIn := rfl
@[simp] theorem State.modHap_resp (s : State) (h : Nat) (f : HapSt → HapSt) : (s.modHap h f).resp = s.resp := rfl
@[simp] theorem State.modHap_out (s : State) (h : Nat) (f : HapSt → HapSt) : (s.modHap h f).out = s.out := rfl
@[simp] theorem State.modHap_fresh (s : State) (h : Nat) (f : HapSt → HapSt) : (s.modHap h f).fresh = s.fresh := rfl
@[simp] theorem State.modHap_pending (s : State) (h : Nat) (f : HapSt → HapSt) : (s.modHap h f).pending = s.pending := rfl
@[simp] theorem State.modHap_rw_of (s : State) (h : Nat) (f : HapSt → HapSt) (x : Nat) : (s.modHap h f).rw x = s.rw x := rfl
@[simp] theorem State.modHap_rd_of (s : State) (h : Nat) (f : HapSt → HapSt) (x : Nat) (g : Fld) : (s.modHap h f).rd x g = s.rd x g := rfl
@[simp] theorem State.modHap_on_of (s : State) (h : Nat) (f : HapSt → HapSt) (x : Nat) (g : Fld) : (s.modHap h f).on x g = s.on x g := rfl
@[simp] theorem State.modHap_frw_of (s : State) (h : Nat) (f : HapSt → HapSt) (x : Nat) : (s.modHap h f).frw x = s.frw x := rfl
@[simp] theorem State.modHap_frd_of (s : State) (h : Nat) (f : HapSt → HapSt) (x : Nat) (g : Fld) : (s.modHap h f).frd x g = s.frd x g := rfl
@[simp] theorem State.modHap_srw_of (s : State) (h : Nat) (f : HapSt → HapSt) (x : Nat) : (s.modHap h f).srw x = s.srw x := rfl
@[simp] theorem State.modHap_srd_of (s : State) (h : Nat) (f : HapSt → HapSt) (x : Nat) (g : Fld) : (s.modHap h f).srd x g = s.srd x g := rfl
@[simp] theorem State.modHap_lv_of (s : State) (h : Nat) (f : HapSt → HapSt) (x : Nat) : (s.modHap h f).lv x = s.lv x := rfl
@[simp] theorem State.modHap_pipe_of (s : State) (h : Nat) (f : HapSt → HapSt) (x : Nat) : (s.modHap h f).pipe x = s.pipe x := rfl
@[simp] theorem State.modHap_queue_of (s : State) (h : Nat) (f : HapSt → HapSt) (x : Nat) : (s.modHap h f).queue x = s.queue x := rfl
@[simp] theorem State.modHap_ch_of (s : State) (h : Nat) (f : HapSt → HapSt) (x : Nat) : (s.modHap h f).ch x = s.ch x := rfl
@[simp] theorem State.modHap_eng_of (s : State) (h : Nat) (f : HapSt → HapSt) (x : Nat) : (s.modHap h f).eng x = s.eng x := rfl
@[simp] theorem State.modHap_panel_of (s : State) (h : Nat) (f : HapSt → HapSt) (x : Nat) : (s.modHap h f).panel x = s.panel x := rfl
@[simp] theorem State.modHap_stream_of (s : State) (h : Nat) (f : HapSt → HapSt) (x : Nat) : (s.modHap h f).stream x = s.stream x := rfl
@[simp] theorem State.modHap_cap_of (s : State) (h : Nat) (f : HapSt → HapSt) (x : Nat) : (s.modHap h f).cap x = s.cap x := rfl
@[simp] theorem State.modHap_hart_of (s : State) (h : Nat) (f : HapSt → HapSt) (x : Nat) : (s.modHap h f).hart x = s.hart x := rfl
@[simp] theorem State.modHap_op_of (s : State) (h : Nat) (f : HapSt → HapSt) (x : Nat) : (s.modHap h f).op x = s.op x := rfl
@[simp] theorem State.modHap_rail_of (s : State) (h : Nat) (f : HapSt → HapSt) (x : Nat) : (s.modHap h f).rail x = s.rail x := rfl
@[simp] theorem State.modHap_stallState_of (s : State) (h : Nat) (f : HapSt → HapSt) (x : Nat) : (s.modHap h f).stallState x = s.stallState x := rfl
@[simp] theorem State.modHap_islandOn_of (s : State) (h : Nat) (f : HapSt → HapSt) (x : Nat) : (s.modHap h f).islandOn x = s.islandOn x := rfl
@[simp] theorem State.modHap_dstate_of (s : State) (h : Nat) (f : HapSt → HapSt) : (s.modHap h f).dstate = s.dstate := rfl
@[simp] theorem State.modHap_running_of (s : State) (h : Nat) (f : HapSt → HapSt) : (s.modHap h f).running = s.running := rfl
@[simp] theorem State.modHap_sramB_of (s : State) (h : Nat) (f : HapSt → HapSt) (x : Nat) : (s.modHap h f).sramB x = s.sramB x := rfl
@[simp] theorem State.modHap_dramB_of (s : State) (h : Nat) (f : HapSt → HapSt) (x : Nat) : (s.modHap h f).dramB x = s.dramB x := rfl
@[simp] theorem State.modHap_envB_of (s : State) (h : Nat) (f : HapSt → HapSt) (x : Nat) : (s.modHap h f).envB x = s.envB x := rfl
@[simp] theorem State.modHap_free_of (s : State) (h : Nat) (f : HapSt → HapSt) : (s.modHap h f).free = s.free := rfl

/-! modCap -/
@[simp] theorem State.modCap_regs (s : State) (p : Nat) (f : CapSt → CapSt) : (s.modCap p f).regs = s.regs := rfl
@[simp] theorem State.modCap_force (s : State) (p : Nat) (f : CapSt → CapSt) : (s.modCap p f).force = s.force := rfl
@[simp] theorem State.modCap_scan (s : State) (p : Nat) (f : CapSt → CapSt) : (s.modCap p f).scan = s.scan := rfl
@[simp] theorem State.modCap_live (s : State) (p : Nat) (f : CapSt → CapSt) : (s.modCap p f).live = s.live := rfl
@[simp] theorem State.modCap_agreed (s : State) (p : Nat) (f : CapSt → CapSt) : (s.modCap p f).agreed = s.agreed := rfl
@[simp] theorem State.modCap_heldLow (s : State) (p : Nat) (f : CapSt → CapSt) : (s.modCap p f).heldLow = s.heldLow := rfl
@[simp] theorem State.modCap_kevtHeld (s : State) (p : Nat) (f : CapSt → CapSt) : (s.modCap p f).kevtHeld = s.kevtHeld := rfl
@[simp] theorem State.modCap_kevq (s : State) (p : Nat) (f : CapSt → CapSt) : (s.modCap p f).kevq = s.kevq := rfl
@[simp] theorem State.modCap_vrecRead (s : State) (p : Nat) (f : CapSt → CapSt) : (s.modCap p f).vrecRead = s.vrecRead := rfl
@[simp] theorem State.modCap_frozen (s : State) (p : Nat) (f : CapSt → CapSt) : (s.modCap p f).frozen = s.frozen := rfl
@[simp] theorem State.modCap_sram (s : State) (p : Nat) (f : CapSt → CapSt) : (s.modCap p f).sram = s.sram := rfl
@[simp] theorem State.modCap_dram (s : State) (p : Nat) (f : CapSt → CapSt) : (s.modCap p f).dram = s.dram := rfl
@[simp] theorem State.modCap_ecc (s : State) (p : Nat) (f : CapSt → CapSt) : (s.modCap p f).ecc = s.ecc := rfl
@[simp] theorem State.modCap_tlb (s : State) (p : Nat) (f : CapSt → CapSt) : (s.modCap p f).tlb = s.tlb := rfl
@[simp] theorem State.modCap_env (s : State) (p : Nat) (f : CapSt → CapSt) : (s.modCap p f).env = s.env := rfl
@[simp] theorem State.modCap_tally (s : State) (p : Nat) (f : CapSt → CapSt) : (s.modCap p f).tally = s.tally := rfl
@[simp] theorem State.modCap_pipes (s : State) (p : Nat) (f : CapSt → CapSt) : (s.modCap p f).pipes = s.pipes := rfl
@[simp] theorem State.modCap_led (s : State) (p : Nat) (f : CapSt → CapSt) : (s.modCap p f).led = s.led := rfl
@[simp] theorem State.modCap_queues (s : State) (p : Nat) (f : CapSt → CapSt) : (s.modCap p f).queues = s.queues := rfl
@[simp] theorem State.modCap_admitted (s : State) (p : Nat) (f : CapSt → CapSt) : (s.modCap p f).admitted = s.admitted := rfl
@[simp] theorem State.modCap_gpu (s : State) (p : Nat) (f : CapSt → CapSt) : (s.modCap p f).gpu = s.gpu := rfl
@[simp] theorem State.modCap_dmCh (s : State) (p : Nat) (f : CapSt → CapSt) : (s.modCap p f).dmCh = s.dmCh := rfl
@[simp] theorem State.modCap_dmEng (s : State) (p : Nat) (f : CapSt → CapSt) : (s.modCap p f).dmEng = s.dmEng := rfl
@[simp] theorem State.modCap_squashed (s : State) (p : Nat) (f : CapSt → CapSt) : (s.modCap p f).squashed = s.squashed := rfl
@[simp] theorem State.modCap_clearing (s : State) (p : Nat) (f : CapSt → CapSt) : (s.modCap p f).clearing = s.clearing := rfl
@[simp] theorem State.modCap_boot (s : State) (p : Nat) (f : CapSt → CapSt) : (s.modCap p f).boot = s.boot := rfl
@[simp] theorem State.modCap_harts (s : State) (p : Nat) (f : CapSt → CapSt) : (s.modCap p f).harts = s.harts := rfl
@[simp] theorem State.modCap_keeperTrap (s : State) (p : Nat) (f : CapSt → CapSt) : (s.modCap p f).keeperTrap = s.keeperTrap := rfl
@[simp] theorem State.modCap_power (s : State) (p : Nat) (f : CapSt → CapSt) : (s.modCap p f).power = s.power := rfl
@[simp] theorem State.modCap_sm (s : State) (p : Nat) (f : CapSt → CapSt) : (s.modCap p f).sm = s.sm := rfl
@[simp] theorem State.modCap_mem (s : State) (p : Nat) (f : CapSt → CapSt) : (s.modCap p f).mem = s.mem := rfl
@[simp] theorem State.modCap_msr (s : State) (p : Nat) (f : CapSt → CapSt) : (s.modCap p f).msr = s.msr := rfl
@[simp] theorem State.modCap_nvm (s : State) (p : Nat) (f : CapSt → CapSt) : (s.modCap p f).nvm = s.nvm := rfl
@[simp] theorem State.modCap_panels (s : State) (p : Nat) (f : CapSt → CapSt) : (s.modCap p f).panels = s.panels := rfl
@[simp] theorem State.modCap_lineRuns (s : State) (p : Nat) (f : CapSt → CapSt) : (s.modCap p f).lineRuns = s.lineRuns := rfl
@[simp] theorem State.modCap_streams (s : State) (p : Nat) (f : CapSt → CapSt) : (s.modCap p f).streams = s.streams := rfl
@[simp] theorem State.modCap_haps (s : State) (p : Nat) (f : CapSt → CapSt) : (s.modCap p f).haps = s.haps := rfl
@[simp] theorem State.modCap_mix (s : State) (p : Nat) (f : CapSt → CapSt) : (s.modCap p f).mix = s.mix := rfl
@[simp] theorem State.modCap_syncOut (s : State) (p : Nat) (f : CapSt → CapSt) : (s.modCap p f).syncOut = s.syncOut := rfl
@[simp] theorem State.modCap_syncIn (s : State) (p : Nat) (f : CapSt → CapSt) : (s.modCap p f).syncIn = s.syncIn := rfl
@[simp] theorem State.modCap_resp (s : State) (p : Nat) (f : CapSt → CapSt) : (s.modCap p f).resp = s.resp := rfl
@[simp] theorem State.modCap_out (s : State) (p : Nat) (f : CapSt → CapSt) : (s.modCap p f).out = s.out := rfl
@[simp] theorem State.modCap_fresh (s : State) (p : Nat) (f : CapSt → CapSt) : (s.modCap p f).fresh = s.fresh := rfl
@[simp] theorem State.modCap_pending (s : State) (p : Nat) (f : CapSt → CapSt) : (s.modCap p f).pending = s.pending := rfl
@[simp] theorem State.modCap_rw_of (s : State) (p : Nat) (f : CapSt → CapSt) (x : Nat) : (s.modCap p f).rw x = s.rw x := rfl
@[simp] theorem State.modCap_rd_of (s : State) (p : Nat) (f : CapSt → CapSt) (x : Nat) (g : Fld) : (s.modCap p f).rd x g = s.rd x g := rfl
@[simp] theorem State.modCap_on_of (s : State) (p : Nat) (f : CapSt → CapSt) (x : Nat) (g : Fld) : (s.modCap p f).on x g = s.on x g := rfl
@[simp] theorem State.modCap_frw_of (s : State) (p : Nat) (f : CapSt → CapSt) (x : Nat) : (s.modCap p f).frw x = s.frw x := rfl
@[simp] theorem State.modCap_frd_of (s : State) (p : Nat) (f : CapSt → CapSt) (x : Nat) (g : Fld) : (s.modCap p f).frd x g = s.frd x g := rfl
@[simp] theorem State.modCap_srw_of (s : State) (p : Nat) (f : CapSt → CapSt) (x : Nat) : (s.modCap p f).srw x = s.srw x := rfl
@[simp] theorem State.modCap_srd_of (s : State) (p : Nat) (f : CapSt → CapSt) (x : Nat) (g : Fld) : (s.modCap p f).srd x g = s.srd x g := rfl
@[simp] theorem State.modCap_lv_of (s : State) (p : Nat) (f : CapSt → CapSt) (x : Nat) : (s.modCap p f).lv x = s.lv x := rfl
@[simp] theorem State.modCap_pipe_of (s : State) (p : Nat) (f : CapSt → CapSt) (x : Nat) : (s.modCap p f).pipe x = s.pipe x := rfl
@[simp] theorem State.modCap_queue_of (s : State) (p : Nat) (f : CapSt → CapSt) (x : Nat) : (s.modCap p f).queue x = s.queue x := rfl
@[simp] theorem State.modCap_ch_of (s : State) (p : Nat) (f : CapSt → CapSt) (x : Nat) : (s.modCap p f).ch x = s.ch x := rfl
@[simp] theorem State.modCap_eng_of (s : State) (p : Nat) (f : CapSt → CapSt) (x : Nat) : (s.modCap p f).eng x = s.eng x := rfl
@[simp] theorem State.modCap_panel_of (s : State) (p : Nat) (f : CapSt → CapSt) (x : Nat) : (s.modCap p f).panel x = s.panel x := rfl
@[simp] theorem State.modCap_stream_of (s : State) (p : Nat) (f : CapSt → CapSt) (x : Nat) : (s.modCap p f).stream x = s.stream x := rfl
@[simp] theorem State.modCap_hap_of (s : State) (p : Nat) (f : CapSt → CapSt) (x : Nat) : (s.modCap p f).hap x = s.hap x := rfl
@[simp] theorem State.modCap_hart_of (s : State) (p : Nat) (f : CapSt → CapSt) (x : Nat) : (s.modCap p f).hart x = s.hart x := rfl
@[simp] theorem State.modCap_op_of (s : State) (p : Nat) (f : CapSt → CapSt) (x : Nat) : (s.modCap p f).op x = s.op x := rfl
@[simp] theorem State.modCap_rail_of (s : State) (p : Nat) (f : CapSt → CapSt) (x : Nat) : (s.modCap p f).rail x = s.rail x := rfl
@[simp] theorem State.modCap_stallState_of (s : State) (p : Nat) (f : CapSt → CapSt) (x : Nat) : (s.modCap p f).stallState x = s.stallState x := rfl
@[simp] theorem State.modCap_islandOn_of (s : State) (p : Nat) (f : CapSt → CapSt) (x : Nat) : (s.modCap p f).islandOn x = s.islandOn x := rfl
@[simp] theorem State.modCap_dstate_of (s : State) (p : Nat) (f : CapSt → CapSt) : (s.modCap p f).dstate = s.dstate := rfl
@[simp] theorem State.modCap_running_of (s : State) (p : Nat) (f : CapSt → CapSt) : (s.modCap p f).running = s.running := rfl
@[simp] theorem State.modCap_sramB_of (s : State) (p : Nat) (f : CapSt → CapSt) (x : Nat) : (s.modCap p f).sramB x = s.sramB x := rfl
@[simp] theorem State.modCap_dramB_of (s : State) (p : Nat) (f : CapSt → CapSt) (x : Nat) : (s.modCap p f).dramB x = s.dramB x := rfl
@[simp] theorem State.modCap_envB_of (s : State) (p : Nat) (f : CapSt → CapSt) (x : Nat) : (s.modCap p f).envB x = s.envB x := rfl
@[simp] theorem State.modCap_free_of (s : State) (p : Nat) (f : CapSt → CapSt) : (s.modCap p f).free = s.free := rfl

/-! modBoot -/
@[simp] theorem State.modBoot_regs (s : State) (f : BootSt → BootSt) : (s.modBoot f).regs = s.regs := rfl
@[simp] theorem State.modBoot_force (s : State) (f : BootSt → BootSt) : (s.modBoot f).force = s.force := rfl
@[simp] theorem State.modBoot_scan (s : State) (f : BootSt → BootSt) : (s.modBoot f).scan = s.scan := rfl
@[simp] theorem State.modBoot_live (s : State) (f : BootSt → BootSt) : (s.modBoot f).live = s.live := rfl
@[simp] theorem State.modBoot_agreed (s : State) (f : BootSt → BootSt) : (s.modBoot f).agreed = s.agreed := rfl
@[simp] theorem State.modBoot_heldLow (s : State) (f : BootSt → BootSt) : (s.modBoot f).heldLow = s.heldLow := rfl
@[simp] theorem State.modBoot_kevtHeld (s : State) (f : BootSt → BootSt) : (s.modBoot f).kevtHeld = s.kevtHeld := rfl
@[simp] theorem State.modBoot_kevq (s : State) (f : BootSt → BootSt) : (s.modBoot f).kevq = s.kevq := rfl
@[simp] theorem State.modBoot_vrecRead (s : State) (f : BootSt → BootSt) : (s.modBoot f).vrecRead = s.vrecRead := rfl
@[simp] theorem State.modBoot_frozen (s : State) (f : BootSt → BootSt) : (s.modBoot f).frozen = s.frozen := rfl
@[simp] theorem State.modBoot_sram (s : State) (f : BootSt → BootSt) : (s.modBoot f).sram = s.sram := rfl
@[simp] theorem State.modBoot_dram (s : State) (f : BootSt → BootSt) : (s.modBoot f).dram = s.dram := rfl
@[simp] theorem State.modBoot_ecc (s : State) (f : BootSt → BootSt) : (s.modBoot f).ecc = s.ecc := rfl
@[simp] theorem State.modBoot_tlb (s : State) (f : BootSt → BootSt) : (s.modBoot f).tlb = s.tlb := rfl
@[simp] theorem State.modBoot_env (s : State) (f : BootSt → BootSt) : (s.modBoot f).env = s.env := rfl
@[simp] theorem State.modBoot_tally (s : State) (f : BootSt → BootSt) : (s.modBoot f).tally = s.tally := rfl
@[simp] theorem State.modBoot_pipes (s : State) (f : BootSt → BootSt) : (s.modBoot f).pipes = s.pipes := rfl
@[simp] theorem State.modBoot_led (s : State) (f : BootSt → BootSt) : (s.modBoot f).led = s.led := rfl
@[simp] theorem State.modBoot_queues (s : State) (f : BootSt → BootSt) : (s.modBoot f).queues = s.queues := rfl
@[simp] theorem State.modBoot_admitted (s : State) (f : BootSt → BootSt) : (s.modBoot f).admitted = s.admitted := rfl
@[simp] theorem State.modBoot_gpu (s : State) (f : BootSt → BootSt) : (s.modBoot f).gpu = s.gpu := rfl
@[simp] theorem State.modBoot_dmCh (s : State) (f : BootSt → BootSt) : (s.modBoot f).dmCh = s.dmCh := rfl
@[simp] theorem State.modBoot_dmEng (s : State) (f : BootSt → BootSt) : (s.modBoot f).dmEng = s.dmEng := rfl
@[simp] theorem State.modBoot_squashed (s : State) (f : BootSt → BootSt) : (s.modBoot f).squashed = s.squashed := rfl
@[simp] theorem State.modBoot_clearing (s : State) (f : BootSt → BootSt) : (s.modBoot f).clearing = s.clearing := rfl
@[simp] theorem State.modBoot_harts (s : State) (f : BootSt → BootSt) : (s.modBoot f).harts = s.harts := rfl
@[simp] theorem State.modBoot_keeperTrap (s : State) (f : BootSt → BootSt) : (s.modBoot f).keeperTrap = s.keeperTrap := rfl
@[simp] theorem State.modBoot_power (s : State) (f : BootSt → BootSt) : (s.modBoot f).power = s.power := rfl
@[simp] theorem State.modBoot_sm (s : State) (f : BootSt → BootSt) : (s.modBoot f).sm = s.sm := rfl
@[simp] theorem State.modBoot_mem (s : State) (f : BootSt → BootSt) : (s.modBoot f).mem = s.mem := rfl
@[simp] theorem State.modBoot_msr (s : State) (f : BootSt → BootSt) : (s.modBoot f).msr = s.msr := rfl
@[simp] theorem State.modBoot_nvm (s : State) (f : BootSt → BootSt) : (s.modBoot f).nvm = s.nvm := rfl
@[simp] theorem State.modBoot_panels (s : State) (f : BootSt → BootSt) : (s.modBoot f).panels = s.panels := rfl
@[simp] theorem State.modBoot_lineRuns (s : State) (f : BootSt → BootSt) : (s.modBoot f).lineRuns = s.lineRuns := rfl
@[simp] theorem State.modBoot_streams (s : State) (f : BootSt → BootSt) : (s.modBoot f).streams = s.streams := rfl
@[simp] theorem State.modBoot_haps (s : State) (f : BootSt → BootSt) : (s.modBoot f).haps = s.haps := rfl
@[simp] theorem State.modBoot_caps (s : State) (f : BootSt → BootSt) : (s.modBoot f).caps = s.caps := rfl
@[simp] theorem State.modBoot_mix (s : State) (f : BootSt → BootSt) : (s.modBoot f).mix = s.mix := rfl
@[simp] theorem State.modBoot_syncOut (s : State) (f : BootSt → BootSt) : (s.modBoot f).syncOut = s.syncOut := rfl
@[simp] theorem State.modBoot_syncIn (s : State) (f : BootSt → BootSt) : (s.modBoot f).syncIn = s.syncIn := rfl
@[simp] theorem State.modBoot_resp (s : State) (f : BootSt → BootSt) : (s.modBoot f).resp = s.resp := rfl
@[simp] theorem State.modBoot_out (s : State) (f : BootSt → BootSt) : (s.modBoot f).out = s.out := rfl
@[simp] theorem State.modBoot_fresh (s : State) (f : BootSt → BootSt) : (s.modBoot f).fresh = s.fresh := rfl
@[simp] theorem State.modBoot_pending (s : State) (f : BootSt → BootSt) : (s.modBoot f).pending = s.pending := rfl
@[simp] theorem State.modBoot_rw_of (s : State) (f : BootSt → BootSt) (x : Nat) : (s.modBoot f).rw x = s.rw x := rfl
@[simp] theorem State.modBoot_rd_of (s : State) (f : BootSt → BootSt) (x : Nat) (g : Fld) : (s.modBoot f).rd x g = s.rd x g := rfl
@[simp] theorem State.modBoot_on_of (s : State) (f : BootSt → BootSt) (x : Nat) (g : Fld) : (s.modBoot f).on x g = s.on x g := rfl
@[simp] theorem State.modBoot_frw_of (s : State) (f : BootSt → BootSt) (x : Nat) : (s.modBoot f).frw x = s.frw x := rfl
@[simp] theorem State.modBoot_frd_of (s : State) (f : BootSt → BootSt) (x : Nat) (g : Fld) : (s.modBoot f).frd x g = s.frd x g := rfl
@[simp] theorem State.modBoot_srw_of (s : State) (f : BootSt → BootSt) (x : Nat) : (s.modBoot f).srw x = s.srw x := rfl
@[simp] theorem State.modBoot_srd_of (s : State) (f : BootSt → BootSt) (x : Nat) (g : Fld) : (s.modBoot f).srd x g = s.srd x g := rfl
@[simp] theorem State.modBoot_lv_of (s : State) (f : BootSt → BootSt) (x : Nat) : (s.modBoot f).lv x = s.lv x := rfl
@[simp] theorem State.modBoot_pipe_of (s : State) (f : BootSt → BootSt) (x : Nat) : (s.modBoot f).pipe x = s.pipe x := rfl
@[simp] theorem State.modBoot_queue_of (s : State) (f : BootSt → BootSt) (x : Nat) : (s.modBoot f).queue x = s.queue x := rfl
@[simp] theorem State.modBoot_ch_of (s : State) (f : BootSt → BootSt) (x : Nat) : (s.modBoot f).ch x = s.ch x := rfl
@[simp] theorem State.modBoot_eng_of (s : State) (f : BootSt → BootSt) (x : Nat) : (s.modBoot f).eng x = s.eng x := rfl
@[simp] theorem State.modBoot_panel_of (s : State) (f : BootSt → BootSt) (x : Nat) : (s.modBoot f).panel x = s.panel x := rfl
@[simp] theorem State.modBoot_stream_of (s : State) (f : BootSt → BootSt) (x : Nat) : (s.modBoot f).stream x = s.stream x := rfl
@[simp] theorem State.modBoot_hap_of (s : State) (f : BootSt → BootSt) (x : Nat) : (s.modBoot f).hap x = s.hap x := rfl
@[simp] theorem State.modBoot_cap_of (s : State) (f : BootSt → BootSt) (x : Nat) : (s.modBoot f).cap x = s.cap x := rfl
@[simp] theorem State.modBoot_hart_of (s : State) (f : BootSt → BootSt) (x : Nat) : (s.modBoot f).hart x = s.hart x := rfl
@[simp] theorem State.modBoot_op_of (s : State) (f : BootSt → BootSt) (x : Nat) : (s.modBoot f).op x = s.op x := rfl
@[simp] theorem State.modBoot_rail_of (s : State) (f : BootSt → BootSt) (x : Nat) : (s.modBoot f).rail x = s.rail x := rfl
@[simp] theorem State.modBoot_stallState_of (s : State) (f : BootSt → BootSt) (x : Nat) : (s.modBoot f).stallState x = s.stallState x := rfl
@[simp] theorem State.modBoot_islandOn_of (s : State) (f : BootSt → BootSt) (x : Nat) : (s.modBoot f).islandOn x = s.islandOn x := rfl
@[simp] theorem State.modBoot_dstate_of (s : State) (f : BootSt → BootSt) : (s.modBoot f).dstate = s.dstate := rfl
@[simp] theorem State.modBoot_running_of (s : State) (f : BootSt → BootSt) : (s.modBoot f).running = s.running := rfl
@[simp] theorem State.modBoot_sramB_of (s : State) (f : BootSt → BootSt) (x : Nat) : (s.modBoot f).sramB x = s.sramB x := rfl
@[simp] theorem State.modBoot_dramB_of (s : State) (f : BootSt → BootSt) (x : Nat) : (s.modBoot f).dramB x = s.dramB x := rfl
@[simp] theorem State.modBoot_envB_of (s : State) (f : BootSt → BootSt) (x : Nat) : (s.modBoot f).envB x = s.envB x := rfl
@[simp] theorem State.modBoot_free_of (s : State) (f : BootSt → BootSt) : (s.modBoot f).free = s.free := rfl

/-! modHart -/
@[simp] theorem State.modHart_regs (s : State) (h : Nat) (f : HartSt → HartSt) : (s.modHart h f).regs = s.regs := rfl
@[simp] theorem State.modHart_force (s : State) (h : Nat) (f : HartSt → HartSt) : (s.modHart h f).force = s.force := rfl
@[simp] theorem State.modHart_scan (s : State) (h : Nat) (f : HartSt → HartSt) : (s.modHart h f).scan = s.scan := rfl
@[simp] theorem State.modHart_live (s : State) (h : Nat) (f : HartSt → HartSt) : (s.modHart h f).live = s.live := rfl
@[simp] theorem State.modHart_agreed (s : State) (h : Nat) (f : HartSt → HartSt) : (s.modHart h f).agreed = s.agreed := rfl
@[simp] theorem State.modHart_heldLow (s : State) (h : Nat) (f : HartSt → HartSt) : (s.modHart h f).heldLow = s.heldLow := rfl
@[simp] theorem State.modHart_kevtHeld (s : State) (h : Nat) (f : HartSt → HartSt) : (s.modHart h f).kevtHeld = s.kevtHeld := rfl
@[simp] theorem State.modHart_kevq (s : State) (h : Nat) (f : HartSt → HartSt) : (s.modHart h f).kevq = s.kevq := rfl
@[simp] theorem State.modHart_vrecRead (s : State) (h : Nat) (f : HartSt → HartSt) : (s.modHart h f).vrecRead = s.vrecRead := rfl
@[simp] theorem State.modHart_frozen (s : State) (h : Nat) (f : HartSt → HartSt) : (s.modHart h f).frozen = s.frozen := rfl
@[simp] theorem State.modHart_sram (s : State) (h : Nat) (f : HartSt → HartSt) : (s.modHart h f).sram = s.sram := rfl
@[simp] theorem State.modHart_dram (s : State) (h : Nat) (f : HartSt → HartSt) : (s.modHart h f).dram = s.dram := rfl
@[simp] theorem State.modHart_ecc (s : State) (h : Nat) (f : HartSt → HartSt) : (s.modHart h f).ecc = s.ecc := rfl
@[simp] theorem State.modHart_tlb (s : State) (h : Nat) (f : HartSt → HartSt) : (s.modHart h f).tlb = s.tlb := rfl
@[simp] theorem State.modHart_env (s : State) (h : Nat) (f : HartSt → HartSt) : (s.modHart h f).env = s.env := rfl
@[simp] theorem State.modHart_tally (s : State) (h : Nat) (f : HartSt → HartSt) : (s.modHart h f).tally = s.tally := rfl
@[simp] theorem State.modHart_pipes (s : State) (h : Nat) (f : HartSt → HartSt) : (s.modHart h f).pipes = s.pipes := rfl
@[simp] theorem State.modHart_led (s : State) (h : Nat) (f : HartSt → HartSt) : (s.modHart h f).led = s.led := rfl
@[simp] theorem State.modHart_queues (s : State) (h : Nat) (f : HartSt → HartSt) : (s.modHart h f).queues = s.queues := rfl
@[simp] theorem State.modHart_admitted (s : State) (h : Nat) (f : HartSt → HartSt) : (s.modHart h f).admitted = s.admitted := rfl
@[simp] theorem State.modHart_gpu (s : State) (h : Nat) (f : HartSt → HartSt) : (s.modHart h f).gpu = s.gpu := rfl
@[simp] theorem State.modHart_dmCh (s : State) (h : Nat) (f : HartSt → HartSt) : (s.modHart h f).dmCh = s.dmCh := rfl
@[simp] theorem State.modHart_dmEng (s : State) (h : Nat) (f : HartSt → HartSt) : (s.modHart h f).dmEng = s.dmEng := rfl
@[simp] theorem State.modHart_squashed (s : State) (h : Nat) (f : HartSt → HartSt) : (s.modHart h f).squashed = s.squashed := rfl
@[simp] theorem State.modHart_clearing (s : State) (h : Nat) (f : HartSt → HartSt) : (s.modHart h f).clearing = s.clearing := rfl
@[simp] theorem State.modHart_boot (s : State) (h : Nat) (f : HartSt → HartSt) : (s.modHart h f).boot = s.boot := rfl
@[simp] theorem State.modHart_keeperTrap (s : State) (h : Nat) (f : HartSt → HartSt) : (s.modHart h f).keeperTrap = s.keeperTrap := rfl
@[simp] theorem State.modHart_power (s : State) (h : Nat) (f : HartSt → HartSt) : (s.modHart h f).power = s.power := rfl
@[simp] theorem State.modHart_sm (s : State) (h : Nat) (f : HartSt → HartSt) : (s.modHart h f).sm = s.sm := rfl
@[simp] theorem State.modHart_mem (s : State) (h : Nat) (f : HartSt → HartSt) : (s.modHart h f).mem = s.mem := rfl
@[simp] theorem State.modHart_msr (s : State) (h : Nat) (f : HartSt → HartSt) : (s.modHart h f).msr = s.msr := rfl
@[simp] theorem State.modHart_nvm (s : State) (h : Nat) (f : HartSt → HartSt) : (s.modHart h f).nvm = s.nvm := rfl
@[simp] theorem State.modHart_panels (s : State) (h : Nat) (f : HartSt → HartSt) : (s.modHart h f).panels = s.panels := rfl
@[simp] theorem State.modHart_lineRuns (s : State) (h : Nat) (f : HartSt → HartSt) : (s.modHart h f).lineRuns = s.lineRuns := rfl
@[simp] theorem State.modHart_streams (s : State) (h : Nat) (f : HartSt → HartSt) : (s.modHart h f).streams = s.streams := rfl
@[simp] theorem State.modHart_haps (s : State) (h : Nat) (f : HartSt → HartSt) : (s.modHart h f).haps = s.haps := rfl
@[simp] theorem State.modHart_caps (s : State) (h : Nat) (f : HartSt → HartSt) : (s.modHart h f).caps = s.caps := rfl
@[simp] theorem State.modHart_mix (s : State) (h : Nat) (f : HartSt → HartSt) : (s.modHart h f).mix = s.mix := rfl
@[simp] theorem State.modHart_syncOut (s : State) (h : Nat) (f : HartSt → HartSt) : (s.modHart h f).syncOut = s.syncOut := rfl
@[simp] theorem State.modHart_syncIn (s : State) (h : Nat) (f : HartSt → HartSt) : (s.modHart h f).syncIn = s.syncIn := rfl
@[simp] theorem State.modHart_resp (s : State) (h : Nat) (f : HartSt → HartSt) : (s.modHart h f).resp = s.resp := rfl
@[simp] theorem State.modHart_out (s : State) (h : Nat) (f : HartSt → HartSt) : (s.modHart h f).out = s.out := rfl
@[simp] theorem State.modHart_fresh (s : State) (h : Nat) (f : HartSt → HartSt) : (s.modHart h f).fresh = s.fresh := rfl
@[simp] theorem State.modHart_pending (s : State) (h : Nat) (f : HartSt → HartSt) : (s.modHart h f).pending = s.pending := rfl
@[simp] theorem State.modHart_rw_of (s : State) (h : Nat) (f : HartSt → HartSt) (x : Nat) : (s.modHart h f).rw x = s.rw x := rfl
@[simp] theorem State.modHart_rd_of (s : State) (h : Nat) (f : HartSt → HartSt) (x : Nat) (g : Fld) : (s.modHart h f).rd x g = s.rd x g := rfl
@[simp] theorem State.modHart_on_of (s : State) (h : Nat) (f : HartSt → HartSt) (x : Nat) (g : Fld) : (s.modHart h f).on x g = s.on x g := rfl
@[simp] theorem State.modHart_frw_of (s : State) (h : Nat) (f : HartSt → HartSt) (x : Nat) : (s.modHart h f).frw x = s.frw x := rfl
@[simp] theorem State.modHart_frd_of (s : State) (h : Nat) (f : HartSt → HartSt) (x : Nat) (g : Fld) : (s.modHart h f).frd x g = s.frd x g := rfl
@[simp] theorem State.modHart_srw_of (s : State) (h : Nat) (f : HartSt → HartSt) (x : Nat) : (s.modHart h f).srw x = s.srw x := rfl
@[simp] theorem State.modHart_srd_of (s : State) (h : Nat) (f : HartSt → HartSt) (x : Nat) (g : Fld) : (s.modHart h f).srd x g = s.srd x g := rfl
@[simp] theorem State.modHart_lv_of (s : State) (h : Nat) (f : HartSt → HartSt) (x : Nat) : (s.modHart h f).lv x = s.lv x := rfl
@[simp] theorem State.modHart_pipe_of (s : State) (h : Nat) (f : HartSt → HartSt) (x : Nat) : (s.modHart h f).pipe x = s.pipe x := rfl
@[simp] theorem State.modHart_queue_of (s : State) (h : Nat) (f : HartSt → HartSt) (x : Nat) : (s.modHart h f).queue x = s.queue x := rfl
@[simp] theorem State.modHart_ch_of (s : State) (h : Nat) (f : HartSt → HartSt) (x : Nat) : (s.modHart h f).ch x = s.ch x := rfl
@[simp] theorem State.modHart_eng_of (s : State) (h : Nat) (f : HartSt → HartSt) (x : Nat) : (s.modHart h f).eng x = s.eng x := rfl
@[simp] theorem State.modHart_panel_of (s : State) (h : Nat) (f : HartSt → HartSt) (x : Nat) : (s.modHart h f).panel x = s.panel x := rfl
@[simp] theorem State.modHart_stream_of (s : State) (h : Nat) (f : HartSt → HartSt) (x : Nat) : (s.modHart h f).stream x = s.stream x := rfl
@[simp] theorem State.modHart_hap_of (s : State) (h : Nat) (f : HartSt → HartSt) (x : Nat) : (s.modHart h f).hap x = s.hap x := rfl
@[simp] theorem State.modHart_cap_of (s : State) (h : Nat) (f : HartSt → HartSt) (x : Nat) : (s.modHart h f).cap x = s.cap x := rfl
@[simp] theorem State.modHart_op_of (s : State) (h : Nat) (f : HartSt → HartSt) (x : Nat) : (s.modHart h f).op x = s.op x := rfl
@[simp] theorem State.modHart_rail_of (s : State) (h : Nat) (f : HartSt → HartSt) (x : Nat) : (s.modHart h f).rail x = s.rail x := rfl
@[simp] theorem State.modHart_stallState_of (s : State) (h : Nat) (f : HartSt → HartSt) (x : Nat) : (s.modHart h f).stallState x = s.stallState x := rfl
@[simp] theorem State.modHart_islandOn_of (s : State) (h : Nat) (f : HartSt → HartSt) (x : Nat) : (s.modHart h f).islandOn x = s.islandOn x := rfl
@[simp] theorem State.modHart_dstate_of (s : State) (h : Nat) (f : HartSt → HartSt) : (s.modHart h f).dstate = s.dstate := rfl
@[simp] theorem State.modHart_running_of (s : State) (h : Nat) (f : HartSt → HartSt) : (s.modHart h f).running = s.running := rfl
@[simp] theorem State.modHart_sramB_of (s : State) (h : Nat) (f : HartSt → HartSt) (x : Nat) : (s.modHart h f).sramB x = s.sramB x := rfl
@[simp] theorem State.modHart_dramB_of (s : State) (h : Nat) (f : HartSt → HartSt) (x : Nat) : (s.modHart h f).dramB x = s.dramB x := rfl
@[simp] theorem State.modHart_envB_of (s : State) (h : Nat) (f : HartSt → HartSt) (x : Nat) : (s.modHart h f).envB x = s.envB x := rfl
@[simp] theorem State.modHart_free_of (s : State) (h : Nat) (f : HartSt → HartSt) : (s.modHart h f).free = s.free := rfl

/-! setGpu -/
@[simp] theorem State.setGpu_regs (s : State) (f : GpuSt → GpuSt) : (s.setGpu f).regs = s.regs := rfl
@[simp] theorem State.setGpu_force (s : State) (f : GpuSt → GpuSt) : (s.setGpu f).force = s.force := rfl
@[simp] theorem State.setGpu_scan (s : State) (f : GpuSt → GpuSt) : (s.setGpu f).scan = s.scan := rfl
@[simp] theorem State.setGpu_live (s : State) (f : GpuSt → GpuSt) : (s.setGpu f).live = s.live := rfl
@[simp] theorem State.setGpu_agreed (s : State) (f : GpuSt → GpuSt) : (s.setGpu f).agreed = s.agreed := rfl
@[simp] theorem State.setGpu_heldLow (s : State) (f : GpuSt → GpuSt) : (s.setGpu f).heldLow = s.heldLow := rfl
@[simp] theorem State.setGpu_kevtHeld (s : State) (f : GpuSt → GpuSt) : (s.setGpu f).kevtHeld = s.kevtHeld := rfl
@[simp] theorem State.setGpu_kevq (s : State) (f : GpuSt → GpuSt) : (s.setGpu f).kevq = s.kevq := rfl
@[simp] theorem State.setGpu_vrecRead (s : State) (f : GpuSt → GpuSt) : (s.setGpu f).vrecRead = s.vrecRead := rfl
@[simp] theorem State.setGpu_frozen (s : State) (f : GpuSt → GpuSt) : (s.setGpu f).frozen = s.frozen := rfl
@[simp] theorem State.setGpu_sram (s : State) (f : GpuSt → GpuSt) : (s.setGpu f).sram = s.sram := rfl
@[simp] theorem State.setGpu_dram (s : State) (f : GpuSt → GpuSt) : (s.setGpu f).dram = s.dram := rfl
@[simp] theorem State.setGpu_ecc (s : State) (f : GpuSt → GpuSt) : (s.setGpu f).ecc = s.ecc := rfl
@[simp] theorem State.setGpu_tlb (s : State) (f : GpuSt → GpuSt) : (s.setGpu f).tlb = s.tlb := rfl
@[simp] theorem State.setGpu_env (s : State) (f : GpuSt → GpuSt) : (s.setGpu f).env = s.env := rfl
@[simp] theorem State.setGpu_tally (s : State) (f : GpuSt → GpuSt) : (s.setGpu f).tally = s.tally := rfl
@[simp] theorem State.setGpu_pipes (s : State) (f : GpuSt → GpuSt) : (s.setGpu f).pipes = s.pipes := rfl
@[simp] theorem State.setGpu_led (s : State) (f : GpuSt → GpuSt) : (s.setGpu f).led = s.led := rfl
@[simp] theorem State.setGpu_queues (s : State) (f : GpuSt → GpuSt) : (s.setGpu f).queues = s.queues := rfl
@[simp] theorem State.setGpu_admitted (s : State) (f : GpuSt → GpuSt) : (s.setGpu f).admitted = s.admitted := rfl
@[simp] theorem State.setGpu_dmCh (s : State) (f : GpuSt → GpuSt) : (s.setGpu f).dmCh = s.dmCh := rfl
@[simp] theorem State.setGpu_dmEng (s : State) (f : GpuSt → GpuSt) : (s.setGpu f).dmEng = s.dmEng := rfl
@[simp] theorem State.setGpu_squashed (s : State) (f : GpuSt → GpuSt) : (s.setGpu f).squashed = s.squashed := rfl
@[simp] theorem State.setGpu_clearing (s : State) (f : GpuSt → GpuSt) : (s.setGpu f).clearing = s.clearing := rfl
@[simp] theorem State.setGpu_boot (s : State) (f : GpuSt → GpuSt) : (s.setGpu f).boot = s.boot := rfl
@[simp] theorem State.setGpu_harts (s : State) (f : GpuSt → GpuSt) : (s.setGpu f).harts = s.harts := rfl
@[simp] theorem State.setGpu_keeperTrap (s : State) (f : GpuSt → GpuSt) : (s.setGpu f).keeperTrap = s.keeperTrap := rfl
@[simp] theorem State.setGpu_power (s : State) (f : GpuSt → GpuSt) : (s.setGpu f).power = s.power := rfl
@[simp] theorem State.setGpu_sm (s : State) (f : GpuSt → GpuSt) : (s.setGpu f).sm = s.sm := rfl
@[simp] theorem State.setGpu_mem (s : State) (f : GpuSt → GpuSt) : (s.setGpu f).mem = s.mem := rfl
@[simp] theorem State.setGpu_msr (s : State) (f : GpuSt → GpuSt) : (s.setGpu f).msr = s.msr := rfl
@[simp] theorem State.setGpu_nvm (s : State) (f : GpuSt → GpuSt) : (s.setGpu f).nvm = s.nvm := rfl
@[simp] theorem State.setGpu_panels (s : State) (f : GpuSt → GpuSt) : (s.setGpu f).panels = s.panels := rfl
@[simp] theorem State.setGpu_lineRuns (s : State) (f : GpuSt → GpuSt) : (s.setGpu f).lineRuns = s.lineRuns := rfl
@[simp] theorem State.setGpu_streams (s : State) (f : GpuSt → GpuSt) : (s.setGpu f).streams = s.streams := rfl
@[simp] theorem State.setGpu_haps (s : State) (f : GpuSt → GpuSt) : (s.setGpu f).haps = s.haps := rfl
@[simp] theorem State.setGpu_caps (s : State) (f : GpuSt → GpuSt) : (s.setGpu f).caps = s.caps := rfl
@[simp] theorem State.setGpu_mix (s : State) (f : GpuSt → GpuSt) : (s.setGpu f).mix = s.mix := rfl
@[simp] theorem State.setGpu_syncOut (s : State) (f : GpuSt → GpuSt) : (s.setGpu f).syncOut = s.syncOut := rfl
@[simp] theorem State.setGpu_syncIn (s : State) (f : GpuSt → GpuSt) : (s.setGpu f).syncIn = s.syncIn := rfl
@[simp] theorem State.setGpu_resp (s : State) (f : GpuSt → GpuSt) : (s.setGpu f).resp = s.resp := rfl
@[simp] theorem State.setGpu_out (s : State) (f : GpuSt → GpuSt) : (s.setGpu f).out = s.out := rfl
@[simp] theorem State.setGpu_fresh (s : State) (f : GpuSt → GpuSt) : (s.setGpu f).fresh = s.fresh := rfl
@[simp] theorem State.setGpu_pending (s : State) (f : GpuSt → GpuSt) : (s.setGpu f).pending = s.pending := rfl
@[simp] theorem State.setGpu_rw_of (s : State) (f : GpuSt → GpuSt) (x : Nat) : (s.setGpu f).rw x = s.rw x := rfl
@[simp] theorem State.setGpu_rd_of (s : State) (f : GpuSt → GpuSt) (x : Nat) (g : Fld) : (s.setGpu f).rd x g = s.rd x g := rfl
@[simp] theorem State.setGpu_on_of (s : State) (f : GpuSt → GpuSt) (x : Nat) (g : Fld) : (s.setGpu f).on x g = s.on x g := rfl
@[simp] theorem State.setGpu_frw_of (s : State) (f : GpuSt → GpuSt) (x : Nat) : (s.setGpu f).frw x = s.frw x := rfl
@[simp] theorem State.setGpu_frd_of (s : State) (f : GpuSt → GpuSt) (x : Nat) (g : Fld) : (s.setGpu f).frd x g = s.frd x g := rfl
@[simp] theorem State.setGpu_srw_of (s : State) (f : GpuSt → GpuSt) (x : Nat) : (s.setGpu f).srw x = s.srw x := rfl
@[simp] theorem State.setGpu_srd_of (s : State) (f : GpuSt → GpuSt) (x : Nat) (g : Fld) : (s.setGpu f).srd x g = s.srd x g := rfl
@[simp] theorem State.setGpu_lv_of (s : State) (f : GpuSt → GpuSt) (x : Nat) : (s.setGpu f).lv x = s.lv x := rfl
@[simp] theorem State.setGpu_pipe_of (s : State) (f : GpuSt → GpuSt) (x : Nat) : (s.setGpu f).pipe x = s.pipe x := rfl
@[simp] theorem State.setGpu_queue_of (s : State) (f : GpuSt → GpuSt) (x : Nat) : (s.setGpu f).queue x = s.queue x := rfl
@[simp] theorem State.setGpu_ch_of (s : State) (f : GpuSt → GpuSt) (x : Nat) : (s.setGpu f).ch x = s.ch x := rfl
@[simp] theorem State.setGpu_eng_of (s : State) (f : GpuSt → GpuSt) (x : Nat) : (s.setGpu f).eng x = s.eng x := rfl
@[simp] theorem State.setGpu_panel_of (s : State) (f : GpuSt → GpuSt) (x : Nat) : (s.setGpu f).panel x = s.panel x := rfl
@[simp] theorem State.setGpu_stream_of (s : State) (f : GpuSt → GpuSt) (x : Nat) : (s.setGpu f).stream x = s.stream x := rfl
@[simp] theorem State.setGpu_hap_of (s : State) (f : GpuSt → GpuSt) (x : Nat) : (s.setGpu f).hap x = s.hap x := rfl
@[simp] theorem State.setGpu_cap_of (s : State) (f : GpuSt → GpuSt) (x : Nat) : (s.setGpu f).cap x = s.cap x := rfl
@[simp] theorem State.setGpu_hart_of (s : State) (f : GpuSt → GpuSt) (x : Nat) : (s.setGpu f).hart x = s.hart x := rfl
@[simp] theorem State.setGpu_op_of (s : State) (f : GpuSt → GpuSt) (x : Nat) : (s.setGpu f).op x = s.op x := rfl
@[simp] theorem State.setGpu_rail_of (s : State) (f : GpuSt → GpuSt) (x : Nat) : (s.setGpu f).rail x = s.rail x := rfl
@[simp] theorem State.setGpu_stallState_of (s : State) (f : GpuSt → GpuSt) (x : Nat) : (s.setGpu f).stallState x = s.stallState x := rfl
@[simp] theorem State.setGpu_islandOn_of (s : State) (f : GpuSt → GpuSt) (x : Nat) : (s.setGpu f).islandOn x = s.islandOn x := rfl
@[simp] theorem State.setGpu_dstate_of (s : State) (f : GpuSt → GpuSt) : (s.setGpu f).dstate = s.dstate := rfl
@[simp] theorem State.setGpu_running_of (s : State) (f : GpuSt → GpuSt) : (s.setGpu f).running = s.running := rfl
@[simp] theorem State.setGpu_sramB_of (s : State) (f : GpuSt → GpuSt) (x : Nat) : (s.setGpu f).sramB x = s.sramB x := rfl
@[simp] theorem State.setGpu_dramB_of (s : State) (f : GpuSt → GpuSt) (x : Nat) : (s.setGpu f).dramB x = s.dramB x := rfl
@[simp] theorem State.setGpu_envB_of (s : State) (f : GpuSt → GpuSt) (x : Nat) : (s.setGpu f).envB x = s.envB x := rfl
@[simp] theorem State.setGpu_free_of (s : State) (f : GpuSt → GpuSt) : (s.setGpu f).free = s.free := rfl

/-! setEcc -/
@[simp] theorem State.setEcc_regs (s : State) (k v : Nat) : (s.setEcc k v).regs = s.regs := rfl
@[simp] theorem State.setEcc_force (s : State) (k v : Nat) : (s.setEcc k v).force = s.force := rfl
@[simp] theorem State.setEcc_scan (s : State) (k v : Nat) : (s.setEcc k v).scan = s.scan := rfl
@[simp] theorem State.setEcc_live (s : State) (k v : Nat) : (s.setEcc k v).live = s.live := rfl
@[simp] theorem State.setEcc_agreed (s : State) (k v : Nat) : (s.setEcc k v).agreed = s.agreed := rfl
@[simp] theorem State.setEcc_heldLow (s : State) (k v : Nat) : (s.setEcc k v).heldLow = s.heldLow := rfl
@[simp] theorem State.setEcc_kevtHeld (s : State) (k v : Nat) : (s.setEcc k v).kevtHeld = s.kevtHeld := rfl
@[simp] theorem State.setEcc_kevq (s : State) (k v : Nat) : (s.setEcc k v).kevq = s.kevq := rfl
@[simp] theorem State.setEcc_vrecRead (s : State) (k v : Nat) : (s.setEcc k v).vrecRead = s.vrecRead := rfl
@[simp] theorem State.setEcc_frozen (s : State) (k v : Nat) : (s.setEcc k v).frozen = s.frozen := rfl
@[simp] theorem State.setEcc_sram (s : State) (k v : Nat) : (s.setEcc k v).sram = s.sram := rfl
@[simp] theorem State.setEcc_dram (s : State) (k v : Nat) : (s.setEcc k v).dram = s.dram := rfl
@[simp] theorem State.setEcc_tlb (s : State) (k v : Nat) : (s.setEcc k v).tlb = s.tlb := rfl
@[simp] theorem State.setEcc_env (s : State) (k v : Nat) : (s.setEcc k v).env = s.env := rfl
@[simp] theorem State.setEcc_tally (s : State) (k v : Nat) : (s.setEcc k v).tally = s.tally := rfl
@[simp] theorem State.setEcc_pipes (s : State) (k v : Nat) : (s.setEcc k v).pipes = s.pipes := rfl
@[simp] theorem State.setEcc_led (s : State) (k v : Nat) : (s.setEcc k v).led = s.led := rfl
@[simp] theorem State.setEcc_queues (s : State) (k v : Nat) : (s.setEcc k v).queues = s.queues := rfl
@[simp] theorem State.setEcc_admitted (s : State) (k v : Nat) : (s.setEcc k v).admitted = s.admitted := rfl
@[simp] theorem State.setEcc_gpu (s : State) (k v : Nat) : (s.setEcc k v).gpu = s.gpu := rfl
@[simp] theorem State.setEcc_dmCh (s : State) (k v : Nat) : (s.setEcc k v).dmCh = s.dmCh := rfl
@[simp] theorem State.setEcc_dmEng (s : State) (k v : Nat) : (s.setEcc k v).dmEng = s.dmEng := rfl
@[simp] theorem State.setEcc_squashed (s : State) (k v : Nat) : (s.setEcc k v).squashed = s.squashed := rfl
@[simp] theorem State.setEcc_clearing (s : State) (k v : Nat) : (s.setEcc k v).clearing = s.clearing := rfl
@[simp] theorem State.setEcc_boot (s : State) (k v : Nat) : (s.setEcc k v).boot = s.boot := rfl
@[simp] theorem State.setEcc_harts (s : State) (k v : Nat) : (s.setEcc k v).harts = s.harts := rfl
@[simp] theorem State.setEcc_keeperTrap (s : State) (k v : Nat) : (s.setEcc k v).keeperTrap = s.keeperTrap := rfl
@[simp] theorem State.setEcc_power (s : State) (k v : Nat) : (s.setEcc k v).power = s.power := rfl
@[simp] theorem State.setEcc_sm (s : State) (k v : Nat) : (s.setEcc k v).sm = s.sm := rfl
@[simp] theorem State.setEcc_mem (s : State) (k v : Nat) : (s.setEcc k v).mem = s.mem := rfl
@[simp] theorem State.setEcc_msr (s : State) (k v : Nat) : (s.setEcc k v).msr = s.msr := rfl
@[simp] theorem State.setEcc_nvm (s : State) (k v : Nat) : (s.setEcc k v).nvm = s.nvm := rfl
@[simp] theorem State.setEcc_panels (s : State) (k v : Nat) : (s.setEcc k v).panels = s.panels := rfl
@[simp] theorem State.setEcc_lineRuns (s : State) (k v : Nat) : (s.setEcc k v).lineRuns = s.lineRuns := rfl
@[simp] theorem State.setEcc_streams (s : State) (k v : Nat) : (s.setEcc k v).streams = s.streams := rfl
@[simp] theorem State.setEcc_haps (s : State) (k v : Nat) : (s.setEcc k v).haps = s.haps := rfl
@[simp] theorem State.setEcc_caps (s : State) (k v : Nat) : (s.setEcc k v).caps = s.caps := rfl
@[simp] theorem State.setEcc_mix (s : State) (k v : Nat) : (s.setEcc k v).mix = s.mix := rfl
@[simp] theorem State.setEcc_syncOut (s : State) (k v : Nat) : (s.setEcc k v).syncOut = s.syncOut := rfl
@[simp] theorem State.setEcc_syncIn (s : State) (k v : Nat) : (s.setEcc k v).syncIn = s.syncIn := rfl
@[simp] theorem State.setEcc_resp (s : State) (k v : Nat) : (s.setEcc k v).resp = s.resp := rfl
@[simp] theorem State.setEcc_out (s : State) (k v : Nat) : (s.setEcc k v).out = s.out := rfl
@[simp] theorem State.setEcc_fresh (s : State) (k v : Nat) : (s.setEcc k v).fresh = s.fresh := rfl
@[simp] theorem State.setEcc_pending (s : State) (k v : Nat) : (s.setEcc k v).pending = s.pending := rfl
@[simp] theorem State.setEcc_rw_of (s : State) (k v : Nat) (x : Nat) : (s.setEcc k v).rw x = s.rw x := rfl
@[simp] theorem State.setEcc_rd_of (s : State) (k v : Nat) (x : Nat) (g : Fld) : (s.setEcc k v).rd x g = s.rd x g := rfl
@[simp] theorem State.setEcc_on_of (s : State) (k v : Nat) (x : Nat) (g : Fld) : (s.setEcc k v).on x g = s.on x g := rfl
@[simp] theorem State.setEcc_frw_of (s : State) (k v : Nat) (x : Nat) : (s.setEcc k v).frw x = s.frw x := rfl
@[simp] theorem State.setEcc_frd_of (s : State) (k v : Nat) (x : Nat) (g : Fld) : (s.setEcc k v).frd x g = s.frd x g := rfl
@[simp] theorem State.setEcc_srw_of (s : State) (k v : Nat) (x : Nat) : (s.setEcc k v).srw x = s.srw x := rfl
@[simp] theorem State.setEcc_srd_of (s : State) (k v : Nat) (x : Nat) (g : Fld) : (s.setEcc k v).srd x g = s.srd x g := rfl
@[simp] theorem State.setEcc_lv_of (s : State) (k v : Nat) (x : Nat) : (s.setEcc k v).lv x = s.lv x := rfl
@[simp] theorem State.setEcc_pipe_of (s : State) (k v : Nat) (x : Nat) : (s.setEcc k v).pipe x = s.pipe x := rfl
@[simp] theorem State.setEcc_queue_of (s : State) (k v : Nat) (x : Nat) : (s.setEcc k v).queue x = s.queue x := rfl
@[simp] theorem State.setEcc_ch_of (s : State) (k v : Nat) (x : Nat) : (s.setEcc k v).ch x = s.ch x := rfl
@[simp] theorem State.setEcc_eng_of (s : State) (k v : Nat) (x : Nat) : (s.setEcc k v).eng x = s.eng x := rfl
@[simp] theorem State.setEcc_panel_of (s : State) (k v : Nat) (x : Nat) : (s.setEcc k v).panel x = s.panel x := rfl
@[simp] theorem State.setEcc_stream_of (s : State) (k v : Nat) (x : Nat) : (s.setEcc k v).stream x = s.stream x := rfl
@[simp] theorem State.setEcc_hap_of (s : State) (k v : Nat) (x : Nat) : (s.setEcc k v).hap x = s.hap x := rfl
@[simp] theorem State.setEcc_cap_of (s : State) (k v : Nat) (x : Nat) : (s.setEcc k v).cap x = s.cap x := rfl
@[simp] theorem State.setEcc_hart_of (s : State) (k v : Nat) (x : Nat) : (s.setEcc k v).hart x = s.hart x := rfl
@[simp] theorem State.setEcc_op_of (s : State) (k v : Nat) (x : Nat) : (s.setEcc k v).op x = s.op x := rfl
@[simp] theorem State.setEcc_rail_of (s : State) (k v : Nat) (x : Nat) : (s.setEcc k v).rail x = s.rail x := rfl
@[simp] theorem State.setEcc_stallState_of (s : State) (k v : Nat) (x : Nat) : (s.setEcc k v).stallState x = s.stallState x := rfl
@[simp] theorem State.setEcc_islandOn_of (s : State) (k v : Nat) (x : Nat) : (s.setEcc k v).islandOn x = s.islandOn x := rfl
@[simp] theorem State.setEcc_dstate_of (s : State) (k v : Nat) : (s.setEcc k v).dstate = s.dstate := rfl
@[simp] theorem State.setEcc_running_of (s : State) (k v : Nat) : (s.setEcc k v).running = s.running := rfl
@[simp] theorem State.setEcc_sramB_of (s : State) (k v : Nat) (x : Nat) : (s.setEcc k v).sramB x = s.sramB x := rfl
@[simp] theorem State.setEcc_dramB_of (s : State) (k v : Nat) (x : Nat) : (s.setEcc k v).dramB x = s.dramB x := rfl
@[simp] theorem State.setEcc_envB_of (s : State) (k v : Nat) (x : Nat) : (s.setEcc k v).envB x = s.envB x := rfl
@[simp] theorem State.setEcc_free_of (s : State) (k v : Nat) : (s.setEcc k v).free = s.free := rfl

/-! sramWrite -/
@[simp] theorem State.sramWrite_regs (s : State) (o : Nat) (b : List Byte) : (s.sramWrite o b).regs = s.regs := rfl
@[simp] theorem State.sramWrite_force (s : State) (o : Nat) (b : List Byte) : (s.sramWrite o b).force = s.force := rfl
@[simp] theorem State.sramWrite_scan (s : State) (o : Nat) (b : List Byte) : (s.sramWrite o b).scan = s.scan := rfl
@[simp] theorem State.sramWrite_live (s : State) (o : Nat) (b : List Byte) : (s.sramWrite o b).live = s.live := rfl
@[simp] theorem State.sramWrite_agreed (s : State) (o : Nat) (b : List Byte) : (s.sramWrite o b).agreed = s.agreed := rfl
@[simp] theorem State.sramWrite_heldLow (s : State) (o : Nat) (b : List Byte) : (s.sramWrite o b).heldLow = s.heldLow := rfl
@[simp] theorem State.sramWrite_kevtHeld (s : State) (o : Nat) (b : List Byte) : (s.sramWrite o b).kevtHeld = s.kevtHeld := rfl
@[simp] theorem State.sramWrite_kevq (s : State) (o : Nat) (b : List Byte) : (s.sramWrite o b).kevq = s.kevq := rfl
@[simp] theorem State.sramWrite_vrecRead (s : State) (o : Nat) (b : List Byte) : (s.sramWrite o b).vrecRead = s.vrecRead := rfl
@[simp] theorem State.sramWrite_frozen (s : State) (o : Nat) (b : List Byte) : (s.sramWrite o b).frozen = s.frozen := rfl
@[simp] theorem State.sramWrite_dram (s : State) (o : Nat) (b : List Byte) : (s.sramWrite o b).dram = s.dram := rfl
@[simp] theorem State.sramWrite_ecc (s : State) (o : Nat) (b : List Byte) : (s.sramWrite o b).ecc = s.ecc := rfl
@[simp] theorem State.sramWrite_tlb (s : State) (o : Nat) (b : List Byte) : (s.sramWrite o b).tlb = s.tlb := rfl
@[simp] theorem State.sramWrite_env (s : State) (o : Nat) (b : List Byte) : (s.sramWrite o b).env = s.env := rfl
@[simp] theorem State.sramWrite_tally (s : State) (o : Nat) (b : List Byte) : (s.sramWrite o b).tally = s.tally := rfl
@[simp] theorem State.sramWrite_pipes (s : State) (o : Nat) (b : List Byte) : (s.sramWrite o b).pipes = s.pipes := rfl
@[simp] theorem State.sramWrite_led (s : State) (o : Nat) (b : List Byte) : (s.sramWrite o b).led = s.led := rfl
@[simp] theorem State.sramWrite_queues (s : State) (o : Nat) (b : List Byte) : (s.sramWrite o b).queues = s.queues := rfl
@[simp] theorem State.sramWrite_admitted (s : State) (o : Nat) (b : List Byte) : (s.sramWrite o b).admitted = s.admitted := rfl
@[simp] theorem State.sramWrite_gpu (s : State) (o : Nat) (b : List Byte) : (s.sramWrite o b).gpu = s.gpu := rfl
@[simp] theorem State.sramWrite_dmCh (s : State) (o : Nat) (b : List Byte) : (s.sramWrite o b).dmCh = s.dmCh := rfl
@[simp] theorem State.sramWrite_dmEng (s : State) (o : Nat) (b : List Byte) : (s.sramWrite o b).dmEng = s.dmEng := rfl
@[simp] theorem State.sramWrite_squashed (s : State) (o : Nat) (b : List Byte) : (s.sramWrite o b).squashed = s.squashed := rfl
@[simp] theorem State.sramWrite_clearing (s : State) (o : Nat) (b : List Byte) : (s.sramWrite o b).clearing = s.clearing := rfl
@[simp] theorem State.sramWrite_boot (s : State) (o : Nat) (b : List Byte) : (s.sramWrite o b).boot = s.boot := rfl
@[simp] theorem State.sramWrite_harts (s : State) (o : Nat) (b : List Byte) : (s.sramWrite o b).harts = s.harts := rfl
@[simp] theorem State.sramWrite_keeperTrap (s : State) (o : Nat) (b : List Byte) : (s.sramWrite o b).keeperTrap = s.keeperTrap := rfl
@[simp] theorem State.sramWrite_power (s : State) (o : Nat) (b : List Byte) : (s.sramWrite o b).power = s.power := rfl
@[simp] theorem State.sramWrite_sm (s : State) (o : Nat) (b : List Byte) : (s.sramWrite o b).sm = s.sm := rfl
@[simp] theorem State.sramWrite_mem (s : State) (o : Nat) (b : List Byte) : (s.sramWrite o b).mem = s.mem := rfl
@[simp] theorem State.sramWrite_msr (s : State) (o : Nat) (b : List Byte) : (s.sramWrite o b).msr = s.msr := rfl
@[simp] theorem State.sramWrite_nvm (s : State) (o : Nat) (b : List Byte) : (s.sramWrite o b).nvm = s.nvm := rfl
@[simp] theorem State.sramWrite_panels (s : State) (o : Nat) (b : List Byte) : (s.sramWrite o b).panels = s.panels := rfl
@[simp] theorem State.sramWrite_lineRuns (s : State) (o : Nat) (b : List Byte) : (s.sramWrite o b).lineRuns = s.lineRuns := rfl
@[simp] theorem State.sramWrite_streams (s : State) (o : Nat) (b : List Byte) : (s.sramWrite o b).streams = s.streams := rfl
@[simp] theorem State.sramWrite_haps (s : State) (o : Nat) (b : List Byte) : (s.sramWrite o b).haps = s.haps := rfl
@[simp] theorem State.sramWrite_caps (s : State) (o : Nat) (b : List Byte) : (s.sramWrite o b).caps = s.caps := rfl
@[simp] theorem State.sramWrite_mix (s : State) (o : Nat) (b : List Byte) : (s.sramWrite o b).mix = s.mix := rfl
@[simp] theorem State.sramWrite_syncOut (s : State) (o : Nat) (b : List Byte) : (s.sramWrite o b).syncOut = s.syncOut := rfl
@[simp] theorem State.sramWrite_syncIn (s : State) (o : Nat) (b : List Byte) : (s.sramWrite o b).syncIn = s.syncIn := rfl
@[simp] theorem State.sramWrite_resp (s : State) (o : Nat) (b : List Byte) : (s.sramWrite o b).resp = s.resp := rfl
@[simp] theorem State.sramWrite_out (s : State) (o : Nat) (b : List Byte) : (s.sramWrite o b).out = s.out := rfl
@[simp] theorem State.sramWrite_fresh (s : State) (o : Nat) (b : List Byte) : (s.sramWrite o b).fresh = s.fresh := rfl
@[simp] theorem State.sramWrite_pending (s : State) (o : Nat) (b : List Byte) : (s.sramWrite o b).pending = s.pending := rfl
@[simp] theorem State.sramWrite_rw_of (s : State) (o : Nat) (b : List Byte) (x : Nat) : (s.sramWrite o b).rw x = s.rw x := rfl
@[simp] theorem State.sramWrite_rd_of (s : State) (o : Nat) (b : List Byte) (x : Nat) (g : Fld) : (s.sramWrite o b).rd x g = s.rd x g := rfl
@[simp] theorem State.sramWrite_on_of (s : State) (o : Nat) (b : List Byte) (x : Nat) (g : Fld) : (s.sramWrite o b).on x g = s.on x g := rfl
@[simp] theorem State.sramWrite_frw_of (s : State) (o : Nat) (b : List Byte) (x : Nat) : (s.sramWrite o b).frw x = s.frw x := rfl
@[simp] theorem State.sramWrite_frd_of (s : State) (o : Nat) (b : List Byte) (x : Nat) (g : Fld) : (s.sramWrite o b).frd x g = s.frd x g := rfl
@[simp] theorem State.sramWrite_srw_of (s : State) (o : Nat) (b : List Byte) (x : Nat) : (s.sramWrite o b).srw x = s.srw x := rfl
@[simp] theorem State.sramWrite_srd_of (s : State) (o : Nat) (b : List Byte) (x : Nat) (g : Fld) : (s.sramWrite o b).srd x g = s.srd x g := rfl
@[simp] theorem State.sramWrite_lv_of (s : State) (o : Nat) (b : List Byte) (x : Nat) : (s.sramWrite o b).lv x = s.lv x := rfl
@[simp] theorem State.sramWrite_pipe_of (s : State) (o : Nat) (b : List Byte) (x : Nat) : (s.sramWrite o b).pipe x = s.pipe x := rfl
@[simp] theorem State.sramWrite_queue_of (s : State) (o : Nat) (b : List Byte) (x : Nat) : (s.sramWrite o b).queue x = s.queue x := rfl
@[simp] theorem State.sramWrite_ch_of (s : State) (o : Nat) (b : List Byte) (x : Nat) : (s.sramWrite o b).ch x = s.ch x := rfl
@[simp] theorem State.sramWrite_eng_of (s : State) (o : Nat) (b : List Byte) (x : Nat) : (s.sramWrite o b).eng x = s.eng x := rfl
@[simp] theorem State.sramWrite_panel_of (s : State) (o : Nat) (b : List Byte) (x : Nat) : (s.sramWrite o b).panel x = s.panel x := rfl
@[simp] theorem State.sramWrite_stream_of (s : State) (o : Nat) (b : List Byte) (x : Nat) : (s.sramWrite o b).stream x = s.stream x := rfl
@[simp] theorem State.sramWrite_hap_of (s : State) (o : Nat) (b : List Byte) (x : Nat) : (s.sramWrite o b).hap x = s.hap x := rfl
@[simp] theorem State.sramWrite_cap_of (s : State) (o : Nat) (b : List Byte) (x : Nat) : (s.sramWrite o b).cap x = s.cap x := rfl
@[simp] theorem State.sramWrite_hart_of (s : State) (o : Nat) (b : List Byte) (x : Nat) : (s.sramWrite o b).hart x = s.hart x := rfl
@[simp] theorem State.sramWrite_op_of (s : State) (o : Nat) (b : List Byte) (x : Nat) : (s.sramWrite o b).op x = s.op x := rfl
@[simp] theorem State.sramWrite_rail_of (s : State) (o : Nat) (b : List Byte) (x : Nat) : (s.sramWrite o b).rail x = s.rail x := rfl
@[simp] theorem State.sramWrite_stallState_of (s : State) (o : Nat) (b : List Byte) (x : Nat) : (s.sramWrite o b).stallState x = s.stallState x := rfl
@[simp] theorem State.sramWrite_islandOn_of (s : State) (o : Nat) (b : List Byte) (x : Nat) : (s.sramWrite o b).islandOn x = s.islandOn x := rfl
@[simp] theorem State.sramWrite_dstate_of (s : State) (o : Nat) (b : List Byte) : (s.sramWrite o b).dstate = s.dstate := rfl
@[simp] theorem State.sramWrite_running_of (s : State) (o : Nat) (b : List Byte) : (s.sramWrite o b).running = s.running := rfl
@[simp] theorem State.sramWrite_dramB_of (s : State) (o : Nat) (b : List Byte) (x : Nat) : (s.sramWrite o b).dramB x = s.dramB x := rfl
@[simp] theorem State.sramWrite_envB_of (s : State) (o : Nat) (b : List Byte) (x : Nat) : (s.sramWrite o b).envB x = s.envB x := rfl
@[simp] theorem State.sramWrite_free_of (s : State) (o : Nat) (b : List Byte) : (s.sramWrite o b).free = s.free := rfl

/-! dramWrite -/
@[simp] theorem State.dramWrite_regs (s : State) (o : Nat) (b : List Byte) : (s.dramWrite o b).regs = s.regs := rfl
@[simp] theorem State.dramWrite_force (s : State) (o : Nat) (b : List Byte) : (s.dramWrite o b).force = s.force := rfl
@[simp] theorem State.dramWrite_scan (s : State) (o : Nat) (b : List Byte) : (s.dramWrite o b).scan = s.scan := rfl
@[simp] theorem State.dramWrite_live (s : State) (o : Nat) (b : List Byte) : (s.dramWrite o b).live = s.live := rfl
@[simp] theorem State.dramWrite_agreed (s : State) (o : Nat) (b : List Byte) : (s.dramWrite o b).agreed = s.agreed := rfl
@[simp] theorem State.dramWrite_heldLow (s : State) (o : Nat) (b : List Byte) : (s.dramWrite o b).heldLow = s.heldLow := rfl
@[simp] theorem State.dramWrite_kevtHeld (s : State) (o : Nat) (b : List Byte) : (s.dramWrite o b).kevtHeld = s.kevtHeld := rfl
@[simp] theorem State.dramWrite_kevq (s : State) (o : Nat) (b : List Byte) : (s.dramWrite o b).kevq = s.kevq := rfl
@[simp] theorem State.dramWrite_vrecRead (s : State) (o : Nat) (b : List Byte) : (s.dramWrite o b).vrecRead = s.vrecRead := rfl
@[simp] theorem State.dramWrite_frozen (s : State) (o : Nat) (b : List Byte) : (s.dramWrite o b).frozen = s.frozen := rfl
@[simp] theorem State.dramWrite_sram (s : State) (o : Nat) (b : List Byte) : (s.dramWrite o b).sram = s.sram := rfl
@[simp] theorem State.dramWrite_ecc (s : State) (o : Nat) (b : List Byte) : (s.dramWrite o b).ecc = s.ecc := rfl
@[simp] theorem State.dramWrite_tlb (s : State) (o : Nat) (b : List Byte) : (s.dramWrite o b).tlb = s.tlb := rfl
@[simp] theorem State.dramWrite_env (s : State) (o : Nat) (b : List Byte) : (s.dramWrite o b).env = s.env := rfl
@[simp] theorem State.dramWrite_tally (s : State) (o : Nat) (b : List Byte) : (s.dramWrite o b).tally = s.tally := rfl
@[simp] theorem State.dramWrite_pipes (s : State) (o : Nat) (b : List Byte) : (s.dramWrite o b).pipes = s.pipes := rfl
@[simp] theorem State.dramWrite_led (s : State) (o : Nat) (b : List Byte) : (s.dramWrite o b).led = s.led := rfl
@[simp] theorem State.dramWrite_queues (s : State) (o : Nat) (b : List Byte) : (s.dramWrite o b).queues = s.queues := rfl
@[simp] theorem State.dramWrite_admitted (s : State) (o : Nat) (b : List Byte) : (s.dramWrite o b).admitted = s.admitted := rfl
@[simp] theorem State.dramWrite_gpu (s : State) (o : Nat) (b : List Byte) : (s.dramWrite o b).gpu = s.gpu := rfl
@[simp] theorem State.dramWrite_dmCh (s : State) (o : Nat) (b : List Byte) : (s.dramWrite o b).dmCh = s.dmCh := rfl
@[simp] theorem State.dramWrite_dmEng (s : State) (o : Nat) (b : List Byte) : (s.dramWrite o b).dmEng = s.dmEng := rfl
@[simp] theorem State.dramWrite_squashed (s : State) (o : Nat) (b : List Byte) : (s.dramWrite o b).squashed = s.squashed := rfl
@[simp] theorem State.dramWrite_clearing (s : State) (o : Nat) (b : List Byte) : (s.dramWrite o b).clearing = s.clearing := rfl
@[simp] theorem State.dramWrite_boot (s : State) (o : Nat) (b : List Byte) : (s.dramWrite o b).boot = s.boot := rfl
@[simp] theorem State.dramWrite_harts (s : State) (o : Nat) (b : List Byte) : (s.dramWrite o b).harts = s.harts := rfl
@[simp] theorem State.dramWrite_keeperTrap (s : State) (o : Nat) (b : List Byte) : (s.dramWrite o b).keeperTrap = s.keeperTrap := rfl
@[simp] theorem State.dramWrite_power (s : State) (o : Nat) (b : List Byte) : (s.dramWrite o b).power = s.power := rfl
@[simp] theorem State.dramWrite_sm (s : State) (o : Nat) (b : List Byte) : (s.dramWrite o b).sm = s.sm := rfl
@[simp] theorem State.dramWrite_mem (s : State) (o : Nat) (b : List Byte) : (s.dramWrite o b).mem = s.mem := rfl
@[simp] theorem State.dramWrite_msr (s : State) (o : Nat) (b : List Byte) : (s.dramWrite o b).msr = s.msr := rfl
@[simp] theorem State.dramWrite_nvm (s : State) (o : Nat) (b : List Byte) : (s.dramWrite o b).nvm = s.nvm := rfl
@[simp] theorem State.dramWrite_panels (s : State) (o : Nat) (b : List Byte) : (s.dramWrite o b).panels = s.panels := rfl
@[simp] theorem State.dramWrite_lineRuns (s : State) (o : Nat) (b : List Byte) : (s.dramWrite o b).lineRuns = s.lineRuns := rfl
@[simp] theorem State.dramWrite_streams (s : State) (o : Nat) (b : List Byte) : (s.dramWrite o b).streams = s.streams := rfl
@[simp] theorem State.dramWrite_haps (s : State) (o : Nat) (b : List Byte) : (s.dramWrite o b).haps = s.haps := rfl
@[simp] theorem State.dramWrite_caps (s : State) (o : Nat) (b : List Byte) : (s.dramWrite o b).caps = s.caps := rfl
@[simp] theorem State.dramWrite_mix (s : State) (o : Nat) (b : List Byte) : (s.dramWrite o b).mix = s.mix := rfl
@[simp] theorem State.dramWrite_syncOut (s : State) (o : Nat) (b : List Byte) : (s.dramWrite o b).syncOut = s.syncOut := rfl
@[simp] theorem State.dramWrite_syncIn (s : State) (o : Nat) (b : List Byte) : (s.dramWrite o b).syncIn = s.syncIn := rfl
@[simp] theorem State.dramWrite_resp (s : State) (o : Nat) (b : List Byte) : (s.dramWrite o b).resp = s.resp := rfl
@[simp] theorem State.dramWrite_out (s : State) (o : Nat) (b : List Byte) : (s.dramWrite o b).out = s.out := rfl
@[simp] theorem State.dramWrite_fresh (s : State) (o : Nat) (b : List Byte) : (s.dramWrite o b).fresh = s.fresh := rfl
@[simp] theorem State.dramWrite_pending (s : State) (o : Nat) (b : List Byte) : (s.dramWrite o b).pending = s.pending := rfl
@[simp] theorem State.dramWrite_rw_of (s : State) (o : Nat) (b : List Byte) (x : Nat) : (s.dramWrite o b).rw x = s.rw x := rfl
@[simp] theorem State.dramWrite_rd_of (s : State) (o : Nat) (b : List Byte) (x : Nat) (g : Fld) : (s.dramWrite o b).rd x g = s.rd x g := rfl
@[simp] theorem State.dramWrite_on_of (s : State) (o : Nat) (b : List Byte) (x : Nat) (g : Fld) : (s.dramWrite o b).on x g = s.on x g := rfl
@[simp] theorem State.dramWrite_frw_of (s : State) (o : Nat) (b : List Byte) (x : Nat) : (s.dramWrite o b).frw x = s.frw x := rfl
@[simp] theorem State.dramWrite_frd_of (s : State) (o : Nat) (b : List Byte) (x : Nat) (g : Fld) : (s.dramWrite o b).frd x g = s.frd x g := rfl
@[simp] theorem State.dramWrite_srw_of (s : State) (o : Nat) (b : List Byte) (x : Nat) : (s.dramWrite o b).srw x = s.srw x := rfl
@[simp] theorem State.dramWrite_srd_of (s : State) (o : Nat) (b : List Byte) (x : Nat) (g : Fld) : (s.dramWrite o b).srd x g = s.srd x g := rfl
@[simp] theorem State.dramWrite_lv_of (s : State) (o : Nat) (b : List Byte) (x : Nat) : (s.dramWrite o b).lv x = s.lv x := rfl
@[simp] theorem State.dramWrite_pipe_of (s : State) (o : Nat) (b : List Byte) (x : Nat) : (s.dramWrite o b).pipe x = s.pipe x := rfl
@[simp] theorem State.dramWrite_queue_of (s : State) (o : Nat) (b : List Byte) (x : Nat) : (s.dramWrite o b).queue x = s.queue x := rfl
@[simp] theorem State.dramWrite_ch_of (s : State) (o : Nat) (b : List Byte) (x : Nat) : (s.dramWrite o b).ch x = s.ch x := rfl
@[simp] theorem State.dramWrite_eng_of (s : State) (o : Nat) (b : List Byte) (x : Nat) : (s.dramWrite o b).eng x = s.eng x := rfl
@[simp] theorem State.dramWrite_panel_of (s : State) (o : Nat) (b : List Byte) (x : Nat) : (s.dramWrite o b).panel x = s.panel x := rfl
@[simp] theorem State.dramWrite_stream_of (s : State) (o : Nat) (b : List Byte) (x : Nat) : (s.dramWrite o b).stream x = s.stream x := rfl
@[simp] theorem State.dramWrite_hap_of (s : State) (o : Nat) (b : List Byte) (x : Nat) : (s.dramWrite o b).hap x = s.hap x := rfl
@[simp] theorem State.dramWrite_cap_of (s : State) (o : Nat) (b : List Byte) (x : Nat) : (s.dramWrite o b).cap x = s.cap x := rfl
@[simp] theorem State.dramWrite_hart_of (s : State) (o : Nat) (b : List Byte) (x : Nat) : (s.dramWrite o b).hart x = s.hart x := rfl
@[simp] theorem State.dramWrite_op_of (s : State) (o : Nat) (b : List Byte) (x : Nat) : (s.dramWrite o b).op x = s.op x := rfl
@[simp] theorem State.dramWrite_rail_of (s : State) (o : Nat) (b : List Byte) (x : Nat) : (s.dramWrite o b).rail x = s.rail x := rfl
@[simp] theorem State.dramWrite_stallState_of (s : State) (o : Nat) (b : List Byte) (x : Nat) : (s.dramWrite o b).stallState x = s.stallState x := rfl
@[simp] theorem State.dramWrite_islandOn_of (s : State) (o : Nat) (b : List Byte) (x : Nat) : (s.dramWrite o b).islandOn x = s.islandOn x := rfl
@[simp] theorem State.dramWrite_dstate_of (s : State) (o : Nat) (b : List Byte) : (s.dramWrite o b).dstate = s.dstate := rfl
@[simp] theorem State.dramWrite_running_of (s : State) (o : Nat) (b : List Byte) : (s.dramWrite o b).running = s.running := rfl
@[simp] theorem State.dramWrite_sramB_of (s : State) (o : Nat) (b : List Byte) (x : Nat) : (s.dramWrite o b).sramB x = s.sramB x := rfl
@[simp] theorem State.dramWrite_envB_of (s : State) (o : Nat) (b : List Byte) (x : Nat) : (s.dramWrite o b).envB x = s.envB x := rfl
@[simp] theorem State.dramWrite_free_of (s : State) (o : Nat) (b : List Byte) : (s.dramWrite o b).free = s.free := rfl

/-! envWrite -/
@[simp] theorem State.envWrite_regs (s : State) (o : Nat) (b : List Byte) : (s.envWrite o b).regs = s.regs := rfl
@[simp] theorem State.envWrite_force (s : State) (o : Nat) (b : List Byte) : (s.envWrite o b).force = s.force := rfl
@[simp] theorem State.envWrite_scan (s : State) (o : Nat) (b : List Byte) : (s.envWrite o b).scan = s.scan := rfl
@[simp] theorem State.envWrite_live (s : State) (o : Nat) (b : List Byte) : (s.envWrite o b).live = s.live := rfl
@[simp] theorem State.envWrite_agreed (s : State) (o : Nat) (b : List Byte) : (s.envWrite o b).agreed = s.agreed := rfl
@[simp] theorem State.envWrite_heldLow (s : State) (o : Nat) (b : List Byte) : (s.envWrite o b).heldLow = s.heldLow := rfl
@[simp] theorem State.envWrite_kevtHeld (s : State) (o : Nat) (b : List Byte) : (s.envWrite o b).kevtHeld = s.kevtHeld := rfl
@[simp] theorem State.envWrite_kevq (s : State) (o : Nat) (b : List Byte) : (s.envWrite o b).kevq = s.kevq := rfl
@[simp] theorem State.envWrite_vrecRead (s : State) (o : Nat) (b : List Byte) : (s.envWrite o b).vrecRead = s.vrecRead := rfl
@[simp] theorem State.envWrite_frozen (s : State) (o : Nat) (b : List Byte) : (s.envWrite o b).frozen = s.frozen := rfl
@[simp] theorem State.envWrite_sram (s : State) (o : Nat) (b : List Byte) : (s.envWrite o b).sram = s.sram := rfl
@[simp] theorem State.envWrite_dram (s : State) (o : Nat) (b : List Byte) : (s.envWrite o b).dram = s.dram := rfl
@[simp] theorem State.envWrite_ecc (s : State) (o : Nat) (b : List Byte) : (s.envWrite o b).ecc = s.ecc := rfl
@[simp] theorem State.envWrite_tlb (s : State) (o : Nat) (b : List Byte) : (s.envWrite o b).tlb = s.tlb := rfl
@[simp] theorem State.envWrite_tally (s : State) (o : Nat) (b : List Byte) : (s.envWrite o b).tally = s.tally := rfl
@[simp] theorem State.envWrite_pipes (s : State) (o : Nat) (b : List Byte) : (s.envWrite o b).pipes = s.pipes := rfl
@[simp] theorem State.envWrite_led (s : State) (o : Nat) (b : List Byte) : (s.envWrite o b).led = s.led := rfl
@[simp] theorem State.envWrite_queues (s : State) (o : Nat) (b : List Byte) : (s.envWrite o b).queues = s.queues := rfl
@[simp] theorem State.envWrite_admitted (s : State) (o : Nat) (b : List Byte) : (s.envWrite o b).admitted = s.admitted := rfl
@[simp] theorem State.envWrite_gpu (s : State) (o : Nat) (b : List Byte) : (s.envWrite o b).gpu = s.gpu := rfl
@[simp] theorem State.envWrite_dmCh (s : State) (o : Nat) (b : List Byte) : (s.envWrite o b).dmCh = s.dmCh := rfl
@[simp] theorem State.envWrite_dmEng (s : State) (o : Nat) (b : List Byte) : (s.envWrite o b).dmEng = s.dmEng := rfl
@[simp] theorem State.envWrite_squashed (s : State) (o : Nat) (b : List Byte) : (s.envWrite o b).squashed = s.squashed := rfl
@[simp] theorem State.envWrite_clearing (s : State) (o : Nat) (b : List Byte) : (s.envWrite o b).clearing = s.clearing := rfl
@[simp] theorem State.envWrite_boot (s : State) (o : Nat) (b : List Byte) : (s.envWrite o b).boot = s.boot := rfl
@[simp] theorem State.envWrite_harts (s : State) (o : Nat) (b : List Byte) : (s.envWrite o b).harts = s.harts := rfl
@[simp] theorem State.envWrite_keeperTrap (s : State) (o : Nat) (b : List Byte) : (s.envWrite o b).keeperTrap = s.keeperTrap := rfl
@[simp] theorem State.envWrite_power (s : State) (o : Nat) (b : List Byte) : (s.envWrite o b).power = s.power := rfl
@[simp] theorem State.envWrite_sm (s : State) (o : Nat) (b : List Byte) : (s.envWrite o b).sm = s.sm := rfl
@[simp] theorem State.envWrite_mem (s : State) (o : Nat) (b : List Byte) : (s.envWrite o b).mem = s.mem := rfl
@[simp] theorem State.envWrite_msr (s : State) (o : Nat) (b : List Byte) : (s.envWrite o b).msr = s.msr := rfl
@[simp] theorem State.envWrite_nvm (s : State) (o : Nat) (b : List Byte) : (s.envWrite o b).nvm = s.nvm := rfl
@[simp] theorem State.envWrite_panels (s : State) (o : Nat) (b : List Byte) : (s.envWrite o b).panels = s.panels := rfl
@[simp] theorem State.envWrite_lineRuns (s : State) (o : Nat) (b : List Byte) : (s.envWrite o b).lineRuns = s.lineRuns := rfl
@[simp] theorem State.envWrite_streams (s : State) (o : Nat) (b : List Byte) : (s.envWrite o b).streams = s.streams := rfl
@[simp] theorem State.envWrite_haps (s : State) (o : Nat) (b : List Byte) : (s.envWrite o b).haps = s.haps := rfl
@[simp] theorem State.envWrite_caps (s : State) (o : Nat) (b : List Byte) : (s.envWrite o b).caps = s.caps := rfl
@[simp] theorem State.envWrite_mix (s : State) (o : Nat) (b : List Byte) : (s.envWrite o b).mix = s.mix := rfl
@[simp] theorem State.envWrite_syncOut (s : State) (o : Nat) (b : List Byte) : (s.envWrite o b).syncOut = s.syncOut := rfl
@[simp] theorem State.envWrite_syncIn (s : State) (o : Nat) (b : List Byte) : (s.envWrite o b).syncIn = s.syncIn := rfl
@[simp] theorem State.envWrite_resp (s : State) (o : Nat) (b : List Byte) : (s.envWrite o b).resp = s.resp := rfl
@[simp] theorem State.envWrite_out (s : State) (o : Nat) (b : List Byte) : (s.envWrite o b).out = s.out := rfl
@[simp] theorem State.envWrite_fresh (s : State) (o : Nat) (b : List Byte) : (s.envWrite o b).fresh = s.fresh := rfl
@[simp] theorem State.envWrite_pending (s : State) (o : Nat) (b : List Byte) : (s.envWrite o b).pending = s.pending := rfl
@[simp] theorem State.envWrite_rw_of (s : State) (o : Nat) (b : List Byte) (x : Nat) : (s.envWrite o b).rw x = s.rw x := rfl
@[simp] theorem State.envWrite_rd_of (s : State) (o : Nat) (b : List Byte) (x : Nat) (g : Fld) : (s.envWrite o b).rd x g = s.rd x g := rfl
@[simp] theorem State.envWrite_on_of (s : State) (o : Nat) (b : List Byte) (x : Nat) (g : Fld) : (s.envWrite o b).on x g = s.on x g := rfl
@[simp] theorem State.envWrite_frw_of (s : State) (o : Nat) (b : List Byte) (x : Nat) : (s.envWrite o b).frw x = s.frw x := rfl
@[simp] theorem State.envWrite_frd_of (s : State) (o : Nat) (b : List Byte) (x : Nat) (g : Fld) : (s.envWrite o b).frd x g = s.frd x g := rfl
@[simp] theorem State.envWrite_srw_of (s : State) (o : Nat) (b : List Byte) (x : Nat) : (s.envWrite o b).srw x = s.srw x := rfl
@[simp] theorem State.envWrite_srd_of (s : State) (o : Nat) (b : List Byte) (x : Nat) (g : Fld) : (s.envWrite o b).srd x g = s.srd x g := rfl
@[simp] theorem State.envWrite_lv_of (s : State) (o : Nat) (b : List Byte) (x : Nat) : (s.envWrite o b).lv x = s.lv x := rfl
@[simp] theorem State.envWrite_pipe_of (s : State) (o : Nat) (b : List Byte) (x : Nat) : (s.envWrite o b).pipe x = s.pipe x := rfl
@[simp] theorem State.envWrite_queue_of (s : State) (o : Nat) (b : List Byte) (x : Nat) : (s.envWrite o b).queue x = s.queue x := rfl
@[simp] theorem State.envWrite_ch_of (s : State) (o : Nat) (b : List Byte) (x : Nat) : (s.envWrite o b).ch x = s.ch x := rfl
@[simp] theorem State.envWrite_eng_of (s : State) (o : Nat) (b : List Byte) (x : Nat) : (s.envWrite o b).eng x = s.eng x := rfl
@[simp] theorem State.envWrite_panel_of (s : State) (o : Nat) (b : List Byte) (x : Nat) : (s.envWrite o b).panel x = s.panel x := rfl
@[simp] theorem State.envWrite_stream_of (s : State) (o : Nat) (b : List Byte) (x : Nat) : (s.envWrite o b).stream x = s.stream x := rfl
@[simp] theorem State.envWrite_hap_of (s : State) (o : Nat) (b : List Byte) (x : Nat) : (s.envWrite o b).hap x = s.hap x := rfl
@[simp] theorem State.envWrite_cap_of (s : State) (o : Nat) (b : List Byte) (x : Nat) : (s.envWrite o b).cap x = s.cap x := rfl
@[simp] theorem State.envWrite_hart_of (s : State) (o : Nat) (b : List Byte) (x : Nat) : (s.envWrite o b).hart x = s.hart x := rfl
@[simp] theorem State.envWrite_op_of (s : State) (o : Nat) (b : List Byte) (x : Nat) : (s.envWrite o b).op x = s.op x := rfl
@[simp] theorem State.envWrite_rail_of (s : State) (o : Nat) (b : List Byte) (x : Nat) : (s.envWrite o b).rail x = s.rail x := rfl
@[simp] theorem State.envWrite_stallState_of (s : State) (o : Nat) (b : List Byte) (x : Nat) : (s.envWrite o b).stallState x = s.stallState x := rfl
@[simp] theorem State.envWrite_islandOn_of (s : State) (o : Nat) (b : List Byte) (x : Nat) : (s.envWrite o b).islandOn x = s.islandOn x := rfl
@[simp] theorem State.envWrite_dstate_of (s : State) (o : Nat) (b : List Byte) : (s.envWrite o b).dstate = s.dstate := rfl
@[simp] theorem State.envWrite_running_of (s : State) (o : Nat) (b : List Byte) : (s.envWrite o b).running = s.running := rfl
@[simp] theorem State.envWrite_sramB_of (s : State) (o : Nat) (b : List Byte) (x : Nat) : (s.envWrite o b).sramB x = s.sramB x := rfl
@[simp] theorem State.envWrite_dramB_of (s : State) (o : Nat) (b : List Byte) (x : Nat) : (s.envWrite o b).dramB x = s.dramB x := rfl
@[simp] theorem State.envWrite_free_of (s : State) (o : Nat) (b : List Byte) : (s.envWrite o b).free = s.free := rfl

/-! sramKeep -/
@[simp] theorem State.sramKeep_regs (s : State) (k : Nat → Bool) : (s.sramKeep k).regs = s.regs := rfl
@[simp] theorem State.sramKeep_force (s : State) (k : Nat → Bool) : (s.sramKeep k).force = s.force := rfl
@[simp] theorem State.sramKeep_scan (s : State) (k : Nat → Bool) : (s.sramKeep k).scan = s.scan := rfl
@[simp] theorem State.sramKeep_live (s : State) (k : Nat → Bool) : (s.sramKeep k).live = s.live := rfl
@[simp] theorem State.sramKeep_agreed (s : State) (k : Nat → Bool) : (s.sramKeep k).agreed = s.agreed := rfl
@[simp] theorem State.sramKeep_heldLow (s : State) (k : Nat → Bool) : (s.sramKeep k).heldLow = s.heldLow := rfl
@[simp] theorem State.sramKeep_kevtHeld (s : State) (k : Nat → Bool) : (s.sramKeep k).kevtHeld = s.kevtHeld := rfl
@[simp] theorem State.sramKeep_kevq (s : State) (k : Nat → Bool) : (s.sramKeep k).kevq = s.kevq := rfl
@[simp] theorem State.sramKeep_vrecRead (s : State) (k : Nat → Bool) : (s.sramKeep k).vrecRead = s.vrecRead := rfl
@[simp] theorem State.sramKeep_frozen (s : State) (k : Nat → Bool) : (s.sramKeep k).frozen = s.frozen := rfl
@[simp] theorem State.sramKeep_dram (s : State) (k : Nat → Bool) : (s.sramKeep k).dram = s.dram := rfl
@[simp] theorem State.sramKeep_ecc (s : State) (k : Nat → Bool) : (s.sramKeep k).ecc = s.ecc := rfl
@[simp] theorem State.sramKeep_tlb (s : State) (k : Nat → Bool) : (s.sramKeep k).tlb = s.tlb := rfl
@[simp] theorem State.sramKeep_env (s : State) (k : Nat → Bool) : (s.sramKeep k).env = s.env := rfl
@[simp] theorem State.sramKeep_tally (s : State) (k : Nat → Bool) : (s.sramKeep k).tally = s.tally := rfl
@[simp] theorem State.sramKeep_pipes (s : State) (k : Nat → Bool) : (s.sramKeep k).pipes = s.pipes := rfl
@[simp] theorem State.sramKeep_led (s : State) (k : Nat → Bool) : (s.sramKeep k).led = s.led := rfl
@[simp] theorem State.sramKeep_queues (s : State) (k : Nat → Bool) : (s.sramKeep k).queues = s.queues := rfl
@[simp] theorem State.sramKeep_admitted (s : State) (k : Nat → Bool) : (s.sramKeep k).admitted = s.admitted := rfl
@[simp] theorem State.sramKeep_gpu (s : State) (k : Nat → Bool) : (s.sramKeep k).gpu = s.gpu := rfl
@[simp] theorem State.sramKeep_dmCh (s : State) (k : Nat → Bool) : (s.sramKeep k).dmCh = s.dmCh := rfl
@[simp] theorem State.sramKeep_dmEng (s : State) (k : Nat → Bool) : (s.sramKeep k).dmEng = s.dmEng := rfl
@[simp] theorem State.sramKeep_squashed (s : State) (k : Nat → Bool) : (s.sramKeep k).squashed = s.squashed := rfl
@[simp] theorem State.sramKeep_clearing (s : State) (k : Nat → Bool) : (s.sramKeep k).clearing = s.clearing := rfl
@[simp] theorem State.sramKeep_boot (s : State) (k : Nat → Bool) : (s.sramKeep k).boot = s.boot := rfl
@[simp] theorem State.sramKeep_harts (s : State) (k : Nat → Bool) : (s.sramKeep k).harts = s.harts := rfl
@[simp] theorem State.sramKeep_keeperTrap (s : State) (k : Nat → Bool) : (s.sramKeep k).keeperTrap = s.keeperTrap := rfl
@[simp] theorem State.sramKeep_power (s : State) (k : Nat → Bool) : (s.sramKeep k).power = s.power := rfl
@[simp] theorem State.sramKeep_sm (s : State) (k : Nat → Bool) : (s.sramKeep k).sm = s.sm := rfl
@[simp] theorem State.sramKeep_mem (s : State) (k : Nat → Bool) : (s.sramKeep k).mem = s.mem := rfl
@[simp] theorem State.sramKeep_msr (s : State) (k : Nat → Bool) : (s.sramKeep k).msr = s.msr := rfl
@[simp] theorem State.sramKeep_nvm (s : State) (k : Nat → Bool) : (s.sramKeep k).nvm = s.nvm := rfl
@[simp] theorem State.sramKeep_panels (s : State) (k : Nat → Bool) : (s.sramKeep k).panels = s.panels := rfl
@[simp] theorem State.sramKeep_lineRuns (s : State) (k : Nat → Bool) : (s.sramKeep k).lineRuns = s.lineRuns := rfl
@[simp] theorem State.sramKeep_streams (s : State) (k : Nat → Bool) : (s.sramKeep k).streams = s.streams := rfl
@[simp] theorem State.sramKeep_haps (s : State) (k : Nat → Bool) : (s.sramKeep k).haps = s.haps := rfl
@[simp] theorem State.sramKeep_caps (s : State) (k : Nat → Bool) : (s.sramKeep k).caps = s.caps := rfl
@[simp] theorem State.sramKeep_mix (s : State) (k : Nat → Bool) : (s.sramKeep k).mix = s.mix := rfl
@[simp] theorem State.sramKeep_syncOut (s : State) (k : Nat → Bool) : (s.sramKeep k).syncOut = s.syncOut := rfl
@[simp] theorem State.sramKeep_syncIn (s : State) (k : Nat → Bool) : (s.sramKeep k).syncIn = s.syncIn := rfl
@[simp] theorem State.sramKeep_resp (s : State) (k : Nat → Bool) : (s.sramKeep k).resp = s.resp := rfl
@[simp] theorem State.sramKeep_out (s : State) (k : Nat → Bool) : (s.sramKeep k).out = s.out := rfl
@[simp] theorem State.sramKeep_fresh (s : State) (k : Nat → Bool) : (s.sramKeep k).fresh = s.fresh := rfl
@[simp] theorem State.sramKeep_pending (s : State) (k : Nat → Bool) : (s.sramKeep k).pending = s.pending := rfl
@[simp] theorem State.sramKeep_rw_of (s : State) (k : Nat → Bool) (x : Nat) : (s.sramKeep k).rw x = s.rw x := rfl
@[simp] theorem State.sramKeep_rd_of (s : State) (k : Nat → Bool) (x : Nat) (g : Fld) : (s.sramKeep k).rd x g = s.rd x g := rfl
@[simp] theorem State.sramKeep_on_of (s : State) (k : Nat → Bool) (x : Nat) (g : Fld) : (s.sramKeep k).on x g = s.on x g := rfl
@[simp] theorem State.sramKeep_frw_of (s : State) (k : Nat → Bool) (x : Nat) : (s.sramKeep k).frw x = s.frw x := rfl
@[simp] theorem State.sramKeep_frd_of (s : State) (k : Nat → Bool) (x : Nat) (g : Fld) : (s.sramKeep k).frd x g = s.frd x g := rfl
@[simp] theorem State.sramKeep_srw_of (s : State) (k : Nat → Bool) (x : Nat) : (s.sramKeep k).srw x = s.srw x := rfl
@[simp] theorem State.sramKeep_srd_of (s : State) (k : Nat → Bool) (x : Nat) (g : Fld) : (s.sramKeep k).srd x g = s.srd x g := rfl
@[simp] theorem State.sramKeep_lv_of (s : State) (k : Nat → Bool) (x : Nat) : (s.sramKeep k).lv x = s.lv x := rfl
@[simp] theorem State.sramKeep_pipe_of (s : State) (k : Nat → Bool) (x : Nat) : (s.sramKeep k).pipe x = s.pipe x := rfl
@[simp] theorem State.sramKeep_queue_of (s : State) (k : Nat → Bool) (x : Nat) : (s.sramKeep k).queue x = s.queue x := rfl
@[simp] theorem State.sramKeep_ch_of (s : State) (k : Nat → Bool) (x : Nat) : (s.sramKeep k).ch x = s.ch x := rfl
@[simp] theorem State.sramKeep_eng_of (s : State) (k : Nat → Bool) (x : Nat) : (s.sramKeep k).eng x = s.eng x := rfl
@[simp] theorem State.sramKeep_panel_of (s : State) (k : Nat → Bool) (x : Nat) : (s.sramKeep k).panel x = s.panel x := rfl
@[simp] theorem State.sramKeep_stream_of (s : State) (k : Nat → Bool) (x : Nat) : (s.sramKeep k).stream x = s.stream x := rfl
@[simp] theorem State.sramKeep_hap_of (s : State) (k : Nat → Bool) (x : Nat) : (s.sramKeep k).hap x = s.hap x := rfl
@[simp] theorem State.sramKeep_cap_of (s : State) (k : Nat → Bool) (x : Nat) : (s.sramKeep k).cap x = s.cap x := rfl
@[simp] theorem State.sramKeep_hart_of (s : State) (k : Nat → Bool) (x : Nat) : (s.sramKeep k).hart x = s.hart x := rfl
@[simp] theorem State.sramKeep_op_of (s : State) (k : Nat → Bool) (x : Nat) : (s.sramKeep k).op x = s.op x := rfl
@[simp] theorem State.sramKeep_rail_of (s : State) (k : Nat → Bool) (x : Nat) : (s.sramKeep k).rail x = s.rail x := rfl
@[simp] theorem State.sramKeep_stallState_of (s : State) (k : Nat → Bool) (x : Nat) : (s.sramKeep k).stallState x = s.stallState x := rfl
@[simp] theorem State.sramKeep_islandOn_of (s : State) (k : Nat → Bool) (x : Nat) : (s.sramKeep k).islandOn x = s.islandOn x := rfl
@[simp] theorem State.sramKeep_dstate_of (s : State) (k : Nat → Bool) : (s.sramKeep k).dstate = s.dstate := rfl
@[simp] theorem State.sramKeep_running_of (s : State) (k : Nat → Bool) : (s.sramKeep k).running = s.running := rfl
@[simp] theorem State.sramKeep_dramB_of (s : State) (k : Nat → Bool) (x : Nat) : (s.sramKeep k).dramB x = s.dramB x := rfl
@[simp] theorem State.sramKeep_envB_of (s : State) (k : Nat → Bool) (x : Nat) : (s.sramKeep k).envB x = s.envB x := rfl
@[simp] theorem State.sramKeep_free_of (s : State) (k : Nat → Bool) : (s.sramKeep k).free = s.free := rfl

/-! dramKeep -/
@[simp] theorem State.dramKeep_regs (s : State) (k : Nat → Bool) : (s.dramKeep k).regs = s.regs := rfl
@[simp] theorem State.dramKeep_force (s : State) (k : Nat → Bool) : (s.dramKeep k).force = s.force := rfl
@[simp] theorem State.dramKeep_scan (s : State) (k : Nat → Bool) : (s.dramKeep k).scan = s.scan := rfl
@[simp] theorem State.dramKeep_live (s : State) (k : Nat → Bool) : (s.dramKeep k).live = s.live := rfl
@[simp] theorem State.dramKeep_agreed (s : State) (k : Nat → Bool) : (s.dramKeep k).agreed = s.agreed := rfl
@[simp] theorem State.dramKeep_heldLow (s : State) (k : Nat → Bool) : (s.dramKeep k).heldLow = s.heldLow := rfl
@[simp] theorem State.dramKeep_kevtHeld (s : State) (k : Nat → Bool) : (s.dramKeep k).kevtHeld = s.kevtHeld := rfl
@[simp] theorem State.dramKeep_kevq (s : State) (k : Nat → Bool) : (s.dramKeep k).kevq = s.kevq := rfl
@[simp] theorem State.dramKeep_vrecRead (s : State) (k : Nat → Bool) : (s.dramKeep k).vrecRead = s.vrecRead := rfl
@[simp] theorem State.dramKeep_frozen (s : State) (k : Nat → Bool) : (s.dramKeep k).frozen = s.frozen := rfl
@[simp] theorem State.dramKeep_sram (s : State) (k : Nat → Bool) : (s.dramKeep k).sram = s.sram := rfl
@[simp] theorem State.dramKeep_ecc (s : State) (k : Nat → Bool) : (s.dramKeep k).ecc = s.ecc := rfl
@[simp] theorem State.dramKeep_tlb (s : State) (k : Nat → Bool) : (s.dramKeep k).tlb = s.tlb := rfl
@[simp] theorem State.dramKeep_env (s : State) (k : Nat → Bool) : (s.dramKeep k).env = s.env := rfl
@[simp] theorem State.dramKeep_tally (s : State) (k : Nat → Bool) : (s.dramKeep k).tally = s.tally := rfl
@[simp] theorem State.dramKeep_pipes (s : State) (k : Nat → Bool) : (s.dramKeep k).pipes = s.pipes := rfl
@[simp] theorem State.dramKeep_led (s : State) (k : Nat → Bool) : (s.dramKeep k).led = s.led := rfl
@[simp] theorem State.dramKeep_queues (s : State) (k : Nat → Bool) : (s.dramKeep k).queues = s.queues := rfl
@[simp] theorem State.dramKeep_admitted (s : State) (k : Nat → Bool) : (s.dramKeep k).admitted = s.admitted := rfl
@[simp] theorem State.dramKeep_gpu (s : State) (k : Nat → Bool) : (s.dramKeep k).gpu = s.gpu := rfl
@[simp] theorem State.dramKeep_dmCh (s : State) (k : Nat → Bool) : (s.dramKeep k).dmCh = s.dmCh := rfl
@[simp] theorem State.dramKeep_dmEng (s : State) (k : Nat → Bool) : (s.dramKeep k).dmEng = s.dmEng := rfl
@[simp] theorem State.dramKeep_squashed (s : State) (k : Nat → Bool) : (s.dramKeep k).squashed = s.squashed := rfl
@[simp] theorem State.dramKeep_clearing (s : State) (k : Nat → Bool) : (s.dramKeep k).clearing = s.clearing := rfl
@[simp] theorem State.dramKeep_boot (s : State) (k : Nat → Bool) : (s.dramKeep k).boot = s.boot := rfl
@[simp] theorem State.dramKeep_harts (s : State) (k : Nat → Bool) : (s.dramKeep k).harts = s.harts := rfl
@[simp] theorem State.dramKeep_keeperTrap (s : State) (k : Nat → Bool) : (s.dramKeep k).keeperTrap = s.keeperTrap := rfl
@[simp] theorem State.dramKeep_power (s : State) (k : Nat → Bool) : (s.dramKeep k).power = s.power := rfl
@[simp] theorem State.dramKeep_sm (s : State) (k : Nat → Bool) : (s.dramKeep k).sm = s.sm := rfl
@[simp] theorem State.dramKeep_mem (s : State) (k : Nat → Bool) : (s.dramKeep k).mem = s.mem := rfl
@[simp] theorem State.dramKeep_msr (s : State) (k : Nat → Bool) : (s.dramKeep k).msr = s.msr := rfl
@[simp] theorem State.dramKeep_nvm (s : State) (k : Nat → Bool) : (s.dramKeep k).nvm = s.nvm := rfl
@[simp] theorem State.dramKeep_panels (s : State) (k : Nat → Bool) : (s.dramKeep k).panels = s.panels := rfl
@[simp] theorem State.dramKeep_lineRuns (s : State) (k : Nat → Bool) : (s.dramKeep k).lineRuns = s.lineRuns := rfl
@[simp] theorem State.dramKeep_streams (s : State) (k : Nat → Bool) : (s.dramKeep k).streams = s.streams := rfl
@[simp] theorem State.dramKeep_haps (s : State) (k : Nat → Bool) : (s.dramKeep k).haps = s.haps := rfl
@[simp] theorem State.dramKeep_caps (s : State) (k : Nat → Bool) : (s.dramKeep k).caps = s.caps := rfl
@[simp] theorem State.dramKeep_mix (s : State) (k : Nat → Bool) : (s.dramKeep k).mix = s.mix := rfl
@[simp] theorem State.dramKeep_syncOut (s : State) (k : Nat → Bool) : (s.dramKeep k).syncOut = s.syncOut := rfl
@[simp] theorem State.dramKeep_syncIn (s : State) (k : Nat → Bool) : (s.dramKeep k).syncIn = s.syncIn := rfl
@[simp] theorem State.dramKeep_resp (s : State) (k : Nat → Bool) : (s.dramKeep k).resp = s.resp := rfl
@[simp] theorem State.dramKeep_out (s : State) (k : Nat → Bool) : (s.dramKeep k).out = s.out := rfl
@[simp] theorem State.dramKeep_fresh (s : State) (k : Nat → Bool) : (s.dramKeep k).fresh = s.fresh := rfl
@[simp] theorem State.dramKeep_pending (s : State) (k : Nat → Bool) : (s.dramKeep k).pending = s.pending := rfl
@[simp] theorem State.dramKeep_rw_of (s : State) (k : Nat → Bool) (x : Nat) : (s.dramKeep k).rw x = s.rw x := rfl
@[simp] theorem State.dramKeep_rd_of (s : State) (k : Nat → Bool) (x : Nat) (g : Fld) : (s.dramKeep k).rd x g = s.rd x g := rfl
@[simp] theorem State.dramKeep_on_of (s : State) (k : Nat → Bool) (x : Nat) (g : Fld) : (s.dramKeep k).on x g = s.on x g := rfl
@[simp] theorem State.dramKeep_frw_of (s : State) (k : Nat → Bool) (x : Nat) : (s.dramKeep k).frw x = s.frw x := rfl
@[simp] theorem State.dramKeep_frd_of (s : State) (k : Nat → Bool) (x : Nat) (g : Fld) : (s.dramKeep k).frd x g = s.frd x g := rfl
@[simp] theorem State.dramKeep_srw_of (s : State) (k : Nat → Bool) (x : Nat) : (s.dramKeep k).srw x = s.srw x := rfl
@[simp] theorem State.dramKeep_srd_of (s : State) (k : Nat → Bool) (x : Nat) (g : Fld) : (s.dramKeep k).srd x g = s.srd x g := rfl
@[simp] theorem State.dramKeep_lv_of (s : State) (k : Nat → Bool) (x : Nat) : (s.dramKeep k).lv x = s.lv x := rfl
@[simp] theorem State.dramKeep_pipe_of (s : State) (k : Nat → Bool) (x : Nat) : (s.dramKeep k).pipe x = s.pipe x := rfl
@[simp] theorem State.dramKeep_queue_of (s : State) (k : Nat → Bool) (x : Nat) : (s.dramKeep k).queue x = s.queue x := rfl
@[simp] theorem State.dramKeep_ch_of (s : State) (k : Nat → Bool) (x : Nat) : (s.dramKeep k).ch x = s.ch x := rfl
@[simp] theorem State.dramKeep_eng_of (s : State) (k : Nat → Bool) (x : Nat) : (s.dramKeep k).eng x = s.eng x := rfl
@[simp] theorem State.dramKeep_panel_of (s : State) (k : Nat → Bool) (x : Nat) : (s.dramKeep k).panel x = s.panel x := rfl
@[simp] theorem State.dramKeep_stream_of (s : State) (k : Nat → Bool) (x : Nat) : (s.dramKeep k).stream x = s.stream x := rfl
@[simp] theorem State.dramKeep_hap_of (s : State) (k : Nat → Bool) (x : Nat) : (s.dramKeep k).hap x = s.hap x := rfl
@[simp] theorem State.dramKeep_cap_of (s : State) (k : Nat → Bool) (x : Nat) : (s.dramKeep k).cap x = s.cap x := rfl
@[simp] theorem State.dramKeep_hart_of (s : State) (k : Nat → Bool) (x : Nat) : (s.dramKeep k).hart x = s.hart x := rfl
@[simp] theorem State.dramKeep_op_of (s : State) (k : Nat → Bool) (x : Nat) : (s.dramKeep k).op x = s.op x := rfl
@[simp] theorem State.dramKeep_rail_of (s : State) (k : Nat → Bool) (x : Nat) : (s.dramKeep k).rail x = s.rail x := rfl
@[simp] theorem State.dramKeep_stallState_of (s : State) (k : Nat → Bool) (x : Nat) : (s.dramKeep k).stallState x = s.stallState x := rfl
@[simp] theorem State.dramKeep_islandOn_of (s : State) (k : Nat → Bool) (x : Nat) : (s.dramKeep k).islandOn x = s.islandOn x := rfl
@[simp] theorem State.dramKeep_dstate_of (s : State) (k : Nat → Bool) : (s.dramKeep k).dstate = s.dstate := rfl
@[simp] theorem State.dramKeep_running_of (s : State) (k : Nat → Bool) : (s.dramKeep k).running = s.running := rfl
@[simp] theorem State.dramKeep_sramB_of (s : State) (k : Nat → Bool) (x : Nat) : (s.dramKeep k).sramB x = s.sramB x := rfl
@[simp] theorem State.dramKeep_envB_of (s : State) (k : Nat → Bool) (x : Nat) : (s.dramKeep k).envB x = s.envB x := rfl
@[simp] theorem State.dramKeep_free_of (s : State) (k : Nat → Bool) : (s.dramKeep k).free = s.free := rfl

/-! envKeep -/
@[simp] theorem State.envKeep_regs (s : State) (k : Nat → Bool) : (s.envKeep k).regs = s.regs := rfl
@[simp] theorem State.envKeep_force (s : State) (k : Nat → Bool) : (s.envKeep k).force = s.force := rfl
@[simp] theorem State.envKeep_scan (s : State) (k : Nat → Bool) : (s.envKeep k).scan = s.scan := rfl
@[simp] theorem State.envKeep_live (s : State) (k : Nat → Bool) : (s.envKeep k).live = s.live := rfl
@[simp] theorem State.envKeep_agreed (s : State) (k : Nat → Bool) : (s.envKeep k).agreed = s.agreed := rfl
@[simp] theorem State.envKeep_heldLow (s : State) (k : Nat → Bool) : (s.envKeep k).heldLow = s.heldLow := rfl
@[simp] theorem State.envKeep_kevtHeld (s : State) (k : Nat → Bool) : (s.envKeep k).kevtHeld = s.kevtHeld := rfl
@[simp] theorem State.envKeep_kevq (s : State) (k : Nat → Bool) : (s.envKeep k).kevq = s.kevq := rfl
@[simp] theorem State.envKeep_vrecRead (s : State) (k : Nat → Bool) : (s.envKeep k).vrecRead = s.vrecRead := rfl
@[simp] theorem State.envKeep_frozen (s : State) (k : Nat → Bool) : (s.envKeep k).frozen = s.frozen := rfl
@[simp] theorem State.envKeep_sram (s : State) (k : Nat → Bool) : (s.envKeep k).sram = s.sram := rfl
@[simp] theorem State.envKeep_dram (s : State) (k : Nat → Bool) : (s.envKeep k).dram = s.dram := rfl
@[simp] theorem State.envKeep_ecc (s : State) (k : Nat → Bool) : (s.envKeep k).ecc = s.ecc := rfl
@[simp] theorem State.envKeep_tlb (s : State) (k : Nat → Bool) : (s.envKeep k).tlb = s.tlb := rfl
@[simp] theorem State.envKeep_tally (s : State) (k : Nat → Bool) : (s.envKeep k).tally = s.tally := rfl
@[simp] theorem State.envKeep_pipes (s : State) (k : Nat → Bool) : (s.envKeep k).pipes = s.pipes := rfl
@[simp] theorem State.envKeep_led (s : State) (k : Nat → Bool) : (s.envKeep k).led = s.led := rfl
@[simp] theorem State.envKeep_queues (s : State) (k : Nat → Bool) : (s.envKeep k).queues = s.queues := rfl
@[simp] theorem State.envKeep_admitted (s : State) (k : Nat → Bool) : (s.envKeep k).admitted = s.admitted := rfl
@[simp] theorem State.envKeep_gpu (s : State) (k : Nat → Bool) : (s.envKeep k).gpu = s.gpu := rfl
@[simp] theorem State.envKeep_dmCh (s : State) (k : Nat → Bool) : (s.envKeep k).dmCh = s.dmCh := rfl
@[simp] theorem State.envKeep_dmEng (s : State) (k : Nat → Bool) : (s.envKeep k).dmEng = s.dmEng := rfl
@[simp] theorem State.envKeep_squashed (s : State) (k : Nat → Bool) : (s.envKeep k).squashed = s.squashed := rfl
@[simp] theorem State.envKeep_clearing (s : State) (k : Nat → Bool) : (s.envKeep k).clearing = s.clearing := rfl
@[simp] theorem State.envKeep_boot (s : State) (k : Nat → Bool) : (s.envKeep k).boot = s.boot := rfl
@[simp] theorem State.envKeep_harts (s : State) (k : Nat → Bool) : (s.envKeep k).harts = s.harts := rfl
@[simp] theorem State.envKeep_keeperTrap (s : State) (k : Nat → Bool) : (s.envKeep k).keeperTrap = s.keeperTrap := rfl
@[simp] theorem State.envKeep_power (s : State) (k : Nat → Bool) : (s.envKeep k).power = s.power := rfl
@[simp] theorem State.envKeep_sm (s : State) (k : Nat → Bool) : (s.envKeep k).sm = s.sm := rfl
@[simp] theorem State.envKeep_mem (s : State) (k : Nat → Bool) : (s.envKeep k).mem = s.mem := rfl
@[simp] theorem State.envKeep_msr (s : State) (k : Nat → Bool) : (s.envKeep k).msr = s.msr := rfl
@[simp] theorem State.envKeep_nvm (s : State) (k : Nat → Bool) : (s.envKeep k).nvm = s.nvm := rfl
@[simp] theorem State.envKeep_panels (s : State) (k : Nat → Bool) : (s.envKeep k).panels = s.panels := rfl
@[simp] theorem State.envKeep_lineRuns (s : State) (k : Nat → Bool) : (s.envKeep k).lineRuns = s.lineRuns := rfl
@[simp] theorem State.envKeep_streams (s : State) (k : Nat → Bool) : (s.envKeep k).streams = s.streams := rfl
@[simp] theorem State.envKeep_haps (s : State) (k : Nat → Bool) : (s.envKeep k).haps = s.haps := rfl
@[simp] theorem State.envKeep_caps (s : State) (k : Nat → Bool) : (s.envKeep k).caps = s.caps := rfl
@[simp] theorem State.envKeep_mix (s : State) (k : Nat → Bool) : (s.envKeep k).mix = s.mix := rfl
@[simp] theorem State.envKeep_syncOut (s : State) (k : Nat → Bool) : (s.envKeep k).syncOut = s.syncOut := rfl
@[simp] theorem State.envKeep_syncIn (s : State) (k : Nat → Bool) : (s.envKeep k).syncIn = s.syncIn := rfl
@[simp] theorem State.envKeep_resp (s : State) (k : Nat → Bool) : (s.envKeep k).resp = s.resp := rfl
@[simp] theorem State.envKeep_out (s : State) (k : Nat → Bool) : (s.envKeep k).out = s.out := rfl
@[simp] theorem State.envKeep_fresh (s : State) (k : Nat → Bool) : (s.envKeep k).fresh = s.fresh := rfl
@[simp] theorem State.envKeep_pending (s : State) (k : Nat → Bool) : (s.envKeep k).pending = s.pending := rfl
@[simp] theorem State.envKeep_rw_of (s : State) (k : Nat → Bool) (x : Nat) : (s.envKeep k).rw x = s.rw x := rfl
@[simp] theorem State.envKeep_rd_of (s : State) (k : Nat → Bool) (x : Nat) (g : Fld) : (s.envKeep k).rd x g = s.rd x g := rfl
@[simp] theorem State.envKeep_on_of (s : State) (k : Nat → Bool) (x : Nat) (g : Fld) : (s.envKeep k).on x g = s.on x g := rfl
@[simp] theorem State.envKeep_frw_of (s : State) (k : Nat → Bool) (x : Nat) : (s.envKeep k).frw x = s.frw x := rfl
@[simp] theorem State.envKeep_frd_of (s : State) (k : Nat → Bool) (x : Nat) (g : Fld) : (s.envKeep k).frd x g = s.frd x g := rfl
@[simp] theorem State.envKeep_srw_of (s : State) (k : Nat → Bool) (x : Nat) : (s.envKeep k).srw x = s.srw x := rfl
@[simp] theorem State.envKeep_srd_of (s : State) (k : Nat → Bool) (x : Nat) (g : Fld) : (s.envKeep k).srd x g = s.srd x g := rfl
@[simp] theorem State.envKeep_lv_of (s : State) (k : Nat → Bool) (x : Nat) : (s.envKeep k).lv x = s.lv x := rfl
@[simp] theorem State.envKeep_pipe_of (s : State) (k : Nat → Bool) (x : Nat) : (s.envKeep k).pipe x = s.pipe x := rfl
@[simp] theorem State.envKeep_queue_of (s : State) (k : Nat → Bool) (x : Nat) : (s.envKeep k).queue x = s.queue x := rfl
@[simp] theorem State.envKeep_ch_of (s : State) (k : Nat → Bool) (x : Nat) : (s.envKeep k).ch x = s.ch x := rfl
@[simp] theorem State.envKeep_eng_of (s : State) (k : Nat → Bool) (x : Nat) : (s.envKeep k).eng x = s.eng x := rfl
@[simp] theorem State.envKeep_panel_of (s : State) (k : Nat → Bool) (x : Nat) : (s.envKeep k).panel x = s.panel x := rfl
@[simp] theorem State.envKeep_stream_of (s : State) (k : Nat → Bool) (x : Nat) : (s.envKeep k).stream x = s.stream x := rfl
@[simp] theorem State.envKeep_hap_of (s : State) (k : Nat → Bool) (x : Nat) : (s.envKeep k).hap x = s.hap x := rfl
@[simp] theorem State.envKeep_cap_of (s : State) (k : Nat → Bool) (x : Nat) : (s.envKeep k).cap x = s.cap x := rfl
@[simp] theorem State.envKeep_hart_of (s : State) (k : Nat → Bool) (x : Nat) : (s.envKeep k).hart x = s.hart x := rfl
@[simp] theorem State.envKeep_op_of (s : State) (k : Nat → Bool) (x : Nat) : (s.envKeep k).op x = s.op x := rfl
@[simp] theorem State.envKeep_rail_of (s : State) (k : Nat → Bool) (x : Nat) : (s.envKeep k).rail x = s.rail x := rfl
@[simp] theorem State.envKeep_stallState_of (s : State) (k : Nat → Bool) (x : Nat) : (s.envKeep k).stallState x = s.stallState x := rfl
@[simp] theorem State.envKeep_islandOn_of (s : State) (k : Nat → Bool) (x : Nat) : (s.envKeep k).islandOn x = s.islandOn x := rfl
@[simp] theorem State.envKeep_dstate_of (s : State) (k : Nat → Bool) : (s.envKeep k).dstate = s.dstate := rfl
@[simp] theorem State.envKeep_running_of (s : State) (k : Nat → Bool) : (s.envKeep k).running = s.running := rfl
@[simp] theorem State.envKeep_sramB_of (s : State) (k : Nat → Bool) (x : Nat) : (s.envKeep k).sramB x = s.sramB x := rfl
@[simp] theorem State.envKeep_dramB_of (s : State) (k : Nat → Bool) (x : Nat) : (s.envKeep k).dramB x = s.dramB x := rfl
@[simp] theorem State.envKeep_free_of (s : State) (k : Nat → Bool) : (s.envKeep k).free = s.free := rfl

/-! bumpErr, bumpErrN, refuse, kevt -/
@[simp] theorem State.bumpErr_regs (s : State) (a : Nat) : (s.bumpErr a).regs = s.regs := by
  simp only [State.bumpErr]; repeat' split
  all_goals rfl
@[simp] theorem State.bumpErrN_regs (s : State) (a k : Nat) : (s.bumpErrN a k).regs = s.regs := by
  induction k generalizing s with
  | zero => rfl
  | succ k ih => exact (ih _).trans (State.bumpErr_regs s a)
@[simp] theorem State.bumpErr_force (s : State) (a : Nat) : (s.bumpErr a).force = s.force := by
  simp only [State.bumpErr]; repeat' split
  all_goals rfl
@[simp] theorem State.bumpErrN_force (s : State) (a k : Nat) : (s.bumpErrN a k).force = s.force := by
  induction k generalizing s with
  | zero => rfl
  | succ k ih => exact (ih _).trans (State.bumpErr_force s a)
@[simp] theorem State.refuse_force (s : State) (a : Nat) : (s.refuse a).force = s.force := by
  unfold State.refuse; rw [State.answer_force, State.wr_force, State.bumpErr_force]
@[simp] theorem State.kevt_force (s : State) (b c i n : Nat) : (s.kevt b c i n).force = s.force := by
  simp only [State.kevt]; split
  · rfl
  · exact State.bumpErr_force s _
@[simp] theorem State.bumpErr_scan (s : State) (a : Nat) : (s.bumpErr a).scan = s.scan := by
  simp only [State.bumpErr]; repeat' split
  all_goals rfl
@[simp] theorem State.bumpErrN_scan (s : State) (a k : Nat) : (s.bumpErrN a k).scan = s.scan := by
  induction k generalizing s with
  | zero => rfl
  | succ k ih => exact (ih _).trans (State.bumpErr_scan s a)
@[simp] theorem State.refuse_scan (s : State) (a : Nat) : (s.refuse a).scan = s.scan := by
  unfold State.refuse; rw [State.answer_scan, State.wr_scan, State.bumpErr_scan]
@[simp] theorem State.kevt_scan (s : State) (b c i n : Nat) : (s.kevt b c i n).scan = s.scan := by
  simp only [State.kevt]; split
  · rfl
  · exact State.bumpErr_scan s _
@[simp] theorem State.bumpErr_agreed (s : State) (a : Nat) : (s.bumpErr a).agreed = s.agreed := by
  simp only [State.bumpErr]; repeat' split
  all_goals rfl
@[simp] theorem State.bumpErrN_agreed (s : State) (a k : Nat) : (s.bumpErrN a k).agreed = s.agreed := by
  induction k generalizing s with
  | zero => rfl
  | succ k ih => exact (ih _).trans (State.bumpErr_agreed s a)
@[simp] theorem State.refuse_agreed (s : State) (a : Nat) : (s.refuse a).agreed = s.agreed := by
  unfold State.refuse; rw [State.answer_agreed, State.wr_agreed, State.bumpErr_agreed]
@[simp] theorem State.kevt_agreed (s : State) (b c i n : Nat) : (s.kevt b c i n).agreed = s.agreed := by
  simp only [State.kevt]; split
  · rfl
  · exact State.bumpErr_agreed s _
@[simp] theorem State.bumpErr_heldLow (s : State) (a : Nat) : (s.bumpErr a).heldLow = s.heldLow := by
  simp only [State.bumpErr]; repeat' split
  all_goals rfl
@[simp] theorem State.bumpErrN_heldLow (s : State) (a k : Nat) : (s.bumpErrN a k).heldLow = s.heldLow := by
  induction k generalizing s with
  | zero => rfl
  | succ k ih => exact (ih _).trans (State.bumpErr_heldLow s a)
@[simp] theorem State.refuse_heldLow (s : State) (a : Nat) : (s.refuse a).heldLow = s.heldLow := by
  unfold State.refuse; rw [State.answer_heldLow, State.wr_heldLow, State.bumpErr_heldLow]
@[simp] theorem State.kevt_heldLow (s : State) (b c i n : Nat) : (s.kevt b c i n).heldLow = s.heldLow := by
  simp only [State.kevt]; split
  · rfl
  · exact State.bumpErr_heldLow s _
@[simp] theorem State.bumpErr_kevtHeld (s : State) (a : Nat) : (s.bumpErr a).kevtHeld = s.kevtHeld := by
  simp only [State.bumpErr]; repeat' split
  all_goals rfl
@[simp] theorem State.bumpErrN_kevtHeld (s : State) (a k : Nat) : (s.bumpErrN a k).kevtHeld = s.kevtHeld := by
  induction k generalizing s with
  | zero => rfl
  | succ k ih => exact (ih _).trans (State.bumpErr_kevtHeld s a)
@[simp] theorem State.refuse_kevtHeld (s : State) (a : Nat) : (s.refuse a).kevtHeld = s.kevtHeld := by
  unfold State.refuse; rw [State.answer_kevtHeld, State.wr_kevtHeld, State.bumpErr_kevtHeld]
@[simp] theorem State.kevt_kevtHeld (s : State) (b c i n : Nat) : (s.kevt b c i n).kevtHeld = s.kevtHeld := by
  simp only [State.kevt]; split
  · rfl
  · exact State.bumpErr_kevtHeld s _
@[simp] theorem State.bumpErr_kevq (s : State) (a : Nat) : (s.bumpErr a).kevq = s.kevq := by
  simp only [State.bumpErr]; repeat' split
  all_goals rfl
@[simp] theorem State.bumpErrN_kevq (s : State) (a k : Nat) : (s.bumpErrN a k).kevq = s.kevq := by
  induction k generalizing s with
  | zero => rfl
  | succ k ih => exact (ih _).trans (State.bumpErr_kevq s a)
@[simp] theorem State.refuse_kevq (s : State) (a : Nat) : (s.refuse a).kevq = s.kevq := by
  unfold State.refuse; rw [State.answer_kevq, State.wr_kevq, State.bumpErr_kevq]
@[simp] theorem State.bumpErr_vrecRead (s : State) (a : Nat) : (s.bumpErr a).vrecRead = s.vrecRead := by
  simp only [State.bumpErr]; repeat' split
  all_goals rfl
@[simp] theorem State.bumpErrN_vrecRead (s : State) (a k : Nat) : (s.bumpErrN a k).vrecRead = s.vrecRead := by
  induction k generalizing s with
  | zero => rfl
  | succ k ih => exact (ih _).trans (State.bumpErr_vrecRead s a)
@[simp] theorem State.refuse_vrecRead (s : State) (a : Nat) : (s.refuse a).vrecRead = s.vrecRead := by
  unfold State.refuse; rw [State.answer_vrecRead, State.wr_vrecRead, State.bumpErr_vrecRead]
@[simp] theorem State.kevt_vrecRead (s : State) (b c i n : Nat) : (s.kevt b c i n).vrecRead = s.vrecRead := by
  simp only [State.kevt]; split
  · rfl
  · exact State.bumpErr_vrecRead s _
@[simp] theorem State.bumpErr_frozen (s : State) (a : Nat) : (s.bumpErr a).frozen = s.frozen := by
  simp only [State.bumpErr]; repeat' split
  all_goals rfl
@[simp] theorem State.bumpErrN_frozen (s : State) (a k : Nat) : (s.bumpErrN a k).frozen = s.frozen := by
  induction k generalizing s with
  | zero => rfl
  | succ k ih => exact (ih _).trans (State.bumpErr_frozen s a)
@[simp] theorem State.refuse_frozen (s : State) (a : Nat) : (s.refuse a).frozen = s.frozen := by
  unfold State.refuse; rw [State.answer_frozen, State.wr_frozen, State.bumpErr_frozen]
@[simp] theorem State.kevt_frozen (s : State) (b c i n : Nat) : (s.kevt b c i n).frozen = s.frozen := by
  simp only [State.kevt]; split
  · rfl
  · exact State.bumpErr_frozen s _
@[simp] theorem State.bumpErr_sram (s : State) (a : Nat) : (s.bumpErr a).sram = s.sram := by
  simp only [State.bumpErr]; repeat' split
  all_goals rfl
@[simp] theorem State.bumpErrN_sram (s : State) (a k : Nat) : (s.bumpErrN a k).sram = s.sram := by
  induction k generalizing s with
  | zero => rfl
  | succ k ih => exact (ih _).trans (State.bumpErr_sram s a)
@[simp] theorem State.refuse_sram (s : State) (a : Nat) : (s.refuse a).sram = s.sram := by
  unfold State.refuse; rw [State.answer_sram, State.wr_sram, State.bumpErr_sram]
@[simp] theorem State.kevt_sram (s : State) (b c i n : Nat) : (s.kevt b c i n).sram = s.sram := by
  simp only [State.kevt]; split
  · rfl
  · exact State.bumpErr_sram s _
@[simp] theorem State.bumpErr_dram (s : State) (a : Nat) : (s.bumpErr a).dram = s.dram := by
  simp only [State.bumpErr]; repeat' split
  all_goals rfl
@[simp] theorem State.bumpErrN_dram (s : State) (a k : Nat) : (s.bumpErrN a k).dram = s.dram := by
  induction k generalizing s with
  | zero => rfl
  | succ k ih => exact (ih _).trans (State.bumpErr_dram s a)
@[simp] theorem State.refuse_dram (s : State) (a : Nat) : (s.refuse a).dram = s.dram := by
  unfold State.refuse; rw [State.answer_dram, State.wr_dram, State.bumpErr_dram]
@[simp] theorem State.kevt_dram (s : State) (b c i n : Nat) : (s.kevt b c i n).dram = s.dram := by
  simp only [State.kevt]; split
  · rfl
  · exact State.bumpErr_dram s _
@[simp] theorem State.bumpErr_ecc (s : State) (a : Nat) : (s.bumpErr a).ecc = s.ecc := by
  simp only [State.bumpErr]; repeat' split
  all_goals rfl
@[simp] theorem State.bumpErrN_ecc (s : State) (a k : Nat) : (s.bumpErrN a k).ecc = s.ecc := by
  induction k generalizing s with
  | zero => rfl
  | succ k ih => exact (ih _).trans (State.bumpErr_ecc s a)
@[simp] theorem State.refuse_ecc (s : State) (a : Nat) : (s.refuse a).ecc = s.ecc := by
  unfold State.refuse; rw [State.answer_ecc, State.wr_ecc, State.bumpErr_ecc]
@[simp] theorem State.kevt_ecc (s : State) (b c i n : Nat) : (s.kevt b c i n).ecc = s.ecc := by
  simp only [State.kevt]; split
  · rfl
  · exact State.bumpErr_ecc s _
@[simp] theorem State.bumpErr_tlb (s : State) (a : Nat) : (s.bumpErr a).tlb = s.tlb := by
  simp only [State.bumpErr]; repeat' split
  all_goals rfl
@[simp] theorem State.bumpErrN_tlb (s : State) (a k : Nat) : (s.bumpErrN a k).tlb = s.tlb := by
  induction k generalizing s with
  | zero => rfl
  | succ k ih => exact (ih _).trans (State.bumpErr_tlb s a)
@[simp] theorem State.refuse_tlb (s : State) (a : Nat) : (s.refuse a).tlb = s.tlb := by
  unfold State.refuse; rw [State.answer_tlb, State.wr_tlb, State.bumpErr_tlb]
@[simp] theorem State.kevt_tlb (s : State) (b c i n : Nat) : (s.kevt b c i n).tlb = s.tlb := by
  simp only [State.kevt]; split
  · rfl
  · exact State.bumpErr_tlb s _
@[simp] theorem State.bumpErr_env (s : State) (a : Nat) : (s.bumpErr a).env = s.env := by
  simp only [State.bumpErr]; repeat' split
  all_goals rfl
@[simp] theorem State.bumpErrN_env (s : State) (a k : Nat) : (s.bumpErrN a k).env = s.env := by
  induction k generalizing s with
  | zero => rfl
  | succ k ih => exact (ih _).trans (State.bumpErr_env s a)
@[simp] theorem State.refuse_env (s : State) (a : Nat) : (s.refuse a).env = s.env := by
  unfold State.refuse; rw [State.answer_env, State.wr_env, State.bumpErr_env]
@[simp] theorem State.kevt_env (s : State) (b c i n : Nat) : (s.kevt b c i n).env = s.env := by
  simp only [State.kevt]; split
  · rfl
  · exact State.bumpErr_env s _
@[simp] theorem State.bumpErr_tally (s : State) (a : Nat) : (s.bumpErr a).tally = s.tally := by
  simp only [State.bumpErr]; repeat' split
  all_goals rfl
@[simp] theorem State.bumpErrN_tally (s : State) (a k : Nat) : (s.bumpErrN a k).tally = s.tally := by
  induction k generalizing s with
  | zero => rfl
  | succ k ih => exact (ih _).trans (State.bumpErr_tally s a)
@[simp] theorem State.refuse_tally (s : State) (a : Nat) : (s.refuse a).tally = s.tally := by
  unfold State.refuse; rw [State.answer_tally, State.wr_tally, State.bumpErr_tally]
@[simp] theorem State.kevt_tally (s : State) (b c i n : Nat) : (s.kevt b c i n).tally = s.tally := by
  simp only [State.kevt]; split
  · rfl
  · exact State.bumpErr_tally s _
@[simp] theorem State.bumpErr_pipes (s : State) (a : Nat) : (s.bumpErr a).pipes = s.pipes := by
  simp only [State.bumpErr]; repeat' split
  all_goals rfl
@[simp] theorem State.bumpErrN_pipes (s : State) (a k : Nat) : (s.bumpErrN a k).pipes = s.pipes := by
  induction k generalizing s with
  | zero => rfl
  | succ k ih => exact (ih _).trans (State.bumpErr_pipes s a)
@[simp] theorem State.refuse_pipes (s : State) (a : Nat) : (s.refuse a).pipes = s.pipes := by
  unfold State.refuse; rw [State.answer_pipes, State.wr_pipes, State.bumpErr_pipes]
@[simp] theorem State.kevt_pipes (s : State) (b c i n : Nat) : (s.kevt b c i n).pipes = s.pipes := by
  simp only [State.kevt]; split
  · rfl
  · exact State.bumpErr_pipes s _
@[simp] theorem State.bumpErr_led (s : State) (a : Nat) : (s.bumpErr a).led = s.led := by
  simp only [State.bumpErr]; repeat' split
  all_goals rfl
@[simp] theorem State.bumpErrN_led (s : State) (a k : Nat) : (s.bumpErrN a k).led = s.led := by
  induction k generalizing s with
  | zero => rfl
  | succ k ih => exact (ih _).trans (State.bumpErr_led s a)
@[simp] theorem State.refuse_led (s : State) (a : Nat) : (s.refuse a).led = s.led := by
  unfold State.refuse; rw [State.answer_led, State.wr_led, State.bumpErr_led]
@[simp] theorem State.kevt_led (s : State) (b c i n : Nat) : (s.kevt b c i n).led = s.led := by
  simp only [State.kevt]; split
  · rfl
  · exact State.bumpErr_led s _
@[simp] theorem State.bumpErr_queues (s : State) (a : Nat) : (s.bumpErr a).queues = s.queues := by
  simp only [State.bumpErr]; repeat' split
  all_goals rfl
@[simp] theorem State.bumpErrN_queues (s : State) (a k : Nat) : (s.bumpErrN a k).queues = s.queues := by
  induction k generalizing s with
  | zero => rfl
  | succ k ih => exact (ih _).trans (State.bumpErr_queues s a)
@[simp] theorem State.refuse_queues (s : State) (a : Nat) : (s.refuse a).queues = s.queues := by
  unfold State.refuse; rw [State.answer_queues, State.wr_queues, State.bumpErr_queues]
@[simp] theorem State.kevt_queues (s : State) (b c i n : Nat) : (s.kevt b c i n).queues = s.queues := by
  simp only [State.kevt]; split
  · rfl
  · exact State.bumpErr_queues s _
@[simp] theorem State.bumpErr_admitted (s : State) (a : Nat) : (s.bumpErr a).admitted = s.admitted := by
  simp only [State.bumpErr]; repeat' split
  all_goals rfl
@[simp] theorem State.bumpErrN_admitted (s : State) (a k : Nat) : (s.bumpErrN a k).admitted = s.admitted := by
  induction k generalizing s with
  | zero => rfl
  | succ k ih => exact (ih _).trans (State.bumpErr_admitted s a)
@[simp] theorem State.refuse_admitted (s : State) (a : Nat) : (s.refuse a).admitted = s.admitted := by
  unfold State.refuse; rw [State.answer_admitted, State.wr_admitted, State.bumpErr_admitted]
@[simp] theorem State.kevt_admitted (s : State) (b c i n : Nat) : (s.kevt b c i n).admitted = s.admitted := by
  simp only [State.kevt]; split
  · rfl
  · exact State.bumpErr_admitted s _
@[simp] theorem State.bumpErr_gpu (s : State) (a : Nat) : (s.bumpErr a).gpu = s.gpu := by
  simp only [State.bumpErr]; repeat' split
  all_goals rfl
@[simp] theorem State.bumpErrN_gpu (s : State) (a k : Nat) : (s.bumpErrN a k).gpu = s.gpu := by
  induction k generalizing s with
  | zero => rfl
  | succ k ih => exact (ih _).trans (State.bumpErr_gpu s a)
@[simp] theorem State.refuse_gpu (s : State) (a : Nat) : (s.refuse a).gpu = s.gpu := by
  unfold State.refuse; rw [State.answer_gpu, State.wr_gpu, State.bumpErr_gpu]
@[simp] theorem State.kevt_gpu (s : State) (b c i n : Nat) : (s.kevt b c i n).gpu = s.gpu := by
  simp only [State.kevt]; split
  · rfl
  · exact State.bumpErr_gpu s _
@[simp] theorem State.bumpErr_dmCh (s : State) (a : Nat) : (s.bumpErr a).dmCh = s.dmCh := by
  simp only [State.bumpErr]; repeat' split
  all_goals rfl
@[simp] theorem State.bumpErrN_dmCh (s : State) (a k : Nat) : (s.bumpErrN a k).dmCh = s.dmCh := by
  induction k generalizing s with
  | zero => rfl
  | succ k ih => exact (ih _).trans (State.bumpErr_dmCh s a)
@[simp] theorem State.refuse_dmCh (s : State) (a : Nat) : (s.refuse a).dmCh = s.dmCh := by
  unfold State.refuse; rw [State.answer_dmCh, State.wr_dmCh, State.bumpErr_dmCh]
@[simp] theorem State.kevt_dmCh (s : State) (b c i n : Nat) : (s.kevt b c i n).dmCh = s.dmCh := by
  simp only [State.kevt]; split
  · rfl
  · exact State.bumpErr_dmCh s _
@[simp] theorem State.bumpErr_dmEng (s : State) (a : Nat) : (s.bumpErr a).dmEng = s.dmEng := by
  simp only [State.bumpErr]; repeat' split
  all_goals rfl
@[simp] theorem State.bumpErrN_dmEng (s : State) (a k : Nat) : (s.bumpErrN a k).dmEng = s.dmEng := by
  induction k generalizing s with
  | zero => rfl
  | succ k ih => exact (ih _).trans (State.bumpErr_dmEng s a)
@[simp] theorem State.refuse_dmEng (s : State) (a : Nat) : (s.refuse a).dmEng = s.dmEng := by
  unfold State.refuse; rw [State.answer_dmEng, State.wr_dmEng, State.bumpErr_dmEng]
@[simp] theorem State.kevt_dmEng (s : State) (b c i n : Nat) : (s.kevt b c i n).dmEng = s.dmEng := by
  simp only [State.kevt]; split
  · rfl
  · exact State.bumpErr_dmEng s _
@[simp] theorem State.bumpErr_squashed (s : State) (a : Nat) : (s.bumpErr a).squashed = s.squashed := by
  simp only [State.bumpErr]; repeat' split
  all_goals rfl
@[simp] theorem State.bumpErrN_squashed (s : State) (a k : Nat) : (s.bumpErrN a k).squashed = s.squashed := by
  induction k generalizing s with
  | zero => rfl
  | succ k ih => exact (ih _).trans (State.bumpErr_squashed s a)
@[simp] theorem State.refuse_squashed (s : State) (a : Nat) : (s.refuse a).squashed = s.squashed := by
  unfold State.refuse; rw [State.answer_squashed, State.wr_squashed, State.bumpErr_squashed]
@[simp] theorem State.kevt_squashed (s : State) (b c i n : Nat) : (s.kevt b c i n).squashed = s.squashed := by
  simp only [State.kevt]; split
  · rfl
  · exact State.bumpErr_squashed s _
@[simp] theorem State.bumpErr_clearing (s : State) (a : Nat) : (s.bumpErr a).clearing = s.clearing := by
  simp only [State.bumpErr]; repeat' split
  all_goals rfl
@[simp] theorem State.bumpErrN_clearing (s : State) (a k : Nat) : (s.bumpErrN a k).clearing = s.clearing := by
  induction k generalizing s with
  | zero => rfl
  | succ k ih => exact (ih _).trans (State.bumpErr_clearing s a)
@[simp] theorem State.refuse_clearing (s : State) (a : Nat) : (s.refuse a).clearing = s.clearing := by
  unfold State.refuse; rw [State.answer_clearing, State.wr_clearing, State.bumpErr_clearing]
@[simp] theorem State.kevt_clearing (s : State) (b c i n : Nat) : (s.kevt b c i n).clearing = s.clearing := by
  simp only [State.kevt]; split
  · rfl
  · exact State.bumpErr_clearing s _
@[simp] theorem State.bumpErr_boot (s : State) (a : Nat) : (s.bumpErr a).boot = s.boot := by
  simp only [State.bumpErr]; repeat' split
  all_goals rfl
@[simp] theorem State.bumpErrN_boot (s : State) (a k : Nat) : (s.bumpErrN a k).boot = s.boot := by
  induction k generalizing s with
  | zero => rfl
  | succ k ih => exact (ih _).trans (State.bumpErr_boot s a)
@[simp] theorem State.refuse_boot (s : State) (a : Nat) : (s.refuse a).boot = s.boot := by
  unfold State.refuse; rw [State.answer_boot, State.wr_boot, State.bumpErr_boot]
@[simp] theorem State.kevt_boot (s : State) (b c i n : Nat) : (s.kevt b c i n).boot = s.boot := by
  simp only [State.kevt]; split
  · rfl
  · exact State.bumpErr_boot s _
@[simp] theorem State.bumpErr_harts (s : State) (a : Nat) : (s.bumpErr a).harts = s.harts := by
  simp only [State.bumpErr]; repeat' split
  all_goals rfl
@[simp] theorem State.bumpErrN_harts (s : State) (a k : Nat) : (s.bumpErrN a k).harts = s.harts := by
  induction k generalizing s with
  | zero => rfl
  | succ k ih => exact (ih _).trans (State.bumpErr_harts s a)
@[simp] theorem State.refuse_harts (s : State) (a : Nat) : (s.refuse a).harts = s.harts := by
  unfold State.refuse; rw [State.answer_harts, State.wr_harts, State.bumpErr_harts]
@[simp] theorem State.kevt_harts (s : State) (b c i n : Nat) : (s.kevt b c i n).harts = s.harts := by
  simp only [State.kevt]; split
  · rfl
  · exact State.bumpErr_harts s _
@[simp] theorem State.bumpErr_keeperTrap (s : State) (a : Nat) : (s.bumpErr a).keeperTrap = s.keeperTrap := by
  simp only [State.bumpErr]; repeat' split
  all_goals rfl
@[simp] theorem State.bumpErrN_keeperTrap (s : State) (a k : Nat) : (s.bumpErrN a k).keeperTrap = s.keeperTrap := by
  induction k generalizing s with
  | zero => rfl
  | succ k ih => exact (ih _).trans (State.bumpErr_keeperTrap s a)
@[simp] theorem State.refuse_keeperTrap (s : State) (a : Nat) : (s.refuse a).keeperTrap = s.keeperTrap := by
  unfold State.refuse; rw [State.answer_keeperTrap, State.wr_keeperTrap, State.bumpErr_keeperTrap]
@[simp] theorem State.kevt_keeperTrap (s : State) (b c i n : Nat) : (s.kevt b c i n).keeperTrap = s.keeperTrap := by
  simp only [State.kevt]; split
  · rfl
  · exact State.bumpErr_keeperTrap s _
@[simp] theorem State.bumpErr_power (s : State) (a : Nat) : (s.bumpErr a).power = s.power := by
  simp only [State.bumpErr]; repeat' split
  all_goals rfl
@[simp] theorem State.bumpErrN_power (s : State) (a k : Nat) : (s.bumpErrN a k).power = s.power := by
  induction k generalizing s with
  | zero => rfl
  | succ k ih => exact (ih _).trans (State.bumpErr_power s a)
@[simp] theorem State.refuse_power (s : State) (a : Nat) : (s.refuse a).power = s.power := by
  unfold State.refuse; rw [State.answer_power, State.wr_power, State.bumpErr_power]
@[simp] theorem State.kevt_power (s : State) (b c i n : Nat) : (s.kevt b c i n).power = s.power := by
  simp only [State.kevt]; split
  · rfl
  · exact State.bumpErr_power s _
@[simp] theorem State.bumpErr_sm (s : State) (a : Nat) : (s.bumpErr a).sm = s.sm := by
  simp only [State.bumpErr]; repeat' split
  all_goals rfl
@[simp] theorem State.bumpErrN_sm (s : State) (a k : Nat) : (s.bumpErrN a k).sm = s.sm := by
  induction k generalizing s with
  | zero => rfl
  | succ k ih => exact (ih _).trans (State.bumpErr_sm s a)
@[simp] theorem State.refuse_sm (s : State) (a : Nat) : (s.refuse a).sm = s.sm := by
  unfold State.refuse; rw [State.answer_sm, State.wr_sm, State.bumpErr_sm]
@[simp] theorem State.kevt_sm (s : State) (b c i n : Nat) : (s.kevt b c i n).sm = s.sm := by
  simp only [State.kevt]; split
  · rfl
  · exact State.bumpErr_sm s _
@[simp] theorem State.bumpErr_mem (s : State) (a : Nat) : (s.bumpErr a).mem = s.mem := by
  simp only [State.bumpErr]; repeat' split
  all_goals rfl
@[simp] theorem State.bumpErrN_mem (s : State) (a k : Nat) : (s.bumpErrN a k).mem = s.mem := by
  induction k generalizing s with
  | zero => rfl
  | succ k ih => exact (ih _).trans (State.bumpErr_mem s a)
@[simp] theorem State.refuse_mem (s : State) (a : Nat) : (s.refuse a).mem = s.mem := by
  unfold State.refuse; rw [State.answer_mem, State.wr_mem, State.bumpErr_mem]
@[simp] theorem State.kevt_mem (s : State) (b c i n : Nat) : (s.kevt b c i n).mem = s.mem := by
  simp only [State.kevt]; split
  · rfl
  · exact State.bumpErr_mem s _
@[simp] theorem State.bumpErr_msr (s : State) (a : Nat) : (s.bumpErr a).msr = s.msr := by
  simp only [State.bumpErr]; repeat' split
  all_goals rfl
@[simp] theorem State.bumpErrN_msr (s : State) (a k : Nat) : (s.bumpErrN a k).msr = s.msr := by
  induction k generalizing s with
  | zero => rfl
  | succ k ih => exact (ih _).trans (State.bumpErr_msr s a)
@[simp] theorem State.refuse_msr (s : State) (a : Nat) : (s.refuse a).msr = s.msr := by
  unfold State.refuse; rw [State.answer_msr, State.wr_msr, State.bumpErr_msr]
@[simp] theorem State.kevt_msr (s : State) (b c i n : Nat) : (s.kevt b c i n).msr = s.msr := by
  simp only [State.kevt]; split
  · rfl
  · exact State.bumpErr_msr s _
@[simp] theorem State.bumpErr_nvm (s : State) (a : Nat) : (s.bumpErr a).nvm = s.nvm := by
  simp only [State.bumpErr]; repeat' split
  all_goals rfl
@[simp] theorem State.bumpErrN_nvm (s : State) (a k : Nat) : (s.bumpErrN a k).nvm = s.nvm := by
  induction k generalizing s with
  | zero => rfl
  | succ k ih => exact (ih _).trans (State.bumpErr_nvm s a)
@[simp] theorem State.refuse_nvm (s : State) (a : Nat) : (s.refuse a).nvm = s.nvm := by
  unfold State.refuse; rw [State.answer_nvm, State.wr_nvm, State.bumpErr_nvm]
@[simp] theorem State.kevt_nvm (s : State) (b c i n : Nat) : (s.kevt b c i n).nvm = s.nvm := by
  simp only [State.kevt]; split
  · rfl
  · exact State.bumpErr_nvm s _
@[simp] theorem State.bumpErr_panels (s : State) (a : Nat) : (s.bumpErr a).panels = s.panels := by
  simp only [State.bumpErr]; repeat' split
  all_goals rfl
@[simp] theorem State.bumpErrN_panels (s : State) (a k : Nat) : (s.bumpErrN a k).panels = s.panels := by
  induction k generalizing s with
  | zero => rfl
  | succ k ih => exact (ih _).trans (State.bumpErr_panels s a)
@[simp] theorem State.refuse_panels (s : State) (a : Nat) : (s.refuse a).panels = s.panels := by
  unfold State.refuse; rw [State.answer_panels, State.wr_panels, State.bumpErr_panels]
@[simp] theorem State.kevt_panels (s : State) (b c i n : Nat) : (s.kevt b c i n).panels = s.panels := by
  simp only [State.kevt]; split
  · rfl
  · exact State.bumpErr_panels s _
@[simp] theorem State.bumpErr_lineRuns (s : State) (a : Nat) : (s.bumpErr a).lineRuns = s.lineRuns := by
  simp only [State.bumpErr]; repeat' split
  all_goals rfl
@[simp] theorem State.bumpErrN_lineRuns (s : State) (a k : Nat) : (s.bumpErrN a k).lineRuns = s.lineRuns := by
  induction k generalizing s with
  | zero => rfl
  | succ k ih => exact (ih _).trans (State.bumpErr_lineRuns s a)
@[simp] theorem State.refuse_lineRuns (s : State) (a : Nat) : (s.refuse a).lineRuns = s.lineRuns := by
  unfold State.refuse; rw [State.answer_lineRuns, State.wr_lineRuns, State.bumpErr_lineRuns]
@[simp] theorem State.kevt_lineRuns (s : State) (b c i n : Nat) : (s.kevt b c i n).lineRuns = s.lineRuns := by
  simp only [State.kevt]; split
  · rfl
  · exact State.bumpErr_lineRuns s _
@[simp] theorem State.bumpErr_streams (s : State) (a : Nat) : (s.bumpErr a).streams = s.streams := by
  simp only [State.bumpErr]; repeat' split
  all_goals rfl
@[simp] theorem State.bumpErrN_streams (s : State) (a k : Nat) : (s.bumpErrN a k).streams = s.streams := by
  induction k generalizing s with
  | zero => rfl
  | succ k ih => exact (ih _).trans (State.bumpErr_streams s a)
@[simp] theorem State.refuse_streams (s : State) (a : Nat) : (s.refuse a).streams = s.streams := by
  unfold State.refuse; rw [State.answer_streams, State.wr_streams, State.bumpErr_streams]
@[simp] theorem State.kevt_streams (s : State) (b c i n : Nat) : (s.kevt b c i n).streams = s.streams := by
  simp only [State.kevt]; split
  · rfl
  · exact State.bumpErr_streams s _
@[simp] theorem State.bumpErr_haps (s : State) (a : Nat) : (s.bumpErr a).haps = s.haps := by
  simp only [State.bumpErr]; repeat' split
  all_goals rfl
@[simp] theorem State.bumpErrN_haps (s : State) (a k : Nat) : (s.bumpErrN a k).haps = s.haps := by
  induction k generalizing s with
  | zero => rfl
  | succ k ih => exact (ih _).trans (State.bumpErr_haps s a)
@[simp] theorem State.refuse_haps (s : State) (a : Nat) : (s.refuse a).haps = s.haps := by
  unfold State.refuse; rw [State.answer_haps, State.wr_haps, State.bumpErr_haps]
@[simp] theorem State.kevt_haps (s : State) (b c i n : Nat) : (s.kevt b c i n).haps = s.haps := by
  simp only [State.kevt]; split
  · rfl
  · exact State.bumpErr_haps s _
@[simp] theorem State.bumpErr_caps (s : State) (a : Nat) : (s.bumpErr a).caps = s.caps := by
  simp only [State.bumpErr]; repeat' split
  all_goals rfl
@[simp] theorem State.bumpErrN_caps (s : State) (a k : Nat) : (s.bumpErrN a k).caps = s.caps := by
  induction k generalizing s with
  | zero => rfl
  | succ k ih => exact (ih _).trans (State.bumpErr_caps s a)
@[simp] theorem State.refuse_caps (s : State) (a : Nat) : (s.refuse a).caps = s.caps := by
  unfold State.refuse; rw [State.answer_caps, State.wr_caps, State.bumpErr_caps]
@[simp] theorem State.kevt_caps (s : State) (b c i n : Nat) : (s.kevt b c i n).caps = s.caps := by
  simp only [State.kevt]; split
  · rfl
  · exact State.bumpErr_caps s _
@[simp] theorem State.bumpErr_mix (s : State) (a : Nat) : (s.bumpErr a).mix = s.mix := by
  simp only [State.bumpErr]; repeat' split
  all_goals rfl
@[simp] theorem State.bumpErrN_mix (s : State) (a k : Nat) : (s.bumpErrN a k).mix = s.mix := by
  induction k generalizing s with
  | zero => rfl
  | succ k ih => exact (ih _).trans (State.bumpErr_mix s a)
@[simp] theorem State.refuse_mix (s : State) (a : Nat) : (s.refuse a).mix = s.mix := by
  unfold State.refuse; rw [State.answer_mix, State.wr_mix, State.bumpErr_mix]
@[simp] theorem State.kevt_mix (s : State) (b c i n : Nat) : (s.kevt b c i n).mix = s.mix := by
  simp only [State.kevt]; split
  · rfl
  · exact State.bumpErr_mix s _
@[simp] theorem State.bumpErr_syncOut (s : State) (a : Nat) : (s.bumpErr a).syncOut = s.syncOut := by
  simp only [State.bumpErr]; repeat' split
  all_goals rfl
@[simp] theorem State.bumpErrN_syncOut (s : State) (a k : Nat) : (s.bumpErrN a k).syncOut = s.syncOut := by
  induction k generalizing s with
  | zero => rfl
  | succ k ih => exact (ih _).trans (State.bumpErr_syncOut s a)
@[simp] theorem State.refuse_syncOut (s : State) (a : Nat) : (s.refuse a).syncOut = s.syncOut := by
  unfold State.refuse; rw [State.answer_syncOut, State.wr_syncOut, State.bumpErr_syncOut]
@[simp] theorem State.kevt_syncOut (s : State) (b c i n : Nat) : (s.kevt b c i n).syncOut = s.syncOut := by
  simp only [State.kevt]; split
  · rfl
  · exact State.bumpErr_syncOut s _
@[simp] theorem State.bumpErr_syncIn (s : State) (a : Nat) : (s.bumpErr a).syncIn = s.syncIn := by
  simp only [State.bumpErr]; repeat' split
  all_goals rfl
@[simp] theorem State.bumpErrN_syncIn (s : State) (a k : Nat) : (s.bumpErrN a k).syncIn = s.syncIn := by
  induction k generalizing s with
  | zero => rfl
  | succ k ih => exact (ih _).trans (State.bumpErr_syncIn s a)
@[simp] theorem State.refuse_syncIn (s : State) (a : Nat) : (s.refuse a).syncIn = s.syncIn := by
  unfold State.refuse; rw [State.answer_syncIn, State.wr_syncIn, State.bumpErr_syncIn]
@[simp] theorem State.kevt_syncIn (s : State) (b c i n : Nat) : (s.kevt b c i n).syncIn = s.syncIn := by
  simp only [State.kevt]; split
  · rfl
  · exact State.bumpErr_syncIn s _
@[simp] theorem State.bumpErr_resp (s : State) (a : Nat) : (s.bumpErr a).resp = s.resp := by
  simp only [State.bumpErr]; repeat' split
  all_goals rfl
@[simp] theorem State.bumpErrN_resp (s : State) (a k : Nat) : (s.bumpErrN a k).resp = s.resp := by
  induction k generalizing s with
  | zero => rfl
  | succ k ih => exact (ih _).trans (State.bumpErr_resp s a)
@[simp] theorem State.kevt_resp (s : State) (b c i n : Nat) : (s.kevt b c i n).resp = s.resp := by
  simp only [State.kevt]; split
  · rfl
  · exact State.bumpErr_resp s _
@[simp] theorem State.bumpErr_fresh (s : State) (a : Nat) : (s.bumpErr a).fresh = s.fresh := by
  simp only [State.bumpErr]; repeat' split
  all_goals rfl
@[simp] theorem State.bumpErrN_fresh (s : State) (a k : Nat) : (s.bumpErrN a k).fresh = s.fresh := by
  induction k generalizing s with
  | zero => rfl
  | succ k ih => exact (ih _).trans (State.bumpErr_fresh s a)
@[simp] theorem State.refuse_fresh (s : State) (a : Nat) : (s.refuse a).fresh = s.fresh := by
  unfold State.refuse; rw [State.answer_fresh, State.wr_fresh, State.bumpErr_fresh]
@[simp] theorem State.kevt_fresh (s : State) (b c i n : Nat) : (s.kevt b c i n).fresh = s.fresh := by
  simp only [State.kevt]; split
  · rfl
  · exact State.bumpErr_fresh s _
@[simp] theorem State.bumpErr_pending (s : State) (a : Nat) : (s.bumpErr a).pending = s.pending := by
  simp only [State.bumpErr]; repeat' split
  all_goals rfl
@[simp] theorem State.bumpErrN_pending (s : State) (a k : Nat) : (s.bumpErrN a k).pending = s.pending := by
  induction k generalizing s with
  | zero => rfl
  | succ k ih => exact (ih _).trans (State.bumpErr_pending s a)
@[simp] theorem State.refuse_pending (s : State) (a : Nat) : (s.refuse a).pending = s.pending := by
  unfold State.refuse; rw [State.answer_pending, State.wr_pending, State.bumpErr_pending]
@[simp] theorem State.kevt_pending (s : State) (b c i n : Nat) : (s.kevt b c i n).pending = s.pending := by
  simp only [State.kevt]; split
  · rfl
  · exact State.bumpErr_pending s _
@[simp] theorem State.bumpErr_rw_of (s : State) (a : Nat) (x : Nat) : (s.bumpErr a).rw x = s.rw x := by
  simp only [State.bumpErr]; repeat' split
  all_goals rfl
@[simp] theorem State.bumpErr_rd_of (s : State) (a : Nat) (x : Nat) (g : Fld) : (s.bumpErr a).rd x g = s.rd x g := by
  simp only [State.bumpErr]; repeat' split
  all_goals rfl
@[simp] theorem State.bumpErr_on_of (s : State) (a : Nat) (x : Nat) (g : Fld) : (s.bumpErr a).on x g = s.on x g := by
  simp only [State.bumpErr]; repeat' split
  all_goals rfl
@[simp] theorem State.bumpErr_frw_of (s : State) (a : Nat) (x : Nat) : (s.bumpErr a).frw x = s.frw x := by
  simp only [State.bumpErr]; repeat' split
  all_goals rfl
@[simp] theorem State.bumpErr_frd_of (s : State) (a : Nat) (x : Nat) (g : Fld) : (s.bumpErr a).frd x g = s.frd x g := by
  simp only [State.bumpErr]; repeat' split
  all_goals rfl
@[simp] theorem State.bumpErr_srw_of (s : State) (a : Nat) (x : Nat) : (s.bumpErr a).srw x = s.srw x := by
  simp only [State.bumpErr]; repeat' split
  all_goals rfl
@[simp] theorem State.bumpErr_srd_of (s : State) (a : Nat) (x : Nat) (g : Fld) : (s.bumpErr a).srd x g = s.srd x g := by
  simp only [State.bumpErr]; repeat' split
  all_goals rfl
@[simp] theorem State.bumpErr_pipe_of (s : State) (a : Nat) (x : Nat) : (s.bumpErr a).pipe x = s.pipe x := by
  simp only [State.bumpErr]; repeat' split
  all_goals rfl
@[simp] theorem State.bumpErr_queue_of (s : State) (a : Nat) (x : Nat) : (s.bumpErr a).queue x = s.queue x := by
  simp only [State.bumpErr]; repeat' split
  all_goals rfl
@[simp] theorem State.bumpErr_ch_of (s : State) (a : Nat) (x : Nat) : (s.bumpErr a).ch x = s.ch x := by
  simp only [State.bumpErr]; repeat' split
  all_goals rfl
@[simp] theorem State.bumpErr_eng_of (s : State) (a : Nat) (x : Nat) : (s.bumpErr a).eng x = s.eng x := by
  simp only [State.bumpErr]; repeat' split
  all_goals rfl
@[simp] theorem State.bumpErr_panel_of (s : State) (a : Nat) (x : Nat) : (s.bumpErr a).panel x = s.panel x := by
  simp only [State.bumpErr]; repeat' split
  all_goals rfl
@[simp] theorem State.bumpErr_stream_of (s : State) (a : Nat) (x : Nat) : (s.bumpErr a).stream x = s.stream x := by
  simp only [State.bumpErr]; repeat' split
  all_goals rfl
@[simp] theorem State.bumpErr_hap_of (s : State) (a : Nat) (x : Nat) : (s.bumpErr a).hap x = s.hap x := by
  simp only [State.bumpErr]; repeat' split
  all_goals rfl
@[simp] theorem State.bumpErr_cap_of (s : State) (a : Nat) (x : Nat) : (s.bumpErr a).cap x = s.cap x := by
  simp only [State.bumpErr]; repeat' split
  all_goals rfl
@[simp] theorem State.bumpErr_hart_of (s : State) (a : Nat) (x : Nat) : (s.bumpErr a).hart x = s.hart x := by
  simp only [State.bumpErr]; repeat' split
  all_goals rfl
@[simp] theorem State.bumpErr_op_of (s : State) (a : Nat) (x : Nat) : (s.bumpErr a).op x = s.op x := by
  simp only [State.bumpErr]; repeat' split
  all_goals rfl
@[simp] theorem State.bumpErr_rail_of (s : State) (a : Nat) (x : Nat) : (s.bumpErr a).rail x = s.rail x := by
  simp only [State.bumpErr]; repeat' split
  all_goals rfl
@[simp] theorem State.bumpErr_stallState_of (s : State) (a : Nat) (x : Nat) : (s.bumpErr a).stallState x = s.stallState x := by
  simp only [State.bumpErr]; repeat' split
  all_goals rfl
@[simp] theorem State.bumpErr_islandOn_of (s : State) (a : Nat) (x : Nat) : (s.bumpErr a).islandOn x = s.islandOn x := by
  simp only [State.bumpErr]; repeat' split
  all_goals rfl
@[simp] theorem State.bumpErr_dstate_of (s : State) (a : Nat) : (s.bumpErr a).dstate = s.dstate := by
  simp only [State.bumpErr]; repeat' split
  all_goals rfl
@[simp] theorem State.bumpErr_running_of (s : State) (a : Nat) : (s.bumpErr a).running = s.running := by
  simp only [State.bumpErr]; repeat' split
  all_goals rfl
@[simp] theorem State.bumpErr_sramB_of (s : State) (a : Nat) (x : Nat) : (s.bumpErr a).sramB x = s.sramB x := by
  simp only [State.bumpErr]; repeat' split
  all_goals rfl
@[simp] theorem State.bumpErr_dramB_of (s : State) (a : Nat) (x : Nat) : (s.bumpErr a).dramB x = s.dramB x := by
  simp only [State.bumpErr]; repeat' split
  all_goals rfl
@[simp] theorem State.bumpErr_envB_of (s : State) (a : Nat) (x : Nat) : (s.bumpErr a).envB x = s.envB x := by
  simp only [State.bumpErr]; repeat' split
  all_goals rfl
@[simp] theorem State.bumpErr_free_of (s : State) (a : Nat) : (s.bumpErr a).free = s.free := by
  simp only [State.bumpErr]; repeat' split
  all_goals rfl

/-! ### Reads after writes -/

theorem State.rw_setRw_same (s : State) (a : Nat) (w : W64) : (s.setRw a w).rw a = w := storeGet_put_same resetWord s.regs a w
theorem State.rw_setRw_ne (s : State) {a b : Nat} (w : W64) (h : a ≠ b) : (s.setRw a w).rw b = s.rw b := storeGet_put_ne resetWord s.regs w h
theorem State.frw_setFrw_same (s : State) (a : Nat) (w : W64) : (s.setFrw a w).frw a = w := storeGet_put_same resetWord s.force a w
theorem State.frw_setFrw_ne (s : State) {a b : Nat} (w : W64) (h : a ≠ b) : (s.setFrw a w).frw b = s.frw b := storeGet_put_ne resetWord s.force w h
theorem State.lv_setLv_same (s : State) (a : Nat) (w : W64) : (s.setLv a w).lv a = w := storeGet_put_same _ s.live a w
theorem State.lv_setLv_ne (s : State) {a b : Nat} (w : W64) (h : a ≠ b) : (s.setLv a w).lv b = s.lv b := storeGet_put_ne _ s.live w h
/-- A register field reads what was written to it. -/
theorem State.rd_wr_same (s : State) (a : Nat) (f : Fld) (v : Nat) (h : f.lo + f.w ≤ 64) : (s.wr a f v).rd a f = v % 2 ^ f.w := by
  show getFld ((s.setRw a _).rw a) f = _
  rw [State.rw_setRw_same, getFld_putFld_same _ _ _ h]
/-- Another field of the register reads as before. -/
theorem State.rd_wr_field (s : State) (a : Nat) (f g : Fld) (v : Nat) (h : f.lo + f.w ≤ g.lo ∨ g.lo + g.w ≤ f.lo) :
    (s.wr a f v).rd a g = s.rd a g := by
  show getFld ((s.setRw a _).rw a) g = _
  rw [State.rw_setRw_same, getFld_putFld_ne _ _ _ _ h]
  rfl
/-- A register at another address reads as before. -/
theorem State.rw_wr_ne (s : State) {a b : Nat} (f : Fld) (v : Nat) (h : a ≠ b) : (s.wr a f v).rw b = s.rw b := State.rw_setRw_ne s _ h
theorem State.rd_wr_ne (s : State) {a b : Nat} (f g : Fld) (v : Nat) (h : a ≠ b) : (s.wr a f v).rd b g = s.rd b g := by
  show getFld _ g = getFld _ g
  rw [State.rw_wr_ne s f v h]
/-- An event counter below its top advances by k. -/
theorem State.lv_bumpEv_same (s : State) (a k : Nat) : (s.bumpEv a k).lv a = BitVec.ofNat 64 (((s.lv a).toNat + k) % 2 ^ 48) := State.lv_setLv_same s a _
theorem State.lv_bumpEv_ne (s : State) {a b : Nat} (k : Nat) (h : a ≠ b) : (s.bumpEv a k).lv b = s.lv b := State.lv_setLv_ne s _ h
theorem State.lv_bumpErr_ne (s : State) {a b : Nat} (h : a ≠ b) : (s.bumpErr a).lv b = s.lv b := by
  simp only [State.bumpErr]; repeat' split
  · exact State.lv_setLv_ne s _ h
  · exact (State.emit_lv_of _ _ _).trans (State.lv_setLv_ne s _ h)
  · rfl
/-- An error counter below 0xFFFE advances by 1. -/
theorem State.lv_bumpErr_same (s : State) (a : Nat) (h : (s.lv a).toNat < 0xFFFE) : (s.bumpErr a).lv a = BitVec.ofNat 64 ((s.lv a).toNat + 1) := by
  simp only [State.bumpErr, if_pos h]
  exact State.lv_setLv_same s a _

end Sys2Proof.Machine
end

