-- ==== Sys2Proof/Laws/Access.lean ====
section
/-! SUPPORT. Laws/Access.lean: an access that passes its checks reaches its register; a write that no field's class keeps back takes effect. -/
namespace Sys2Proof.Machine

theorem write_ok {s : State} {who : Who} {a : Nat} (h : s.mayWrite who a) (k : State → State) : s.begin.write who a k = k s.accepted := by
  have h1 : s.begin.gate who a true = .ok := h
  simp only [State.write, State.access, h1]
  rfl

theorem access_read_ok {s : State} {who : Who} {a : Nat} (h : s.mayRead who a) (k : State → State) :
    s.begin.access who a false k = k s.accepted := by
  have h1 : s.begin.gate who a false = .ok := h
  simp only [State.access, h1]
  rfl

theorem guard_true {s : State} {b : Bool} (h : b = true) (f : State → State) : s.guard b f = f s := by simp only [State.guard, h, if_true]
theorem guard_false {s : State} {b : Bool} (h : b = false) (f : State → State) : s.guard b f = s := by
  simp only [State.guard, h, Bool.false_eq_true, if_false]

/-- A write that no class keeps back, with every field in its range, gives every writable field its value. -/
theorem settingWrite_free {s : State} {a u i : Nat} {w : W64} {d : RegDef} (hl : lookupReg a = some (d, u, i)) (hr : d.readOnly = false)
    (hb : d.fields.any (fun f => f.badRange w) = false) (hw : (d.fields.filter (fun f => f.acc != .ro)) ≠ []) :
    s.settingWrite a w true false = (s.setRw a (d.written true false (s.rw a) w)).answer .ok := by
  have hk : ∀ f : FieldDef, f.kept true false = false := fun f => by simp [FieldDef.kept]
  simp only [State.settingWrite, hl, hr, hb, hk, Bool.false_and, Bool.false_eq_true, if_false]
  rw [if_neg]
  · rw [if_neg]
    simp
  · intro h
    rw [List.all_eq_true] at h
    obtain ⟨x, hx⟩ := List.exists_mem_of_ne_nil _ hw
    exact Bool.false_ne_true (h x hx)

end Sys2Proof.Machine
end

