-- ==== Sys2Proof/Laws/Stable.lean ====
section
/-! SUPPORT. Laws/Stable.lean: properties of states that every operation keeps, and how folds and choices keep them. -/
namespace Sys2Proof.Machine

/-- A property that no change of registers, counters, memory hierarchy words or answers can break. -/
structure KeepCore (P : State → Prop) : Prop where
  other : ∀ (s : State) (regs_ : Store W64) (force_ : Store W64) (scan_ : Store W64) (live_ : Store W64) (agreed_ : Store W64) (heldLow_ : Store W64) (kevtHeld_ : Option W32) (vrecRead_ : Nat) (frozen_ : List (Nat × Nat × Nat)) (ecc_ : Store Nat) (tlb_ : Store Nat) (tally_ : TallySt) (admitted_ : Store Nat) (squashed_ : Nat) (keeperTrap_ : Option Nat) (msr_ : MsrSt) (lineRuns_ : Store Nat) (mix_ : MixSt) (syncOut_ : Nat) (syncIn_ : Nat) (resp_ : Resp) (out_ : List Out) (fresh_ : Nat), P s →
    P { s with regs := regs_, force := force_, scan := scan_, live := live_, agreed := agreed_, heldLow := heldLow_, kevtHeld := kevtHeld_, vrecRead := vrecRead_, frozen := frozen_, ecc := ecc_, tlb := tlb_, tally := tally_, admitted := admitted_, squashed := squashed_, keeperTrap := keeperTrap_, msr := msr_, lineRuns := lineRuns_, mix := mix_, syncOut := syncOut_, syncIn := syncIn_, resp := resp_, out := out_, fresh := fresh_ }
  push : ∀ {s : State} (w : W64), s.kevq.length < 256 → P s → P { s with kevq := s.kevq ++ [w] }
  pop : ∀ {s : State}, P s → P { s with kevq := s.kevq.drop 1 }

/-- A property that, beside, no change of a unit of work (pipes, queues, engines, panels, streams) can break. -/
structure KeepUnits (P : State → Prop) : Prop where
  other : ∀ (s : State) (regs_ : Store W64) (force_ : Store W64) (scan_ : Store W64) (live_ : Store W64) (agreed_ : Store W64) (heldLow_ : Store W64) (kevtHeld_ : Option W32) (vrecRead_ : Nat) (frozen_ : List (Nat × Nat × Nat)) (ecc_ : Store Nat) (tlb_ : Store Nat) (tally_ : TallySt) (pipes_ : Store PipeSt) (led_ : LedgerSt) (queues_ : Store QueueSt) (admitted_ : Store Nat) (gpu_ : GpuSt) (dmCh_ : Store DmCh) (dmEng_ : Store DmEng) (squashed_ : Nat) (clearing_ : List (Nat × Bool × Nat)) (keeperTrap_ : Option Nat) (msr_ : MsrSt) (panels_ : Store PanelSt) (lineRuns_ : Store Nat) (streams_ : Store StreamSt) (haps_ : Store HapSt) (caps_ : Store CapSt) (mix_ : MixSt) (syncOut_ : Nat) (syncIn_ : Nat) (resp_ : Resp) (out_ : List Out) (fresh_ : Nat), P s →
    P { s with regs := regs_, force := force_, scan := scan_, live := live_, agreed := agreed_, heldLow := heldLow_, kevtHeld := kevtHeld_, vrecRead := vrecRead_, frozen := frozen_, ecc := ecc_, tlb := tlb_, tally := tally_, pipes := pipes_, led := led_, queues := queues_, admitted := admitted_, gpu := gpu_, dmCh := dmCh_, dmEng := dmEng_, squashed := squashed_, clearing := clearing_, keeperTrap := keeperTrap_, msr := msr_, panels := panels_, lineRuns := lineRuns_, streams := streams_, haps := haps_, caps := caps_, mix := mix_, syncOut := syncOut_, syncIn := syncIn_, resp := resp_, out := out_, fresh := fresh_ }
  push : ∀ {s : State} (w : W64), s.kevq.length < 256 → P s → P { s with kevq := s.kevq ++ [w] }
  pop : ∀ {s : State}, P s → P { s with kevq := s.kevq.drop 1 }

/-- A property that, beside, no change of power, boot, harts, Smiser, the non-volatile memory controller or the memory channels can break. -/
structure KeepSys (P : State → Prop) : Prop where
  other : ∀ (s : State) (regs_ : Store W64) (force_ : Store W64) (scan_ : Store W64) (live_ : Store W64) (agreed_ : Store W64) (heldLow_ : Store W64) (kevtHeld_ : Option W32) (vrecRead_ : Nat) (frozen_ : List (Nat × Nat × Nat)) (ecc_ : Store Nat) (tlb_ : Store Nat) (tally_ : TallySt) (admitted_ : Store Nat) (squashed_ : Nat) (boot_ : BootSt) (harts_ : Store HartSt) (keeperTrap_ : Option Nat) (power_ : PowerSt) (sm_ : SmSt) (mem_ : MemSt) (msr_ : MsrSt) (nvm_ : NvmSt) (lineRuns_ : Store Nat) (mix_ : MixSt) (syncOut_ : Nat) (syncIn_ : Nat) (resp_ : Resp) (out_ : List Out) (fresh_ : Nat), P s →
    P { s with regs := regs_, force := force_, scan := scan_, live := live_, agreed := agreed_, heldLow := heldLow_, kevtHeld := kevtHeld_, vrecRead := vrecRead_, frozen := frozen_, ecc := ecc_, tlb := tlb_, tally := tally_, admitted := admitted_, squashed := squashed_, boot := boot_, harts := harts_, keeperTrap := keeperTrap_, power := power_, sm := sm_, mem := mem_, msr := msr_, nvm := nvm_, lineRuns := lineRuns_, mix := mix_, syncOut := syncOut_, syncIn := syncIn_, resp := resp_, out := out_, fresh := fresh_ }
  push : ∀ {s : State} (w : W64), s.kevq.length < 256 → P s → P { s with kevq := s.kevq ++ [w] }
  pop : ∀ {s : State}, P s → P { s with kevq := s.kevq.drop 1 }

/-- A property that no change outside the memories can break. -/
structure Keep (P : State → Prop) : Prop where
  other : ∀ (s : State) (regs_ : Store W64) (force_ : Store W64) (scan_ : Store W64) (live_ : Store W64) (agreed_ : Store W64) (heldLow_ : Store W64) (kevtHeld_ : Option W32) (vrecRead_ : Nat) (frozen_ : List (Nat × Nat × Nat)) (ecc_ : Store Nat) (tlb_ : Store Nat) (tally_ : TallySt) (pipes_ : Store PipeSt) (led_ : LedgerSt) (queues_ : Store QueueSt) (admitted_ : Store Nat) (gpu_ : GpuSt) (dmCh_ : Store DmCh) (dmEng_ : Store DmEng) (squashed_ : Nat) (clearing_ : List (Nat × Bool × Nat)) (boot_ : BootSt) (harts_ : Store HartSt) (keeperTrap_ : Option Nat) (power_ : PowerSt) (sm_ : SmSt) (mem_ : MemSt) (msr_ : MsrSt) (nvm_ : NvmSt) (panels_ : Store PanelSt) (lineRuns_ : Store Nat) (streams_ : Store StreamSt) (haps_ : Store HapSt) (caps_ : Store CapSt) (mix_ : MixSt) (syncOut_ : Nat) (syncIn_ : Nat) (resp_ : Resp) (out_ : List Out) (fresh_ : Nat), P s →
    P { s with regs := regs_, force := force_, scan := scan_, live := live_, agreed := agreed_, heldLow := heldLow_, kevtHeld := kevtHeld_, vrecRead := vrecRead_, frozen := frozen_, ecc := ecc_, tlb := tlb_, tally := tally_, pipes := pipes_, led := led_, queues := queues_, admitted := admitted_, gpu := gpu_, dmCh := dmCh_, dmEng := dmEng_, squashed := squashed_, clearing := clearing_, boot := boot_, harts := harts_, keeperTrap := keeperTrap_, power := power_, sm := sm_, mem := mem_, msr := msr_, nvm := nvm_, panels := panels_, lineRuns := lineRuns_, streams := streams_, haps := haps_, caps := caps_, mix := mix_, syncOut := syncOut_, syncIn := syncIn_, resp := resp_, out := out_, fresh := fresh_ }
  push : ∀ {s : State} (w : W64), s.kevq.length < 256 → P s → P { s with kevq := s.kevq ++ [w] }
  pop : ∀ {s : State}, P s → P { s with kevq := s.kevq.drop 1 }

theorem KeepUnits.toKeepCore {P : State → Prop} (hK : KeepUnits P) : KeepCore P :=
  ⟨fun s regs_ force_ scan_ live_ agreed_ heldLow_ kevtHeld_ vrecRead_ frozen_ ecc_ tlb_ tally_ admitted_ squashed_ keeperTrap_ msr_ lineRuns_ mix_ syncOut_ syncIn_ resp_ out_ fresh_ h => hK.other s regs_ force_ scan_ live_ agreed_ heldLow_ kevtHeld_ vrecRead_ frozen_ ecc_ tlb_ tally_ s.pipes s.led s.queues admitted_ s.gpu s.dmCh s.dmEng squashed_ s.clearing keeperTrap_ msr_ s.panels lineRuns_ s.streams s.haps s.caps mix_ syncOut_ syncIn_ resp_ out_ fresh_ h, hK.push, hK.pop⟩
theorem KeepSys.toKeepCore {P : State → Prop} (hK : KeepSys P) : KeepCore P :=
  ⟨fun s regs_ force_ scan_ live_ agreed_ heldLow_ kevtHeld_ vrecRead_ frozen_ ecc_ tlb_ tally_ admitted_ squashed_ keeperTrap_ msr_ lineRuns_ mix_ syncOut_ syncIn_ resp_ out_ fresh_ h => hK.other s regs_ force_ scan_ live_ agreed_ heldLow_ kevtHeld_ vrecRead_ frozen_ ecc_ tlb_ tally_ admitted_ squashed_ s.boot s.harts keeperTrap_ s.power s.sm s.mem msr_ s.nvm lineRuns_ mix_ syncOut_ syncIn_ resp_ out_ fresh_ h, hK.push, hK.pop⟩
theorem Keep.toKeepUnits {P : State → Prop} (hK : Keep P) : KeepUnits P :=
  ⟨fun s regs_ force_ scan_ live_ agreed_ heldLow_ kevtHeld_ vrecRead_ frozen_ ecc_ tlb_ tally_ pipes_ led_ queues_ admitted_ gpu_ dmCh_ dmEng_ squashed_ clearing_ keeperTrap_ msr_ panels_ lineRuns_ streams_ haps_ caps_ mix_ syncOut_ syncIn_ resp_ out_ fresh_ h => hK.other s regs_ force_ scan_ live_ agreed_ heldLow_ kevtHeld_ vrecRead_ frozen_ ecc_ tlb_ tally_ pipes_ led_ queues_ admitted_ gpu_ dmCh_ dmEng_ squashed_ clearing_ s.boot s.harts keeperTrap_ s.power s.sm s.mem msr_ s.nvm panels_ lineRuns_ streams_ haps_ caps_ mix_ syncOut_ syncIn_ resp_ out_ fresh_ h, hK.push, hK.pop⟩
theorem Keep.toKeepSys {P : State → Prop} (hK : Keep P) : KeepSys P :=
  ⟨fun s regs_ force_ scan_ live_ agreed_ heldLow_ kevtHeld_ vrecRead_ frozen_ ecc_ tlb_ tally_ admitted_ squashed_ boot_ harts_ keeperTrap_ power_ sm_ mem_ msr_ nvm_ lineRuns_ mix_ syncOut_ syncIn_ resp_ out_ fresh_ h => hK.other s regs_ force_ scan_ live_ agreed_ heldLow_ kevtHeld_ vrecRead_ frozen_ ecc_ tlb_ tally_ s.pipes s.led s.queues admitted_ s.gpu s.dmCh s.dmEng squashed_ s.clearing boot_ harts_ keeperTrap_ power_ sm_ mem_ msr_ nvm_ s.panels lineRuns_ s.streams s.haps s.caps mix_ syncOut_ syncIn_ resp_ out_ fresh_ h, hK.push, hK.pop⟩
theorem Keep.toKeepCore {P : State → Prop} (hK : Keep P) : KeepCore P := hK.toKeepUnits.toKeepCore

/-- What a property of states needs so that every command keeps it: it also survives bytes written or dropped, and a reset.
`f_stable` says, for each operation f, under which of these f keeps it. -/
structure Stable (P : State → Prop) : Prop extends Keep P where
  sramWrite : ∀ {s : State} (o : Nat) (b : List Byte), P s → P (s.sramWrite o b)
  dramWrite : ∀ {s : State} (o : Nat) (b : List Byte), P s → P (s.dramWrite o b)
  envWrite : ∀ {s : State} (o : Nat) (b : List Byte), P s → P (s.envWrite o b)
  sramKeep : ∀ (s : State) (f : Nat → Bool), P s → P (s.sramKeep f)
  dramKeep : ∀ (s : State) (f : Nat → Bool), P s → P (s.dramKeep f)
  envKeep : ∀ (s : State) (f : Nat → Bool), P s → P (s.envKeep f)
  lost : ∀ {s t : State}, t.pending = s.pending → (t.kevq = s.kevq ∨ t.kevq = []) → (t.sram = s.sram ∨ t.sram = []) →
    (t.dram = s.dram ∨ t.dram = []) → t.env = s.env → P s → P t

theorem fst_stable {P : State → Prop} {α : Type} {x : State × α} {s : State} {r : α} (e : x = (s, r)) (h : P x.1) : P s := by rw [e] at h; exact h
theorem ite_stable {P : State → Prop} {p : Prop} [Decidable p] {s t : State} (hs : P s) (ht : P t) : P (if p then s else t) := by
  split <;> assumption
theorem ite_fst_stable {P : State → Prop} {α : Type} {p : Prop} [Decidable p] {s t : State × α} (hs : P s.1) (ht : P t.1) :
    P (if p then s else t).1 := by
  split <;> assumption
theorem foldl_stable {P : State → Prop} {β : Type} {f : State → β → State} {l : List β} {s : State} (hs : P s) (hf : ∀ s b, P s → P (f s b)) :
    P (l.foldl f s) := by
  induction l generalizing s with
  | nil => exact hs
  | cons x l ih => exact ih (hf s x hs)
theorem foldl_fst_stable {P : State → Prop} {β γ : Type} {f : State × γ → β → State × γ} {l : List β} {s : State × γ} (hs : P s.1)
    (hf : ∀ s b, P s.1 → P (f s b).1) : P (l.foldl f s).1 := by
  induction l generalizing s with
  | nil => exact hs
  | cons x l ih => exact ih (hf s x hs)
theorem overN_stable {P : State → Prop} {n : Nat} {f : Nat → State → State} {s : State} (hs : P s) (hf : ∀ i s, P s → P (f i s)) : P (overN n f s) :=
  foldl_stable hs (fun s b => hf b s)

end Sys2Proof.Machine
end

