-- ==== Sys2Proof/Laws/StableCore.lean ====
section
/-! SUPPORT. Laws/StableCore.lean: every operation keeps a stable property: the shared operations, memories, the gate, rails, tallies. -/
set_option linter.all false
namespace Sys2Proof.Machine

/-! ### Machine/Ops.lean -/

theorem State.setRw_stable {P : State → Prop} (hK : KeepCore P) (s : State) (a : Nat) (w : W64) (hsK : P s) : P (State.setRw s a w) := by
  unfold State.setRw
  repeat' first
    | with_reducible assumption | (with_reducible refine fst_stable (by assumption) ?_) | (intro _ _ _) | (intro _ _)
    | with_reducible apply foldl_stable | with_reducible apply foldl_fst_stable | with_reducible apply overN_stable | extract_lets
    | with_reducible apply ite_stable | with_reducible apply ite_fst_stable | split | fail_if_no_progress (with_reducible apply KeepCore.other hK)
    | (dsimp +zetaDelta only)
theorem State.setFrw_stable {P : State → Prop} (hK : KeepCore P) (s : State) (a : Nat) (w : W64) (hsK : P s) : P (State.setFrw s a w) := by
  unfold State.setFrw
  repeat' first
    | with_reducible assumption | (with_reducible refine fst_stable (by assumption) ?_) | (intro _ _ _) | (intro _ _)
    | with_reducible apply foldl_stable | with_reducible apply foldl_fst_stable | with_reducible apply overN_stable | extract_lets
    | with_reducible apply ite_stable | with_reducible apply ite_fst_stable | split | fail_if_no_progress (with_reducible apply KeepCore.other hK)
    | (dsimp +zetaDelta only)
theorem State.wr_stable {P : State → Prop} (hK : KeepCore P) (s : State) (a : Nat) (f : Fld) (v : Nat) (hsK : P s) : P (State.wr s a f v) := by
  unfold State.wr
  repeat' first
    | with_reducible assumption | (with_reducible refine fst_stable (by assumption) ?_) | with_reducible apply State.setRw_stable hK
    | (intro _ _ _) | (intro _ _) | with_reducible apply foldl_stable | with_reducible apply foldl_fst_stable | with_reducible apply overN_stable
    | extract_lets | with_reducible apply ite_stable | with_reducible apply ite_fst_stable | split
    | fail_if_no_progress (with_reducible apply KeepCore.other hK) | (dsimp +zetaDelta only)
theorem State.fwr_stable {P : State → Prop} (hK : KeepCore P) (s : State) (a : Nat) (f : Fld) (v : Nat) (hsK : P s) : P (State.fwr s a f v) := by
  unfold State.fwr
  repeat' first
    | with_reducible assumption | (with_reducible refine fst_stable (by assumption) ?_) | with_reducible apply State.setFrw_stable hK
    | (intro _ _ _) | (intro _ _) | with_reducible apply foldl_stable | with_reducible apply foldl_fst_stable | with_reducible apply overN_stable
    | extract_lets | with_reducible apply ite_stable | with_reducible apply ite_fst_stable | split
    | fail_if_no_progress (with_reducible apply KeepCore.other hK) | (dsimp +zetaDelta only)
theorem State.setSrw_stable {P : State → Prop} (hK : KeepCore P) (s : State) (a : Nat) (w : W64) (hsK : P s) : P (State.setSrw s a w) := by
  unfold State.setSrw
  repeat' first
    | with_reducible assumption | (with_reducible refine fst_stable (by assumption) ?_) | (intro _ _ _) | (intro _ _)
    | with_reducible apply foldl_stable | with_reducible apply foldl_fst_stable | with_reducible apply overN_stable | extract_lets
    | with_reducible apply ite_stable | with_reducible apply ite_fst_stable | split | fail_if_no_progress (with_reducible apply KeepCore.other hK)
    | (dsimp +zetaDelta only)
theorem State.latch_stable {P : State → Prop} (hK : KeepCore P) (s : State) (a : Nat) (hsK : P s) : P (State.latch s a) := by
  unfold State.latch
  repeat' first
    | with_reducible assumption | (with_reducible refine fst_stable (by assumption) ?_) | with_reducible apply State.setFrw_stable hK
    | (intro _ _ _) | (intro _ _) | with_reducible apply foldl_stable | with_reducible apply foldl_fst_stable | with_reducible apply overN_stable
    | extract_lets | with_reducible apply ite_stable | with_reducible apply ite_fst_stable | split
    | fail_if_no_progress (with_reducible apply KeepCore.other hK) | (dsimp +zetaDelta only)
theorem State.setLv_stable {P : State → Prop} (hK : KeepCore P) (s : State) (a : Nat) (w : W64) (hsK : P s) : P (State.setLv s a w) := by
  unfold State.setLv
  repeat' first
    | with_reducible assumption | (with_reducible refine fst_stable (by assumption) ?_) | (intro _ _ _) | (intro _ _)
    | with_reducible apply foldl_stable | with_reducible apply foldl_fst_stable | with_reducible apply overN_stable | extract_lets
    | with_reducible apply ite_stable | with_reducible apply ite_fst_stable | split | fail_if_no_progress (with_reducible apply KeepCore.other hK)
    | (dsimp +zetaDelta only)
theorem State.emit_stable {P : State → Prop} (hK : KeepCore P) (s : State) (o : Out) (hsK : P s) : P (State.emit s o) := by
  unfold State.emit
  repeat' first
    | with_reducible assumption | (with_reducible refine fst_stable (by assumption) ?_) | (intro _ _ _) | (intro _ _)
    | with_reducible apply foldl_stable | with_reducible apply foldl_fst_stable | with_reducible apply overN_stable | extract_lets
    | with_reducible apply ite_stable | with_reducible apply ite_fst_stable | split | fail_if_no_progress (with_reducible apply KeepCore.other hK)
    | (dsimp +zetaDelta only)
theorem State.bumpEv_stable {P : State → Prop} (hK : KeepCore P) (s : State) (a k : Nat) (hsK : P s) : P (State.bumpEv s a k) := by
  unfold State.bumpEv
  repeat' first
    | with_reducible assumption | (with_reducible refine fst_stable (by assumption) ?_) | with_reducible apply State.setLv_stable hK
    | (intro _ _ _) | (intro _ _) | with_reducible apply foldl_stable | with_reducible apply foldl_fst_stable | with_reducible apply overN_stable
    | extract_lets | with_reducible apply ite_stable | with_reducible apply ite_fst_stable | split
    | fail_if_no_progress (with_reducible apply KeepCore.other hK) | (dsimp +zetaDelta only)
theorem State.bumpErr_stable {P : State → Prop} (hK : KeepCore P) (s : State) (a : Nat) (hsK : P s) : P (State.bumpErr s a) := by
  unfold State.bumpErr
  repeat' first
    | with_reducible assumption | (with_reducible refine fst_stable (by assumption) ?_) | with_reducible apply State.setLv_stable hK
    | with_reducible apply State.emit_stable hK | (intro _ _ _) | (intro _ _) | with_reducible apply foldl_stable
    | with_reducible apply foldl_fst_stable | with_reducible apply overN_stable | extract_lets | with_reducible apply ite_stable
    | with_reducible apply ite_fst_stable | split | fail_if_no_progress (with_reducible apply KeepCore.other hK) | (dsimp +zetaDelta only)
theorem State.bumpErrN_stable {P : State → Prop} (hK : KeepCore P) (s : State) (a : Nat) (y0 : Nat) (hsK : P s) : P (State.bumpErrN s a y0) := by
  induction y0 generalizing s a with
  | zero =>
    unfold State.bumpErrN
    repeat' first
      | with_reducible assumption | (with_reducible refine fst_stable (by assumption) ?_) | with_reducible apply State.bumpErr_stable hK
      | (intro _ _ _) | (intro _ _) | with_reducible apply foldl_stable | with_reducible apply foldl_fst_stable | with_reducible apply overN_stable
      | extract_lets | with_reducible apply ite_stable | with_reducible apply ite_fst_stable | split
      | fail_if_no_progress (with_reducible apply KeepCore.other hK) | (dsimp +zetaDelta only)
  | succ nK ihK =>
    unfold State.bumpErrN
    repeat' first
      | with_reducible assumption | (with_reducible refine fst_stable (by assumption) ?_) | with_reducible apply State.bumpErr_stable hK
      | (intro _ _ _) | (intro _ _) | with_reducible apply ihK | with_reducible apply foldl_stable | with_reducible apply foldl_fst_stable
      | with_reducible apply overN_stable | extract_lets | with_reducible apply ite_stable | with_reducible apply ite_fst_stable | split
      | fail_if_no_progress (with_reducible apply KeepCore.other hK) | (dsimp +zetaDelta only)
theorem State.bumpFrame_stable {P : State → Prop} (hK : KeepCore P) (s : State) (a : Nat) (hsK : P s) : P (State.bumpFrame s a) := by
  unfold State.bumpFrame
  repeat' first
    | with_reducible assumption | (with_reducible refine fst_stable (by assumption) ?_) | with_reducible apply State.bumpEv_stable hK
    | (intro _ _ _) | (intro _ _) | with_reducible apply foldl_stable | with_reducible apply foldl_fst_stable | with_reducible apply overN_stable
    | extract_lets | with_reducible apply ite_stable | with_reducible apply ite_fst_stable | split
    | fail_if_no_progress (with_reducible apply KeepCore.other hK) | (dsimp +zetaDelta only)
theorem State.clearCnt_stable {P : State → Prop} (hK : KeepCore P) (s : State) (a : Nat) (hsK : P s) : P (State.clearCnt s a) := by
  unfold State.clearCnt
  repeat' first
    | with_reducible assumption | (with_reducible refine fst_stable (by assumption) ?_) | with_reducible apply State.setLv_stable hK
    | (intro _ _ _) | (intro _ _) | with_reducible apply foldl_stable | with_reducible apply foldl_fst_stable | with_reducible apply overN_stable
    | extract_lets | with_reducible apply ite_stable | with_reducible apply ite_fst_stable | split
    | fail_if_no_progress (with_reducible apply KeepCore.other hK) | (dsimp +zetaDelta only)
theorem State.useFree_stable {P : State → Prop} (hK : KeepCore P) (s : State) (hsK : P s) : P (State.useFree s) := by
  unfold State.useFree
  repeat' first
    | with_reducible assumption | (with_reducible refine fst_stable (by assumption) ?_) | (intro _ _ _) | (intro _ _)
    | with_reducible apply foldl_stable | with_reducible apply foldl_fst_stable | with_reducible apply overN_stable | extract_lets
    | with_reducible apply ite_stable | with_reducible apply ite_fst_stable | split | fail_if_no_progress (with_reducible apply KeepCore.other hK)
    | (dsimp +zetaDelta only)
theorem State.useFreeN_stable {P : State → Prop} (hK : KeepCore P) (s : State) (n : Nat) (hsK : P s) : P (State.useFreeN s n) := by
  unfold State.useFreeN
  repeat' first
    | with_reducible assumption | (with_reducible refine fst_stable (by assumption) ?_) | (intro _ _ _) | (intro _ _)
    | with_reducible apply foldl_stable | with_reducible apply foldl_fst_stable | with_reducible apply overN_stable | extract_lets
    | with_reducible apply ite_stable | with_reducible apply ite_fst_stable | split | fail_if_no_progress (with_reducible apply KeepCore.other hK)
    | (dsimp +zetaDelta only)
theorem State.begin_stable {P : State → Prop} (hK : KeepCore P) (s : State) (hsK : P s) : P (State.begin s) := by
  unfold State.begin
  repeat' first
    | with_reducible assumption | (with_reducible refine fst_stable (by assumption) ?_) | (intro _ _ _) | (intro _ _)
    | with_reducible apply foldl_stable | with_reducible apply foldl_fst_stable | with_reducible apply overN_stable | extract_lets
    | with_reducible apply ite_stable | with_reducible apply ite_fst_stable | split | fail_if_no_progress (with_reducible apply KeepCore.other hK)
    | (dsimp +zetaDelta only)
theorem State.answer_stable {P : State → Prop} (hK : KeepCore P) (s : State) (r : Resp) (hsK : P s) : P (State.answer s r) := by
  unfold State.answer
  repeat' first
    | with_reducible assumption | (with_reducible refine fst_stable (by assumption) ?_) | (intro _ _ _) | (intro _ _)
    | with_reducible apply foldl_stable | with_reducible apply foldl_fst_stable | with_reducible apply overN_stable | extract_lets
    | with_reducible apply ite_stable | with_reducible apply ite_fst_stable | split | fail_if_no_progress (with_reducible apply KeepCore.other hK)
    | (dsimp +zetaDelta only)
theorem State.refuse_stable {P : State → Prop} (hK : KeepCore P) (s : State) (a : Nat) (hsK : P s) : P (State.refuse s a) := by
  unfold State.refuse
  repeat' first
    | with_reducible assumption | (with_reducible refine fst_stable (by assumption) ?_) | with_reducible apply State.wr_stable hK
    | with_reducible apply State.bumpErr_stable hK | with_reducible apply State.answer_stable hK | (intro _ _ _) | (intro _ _)
    | with_reducible apply foldl_stable | with_reducible apply foldl_fst_stable | with_reducible apply overN_stable | extract_lets
    | with_reducible apply ite_stable | with_reducible apply ite_fst_stable | split | fail_if_no_progress (with_reducible apply KeepCore.other hK)
    | (dsimp +zetaDelta only)
theorem State.refuseOff_stable {P : State → Prop} (hK : KeepCore P) (s : State) (a : Nat) (write : Bool) (hsK : P s) :
    P (State.refuseOff s a write) := by
  unfold State.refuseOff
  repeat' first
    | with_reducible assumption | (with_reducible refine fst_stable (by assumption) ?_) | with_reducible apply State.bumpErr_stable hK
    | with_reducible apply State.answer_stable hK | (intro _ _ _) | (intro _ _) | with_reducible apply foldl_stable
    | with_reducible apply foldl_fst_stable | with_reducible apply overN_stable | extract_lets | with_reducible apply ite_stable
    | with_reducible apply ite_fst_stable | split | fail_if_no_progress (with_reducible apply KeepCore.other hK) | (dsimp +zetaDelta only)
theorem State.kevt_stable {P : State → Prop} (h : KeepCore P) (s : State) (blk code inst info : Nat) (hs : P s) :
    P (s.kevt blk code inst info) := by
  unfold State.kevt
  split
  · exact State.wr_stable h _ _ _ _ (h.push _ (by assumption) hs)
  · exact State.bumpErr_stable h _ _ hs
theorem State.toDstate_stable {P : State → Prop} (hK : KeepCore P) (s : State) (k : Nat) (hsK : P s) : P (State.toDstate s k) := by
  unfold State.toDstate
  repeat' first
    | with_reducible assumption | (with_reducible refine fst_stable (by assumption) ?_) | with_reducible apply State.wr_stable hK
    | with_reducible apply State.kevt_stable hK | (intro _ _ _) | (intro _ _) | with_reducible apply foldl_stable
    | with_reducible apply foldl_fst_stable | with_reducible apply overN_stable | extract_lets | with_reducible apply ite_stable
    | with_reducible apply ite_fst_stable | split | fail_if_no_progress (with_reducible apply KeepCore.other hK) | (dsimp +zetaDelta only)
theorem State.setFnCfg_stable {P : State → Prop} (hK : KeepSys P) (s : State) (ep fn : Nat) (c : FnCfg) (hsK : P s) :
    P (State.setFnCfg s ep fn c) := by
  unfold State.setFnCfg
  repeat' first
    | with_reducible assumption | (with_reducible refine fst_stable (by assumption) ?_) | (intro _ _ _) | (intro _ _)
    | with_reducible apply foldl_stable | with_reducible apply foldl_fst_stable | with_reducible apply overN_stable | extract_lets
    | with_reducible apply ite_stable | with_reducible apply ite_fst_stable | split | fail_if_no_progress (with_reducible apply KeepSys.other hK)
    | (dsimp +zetaDelta only)
theorem State.sendMsix_stable {P : State → Prop} (hK : KeepCore P) (s : State) (st v : Nat) (hsK : P s) : P (State.sendMsix s st v) := by
  unfold State.sendMsix
  repeat' first
    | with_reducible assumption | (with_reducible refine fst_stable (by assumption) ?_) | with_reducible apply State.setRw_stable hK
    | with_reducible apply State.emit_stable hK | (intro _ _ _) | (intro _ _) | with_reducible apply foldl_stable
    | with_reducible apply foldl_fst_stable | with_reducible apply overN_stable | extract_lets | with_reducible apply ite_stable
    | with_reducible apply ite_fst_stable | split | fail_if_no_progress (with_reducible apply KeepCore.other hK) | (dsimp +zetaDelta only)
theorem State.irq_stable {P : State → Prop} (hK : KeepCore P) (s : State) (st src : Nat) (hsK : P s) : P (State.irq s st src) := by
  unfold State.irq
  repeat' first
    | with_reducible assumption | (with_reducible refine fst_stable (by assumption) ?_) | with_reducible apply State.setRw_stable hK
    | with_reducible apply State.sendMsix_stable hK | (intro _ _ _) | (intro _ _) | with_reducible apply foldl_stable
    | with_reducible apply foldl_fst_stable | with_reducible apply overN_stable | extract_lets | with_reducible apply ite_stable
    | with_reducible apply ite_fst_stable | split | fail_if_no_progress (with_reducible apply KeepCore.other hK) | (dsimp +zetaDelta only)
theorem State.toStall_stable {P : State → Prop} (hK : KeepCore P) (s : State) (st k : Nat) (hsK : P s) : P (State.toStall s st k) := by
  unfold State.toStall
  repeat' first
    | with_reducible assumption | (with_reducible refine fst_stable (by assumption) ?_) | with_reducible apply State.wr_stable hK
    | with_reducible apply State.irq_stable hK | (intro _ _ _) | (intro _ _) | with_reducible apply foldl_stable
    | with_reducible apply foldl_fst_stable | with_reducible apply overN_stable | extract_lets | with_reducible apply ite_stable
    | with_reducible apply ite_fst_stable | split | fail_if_no_progress (with_reducible apply KeepCore.other hK) | (dsimp +zetaDelta only)
theorem State.violate_stable {P : State → Prop} (hK : KeepCore P) (s : State) (st master reason inst : Nat) (addr : Nat) (write : Bool) (hsK : P s) :
    P (State.violate s st master reason inst addr write) := by
  unfold State.violate
  repeat' first
    | with_reducible assumption | (with_reducible refine fst_stable (by assumption) ?_) | with_reducible apply State.wr_stable hK
    | with_reducible apply State.bumpErr_stable hK | with_reducible apply State.irq_stable hK | (intro _ _ _) | (intro _ _)
    | with_reducible apply foldl_stable | with_reducible apply foldl_fst_stable | with_reducible apply overN_stable | extract_lets
    | with_reducible apply ite_stable | with_reducible apply ite_fst_stable | split | fail_if_no_progress (with_reducible apply KeepCore.other hK)
    | (dsimp +zetaDelta only)
theorem State.modQueue_stable {P : State → Prop} (hK : KeepUnits P) (s : State) (q : Nat) (f : QueueSt → QueueSt) (hsK : P s) :
    P (State.modQueue s q f) := by
  unfold State.modQueue
  repeat' first
    | with_reducible assumption | (with_reducible refine fst_stable (by assumption) ?_) | (intro _ _ _) | (intro _ _)
    | with_reducible apply foldl_stable | with_reducible apply foldl_fst_stable | with_reducible apply overN_stable | extract_lets
    | with_reducible apply ite_stable | with_reducible apply ite_fst_stable | split | fail_if_no_progress (with_reducible apply KeepUnits.other hK)
    | (dsimp +zetaDelta only)
theorem State.hartViolate_stable {P : State → Prop} (hK : KeepCore P) (s : State) (h kind : Nat) (addr : Nat) (write fetch : Bool) (hsK : P s) :
    P (State.hartViolate s h kind addr write fetch) := by
  unfold State.hartViolate
  repeat' first
    | with_reducible assumption | (with_reducible refine fst_stable (by assumption) ?_) | with_reducible apply State.wr_stable hK
    | with_reducible apply State.bumpErr_stable hK | with_reducible apply State.kevt_stable hK | (intro _ _ _) | (intro _ _)
    | with_reducible apply foldl_stable | with_reducible apply foldl_fst_stable | with_reducible apply overN_stable | extract_lets
    | with_reducible apply ite_stable | with_reducible apply ite_fst_stable | split | fail_if_no_progress (with_reducible apply KeepCore.other hK)
    | (dsimp +zetaDelta only)
theorem State.sramWrite_stable {P : State → Prop} (h : Stable P) (s : State) (o : Nat) (b : List Byte) (hs : P s) :
    P (s.sramWrite o b) := h.sramWrite o b hs
theorem State.dramWrite_stable {P : State → Prop} (h : Stable P) (s : State) (o : Nat) (b : List Byte) (hs : P s) :
    P (s.dramWrite o b) := h.dramWrite o b hs
theorem State.envWrite_stable {P : State → Prop} (h : Stable P) (s : State) (o : Nat) (b : List Byte) (hs : P s) :
    P (s.envWrite o b) := h.envWrite o b hs
theorem State.sramKeep_stable {P : State → Prop} (h : Stable P) (s : State) (f : Nat → Bool) (hs : P s) : P (s.sramKeep f) := h.sramKeep s f hs
theorem State.dramKeep_stable {P : State → Prop} (h : Stable P) (s : State) (f : Nat → Bool) (hs : P s) : P (s.dramKeep f) := h.dramKeep s f hs
theorem State.envKeep_stable {P : State → Prop} (h : Stable P) (s : State) (f : Nat → Bool) (hs : P s) : P (s.envKeep f) := h.envKeep s f hs
theorem State.guard_stable {P : State → Prop} (hK : KeepCore P) (s : State) (b : Bool) (f : State → State) (hf : ∀ x0, P x0 → P (f x0)) (hsK : P s) :
    P (State.guard s b f) := by
  unfold State.guard
  repeat' first
    | with_reducible assumption | (with_reducible refine fst_stable (by assumption) ?_) | with_reducible apply hf | (intro _ _ _)
    | (intro _ _) | with_reducible apply foldl_stable | with_reducible apply foldl_fst_stable | with_reducible apply overN_stable | extract_lets
    | with_reducible apply ite_stable | with_reducible apply ite_fst_stable | split | fail_if_no_progress (with_reducible apply KeepCore.other hK)
    | (dsimp +zetaDelta only)

/-! ### Machine/Bus.lean -/

theorem State.showIrq_stable {P : State → Prop} (hK : KeepCore P) (s old : State) (id : Nat) (hsK : P s) : P (State.showIrq s old id) := by
  unfold State.showIrq
  repeat' first
    | with_reducible assumption | (with_reducible refine fst_stable (by assumption) ?_) | with_reducible apply State.emit_stable hK
    | (intro _ _ _) | (intro _ _) | with_reducible apply foldl_stable | with_reducible apply foldl_fst_stable | with_reducible apply overN_stable
    | extract_lets | with_reducible apply ite_stable | with_reducible apply ite_fst_stable | split
    | fail_if_no_progress (with_reducible apply KeepCore.other hK) | (dsimp +zetaDelta only)
theorem State.accessViolation_stable {P : State → Prop} (hK : KeepCore P) (s : State) (who : Who) (kind reason a : Nat) (write fetch : Bool) (hsK : P s) :
    P (State.accessViolation s who kind reason a write fetch) := by
  unfold State.accessViolation
  repeat' first
    | with_reducible assumption | (with_reducible refine fst_stable (by assumption) ?_) | with_reducible apply State.answer_stable hK
    | with_reducible apply State.violate_stable hK | with_reducible apply State.hartViolate_stable hK | (intro _ _ _) | (intro _ _)
    | with_reducible apply foldl_stable | with_reducible apply foldl_fst_stable | with_reducible apply overN_stable | extract_lets
    | with_reducible apply ite_stable | with_reducible apply ite_fst_stable | split | fail_if_no_progress (with_reducible apply KeepCore.other hK)
    | (dsimp +zetaDelta only)
theorem State.access_stable {P : State → Prop} (hK : KeepCore P) (s : State) (who : Who) (a : Nat) (write : Bool) (k : State → State) (hk : ∀ x0, P x0 → P (k x0)) (hsK : P s) :
    P (State.access s who a write k) := by
  unfold State.access
  repeat' first
    | with_reducible assumption | (with_reducible refine fst_stable (by assumption) ?_) | with_reducible apply State.bumpErr_stable hK
    | with_reducible apply State.answer_stable hK | with_reducible apply State.refuse_stable hK | with_reducible apply State.refuseOff_stable hK
    | with_reducible apply State.kevt_stable hK | with_reducible apply State.accessViolation_stable hK | with_reducible apply hk | (intro _ _ _)
    | (intro _ _) | with_reducible apply foldl_stable | with_reducible apply foldl_fst_stable | with_reducible apply overN_stable | extract_lets
    | with_reducible apply ite_stable | with_reducible apply ite_fst_stable | split | fail_if_no_progress (with_reducible apply KeepCore.other hK)
    | (dsimp +zetaDelta only)
theorem State.write_stable {P : State → Prop} (hK : KeepCore P) (s : State) (who : Who) (a : Nat) (k : State → State) (hk : ∀ x0, P x0 → P (k x0)) (hsK : P s) :
    P (State.write s who a k) := by
  unfold State.write
  repeat' first
    | with_reducible assumption | (with_reducible refine fst_stable (by assumption) ?_) | with_reducible apply State.access_stable hK
    | with_reducible apply hk | (intro _ _ _) | (intro _ _) | with_reducible apply foldl_stable | with_reducible apply foldl_fst_stable
    | with_reducible apply overN_stable | extract_lets | with_reducible apply ite_stable | with_reducible apply ite_fst_stable | split
    | fail_if_no_progress (with_reducible apply KeepCore.other hK) | (dsimp +zetaDelta only)
theorem State.settingWrite_stable {P : State → Prop} (hK : KeepCore P) (s : State) (a : Nat) (w : W64) (stopped locked : Bool) (hsK : P s) :
    P (State.settingWrite s a w stopped locked) := by
  unfold State.settingWrite
  repeat' first
    | with_reducible assumption | (with_reducible refine fst_stable (by assumption) ?_) | with_reducible apply State.setRw_stable hK
    | with_reducible apply State.answer_stable hK | with_reducible apply State.refuse_stable hK | (intro _ _ _) | (intro _ _)
    | with_reducible apply foldl_stable | with_reducible apply foldl_fst_stable | with_reducible apply overN_stable | extract_lets
    | with_reducible apply ite_stable | with_reducible apply ite_fst_stable | split | fail_if_no_progress (with_reducible apply KeepCore.other hK)
    | (dsimp +zetaDelta only)
theorem State.readReg_stable {P : State → Prop} (hK : KeepCore P) (s : State) (a : Nat) (stale : Bool) (hsK : P s) :
    P (State.readReg s a stale) := by
  unfold State.readReg
  repeat' first
    | with_reducible assumption | (with_reducible refine fst_stable (by assumption) ?_) | with_reducible apply State.bumpErr_stable hK
    | with_reducible apply State.answer_stable hK | (intro _ _ _) | (intro _ _) | with_reducible apply foldl_stable
    | with_reducible apply foldl_fst_stable | with_reducible apply overN_stable | extract_lets | with_reducible apply ite_stable
    | with_reducible apply ite_fst_stable | split | fail_if_no_progress (with_reducible apply KeepCore.other hK) | (dsimp +zetaDelta only)

/-! ### Machine/Memory.lean -/

theorem State.setEcc_stable {P : State → Prop} (hK : KeepCore P) (s : State) (k v : Nat) (hsK : P s) : P (State.setEcc s k v) := by
  unfold State.setEcc
  repeat' first
    | with_reducible assumption | (with_reducible refine fst_stable (by assumption) ?_) | (intro _ _ _) | (intro _ _)
    | with_reducible apply foldl_stable | with_reducible apply foldl_fst_stable | with_reducible apply overN_stable | extract_lets
    | with_reducible apply ite_stable | with_reducible apply ite_fst_stable | split | fail_if_no_progress (with_reducible apply KeepCore.other hK)
    | (dsimp +zetaDelta only)
theorem State.upset_stable {P : State → Prop} (hK : KeepCore P) (s : State) (l : List (BitVec 36 × Bool)) (hsK : P s) : P (State.upset s l) := by
  unfold State.upset
  repeat' first
    | with_reducible assumption | (with_reducible refine fst_stable (by assumption) ?_) | with_reducible apply State.setEcc_stable hK
    | (intro _ _ _) | (intro _ _) | with_reducible apply foldl_stable | with_reducible apply foldl_fst_stable | with_reducible apply overN_stable
    | extract_lets | with_reducible apply ite_stable | with_reducible apply ite_fst_stable | split
    | fail_if_no_progress (with_reducible apply KeepCore.other hK) | (dsimp +zetaDelta only)
theorem State.modSub_stable {P : State → Prop} (hK : KeepSys P) (s : State) (ch sc : Nat) (f : SubSt → SubSt) (hsK : P s) :
    P (State.modSub s ch sc f) := by
  unfold State.modSub
  repeat' first
    | with_reducible assumption | (with_reducible refine fst_stable (by assumption) ?_) | (intro _ _ _) | (intro _ _)
    | with_reducible apply foldl_stable | with_reducible apply foldl_fst_stable | with_reducible apply overN_stable | extract_lets
    | with_reducible apply ite_stable | with_reducible apply ite_fst_stable | split | fail_if_no_progress (with_reducible apply KeepSys.other hK)
    | (dsimp +zetaDelta only)
theorem State.updateDrain_stable {P : State → Prop} (hK : KeepSys P) (s : State) (ch sc : Nat) (hsK : P s) : P (State.updateDrain s ch sc) := by
  unfold State.updateDrain
  repeat' first
    | with_reducible assumption | (with_reducible refine fst_stable (by assumption) ?_) | with_reducible apply State.modSub_stable hK
    | (intro _ _ _) | (intro _ _) | with_reducible apply foldl_stable | with_reducible apply foldl_fst_stable | with_reducible apply overN_stable
    | extract_lets | with_reducible apply ite_stable | with_reducible apply ite_fst_stable | split
    | fail_if_no_progress (with_reducible apply KeepSys.other hK) | (dsimp +zetaDelta only)
theorem State.fillFixes_stable {P : State → Prop} (hK : KeepSys P) (s : State) (ch sc : Nat) (hsK : P s) : P (State.fillFixes s ch sc) := by
  unfold State.fillFixes
  repeat' first
    | with_reducible assumption | (with_reducible refine fst_stable (by assumption) ?_) | with_reducible apply State.write_stable hK.toKeepCore
    | with_reducible apply State.modSub_stable hK | with_reducible apply State.updateDrain_stable hK | (intro _ _ _) | (intro _ _)
    | with_reducible apply foldl_stable | with_reducible apply foldl_fst_stable | with_reducible apply overN_stable | extract_lets
    | with_reducible apply ite_stable | with_reducible apply ite_fst_stable | split | fail_if_no_progress (with_reducible apply KeepSys.other hK)
    | (dsimp +zetaDelta only)
theorem State.queueFix_stable {P : State → Prop} (hK : KeepSys P) (s : State) (k : Nat) (hsK : P s) : P (State.queueFix s k) := by
  unfold State.queueFix
  repeat' first
    | with_reducible assumption | (with_reducible refine fst_stable (by assumption) ?_) | with_reducible apply State.modSub_stable hK
    | with_reducible apply State.fillFixes_stable hK | (intro _ _ _) | (intro _ _) | with_reducible apply foldl_stable
    | with_reducible apply foldl_fst_stable | with_reducible apply overN_stable | extract_lets | with_reducible apply ite_stable
    | with_reducible apply ite_fst_stable | split | fail_if_no_progress (with_reducible apply KeepSys.other hK) | (dsimp +zetaDelta only)
theorem State.countCe_stable {P : State → Prop} (hK : KeepCore P) (s : State) (k : Nat) (hsK : P s) : P (State.countCe s k) := by
  unfold State.countCe
  repeat' first
    | with_reducible assumption | (with_reducible refine fst_stable (by assumption) ?_) | with_reducible apply State.bumpErr_stable hK
    | (intro _ _ _) | (intro _ _) | with_reducible apply foldl_stable | with_reducible apply foldl_fst_stable | with_reducible apply overN_stable
    | extract_lets | with_reducible apply ite_stable | with_reducible apply ite_fst_stable | split
    | fail_if_no_progress (with_reducible apply KeepCore.other hK) | (dsimp +zetaDelta only)
theorem State.correctWord_stable {P : State → Prop} (hK : KeepSys P) (s : State) (k : Nat) (hsK : P s) : P (State.correctWord s k) := by
  unfold State.correctWord
  repeat' first
    | with_reducible assumption | (with_reducible refine fst_stable (by assumption) ?_) | with_reducible apply State.setEcc_stable hK.toKeepCore
    | with_reducible apply State.queueFix_stable hK | with_reducible apply State.countCe_stable hK.toKeepCore | (intro _ _ _) | (intro _ _)
    | with_reducible apply foldl_stable | with_reducible apply foldl_fst_stable | with_reducible apply overN_stable | extract_lets
    | with_reducible apply ite_stable | with_reducible apply ite_fst_stable | split | fail_if_no_progress (with_reducible apply KeepSys.other hK)
    | (dsimp +zetaDelta only)
theorem State.reportUe_stable {P : State → Prop} (hK : KeepCore P) (s : State) (k : Nat) (hsK : P s) : P (State.reportUe s k) := by
  unfold State.reportUe
  repeat' first
    | with_reducible assumption | (with_reducible refine fst_stable (by assumption) ?_) | with_reducible apply State.wr_stable hK
    | with_reducible apply State.bumpErr_stable hK | with_reducible apply State.kevt_stable hK | (intro _ _ _) | (intro _ _)
    | with_reducible apply foldl_stable | with_reducible apply foldl_fst_stable | with_reducible apply overN_stable | extract_lets
    | with_reducible apply ite_stable | with_reducible apply ite_fst_stable | split | fail_if_no_progress (with_reducible apply KeepCore.other hK)
    | (dsimp +zetaDelta only)
theorem State.countWords_stable {P : State → Prop} (hK : KeepCore P) (s : State) (ks : List Nat) (hsK : P s) : P (State.countWords s ks) := by
  unfold State.countWords
  repeat' first
    | with_reducible assumption | (with_reducible refine fst_stable (by assumption) ?_) | with_reducible apply State.countCe_stable hK
    | with_reducible apply State.reportUe_stable hK | (intro _ _ _) | (intro _ _) | with_reducible apply foldl_stable
    | with_reducible apply foldl_fst_stable | with_reducible apply overN_stable | extract_lets | with_reducible apply ite_stable
    | with_reducible apply ite_fst_stable | split | fail_if_no_progress (with_reducible apply KeepCore.other hK) | (dsimp +zetaDelta only)
theorem State.touchWords_stable {P : State → Prop} (hK : KeepSys P) (s : State) (ks : List Nat) (hsK : P s) : P (State.touchWords s ks) := by
  unfold State.touchWords
  repeat' first
    | with_reducible assumption | (with_reducible refine fst_stable (by assumption) ?_) | with_reducible apply State.correctWord_stable hK
    | with_reducible apply State.reportUe_stable hK.toKeepCore | (intro _ _ _) | (intro _ _) | with_reducible apply foldl_stable
    | with_reducible apply foldl_fst_stable | with_reducible apply overN_stable | extract_lets | with_reducible apply ite_stable
    | with_reducible apply ite_fst_stable | split | fail_if_no_progress (with_reducible apply KeepSys.other hK) | (dsimp +zetaDelta only)
theorem State.scrubBlock_stable {P : State → Prop} (hK : KeepSys P) (s : State) (a : Nat) (hsK : P s) : P (State.scrubBlock s a) := by
  unfold State.scrubBlock
  repeat' first
    | with_reducible assumption | (with_reducible refine fst_stable (by assumption) ?_) | with_reducible apply State.countWords_stable hK.toKeepCore
    | with_reducible apply State.touchWords_stable hK | (intro _ _ _) | (intro _ _) | with_reducible apply foldl_stable
    | with_reducible apply foldl_fst_stable | with_reducible apply overN_stable | extract_lets | with_reducible apply ite_stable
    | with_reducible apply ite_fst_stable | split | fail_if_no_progress (with_reducible apply KeepSys.other hK) | (dsimp +zetaDelta only)
theorem State.setOwnSram_stable {P : State → Prop} (hK : KeepCore P) (s : State) (g v : Nat) (hsK : P s) : P (State.setOwnSram s g v) := by
  unfold State.setOwnSram
  repeat' first
    | with_reducible assumption | (with_reducible refine fst_stable (by assumption) ?_) | with_reducible apply State.setRw_stable hK
    | (intro _ _ _) | (intro _ _) | with_reducible apply foldl_stable | with_reducible apply foldl_fst_stable | with_reducible apply overN_stable
    | extract_lets | with_reducible apply ite_stable | with_reducible apply ite_fst_stable | split
    | fail_if_no_progress (with_reducible apply KeepCore.other hK) | (dsimp +zetaDelta only)
theorem State.setOwnDram_stable {P : State → Prop} (hK : KeepCore P) (s : State) (n v : Nat) (hsK : P s) : P (State.setOwnDram s n v) := by
  unfold State.setOwnDram
  repeat' first
    | with_reducible assumption | (with_reducible refine fst_stable (by assumption) ?_) | with_reducible apply State.setRw_stable hK
    | (intro _ _ _) | (intro _ _) | with_reducible apply foldl_stable | with_reducible apply foldl_fst_stable | with_reducible apply overN_stable
    | extract_lets | with_reducible apply ite_stable | with_reducible apply ite_fst_stable | split
    | fail_if_no_progress (with_reducible apply KeepCore.other hK) | (dsimp +zetaDelta only)
theorem State.memLoad_stable {P : State → Prop} (hK : KeepSys P) (s : State) (a n : Nat) (hsK : P s) : P (State.memLoad s a n).1 := by
  unfold State.memLoad
  repeat' first
    | with_reducible assumption | (with_reducible refine fst_stable (by assumption) ?_) | with_reducible apply State.useFreeN_stable hK.toKeepCore
    | with_reducible apply State.touchWords_stable hK | (intro _ _ _) | (intro _ _) | with_reducible apply foldl_stable
    | with_reducible apply foldl_fst_stable | with_reducible apply overN_stable | extract_lets | with_reducible apply ite_stable
    | with_reducible apply ite_fst_stable | split | fail_if_no_progress (with_reducible apply KeepSys.other hK) | (dsimp +zetaDelta only)
theorem State.sramLoad_stable {P : State → Prop} (hK : KeepSys P) (s : State) (o n : Nat) (hsK : P s) : P (State.sramLoad s o n).1 := by
  unfold State.sramLoad
  repeat' first
    | with_reducible assumption | (with_reducible refine fst_stable (by assumption) ?_) | with_reducible apply State.memLoad_stable hK
    | (intro _ _ _) | (intro _ _) | with_reducible apply foldl_stable | with_reducible apply foldl_fst_stable | with_reducible apply overN_stable
    | extract_lets | with_reducible apply ite_stable | with_reducible apply ite_fst_stable | split
    | fail_if_no_progress (with_reducible apply KeepSys.other hK) | (dsimp +zetaDelta only)
theorem State.knowByte_stable {P : State → Prop} (hK : KeepCore P) (s : State) (a : Nat) (hsK : P s) : P (State.knowByte s a) := by
  unfold State.knowByte
  repeat' first
    | with_reducible assumption | (with_reducible refine fst_stable (by assumption) ?_) | (intro _ _ _) | (intro _ _)
    | with_reducible apply foldl_stable | with_reducible apply foldl_fst_stable | with_reducible apply overN_stable | extract_lets
    | with_reducible apply ite_stable | with_reducible apply ite_fst_stable | split | fail_if_no_progress (with_reducible apply KeepCore.other hK)
    | (dsimp +zetaDelta only)
theorem State.memStoreByte_stable {P : State → Prop} (hK : Stable P) (s : State) (a : Nat) (b : Byte) (hsK : P s) :
    P (State.memStoreByte s a b) := by
  unfold State.memStoreByte
  repeat' first
    | with_reducible assumption | (with_reducible refine fst_stable (by assumption) ?_) | with_reducible apply State.sramWrite_stable hK
    | with_reducible apply State.dramWrite_stable hK | with_reducible apply State.knowByte_stable hK.toKeep.toKeepCore | (intro _ _ _) | (intro _ _)
    | with_reducible apply foldl_stable | with_reducible apply foldl_fst_stable | with_reducible apply overN_stable | extract_lets
    | with_reducible apply ite_stable | with_reducible apply ite_fst_stable | split
    | fail_if_no_progress (with_reducible apply Keep.other hK.toKeep) | (dsimp +zetaDelta only)
theorem State.storeCheck_stable {P : State → Prop} (hK : Stable P) (s : State) (k : Nat) (hsK : P s) : P (State.storeCheck s k) := by
  unfold State.storeCheck
  repeat' first
    | with_reducible assumption | (with_reducible refine fst_stable (by assumption) ?_) | with_reducible apply State.dramWrite_stable hK
    | (intro _ _ _) | (intro _ _) | with_reducible apply foldl_stable | with_reducible apply foldl_fst_stable | with_reducible apply overN_stable
    | extract_lets | with_reducible apply ite_stable | with_reducible apply ite_fst_stable | split
    | fail_if_no_progress (with_reducible apply Keep.other hK.toKeep) | (dsimp +zetaDelta only)
theorem State.memStore_stable {P : State → Prop} (hK : Stable P) (s : State) (a : Nat) (bs : List Byte) (hsK : P s) :
    P (State.memStore s a bs).1 := by
  unfold State.memStore
  repeat' first
    | with_reducible assumption | (with_reducible refine fst_stable (by assumption) ?_)
    | with_reducible apply State.setEcc_stable hK.toKeep.toKeepCore | with_reducible apply State.countWords_stable hK.toKeep.toKeepCore
    | with_reducible apply State.memStoreByte_stable hK | with_reducible apply State.storeCheck_stable hK | (intro _ _ _) | (intro _ _)
    | with_reducible apply foldl_stable | with_reducible apply foldl_fst_stable | with_reducible apply overN_stable | extract_lets
    | with_reducible apply ite_stable | with_reducible apply ite_fst_stable | split
    | fail_if_no_progress (with_reducible apply Keep.other hK.toKeep) | (dsimp +zetaDelta only)
theorem State.unitGrainBad_stable {P : State → Prop} (hK : KeepCore P) (s : State) (g : Nat) (hsK : P s) : P (State.unitGrainBad s g) := by
  unfold State.unitGrainBad
  repeat' first
    | with_reducible assumption | (with_reducible refine fst_stable (by assumption) ?_) | with_reducible apply State.wr_stable hK | (intro _ _ _)
    | (intro _ _) | with_reducible apply foldl_stable | with_reducible apply foldl_fst_stable | with_reducible apply overN_stable | extract_lets
    | with_reducible apply ite_stable | with_reducible apply ite_fst_stable | split | fail_if_no_progress (with_reducible apply KeepCore.other hK)
    | (dsimp +zetaDelta only)
theorem State.unitTouch_stable {P : State → Prop} (hK : KeepSys P) (s : State) (a n : Nat) (hsK : P s) : P (State.unitTouch s a n) := by
  unfold State.unitTouch
  repeat' first
    | with_reducible assumption | (with_reducible refine fst_stable (by assumption) ?_) | with_reducible apply State.touchWords_stable hK
    | with_reducible apply State.unitGrainBad_stable hK.toKeepCore | (intro _ _ _) | (intro _ _) | with_reducible apply foldl_stable
    | with_reducible apply foldl_fst_stable | with_reducible apply overN_stable | extract_lets | with_reducible apply ite_stable
    | with_reducible apply ite_fst_stable | split | fail_if_no_progress (with_reducible apply KeepSys.other hK) | (dsimp +zetaDelta only)
theorem State.msrCompare_stable {P : State → Prop} (hK : KeepCore P) (s : State) (hsK : P s) : P (State.msrCompare s) := by
  unfold State.msrCompare
  repeat' first
    | with_reducible assumption | (with_reducible refine fst_stable (by assumption) ?_) | with_reducible apply State.wr_stable hK
    | with_reducible apply State.kevt_stable hK | (intro _ _ _) | (intro _ _) | with_reducible apply foldl_stable
    | with_reducible apply foldl_fst_stable | with_reducible apply overN_stable | extract_lets | with_reducible apply ite_stable
    | with_reducible apply ite_fst_stable | split | fail_if_no_progress (with_reducible apply KeepCore.other hK) | (dsimp +zetaDelta only)

/-! ### Machine/Gate.lean -/

theorem State.walkRead_stable {P : State → Prop} (hK : KeepSys P) (s : State) (o : Nat) (hsK : P s) : P (State.walkRead s o).1 := by
  unfold State.walkRead
  repeat' first
    | with_reducible assumption | (with_reducible refine fst_stable (by assumption) ?_) | with_reducible apply State.memLoad_stable hK
    | (intro _ _ _) | (intro _ _) | with_reducible apply foldl_stable | with_reducible apply foldl_fst_stable | with_reducible apply overN_stable
    | extract_lets | with_reducible apply ite_stable | with_reducible apply ite_fst_stable | split
    | fail_if_no_progress (with_reducible apply KeepSys.other hK) | (dsimp +zetaDelta only)
theorem State.walk_stable {P : State → Prop} (hK : KeepSys P) (s : State) (st sa16 : Nat) (hsK : P s) : P (State.walk s st sa16).1 := by
  unfold State.walk
  repeat' first
    | with_reducible assumption | (with_reducible refine fst_stable (by assumption) ?_) | with_reducible apply State.walkRead_stable hK
    | (intro _ _ _) | (intro _ _) | with_reducible apply foldl_stable | with_reducible apply foldl_fst_stable | with_reducible apply overN_stable
    | extract_lets | with_reducible apply ite_stable | with_reducible apply ite_fst_stable | split
    | fail_if_no_progress (with_reducible apply KeepSys.other hK) | (dsimp +zetaDelta only)
theorem State.translate_stable {P : State → Prop} (hK : KeepSys P) (s : State) (st sa16 : Nat) (hsK : P s) : P (State.translate s st sa16).1 := by
  unfold State.translate
  repeat' first
    | with_reducible assumption | (with_reducible refine fst_stable (by assumption) ?_) | with_reducible apply State.walk_stable hK
    | (intro _ _ _) | (intro _ _) | with_reducible apply foldl_stable | with_reducible apply foldl_fst_stable | with_reducible apply overN_stable
    | extract_lets | with_reducible apply ite_stable | with_reducible apply ite_fst_stable | split
    | fail_if_no_progress (with_reducible apply KeepSys.other hK) | (dsimp +zetaDelta only)
theorem State.gateCheck_stable {P : State → Prop} (hK : KeepSys P) (s : State) (st sa : Nat) (write hostOk : Bool) (hsK : P s) :
    P (State.gateCheck s st sa write hostOk).1 := by
  unfold State.gateCheck
  repeat' first
    | with_reducible assumption | (with_reducible refine fst_stable (by assumption) ?_) | with_reducible apply State.write_stable hK.toKeepCore
    | with_reducible apply State.translate_stable hK | (intro _ _ _) | (intro _ _) | with_reducible apply foldl_stable
    | with_reducible apply foldl_fst_stable | with_reducible apply overN_stable | extract_lets | with_reducible apply ite_stable
    | with_reducible apply ite_fst_stable | split | fail_if_no_progress (with_reducible apply KeepSys.other hK) | (dsimp +zetaDelta only)
theorem State.stallLoad1_stable {P : State → Prop} (hK : KeepSys P) (s : State) (st : Nat) (m : Master) (sa n : Nat) (hsK : P s) :
    P (State.stallLoad1 s st m sa n).1 := by
  unfold State.stallLoad1
  repeat' first
    | with_reducible assumption | (with_reducible refine fst_stable (by assumption) ?_) | with_reducible apply State.violate_stable hK.toKeepCore
    | with_reducible apply State.memLoad_stable hK | with_reducible apply State.gateCheck_stable hK | (intro _ _ _) | (intro _ _)
    | with_reducible apply foldl_stable | with_reducible apply foldl_fst_stable | with_reducible apply overN_stable | extract_lets
    | with_reducible apply ite_stable | with_reducible apply ite_fst_stable | split | fail_if_no_progress (with_reducible apply KeepSys.other hK)
    | (dsimp +zetaDelta only)
theorem State.stallLoadN_stable {P : State → Prop} (hK : KeepSys P) (s : State) (st : Nat) (m : Master) (y0 : Nat) (y1 : Nat) (y2 : Nat) (y3 : List Byte) (hsK : P s) :
    P (State.stallLoadN s st m y0 y1 y2 y3).1 := by
  induction y0 generalizing s st m y1 y2 y3 with
  | zero =>
    unfold State.stallLoadN
    repeat' first
      | with_reducible assumption | (with_reducible refine fst_stable (by assumption) ?_) | with_reducible apply State.stallLoad1_stable hK
      | (intro _ _ _) | (intro _ _) | with_reducible apply foldl_stable | with_reducible apply foldl_fst_stable | with_reducible apply overN_stable
      | extract_lets | with_reducible apply ite_stable | with_reducible apply ite_fst_stable | split
      | fail_if_no_progress (with_reducible apply KeepSys.other hK) | (dsimp +zetaDelta only)
  | succ nK ihK =>
    unfold State.stallLoadN
    repeat' first
      | with_reducible assumption | (with_reducible refine fst_stable (by assumption) ?_) | with_reducible apply State.stallLoad1_stable hK
      | (intro _ _ _) | (intro _ _) | with_reducible apply ihK | with_reducible apply foldl_stable | with_reducible apply foldl_fst_stable
      | with_reducible apply overN_stable | extract_lets | with_reducible apply ite_stable | with_reducible apply ite_fst_stable | split
      | fail_if_no_progress (with_reducible apply KeepSys.other hK) | (dsimp +zetaDelta only)
theorem State.stallLoad_stable {P : State → Prop} (hK : KeepSys P) (s : State) (st : Nat) (m : Master) (sa n : Nat) (hsK : P s) :
    P (State.stallLoad s st m sa n).1 := by
  unfold State.stallLoad
  repeat' first
    | with_reducible assumption | (with_reducible refine fst_stable (by assumption) ?_) | with_reducible apply State.stallLoadN_stable hK
    | (intro _ _ _) | (intro _ _) | with_reducible apply foldl_stable | with_reducible apply foldl_fst_stable | with_reducible apply overN_stable
    | extract_lets | with_reducible apply ite_stable | with_reducible apply ite_fst_stable | split
    | fail_if_no_progress (with_reducible apply KeepSys.other hK) | (dsimp +zetaDelta only)
theorem State.stallStore1_stable {P : State → Prop} (hK : Stable P) (s : State) (st : Nat) (m : Master) (sa : Nat) (b : List Byte) (hsK : P s) :
    P (State.stallStore1 s st m sa b).1 := by
  unfold State.stallStore1
  repeat' first
    | with_reducible assumption | (with_reducible refine fst_stable (by assumption) ?_)
    | with_reducible apply State.violate_stable hK.toKeep.toKeepCore | with_reducible apply State.memStore_stable hK
    | with_reducible apply State.gateCheck_stable hK.toKeep.toKeepSys | (intro _ _ _) | (intro _ _) | with_reducible apply foldl_stable
    | with_reducible apply foldl_fst_stable | with_reducible apply overN_stable | extract_lets | with_reducible apply ite_stable
    | with_reducible apply ite_fst_stable | split | fail_if_no_progress (with_reducible apply Keep.other hK.toKeep) | (dsimp +zetaDelta only)
theorem State.stallStoreN_stable {P : State → Prop} (hK : Stable P) (s : State) (st : Nat) (m : Master) (y0 : Nat) (y1 : Nat) (y2 : List Byte) (hsK : P s) :
    P (State.stallStoreN s st m y0 y1 y2).1 := by
  induction y0 generalizing s st m y1 y2 with
  | zero =>
    unfold State.stallStoreN
    repeat' first
      | with_reducible assumption | (with_reducible refine fst_stable (by assumption) ?_) | with_reducible apply State.stallStore1_stable hK
      | (intro _ _ _) | (intro _ _) | with_reducible apply foldl_stable | with_reducible apply foldl_fst_stable | with_reducible apply overN_stable
      | extract_lets | with_reducible apply ite_stable | with_reducible apply ite_fst_stable | split
      | fail_if_no_progress (with_reducible apply Keep.other hK.toKeep) | (dsimp +zetaDelta only)
  | succ nK ihK =>
    unfold State.stallStoreN
    repeat' first
      | with_reducible assumption | (with_reducible refine fst_stable (by assumption) ?_) | with_reducible apply State.stallStore1_stable hK
      | (intro _ _ _) | (intro _ _) | with_reducible apply ihK | with_reducible apply foldl_stable | with_reducible apply foldl_fst_stable
      | with_reducible apply overN_stable | extract_lets | with_reducible apply ite_stable | with_reducible apply ite_fst_stable | split
      | fail_if_no_progress (with_reducible apply Keep.other hK.toKeep) | (dsimp +zetaDelta only)
theorem State.stallStore_stable {P : State → Prop} (hK : Stable P) (s : State) (st : Nat) (m : Master) (sa : Nat) (b : List Byte) (hsK : P s) :
    P (State.stallStore s st m sa b).1 := by
  unfold State.stallStore
  repeat' first
    | with_reducible assumption | (with_reducible refine fst_stable (by assumption) ?_) | with_reducible apply State.stallStoreN_stable hK
    | (intro _ _ _) | (intro _ _) | with_reducible apply foldl_stable | with_reducible apply foldl_fst_stable | with_reducible apply overN_stable
    | extract_lets | with_reducible apply ite_stable | with_reducible apply ite_fst_stable | split
    | fail_if_no_progress (with_reducible apply Keep.other hK.toKeep) | (dsimp +zetaDelta only)
theorem State.ringLoadN_stable {P : State → Prop} (hK : KeepSys P) (s : State) (st : Nat) (y0 : Nat) (y1 : Nat) (y2 : Nat) (y3 : List Byte) (hsK : P s) :
    P (State.ringLoadN s st y0 y1 y2 y3).1 := by
  induction y0 generalizing s st y1 y2 y3 with
  | zero =>
    unfold State.ringLoadN
    repeat' first
      | with_reducible assumption | (with_reducible refine fst_stable (by assumption) ?_) | with_reducible apply State.memLoad_stable hK
      | with_reducible apply State.gateCheck_stable hK | (intro _ _ _) | (intro _ _) | with_reducible apply foldl_stable
      | with_reducible apply foldl_fst_stable | with_reducible apply overN_stable | extract_lets | with_reducible apply ite_stable
      | with_reducible apply ite_fst_stable | split | fail_if_no_progress (with_reducible apply KeepSys.other hK) | (dsimp +zetaDelta only)
  | succ nK ihK =>
    unfold State.ringLoadN
    repeat' first
      | with_reducible assumption | (with_reducible refine fst_stable (by assumption) ?_) | with_reducible apply State.memLoad_stable hK
      | with_reducible apply State.gateCheck_stable hK | (intro _ _ _) | (intro _ _) | with_reducible apply ihK
      | with_reducible apply foldl_stable | with_reducible apply foldl_fst_stable | with_reducible apply overN_stable | extract_lets
      | with_reducible apply ite_stable | with_reducible apply ite_fst_stable | split | fail_if_no_progress (with_reducible apply KeepSys.other hK)
      | (dsimp +zetaDelta only)
theorem State.ringLoad_stable {P : State → Prop} (hK : KeepSys P) (s : State) (st sa n : Nat) (hsK : P s) : P (State.ringLoad s st sa n).1 := by
  unfold State.ringLoad
  repeat' first
    | with_reducible assumption | (with_reducible refine fst_stable (by assumption) ?_) | with_reducible apply State.ringLoadN_stable hK
    | (intro _ _ _) | (intro _ _) | with_reducible apply foldl_stable | with_reducible apply foldl_fst_stable | with_reducible apply overN_stable
    | extract_lets | with_reducible apply ite_stable | with_reducible apply ite_fst_stable | split
    | fail_if_no_progress (with_reducible apply KeepSys.other hK) | (dsimp +zetaDelta only)
theorem State.ringStoreN_stable {P : State → Prop} (hK : Stable P) (s : State) (st : Nat) (y0 : Nat) (y1 : Nat) (y2 : List Byte) (hsK : P s) :
    P (State.ringStoreN s st y0 y1 y2).1 := by
  induction y0 generalizing s st y1 y2 with
  | zero =>
    unfold State.ringStoreN
    repeat' first
      | with_reducible assumption | (with_reducible refine fst_stable (by assumption) ?_) | with_reducible apply State.memStore_stable hK
      | with_reducible apply State.gateCheck_stable hK.toKeep.toKeepSys | (intro _ _ _) | (intro _ _) | with_reducible apply foldl_stable
      | with_reducible apply foldl_fst_stable | with_reducible apply overN_stable | extract_lets | with_reducible apply ite_stable
      | with_reducible apply ite_fst_stable | split | fail_if_no_progress (with_reducible apply Keep.other hK.toKeep)
      | (dsimp +zetaDelta only)
  | succ nK ihK =>
    unfold State.ringStoreN
    repeat' first
      | with_reducible assumption | (with_reducible refine fst_stable (by assumption) ?_) | with_reducible apply State.memStore_stable hK
      | with_reducible apply State.gateCheck_stable hK.toKeep.toKeepSys | (intro _ _ _) | (intro _ _) | with_reducible apply ihK
      | with_reducible apply foldl_stable | with_reducible apply foldl_fst_stable | with_reducible apply overN_stable | extract_lets
      | with_reducible apply ite_stable | with_reducible apply ite_fst_stable | split
      | fail_if_no_progress (with_reducible apply Keep.other hK.toKeep) | (dsimp +zetaDelta only)
theorem State.ringStore_stable {P : State → Prop} (hK : Stable P) (s : State) (st sa : Nat) (b : List Byte) (hsK : P s) :
    P (State.ringStore s st sa b).1 := by
  unfold State.ringStore
  repeat' first
    | with_reducible assumption | (with_reducible refine fst_stable (by assumption) ?_) | with_reducible apply State.ringStoreN_stable hK
    | (intro _ _ _) | (intro _ _) | with_reducible apply foldl_stable | with_reducible apply foldl_fst_stable | with_reducible apply overN_stable
    | extract_lets | with_reducible apply ite_stable | with_reducible apply ite_fst_stable | split
    | fail_if_no_progress (with_reducible apply Keep.other hK.toKeep) | (dsimp +zetaDelta only)

/-! ### Machine/Rail.lean -/

theorem State.modRail_stable {P : State → Prop} (hK : KeepSys P) (s : State) (r : Nat) (f : RailSt → RailSt) (hsK : P s) :
    P (State.modRail s r f) := by
  unfold State.modRail
  repeat' first
    | with_reducible assumption | (with_reducible refine fst_stable (by assumption) ?_) | (intro _ _ _) | (intro _ _)
    | with_reducible apply foldl_stable | with_reducible apply foldl_fst_stable | with_reducible apply overN_stable | extract_lets
    | with_reducible apply ite_stable | with_reducible apply ite_fst_stable | split | fail_if_no_progress (with_reducible apply KeepSys.other hK)
    | (dsimp +zetaDelta only)
theorem State.busSend_stable {P : State → Prop} (hK : KeepSys P) (s : State) (r : Nat) (hsK : P s) : P (State.busSend s r) := by
  unfold State.busSend
  repeat' first
    | with_reducible assumption | (with_reducible refine fst_stable (by assumption) ?_) | with_reducible apply State.wr_stable hK.toKeepCore
    | with_reducible apply State.emit_stable hK.toKeepCore | (intro _ _ _) | (intro _ _) | with_reducible apply foldl_stable
    | with_reducible apply foldl_fst_stable | with_reducible apply overN_stable | extract_lets | with_reducible apply ite_stable
    | with_reducible apply ite_fst_stable | split | fail_if_no_progress (with_reducible apply KeepSys.other hK) | (dsimp +zetaDelta only)
theorem State.busKick_stable {P : State → Prop} (hK : KeepSys P) (s : State) (hsK : P s) : P (State.busKick s) := by
  unfold State.busKick
  repeat' first
    | with_reducible assumption | (with_reducible refine fst_stable (by assumption) ?_) | with_reducible apply State.wr_stable hK.toKeepCore
    | with_reducible apply State.write_stable hK.toKeepCore | with_reducible apply State.modRail_stable hK | with_reducible apply State.busSend_stable hK
    | (intro _ _ _) | (intro _ _) | with_reducible apply foldl_stable | with_reducible apply foldl_fst_stable | with_reducible apply overN_stable
    | extract_lets | with_reducible apply ite_stable | with_reducible apply ite_fst_stable | split
    | fail_if_no_progress (with_reducible apply KeepSys.other hK) | (dsimp +zetaDelta only)
theorem State.railAsk_stable {P : State → Prop} (hK : KeepSys P) (s : State) (r mv : Nat) (hsK : P s) : P (State.railAsk s r mv) := by
  unfold State.railAsk
  repeat' first
    | with_reducible assumption | (with_reducible refine fst_stable (by assumption) ?_) | with_reducible apply State.wr_stable hK.toKeepCore
    | with_reducible apply State.modRail_stable hK | with_reducible apply State.busKick_stable hK | (intro _ _ _) | (intro _ _)
    | with_reducible apply foldl_stable | with_reducible apply foldl_fst_stable | with_reducible apply overN_stable | extract_lets
    | with_reducible apply ite_stable | with_reducible apply ite_fst_stable | split | fail_if_no_progress (with_reducible apply KeepSys.other hK)
    | (dsimp +zetaDelta only)

/-! ### Machine/Tally.lean -/

theorem State.tallyMissed_stable {P : State → Prop} (hK : KeepCore P) (s : State) (src : TallySrc) (hsK : P s) : P (State.tallyMissed s src) := by
  unfold State.tallyMissed
  repeat' first
    | with_reducible assumption | (with_reducible refine fst_stable (by assumption) ?_) | with_reducible apply State.wr_stable hK
    | with_reducible apply State.bumpErr_stable hK | (intro _ _ _) | (intro _ _) | with_reducible apply foldl_stable
    | with_reducible apply foldl_fst_stable | with_reducible apply overN_stable | extract_lets | with_reducible apply ite_stable
    | with_reducible apply ite_fst_stable | split | fail_if_no_progress (with_reducible apply KeepCore.other hK) | (dsimp +zetaDelta only)
theorem State.tallyRequest_stable {P : State → Prop} (hK : KeepCore P) (s : State) (src : TallySrc) (hsK : P s) : P (State.tallyRequest s src) := by
  unfold State.tallyRequest
  repeat' first
    | with_reducible assumption | (with_reducible refine fst_stable (by assumption) ?_) | with_reducible apply State.tallyMissed_stable hK
    | (intro _ _ _) | (intro _ _) | with_reducible apply foldl_stable | with_reducible apply foldl_fst_stable | with_reducible apply overN_stable
    | extract_lets | with_reducible apply ite_stable | with_reducible apply ite_fst_stable | split
    | fail_if_no_progress (with_reducible apply KeepCore.other hK) | (dsimp +zetaDelta only)
theorem State.wrTallyCtrl_stable {P : State → Prop} (hK : KeepCore P) (s : State) (w : W64) (hsK : P s) : P (State.wrTallyCtrl s w) := by
  unfold State.wrTallyCtrl
  repeat' first
    | with_reducible assumption | (with_reducible refine fst_stable (by assumption) ?_) | with_reducible apply State.settingWrite_stable hK
    | with_reducible apply State.tallyRequest_stable hK | (intro _ _ _) | (intro _ _) | with_reducible apply foldl_stable
    | with_reducible apply foldl_fst_stable | with_reducible apply overN_stable | extract_lets | with_reducible apply ite_stable
    | with_reducible apply ite_fst_stable | split | fail_if_no_progress (with_reducible apply KeepCore.other hK) | (dsimp +zetaDelta only)
theorem State.wrTallyPeriod_stable {P : State → Prop} (hK : KeepCore P) (s : State) (w : W64) (hsK : P s) : P (State.wrTallyPeriod s w) := by
  unfold State.wrTallyPeriod
  repeat' first
    | with_reducible assumption | (with_reducible refine fst_stable (by assumption) ?_) | with_reducible apply State.settingWrite_stable hK
    | (intro _ _ _) | (intro _ _) | with_reducible apply foldl_stable | with_reducible apply foldl_fst_stable | with_reducible apply overN_stable
    | extract_lets | with_reducible apply ite_stable | with_reducible apply ite_fst_stable | split
    | fail_if_no_progress (with_reducible apply KeepCore.other hK) | (dsimp +zetaDelta only)
theorem State.captureSlot_stable {P : State → Prop} (hK : KeepCore P) (s : State) (epoch a : Nat) (hsK : P s) :
    P (State.captureSlot s epoch a) := by
  unfold State.captureSlot
  repeat' first
    | with_reducible assumption | (with_reducible refine fst_stable (by assumption) ?_) | with_reducible apply State.setRw_stable hK
    | with_reducible apply State.setLv_stable hK | (intro _ _ _) | (intro _ _) | with_reducible apply foldl_stable
    | with_reducible apply foldl_fst_stable | with_reducible apply overN_stable | extract_lets | with_reducible apply ite_stable
    | with_reducible apply ite_fst_stable | split | fail_if_no_progress (with_reducible apply KeepCore.other hK) | (dsimp +zetaDelta only)
theorem State.captureDict_stable {P : State → Prop} (hK : KeepSys P) (s : State) (epoch sub v : Nat) (hsK : P s) :
    P (State.captureDict s epoch sub v) := by
  unfold State.captureDict
  repeat' first
    | with_reducible assumption | (with_reducible refine fst_stable (by assumption) ?_) | (intro _ _ _) | (intro _ _)
    | with_reducible apply foldl_stable | with_reducible apply foldl_fst_stable | with_reducible apply overN_stable | extract_lets
    | with_reducible apply ite_stable | with_reducible apply ite_fst_stable | split | fail_if_no_progress (with_reducible apply KeepSys.other hK)
    | (dsimp +zetaDelta only)
theorem State.captureSmiser_stable {P : State → Prop} (hK : KeepSys P) (s : State) (mask epoch ms : Nat) (hsK : P s) :
    P (State.captureSmiser s mask epoch ms) := by
  unfold State.captureSmiser
  repeat' first
    | with_reducible assumption | (with_reducible refine fst_stable (by assumption) ?_) | with_reducible apply State.captureDict_stable hK
    | (intro _ _ _) | (intro _ _) | with_reducible apply foldl_stable | with_reducible apply foldl_fst_stable | with_reducible apply overN_stable
    | extract_lets | with_reducible apply ite_stable | with_reducible apply ite_fst_stable | split
    | fail_if_no_progress (with_reducible apply KeepSys.other hK) | (dsimp +zetaDelta only)
theorem State.capture_stable {P : State → Prop} (hK : KeepSys P) (s : State) (mask epoch ms : Nat) (hsK : P s) :
    P (State.capture s mask epoch ms) := by
  unfold State.capture
  repeat' first
    | with_reducible assumption | (with_reducible refine fst_stable (by assumption) ?_) | with_reducible apply State.captureSlot_stable hK.toKeepCore
    | with_reducible apply State.captureSmiser_stable hK | (intro _ _ _) | (intro _ _) | with_reducible apply foldl_stable
    | with_reducible apply foldl_fst_stable | with_reducible apply overN_stable | extract_lets | with_reducible apply ite_stable
    | with_reducible apply ite_fst_stable | split | fail_if_no_progress (with_reducible apply KeepSys.other hK) | (dsimp +zetaDelta only)
theorem State.tallyDone_stable {P : State → Prop} (hK : KeepCore P) (s : State) (partialT : Bool) (hsK : P s) : P (State.tallyDone s partialT) := by
  unfold State.tallyDone
  repeat' first
    | with_reducible assumption | (with_reducible refine fst_stable (by assumption) ?_) | with_reducible apply State.wr_stable hK | (intro _ _ _)
    | (intro _ _) | with_reducible apply foldl_stable | with_reducible apply foldl_fst_stable | with_reducible apply overN_stable | extract_lets
    | with_reducible apply ite_stable | with_reducible apply ite_fst_stable | split | fail_if_no_progress (with_reducible apply KeepCore.other hK)
    | (dsimp +zetaDelta only)
theorem State.tallyLaunch_stable {P : State → Prop} (hK : KeepSys P) (s : State) (ms : Nat) (hsK : P s) : P (State.tallyLaunch s ms) := by
  unfold State.tallyLaunch
  repeat' first
    | with_reducible assumption | (with_reducible refine fst_stable (by assumption) ?_) | with_reducible apply State.wr_stable hK.toKeepCore
    | with_reducible apply State.capture_stable hK | with_reducible apply State.tallyDone_stable hK.toKeepCore | (intro _ _ _) | (intro _ _)
    | with_reducible apply foldl_stable | with_reducible apply foldl_fst_stable | with_reducible apply overN_stable | extract_lets
    | with_reducible apply ite_stable | with_reducible apply ite_fst_stable | split | fail_if_no_progress (with_reducible apply KeepSys.other hK)
    | (dsimp +zetaDelta only)
theorem execUnassignedAccess_stable {P : State → Prop} (hK : KeepCore P) (who : Who) (a : BitVec 36) (kind : Fin 3) (s : State) (hsK : P s) :
    ∃ r_, execUnassignedAccess who a kind s = .next r_ ∧ P r_ := by
  unfold execUnassignedAccess
  refine ⟨_, rfl, ?_⟩
  repeat' first
    | with_reducible assumption | (with_reducible refine fst_stable (by assumption) ?_) | with_reducible apply State.begin_stable hK
    | with_reducible apply State.accessViolation_stable hK | (intro _ _ _) | (intro _ _) | with_reducible apply foldl_stable
    | with_reducible apply foldl_fst_stable | with_reducible apply overN_stable | extract_lets | with_reducible apply ite_stable
    | with_reducible apply ite_fst_stable | split | fail_if_no_progress (with_reducible apply KeepCore.other hK) | (dsimp +zetaDelta only)
theorem execReadOnlyMemoryAccess_stable {P : State → Prop} (hK : KeepSys P) (who : Who) (a : BitVec 36) (kind : Fin 3) (s : State) (hsK : P s) :
    ∃ r_, execReadOnlyMemoryAccess who a kind s = .next r_ ∧ P r_ := by
  unfold execReadOnlyMemoryAccess
  refine ⟨_, rfl, ?_⟩
  repeat' first
    | with_reducible assumption | (with_reducible refine fst_stable (by assumption) ?_) | with_reducible apply State.begin_stable hK.toKeepCore
    | with_reducible apply State.answer_stable hK.toKeepCore | with_reducible apply State.accessViolation_stable hK.toKeepCore
    | with_reducible apply State.write_stable hK.toKeepCore | (intro _ _ _) | (intro _ _) | with_reducible apply foldl_stable
    | with_reducible apply foldl_fst_stable | with_reducible apply overN_stable | extract_lets | with_reducible apply ite_stable
    | with_reducible apply ite_fst_stable | split | fail_if_no_progress (with_reducible apply KeepSys.other hK) | (dsimp +zetaDelta only)
theorem State.losePulse_stable {P : State → Prop} (hK : KeepCore P) (s : State) (id n : Nat) (hsK : P s) : P (State.losePulse s id n) := by
  unfold State.losePulse
  repeat' first
    | with_reducible assumption | (with_reducible refine fst_stable (by assumption) ?_) | with_reducible apply State.wr_stable hK | (intro _ _ _)
    | (intro _ _) | with_reducible apply foldl_stable | with_reducible apply foldl_fst_stable | with_reducible apply overN_stable | extract_lets
    | with_reducible apply ite_stable | with_reducible apply ite_fst_stable | split | fail_if_no_progress (with_reducible apply KeepCore.other hK)
    | (dsimp +zetaDelta only)
theorem State.losePulses_stable {P : State → Prop} (hK : KeepCore P) (s : State) (p ev : Nat) (lost : Nat) (hsK : P s) :
    P (State.losePulses s p ev lost) := by
  unfold State.losePulses
  repeat' first
    | with_reducible assumption | (with_reducible refine fst_stable (by assumption) ?_) | with_reducible apply State.losePulse_stable hK
    | (intro _ _ _) | (intro _ _) | with_reducible apply foldl_stable | with_reducible apply foldl_fst_stable | with_reducible apply overN_stable
    | extract_lets | with_reducible apply ite_stable | with_reducible apply ite_fst_stable | split
    | fail_if_no_progress (with_reducible apply KeepCore.other hK) | (dsimp +zetaDelta only)
theorem State.wrXclr_stable {P : State → Prop} (hK : KeepCore P) (s : State) (id : Nat) (w : W64) (hsK : P s) : P (State.wrXclr s id w) := by
  unfold State.wrXclr
  repeat' first
    | with_reducible assumption | (with_reducible refine fst_stable (by assumption) ?_) | with_reducible apply State.setRw_stable hK
    | with_reducible apply State.wr_stable hK | (intro _ _ _) | (intro _ _) | with_reducible apply foldl_stable
    | with_reducible apply foldl_fst_stable | with_reducible apply overN_stable | extract_lets | with_reducible apply ite_stable
    | with_reducible apply ite_fst_stable | split | fail_if_no_progress (with_reducible apply KeepCore.other hK) | (dsimp +zetaDelta only)
theorem State.wrXcntClr_stable {P : State → Prop} (hK : KeepCore P) (s : State) (id : Nat) (w : W64) (hsK : P s) : P (State.wrXcntClr s id w) := by
  unfold State.wrXcntClr
  repeat' first
    | with_reducible assumption | (with_reducible refine fst_stable (by assumption) ?_) | with_reducible apply State.wr_stable hK
    | with_reducible apply State.clearCnt_stable hK | (intro _ _ _) | (intro _ _) | with_reducible apply foldl_stable
    | with_reducible apply foldl_fst_stable | with_reducible apply overN_stable | extract_lets | with_reducible apply ite_stable
    | with_reducible apply ite_fst_stable | split | fail_if_no_progress (with_reducible apply KeepCore.other hK) | (dsimp +zetaDelta only)
theorem execXclr_stable {P : State → Prop} (hK : KeepCore P) (who : Who) (blk : BitVec 8) (w : W32) (lost : BitVec 31) (s : State) (hsK : P s) :
    ∃ r_, execXclr who blk w lost s = .next r_ ∧ P r_ := by
  unfold execXclr
  refine ⟨_, rfl, ?_⟩
  repeat' first
    | with_reducible assumption | (with_reducible refine fst_stable (by assumption) ?_) | with_reducible apply State.begin_stable hK
    | with_reducible apply State.write_stable hK | with_reducible apply State.losePulse_stable hK | with_reducible apply State.wrXclr_stable hK
    | (intro _ _ _) | (intro _ _) | with_reducible apply foldl_stable | with_reducible apply foldl_fst_stable | with_reducible apply overN_stable
    | extract_lets | with_reducible apply ite_stable | with_reducible apply ite_fst_stable | split
    | fail_if_no_progress (with_reducible apply KeepCore.other hK) | (dsimp +zetaDelta only)
theorem execClrRefused_stable {P : State → Prop} (hK : KeepCore P) (who : Who) (blk : BitVec 8) (s : State) (hsK : P s) :
    ∃ r_, execClrRefused who blk s = .next r_ ∧ P r_ := by
  unfold execClrRefused
  refine ⟨_, rfl, ?_⟩
  repeat' first
    | with_reducible assumption | (with_reducible refine fst_stable (by assumption) ?_) | with_reducible apply State.begin_stable hK
    | with_reducible apply State.write_stable hK | with_reducible apply State.wrXcntClr_stable hK | (intro _ _ _) | (intro _ _)
    | with_reducible apply foldl_stable | with_reducible apply foldl_fst_stable | with_reducible apply overN_stable | extract_lets
    | with_reducible apply ite_stable | with_reducible apply ite_fst_stable | split | fail_if_no_progress (with_reducible apply KeepCore.other hK)
    | (dsimp +zetaDelta only)
theorem execClrStale_stable {P : State → Prop} (hK : KeepCore P) (who : Who) (blk : BitVec 8) (s : State) (hsK : P s) :
    ∃ r_, execClrStale who blk s = .next r_ ∧ P r_ := by
  unfold execClrStale
  refine ⟨_, rfl, ?_⟩
  repeat' first
    | with_reducible assumption | (with_reducible refine fst_stable (by assumption) ?_) | with_reducible apply State.begin_stable hK
    | with_reducible apply State.write_stable hK | with_reducible apply State.wrXcntClr_stable hK | (intro _ _ _) | (intro _ _)
    | with_reducible apply foldl_stable | with_reducible apply foldl_fst_stable | with_reducible apply overN_stable | extract_lets
    | with_reducible apply ite_stable | with_reducible apply ite_fst_stable | split | fail_if_no_progress (with_reducible apply KeepCore.other hK)
    | (dsimp +zetaDelta only)
theorem execSoftwareTally_stable {P : State → Prop} (hK : KeepCore P) (who : Who) (s : State) (hsK : P s) :
    ∃ r_, execSoftwareTally who s = .next r_ ∧ P r_ := by
  unfold execSoftwareTally
  refine ⟨_, rfl, ?_⟩
  repeat' first
    | with_reducible assumption | (with_reducible refine fst_stable (by assumption) ?_) | with_reducible apply State.begin_stable hK
    | with_reducible apply State.write_stable hK | with_reducible apply State.wrTallyCtrl_stable hK | (intro _ _ _) | (intro _ _)
    | with_reducible apply foldl_stable | with_reducible apply foldl_fst_stable | with_reducible apply overN_stable | extract_lets
    | with_reducible apply ite_stable | with_reducible apply ite_fst_stable | split | fail_if_no_progress (with_reducible apply KeepCore.other hK)
    | (dsimp +zetaDelta only)
theorem execArm_stable {P : State → Prop} (hK : KeepCore P) (who : Who) (arm : Bool) (pipe : Fin 8) (s : State) (hsK : P s) :
    ∃ r_, execArm who arm pipe s = .next r_ ∧ P r_ := by
  unfold execArm
  refine ⟨_, rfl, ?_⟩
  repeat' first
    | with_reducible assumption | (with_reducible refine fst_stable (by assumption) ?_) | with_reducible apply State.begin_stable hK
    | with_reducible apply State.write_stable hK | with_reducible apply State.wrTallyCtrl_stable hK | (intro _ _ _) | (intro _ _)
    | with_reducible apply foldl_stable | with_reducible apply foldl_fst_stable | with_reducible apply overN_stable | extract_lets
    | with_reducible apply ite_stable | with_reducible apply ite_fst_stable | split | fail_if_no_progress (with_reducible apply KeepCore.other hK)
    | (dsimp +zetaDelta only)
theorem execPeriodicEn_stable {P : State → Prop} (hK : KeepCore P) (who : Who) (en : Bool) (s : State) (hsK : P s) :
    ∃ r_, execPeriodicEn who en s = .next r_ ∧ P r_ := by
  unfold execPeriodicEn
  refine ⟨_, rfl, ?_⟩
  repeat' first
    | with_reducible assumption | (with_reducible refine fst_stable (by assumption) ?_) | with_reducible apply State.begin_stable hK
    | with_reducible apply State.write_stable hK | with_reducible apply State.wrTallyCtrl_stable hK | (intro _ _ _) | (intro _ _)
    | with_reducible apply foldl_stable | with_reducible apply foldl_fst_stable | with_reducible apply overN_stable | extract_lets
    | with_reducible apply ite_stable | with_reducible apply ite_fst_stable | split | fail_if_no_progress (with_reducible apply KeepCore.other hK)
    | (dsimp +zetaDelta only)
theorem execPeriodMs_stable {P : State → Prop} (hK : KeepCore P) (who : Who) (w : W32) (s : State) (hsK : P s) :
    ∃ r_, execPeriodMs who w s = .next r_ ∧ P r_ := by
  unfold execPeriodMs
  refine ⟨_, rfl, ?_⟩
  repeat' first
    | with_reducible assumption | (with_reducible refine fst_stable (by assumption) ?_) | with_reducible apply State.begin_stable hK
    | with_reducible apply State.write_stable hK | with_reducible apply State.wrTallyPeriod_stable hK | (intro _ _ _) | (intro _ _)
    | with_reducible apply foldl_stable | with_reducible apply foldl_fst_stable | with_reducible apply overN_stable | extract_lets
    | with_reducible apply ite_stable | with_reducible apply ite_fst_stable | split | fail_if_no_progress (with_reducible apply KeepCore.other hK)
    | (dsimp +zetaDelta only)
theorem execPeriodicTimerExpiry_stable {P : State → Prop} (hK : KeepCore P) (s : State) (hsK : P s) :
    ∃ r_, execPeriodicTimerExpiry s = .next r_ ∧ P r_ := by
  unfold execPeriodicTimerExpiry
  refine ⟨_, rfl, ?_⟩
  repeat' first
    | with_reducible assumption | (with_reducible refine fst_stable (by assumption) ?_) | with_reducible apply State.begin_stable hK
    | with_reducible apply State.tallyRequest_stable hK | (intro _ _ _) | (intro _ _) | with_reducible apply foldl_stable
    | with_reducible apply foldl_fst_stable | with_reducible apply overN_stable | extract_lets | with_reducible apply ite_stable
    | with_reducible apply ite_fst_stable | split | fail_if_no_progress (with_reducible apply KeepCore.other hK) | (dsimp +zetaDelta only)
theorem execTallyAcknowledge_stable {P : State → Prop} (hK : KeepCore P) (isl : Fin 31) (s : State) (hsK : P s) :
    ∃ r_, execTallyAcknowledge isl s = .next r_ ∧ P r_ := by
  unfold execTallyAcknowledge
  refine ⟨_, rfl, ?_⟩
  repeat' first
    | with_reducible assumption | (with_reducible refine fst_stable (by assumption) ?_) | with_reducible apply State.begin_stable hK
    | with_reducible apply State.tallyDone_stable hK | (intro _ _ _) | (intro _ _) | with_reducible apply foldl_stable
    | with_reducible apply foldl_fst_stable | with_reducible apply overN_stable | extract_lets | with_reducible apply ite_stable
    | with_reducible apply ite_fst_stable | split | fail_if_no_progress (with_reducible apply KeepCore.other hK) | (dsimp +zetaDelta only)
theorem execTallyTimeout_stable {P : State → Prop} (hK : KeepCore P) (s : State) (hsK : P s) : ∃ r_, execTallyTimeout s = .next r_ ∧ P r_ := by
  unfold execTallyTimeout
  refine ⟨_, rfl, ?_⟩
  repeat' first
    | with_reducible assumption | (with_reducible refine fst_stable (by assumption) ?_) | with_reducible apply State.begin_stable hK
    | with_reducible apply State.tallyDone_stable hK | (intro _ _ _) | (intro _ _) | with_reducible apply foldl_stable
    | with_reducible apply foldl_fst_stable | with_reducible apply overN_stable | extract_lets | with_reducible apply ite_stable
    | with_reducible apply ite_fst_stable | split | fail_if_no_progress (with_reducible apply KeepCore.other hK) | (dsimp +zetaDelta only)
theorem State.billIsland_stable {P : State → Prop} (hK : KeepCore P) (s : State) (e : IslandEnergy) (hsK : P s) : P (State.billIsland s e) := by
  unfold State.billIsland
  repeat' first
    | with_reducible assumption | (with_reducible refine fst_stable (by assumption) ?_) | with_reducible apply State.bumpEv_stable hK
    | (intro _ _ _) | (intro _ _) | with_reducible apply foldl_stable | with_reducible apply foldl_fst_stable | with_reducible apply overN_stable
    | extract_lets | with_reducible apply ite_stable | with_reducible apply ite_fst_stable | split
    | fail_if_no_progress (with_reducible apply KeepCore.other hK) | (dsimp +zetaDelta only)
theorem execEnergyBilling_stable {P : State → Prop} (hK : KeepCore P) (es : List IslandEnergy) (s : State) (hsK : P s) :
    ∃ r_, execEnergyBilling es s = .next r_ ∧ P r_ := by
  unfold execEnergyBilling
  refine ⟨_, rfl, ?_⟩
  repeat' first
    | with_reducible assumption | (with_reducible refine fst_stable (by assumption) ?_) | with_reducible apply State.begin_stable hK
    | with_reducible apply State.billIsland_stable hK | (intro _ _ _) | (intro _ _) | with_reducible apply foldl_stable
    | with_reducible apply foldl_fst_stable | with_reducible apply overN_stable | extract_lets | with_reducible apply ite_stable
    | with_reducible apply ite_fst_stable | split | fail_if_no_progress (with_reducible apply KeepCore.other hK) | (dsimp +zetaDelta only)

end Sys2Proof.Machine
end

