-- ==== Sys2Proof/Laws/StablePipe.lean ====
section
/-! SUPPORT. Laws/StablePipe.lean: every operation keeps a stable property: display pipes up to commits. -/
set_option linter.all false
namespace Sys2Proof.Machine

/-! ### Machine/PipeBase.lean -/

theorem State.modPipe_stable {P : State → Prop} (hK : KeepUnits P) (s : State) (p : Nat) (f : PipeSt → PipeSt) (hsK : P s) :
    P (State.modPipe s p f) := by
  unfold State.modPipe
  repeat' first
    | with_reducible assumption | (with_reducible refine fst_stable (by assumption) ?_) | (intro _ _ _) | (intro _ _)
    | with_reducible apply foldl_stable | with_reducible apply foldl_fst_stable | with_reducible apply overN_stable | extract_lets
    | with_reducible apply ite_stable | with_reducible apply ite_fst_stable | split | fail_if_no_progress (with_reducible apply KeepUnits.other hK)
    | (dsimp +zetaDelta only)
theorem State.showWb_stable {P : State → Prop} (hK : KeepCore P) (s : State) (p : Nat) (hsK : P s) : P (State.showWb s p) := by
  unfold State.showWb
  repeat' first
    | with_reducible assumption | (with_reducible refine fst_stable (by assumption) ?_) | with_reducible apply State.wr_stable hK | (intro _ _ _)
    | (intro _ _) | with_reducible apply foldl_stable | with_reducible apply foldl_fst_stable | with_reducible apply overN_stable | extract_lets
    | with_reducible apply ite_stable | with_reducible apply ite_fst_stable | split | fail_if_no_progress (with_reducible apply KeepCore.other hK)
    | (dsimp +zetaDelta only)
theorem State.wbClose_stable {P : State → Prop} (hK : KeepUnits P) (s : State) (p : Nat) (hsK : P s) : P (State.wbClose s p) := by
  unfold State.wbClose
  repeat' first
    | with_reducible assumption | (with_reducible refine fst_stable (by assumption) ?_) | with_reducible apply State.modPipe_stable hK
    | (intro _ _ _) | (intro _ _) | with_reducible apply foldl_stable | with_reducible apply foldl_fst_stable | with_reducible apply overN_stable
    | extract_lets | with_reducible apply ite_stable | with_reducible apply ite_fst_stable | split
    | fail_if_no_progress (with_reducible apply KeepUnits.other hK) | (dsimp +zetaDelta only)
theorem State.dropFetch_stable {P : State → Prop} (hK : KeepUnits P) (s : State) (p : Nat) (hsK : P s) : P (State.dropFetch s p) := by
  unfold State.dropFetch
  repeat' first
    | with_reducible assumption | (with_reducible refine fst_stable (by assumption) ?_) | with_reducible apply State.wr_stable hK.toKeepCore
    | with_reducible apply State.modPipe_stable hK | with_reducible apply State.showWb_stable hK.toKeepCore | (intro _ _ _) | (intro _ _)
    | with_reducible apply foldl_stable | with_reducible apply foldl_fst_stable | with_reducible apply overN_stable | extract_lets
    | with_reducible apply ite_stable | with_reducible apply ite_fst_stable | split | fail_if_no_progress (with_reducible apply KeepUnits.other hK)
    | (dsimp +zetaDelta only)
theorem State.beginTraining_stable {P : State → Prop} (hK : KeepUnits P) (s : State) (p : Nat) (r : TrainReason) (setting : Option (Nat × Nat)) (hsK : P s) :
    P (State.beginTraining s p r setting) := by
  unfold State.beginTraining
  repeat' first
    | with_reducible assumption | (with_reducible refine fst_stable (by assumption) ?_) | with_reducible apply State.wr_stable hK.toKeepCore
    | with_reducible apply State.bumpErr_stable hK.toKeepCore | with_reducible apply State.modPipe_stable hK
    | with_reducible apply State.dropFetch_stable hK | (intro _ _ _) | (intro _ _) | with_reducible apply foldl_stable
    | with_reducible apply foldl_fst_stable | with_reducible apply overN_stable | extract_lets | with_reducible apply ite_stable
    | with_reducible apply ite_fst_stable | split | fail_if_no_progress (with_reducible apply KeepUnits.other hK) | (dsimp +zetaDelta only)
theorem State.auxFree_stable {P : State → Prop} (hK : KeepUnits P) (s : State) (p : Nat) (hsK : P s) : P (State.auxFree s p) := by
  unfold State.auxFree
  repeat' first
    | with_reducible assumption | (with_reducible refine fst_stable (by assumption) ?_) | with_reducible apply State.modPipe_stable hK
    | (intro _ _ _) | (intro _ _) | with_reducible apply foldl_stable | with_reducible apply foldl_fst_stable | with_reducible apply overN_stable
    | extract_lets | with_reducible apply ite_stable | with_reducible apply ite_fst_stable | split
    | fail_if_no_progress (with_reducible apply KeepUnits.other hK) | (dsimp +zetaDelta only)
theorem State.pipeFault_stable {P : State → Prop} (hK : KeepUnits P) (s : State) (p cause : Nat) (hsK : P s) : P (State.pipeFault s p cause) := by
  unfold State.pipeFault
  repeat' first
    | with_reducible assumption | (with_reducible refine fst_stable (by assumption) ?_) | with_reducible apply State.wr_stable hK.toKeepCore
    | with_reducible apply State.modPipe_stable hK | with_reducible apply State.dropFetch_stable hK | with_reducible apply State.auxFree_stable hK
    | (intro _ _ _) | (intro _ _) | with_reducible apply foldl_stable | with_reducible apply foldl_fst_stable | with_reducible apply overN_stable
    | extract_lets | with_reducible apply ite_stable | with_reducible apply ite_fst_stable | split
    | fail_if_no_progress (with_reducible apply KeepUnits.other hK) | (dsimp +zetaDelta only)
theorem State.stopIdle_stable {P : State → Prop} (hK : KeepUnits P) (s : State) (p : Nat) (hsK : P s) : P (State.stopIdle s p) := by
  unfold State.stopIdle
  repeat' first
    | with_reducible assumption | (with_reducible refine fst_stable (by assumption) ?_) | with_reducible apply State.wr_stable hK.toKeepCore
    | with_reducible apply State.modPipe_stable hK | with_reducible apply State.showWb_stable hK.toKeepCore | with_reducible apply State.wbClose_stable hK
    | with_reducible apply State.auxFree_stable hK | (intro _ _ _) | (intro _ _) | with_reducible apply foldl_stable
    | with_reducible apply foldl_fst_stable | with_reducible apply overN_stable | extract_lets | with_reducible apply ite_stable
    | with_reducible apply ite_fst_stable | split | fail_if_no_progress (with_reducible apply KeepUnits.other hK) | (dsimp +zetaDelta only)
theorem State.pipeStop_stable {P : State → Prop} (hK : KeepUnits P) (s : State) (p : Nat) (hsK : P s) : P (State.pipeStop s p) := by
  unfold State.pipeStop
  repeat' first
    | with_reducible assumption | (with_reducible refine fst_stable (by assumption) ?_) | with_reducible apply State.modPipe_stable hK
    | with_reducible apply State.stopIdle_stable hK | (intro _ _ _) | (intro _ _) | with_reducible apply foldl_stable
    | with_reducible apply foldl_fst_stable | with_reducible apply overN_stable | extract_lets | with_reducible apply ite_stable
    | with_reducible apply ite_fst_stable | split | fail_if_no_progress (with_reducible apply KeepUnits.other hK) | (dsimp +zetaDelta only)
theorem State.tryRecover_stable {P : State → Prop} (hK : KeepUnits P) (s : State) (p : Nat) (hsK : P s) : P (State.tryRecover s p) := by
  unfold State.tryRecover
  repeat' first
    | with_reducible assumption | (with_reducible refine fst_stable (by assumption) ?_) | with_reducible apply State.modPipe_stable hK
    | with_reducible apply State.beginTraining_stable hK | (intro _ _ _) | (intro _ _) | with_reducible apply foldl_stable
    | with_reducible apply foldl_fst_stable | with_reducible apply overN_stable | extract_lets | with_reducible apply ite_stable
    | with_reducible apply ite_fst_stable | split | fail_if_no_progress (with_reducible apply KeepUnits.other hK) | (dsimp +zetaDelta only)

/-! ### Machine/Sync.lean -/

theorem State.wrSyncSrc_stable {P : State → Prop} (hK : KeepUnits P) (s : State) (p : Nat) (w : W64) (hsK : P s) : P (State.wrSyncSrc s p w) := by
  unfold State.wrSyncSrc
  repeat' first
    | with_reducible assumption | (with_reducible refine fst_stable (by assumption) ?_) | with_reducible apply State.wr_stable hK.toKeepCore
    | with_reducible apply State.refuse_stable hK.toKeepCore | with_reducible apply State.settingWrite_stable hK.toKeepCore
    | with_reducible apply State.modPipe_stable hK | (intro _ _ _) | (intro _ _) | with_reducible apply foldl_stable
    | with_reducible apply foldl_fst_stable | with_reducible apply overN_stable | extract_lets | with_reducible apply ite_stable
    | with_reducible apply ite_fst_stable | split | fail_if_no_progress (with_reducible apply KeepUnits.other hK) | (dsimp +zetaDelta only)
theorem State.showPhase_stable {P : State → Prop} (hK : KeepCore P) (s : State) (p t b : Nat) (hsK : P s) : P (State.showPhase s p t b) := by
  unfold State.showPhase
  repeat' first
    | with_reducible assumption | (with_reducible refine fst_stable (by assumption) ?_) | with_reducible apply State.wr_stable hK | (intro _ _ _)
    | (intro _ _) | with_reducible apply foldl_stable | with_reducible apply foldl_fst_stable | with_reducible apply overN_stable | extract_lets
    | with_reducible apply ite_stable | with_reducible apply ite_fst_stable | split | fail_if_no_progress (with_reducible apply KeepCore.other hK)
    | (dsimp +zetaDelta only)
theorem State.refMissing_stable {P : State → Prop} (hK : KeepUnits P) (s : State) (p : Nat) (hsK : P s) : P (State.refMissing s p) := by
  unfold State.refMissing
  repeat' first
    | with_reducible assumption | (with_reducible refine fst_stable (by assumption) ?_) | with_reducible apply State.wr_stable hK.toKeepCore
    | with_reducible apply State.bumpErr_stable hK.toKeepCore | with_reducible apply State.modPipe_stable hK | (intro _ _ _) | (intro _ _)
    | with_reducible apply foldl_stable | with_reducible apply foldl_fst_stable | with_reducible apply overN_stable | extract_lets
    | with_reducible apply ite_stable | with_reducible apply ite_fst_stable | split | fail_if_no_progress (with_reducible apply KeepUnits.other hK)
    | (dsimp +zetaDelta only)
theorem State.refEdge_stable {P : State → Prop} (hK : KeepUnits P) (s : State) (p t : Nat) (hsK : P s) : P (State.refEdge s p t) := by
  unfold State.refEdge
  repeat' first
    | with_reducible assumption | (with_reducible refine fst_stable (by assumption) ?_) | with_reducible apply State.wr_stable hK.toKeepCore
    | with_reducible apply State.modPipe_stable hK | with_reducible apply State.showPhase_stable hK.toKeepCore
    | with_reducible apply State.refMissing_stable hK | (intro _ _ _) | (intro _ _) | with_reducible apply foldl_stable
    | with_reducible apply foldl_fst_stable | with_reducible apply overN_stable | extract_lets | with_reducible apply ite_stable
    | with_reducible apply ite_fst_stable | split | fail_if_no_progress (with_reducible apply KeepUnits.other hK) | (dsimp +zetaDelta only)
theorem State.seeEdge_stable {P : State → Prop} (hK : KeepUnits P) (s : State) (q code t : Nat) (hsK : P s) : P (State.seeEdge s q code t) := by
  unfold State.seeEdge
  repeat' first
    | with_reducible assumption | (with_reducible refine fst_stable (by assumption) ?_) | with_reducible apply State.modPipe_stable hK
    | with_reducible apply State.refEdge_stable hK | (intro _ _ _) | (intro _ _) | with_reducible apply foldl_stable
    | with_reducible apply foldl_fst_stable | with_reducible apply overN_stable | extract_lets | with_reducible apply ite_stable
    | with_reducible apply ite_fst_stable | split | fail_if_no_progress (with_reducible apply KeepUnits.other hK) | (dsimp +zetaDelta only)
theorem State.edgeToDependents_stable {P : State → Prop} (hK : KeepUnits P) (s : State) (p t : Nat) (hsK : P s) :
    P (State.edgeToDependents s p t) := by
  unfold State.edgeToDependents
  repeat' first
    | with_reducible assumption | (with_reducible refine fst_stable (by assumption) ?_) | with_reducible apply State.seeEdge_stable hK
    | (intro _ _ _) | (intro _ _) | with_reducible apply foldl_stable | with_reducible apply foldl_fst_stable | with_reducible apply overN_stable
    | extract_lets | with_reducible apply ite_stable | with_reducible apply ite_fst_stable | split
    | fail_if_no_progress (with_reducible apply KeepUnits.other hK) | (dsimp +zetaDelta only)
theorem State.takeSyncSrc_stable {P : State → Prop} (hK : KeepUnits P) (s : State) (p : Nat) (hsK : P s) : P (State.takeSyncSrc s p) := by
  unfold State.takeSyncSrc
  repeat' first
    | with_reducible assumption | (with_reducible refine fst_stable (by assumption) ?_) | with_reducible apply State.wr_stable hK.toKeepCore
    | with_reducible apply State.latch_stable hK.toKeepCore | with_reducible apply State.bumpErr_stable hK.toKeepCore
    | with_reducible apply State.modPipe_stable hK | (intro _ _ _) | (intro _ _) | with_reducible apply foldl_stable
    | with_reducible apply foldl_fst_stable | with_reducible apply overN_stable | extract_lets | with_reducible apply ite_stable
    | with_reducible apply ite_fst_stable | split | fail_if_no_progress (with_reducible apply KeepUnits.other hK) | (dsimp +zetaDelta only)
theorem State.syncBoundary_stable {P : State → Prop} (hK : KeepUnits P) (s0 : State) (p t : Nat) (hsK : P s0) : P (State.syncBoundary s0 p t) := by
  unfold State.syncBoundary
  repeat' first
    | with_reducible assumption | (with_reducible refine fst_stable (by assumption) ?_) | with_reducible apply State.wr_stable hK.toKeepCore
    | with_reducible apply State.bumpErr_stable hK.toKeepCore | with_reducible apply State.modPipe_stable hK
    | with_reducible apply State.showPhase_stable hK.toKeepCore | with_reducible apply State.takeSyncSrc_stable hK | (intro _ _ _) | (intro _ _)
    | with_reducible apply foldl_stable | with_reducible apply foldl_fst_stable | with_reducible apply overN_stable | extract_lets
    | with_reducible apply ite_stable | with_reducible apply ite_fst_stable | split | fail_if_no_progress (with_reducible apply KeepUnits.other hK)
    | (dsimp +zetaDelta only)
theorem State.decideCorrection_stable {P : State → Prop} (hK : KeepUnits P) (s : State) (p : Nat) (hsK : P s) : P (State.decideCorrection s p) := by
  unfold State.decideCorrection
  repeat' first
    | with_reducible assumption | (with_reducible refine fst_stable (by assumption) ?_) | with_reducible apply State.modPipe_stable hK
    | (intro _ _ _) | (intro _ _) | with_reducible apply foldl_stable | with_reducible apply foldl_fst_stable | with_reducible apply overN_stable
    | extract_lets | with_reducible apply ite_stable | with_reducible apply ite_fst_stable | split
    | fail_if_no_progress (with_reducible apply KeepUnits.other hK) | (dsimp +zetaDelta only)
theorem State.syncDrive_stable {P : State → Prop} (hK : KeepCore P) (s old : State) (hsK : P s) : P (State.syncDrive s old) := by
  unfold State.syncDrive
  repeat' first
    | with_reducible assumption | (with_reducible refine fst_stable (by assumption) ?_) | with_reducible apply State.emit_stable hK
    | (intro _ _ _) | (intro _ _) | with_reducible apply foldl_stable | with_reducible apply foldl_fst_stable | with_reducible apply overN_stable
    | extract_lets | with_reducible apply ite_stable | with_reducible apply ite_fst_stable | split
    | fail_if_no_progress (with_reducible apply KeepCore.other hK) | (dsimp +zetaDelta only)
theorem State.syncOutStop_stable {P : State → Prop} (hK : KeepCore P) (s : State) (p : Nat) (hsK : P s) : P (State.syncOutStop s p) := by
  unfold State.syncOutStop
  repeat' first
    | with_reducible assumption | (with_reducible refine fst_stable (by assumption) ?_) | with_reducible apply State.syncDrive_stable hK
    | (intro _ _ _) | (intro _ _) | with_reducible apply foldl_stable | with_reducible apply foldl_fst_stable | with_reducible apply overN_stable
    | extract_lets | with_reducible apply ite_stable | with_reducible apply ite_fst_stable | split
    | fail_if_no_progress (with_reducible apply KeepCore.other hK) | (dsimp +zetaDelta only)

/-! ### Machine/Compose.lean -/

theorem State.pipeVolt_stable {P : State → Prop} (hK : KeepSys P) (s : State) (hsK : P s) : P (State.pipeVolt s) := by
  unfold State.pipeVolt
  repeat' first
    | with_reducible assumption | (with_reducible refine fst_stable (by assumption) ?_) | with_reducible apply State.railAsk_stable hK
    | (intro _ _ _) | (intro _ _) | with_reducible apply foldl_stable | with_reducible apply foldl_fst_stable | with_reducible apply overN_stable
    | extract_lets | with_reducible apply ite_stable | with_reducible apply ite_fst_stable | split
    | fail_if_no_progress (with_reducible apply KeepSys.other hK) | (dsimp +zetaDelta only)
theorem State.setIslandStep_stable {P : State → Prop} (hK : KeepCore P) (s : State) (p : Nat) (hsK : P s) : P (State.setIslandStep s p) := by
  unfold State.setIslandStep
  repeat' first
    | with_reducible assumption | (with_reducible refine fst_stable (by assumption) ?_) | with_reducible apply State.wr_stable hK | (intro _ _ _)
    | (intro _ _) | with_reducible apply foldl_stable | with_reducible apply foldl_fst_stable | with_reducible apply overN_stable | extract_lets
    | with_reducible apply ite_stable | with_reducible apply ite_fst_stable | split | fail_if_no_progress (with_reducible apply KeepCore.other hK)
    | (dsimp +zetaDelta only)
theorem State.modPitch_stable {P : State → Prop} (hK : KeepUnits P) (s : State) (p k : Nat) (f : PitchSt → PitchSt) (hsK : P s) :
    P (State.modPitch s p k f) := by
  unfold State.modPitch
  repeat' first
    | with_reducible assumption | (with_reducible refine fst_stable (by assumption) ?_) | with_reducible apply State.modPipe_stable hK
    | (intro _ _ _) | (intro _ _) | with_reducible apply foldl_stable | with_reducible apply foldl_fst_stable | with_reducible apply overN_stable
    | extract_lets | with_reducible apply ite_stable | with_reducible apply ite_fst_stable | split
    | fail_if_no_progress (with_reducible apply KeepUnits.other hK) | (dsimp +zetaDelta only)
theorem State.showCap_stable {P : State → Prop} (hK : KeepCore P) (s : State) (p : Nat) (hsK : P s) : P (State.showCap s p) := by
  unfold State.showCap
  repeat' first
    | with_reducible assumption | (with_reducible refine fst_stable (by assumption) ?_) | with_reducible apply State.wr_stable hK | (intro _ _ _)
    | (intro _ _) | with_reducible apply foldl_stable | with_reducible apply foldl_fst_stable | with_reducible apply overN_stable | extract_lets
    | with_reducible apply ite_stable | with_reducible apply ite_fst_stable | split | fail_if_no_progress (with_reducible apply KeepCore.other hK)
    | (dsimp +zetaDelta only)
theorem State.updatePanic_stable {P : State → Prop} (hK : KeepCore P) (s : State) (p : Nat) (hsK : P s) : P (State.updatePanic s p) := by
  unfold State.updatePanic
  repeat' first
    | with_reducible assumption | (with_reducible refine fst_stable (by assumption) ?_) | with_reducible apply State.wr_stable hK
    | with_reducible apply State.bumpEv_stable hK | (intro _ _ _) | (intro _ _) | with_reducible apply foldl_stable
    | with_reducible apply foldl_fst_stable | with_reducible apply overN_stable | extract_lets | with_reducible apply ite_stable
    | with_reducible apply ite_fst_stable | split | fail_if_no_progress (with_reducible apply KeepCore.other hK) | (dsimp +zetaDelta only)
theorem State.fifoPlace_stable {P : State → Prop} (hK : KeepCore P) (s : State) (p : Nat) (hsK : P s) : P (State.fifoPlace s p).1 := by
  unfold State.fifoPlace
  repeat' first
    | with_reducible assumption | (with_reducible refine fst_stable (by assumption) ?_) | with_reducible apply State.useFree_stable hK
    | with_reducible apply State.unitGrainBad_stable hK | (intro _ _ _) | (intro _ _) | with_reducible apply foldl_stable
    | with_reducible apply foldl_fst_stable | with_reducible apply overN_stable | extract_lets | with_reducible apply ite_stable
    | with_reducible apply ite_fst_stable | split | fail_if_no_progress (with_reducible apply KeepCore.other hK) | (dsimp +zetaDelta only)
theorem State.fifoSpoil_stable {P : State → Prop} (hK : KeepUnits P) (s : State) (p y : Nat) (hsK : P s) : P (State.fifoSpoil s p y) := by
  unfold State.fifoSpoil
  repeat' first
    | with_reducible assumption | (with_reducible refine fst_stable (by assumption) ?_) | with_reducible apply State.useFree_stable hK.toKeepCore
    | with_reducible apply State.useFreeN_stable hK.toKeepCore | with_reducible apply State.modPipe_stable hK | (intro _ _ _) | (intro _ _)
    | with_reducible apply foldl_stable | with_reducible apply foldl_fst_stable | with_reducible apply overN_stable | extract_lets
    | with_reducible apply ite_stable | with_reducible apply ite_fst_stable | split | fail_if_no_progress (with_reducible apply KeepUnits.other hK)
    | (dsimp +zetaDelta only)
theorem State.spanFailed_stable {P : State → Prop} (hK : KeepUnits P) (s : State) (p m : Nat) (next : Bool) (hsK : P s) :
    P (State.spanFailed s p m next) := by
  unfold State.spanFailed
  repeat' first
    | with_reducible assumption | (with_reducible refine fst_stable (by assumption) ?_) | with_reducible apply State.wr_stable hK.toKeepCore
    | with_reducible apply State.bumpErr_stable hK.toKeepCore | with_reducible apply State.modPipe_stable hK | (intro _ _ _) | (intro _ _)
    | with_reducible apply foldl_stable | with_reducible apply foldl_fst_stable | with_reducible apply overN_stable | extract_lets
    | with_reducible apply ite_stable | with_reducible apply ite_fst_stable | split | fail_if_no_progress (with_reducible apply KeepUnits.other hK)
    | (dsimp +zetaDelta only)
theorem State.spanIssue_stable {P : State → Prop} (hK : Keep P) (s : State) (p line : Nat) (next : Bool) (r : Nat × Nat × Nat × Nat) (hsK : P s) :
    P (State.spanIssue s p line next r) := by
  unfold State.spanIssue
  repeat' first
    | with_reducible assumption | (with_reducible refine fst_stable (by assumption) ?_) | with_reducible apply State.violate_stable hK.toKeepCore
    | with_reducible apply State.gateCheck_stable hK.toKeepSys | with_reducible apply State.modPipe_stable hK.toKeepUnits
    | with_reducible apply State.spanFailed_stable hK.toKeepUnits | (intro _ _ _) | (intro _ _) | with_reducible apply foldl_stable
    | with_reducible apply foldl_fst_stable | with_reducible apply overN_stable | extract_lets | with_reducible apply ite_stable
    | with_reducible apply ite_fst_stable | split | fail_if_no_progress (with_reducible apply Keep.other hK) | (dsimp +zetaDelta only)
theorem State.spanArrive_stable {P : State → Prop} (hK : Keep P) (s : State) (p m line : Nat) (next : Bool) (q : Nat × Nat × Nat) (error : Bool) (hsK : P s) :
    P (State.spanArrive s p m line next q error) := by
  unfold State.spanArrive
  repeat' first
    | with_reducible assumption | (with_reducible refine fst_stable (by assumption) ?_) | with_reducible apply State.bumpEv_stable hK.toKeepCore
    | with_reducible apply State.memLoad_stable hK.toKeepSys | with_reducible apply State.modPipe_stable hK.toKeepUnits
    | with_reducible apply State.fifoPlace_stable hK.toKeepCore | with_reducible apply State.spanFailed_stable hK.toKeepUnits | (intro _ _ _)
    | (intro _ _) | with_reducible apply foldl_stable | with_reducible apply foldl_fst_stable | with_reducible apply overN_stable | extract_lets
    | with_reducible apply ite_stable | with_reducible apply ite_fst_stable | split | fail_if_no_progress (with_reducible apply Keep.other hK)
    | (dsimp +zetaDelta only)
theorem State.fetchSpan_stable {P : State → Prop} (hK : Keep P) (s : State) (p m line k : Nat) (error : Bool) (hsK : P s) :
    P (State.fetchSpan s p m line k error) := by
  unfold State.fetchSpan
  repeat' first
    | with_reducible assumption | (with_reducible refine fst_stable (by assumption) ?_) | with_reducible apply State.updatePanic_stable hK.toKeepCore
    | with_reducible apply State.spanIssue_stable hK | with_reducible apply State.spanArrive_stable hK | (intro _ _ _) | (intro _ _)
    | with_reducible apply foldl_stable | with_reducible apply foldl_fst_stable | with_reducible apply overN_stable | extract_lets
    | with_reducible apply ite_stable | with_reducible apply ite_fst_stable | split | fail_if_no_progress (with_reducible apply Keep.other hK)
    | (dsimp +zetaDelta only)
theorem execFetchSpanComplete_stable {P : State → Prop} (hK : Keep P) (p m : Fin 8) (line k : Nat) (error : Bool) (s : State) (hsK : P s) :
    ∃ r_, execFetchSpanComplete p m line k error s = .next r_ ∧ P r_ := by
  unfold execFetchSpanComplete
  refine ⟨_, rfl, ?_⟩
  repeat' first
    | with_reducible assumption | (with_reducible refine fst_stable (by assumption) ?_) | with_reducible apply State.begin_stable hK.toKeepCore
    | with_reducible apply State.fetchSpan_stable hK | (intro _ _ _) | (intro _ _) | with_reducible apply foldl_stable
    | with_reducible apply foldl_fst_stable | with_reducible apply overN_stable | extract_lets | with_reducible apply ite_stable
    | with_reducible apply ite_fst_stable | split | fail_if_no_progress (with_reducible apply Keep.other hK) | (dsimp +zetaDelta only)
theorem State.wrLut_stable {P : State → Prop} (hK : KeepCore P) (s : State) (p win i : Nat) (w : W64) (hsK : P s) :
    P (State.wrLut s p win i w) := by
  unfold State.wrLut
  repeat' first
    | with_reducible assumption | (with_reducible refine fst_stable (by assumption) ?_) | with_reducible apply State.refuse_stable hK
    | with_reducible apply State.settingWrite_stable hK | (intro _ _ _) | (intro _ _) | with_reducible apply foldl_stable
    | with_reducible apply foldl_fst_stable | with_reducible apply overN_stable | extract_lets | with_reducible apply ite_stable
    | with_reducible apply ite_fst_stable | split | fail_if_no_progress (with_reducible apply KeepCore.other hK) | (dsimp +zetaDelta only)
theorem execLutWindowWrite_stable {P : State → Prop} (hK : KeepCore P) (who : Who) (p : Fin 8) (win : Fin 4) (i : Fin 1024) (w : W32) (s : State) (hsK : P s) :
    ∃ r_, execLutWindowWrite who p win i w s = .next r_ ∧ P r_ := by
  unfold execLutWindowWrite
  refine ⟨_, rfl, ?_⟩
  repeat' first
    | with_reducible assumption | (with_reducible refine fst_stable (by assumption) ?_) | with_reducible apply State.begin_stable hK
    | with_reducible apply State.write_stable hK | with_reducible apply State.wrLut_stable hK | (intro _ _ _) | (intro _ _)
    | with_reducible apply foldl_stable | with_reducible apply foldl_fst_stable | with_reducible apply overN_stable | extract_lets
    | with_reducible apply ite_stable | with_reducible apply ite_fst_stable | split | fail_if_no_progress (with_reducible apply KeepCore.other hK)
    | (dsimp +zetaDelta only)

/-! ### Machine/Ledger.lean -/

theorem State.modLed_stable {P : State → Prop} (hK : KeepUnits P) (s : State) (f : LedgerSt → LedgerSt) (hsK : P s) : P (State.modLed s f) := by
  unfold State.modLed
  repeat' first
    | with_reducible assumption | (with_reducible refine fst_stable (by assumption) ?_) | (intro _ _ _) | (intro _ _)
    | with_reducible apply foldl_stable | with_reducible apply foldl_fst_stable | with_reducible apply overN_stable | extract_lets
    | with_reducible apply ite_stable | with_reducible apply ite_fst_stable | split | fail_if_no_progress (with_reducible apply KeepUnits.other hK)
    | (dsimp +zetaDelta only)
theorem State.ledShow_stable {P : State → Prop} (hK : KeepCore P) (s : State) (hsK : P s) : P (State.ledShow s) := by
  unfold State.ledShow
  repeat' first
    | with_reducible assumption | (with_reducible refine fst_stable (by assumption) ?_) | with_reducible apply State.wr_stable hK | (intro _ _ _)
    | (intro _ _) | with_reducible apply foldl_stable | with_reducible apply foldl_fst_stable | with_reducible apply overN_stable | extract_lets
    | with_reducible apply ite_stable | with_reducible apply ite_fst_stable | split | fail_if_no_progress (with_reducible apply KeepCore.other hK)
    | (dsimp +zetaDelta only)
theorem State.ringWrite_stable {P : State → Prop} (hK : Stable P) (s : State) (i : Nat) (b : List Byte) (hsK : P s) :
    P (State.ringWrite s i b) := by
  unfold State.ringWrite
  repeat' first
    | with_reducible assumption | (with_reducible refine fst_stable (by assumption) ?_) | with_reducible apply State.memStore_stable hK
    | with_reducible apply State.unitGrainBad_stable hK.toKeep.toKeepCore | (intro _ _ _) | (intro _ _) | with_reducible apply foldl_stable
    | with_reducible apply foldl_fst_stable | with_reducible apply overN_stable | extract_lets | with_reducible apply ite_stable
    | with_reducible apply ite_fst_stable | split | fail_if_no_progress (with_reducible apply Keep.other hK.toKeep) | (dsimp +zetaDelta only)
theorem State.ringTouch_stable {P : State → Prop} (hK : KeepSys P) (s : State) (l : List Nat) (hsK : P s) : P (State.ringTouch s l) := by
  unfold State.ringTouch
  repeat' first
    | with_reducible assumption | (with_reducible refine fst_stable (by assumption) ?_) | with_reducible apply State.useFreeN_stable hK.toKeepCore
    | with_reducible apply State.unitTouch_stable hK | (intro _ _ _) | (intro _ _) | with_reducible apply foldl_stable
    | with_reducible apply foldl_fst_stable | with_reducible apply overN_stable | extract_lets | with_reducible apply ite_stable
    | with_reducible apply ite_fst_stable | split | fail_if_no_progress (with_reducible apply KeepSys.other hK) | (dsimp +zetaDelta only)
theorem State.ledCheckFull_stable {P : State → Prop} (hK : KeepCore P) (s : State) (hsK : P s) : P (State.ledCheckFull s) := by
  unfold State.ledCheckFull
  repeat' first
    | with_reducible assumption | (with_reducible refine fst_stable (by assumption) ?_) | with_reducible apply State.wr_stable hK
    | with_reducible apply State.kevt_stable hK | (intro _ _ _) | (intro _ _) | with_reducible apply foldl_stable
    | with_reducible apply foldl_fst_stable | with_reducible apply overN_stable | extract_lets | with_reducible apply ite_stable
    | with_reducible apply ite_fst_stable | split | fail_if_no_progress (with_reducible apply KeepCore.other hK) | (dsimp +zetaDelta only)
theorem State.ledPut_stable {P : State → Prop} (hK : Stable P) (s : State) (e : LedEntry) (hsK : P s) : P (State.ledPut s e) := by
  unfold State.ledPut
  repeat' first
    | with_reducible assumption | (with_reducible refine fst_stable (by assumption) ?_)
    | with_reducible apply State.bumpEv_stable hK.toKeep.toKeepCore | with_reducible apply State.modLed_stable hK.toKeep.toKeepUnits
    | with_reducible apply State.ledShow_stable hK.toKeep.toKeepCore | with_reducible apply State.ringWrite_stable hK | (intro _ _ _) | (intro _ _)
    | with_reducible apply foldl_stable | with_reducible apply foldl_fst_stable | with_reducible apply overN_stable | extract_lets
    | with_reducible apply ite_stable | with_reducible apply ite_fst_stable | split
    | fail_if_no_progress (with_reducible apply Keep.other hK.toKeep) | (dsimp +zetaDelta only)
theorem State.subDone_stable {P : State → Prop} (hK : KeepCore P) (s : State) (e : LedEntry) (seq : Option Nat) (hsK : P s) :
    P (State.subDone s e seq) := by
  unfold State.subDone
  repeat' first
    | with_reducible assumption | (with_reducible refine fst_stable (by assumption) ?_) | with_reducible apply State.wr_stable hK | (intro _ _ _)
    | (intro _ _) | with_reducible apply foldl_stable | with_reducible apply foldl_fst_stable | with_reducible apply overN_stable | extract_lets
    | with_reducible apply ite_stable | with_reducible apply ite_fst_stable | split | fail_if_no_progress (with_reducible apply KeepCore.other hK)
    | (dsimp +zetaDelta only)
theorem State.ledAppend_stable {P : State → Prop} (hK : Stable P) (s : State) (e0 : LedEntry) (hsK : P s) : P (State.ledAppend s e0) := by
  unfold State.ledAppend
  repeat' first
    | with_reducible assumption | (with_reducible refine fst_stable (by assumption) ?_)
    | with_reducible apply State.bumpErr_stable hK.toKeep.toKeepCore | with_reducible apply State.modLed_stable hK.toKeep.toKeepUnits
    | with_reducible apply State.ledCheckFull_stable hK.toKeep.toKeepCore | with_reducible apply State.ledPut_stable hK
    | with_reducible apply State.subDone_stable hK.toKeep.toKeepCore | (intro _ _ _) | (intro _ _) | with_reducible apply foldl_stable
    | with_reducible apply foldl_fst_stable | with_reducible apply overN_stable | extract_lets | with_reducible apply ite_stable
    | with_reducible apply ite_fst_stable | split | fail_if_no_progress (with_reducible apply Keep.other hK.toKeep) | (dsimp +zetaDelta only)
theorem State.ledNext_stable {P : State → Prop} (hK : Stable P) (s : State) (hsK : P s) : P (State.ledNext s) := by
  unfold State.ledNext
  repeat' first
    | with_reducible assumption | (with_reducible refine fst_stable (by assumption) ?_)
    | with_reducible apply State.modLed_stable hK.toKeep.toKeepUnits | with_reducible apply State.ledAppend_stable hK | (intro _ _ _) | (intro _ _)
    | with_reducible apply foldl_stable | with_reducible apply foldl_fst_stable | with_reducible apply overN_stable | extract_lets
    | with_reducible apply ite_stable | with_reducible apply ite_fst_stable | split
    | fail_if_no_progress (with_reducible apply Keep.other hK.toKeep) | (dsimp +zetaDelta only)
theorem State.ledFlush_stable {P : State → Prop} (hK : Stable P) (s : State) (hsK : P s) : P (State.ledFlush s) := by
  unfold State.ledFlush
  repeat' first
    | with_reducible assumption | (with_reducible refine fst_stable (by assumption) ?_) | with_reducible apply State.ledNext_stable hK
    | (intro _ _ _) | (intro _ _) | with_reducible apply foldl_stable | with_reducible apply foldl_fst_stable | with_reducible apply overN_stable
    | extract_lets | with_reducible apply ite_stable | with_reducible apply ite_fst_stable | split
    | fail_if_no_progress (with_reducible apply Keep.other hK.toKeep) | (dsimp +zetaDelta only)
theorem State.ledger_stable {P : State → Prop} (hK : KeepUnits P) (s : State) (e : LedEntry) (hsK : P s) : P (State.ledger s e) := by
  unfold State.ledger
  repeat' first
    | with_reducible assumption | (with_reducible refine fst_stable (by assumption) ?_) | with_reducible apply State.modLed_stable hK
    | (intro _ _ _) | (intro _ _) | with_reducible apply foldl_stable | with_reducible apply foldl_fst_stable | with_reducible apply overN_stable
    | extract_lets | with_reducible apply ite_stable | with_reducible apply ite_fst_stable | split
    | fail_if_no_progress (with_reducible apply KeepUnits.other hK) | (dsimp +zetaDelta only)
theorem State.sealReq_stable {P : State → Prop} (hK : KeepUnits P) (s : State) (hsK : P s) : P (State.sealReq s) := by
  unfold State.sealReq
  repeat' first
    | with_reducible assumption | (with_reducible refine fst_stable (by assumption) ?_) | with_reducible apply State.wr_stable hK.toKeepCore
    | with_reducible apply State.modLed_stable hK | with_reducible apply State.ledShow_stable hK.toKeepCore
    | with_reducible apply State.ledCheckFull_stable hK.toKeepCore | (intro _ _ _) | (intro _ _) | with_reducible apply foldl_stable
    | with_reducible apply foldl_fst_stable | with_reducible apply overN_stable | extract_lets | with_reducible apply ite_stable
    | with_reducible apply ite_fst_stable | split | fail_if_no_progress (with_reducible apply KeepUnits.other hK) | (dsimp +zetaDelta only)
theorem State.sealDone_stable {P : State → Prop} (hK : Stable P) (s : State) (hsK : P s) : P (State.sealDone s) := by
  unfold State.sealDone
  repeat' first
    | with_reducible assumption | (with_reducible refine fst_stable (by assumption) ?_) | with_reducible apply State.wr_stable hK.toKeep.toKeepCore
    | with_reducible apply State.bumpEv_stable hK.toKeep.toKeepCore | with_reducible apply State.modLed_stable hK.toKeep.toKeepUnits
    | with_reducible apply State.ledShow_stable hK.toKeep.toKeepCore | with_reducible apply State.ringWrite_stable hK
    | with_reducible apply State.sealReq_stable hK.toKeep.toKeepUnits | (intro _ _ _) | (intro _ _) | with_reducible apply foldl_stable
    | with_reducible apply foldl_fst_stable | with_reducible apply overN_stable | extract_lets | with_reducible apply ite_stable
    | with_reducible apply ite_fst_stable | split | fail_if_no_progress (with_reducible apply Keep.other hK.toKeep) | (dsimp +zetaDelta only)
theorem State.ledFreed_stable {P : State → Prop} (hK : Stable P) (s : State) (hsK : P s) : P (State.ledFreed s) := by
  unfold State.ledFreed
  repeat' first
    | with_reducible assumption | (with_reducible refine fst_stable (by assumption) ?_) | with_reducible apply State.wr_stable hK.toKeep.toKeepCore
    | with_reducible apply State.modLed_stable hK.toKeep.toKeepUnits | with_reducible apply State.ledShow_stable hK.toKeep.toKeepCore
    | with_reducible apply State.ledPut_stable hK | with_reducible apply State.sealReq_stable hK.toKeep.toKeepUnits | (intro _ _ _) | (intro _ _)
    | with_reducible apply foldl_stable | with_reducible apply foldl_fst_stable | with_reducible apply overN_stable | extract_lets
    | with_reducible apply ite_stable | with_reducible apply ite_fst_stable | split
    | fail_if_no_progress (with_reducible apply Keep.other hK.toKeep) | (dsimp +zetaDelta only)
theorem State.chainShow_stable {P : State → Prop} (hK : KeepCore P) (s : State) (hsK : P s) : P (State.chainShow s) := by
  unfold State.chainShow
  repeat' first
    | with_reducible assumption | (with_reducible refine fst_stable (by assumption) ?_) | with_reducible apply State.wr_stable hK | (intro _ _ _)
    | (intro _ _) | with_reducible apply foldl_stable | with_reducible apply foldl_fst_stable | with_reducible apply overN_stable | extract_lets
    | with_reducible apply ite_stable | with_reducible apply ite_fst_stable | split | fail_if_no_progress (with_reducible apply KeepCore.other hK)
    | (dsimp +zetaDelta only)
theorem State.ledInit_stable {P : State → Prop} (hK : Stable P) (s : State) (rnd : BitVec 128) (hsK : P s) : P (State.ledInit s rnd) := by
  unfold State.ledInit
  repeat' first
    | with_reducible assumption | (with_reducible refine fst_stable (by assumption) ?_) | with_reducible apply State.wr_stable hK.toKeep.toKeepCore
    | with_reducible apply State.modLed_stable hK.toKeep.toKeepUnits | with_reducible apply State.ledAppend_stable hK
    | with_reducible apply State.chainShow_stable hK.toKeep.toKeepCore | (intro _ _ _) | (intro _ _) | with_reducible apply foldl_stable
    | with_reducible apply foldl_fst_stable | with_reducible apply overN_stable | extract_lets | with_reducible apply ite_stable
    | with_reducible apply ite_fst_stable | split | fail_if_no_progress (with_reducible apply Keep.other hK.toKeep) | (dsimp +zetaDelta only)
theorem State.ledRestore_stable {P : State → Prop} (hK : Stable P) (s : State) (v : SavedLedger) (hsK : P s) : P (State.ledRestore s v) := by
  unfold State.ledRestore
  repeat' first
    | with_reducible assumption | (with_reducible refine fst_stable (by assumption) ?_) | with_reducible apply State.wr_stable hK.toKeep.toKeepCore
    | with_reducible apply State.bumpErrN_stable hK.toKeep.toKeepCore | with_reducible apply State.modLed_stable hK.toKeep.toKeepUnits
    | with_reducible apply State.ringWrite_stable hK | with_reducible apply State.ledPut_stable hK
    | with_reducible apply State.sealReq_stable hK.toKeep.toKeepUnits | with_reducible apply State.chainShow_stable hK.toKeep.toKeepCore | (intro _ _ _)
    | (intro _ _) | with_reducible apply foldl_stable | with_reducible apply foldl_fst_stable | with_reducible apply overN_stable | extract_lets
    | with_reducible apply ite_stable | with_reducible apply ite_fst_stable | split
    | fail_if_no_progress (with_reducible apply Keep.other hK.toKeep) | (dsimp +zetaDelta only)
theorem State.wrLgCtrl_stable {P : State → Prop} (hK : Stable P) (s0 : State) (w : W64) (rnd : BitVec 128) (hsK : P s0) :
    P (State.wrLgCtrl s0 w rnd) := by
  unfold State.wrLgCtrl
  repeat' first
    | with_reducible assumption | (with_reducible refine fst_stable (by assumption) ?_)
    | with_reducible apply State.answer_stable hK.toKeep.toKeepCore | with_reducible apply State.refuse_stable hK.toKeep.toKeepCore
    | with_reducible apply State.settingWrite_stable hK.toKeep.toKeepCore | with_reducible apply State.msrCompare_stable hK.toKeep.toKeepCore
    | with_reducible apply State.modLed_stable hK.toKeep.toKeepUnits | with_reducible apply State.ledShow_stable hK.toKeep.toKeepCore
    | with_reducible apply State.ledPut_stable hK | with_reducible apply State.ledFlush_stable hK
    | with_reducible apply State.sealReq_stable hK.toKeep.toKeepUnits | with_reducible apply State.ledInit_stable hK
    | with_reducible apply State.ledRestore_stable hK | (intro _ _ _) | (intro _ _) | with_reducible apply foldl_stable
    | with_reducible apply foldl_fst_stable | with_reducible apply overN_stable | extract_lets | with_reducible apply ite_stable
    | with_reducible apply ite_fst_stable | split | fail_if_no_progress (with_reducible apply Keep.other hK.toKeep) | (dsimp +zetaDelta only)
theorem State.wrLgCfg_stable {P : State → Prop} (hK : Stable P) (s0 : State) (w : W64) (hsK : P s0) : P (State.wrLgCfg s0 w) := by
  unfold State.wrLgCfg
  repeat' first
    | with_reducible assumption | (with_reducible refine fst_stable (by assumption) ?_) | with_reducible apply State.wr_stable hK.toKeep.toKeepCore
    | with_reducible apply State.bumpErrN_stable hK.toKeep.toKeepCore | with_reducible apply State.refuse_stable hK.toKeep.toKeepCore
    | with_reducible apply State.settingWrite_stable hK.toKeep.toKeepCore | with_reducible apply State.modLed_stable hK.toKeep.toKeepUnits
    | with_reducible apply State.ledShow_stable hK.toKeep.toKeepCore | with_reducible apply State.ledFlush_stable hK
    | with_reducible apply State.sealReq_stable hK.toKeep.toKeepUnits | with_reducible apply State.ledFreed_stable hK | (intro _ _ _) | (intro _ _)
    | with_reducible apply foldl_stable | with_reducible apply foldl_fst_stable | with_reducible apply overN_stable | extract_lets
    | with_reducible apply ite_stable | with_reducible apply ite_fst_stable | split
    | fail_if_no_progress (with_reducible apply Keep.other hK.toKeep) | (dsimp +zetaDelta only)
theorem State.wrLgSealcfg_stable {P : State → Prop} (hK : KeepUnits P) (s : State) (w : W64) (hsK : P s) : P (State.wrLgSealcfg s w) := by
  unfold State.wrLgSealcfg
  repeat' first
    | with_reducible assumption | (with_reducible refine fst_stable (by assumption) ?_) | with_reducible apply State.settingWrite_stable hK.toKeepCore
    | with_reducible apply State.modLed_stable hK | (intro _ _ _) | (intro _ _) | with_reducible apply foldl_stable
    | with_reducible apply foldl_fst_stable | with_reducible apply overN_stable | extract_lets | with_reducible apply ite_stable
    | with_reducible apply ite_fst_stable | split | fail_if_no_progress (with_reducible apply KeepUnits.other hK) | (dsimp +zetaDelta only)
theorem State.wrLgAck_stable {P : State → Prop} (hK : Stable P) (s : State) (w : W64) (hsK : P s) : P (State.wrLgAck s w) := by
  unfold State.wrLgAck
  repeat' first
    | with_reducible assumption | (with_reducible refine fst_stable (by assumption) ?_)
    | with_reducible apply State.refuse_stable hK.toKeep.toKeepCore | with_reducible apply State.settingWrite_stable hK.toKeep.toKeepCore
    | with_reducible apply State.ledFreed_stable hK | (intro _ _ _) | (intro _ _) | with_reducible apply foldl_stable
    | with_reducible apply foldl_fst_stable | with_reducible apply overN_stable | extract_lets | with_reducible apply ite_stable
    | with_reducible apply ite_fst_stable | split | fail_if_no_progress (with_reducible apply Keep.other hK.toKeep) | (dsimp +zetaDelta only)
theorem State.wrLsubCtrl_stable {P : State → Prop} (hK : KeepUnits P) (s : State) (st : Nat) (w : W64) (hsK : P s) :
    P (State.wrLsubCtrl s st w) := by
  unfold State.wrLsubCtrl
  repeat' first
    | with_reducible assumption | (with_reducible refine fst_stable (by assumption) ?_) | with_reducible apply State.wr_stable hK.toKeepCore
    | with_reducible apply State.refuse_stable hK.toKeepCore | with_reducible apply State.ledger_stable hK | (intro _ _ _) | (intro _ _)
    | with_reducible apply foldl_stable | with_reducible apply foldl_fst_stable | with_reducible apply overN_stable | extract_lets
    | with_reducible apply ite_stable | with_reducible apply ite_fst_stable | split | fail_if_no_progress (with_reducible apply KeepUnits.other hK)
    | (dsimp +zetaDelta only)
theorem execLedgerAppend_stable {P : State → Prop} (hK : Stable P) (s : State) (hsK : P s) : ∃ r_, execLedgerAppend s = .next r_ ∧ P r_ := by
  unfold execLedgerAppend
  refine ⟨_, rfl, ?_⟩
  repeat' first
    | with_reducible assumption | (with_reducible refine fst_stable (by assumption) ?_) | with_reducible apply State.begin_stable hK.toKeep.toKeepCore
    | with_reducible apply State.ledNext_stable hK | (intro _ _ _) | (intro _ _) | with_reducible apply foldl_stable
    | with_reducible apply foldl_fst_stable | with_reducible apply overN_stable | extract_lets | with_reducible apply ite_stable
    | with_reducible apply ite_fst_stable | split | fail_if_no_progress (with_reducible apply Keep.other hK.toKeep) | (dsimp +zetaDelta only)
theorem execSealPeriodWrite_stable {P : State → Prop} (hK : KeepUnits P) (who : Who) (w : W32) (s : State) (hsK : P s) :
    ∃ r_, execSealPeriodWrite who w s = .next r_ ∧ P r_ := by
  unfold execSealPeriodWrite
  refine ⟨_, rfl, ?_⟩
  repeat' first
    | with_reducible assumption | (with_reducible refine fst_stable (by assumption) ?_) | with_reducible apply State.begin_stable hK.toKeepCore
    | with_reducible apply State.write_stable hK.toKeepCore | with_reducible apply State.wrLgSealcfg_stable hK | (intro _ _ _) | (intro _ _)
    | with_reducible apply foldl_stable | with_reducible apply foldl_fst_stable | with_reducible apply overN_stable | extract_lets
    | with_reducible apply ite_stable | with_reducible apply ite_fst_stable | split | fail_if_no_progress (with_reducible apply KeepUnits.other hK)
    | (dsimp +zetaDelta only)
theorem execSealPeriodExpiry_stable {P : State → Prop} (hK : KeepUnits P) (s : State) (hsK : P s) :
    ∃ r_, execSealPeriodExpiry s = .next r_ ∧ P r_ := by
  unfold execSealPeriodExpiry
  refine ⟨_, rfl, ?_⟩
  repeat' first
    | with_reducible assumption | (with_reducible refine fst_stable (by assumption) ?_) | with_reducible apply State.begin_stable hK.toKeepCore
    | with_reducible apply State.guard_stable hK.toKeepCore | with_reducible apply State.sealReq_stable hK | (intro _ _ _) | (intro _ _)
    | with_reducible apply foldl_stable | with_reducible apply foldl_fst_stable | with_reducible apply overN_stable | extract_lets
    | with_reducible apply ite_stable | with_reducible apply ite_fst_stable | split | fail_if_no_progress (with_reducible apply KeepUnits.other hK)
    | (dsimp +zetaDelta only)
theorem execSealComplete_stable {P : State → Prop} (hK : Stable P) (s : State) (hsK : P s) : ∃ r_, execSealComplete s = .next r_ ∧ P r_ := by
  unfold execSealComplete
  refine ⟨_, rfl, ?_⟩
  repeat' first
    | with_reducible assumption | (with_reducible refine fst_stable (by assumption) ?_) | with_reducible apply State.begin_stable hK.toKeep.toKeepCore
    | with_reducible apply State.guard_stable hK.toKeep.toKeepCore | with_reducible apply State.sealDone_stable hK | (intro _ _ _) | (intro _ _)
    | with_reducible apply foldl_stable | with_reducible apply foldl_fst_stable | with_reducible apply overN_stable | extract_lets
    | with_reducible apply ite_stable | with_reducible apply ite_fst_stable | split
    | fail_if_no_progress (with_reducible apply Keep.other hK.toKeep) | (dsimp +zetaDelta only)
theorem execLgAckWrite_stable {P : State → Prop} (hK : Stable P) (who : Who) (w : W32) (s : State) (hsK : P s) :
    ∃ r_, execLgAckWrite who w s = .next r_ ∧ P r_ := by
  unfold execLgAckWrite
  refine ⟨_, rfl, ?_⟩
  repeat' first
    | with_reducible assumption | (with_reducible refine fst_stable (by assumption) ?_) | with_reducible apply State.begin_stable hK.toKeep.toKeepCore
    | with_reducible apply State.write_stable hK.toKeep.toKeepCore | with_reducible apply State.wrLgAck_stable hK | (intro _ _ _) | (intro _ _)
    | with_reducible apply foldl_stable | with_reducible apply foldl_fst_stable | with_reducible apply overN_stable | extract_lets
    | with_reducible apply ite_stable | with_reducible apply ite_fst_stable | split
    | fail_if_no_progress (with_reducible apply Keep.other hK.toKeep) | (dsimp +zetaDelta only)
theorem execLgCfgWrite_stable {P : State → Prop} (hK : Stable P) (who : Who) (w : W32) (s : State) (hsK : P s) :
    ∃ r_, execLgCfgWrite who w s = .next r_ ∧ P r_ := by
  unfold execLgCfgWrite
  refine ⟨_, rfl, ?_⟩
  repeat' first
    | with_reducible assumption | (with_reducible refine fst_stable (by assumption) ?_) | with_reducible apply State.begin_stable hK.toKeep.toKeepCore
    | with_reducible apply State.write_stable hK.toKeep.toKeepCore | with_reducible apply State.wrLgCfg_stable hK | (intro _ _ _) | (intro _ _)
    | with_reducible apply foldl_stable | with_reducible apply foldl_fst_stable | with_reducible apply overN_stable | extract_lets
    | with_reducible apply ite_stable | with_reducible apply ite_fst_stable | split
    | fail_if_no_progress (with_reducible apply Keep.other hK.toKeep) | (dsimp +zetaDelta only)
theorem execLedgerSubmit_stable {P : State → Prop} (hK : KeepUnits P) (st : Fin 16) (w : W32) (s : State) (hsK : P s) :
    ∃ r_, execLedgerSubmit st w s = .next r_ ∧ P r_ := by
  unfold execLedgerSubmit
  refine ⟨_, rfl, ?_⟩
  repeat' first
    | with_reducible assumption | (with_reducible refine fst_stable (by assumption) ?_) | with_reducible apply State.begin_stable hK.toKeepCore
    | with_reducible apply State.write_stable hK.toKeepCore | with_reducible apply State.wrLsubCtrl_stable hK | (intro _ _ _) | (intro _ _)
    | with_reducible apply foldl_stable | with_reducible apply foldl_fst_stable | with_reducible apply overN_stable | extract_lets
    | with_reducible apply ite_stable | with_reducible apply ite_fst_stable | split | fail_if_no_progress (with_reducible apply KeepUnits.other hK)
    | (dsimp +zetaDelta only)

/-! ### Machine/Awning.lean -/

theorem State.awnSelect_stable {P : State → Prop} (hK : KeepUnits P) (s : State) (p : Nat) (hsK : P s) : P (State.awnSelect s p) := by
  unfold State.awnSelect
  repeat' first
    | with_reducible assumption | (with_reducible refine fst_stable (by assumption) ?_) | with_reducible apply State.wr_stable hK.toKeepCore
    | with_reducible apply State.modPipe_stable hK | with_reducible apply State.ledger_stable hK | (intro _ _ _) | (intro _ _)
    | with_reducible apply foldl_stable | with_reducible apply foldl_fst_stable | with_reducible apply overN_stable | extract_lets
    | with_reducible apply ite_stable | with_reducible apply ite_fst_stable | split | fail_if_no_progress (with_reducible apply KeepUnits.other hK)
    | (dsimp +zetaDelta only)
theorem State.awnRead_stable {P : State → Prop} (hK : KeepSys P) (s : State) (v : View) (p copy y : Nat) (hsK : P s) :
    P (State.awnRead s v p copy y).1 := by
  unfold State.awnRead
  repeat' first
    | with_reducible assumption | (with_reducible refine fst_stable (by assumption) ?_) | with_reducible apply State.memLoad_stable hK
    | (intro _ _ _) | (intro _ _) | with_reducible apply foldl_stable | with_reducible apply foldl_fst_stable | with_reducible apply overN_stable
    | extract_lets | with_reducible apply ite_stable | with_reducible apply ite_fst_stable | split
    | fail_if_no_progress (with_reducible apply KeepSys.other hK) | (dsimp +zetaDelta only)
theorem State.awnSwitch_stable {P : State → Prop} (hK : KeepUnits P) (s : State) (p copy y : Nat) (hsK : P s) : P (State.awnSwitch s p copy y) := by
  unfold State.awnSwitch
  repeat' first
    | with_reducible assumption | (with_reducible refine fst_stable (by assumption) ?_) | with_reducible apply State.wr_stable hK.toKeepCore
    | with_reducible apply State.bumpErr_stable hK.toKeepCore | with_reducible apply State.kevt_stable hK.toKeepCore
    | with_reducible apply State.modPipe_stable hK | with_reducible apply State.ledger_stable hK | (intro _ _ _) | (intro _ _)
    | with_reducible apply foldl_stable | with_reducible apply foldl_fst_stable | with_reducible apply overN_stable | extract_lets
    | with_reducible apply ite_stable | with_reducible apply ite_fst_stable | split | fail_if_no_progress (with_reducible apply KeepUnits.other hK)
    | (dsimp +zetaDelta only)
theorem State.awnDouble_stable {P : State → Prop} (hK : KeepUnits P) (s : State) (p y : Nat) (hsK : P s) : P (State.awnDouble s p y) := by
  unfold State.awnDouble
  repeat' first
    | with_reducible assumption | (with_reducible refine fst_stable (by assumption) ?_) | with_reducible apply State.wr_stable hK.toKeepCore
    | with_reducible apply State.modPipe_stable hK | (intro _ _ _) | (intro _ _) | with_reducible apply foldl_stable
    | with_reducible apply foldl_fst_stable | with_reducible apply overN_stable | extract_lets | with_reducible apply ite_stable
    | with_reducible apply ite_fst_stable | split | fail_if_no_progress (with_reducible apply KeepUnits.other hK) | (dsimp +zetaDelta only)
theorem State.awnFetched_stable {P : State → Prop} (hK : Keep P) (s : State) (p y : Nat) (hsK : P s) : P (State.awnFetched s p y) := by
  unfold State.awnFetched
  repeat' first
    | with_reducible assumption | (with_reducible refine fst_stable (by assumption) ?_) | with_reducible apply State.modPipe_stable hK.toKeepUnits
    | with_reducible apply State.awnRead_stable hK.toKeepSys | with_reducible apply State.awnSwitch_stable hK.toKeepUnits
    | with_reducible apply State.awnDouble_stable hK.toKeepUnits | (intro _ _ _) | (intro _ _) | with_reducible apply foldl_stable
    | with_reducible apply foldl_fst_stable | with_reducible apply overN_stable | extract_lets | with_reducible apply ite_stable
    | with_reducible apply ite_fst_stable | split | fail_if_no_progress (with_reducible apply Keep.other hK) | (dsimp +zetaDelta only)
theorem State.wrAfctl_stable {P : State → Prop} (hK : KeepUnits P) (s : State) (p : Nat) (w : W64) (hsK : P s) : P (State.wrAfctl s p w) := by
  unfold State.wrAfctl
  repeat' first
    | with_reducible assumption | (with_reducible refine fst_stable (by assumption) ?_) | with_reducible apply State.refuse_stable hK.toKeepCore
    | with_reducible apply State.settingWrite_stable hK.toKeepCore | with_reducible apply State.modPipe_stable hK | (intro _ _ _) | (intro _ _)
    | with_reducible apply foldl_stable | with_reducible apply foldl_fst_stable | with_reducible apply overN_stable | extract_lets
    | with_reducible apply ite_stable | with_reducible apply ite_fst_stable | split | fail_if_no_progress (with_reducible apply KeepUnits.other hK)
    | (dsimp +zetaDelta only)
theorem State.wrAfclr_stable {P : State → Prop} (hK : KeepCore P) (s : State) (p : Nat) (w : W64) (hsK : P s) : P (State.wrAfclr s p w) := by
  unfold State.wrAfclr
  repeat' first
    | with_reducible assumption | (with_reducible refine fst_stable (by assumption) ?_) | with_reducible apply State.wr_stable hK | (intro _ _ _)
    | (intro _ _) | with_reducible apply foldl_stable | with_reducible apply foldl_fst_stable | with_reducible apply overN_stable | extract_lets
    | with_reducible apply ite_stable | with_reducible apply ite_fst_stable | split | fail_if_no_progress (with_reducible apply KeepCore.other hK)
    | (dsimp +zetaDelta only)
theorem State.awnLatch_stable {P : State → Prop} (hK : KeepUnits P) (s : State) (p : Nat) (hsK : P s) : P (State.awnLatch s p) := by
  unfold State.awnLatch
  repeat' first
    | with_reducible assumption | (with_reducible refine fst_stable (by assumption) ?_) | with_reducible apply State.latch_stable hK.toKeepCore
    | with_reducible apply State.modPipe_stable hK | (intro _ _ _) | (intro _ _) | with_reducible apply foldl_stable
    | with_reducible apply foldl_fst_stable | with_reducible apply overN_stable | extract_lets | with_reducible apply ite_stable
    | with_reducible apply ite_fst_stable | split | fail_if_no_progress (with_reducible apply KeepUnits.other hK) | (dsimp +zetaDelta only)
theorem State.awnTake_stable {P : State → Prop} (hK : KeepUnits P) (s : State) (p : Nat) (hsK : P s) : P (State.awnTake s p) := by
  unfold State.awnTake
  repeat' first
    | with_reducible assumption | (with_reducible refine fst_stable (by assumption) ?_) | with_reducible apply State.wr_stable hK.toKeepCore
    | with_reducible apply State.latch_stable hK.toKeepCore | with_reducible apply State.modPipe_stable hK | (intro _ _ _) | (intro _ _)
    | with_reducible apply foldl_stable | with_reducible apply foldl_fst_stable | with_reducible apply overN_stable | extract_lets
    | with_reducible apply ite_stable | with_reducible apply ite_fst_stable | split | fail_if_no_progress (with_reducible apply KeepUnits.other hK)
    | (dsimp +zetaDelta only)
theorem execAwningLineFetched_stable {P : State → Prop} (hK : Keep P) (p : Fin 8) (y : Nat) (s : State) (hsK : P s) :
    ∃ r_, execAwningLineFetched p y s = .next r_ ∧ P r_ := by
  unfold execAwningLineFetched
  refine ⟨_, rfl, ?_⟩
  repeat' first
    | with_reducible assumption | (with_reducible refine fst_stable (by assumption) ?_) | with_reducible apply State.begin_stable hK.toKeepCore
    | with_reducible apply State.awnFetched_stable hK | (intro _ _ _) | (intro _ _) | with_reducible apply foldl_stable
    | with_reducible apply foldl_fst_stable | with_reducible apply overN_stable | extract_lets | with_reducible apply ite_stable
    | with_reducible apply ite_fst_stable | split | fail_if_no_progress (with_reducible apply Keep.other hK) | (dsimp +zetaDelta only)
theorem execAwningFaultMasked_stable {P : State → Prop} (hK : KeepCore P) (p : Fin 8) (y : Nat) (s : State) (hsK : P s) :
    ∃ r_, execAwningFaultMasked p y s = .next r_ ∧ P r_ := by
  unfold execAwningFaultMasked
  refine ⟨_, rfl, ?_⟩
  repeat' first
    | with_reducible assumption | (with_reducible refine fst_stable (by assumption) ?_) | with_reducible apply State.bumpErr_stable hK
    | with_reducible apply State.begin_stable hK | with_reducible apply State.kevt_stable hK | with_reducible apply State.guard_stable hK
    | (intro _ _ _) | (intro _ _) | with_reducible apply foldl_stable | with_reducible apply foldl_fst_stable | with_reducible apply overN_stable
    | extract_lets | with_reducible apply ite_stable | with_reducible apply ite_fst_stable | split
    | fail_if_no_progress (with_reducible apply KeepCore.other hK) | (dsimp +zetaDelta only)
theorem execAfclr_stable {P : State → Prop} (hK : KeepCore P) (who : Who) (p : Fin 8) (w : W32) (s : State) (hsK : P s) :
    ∃ r_, execAfclr who p w s = .next r_ ∧ P r_ := by
  unfold execAfclr
  refine ⟨_, rfl, ?_⟩
  repeat' first
    | with_reducible assumption | (with_reducible refine fst_stable (by assumption) ?_) | with_reducible apply State.begin_stable hK
    | with_reducible apply State.write_stable hK | with_reducible apply State.wrAfclr_stable hK | (intro _ _ _) | (intro _ _)
    | with_reducible apply foldl_stable | with_reducible apply foldl_fst_stable | with_reducible apply overN_stable | extract_lets
    | with_reducible apply ite_stable | with_reducible apply ite_fst_stable | split | fail_if_no_progress (with_reducible apply KeepCore.other hK)
    | (dsimp +zetaDelta only)

/-! ### Machine/Commit.lean -/

theorem State.setFence_stable {P : State → Prop} (hK : KeepCore P) (s : State) (st f v : Nat) (hsK : P s) : P (State.setFence s st f v) := by
  unfold State.setFence
  repeat' first
    | with_reducible assumption | (with_reducible refine fst_stable (by assumption) ?_) | with_reducible apply State.wr_stable hK | (intro _ _ _)
    | (intro _ _) | with_reducible apply foldl_stable | with_reducible apply foldl_fst_stable | with_reducible apply overN_stable | extract_lets
    | with_reducible apply ite_stable | with_reducible apply ite_fst_stable | split | fail_if_no_progress (with_reducible apply KeepCore.other hK)
    | (dsimp +zetaDelta only)
theorem execFvalWrite_stable {P : State → Prop} (hK : KeepCore P) (who : Who) (st : Fin 16) (f : Fin 64) (w : W32) (s : State) (hsK : P s) :
    ∃ r_, execFvalWrite who st f w s = .next r_ ∧ P r_ := by
  unfold execFvalWrite
  refine ⟨_, rfl, ?_⟩
  repeat' first
    | with_reducible assumption | (with_reducible refine fst_stable (by assumption) ?_) | with_reducible apply State.begin_stable hK
    | with_reducible apply State.write_stable hK | with_reducible apply State.setFence_stable hK | (intro _ _ _) | (intro _ _)
    | with_reducible apply foldl_stable | with_reducible apply foldl_fst_stable | with_reducible apply overN_stable | extract_lets
    | with_reducible apply ite_stable | with_reducible apply ite_fst_stable | split | fail_if_no_progress (with_reducible apply KeepCore.other hK)
    | (dsimp +zetaDelta only)
theorem execFadd_stable {P : State → Prop} (hK : KeepCore P) (who : Who) (st : Fin 16) (f : Fin 64) (n : W32) (s : State) (hsK : P s) :
    ∃ r_, execFadd who st f n s = .next r_ ∧ P r_ := by
  unfold execFadd
  refine ⟨_, rfl, ?_⟩
  repeat' first
    | with_reducible assumption | (with_reducible refine fst_stable (by assumption) ?_) | with_reducible apply State.begin_stable hK
    | with_reducible apply State.write_stable hK | with_reducible apply State.setFence_stable hK | (intro _ _ _) | (intro _ _)
    | with_reducible apply foldl_stable | with_reducible apply foldl_fst_stable | with_reducible apply overN_stable | extract_lets
    | with_reducible apply ite_stable | with_reducible apply ite_fst_stable | split | fail_if_no_progress (with_reducible apply KeepCore.other hK)
    | (dsimp +zetaDelta only)
theorem State.modLay_stable {P : State → Prop} (hK : KeepUnits P) (s : State) (p m : Nat) (f : LaySt → LaySt) (hsK : P s) :
    P (State.modLay s p m f) := by
  unfold State.modLay
  repeat' first
    | with_reducible assumption | (with_reducible refine fst_stable (by assumption) ?_) | with_reducible apply State.modPipe_stable hK
    | (intro _ _ _) | (intro _ _) | with_reducible apply foldl_stable | with_reducible apply foldl_fst_stable | with_reducible apply overN_stable
    | extract_lets | with_reducible apply ite_stable | with_reducible apply ite_fst_stable | split
    | fail_if_no_progress (with_reducible apply KeepUnits.other hK) | (dsimp +zetaDelta only)
theorem State.showPend_stable {P : State → Prop} (hK : KeepCore P) (s : State) (p m : Nat) (hsK : P s) : P (State.showPend s p m) := by
  unfold State.showPend
  repeat' first
    | with_reducible assumption | (with_reducible refine fst_stable (by assumption) ?_) | with_reducible apply State.wr_stable hK | (intro _ _ _)
    | (intro _ _) | with_reducible apply foldl_stable | with_reducible apply foldl_fst_stable | with_reducible apply overN_stable | extract_lets
    | with_reducible apply ite_stable | with_reducible apply ite_fst_stable | split | fail_if_no_progress (with_reducible apply KeepCore.other hK)
    | (dsimp +zetaDelta only)
theorem State.showLayer_stable {P : State → Prop} (hK : KeepCore P) (s : State) (p m : Nat) (hsK : P s) : P (State.showLayer s p m) := by
  unfold State.showLayer
  repeat' first
    | with_reducible assumption | (with_reducible refine fst_stable (by assumption) ?_) | with_reducible apply State.wr_stable hK
    | with_reducible apply State.showPend_stable hK | (intro _ _ _) | (intro _ _) | with_reducible apply foldl_stable
    | with_reducible apply foldl_fst_stable | with_reducible apply overN_stable | extract_lets | with_reducible apply ite_stable
    | with_reducible apply ite_fst_stable | split | fail_if_no_progress (with_reducible apply KeepCore.other hK) | (dsimp +zetaDelta only)
theorem State.showPcommit_stable {P : State → Prop} (hK : KeepCore P) (s : State) (p : Nat) (hsK : P s) : P (State.showPcommit s p) := by
  unfold State.showPcommit
  repeat' first
    | with_reducible assumption | (with_reducible refine fst_stable (by assumption) ?_) | with_reducible apply State.wr_stable hK | (intro _ _ _)
    | (intro _ _) | with_reducible apply foldl_stable | with_reducible apply foldl_fst_stable | with_reducible apply overN_stable | extract_lets
    | with_reducible apply ite_stable | with_reducible apply ite_fst_stable | split | fail_if_no_progress (with_reducible apply KeepCore.other hK)
    | (dsimp +zetaDelta only)
theorem State.releaseNow_stable {P : State → Prop} (hK : KeepCore P) (s : State) (p m : Nat) (hsK : P s) : P (State.releaseNow s p m) := by
  unfold State.releaseNow
  repeat' first
    | with_reducible assumption | (with_reducible refine fst_stable (by assumption) ?_) | with_reducible apply State.setFence_stable hK
    | (intro _ _ _) | (intro _ _) | with_reducible apply foldl_stable | with_reducible apply foldl_fst_stable | with_reducible apply overN_stable
    | extract_lets | with_reducible apply ite_stable | with_reducible apply ite_fst_stable | split
    | fail_if_no_progress (with_reducible apply KeepCore.other hK) | (dsimp +zetaDelta only)
theorem State.flip_stable {P : State → Prop} (hK : KeepCore P) (s : State) (p m : Nat) (hsK : P s) : P (State.flip s p m) := by
  unfold State.flip
  repeat' first
    | with_reducible assumption | (with_reducible refine fst_stable (by assumption) ?_) | with_reducible apply State.irq_stable hK | (intro _ _ _)
    | (intro _ _) | with_reducible apply foldl_stable | with_reducible apply foldl_fst_stable | with_reducible apply overN_stable | extract_lets
    | with_reducible apply ite_stable | with_reducible apply ite_fst_stable | split | fail_if_no_progress (with_reducible apply KeepCore.other hK)
    | (dsimp +zetaDelta only)
theorem State.dropCommit_stable {P : State → Prop} (hK : KeepUnits P) (s : State) (p m res : Nat) (release : Bool) (hsK : P s) :
    P (State.dropCommit s p m res release) := by
  unfold State.dropCommit
  repeat' first
    | with_reducible assumption | (with_reducible refine fst_stable (by assumption) ?_) | with_reducible apply State.modLay_stable hK
    | with_reducible apply State.showLayer_stable hK.toKeepCore | with_reducible apply State.releaseNow_stable hK.toKeepCore
    | with_reducible apply State.flip_stable hK.toKeepCore | (intro _ _ _) | (intro _ _) | with_reducible apply foldl_stable
    | with_reducible apply foldl_fst_stable | with_reducible apply overN_stable | extract_lets | with_reducible apply ite_stable
    | with_reducible apply ite_fst_stable | split | fail_if_no_progress (with_reducible apply KeepUnits.other hK) | (dsimp +zetaDelta only)
theorem State.commitArrives_stable {P : State → Prop} (hK : KeepUnits P) (s : State) (p m : Nat) (hsK : P s) : P (State.commitArrives s p m) := by
  unfold State.commitArrives
  repeat' first
    | with_reducible assumption | (with_reducible refine fst_stable (by assumption) ?_) | with_reducible apply State.bumpErr_stable hK.toKeepCore
    | with_reducible apply State.modLay_stable hK | with_reducible apply State.showPend_stable hK.toKeepCore | (intro _ _ _) | (intro _ _)
    | with_reducible apply foldl_stable | with_reducible apply foldl_fst_stable | with_reducible apply overN_stable | extract_lets
    | with_reducible apply ite_stable | with_reducible apply ite_fst_stable | split | fail_if_no_progress (with_reducible apply KeepUnits.other hK)
    | (dsimp +zetaDelta only)
theorem State.wrCommit_stable {P : State → Prop} (hK : KeepUnits P) (s : State) (p m : Nat) (w : W64) (hsK : P s) : P (State.wrCommit s p m w) := by
  unfold State.wrCommit
  repeat' first
    | with_reducible assumption | (with_reducible refine fst_stable (by assumption) ?_) | with_reducible apply State.refuse_stable hK.toKeepCore
    | with_reducible apply State.kevt_stable hK.toKeepCore | with_reducible apply State.modLay_stable hK
    | with_reducible apply State.showPend_stable hK.toKeepCore | with_reducible apply State.dropCommit_stable hK
    | with_reducible apply State.commitArrives_stable hK | (intro _ _ _) | (intro _ _) | with_reducible apply foldl_stable
    | with_reducible apply foldl_fst_stable | with_reducible apply overN_stable | extract_lets | with_reducible apply ite_stable
    | with_reducible apply ite_fst_stable | split | fail_if_no_progress (with_reducible apply KeepUnits.other hK) | (dsimp +zetaDelta only)
theorem execLayerCommit_stable {P : State → Prop} (hK : KeepUnits P) (who : Who) (p m : Fin 8) (s : State) (hsK : P s) :
    ∃ r_, execLayerCommit who p m s = .next r_ ∧ P r_ := by
  unfold execLayerCommit
  refine ⟨_, rfl, ?_⟩
  repeat' first
    | with_reducible assumption | (with_reducible refine fst_stable (by assumption) ?_) | with_reducible apply State.begin_stable hK.toKeepCore
    | with_reducible apply State.write_stable hK.toKeepCore | with_reducible apply State.wrCommit_stable hK | (intro _ _ _) | (intro _ _)
    | with_reducible apply foldl_stable | with_reducible apply foldl_fst_stable | with_reducible apply overN_stable | extract_lets
    | with_reducible apply ite_stable | with_reducible apply ite_fst_stable | split | fail_if_no_progress (with_reducible apply KeepUnits.other hK)
    | (dsimp +zetaDelta only)
theorem execLayerCancel_stable {P : State → Prop} (hK : KeepUnits P) (who : Who) (p m : Fin 8) (s : State) (hsK : P s) :
    ∃ r_, execLayerCancel who p m s = .next r_ ∧ P r_ := by
  unfold execLayerCancel
  refine ⟨_, rfl, ?_⟩
  repeat' first
    | with_reducible assumption | (with_reducible refine fst_stable (by assumption) ?_) | with_reducible apply State.begin_stable hK.toKeepCore
    | with_reducible apply State.write_stable hK.toKeepCore | with_reducible apply State.wrCommit_stable hK | (intro _ _ _) | (intro _ _)
    | with_reducible apply foldl_stable | with_reducible apply foldl_fst_stable | with_reducible apply overN_stable | extract_lets
    | with_reducible apply ite_stable | with_reducible apply ite_fst_stable | split | fail_if_no_progress (with_reducible apply KeepUnits.other hK)
    | (dsimp +zetaDelta only)
theorem State.presultNow_stable {P : State → Prop} (hK : KeepUnits P) (s : State) (p res : Nat) (hsK : P s) : P (State.presultNow s p res) := by
  unfold State.presultNow
  repeat' first
    | with_reducible assumption | (with_reducible refine fst_stable (by assumption) ?_) | with_reducible apply State.wr_stable hK.toKeepCore
    | with_reducible apply State.modPipe_stable hK | (intro _ _ _) | (intro _ _) | with_reducible apply foldl_stable
    | with_reducible apply foldl_fst_stable | with_reducible apply overN_stable | extract_lets | with_reducible apply ite_stable
    | with_reducible apply ite_fst_stable | split | fail_if_no_progress (with_reducible apply KeepUnits.other hK) | (dsimp +zetaDelta only)
theorem State.plate_stable {P : State → Prop} (hK : KeepCore P) (s : State) (p : Nat) (hsK : P s) : P (State.plate s p) := by
  unfold State.plate
  repeat' first
    | with_reducible assumption | (with_reducible refine fst_stable (by assumption) ?_) | with_reducible apply State.bumpErr_stable hK
    | (intro _ _ _) | (intro _ _) | with_reducible apply foldl_stable | with_reducible apply foldl_fst_stable | with_reducible apply overN_stable
    | extract_lets | with_reducible apply ite_stable | with_reducible apply ite_fst_stable | split
    | fail_if_no_progress (with_reducible apply KeepCore.other hK) | (dsimp +zetaDelta only)
theorem State.wrPcommit_stable {P : State → Prop} (hK : KeepUnits P) (s : State) (who : Who) (p : Nat) (w0 : W64) (hsK : P s) :
    P (State.wrPcommit s who p w0) := by
  unfold State.wrPcommit
  repeat' first
    | with_reducible assumption | (with_reducible refine fst_stable (by assumption) ?_) | with_reducible apply State.refuse_stable hK.toKeepCore
    | with_reducible apply State.modPipe_stable hK | with_reducible apply State.showPcommit_stable hK.toKeepCore
    | with_reducible apply State.presultNow_stable hK | with_reducible apply State.plate_stable hK.toKeepCore | (intro _ _ _) | (intro _ _)
    | with_reducible apply foldl_stable | with_reducible apply foldl_fst_stable | with_reducible apply overN_stable | extract_lets
    | with_reducible apply ite_stable | with_reducible apply ite_fst_stable | split | fail_if_no_progress (with_reducible apply KeepUnits.other hK)
    | (dsimp +zetaDelta only)
theorem State.wrAcommit_stable {P : State → Prop} (hK : KeepUnits P) (s : State) (p : Nat) (w : W64) (hsK : P s) : P (State.wrAcommit s p w) := by
  unfold State.wrAcommit
  repeat' first
    | with_reducible assumption | (with_reducible refine fst_stable (by assumption) ?_) | with_reducible apply State.refuse_stable hK.toKeepCore
    | with_reducible apply State.modPipe_stable hK | with_reducible apply State.showPcommit_stable hK.toKeepCore
    | with_reducible apply State.plate_stable hK.toKeepCore | (intro _ _ _) | (intro _ _) | with_reducible apply foldl_stable
    | with_reducible apply foldl_fst_stable | with_reducible apply overN_stable | extract_lets | with_reducible apply ite_stable
    | with_reducible apply ite_fst_stable | split | fail_if_no_progress (with_reducible apply KeepUnits.other hK) | (dsimp +zetaDelta only)
theorem State.wrKrel_stable {P : State → Prop} (hK : KeepUnits P) (s : State) (p : Nat) (w : W64) (hsK : P s) : P (State.wrKrel s p w) := by
  unfold State.wrKrel
  repeat' first
    | with_reducible assumption | (with_reducible refine fst_stable (by assumption) ?_) | with_reducible apply State.refuse_stable hK.toKeepCore
    | with_reducible apply State.dropCommit_stable hK | with_reducible apply State.commitArrives_stable hK | (intro _ _ _) | (intro _ _)
    | with_reducible apply foldl_stable | with_reducible apply foldl_fst_stable | with_reducible apply overN_stable | extract_lets
    | with_reducible apply ite_stable | with_reducible apply ite_fst_stable | split | fail_if_no_progress (with_reducible apply KeepUnits.other hK)
    | (dsimp +zetaDelta only)
theorem State.wrCmodeCfg_stable {P : State → Prop} (hK : KeepCore P) (s : State) (p : Nat) (w : W64) (hsK : P s) : P (State.wrCmodeCfg s p w) := by
  unfold State.wrCmodeCfg
  repeat' first
    | with_reducible assumption | (with_reducible refine fst_stable (by assumption) ?_) | with_reducible apply State.refuse_stable hK
    | with_reducible apply State.settingWrite_stable hK | (intro _ _ _) | (intro _ _) | with_reducible apply foldl_stable
    | with_reducible apply foldl_fst_stable | with_reducible apply overN_stable | extract_lets | with_reducible apply ite_stable
    | with_reducible apply ite_fst_stable | split | fail_if_no_progress (with_reducible apply KeepCore.other hK) | (dsimp +zetaDelta only)
theorem execPipeCommit_stable {P : State → Prop} (hK : KeepUnits P) (who : Who) (p : Fin 8) (s : State) (hsK : P s) :
    ∃ r_, execPipeCommit who p s = .next r_ ∧ P r_ := by
  unfold execPipeCommit
  refine ⟨_, rfl, ?_⟩
  repeat' first
    | with_reducible assumption | (with_reducible refine fst_stable (by assumption) ?_) | with_reducible apply State.begin_stable hK.toKeepCore
    | with_reducible apply State.write_stable hK.toKeepCore | with_reducible apply State.wrPcommit_stable hK | (intro _ _ _) | (intro _ _)
    | with_reducible apply foldl_stable | with_reducible apply foldl_fst_stable | with_reducible apply overN_stable | extract_lets
    | with_reducible apply ite_stable | with_reducible apply ite_fst_stable | split | fail_if_no_progress (with_reducible apply KeepUnits.other hK)
    | (dsimp +zetaDelta only)
theorem execLockstepRequest_stable {P : State → Prop} (hK : KeepUnits P) (who : Who) (p : Fin 8) (s : State) (hsK : P s) :
    ∃ r_, execLockstepRequest who p s = .next r_ ∧ P r_ := by
  unfold execLockstepRequest
  refine ⟨_, rfl, ?_⟩
  repeat' first
    | with_reducible assumption | (with_reducible refine fst_stable (by assumption) ?_) | with_reducible apply State.begin_stable hK.toKeepCore
    | with_reducible apply State.write_stable hK.toKeepCore | with_reducible apply State.wrPcommit_stable hK | (intro _ _ _) | (intro _ _)
    | with_reducible apply foldl_stable | with_reducible apply foldl_fst_stable | with_reducible apply overN_stable | extract_lets
    | with_reducible apply ite_stable | with_reducible apply ite_fst_stable | split | fail_if_no_progress (with_reducible apply KeepUnits.other hK)
    | (dsimp +zetaDelta only)
theorem execCancelPipe_stable {P : State → Prop} (hK : KeepUnits P) (who : Who) (p : Fin 8) (s : State) (hsK : P s) :
    ∃ r_, execCancelPipe who p s = .next r_ ∧ P r_ := by
  unfold execCancelPipe
  refine ⟨_, rfl, ?_⟩
  repeat' first
    | with_reducible assumption | (with_reducible refine fst_stable (by assumption) ?_) | with_reducible apply State.begin_stable hK.toKeepCore
    | with_reducible apply State.write_stable hK.toKeepCore | with_reducible apply State.wrPcommit_stable hK | (intro _ _ _) | (intro _ _)
    | with_reducible apply foldl_stable | with_reducible apply foldl_fst_stable | with_reducible apply overN_stable | extract_lets
    | with_reducible apply ite_stable | with_reducible apply ite_fst_stable | split | fail_if_no_progress (with_reducible apply KeepUnits.other hK)
    | (dsimp +zetaDelta only)
theorem execCancelLock_stable {P : State → Prop} (hK : KeepUnits P) (who : Who) (p : Fin 8) (s : State) (hsK : P s) :
    ∃ r_, execCancelLock who p s = .next r_ ∧ P r_ := by
  unfold execCancelLock
  refine ⟨_, rfl, ?_⟩
  repeat' first
    | with_reducible assumption | (with_reducible refine fst_stable (by assumption) ?_) | with_reducible apply State.begin_stable hK.toKeepCore
    | with_reducible apply State.write_stable hK.toKeepCore | with_reducible apply State.wrPcommit_stable hK | (intro _ _ _) | (intro _ _)
    | with_reducible apply foldl_stable | with_reducible apply foldl_fst_stable | with_reducible apply overN_stable | extract_lets
    | with_reducible apply ite_stable | with_reducible apply ite_fst_stable | split | fail_if_no_progress (with_reducible apply KeepUnits.other hK)
    | (dsimp +zetaDelta only)
theorem execAwningCommit_stable {P : State → Prop} (hK : KeepUnits P) (who : Who) (p : Fin 8) (s : State) (hsK : P s) :
    ∃ r_, execAwningCommit who p s = .next r_ ∧ P r_ := by
  unfold execAwningCommit
  refine ⟨_, rfl, ?_⟩
  repeat' first
    | with_reducible assumption | (with_reducible refine fst_stable (by assumption) ?_) | with_reducible apply State.begin_stable hK.toKeepCore
    | with_reducible apply State.write_stable hK.toKeepCore | with_reducible apply State.wrAcommit_stable hK | (intro _ _ _) | (intro _ _)
    | with_reducible apply foldl_stable | with_reducible apply foldl_fst_stable | with_reducible apply overN_stable | extract_lets
    | with_reducible apply ite_stable | with_reducible apply ite_fst_stable | split | fail_if_no_progress (with_reducible apply KeepUnits.other hK)
    | (dsimp +zetaDelta only)
theorem execAwningCancel_stable {P : State → Prop} (hK : KeepUnits P) (who : Who) (p : Fin 8) (s : State) (hsK : P s) :
    ∃ r_, execAwningCancel who p s = .next r_ ∧ P r_ := by
  unfold execAwningCancel
  refine ⟨_, rfl, ?_⟩
  repeat' first
    | with_reducible assumption | (with_reducible refine fst_stable (by assumption) ?_) | with_reducible apply State.begin_stable hK.toKeepCore
    | with_reducible apply State.write_stable hK.toKeepCore | with_reducible apply State.wrAcommit_stable hK | (intro _ _ _) | (intro _ _)
    | with_reducible apply foldl_stable | with_reducible apply foldl_fst_stable | with_reducible apply overN_stable | extract_lets
    | with_reducible apply ite_stable | with_reducible apply ite_fst_stable | split | fail_if_no_progress (with_reducible apply KeepUnits.other hK)
    | (dsimp +zetaDelta only)
theorem execKrelRelease_stable {P : State → Prop} (hK : KeepUnits P) (who : Who) (p : Fin 8) (layers : BitVec 8) (s : State) (hsK : P s) :
    ∃ r_, execKrelRelease who p layers s = .next r_ ∧ P r_ := by
  unfold execKrelRelease
  refine ⟨_, rfl, ?_⟩
  repeat' first
    | with_reducible assumption | (with_reducible refine fst_stable (by assumption) ?_) | with_reducible apply State.begin_stable hK.toKeepCore
    | with_reducible apply State.write_stable hK.toKeepCore | with_reducible apply State.wrKrel_stable hK | (intro _ _ _) | (intro _ _)
    | with_reducible apply foldl_stable | with_reducible apply foldl_fst_stable | with_reducible apply overN_stable | extract_lets
    | with_reducible apply ite_stable | with_reducible apply ite_fst_stable | split | fail_if_no_progress (with_reducible apply KeepUnits.other hK)
    | (dsimp +zetaDelta only)
theorem execKrelReject_stable {P : State → Prop} (hK : KeepUnits P) (who : Who) (p : Fin 8) (layers : BitVec 8) (s : State) (hsK : P s) :
    ∃ r_, execKrelReject who p layers s = .next r_ ∧ P r_ := by
  unfold execKrelReject
  refine ⟨_, rfl, ?_⟩
  repeat' first
    | with_reducible assumption | (with_reducible refine fst_stable (by assumption) ?_) | with_reducible apply State.begin_stable hK.toKeepCore
    | with_reducible apply State.write_stable hK.toKeepCore | with_reducible apply State.wrKrel_stable hK | (intro _ _ _) | (intro _ _)
    | with_reducible apply foldl_stable | with_reducible apply foldl_fst_stable | with_reducible apply overN_stable | extract_lets
    | with_reducible apply ite_stable | with_reducible apply ite_fst_stable | split | fail_if_no_progress (with_reducible apply KeepUnits.other hK)
    | (dsimp +zetaDelta only)
theorem State.latchAll_stable {P : State → Prop} (hK : KeepCore P) (s : State) (l : List Nat) (hsK : P s) : P (State.latchAll s l) := by
  unfold State.latchAll
  repeat' first
    | with_reducible assumption | (with_reducible refine fst_stable (by assumption) ?_) | with_reducible apply State.latch_stable hK
    | (intro _ _ _) | (intro _ _) | with_reducible apply foldl_stable | with_reducible apply foldl_fst_stable | with_reducible apply overN_stable
    | extract_lets | with_reducible apply ite_stable | with_reducible apply ite_fst_stable | split
    | fail_if_no_progress (with_reducible apply KeepCore.other hK) | (dsimp +zetaDelta only)
theorem State.notReadyLayer_stable {P : State → Prop} (hK : KeepUnits P) (s : State) (p m : Nat) (counted fenced waits : Bool) (hsK : P s) :
    P (State.notReadyLayer s p m counted fenced waits) := by
  unfold State.notReadyLayer
  repeat' first
    | with_reducible assumption | (with_reducible refine fst_stable (by assumption) ?_) | with_reducible apply State.bumpErr_stable hK.toKeepCore
    | with_reducible apply State.modPipe_stable hK | with_reducible apply State.modLay_stable hK | (intro _ _ _) | (intro _ _)
    | with_reducible apply foldl_stable | with_reducible apply foldl_fst_stable | with_reducible apply overN_stable | extract_lets
    | with_reducible apply ite_stable | with_reducible apply ite_fst_stable | split | fail_if_no_progress (with_reducible apply KeepUnits.other hK)
    | (dsimp +zetaDelta only)
theorem State.takeLayer_stable {P : State → Prop} (hK : KeepUnits P) (s : State) (p m : Nat) (hsK : P s) : P (State.takeLayer s p m) := by
  unfold State.takeLayer
  repeat' first
    | with_reducible assumption | (with_reducible refine fst_stable (by assumption) ?_) | with_reducible apply State.modPipe_stable hK
    | with_reducible apply State.modLay_stable hK | with_reducible apply State.latchAll_stable hK.toKeepCore | (intro _ _ _) | (intro _ _)
    | with_reducible apply foldl_stable | with_reducible apply foldl_fst_stable | with_reducible apply overN_stable | extract_lets
    | with_reducible apply ite_stable | with_reducible apply ite_fst_stable | split | fail_if_no_progress (with_reducible apply KeepUnits.other hK)
    | (dsimp +zetaDelta only)
theorem State.endPipeGroups_stable {P : State → Prop} (hK : KeepUnits P) (s : State) (p : Nat) (t : Take) (res : Nat) (hsK : P s) :
    P (State.endPipeGroups s p t res) := by
  unfold State.endPipeGroups
  repeat' first
    | with_reducible assumption | (with_reducible refine fst_stable (by assumption) ?_) | with_reducible apply State.modPipe_stable hK
    | (intro _ _ _) | (intro _ _) | with_reducible apply foldl_stable | with_reducible apply foldl_fst_stable | with_reducible apply overN_stable
    | extract_lets | with_reducible apply ite_stable | with_reducible apply ite_fst_stable | split
    | fail_if_no_progress (with_reducible apply KeepUnits.other hK) | (dsimp +zetaDelta only)
theorem State.applyTake_stable {P : State → Prop} (hK : KeepUnits P) (s : State) (p : Nat) (t : Take) (hsK : P s) : P (State.applyTake s p t) := by
  unfold State.applyTake
  repeat' first
    | with_reducible assumption | (with_reducible refine fst_stable (by assumption) ?_) | with_reducible apply State.awnTake_stable hK
    | with_reducible apply State.latchAll_stable hK.toKeepCore | with_reducible apply State.takeLayer_stable hK
    | with_reducible apply State.endPipeGroups_stable hK | (intro _ _ _) | (intro _ _) | with_reducible apply foldl_stable
    | with_reducible apply foldl_fst_stable | with_reducible apply overN_stable | extract_lets | with_reducible apply ite_stable
    | with_reducible apply ite_fst_stable | split | fail_if_no_progress (with_reducible apply KeepUnits.other hK) | (dsimp +zetaDelta only)
theorem State.refuseTake_stable {P : State → Prop} (hK : KeepUnits P) (s : State) (p : Nat) (t : Take) (hsK : P s) :
    P (State.refuseTake s p t) := by
  unfold State.refuseTake
  repeat' first
    | with_reducible assumption | (with_reducible refine fst_stable (by assumption) ?_) | with_reducible apply State.bumpErr_stable hK.toKeepCore
    | with_reducible apply State.modPipe_stable hK | with_reducible apply State.modLay_stable hK
    | with_reducible apply State.releaseNow_stable hK.toKeepCore | with_reducible apply State.endPipeGroups_stable hK | (intro _ _ _) | (intro _ _)
    | with_reducible apply foldl_stable | with_reducible apply foldl_fst_stable | with_reducible apply overN_stable | extract_lets
    | with_reducible apply ite_stable | with_reducible apply ite_fst_stable | split | fail_if_no_progress (with_reducible apply KeepUnits.other hK)
    | (dsimp +zetaDelta only)
theorem State.refuseAwn_stable {P : State → Prop} (hK : KeepUnits P) (s : State) (p : Nat) (hsK : P s) : P (State.refuseAwn s p) := by
  unfold State.refuseAwn
  repeat' first
    | with_reducible assumption | (with_reducible refine fst_stable (by assumption) ?_) | with_reducible apply State.wr_stable hK.toKeepCore
    | with_reducible apply State.kevt_stable hK.toKeepCore | with_reducible apply State.modPipe_stable hK | (intro _ _ _) | (intro _ _)
    | with_reducible apply foldl_stable | with_reducible apply foldl_fst_stable | with_reducible apply overN_stable | extract_lets
    | with_reducible apply ite_stable | with_reducible apply ite_fst_stable | split | fail_if_no_progress (with_reducible apply KeepUnits.other hK)
    | (dsimp +zetaDelta only)
theorem State.lockWaits_stable {P : State → Prop} (hK : KeepUnits P) (s : State) (p : Nat) (hsK : P s) : P (State.lockWaits s p) := by
  unfold State.lockWaits
  repeat' first
    | with_reducible assumption | (with_reducible refine fst_stable (by assumption) ?_) | with_reducible apply State.bumpEv_stable hK.toKeepCore
    | with_reducible apply State.modPipe_stable hK | (intro _ _ _) | (intro _ _) | with_reducible apply foldl_stable
    | with_reducible apply foldl_fst_stable | with_reducible apply overN_stable | extract_lets | with_reducible apply ite_stable
    | with_reducible apply ite_fst_stable | split | fail_if_no_progress (with_reducible apply KeepUnits.other hK) | (dsimp +zetaDelta only)
theorem State.disableLayers_stable {P : State → Prop} (hK : KeepUnits P) (s : State) (p : Nat) (hsK : P s) : P (State.disableLayers s p) := by
  unfold State.disableLayers
  repeat' first
    | with_reducible assumption | (with_reducible refine fst_stable (by assumption) ?_) | with_reducible apply State.wr_stable hK.toKeepCore
    | with_reducible apply State.fwr_stable hK.toKeepCore | with_reducible apply State.modPipe_stable hK | (intro _ _ _) | (intro _ _)
    | with_reducible apply foldl_stable | with_reducible apply foldl_fst_stable | with_reducible apply overN_stable | extract_lets
    | with_reducible apply ite_stable | with_reducible apply ite_fst_stable | split | fail_if_no_progress (with_reducible apply KeepUnits.other hK)
    | (dsimp +zetaDelta only)
theorem State.latchMode_stable {P : State → Prop} (hK : KeepUnits P) (s : State) (p : Nat) (hsK : P s) : P (State.latchMode s p) := by
  unfold State.latchMode
  repeat' first
    | with_reducible assumption | (with_reducible refine fst_stable (by assumption) ?_) | with_reducible apply State.latch_stable hK.toKeepCore
    | with_reducible apply State.modPipe_stable hK | (intro _ _ _) | (intro _ _) | with_reducible apply foldl_stable
    | with_reducible apply foldl_fst_stable | with_reducible apply overN_stable | extract_lets | with_reducible apply ite_stable
    | with_reducible apply ite_fst_stable | split | fail_if_no_progress (with_reducible apply KeepUnits.other hK) | (dsimp +zetaDelta only)
theorem State.latchLtf_stable {P : State → Prop} (hK : KeepUnits P) (s : State) (p : Nat) (fenced : Bool) (waiting : List Nat) (hsK : P s) :
    P (State.latchLtf s p fenced waiting) := by
  unfold State.latchLtf
  repeat' first
    | with_reducible assumption | (with_reducible refine fst_stable (by assumption) ?_) | with_reducible apply State.modPipe_stable hK
    | with_reducible apply State.latchAll_stable hK.toKeepCore | (intro _ _ _) | (intro _ _) | with_reducible apply foldl_stable
    | with_reducible apply foldl_fst_stable | with_reducible apply overN_stable | extract_lets | with_reducible apply ite_stable
    | with_reducible apply ite_fst_stable | split | fail_if_no_progress (with_reducible apply KeepUnits.other hK) | (dsimp +zetaDelta only)
theorem State.latchCommits_stable {P : State → Prop} (hK : KeepUnits P) (s0 : State) (p : Nat) (hsK : P s0) : P (State.latchCommits s0 p) := by
  unfold State.latchCommits
  repeat' first
    | with_reducible assumption | (with_reducible refine fst_stable (by assumption) ?_) | with_reducible apply State.notReadyLayer_stable hK
    | with_reducible apply State.applyTake_stable hK | with_reducible apply State.refuseTake_stable hK
    | with_reducible apply State.refuseAwn_stable hK | with_reducible apply State.lockWaits_stable hK
    | with_reducible apply State.disableLayers_stable hK | with_reducible apply State.latchMode_stable hK
    | with_reducible apply State.latchLtf_stable hK | (intro _ _ _) | (intro _ _) | with_reducible apply foldl_stable
    | with_reducible apply foldl_fst_stable | with_reducible apply overN_stable | extract_lets | with_reducible apply ite_stable
    | with_reducible apply ite_fst_stable | split | fail_if_no_progress (with_reducible apply KeepUnits.other hK) | (dsimp +zetaDelta only)
theorem State.publishCommits_stable {P : State → Prop} (hK : KeepUnits P) (s : State) (p : Nat) (hsK : P s) : P (State.publishCommits s p) := by
  unfold State.publishCommits
  repeat' first
    | with_reducible assumption | (with_reducible refine fst_stable (by assumption) ?_) | with_reducible apply State.wr_stable hK.toKeepCore
    | with_reducible apply State.irq_stable hK.toKeepCore | with_reducible apply State.modPipe_stable hK
    | with_reducible apply State.setFence_stable hK.toKeepCore | with_reducible apply State.modLay_stable hK
    | with_reducible apply State.showLayer_stable hK.toKeepCore | with_reducible apply State.showPcommit_stable hK.toKeepCore | (intro _ _ _)
    | (intro _ _) | with_reducible apply foldl_stable | with_reducible apply foldl_fst_stable | with_reducible apply overN_stable | extract_lets
    | with_reducible apply ite_stable | with_reducible apply ite_fst_stable | split | fail_if_no_progress (with_reducible apply KeepUnits.other hK)
    | (dsimp +zetaDelta only)
theorem State.dropStallCommits_stable {P : State → Prop} (hK : KeepUnits P) (s : State) (st : Nat) (hsK : P s) :
    P (State.dropStallCommits s st) := by
  unfold State.dropStallCommits
  repeat' first
    | with_reducible assumption | (with_reducible refine fst_stable (by assumption) ?_) | with_reducible apply State.dropCommit_stable hK
    | (intro _ _ _) | (intro _ _) | with_reducible apply foldl_stable | with_reducible apply foldl_fst_stable | with_reducible apply overN_stable
    | extract_lets | with_reducible apply ite_stable | with_reducible apply ite_fst_stable | split
    | fail_if_no_progress (with_reducible apply KeepUnits.other hK) | (dsimp +zetaDelta only)

end Sys2Proof.Machine
end

