-- ==== Sys2Proof/Laws/StableGpu.lean ====
section
/-! SUPPORT. Laws/StableGpu.lean: every operation keeps a stable property: the work queue items, the engine, the raster front end and the data mover. -/
set_option linter.all false
namespace Sys2Proof.Machine

/-! ### Machine/Gpu.lean -/

theorem State.setGpu_stable {P : State → Prop} (hK : KeepUnits P) (s : State) (f : GpuSt → GpuSt) (hsK : P s) : P (State.setGpu s f) := by
  unfold State.setGpu
  repeat' first
    | with_reducible assumption | (with_reducible refine fst_stable (by assumption) ?_) | (intro _ _ _) | (intro _ _)
    | with_reducible apply foldl_stable | with_reducible apply foldl_fst_stable | with_reducible apply overN_stable | extract_lets
    | with_reducible apply ite_stable | with_reducible apply ite_fst_stable | split | fail_if_no_progress (with_reducible apply KeepUnits.other hK)
    | (dsimp +zetaDelta only)
theorem State.modItem_stable {P : State → Prop} (hK : KeepUnits P) (s : State) (q seq : Nat) (f : WorkItem → WorkItem) (hsK : P s) :
    P (State.modItem s q seq f) := by
  unfold State.modItem
  repeat' first
    | with_reducible assumption | (with_reducible refine fst_stable (by assumption) ?_) | with_reducible apply State.setGpu_stable hK
    | (intro _ _ _) | (intro _ _) | with_reducible apply foldl_stable | with_reducible apply foldl_fst_stable | with_reducible apply overN_stable
    | extract_lets | with_reducible apply ite_stable | with_reducible apply ite_fst_stable | split
    | fail_if_no_progress (with_reducible apply KeepUnits.other hK) | (dsimp +zetaDelta only)
theorem State.setUnit_stable {P : State → Prop} (hK : KeepUnits P) (s : State) (r : Nat) (u : Option GUnit) (hsK : P s) :
    P (State.setUnit s r u) := by
  unfold State.setUnit
  repeat' first
    | with_reducible assumption | (with_reducible refine fst_stable (by assumption) ?_) | with_reducible apply State.setGpu_stable hK
    | (intro _ _ _) | (intro _ _) | with_reducible apply foldl_stable | with_reducible apply foldl_fst_stable | with_reducible apply overN_stable
    | extract_lets | with_reducible apply ite_stable | with_reducible apply ite_fst_stable | split
    | fail_if_no_progress (with_reducible apply KeepUnits.other hK) | (dsimp +zetaDelta only)
theorem State.modUnit_stable {P : State → Prop} (hK : KeepUnits P) (s : State) (r : Nat) (f : GUnit → GUnit) (hsK : P s) :
    P (State.modUnit s r f) := by
  unfold State.modUnit
  repeat' first
    | with_reducible assumption | (with_reducible refine fst_stable (by assumption) ?_) | with_reducible apply State.setUnit_stable hK
    | (intro _ _ _) | (intro _ _) | with_reducible apply foldl_stable | with_reducible apply foldl_fst_stable | with_reducible apply overN_stable
    | extract_lets | with_reducible apply ite_stable | with_reducible apply ite_fst_stable | split
    | fail_if_no_progress (with_reducible apply KeepUnits.other hK) | (dsimp +zetaDelta only)
theorem State.showActive_stable {P : State → Prop} (hK : KeepCore P) (s : State) (hsK : P s) : P (State.showActive s) := by
  unfold State.showActive
  repeat' first
    | with_reducible assumption | (with_reducible refine fst_stable (by assumption) ?_) | with_reducible apply State.wr_stable hK | (intro _ _ _)
    | (intro _ _) | with_reducible apply foldl_stable | with_reducible apply foldl_fst_stable | with_reducible apply overN_stable | extract_lets
    | with_reducible apply ite_stable | with_reducible apply ite_fst_stable | split | fail_if_no_progress (with_reducible apply KeepCore.other hK)
    | (dsimp +zetaDelta only)
theorem State.showCluster_stable {P : State → Prop} (hK : KeepCore P) (s : State) (r : Nat) (busy : Bool) (kind st : Nat) (hsK : P s) :
    P (State.showCluster s r busy kind st) := by
  unfold State.showCluster
  repeat' first
    | with_reducible assumption | (with_reducible refine fst_stable (by assumption) ?_) | with_reducible apply State.wr_stable hK | (intro _ _ _)
    | (intro _ _) | with_reducible apply foldl_stable | with_reducible apply foldl_fst_stable | with_reducible apply overN_stable | extract_lets
    | with_reducible apply ite_stable | with_reducible apply ite_fst_stable | split | fail_if_no_progress (with_reducible apply KeepCore.other hK)
    | (dsimp +zetaDelta only)
theorem State.showPool_stable {P : State → Prop} (hK : KeepCore P) (s : State) (st : Nat) (hsK : P s) : P (State.showPool s st) := by
  unfold State.showPool
  repeat' first
    | with_reducible assumption | (with_reducible refine fst_stable (by assumption) ?_) | with_reducible apply State.wr_stable hK
    | with_reducible apply State.setLv_stable hK | (intro _ _ _) | (intro _ _) | with_reducible apply foldl_stable
    | with_reducible apply foldl_fst_stable | with_reducible apply overN_stable | extract_lets | with_reducible apply ite_stable
    | with_reducible apply ite_fst_stable | split | fail_if_no_progress (with_reducible apply KeepCore.other hK) | (dsimp +zetaDelta only)
theorem State.poolTouch_stable {P : State → Prop} (hK : Keep P) (s : State) (q seq : Nat) (hsK : P s) : P (State.poolTouch s q seq) := by
  unfold State.poolTouch
  repeat' first
    | with_reducible assumption | (with_reducible refine fst_stable (by assumption) ?_) | with_reducible apply State.useFree_stable hK.toKeepCore
    | with_reducible apply State.correctWord_stable hK.toKeepSys | with_reducible apply State.reportUe_stable hK.toKeepCore
    | with_reducible apply State.unitGrainBad_stable hK.toKeepCore | with_reducible apply State.modItem_stable hK.toKeepUnits | (intro _ _ _)
    | (intro _ _) | with_reducible apply foldl_stable | with_reducible apply foldl_fst_stable | with_reducible apply overN_stable | extract_lets
    | with_reducible apply ite_stable | with_reducible apply ite_fst_stable | split | fail_if_no_progress (with_reducible apply Keep.other hK)
    | (dsimp +zetaDelta only)
theorem State.setCredit_stable {P : State → Prop} (hK : KeepCore P) (s : State) (st : Nat) (c : Int) (hsK : P s) : P (State.setCredit s st c) := by
  unfold State.setCredit
  repeat' first
    | with_reducible assumption | (with_reducible refine fst_stable (by assumption) ?_) | with_reducible apply State.wr_stable hK | (intro _ _ _)
    | (intro _ _) | with_reducible apply foldl_stable | with_reducible apply foldl_fst_stable | with_reducible apply overN_stable | extract_lets
    | with_reducible apply ite_stable | with_reducible apply ite_fst_stable | split | fail_if_no_progress (with_reducible apply KeepCore.other hK)
    | (dsimp +zetaDelta only)
theorem State.charge_stable {P : State → Prop} (hK : KeepCore P) (s : State) (st ns : Nat) (spare : Bool) (hsK : P s) :
    P (State.charge s st ns spare) := by
  unfold State.charge
  repeat' first
    | with_reducible assumption | (with_reducible refine fst_stable (by assumption) ?_) | with_reducible apply State.bumpEv_stable hK
    | with_reducible apply State.setCredit_stable hK | (intro _ _ _) | (intro _ _) | with_reducible apply foldl_stable
    | with_reducible apply foldl_fst_stable | with_reducible apply overN_stable | extract_lets | with_reducible apply ite_stable
    | with_reducible apply ite_fst_stable | split | fail_if_no_progress (with_reducible apply KeepCore.other hK) | (dsimp +zetaDelta only)

/-! ### Machine/Engine.lean -/

theorem State.push_stable {P : State → Prop} (hK : KeepUnits P) (s : State) (r : Nat) (l : List GpuOp) (hsK : P s) : P (State.push s r l) := by
  unfold State.push
  repeat' first
    | with_reducible assumption | (with_reducible refine fst_stable (by assumption) ?_) | with_reducible apply State.modUnit_stable hK
    | (intro _ _ _) | (intro _ _) | with_reducible apply foldl_stable | with_reducible apply foldl_fst_stable | with_reducible apply overN_stable
    | extract_lets | with_reducible apply ite_stable | with_reducible apply ite_fst_stable | split
    | fail_if_no_progress (with_reducible apply KeepUnits.other hK) | (dsimp +zetaDelta only)
theorem State.eat_stable {P : State → Prop} (hK : KeepUnits P) (s : State) (r : Nat) (hsK : P s) : P (State.eat s r) := by
  unfold State.eat
  repeat' first
    | with_reducible assumption | (with_reducible refine fst_stable (by assumption) ?_) | with_reducible apply State.modUnit_stable hK
    | (intro _ _ _) | (intro _ _) | with_reducible apply foldl_stable | with_reducible apply foldl_fst_stable | with_reducible apply overN_stable
    | extract_lets | with_reducible apply ite_stable | with_reducible apply ite_fst_stable | split
    | fail_if_no_progress (with_reducible apply KeepUnits.other hK) | (dsimp +zetaDelta only)
theorem State.opFail_stable {P : State → Prop} (hK : KeepUnits P) (s : State) (r : Nat) (it : WorkItem) (code : Nat) (hsK : P s) :
    P (State.opFail s r it code) := by
  unfold State.opFail
  repeat' first
    | with_reducible assumption | (with_reducible refine fst_stable (by assumption) ?_) | with_reducible apply State.modItem_stable hK
    | with_reducible apply State.setUnit_stable hK | (intro _ _ _) | (intro _ _) | with_reducible apply foldl_stable
    | with_reducible apply foldl_fst_stable | with_reducible apply overN_stable | extract_lets | with_reducible apply ite_stable
    | with_reducible apply ite_fst_stable | split | fail_if_no_progress (with_reducible apply KeepUnits.other hK) | (dsimp +zetaDelta only)
theorem State.opItem_stable {P : State → Prop} (hK : KeepUnits P) (s : State) (r : Nat) (it : WorkItem) (d : List Byte) (hsK : P s) :
    P (State.opItem s r it d) := by
  unfold State.opItem
  repeat' first
    | with_reducible assumption | (with_reducible refine fst_stable (by assumption) ?_) | with_reducible apply State.setGpu_stable hK
    | with_reducible apply State.modItem_stable hK | with_reducible apply State.setUnit_stable hK | with_reducible apply State.push_stable hK
    | with_reducible apply State.eat_stable hK | with_reducible apply State.opFail_stable hK | (intro _ _ _) | (intro _ _)
    | with_reducible apply foldl_stable | with_reducible apply foldl_fst_stable | with_reducible apply overN_stable | extract_lets
    | with_reducible apply ite_stable | with_reducible apply ite_fst_stable | split | fail_if_no_progress (with_reducible apply KeepUnits.other hK)
    | (dsimp +zetaDelta only)
theorem State.opHead_stable {P : State → Prop} (hK : KeepUnits P) (s : State) (r : Nat) (it : WorkItem) (h : List Byte) (hsK : P s) :
    P (State.opHead s r it h) := by
  unfold State.opHead
  repeat' first
    | with_reducible assumption | (with_reducible refine fst_stable (by assumption) ?_) | with_reducible apply State.modItem_stable hK
    | with_reducible apply State.setUnit_stable hK | with_reducible apply State.opFail_stable hK | (intro _ _ _) | (intro _ _)
    | with_reducible apply foldl_stable | with_reducible apply foldl_fst_stable | with_reducible apply overN_stable | extract_lets
    | with_reducible apply ite_stable | with_reducible apply ite_fst_stable | split | fail_if_no_progress (with_reducible apply KeepUnits.other hK)
    | (dsimp +zetaDelta only)
theorem State.opDrawRec_stable {P : State → Prop} (hK : KeepUnits P) (s : State) (r : Nat) (it : WorkItem) (d : List Byte) (hsK : P s) :
    P (State.opDrawRec s r it d) := by
  unfold State.opDrawRec
  repeat' first
    | with_reducible assumption | (with_reducible refine fst_stable (by assumption) ?_) | with_reducible apply State.modItem_stable hK
    | with_reducible apply State.modUnit_stable hK | with_reducible apply State.push_stable hK | with_reducible apply State.eat_stable hK
    | with_reducible apply State.opFail_stable hK | (intro _ _ _) | (intro _ _) | with_reducible apply foldl_stable
    | with_reducible apply foldl_fst_stable | with_reducible apply overN_stable | extract_lets | with_reducible apply ite_stable
    | with_reducible apply ite_fst_stable | split | fail_if_no_progress (with_reducible apply KeepUnits.other hK) | (dsimp +zetaDelta only)
theorem State.opDrawHead_stable {P : State → Prop} (hK : KeepUnits P) (s : State) (r : Nat) (it : WorkItem) (obj : Nat) (h : List Byte) (hsK : P s) :
    P (State.opDrawHead s r it obj h) := by
  unfold State.opDrawHead
  repeat' first
    | with_reducible assumption | (with_reducible refine fst_stable (by assumption) ?_) | with_reducible apply State.modItem_stable hK
    | with_reducible apply State.eat_stable hK | with_reducible apply State.opFail_stable hK | (intro _ _ _) | (intro _ _)
    | with_reducible apply foldl_stable | with_reducible apply foldl_fst_stable | with_reducible apply overN_stable | extract_lets
    | with_reducible apply ite_stable | with_reducible apply ite_fst_stable | split | fail_if_no_progress (with_reducible apply KeepUnits.other hK)
    | (dsimp +zetaDelta only)
theorem State.opIndex_stable {P : State → Prop} (hK : KeepUnits P) (s : State) (r : Nat) (u : GUnit) (it : WorkItem) (y0 : Nat) (hsK : P s) :
    P (State.opIndex s r u it y0) := by
  cases y0
  all_goals
    unfold State.opIndex
    repeat' first
      | with_reducible assumption | (with_reducible refine fst_stable (by assumption) ?_) | with_reducible apply State.modUnit_stable hK
      | with_reducible apply State.push_stable hK | (intro _ _ _) | (intro _ _) | with_reducible apply foldl_stable
      | with_reducible apply foldl_fst_stable | with_reducible apply overN_stable | extract_lets | with_reducible apply ite_stable
      | with_reducible apply ite_fst_stable | split | fail_if_no_progress (with_reducible apply KeepUnits.other hK) | (dsimp +zetaDelta only)
theorem State.opTex_stable {P : State → Prop} (hK : KeepUnits P) (s : State) (r : Nat) (u : GUnit) (it : WorkItem) (k : TexLook) (hsK : P s) :
    P (State.opTex s r u it k) := by
  unfold State.opTex
  repeat' first
    | with_reducible assumption | (with_reducible refine fst_stable (by assumption) ?_) | with_reducible apply State.bumpEv_stable hK.toKeepCore
    | with_reducible apply State.push_stable hK | with_reducible apply State.eat_stable hK | with_reducible apply State.opFail_stable hK
    | (intro _ _ _) | (intro _ _) | with_reducible apply foldl_stable | with_reducible apply foldl_fst_stable | with_reducible apply overN_stable
    | extract_lets | with_reducible apply ite_stable | with_reducible apply ite_fst_stable | split
    | fail_if_no_progress (with_reducible apply KeepUnits.other hK) | (dsimp +zetaDelta only)
theorem State.opTested_stable {P : State → Prop} (hK : KeepUnits P) (s : State) (r : Nat) (it : WorkItem) (k : TexLook) (d : List Byte) (level : Nat) (px : List (Nat × Nat)) (miss : List Nat) (hsK : P s) :
    P (State.opTested s r it k d level px miss) := by
  unfold State.opTested
  repeat' first
    | with_reducible assumption | (with_reducible refine fst_stable (by assumption) ?_) | with_reducible apply State.emit_stable hK.toKeepCore
    | with_reducible apply State.bumpEv_stable hK.toKeepCore | with_reducible apply State.push_stable hK | (intro _ _ _) | (intro _ _)
    | with_reducible apply foldl_stable | with_reducible apply foldl_fst_stable | with_reducible apply overN_stable | extract_lets
    | with_reducible apply ite_stable | with_reducible apply ite_fst_stable | split | fail_if_no_progress (with_reducible apply KeepUnits.other hK)
    | (dsimp +zetaDelta only)
theorem State.opBlock_stable {P : State → Prop} (hK : KeepUnits P) (s : State) (r : Nat) (u : GUnit) (it : WorkItem) (k : TexLook) (d : List Byte) (level : Nat) (px : List (Nat × Nat)) (y0 : List Nat) (y1 : List Nat) (hsK : P s) :
    P (State.opBlock s r u it k d level px y0 y1) := by
  cases y0
  all_goals
    unfold State.opBlock
    repeat' first
      | with_reducible assumption | (with_reducible refine fst_stable (by assumption) ?_) | with_reducible apply State.setGpu_stable hK
      | with_reducible apply State.push_stable hK | with_reducible apply State.eat_stable hK | with_reducible apply State.opTested_stable hK
      | (intro _ _ _) | (intro _ _) | with_reducible apply foldl_stable | with_reducible apply foldl_fst_stable | with_reducible apply overN_stable
      | extract_lets | with_reducible apply ite_stable | with_reducible apply ite_fst_stable | split
      | fail_if_no_progress (with_reducible apply KeepUnits.other hK) | (dsimp +zetaDelta only)
theorem State.opTexel_stable {P : State → Prop} (hK : KeepUnits P) (s : State) (r : Nat) (u : GUnit) (k : TexLook) (d : List Byte) (level : Nat) (y0 : List (Nat × Nat)) (y1 : List (List Nat)) (hsK : P s) :
    P (State.opTexel s r u k d level y0 y1) := by
  cases y0
  all_goals
    unfold State.opTexel
    repeat' first
      | with_reducible assumption | (with_reducible refine fst_stable (by assumption) ?_) | with_reducible apply State.emit_stable hK.toKeepCore
      | with_reducible apply State.push_stable hK | with_reducible apply State.eat_stable hK | (intro _ _ _) | (intro _ _)
      | with_reducible apply foldl_stable | with_reducible apply foldl_fst_stable | with_reducible apply overN_stable | extract_lets
      | with_reducible apply ite_stable | with_reducible apply ite_fst_stable | split | fail_if_no_progress (with_reducible apply KeepUnits.other hK)
      | (dsimp +zetaDelta only)
theorem State.setRing_stable {P : State → Prop} (hK : KeepUnits P) (s : State) (c : RingCopy) (hsK : P s) : P (State.setRing s c) := by
  unfold State.setRing
  repeat' first
    | with_reducible assumption | (with_reducible refine fst_stable (by assumption) ?_) | with_reducible apply State.setGpu_stable hK
    | (intro _ _ _) | (intro _ _) | with_reducible apply foldl_stable | with_reducible apply foldl_fst_stable | with_reducible apply overN_stable
    | extract_lets | with_reducible apply ite_stable | with_reducible apply ite_fst_stable | split
    | fail_if_no_progress (with_reducible apply KeepUnits.other hK) | (dsimp +zetaDelta only)
theorem State.opMiss_stable {P : State → Prop} (hK : KeepUnits P) (s : State) (r : Nat) (it : WorkItem) (tag level n : Nat) (hsK : P s) :
    P (State.opMiss s r it tag level n) := by
  unfold State.opMiss
  repeat' first
    | with_reducible assumption | (with_reducible refine fst_stable (by assumption) ?_) | with_reducible apply State.modItem_stable hK
    | with_reducible apply State.push_stable hK | (intro _ _ _) | (intro _ _) | with_reducible apply foldl_stable
    | with_reducible apply foldl_fst_stable | with_reducible apply overN_stable | extract_lets | with_reducible apply ite_stable
    | with_reducible apply ite_fst_stable | split | fail_if_no_progress (with_reducible apply KeepUnits.other hK) | (dsimp +zetaDelta only)
theorem State.opRecord_stable {P : State → Prop} (hK : KeepUnits P) (s : State) (r : Nat) (u : GUnit) (it : WorkItem) (tag level n : Nat) (hsK : P s) :
    P (State.opRecord s r u it tag level n) := by
  unfold State.opRecord
  repeat' first
    | with_reducible assumption | (with_reducible refine fst_stable (by assumption) ?_) | with_reducible apply State.wr_stable hK.toKeepCore
    | with_reducible apply State.bumpErr_stable hK.toKeepCore | with_reducible apply State.modItem_stable hK | with_reducible apply State.push_stable hK
    | with_reducible apply State.eat_stable hK | with_reducible apply State.setRing_stable hK | (intro _ _ _) | (intro _ _)
    | with_reducible apply foldl_stable | with_reducible apply foldl_fst_stable | with_reducible apply overN_stable | extract_lets
    | with_reducible apply ite_stable | with_reducible apply ite_fst_stable | split | fail_if_no_progress (with_reducible apply KeepUnits.other hK)
    | (dsimp +zetaDelta only)
theorem State.freeList_stable {P : State → Prop} (hK : KeepCore P) (s : State) (n w : Nat) (hsK : P s) : P (State.freeList s n w).1 := by
  unfold State.freeList
  repeat' first
    | with_reducible assumption | (with_reducible refine fst_stable (by assumption) ?_) | (intro _ _ _) | (intro _ _)
    | with_reducible apply foldl_stable | with_reducible apply foldl_fst_stable | with_reducible apply overN_stable | extract_lets
    | with_reducible apply ite_stable | with_reducible apply ite_fst_stable | split | fail_if_no_progress (with_reducible apply KeepCore.other hK)
    | (dsimp +zetaDelta only)
theorem State.loadAtt_stable {P : State → Prop} (hK : KeepCore P) (s : State) (it : WorkItem) (t k a : Nat) (hsK : P s) :
    P (State.loadAtt s it t k a).1 := by
  unfold State.loadAtt
  repeat' first
    | with_reducible assumption | (with_reducible refine fst_stable (by assumption) ?_) | with_reducible apply State.freeList_stable hK
    | (intro _ _ _) | (intro _ _) | with_reducible apply foldl_stable | with_reducible apply foldl_fst_stable | with_reducible apply overN_stable
    | extract_lets | with_reducible apply ite_stable | with_reducible apply ite_fst_stable | split
    | fail_if_no_progress (with_reducible apply KeepCore.other hK) | (dsimp +zetaDelta only)
theorem State.loadTile_stable {P : State → Prop} (hK : KeepCore P) (s : State) (it : WorkItem) (t : Nat) (hsK : P s) :
    P (State.loadTile s it t).1 := by
  unfold State.loadTile
  repeat' first
    | with_reducible assumption | (with_reducible refine fst_stable (by assumption) ?_) | with_reducible apply State.loadAtt_stable hK
    | (intro _ _ _) | (intro _ _) | with_reducible apply foldl_stable | with_reducible apply foldl_fst_stable | with_reducible apply overN_stable
    | extract_lets | with_reducible apply ite_stable | with_reducible apply ite_fst_stable | split
    | fail_if_no_progress (with_reducible apply KeepCore.other hK) | (dsimp +zetaDelta only)
theorem State.opShade_stable {P : State → Prop} (hK : KeepUnits P) (s : State) (r : Nat) (u : GUnit) (it : WorkItem) (l : List TileFrag) (hsK : P s) :
    P (State.opShade s r u it l) := by
  unfold State.opShade
  repeat' first
    | with_reducible assumption | (with_reducible refine fst_stable (by assumption) ?_) | with_reducible apply State.emit_stable hK.toKeepCore
    | with_reducible apply State.modUnit_stable hK | with_reducible apply State.opFail_stable hK | (intro _ _ _) | (intro _ _)
    | with_reducible apply foldl_stable | with_reducible apply foldl_fst_stable | with_reducible apply overN_stable | extract_lets
    | with_reducible apply ite_stable | with_reducible apply ite_fst_stable | split | fail_if_no_progress (with_reducible apply KeepUnits.other hK)
    | (dsimp +zetaDelta only)
theorem State.opStep_stable {P : State → Prop} (hK : Stable P) (s : State) (r : Nat) (u : GUnit) (it : WorkItem) (y0 : GpuOp) (hsK : P s) :
    P (State.opStep s r u it y0) := by
  cases y0
  all_goals
    unfold State.opStep
    repeat' first
      | with_reducible assumption | (with_reducible refine fst_stable (by assumption) ?_)
      | with_reducible apply State.stallLoad_stable hK.toKeep.toKeepSys | with_reducible apply State.stallStore_stable hK
      | with_reducible apply State.modUnit_stable hK.toKeep.toKeepUnits | with_reducible apply State.push_stable hK.toKeep.toKeepUnits
      | with_reducible apply State.eat_stable hK.toKeep.toKeepUnits | with_reducible apply State.opFail_stable hK.toKeep.toKeepUnits
      | with_reducible apply State.opItem_stable hK.toKeep.toKeepUnits | with_reducible apply State.opHead_stable hK.toKeep.toKeepUnits
      | with_reducible apply State.opDrawRec_stable hK.toKeep.toKeepUnits | with_reducible apply State.opDrawHead_stable hK.toKeep.toKeepUnits
      | with_reducible apply State.opIndex_stable hK.toKeep.toKeepUnits | with_reducible apply State.opTex_stable hK.toKeep.toKeepUnits
      | with_reducible apply State.opBlock_stable hK.toKeep.toKeepUnits | with_reducible apply State.opTexel_stable hK.toKeep.toKeepUnits
      | with_reducible apply State.opMiss_stable hK.toKeep.toKeepUnits | with_reducible apply State.opRecord_stable hK.toKeep.toKeepUnits
      | with_reducible apply State.opShade_stable hK.toKeep.toKeepUnits | (intro _ _ _) | (intro _ _) | with_reducible apply foldl_stable
      | with_reducible apply foldl_fst_stable | with_reducible apply overN_stable | extract_lets | with_reducible apply ite_stable
      | with_reducible apply ite_fst_stable | split | fail_if_no_progress (with_reducible apply Keep.other hK.toKeep)
      | (dsimp +zetaDelta only)
theorem State.runSteps_stable {P : State → Prop} (hK : Stable P) (s : State) (r : Nat) (y0 : Nat) (hsK : P s) : P (State.runSteps s r y0) := by
  induction y0 generalizing s r with
  | zero =>
    unfold State.runSteps
    repeat' first
      | with_reducible assumption | (with_reducible refine fst_stable (by assumption) ?_)
      | with_reducible apply State.setUnit_stable hK.toKeep.toKeepUnits | with_reducible apply State.opStep_stable hK | (intro _ _ _) | (intro _ _)
      | with_reducible apply foldl_stable | with_reducible apply foldl_fst_stable | with_reducible apply overN_stable | extract_lets
      | with_reducible apply ite_stable | with_reducible apply ite_fst_stable | split
      | fail_if_no_progress (with_reducible apply Keep.other hK.toKeep) | (dsimp +zetaDelta only)
  | succ nK ihK =>
    unfold State.runSteps
    repeat' first
      | with_reducible assumption | (with_reducible refine fst_stable (by assumption) ?_)
      | with_reducible apply State.setUnit_stable hK.toKeep.toKeepUnits | with_reducible apply State.opStep_stable hK | (intro _ _ _) | (intro _ _)
      | with_reducible apply ihK | with_reducible apply foldl_stable | with_reducible apply foldl_fst_stable | with_reducible apply overN_stable
      | extract_lets | with_reducible apply ite_stable | with_reducible apply ite_fst_stable | split
      | fail_if_no_progress (with_reducible apply Keep.other hK.toKeep) | (dsimp +zetaDelta only)
theorem State.runUnit_stable {P : State → Prop} (hK : Stable P) (s : State) (r : Nat) (hsK : P s) : P (State.runUnit s r) := by
  unfold State.runUnit
  repeat' first
    | with_reducible assumption | (with_reducible refine fst_stable (by assumption) ?_) | with_reducible apply State.runSteps_stable hK
    | (intro _ _ _) | (intro _ _) | with_reducible apply foldl_stable | with_reducible apply foldl_fst_stable | with_reducible apply overN_stable
    | extract_lets | with_reducible apply ite_stable | with_reducible apply ite_fst_stable | split
    | fail_if_no_progress (with_reducible apply Keep.other hK.toKeep) | (dsimp +zetaDelta only)
theorem State.resumeAll_stable {P : State → Prop} (hK : Stable P) (s : State) (hsK : P s) : P (State.resumeAll s) := by
  unfold State.resumeAll
  repeat' first
    | with_reducible assumption | (with_reducible refine fst_stable (by assumption) ?_) | with_reducible apply State.runUnit_stable hK
    | (intro _ _ _) | (intro _ _) | with_reducible apply foldl_stable | with_reducible apply foldl_fst_stable | with_reducible apply overN_stable
    | extract_lets | with_reducible apply ite_stable | with_reducible apply ite_fst_stable | split
    | fail_if_no_progress (with_reducible apply Keep.other hK.toKeep) | (dsimp +zetaDelta only)
theorem State.setResult_stable {P : State → Prop} (hK : KeepUnits P) (s : State) (q seq code : Nat) (hsK : P s) :
    P (State.setResult s q seq code) := by
  unfold State.setResult
  repeat' first
    | with_reducible assumption | (with_reducible refine fst_stable (by assumption) ?_) | with_reducible apply State.modQueue_stable hK
    | (intro _ _ _) | (intro _ _) | with_reducible apply foldl_stable | with_reducible apply foldl_fst_stable | with_reducible apply overN_stable
    | extract_lets | with_reducible apply ite_stable | with_reducible apply ite_fst_stable | split
    | fail_if_no_progress (with_reducible apply KeepUnits.other hK) | (dsimp +zetaDelta only)
theorem State.endUnit_stable {P : State → Prop} (hK : KeepUnits P) (s : State) (r : Nat) (t : UnitTime) (hsK : P s) : P (State.endUnit s r t) := by
  unfold State.endUnit
  repeat' first
    | with_reducible assumption | (with_reducible refine fst_stable (by assumption) ?_) | with_reducible apply State.bumpEv_stable hK.toKeepCore
    | with_reducible apply State.setUnit_stable hK | with_reducible apply State.showCluster_stable hK.toKeepCore
    | with_reducible apply State.charge_stable hK.toKeepCore | (intro _ _ _) | (intro _ _) | with_reducible apply foldl_stable
    | with_reducible apply foldl_fst_stable | with_reducible apply overN_stable | extract_lets | with_reducible apply ite_stable
    | with_reducible apply ite_fst_stable | split | fail_if_no_progress (with_reducible apply KeepUnits.other hK) | (dsimp +zetaDelta only)
theorem State.endItem_stable {P : State → Prop} (hK : KeepUnits P) (s : State) (it : WorkItem) (code : Nat) (hsK : P s) :
    P (State.endItem s it code) := by
  unfold State.endItem
  repeat' first
    | with_reducible assumption | (with_reducible refine fst_stable (by assumption) ?_) | with_reducible apply State.wr_stable hK.toKeepCore
    | with_reducible apply State.bumpEv_stable hK.toKeepCore | with_reducible apply State.bumpErr_stable hK.toKeepCore
    | with_reducible apply State.irq_stable hK.toKeepCore | with_reducible apply State.setGpu_stable hK
    | with_reducible apply State.showActive_stable hK.toKeepCore | with_reducible apply State.showPool_stable hK.toKeepCore
    | with_reducible apply State.setResult_stable hK | (intro _ _ _) | (intro _ _) | with_reducible apply foldl_stable
    | with_reducible apply foldl_fst_stable | with_reducible apply overN_stable | extract_lets | with_reducible apply ite_stable
    | with_reducible apply ite_fst_stable | split | fail_if_no_progress (with_reducible apply KeepUnits.other hK) | (dsimp +zetaDelta only)
theorem State.startItem_stable {P : State → Prop} (hK : Stable P) (s : State) (it : WorkItem) (hsK : P s) : P (State.startItem s it) := by
  unfold State.startItem
  repeat' first
    | with_reducible assumption | (with_reducible refine fst_stable (by assumption) ?_)
    | with_reducible apply State.modItem_stable hK.toKeep.toKeepUnits | with_reducible apply State.setUnit_stable hK.toKeep.toKeepUnits
    | with_reducible apply State.showActive_stable hK.toKeep.toKeepCore | with_reducible apply State.runUnit_stable hK | (intro _ _ _) | (intro _ _)
    | with_reducible apply foldl_stable | with_reducible apply foldl_fst_stable | with_reducible apply overN_stable | extract_lets
    | with_reducible apply ite_stable | with_reducible apply ite_fst_stable | split
    | fail_if_no_progress (with_reducible apply Keep.other hK.toKeep) | (dsimp +zetaDelta only)
theorem State.activate_stable {P : State → Prop} (hK : Stable P) (s : State) (y0 : Nat) (hsK : P s) : P (State.activate s y0) := by
  induction y0 generalizing s with
  | zero =>
    unfold State.activate
    repeat' first
      | with_reducible assumption | (with_reducible refine fst_stable (by assumption) ?_) | with_reducible apply State.startItem_stable hK
      | (intro _ _ _) | (intro _ _) | with_reducible apply foldl_stable | with_reducible apply foldl_fst_stable | with_reducible apply overN_stable
      | extract_lets | with_reducible apply ite_stable | with_reducible apply ite_fst_stable | split
      | fail_if_no_progress (with_reducible apply Keep.other hK.toKeep) | (dsimp +zetaDelta only)
  | succ nK ihK =>
    unfold State.activate
    repeat' first
      | with_reducible assumption | (with_reducible refine fst_stable (by assumption) ?_) | with_reducible apply State.startItem_stable hK
      | (intro _ _ _) | (intro _ _) | with_reducible apply ihK | with_reducible apply foldl_stable | with_reducible apply foldl_fst_stable
      | with_reducible apply overN_stable | extract_lets | with_reducible apply ite_stable | with_reducible apply ite_fst_stable | split
      | fail_if_no_progress (with_reducible apply Keep.other hK.toKeep) | (dsimp +zetaDelta only)
theorem State.settle_stable {P : State → Prop} (hK : KeepUnits P) (s : State) (it : WorkItem) (hsK : P s) : P (State.settle s it) := by
  unfold State.settle
  repeat' first
    | with_reducible assumption | (with_reducible refine fst_stable (by assumption) ?_) | with_reducible apply State.bumpEv_stable hK.toKeepCore
    | with_reducible apply State.modItem_stable hK | with_reducible apply State.showPool_stable hK.toKeepCore
    | with_reducible apply State.endItem_stable hK | (intro _ _ _) | (intro _ _) | with_reducible apply foldl_stable
    | with_reducible apply foldl_fst_stable | with_reducible apply overN_stable | extract_lets | with_reducible apply ite_stable
    | with_reducible apply ite_fst_stable | split | fail_if_no_progress (with_reducible apply KeepUnits.other hK) | (dsimp +zetaDelta only)
theorem State.settleAll_stable {P : State → Prop} (hK : KeepUnits P) (s : State) (hsK : P s) : P (State.settleAll s) := by
  unfold State.settleAll
  repeat' first
    | with_reducible assumption | (with_reducible refine fst_stable (by assumption) ?_) | with_reducible apply State.settle_stable hK
    | (intro _ _ _) | (intro _ _) | with_reducible apply foldl_stable | with_reducible apply foldl_fst_stable | with_reducible apply overN_stable
    | extract_lets | with_reducible apply ite_stable | with_reducible apply ite_fst_stable | split
    | fail_if_no_progress (with_reducible apply KeepUnits.other hK) | (dsimp +zetaDelta only)
theorem State.startUnit_stable {P : State → Prop} (hK : Stable P) (s : State) (r : Nat) (it : WorkItem) (spare : Bool) (hsK : P s) :
    P (State.startUnit s r it spare) := by
  unfold State.startUnit
  repeat' first
    | with_reducible assumption | (with_reducible refine fst_stable (by assumption) ?_)
    | with_reducible apply State.modItem_stable hK.toKeep.toKeepUnits | with_reducible apply State.setUnit_stable hK.toKeep.toKeepUnits
    | with_reducible apply State.showCluster_stable hK.toKeep.toKeepCore | with_reducible apply State.poolTouch_stable hK.toKeep
    | with_reducible apply State.loadTile_stable hK.toKeep.toKeepCore | with_reducible apply State.runUnit_stable hK | (intro _ _ _) | (intro _ _)
    | with_reducible apply foldl_stable | with_reducible apply foldl_fst_stable | with_reducible apply overN_stable | extract_lets
    | with_reducible apply ite_stable | with_reducible apply ite_fst_stable | split
    | fail_if_no_progress (with_reducible apply Keep.other hK.toKeep) | (dsimp +zetaDelta only)
theorem State.fill_stable {P : State → Prop} (hK : Stable P) (s : State) (r : Nat) (y0 : Nat) (hsK : P s) : P (State.fill s r y0) := by
  induction y0 generalizing s r with
  | zero =>
    unfold State.fill
    repeat' first
      | with_reducible assumption | (with_reducible refine fst_stable (by assumption) ?_)
      | with_reducible apply State.bumpEv_stable hK.toKeep.toKeepCore | with_reducible apply State.modItem_stable hK.toKeep.toKeepUnits
      | with_reducible apply State.settleAll_stable hK.toKeep.toKeepUnits | with_reducible apply State.startUnit_stable hK | (intro _ _ _)
      | (intro _ _) | with_reducible apply foldl_stable | with_reducible apply foldl_fst_stable | with_reducible apply overN_stable | extract_lets
      | with_reducible apply ite_stable | with_reducible apply ite_fst_stable | split
      | fail_if_no_progress (with_reducible apply Keep.other hK.toKeep) | (dsimp +zetaDelta only)
  | succ nK ihK =>
    unfold State.fill
    repeat' first
      | with_reducible assumption | (with_reducible refine fst_stable (by assumption) ?_)
      | with_reducible apply State.bumpEv_stable hK.toKeep.toKeepCore | with_reducible apply State.modItem_stable hK.toKeep.toKeepUnits
      | with_reducible apply State.settleAll_stable hK.toKeep.toKeepUnits | with_reducible apply State.startUnit_stable hK | (intro _ _ _)
      | (intro _ _) | with_reducible apply ihK | with_reducible apply foldl_stable | with_reducible apply foldl_fst_stable
      | with_reducible apply overN_stable | extract_lets | with_reducible apply ite_stable | with_reducible apply ite_fst_stable | split
      | fail_if_no_progress (with_reducible apply Keep.other hK.toKeep) | (dsimp +zetaDelta only)
theorem State.gpuPass_stable {P : State → Prop} (hK : Stable P) (s : State) (hsK : P s) : P (State.gpuPass s) := by
  unfold State.gpuPass
  repeat' first
    | with_reducible assumption | (with_reducible refine fst_stable (by assumption) ?_) | with_reducible apply State.resumeAll_stable hK
    | with_reducible apply State.activate_stable hK | with_reducible apply State.settleAll_stable hK.toKeep.toKeepUnits
    | with_reducible apply State.fill_stable hK | (intro _ _ _) | (intro _ _) | with_reducible apply foldl_stable
    | with_reducible apply foldl_fst_stable | with_reducible apply overN_stable | extract_lets | with_reducible apply ite_stable
    | with_reducible apply ite_fst_stable | split | fail_if_no_progress (with_reducible apply Keep.other hK.toKeep) | (dsimp +zetaDelta only)
theorem State.gpuPasses_stable {P : State → Prop} (hK : Stable P) (s : State) (y0 : Nat) (hsK : P s) : P (State.gpuPasses s y0) := by
  induction y0 generalizing s with
  | zero =>
    unfold State.gpuPasses
    repeat' first
      | with_reducible assumption | (with_reducible refine fst_stable (by assumption) ?_) | with_reducible apply State.gpuPass_stable hK
      | (intro _ _ _) | (intro _ _) | with_reducible apply foldl_stable | with_reducible apply foldl_fst_stable | with_reducible apply overN_stable
      | extract_lets | with_reducible apply ite_stable | with_reducible apply ite_fst_stable | split
      | fail_if_no_progress (with_reducible apply Keep.other hK.toKeep) | (dsimp +zetaDelta only)
  | succ nK ihK =>
    unfold State.gpuPasses
    repeat' first
      | with_reducible assumption | (with_reducible refine fst_stable (by assumption) ?_) | with_reducible apply State.gpuPass_stable hK
      | (intro _ _ _) | (intro _ _) | with_reducible apply ihK | with_reducible apply foldl_stable | with_reducible apply foldl_fst_stable
      | with_reducible apply overN_stable | extract_lets | with_reducible apply ite_stable | with_reducible apply ite_fst_stable | split
      | fail_if_no_progress (with_reducible apply Keep.other hK.toKeep) | (dsimp +zetaDelta only)
theorem State.gpuKick_stable {P : State → Prop} (hK : Stable P) (s : State) (hsK : P s) : P (State.gpuKick s) := by
  unfold State.gpuKick
  repeat' first
    | with_reducible assumption | (with_reducible refine fst_stable (by assumption) ?_) | with_reducible apply State.gpuPasses_stable hK
    | (intro _ _ _) | (intro _ _) | with_reducible apply foldl_stable | with_reducible apply foldl_fst_stable | with_reducible apply overN_stable
    | extract_lets | with_reducible apply ite_stable | with_reducible apply ite_fst_stable | split
    | fail_if_no_progress (with_reducible apply Keep.other hK.toKeep) | (dsimp +zetaDelta only)

/-! ### Machine/Raster.lean -/

theorem State.wrRctrl_stable {P : State → Prop} (hK : Stable P) (s : State) (w : W64) (hsK : P s) : P (State.wrRctrl s w) := by
  unfold State.wrRctrl
  repeat' first
    | with_reducible assumption | (with_reducible refine fst_stable (by assumption) ?_) | with_reducible apply State.wr_stable hK.toKeep.toKeepCore
    | with_reducible apply State.refuse_stable hK.toKeep.toKeepCore | with_reducible apply State.msrCompare_stable hK.toKeep.toKeepCore
    | with_reducible apply State.gpuKick_stable hK | (intro _ _ _) | (intro _ _) | with_reducible apply foldl_stable
    | with_reducible apply foldl_fst_stable | with_reducible apply overN_stable | extract_lets | with_reducible apply ite_stable
    | with_reducible apply ite_fst_stable | split | fail_if_no_progress (with_reducible apply Keep.other hK.toKeep) | (dsimp +zetaDelta only)
theorem execRasterRun_stable {P : State → Prop} (hK : Stable P) (who : Who) (s : State) (hsK : P s) :
    ∃ r_, execRasterRun who s = .next r_ ∧ P r_ := by
  unfold execRasterRun
  refine ⟨_, rfl, ?_⟩
  repeat' first
    | with_reducible assumption | (with_reducible refine fst_stable (by assumption) ?_) | with_reducible apply State.begin_stable hK.toKeep.toKeepCore
    | with_reducible apply State.write_stable hK.toKeep.toKeepCore | with_reducible apply State.wrRctrl_stable hK | (intro _ _ _) | (intro _ _)
    | with_reducible apply foldl_stable | with_reducible apply foldl_fst_stable | with_reducible apply overN_stable | extract_lets
    | with_reducible apply ite_stable | with_reducible apply ite_fst_stable | split
    | fail_if_no_progress (with_reducible apply Keep.other hK.toKeep) | (dsimp +zetaDelta only)
theorem execRasterStop_stable {P : State → Prop} (hK : Stable P) (who : Who) (s : State) (hsK : P s) :
    ∃ r_, execRasterStop who s = .next r_ ∧ P r_ := by
  unfold execRasterStop
  refine ⟨_, rfl, ?_⟩
  repeat' first
    | with_reducible assumption | (with_reducible refine fst_stable (by assumption) ?_) | with_reducible apply State.begin_stable hK.toKeep.toKeepCore
    | with_reducible apply State.write_stable hK.toKeep.toKeepCore | with_reducible apply State.wrRctrl_stable hK | (intro _ _ _) | (intro _ _)
    | with_reducible apply foldl_stable | with_reducible apply foldl_fst_stable | with_reducible apply overN_stable | extract_lets
    | with_reducible apply ite_stable | with_reducible apply ite_fst_stable | split
    | fail_if_no_progress (with_reducible apply Keep.other hK.toKeep) | (dsimp +zetaDelta only)
theorem State.wrTlpCfg_stable {P : State → Prop} (hK : KeepCore P) (s : State) (w : W64) (hsK : P s) : P (State.wrTlpCfg s w) := by
  unfold State.wrTlpCfg
  repeat' first
    | with_reducible assumption | (with_reducible refine fst_stable (by assumption) ?_) | with_reducible apply State.refuse_stable hK
    | with_reducible apply State.settingWrite_stable hK | (intro _ _ _) | (intro _ _) | with_reducible apply foldl_stable
    | with_reducible apply foldl_fst_stable | with_reducible apply overN_stable | extract_lets | with_reducible apply ite_stable
    | with_reducible apply ite_fst_stable | split | fail_if_no_progress (with_reducible apply KeepCore.other hK) | (dsimp +zetaDelta only)
theorem execPassFloorReserved_stable {P : State → Prop} (hK : Stable P) (s : State) (hsK : P s) :
    ∃ r_, execPassFloorReserved s = .next r_ ∧ P r_ := by
  unfold execPassFloorReserved
  refine ⟨_, rfl, ?_⟩
  repeat' first
    | with_reducible assumption | (with_reducible refine fst_stable (by assumption) ?_) | with_reducible apply State.begin_stable hK.toKeep.toKeepCore
    | with_reducible apply State.setGpu_stable hK.toKeep.toKeepUnits | with_reducible apply State.modItem_stable hK.toKeep.toKeepUnits
    | with_reducible apply State.showPool_stable hK.toKeep.toKeepCore | with_reducible apply State.gpuKick_stable hK | (intro _ _ _) | (intro _ _)
    | with_reducible apply foldl_stable | with_reducible apply foldl_fst_stable | with_reducible apply overN_stable | extract_lets
    | with_reducible apply ite_stable | with_reducible apply ite_fst_stable | split
    | fail_if_no_progress (with_reducible apply Keep.other hK.toKeep) | (dsimp +zetaDelta only)
theorem State.binDraw_stable {P : State → Prop} (hK : Keep P) (s : State) (it : WorkItem) (ps : List BinPrim) (hsK : P s) :
    P (State.binDraw s it ps) := by
  unfold State.binDraw
  repeat' first
    | with_reducible assumption | (with_reducible refine fst_stable (by assumption) ?_) | with_reducible apply State.bumpEv_stable hK.toKeepCore
    | with_reducible apply State.modItem_stable hK.toKeepUnits | with_reducible apply State.showPool_stable hK.toKeepCore
    | with_reducible apply State.poolTouch_stable hK | (intro _ _ _) | (intro _ _) | with_reducible apply foldl_stable
    | with_reducible apply foldl_fst_stable | with_reducible apply overN_stable | extract_lets | with_reducible apply ite_stable
    | with_reducible apply ite_fst_stable | split | fail_if_no_progress (with_reducible apply Keep.other hK) | (dsimp +zetaDelta only)
theorem State.unitEnd_stable {P : State → Prop} (hK : KeepUnits P) (s : State) (r : Nat) (it : WorkItem) (run : UnitRun) (done : WorkItem → State → State) (hdone : ∀ x0 x1, P x1 → P (done x0 x1)) (hsK : P s) :
    P (State.unitEnd s r it run done) := by
  unfold State.unitEnd
  repeat' first
    | with_reducible assumption | (with_reducible refine fst_stable (by assumption) ?_) | with_reducible apply State.endUnit_stable hK
    | with_reducible apply hdone | (intro _ _ _) | (intro _ _) | with_reducible apply foldl_stable | with_reducible apply foldl_fst_stable
    | with_reducible apply overN_stable | extract_lets | with_reducible apply ite_stable | with_reducible apply ite_fst_stable | split
    | fail_if_no_progress (with_reducible apply KeepUnits.other hK) | (dsimp +zetaDelta only)
theorem State.unitRun_stable {P : State → Prop} (hK : Stable P) (s : State) (r : Nat) (u : GUnit) (it : WorkItem) (ops : List GpuOp) (fin : State → State) (hfin : ∀ x0, P x0 → P (fin x0)) (hsK : P s) :
    P (State.unitRun s r u it ops fin) := by
  unfold State.unitRun
  repeat' first
    | with_reducible assumption | (with_reducible refine fst_stable (by assumption) ?_)
    | with_reducible apply State.setUnit_stable hK.toKeep.toKeepUnits | with_reducible apply State.runUnit_stable hK
    | with_reducible apply State.gpuKick_stable hK | with_reducible apply hfin | (intro _ _ _) | (intro _ _) | with_reducible apply foldl_stable
    | with_reducible apply foldl_fst_stable | with_reducible apply overN_stable | extract_lets | with_reducible apply ite_stable
    | with_reducible apply ite_fst_stable | split | fail_if_no_progress (with_reducible apply Keep.other hK.toKeep) | (dsimp +zetaDelta only)
theorem State.drawAssembled_stable {P : State → Prop} (hK : KeepUnits P) (s : State) (cl : Nat) (it : WorkItem) (prog : DrawProg) (idx : List Nat) (hsK : P s) :
    P (State.drawAssembled s cl it prog idx) := by
  unfold State.drawAssembled
  repeat' first
    | with_reducible assumption | (with_reducible refine fst_stable (by assumption) ?_) | with_reducible apply State.emit_stable hK.toKeepCore
    | with_reducible apply State.useFree_stable hK.toKeepCore | with_reducible apply State.modItem_stable hK | (intro _ _ _) | (intro _ _)
    | with_reducible apply foldl_stable | with_reducible apply foldl_fst_stable | with_reducible apply overN_stable | extract_lets
    | with_reducible apply ite_stable | with_reducible apply ite_fst_stable | split | fail_if_no_progress (with_reducible apply KeepUnits.other hK)
    | (dsimp +zetaDelta only)
theorem execDrawBinned_stable {P : State → Prop} (hK : Stable P) (slot : Fin 2) (prog : DrawProg) (prims : List BinPrim) (run : UnitRun) (s : State) (hsK : P s) :
    ∃ r_, execDrawBinned slot prog prims run s = .next r_ ∧ P r_ := by
  unfold execDrawBinned
  refine ⟨_, rfl, ?_⟩
  repeat' first
    | with_reducible assumption | (with_reducible refine fst_stable (by assumption) ?_) | with_reducible apply State.begin_stable hK.toKeep.toKeepCore
    | with_reducible apply State.endUnit_stable hK.toKeep.toKeepUnits | with_reducible apply State.gpuKick_stable hK
    | with_reducible apply State.binDraw_stable hK.toKeep | with_reducible apply State.unitEnd_stable hK.toKeep.toKeepUnits
    | with_reducible apply State.unitRun_stable hK | with_reducible apply State.drawAssembled_stable hK.toKeep.toKeepUnits | (intro _ _ _)
    | (intro _ _) | with_reducible apply foldl_stable | with_reducible apply foldl_fst_stable | with_reducible apply overN_stable | extract_lets
    | with_reducible apply ite_stable | with_reducible apply ite_fst_stable | split
    | fail_if_no_progress (with_reducible apply Keep.other hK.toKeep) | (dsimp +zetaDelta only)
theorem execRenderTileDone_stable {P : State → Prop} (hK : Stable P) (cl : Fin 12) (frags : List TileFrag) (run : UnitRun) (s : State) (hsK : P s) :
    ∃ r_, execRenderTileDone cl frags run s = .next r_ ∧ P r_ := by
  unfold execRenderTileDone
  refine ⟨_, rfl, ?_⟩
  repeat' first
    | with_reducible assumption | (with_reducible refine fst_stable (by assumption) ?_)
    | with_reducible apply State.bumpEv_stable hK.toKeep.toKeepCore | with_reducible apply State.begin_stable hK.toKeep.toKeepCore
    | with_reducible apply State.modItem_stable hK.toKeep.toKeepUnits | with_reducible apply State.unitEnd_stable hK.toKeep.toKeepUnits
    | with_reducible apply State.unitRun_stable hK | (intro _ _ _) | (intro _ _) | with_reducible apply foldl_stable
    | with_reducible apply foldl_fst_stable | with_reducible apply overN_stable | extract_lets | with_reducible apply ite_stable
    | with_reducible apply ite_fst_stable | split | fail_if_no_progress (with_reducible apply Keep.other hK.toKeep) | (dsimp +zetaDelta only)
theorem execComputeTileDone_stable {P : State → Prop} (hK : Stable P) (cl : Fin 12) (run : UnitRun) (s : State) (hsK : P s) :
    ∃ r_, execComputeTileDone cl run s = .next r_ ∧ P r_ := by
  unfold execComputeTileDone
  refine ⟨_, rfl, ?_⟩
  repeat' first
    | with_reducible assumption | (with_reducible refine fst_stable (by assumption) ?_) | with_reducible apply State.begin_stable hK.toKeep.toKeepCore
    | with_reducible apply State.unitEnd_stable hK.toKeep.toKeepUnits | with_reducible apply State.unitRun_stable hK | (intro _ _ _) | (intro _ _)
    | with_reducible apply foldl_stable | with_reducible apply foldl_fst_stable | with_reducible apply overN_stable | extract_lets
    | with_reducible apply ite_stable | with_reducible apply ite_fst_stable | split
    | fail_if_no_progress (with_reducible apply Keep.other hK.toKeep) | (dsimp +zetaDelta only)
theorem State.cutUnits_stable {P : State → Prop} (hK : KeepUnits P) (s : State) (q seq : Nat) (times : List UnitTime) (hsK : P s) :
    P (State.cutUnits s q seq times) := by
  unfold State.cutUnits
  repeat' first
    | with_reducible assumption | (with_reducible refine fst_stable (by assumption) ?_) | with_reducible apply State.endUnit_stable hK
    | (intro _ _ _) | (intro _ _) | with_reducible apply foldl_stable | with_reducible apply foldl_fst_stable | with_reducible apply overN_stable
    | extract_lets | with_reducible apply ite_stable | with_reducible apply ite_fst_stable | split
    | fail_if_no_progress (with_reducible apply KeepUnits.other hK) | (dsimp +zetaDelta only)
theorem execComputeTileKill_stable {P : State → Prop} (hK : Stable P) (cl : Fin 12) (times : List UnitTime) (s : State) (hsK : P s) :
    ∃ r_, execComputeTileKill cl times s = .next r_ ∧ P r_ := by
  unfold execComputeTileKill
  refine ⟨_, rfl, ?_⟩
  repeat' first
    | with_reducible assumption | (with_reducible refine fst_stable (by assumption) ?_)
    | with_reducible apply State.bumpErr_stable hK.toKeep.toKeepCore | with_reducible apply State.begin_stable hK.toKeep.toKeepCore
    | with_reducible apply State.endUnit_stable hK.toKeep.toKeepUnits | with_reducible apply State.endItem_stable hK.toKeep.toKeepUnits
    | with_reducible apply State.gpuKick_stable hK | with_reducible apply State.cutUnits_stable hK.toKeep.toKeepUnits | (intro _ _ _) | (intro _ _)
    | with_reducible apply foldl_stable | with_reducible apply foldl_fst_stable | with_reducible apply overN_stable | extract_lets
    | with_reducible apply ite_stable | with_reducible apply ite_fst_stable | split
    | fail_if_no_progress (with_reducible apply Keep.other hK.toKeep) | (dsimp +zetaDelta only)
theorem execTileMemoryError_stable {P : State → Prop} (hK : Stable P) (cl : Fin 12) (uncorrectable : Bool) (time : UnitTime) (s : State) (hsK : P s) :
    ∃ r_, execTileMemoryError cl uncorrectable time s = .next r_ ∧ P r_ := by
  unfold execTileMemoryError
  refine ⟨_, rfl, ?_⟩
  repeat' first
    | with_reducible assumption | (with_reducible refine fst_stable (by assumption) ?_)
    | with_reducible apply State.bumpErr_stable hK.toKeep.toKeepCore | with_reducible apply State.begin_stable hK.toKeep.toKeepCore
    | with_reducible apply State.modItem_stable hK.toKeep.toKeepUnits | with_reducible apply State.endUnit_stable hK.toKeep.toKeepUnits
    | with_reducible apply State.gpuKick_stable hK | with_reducible apply State.cutUnits_stable hK.toKeep.toKeepUnits | (intro _ _ _) | (intro _ _)
    | with_reducible apply foldl_stable | with_reducible apply foldl_fst_stable | with_reducible apply overN_stable | extract_lets
    | with_reducible apply ite_stable | with_reducible apply ite_fst_stable | split
    | fail_if_no_progress (with_reducible apply Keep.other hK.toKeep) | (dsimp +zetaDelta only)
theorem State.epochCredits_stable {P : State → Prop} (hK : KeepCore P) (s : State) (hsK : P s) : P (State.epochCredits s) := by
  unfold State.epochCredits
  repeat' first
    | with_reducible assumption | (with_reducible refine fst_stable (by assumption) ?_) | with_reducible apply State.latch_stable hK
    | with_reducible apply State.setCredit_stable hK | (intro _ _ _) | (intro _ _) | with_reducible apply foldl_stable
    | with_reducible apply foldl_fst_stable | with_reducible apply overN_stable | extract_lets | with_reducible apply ite_stable
    | with_reducible apply ite_fst_stable | split | fail_if_no_progress (with_reducible apply KeepCore.other hK) | (dsimp +zetaDelta only)
theorem execSchedulerEpoch_stable {P : State → Prop} (hK : Stable P) (s : State) (hsK : P s) :
    ∃ r_, execSchedulerEpoch s = .next r_ ∧ P r_ := by
  unfold execSchedulerEpoch
  refine ⟨_, rfl, ?_⟩
  repeat' first
    | with_reducible assumption | (with_reducible refine fst_stable (by assumption) ?_) | with_reducible apply State.wr_stable hK.toKeep.toKeepCore
    | with_reducible apply State.bumpEv_stable hK.toKeep.toKeepCore | with_reducible apply State.begin_stable hK.toKeep.toKeepCore
    | with_reducible apply State.guard_stable hK.toKeep.toKeepCore | with_reducible apply State.gpuKick_stable hK
    | with_reducible apply State.epochCredits_stable hK.toKeep.toKeepCore | (intro _ _ _) | (intro _ _) | with_reducible apply foldl_stable
    | with_reducible apply foldl_fst_stable | with_reducible apply overN_stable | extract_lets | with_reducible apply ite_stable
    | with_reducible apply ite_fst_stable | split | fail_if_no_progress (with_reducible apply Keep.other hK.toKeep) | (dsimp +zetaDelta only)
theorem execDeadlineWindowOpen_stable {P : State → Prop} (hK : Stable P) (p : Fin 8) (s : State) (hsK : P s) :
    ∃ r_, execDeadlineWindowOpen p s = .next r_ ∧ P r_ := by
  unfold execDeadlineWindowOpen
  refine ⟨_, rfl, ?_⟩
  repeat' first
    | with_reducible assumption | (with_reducible refine fst_stable (by assumption) ?_) | with_reducible apply State.begin_stable hK.toKeep.toKeepCore
    | with_reducible apply State.guard_stable hK.toKeep.toKeepCore | with_reducible apply State.setGpu_stable hK.toKeep.toKeepUnits
    | with_reducible apply State.gpuKick_stable hK | (intro _ _ _) | (intro _ _) | with_reducible apply foldl_stable
    | with_reducible apply foldl_fst_stable | with_reducible apply overN_stable | extract_lets | with_reducible apply ite_stable
    | with_reducible apply ite_fst_stable | split | fail_if_no_progress (with_reducible apply Keep.other hK.toKeep) | (dsimp +zetaDelta only)
theorem execLatchEvent_stable {P : State → Prop} (hK : Stable P) (p : Fin 8) (s : State) (hsK : P s) :
    ∃ r_, execLatchEvent p s = .next r_ ∧ P r_ := by
  unfold execLatchEvent
  refine ⟨_, rfl, ?_⟩
  repeat' first
    | with_reducible assumption | (with_reducible refine fst_stable (by assumption) ?_)
    | with_reducible apply State.bumpErrN_stable hK.toKeep.toKeepCore | with_reducible apply State.begin_stable hK.toKeep.toKeepCore
    | with_reducible apply State.guard_stable hK.toKeep.toKeepCore | with_reducible apply State.setGpu_stable hK.toKeep.toKeepUnits
    | with_reducible apply State.gpuKick_stable hK | (intro _ _ _) | (intro _ _) | with_reducible apply foldl_stable
    | with_reducible apply foldl_fst_stable | with_reducible apply overN_stable | extract_lets | with_reducible apply ite_stable
    | with_reducible apply ite_fst_stable | split | fail_if_no_progress (with_reducible apply Keep.other hK.toKeep) | (dsimp +zetaDelta only)
theorem execLongUnit_stable {P : State → Prop} (hK : KeepUnits P) (res : Fin 14) (s : State) (hsK : P s) :
    ∃ r_, execLongUnit res s = .next r_ ∧ P r_ := by
  unfold execLongUnit
  refine ⟨_, rfl, ?_⟩
  repeat' first
    | with_reducible assumption | (with_reducible refine fst_stable (by assumption) ?_) | with_reducible apply State.bumpErr_stable hK.toKeepCore
    | with_reducible apply State.begin_stable hK.toKeepCore | with_reducible apply State.setUnit_stable hK | (intro _ _ _) | (intro _ _)
    | with_reducible apply foldl_stable | with_reducible apply foldl_fst_stable | with_reducible apply overN_stable | extract_lets
    | with_reducible apply ite_stable | with_reducible apply ite_fst_stable | split | fail_if_no_progress (with_reducible apply KeepUnits.other hK)
    | (dsimp +zetaDelta only)

/-! ### Machine/Mover.lean -/

theorem State.modCh_stable {P : State → Prop} (hK : KeepUnits P) (s : State) (n : Nat) (f : DmCh → DmCh) (hsK : P s) : P (State.modCh s n f) := by
  unfold State.modCh
  repeat' first
    | with_reducible assumption | (with_reducible refine fst_stable (by assumption) ?_) | (intro _ _ _) | (intro _ _)
    | with_reducible apply foldl_stable | with_reducible apply foldl_fst_stable | with_reducible apply overN_stable | extract_lets
    | with_reducible apply ite_stable | with_reducible apply ite_fst_stable | split | fail_if_no_progress (with_reducible apply KeepUnits.other hK)
    | (dsimp +zetaDelta only)
theorem State.modEng_stable {P : State → Prop} (hK : KeepUnits P) (s : State) (e : Nat) (f : DmEng → DmEng) (hsK : P s) :
    P (State.modEng s e f) := by
  unfold State.modEng
  repeat' first
    | with_reducible assumption | (with_reducible refine fst_stable (by assumption) ?_) | (intro _ _ _) | (intro _ _)
    | with_reducible apply foldl_stable | with_reducible apply foldl_fst_stable | with_reducible apply overN_stable | extract_lets
    | with_reducible apply ite_stable | with_reducible apply ite_fst_stable | split | fail_if_no_progress (with_reducible apply KeepUnits.other hK)
    | (dsimp +zetaDelta only)
theorem State.toCh_stable {P : State → Prop} (hK : KeepCore P) (s : State) (n k : Nat) (hsK : P s) : P (State.toCh s n k) := by
  unfold State.toCh
  repeat' first
    | with_reducible assumption | (with_reducible refine fst_stable (by assumption) ?_) | with_reducible apply State.wr_stable hK | (intro _ _ _)
    | (intro _ _) | with_reducible apply foldl_stable | with_reducible apply foldl_fst_stable | with_reducible apply overN_stable | extract_lets
    | with_reducible apply ite_stable | with_reducible apply ite_fst_stable | split | fail_if_no_progress (with_reducible apply KeepCore.other hK)
    | (dsimp +zetaDelta only)
theorem State.showPos_stable {P : State → Prop} (hK : KeepUnits P) (s : State) (n a : Nat) (hsK : P s) : P (State.showPos s n a) := by
  unfold State.showPos
  repeat' first
    | with_reducible assumption | (with_reducible refine fst_stable (by assumption) ?_) | with_reducible apply State.wr_stable hK.toKeepCore
    | with_reducible apply State.modCh_stable hK | (intro _ _ _) | (intro _ _) | with_reducible apply foldl_stable
    | with_reducible apply foldl_fst_stable | with_reducible apply overN_stable | extract_lets | with_reducible apply ite_stable
    | with_reducible apply ite_fst_stable | split | fail_if_no_progress (with_reducible apply KeepUnits.other hK) | (dsimp +zetaDelta only)
theorem State.showFault_stable {P : State → Prop} (hK : KeepCore P) (s : State) (n a : Nat) (hsK : P s) : P (State.showFault s n a) := by
  unfold State.showFault
  repeat' first
    | with_reducible assumption | (with_reducible refine fst_stable (by assumption) ?_) | with_reducible apply State.wr_stable hK | (intro _ _ _)
    | (intro _ _) | with_reducible apply foldl_stable | with_reducible apply foldl_fst_stable | with_reducible apply overN_stable | extract_lets
    | with_reducible apply ite_stable | with_reducible apply ite_fst_stable | split | fail_if_no_progress (with_reducible apply KeepCore.other hK)
    | (dsimp +zetaDelta only)
theorem State.firstFault_stable {P : State → Prop} (hK : KeepUnits P) (s : State) (n a : Nat) (hsK : P s) : P (State.firstFault s n a) := by
  unfold State.firstFault
  repeat' first
    | with_reducible assumption | (with_reducible refine fst_stable (by assumption) ?_) | with_reducible apply State.modCh_stable hK
    | with_reducible apply State.showFault_stable hK.toKeepCore | (intro _ _ _) | (intro _ _) | with_reducible apply foldl_stable
    | with_reducible apply foldl_fst_stable | with_reducible apply overN_stable | extract_lets | with_reducible apply ite_stable
    | with_reducible apply ite_fst_stable | split | fail_if_no_progress (with_reducible apply KeepUnits.other hK) | (dsimp +zetaDelta only)
theorem State.dmEvt_stable {P : State → Prop} (hK : KeepCore P) (s : State) (n : Nat) (f : Fld) (hsK : P s) : P (State.dmEvt s n f) := by
  unfold State.dmEvt
  repeat' first
    | with_reducible assumption | (with_reducible refine fst_stable (by assumption) ?_) | with_reducible apply State.wr_stable hK
    | with_reducible apply State.showIrq_stable hK | (intro _ _ _) | (intro _ _) | with_reducible apply foldl_stable
    | with_reducible apply foldl_fst_stable | with_reducible apply overN_stable | extract_lets | with_reducible apply ite_stable
    | with_reducible apply ite_fst_stable | split | fail_if_no_progress (with_reducible apply KeepCore.other hK) | (dsimp +zetaDelta only)
theorem State.showEng_stable {P : State → Prop} (hK : KeepCore P) (s : State) (e : Nat) (hsK : P s) : P (State.showEng s e) := by
  unfold State.showEng
  repeat' first
    | with_reducible assumption | (with_reducible refine fst_stable (by assumption) ?_) | with_reducible apply State.wr_stable hK | (intro _ _ _)
    | (intro _ _) | with_reducible apply foldl_stable | with_reducible apply foldl_fst_stable | with_reducible apply overN_stable | extract_lets
    | with_reducible apply ite_stable | with_reducible apply ite_fst_stable | split | fail_if_no_progress (with_reducible apply KeepCore.other hK)
    | (dsimp +zetaDelta only)
theorem State.setCvRun_stable {P : State → Prop} (hK : KeepCore P) (s : State) (v x : Nat) (hsK : P s) : P (State.setCvRun s v x) := by
  unfold State.setCvRun
  repeat' first
    | with_reducible assumption | (with_reducible refine fst_stable (by assumption) ?_) | with_reducible apply State.setRw_stable hK
    | (intro _ _ _) | (intro _ _) | with_reducible apply foldl_stable | with_reducible apply foldl_fst_stable | with_reducible apply overN_stable
    | extract_lets | with_reducible apply ite_stable | with_reducible apply ite_fst_stable | split
    | fail_if_no_progress (with_reducible apply KeepCore.other hK) | (dsimp +zetaDelta only)
theorem State.cvInit_stable {P : State → Prop} (hK : KeepCore P) (s : State) (v : Nat) (hsK : P s) : P (State.cvInit s v) := by
  unfold State.cvInit
  repeat' first
    | with_reducible assumption | (with_reducible refine fst_stable (by assumption) ?_) | with_reducible apply State.setCvRun_stable hK
    | (intro _ _ _) | (intro _ _) | with_reducible apply foldl_stable | with_reducible apply foldl_fst_stable | with_reducible apply overN_stable
    | extract_lets | with_reducible apply ite_stable | with_reducible apply ite_fst_stable | split
    | fail_if_no_progress (with_reducible apply KeepCore.other hK) | (dsimp +zetaDelta only)
theorem State.cvFeed_stable {P : State → Prop} (hK : KeepCore P) (s : State) (v : Nat) (b : List Byte) (hsK : P s) : P (State.cvFeed s v b) := by
  unfold State.cvFeed
  repeat' first
    | with_reducible assumption | (with_reducible refine fst_stable (by assumption) ?_) | with_reducible apply State.bumpEv_stable hK
    | with_reducible apply State.setCvRun_stable hK | (intro _ _ _) | (intro _ _) | with_reducible apply foldl_stable
    | with_reducible apply foldl_fst_stable | with_reducible apply overN_stable | extract_lets | with_reducible apply ite_stable
    | with_reducible apply ite_fst_stable | split | fail_if_no_progress (with_reducible apply KeepCore.other hK) | (dsimp +zetaDelta only)
theorem State.setCvFinal_stable {P : State → Prop} (hK : KeepCore P) (s : State) (v : Nat) (hsK : P s) : P (State.setCvFinal s v) := by
  unfold State.setCvFinal
  repeat' first
    | with_reducible assumption | (with_reducible refine fst_stable (by assumption) ?_) | with_reducible apply State.setRw_stable hK
    | (intro _ _ _) | (intro _ _) | with_reducible apply foldl_stable | with_reducible apply foldl_fst_stable | with_reducible apply overN_stable
    | extract_lets | with_reducible apply ite_stable | with_reducible apply ite_fst_stable | split
    | fail_if_no_progress (with_reducible apply KeepCore.other hK) | (dsimp +zetaDelta only)
theorem State.holdCv_stable {P : State → Prop} (hK : KeepCore P) (s : State) (v : Nat) (held : Bool) (owner : Nat) (hsK : P s) :
    P (State.holdCv s v held owner) := by
  unfold State.holdCv
  repeat' first
    | with_reducible assumption | (with_reducible refine fst_stable (by assumption) ?_) | with_reducible apply State.wr_stable hK | (intro _ _ _)
    | (intro _ _) | with_reducible apply foldl_stable | with_reducible apply foldl_fst_stable | with_reducible apply overN_stable | extract_lets
    | with_reducible apply ite_stable | with_reducible apply ite_fst_stable | split | fail_if_no_progress (with_reducible apply KeepCore.other hK)
    | (dsimp +zetaDelta only)
theorem State.cvUncompared_stable {P : State → Prop} (hK : KeepCore P) (s : State) (v : Nat) (hsK : P s) : P (State.cvUncompared s v) := by
  unfold State.cvUncompared
  repeat' first
    | with_reducible assumption | (with_reducible refine fst_stable (by assumption) ?_) | with_reducible apply State.wr_stable hK | (intro _ _ _)
    | (intro _ _) | with_reducible apply foldl_stable | with_reducible apply foldl_fst_stable | with_reducible apply overN_stable | extract_lets
    | with_reducible apply ite_stable | with_reducible apply ite_fst_stable | split | fail_if_no_progress (with_reducible apply KeepCore.other hK)
    | (dsimp +zetaDelta only)
theorem State.cvCompare_stable {P : State → Prop} (hK : KeepCore P) (s : State) (v expect : Nat) (hsK : P s) :
    P (State.cvCompare s v expect).1 := by
  unfold State.cvCompare
  repeat' first
    | with_reducible assumption | (with_reducible refine fst_stable (by assumption) ?_) | with_reducible apply State.wr_stable hK
    | with_reducible apply State.bumpErr_stable hK | (intro _ _ _) | (intro _ _) | with_reducible apply foldl_stable
    | with_reducible apply foldl_fst_stable | with_reducible apply overN_stable | extract_lets | with_reducible apply ite_stable
    | with_reducible apply ite_fst_stable | split | fail_if_no_progress (with_reducible apply KeepCore.other hK) | (dsimp +zetaDelta only)
theorem State.dmReadParts_stable {P : State → Prop} (hK : KeepSys P) (s : State) (owner a : Nat) (host : List (Option (List Byte))) (y0 : Nat) (y1 : Nat) (hsK : P s) :
    P (State.dmReadParts s owner a host y0 y1).1 := by
  induction y0 generalizing s owner a host y1 with
  | zero =>
    unfold State.dmReadParts
    repeat' first
      | with_reducible assumption | (with_reducible refine fst_stable (by assumption) ?_) | with_reducible apply State.memLoad_stable hK
      | with_reducible apply State.gateCheck_stable hK | (intro _ _ _) | (intro _ _) | with_reducible apply foldl_stable
      | with_reducible apply foldl_fst_stable | with_reducible apply overN_stable | extract_lets | with_reducible apply ite_stable
      | with_reducible apply ite_fst_stable | split | fail_if_no_progress (with_reducible apply KeepSys.other hK) | (dsimp +zetaDelta only)
  | succ nK ihK =>
    unfold State.dmReadParts
    repeat' first
      | with_reducible assumption | (with_reducible refine fst_stable (by assumption) ?_) | with_reducible apply State.memLoad_stable hK
      | with_reducible apply State.gateCheck_stable hK | (intro _ _ _) | (intro _ _) | with_reducible apply ihK
      | with_reducible apply foldl_stable | with_reducible apply foldl_fst_stable | with_reducible apply overN_stable | extract_lets
      | with_reducible apply ite_stable | with_reducible apply ite_fst_stable | split | fail_if_no_progress (with_reducible apply KeepSys.other hK)
      | (dsimp +zetaDelta only)
theorem State.dmRead_stable {P : State → Prop} (hK : KeepSys P) (s : State) (owner a n : Nat) (host : List (Option (List Byte))) (hsK : P s) :
    P (State.dmRead s owner a n host).1 := by
  unfold State.dmRead
  repeat' first
    | with_reducible assumption | (with_reducible refine fst_stable (by assumption) ?_) | with_reducible apply State.dmReadParts_stable hK
    | (intro _ _ _) | (intro _ _) | with_reducible apply foldl_stable | with_reducible apply foldl_fst_stable | with_reducible apply overN_stable
    | extract_lets | with_reducible apply ite_stable | with_reducible apply ite_fst_stable | split
    | fail_if_no_progress (with_reducible apply KeepSys.other hK) | (dsimp +zetaDelta only)
theorem State.dmWriteParts_stable {P : State → Prop} (hK : Stable P) (s : State) (owner a : Nat) (y0 : Nat) (y1 : List Byte) (hsK : P s) :
    P (State.dmWriteParts s owner a y0 y1).1 := by
  induction y0 generalizing s owner a y1 with
  | zero =>
    unfold State.dmWriteParts
    repeat' first
      | with_reducible assumption | (with_reducible refine fst_stable (by assumption) ?_)
      | with_reducible apply State.emit_stable hK.toKeep.toKeepCore | with_reducible apply State.memStore_stable hK
      | with_reducible apply State.gateCheck_stable hK.toKeep.toKeepSys | (intro _ _ _) | (intro _ _) | with_reducible apply foldl_stable
      | with_reducible apply foldl_fst_stable | with_reducible apply overN_stable | extract_lets | with_reducible apply ite_stable
      | with_reducible apply ite_fst_stable | split | fail_if_no_progress (with_reducible apply Keep.other hK.toKeep)
      | (dsimp +zetaDelta only)
  | succ nK ihK =>
    unfold State.dmWriteParts
    repeat' first
      | with_reducible assumption | (with_reducible refine fst_stable (by assumption) ?_)
      | with_reducible apply State.emit_stable hK.toKeep.toKeepCore | with_reducible apply State.memStore_stable hK
      | with_reducible apply State.gateCheck_stable hK.toKeep.toKeepSys | (intro _ _ _) | (intro _ _) | with_reducible apply ihK
      | with_reducible apply foldl_stable | with_reducible apply foldl_fst_stable | with_reducible apply overN_stable | extract_lets
      | with_reducible apply ite_stable | with_reducible apply ite_fst_stable | split
      | fail_if_no_progress (with_reducible apply Keep.other hK.toKeep) | (dsimp +zetaDelta only)
theorem State.dmWrite_stable {P : State → Prop} (hK : Stable P) (s : State) (owner a : Nat) (b : List Byte) (hsK : P s) :
    P (State.dmWrite s owner a b).1 := by
  unfold State.dmWrite
  repeat' first
    | with_reducible assumption | (with_reducible refine fst_stable (by assumption) ?_) | with_reducible apply State.dmWriteParts_stable hK
    | (intro _ _ _) | (intro _ _) | with_reducible apply foldl_stable | with_reducible apply foldl_fst_stable | with_reducible apply overN_stable
    | extract_lets | with_reducible apply ite_stable | with_reducible apply ite_fst_stable | split
    | fail_if_no_progress (with_reducible apply Keep.other hK.toKeep) | (dsimp +zetaDelta only)
theorem State.dmViolate_stable {P : State → Prop} (hK : KeepUnits P) (s : State) (n owner reason a : Nat) (write : Bool) (hsK : P s) :
    P (State.dmViolate s n owner reason a write) := by
  unfold State.dmViolate
  repeat' first
    | with_reducible assumption | (with_reducible refine fst_stable (by assumption) ?_) | with_reducible apply State.wr_stable hK.toKeepCore
    | with_reducible apply State.violate_stable hK.toKeepCore | with_reducible apply State.write_stable hK.toKeepCore
    | with_reducible apply State.modCh_stable hK | with_reducible apply State.toCh_stable hK.toKeepCore | with_reducible apply State.firstFault_stable hK
    | with_reducible apply State.dmEvt_stable hK.toKeepCore | (intro _ _ _) | (intro _ _) | with_reducible apply foldl_stable
    | with_reducible apply foldl_fst_stable | with_reducible apply overN_stable | extract_lets | with_reducible apply ite_stable
    | with_reducible apply ite_fst_stable | split | fail_if_no_progress (with_reducible apply KeepUnits.other hK) | (dsimp +zetaDelta only)
theorem State.showRemain_stable {P : State → Prop} (hK : KeepCore P) (s : State) (n : Nat) (hsK : P s) : P (State.showRemain s n) := by
  unfold State.showRemain
  repeat' first
    | with_reducible assumption | (with_reducible refine fst_stable (by assumption) ?_) | with_reducible apply State.wr_stable hK | (intro _ _ _)
    | (intro _ _) | with_reducible apply foldl_stable | with_reducible apply foldl_fst_stable | with_reducible apply overN_stable | extract_lets
    | with_reducible apply ite_stable | with_reducible apply ite_fst_stable | split | fail_if_no_progress (with_reducible apply KeepCore.other hK)
    | (dsimp +zetaDelta only)
theorem State.dmFail_stable {P : State → Prop} (hK : KeepUnits P) (s : State) (n code a : Nat) (hsK : P s) : P (State.dmFail s n code a) := by
  unfold State.dmFail
  repeat' first
    | with_reducible assumption | (with_reducible refine fst_stable (by assumption) ?_) | with_reducible apply State.modCh_stable hK
    | (intro _ _ _) | (intro _ _) | with_reducible apply foldl_stable | with_reducible apply foldl_fst_stable | with_reducible apply overN_stable
    | extract_lets | with_reducible apply ite_stable | with_reducible apply ite_fst_stable | split
    | fail_if_no_progress (with_reducible apply KeepUnits.other hK) | (dsimp +zetaDelta only)
theorem State.dmElemRead_stable {P : State → Prop} (hK : Keep P) (s : State) (n owner : Nat) (host : List (Option (List Byte))) (hsK : P s) :
    P (State.dmElemRead s n owner host).1 := by
  unfold State.dmElemRead
  repeat' first
    | with_reducible assumption | (with_reducible refine fst_stable (by assumption) ?_) | with_reducible apply State.modCh_stable hK.toKeepUnits
    | with_reducible apply State.dmRead_stable hK.toKeepSys | with_reducible apply State.dmViolate_stable hK.toKeepUnits
    | with_reducible apply State.dmFail_stable hK.toKeepUnits | (intro _ _ _) | (intro _ _) | with_reducible apply foldl_stable
    | with_reducible apply foldl_fst_stable | with_reducible apply overN_stable | extract_lets | with_reducible apply ite_stable
    | with_reducible apply ite_fst_stable | split | fail_if_no_progress (with_reducible apply Keep.other hK) | (dsimp +zetaDelta only)
theorem State.dmStep_stable {P : State → Prop} (hK : KeepUnits P) (s : State) (n elems : Nat) (b : List Byte) (hsK : P s) :
    P (State.dmStep s n elems b) := by
  unfold State.dmStep
  repeat' first
    | with_reducible assumption | (with_reducible refine fst_stable (by assumption) ?_) | with_reducible apply State.modCh_stable hK
    | with_reducible apply State.cvFeed_stable hK.toKeepCore | (intro _ _ _) | (intro _ _) | with_reducible apply foldl_stable
    | with_reducible apply foldl_fst_stable | with_reducible apply overN_stable | extract_lets | with_reducible apply ite_stable
    | with_reducible apply ite_fst_stable | split | fail_if_no_progress (with_reducible apply KeepUnits.other hK) | (dsimp +zetaDelta only)
theorem State.dmCount_stable {P : State → Prop} (hK : KeepCore P) (s : State) (n : Nat) (l : List Byte) (hsK : P s) : P (State.dmCount s n l) := by
  unfold State.dmCount
  repeat' first
    | with_reducible assumption | (with_reducible refine fst_stable (by assumption) ?_) | with_reducible apply State.bumpEv_stable hK
    | (intro _ _ _) | (intro _ _) | with_reducible apply foldl_stable | with_reducible apply foldl_fst_stable | with_reducible apply overN_stable
    | extract_lets | with_reducible apply ite_stable | with_reducible apply ite_fst_stable | split
    | fail_if_no_progress (with_reducible apply KeepCore.other hK) | (dsimp +zetaDelta only)
theorem State.dmElem_stable {P : State → Prop} (hK : Stable P) (s : State) (n owner : Nat) (host : List (Option (List Byte))) (hsK : P s) :
    P (State.dmElem s n owner host).1 := by
  unfold State.dmElem
  repeat' first
    | with_reducible assumption | (with_reducible refine fst_stable (by assumption) ?_)
    | with_reducible apply State.useFree_stable hK.toKeep.toKeepCore | with_reducible apply State.modCh_stable hK.toKeep.toKeepUnits
    | with_reducible apply State.dmWrite_stable hK | with_reducible apply State.dmViolate_stable hK.toKeep.toKeepUnits
    | with_reducible apply State.dmFail_stable hK.toKeep.toKeepUnits | with_reducible apply State.dmElemRead_stable hK.toKeep
    | with_reducible apply State.dmStep_stable hK.toKeep.toKeepUnits | with_reducible apply State.dmCount_stable hK.toKeep.toKeepCore | (intro _ _ _)
    | (intro _ _) | with_reducible apply foldl_stable | with_reducible apply foldl_fst_stable | with_reducible apply overN_stable | extract_lets
    | with_reducible apply ite_stable | with_reducible apply ite_fst_stable | split
    | fail_if_no_progress (with_reducible apply Keep.other hK.toKeep) | (dsimp +zetaDelta only)
theorem State.dmGather_stable {P : State → Prop} (hK : Keep P) (s : State) (n owner : Nat) (y0 : Nat) (y1 : Nat) (y2 : List Byte) (y3 : List (Option (List Byte))) (hsK : P s) :
    P (State.dmGather s n owner y0 y1 y2 y3).1 := by
  induction y0 generalizing s n owner y1 y2 y3 with
  | zero =>
    unfold State.dmGather
    repeat' first
      | with_reducible assumption | (with_reducible refine fst_stable (by assumption) ?_) | with_reducible apply State.modCh_stable hK.toKeepUnits
      | with_reducible apply State.dmRead_stable hK.toKeepSys | (intro _ _ _) | (intro _ _) | with_reducible apply foldl_stable
      | with_reducible apply foldl_fst_stable | with_reducible apply overN_stable | extract_lets | with_reducible apply ite_stable
      | with_reducible apply ite_fst_stable | split | fail_if_no_progress (with_reducible apply Keep.other hK) | (dsimp +zetaDelta only)
  | succ nK ihK =>
    unfold State.dmGather
    repeat' first
      | with_reducible assumption | (with_reducible refine fst_stable (by assumption) ?_) | with_reducible apply State.modCh_stable hK.toKeepUnits
      | with_reducible apply State.dmRead_stable hK.toKeepSys | (intro _ _ _) | (intro _ _) | with_reducible apply ihK
      | with_reducible apply foldl_stable | with_reducible apply foldl_fst_stable | with_reducible apply overN_stable | extract_lets
      | with_reducible apply ite_stable | with_reducible apply ite_fst_stable | split | fail_if_no_progress (with_reducible apply Keep.other hK)
      | (dsimp +zetaDelta only)
theorem State.dmGathered_stable {P : State → Prop} (hK : KeepUnits P) (s : State) (n owner : Nat) (r : Option DmAns) (hsK : P s) :
    P (State.dmGathered s n owner r).1 := by
  unfold State.dmGathered
  repeat' first
    | with_reducible assumption | (with_reducible refine fst_stable (by assumption) ?_) | with_reducible apply State.modCh_stable hK
    | with_reducible apply State.dmViolate_stable hK | with_reducible apply State.dmFail_stable hK | (intro _ _ _) | (intro _ _)
    | with_reducible apply foldl_stable | with_reducible apply foldl_fst_stable | with_reducible apply overN_stable | extract_lets
    | with_reducible apply ite_stable | with_reducible apply ite_fst_stable | split | fail_if_no_progress (with_reducible apply KeepUnits.other hK)
    | (dsimp +zetaDelta only)
theorem State.dmBatch_stable {P : State → Prop} (hK : Stable P) (s : State) (n owner : Nat) (host : List (Option (List Byte))) (hsK : P s) :
    P (State.dmBatch s n owner host).1 := by
  unfold State.dmBatch
  repeat' first
    | with_reducible assumption | (with_reducible refine fst_stable (by assumption) ?_) | with_reducible apply State.dmWrite_stable hK
    | with_reducible apply State.dmViolate_stable hK.toKeep.toKeepUnits | with_reducible apply State.dmFail_stable hK.toKeep.toKeepUnits
    | with_reducible apply State.dmStep_stable hK.toKeep.toKeepUnits | with_reducible apply State.dmCount_stable hK.toKeep.toKeepCore
    | with_reducible apply State.dmElem_stable hK | with_reducible apply State.dmGather_stable hK.toKeep
    | with_reducible apply State.dmGathered_stable hK.toKeep.toKeepUnits | (intro _ _ _) | (intro _ _) | with_reducible apply foldl_stable
    | with_reducible apply foldl_fst_stable | with_reducible apply overN_stable | extract_lets | with_reducible apply ite_stable
    | with_reducible apply ite_fst_stable | split | fail_if_no_progress (with_reducible apply Keep.other hK.toKeep) | (dsimp +zetaDelta only)
theorem State.dmMove_stable {P : State → Prop} (hK : Stable P) (s : State) (n owner : Nat) (y0 : Nat) (y1 : List (Option (List Byte))) (hsK : P s) :
    P (State.dmMove s n owner y0 y1) := by
  induction y0 generalizing s n owner y1 with
  | zero =>
    unfold State.dmMove
    repeat' first
      | with_reducible assumption | (with_reducible refine fst_stable (by assumption) ?_) | with_reducible apply State.dmBatch_stable hK
      | (intro _ _ _) | (intro _ _) | with_reducible apply foldl_stable | with_reducible apply foldl_fst_stable | with_reducible apply overN_stable
      | extract_lets | with_reducible apply ite_stable | with_reducible apply ite_fst_stable | split
      | fail_if_no_progress (with_reducible apply Keep.other hK.toKeep) | (dsimp +zetaDelta only)
  | succ nK ihK =>
    unfold State.dmMove
    repeat' first
      | with_reducible assumption | (with_reducible refine fst_stable (by assumption) ?_) | with_reducible apply State.dmBatch_stable hK
      | (intro _ _ _) | (intro _ _) | with_reducible apply ihK | with_reducible apply foldl_stable | with_reducible apply foldl_fst_stable
      | with_reducible apply overN_stable | extract_lets | with_reducible apply ite_stable | with_reducible apply ite_fst_stable | split
      | fail_if_no_progress (with_reducible apply Keep.other hK.toKeep) | (dsimp +zetaDelta only)
theorem State.dmOperate_stable {P : State → Prop} (hK : Stable P) (s : State) (n : Nat) (host : List (Option (List Byte))) (hsK : P s) :
    P (State.dmOperate s n host) := by
  unfold State.dmOperate
  repeat' first
    | with_reducible assumption | (with_reducible refine fst_stable (by assumption) ?_)
    | with_reducible apply State.bumpEv_stable hK.toKeep.toKeepCore | with_reducible apply State.irq_stable hK.toKeep.toKeepCore
    | with_reducible apply State.modCh_stable hK.toKeep.toKeepUnits | with_reducible apply State.dmEvt_stable hK.toKeep.toKeepCore
    | with_reducible apply State.setCvRun_stable hK.toKeep.toKeepCore | with_reducible apply State.cvInit_stable hK.toKeep.toKeepCore
    | with_reducible apply State.setCvFinal_stable hK.toKeep.toKeepCore | with_reducible apply State.cvUncompared_stable hK.toKeep.toKeepCore
    | with_reducible apply State.cvCompare_stable hK.toKeep.toKeepCore | with_reducible apply State.dmRead_stable hK.toKeep.toKeepSys
    | with_reducible apply State.dmWrite_stable hK | with_reducible apply State.dmViolate_stable hK.toKeep.toKeepUnits
    | with_reducible apply State.showRemain_stable hK.toKeep.toKeepCore | with_reducible apply State.dmFail_stable hK.toKeep.toKeepUnits
    | with_reducible apply State.dmMove_stable hK | (intro _ _ _) | (intro _ _) | with_reducible apply foldl_stable
    | with_reducible apply foldl_fst_stable | with_reducible apply overN_stable | extract_lets | with_reducible apply ite_stable
    | with_reducible apply ite_fst_stable | split | fail_if_no_progress (with_reducible apply Keep.other hK.toKeep) | (dsimp +zetaDelta only)
theorem State.dmKick_stable {P : State → Prop} (hK : KeepUnits P) (s : State) (e : Nat) (hsK : P s) : P (State.dmKick s e) := by
  unfold State.dmKick
  repeat' first
    | with_reducible assumption | (with_reducible refine fst_stable (by assumption) ?_) | with_reducible apply State.wr_stable hK.toKeepCore
    | with_reducible apply State.modCh_stable hK | with_reducible apply State.modEng_stable hK | with_reducible apply State.toCh_stable hK.toKeepCore
    | with_reducible apply State.showPos_stable hK | with_reducible apply State.showEng_stable hK.toKeepCore
    | with_reducible apply State.holdCv_stable hK.toKeepCore | (intro _ _ _) | (intro _ _) | with_reducible apply foldl_stable
    | with_reducible apply foldl_fst_stable | with_reducible apply overN_stable | extract_lets | with_reducible apply ite_stable
    | with_reducible apply ite_fst_stable | split | fail_if_no_progress (with_reducible apply KeepUnits.other hK) | (dsimp +zetaDelta only)
theorem State.dmKickAll_stable {P : State → Prop} (hK : KeepUnits P) (s : State) (hsK : P s) : P (State.dmKickAll s) := by
  unfold State.dmKickAll
  repeat' first
    | with_reducible assumption | (with_reducible refine fst_stable (by assumption) ?_) | with_reducible apply State.dmKick_stable hK
    | (intro _ _ _) | (intro _ _) | with_reducible apply foldl_stable | with_reducible apply foldl_fst_stable | with_reducible apply overN_stable
    | extract_lets | with_reducible apply ite_stable | with_reducible apply ite_fst_stable | split
    | fail_if_no_progress (with_reducible apply KeepUnits.other hK) | (dsimp +zetaDelta only)
theorem State.dmWait_stable {P : State → Prop} (hK : KeepUnits P) (s : State) (n : Nat) (keep : Bool) (hsK : P s) : P (State.dmWait s n keep) := by
  unfold State.dmWait
  repeat' first
    | with_reducible assumption | (with_reducible refine fst_stable (by assumption) ?_) | with_reducible apply State.modCh_stable hK
    | with_reducible apply State.modEng_stable hK | (intro _ _ _) | (intro _ _) | with_reducible apply foldl_stable
    | with_reducible apply foldl_fst_stable | with_reducible apply overN_stable | extract_lets | with_reducible apply ite_stable
    | with_reducible apply ite_fst_stable | split | fail_if_no_progress (with_reducible apply KeepUnits.other hK) | (dsimp +zetaDelta only)
theorem State.dmLeave_stable {P : State → Prop} (hK : KeepUnits P) (s : State) (n : Nat) (hsK : P s) : P (State.dmLeave s n) := by
  unfold State.dmLeave
  repeat' first
    | with_reducible assumption | (with_reducible refine fst_stable (by assumption) ?_) | with_reducible apply State.modEng_stable hK
    | (intro _ _ _) | (intro _ _) | with_reducible apply foldl_stable | with_reducible apply foldl_fst_stable | with_reducible apply overN_stable
    | extract_lets | with_reducible apply ite_stable | with_reducible apply ite_fst_stable | split
    | fail_if_no_progress (with_reducible apply KeepUnits.other hK) | (dsimp +zetaDelta only)
theorem State.dmYield_stable {P : State → Prop} (hK : KeepUnits P) (s : State) (n : Nat) (hsK : P s) : P (State.dmYield s n) := by
  unfold State.dmYield
  repeat' first
    | with_reducible assumption | (with_reducible refine fst_stable (by assumption) ?_) | with_reducible apply State.toCh_stable hK.toKeepCore
    | with_reducible apply State.dmKick_stable hK | with_reducible apply State.dmWait_stable hK | with_reducible apply State.dmLeave_stable hK
    | (intro _ _ _) | (intro _ _) | with_reducible apply foldl_stable | with_reducible apply foldl_fst_stable | with_reducible apply overN_stable
    | extract_lets | with_reducible apply ite_stable | with_reducible apply ite_fst_stable | split
    | fail_if_no_progress (with_reducible apply KeepUnits.other hK) | (dsimp +zetaDelta only)
theorem State.chRest_stable {P : State → Prop} (hK : KeepCore P) (s : State) (n : Nat) (hsK : P s) : P (State.chRest s n) := by
  unfold State.chRest
  repeat' first
    | with_reducible assumption | (with_reducible refine fst_stable (by assumption) ?_) | with_reducible apply State.toCh_stable hK
    | (intro _ _ _) | (intro _ _) | with_reducible apply foldl_stable | with_reducible apply foldl_fst_stable | with_reducible apply overN_stable
    | extract_lets | with_reducible apply ite_stable | with_reducible apply ite_fst_stable | split
    | fail_if_no_progress (with_reducible apply KeepCore.other hK) | (dsimp +zetaDelta only)
theorem State.dropCv_stable {P : State → Prop} (hK : KeepUnits P) (s : State) (n : Nat) (hsK : P s) : P (State.dropCv s n) := by
  unfold State.dropCv
  repeat' first
    | with_reducible assumption | (with_reducible refine fst_stable (by assumption) ?_) | with_reducible apply State.modCh_stable hK
    | with_reducible apply State.holdCv_stable hK.toKeepCore | (intro _ _ _) | (intro _ _) | with_reducible apply foldl_stable
    | with_reducible apply foldl_fst_stable | with_reducible apply overN_stable | extract_lets | with_reducible apply ite_stable
    | with_reducible apply ite_fst_stable | split | fail_if_no_progress (with_reducible apply KeepUnits.other hK) | (dsimp +zetaDelta only)
theorem State.dmResult_stable {P : State → Prop} (hK : KeepUnits P) (s : State) (w : DmWork) (code : Nat) (hsK : P s) :
    P (State.dmResult s w code) := by
  unfold State.dmResult
  repeat' first
    | with_reducible assumption | (with_reducible refine fst_stable (by assumption) ?_) | with_reducible apply State.modQueue_stable hK
    | (intro _ _ _) | (intro _ _) | with_reducible apply foldl_stable | with_reducible apply foldl_fst_stable | with_reducible apply overN_stable
    | extract_lets | with_reducible apply ite_stable | with_reducible apply ite_fst_stable | split
    | fail_if_no_progress (with_reducible apply KeepUnits.other hK) | (dsimp +zetaDelta only)
theorem State.chainStop_stable {P : State → Prop} (hK : KeepUnits P) (s : State) (n : Nat) (hsK : P s) : P (State.chainStop s n) := by
  unfold State.chainStop
  repeat' first
    | with_reducible assumption | (with_reducible refine fst_stable (by assumption) ?_) | with_reducible apply State.wr_stable hK.toKeepCore
    | with_reducible apply State.modCh_stable hK | with_reducible apply State.toCh_stable hK.toKeepCore | (intro _ _ _) | (intro _ _)
    | with_reducible apply foldl_stable | with_reducible apply foldl_fst_stable | with_reducible apply overN_stable | extract_lets
    | with_reducible apply ite_stable | with_reducible apply ite_fst_stable | split | fail_if_no_progress (with_reducible apply KeepUnits.other hK)
    | (dsimp +zetaDelta only)
theorem State.dmEnd_stable {P : State → Prop} (hK : KeepUnits P) (s : State) (n code : Nat) (hsK : P s) : P (State.dmEnd s n code) := by
  unfold State.dmEnd
  repeat' first
    | with_reducible assumption | (with_reducible refine fst_stable (by assumption) ?_) | with_reducible apply State.wr_stable hK.toKeepCore
    | with_reducible apply State.bumpErr_stable hK.toKeepCore | with_reducible apply State.modCh_stable hK
    | with_reducible apply State.toCh_stable hK.toKeepCore | with_reducible apply State.dmEvt_stable hK.toKeepCore
    | with_reducible apply State.dmKick_stable hK | with_reducible apply State.dmWait_stable hK | with_reducible apply State.dmLeave_stable hK
    | with_reducible apply State.chRest_stable hK.toKeepCore | with_reducible apply State.dmResult_stable hK
    | with_reducible apply State.chainStop_stable hK | (intro _ _ _) | (intro _ _) | with_reducible apply foldl_stable
    | with_reducible apply foldl_fst_stable | with_reducible apply overN_stable | extract_lets | with_reducible apply ite_stable
    | with_reducible apply ite_fst_stable | split | fail_if_no_progress (with_reducible apply KeepUnits.other hK) | (dsimp +zetaDelta only)
theorem State.dmRecord_stable {P : State → Prop} (hK : KeepUnits P) (s : State) (n code a : Nat) (hsK : P s) : P (State.dmRecord s n code a) := by
  unfold State.dmRecord
  repeat' first
    | with_reducible assumption | (with_reducible refine fst_stable (by assumption) ?_) | with_reducible apply State.wr_stable hK.toKeepCore
    | with_reducible apply State.firstFault_stable hK | (intro _ _ _) | (intro _ _) | with_reducible apply foldl_stable
    | with_reducible apply foldl_fst_stable | with_reducible apply overN_stable | extract_lets | with_reducible apply ite_stable
    | with_reducible apply ite_fst_stable | split | fail_if_no_progress (with_reducible apply KeepUnits.other hK) | (dsimp +zetaDelta only)
theorem State.dmStatus_stable {P : State → Prop} (hK : Stable P) (s : State) (n code : Nat) (hsK : P s) : P (State.dmStatus s n code) := by
  unfold State.dmStatus
  repeat' first
    | with_reducible assumption | (with_reducible refine fst_stable (by assumption) ?_)
    | with_reducible apply State.modCh_stable hK.toKeep.toKeepUnits | with_reducible apply State.dmWrite_stable hK
    | with_reducible apply State.dmViolate_stable hK.toKeep.toKeepUnits | with_reducible apply State.dmRecord_stable hK.toKeep.toKeepUnits | (intro _ _ _)
    | (intro _ _) | with_reducible apply foldl_stable | with_reducible apply foldl_fst_stable | with_reducible apply overN_stable | extract_lets
    | with_reducible apply ite_stable | with_reducible apply ite_fst_stable | split
    | fail_if_no_progress (with_reducible apply Keep.other hK.toKeep) | (dsimp +zetaDelta only)
theorem State.dmDescEnd_stable {P : State → Prop} (hK : Stable P) (s : State) (n code : Nat) (fault : Option Nat) (hsK : P s) :
    P (State.dmDescEnd s n code fault) := by
  unfold State.dmDescEnd
  repeat' first
    | with_reducible assumption | (with_reducible refine fst_stable (by assumption) ?_)
    | with_reducible apply State.modCh_stable hK.toKeep.toKeepUnits | with_reducible apply State.dmKickAll_stable hK.toKeep.toKeepUnits
    | with_reducible apply State.dmYield_stable hK.toKeep.toKeepUnits | with_reducible apply State.dropCv_stable hK.toKeep.toKeepUnits
    | with_reducible apply State.dmRecord_stable hK.toKeep.toKeepUnits | with_reducible apply State.dmStatus_stable hK | (intro _ _ _) | (intro _ _)
    | with_reducible apply foldl_stable | with_reducible apply foldl_fst_stable | with_reducible apply overN_stable | extract_lets
    | with_reducible apply ite_stable | with_reducible apply ite_fst_stable | split
    | fail_if_no_progress (with_reducible apply Keep.other hK.toKeep) | (dsimp +zetaDelta only)
theorem State.dmDirect_stable {P : State → Prop} (hK : KeepUnits P) (s : State) (n : Nat) (w : DmWork) (hsK : P s) : P (State.dmDirect s n w) := by
  unfold State.dmDirect
  repeat' first
    | with_reducible assumption | (with_reducible refine fst_stable (by assumption) ?_) | with_reducible apply State.bumpErr_stable hK.toKeepCore
    | with_reducible apply State.dmResult_stable hK | (intro _ _ _) | (intro _ _) | with_reducible apply foldl_stable
    | with_reducible apply foldl_fst_stable | with_reducible apply overN_stable | extract_lets | with_reducible apply ite_stable
    | with_reducible apply ite_fst_stable | split | fail_if_no_progress (with_reducible apply KeepUnits.other hK) | (dsimp +zetaDelta only)
theorem State.dmSubmit_stable {P : State → Prop} (hK : KeepUnits P) (s : State) (st q seq n a : Nat) (hsK : P s) :
    P (State.dmSubmit s st q seq n a) := by
  unfold State.dmSubmit
  repeat' first
    | with_reducible assumption | (with_reducible refine fst_stable (by assumption) ?_) | with_reducible apply State.modCh_stable hK
    | with_reducible apply State.toCh_stable hK.toKeepCore | with_reducible apply State.dmKick_stable hK | with_reducible apply State.dmWait_stable hK
    | with_reducible apply State.dmDirect_stable hK | (intro _ _ _) | (intro _ _) | with_reducible apply foldl_stable
    | with_reducible apply foldl_fst_stable | with_reducible apply overN_stable | extract_lets | with_reducible apply ite_stable
    | with_reducible apply ite_fst_stable | split | fail_if_no_progress (with_reducible apply KeepUnits.other hK) | (dsimp +zetaDelta only)
theorem State.dmAbandon_stable {P : State → Prop} (hK : Stable P) (s : State) (n : Nat) (code : Option Nat) (hsK : P s) :
    P (State.dmAbandon s n code) := by
  unfold State.dmAbandon
  repeat' first
    | with_reducible assumption | (with_reducible refine fst_stable (by assumption) ?_) | with_reducible apply State.wr_stable hK.toKeep.toKeepCore
    | with_reducible apply State.bumpErr_stable hK.toKeep.toKeepCore | with_reducible apply State.modCh_stable hK.toKeep.toKeepUnits
    | with_reducible apply State.dmEvt_stable hK.toKeep.toKeepCore | with_reducible apply State.dmKickAll_stable hK.toKeep.toKeepUnits
    | with_reducible apply State.dmWait_stable hK.toKeep.toKeepUnits | with_reducible apply State.dmLeave_stable hK.toKeep.toKeepUnits
    | with_reducible apply State.chRest_stable hK.toKeep.toKeepCore | with_reducible apply State.dropCv_stable hK.toKeep.toKeepUnits
    | with_reducible apply State.dmResult_stable hK.toKeep.toKeepUnits | with_reducible apply State.dmStatus_stable hK | (intro _ _ _) | (intro _ _)
    | with_reducible apply foldl_stable | with_reducible apply foldl_fst_stable | with_reducible apply overN_stable | extract_lets
    | with_reducible apply ite_stable | with_reducible apply ite_fst_stable | split
    | fail_if_no_progress (with_reducible apply Keep.other hK.toKeep) | (dsimp +zetaDelta only)
theorem State.dmSquash_stable {P : State → Prop} (hK : Stable P) (s : State) (p : DmWork → Bool) (hsK : P s) : P (State.dmSquash s p) := by
  unfold State.dmSquash
  repeat' first
    | with_reducible assumption | (with_reducible refine fst_stable (by assumption) ?_)
    | with_reducible apply State.bumpErrN_stable hK.toKeep.toKeepCore | with_reducible apply State.modCh_stable hK.toKeep.toKeepUnits
    | with_reducible apply State.showEng_stable hK.toKeep.toKeepCore | with_reducible apply State.dmLeave_stable hK.toKeep.toKeepUnits
    | with_reducible apply State.chRest_stable hK.toKeep.toKeepCore | with_reducible apply State.dmAbandon_stable hK | (intro _ _ _) | (intro _ _)
    | with_reducible apply foldl_stable | with_reducible apply foldl_fst_stable | with_reducible apply overN_stable | extract_lets
    | with_reducible apply ite_stable | with_reducible apply ite_fst_stable | split
    | fail_if_no_progress (with_reducible apply Keep.other hK.toKeep) | (dsimp +zetaDelta only)
theorem State.cvStallReset_stable {P : State → Prop} (hK : KeepCore P) (s : State) (st : Nat) (hsK : P s) : P (State.cvStallReset s st) := by
  unfold State.cvStallReset
  repeat' first
    | with_reducible assumption | (with_reducible refine fst_stable (by assumption) ?_) | with_reducible apply State.wr_stable hK
    | with_reducible apply State.cvInit_stable hK | (intro _ _ _) | (intro _ _) | with_reducible apply foldl_stable
    | with_reducible apply foldl_fst_stable | with_reducible apply overN_stable | extract_lets | with_reducible apply ite_stable
    | with_reducible apply ite_fst_stable | split | fail_if_no_progress (with_reducible apply KeepCore.other hK) | (dsimp +zetaDelta only)
theorem State.dmThawed_stable {P : State → Prop} (hK : KeepUnits P) (s : State) (hsK : P s) : P (State.dmThawed s) := by
  unfold State.dmThawed
  repeat' first
    | with_reducible assumption | (with_reducible refine fst_stable (by assumption) ?_) | with_reducible apply State.toCh_stable hK.toKeepCore
    | with_reducible apply State.dmKick_stable hK | (intro _ _ _) | (intro _ _) | with_reducible apply foldl_stable
    | with_reducible apply foldl_fst_stable | with_reducible apply overN_stable | extract_lets | with_reducible apply ite_stable
    | with_reducible apply ite_fst_stable | split | fail_if_no_progress (with_reducible apply KeepUnits.other hK) | (dsimp +zetaDelta only)
theorem State.wrChCfg_stable {P : State → Prop} (hK : KeepUnits P) (s : State) (who : Who) (n : Nat) (w : W64) (hsK : P s) :
    P (State.wrChCfg s who n w) := by
  unfold State.wrChCfg
  repeat' first
    | with_reducible assumption | (with_reducible refine fst_stable (by assumption) ?_) | with_reducible apply State.wr_stable hK.toKeepCore
    | with_reducible apply State.settingWrite_stable hK.toKeepCore | with_reducible apply State.modCh_stable hK
    | with_reducible apply State.toCh_stable hK.toKeepCore | with_reducible apply State.showPos_stable hK | with_reducible apply State.dmKick_stable hK
    | with_reducible apply State.dmWait_stable hK | with_reducible apply State.chRest_stable hK.toKeepCore
    | with_reducible apply State.chainStop_stable hK | with_reducible apply State.dmDirect_stable hK | (intro _ _ _) | (intro _ _)
    | with_reducible apply foldl_stable | with_reducible apply foldl_fst_stable | with_reducible apply overN_stable | extract_lets
    | with_reducible apply ite_stable | with_reducible apply ite_fst_stable | split | fail_if_no_progress (with_reducible apply KeepUnits.other hK)
    | (dsimp +zetaDelta only)
theorem execChannelDisable_stable {P : State → Prop} (hK : KeepUnits P) (who : Who) (e : Fin 4) (c : Fin 8) (s : State) (hsK : P s) :
    ∃ r_, execChannelDisable who e c s = .next r_ ∧ P r_ := by
  unfold execChannelDisable
  refine ⟨_, rfl, ?_⟩
  repeat' first
    | with_reducible assumption | (with_reducible refine fst_stable (by assumption) ?_) | with_reducible apply State.begin_stable hK.toKeepCore
    | with_reducible apply State.write_stable hK.toKeepCore | with_reducible apply State.wrChCfg_stable hK | (intro _ _ _) | (intro _ _)
    | with_reducible apply foldl_stable | with_reducible apply foldl_fst_stable | with_reducible apply overN_stable | extract_lets
    | with_reducible apply ite_stable | with_reducible apply ite_fst_stable | split | fail_if_no_progress (with_reducible apply KeepUnits.other hK)
    | (dsimp +zetaDelta only)
theorem execDisLimitExpiry_stable {P : State → Prop} (hK : Stable P) (e : Fin 4) (c : Fin 8) (s : State) (hsK : P s) :
    ∃ r_, execDisLimitExpiry e c s = .next r_ ∧ P r_ := by
  unfold execDisLimitExpiry
  refine ⟨_, rfl, ?_⟩
  repeat' first
    | with_reducible assumption | (with_reducible refine fst_stable (by assumption) ?_) | with_reducible apply State.begin_stable hK.toKeep.toKeepCore
    | with_reducible apply State.guard_stable hK.toKeep.toKeepCore | with_reducible apply State.dmAbandon_stable hK | (intro _ _ _) | (intro _ _)
    | with_reducible apply foldl_stable | with_reducible apply foldl_fst_stable | with_reducible apply overN_stable | extract_lets
    | with_reducible apply ite_stable | with_reducible apply ite_fst_stable | split
    | fail_if_no_progress (with_reducible apply Keep.other hK.toKeep) | (dsimp +zetaDelta only)
theorem execChannelEnable_stable {P : State → Prop} (hK : KeepUnits P) (who : Who) (e : Fin 4) (c : Fin 8) (s : State) (hsK : P s) :
    ∃ r_, execChannelEnable who e c s = .next r_ ∧ P r_ := by
  unfold execChannelEnable
  refine ⟨_, rfl, ?_⟩
  repeat' first
    | with_reducible assumption | (with_reducible refine fst_stable (by assumption) ?_) | with_reducible apply State.begin_stable hK.toKeepCore
    | with_reducible apply State.write_stable hK.toKeepCore | with_reducible apply State.wrChCfg_stable hK | (intro _ _ _) | (intro _ _)
    | with_reducible apply foldl_stable | with_reducible apply foldl_fst_stable | with_reducible apply overN_stable | extract_lets
    | with_reducible apply ite_stable | with_reducible apply ite_fst_stable | split | fail_if_no_progress (with_reducible apply KeepUnits.other hK)
    | (dsimp +zetaDelta only)
theorem State.wrChDb_stable {P : State → Prop} (hK : KeepUnits P) (s : State) (n : Nat) (hsK : P s) : P (State.wrChDb s n) := by
  unfold State.wrChDb
  repeat' first
    | with_reducible assumption | (with_reducible refine fst_stable (by assumption) ?_) | with_reducible apply State.modCh_stable hK
    | with_reducible apply State.toCh_stable hK.toKeepCore | with_reducible apply State.dmKick_stable hK | with_reducible apply State.dmWait_stable hK
    | (intro _ _ _) | (intro _ _) | with_reducible apply foldl_stable | with_reducible apply foldl_fst_stable | with_reducible apply overN_stable
    | extract_lets | with_reducible apply ite_stable | with_reducible apply ite_fst_stable | split
    | fail_if_no_progress (with_reducible apply KeepUnits.other hK) | (dsimp +zetaDelta only)
theorem execChDb_stable {P : State → Prop} (hK : KeepUnits P) (who : Who) (e : Fin 4) (c : Fin 8) (s : State) (hsK : P s) :
    ∃ r_, execChDb who e c s = .next r_ ∧ P r_ := by
  unfold execChDb
  refine ⟨_, rfl, ?_⟩
  repeat' first
    | with_reducible assumption | (with_reducible refine fst_stable (by assumption) ?_) | with_reducible apply State.begin_stable hK.toKeepCore
    | with_reducible apply State.write_stable hK.toKeepCore | with_reducible apply State.wrChDb_stable hK | (intro _ _ _) | (intro _ _)
    | with_reducible apply foldl_stable | with_reducible apply foldl_fst_stable | with_reducible apply overN_stable | extract_lets
    | with_reducible apply ite_stable | with_reducible apply ite_fst_stable | split | fail_if_no_progress (with_reducible apply KeepUnits.other hK)
    | (dsimp +zetaDelta only)
theorem State.wrDmThaw_stable {P : State → Prop} (hK : KeepUnits P) (s : State) (e mask : Nat) (hsK : P s) : P (State.wrDmThaw s e mask) := by
  unfold State.wrDmThaw
  repeat' first
    | with_reducible assumption | (with_reducible refine fst_stable (by assumption) ?_) | with_reducible apply State.refuse_stable hK.toKeepCore
    | with_reducible apply State.modCh_stable hK | with_reducible apply State.toCh_stable hK.toKeepCore | with_reducible apply State.dmKick_stable hK
    | (intro _ _ _) | (intro _ _) | with_reducible apply foldl_stable | with_reducible apply foldl_fst_stable | with_reducible apply overN_stable
    | extract_lets | with_reducible apply ite_stable | with_reducible apply ite_fst_stable | split
    | fail_if_no_progress (with_reducible apply KeepUnits.other hK) | (dsimp +zetaDelta only)
theorem execDmThaw_stable {P : State → Prop} (hK : KeepUnits P) (who : Who) (e : Fin 4) (mask : BitVec 8) (s : State) (hsK : P s) :
    ∃ r_, execDmThaw who e mask s = .next r_ ∧ P r_ := by
  unfold execDmThaw
  refine ⟨_, rfl, ?_⟩
  repeat' first
    | with_reducible assumption | (with_reducible refine fst_stable (by assumption) ?_) | with_reducible apply State.begin_stable hK.toKeepCore
    | with_reducible apply State.write_stable hK.toKeepCore | with_reducible apply State.wrDmThaw_stable hK | (intro _ _ _) | (intro _ _)
    | with_reducible apply foldl_stable | with_reducible apply foldl_fst_stable | with_reducible apply overN_stable | extract_lets
    | with_reducible apply ite_stable | with_reducible apply ite_fst_stable | split | fail_if_no_progress (with_reducible apply KeepUnits.other hK)
    | (dsimp +zetaDelta only)
theorem State.dmAfter_stable {P : State → Prop} (hK : KeepUnits P) (s : State) (n : Nat) (hsK : P s) : P (State.dmAfter s n) := by
  unfold State.dmAfter
  repeat' first
    | with_reducible assumption | (with_reducible refine fst_stable (by assumption) ?_) | with_reducible apply State.dmYield_stable hK
    | (intro _ _ _) | (intro _ _) | with_reducible apply foldl_stable | with_reducible apply foldl_fst_stable | with_reducible apply overN_stable
    | extract_lets | with_reducible apply ite_stable | with_reducible apply ite_fst_stable | split
    | fail_if_no_progress (with_reducible apply KeepUnits.other hK) | (dsimp +zetaDelta only)
theorem execDmDescriptorFetched_stable {P : State → Prop} (hK : Stable P) (e : Fin 4) (host : List (Option (List Byte))) (s : State) (hsK : P s) :
    ∃ r_, execDmDescriptorFetched e host s = .next r_ ∧ P r_ := by
  unfold execDmDescriptorFetched
  refine ⟨_, rfl, ?_⟩
  repeat' first
    | with_reducible assumption | (with_reducible refine fst_stable (by assumption) ?_)
    | with_reducible apply State.bumpEv_stable hK.toKeep.toKeepCore | with_reducible apply State.begin_stable hK.toKeep.toKeepCore
    | with_reducible apply State.modCh_stable hK.toKeep.toKeepUnits | with_reducible apply State.holdCv_stable hK.toKeep.toKeepCore
    | with_reducible apply State.dmRead_stable hK.toKeep.toKeepSys | with_reducible apply State.dmViolate_stable hK.toKeep.toKeepUnits
    | with_reducible apply State.showRemain_stable hK.toKeep.toKeepCore | with_reducible apply State.dmOperate_stable hK
    | with_reducible apply State.dmYield_stable hK.toKeep.toKeepUnits | with_reducible apply State.dmDescEnd_stable hK
    | with_reducible apply State.dmAfter_stable hK.toKeep.toKeepUnits | (intro _ _ _) | (intro _ _) | with_reducible apply foldl_stable
    | with_reducible apply foldl_fst_stable | with_reducible apply overN_stable | extract_lets | with_reducible apply ite_stable
    | with_reducible apply ite_fst_stable | split | fail_if_no_progress (with_reducible apply Keep.other hK.toKeep) | (dsimp +zetaDelta only)
theorem execDmWritesComplete_stable {P : State → Prop} (hK : Stable P) (e : Fin 4) (host : List (Option (List Byte))) (s : State) (hsK : P s) :
    ∃ r_, execDmWritesComplete e host s = .next r_ ∧ P r_ := by
  unfold execDmWritesComplete
  refine ⟨_, rfl, ?_⟩
  repeat' first
    | with_reducible assumption | (with_reducible refine fst_stable (by assumption) ?_) | with_reducible apply State.begin_stable hK.toKeep.toKeepCore
    | with_reducible apply State.modCh_stable hK.toKeep.toKeepUnits | with_reducible apply State.dmOperate_stable hK
    | with_reducible apply State.dmYield_stable hK.toKeep.toKeepUnits | with_reducible apply State.dmDescEnd_stable hK | (intro _ _ _) | (intro _ _)
    | with_reducible apply foldl_stable | with_reducible apply foldl_fst_stable | with_reducible apply overN_stable | extract_lets
    | with_reducible apply ite_stable | with_reducible apply ite_fst_stable | split
    | fail_if_no_progress (with_reducible apply Keep.other hK.toKeep) | (dsimp +zetaDelta only)
theorem execReadbackDone_stable {P : State → Prop} (hK : Stable P) (e : Fin 4) (hostError : Bool) (s : State) (hsK : P s) :
    ∃ r_, execReadbackDone e hostError s = .next r_ ∧ P r_ := by
  unfold execReadbackDone
  refine ⟨_, rfl, ?_⟩
  repeat' first
    | with_reducible assumption | (with_reducible refine fst_stable (by assumption) ?_) | with_reducible apply State.begin_stable hK.toKeep.toKeepCore
    | with_reducible apply State.dmRead_stable hK.toKeep.toKeepSys | with_reducible apply State.dmViolate_stable hK.toKeep.toKeepUnits
    | with_reducible apply State.dmYield_stable hK.toKeep.toKeepUnits | with_reducible apply State.dmDescEnd_stable hK | (intro _ _ _) | (intro _ _)
    | with_reducible apply foldl_stable | with_reducible apply foldl_fst_stable | with_reducible apply overN_stable | extract_lets
    | with_reducible apply ite_stable | with_reducible apply ite_fst_stable | split
    | fail_if_no_progress (with_reducible apply Keep.other hK.toKeep) | (dsimp +zetaDelta only)
theorem State.dmBack_stable {P : State → Prop} (hK : KeepUnits P) (s : State) (n : Nat) (hsK : P s) : P (State.dmBack s n) := by
  unfold State.dmBack
  repeat' first
    | with_reducible assumption | (with_reducible refine fst_stable (by assumption) ?_) | with_reducible apply State.modCh_stable hK
    | with_reducible apply State.toCh_stable hK.toKeepCore | with_reducible apply State.dmKick_stable hK | with_reducible apply State.dmLeave_stable hK
    | with_reducible apply State.chainStop_stable hK | (intro _ _ _) | (intro _ _) | with_reducible apply foldl_stable
    | with_reducible apply foldl_fst_stable | with_reducible apply overN_stable | extract_lets | with_reducible apply ite_stable
    | with_reducible apply ite_fst_stable | split | fail_if_no_progress (with_reducible apply KeepUnits.other hK) | (dsimp +zetaDelta only)
theorem execDmLinkRead_stable {P : State → Prop} (hK : Stable P) (e : Fin 4) (served : Served) (s : State) (hsK : P s) :
    ∃ r_, execDmLinkRead e served s = .next r_ ∧ P r_ := by
  unfold execDmLinkRead
  refine ⟨_, rfl, ?_⟩
  repeat' first
    | with_reducible assumption | (with_reducible refine fst_stable (by assumption) ?_) | with_reducible apply State.begin_stable hK.toKeep.toKeepCore
    | with_reducible apply State.modCh_stable hK.toKeep.toKeepUnits | with_reducible apply State.showPos_stable hK.toKeep.toKeepUnits
    | with_reducible apply State.dmRead_stable hK.toKeep.toKeepSys | with_reducible apply State.dmViolate_stable hK.toKeep.toKeepUnits
    | with_reducible apply State.dmKickAll_stable hK.toKeep.toKeepUnits | with_reducible apply State.dmYield_stable hK.toKeep.toKeepUnits
    | with_reducible apply State.dropCv_stable hK.toKeep.toKeepUnits | with_reducible apply State.dmEnd_stable hK.toKeep.toKeepUnits
    | with_reducible apply State.dmRecord_stable hK.toKeep.toKeepUnits | with_reducible apply State.dmStatus_stable hK
    | with_reducible apply State.dmBack_stable hK.toKeep.toKeepUnits | (intro _ _ _) | (intro _ _) | with_reducible apply foldl_stable
    | with_reducible apply foldl_fst_stable | with_reducible apply overN_stable | extract_lets | with_reducible apply ite_stable
    | with_reducible apply ite_fst_stable | split | fail_if_no_progress (with_reducible apply Keep.other hK.toKeep) | (dsimp +zetaDelta only)
theorem execDmAccessError_stable {P : State → Prop} (hK : Stable P) (e : Fin 4) (s : State) (hsK : P s) :
    ∃ r_, execDmAccessError e s = .next r_ ∧ P r_ := by
  unfold execDmAccessError
  refine ⟨_, rfl, ?_⟩
  repeat' first
    | with_reducible assumption | (with_reducible refine fst_stable (by assumption) ?_) | with_reducible apply State.begin_stable hK.toKeep.toKeepCore
    | with_reducible apply State.dmDescEnd_stable hK | (intro _ _ _) | (intro _ _) | with_reducible apply foldl_stable
    | with_reducible apply foldl_fst_stable | with_reducible apply overN_stable | extract_lets | with_reducible apply ite_stable
    | with_reducible apply ite_fst_stable | split | fail_if_no_progress (with_reducible apply Keep.other hK.toKeep) | (dsimp +zetaDelta only)
theorem State.wrCvCtrl_stable {P : State → Prop} (hK : KeepCore P) (s : State) (v : Nat) (w : W64) (hsK : P s) : P (State.wrCvCtrl s v w) := by
  unfold State.wrCvCtrl
  repeat' first
    | with_reducible assumption | (with_reducible refine fst_stable (by assumption) ?_) | with_reducible apply State.refuse_stable hK
    | with_reducible apply State.cvInit_stable hK | (intro _ _ _) | (intro _ _) | with_reducible apply foldl_stable
    | with_reducible apply foldl_fst_stable | with_reducible apply overN_stable | extract_lets | with_reducible apply ite_stable
    | with_reducible apply ite_fst_stable | split | fail_if_no_progress (with_reducible apply KeepCore.other hK) | (dsimp +zetaDelta only)
theorem execResetRun_stable {P : State → Prop} (hK : KeepCore P) (who : Who) (cv : Fin 16) (s : State) (hsK : P s) :
    ∃ r_, execResetRun who cv s = .next r_ ∧ P r_ := by
  unfold execResetRun
  refine ⟨_, rfl, ?_⟩
  repeat' first
    | with_reducible assumption | (with_reducible refine fst_stable (by assumption) ?_) | with_reducible apply State.begin_stable hK
    | with_reducible apply State.write_stable hK | with_reducible apply State.wrCvCtrl_stable hK | (intro _ _ _) | (intro _ _)
    | with_reducible apply foldl_stable | with_reducible apply foldl_fst_stable | with_reducible apply overN_stable | extract_lets
    | with_reducible apply ite_stable | with_reducible apply ite_fst_stable | split | fail_if_no_progress (with_reducible apply KeepCore.other hK)
    | (dsimp +zetaDelta only)
theorem State.wrCvCfg_stable {P : State → Prop} (hK : KeepCore P) (s : State) (v : Nat) (w : W64) (hsK : P s) : P (State.wrCvCfg s v w) := by
  unfold State.wrCvCfg
  repeat' first
    | with_reducible assumption | (with_reducible refine fst_stable (by assumption) ?_) | with_reducible apply State.setRw_stable hK
    | with_reducible apply State.settingWrite_stable hK | (intro _ _ _) | (intro _ _) | with_reducible apply foldl_stable
    | with_reducible apply foldl_fst_stable | with_reducible apply overN_stable | extract_lets | with_reducible apply ite_stable
    | with_reducible apply ite_fst_stable | split | fail_if_no_progress (with_reducible apply KeepCore.other hK) | (dsimp +zetaDelta only)
theorem State.wrCvWord_stable {P : State → Prop} (hK : KeepCore P) (s : State) (v a : Nat) (w : W64) (hsK : P s) : P (State.wrCvWord s v a w) := by
  unfold State.wrCvWord
  repeat' first
    | with_reducible assumption | (with_reducible refine fst_stable (by assumption) ?_) | with_reducible apply State.refuse_stable hK
    | with_reducible apply State.settingWrite_stable hK | (intro _ _ _) | (intro _ _) | with_reducible apply foldl_stable
    | with_reducible apply foldl_fst_stable | with_reducible apply overN_stable | extract_lets | with_reducible apply ite_stable
    | with_reducible apply ite_fst_stable | split | fail_if_no_progress (with_reducible apply KeepCore.other hK) | (dsimp +zetaDelta only)

end Sys2Proof.Machine
end

