-- ==== Sys2Proof/Laws/StableStall.lean ====
section
/-! SUPPORT. Laws/StableStall.lean: every operation keeps a stable property: queues, stalls, devices and audio. -/
set_option linter.all false
namespace Sys2Proof.Machine

/-! ### Machine/Queue.lean -/

theorem State.setQueuePos_stable {P : State → Prop} (hK : KeepCore P) (s : State) (q a : Nat) (hsK : P s) : P (State.setQueuePos s q a) := by
  unfold State.setQueuePos
  repeat' first
    | with_reducible assumption | (with_reducible refine fst_stable (by assumption) ?_) | with_reducible apply State.wr_stable hK | (intro _ _ _)
    | (intro _ _) | with_reducible apply foldl_stable | with_reducible apply foldl_fst_stable | with_reducible apply overN_stable | extract_lets
    | with_reducible apply ite_stable | with_reducible apply ite_fst_stable | split | fail_if_no_progress (with_reducible apply KeepCore.other hK)
    | (dsimp +zetaDelta only)
theorem State.doorbell_stable {P : State → Prop} (hK : KeepUnits P) (s : State) (st q t : Nat) (hsK : P s) : P (State.doorbell s st q t) := by
  unfold State.doorbell
  repeat' first
    | with_reducible assumption | (with_reducible refine fst_stable (by assumption) ?_) | with_reducible apply State.wr_stable hK.toKeepCore
    | with_reducible apply State.bumpErr_stable hK.toKeepCore | with_reducible apply State.refuse_stable hK.toKeepCore
    | with_reducible apply State.modQueue_stable hK | (intro _ _ _) | (intro _ _) | with_reducible apply foldl_stable
    | with_reducible apply foldl_fst_stable | with_reducible apply overN_stable | extract_lets | with_reducible apply ite_stable
    | with_reducible apply ite_fst_stable | split | fail_if_no_progress (with_reducible apply KeepUnits.other hK) | (dsimp +zetaDelta only)
theorem execDoorbell_stable {P : State → Prop} (hK : KeepUnits P) (st : Fin 16) (q : Fin 64) (w : W32) (s : State) (hsK : P s) :
    ∃ r_, execDoorbell st q w s = .next r_ ∧ P r_ := by
  unfold execDoorbell
  refine ⟨_, rfl, ?_⟩
  repeat' first
    | with_reducible assumption | (with_reducible refine fst_stable (by assumption) ?_) | with_reducible apply State.begin_stable hK.toKeepCore
    | with_reducible apply State.write_stable hK.toKeepCore | with_reducible apply State.doorbell_stable hK | (intro _ _ _) | (intro _ _)
    | with_reducible apply foldl_stable | with_reducible apply foldl_fst_stable | with_reducible apply overN_stable | extract_lets
    | with_reducible apply ite_stable | with_reducible apply ite_fst_stable | split | fail_if_no_progress (with_reducible apply KeepUnits.other hK)
    | (dsimp +zetaDelta only)
theorem State.queueSettle_stable {P : State → Prop} (hK : KeepUnits P) (s : State) (q : Nat) (hsK : P s) : P (State.queueSettle s q) := by
  unfold State.queueSettle
  repeat' first
    | with_reducible assumption | (with_reducible refine fst_stable (by assumption) ?_) | with_reducible apply State.modQueue_stable hK
    | (intro _ _ _) | (intro _ _) | with_reducible apply foldl_stable | with_reducible apply foldl_fst_stable | with_reducible apply overN_stable
    | extract_lets | with_reducible apply ite_stable | with_reducible apply ite_fst_stable | split
    | fail_if_no_progress (with_reducible apply KeepUnits.other hK) | (dsimp +zetaDelta only)
theorem State.wrQcfg_stable {P : State → Prop} (hK : KeepUnits P) (s : State) (q : Nat) (w : W64) (hsK : P s) : P (State.wrQcfg s q w) := by
  unfold State.wrQcfg
  repeat' first
    | with_reducible assumption | (with_reducible refine fst_stable (by assumption) ?_) | with_reducible apply State.modQueue_stable hK
    | with_reducible apply State.settingWrite_stable hK.toKeepCore | with_reducible apply State.queueSettle_stable hK | (intro _ _ _) | (intro _ _)
    | with_reducible apply foldl_stable | with_reducible apply foldl_fst_stable | with_reducible apply overN_stable | extract_lets
    | with_reducible apply ite_stable | with_reducible apply ite_fst_stable | split | fail_if_no_progress (with_reducible apply KeepUnits.other hK)
    | (dsimp +zetaDelta only)
theorem execQueueDisable_stable {P : State → Prop} (hK : KeepUnits P) (who : Who) (q : Fin 64) (s : State) (hsK : P s) :
    ∃ r_, execQueueDisable who q s = .next r_ ∧ P r_ := by
  unfold execQueueDisable
  refine ⟨_, rfl, ?_⟩
  repeat' first
    | with_reducible assumption | (with_reducible refine fst_stable (by assumption) ?_) | with_reducible apply State.begin_stable hK.toKeepCore
    | with_reducible apply State.write_stable hK.toKeepCore | with_reducible apply State.wrQcfg_stable hK | (intro _ _ _) | (intro _ _)
    | with_reducible apply foldl_stable | with_reducible apply foldl_fst_stable | with_reducible apply overN_stable | extract_lets
    | with_reducible apply ite_stable | with_reducible apply ite_fst_stable | split | fail_if_no_progress (with_reducible apply KeepUnits.other hK)
    | (dsimp +zetaDelta only)
theorem execQueueEnable_stable {P : State → Prop} (hK : KeepUnits P) (who : Who) (q : Fin 64) (s : State) (hsK : P s) :
    ∃ r_, execQueueEnable who q s = .next r_ ∧ P r_ := by
  unfold execQueueEnable
  refine ⟨_, rfl, ?_⟩
  repeat' first
    | with_reducible assumption | (with_reducible refine fst_stable (by assumption) ?_) | with_reducible apply State.begin_stable hK.toKeepCore
    | with_reducible apply State.write_stable hK.toKeepCore | with_reducible apply State.wrQcfg_stable hK | (intro _ _ _) | (intro _ _)
    | with_reducible apply foldl_stable | with_reducible apply foldl_fst_stable | with_reducible apply overN_stable | extract_lets
    | with_reducible apply ite_stable | with_reducible apply ite_fst_stable | split | fail_if_no_progress (with_reducible apply KeepUnits.other hK)
    | (dsimp +zetaDelta only)
theorem State.wrQbase_stable {P : State → Prop} (hK : KeepUnits P) (s : State) (q a : Nat) (w : W64) (hsK : P s) : P (State.wrQbase s q a w) := by
  unfold State.wrQbase
  repeat' first
    | with_reducible assumption | (with_reducible refine fst_stable (by assumption) ?_) | with_reducible apply State.wr_stable hK.toKeepCore
    | with_reducible apply State.modQueue_stable hK | with_reducible apply State.settingWrite_stable hK.toKeepCore
    | with_reducible apply State.setQueuePos_stable hK.toKeepCore | (intro _ _ _) | (intro _ _) | with_reducible apply foldl_stable
    | with_reducible apply foldl_fst_stable | with_reducible apply overN_stable | extract_lets | with_reducible apply ite_stable
    | with_reducible apply ite_fst_stable | split | fail_if_no_progress (with_reducible apply KeepUnits.other hK) | (dsimp +zetaDelta only)
theorem execQbaseWrite_stable {P : State → Prop} (hK : KeepUnits P) (who : Who) (q : Fin 64) (high : Bool) (w : W32) (s : State) (hsK : P s) :
    ∃ r_, execQbaseWrite who q high w s = .next r_ ∧ P r_ := by
  unfold execQbaseWrite
  refine ⟨_, rfl, ?_⟩
  repeat' first
    | with_reducible assumption | (with_reducible refine fst_stable (by assumption) ?_) | with_reducible apply State.begin_stable hK.toKeepCore
    | with_reducible apply State.write_stable hK.toKeepCore | with_reducible apply State.wrQbase_stable hK | (intro _ _ _) | (intro _ _)
    | with_reducible apply foldl_stable | with_reducible apply foldl_fst_stable | with_reducible apply overN_stable | extract_lets
    | with_reducible apply ite_stable | with_reducible apply ite_fst_stable | split | fail_if_no_progress (with_reducible apply KeepUnits.other hK)
    | (dsimp +zetaDelta only)
theorem State.queueSquash_stable {P : State → Prop} (hK : Stable P) (s : State) (q : Nat) (times : List UnitTime) (hsK : P s) :
    P (State.queueSquash s q times) := by
  unfold State.queueSquash
  repeat' first
    | with_reducible assumption | (with_reducible refine fst_stable (by assumption) ?_)
    | with_reducible apply State.bumpErrN_stable hK.toKeep.toKeepCore | with_reducible apply State.modQueue_stable hK.toKeep.toKeepUnits
    | with_reducible apply State.endItem_stable hK.toKeep.toKeepUnits | with_reducible apply State.gpuKick_stable hK
    | with_reducible apply State.cutUnits_stable hK.toKeep.toKeepUnits | with_reducible apply State.dmSquash_stable hK | (intro _ _ _) | (intro _ _)
    | with_reducible apply foldl_stable | with_reducible apply foldl_fst_stable | with_reducible apply overN_stable | extract_lets
    | with_reducible apply ite_stable | with_reducible apply ite_fst_stable | split
    | fail_if_no_progress (with_reducible apply Keep.other hK.toKeep) | (dsimp +zetaDelta only)
theorem execQueueDisableLimit_stable {P : State → Prop} (hK : Stable P) (q : Fin 64) (times : List UnitTime) (s : State) (hsK : P s) :
    ∃ r_, execQueueDisableLimit q times s = .next r_ ∧ P r_ := by
  unfold execQueueDisableLimit
  refine ⟨_, rfl, ?_⟩
  repeat' first
    | with_reducible assumption | (with_reducible refine fst_stable (by assumption) ?_) | with_reducible apply State.begin_stable hK.toKeep.toKeepCore
    | with_reducible apply State.guard_stable hK.toKeep.toKeepCore | with_reducible apply State.queueSettle_stable hK.toKeep.toKeepUnits
    | with_reducible apply State.queueSquash_stable hK | (intro _ _ _) | (intro _ _) | with_reducible apply foldl_stable
    | with_reducible apply foldl_fst_stable | with_reducible apply overN_stable | extract_lets | with_reducible apply ite_stable
    | with_reducible apply ite_fst_stable | split | fail_if_no_progress (with_reducible apply Keep.other hK.toKeep) | (dsimp +zetaDelta only)
theorem State.queueRead_stable {P : State → Prop} (hK : KeepSys P) (s : State) (st q a n : Nat) (host : Option (List Byte)) (hsK : P s) :
    P (State.queueRead s st q a n host).1 := by
  unfold State.queueRead
  repeat' first
    | with_reducible assumption | (with_reducible refine fst_stable (by assumption) ?_) | with_reducible apply State.violate_stable hK.toKeepCore
    | with_reducible apply State.memLoad_stable hK | with_reducible apply State.gateCheck_stable hK | (intro _ _ _) | (intro _ _)
    | with_reducible apply foldl_stable | with_reducible apply foldl_fst_stable | with_reducible apply overN_stable | extract_lets
    | with_reducible apply ite_stable | with_reducible apply ite_fst_stable | split | fail_if_no_progress (with_reducible apply KeepSys.other hK)
    | (dsimp +zetaDelta only)
theorem execDescriptorFetched_stable {P : State → Prop} (hK : Keep P) (st : Fin 16) (host : Option (List Byte)) (s : State) (hsK : P s) :
    ∃ r_, execDescriptorFetched st host s = .next r_ ∧ P r_ := by
  unfold execDescriptorFetched
  refine ⟨_, rfl, ?_⟩
  repeat' first
    | with_reducible assumption | (with_reducible refine fst_stable (by assumption) ?_) | with_reducible apply State.wr_stable hK.toKeepCore
    | with_reducible apply State.begin_stable hK.toKeepCore | with_reducible apply State.modQueue_stable hK.toKeepUnits
    | with_reducible apply State.queueRead_stable hK.toKeepSys | (intro _ _ _) | (intro _ _) | with_reducible apply foldl_stable
    | with_reducible apply foldl_fst_stable | with_reducible apply overN_stable | extract_lets | with_reducible apply ite_stable
    | with_reducible apply ite_fst_stable | split | fail_if_no_progress (with_reducible apply Keep.other hK) | (dsimp +zetaDelta only)
theorem execLinkWordRead_stable {P : State → Prop} (hK : Keep P) (q : Fin 64) (served : Served) (s : State) (hsK : P s) :
    ∃ r_, execLinkWordRead q served s = .next r_ ∧ P r_ := by
  unfold execLinkWordRead
  refine ⟨_, rfl, ?_⟩
  repeat' first
    | with_reducible assumption | (with_reducible refine fst_stable (by assumption) ?_) | with_reducible apply State.begin_stable hK.toKeepCore
    | with_reducible apply State.modQueue_stable hK.toKeepUnits | with_reducible apply State.setQueuePos_stable hK.toKeepCore
    | with_reducible apply State.queueRead_stable hK.toKeepSys | (intro _ _ _) | (intro _ _) | with_reducible apply foldl_stable
    | with_reducible apply foldl_fst_stable | with_reducible apply overN_stable | extract_lets | with_reducible apply ite_stable
    | with_reducible apply ite_fst_stable | split | fail_if_no_progress (with_reducible apply Keep.other hK) | (dsimp +zetaDelta only)
theorem State.startQItem_stable {P : State → Prop} (hK : Stable P) (s : State) (st q : Nat) (i : QItem) (d : List Byte) (hsK : P s) :
    P (State.startQItem s st q i d) := by
  unfold State.startQItem
  repeat' first
    | with_reducible assumption | (with_reducible refine fst_stable (by assumption) ?_)
    | with_reducible apply State.answer_stable hK.toKeep.toKeepCore | with_reducible apply State.refuseOff_stable hK.toKeep.toKeepCore
    | with_reducible apply State.violate_stable hK.toKeep.toKeepCore | with_reducible apply State.modQueue_stable hK.toKeep.toKeepUnits
    | with_reducible apply State.wrCommit_stable hK.toKeep.toKeepUnits | with_reducible apply State.setGpu_stable hK.toKeep.toKeepUnits
    | with_reducible apply State.setResult_stable hK.toKeep.toKeepUnits | with_reducible apply State.gpuKick_stable hK
    | with_reducible apply State.dmSubmit_stable hK.toKeep.toKeepUnits | (intro _ _ _) | (intro _ _) | with_reducible apply foldl_stable
    | with_reducible apply foldl_fst_stable | with_reducible apply overN_stable | extract_lets | with_reducible apply ite_stable
    | with_reducible apply ite_fst_stable | split | fail_if_no_progress (with_reducible apply Keep.other hK.toKeep) | (dsimp +zetaDelta only)
theorem execItemStart_stable {P : State → Prop} (hK : Stable P) (q : Fin 64) (s : State) (hsK : P s) :
    ∃ r_, execItemStart q s = .next r_ ∧ P r_ := by
  unfold execItemStart
  refine ⟨_, rfl, ?_⟩
  repeat' first
    | with_reducible assumption | (with_reducible refine fst_stable (by assumption) ?_) | with_reducible apply State.begin_stable hK.toKeep.toKeepCore
    | with_reducible apply State.modQueue_stable hK.toKeep.toKeepUnits | with_reducible apply State.stallLoad_stable hK.toKeep.toKeepSys
    | with_reducible apply State.setResult_stable hK.toKeep.toKeepUnits | with_reducible apply State.startQItem_stable hK | (intro _ _ _)
    | (intro _ _) | with_reducible apply foldl_stable | with_reducible apply foldl_fst_stable | with_reducible apply overN_stable | extract_lets
    | with_reducible apply ite_stable | with_reducible apply ite_fst_stable | split
    | fail_if_no_progress (with_reducible apply Keep.other hK.toKeep) | (dsimp +zetaDelta only)
theorem execWorkItemEnd_stable {P : State → Prop} (hK : Stable P) (q : Fin 64) (s : State) (hsK : P s) :
    ∃ r_, execWorkItemEnd q s = .next r_ ∧ P r_ := by
  unfold execWorkItemEnd
  refine ⟨_, rfl, ?_⟩
  repeat' first
    | with_reducible assumption | (with_reducible refine fst_stable (by assumption) ?_) | with_reducible apply State.wr_stable hK.toKeep.toKeepCore
    | with_reducible apply State.emit_stable hK.toKeep.toKeepCore | with_reducible apply State.bumpEv_stable hK.toKeep.toKeepCore
    | with_reducible apply State.begin_stable hK.toKeep.toKeepCore | with_reducible apply State.irq_stable hK.toKeep.toKeepCore
    | with_reducible apply State.violate_stable hK.toKeep.toKeepCore | with_reducible apply State.modQueue_stable hK.toKeep.toKeepUnits
    | with_reducible apply State.memStore_stable hK | with_reducible apply State.gateCheck_stable hK.toKeep.toKeepSys
    | with_reducible apply State.setFence_stable hK.toKeep.toKeepCore | with_reducible apply State.gpuKick_stable hK
    | with_reducible apply State.queueSettle_stable hK.toKeep.toKeepUnits | (intro _ _ _) | (intro _ _) | with_reducible apply foldl_stable
    | with_reducible apply foldl_fst_stable | with_reducible apply overN_stable | extract_lets | with_reducible apply ite_stable
    | with_reducible apply ite_fst_stable | split | fail_if_no_progress (with_reducible apply Keep.other hK.toKeep) | (dsimp +zetaDelta only)

/-! ### Machine/Stall.lean -/

theorem State.clearRecord_stable {P : State → Prop} (hK : KeepCore P) (s : State) (st : Nat) (hsK : P s) : P (State.clearRecord s st) := by
  unfold State.clearRecord
  repeat' first
    | with_reducible assumption | (with_reducible refine fst_stable (by assumption) ?_) | with_reducible apply State.setRw_stable hK
    | with_reducible apply State.wr_stable hK | (intro _ _ _) | (intro _ _) | with_reducible apply foldl_stable
    | with_reducible apply foldl_fst_stable | with_reducible apply overN_stable | extract_lets | with_reducible apply ite_stable
    | with_reducible apply ite_fst_stable | split | fail_if_no_progress (with_reducible apply KeepCore.other hK) | (dsimp +zetaDelta only)
theorem State.thawMasters_stable {P : State → Prop} (hK : KeepCore P) (s : State) (st : Nat) (hsK : P s) : P (State.thawMasters s st) := by
  unfold State.thawMasters
  repeat' first
    | with_reducible assumption | (with_reducible refine fst_stable (by assumption) ?_) | (intro _ _ _) | (intro _ _)
    | with_reducible apply foldl_stable | with_reducible apply foldl_fst_stable | with_reducible apply overN_stable | extract_lets
    | with_reducible apply ite_stable | with_reducible apply ite_fst_stable | split | fail_if_no_progress (with_reducible apply KeepCore.other hK)
    | (dsimp +zetaDelta only)
theorem State.stallCreate_stable {P : State → Prop} (hK : KeepCore P) (s : State) (st : Nat) (hsK : P s) : P (State.stallCreate s st) := by
  unfold State.stallCreate
  repeat' first
    | with_reducible assumption | (with_reducible refine fst_stable (by assumption) ?_) | with_reducible apply State.wr_stable hK
    | with_reducible apply State.refuse_stable hK | with_reducible apply State.toStall_stable hK | (intro _ _ _) | (intro _ _)
    | with_reducible apply foldl_stable | with_reducible apply foldl_fst_stable | with_reducible apply overN_stable | extract_lets
    | with_reducible apply ite_stable | with_reducible apply ite_fst_stable | split | fail_if_no_progress (with_reducible apply KeepCore.other hK)
    | (dsimp +zetaDelta only)
theorem State.modPanel_stable {P : State → Prop} (hK : KeepUnits P) (s : State) (p : Nat) (f : PanelSt → PanelSt) (hsK : P s) :
    P (State.modPanel s p f) := by
  unfold State.modPanel
  repeat' first
    | with_reducible assumption | (with_reducible refine fst_stable (by assumption) ?_) | (intro _ _ _) | (intro _ _)
    | with_reducible apply foldl_stable | with_reducible apply foldl_fst_stable | with_reducible apply overN_stable | extract_lets
    | with_reducible apply ite_stable | with_reducible apply ite_fst_stable | split | fail_if_no_progress (with_reducible apply KeepUnits.other hK)
    | (dsimp +zetaDelta only)
theorem State.feEvt_stable {P : State → Prop} (hK : KeepCore P) (s : State) (p : Nat) (f : Fld) (hsK : P s) : P (State.feEvt s p f) := by
  unfold State.feEvt
  repeat' first
    | with_reducible assumption | (with_reducible refine fst_stable (by assumption) ?_) | with_reducible apply State.wr_stable hK
    | with_reducible apply State.showIrq_stable hK | (intro _ _ _) | (intro _ _) | with_reducible apply foldl_stable
    | with_reducible apply foldl_fst_stable | with_reducible apply overN_stable | extract_lets | with_reducible apply ite_stable
    | with_reducible apply ite_fst_stable | split | fail_if_no_progress (with_reducible apply KeepCore.other hK) | (dsimp +zetaDelta only)
theorem State.ringRefused_stable {P : State → Prop} (hK : KeepCore P) (s : State) (p : Nat) (hsK : P s) : P (State.ringRefused s p) := by
  unfold State.ringRefused
  repeat' first
    | with_reducible assumption | (with_reducible refine fst_stable (by assumption) ?_) | with_reducible apply State.wr_stable hK
    | with_reducible apply State.feEvt_stable hK | (intro _ _ _) | (intro _ _) | with_reducible apply foldl_stable
    | with_reducible apply foldl_fst_stable | with_reducible apply overN_stable | extract_lets | with_reducible apply ite_stable
    | with_reducible apply ite_fst_stable | split | fail_if_no_progress (with_reducible apply KeepCore.other hK) | (dsimp +zetaDelta only)
theorem State.tpRingHeader_stable {P : State → Prop} (hK : KeepSys P) (s : State) (p st : Nat) (hsK : P s) : P (State.tpRingHeader s p st).1 := by
  unfold State.tpRingHeader
  repeat' first
    | with_reducible assumption | (with_reducible refine fst_stable (by assumption) ?_) | with_reducible apply State.ringLoad_stable hK
    | (intro _ _ _) | (intro _ _) | with_reducible apply foldl_stable | with_reducible apply foldl_fst_stable | with_reducible apply overN_stable
    | extract_lets | with_reducible apply ite_stable | with_reducible apply ite_fst_stable | split
    | fail_if_no_progress (with_reducible apply KeepSys.other hK) | (dsimp +zetaDelta only)
theorem State.touchRejoin_stable {P : State → Prop} (hK : Keep P) (s : State) (st : Nat) (hsK : P s) : P (State.touchRejoin s st) := by
  unfold State.touchRejoin
  repeat' first
    | with_reducible assumption | (with_reducible refine fst_stable (by assumption) ?_) | with_reducible apply State.modPanel_stable hK.toKeepUnits
    | with_reducible apply State.ringRefused_stable hK.toKeepCore | with_reducible apply State.tpRingHeader_stable hK.toKeepSys | (intro _ _ _)
    | (intro _ _) | with_reducible apply foldl_stable | with_reducible apply foldl_fst_stable | with_reducible apply overN_stable | extract_lets
    | with_reducible apply ite_stable | with_reducible apply ite_fst_stable | split | fail_if_no_progress (with_reducible apply Keep.other hK)
    | (dsimp +zetaDelta only)
theorem State.modStream_stable {P : State → Prop} (hK : KeepUnits P) (s : State) (i : Nat) (f : StreamSt → StreamSt) (hsK : P s) :
    P (State.modStream s i f) := by
  unfold State.modStream
  repeat' first
    | with_reducible assumption | (with_reducible refine fst_stable (by assumption) ?_) | (intro _ _ _) | (intro _ _)
    | with_reducible apply foldl_stable | with_reducible apply foldl_fst_stable | with_reducible apply overN_stable | extract_lets
    | with_reducible apply ite_stable | with_reducible apply ite_fst_stable | split | fail_if_no_progress (with_reducible apply KeepUnits.other hK)
    | (dsimp +zetaDelta only)
theorem State.modHap_stable {P : State → Prop} (hK : KeepUnits P) (s : State) (h : Nat) (f : HapSt → HapSt) (hsK : P s) :
    P (State.modHap s h f) := by
  unfold State.modHap
  repeat' first
    | with_reducible assumption | (with_reducible refine fst_stable (by assumption) ?_) | (intro _ _ _) | (intro _ _)
    | with_reducible apply foldl_stable | with_reducible apply foldl_fst_stable | with_reducible apply overN_stable | extract_lets
    | with_reducible apply ite_stable | with_reducible apply ite_fst_stable | split | fail_if_no_progress (with_reducible apply KeepUnits.other hK)
    | (dsimp +zetaDelta only)
theorem State.modCap_stable {P : State → Prop} (hK : KeepUnits P) (s : State) (p : Nat) (f : CapSt → CapSt) (hsK : P s) :
    P (State.modCap s p f) := by
  unfold State.modCap
  repeat' first
    | with_reducible assumption | (with_reducible refine fst_stable (by assumption) ?_) | (intro _ _ _) | (intro _ _)
    | with_reducible apply foldl_stable | with_reducible apply foldl_fst_stable | with_reducible apply overN_stable | extract_lets
    | with_reducible apply ite_stable | with_reducible apply ite_fst_stable | split | fail_if_no_progress (with_reducible apply KeepUnits.other hK)
    | (dsimp +zetaDelta only)
theorem State.audioRejoin_stable {P : State → Prop} (hK : KeepUnits P) (s : State) (st : Nat) (hsK : P s) : P (State.audioRejoin s st) := by
  unfold State.audioRejoin
  repeat' first
    | with_reducible assumption | (with_reducible refine fst_stable (by assumption) ?_) | with_reducible apply State.modStream_stable hK
    | with_reducible apply State.modHap_stable hK | with_reducible apply State.modCap_stable hK | (intro _ _ _) | (intro _ _)
    | with_reducible apply foldl_stable | with_reducible apply foldl_fst_stable | with_reducible apply overN_stable | extract_lets
    | with_reducible apply ite_stable | with_reducible apply ite_fst_stable | split | fail_if_no_progress (with_reducible apply KeepUnits.other hK)
    | (dsimp +zetaDelta only)
theorem State.stallGo_stable {P : State → Prop} (hK : Stable P) (s : State) (st : Nat) (hsK : P s) : P (State.stallGo s st) := by
  unfold State.stallGo
  repeat' first
    | with_reducible assumption | (with_reducible refine fst_stable (by assumption) ?_) | with_reducible apply State.setRw_stable hK.toKeep.toKeepCore
    | with_reducible apply State.wr_stable hK.toKeep.toKeepCore | with_reducible apply State.toStall_stable hK.toKeep.toKeepCore
    | with_reducible apply State.modQueue_stable hK.toKeep.toKeepUnits | with_reducible apply State.gpuKick_stable hK
    | with_reducible apply State.setQueuePos_stable hK.toKeep.toKeepCore | with_reducible apply State.clearRecord_stable hK.toKeep.toKeepCore
    | with_reducible apply State.thawMasters_stable hK.toKeep.toKeepCore | with_reducible apply State.touchRejoin_stable hK.toKeep
    | with_reducible apply State.audioRejoin_stable hK.toKeep.toKeepUnits | (intro _ _ _) | (intro _ _) | with_reducible apply foldl_stable
    | with_reducible apply foldl_fst_stable | with_reducible apply overN_stable | extract_lets | with_reducible apply ite_stable
    | with_reducible apply ite_fst_stable | split | fail_if_no_progress (with_reducible apply Keep.other hK.toKeep) | (dsimp +zetaDelta only)
theorem State.stallStart_stable {P : State → Prop} (hK : Stable P) (s : State) (st : Nat) (hsK : P s) : P (State.stallStart s st) := by
  unfold State.stallStart
  repeat' first
    | with_reducible assumption | (with_reducible refine fst_stable (by assumption) ?_)
    | with_reducible apply State.refuse_stable hK.toKeep.toKeepCore | with_reducible apply State.stallGo_stable hK | (intro _ _ _) | (intro _ _)
    | with_reducible apply foldl_stable | with_reducible apply foldl_fst_stable | with_reducible apply overN_stable | extract_lets
    | with_reducible apply ite_stable | with_reducible apply ite_fst_stable | split
    | fail_if_no_progress (with_reducible apply Keep.other hK.toKeep) | (dsimp +zetaDelta only)
theorem State.stallDrain_stable {P : State → Prop} (hK : Stable P) (s : State) (st cause : Nat) (hsK : P s) :
    P (State.stallDrain s st cause) := by
  unfold State.stallDrain
  repeat' first
    | with_reducible assumption | (with_reducible refine fst_stable (by assumption) ?_) | with_reducible apply State.wr_stable hK.toKeep.toKeepCore
    | with_reducible apply State.bumpEv_stable hK.toKeep.toKeepCore | with_reducible apply State.toStall_stable hK.toKeep.toKeepCore
    | with_reducible apply State.modQueue_stable hK.toKeep.toKeepUnits | with_reducible apply State.dropStallCommits_stable hK.toKeep.toKeepUnits
    | with_reducible apply State.gpuKick_stable hK | (intro _ _ _) | (intro _ _) | with_reducible apply foldl_stable
    | with_reducible apply foldl_fst_stable | with_reducible apply overN_stable | extract_lets | with_reducible apply ite_stable
    | with_reducible apply ite_fst_stable | split | fail_if_no_progress (with_reducible apply Keep.other hK.toKeep) | (dsimp +zetaDelta only)
theorem State.stallReset_stable {P : State → Prop} (hK : Stable P) (s : State) (who : Who) (st : Nat) (hsK : P s) :
    P (State.stallReset s who st) := by
  unfold State.stallReset
  repeat' first
    | with_reducible assumption | (with_reducible refine fst_stable (by assumption) ?_)
    | with_reducible apply State.refuse_stable hK.toKeep.toKeepCore | with_reducible apply State.stallDrain_stable hK | (intro _ _ _) | (intro _ _)
    | with_reducible apply foldl_stable | with_reducible apply foldl_fst_stable | with_reducible apply overN_stable | extract_lets
    | with_reducible apply ite_stable | with_reducible apply ite_fst_stable | split
    | fail_if_no_progress (with_reducible apply Keep.other hK.toKeep) | (dsimp +zetaDelta only)
theorem State.stallThaw_stable {P : State → Prop} (hK : Stable P) (s : State) (st : Nat) (hsK : P s) : P (State.stallThaw s st) := by
  unfold State.stallThaw
  repeat' first
    | with_reducible assumption | (with_reducible refine fst_stable (by assumption) ?_) | with_reducible apply State.wr_stable hK.toKeep.toKeepCore
    | with_reducible apply State.refuse_stable hK.toKeep.toKeepCore | with_reducible apply State.toStall_stable hK.toKeep.toKeepCore
    | with_reducible apply State.gpuKick_stable hK | with_reducible apply State.dmThawed_stable hK.toKeep.toKeepUnits
    | with_reducible apply State.thawMasters_stable hK.toKeep.toKeepCore | (intro _ _ _) | (intro _ _) | with_reducible apply foldl_stable
    | with_reducible apply foldl_fst_stable | with_reducible apply overN_stable | extract_lets | with_reducible apply ite_stable
    | with_reducible apply ite_fst_stable | split | fail_if_no_progress (with_reducible apply Keep.other hK.toKeep) | (dsimp +zetaDelta only)
theorem State.setOwner_stable {P : State → Prop} (hK : KeepCore P) (s : State) (sram : Bool) (n code : Nat) (hsK : P s) :
    P (State.setOwner s sram n code) := by
  unfold State.setOwner
  repeat' first
    | with_reducible assumption | (with_reducible refine fst_stable (by assumption) ?_) | with_reducible apply State.setOwnSram_stable hK
    | with_reducible apply State.setOwnDram_stable hK | (intro _ _ _) | (intro _ _) | with_reducible apply foldl_stable
    | with_reducible apply foldl_fst_stable | with_reducible apply overN_stable | extract_lets | with_reducible apply ite_stable
    | with_reducible apply ite_fst_stable | split | fail_if_no_progress (with_reducible apply KeepCore.other hK) | (dsimp +zetaDelta only)
theorem State.stallDestroy_stable {P : State → Prop} (hK : KeepUnits P) (s : State) (st : Nat) (hsK : P s) : P (State.stallDestroy s st) := by
  unfold State.stallDestroy
  repeat' first
    | with_reducible assumption | (with_reducible refine fst_stable (by assumption) ?_) | with_reducible apply State.wr_stable hK.toKeepCore
    | with_reducible apply State.refuse_stable hK.toKeepCore | with_reducible apply State.toStall_stable hK.toKeepCore
    | with_reducible apply State.setOwner_stable hK.toKeepCore | (intro _ _ _) | (intro _ _) | with_reducible apply foldl_stable
    | with_reducible apply foldl_fst_stable | with_reducible apply overN_stable | extract_lets | with_reducible apply ite_stable
    | with_reducible apply ite_fst_stable | split | fail_if_no_progress (with_reducible apply KeepUnits.other hK) | (dsimp +zetaDelta only)
theorem State.wrSctrl_stable {P : State → Prop} (hK : Stable P) (s : State) (who : Who) (st : Nat) (w : W64) (hsK : P s) :
    P (State.wrSctrl s who st w) := by
  unfold State.wrSctrl
  repeat' first
    | with_reducible assumption | (with_reducible refine fst_stable (by assumption) ?_)
    | with_reducible apply State.stallCreate_stable hK.toKeep.toKeepCore | with_reducible apply State.stallStart_stable hK
    | with_reducible apply State.stallReset_stable hK | with_reducible apply State.stallThaw_stable hK
    | with_reducible apply State.stallDestroy_stable hK.toKeep.toKeepUnits | (intro _ _ _) | (intro _ _) | with_reducible apply foldl_stable
    | with_reducible apply foldl_fst_stable | with_reducible apply overN_stable | extract_lets | with_reducible apply ite_stable
    | with_reducible apply ite_fst_stable | split | fail_if_no_progress (with_reducible apply Keep.other hK.toKeep) | (dsimp +zetaDelta only)
theorem execCreate_stable {P : State → Prop} (hK : Stable P) (who : Who) (st : Fin 16) (s : State) (hsK : P s) :
    ∃ r_, execCreate who st s = .next r_ ∧ P r_ := by
  unfold execCreate
  refine ⟨_, rfl, ?_⟩
  repeat' first
    | with_reducible assumption | (with_reducible refine fst_stable (by assumption) ?_) | with_reducible apply State.begin_stable hK.toKeep.toKeepCore
    | with_reducible apply State.write_stable hK.toKeep.toKeepCore | with_reducible apply State.wrSctrl_stable hK | (intro _ _ _) | (intro _ _)
    | with_reducible apply foldl_stable | with_reducible apply foldl_fst_stable | with_reducible apply overN_stable | extract_lets
    | with_reducible apply ite_stable | with_reducible apply ite_fst_stable | split
    | fail_if_no_progress (with_reducible apply Keep.other hK.toKeep) | (dsimp +zetaDelta only)
theorem execStallStart_stable {P : State → Prop} (hK : Stable P) (who : Who) (st : Fin 16) (s : State) (hsK : P s) :
    ∃ r_, execStallStart who st s = .next r_ ∧ P r_ := by
  unfold execStallStart
  refine ⟨_, rfl, ?_⟩
  repeat' first
    | with_reducible assumption | (with_reducible refine fst_stable (by assumption) ?_) | with_reducible apply State.begin_stable hK.toKeep.toKeepCore
    | with_reducible apply State.write_stable hK.toKeep.toKeepCore | with_reducible apply State.wrSctrl_stable hK | (intro _ _ _) | (intro _ _)
    | with_reducible apply foldl_stable | with_reducible apply foldl_fst_stable | with_reducible apply overN_stable | extract_lets
    | with_reducible apply ite_stable | with_reducible apply ite_fst_stable | split
    | fail_if_no_progress (with_reducible apply Keep.other hK.toKeep) | (dsimp +zetaDelta only)
theorem execStallReset_stable {P : State → Prop} (hK : Stable P) (who : Who) (st : Fin 16) (s : State) (hsK : P s) :
    ∃ r_, execStallReset who st s = .next r_ ∧ P r_ := by
  unfold execStallReset
  refine ⟨_, rfl, ?_⟩
  repeat' first
    | with_reducible assumption | (with_reducible refine fst_stable (by assumption) ?_) | with_reducible apply State.begin_stable hK.toKeep.toKeepCore
    | with_reducible apply State.write_stable hK.toKeep.toKeepCore | with_reducible apply State.wrSctrl_stable hK | (intro _ _ _) | (intro _ _)
    | with_reducible apply foldl_stable | with_reducible apply foldl_fst_stable | with_reducible apply overN_stable | extract_lets
    | with_reducible apply ite_stable | with_reducible apply ite_fst_stable | split
    | fail_if_no_progress (with_reducible apply Keep.other hK.toKeep) | (dsimp +zetaDelta only)
theorem execDestroy_stable {P : State → Prop} (hK : Stable P) (who : Who) (st : Fin 16) (s : State) (hsK : P s) :
    ∃ r_, execDestroy who st s = .next r_ ∧ P r_ := by
  unfold execDestroy
  refine ⟨_, rfl, ?_⟩
  repeat' first
    | with_reducible assumption | (with_reducible refine fst_stable (by assumption) ?_) | with_reducible apply State.begin_stable hK.toKeep.toKeepCore
    | with_reducible apply State.write_stable hK.toKeep.toKeepCore | with_reducible apply State.wrSctrl_stable hK | (intro _ _ _) | (intro _ _)
    | with_reducible apply foldl_stable | with_reducible apply foldl_fst_stable | with_reducible apply overN_stable | extract_lets
    | with_reducible apply ite_stable | with_reducible apply ite_fst_stable | split
    | fail_if_no_progress (with_reducible apply Keep.other hK.toKeep) | (dsimp +zetaDelta only)
theorem execThaw_stable {P : State → Prop} (hK : Stable P) (who : Who) (st : Fin 16) (s : State) (hsK : P s) :
    ∃ r_, execThaw who st s = .next r_ ∧ P r_ := by
  unfold execThaw
  refine ⟨_, rfl, ?_⟩
  repeat' first
    | with_reducible assumption | (with_reducible refine fst_stable (by assumption) ?_) | with_reducible apply State.begin_stable hK.toKeep.toKeepCore
    | with_reducible apply State.write_stable hK.toKeep.toKeepCore | with_reducible apply State.wrSctrl_stable hK | (intro _ _ _) | (intro _ _)
    | with_reducible apply foldl_stable | with_reducible apply foldl_fst_stable | with_reducible apply overN_stable | extract_lets
    | with_reducible apply ite_stable | with_reducible apply ite_fst_stable | split
    | fail_if_no_progress (with_reducible apply Keep.other hK.toKeep) | (dsimp +zetaDelta only)
theorem execFunctionLevelReset_stable {P : State → Prop} (hK : Stable P) (ep : Fin 2) (fn : Fin 16) (s : State) (hsK : P s) :
    ∃ r_, execFunctionLevelReset ep fn s = .next r_ ∧ P r_ := by
  unfold execFunctionLevelReset
  refine ⟨_, rfl, ?_⟩
  repeat' first
    | with_reducible assumption | (with_reducible refine fst_stable (by assumption) ?_) | with_reducible apply State.setRw_stable hK.toKeep.toKeepCore
    | with_reducible apply State.begin_stable hK.toKeep.toKeepCore | with_reducible apply State.setFnCfg_stable hK.toKeep.toKeepSys
    | with_reducible apply State.guard_stable hK.toKeep.toKeepCore | with_reducible apply State.stallDrain_stable hK | (intro _ _ _) | (intro _ _)
    | with_reducible apply foldl_stable | with_reducible apply foldl_fst_stable | with_reducible apply overN_stable | extract_lets
    | with_reducible apply ite_stable | with_reducible apply ite_fst_stable | split
    | fail_if_no_progress (with_reducible apply Keep.other hK.toKeep) | (dsimp +zetaDelta only)
theorem execVfEnableCleared_stable {P : State → Prop} (hK : Stable P) (ep : Fin 2) (s : State) (hsK : P s) :
    ∃ r_, execVfEnableCleared ep s = .next r_ ∧ P r_ := by
  unfold execVfEnableCleared
  refine ⟨_, rfl, ?_⟩
  repeat' first
    | with_reducible assumption | (with_reducible refine fst_stable (by assumption) ?_) | with_reducible apply State.begin_stable hK.toKeep.toKeepCore
    | with_reducible apply State.stallDrain_stable hK | (intro _ _ _) | (intro _ _) | with_reducible apply foldl_stable
    | with_reducible apply foldl_fst_stable | with_reducible apply overN_stable | extract_lets | with_reducible apply ite_stable
    | with_reducible apply ite_fst_stable | split | fail_if_no_progress (with_reducible apply Keep.other hK.toKeep) | (dsimp +zetaDelta only)
theorem execBusMasterEnableCleared_stable {P : State → Prop} (hK : Stable P) (ep : Fin 2) (fn : Fin 16) (s : State) (hsK : P s) :
    ∃ r_, execBusMasterEnableCleared ep fn s = .next r_ ∧ P r_ := by
  unfold execBusMasterEnableCleared
  refine ⟨_, rfl, ?_⟩
  repeat' first
    | with_reducible assumption | (with_reducible refine fst_stable (by assumption) ?_) | with_reducible apply State.begin_stable hK.toKeep.toKeepCore
    | with_reducible apply State.stallDrain_stable hK | (intro _ _ _) | (intro _ _) | with_reducible apply foldl_stable
    | with_reducible apply foldl_fst_stable | with_reducible apply overN_stable | extract_lets | with_reducible apply ite_stable
    | with_reducible apply ite_fst_stable | split | fail_if_no_progress (with_reducible apply Keep.other hK.toKeep) | (dsimp +zetaDelta only)
theorem execDrainLimit_stable {P : State → Prop} (hK : Stable P) (st : Fin 16) (times : List UnitTime) (s : State) (hsK : P s) :
    ∃ r_, execDrainLimit st times s = .next r_ ∧ P r_ := by
  unfold execDrainLimit
  refine ⟨_, rfl, ?_⟩
  repeat' first
    | with_reducible assumption | (with_reducible refine fst_stable (by assumption) ?_) | with_reducible apply State.begin_stable hK.toKeep.toKeepCore
    | with_reducible apply State.guard_stable hK.toKeep.toKeepCore | with_reducible apply State.dmSquash_stable hK
    | with_reducible apply State.queueSquash_stable hK | (intro _ _ _) | (intro _ _) | with_reducible apply foldl_stable
    | with_reducible apply foldl_fst_stable | with_reducible apply overN_stable | extract_lets | with_reducible apply ite_stable
    | with_reducible apply ite_fst_stable | split | fail_if_no_progress (with_reducible apply Keep.other hK.toKeep) | (dsimp +zetaDelta only)
theorem State.resetDone_stable {P : State → Prop} (hK : Stable P) (s : State) (st : Nat) (hsK : P s) : P (State.resetDone s st) := by
  unfold State.resetDone
  repeat' first
    | with_reducible assumption | (with_reducible refine fst_stable (by assumption) ?_) | with_reducible apply State.wr_stable hK.toKeep.toKeepCore
    | with_reducible apply State.toStall_stable hK.toKeep.toKeepCore | with_reducible apply State.modQueue_stable hK.toKeep.toKeepUnits
    | with_reducible apply State.modPipe_stable hK.toKeep.toKeepUnits | with_reducible apply State.setFence_stable hK.toKeep.toKeepCore
    | with_reducible apply State.setCredit_stable hK.toKeep.toKeepCore | with_reducible apply State.cvStallReset_stable hK.toKeep.toKeepCore
    | with_reducible apply State.setQueuePos_stable hK.toKeep.toKeepCore | with_reducible apply State.clearRecord_stable hK.toKeep.toKeepCore
    | with_reducible apply State.thawMasters_stable hK.toKeep.toKeepCore | with_reducible apply State.stallGo_stable hK | (intro _ _ _) | (intro _ _)
    | with_reducible apply foldl_stable | with_reducible apply foldl_fst_stable | with_reducible apply overN_stable | extract_lets
    | with_reducible apply ite_stable | with_reducible apply ite_fst_stable | split
    | fail_if_no_progress (with_reducible apply Keep.other hK.toKeep) | (dsimp +zetaDelta only)
theorem execResetDone_stable {P : State → Prop} (hK : Stable P) (st : Fin 16) (s : State) (hsK : P s) :
    ∃ r_, execResetDone st s = .next r_ ∧ P r_ := by
  unfold execResetDone
  refine ⟨_, rfl, ?_⟩
  repeat' first
    | with_reducible assumption | (with_reducible refine fst_stable (by assumption) ?_) | with_reducible apply State.begin_stable hK.toKeep.toKeepCore
    | with_reducible apply State.guard_stable hK.toKeep.toKeepCore | with_reducible apply State.resetDone_stable hK | (intro _ _ _) | (intro _ _)
    | with_reducible apply foldl_stable | with_reducible apply foldl_fst_stable | with_reducible apply overN_stable | extract_lets
    | with_reducible apply ite_stable | with_reducible apply ite_fst_stable | split
    | fail_if_no_progress (with_reducible apply Keep.other hK.toKeep) | (dsimp +zetaDelta only)
theorem State.zeroGrain_stable {P : State → Prop} (hK : Stable P) (s : State) (n : Nat) (hsK : P s) : P (State.zeroGrain s n) := by
  unfold State.zeroGrain
  repeat' first
    | with_reducible assumption | (with_reducible refine fst_stable (by assumption) ?_) | with_reducible apply State.sramKeep_stable hK
    | (intro _ _ _) | (intro _ _) | with_reducible apply foldl_stable | with_reducible apply foldl_fst_stable | with_reducible apply overN_stable
    | extract_lets | with_reducible apply ite_stable | with_reducible apply ite_fst_stable | split
    | fail_if_no_progress (with_reducible apply Keep.other hK.toKeep) | (dsimp +zetaDelta only)
theorem State.zeroPage_stable {P : State → Prop} (hK : Stable P) (s : State) (n : Nat) (hsK : P s) : P (State.zeroPage s n) := by
  unfold State.zeroPage
  repeat' first
    | with_reducible assumption | (with_reducible refine fst_stable (by assumption) ?_) | with_reducible apply State.dramKeep_stable hK
    | (intro _ _ _) | (intro _ _) | with_reducible apply foldl_stable | with_reducible apply foldl_fst_stable | with_reducible apply overN_stable
    | extract_lets | with_reducible apply ite_stable | with_reducible apply ite_fst_stable | split
    | fail_if_no_progress (with_reducible apply Keep.other hK.toKeep) | (dsimp +zetaDelta only)
theorem State.zeroOwned_stable {P : State → Prop} (hK : Stable P) (s : State) (sram : Bool) (n : Nat) (hsK : P s) :
    P (State.zeroOwned s sram n) := by
  unfold State.zeroOwned
  repeat' first
    | with_reducible assumption | (with_reducible refine fst_stable (by assumption) ?_) | with_reducible apply State.zeroGrain_stable hK
    | with_reducible apply State.zeroPage_stable hK | (intro _ _ _) | (intro _ _) | with_reducible apply foldl_stable
    | with_reducible apply foldl_fst_stable | with_reducible apply overN_stable | extract_lets | with_reducible apply ite_stable
    | with_reducible apply ite_fst_stable | split | fail_if_no_progress (with_reducible apply Keep.other hK.toKeep) | (dsimp +zetaDelta only)
theorem State.stallFreed_stable {P : State → Prop} (hK : KeepUnits P) (s : State) (st : Nat) (hsK : P s) : P (State.stallFreed s st) := by
  unfold State.stallFreed
  repeat' first
    | with_reducible assumption | (with_reducible refine fst_stable (by assumption) ?_) | with_reducible apply State.setRw_stable hK.toKeepCore
    | with_reducible apply State.wr_stable hK.toKeepCore | with_reducible apply State.toStall_stable hK.toKeepCore
    | with_reducible apply State.modQueue_stable hK | with_reducible apply State.setFence_stable hK.toKeepCore | (intro _ _ _) | (intro _ _)
    | with_reducible apply foldl_stable | with_reducible apply foldl_fst_stable | with_reducible apply overN_stable | extract_lets
    | with_reducible apply ite_stable | with_reducible apply ite_fst_stable | split | fail_if_no_progress (with_reducible apply KeepUnits.other hK)
    | (dsimp +zetaDelta only)
theorem execClearingDone_stable {P : State → Prop} (hK : Stable P) (st : Fin 17) (s : State) (hsK : P s) :
    ∃ r_, execClearingDone st s = .next r_ ∧ P r_ := by
  unfold execClearingDone
  refine ⟨_, rfl, ?_⟩
  repeat' first
    | with_reducible assumption | (with_reducible refine fst_stable (by assumption) ?_) | with_reducible apply State.begin_stable hK.toKeep.toKeepCore
    | with_reducible apply State.setOwner_stable hK.toKeep.toKeepCore | with_reducible apply State.zeroOwned_stable hK
    | with_reducible apply State.stallFreed_stable hK.toKeep.toKeepUnits | (intro _ _ _) | (intro _ _) | with_reducible apply foldl_stable
    | with_reducible apply foldl_fst_stable | with_reducible apply overN_stable | extract_lets | with_reducible apply ite_stable
    | with_reducible apply ite_fst_stable | split | fail_if_no_progress (with_reducible apply Keep.other hK.toKeep) | (dsimp +zetaDelta only)
theorem State.wrTinv_stable {P : State → Prop} (hK : KeepCore P) (s : State) (w : W64) (hsK : P s) : P (State.wrTinv s w) := by
  unfold State.wrTinv
  repeat' first
    | with_reducible assumption | (with_reducible refine fst_stable (by assumption) ?_) | with_reducible apply State.wr_stable hK
    | with_reducible apply State.refuse_stable hK | (intro _ _ _) | (intro _ _) | with_reducible apply foldl_stable
    | with_reducible apply foldl_fst_stable | with_reducible apply overN_stable | extract_lets | with_reducible apply ite_stable
    | with_reducible apply ite_fst_stable | split | fail_if_no_progress (with_reducible apply KeepCore.other hK) | (dsimp +zetaDelta only)
theorem execTinv_stable {P : State → Prop} (hK : KeepCore P) (who : Who) (all : Bool) (st : Fin 16) (sa : BitVec 20) (s : State) (hsK : P s) :
    ∃ r_, execTinv who all st sa s = .next r_ ∧ P r_ := by
  unfold execTinv
  refine ⟨_, rfl, ?_⟩
  repeat' first
    | with_reducible assumption | (with_reducible refine fst_stable (by assumption) ?_) | with_reducible apply State.begin_stable hK
    | with_reducible apply State.write_stable hK | with_reducible apply State.wrTinv_stable hK | (intro _ _ _) | (intro _ _)
    | with_reducible apply foldl_stable | with_reducible apply foldl_fst_stable | with_reducible apply overN_stable | extract_lets
    | with_reducible apply ite_stable | with_reducible apply ite_fst_stable | split | fail_if_no_progress (with_reducible apply KeepCore.other hK)
    | (dsimp +zetaDelta only)
theorem execTinvDone_stable {P : State → Prop} (hK : KeepCore P) (s : State) (hsK : P s) : ∃ r_, execTinvDone s = .next r_ ∧ P r_ := by
  unfold execTinvDone
  refine ⟨_, rfl, ?_⟩
  repeat' first
    | with_reducible assumption | (with_reducible refine fst_stable (by assumption) ?_) | with_reducible apply State.wr_stable hK
    | with_reducible apply State.begin_stable hK | (intro _ _ _) | (intro _ _) | with_reducible apply foldl_stable
    | with_reducible apply foldl_fst_stable | with_reducible apply overN_stable | extract_lets | with_reducible apply ite_stable
    | with_reducible apply ite_fst_stable | split | fail_if_no_progress (with_reducible apply KeepCore.other hK) | (dsimp +zetaDelta only)
theorem State.wrOwner_stable {P : State → Prop} (hK : KeepUnits P) (s : State) (sram : Bool) (n v : Nat) (hsK : P s) :
    P (State.wrOwner s sram n v).1 := by
  unfold State.wrOwner
  repeat' first
    | with_reducible assumption | (with_reducible refine fst_stable (by assumption) ?_) | with_reducible apply State.setOwner_stable hK.toKeepCore
    | (intro _ _ _) | (intro _ _) | with_reducible apply foldl_stable | with_reducible apply foldl_fst_stable | with_reducible apply overN_stable
    | extract_lets | with_reducible apply ite_stable | with_reducible apply ite_fst_stable | split
    | fail_if_no_progress (with_reducible apply KeepUnits.other hK) | (dsimp +zetaDelta only)
theorem State.wrOwners_stable {P : State → Prop} (hK : KeepUnits P) (s : State) (sram : Bool) (i : Nat) (w : W64) (hsK : P s) :
    P (State.wrOwners s sram i w) := by
  unfold State.wrOwners
  repeat' first
    | with_reducible assumption | (with_reducible refine fst_stable (by assumption) ?_) | with_reducible apply State.refuse_stable hK.toKeepCore
    | with_reducible apply State.wrOwner_stable hK | (intro _ _ _) | (intro _ _) | with_reducible apply foldl_stable
    | with_reducible apply foldl_fst_stable | with_reducible apply overN_stable | extract_lets | with_reducible apply ite_stable
    | with_reducible apply ite_fst_stable | split | fail_if_no_progress (with_reducible apply KeepUnits.other hK) | (dsimp +zetaDelta only)
theorem execOwnerTableWrite_stable {P : State → Prop} (hK : KeepUnits P) (who : Who) (sram : Bool) (i : Fin 4096) (w : W32) (s : State) (hsK : P s) :
    ∃ r_, execOwnerTableWrite who sram i w s = .next r_ ∧ P r_ := by
  unfold execOwnerTableWrite
  refine ⟨_, rfl, ?_⟩
  repeat' first
    | with_reducible assumption | (with_reducible refine fst_stable (by assumption) ?_) | with_reducible apply State.begin_stable hK.toKeepCore
    | with_reducible apply State.guard_stable hK.toKeepCore | with_reducible apply State.write_stable hK.toKeepCore
    | with_reducible apply State.wrOwners_stable hK | (intro _ _ _) | (intro _ _) | with_reducible apply foldl_stable
    | with_reducible apply foldl_fst_stable | with_reducible apply overN_stable | extract_lets | with_reducible apply ite_stable
    | with_reducible apply ite_fst_stable | split | fail_if_no_progress (with_reducible apply KeepUnits.other hK) | (dsimp +zetaDelta only)
theorem State.wrScfg_stable {P : State → Prop} (hK : KeepCore P) (s : State) (who : Who) (st : Nat) (w : W64) (hsK : P s) :
    P (State.wrScfg s who st w) := by
  unfold State.wrScfg
  repeat' first
    | with_reducible assumption | (with_reducible refine fst_stable (by assumption) ?_) | with_reducible apply State.wr_stable hK
    | with_reducible apply State.refuse_stable hK | (intro _ _ _) | (intro _ _) | with_reducible apply foldl_stable
    | with_reducible apply foldl_fst_stable | with_reducible apply overN_stable | extract_lets | with_reducible apply ite_stable
    | with_reducible apply ite_fst_stable | split | fail_if_no_progress (with_reducible apply KeepCore.other hK) | (dsimp +zetaDelta only)
theorem execScfgWrite_stable {P : State → Prop} (hK : KeepCore P) (who : Who) (st : Fin 16) (w : W32) (s : State) (hsK : P s) :
    ∃ r_, execScfgWrite who st w s = .next r_ ∧ P r_ := by
  unfold execScfgWrite
  refine ⟨_, rfl, ?_⟩
  repeat' first
    | with_reducible assumption | (with_reducible refine fst_stable (by assumption) ?_) | with_reducible apply State.begin_stable hK
    | with_reducible apply State.write_stable hK | with_reducible apply State.wrScfg_stable hK | (intro _ _ _) | (intro _ _)
    | with_reducible apply foldl_stable | with_reducible apply foldl_fst_stable | with_reducible apply overN_stable | extract_lets
    | with_reducible apply ite_stable | with_reducible apply ite_fst_stable | split | fail_if_no_progress (with_reducible apply KeepCore.other hK)
    | (dsimp +zetaDelta only)
theorem State.wrImask_stable {P : State → Prop} (hK : KeepCore P) (s : State) (st i : Nat) (w : W64) (hsK : P s) : P (State.wrImask s st i w) := by
  unfold State.wrImask
  repeat' first
    | with_reducible assumption | (with_reducible refine fst_stable (by assumption) ?_) | with_reducible apply State.setRw_stable hK
    | with_reducible apply State.sendMsix_stable hK | (intro _ _ _) | (intro _ _) | with_reducible apply foldl_stable
    | with_reducible apply foldl_fst_stable | with_reducible apply overN_stable | extract_lets | with_reducible apply ite_stable
    | with_reducible apply ite_fst_stable | split | fail_if_no_progress (with_reducible apply KeepCore.other hK) | (dsimp +zetaDelta only)
theorem execImaskWrite_stable {P : State → Prop} (hK : KeepCore P) (st : Fin 16) (i : Fin 3) (w : W32) (s : State) (hsK : P s) :
    ∃ r_, execImaskWrite st i w s = .next r_ ∧ P r_ := by
  unfold execImaskWrite
  refine ⟨_, rfl, ?_⟩
  repeat' first
    | with_reducible assumption | (with_reducible refine fst_stable (by assumption) ?_) | with_reducible apply State.begin_stable hK
    | with_reducible apply State.write_stable hK | with_reducible apply State.wrImask_stable hK | (intro _ _ _) | (intro _ _)
    | with_reducible apply foldl_stable | with_reducible apply foldl_fst_stable | with_reducible apply overN_stable | extract_lets
    | with_reducible apply ite_stable | with_reducible apply ite_fst_stable | split | fail_if_no_progress (with_reducible apply KeepCore.other hK)
    | (dsimp +zetaDelta only)
theorem State.wrMbCtrl_stable {P : State → Prop} (hK : KeepSys P) (s : State) (st : Nat) (w : W64) (hsK : P s) : P (State.wrMbCtrl s st w) := by
  unfold State.wrMbCtrl
  repeat' first
    | with_reducible assumption | (with_reducible refine fst_stable (by assumption) ?_) | with_reducible apply State.wr_stable hK.toKeepCore
    | with_reducible apply State.refuse_stable hK.toKeepCore | (intro _ _ _) | (intro _ _) | with_reducible apply foldl_stable
    | with_reducible apply foldl_fst_stable | with_reducible apply overN_stable | extract_lets | with_reducible apply ite_stable
    | with_reducible apply ite_fst_stable | split | fail_if_no_progress (with_reducible apply KeepSys.other hK) | (dsimp +zetaDelta only)
theorem execMailboxGo_stable {P : State → Prop} (hK : KeepSys P) (st : Fin 16) (len : BitVec 11) (s : State) (hsK : P s) :
    ∃ r_, execMailboxGo st len s = .next r_ ∧ P r_ := by
  unfold execMailboxGo
  refine ⟨_, rfl, ?_⟩
  repeat' first
    | with_reducible assumption | (with_reducible refine fst_stable (by assumption) ?_) | with_reducible apply State.begin_stable hK.toKeepCore
    | with_reducible apply State.write_stable hK.toKeepCore | with_reducible apply State.wrMbCtrl_stable hK | (intro _ _ _) | (intro _ _)
    | with_reducible apply foldl_stable | with_reducible apply foldl_fst_stable | with_reducible apply overN_stable | extract_lets
    | with_reducible apply ite_stable | with_reducible apply ite_fst_stable | split | fail_if_no_progress (with_reducible apply KeepSys.other hK)
    | (dsimp +zetaDelta only)
theorem State.mbAnswer_stable {P : State → Prop} (hK : KeepCore P) (s : State) (st : Nat) (bytes : List Byte) (hsK : P s) :
    P (State.mbAnswer s st bytes) := by
  unfold State.mbAnswer
  repeat' first
    | with_reducible assumption | (with_reducible refine fst_stable (by assumption) ?_) | with_reducible apply State.setRw_stable hK
    | with_reducible apply State.wr_stable hK | with_reducible apply State.irq_stable hK | (intro _ _ _) | (intro _ _)
    | with_reducible apply foldl_stable | with_reducible apply foldl_fst_stable | with_reducible apply overN_stable | extract_lets
    | with_reducible apply ite_stable | with_reducible apply ite_fst_stable | split | fail_if_no_progress (with_reducible apply KeepCore.other hK)
    | (dsimp +zetaDelta only)
theorem execMailboxResponse_stable {P : State → Prop} (hK : KeepCore P) (st : Fin 16) (bytes : List Byte) (s : State) (hsK : P s) :
    ∃ r_, execMailboxResponse st bytes s = .next r_ ∧ P r_ := by
  unfold execMailboxResponse
  refine ⟨_, rfl, ?_⟩
  repeat' first
    | with_reducible assumption | (with_reducible refine fst_stable (by assumption) ?_) | with_reducible apply State.begin_stable hK
    | with_reducible apply State.guard_stable hK | with_reducible apply State.mbAnswer_stable hK | (intro _ _ _) | (intro _ _)
    | with_reducible apply foldl_stable | with_reducible apply foldl_fst_stable | with_reducible apply overN_stable | extract_lets
    | with_reducible apply ite_stable | with_reducible apply ite_fst_stable | split | fail_if_no_progress (with_reducible apply KeepCore.other hK)
    | (dsimp +zetaDelta only)

/-! ### Machine/Device.lean -/

theorem State.setStateBit_stable {P : State → Prop} (hK : KeepCore P) (s : State) (i : Nat) (b : Bool) (hsK : P s) :
    P (State.setStateBit s i b) := by
  unfold State.setStateBit
  repeat' first
    | with_reducible assumption | (with_reducible refine fst_stable (by assumption) ?_) | with_reducible apply State.wr_stable hK | (intro _ _ _)
    | (intro _ _) | with_reducible apply foldl_stable | with_reducible apply foldl_fst_stable | with_reducible apply overN_stable | extract_lets
    | with_reducible apply ite_stable | with_reducible apply ite_fst_stable | split | fail_if_no_progress (with_reducible apply KeepCore.other hK)
    | (dsimp +zetaDelta only)
theorem State.bootStat_stable {P : State → Prop} (hK : KeepCore P) (s : State) (f : Fld) (v : Nat) (hsK : P s) : P (State.bootStat s f v) := by
  unfold State.bootStat
  repeat' first
    | with_reducible assumption | (with_reducible refine fst_stable (by assumption) ?_) | with_reducible apply State.wr_stable hK | (intro _ _ _)
    | (intro _ _) | with_reducible apply foldl_stable | with_reducible apply foldl_fst_stable | with_reducible apply overN_stable | extract_lets
    | with_reducible apply ite_stable | with_reducible apply ite_fst_stable | split | fail_if_no_progress (with_reducible apply KeepCore.other hK)
    | (dsimp +zetaDelta only)
theorem State.powerDown_stable {P : State → Prop} (hK : KeepCore P) (s : State) (n : Nat) (hsK : P s) : P (State.powerDown s n) := by
  unfold State.powerDown
  repeat' first
    | with_reducible assumption | (with_reducible refine fst_stable (by assumption) ?_) | with_reducible apply State.wr_stable hK | (intro _ _ _)
    | (intro _ _) | with_reducible apply foldl_stable | with_reducible apply foldl_fst_stable | with_reducible apply overN_stable | extract_lets
    | with_reducible apply ite_stable | with_reducible apply ite_fst_stable | split | fail_if_no_progress (with_reducible apply KeepCore.other hK)
    | (dsimp +zetaDelta only)
theorem State.halt_stable {P : State → Prop} (hK : KeepSys P) (s : State) (err : Nat) (hsK : P s) : P (State.halt s err) := by
  unfold State.halt
  repeat' first
    | with_reducible assumption | (with_reducible refine fst_stable (by assumption) ?_) | with_reducible apply State.wr_stable hK.toKeepCore
    | with_reducible apply State.toDstate_stable hK.toKeepCore | with_reducible apply State.bootStat_stable hK.toKeepCore
    | with_reducible apply State.powerDown_stable hK.toKeepCore | (intro _ _ _) | (intro _ _) | with_reducible apply foldl_stable
    | with_reducible apply foldl_fst_stable | with_reducible apply overN_stable | extract_lets | with_reducible apply ite_stable
    | with_reducible apply ite_fst_stable | split | fail_if_no_progress (with_reducible apply KeepSys.other hK) | (dsimp +zetaDelta only)

/-! ### Machine/Audio.lean -/

theorem State.ringEntries_stable {P : State → Prop} (hK : KeepSys P) (s : State) (st base size len rd : Nat) (y0 : Nat) (hsK : P s) :
    P (State.ringEntries s st base size len rd y0).1 := by
  induction y0 generalizing s st base size len rd with
  | zero =>
    unfold State.ringEntries
    repeat' first
      | with_reducible assumption | (with_reducible refine fst_stable (by assumption) ?_) | with_reducible apply State.ringLoad_stable hK
      | (intro _ _ _) | (intro _ _) | with_reducible apply foldl_stable | with_reducible apply foldl_fst_stable | with_reducible apply overN_stable
      | extract_lets | with_reducible apply ite_stable | with_reducible apply ite_fst_stable | split
      | fail_if_no_progress (with_reducible apply KeepSys.other hK) | (dsimp +zetaDelta only)
  | succ nK ihK =>
    unfold State.ringEntries
    repeat' first
      | with_reducible assumption | (with_reducible refine fst_stable (by assumption) ?_) | with_reducible apply State.ringLoad_stable hK
      | (intro _ _ _) | (intro _ _) | with_reducible apply ihK | with_reducible apply foldl_stable | with_reducible apply foldl_fst_stable
      | with_reducible apply overN_stable | extract_lets | with_reducible apply ite_stable | with_reducible apply ite_fst_stable | split
      | fail_if_no_progress (with_reducible apply KeepSys.other hK) | (dsimp +zetaDelta only)
theorem State.wrStrCfg_stable {P : State → Prop} (hK : KeepUnits P) (s : State) (i : Nat) (w : W64) (hsK : P s) : P (State.wrStrCfg s i w) := by
  unfold State.wrStrCfg
  repeat' first
    | with_reducible assumption | (with_reducible refine fst_stable (by assumption) ?_) | with_reducible apply State.setRw_stable hK.toKeepCore
    | with_reducible apply State.wr_stable hK.toKeepCore | with_reducible apply State.refuse_stable hK.toKeepCore
    | with_reducible apply State.settingWrite_stable hK.toKeepCore | with_reducible apply State.modStream_stable hK | (intro _ _ _) | (intro _ _)
    | with_reducible apply foldl_stable | with_reducible apply foldl_fst_stable | with_reducible apply overN_stable | extract_lets
    | with_reducible apply ite_stable | with_reducible apply ite_fst_stable | split | fail_if_no_progress (with_reducible apply KeepUnits.other hK)
    | (dsimp +zetaDelta only)
theorem State.wrHcCfg_stable {P : State → Prop} (hK : KeepUnits P) (s : State) (h : Nat) (w : W64) (hsK : P s) : P (State.wrHcCfg s h w) := by
  unfold State.wrHcCfg
  repeat' first
    | with_reducible assumption | (with_reducible refine fst_stable (by assumption) ?_) | with_reducible apply State.setRw_stable hK.toKeepCore
    | with_reducible apply State.wr_stable hK.toKeepCore | with_reducible apply State.emit_stable hK.toKeepCore
    | with_reducible apply State.refuse_stable hK.toKeepCore | with_reducible apply State.settingWrite_stable hK.toKeepCore
    | with_reducible apply State.modHap_stable hK | (intro _ _ _) | (intro _ _) | with_reducible apply foldl_stable
    | with_reducible apply foldl_fst_stable | with_reducible apply overN_stable | extract_lets | with_reducible apply ite_stable
    | with_reducible apply ite_fst_stable | split | fail_if_no_progress (with_reducible apply KeepUnits.other hK) | (dsimp +zetaDelta only)
theorem State.wrPortCfg_stable {P : State → Prop} (hK : KeepUnits P) (s : State) (p : Nat) (w : W64) (hsK : P s) : P (State.wrPortCfg s p w) := by
  unfold State.wrPortCfg
  repeat' first
    | with_reducible assumption | (with_reducible refine fst_stable (by assumption) ?_) | with_reducible apply State.refuse_stable hK.toKeepCore
    | with_reducible apply State.settingWrite_stable hK.toKeepCore | with_reducible apply State.modCap_stable hK | (intro _ _ _) | (intro _ _)
    | with_reducible apply foldl_stable | with_reducible apply foldl_fst_stable | with_reducible apply overN_stable | extract_lets
    | with_reducible apply ite_stable | with_reducible apply ite_fst_stable | split | fail_if_no_progress (with_reducible apply KeepUnits.other hK)
    | (dsimp +zetaDelta only)
theorem State.wrAudCfg_stable {P : State → Prop} (hK : KeepUnits P) (s : State) (w : W64) (hsK : P s) : P (State.wrAudCfg s w) := by
  unfold State.wrAudCfg
  repeat' first
    | with_reducible assumption | (with_reducible refine fst_stable (by assumption) ?_) | with_reducible apply State.refuse_stable hK.toKeepCore
    | with_reducible apply State.settingWrite_stable hK.toKeepCore | with_reducible apply State.modStream_stable hK
    | with_reducible apply State.modCap_stable hK | (intro _ _ _) | (intro _ _) | with_reducible apply foldl_stable
    | with_reducible apply foldl_fst_stable | with_reducible apply overN_stable | extract_lets | with_reducible apply ite_stable
    | with_reducible apply ite_fst_stable | split | fail_if_no_progress (with_reducible apply KeepUnits.other hK) | (dsimp +zetaDelta only)
theorem State.streamFault_stable {P : State → Prop} (hK : KeepUnits P) (s : State) (i : Nat) (hsK : P s) : P (State.streamFault s i) := by
  unfold State.streamFault
  repeat' first
    | with_reducible assumption | (with_reducible refine fst_stable (by assumption) ?_) | with_reducible apply State.wr_stable hK.toKeepCore
    | with_reducible apply State.modStream_stable hK | (intro _ _ _) | (intro _ _) | with_reducible apply foldl_stable
    | with_reducible apply foldl_fst_stable | with_reducible apply overN_stable | extract_lets | with_reducible apply ite_stable
    | with_reducible apply ite_fst_stable | split | fail_if_no_progress (with_reducible apply KeepUnits.other hK) | (dsimp +zetaDelta only)
theorem State.streamTick_stable {P : State → Prop} (hK : Stable P) (s : State) (i : Nat) (hsK : P s) : P (State.streamTick s i) := by
  unfold State.streamTick
  repeat' first
    | with_reducible assumption | (with_reducible refine fst_stable (by assumption) ?_) | with_reducible apply State.wr_stable hK.toKeep.toKeepCore
    | with_reducible apply State.bumpErr_stable hK.toKeep.toKeepCore | with_reducible apply State.irq_stable hK.toKeep.toKeepCore
    | with_reducible apply State.ringLoad_stable hK.toKeep.toKeepSys | with_reducible apply State.ringStore_stable hK
    | with_reducible apply State.modStream_stable hK.toKeep.toKeepUnits | with_reducible apply State.ringEntries_stable hK.toKeep.toKeepSys
    | with_reducible apply State.streamFault_stable hK.toKeep.toKeepUnits | (intro _ _ _) | (intro _ _) | with_reducible apply foldl_stable
    | with_reducible apply foldl_fst_stable | with_reducible apply overN_stable | extract_lets | with_reducible apply ite_stable
    | with_reducible apply ite_fst_stable | split | fail_if_no_progress (with_reducible apply Keep.other hK.toKeep) | (dsimp +zetaDelta only)
theorem State.duckTick_stable {P : State → Prop} (hK : KeepCore P) (s : State) (hsK : P s) : P (State.duckTick s) := by
  unfold State.duckTick
  repeat' first
    | with_reducible assumption | (with_reducible refine fst_stable (by assumption) ?_) | with_reducible apply State.bumpEv_stable hK
    | (intro _ _ _) | (intro _ _) | with_reducible apply foldl_stable | with_reducible apply foldl_fst_stable | with_reducible apply overN_stable
    | extract_lets | with_reducible apply ite_stable | with_reducible apply ite_fst_stable | split
    | fail_if_no_progress (with_reducible apply KeepCore.other hK) | (dsimp +zetaDelta only)
theorem State.hapBrake_stable {P : State → Prop} (hK : KeepUnits P) (s : State) (h : Nat) (hsK : P s) : P (State.hapBrake s h) := by
  unfold State.hapBrake
  repeat' first
    | with_reducible assumption | (with_reducible refine fst_stable (by assumption) ?_) | with_reducible apply State.emit_stable hK.toKeepCore
    | with_reducible apply State.modHap_stable hK | (intro _ _ _) | (intro _ _) | with_reducible apply foldl_stable
    | with_reducible apply foldl_fst_stable | with_reducible apply overN_stable | extract_lets | with_reducible apply ite_stable
    | with_reducible apply ite_fst_stable | split | fail_if_no_progress (with_reducible apply KeepUnits.other hK) | (dsimp +zetaDelta only)
theorem State.hapIdle_stable {P : State → Prop} (hK : KeepUnits P) (s : State) (h : Nat) (hsK : P s) : P (State.hapIdle s h) := by
  unfold State.hapIdle
  repeat' first
    | with_reducible assumption | (with_reducible refine fst_stable (by assumption) ?_) | with_reducible apply State.wr_stable hK.toKeepCore
    | with_reducible apply State.emit_stable hK.toKeepCore | with_reducible apply State.modHap_stable hK | (intro _ _ _) | (intro _ _)
    | with_reducible apply foldl_stable | with_reducible apply foldl_fst_stable | with_reducible apply overN_stable | extract_lets
    | with_reducible apply ite_stable | with_reducible apply ite_fst_stable | split | fail_if_no_progress (with_reducible apply KeepUnits.other hK)
    | (dsimp +zetaDelta only)
theorem State.hapFault_stable {P : State → Prop} (hK : KeepUnits P) (s : State) (h : Nat) (hsK : P s) : P (State.hapFault s h) := by
  unfold State.hapFault
  repeat' first
    | with_reducible assumption | (with_reducible refine fst_stable (by assumption) ?_) | with_reducible apply State.wr_stable hK.toKeepCore
    | with_reducible apply State.hapIdle_stable hK | (intro _ _ _) | (intro _ _) | with_reducible apply foldl_stable
    | with_reducible apply foldl_fst_stable | with_reducible apply overN_stable | extract_lets | with_reducible apply ite_stable
    | with_reducible apply ite_fst_stable | split | fail_if_no_progress (with_reducible apply KeepUnits.other hK) | (dsimp +zetaDelta only)
theorem State.hapNext_stable {P : State → Prop} (hK : Stable P) (s : State) (h st wr : Nat) (y0 : Nat) (hsK : P s) :
    P (State.hapNext s h st wr y0) := by
  induction y0 generalizing s h st wr with
  | zero =>
    unfold State.hapNext
    repeat' first
      | with_reducible assumption | (with_reducible refine fst_stable (by assumption) ?_) | with_reducible apply State.wr_stable hK.toKeep.toKeepCore
      | with_reducible apply State.emit_stable hK.toKeep.toKeepCore | with_reducible apply State.bumpErr_stable hK.toKeep.toKeepCore
      | with_reducible apply State.ringLoad_stable hK.toKeep.toKeepSys | with_reducible apply State.ringStore_stable hK
      | with_reducible apply State.modHap_stable hK.toKeep.toKeepUnits | with_reducible apply State.hapIdle_stable hK.toKeep.toKeepUnits
      | with_reducible apply State.hapFault_stable hK.toKeep.toKeepUnits | (intro _ _ _) | (intro _ _) | with_reducible apply foldl_stable
      | with_reducible apply foldl_fst_stable | with_reducible apply overN_stable | extract_lets | with_reducible apply ite_stable
      | with_reducible apply ite_fst_stable | split | fail_if_no_progress (with_reducible apply Keep.other hK.toKeep)
      | (dsimp +zetaDelta only)
  | succ nK ihK =>
    unfold State.hapNext
    repeat' first
      | with_reducible assumption | (with_reducible refine fst_stable (by assumption) ?_) | with_reducible apply State.wr_stable hK.toKeep.toKeepCore
      | with_reducible apply State.emit_stable hK.toKeep.toKeepCore | with_reducible apply State.bumpErr_stable hK.toKeep.toKeepCore
      | with_reducible apply State.ringLoad_stable hK.toKeep.toKeepSys | with_reducible apply State.ringStore_stable hK
      | with_reducible apply State.modHap_stable hK.toKeep.toKeepUnits | with_reducible apply State.hapIdle_stable hK.toKeep.toKeepUnits
      | with_reducible apply State.hapFault_stable hK.toKeep.toKeepUnits | (intro _ _ _) | (intro _ _) | with_reducible apply ihK
      | with_reducible apply foldl_stable | with_reducible apply foldl_fst_stable | with_reducible apply overN_stable | extract_lets
      | with_reducible apply ite_stable | with_reducible apply ite_fst_stable | split
      | fail_if_no_progress (with_reducible apply Keep.other hK.toKeep) | (dsimp +zetaDelta only)
theorem State.hapGo_stable {P : State → Prop} (hK : Stable P) (s : State) (h st : Nat) (hsK : P s) : P (State.hapGo s h st) := by
  unfold State.hapGo
  repeat' first
    | with_reducible assumption | (with_reducible refine fst_stable (by assumption) ?_)
    | with_reducible apply State.ringLoad_stable hK.toKeep.toKeepSys | with_reducible apply State.modHap_stable hK.toKeep.toKeepUnits
    | with_reducible apply State.hapFault_stable hK.toKeep.toKeepUnits | with_reducible apply State.hapNext_stable hK | (intro _ _ _) | (intro _ _)
    | with_reducible apply foldl_stable | with_reducible apply foldl_fst_stable | with_reducible apply overN_stable | extract_lets
    | with_reducible apply ite_stable | with_reducible apply ite_fst_stable | split
    | fail_if_no_progress (with_reducible apply Keep.other hK.toKeep) | (dsimp +zetaDelta only)
theorem State.segDone_stable {P : State → Prop} (hK : KeepCore P) (s : State) (h st : Nat) (hsK : P s) : P (State.segDone s h st) := by
  unfold State.segDone
  repeat' first
    | with_reducible assumption | (with_reducible refine fst_stable (by assumption) ?_) | with_reducible apply State.bumpEv_stable hK
    | with_reducible apply State.irq_stable hK | (intro _ _ _) | (intro _ _) | with_reducible apply foldl_stable
    | with_reducible apply foldl_fst_stable | with_reducible apply overN_stable | extract_lets | with_reducible apply ite_stable
    | with_reducible apply ite_fst_stable | split | fail_if_no_progress (with_reducible apply KeepCore.other hK) | (dsimp +zetaDelta only)
theorem State.hapTick_stable {P : State → Prop} (hK : Stable P) (s : State) (h : Nat) (hsK : P s) : P (State.hapTick s h) := by
  unfold State.hapTick
  repeat' first
    | with_reducible assumption | (with_reducible refine fst_stable (by assumption) ?_)
    | with_reducible apply State.ringLoad_stable hK.toKeep.toKeepSys | with_reducible apply State.ringStore_stable hK
    | with_reducible apply State.modHap_stable hK.toKeep.toKeepUnits | with_reducible apply State.hapBrake_stable hK.toKeep.toKeepUnits
    | with_reducible apply State.hapIdle_stable hK.toKeep.toKeepUnits | with_reducible apply State.hapFault_stable hK.toKeep.toKeepUnits
    | with_reducible apply State.hapGo_stable hK | with_reducible apply State.segDone_stable hK.toKeep.toKeepCore | (intro _ _ _) | (intro _ _)
    | with_reducible apply foldl_stable | with_reducible apply foldl_fst_stable | with_reducible apply overN_stable | extract_lets
    | with_reducible apply ite_stable | with_reducible apply ite_fst_stable | split
    | fail_if_no_progress (with_reducible apply Keep.other hK.toKeep) | (dsimp +zetaDelta only)
theorem execHapticSegmentEnd_stable {P : State → Prop} (hK : Stable P) (h : Fin 8) (s : State) (hsK : P s) :
    ∃ r_, execHapticSegmentEnd h s = .next r_ ∧ P r_ := by
  unfold execHapticSegmentEnd
  refine ⟨_, rfl, ?_⟩
  repeat' first
    | with_reducible assumption | (with_reducible refine fst_stable (by assumption) ?_) | with_reducible apply State.begin_stable hK.toKeep.toKeepCore
    | with_reducible apply State.guard_stable hK.toKeep.toKeepCore | with_reducible apply State.hapBrake_stable hK.toKeep.toKeepUnits
    | with_reducible apply State.hapIdle_stable hK.toKeep.toKeepUnits | with_reducible apply State.hapGo_stable hK
    | with_reducible apply State.segDone_stable hK.toKeep.toKeepCore | (intro _ _ _) | (intro _ _) | with_reducible apply foldl_stable
    | with_reducible apply foldl_fst_stable | with_reducible apply overN_stable | extract_lets | with_reducible apply ite_stable
    | with_reducible apply ite_fst_stable | split | fail_if_no_progress (with_reducible apply Keep.other hK.toKeep) | (dsimp +zetaDelta only)
theorem execBemfZeroCrossing_stable {P : State → Prop} (hK : KeepUnits P) (h : Fin 8) (t : Nat) (s : State) (hsK : P s) :
    ∃ r_, execBemfZeroCrossing h t s = .next r_ ∧ P r_ := by
  unfold execBemfZeroCrossing
  refine ⟨_, rfl, ?_⟩
  repeat' first
    | with_reducible assumption | (with_reducible refine fst_stable (by assumption) ?_) | with_reducible apply State.wr_stable hK.toKeepCore
    | with_reducible apply State.begin_stable hK.toKeepCore | with_reducible apply State.guard_stable hK.toKeepCore
    | with_reducible apply State.modHap_stable hK | (intro _ _ _) | (intro _ _) | with_reducible apply foldl_stable
    | with_reducible apply foldl_fst_stable | with_reducible apply overN_stable | extract_lets | with_reducible apply ite_stable
    | with_reducible apply ite_fst_stable | split | fail_if_no_progress (with_reducible apply KeepUnits.other hK) | (dsimp +zetaDelta only)
theorem execLraHalfPeriod_stable {P : State → Prop} (hK : KeepUnits P) (h : Fin 8) (s : State) (hsK : P s) :
    ∃ r_, execLraHalfPeriod h s = .next r_ ∧ P r_ := by
  unfold execLraHalfPeriod
  refine ⟨_, rfl, ?_⟩
  repeat' first
    | with_reducible assumption | (with_reducible refine fst_stable (by assumption) ?_) | with_reducible apply State.wr_stable hK.toKeepCore
    | with_reducible apply State.emit_stable hK.toKeepCore | with_reducible apply State.bumpErr_stable hK.toKeepCore
    | with_reducible apply State.begin_stable hK.toKeepCore | with_reducible apply State.guard_stable hK.toKeepCore
    | with_reducible apply State.modHap_stable hK | (intro _ _ _) | (intro _ _) | with_reducible apply foldl_stable
    | with_reducible apply foldl_fst_stable | with_reducible apply overN_stable | extract_lets | with_reducible apply ite_stable
    | with_reducible apply ite_fst_stable | split | fail_if_no_progress (with_reducible apply KeepUnits.other hK) | (dsimp +zetaDelta only)
theorem State.capPut_stable {P : State → Prop} (hK : Stable P) (s : State) (p st : Nat) (fr : List W32) (hsK : P s) :
    P (State.capPut s p st fr) := by
  unfold State.capPut
  repeat' first
    | with_reducible assumption | (with_reducible refine fst_stable (by assumption) ?_) | with_reducible apply State.wr_stable hK.toKeep.toKeepCore
    | with_reducible apply State.bumpErr_stable hK.toKeep.toKeepCore | with_reducible apply State.ringLoad_stable hK.toKeep.toKeepSys
    | with_reducible apply State.ringStore_stable hK | with_reducible apply State.modCap_stable hK.toKeep.toKeepUnits | (intro _ _ _) | (intro _ _)
    | with_reducible apply foldl_stable | with_reducible apply foldl_fst_stable | with_reducible apply overN_stable | extract_lets
    | with_reducible apply ite_stable | with_reducible apply ite_fst_stable | split
    | fail_if_no_progress (with_reducible apply Keep.other hK.toKeep) | (dsimp +zetaDelta only)
theorem State.capTick_stable {P : State → Prop} (hK : Stable P) (s : State) (p : Nat) (hsK : P s) : P (State.capTick s p) := by
  unfold State.capTick
  repeat' first
    | with_reducible assumption | (with_reducible refine fst_stable (by assumption) ?_)
    | with_reducible apply State.modCap_stable hK.toKeep.toKeepUnits | with_reducible apply State.capPut_stable hK | (intro _ _ _) | (intro _ _)
    | with_reducible apply foldl_stable | with_reducible apply foldl_fst_stable | with_reducible apply overN_stable | extract_lets
    | with_reducible apply ite_stable | with_reducible apply ite_fst_stable | split
    | fail_if_no_progress (with_reducible apply Keep.other hK.toKeep) | (dsimp +zetaDelta only)
theorem execAudioTick_stable {P : State → Prop} (hK : Stable P) (s : State) (hsK : P s) : ∃ r_, execAudioTick s = .next r_ ∧ P r_ := by
  unfold execAudioTick
  refine ⟨_, rfl, ?_⟩
  repeat' first
    | with_reducible assumption | (with_reducible refine fst_stable (by assumption) ?_) | with_reducible apply State.wr_stable hK.toKeep.toKeepCore
    | with_reducible apply State.begin_stable hK.toKeep.toKeepCore | with_reducible apply State.guard_stable hK.toKeep.toKeepCore
    | with_reducible apply State.streamTick_stable hK | with_reducible apply State.duckTick_stable hK.toKeep.toKeepCore
    | with_reducible apply State.hapTick_stable hK | with_reducible apply State.capTick_stable hK | (intro _ _ _) | (intro _ _)
    | with_reducible apply foldl_stable | with_reducible apply foldl_fst_stable | with_reducible apply overN_stable | extract_lets
    | with_reducible apply ite_stable | with_reducible apply ite_fst_stable | split
    | fail_if_no_progress (with_reducible apply Keep.other hK.toKeep) | (dsimp +zetaDelta only)
theorem State.duckFrame_stable {P : State → Prop} (hK : KeepCore P) (s : State) (o : Nat) (hsK : P s) : P (State.duckFrame s o) := by
  unfold State.duckFrame
  repeat' first
    | with_reducible assumption | (with_reducible refine fst_stable (by assumption) ?_) | (intro _ _ _) | (intro _ _)
    | with_reducible apply foldl_stable | with_reducible apply foldl_fst_stable | with_reducible apply overN_stable | extract_lets
    | with_reducible apply ite_stable | with_reducible apply ite_fst_stable | split | fail_if_no_progress (with_reducible apply KeepCore.other hK)
    | (dsimp +zetaDelta only)
theorem State.audioSaving_stable {P : State → Prop} (hK : KeepUnits P) (s : State) (hsK : P s) : P (State.audioSaving s) := by
  unfold State.audioSaving
  repeat' first
    | with_reducible assumption | (with_reducible refine fst_stable (by assumption) ?_) | with_reducible apply State.emit_stable hK.toKeepCore
    | with_reducible apply State.hapIdle_stable hK | (intro _ _ _) | (intro _ _) | with_reducible apply foldl_stable
    | with_reducible apply foldl_fst_stable | with_reducible apply overN_stable | extract_lets | with_reducible apply ite_stable
    | with_reducible apply ite_fst_stable | split | fail_if_no_progress (with_reducible apply KeepUnits.other hK) | (dsimp +zetaDelta only)
theorem execTdmFrame_stable {P : State → Prop} (hK : KeepUnits P) (rx0 rx1 : List W32) (ok0 ok1 : Bool) (slip : Fin 3) (s : State) (hsK : P s) :
    ∃ r_, execTdmFrame rx0 rx1 ok0 ok1 slip s = .next r_ ∧ P r_ := by
  unfold execTdmFrame
  refine ⟨_, rfl, ?_⟩
  repeat' first
    | with_reducible assumption | (with_reducible refine fst_stable (by assumption) ?_) | with_reducible apply State.wr_stable hK.toKeepCore
    | with_reducible apply State.emit_stable hK.toKeepCore | with_reducible apply State.bumpErr_stable hK.toKeepCore
    | with_reducible apply State.begin_stable hK.toKeepCore | with_reducible apply State.guard_stable hK.toKeepCore
    | with_reducible apply State.modCap_stable hK | with_reducible apply State.duckFrame_stable hK.toKeepCore
    | with_reducible apply State.audioSaving_stable hK | (intro _ _ _) | (intro _ _) | with_reducible apply foldl_stable
    | with_reducible apply foldl_fst_stable | with_reducible apply overN_stable | extract_lets | with_reducible apply ite_stable
    | with_reducible apply ite_fst_stable | split | fail_if_no_progress (with_reducible apply KeepUnits.other hK) | (dsimp +zetaDelta only)

end Sys2Proof.Machine
end

