-- ==== Sys2Proof/Laws/StableStore.lean ====
section
/-! SUPPORT. Laws/StableStore.lean: every operation keeps a stable property: non-volatile memory, records, saves, memory channels. -/
set_option linter.all false
namespace Sys2Proof.Machine

/-! ### Machine/Nvm.lean -/

theorem execSramScrubStep_stable {P : State → Prop} (hK : KeepSys P) (late : Bool) (upsets : List (BitVec 36 × Bool)) (s : State) (hsK : P s) :
    ∃ r_, execSramScrubStep late upsets s = .next r_ ∧ P r_ := by
  unfold execSramScrubStep
  refine ⟨_, rfl, ?_⟩
  repeat' first
    | with_reducible assumption | (with_reducible refine fst_stable (by assumption) ?_) | with_reducible apply State.wr_stable hK.toKeepCore
    | with_reducible apply State.bumpEv_stable hK.toKeepCore | with_reducible apply State.bumpErr_stable hK.toKeepCore
    | with_reducible apply State.begin_stable hK.toKeepCore | with_reducible apply State.guard_stable hK.toKeepCore
    | with_reducible apply State.upset_stable hK.toKeepCore | with_reducible apply State.scrubBlock_stable hK | (intro _ _ _) | (intro _ _)
    | with_reducible apply foldl_stable | with_reducible apply foldl_fst_stable | with_reducible apply overN_stable | extract_lets
    | with_reducible apply ite_stable | with_reducible apply ite_fst_stable | split | fail_if_no_progress (with_reducible apply KeepSys.other hK)
    | (dsimp +zetaDelta only)
theorem State.modNvm_stable {P : State → Prop} (hK : KeepSys P) (s : State) (f : NvmSt → NvmSt) (hsK : P s) : P (State.modNvm s f) := by
  unfold State.modNvm
  repeat' first
    | with_reducible assumption | (with_reducible refine fst_stable (by assumption) ?_) | (intro _ _ _) | (intro _ _)
    | with_reducible apply foldl_stable | with_reducible apply foldl_fst_stable | with_reducible apply overN_stable | extract_lets
    | with_reducible apply ite_stable | with_reducible apply ite_fst_stable | split | fail_if_no_progress (with_reducible apply KeepSys.other hK)
    | (dsimp +zetaDelta only)
theorem State.showNvm_stable {P : State → Prop} (hK : KeepCore P) (s : State) (hsK : P s) : P (State.showNvm s) := by
  unfold State.showNvm
  repeat' first
    | with_reducible assumption | (with_reducible refine fst_stable (by assumption) ?_) | with_reducible apply State.wr_stable hK | (intro _ _ _)
    | (intro _ _) | with_reducible apply foldl_stable | with_reducible apply foldl_fst_stable | with_reducible apply overN_stable | extract_lets
    | with_reducible apply ite_stable | with_reducible apply ite_fst_stable | split | fail_if_no_progress (with_reducible apply KeepCore.other hK)
    | (dsimp +zetaDelta only)
theorem State.eraseSector_stable {P : State → Prop} (hK : Stable P) (s : State) (k : Nat) (hsK : P s) : P (State.eraseSector s k) := by
  unfold State.eraseSector
  repeat' first
    | with_reducible assumption | (with_reducible refine fst_stable (by assumption) ?_)
    | with_reducible apply State.bumpEv_stable hK.toKeep.toKeepCore | with_reducible apply State.bumpErr_stable hK.toKeep.toKeepCore
    | with_reducible apply State.kevt_stable hK.toKeep.toKeepCore | with_reducible apply State.envKeep_stable hK
    | with_reducible apply State.modNvm_stable hK.toKeep.toKeepSys | with_reducible apply State.showNvm_stable hK.toKeep.toKeepCore | (intro _ _ _)
    | (intro _ _) | with_reducible apply foldl_stable | with_reducible apply foldl_fst_stable | with_reducible apply overN_stable | extract_lets
    | with_reducible apply ite_stable | with_reducible apply ite_fst_stable | split
    | fail_if_no_progress (with_reducible apply Keep.other hK.toKeep) | (dsimp +zetaDelta only)
theorem State.programLine_stable {P : State → Prop} (hK : Stable P) (s : State) (place : Nat) (b : List Byte) (hsK : P s) :
    P (State.programLine s place b) := by
  unfold State.programLine
  repeat' first
    | with_reducible assumption | (with_reducible refine fst_stable (by assumption) ?_) | with_reducible apply State.envWrite_stable hK
    | with_reducible apply State.modNvm_stable hK.toKeep.toKeepSys | with_reducible apply State.showNvm_stable hK.toKeep.toKeepCore | (intro _ _ _)
    | (intro _ _) | with_reducible apply foldl_stable | with_reducible apply foldl_fst_stable | with_reducible apply overN_stable | extract_lets
    | with_reducible apply ite_stable | with_reducible apply ite_fst_stable | split
    | fail_if_no_progress (with_reducible apply Keep.other hK.toKeep) | (dsimp +zetaDelta only)
theorem State.wrNvmCmd_stable {P : State → Prop} (hK : KeepSys P) (s : State) (w : W64) (hsK : P s) : P (State.wrNvmCmd s w) := by
  unfold State.wrNvmCmd
  repeat' first
    | with_reducible assumption | (with_reducible refine fst_stable (by assumption) ?_) | with_reducible apply State.wr_stable hK.toKeepCore
    | with_reducible apply State.refuse_stable hK.toKeepCore | with_reducible apply State.modNvm_stable hK | (intro _ _ _) | (intro _ _)
    | with_reducible apply foldl_stable | with_reducible apply foldl_fst_stable | with_reducible apply overN_stable | extract_lets
    | with_reducible apply ite_stable | with_reducible apply ite_fst_stable | split | fail_if_no_progress (with_reducible apply KeepSys.other hK)
    | (dsimp +zetaDelta only)
theorem execErase_stable {P : State → Prop} (hK : KeepSys P) (who : Who) (sector : BitVec 8) (s : State) (hsK : P s) :
    ∃ r_, execErase who sector s = .next r_ ∧ P r_ := by
  unfold execErase
  refine ⟨_, rfl, ?_⟩
  repeat' first
    | with_reducible assumption | (with_reducible refine fst_stable (by assumption) ?_) | with_reducible apply State.begin_stable hK.toKeepCore
    | with_reducible apply State.write_stable hK.toKeepCore | with_reducible apply State.wrNvmCmd_stable hK | (intro _ _ _) | (intro _ _)
    | with_reducible apply foldl_stable | with_reducible apply foldl_fst_stable | with_reducible apply overN_stable | extract_lets
    | with_reducible apply ite_stable | with_reducible apply ite_fst_stable | split | fail_if_no_progress (with_reducible apply KeepSys.other hK)
    | (dsimp +zetaDelta only)
theorem execProgram_stable {P : State → Prop} (hK : KeepSys P) (who : Who) (sector : BitVec 8) (s : State) (hsK : P s) :
    ∃ r_, execProgram who sector s = .next r_ ∧ P r_ := by
  unfold execProgram
  refine ⟨_, rfl, ?_⟩
  repeat' first
    | with_reducible assumption | (with_reducible refine fst_stable (by assumption) ?_) | with_reducible apply State.begin_stable hK.toKeepCore
    | with_reducible apply State.write_stable hK.toKeepCore | with_reducible apply State.wrNvmCmd_stable hK | (intro _ _ _) | (intro _ _)
    | with_reducible apply foldl_stable | with_reducible apply foldl_fst_stable | with_reducible apply overN_stable | extract_lets
    | with_reducible apply ite_stable | with_reducible apply ite_fst_stable | split | fail_if_no_progress (with_reducible apply KeepSys.other hK)
    | (dsimp +zetaDelta only)
theorem execBlankCheck_stable {P : State → Prop} (hK : KeepSys P) (who : Who) (sector : BitVec 8) (s : State) (hsK : P s) :
    ∃ r_, execBlankCheck who sector s = .next r_ ∧ P r_ := by
  unfold execBlankCheck
  refine ⟨_, rfl, ?_⟩
  repeat' first
    | with_reducible assumption | (with_reducible refine fst_stable (by assumption) ?_) | with_reducible apply State.begin_stable hK.toKeepCore
    | with_reducible apply State.write_stable hK.toKeepCore | with_reducible apply State.wrNvmCmd_stable hK | (intro _ _ _) | (intro _ _)
    | with_reducible apply foldl_stable | with_reducible apply foldl_fst_stable | with_reducible apply overN_stable | extract_lets
    | with_reducible apply ite_stable | with_reducible apply ite_fst_stable | split | fail_if_no_progress (with_reducible apply KeepSys.other hK)
    | (dsimp +zetaDelta only)
theorem State.serveReads_stable {P : State → Prop} (hK : KeepSys P) (s : State) (hsK : P s) : P (State.serveReads s) := by
  unfold State.serveReads
  repeat' first
    | with_reducible assumption | (with_reducible refine fst_stable (by assumption) ?_) | with_reducible apply State.emit_stable hK.toKeepCore
    | with_reducible apply State.modNvm_stable hK | (intro _ _ _) | (intro _ _) | with_reducible apply foldl_stable
    | with_reducible apply foldl_fst_stable | with_reducible apply overN_stable | extract_lets | with_reducible apply ite_stable
    | with_reducible apply ite_fst_stable | split | fail_if_no_progress (with_reducible apply KeepSys.other hK) | (dsimp +zetaDelta only)
theorem State.nvmDone_stable {P : State → Prop} (hK : Stable P) (s : State) (o : NvmOp) (fail : Bool) (hsK : P s) :
    P (State.nvmDone s o fail) := by
  unfold State.nvmDone
  repeat' first
    | with_reducible assumption | (with_reducible refine fst_stable (by assumption) ?_) | with_reducible apply State.wr_stable hK.toKeep.toKeepCore
    | with_reducible apply State.useFreeN_stable hK.toKeep.toKeepCore | with_reducible apply State.envWrite_stable hK
    | with_reducible apply State.modNvm_stable hK.toKeep.toKeepSys | with_reducible apply State.eraseSector_stable hK
    | with_reducible apply State.programLine_stable hK | (intro _ _ _) | (intro _ _) | with_reducible apply foldl_stable
    | with_reducible apply foldl_fst_stable | with_reducible apply overN_stable | extract_lets | with_reducible apply ite_stable
    | with_reducible apply ite_fst_stable | split | fail_if_no_progress (with_reducible apply Keep.other hK.toKeep) | (dsimp +zetaDelta only)
theorem execNvmOperationDone_stable {P : State → Prop} (hK : Stable P) (fail : Bool) (s : State) (hsK : P s) :
    ∃ r_, execNvmOperationDone fail s = .next r_ ∧ P r_ := by
  unfold execNvmOperationDone
  refine ⟨_, rfl, ?_⟩
  repeat' first
    | with_reducible assumption | (with_reducible refine fst_stable (by assumption) ?_) | with_reducible apply State.begin_stable hK.toKeep.toKeepCore
    | with_reducible apply State.serveReads_stable hK.toKeep.toKeepSys | with_reducible apply State.nvmDone_stable hK | (intro _ _ _) | (intro _ _)
    | with_reducible apply foldl_stable | with_reducible apply foldl_fst_stable | with_reducible apply overN_stable | extract_lets
    | with_reducible apply ite_stable | with_reducible apply ite_fst_stable | split
    | fail_if_no_progress (with_reducible apply Keep.other hK.toKeep) | (dsimp +zetaDelta only)
theorem State.wearSpoil_stable {P : State → Prop} (hK : KeepSys P) (s : State) (copy : Nat) (hsK : P s) : P (State.wearSpoil s copy) := by
  unfold State.wearSpoil
  repeat' first
    | with_reducible assumption | (with_reducible refine fst_stable (by assumption) ?_) | with_reducible apply State.modNvm_stable hK
    | (intro _ _ _) | (intro _ _) | with_reducible apply foldl_stable | with_reducible apply foldl_fst_stable | with_reducible apply overN_stable
    | extract_lets | with_reducible apply ite_stable | with_reducible apply ite_fst_stable | split
    | fail_if_no_progress (with_reducible apply KeepSys.other hK) | (dsimp +zetaDelta only)
theorem State.wearPrep_stable {P : State → Prop} (hK : Stable P) (s : State) (copy : Nat) (hsK : P s) : P (State.wearPrep s copy) := by
  unfold State.wearPrep
  repeat' first
    | with_reducible assumption | (with_reducible refine fst_stable (by assumption) ?_) | with_reducible apply State.eraseSector_stable hK
    | with_reducible apply State.wearSpoil_stable hK.toKeep.toKeepSys | (intro _ _ _) | (intro _ _) | with_reducible apply foldl_stable
    | with_reducible apply foldl_fst_stable | with_reducible apply overN_stable | extract_lets | with_reducible apply ite_stable
    | with_reducible apply ite_fst_stable | split | fail_if_no_progress (with_reducible apply Keep.other hK.toKeep) | (dsimp +zetaDelta only)
theorem State.wearPut_stable {P : State → Prop} (hK : Stable P) (s : State) (copy n : Nat) (ok : Bool) (hsK : P s) :
    P (State.wearPut s copy n ok) := by
  unfold State.wearPut
  repeat' first
    | with_reducible assumption | (with_reducible refine fst_stable (by assumption) ?_)
    | with_reducible apply State.useFreeN_stable hK.toKeep.toKeepCore | with_reducible apply State.modNvm_stable hK.toKeep.toKeepSys
    | with_reducible apply State.programLine_stable hK | with_reducible apply State.wearSpoil_stable hK.toKeep.toKeepSys | (intro _ _ _) | (intro _ _)
    | with_reducible apply foldl_stable | with_reducible apply foldl_fst_stable | with_reducible apply overN_stable | extract_lets
    | with_reducible apply ite_stable | with_reducible apply ite_fst_stable | split
    | fail_if_no_progress (with_reducible apply Keep.other hK.toKeep) | (dsimp +zetaDelta only)
theorem State.wearLines_stable {P : State → Prop} (hK : Stable P) (s : State) (n : Nat) (ok : Bool) (hsK : P s) :
    P (State.wearLines s n ok) := by
  unfold State.wearLines
  repeat' first
    | with_reducible assumption | (with_reducible refine fst_stable (by assumption) ?_) | with_reducible apply State.wearPrep_stable hK
    | with_reducible apply State.wearPut_stable hK | (intro _ _ _) | (intro _ _) | with_reducible apply foldl_stable
    | with_reducible apply foldl_fst_stable | with_reducible apply overN_stable | extract_lets | with_reducible apply ite_stable
    | with_reducible apply ite_fst_stable | split | fail_if_no_progress (with_reducible apply Keep.other hK.toKeep) | (dsimp +zetaDelta only)
theorem State.wearUpdate_stable {P : State → Prop} (hK : Stable P) (s : State) (hsK : P s) : P (State.wearUpdate s) := by
  unfold State.wearUpdate
  repeat' first
    | with_reducible assumption | (with_reducible refine fst_stable (by assumption) ?_) | with_reducible apply State.wearLines_stable hK
    | (intro _ _ _) | (intro _ _) | with_reducible apply foldl_stable | with_reducible apply foldl_fst_stable | with_reducible apply overN_stable
    | extract_lets | with_reducible apply ite_stable | with_reducible apply ite_fst_stable | split
    | fail_if_no_progress (with_reducible apply Keep.other hK.toKeep) | (dsimp +zetaDelta only)
theorem execWearMapUpdate_stable {P : State → Prop} (hK : Stable P) (s : State) (hsK : P s) : ∃ r_, execWearMapUpdate s = .next r_ ∧ P r_ := by
  unfold execWearMapUpdate
  refine ⟨_, rfl, ?_⟩
  repeat' first
    | with_reducible assumption | (with_reducible refine fst_stable (by assumption) ?_) | with_reducible apply State.begin_stable hK.toKeep.toKeepCore
    | with_reducible apply State.guard_stable hK.toKeep.toKeepCore | with_reducible apply State.wearUpdate_stable hK | (intro _ _ _) | (intro _ _)
    | with_reducible apply foldl_stable | with_reducible apply foldl_fst_stable | with_reducible apply overN_stable | extract_lets
    | with_reducible apply ite_stable | with_reducible apply ite_fst_stable | split
    | fail_if_no_progress (with_reducible apply Keep.other hK.toKeep) | (dsimp +zetaDelta only)
theorem State.cacheTouch_stable {P : State → Prop} (hK : KeepSys P) (s : State) (l : List Nat) (hsK : P s) : P (State.cacheTouch s l) := by
  unfold State.cacheTouch
  repeat' first
    | with_reducible assumption | (with_reducible refine fst_stable (by assumption) ?_) | with_reducible apply State.useFreeN_stable hK.toKeepCore
    | with_reducible apply State.touchWords_stable hK | with_reducible apply State.unitGrainBad_stable hK.toKeepCore | (intro _ _ _) | (intro _ _)
    | with_reducible apply foldl_stable | with_reducible apply foldl_fst_stable | with_reducible apply overN_stable | extract_lets
    | with_reducible apply ite_stable | with_reducible apply ite_fst_stable | split | fail_if_no_progress (with_reducible apply KeepSys.other hK)
    | (dsimp +zetaDelta only)
theorem State.cacheWrite_stable {P : State → Prop} (hK : Stable P) (s : State) (i pos : Nat) (b : List Byte) (hsK : P s) :
    P (State.cacheWrite s i pos b) := by
  unfold State.cacheWrite
  repeat' first
    | with_reducible assumption | (with_reducible refine fst_stable (by assumption) ?_) | with_reducible apply State.memStore_stable hK
    | with_reducible apply State.unitGrainBad_stable hK.toKeep.toKeepCore | (intro _ _ _) | (intro _ _) | with_reducible apply foldl_stable
    | with_reducible apply foldl_fst_stable | with_reducible apply overN_stable | extract_lets | with_reducible apply ite_stable
    | with_reducible apply ite_fst_stable | split | fail_if_no_progress (with_reducible apply Keep.other hK.toKeep) | (dsimp +zetaDelta only)
theorem State.logPut_stable {P : State → Prop} (hK : Stable P) (s : State) (l : Nat) (recs : List (List Byte)) (hsK : P s) :
    P (State.logPut s l recs) := by
  unfold State.logPut
  repeat' first
    | with_reducible assumption | (with_reducible refine fst_stable (by assumption) ?_)
    | with_reducible apply State.useFreeN_stable hK.toKeep.toKeepCore | with_reducible apply State.modNvm_stable hK.toKeep.toKeepSys
    | with_reducible apply State.programLine_stable hK | (intro _ _ _) | (intro _ _) | with_reducible apply foldl_stable
    | with_reducible apply foldl_fst_stable | with_reducible apply overN_stable | extract_lets | with_reducible apply ite_stable
    | with_reducible apply ite_fst_stable | split | fail_if_no_progress (with_reducible apply Keep.other hK.toKeep) | (dsimp +zetaDelta only)
theorem State.logWrite_stable {P : State → Prop} (hK : Stable P) (s : State) (recs : List (List Byte)) (hsK : P s) :
    P (State.logWrite s recs) := by
  unfold State.logWrite
  repeat' first
    | with_reducible assumption | (with_reducible refine fst_stable (by assumption) ?_) | with_reducible apply State.logPut_stable hK
    | (intro _ _ _) | (intro _ _) | with_reducible apply foldl_stable | with_reducible apply foldl_fst_stable | with_reducible apply overN_stable
    | extract_lets | with_reducible apply ite_stable | with_reducible apply ite_fst_stable | split
    | fail_if_no_progress (with_reducible apply Keep.other hK.toKeep) | (dsimp +zetaDelta only)
theorem State.flushBegin_stable {P : State → Prop} (hK : KeepSys P) (s : State) (hsK : P s) : P (State.flushBegin s) := by
  unfold State.flushBegin
  repeat' first
    | with_reducible assumption | (with_reducible refine fst_stable (by assumption) ?_) | with_reducible apply State.modNvm_stable hK
    | with_reducible apply State.cacheTouch_stable hK | (intro _ _ _) | (intro _ _) | with_reducible apply foldl_stable
    | with_reducible apply foldl_fst_stable | with_reducible apply overN_stable | extract_lets | with_reducible apply ite_stable
    | with_reducible apply ite_fst_stable | split | fail_if_no_progress (with_reducible apply KeepSys.other hK) | (dsimp +zetaDelta only)
theorem State.flushEnd_stable {P : State → Prop} (hK : Stable P) (s : State) (hsK : P s) : P (State.flushEnd s) := by
  unfold State.flushEnd
  repeat' first
    | with_reducible assumption | (with_reducible refine fst_stable (by assumption) ?_) | with_reducible apply State.modNvm_stable hK.toKeep.toKeepSys
    | with_reducible apply State.serveReads_stable hK.toKeep.toKeepSys | with_reducible apply State.cacheTouch_stable hK.toKeep.toKeepSys
    | with_reducible apply State.cacheWrite_stable hK | with_reducible apply State.logPut_stable hK | (intro _ _ _) | (intro _ _)
    | with_reducible apply foldl_stable | with_reducible apply foldl_fst_stable | with_reducible apply overN_stable | extract_lets
    | with_reducible apply ite_stable | with_reducible apply ite_fst_stable | split
    | fail_if_no_progress (with_reducible apply Keep.other hK.toKeep) | (dsimp +zetaDelta only)
theorem execPstoreFlush_stable {P : State → Prop} (hK : Stable P) (s : State) (hsK : P s) : ∃ r_, execPstoreFlush s = .next r_ ∧ P r_ := by
  unfold execPstoreFlush
  refine ⟨_, rfl, ?_⟩
  repeat' first
    | with_reducible assumption | (with_reducible refine fst_stable (by assumption) ?_) | with_reducible apply State.begin_stable hK.toKeep.toKeepCore
    | with_reducible apply State.guard_stable hK.toKeep.toKeepCore | with_reducible apply State.flushBegin_stable hK.toKeep.toKeepSys
    | with_reducible apply State.flushEnd_stable hK | (intro _ _ _) | (intro _ _) | with_reducible apply foldl_stable
    | with_reducible apply foldl_fst_stable | with_reducible apply overN_stable | extract_lets | with_reducible apply ite_stable
    | with_reducible apply ite_fst_stable | split | fail_if_no_progress (with_reducible apply Keep.other hK.toKeep) | (dsimp +zetaDelta only)
theorem State.logAll_stable {P : State → Prop} (hK : Stable P) (s : State) (recs : List (List Byte)) (hsK : P s) : P (State.logAll s recs) := by
  unfold State.logAll
  repeat' first
    | with_reducible assumption | (with_reducible refine fst_stable (by assumption) ?_) | with_reducible apply State.logWrite_stable hK
    | (intro _ _ _) | (intro _ _) | with_reducible apply foldl_stable | with_reducible apply foldl_fst_stable | with_reducible apply overN_stable
    | extract_lets | with_reducible apply ite_stable | with_reducible apply ite_fst_stable | split
    | fail_if_no_progress (with_reducible apply Keep.other hK.toKeep) | (dsimp +zetaDelta only)
theorem State.compactSector_stable {P : State → Prop} (hK : Stable P) (s : State) (k : Nat) (hsK : P s) : P (State.compactSector s k) := by
  unfold State.compactSector
  repeat' first
    | with_reducible assumption | (with_reducible refine fst_stable (by assumption) ?_) | with_reducible apply State.eraseSector_stable hK
    | with_reducible apply State.logAll_stable hK | (intro _ _ _) | (intro _ _) | with_reducible apply foldl_stable
    | with_reducible apply foldl_fst_stable | with_reducible apply overN_stable | extract_lets | with_reducible apply ite_stable
    | with_reducible apply ite_fst_stable | split | fail_if_no_progress (with_reducible apply Keep.other hK.toKeep) | (dsimp +zetaDelta only)
theorem execLogCompaction_stable {P : State → Prop} (hK : Stable P) (s : State) (hsK : P s) : ∃ r_, execLogCompaction s = .next r_ ∧ P r_ := by
  unfold execLogCompaction
  refine ⟨_, rfl, ?_⟩
  repeat' first
    | with_reducible assumption | (with_reducible refine fst_stable (by assumption) ?_) | with_reducible apply State.begin_stable hK.toKeep.toKeepCore
    | with_reducible apply State.guard_stable hK.toKeep.toKeepCore | with_reducible apply State.compactSector_stable hK | (intro _ _ _) | (intro _ _)
    | with_reducible apply foldl_stable | with_reducible apply foldl_fst_stable | with_reducible apply overN_stable | extract_lets
    | with_reducible apply ite_stable | with_reducible apply ite_fst_stable | split
    | fail_if_no_progress (with_reducible apply Keep.other hK.toKeep) | (dsimp +zetaDelta only)
theorem State.cacheRebuild_stable {P : State → Prop} (hK : Stable P) (s : State) (hsK : P s) : P (State.cacheRebuild s) := by
  unfold State.cacheRebuild
  repeat' first
    | with_reducible assumption | (with_reducible refine fst_stable (by assumption) ?_)
    | with_reducible apply State.bumpErrN_stable hK.toKeep.toKeepCore | with_reducible apply State.unitGrainBad_stable hK.toKeep.toKeepCore
    | with_reducible apply State.cacheWrite_stable hK | (intro _ _ _) | (intro _ _) | with_reducible apply foldl_stable
    | with_reducible apply foldl_fst_stable | with_reducible apply overN_stable | extract_lets | with_reducible apply ite_stable
    | with_reducible apply ite_fst_stable | split | fail_if_no_progress (with_reducible apply Keep.other hK.toKeep) | (dsimp +zetaDelta only)
theorem State.lookTouch_stable {P : State → Prop} (hK : KeepSys P) (s : State) (key : Nat) (hsK : P s) : P (State.lookTouch s key) := by
  unfold State.lookTouch
  repeat' first
    | with_reducible assumption | (with_reducible refine fst_stable (by assumption) ?_) | with_reducible apply State.cacheTouch_stable hK
    | (intro _ _ _) | (intro _ _) | with_reducible apply foldl_stable | with_reducible apply foldl_fst_stable | with_reducible apply overN_stable
    | extract_lets | with_reducible apply ite_stable | with_reducible apply ite_fst_stable | split
    | fail_if_no_progress (with_reducible apply KeepSys.other hK) | (dsimp +zetaDelta only)
theorem State.recStore_stable {P : State → Prop} (hK : Stable P) (s : State) (key : Nat) (valid : Bool) (data : List Byte) (hsK : P s) :
    P (State.recStore s key valid data) := by
  unfold State.recStore
  repeat' first
    | with_reducible assumption | (with_reducible refine fst_stable (by assumption) ?_) | with_reducible apply State.cacheWrite_stable hK
    | with_reducible apply State.lookTouch_stable hK.toKeep.toKeepSys | (intro _ _ _) | (intro _ _) | with_reducible apply foldl_stable
    | with_reducible apply foldl_fst_stable | with_reducible apply overN_stable | extract_lets | with_reducible apply ite_stable
    | with_reducible apply ite_fst_stable | split | fail_if_no_progress (with_reducible apply Keep.other hK.toKeep) | (dsimp +zetaDelta only)
theorem State.wrPstore_stable {P : State → Prop} (hK : KeepCore P) (s : State) (w : W64) (hsK : P s) : P (State.wrPstore s w) := by
  unfold State.wrPstore
  repeat' first
    | with_reducible assumption | (with_reducible refine fst_stable (by assumption) ?_) | with_reducible apply State.settingWrite_stable hK
    | with_reducible apply State.msrCompare_stable hK | (intro _ _ _) | (intro _ _) | with_reducible apply foldl_stable
    | with_reducible apply foldl_fst_stable | with_reducible apply overN_stable | extract_lets | with_reducible apply ite_stable
    | with_reducible apply ite_fst_stable | split | fail_if_no_progress (with_reducible apply KeepCore.other hK) | (dsimp +zetaDelta only)
theorem State.wrPcacheCfg_stable {P : State → Prop} (hK : KeepCore P) (s : State) (w : W64) (hsK : P s) : P (State.wrPcacheCfg s w) := by
  unfold State.wrPcacheCfg
  repeat' first
    | with_reducible assumption | (with_reducible refine fst_stable (by assumption) ?_) | with_reducible apply State.refuse_stable hK
    | with_reducible apply State.settingWrite_stable hK | (intro _ _ _) | (intro _ _) | with_reducible apply foldl_stable
    | with_reducible apply foldl_fst_stable | with_reducible apply overN_stable | extract_lets | with_reducible apply ite_stable
    | with_reducible apply ite_fst_stable | split | fail_if_no_progress (with_reducible apply KeepCore.other hK) | (dsimp +zetaDelta only)

/-! ### Machine/Dict.lean -/

theorem State.modSm_stable {P : State → Prop} (hK : KeepSys P) (s : State) (f : SmSt → SmSt) (hsK : P s) : P (State.modSm s f) := by
  unfold State.modSm
  repeat' first
    | with_reducible assumption | (with_reducible refine fst_stable (by assumption) ?_) | (intro _ _ _) | (intro _ _)
    | with_reducible apply foldl_stable | with_reducible apply foldl_fst_stable | with_reducible apply overN_stable | extract_lets
    | with_reducible apply ite_stable | with_reducible apply ite_fst_stable | split | fail_if_no_progress (with_reducible apply KeepSys.other hK)
    | (dsimp +zetaDelta only)
theorem State.setDval_stable {P : State → Prop} (hK : KeepSys P) (s : State) (key : Nat) (b : List Byte) (hsK : P s) :
    P (State.setDval s key b) := by
  unfold State.setDval
  repeat' first
    | with_reducible assumption | (with_reducible refine fst_stable (by assumption) ?_) | with_reducible apply State.modSm_stable hK
    | (intro _ _ _) | (intro _ _) | with_reducible apply foldl_stable | with_reducible apply foldl_fst_stable | with_reducible apply overN_stable
    | extract_lets | with_reducible apply ite_stable | with_reducible apply ite_fst_stable | split
    | fail_if_no_progress (with_reducible apply KeepSys.other hK) | (dsimp +zetaDelta only)
theorem State.factoryDefaults_stable {P : State → Prop} (hK : Stable P) (s : State) (hsK : P s) : P (State.factoryDefaults s) := by
  unfold State.factoryDefaults
  repeat' first
    | with_reducible assumption | (with_reducible refine fst_stable (by assumption) ?_) | with_reducible apply State.modNvm_stable hK.toKeep.toKeepSys
    | with_reducible apply State.lookTouch_stable hK.toKeep.toKeepSys | with_reducible apply State.recStore_stable hK | (intro _ _ _) | (intro _ _)
    | with_reducible apply foldl_stable | with_reducible apply foldl_fst_stable | with_reducible apply overN_stable | extract_lets
    | with_reducible apply ite_stable | with_reducible apply ite_fst_stable | split
    | fail_if_no_progress (with_reducible apply Keep.other hK.toKeep) | (dsimp +zetaDelta only)
theorem State.loadEntry_stable {P : State → Prop} (hK : KeepSys P) (s : State) (key : Nat) (hsK : P s) : P (State.loadEntry s key) := by
  unfold State.loadEntry
  repeat' first
    | with_reducible assumption | (with_reducible refine fst_stable (by assumption) ?_) | with_reducible apply State.bumpErr_stable hK.toKeepCore
    | with_reducible apply State.lookTouch_stable hK | with_reducible apply State.modSm_stable hK | (intro _ _ _) | (intro _ _)
    | with_reducible apply foldl_stable | with_reducible apply foldl_fst_stable | with_reducible apply overN_stable | extract_lets
    | with_reducible apply ite_stable | with_reducible apply ite_fst_stable | split | fail_if_no_progress (with_reducible apply KeepSys.other hK)
    | (dsimp +zetaDelta only)
theorem State.loadRwp_stable {P : State → Prop} (hK : Stable P) (s : State) (hsK : P s) : P (State.loadRwp s) := by
  unfold State.loadRwp
  repeat' first
    | with_reducible assumption | (with_reducible refine fst_stable (by assumption) ?_) | with_reducible apply State.factoryDefaults_stable hK
    | with_reducible apply State.loadEntry_stable hK.toKeep.toKeepSys | (intro _ _ _) | (intro _ _) | with_reducible apply foldl_stable
    | with_reducible apply foldl_fst_stable | with_reducible apply overN_stable | extract_lets | with_reducible apply ite_stable
    | with_reducible apply ite_fst_stable | split | fail_if_no_progress (with_reducible apply Keep.other hK.toKeep) | (dsimp +zetaDelta only)
theorem State.startCounter_stable {P : State → Prop} (hK : Stable P) (s : State) (sub : Nat) (hsK : P s) : P (State.startCounter s sub) := by
  unfold State.startCounter
  repeat' first
    | with_reducible assumption | (with_reducible refine fst_stable (by assumption) ?_) | with_reducible apply State.recStore_stable hK
    | (intro _ _ _) | (intro _ _) | with_reducible apply foldl_stable | with_reducible apply foldl_fst_stable | with_reducible apply overN_stable
    | extract_lets | with_reducible apply ite_stable | with_reducible apply ite_fst_stable | split
    | fail_if_no_progress (with_reducible apply Keep.other hK.toKeep) | (dsimp +zetaDelta only)

/-! ### Machine/Save.lean -/

theorem State.saveTouch_stable {P : State → Prop} (hK : KeepSys P) (s : State) (hsK : P s) : P (State.saveTouch s) := by
  unfold State.saveTouch
  repeat' first
    | with_reducible assumption | (with_reducible refine fst_stable (by assumption) ?_) | with_reducible apply State.ringTouch_stable hK
    | with_reducible apply State.cacheTouch_stable hK | (intro _ _ _) | (intro _ _) | with_reducible apply foldl_stable
    | with_reducible apply foldl_fst_stable | with_reducible apply overN_stable | extract_lets | with_reducible apply ite_stable
    | with_reducible apply ite_fst_stable | split | fail_if_no_progress (with_reducible apply KeepSys.other hK) | (dsimp +zetaDelta only)
theorem State.modOp_stable {P : State → Prop} (hK : KeepSys P) (s : State) (k : Nat) (f : OpSt → OpSt) (hsK : P s) : P (State.modOp s k f) := by
  unfold State.modOp
  repeat' first
    | with_reducible assumption | (with_reducible refine fst_stable (by assumption) ?_) | with_reducible apply State.modSm_stable hK
    | (intro _ _ _) | (intro _ _) | with_reducible apply foldl_stable | with_reducible apply foldl_fst_stable | with_reducible apply overN_stable
    | extract_lets | with_reducible apply ite_stable | with_reducible apply ite_fst_stable | split
    | fail_if_no_progress (with_reducible apply KeepSys.other hK) | (dsimp +zetaDelta only)
theorem State.saveLosses_stable {P : State → Prop} (hK : KeepCore P) (s : State) (hsK : P s) : P (State.saveLosses s) := by
  unfold State.saveLosses
  repeat' first
    | with_reducible assumption | (with_reducible refine fst_stable (by assumption) ?_) | with_reducible apply State.bumpErrN_stable hK
    | (intro _ _ _) | (intro _ _) | with_reducible apply foldl_stable | with_reducible apply foldl_fst_stable | with_reducible apply overN_stable
    | extract_lets | with_reducible apply ite_stable | with_reducible apply ite_fst_stable | split
    | fail_if_no_progress (with_reducible apply KeepCore.other hK) | (dsimp +zetaDelta only)
theorem State.programSave_stable {P : State → Prop} (hK : Stable P) (s : State) (r : SaveRun) (n : Nat) (ok : Bool) (hsK : P s) :
    P (State.programSave s r n ok) := by
  unfold State.programSave
  repeat' first
    | with_reducible assumption | (with_reducible refine fst_stable (by assumption) ?_) | with_reducible apply State.modNvm_stable hK.toKeep.toKeepSys
    | with_reducible apply State.programLine_stable hK | with_reducible apply State.wearLines_stable hK | (intro _ _ _) | (intro _ _)
    | with_reducible apply foldl_stable | with_reducible apply foldl_fst_stable | with_reducible apply overN_stable | extract_lets
    | with_reducible apply ite_stable | with_reducible apply ite_fst_stable | split
    | fail_if_no_progress (with_reducible apply Keep.other hK.toKeep) | (dsimp +zetaDelta only)
theorem State.spoilLine_stable {P : State → Prop} (hK : Stable P) (s : State) (place : Nat) (hsK : P s) : P (State.spoilLine s place) := by
  unfold State.spoilLine
  repeat' first
    | with_reducible assumption | (with_reducible refine fst_stable (by assumption) ?_)
    | with_reducible apply State.useFreeN_stable hK.toKeep.toKeepCore | with_reducible apply State.envWrite_stable hK | (intro _ _ _) | (intro _ _)
    | with_reducible apply foldl_stable | with_reducible apply foldl_fst_stable | with_reducible apply overN_stable | extract_lets
    | with_reducible apply ite_stable | with_reducible apply ite_fst_stable | split
    | fail_if_no_progress (with_reducible apply Keep.other hK.toKeep) | (dsimp +zetaDelta only)
theorem State.restoreCounters_stable {P : State → Prop} (hK : KeepCore P) (s : State) (f : FoundSave) (hsK : P s) :
    P (State.restoreCounters s f) := by
  unfold State.restoreCounters
  repeat' first
    | with_reducible assumption | (with_reducible refine fst_stable (by assumption) ?_) | with_reducible apply State.setRw_stable hK
    | with_reducible apply State.wr_stable hK | with_reducible apply State.setLv_stable hK | (intro _ _ _) | (intro _ _)
    | with_reducible apply foldl_stable | with_reducible apply foldl_fst_stable | with_reducible apply overN_stable | extract_lets
    | with_reducible apply ite_stable | with_reducible apply ite_fst_stable | split | fail_if_no_progress (with_reducible apply KeepCore.other hK)
    | (dsimp +zetaDelta only)
theorem State.restoreRec_stable {P : State → Prop} (hK : Stable P) (s : State) (b : List Byte) (hsK : P s) : P (State.restoreRec s b) := by
  unfold State.restoreRec
  repeat' first
    | with_reducible assumption | (with_reducible refine fst_stable (by assumption) ?_) | with_reducible apply State.cacheWrite_stable hK
    | with_reducible apply State.lookTouch_stable hK.toKeep.toKeepSys | (intro _ _ _) | (intro _ _) | with_reducible apply foldl_stable
    | with_reducible apply foldl_fst_stable | with_reducible apply overN_stable | extract_lets | with_reducible apply ite_stable
    | with_reducible apply ite_fst_stable | split | fail_if_no_progress (with_reducible apply Keep.other hK.toKeep) | (dsimp +zetaDelta only)
theorem State.restoreRecs_stable {P : State → Prop} (hK : Stable P) (s : State) (f : FoundSave) (hsK : P s) : P (State.restoreRecs s f) := by
  unfold State.restoreRecs
  repeat' first
    | with_reducible assumption | (with_reducible refine fst_stable (by assumption) ?_) | with_reducible apply State.restoreRec_stable hK
    | (intro _ _ _) | (intro _ _) | with_reducible apply foldl_stable | with_reducible apply foldl_fst_stable | with_reducible apply overN_stable
    | extract_lets | with_reducible apply ite_stable | with_reducible apply ite_fst_stable | split
    | fail_if_no_progress (with_reducible apply Keep.other hK.toKeep) | (dsimp +zetaDelta only)
theorem State.restoreOps_stable {P : State → Prop} (hK : KeepSys P) (s : State) (f : FoundSave) (hsK : P s) : P (State.restoreOps s f) := by
  unfold State.restoreOps
  repeat' first
    | with_reducible assumption | (with_reducible refine fst_stable (by assumption) ?_) | with_reducible apply State.modOp_stable hK
    | (intro _ _ _) | (intro _ _) | with_reducible apply foldl_stable | with_reducible apply foldl_fst_stable | with_reducible apply overN_stable
    | extract_lets | with_reducible apply ite_stable | with_reducible apply ite_fst_stable | split
    | fail_if_no_progress (with_reducible apply KeepSys.other hK) | (dsimp +zetaDelta only)
theorem State.consumeSave_stable {P : State → Prop} (hK : Stable P) (s : State) (hsK : P s) : P (State.consumeSave s) := by
  unfold State.consumeSave
  repeat' first
    | with_reducible assumption | (with_reducible refine fst_stable (by assumption) ?_) | with_reducible apply State.wr_stable hK.toKeep.toKeepCore
    | with_reducible apply State.modNvm_stable hK.toKeep.toKeepSys | with_reducible apply State.eraseSector_stable hK
    | with_reducible apply State.logWrite_stable hK | (intro _ _ _) | (intro _ _) | with_reducible apply foldl_stable
    | with_reducible apply foldl_fst_stable | with_reducible apply overN_stable | extract_lets | with_reducible apply ite_stable
    | with_reducible apply ite_fst_stable | split | fail_if_no_progress (with_reducible apply Keep.other hK.toKeep) | (dsimp +zetaDelta only)
theorem State.lgCtrl_stable {P : State → Prop} (hK : Stable P) (s : State) (w : W64) (rnd : BitVec 128) (hsK : P s) :
    P (State.lgCtrl s w rnd) := by
  unfold State.lgCtrl
  repeat' first
    | with_reducible assumption | (with_reducible refine fst_stable (by assumption) ?_) | with_reducible apply State.wrLgCtrl_stable hK
    | with_reducible apply State.consumeSave_stable hK | (intro _ _ _) | (intro _ _) | with_reducible apply foldl_stable
    | with_reducible apply foldl_fst_stable | with_reducible apply overN_stable | extract_lets | with_reducible apply ite_stable
    | with_reducible apply ite_fst_stable | split | fail_if_no_progress (with_reducible apply Keep.other hK.toKeep) | (dsimp +zetaDelta only)
theorem execLedgerInit_stable {P : State → Prop} (hK : Stable P) (who : Who) (en : Bool) (rnd : BitVec 128) (s : State) (hsK : P s) :
    ∃ r_, execLedgerInit who en rnd s = .next r_ ∧ P r_ := by
  unfold execLedgerInit
  refine ⟨_, rfl, ?_⟩
  repeat' first
    | with_reducible assumption | (with_reducible refine fst_stable (by assumption) ?_) | with_reducible apply State.begin_stable hK.toKeep.toKeepCore
    | with_reducible apply State.write_stable hK.toKeep.toKeepCore | with_reducible apply State.lgCtrl_stable hK | (intro _ _ _) | (intro _ _)
    | with_reducible apply foldl_stable | with_reducible apply foldl_fst_stable | with_reducible apply overN_stable | extract_lets
    | with_reducible apply ite_stable | with_reducible apply ite_fst_stable | split
    | fail_if_no_progress (with_reducible apply Keep.other hK.toKeep) | (dsimp +zetaDelta only)
theorem execLedgerEnable_stable {P : State → Prop} (hK : Stable P) (who : Who) (en fullBlank : Bool) (s : State) (hsK : P s) :
    ∃ r_, execLedgerEnable who en fullBlank s = .next r_ ∧ P r_ := by
  unfold execLedgerEnable
  refine ⟨_, rfl, ?_⟩
  repeat' first
    | with_reducible assumption | (with_reducible refine fst_stable (by assumption) ?_) | with_reducible apply State.begin_stable hK.toKeep.toKeepCore
    | with_reducible apply State.write_stable hK.toKeep.toKeepCore | with_reducible apply State.lgCtrl_stable hK | (intro _ _ _) | (intro _ _)
    | with_reducible apply foldl_stable | with_reducible apply foldl_fst_stable | with_reducible apply overN_stable | extract_lets
    | with_reducible apply ite_stable | with_reducible apply ite_fst_stable | split
    | fail_if_no_progress (with_reducible apply Keep.other hK.toKeep) | (dsimp +zetaDelta only)
theorem execSeal_stable {P : State → Prop} (hK : Stable P) (who : Who) (s : State) (hsK : P s) : ∃ r_, execSeal who s = .next r_ ∧ P r_ := by
  unfold execSeal
  refine ⟨_, rfl, ?_⟩
  repeat' first
    | with_reducible assumption | (with_reducible refine fst_stable (by assumption) ?_) | with_reducible apply State.begin_stable hK.toKeep.toKeepCore
    | with_reducible apply State.write_stable hK.toKeep.toKeepCore | with_reducible apply State.lgCtrl_stable hK | (intro _ _ _) | (intro _ _)
    | with_reducible apply foldl_stable | with_reducible apply foldl_fst_stable | with_reducible apply overN_stable | extract_lets
    | with_reducible apply ite_stable | with_reducible apply ite_fst_stable | split
    | fail_if_no_progress (with_reducible apply Keep.other hK.toKeep) | (dsimp +zetaDelta only)

/-! ### Machine/Mc.lean -/

theorem State.toMc_stable {P : State → Prop} (hK : KeepCore P) (s : State) (ch k : Nat) (hsK : P s) : P (State.toMc s ch k) := by
  unfold State.toMc
  repeat' first
    | with_reducible assumption | (with_reducible refine fst_stable (by assumption) ?_) | with_reducible apply State.wr_stable hK | (intro _ _ _)
    | (intro _ _) | with_reducible apply foldl_stable | with_reducible apply foldl_fst_stable | with_reducible apply overN_stable | extract_lets
    | with_reducible apply ite_stable | with_reducible apply ite_fst_stable | split | fail_if_no_progress (with_reducible apply KeepCore.other hK)
    | (dsimp +zetaDelta only)
theorem State.showDegraded_stable {P : State → Prop} (hK : KeepCore P) (s : State) (hsK : P s) : P (State.showDegraded s) := by
  unfold State.showDegraded
  repeat' first
    | with_reducible assumption | (with_reducible refine fst_stable (by assumption) ?_) | with_reducible apply State.wr_stable hK | (intro _ _ _)
    | (intro _ _) | with_reducible apply foldl_stable | with_reducible apply foldl_fst_stable | with_reducible apply overN_stable | extract_lets
    | with_reducible apply ite_stable | with_reducible apply ite_fst_stable | split | fail_if_no_progress (with_reducible apply KeepCore.other hK)
    | (dsimp +zetaDelta only)
theorem State.showLane_stable {P : State → Prop} (hK : KeepCore P) (s : State) (a : Nat) (sweep : List (BitVec 128)) (hsK : P s) :
    P (State.showLane s a sweep) := by
  unfold State.showLane
  repeat' first
    | with_reducible assumption | (with_reducible refine fst_stable (by assumption) ?_) | with_reducible apply State.wr_stable hK
    | with_reducible apply State.useFree_stable hK | (intro _ _ _) | (intro _ _) | with_reducible apply foldl_stable
    | with_reducible apply foldl_fst_stable | with_reducible apply overN_stable | extract_lets | with_reducible apply ite_stable
    | with_reducible apply ite_fst_stable | split | fail_if_no_progress (with_reducible apply KeepCore.other hK) | (dsimp +zetaDelta only)
theorem State.showLanes_stable {P : State → Prop} (hK : KeepCore P) (s : State) (ch : Nat) (lanes : List LaneSweep) (hsK : P s) :
    P (State.showLanes s ch lanes) := by
  unfold State.showLanes
  repeat' first
    | with_reducible assumption | (with_reducible refine fst_stable (by assumption) ?_) | with_reducible apply State.wr_stable hK
    | with_reducible apply State.showLane_stable hK | (intro _ _ _) | (intro _ _) | with_reducible apply foldl_stable
    | with_reducible apply foldl_fst_stable | with_reducible apply overN_stable | extract_lets | with_reducible apply ite_stable
    | with_reducible apply ite_fst_stable | split | fail_if_no_progress (with_reducible apply KeepCore.other hK) | (dsimp +zetaDelta only)
theorem State.startRetrain_stable {P : State → Prop} (hK : KeepCore P) (s : State) (ch : Nat) (hsK : P s) : P (State.startRetrain s ch) := by
  unfold State.startRetrain
  repeat' first
    | with_reducible assumption | (with_reducible refine fst_stable (by assumption) ?_) | with_reducible apply State.bumpErr_stable hK
    | with_reducible apply State.toMc_stable hK | (intro _ _ _) | (intro _ _) | with_reducible apply foldl_stable
    | with_reducible apply foldl_fst_stable | with_reducible apply overN_stable | extract_lets | with_reducible apply ite_stable
    | with_reducible apply ite_fst_stable | split | fail_if_no_progress (with_reducible apply KeepCore.other hK) | (dsimp +zetaDelta only)
theorem State.wrMcCtrl_stable {P : State → Prop} (hK : KeepCore P) (s : State) (ch : Nat) (w : W64) (hsK : P s) : P (State.wrMcCtrl s ch w) := by
  unfold State.wrMcCtrl
  repeat' first
    | with_reducible assumption | (with_reducible refine fst_stable (by assumption) ?_) | with_reducible apply State.refuse_stable hK
    | with_reducible apply State.toMc_stable hK | with_reducible apply State.startRetrain_stable hK | (intro _ _ _) | (intro _ _)
    | with_reducible apply foldl_stable | with_reducible apply foldl_fst_stable | with_reducible apply overN_stable | extract_lets
    | with_reducible apply ite_stable | with_reducible apply ite_fst_stable | split | fail_if_no_progress (with_reducible apply KeepCore.other hK)
    | (dsimp +zetaDelta only)
theorem execTrain_stable {P : State → Prop} (hK : KeepCore P) (who : Who) (ch : Fin 4) (s : State) (hsK : P s) :
    ∃ r_, execTrain who ch s = .next r_ ∧ P r_ := by
  unfold execTrain
  refine ⟨_, rfl, ?_⟩
  repeat' first
    | with_reducible assumption | (with_reducible refine fst_stable (by assumption) ?_) | with_reducible apply State.begin_stable hK
    | with_reducible apply State.write_stable hK | with_reducible apply State.wrMcCtrl_stable hK | (intro _ _ _) | (intro _ _)
    | with_reducible apply foldl_stable | with_reducible apply foldl_fst_stable | with_reducible apply overN_stable | extract_lets
    | with_reducible apply ite_stable | with_reducible apply ite_fst_stable | split | fail_if_no_progress (with_reducible apply KeepCore.other hK)
    | (dsimp +zetaDelta only)
theorem execRetrain_stable {P : State → Prop} (hK : KeepCore P) (who : Who) (ch : Fin 4) (s : State) (hsK : P s) :
    ∃ r_, execRetrain who ch s = .next r_ ∧ P r_ := by
  unfold execRetrain
  refine ⟨_, rfl, ?_⟩
  repeat' first
    | with_reducible assumption | (with_reducible refine fst_stable (by assumption) ?_) | with_reducible apply State.begin_stable hK
    | with_reducible apply State.write_stable hK | with_reducible apply State.wrMcCtrl_stable hK | (intro _ _ _) | (intro _ _)
    | with_reducible apply foldl_stable | with_reducible apply foldl_fst_stable | with_reducible apply overN_stable | extract_lets
    | with_reducible apply ite_stable | with_reducible apply ite_fst_stable | split | fail_if_no_progress (with_reducible apply KeepCore.other hK)
    | (dsimp +zetaDelta only)
theorem execChannelTrained_stable {P : State → Prop} (hK : KeepCore P) (ch : Fin 4) (density : Fin 4) (levelled rfm : Bool) (lanes : List LaneSweep) (s : State) (hsK : P s) :
    ∃ r_, execChannelTrained ch density levelled rfm lanes s = .next r_ ∧ P r_ := by
  unfold execChannelTrained
  refine ⟨_, rfl, ?_⟩
  repeat' first
    | with_reducible assumption | (with_reducible refine fst_stable (by assumption) ?_) | with_reducible apply State.wr_stable hK
    | with_reducible apply State.begin_stable hK | with_reducible apply State.guard_stable hK | with_reducible apply State.toMc_stable hK
    | with_reducible apply State.showDegraded_stable hK | with_reducible apply State.showLanes_stable hK | (intro _ _ _) | (intro _ _)
    | with_reducible apply foldl_stable | with_reducible apply foldl_fst_stable | with_reducible apply overN_stable | extract_lets
    | with_reducible apply ite_stable | with_reducible apply ite_fst_stable | split | fail_if_no_progress (with_reducible apply KeepCore.other hK)
    | (dsimp +zetaDelta only)
theorem State.dropRequests_stable {P : State → Prop} (hK : KeepSys P) (s : State) (ch : Nat) (hsK : P s) : P (State.dropRequests s ch) := by
  unfold State.dropRequests
  repeat' first
    | with_reducible assumption | (with_reducible refine fst_stable (by assumption) ?_) | with_reducible apply State.emit_stable hK.toKeepCore
    | with_reducible apply State.write_stable hK.toKeepCore | with_reducible apply State.modSub_stable hK | (intro _ _ _) | (intro _ _)
    | with_reducible apply foldl_stable | with_reducible apply foldl_fst_stable | with_reducible apply overN_stable | extract_lets
    | with_reducible apply ite_stable | with_reducible apply ite_fst_stable | split | fail_if_no_progress (with_reducible apply KeepSys.other hK)
    | (dsimp +zetaDelta only)
theorem State.fenceRun_stable {P : State → Prop} (hK : Stable P) (s : State) (ch bad : Nat) (hsK : P s) : P (State.fenceRun s ch bad) := by
  unfold State.fenceRun
  repeat' first
    | with_reducible assumption | (with_reducible refine fst_stable (by assumption) ?_) | with_reducible apply State.wr_stable hK.toKeep.toKeepCore
    | with_reducible apply State.kevt_stable hK.toKeep.toKeepCore | with_reducible apply State.toDstate_stable hK.toKeep.toKeepCore
    | with_reducible apply State.stallDrain_stable hK | with_reducible apply State.setStateBit_stable hK.toKeep.toKeepCore
    | with_reducible apply State.toMc_stable hK.toKeep.toKeepCore | with_reducible apply State.showDegraded_stable hK.toKeep.toKeepCore
    | with_reducible apply State.dropRequests_stable hK.toKeep.toKeepSys | (intro _ _ _) | (intro _ _) | with_reducible apply foldl_stable
    | with_reducible apply foldl_fst_stable | with_reducible apply overN_stable | extract_lets | with_reducible apply ite_stable
    | with_reducible apply ite_fst_stable | split | fail_if_no_progress (with_reducible apply Keep.other hK.toKeep) | (dsimp +zetaDelta only)
theorem execRetrainDone_stable {P : State → Prop} (hK : Stable P) (ch : Fin 4) (levelled : Bool) (lanes : List LaneSweep) (s : State) (hsK : P s) :
    ∃ r_, execRetrainDone ch levelled lanes s = .next r_ ∧ P r_ := by
  unfold execRetrainDone
  refine ⟨_, rfl, ?_⟩
  repeat' first
    | with_reducible assumption | (with_reducible refine fst_stable (by assumption) ?_) | with_reducible apply State.begin_stable hK.toKeep.toKeepCore
    | with_reducible apply State.guard_stable hK.toKeep.toKeepCore | with_reducible apply State.toMc_stable hK.toKeep.toKeepCore
    | with_reducible apply State.showLanes_stable hK.toKeep.toKeepCore | with_reducible apply State.fenceRun_stable hK | (intro _ _ _) | (intro _ _)
    | with_reducible apply foldl_stable | with_reducible apply foldl_fst_stable | with_reducible apply overN_stable | extract_lets
    | with_reducible apply ite_stable | with_reducible apply ite_fst_stable | split
    | fail_if_no_progress (with_reducible apply Keep.other hK.toKeep) | (dsimp +zetaDelta only)
theorem State.wrMapCtrl_stable {P : State → Prop} (hK : KeepSys P) (s : State) (w : W64) (hsK : P s) : P (State.wrMapCtrl s w) := by
  unfold State.wrMapCtrl
  repeat' first
    | with_reducible assumption | (with_reducible refine fst_stable (by assumption) ?_) | with_reducible apply State.setRw_stable hK.toKeepCore
    | with_reducible apply State.wr_stable hK.toKeepCore | with_reducible apply State.refuse_stable hK.toKeepCore
    | with_reducible apply State.setStateBit_stable hK.toKeepCore | with_reducible apply State.halt_stable hK
    | with_reducible apply State.toMc_stable hK.toKeepCore | (intro _ _ _) | (intro _ _) | with_reducible apply foldl_stable
    | with_reducible apply foldl_fst_stable | with_reducible apply overN_stable | extract_lets | with_reducible apply ite_stable
    | with_reducible apply ite_fst_stable | split | fail_if_no_progress (with_reducible apply KeepSys.other hK) | (dsimp +zetaDelta only)
theorem execBuild_stable {P : State → Prop} (hK : KeepSys P) (who : Who) (s : State) (hsK : P s) : ∃ r_, execBuild who s = .next r_ ∧ P r_ := by
  unfold execBuild
  refine ⟨_, rfl, ?_⟩
  repeat' first
    | with_reducible assumption | (with_reducible refine fst_stable (by assumption) ?_) | with_reducible apply State.begin_stable hK.toKeepCore
    | with_reducible apply State.write_stable hK.toKeepCore | with_reducible apply State.wrMapCtrl_stable hK | (intro _ _ _) | (intro _ _)
    | with_reducible apply foldl_stable | with_reducible apply foldl_fst_stable | with_reducible apply overN_stable | extract_lets
    | with_reducible apply ite_stable | with_reducible apply ite_fst_stable | split | fail_if_no_progress (with_reducible apply KeepSys.other hK)
    | (dsimp +zetaDelta only)
theorem State.driftMove_stable {P : State → Prop} (hK : KeepCore P) (s : State) (a : Nat) (run : Fin 128 × Fin 128) (hsK : P s) :
    P (State.driftMove s a run) := by
  unfold State.driftMove
  repeat' first
    | with_reducible assumption | (with_reducible refine fst_stable (by assumption) ?_) | with_reducible apply State.wr_stable hK | (intro _ _ _)
    | (intro _ _) | with_reducible apply foldl_stable | with_reducible apply foldl_fst_stable | with_reducible apply overN_stable | extract_lets
    | with_reducible apply ite_stable | with_reducible apply ite_fst_stable | split | fail_if_no_progress (with_reducible apply KeepCore.other hK)
    | (dsimp +zetaDelta only)
theorem State.refreshAb_stable {P : State → Prop} (hK : KeepSys P) (s : State) (ch sc n : Nat) (hsK : P s) : P (State.refreshAb s ch sc n) := by
  unfold State.refreshAb
  repeat' first
    | with_reducible assumption | (with_reducible refine fst_stable (by assumption) ?_) | with_reducible apply State.modSub_stable hK
    | (intro _ _ _) | (intro _ _) | with_reducible apply foldl_stable | with_reducible apply foldl_fst_stable | with_reducible apply overN_stable
    | extract_lets | with_reducible apply ite_stable | with_reducible apply ite_fst_stable | split
    | fail_if_no_progress (with_reducible apply KeepSys.other hK) | (dsimp +zetaDelta only)
theorem State.showDebt_stable {P : State → Prop} (hK : KeepCore P) (s : State) (ch : Nat) (hsK : P s) : P (State.showDebt s ch) := by
  unfold State.showDebt
  repeat' first
    | with_reducible assumption | (with_reducible refine fst_stable (by assumption) ?_) | with_reducible apply State.wr_stable hK | (intro _ _ _)
    | (intro _ _) | with_reducible apply foldl_stable | with_reducible apply foldl_fst_stable | with_reducible apply overN_stable | extract_lets
    | with_reducible apply ite_stable | with_reducible apply ite_fst_stable | split | fail_if_no_progress (with_reducible apply KeepCore.other hK)
    | (dsimp +zetaDelta only)
theorem State.driftRefresh_stable {P : State → Prop} (hK : KeepSys P) (s : State) (ch sc n : Nat) (hsK : P s) :
    P (State.driftRefresh s ch sc n) := by
  unfold State.driftRefresh
  repeat' first
    | with_reducible assumption | (with_reducible refine fst_stable (by assumption) ?_) | with_reducible apply State.bumpEv_stable hK.toKeepCore
    | with_reducible apply State.refreshAb_stable hK | (intro _ _ _) | (intro _ _) | with_reducible apply foldl_stable
    | with_reducible apply foldl_fst_stable | with_reducible apply overN_stable | extract_lets | with_reducible apply ite_stable
    | with_reducible apply ite_fst_stable | split | fail_if_no_progress (with_reducible apply KeepSys.other hK) | (dsimp +zetaDelta only)
theorem State.trackStep_stable {P : State → Prop} (hK : KeepCore P) (s : State) (ch : Nat) (runs : List LaneRun) (hsK : P s) :
    P (State.trackStep s ch runs) := by
  unfold State.trackStep
  repeat' first
    | with_reducible assumption | (with_reducible refine fst_stable (by assumption) ?_) | with_reducible apply State.wr_stable hK
    | with_reducible apply State.bumpErr_stable hK | with_reducible apply State.kevt_stable hK | with_reducible apply State.startRetrain_stable hK
    | with_reducible apply State.driftMove_stable hK | (intro _ _ _) | (intro _ _) | with_reducible apply foldl_stable
    | with_reducible apply foldl_fst_stable | with_reducible apply overN_stable | extract_lets | with_reducible apply ite_stable
    | with_reducible apply ite_fst_stable | split | fail_if_no_progress (with_reducible apply KeepCore.other hK) | (dsimp +zetaDelta only)
theorem State.setDrift_stable {P : State → Prop} (hK : KeepSys P) (s : State) (ch : Nat) (x : Option (Bool × List LaneRun)) (hsK : P s) :
    P (State.setDrift s ch x) := by
  unfold State.setDrift
  repeat' first
    | with_reducible assumption | (with_reducible refine fst_stable (by assumption) ?_) | (intro _ _ _) | (intro _ _)
    | with_reducible apply foldl_stable | with_reducible apply foldl_fst_stable | with_reducible apply overN_stable | extract_lets
    | with_reducible apply ite_stable | with_reducible apply ite_fst_stable | split | fail_if_no_progress (with_reducible apply KeepSys.other hK)
    | (dsimp +zetaDelta only)
theorem State.driftInRefresh_stable {P : State → Prop} (hK : KeepSys P) (s : State) (ch : Nat) (forced : Bool) (hsK : P s) :
    P (State.driftInRefresh s ch forced) := by
  unfold State.driftInRefresh
  repeat' first
    | with_reducible assumption | (with_reducible refine fst_stable (by assumption) ?_) | with_reducible apply State.bumpErr_stable hK.toKeepCore
    | with_reducible apply State.trackStep_stable hK.toKeepCore | with_reducible apply State.setDrift_stable hK | (intro _ _ _) | (intro _ _)
    | with_reducible apply foldl_stable | with_reducible apply foldl_fst_stable | with_reducible apply overN_stable | extract_lets
    | with_reducible apply ite_stable | with_reducible apply ite_fst_stable | split | fail_if_no_progress (with_reducible apply KeepSys.other hK)
    | (dsimp +zetaDelta only)
theorem execDriftStep_stable {P : State → Prop} (hK : KeepSys P) (ch : Fin 4) (late : Bool) (runs : List LaneRun) (ref0 ref1 : Fin 17) (s : State) (hsK : P s) :
    ∃ r_, execDriftStep ch late runs ref0 ref1 s = .next r_ ∧ P r_ := by
  unfold execDriftStep
  refine ⟨_, rfl, ?_⟩
  repeat' first
    | with_reducible assumption | (with_reducible refine fst_stable (by assumption) ?_) | with_reducible apply State.begin_stable hK.toKeepCore
    | with_reducible apply State.guard_stable hK.toKeepCore | with_reducible apply State.showDebt_stable hK.toKeepCore
    | with_reducible apply State.driftRefresh_stable hK | with_reducible apply State.trackStep_stable hK.toKeepCore
    | with_reducible apply State.setDrift_stable hK | (intro _ _ _) | (intro _ _) | with_reducible apply foldl_stable
    | with_reducible apply foldl_fst_stable | with_reducible apply overN_stable | extract_lets | with_reducible apply ite_stable
    | with_reducible apply ite_fst_stable | split | fail_if_no_progress (with_reducible apply KeepSys.other hK) | (dsimp +zetaDelta only)
theorem execMemoryRequest_stable {P : State → Prop} (hK : KeepSys P) (off : BitVec 35) (src : MemSrc) (write : Bool) (pos : Fin 64) (bytes : List Byte) (s : State) (hsK : P s) :
    ∃ r_, execMemoryRequest off src write pos bytes s = .next r_ ∧ P r_ := by
  unfold execMemoryRequest
  refine ⟨_, rfl, ?_⟩
  repeat' first
    | with_reducible assumption | (with_reducible refine fst_stable (by assumption) ?_) | with_reducible apply State.begin_stable hK.toKeepCore
    | with_reducible apply State.answer_stable hK.toKeepCore | with_reducible apply State.guard_stable hK.toKeepCore
    | with_reducible apply State.write_stable hK.toKeepCore | with_reducible apply State.modSub_stable hK
    | with_reducible apply State.updateDrain_stable hK | (intro _ _ _) | (intro _ _) | with_reducible apply foldl_stable
    | with_reducible apply foldl_fst_stable | with_reducible apply overN_stable | extract_lets | with_reducible apply ite_stable
    | with_reducible apply ite_fst_stable | split | fail_if_no_progress (with_reducible apply KeepSys.other hK) | (dsimp +zetaDelta only)
theorem execAgePromotion_stable {P : State → Prop} (hK : KeepSys P) (ch : Fin 4) (sc : Fin 2) (write : Bool) (i : Fin 64) (s : State) (hsK : P s) :
    ∃ r_, execAgePromotion ch sc write i s = .next r_ ∧ P r_ := by
  unfold execAgePromotion
  refine ⟨_, rfl, ?_⟩
  repeat' first
    | with_reducible assumption | (with_reducible refine fst_stable (by assumption) ?_) | with_reducible apply State.begin_stable hK.toKeepCore
    | with_reducible apply State.write_stable hK.toKeepCore | with_reducible apply State.modSub_stable hK | (intro _ _ _) | (intro _ _)
    | with_reducible apply foldl_stable | with_reducible apply foldl_fst_stable | with_reducible apply overN_stable | extract_lets
    | with_reducible apply ite_stable | with_reducible apply ite_fst_stable | split | fail_if_no_progress (with_reducible apply KeepSys.other hK)
    | (dsimp +zetaDelta only)
theorem State.showScrub_stable {P : State → Prop} (hK : KeepCore P) (s : State) (hsK : P s) : P (State.showScrub s) := by
  unfold State.showScrub
  repeat' first
    | with_reducible assumption | (with_reducible refine fst_stable (by assumption) ?_) | with_reducible apply State.wr_stable hK | (intro _ _ _)
    | (intro _ _) | with_reducible apply foldl_stable | with_reducible apply foldl_fst_stable | with_reducible apply overN_stable | extract_lets
    | with_reducible apply ite_stable | with_reducible apply ite_fst_stable | split | fail_if_no_progress (with_reducible apply KeepCore.other hK)
    | (dsimp +zetaDelta only)
theorem execPanicFlagChange_stable {P : State → Prop} (hK : KeepSys P) (ch : Fin 4) (cycles : Nat) (s : State) (hsK : P s) :
    ∃ r_, execPanicFlagChange ch cycles s = .next r_ ∧ P r_ := by
  unfold execPanicFlagChange
  refine ⟨_, rfl, ?_⟩
  repeat' first
    | with_reducible assumption | (with_reducible refine fst_stable (by assumption) ?_) | with_reducible apply State.bumpEv_stable hK.toKeepCore
    | with_reducible apply State.begin_stable hK.toKeepCore | with_reducible apply State.updateDrain_stable hK
    | with_reducible apply State.showScrub_stable hK.toKeepCore | (intro _ _ _) | (intro _ _) | with_reducible apply foldl_stable
    | with_reducible apply foldl_fst_stable | with_reducible apply overN_stable | extract_lets | with_reducible apply ite_stable
    | with_reducible apply ite_fst_stable | split | fail_if_no_progress (with_reducible apply KeepSys.other hK) | (dsimp +zetaDelta only)
theorem execTrefi_stable {P : State → Prop} (hK : KeepSys P) (ch : Fin 4) (sc : Fin 2) (s : State) (hsK : P s) :
    ∃ r_, execTrefi ch sc s = .next r_ ∧ P r_ := by
  unfold execTrefi
  refine ⟨_, rfl, ?_⟩
  repeat' first
    | with_reducible assumption | (with_reducible refine fst_stable (by assumption) ?_) | with_reducible apply State.begin_stable hK.toKeepCore
    | with_reducible apply State.guard_stable hK.toKeepCore | with_reducible apply State.modSub_stable hK
    | with_reducible apply State.showDebt_stable hK.toKeepCore | (intro _ _ _) | (intro _ _) | with_reducible apply foldl_stable
    | with_reducible apply foldl_fst_stable | with_reducible apply overN_stable | extract_lets | with_reducible apply ite_stable
    | with_reducible apply ite_fst_stable | split | fail_if_no_progress (with_reducible apply KeepSys.other hK) | (dsimp +zetaDelta only)
theorem execRefreshFactorRead_stable {P : State → Prop} (hK : KeepCore P) (ch : Fin 4) (factor : Fin 5) (s : State) (hsK : P s) :
    ∃ r_, execRefreshFactorRead ch factor s = .next r_ ∧ P r_ := by
  unfold execRefreshFactorRead
  refine ⟨_, rfl, ?_⟩
  repeat' first
    | with_reducible assumption | (with_reducible refine fst_stable (by assumption) ?_) | with_reducible apply State.wr_stable hK
    | with_reducible apply State.begin_stable hK | with_reducible apply State.guard_stable hK | (intro _ _ _) | (intro _ _)
    | with_reducible apply foldl_stable | with_reducible apply foldl_fst_stable | with_reducible apply overN_stable | extract_lets
    | with_reducible apply ite_stable | with_reducible apply ite_fst_stable | split | fail_if_no_progress (with_reducible apply KeepCore.other hK)
    | (dsimp +zetaDelta only)
theorem State.rowAct_stable {P : State → Prop} (hK : KeepSys P) (s : State) (ch sc bank row : Nat) (hsK : P s) :
    P (State.rowAct s ch sc bank row) := by
  unfold State.rowAct
  repeat' first
    | with_reducible assumption | (with_reducible refine fst_stable (by assumption) ?_) | with_reducible apply State.bumpEv_stable hK.toKeepCore
    | with_reducible apply State.modSub_stable hK | (intro _ _ _) | (intro _ _) | with_reducible apply foldl_stable
    | with_reducible apply foldl_fst_stable | with_reducible apply overN_stable | extract_lets | with_reducible apply ite_stable
    | with_reducible apply ite_fst_stable | split | fail_if_no_progress (with_reducible apply KeepSys.other hK) | (dsimp +zetaDelta only)
theorem State.targeted_stable {P : State → Prop} (hK : KeepSys P) (s : State) (ch sc bank row : Nat) (hsK : P s) :
    P (State.targeted s ch sc bank row) := by
  unfold State.targeted
  repeat' first
    | with_reducible assumption | (with_reducible refine fst_stable (by assumption) ?_) | with_reducible apply State.bumpEv_stable hK.toKeepCore
    | with_reducible apply State.rowAct_stable hK | (intro _ _ _) | (intro _ _) | with_reducible apply foldl_stable
    | with_reducible apply foldl_fst_stable | with_reducible apply overN_stable | extract_lets | with_reducible apply ite_stable
    | with_reducible apply ite_fst_stable | split | fail_if_no_progress (with_reducible apply KeepSys.other hK) | (dsimp +zetaDelta only)
theorem execActivationTableClear_stable {P : State → Prop} (hK : KeepSys P) (ch : Fin 4) (s : State) (hsK : P s) :
    ∃ r_, execActivationTableClear ch s = .next r_ ∧ P r_ := by
  unfold execActivationTableClear
  refine ⟨_, rfl, ?_⟩
  repeat' first
    | with_reducible assumption | (with_reducible refine fst_stable (by assumption) ?_) | with_reducible apply State.begin_stable hK.toKeepCore
    | with_reducible apply State.modSub_stable hK | (intro _ _ _) | (intro _ _) | with_reducible apply foldl_stable
    | with_reducible apply foldl_fst_stable | with_reducible apply overN_stable | extract_lets | with_reducible apply ite_stable
    | with_reducible apply ite_fst_stable | split | fail_if_no_progress (with_reducible apply KeepSys.other hK) | (dsimp +zetaDelta only)
theorem State.issue_stable {P : State → Prop} (hK : Stable P) (s : State) (ch sc : Nat) (r : McReq) (hsK : P s) :
    P (State.issue s ch sc r) := by
  unfold State.issue
  repeat' first
    | with_reducible assumption | (with_reducible refine fst_stable (by assumption) ?_)
    | with_reducible apply State.bumpEv_stable hK.toKeep.toKeepCore | with_reducible apply State.write_stable hK.toKeep.toKeepCore
    | with_reducible apply State.setEcc_stable hK.toKeep.toKeepCore | with_reducible apply State.modSub_stable hK.toKeep.toKeepSys
    | with_reducible apply State.memStore_stable hK | (intro _ _ _) | (intro _ _) | with_reducible apply foldl_stable
    | with_reducible apply foldl_fst_stable | with_reducible apply overN_stable | extract_lets | with_reducible apply ite_stable
    | with_reducible apply ite_fst_stable | split | fail_if_no_progress (with_reducible apply Keep.other hK.toKeep) | (dsimp +zetaDelta only)
theorem State.newBurst_stable {P : State → Prop} (hK : KeepSys P) (s : State) (ch sc : Nat) (hsK : P s) : P (State.newBurst s ch sc) := by
  unfold State.newBurst
  repeat' first
    | with_reducible assumption | (with_reducible refine fst_stable (by assumption) ?_) | with_reducible apply State.modSub_stable hK
    | with_reducible apply State.fillFixes_stable hK | with_reducible apply State.rowAct_stable hK | (intro _ _ _) | (intro _ _)
    | with_reducible apply foldl_stable | with_reducible apply foldl_fst_stable | with_reducible apply overN_stable | extract_lets
    | with_reducible apply ite_stable | with_reducible apply ite_fst_stable | split | fail_if_no_progress (with_reducible apply KeepSys.other hK)
    | (dsimp +zetaDelta only)
theorem State.refreshPb_stable {P : State → Prop} (hK : KeepSys P) (s : State) (ch sc bank : Nat) (hsK : P s) :
    P (State.refreshPb s ch sc bank) := by
  unfold State.refreshPb
  repeat' first
    | with_reducible assumption | (with_reducible refine fst_stable (by assumption) ?_) | with_reducible apply State.modSub_stable hK
    | (intro _ _ _) | (intro _ _) | with_reducible apply foldl_stable | with_reducible apply foldl_fst_stable | with_reducible apply overN_stable
    | extract_lets | with_reducible apply ite_stable | with_reducible apply ite_fst_stable | split
    | fail_if_no_progress (with_reducible apply KeepSys.other hK) | (dsimp +zetaDelta only)
theorem execCommandSelect_stable {P : State → Prop} (hK : Stable P) (ch : Fin 4) (sc : Fin 2) (pb : Option (Fin 16)) (idle : Bool) (upsets : List (BitVec 36 × Bool)) (s : State) (hsK : P s) :
    ∃ r_, execCommandSelect ch sc pb idle upsets s = .next r_ ∧ P r_ := by
  unfold execCommandSelect
  refine ⟨_, rfl, ?_⟩
  repeat' first
    | with_reducible assumption | (with_reducible refine fst_stable (by assumption) ?_)
    | with_reducible apply State.bumpEv_stable hK.toKeep.toKeepCore | with_reducible apply State.begin_stable hK.toKeep.toKeepCore
    | with_reducible apply State.guard_stable hK.toKeep.toKeepCore | with_reducible apply State.upset_stable hK.toKeep.toKeepCore
    | with_reducible apply State.modSub_stable hK.toKeep.toKeepSys | with_reducible apply State.refreshAb_stable hK.toKeep.toKeepSys
    | with_reducible apply State.showDebt_stable hK.toKeep.toKeepCore | with_reducible apply State.driftInRefresh_stable hK.toKeep.toKeepSys
    | with_reducible apply State.targeted_stable hK.toKeep.toKeepSys | with_reducible apply State.issue_stable hK
    | with_reducible apply State.newBurst_stable hK.toKeep.toKeepSys | with_reducible apply State.refreshPb_stable hK.toKeep.toKeepSys | (intro _ _ _)
    | (intro _ _) | with_reducible apply foldl_stable | with_reducible apply foldl_fst_stable | with_reducible apply overN_stable | extract_lets
    | with_reducible apply ite_stable | with_reducible apply ite_fst_stable | split
    | fail_if_no_progress (with_reducible apply Keep.other hK.toKeep) | (dsimp +zetaDelta only)
theorem State.readBack_stable {P : State → Prop} (hK : KeepSys P) (s : State) (ch : Nat) (r : McRead) (hsK : P s) : P (State.readBack s ch r) := by
  unfold State.readBack
  repeat' first
    | with_reducible assumption | (with_reducible refine fst_stable (by assumption) ?_) | with_reducible apply State.bumpErr_stable hK.toKeepCore
    | with_reducible apply State.queueFix_stable hK | with_reducible apply State.reportUe_stable hK.toKeepCore | (intro _ _ _) | (intro _ _)
    | with_reducible apply foldl_stable | with_reducible apply foldl_fst_stable | with_reducible apply overN_stable | extract_lets
    | with_reducible apply ite_stable | with_reducible apply ite_fst_stable | split | fail_if_no_progress (with_reducible apply KeepSys.other hK)
    | (dsimp +zetaDelta only)
theorem execMemoryReadData_stable {P : State → Prop} (hK : KeepSys P) (ch : Fin 4) (sc : Fin 2) (s : State) (hsK : P s) :
    ∃ r_, execMemoryReadData ch sc s = .next r_ ∧ P r_ := by
  unfold execMemoryReadData
  refine ⟨_, rfl, ?_⟩
  repeat' first
    | with_reducible assumption | (with_reducible refine fst_stable (by assumption) ?_) | with_reducible apply State.begin_stable hK.toKeepCore
    | with_reducible apply State.answer_stable hK.toKeepCore | with_reducible apply State.modSub_stable hK | with_reducible apply State.readBack_stable hK
    | (intro _ _ _) | (intro _ _) | with_reducible apply foldl_stable | with_reducible apply foldl_fst_stable | with_reducible apply overN_stable
    | extract_lets | with_reducible apply ite_stable | with_reducible apply ite_fst_stable | split
    | fail_if_no_progress (with_reducible apply KeepSys.other hK) | (dsimp +zetaDelta only)
theorem State.finishBursts_stable {P : State → Prop} (hK : Stable P) (s : State) (ch : Nat) (hsK : P s) : P (State.finishBursts s ch) := by
  unfold State.finishBursts
  repeat' first
    | with_reducible assumption | (with_reducible refine fst_stable (by assumption) ?_) | with_reducible apply State.emit_stable hK.toKeep.toKeepCore
    | with_reducible apply State.modSub_stable hK.toKeep.toKeepSys | with_reducible apply State.issue_stable hK
    | with_reducible apply State.readBack_stable hK.toKeep.toKeepSys | (intro _ _ _) | (intro _ _) | with_reducible apply foldl_stable
    | with_reducible apply foldl_fst_stable | with_reducible apply overN_stable | extract_lets | with_reducible apply ite_stable
    | with_reducible apply ite_fst_stable | split | fail_if_no_progress (with_reducible apply Keep.other hK.toKeep) | (dsimp +zetaDelta only)
theorem State.initRegion_stable {P : State → Prop} (hK : Stable P) (s : State) (r : Nat) (hsK : P s) : P (State.initRegion s r) := by
  unfold State.initRegion
  repeat' first
    | with_reducible assumption | (with_reducible refine fst_stable (by assumption) ?_) | with_reducible apply State.setRw_stable hK.toKeep.toKeepCore
    | with_reducible apply State.dramKeep_stable hK | (intro _ _ _) | (intro _ _) | with_reducible apply foldl_stable
    | with_reducible apply foldl_fst_stable | with_reducible apply overN_stable | extract_lets | with_reducible apply ite_stable
    | with_reducible apply ite_fst_stable | split | fail_if_no_progress (with_reducible apply Keep.other hK.toKeep) | (dsimp +zetaDelta only)
theorem State.wrEccMap_stable {P : State → Prop} (hK : Stable P) (s : State) (i : Nat) (w : W64) (hsK : P s) : P (State.wrEccMap s i w) := by
  unfold State.wrEccMap
  repeat' first
    | with_reducible assumption | (with_reducible refine fst_stable (by assumption) ?_) | with_reducible apply State.setRw_stable hK.toKeep.toKeepCore
    | with_reducible apply State.wr_stable hK.toKeep.toKeepCore | with_reducible apply State.refuse_stable hK.toKeep.toKeepCore
    | with_reducible apply State.showScrub_stable hK.toKeep.toKeepCore | with_reducible apply State.initRegion_stable hK | (intro _ _ _) | (intro _ _)
    | with_reducible apply foldl_stable | with_reducible apply foldl_fst_stable | with_reducible apply overN_stable | extract_lets
    | with_reducible apply ite_stable | with_reducible apply ite_fst_stable | split
    | fail_if_no_progress (with_reducible apply Keep.other hK.toKeep) | (dsimp +zetaDelta only)
theorem execEccMapWrite_stable {P : State → Prop} (hK : Stable P) (who : Who) (i : Fin 4) (w : W32) (s : State) (hsK : P s) :
    ∃ r_, execEccMapWrite who i w s = .next r_ ∧ P r_ := by
  unfold execEccMapWrite
  refine ⟨_, rfl, ?_⟩
  repeat' first
    | with_reducible assumption | (with_reducible refine fst_stable (by assumption) ?_) | with_reducible apply State.begin_stable hK.toKeep.toKeepCore
    | with_reducible apply State.write_stable hK.toKeep.toKeepCore | with_reducible apply State.wrEccMap_stable hK | (intro _ _ _) | (intro _ _)
    | with_reducible apply foldl_stable | with_reducible apply foldl_fst_stable | with_reducible apply overN_stable | extract_lets
    | with_reducible apply ite_stable | with_reducible apply ite_fst_stable | split
    | fail_if_no_progress (with_reducible apply Keep.other hK.toKeep) | (dsimp +zetaDelta only)
theorem execEccInitDone_stable {P : State → Prop} (hK : KeepCore P) (s : State) (hsK : P s) : ∃ r_, execEccInitDone s = .next r_ ∧ P r_ := by
  unfold execEccInitDone
  refine ⟨_, rfl, ?_⟩
  repeat' first
    | with_reducible assumption | (with_reducible refine fst_stable (by assumption) ?_) | with_reducible apply State.wr_stable hK
    | with_reducible apply State.begin_stable hK | (intro _ _ _) | (intro _ _) | with_reducible apply foldl_stable
    | with_reducible apply foldl_fst_stable | with_reducible apply overN_stable | extract_lets | with_reducible apply ite_stable
    | with_reducible apply ite_fst_stable | split | fail_if_no_progress (with_reducible apply KeepCore.other hK) | (dsimp +zetaDelta only)
theorem State.patrolStep_stable {P : State → Prop} (hK : KeepSys P) (s : State) (hsK : P s) : P (State.patrolStep s).1 := by
  unfold State.patrolStep
  repeat' first
    | with_reducible assumption | (with_reducible refine fst_stable (by assumption) ?_) | with_reducible apply State.bumpEv_stable hK.toKeepCore
    | with_reducible apply State.scrubBlock_stable hK | with_reducible apply State.showScrub_stable hK.toKeepCore | (intro _ _ _) | (intro _ _)
    | with_reducible apply foldl_stable | with_reducible apply foldl_fst_stable | with_reducible apply overN_stable | extract_lets
    | with_reducible apply ite_stable | with_reducible apply ite_fst_stable | split | fail_if_no_progress (with_reducible apply KeepSys.other hK)
    | (dsimp +zetaDelta only)
theorem State.wrSchedCfg_stable {P : State → Prop} (hK : KeepSys P) (s : State) (ch : Nat) (w : W64) (hsK : P s) : P (State.wrSchedCfg s ch w) := by
  unfold State.wrSchedCfg
  repeat' first
    | with_reducible assumption | (with_reducible refine fst_stable (by assumption) ?_) | with_reducible apply State.refuse_stable hK.toKeepCore
    | with_reducible apply State.settingWrite_stable hK.toKeepCore | with_reducible apply State.updateDrain_stable hK | (intro _ _ _) | (intro _ _)
    | with_reducible apply foldl_stable | with_reducible apply foldl_fst_stable | with_reducible apply overN_stable | extract_lets
    | with_reducible apply ite_stable | with_reducible apply ite_fst_stable | split | fail_if_no_progress (with_reducible apply KeepSys.other hK)
    | (dsimp +zetaDelta only)

end Sys2Proof.Machine
end

