-- ==== Sys2Proof/Laws/StableUnits.lean ====
section
/-! SUPPORT. Laws/StableUnits.lean: every operation keeps a stable property: worlds, pitches, frames, pipes, touch, power, register writes. -/
set_option linter.all false
namespace Sys2Proof.Machine

/-! ### Machine/Worlds.lean -/

theorem State.modBoot_stable {P : State → Prop} (hK : KeepSys P) (s : State) (f : BootSt → BootSt) (hsK : P s) : P (State.modBoot s f) := by
  unfold State.modBoot
  repeat' first
    | with_reducible assumption | (with_reducible refine fst_stable (by assumption) ?_) | (intro _ _ _) | (intro _ _)
    | with_reducible apply foldl_stable | with_reducible apply foldl_fst_stable | with_reducible apply overN_stable | extract_lets
    | with_reducible apply ite_stable | with_reducible apply ite_fst_stable | split | fail_if_no_progress (with_reducible apply KeepSys.other hK)
    | (dsimp +zetaDelta only)
theorem State.mrExtend_stable {P : State → Prop} (hK : KeepSys P) (s : State) (k : Nat) (d : List Byte) (hsK : P s) : P (State.mrExtend s k d) := by
  unfold State.mrExtend
  repeat' first
    | with_reducible assumption | (with_reducible refine fst_stable (by assumption) ?_) | with_reducible apply State.modBoot_stable hK
    | (intro _ _ _) | (intro _ _) | with_reducible apply foldl_stable | with_reducible apply foldl_fst_stable | with_reducible apply overN_stable
    | extract_lets | with_reducible apply ite_stable | with_reducible apply ite_fst_stable | split
    | fail_if_no_progress (with_reducible apply KeepSys.other hK) | (dsimp +zetaDelta only)
theorem State.setMeasEpoch_stable {P : State → Prop} (hK : KeepCore P) (s : State) (v : Nat) (hsK : P s) : P (State.setMeasEpoch s v) := by
  unfold State.setMeasEpoch
  repeat' first
    | with_reducible assumption | (with_reducible refine fst_stable (by assumption) ?_) | with_reducible apply State.wr_stable hK | (intro _ _ _)
    | (intro _ _) | with_reducible apply foldl_stable | with_reducible apply foldl_fst_stable | with_reducible apply overN_stable | extract_lets
    | with_reducible apply ite_stable | with_reducible apply ite_fst_stable | split | fail_if_no_progress (with_reducible apply KeepCore.other hK)
    | (dsimp +zetaDelta only)
theorem State.loadImage_stable {P : State → Prop} (hK : Stable P) (s : State) (b : List Byte) (hsK : P s) : P (State.loadImage s b) := by
  unfold State.loadImage
  repeat' first
    | with_reducible assumption | (with_reducible refine fst_stable (by assumption) ?_) | with_reducible apply State.memStore_stable hK
    | with_reducible apply State.modBoot_stable hK.toKeep.toKeepSys | (intro _ _ _) | (intro _ _) | with_reducible apply foldl_stable
    | with_reducible apply foldl_fst_stable | with_reducible apply overN_stable | extract_lets | with_reducible apply ite_stable
    | with_reducible apply ite_fst_stable | split | fail_if_no_progress (with_reducible apply Keep.other hK.toKeep) | (dsimp +zetaDelta only)
theorem State.measureImage_stable {P : State → Prop} (hK : KeepSys P) (s : State) (b : List Byte) (hsK : P s) : P (State.measureImage s b) := by
  unfold State.measureImage
  repeat' first
    | with_reducible assumption | (with_reducible refine fst_stable (by assumption) ?_) | with_reducible apply State.mrExtend_stable hK
    | (intro _ _ _) | (intro _ _) | with_reducible apply foldl_stable | with_reducible apply foldl_fst_stable | with_reducible apply overN_stable
    | extract_lets | with_reducible apply ite_stable | with_reducible apply ite_fst_stable | split
    | fail_if_no_progress (with_reducible apply KeepSys.other hK) | (dsimp +zetaDelta only)
theorem State.enterZhotor_stable {P : State → Prop} (hK : Stable P) (s : State) (b : List Byte) (hsK : P s) : P (State.enterZhotor s b) := by
  unfold State.enterZhotor
  repeat' first
    | with_reducible assumption | (with_reducible refine fst_stable (by assumption) ?_)
    | with_reducible apply State.toDstate_stable hK.toKeep.toKeepCore | with_reducible apply State.halt_stable hK.toKeep.toKeepSys
    | with_reducible apply State.modBoot_stable hK.toKeep.toKeepSys | with_reducible apply State.setMeasEpoch_stable hK.toKeep.toKeepCore
    | with_reducible apply State.loadImage_stable hK | with_reducible apply State.measureImage_stable hK.toKeep.toKeepSys | (intro _ _ _)
    | (intro _ _) | with_reducible apply foldl_stable | with_reducible apply foldl_fst_stable | with_reducible apply overN_stable | extract_lets
    | with_reducible apply ite_stable | with_reducible apply ite_fst_stable | split
    | fail_if_no_progress (with_reducible apply Keep.other hK.toKeep) | (dsimp +zetaDelta only)
theorem State.modHart_stable {P : State → Prop} (hK : KeepSys P) (s : State) (h : Nat) (f : HartSt → HartSt) (hsK : P s) :
    P (State.modHart s h f) := by
  unfold State.modHart
  repeat' first
    | with_reducible assumption | (with_reducible refine fst_stable (by assumption) ?_) | (intro _ _ _) | (intro _ _)
    | with_reducible apply foldl_stable | with_reducible apply foldl_fst_stable | with_reducible apply overN_stable | extract_lets
    | with_reducible apply ite_stable | with_reducible apply ite_fst_stable | split | fail_if_no_progress (with_reducible apply KeepSys.other hK)
    | (dsimp +zetaDelta only)
theorem State.retire_stable {P : State → Prop} (hK : KeepSys P) (s : State) (h status : Nat) (args : List W64) (hsK : P s) :
    P (State.retire s h status args) := by
  unfold State.retire
  repeat' first
    | with_reducible assumption | (with_reducible refine fst_stable (by assumption) ?_) | with_reducible apply State.modHart_stable hK
    | (intro _ _ _) | (intro _ _) | with_reducible apply foldl_stable | with_reducible apply foldl_fst_stable | with_reducible apply overN_stable
    | extract_lets | with_reducible apply ite_stable | with_reducible apply ite_fst_stable | split
    | fail_if_no_progress (with_reducible apply KeepSys.other hK) | (dsimp +zetaDelta only)
theorem State.callDone_stable {P : State → Prop} (hK : KeepSys P) (s : State) (h status : Nat) (hsK : P s) : P (State.callDone s h status) := by
  unfold State.callDone
  repeat' first
    | with_reducible assumption | (with_reducible refine fst_stable (by assumption) ?_) | with_reducible apply State.wr_stable hK.toKeepCore
    | with_reducible apply State.retire_stable hK | (intro _ _ _) | (intro _ _) | with_reducible apply foldl_stable
    | with_reducible apply foldl_fst_stable | with_reducible apply overN_stable | extract_lets | with_reducible apply ite_stable
    | with_reducible apply ite_fst_stable | split | fail_if_no_progress (with_reducible apply KeepSys.other hK) | (dsimp +zetaDelta only)
theorem State.callPost_stable {P : State → Prop} (hK : KeepSys P) (s : State) (h prv fn : Nat) (args : List W64) (hsK : P s) :
    P (State.callPost s h prv fn args) := by
  unfold State.callPost
  repeat' first
    | with_reducible assumption | (with_reducible refine fst_stable (by assumption) ?_) | with_reducible apply State.setRw_stable hK.toKeepCore
    | with_reducible apply State.wr_stable hK.toKeepCore | with_reducible apply State.bumpErr_stable hK.toKeepCore
    | with_reducible apply State.refuse_stable hK.toKeepCore | with_reducible apply State.kevt_stable hK.toKeepCore
    | with_reducible apply State.callDone_stable hK | (intro _ _ _) | (intro _ _) | with_reducible apply foldl_stable
    | with_reducible apply foldl_fst_stable | with_reducible apply overN_stable | extract_lets | with_reducible apply ite_stable
    | with_reducible apply ite_fst_stable | split | fail_if_no_progress (with_reducible apply KeepSys.other hK) | (dsimp +zetaDelta only)
theorem State.predict_stable {P : State → Prop} (hK : KeepSys P) (s : State) (h prv : Nat) (hsK : P s) : P (State.predict s h prv) := by
  unfold State.predict
  repeat' first
    | with_reducible assumption | (with_reducible refine fst_stable (by assumption) ?_) | with_reducible apply State.modHart_stable hK
    | (intro _ _ _) | (intro _ _) | with_reducible apply foldl_stable | with_reducible apply foldl_fst_stable | with_reducible apply overN_stable
    | extract_lets | with_reducible apply ite_stable | with_reducible apply ite_fst_stable | split
    | fail_if_no_progress (with_reducible apply KeepSys.other hK) | (dsimp +zetaDelta only)
theorem State.illegal_stable {P : State → Prop} (hK : KeepSys P) (s : State) (core : Option (Fin 4)) (hsK : P s) : P (State.illegal s core) := by
  unfold State.illegal
  repeat' first
    | with_reducible assumption | (with_reducible refine fst_stable (by assumption) ?_) | with_reducible apply State.modHart_stable hK
    | (intro _ _ _) | (intro _ _) | with_reducible apply foldl_stable | with_reducible apply foldl_fst_stable | with_reducible apply overN_stable
    | extract_lets | with_reducible apply ite_stable | with_reducible apply ite_fst_stable | split
    | fail_if_no_progress (with_reducible apply KeepSys.other hK) | (dsimp +zetaDelta only)
theorem State.wcall_stable {P : State → Prop} (hK : KeepSys P) (s : State) (h : Fin 4) (prv : Nat) (a7 : W64) (args : List W64) (hsK : P s) :
    P (State.wcall s h prv a7 args) := by
  unfold State.wcall
  repeat' first
    | with_reducible assumption | (with_reducible refine fst_stable (by assumption) ?_) | with_reducible apply State.retire_stable hK
    | with_reducible apply State.callPost_stable hK | with_reducible apply State.illegal_stable hK | (intro _ _ _) | (intro _ _)
    | with_reducible apply foldl_stable | with_reducible apply foldl_fst_stable | with_reducible apply overN_stable | extract_lets
    | with_reducible apply ite_stable | with_reducible apply ite_fst_stable | split | fail_if_no_progress (with_reducible apply KeepSys.other hK)
    | (dsimp +zetaDelta only)
theorem State.worldCsr_stable {P : State → Prop} (hK : KeepSys P) (s : State) (core : Option (Fin 4)) (prv csr : Nat) (write : Option W64) (hsK : P s) :
    P (State.worldCsr s core prv csr write) := by
  unfold State.worldCsr
  repeat' first
    | with_reducible assumption | (with_reducible refine fst_stable (by assumption) ?_) | with_reducible apply State.answer_stable hK.toKeepCore
    | with_reducible apply State.write_stable hK.toKeepCore | with_reducible apply State.modHart_stable hK | with_reducible apply State.illegal_stable hK
    | (intro _ _ _) | (intro _ _) | with_reducible apply foldl_stable | with_reducible apply foldl_fst_stable | with_reducible apply overN_stable
    | extract_lets | with_reducible apply ite_stable | with_reducible apply ite_fst_stable | split
    | fail_if_no_progress (with_reducible apply KeepSys.other hK) | (dsimp +zetaDelta only)
theorem execWcall_stable {P : State → Prop} (hK : KeepSys P) (core : Option (Fin 4)) (prv : Fin 4) (op : WorldOp) (a7 : W64) (args : List W64) (s : State) (hsK : P s) :
    ∃ r_, execWcall core prv op a7 args s = .next r_ ∧ P r_ := by
  unfold execWcall
  refine ⟨_, rfl, ?_⟩
  repeat' first
    | with_reducible assumption | (with_reducible refine fst_stable (by assumption) ?_) | with_reducible apply State.begin_stable hK.toKeepCore
    | with_reducible apply State.guard_stable hK.toKeepCore | with_reducible apply State.predict_stable hK | with_reducible apply State.illegal_stable hK
    | with_reducible apply State.wcall_stable hK | with_reducible apply State.worldCsr_stable hK | (intro _ _ _) | (intro _ _)
    | with_reducible apply foldl_stable | with_reducible apply foldl_fst_stable | with_reducible apply overN_stable | extract_lets
    | with_reducible apply ite_stable | with_reducible apply ite_fst_stable | split | fail_if_no_progress (with_reducible apply KeepSys.other hK)
    | (dsimp +zetaDelta only)
theorem State.wrWcRsp_stable {P : State → Prop} (hK : KeepSys P) (s : State) (h : Nat) (w : W64) (hsK : P s) : P (State.wrWcRsp s h w) := by
  unfold State.wrWcRsp
  repeat' first
    | with_reducible assumption | (with_reducible refine fst_stable (by assumption) ?_) | with_reducible apply State.refuse_stable hK.toKeepCore
    | with_reducible apply State.callDone_stable hK | (intro _ _ _) | (intro _ _) | with_reducible apply foldl_stable
    | with_reducible apply foldl_fst_stable | with_reducible apply overN_stable | extract_lets | with_reducible apply ite_stable
    | with_reducible apply ite_fst_stable | split | fail_if_no_progress (with_reducible apply KeepSys.other hK) | (dsimp +zetaDelta only)
theorem execWcRsp_stable {P : State → Prop} (hK : KeepSys P) (who : Who) (h : Fin 4) (status : BitVec 8) (s : State) (hsK : P s) :
    ∃ r_, execWcRsp who h status s = .next r_ ∧ P r_ := by
  unfold execWcRsp
  refine ⟨_, rfl, ?_⟩
  repeat' first
    | with_reducible assumption | (with_reducible refine fst_stable (by assumption) ?_) | with_reducible apply State.begin_stable hK.toKeepCore
    | with_reducible apply State.write_stable hK.toKeepCore | with_reducible apply State.wrWcRsp_stable hK | (intro _ _ _) | (intro _ _)
    | with_reducible apply foldl_stable | with_reducible apply foldl_fst_stable | with_reducible apply overN_stable | extract_lets
    | with_reducible apply ite_stable | with_reducible apply ite_fst_stable | split | fail_if_no_progress (with_reducible apply KeepSys.other hK)
    | (dsimp +zetaDelta only)
theorem execWcLimitExpiry_stable {P : State → Prop} (hK : KeepSys P) (h : Fin 4) (s : State) (hsK : P s) :
    ∃ r_, execWcLimitExpiry h s = .next r_ ∧ P r_ := by
  unfold execWcLimitExpiry
  refine ⟨_, rfl, ?_⟩
  repeat' first
    | with_reducible assumption | (with_reducible refine fst_stable (by assumption) ?_) | with_reducible apply State.bumpErr_stable hK.toKeepCore
    | with_reducible apply State.begin_stable hK.toKeepCore | with_reducible apply State.guard_stable hK.toKeepCore
    | with_reducible apply State.callDone_stable hK | (intro _ _ _) | (intro _ _) | with_reducible apply foldl_stable
    | with_reducible apply foldl_fst_stable | with_reducible apply overN_stable | extract_lets | with_reducible apply ite_stable
    | with_reducible apply ite_fst_stable | split | fail_if_no_progress (with_reducible apply KeepSys.other hK) | (dsimp +zetaDelta only)
theorem State.callsBusy_stable {P : State → Prop} (hK : KeepSys P) (s : State) (hsK : P s) : P (State.callsBusy s) := by
  unfold State.callsBusy
  repeat' first
    | with_reducible assumption | (with_reducible refine fst_stable (by assumption) ?_) | with_reducible apply State.bumpErr_stable hK.toKeepCore
    | with_reducible apply State.callDone_stable hK | (intro _ _ _) | (intro _ _) | with_reducible apply foldl_stable
    | with_reducible apply foldl_fst_stable | with_reducible apply overN_stable | extract_lets | with_reducible apply ite_stable
    | with_reducible apply ite_fst_stable | split | fail_if_no_progress (with_reducible apply KeepSys.other hK) | (dsimp +zetaDelta only)
theorem State.keeperLost_stable {P : State → Prop} (hK : KeepCore P) (s : State) (hsK : P s) : P (State.keeperLost s) := by
  unfold State.keeperLost
  repeat' first
    | with_reducible assumption | (with_reducible refine fst_stable (by assumption) ?_) | with_reducible apply State.wr_stable hK
    | with_reducible apply State.toDstate_stable hK | with_reducible apply State.setStateBit_stable hK | (intro _ _ _) | (intro _ _)
    | with_reducible apply foldl_stable | with_reducible apply foldl_fst_stable | with_reducible apply overN_stable | extract_lets
    | with_reducible apply ite_stable | with_reducible apply ite_fst_stable | split | fail_if_no_progress (with_reducible apply KeepCore.other hK)
    | (dsimp +zetaDelta only)
theorem State.keeperRestart_stable {P : State → Prop} (hK : KeepSys P) (s : State) (cause t : Nat) (hsK : P s) :
    P (State.keeperRestart s cause t) := by
  unfold State.keeperRestart
  repeat' first
    | with_reducible assumption | (with_reducible refine fst_stable (by assumption) ?_) | with_reducible apply State.wr_stable hK.toKeepCore
    | with_reducible apply State.bumpEv_stable hK.toKeepCore | with_reducible apply State.bootStat_stable hK.toKeepCore
    | with_reducible apply State.modBoot_stable hK | with_reducible apply State.mrExtend_stable hK | with_reducible apply State.callsBusy_stable hK
    | with_reducible apply State.keeperLost_stable hK.toKeepCore | (intro _ _ _) | (intro _ _) | with_reducible apply foldl_stable
    | with_reducible apply foldl_fst_stable | with_reducible apply overN_stable | extract_lets | with_reducible apply ite_stable
    | with_reducible apply ite_fst_stable | split | fail_if_no_progress (with_reducible apply KeepSys.other hK) | (dsimp +zetaDelta only)
theorem State.restartDone_stable {P : State → Prop} (hK : Stable P) (s : State) (b : List Byte) (hsK : P s) : P (State.restartDone s b) := by
  unfold State.restartDone
  repeat' first
    | with_reducible assumption | (with_reducible refine fst_stable (by assumption) ?_)
    | with_reducible apply State.ledger_stable hK.toKeep.toKeepUnits | with_reducible apply State.modBoot_stable hK.toKeep.toKeepSys
    | with_reducible apply State.setMeasEpoch_stable hK.toKeep.toKeepCore | with_reducible apply State.loadImage_stable hK
    | with_reducible apply State.measureImage_stable hK.toKeep.toKeepSys | with_reducible apply State.modHart_stable hK.toKeep.toKeepSys | (intro _ _ _)
    | (intro _ _) | with_reducible apply foldl_stable | with_reducible apply foldl_fst_stable | with_reducible apply overN_stable | extract_lets
    | with_reducible apply ite_stable | with_reducible apply ite_fst_stable | split
    | fail_if_no_progress (with_reducible apply Keep.other hK.toKeep) | (dsimp +zetaDelta only)
theorem State.bootSlots_stable {P : State → Prop} (hK : KeepCore P) (s : State) (ok : State → List Byte → State) (fail : State → State) (hok : ∀ x0 x1, P x0 → P (ok x0 x1)) (hfail : ∀ x0, P x0 → P (fail x0)) (hsK : P s) :
    P (State.bootSlots s ok fail) := by
  unfold State.bootSlots
  repeat' first
    | with_reducible assumption | (with_reducible refine fst_stable (by assumption) ?_) | with_reducible apply State.bootStat_stable hK
    | with_reducible apply hok | with_reducible apply hfail | (intro _ _ _) | (intro _ _) | with_reducible apply foldl_stable
    | with_reducible apply foldl_fst_stable | with_reducible apply overN_stable | extract_lets | with_reducible apply ite_stable
    | with_reducible apply ite_fst_stable | split | fail_if_no_progress (with_reducible apply KeepCore.other hK) | (dsimp +zetaDelta only)
theorem execBootImageChecked_stable {P : State → Prop} (hK : Stable P) (otpOk : Bool) (s : State) (hsK : P s) :
    ∃ r_, execBootImageChecked otpOk s = .next r_ ∧ P r_ := by
  unfold execBootImageChecked
  refine ⟨_, rfl, ?_⟩
  repeat' first
    | with_reducible assumption | (with_reducible refine fst_stable (by assumption) ?_) | with_reducible apply State.begin_stable hK.toKeep.toKeepCore
    | with_reducible apply State.halt_stable hK.toKeep.toKeepSys | with_reducible apply State.enterZhotor_stable hK
    | with_reducible apply State.keeperLost_stable hK.toKeep.toKeepCore | with_reducible apply State.restartDone_stable hK
    | with_reducible apply State.bootSlots_stable hK.toKeep.toKeepCore | (intro _ _ _) | (intro _ _) | with_reducible apply foldl_stable
    | with_reducible apply foldl_fst_stable | with_reducible apply overN_stable | extract_lets | with_reducible apply ite_stable
    | with_reducible apply ite_fst_stable | split | fail_if_no_progress (with_reducible apply Keep.other hK.toKeep) | (dsimp +zetaDelta only)
theorem State.recovGo_stable {P : State → Prop} (hK : Stable P) (s : State) (hsK : P s) : P (State.recovGo s) := by
  unfold State.recovGo
  repeat' first
    | with_reducible assumption | (with_reducible refine fst_stable (by assumption) ?_)
    | with_reducible apply State.sramLoad_stable hK.toKeep.toKeepSys | with_reducible apply State.halt_stable hK.toKeep.toKeepSys
    | with_reducible apply State.enterZhotor_stable hK | (intro _ _ _) | (intro _ _) | with_reducible apply foldl_stable
    | with_reducible apply foldl_fst_stable | with_reducible apply overN_stable | extract_lets | with_reducible apply ite_stable
    | with_reducible apply ite_fst_stable | split | fail_if_no_progress (with_reducible apply Keep.other hK.toKeep) | (dsimp +zetaDelta only)
theorem execRecovGo_stable {P : State → Prop} (hK : Stable P) (go : Bool) (s : State) (hsK : P s) :
    ∃ r_, execRecovGo go s = .next r_ ∧ P r_ := by
  unfold execRecovGo
  refine ⟨_, rfl, ?_⟩
  repeat' first
    | with_reducible assumption | (with_reducible refine fst_stable (by assumption) ?_) | with_reducible apply State.begin_stable hK.toKeep.toKeepCore
    | with_reducible apply State.guard_stable hK.toKeep.toKeepCore | with_reducible apply State.recovGo_stable hK | (intro _ _ _) | (intro _ _)
    | with_reducible apply foldl_stable | with_reducible apply foldl_fst_stable | with_reducible apply overN_stable | extract_lets
    | with_reducible apply ite_stable | with_reducible apply ite_fst_stable | split
    | fail_if_no_progress (with_reducible apply Keep.other hK.toKeep) | (dsimp +zetaDelta only)
theorem execRecoveryTimeout_stable {P : State → Prop} (hK : KeepSys P) (s : State) (hsK : P s) : ∃ r_, execRecoveryTimeout s = .next r_ ∧ P r_ := by
  unfold execRecoveryTimeout
  refine ⟨_, rfl, ?_⟩
  repeat' first
    | with_reducible assumption | (with_reducible refine fst_stable (by assumption) ?_) | with_reducible apply State.begin_stable hK.toKeepCore
    | with_reducible apply State.guard_stable hK.toKeepCore | with_reducible apply State.halt_stable hK | (intro _ _ _) | (intro _ _)
    | with_reducible apply foldl_stable | with_reducible apply foldl_fst_stable | with_reducible apply overN_stable | extract_lets
    | with_reducible apply ite_stable | with_reducible apply ite_fst_stable | split | fail_if_no_progress (with_reducible apply KeepSys.other hK)
    | (dsimp +zetaDelta only)
theorem execPcieLinkUp_stable {P : State → Prop} (hK : KeepSys P) (s : State) (hsK : P s) : ∃ r_, execPcieLinkUp s = .next r_ ∧ P r_ := by
  unfold execPcieLinkUp
  refine ⟨_, rfl, ?_⟩
  repeat' first
    | with_reducible assumption | (with_reducible refine fst_stable (by assumption) ?_) | with_reducible apply State.begin_stable hK.toKeepCore
    | with_reducible apply State.guard_stable hK.toKeepCore | with_reducible apply State.modBoot_stable hK | (intro _ _ _) | (intro _ _)
    | with_reducible apply foldl_stable | with_reducible apply foldl_fst_stable | with_reducible apply overN_stable | extract_lets
    | with_reducible apply ite_stable | with_reducible apply ite_fst_stable | split | fail_if_no_progress (with_reducible apply KeepSys.other hK)
    | (dsimp +zetaDelta only)
theorem State.loadFirmware_stable {P : State → Prop} (hK : Stable P) (s : State) (slot : Nat) (hsK : P s) : P (State.loadFirmware s slot) := by
  unfold State.loadFirmware
  repeat' first
    | with_reducible assumption | (with_reducible refine fst_stable (by assumption) ?_) | with_reducible apply State.memStore_stable hK
    | with_reducible apply State.modBoot_stable hK.toKeep.toKeepSys | with_reducible apply State.mrExtend_stable hK.toKeep.toKeepSys | (intro _ _ _)
    | (intro _ _) | with_reducible apply foldl_stable | with_reducible apply foldl_fst_stable | with_reducible apply overN_stable | extract_lets
    | with_reducible apply ite_stable | with_reducible apply ite_fst_stable | split
    | fail_if_no_progress (with_reducible apply Keep.other hK.toKeep) | (dsimp +zetaDelta only)
theorem State.serviceUp_stable {P : State → Prop} (hK : Stable P) (s : State) (hsK : P s) : P (State.serviceUp s) := by
  unfold State.serviceUp
  repeat' first
    | with_reducible assumption | (with_reducible refine fst_stable (by assumption) ?_)
    | with_reducible apply State.toDstate_stable hK.toKeep.toKeepCore | with_reducible apply State.stallGo_stable hK
    | with_reducible apply State.cacheRebuild_stable hK | with_reducible apply State.recStore_stable hK | with_reducible apply State.loadRwp_stable hK
    | with_reducible apply State.startCounter_stable hK | with_reducible apply State.restoreRecs_stable hK
    | with_reducible apply State.restoreOps_stable hK.toKeep.toKeepSys | (intro _ _ _) | (intro _ _) | with_reducible apply foldl_stable
    | with_reducible apply foldl_fst_stable | with_reducible apply overN_stable | extract_lets | with_reducible apply ite_stable
    | with_reducible apply ite_fst_stable | split | fail_if_no_progress (with_reducible apply Keep.other hK.toKeep) | (dsimp +zetaDelta only)
theorem State.trySvcUp_stable {P : State → Prop} (hK : Stable P) (s : State) (hsK : P s) : P (State.trySvcUp s) := by
  unfold State.trySvcUp
  repeat' first
    | with_reducible assumption | (with_reducible refine fst_stable (by assumption) ?_) | with_reducible apply State.serviceUp_stable hK
    | (intro _ _ _) | (intro _ _) | with_reducible apply foldl_stable | with_reducible apply foldl_fst_stable | with_reducible apply overN_stable
    | extract_lets | with_reducible apply ite_stable | with_reducible apply ite_fst_stable | split
    | fail_if_no_progress (with_reducible apply Keep.other hK.toKeep) | (dsimp +zetaDelta only)
theorem State.wmLock_stable {P : State → Prop} (hK : KeepSys P) (s : State) (hsK : P s) : P (State.wmLock s) := by
  unfold State.wmLock
  repeat' first
    | with_reducible assumption | (with_reducible refine fst_stable (by assumption) ?_) | with_reducible apply State.wr_stable hK.toKeepCore
    | with_reducible apply State.refuse_stable hK.toKeepCore | with_reducible apply State.halt_stable hK | (intro _ _ _) | (intro _ _)
    | with_reducible apply foldl_stable | with_reducible apply foldl_fst_stable | with_reducible apply overN_stable | extract_lets
    | with_reducible apply ite_stable | with_reducible apply ite_fst_stable | split | fail_if_no_progress (with_reducible apply KeepSys.other hK)
    | (dsimp +zetaDelta only)
theorem State.keeperUp_stable {P : State → Prop} (hK : Stable P) (s : State) (hsK : P s) : P (State.keeperUp s) := by
  unfold State.keeperUp
  repeat' first
    | with_reducible assumption | (with_reducible refine fst_stable (by assumption) ?_) | with_reducible apply State.wr_stable hK.toKeep.toKeepCore
    | with_reducible apply State.modBoot_stable hK.toKeep.toKeepSys | with_reducible apply State.trySvcUp_stable hK | (intro _ _ _) | (intro _ _)
    | with_reducible apply foldl_stable | with_reducible apply foldl_fst_stable | with_reducible apply overN_stable | extract_lets
    | with_reducible apply ite_stable | with_reducible apply ite_fst_stable | split
    | fail_if_no_progress (with_reducible apply Keep.other hK.toKeep) | (dsimp +zetaDelta only)
theorem State.wrKctrl_stable {P : State → Prop} (hK : Stable P) (s : State) (t : Nat) (w : W64) (hsK : P s) : P (State.wrKctrl s t w) := by
  unfold State.wrKctrl
  repeat' first
    | with_reducible assumption | (with_reducible refine fst_stable (by assumption) ?_)
    | with_reducible apply State.keeperRestart_stable hK.toKeep.toKeepSys | with_reducible apply State.wmLock_stable hK.toKeep.toKeepSys
    | with_reducible apply State.keeperUp_stable hK | (intro _ _ _) | (intro _ _) | with_reducible apply foldl_stable
    | with_reducible apply foldl_fst_stable | with_reducible apply overN_stable | extract_lets | with_reducible apply ite_stable
    | with_reducible apply ite_fst_stable | split | fail_if_no_progress (with_reducible apply Keep.other hK.toKeep) | (dsimp +zetaDelta only)
theorem execKick_stable {P : State → Prop} (hK : Stable P) (who : Who) (s : State) (hsK : P s) : ∃ r_, execKick who s = .next r_ ∧ P r_ := by
  unfold execKick
  refine ⟨_, rfl, ?_⟩
  repeat' first
    | with_reducible assumption | (with_reducible refine fst_stable (by assumption) ?_) | with_reducible apply State.begin_stable hK.toKeep.toKeepCore
    | with_reducible apply State.write_stable hK.toKeep.toKeepCore | with_reducible apply State.wrKctrl_stable hK | (intro _ _ _) | (intro _ _)
    | with_reducible apply foldl_stable | with_reducible apply foldl_fst_stable | with_reducible apply overN_stable | extract_lets
    | with_reducible apply ite_stable | with_reducible apply ite_fst_stable | split
    | fail_if_no_progress (with_reducible apply Keep.other hK.toKeep) | (dsimp +zetaDelta only)
theorem execRestart_stable {P : State → Prop} (hK : Stable P) (who : Who) (t : Nat) (s : State) (hsK : P s) :
    ∃ r_, execRestart who t s = .next r_ ∧ P r_ := by
  unfold execRestart
  refine ⟨_, rfl, ?_⟩
  repeat' first
    | with_reducible assumption | (with_reducible refine fst_stable (by assumption) ?_) | with_reducible apply State.begin_stable hK.toKeep.toKeepCore
    | with_reducible apply State.write_stable hK.toKeep.toKeepCore | with_reducible apply State.wrKctrl_stable hK | (intro _ _ _) | (intro _ _)
    | with_reducible apply foldl_stable | with_reducible apply foldl_fst_stable | with_reducible apply overN_stable | extract_lets
    | with_reducible apply ite_stable | with_reducible apply ite_fst_stable | split
    | fail_if_no_progress (with_reducible apply Keep.other hK.toKeep) | (dsimp +zetaDelta only)
theorem execWmLock_stable {P : State → Prop} (hK : Stable P) (who : Who) (s : State) (hsK : P s) :
    ∃ r_, execWmLock who s = .next r_ ∧ P r_ := by
  unfold execWmLock
  refine ⟨_, rfl, ?_⟩
  repeat' first
    | with_reducible assumption | (with_reducible refine fst_stable (by assumption) ?_) | with_reducible apply State.begin_stable hK.toKeep.toKeepCore
    | with_reducible apply State.write_stable hK.toKeep.toKeepCore | with_reducible apply State.wrKctrl_stable hK | (intro _ _ _) | (intro _ _)
    | with_reducible apply foldl_stable | with_reducible apply foldl_fst_stable | with_reducible apply overN_stable | extract_lets
    | with_reducible apply ite_stable | with_reducible apply ite_fst_stable | split
    | fail_if_no_progress (with_reducible apply Keep.other hK.toKeep) | (dsimp +zetaDelta only)
theorem execUp_stable {P : State → Prop} (hK : Stable P) (who : Who) (s : State) (hsK : P s) : ∃ r_, execUp who s = .next r_ ∧ P r_ := by
  unfold execUp
  refine ⟨_, rfl, ?_⟩
  repeat' first
    | with_reducible assumption | (with_reducible refine fst_stable (by assumption) ?_) | with_reducible apply State.begin_stable hK.toKeep.toKeepCore
    | with_reducible apply State.write_stable hK.toKeep.toKeepCore | with_reducible apply State.wrKctrl_stable hK | (intro _ _ _) | (intro _ _)
    | with_reducible apply foldl_stable | with_reducible apply foldl_fst_stable | with_reducible apply overN_stable | extract_lets
    | with_reducible apply ite_stable | with_reducible apply ite_fst_stable | split
    | fail_if_no_progress (with_reducible apply Keep.other hK.toKeep) | (dsimp +zetaDelta only)
theorem execKeeperWatchdogExpiry_stable {P : State → Prop} (hK : KeepSys P) (t : Nat) (s : State) (hsK : P s) :
    ∃ r_, execKeeperWatchdogExpiry t s = .next r_ ∧ P r_ := by
  unfold execKeeperWatchdogExpiry
  refine ⟨_, rfl, ?_⟩
  repeat' first
    | with_reducible assumption | (with_reducible refine fst_stable (by assumption) ?_) | with_reducible apply State.begin_stable hK.toKeepCore
    | with_reducible apply State.guard_stable hK.toKeepCore | with_reducible apply State.keeperRestart_stable hK | (intro _ _ _) | (intro _ _)
    | with_reducible apply foldl_stable | with_reducible apply foldl_fst_stable | with_reducible apply overN_stable | extract_lets
    | with_reducible apply ite_stable | with_reducible apply ite_fst_stable | split | fail_if_no_progress (with_reducible apply KeepSys.other hK)
    | (dsimp +zetaDelta only)
theorem execLockstepMismatch_stable {P : State → Prop} (hK : KeepSys P) (t : Nat) (s : State) (hsK : P s) :
    ∃ r_, execLockstepMismatch t s = .next r_ ∧ P r_ := by
  unfold execLockstepMismatch
  refine ⟨_, rfl, ?_⟩
  repeat' first
    | with_reducible assumption | (with_reducible refine fst_stable (by assumption) ?_) | with_reducible apply State.begin_stable hK.toKeepCore
    | with_reducible apply State.keeperRestart_stable hK | (intro _ _ _) | (intro _ _) | with_reducible apply foldl_stable
    | with_reducible apply foldl_fst_stable | with_reducible apply overN_stable | extract_lets | with_reducible apply ite_stable
    | with_reducible apply ite_fst_stable | split | fail_if_no_progress (with_reducible apply KeepSys.other hK) | (dsimp +zetaDelta only)
theorem State.wrSvcCtrl_stable {P : State → Prop} (hK : Stable P) (s : State) (w : W64) (hsK : P s) : P (State.wrSvcCtrl s w) := by
  unfold State.wrSvcCtrl
  repeat' first
    | with_reducible assumption | (with_reducible refine fst_stable (by assumption) ?_) | with_reducible apply State.wr_stable hK.toKeep.toKeepCore
    | with_reducible apply State.refuse_stable hK.toKeep.toKeepCore | with_reducible apply State.halt_stable hK.toKeep.toKeepSys
    | with_reducible apply State.modBoot_stable hK.toKeep.toKeepSys | with_reducible apply State.loadFirmware_stable hK
    | with_reducible apply State.trySvcUp_stable hK | (intro _ _ _) | (intro _ _) | with_reducible apply foldl_stable
    | with_reducible apply foldl_fst_stable | with_reducible apply overN_stable | extract_lets | with_reducible apply ite_stable
    | with_reducible apply ite_fst_stable | split | fail_if_no_progress (with_reducible apply Keep.other hK.toKeep) | (dsimp +zetaDelta only)
theorem execSvcRun_stable {P : State → Prop} (hK : Stable P) (who : Who) (run : BitVec 4) (s : State) (hsK : P s) :
    ∃ r_, execSvcRun who run s = .next r_ ∧ P r_ := by
  unfold execSvcRun
  refine ⟨_, rfl, ?_⟩
  repeat' first
    | with_reducible assumption | (with_reducible refine fst_stable (by assumption) ?_) | with_reducible apply State.begin_stable hK.toKeep.toKeepCore
    | with_reducible apply State.write_stable hK.toKeep.toKeepCore | with_reducible apply State.wrSvcCtrl_stable hK | (intro _ _ _) | (intro _ _)
    | with_reducible apply foldl_stable | with_reducible apply foldl_fst_stable | with_reducible apply overN_stable | extract_lets
    | with_reducible apply ite_stable | with_reducible apply ite_fst_stable | split
    | fail_if_no_progress (with_reducible apply Keep.other hK.toKeep) | (dsimp +zetaDelta only)
theorem State.wrSvcThaw_stable {P : State → Prop} (hK : KeepSys P) (s : State) (w : W64) (hsK : P s) : P (State.wrSvcThaw s w) := by
  unfold State.wrSvcThaw
  repeat' first
    | with_reducible assumption | (with_reducible refine fst_stable (by assumption) ?_) | with_reducible apply State.wr_stable hK.toKeepCore
    | with_reducible apply State.refuse_stable hK.toKeepCore | with_reducible apply State.modHart_stable hK | (intro _ _ _) | (intro _ _)
    | with_reducible apply foldl_stable | with_reducible apply foldl_fst_stable | with_reducible apply overN_stable | extract_lets
    | with_reducible apply ite_stable | with_reducible apply ite_fst_stable | split | fail_if_no_progress (with_reducible apply KeepSys.other hK)
    | (dsimp +zetaDelta only)
theorem execSvcThaw_stable {P : State → Prop} (hK : KeepSys P) (who : Who) (harts : BitVec 4) (s : State) (hsK : P s) :
    ∃ r_, execSvcThaw who harts s = .next r_ ∧ P r_ := by
  unfold execSvcThaw
  refine ⟨_, rfl, ?_⟩
  repeat' first
    | with_reducible assumption | (with_reducible refine fst_stable (by assumption) ?_) | with_reducible apply State.begin_stable hK.toKeepCore
    | with_reducible apply State.write_stable hK.toKeepCore | with_reducible apply State.wrSvcThaw_stable hK | (intro _ _ _) | (intro _ _)
    | with_reducible apply foldl_stable | with_reducible apply foldl_fst_stable | with_reducible apply overN_stable | extract_lets
    | with_reducible apply ite_stable | with_reducible apply ite_fst_stable | split | fail_if_no_progress (with_reducible apply KeepSys.other hK)
    | (dsimp +zetaDelta only)
theorem State.kevPop_stable {P : State → Prop} (h : KeepCore P) (s : State) (hs : P s) : P (s.kevPop) := State.wr_stable h _ _ _ _ (h.pop hs)
theorem State.readKevt_stable {P : State → Prop} (hK : KeepCore P) (s : State) (part : Nat) (hsK : P s) : P (State.readKevt s part) := by
  unfold State.readKevt
  repeat' first
    | with_reducible assumption | (with_reducible refine fst_stable (by assumption) ?_) | with_reducible apply State.answer_stable hK
    | with_reducible apply State.kevPop_stable hK | (intro _ _ _) | (intro _ _) | with_reducible apply foldl_stable
    | with_reducible apply foldl_fst_stable | with_reducible apply overN_stable | extract_lets | with_reducible apply ite_stable
    | with_reducible apply ite_fst_stable | split | fail_if_no_progress (with_reducible apply KeepCore.other hK) | (dsimp +zetaDelta only)
theorem execKevtRead_stable {P : State → Prop} (hK : KeepCore P) (who : Who) (part : Fin 3) (s : State) (hsK : P s) :
    ∃ r_, execKevtRead who part s = .next r_ ∧ P r_ := by
  unfold execKevtRead
  refine ⟨_, rfl, ?_⟩
  repeat' first
    | with_reducible assumption | (with_reducible refine fst_stable (by assumption) ?_) | with_reducible apply State.begin_stable hK
    | with_reducible apply State.access_stable hK | with_reducible apply State.readKevt_stable hK | (intro _ _ _) | (intro _ _)
    | with_reducible apply foldl_stable | with_reducible apply foldl_fst_stable | with_reducible apply overN_stable | extract_lets
    | with_reducible apply ite_stable | with_reducible apply ite_fst_stable | split | fail_if_no_progress (with_reducible apply KeepCore.other hK)
    | (dsimp +zetaDelta only)
theorem State.readSvcVrec_stable {P : State → Prop} (hK : KeepCore P) (s : State) (h : Nat) (stale : Bool) (hsK : P s) :
    P (State.readSvcVrec s h stale) := by
  unfold State.readSvcVrec
  repeat' first
    | with_reducible assumption | (with_reducible refine fst_stable (by assumption) ?_) | with_reducible apply State.readReg_stable hK
    | (intro _ _ _) | (intro _ _) | with_reducible apply foldl_stable | with_reducible apply foldl_fst_stable | with_reducible apply overN_stable
    | extract_lets | with_reducible apply ite_stable | with_reducible apply ite_fst_stable | split
    | fail_if_no_progress (with_reducible apply KeepCore.other hK) | (dsimp +zetaDelta only)
theorem execSvcVrecRead_stable {P : State → Prop} (hK : KeepCore P) (who : Who) (h : Fin 4) (stale : Bool) (s : State) (hsK : P s) :
    ∃ r_, execSvcVrecRead who h stale s = .next r_ ∧ P r_ := by
  unfold execSvcVrecRead
  refine ⟨_, rfl, ?_⟩
  repeat' first
    | with_reducible assumption | (with_reducible refine fst_stable (by assumption) ?_) | with_reducible apply State.begin_stable hK
    | with_reducible apply State.access_stable hK | with_reducible apply State.readSvcVrec_stable hK | (intro _ _ _) | (intro _ _)
    | with_reducible apply foldl_stable | with_reducible apply foldl_fst_stable | with_reducible apply overN_stable | extract_lets
    | with_reducible apply ite_stable | with_reducible apply ite_fst_stable | split | fail_if_no_progress (with_reducible apply KeepCore.other hK)
    | (dsimp +zetaDelta only)

/-! ### Machine/Pitch.lean -/

theorem State.pitchEvent_stable {P : State → Prop} (hK : KeepUnits P) (s : State) (p k code : Nat) (hsK : P s) :
    P (State.pitchEvent s p k code) := by
  unfold State.pitchEvent
  repeat' first
    | with_reducible assumption | (with_reducible refine fst_stable (by assumption) ?_) | with_reducible apply State.ledger_stable hK
    | (intro _ _ _) | (intro _ _) | with_reducible apply foldl_stable | with_reducible apply foldl_fst_stable | with_reducible apply overN_stable
    | extract_lets | with_reducible apply ite_stable | with_reducible apply ite_fst_stable | split
    | fail_if_no_progress (with_reducible apply KeepUnits.other hK) | (dsimp +zetaDelta only)
theorem State.wrPcfg_stable {P : State → Prop} (hK : KeepCore P) (s : State) (p k : Nat) (w : W64) (hsK : P s) : P (State.wrPcfg s p k w) := by
  unfold State.wrPcfg
  repeat' first
    | with_reducible assumption | (with_reducible refine fst_stable (by assumption) ?_) | with_reducible apply State.refuse_stable hK
    | with_reducible apply State.settingWrite_stable hK | (intro _ _ _) | (intro _ _) | with_reducible apply foldl_stable
    | with_reducible apply foldl_fst_stable | with_reducible apply overN_stable | extract_lets | with_reducible apply ite_stable
    | with_reducible apply ite_fst_stable | split | fail_if_no_progress (with_reducible apply KeepCore.other hK) | (dsimp +zetaDelta only)
theorem State.wrPexpCtl_stable {P : State → Prop} (hK : KeepUnits P) (s : State) (p k : Nat) (w : W64) (hsK : P s) :
    P (State.wrPexpCtl s p k w) := by
  unfold State.wrPexpCtl
  repeat' first
    | with_reducible assumption | (with_reducible refine fst_stable (by assumption) ?_) | with_reducible apply State.refuse_stable hK.toKeepCore
    | with_reducible apply State.modPitch_stable hK | (intro _ _ _) | (intro _ _) | with_reducible apply foldl_stable
    | with_reducible apply foldl_fst_stable | with_reducible apply overN_stable | extract_lets | with_reducible apply ite_stable
    | with_reducible apply ite_fst_stable | split | fail_if_no_progress (with_reducible apply KeepUnits.other hK) | (dsimp +zetaDelta only)
theorem State.wrExpCtl_stable {P : State → Prop} (hK : KeepUnits P) (s : State) (st p k : Nat) (w : W64) (hsK : P s) :
    P (State.wrExpCtl s st p k w) := by
  unfold State.wrExpCtl
  repeat' first
    | with_reducible assumption | (with_reducible refine fst_stable (by assumption) ?_) | with_reducible apply State.modPitch_stable hK
    | (intro _ _ _) | (intro _ _) | with_reducible apply foldl_stable | with_reducible apply foldl_fst_stable | with_reducible apply overN_stable
    | extract_lets | with_reducible apply ite_stable | with_reducible apply ite_fst_stable | split
    | fail_if_no_progress (with_reducible apply KeepUnits.other hK) | (dsimp +zetaDelta only)
theorem State.pitchClear_stable {P : State → Prop} (hK : KeepUnits P) (s : State) (p k : Nat) (hsK : P s) : P (State.pitchClear s p k) := by
  unfold State.pitchClear
  repeat' first
    | with_reducible assumption | (with_reducible refine fst_stable (by assumption) ?_) | with_reducible apply State.wr_stable hK.toKeepCore
    | with_reducible apply State.modPitch_stable hK | (intro _ _ _) | (intro _ _) | with_reducible apply foldl_stable
    | with_reducible apply foldl_fst_stable | with_reducible apply overN_stable | extract_lets | with_reducible apply ite_stable
    | with_reducible apply ite_fst_stable | split | fail_if_no_progress (with_reducible apply KeepUnits.other hK) | (dsimp +zetaDelta only)
theorem State.wrPitchCtrl_stable {P : State → Prop} (hK : KeepUnits P) (s : State) (p : Nat) (w : W64) (hsK : P s) :
    P (State.wrPitchCtrl s p w) := by
  unfold State.wrPitchCtrl
  repeat' first
    | with_reducible assumption | (with_reducible refine fst_stable (by assumption) ?_) | with_reducible apply State.wr_stable hK.toKeepCore
    | with_reducible apply State.plate_stable hK.toKeepCore | with_reducible apply State.pitchClear_stable hK | (intro _ _ _) | (intro _ _)
    | with_reducible apply foldl_stable | with_reducible apply foldl_fst_stable | with_reducible apply overN_stable | extract_lets
    | with_reducible apply ite_stable | with_reducible apply ite_fst_stable | split | fail_if_no_progress (with_reducible apply KeepUnits.other hK)
    | (dsimp +zetaDelta only)
theorem execPcfgWrite_stable {P : State → Prop} (hK : KeepCore P) (who : Who) (p : Fin 8) (k : Fin 16) (w : W32) (s : State) (hsK : P s) :
    ∃ r_, execPcfgWrite who p k w s = .next r_ ∧ P r_ := by
  unfold execPcfgWrite
  refine ⟨_, rfl, ?_⟩
  repeat' first
    | with_reducible assumption | (with_reducible refine fst_stable (by assumption) ?_) | with_reducible apply State.begin_stable hK
    | with_reducible apply State.write_stable hK | with_reducible apply State.wrPcfg_stable hK | (intro _ _ _) | (intro _ _)
    | with_reducible apply foldl_stable | with_reducible apply foldl_fst_stable | with_reducible apply overN_stable | extract_lets
    | with_reducible apply ite_stable | with_reducible apply ite_fst_stable | split | fail_if_no_progress (with_reducible apply KeepCore.other hK)
    | (dsimp +zetaDelta only)
theorem execPitchCommit_stable {P : State → Prop} (hK : KeepUnits P) (who : Who) (p : Fin 8) (ks : BitVec 16) (s : State) (hsK : P s) :
    ∃ r_, execPitchCommit who p ks s = .next r_ ∧ P r_ := by
  unfold execPitchCommit
  refine ⟨_, rfl, ?_⟩
  repeat' first
    | with_reducible assumption | (with_reducible refine fst_stable (by assumption) ?_) | with_reducible apply State.begin_stable hK.toKeepCore
    | with_reducible apply State.write_stable hK.toKeepCore | with_reducible apply State.wrPitchCtrl_stable hK | (intro _ _ _) | (intro _ _)
    | with_reducible apply foldl_stable | with_reducible apply foldl_fst_stable | with_reducible apply overN_stable | extract_lets
    | with_reducible apply ite_stable | with_reducible apply ite_fst_stable | split | fail_if_no_progress (with_reducible apply KeepUnits.other hK)
    | (dsimp +zetaDelta only)
theorem execPitchClear_stable {P : State → Prop} (hK : KeepUnits P) (who : Who) (p : Fin 8) (ks : BitVec 16) (s : State) (hsK : P s) :
    ∃ r_, execPitchClear who p ks s = .next r_ ∧ P r_ := by
  unfold execPitchClear
  refine ⟨_, rfl, ?_⟩
  repeat' first
    | with_reducible assumption | (with_reducible refine fst_stable (by assumption) ?_) | with_reducible apply State.begin_stable hK.toKeepCore
    | with_reducible apply State.write_stable hK.toKeepCore | with_reducible apply State.wrPitchCtrl_stable hK | (intro _ _ _) | (intro _ _)
    | with_reducible apply foldl_stable | with_reducible apply foldl_fst_stable | with_reducible apply overN_stable | extract_lets
    | with_reducible apply ite_stable | with_reducible apply ite_fst_stable | split | fail_if_no_progress (with_reducible apply KeepUnits.other hK)
    | (dsimp +zetaDelta only)
theorem execExpCtl_stable {P : State → Prop} (hK : KeepUnits P) (who : Who) (p : Fin 8) (k : Fin 16) (alive : BitVec 4) (s : State) (hsK : P s) :
    ∃ r_, execExpCtl who p k alive s = .next r_ ∧ P r_ := by
  unfold execExpCtl
  refine ⟨_, rfl, ?_⟩
  repeat' first
    | with_reducible assumption | (with_reducible refine fst_stable (by assumption) ?_) | with_reducible apply State.begin_stable hK.toKeepCore
    | with_reducible apply State.write_stable hK.toKeepCore | with_reducible apply State.wrPexpCtl_stable hK
    | with_reducible apply State.wrExpCtl_stable hK | (intro _ _ _) | (intro _ _) | with_reducible apply foldl_stable
    | with_reducible apply foldl_fst_stable | with_reducible apply overN_stable | extract_lets | with_reducible apply ite_stable
    | with_reducible apply ite_fst_stable | split | fail_if_no_progress (with_reducible apply KeepUnits.other hK) | (dsimp +zetaDelta only)
theorem State.latchPitch_stable {P : State → Prop} (hK : KeepUnits P) (s : State) (p k : Nat) (hsK : P s) : P (State.latchPitch s p k) := by
  unfold State.latchPitch
  repeat' first
    | with_reducible assumption | (with_reducible refine fst_stable (by assumption) ?_) | with_reducible apply State.wr_stable hK.toKeepCore
    | with_reducible apply State.modPitch_stable hK | with_reducible apply State.ledger_stable hK
    | with_reducible apply State.latchAll_stable hK.toKeepCore | (intro _ _ _) | (intro _ _) | with_reducible apply foldl_stable
    | with_reducible apply foldl_fst_stable | with_reducible apply overN_stable | extract_lets | with_reducible apply ite_stable
    | with_reducible apply ite_fst_stable | split | fail_if_no_progress (with_reducible apply KeepUnits.other hK) | (dsimp +zetaDelta only)
theorem State.pitchFrame_stable {P : State → Prop} (hK : KeepUnits P) (s : State) (p k : Nat) (hsK : P s) : P (State.pitchFrame s p k) := by
  unfold State.pitchFrame
  repeat' first
    | with_reducible assumption | (with_reducible refine fst_stable (by assumption) ?_) | with_reducible apply State.wr_stable hK.toKeepCore
    | with_reducible apply State.modPitch_stable hK | with_reducible apply State.pitchEvent_stable hK | (intro _ _ _) | (intro _ _)
    | with_reducible apply foldl_stable | with_reducible apply foldl_fst_stable | with_reducible apply overN_stable | extract_lets
    | with_reducible apply ite_stable | with_reducible apply ite_fst_stable | split | fail_if_no_progress (with_reducible apply KeepUnits.other hK)
    | (dsimp +zetaDelta only)
theorem State.pitchLine_stable {P : State → Prop} (hK : KeepUnits P) (s : State) (p y : Nat) (px : List Px) (hsK : P s) :
    P (State.pitchLine s p y px) := by
  unfold State.pitchLine
  repeat' first
    | with_reducible assumption | (with_reducible refine fst_stable (by assumption) ?_) | with_reducible apply State.modPitch_stable hK
    | (intro _ _ _) | (intro _ _) | with_reducible apply foldl_stable | with_reducible apply foldl_fst_stable | with_reducible apply overN_stable
    | extract_lets | with_reducible apply ite_stable | with_reducible apply ite_fst_stable | split
    | fail_if_no_progress (with_reducible apply KeepUnits.other hK) | (dsimp +zetaDelta only)
theorem State.pitchFault_stable {P : State → Prop} (hK : KeepCore P) (s : State) (p k : Nat) (alive : Bool) (hsK : P s) :
    P (State.pitchFault s p k alive) := by
  unfold State.pitchFault
  repeat' first
    | with_reducible assumption | (with_reducible refine fst_stable (by assumption) ?_) | with_reducible apply State.wr_stable hK
    | with_reducible apply State.bumpErr_stable hK | with_reducible apply State.kevt_stable hK | with_reducible apply State.irq_stable hK
    | (intro _ _ _) | (intro _ _) | with_reducible apply foldl_stable | with_reducible apply foldl_fst_stable | with_reducible apply overN_stable
    | extract_lets | with_reducible apply ite_stable | with_reducible apply ite_fst_stable | split
    | fail_if_no_progress (with_reducible apply KeepCore.other hK) | (dsimp +zetaDelta only)
theorem State.pitchCompare_stable {P : State → Prop} (hK : KeepUnits P) (s : State) (p k : Nat) (hsK : P s) : P (State.pitchCompare s p k) := by
  unfold State.pitchCompare
  repeat' first
    | with_reducible assumption | (with_reducible refine fst_stable (by assumption) ?_) | with_reducible apply State.wr_stable hK.toKeepCore
    | with_reducible apply State.modPitch_stable hK | with_reducible apply State.ledger_stable hK
    | with_reducible apply State.pitchFault_stable hK.toKeepCore | (intro _ _ _) | (intro _ _) | with_reducible apply foldl_stable
    | with_reducible apply foldl_fst_stable | with_reducible apply overN_stable | extract_lets | with_reducible apply ite_stable
    | with_reducible apply ite_fst_stable | split | fail_if_no_progress (with_reducible apply KeepUnits.other hK) | (dsimp +zetaDelta only)

/-! ### Machine/Frame.lean -/

theorem State.takeScan_stable {P : State → Prop} (hK : KeepCore P) (s : State) (p : Nat) (hsK : P s) : P (State.takeScan s p) := by
  unfold State.takeScan
  repeat' first
    | with_reducible assumption | (with_reducible refine fst_stable (by assumption) ?_) | with_reducible apply State.setSrw_stable hK
    | (intro _ _ _) | (intro _ _) | with_reducible apply foldl_stable | with_reducible apply foldl_fst_stable | with_reducible apply overN_stable
    | extract_lets | with_reducible apply ite_stable | with_reducible apply ite_fst_stable | split
    | fail_if_no_progress (with_reducible apply KeepCore.other hK) | (dsimp +zetaDelta only)
theorem State.publishTtl_stable {P : State → Prop} (hK : KeepCore P) (s : State) (p : Nat) (hsK : P s) : P (State.publishTtl s p) := by
  unfold State.publishTtl
  repeat' first
    | with_reducible assumption | (with_reducible refine fst_stable (by assumption) ?_) | with_reducible apply State.wr_stable hK | (intro _ _ _)
    | (intro _ _) | with_reducible apply foldl_stable | with_reducible apply foldl_fst_stable | with_reducible apply overN_stable | extract_lets
    | with_reducible apply ite_stable | with_reducible apply ite_fst_stable | split | fail_if_no_progress (with_reducible apply KeepCore.other hK)
    | (dsimp +zetaDelta only)
theorem State.decideFullBlank_stable {P : State → Prop} (hK : KeepUnits P) (s : State) (p : Nat) (hsK : P s) : P (State.decideFullBlank s p) := by
  unfold State.decideFullBlank
  repeat' first
    | with_reducible assumption | (with_reducible refine fst_stable (by assumption) ?_) | with_reducible apply State.modPipe_stable hK
    | with_reducible apply State.ledger_stable hK | (intro _ _ _) | (intro _ _) | with_reducible apply foldl_stable
    | with_reducible apply foldl_fst_stable | with_reducible apply overN_stable | extract_lets | with_reducible apply ite_stable
    | with_reducible apply ite_fst_stable | split | fail_if_no_progress (with_reducible apply KeepUnits.other hK) | (dsimp +zetaDelta only)
theorem State.boundaryState_stable {P : State → Prop} (hK : KeepCore P) (s : State) (p : Nat) (hsK : P s) : P (State.boundaryState s p) := by
  unfold State.boundaryState
  repeat' first
    | with_reducible assumption | (with_reducible refine fst_stable (by assumption) ?_) | with_reducible apply State.wr_stable hK | (intro _ _ _)
    | (intro _ _) | with_reducible apply foldl_stable | with_reducible apply foldl_fst_stable | with_reducible apply overN_stable | extract_lets
    | with_reducible apply ite_stable | with_reducible apply ite_fst_stable | split | fail_if_no_progress (with_reducible apply KeepCore.other hK)
    | (dsimp +zetaDelta only)
theorem State.closeTiles_stable {P : State → Prop} (hK : KeepCore P) (s : State) (p : Nat) (hsK : P s) : P (State.closeTiles s p) := by
  unfold State.closeTiles
  repeat' first
    | with_reducible assumption | (with_reducible refine fst_stable (by assumption) ?_) | with_reducible apply State.wr_stable hK | (intro _ _ _)
    | (intro _ _) | with_reducible apply foldl_stable | with_reducible apply foldl_fst_stable | with_reducible apply overN_stable | extract_lets
    | with_reducible apply ite_stable | with_reducible apply ite_fst_stable | split | fail_if_no_progress (with_reducible apply KeepCore.other hK)
    | (dsimp +zetaDelta only)
theorem State.openLayers_stable {P : State → Prop} (hK : KeepCore P) (s : State) (p : Nat) (hsK : P s) : P (State.openLayers s p) := by
  unfold State.openLayers
  repeat' first
    | with_reducible assumption | (with_reducible refine fst_stable (by assumption) ?_) | with_reducible apply State.wr_stable hK
    | with_reducible apply State.bumpEv_stable hK | with_reducible apply State.bumpErr_stable hK | (intro _ _ _) | (intro _ _)
    | with_reducible apply foldl_stable | with_reducible apply foldl_fst_stable | with_reducible apply overN_stable | extract_lets
    | with_reducible apply ite_stable | with_reducible apply ite_fst_stable | split | fail_if_no_progress (with_reducible apply KeepCore.other hK)
    | (dsimp +zetaDelta only)
theorem State.openFetch_stable {P : State → Prop} (hK : KeepUnits P) (s : State) (p : Nat) (hsK : P s) : P (State.openFetch s p) := by
  unfold State.openFetch
  repeat' first
    | with_reducible assumption | (with_reducible refine fst_stable (by assumption) ?_) | with_reducible apply State.wr_stable hK.toKeepCore
    | with_reducible apply State.modPipe_stable hK | with_reducible apply State.showCap_stable hK.toKeepCore
    | with_reducible apply State.updatePanic_stable hK.toKeepCore | (intro _ _ _) | (intro _ _) | with_reducible apply foldl_stable
    | with_reducible apply foldl_fst_stable | with_reducible apply overN_stable | extract_lets | with_reducible apply ite_stable
    | with_reducible apply ite_fst_stable | split | fail_if_no_progress (with_reducible apply KeepUnits.other hK) | (dsimp +zetaDelta only)
theorem State.wbEnd_stable {P : State → Prop} (hK : KeepUnits P) (s : State) (p : Nat) (hsK : P s) : P (State.wbEnd s p) := by
  unfold State.wbEnd
  repeat' first
    | with_reducible assumption | (with_reducible refine fst_stable (by assumption) ?_) | with_reducible apply State.wr_stable hK.toKeepCore
    | with_reducible apply State.bumpErr_stable hK.toKeepCore | with_reducible apply State.modPipe_stable hK
    | with_reducible apply State.showWb_stable hK.toKeepCore | (intro _ _ _) | (intro _ _) | with_reducible apply foldl_stable
    | with_reducible apply foldl_fst_stable | with_reducible apply overN_stable | extract_lets | with_reducible apply ite_stable
    | with_reducible apply ite_fst_stable | split | fail_if_no_progress (with_reducible apply KeepUnits.other hK) | (dsimp +zetaDelta only)
theorem State.wbBegin_stable {P : State → Prop} (hK : KeepUnits P) (s : State) (p : Nat) (hsK : P s) : P (State.wbBegin s p) := by
  unfold State.wbBegin
  repeat' first
    | with_reducible assumption | (with_reducible refine fst_stable (by assumption) ?_) | with_reducible apply State.modPipe_stable hK
    | with_reducible apply State.showWb_stable hK.toKeepCore | (intro _ _ _) | (intro _ _) | with_reducible apply foldl_stable
    | with_reducible apply foldl_fst_stable | with_reducible apply overN_stable | extract_lets | with_reducible apply ite_stable
    | with_reducible apply ite_fst_stable | split | fail_if_no_progress (with_reducible apply KeepUnits.other hK) | (dsimp +zetaDelta only)
theorem State.wbOpenByte_stable {P : State → Prop} (hK : Stable P) (s : State) (p a : Nat) (hsK : P s) : P (State.wbOpenByte s p a) := by
  unfold State.wbOpenByte
  repeat' first
    | with_reducible assumption | (with_reducible refine fst_stable (by assumption) ?_)
    | with_reducible apply State.useFree_stable hK.toKeep.toKeepCore | with_reducible apply State.memStore_stable hK
    | with_reducible apply State.gateCheck_stable hK.toKeep.toKeepSys | (intro _ _ _) | (intro _ _) | with_reducible apply foldl_stable
    | with_reducible apply foldl_fst_stable | with_reducible apply overN_stable | extract_lets | with_reducible apply ite_stable
    | with_reducible apply ite_fst_stable | split | fail_if_no_progress (with_reducible apply Keep.other hK.toKeep) | (dsimp +zetaDelta only)
theorem State.wbOpenRows_stable {P : State → Prop} (hK : Stable P) (s : State) (p y : Nat) (hsK : P s) : P (State.wbOpenRows s p y) := by
  unfold State.wbOpenRows
  repeat' first
    | with_reducible assumption | (with_reducible refine fst_stable (by assumption) ?_) | with_reducible apply State.wbOpenByte_stable hK
    | (intro _ _ _) | (intro _ _) | with_reducible apply foldl_stable | with_reducible apply foldl_fst_stable | with_reducible apply overN_stable
    | extract_lets | with_reducible apply ite_stable | with_reducible apply ite_fst_stable | split
    | fail_if_no_progress (with_reducible apply Keep.other hK.toKeep) | (dsimp +zetaDelta only)
theorem State.wbLine_stable {P : State → Prop} (hK : Stable P) (s : State) (p y : Nat) (px : List Px) (overflow : Bool) (hsK : P s) :
    P (State.wbLine s p y px overflow) := by
  unfold State.wbLine
  repeat' first
    | with_reducible assumption | (with_reducible refine fst_stable (by assumption) ?_) | with_reducible apply State.stallStore_stable hK
    | with_reducible apply State.wbEnd_stable hK.toKeep.toKeepUnits | with_reducible apply State.wbOpenRows_stable hK | (intro _ _ _) | (intro _ _)
    | with_reducible apply foldl_stable | with_reducible apply foldl_fst_stable | with_reducible apply overN_stable | extract_lets
    | with_reducible apply ite_stable | with_reducible apply ite_fst_stable | split
    | fail_if_no_progress (with_reducible apply Keep.other hK.toKeep) | (dsimp +zetaDelta only)
theorem State.lineEnd_stable {P : State → Prop} (hK : Stable P) (s : State) (p : Nat) (hsK : P s) : P (State.lineEnd s p) := by
  unfold State.lineEnd
  repeat' first
    | with_reducible assumption | (with_reducible refine fst_stable (by assumption) ?_) | with_reducible apply State.emit_stable hK.toKeep.toKeepCore
    | with_reducible apply State.useFree_stable hK.toKeep.toKeepCore | with_reducible apply State.modPipe_stable hK.toKeep.toKeepUnits
    | with_reducible apply State.pitchLine_stable hK.toKeep.toKeepUnits | with_reducible apply State.wbLine_stable hK | (intro _ _ _) | (intro _ _)
    | with_reducible apply foldl_stable | with_reducible apply foldl_fst_stable | with_reducible apply overN_stable | extract_lets
    | with_reducible apply ite_stable | with_reducible apply ite_fst_stable | split
    | fail_if_no_progress (with_reducible apply Keep.other hK.toKeep) | (dsimp +zetaDelta only)
theorem State.composeLine_stable {P : State → Prop} (hK : Stable P) (s0 : State) (p y : Nat) (overflow : Bool) (hsK : P s0) :
    P (State.composeLine s0 p y overflow) := by
  unfold State.composeLine
  repeat' first
    | with_reducible assumption | (with_reducible refine fst_stable (by assumption) ?_) | with_reducible apply State.emit_stable hK.toKeep.toKeepCore
    | with_reducible apply State.bumpErr_stable hK.toKeep.toKeepCore | with_reducible apply State.modPipe_stable hK.toKeep.toKeepUnits
    | with_reducible apply State.updatePanic_stable hK.toKeep.toKeepCore | with_reducible apply State.fifoSpoil_stable hK.toKeep.toKeepUnits
    | with_reducible apply State.lineEnd_stable hK | (intro _ _ _) | (intro _ _) | with_reducible apply foldl_stable
    | with_reducible apply foldl_fst_stable | with_reducible apply overN_stable | extract_lets | with_reducible apply ite_stable
    | with_reducible apply ite_fst_stable | split | fail_if_no_progress (with_reducible apply Keep.other hK.toKeep) | (dsimp +zetaDelta only)
theorem execPitchCompare_stable {P : State → Prop} (hK : Stable P) (p : Fin 8) (k : Fin 16) (s : State) (hsK : P s) :
    ∃ r_, execPitchCompare p k s = .next r_ ∧ P r_ := by
  unfold execPitchCompare
  refine ⟨_, rfl, ?_⟩
  repeat' first
    | with_reducible assumption | (with_reducible refine fst_stable (by assumption) ?_) | with_reducible apply State.begin_stable hK.toKeep.toKeepCore
    | with_reducible apply State.guard_stable hK.toKeep.toKeepCore | with_reducible apply State.pitchCompare_stable hK.toKeep.toKeepUnits
    | with_reducible apply State.lineEnd_stable hK | (intro _ _ _) | (intro _ _) | with_reducible apply foldl_stable
    | with_reducible apply foldl_fst_stable | with_reducible apply overN_stable | extract_lets | with_reducible apply ite_stable
    | with_reducible apply ite_fst_stable | split | fail_if_no_progress (with_reducible apply Keep.other hK.toKeep) | (dsimp +zetaDelta only)
theorem State.showLine_stable {P : State → Prop} (hK : KeepCore P) (s : State) (p : Nat) (hsK : P s) : P (State.showLine s p) := by
  unfold State.showLine
  repeat' first
    | with_reducible assumption | (with_reducible refine fst_stable (by assumption) ?_) | with_reducible apply State.wr_stable hK | (intro _ _ _)
    | (intro _ _) | with_reducible apply foldl_stable | with_reducible apply foldl_fst_stable | with_reducible apply overN_stable | extract_lets
    | with_reducible apply ite_stable | with_reducible apply ite_fst_stable | split | fail_if_no_progress (with_reducible apply KeepCore.other hK)
    | (dsimp +zetaDelta only)
theorem State.armAfterMark_stable {P : State → Prop} (hK : KeepCore P) (s : State) (p mark n lines : Nat) (hsK : P s) :
    P (State.armAfterMark s p mark n lines) := by
  unfold State.armAfterMark
  repeat' first
    | with_reducible assumption | (with_reducible refine fst_stable (by assumption) ?_) | with_reducible apply State.wr_stable hK | (intro _ _ _)
    | (intro _ _) | with_reducible apply foldl_stable | with_reducible apply foldl_fst_stable | with_reducible apply overN_stable | extract_lets
    | with_reducible apply ite_stable | with_reducible apply ite_fst_stable | split | fail_if_no_progress (with_reducible apply KeepCore.other hK)
    | (dsimp +zetaDelta only)
theorem State.syncOutAssert_stable {P : State → Prop} (hK : KeepCore P) (s : State) (p : Nat) (hsK : P s) : P (State.syncOutAssert s p) := by
  unfold State.syncOutAssert
  repeat' first
    | with_reducible assumption | (with_reducible refine fst_stable (by assumption) ?_) | with_reducible apply State.syncDrive_stable hK
    | (intro _ _ _) | (intro _ _) | with_reducible apply foldl_stable | with_reducible apply foldl_fst_stable | with_reducible apply overN_stable
    | extract_lets | with_reducible apply ite_stable | with_reducible apply ite_fst_stable | split
    | fail_if_no_progress (with_reducible apply KeepCore.other hK) | (dsimp +zetaDelta only)
theorem State.markBoundary_stable {P : State → Prop} (hK : KeepSys P) (s : State) (p t : Nat) (hsK : P s) : P (State.markBoundary s p t) := by
  unfold State.markBoundary
  repeat' first
    | with_reducible assumption | (with_reducible refine fst_stable (by assumption) ?_) | with_reducible apply State.armAfterMark_stable hK.toKeepCore
    | (intro _ _ _) | (intro _ _) | with_reducible apply foldl_stable | with_reducible apply foldl_fst_stable | with_reducible apply overN_stable
    | extract_lets | with_reducible apply ite_stable | with_reducible apply ite_fst_stable | split
    | fail_if_no_progress (with_reducible apply KeepSys.other hK) | (dsimp +zetaDelta only)
theorem State.patFrame_stable {P : State → Prop} (hK : KeepUnits P) (s : State) (p : Nat) (hsK : P s) : P (State.patFrame s p) := by
  unfold State.patFrame
  repeat' first
    | with_reducible assumption | (with_reducible refine fst_stable (by assumption) ?_) | with_reducible apply State.modPipe_stable hK
    | (intro _ _ _) | (intro _ _) | with_reducible apply foldl_stable | with_reducible apply foldl_fst_stable | with_reducible apply overN_stable
    | extract_lets | with_reducible apply ite_stable | with_reducible apply ite_fst_stable | split
    | fail_if_no_progress (with_reducible apply KeepUnits.other hK) | (dsimp +zetaDelta only)
theorem State.frameBegin_stable {P : State → Prop} (hK : Stable P) (s0 : State) (p t : Nat) (overflow : Bool) (hsK : P s0) :
    P (State.frameBegin s0 p t overflow) := by
  unfold State.frameBegin
  repeat' first
    | with_reducible assumption | (with_reducible refine fst_stable (by assumption) ?_) | with_reducible apply State.wr_stable hK.toKeep.toKeepCore
    | with_reducible apply State.bumpFrame_stable hK.toKeep.toKeepCore | with_reducible apply State.guard_stable hK.toKeep.toKeepCore
    | with_reducible apply State.modPipe_stable hK.toKeep.toKeepUnits | with_reducible apply State.wbClose_stable hK.toKeep.toKeepUnits
    | with_reducible apply State.edgeToDependents_stable hK.toKeep.toKeepUnits | with_reducible apply State.syncBoundary_stable hK.toKeep.toKeepUnits
    | with_reducible apply State.pipeVolt_stable hK.toKeep.toKeepSys | with_reducible apply State.setIslandStep_stable hK.toKeep.toKeepCore
    | with_reducible apply State.awnSelect_stable hK.toKeep.toKeepUnits | with_reducible apply State.pitchFrame_stable hK.toKeep.toKeepUnits
    | with_reducible apply State.takeScan_stable hK.toKeep.toKeepCore | with_reducible apply State.publishTtl_stable hK.toKeep.toKeepCore
    | with_reducible apply State.decideFullBlank_stable hK.toKeep.toKeepUnits | with_reducible apply State.boundaryState_stable hK.toKeep.toKeepCore
    | with_reducible apply State.closeTiles_stable hK.toKeep.toKeepCore | with_reducible apply State.openLayers_stable hK.toKeep.toKeepCore
    | with_reducible apply State.openFetch_stable hK.toKeep.toKeepUnits | with_reducible apply State.wbBegin_stable hK.toKeep.toKeepUnits
    | with_reducible apply State.composeLine_stable hK | with_reducible apply State.showLine_stable hK.toKeep.toKeepCore
    | with_reducible apply State.syncOutAssert_stable hK.toKeep.toKeepCore | with_reducible apply State.markBoundary_stable hK.toKeep.toKeepSys
    | with_reducible apply State.patFrame_stable hK.toKeep.toKeepUnits | (intro _ _ _) | (intro _ _) | with_reducible apply foldl_stable
    | with_reducible apply foldl_fst_stable | with_reducible apply overN_stable | extract_lets | with_reducible apply ite_stable
    | with_reducible apply ite_fst_stable | split | fail_if_no_progress (with_reducible apply Keep.other hK.toKeep) | (dsimp +zetaDelta only)
theorem State.frameBoundary_stable {P : State → Prop} (hK : Stable P) (s : State) (p t : Nat) (overflow : Bool) (hsK : P s) :
    P (State.frameBoundary s p t overflow) := by
  unfold State.frameBoundary
  repeat' first
    | with_reducible assumption | (with_reducible refine fst_stable (by assumption) ?_)
    | with_reducible apply State.stopIdle_stable hK.toKeep.toKeepUnits | with_reducible apply State.closeTiles_stable hK.toKeep.toKeepCore
    | with_reducible apply State.frameBegin_stable hK | (intro _ _ _) | (intro _ _) | with_reducible apply foldl_stable
    | with_reducible apply foldl_fst_stable | with_reducible apply overN_stable | extract_lets | with_reducible apply ite_stable
    | with_reducible apply ite_fst_stable | split | fail_if_no_progress (with_reducible apply Keep.other hK.toKeep) | (dsimp +zetaDelta only)
theorem execFrameBoundary_stable {P : State → Prop} (hK : Stable P) (p : Fin 8) (t : Nat) (overflow : Bool) (lost : BitVec 16) (s : State) (hsK : P s) :
    ∃ r_, execFrameBoundary p t overflow lost s = .next r_ ∧ P r_ := by
  unfold execFrameBoundary
  refine ⟨_, rfl, ?_⟩
  repeat' first
    | with_reducible assumption | (with_reducible refine fst_stable (by assumption) ?_) | with_reducible apply State.begin_stable hK.toKeep.toKeepCore
    | with_reducible apply State.losePulses_stable hK.toKeep.toKeepCore | with_reducible apply State.frameBoundary_stable hK | (intro _ _ _)
    | (intro _ _) | with_reducible apply foldl_stable | with_reducible apply foldl_fst_stable | with_reducible apply overN_stable | extract_lets
    | with_reducible apply ite_stable | with_reducible apply ite_fst_stable | split
    | fail_if_no_progress (with_reducible apply Keep.other hK.toKeep) | (dsimp +zetaDelta only)
theorem execLineStart_stable {P : State → Prop} (hK : Stable P) (p : Fin 8) (overflow : Bool) (lost : BitVec 8) (s : State) (hsK : P s) :
    ∃ r_, execLineStart p overflow lost s = .next r_ ∧ P r_ := by
  unfold execLineStart
  refine ⟨_, rfl, ?_⟩
  repeat' first
    | with_reducible assumption | (with_reducible refine fst_stable (by assumption) ?_) | with_reducible apply State.begin_stable hK.toKeep.toKeepCore
    | with_reducible apply State.guard_stable hK.toKeep.toKeepCore | with_reducible apply State.losePulses_stable hK.toKeep.toKeepCore
    | with_reducible apply State.modPipe_stable hK.toKeep.toKeepUnits | with_reducible apply State.publishTtl_stable hK.toKeep.toKeepCore
    | with_reducible apply State.composeLine_stable hK | with_reducible apply State.showLine_stable hK.toKeep.toKeepCore | (intro _ _ _) | (intro _ _)
    | with_reducible apply foldl_stable | with_reducible apply foldl_fst_stable | with_reducible apply overN_stable | extract_lets
    | with_reducible apply ite_stable | with_reducible apply ite_fst_stable | split
    | fail_if_no_progress (with_reducible apply Keep.other hK.toKeep) | (dsimp +zetaDelta only)
theorem State.latchGo_stable {P : State → Prop} (hK : KeepUnits P) (s : State) (p : Nat) (hsK : P s) : P (State.latchGo s p) := by
  unfold State.latchGo
  repeat' first
    | with_reducible assumption | (with_reducible refine fst_stable (by assumption) ?_) | with_reducible apply State.wr_stable hK.toKeepCore
    | with_reducible apply State.guard_stable hK.toKeepCore | with_reducible apply State.modPipe_stable hK
    | with_reducible apply State.latchAll_stable hK.toKeepCore | (intro _ _ _) | (intro _ _) | with_reducible apply foldl_stable
    | with_reducible apply foldl_fst_stable | with_reducible apply overN_stable | extract_lets | with_reducible apply ite_stable
    | with_reducible apply ite_fst_stable | split | fail_if_no_progress (with_reducible apply KeepUnits.other hK) | (dsimp +zetaDelta only)
theorem State.decideNext_stable {P : State → Prop} (hK : KeepUnits P) (s : State) (p : Nat) (hsK : P s) : P (State.decideNext s p) := by
  unfold State.decideNext
  repeat' first
    | with_reducible assumption | (with_reducible refine fst_stable (by assumption) ?_) | with_reducible apply State.modPipe_stable hK
    | (intro _ _ _) | (intro _ _) | with_reducible apply foldl_stable | with_reducible apply foldl_fst_stable | with_reducible apply overN_stable
    | extract_lets | with_reducible apply ite_stable | with_reducible apply ite_fst_stable | split
    | fail_if_no_progress (with_reducible apply KeepUnits.other hK) | (dsimp +zetaDelta only)
theorem execLatchPoint_stable {P : State → Prop} (hK : Keep P) (p : Fin 8) (s : State) (hsK : P s) :
    ∃ r_, execLatchPoint p s = .next r_ ∧ P r_ := by
  unfold execLatchPoint
  refine ⟨_, rfl, ?_⟩
  repeat' first
    | with_reducible assumption | (with_reducible refine fst_stable (by assumption) ?_) | with_reducible apply State.wr_stable hK.toKeepCore
    | with_reducible apply State.begin_stable hK.toKeepCore | with_reducible apply State.guard_stable hK.toKeepCore
    | with_reducible apply State.modPipe_stable hK.toKeepUnits | with_reducible apply State.pipeVolt_stable hK.toKeepSys
    | with_reducible apply State.setIslandStep_stable hK.toKeepCore | with_reducible apply State.showCap_stable hK.toKeepCore
    | with_reducible apply State.awnLatch_stable hK.toKeepUnits | with_reducible apply State.latchCommits_stable hK.toKeepUnits
    | with_reducible apply State.latchPitch_stable hK.toKeepUnits | with_reducible apply State.latchGo_stable hK.toKeepUnits
    | with_reducible apply State.decideNext_stable hK.toKeepUnits | (intro _ _ _) | (intro _ _) | with_reducible apply foldl_stable
    | with_reducible apply foldl_fst_stable | with_reducible apply overN_stable | extract_lets | with_reducible apply ite_stable
    | with_reducible apply ite_fst_stable | split | fail_if_no_progress (with_reducible apply Keep.other hK) | (dsimp +zetaDelta only)
theorem State.frameTally_stable {P : State → Prop} (hK : KeepCore P) (s : State) (p : Nat) (hsK : P s) : P (State.frameTally s p) := by
  unfold State.frameTally
  repeat' first
    | with_reducible assumption | (with_reducible refine fst_stable (by assumption) ?_) | with_reducible apply State.tallyRequest_stable hK
    | (intro _ _ _) | (intro _ _) | with_reducible apply foldl_stable | with_reducible apply foldl_fst_stable | with_reducible apply overN_stable
    | extract_lets | with_reducible apply ite_stable | with_reducible apply ite_fst_stable | split
    | fail_if_no_progress (with_reducible apply KeepCore.other hK) | (dsimp +zetaDelta only)
theorem execVerticalBlankingStart_stable {P : State → Prop} (hK : KeepUnits P) (p : Fin 8) (lost : BitVec 8) (s : State) (hsK : P s) :
    ∃ r_, execVerticalBlankingStart p lost s = .next r_ ∧ P r_ := by
  unfold execVerticalBlankingStart
  refine ⟨_, rfl, ?_⟩
  repeat' first
    | with_reducible assumption | (with_reducible refine fst_stable (by assumption) ?_) | with_reducible apply State.begin_stable hK.toKeepCore
    | with_reducible apply State.guard_stable hK.toKeepCore | with_reducible apply State.losePulses_stable hK.toKeepCore
    | with_reducible apply State.modPipe_stable hK | with_reducible apply State.decideCorrection_stable hK
    | with_reducible apply State.publishCommits_stable hK | with_reducible apply State.publishTtl_stable hK.toKeepCore
    | with_reducible apply State.frameTally_stable hK.toKeepCore | (intro _ _ _) | (intro _ _) | with_reducible apply foldl_stable
    | with_reducible apply foldl_fst_stable | with_reducible apply overN_stable | extract_lets | with_reducible apply ite_stable
    | with_reducible apply ite_fst_stable | split | fail_if_no_progress (with_reducible apply KeepUnits.other hK) | (dsimp +zetaDelta only)
theorem State.wbDone_stable {P : State → Prop} (hK : Stable P) (s0 : State) (p : Nat) (hsK : P s0) : P (State.wbDone s0 p) := by
  unfold State.wbDone
  repeat' first
    | with_reducible assumption | (with_reducible refine fst_stable (by assumption) ?_) | with_reducible apply State.wr_stable hK.toKeep.toKeepCore
    | with_reducible apply State.fwr_stable hK.toKeep.toKeepCore | with_reducible apply State.bumpEv_stable hK.toKeep.toKeepCore
    | with_reducible apply State.irq_stable hK.toKeep.toKeepCore | with_reducible apply State.modPipe_stable hK.toKeep.toKeepUnits
    | with_reducible apply State.showWb_stable hK.toKeep.toKeepCore | with_reducible apply State.lineEnd_stable hK | (intro _ _ _) | (intro _ _)
    | with_reducible apply foldl_stable | with_reducible apply foldl_fst_stable | with_reducible apply overN_stable | extract_lets
    | with_reducible apply ite_stable | with_reducible apply ite_fst_stable | split
    | fail_if_no_progress (with_reducible apply Keep.other hK.toKeep) | (dsimp +zetaDelta only)
theorem execWritebackFrameDone_stable {P : State → Prop} (hK : Stable P) (p : Fin 8) (s : State) (hsK : P s) :
    ∃ r_, execWritebackFrameDone p s = .next r_ ∧ P r_ := by
  unfold execWritebackFrameDone
  refine ⟨_, rfl, ?_⟩
  repeat' first
    | with_reducible assumption | (with_reducible refine fst_stable (by assumption) ?_) | with_reducible apply State.begin_stable hK.toKeep.toKeepCore
    | with_reducible apply State.wbDone_stable hK | (intro _ _ _) | (intro _ _) | with_reducible apply foldl_stable
    | with_reducible apply foldl_fst_stable | with_reducible apply overN_stable | extract_lets | with_reducible apply ite_stable
    | with_reducible apply ite_fst_stable | split | fail_if_no_progress (with_reducible apply Keep.other hK.toKeep) | (dsimp +zetaDelta only)

/-! ### Machine/Pipe.lean -/

theorem State.reject_stable {P : State → Prop} (hK : KeepCore P) (s : State) (p code : Nat) (hsK : P s) : P (State.reject s p code) := by
  unfold State.reject
  repeat' first
    | with_reducible assumption | (with_reducible refine fst_stable (by assumption) ?_) | with_reducible apply State.wr_stable hK | (intro _ _ _)
    | (intro _ _) | with_reducible apply foldl_stable | with_reducible apply foldl_fst_stable | with_reducible apply overN_stable | extract_lets
    | with_reducible apply ite_stable | with_reducible apply ite_fst_stable | split | fail_if_no_progress (with_reducible apply KeepCore.other hK)
    | (dsimp +zetaDelta only)
theorem State.pipeStart_stable {P : State → Prop} (hK : Stable P) (s : State) (p t : Nat) (hsK : P s) : P (State.pipeStart s p t) := by
  unfold State.pipeStart
  repeat' first
    | with_reducible assumption | (with_reducible refine fst_stable (by assumption) ?_) | with_reducible apply State.guard_stable hK.toKeep.toKeepCore
    | with_reducible apply State.beginTraining_stable hK.toKeep.toKeepUnits | with_reducible apply State.frameBegin_stable hK
    | with_reducible apply State.reject_stable hK.toKeep.toKeepCore | (intro _ _ _) | (intro _ _) | with_reducible apply foldl_stable
    | with_reducible apply foldl_fst_stable | with_reducible apply overN_stable | extract_lets | with_reducible apply ite_stable
    | with_reducible apply ite_fst_stable | split | fail_if_no_progress (with_reducible apply Keep.other hK.toKeep) | (dsimp +zetaDelta only)
theorem State.wrPctrl_stable {P : State → Prop} (hK : Stable P) (s : State) (p t : Nat) (w : W64) (hsK : P s) : P (State.wrPctrl s p t w) := by
  unfold State.wrPctrl
  repeat' first
    | with_reducible assumption | (with_reducible refine fst_stable (by assumption) ?_)
    | with_reducible apply State.settingWrite_stable hK.toKeep.toKeepCore | with_reducible apply State.msrCompare_stable hK.toKeep.toKeepCore
    | with_reducible apply State.pipeStop_stable hK.toKeep.toKeepUnits | with_reducible apply State.tryRecover_stable hK.toKeep.toKeepUnits
    | with_reducible apply State.pipeStart_stable hK | (intro _ _ _) | (intro _ _) | with_reducible apply foldl_stable
    | with_reducible apply foldl_fst_stable | with_reducible apply overN_stable | extract_lets | with_reducible apply ite_stable
    | with_reducible apply ite_fst_stable | split | fail_if_no_progress (with_reducible apply Keep.other hK.toKeep) | (dsimp +zetaDelta only)
theorem execPipeStart_stable {P : State → Prop} (hK : Stable P) (who : Who) (p : Fin 8) (t : Nat) (s : State) (hsK : P s) :
    ∃ r_, execPipeStart who p t s = .next r_ ∧ P r_ := by
  unfold execPipeStart
  refine ⟨_, rfl, ?_⟩
  repeat' first
    | with_reducible assumption | (with_reducible refine fst_stable (by assumption) ?_) | with_reducible apply State.begin_stable hK.toKeep.toKeepCore
    | with_reducible apply State.write_stable hK.toKeep.toKeepCore | with_reducible apply State.wrPctrl_stable hK | (intro _ _ _) | (intro _ _)
    | with_reducible apply foldl_stable | with_reducible apply foldl_fst_stable | with_reducible apply overN_stable | extract_lets
    | with_reducible apply ite_stable | with_reducible apply ite_fst_stable | split
    | fail_if_no_progress (with_reducible apply Keep.other hK.toKeep) | (dsimp +zetaDelta only)
theorem execPipeStop_stable {P : State → Prop} (hK : Stable P) (who : Who) (p : Fin 8) (s : State) (hsK : P s) :
    ∃ r_, execPipeStop who p s = .next r_ ∧ P r_ := by
  unfold execPipeStop
  refine ⟨_, rfl, ?_⟩
  repeat' first
    | with_reducible assumption | (with_reducible refine fst_stable (by assumption) ?_) | with_reducible apply State.begin_stable hK.toKeep.toKeepCore
    | with_reducible apply State.write_stable hK.toKeep.toKeepCore | with_reducible apply State.wrPctrl_stable hK | (intro _ _ _) | (intro _ _)
    | with_reducible apply foldl_stable | with_reducible apply foldl_fst_stable | with_reducible apply overN_stable | extract_lets
    | with_reducible apply ite_stable | with_reducible apply ite_fst_stable | split
    | fail_if_no_progress (with_reducible apply Keep.other hK.toKeep) | (dsimp +zetaDelta only)
theorem execAutoRecover_stable {P : State → Prop} (hK : Stable P) (who : Who) (p : Fin 8) (en : Bool) (s : State) (hsK : P s) :
    ∃ r_, execAutoRecover who p en s = .next r_ ∧ P r_ := by
  unfold execAutoRecover
  refine ⟨_, rfl, ?_⟩
  repeat' first
    | with_reducible assumption | (with_reducible refine fst_stable (by assumption) ?_) | with_reducible apply State.begin_stable hK.toKeep.toKeepCore
    | with_reducible apply State.write_stable hK.toKeep.toKeepCore | with_reducible apply State.wrPctrl_stable hK | (intro _ _ _) | (intro _ _)
    | with_reducible apply foldl_stable | with_reducible apply foldl_fst_stable | with_reducible apply overN_stable | extract_lets
    | with_reducible apply ite_stable | with_reducible apply ite_fst_stable | split
    | fail_if_no_progress (with_reducible apply Keep.other hK.toKeep) | (dsimp +zetaDelta only)
theorem State.stopped_stable {P : State → Prop} (hK : Keep P) (s : State) (p : Nat) (hsK : P s) : P (State.stopped s p) := by
  unfold State.stopped
  repeat' first
    | with_reducible assumption | (with_reducible refine fst_stable (by assumption) ?_) | with_reducible apply State.wr_stable hK.toKeepCore
    | with_reducible apply State.modPipe_stable hK.toKeepUnits | with_reducible apply State.auxFree_stable hK.toKeepUnits
    | with_reducible apply State.syncOutStop_stable hK.toKeepCore | with_reducible apply State.pipeVolt_stable hK.toKeepSys
    | with_reducible apply State.setIslandStep_stable hK.toKeepCore | (intro _ _ _) | (intro _ _) | with_reducible apply foldl_stable
    | with_reducible apply foldl_fst_stable | with_reducible apply overN_stable | extract_lets | with_reducible apply ite_stable
    | with_reducible apply ite_fst_stable | split | fail_if_no_progress (with_reducible apply Keep.other hK) | (dsimp +zetaDelta only)
theorem execStoppedReached_stable {P : State → Prop} (hK : Keep P) (p : Fin 8) (s : State) (hsK : P s) :
    ∃ r_, execStoppedReached p s = .next r_ ∧ P r_ := by
  unfold execStoppedReached
  refine ⟨_, rfl, ?_⟩
  repeat' first
    | with_reducible assumption | (with_reducible refine fst_stable (by assumption) ?_) | with_reducible apply State.begin_stable hK.toKeepCore
    | with_reducible apply State.guard_stable hK.toKeepCore | with_reducible apply State.stopped_stable hK | (intro _ _ _) | (intro _ _)
    | with_reducible apply foldl_stable | with_reducible apply foldl_fst_stable | with_reducible apply overN_stable | extract_lets
    | with_reducible apply ite_stable | with_reducible apply ite_fst_stable | split | fail_if_no_progress (with_reducible apply Keep.other hK)
    | (dsimp +zetaDelta only)
theorem State.timingGo_stable {P : State → Prop} (hK : KeepCore P) (s : State) (p : Nat) (hsK : P s) : P (State.timingGo s p) := by
  unfold State.timingGo
  repeat' first
    | with_reducible assumption | (with_reducible refine fst_stable (by assumption) ?_) | with_reducible apply State.wr_stable hK
    | with_reducible apply State.guard_stable hK | with_reducible apply State.reject_stable hK | (intro _ _ _) | (intro _ _)
    | with_reducible apply foldl_stable | with_reducible apply foldl_fst_stable | with_reducible apply overN_stable | extract_lets
    | with_reducible apply ite_stable | with_reducible apply ite_fst_stable | split | fail_if_no_progress (with_reducible apply KeepCore.other hK)
    | (dsimp +zetaDelta only)
theorem State.wrTnxCtrl_stable {P : State → Prop} (hK : KeepCore P) (s : State) (p : Nat) (w : W64) (hsK : P s) : P (State.wrTnxCtrl s p w) := by
  unfold State.wrTnxCtrl
  repeat' first
    | with_reducible assumption | (with_reducible refine fst_stable (by assumption) ?_) | with_reducible apply State.settingWrite_stable hK
    | with_reducible apply State.timingGo_stable hK | (intro _ _ _) | (intro _ _) | with_reducible apply foldl_stable
    | with_reducible apply foldl_fst_stable | with_reducible apply overN_stable | extract_lets | with_reducible apply ite_stable
    | with_reducible apply ite_fst_stable | split | fail_if_no_progress (with_reducible apply KeepCore.other hK) | (dsimp +zetaDelta only)
theorem execTimingChangeGo_stable {P : State → Prop} (hK : KeepCore P) (who : Who) (p : Fin 8) (w : W32) (s : State) (hsK : P s) :
    ∃ r_, execTimingChangeGo who p w s = .next r_ ∧ P r_ := by
  unfold execTimingChangeGo
  refine ⟨_, rfl, ?_⟩
  repeat' first
    | with_reducible assumption | (with_reducible refine fst_stable (by assumption) ?_) | with_reducible apply State.begin_stable hK
    | with_reducible apply State.write_stable hK | with_reducible apply State.wrTnxCtrl_stable hK | (intro _ _ _) | (intro _ _)
    | with_reducible apply foldl_stable | with_reducible apply foldl_fst_stable | with_reducible apply overN_stable | extract_lets
    | with_reducible apply ite_stable | with_reducible apply ite_fst_stable | split | fail_if_no_progress (with_reducible apply KeepCore.other hK)
    | (dsimp +zetaDelta only)
theorem State.gapReady_stable {P : State → Prop} (hK : Stable P) (s : State) (p t : Nat) (hsK : P s) : P (State.gapReady s p t) := by
  unfold State.gapReady
  repeat' first
    | with_reducible assumption | (with_reducible refine fst_stable (by assumption) ?_) | with_reducible apply State.wr_stable hK.toKeep.toKeepCore
    | with_reducible apply State.modPipe_stable hK.toKeep.toKeepUnits | with_reducible apply State.stopIdle_stable hK.toKeep.toKeepUnits
    | with_reducible apply State.frameBegin_stable hK | (intro _ _ _) | (intro _ _) | with_reducible apply foldl_stable
    | with_reducible apply foldl_fst_stable | with_reducible apply overN_stable | extract_lets | with_reducible apply ite_stable
    | with_reducible apply ite_fst_stable | split | fail_if_no_progress (with_reducible apply Keep.other hK.toKeep) | (dsimp +zetaDelta only)
theorem State.oldFrameEnd_stable {P : State → Prop} (hK : Stable P) (s0 : State) (p t : Nat) (hsK : P s0) : P (State.oldFrameEnd s0 p t) := by
  unfold State.oldFrameEnd
  repeat' first
    | with_reducible assumption | (with_reducible refine fst_stable (by assumption) ?_) | with_reducible apply State.setRw_stable hK.toKeep.toKeepCore
    | with_reducible apply State.wr_stable hK.toKeep.toKeepCore | with_reducible apply State.modPipe_stable hK.toKeep.toKeepUnits
    | with_reducible apply State.showWb_stable hK.toKeep.toKeepCore | with_reducible apply State.wbClose_stable hK.toKeep.toKeepUnits
    | with_reducible apply State.beginTraining_stable hK.toKeep.toKeepUnits | with_reducible apply State.stopIdle_stable hK.toKeep.toKeepUnits
    | with_reducible apply State.pipeVolt_stable hK.toKeep.toKeepSys | with_reducible apply State.setIslandStep_stable hK.toKeep.toKeepCore
    | with_reducible apply State.closeTiles_stable hK.toKeep.toKeepCore | with_reducible apply State.gapReady_stable hK | (intro _ _ _) | (intro _ _)
    | with_reducible apply foldl_stable | with_reducible apply foldl_fst_stable | with_reducible apply overN_stable | extract_lets
    | with_reducible apply ite_stable | with_reducible apply ite_fst_stable | split
    | fail_if_no_progress (with_reducible apply Keep.other hK.toKeep) | (dsimp +zetaDelta only)
theorem execLastOldFrameEnd_stable {P : State → Prop} (hK : Stable P) (p : Fin 8) (t : Nat) (s : State) (hsK : P s) :
    ∃ r_, execLastOldFrameEnd p t s = .next r_ ∧ P r_ := by
  unfold execLastOldFrameEnd
  refine ⟨_, rfl, ?_⟩
  repeat' first
    | with_reducible assumption | (with_reducible refine fst_stable (by assumption) ?_) | with_reducible apply State.begin_stable hK.toKeep.toKeepCore
    | with_reducible apply State.guard_stable hK.toKeep.toKeepCore | with_reducible apply State.oldFrameEnd_stable hK | (intro _ _ _) | (intro _ _)
    | with_reducible apply foldl_stable | with_reducible apply foldl_fst_stable | with_reducible apply overN_stable | extract_lets
    | with_reducible apply ite_stable | with_reducible apply ite_fst_stable | split
    | fail_if_no_progress (with_reducible apply Keep.other hK.toKeep) | (dsimp +zetaDelta only)
theorem execSynthesiserSettled_stable {P : State → Prop} (hK : Stable P) (p : Fin 8) (t : Nat) (s : State) (hsK : P s) :
    ∃ r_, execSynthesiserSettled p t s = .next r_ ∧ P r_ := by
  unfold execSynthesiserSettled
  refine ⟨_, rfl, ?_⟩
  repeat' first
    | with_reducible assumption | (with_reducible refine fst_stable (by assumption) ?_) | with_reducible apply State.begin_stable hK.toKeep.toKeepCore
    | with_reducible apply State.guard_stable hK.toKeep.toKeepCore | with_reducible apply State.modPipe_stable hK.toKeep.toKeepUnits
    | with_reducible apply State.gapReady_stable hK | (intro _ _ _) | (intro _ _) | with_reducible apply foldl_stable
    | with_reducible apply foldl_fst_stable | with_reducible apply overN_stable | extract_lets | with_reducible apply ite_stable
    | with_reducible apply ite_fst_stable | split | fail_if_no_progress (with_reducible apply Keep.other hK.toKeep) | (dsimp +zetaDelta only)
theorem execPclkUnlock_stable {P : State → Prop} (hK : Stable P) (p : Fin 8) (t : Nat) (s : State) (hsK : P s) :
    ∃ r_, execPclkUnlock p t s = .next r_ ∧ P r_ := by
  unfold execPclkUnlock
  refine ⟨_, rfl, ?_⟩
  repeat' first
    | with_reducible assumption | (with_reducible refine fst_stable (by assumption) ?_) | with_reducible apply State.begin_stable hK.toKeep.toKeepCore
    | with_reducible apply State.guard_stable hK.toKeep.toKeepCore | with_reducible apply State.pipeFault_stable hK.toKeep.toKeepUnits
    | with_reducible apply State.gapReady_stable hK | (intro _ _ _) | (intro _ _) | with_reducible apply foldl_stable
    | with_reducible apply foldl_fst_stable | with_reducible apply overN_stable | extract_lets | with_reducible apply ite_stable
    | with_reducible apply ite_fst_stable | split | fail_if_no_progress (with_reducible apply Keep.other hK.toKeep) | (dsimp +zetaDelta only)
theorem State.trainFault_stable {P : State → Prop} (hK : Stable P) (s : State) (p t cause : Nat) (hsK : P s) :
    P (State.trainFault s p t cause) := by
  unfold State.trainFault
  repeat' first
    | with_reducible assumption | (with_reducible refine fst_stable (by assumption) ?_) | with_reducible apply State.wr_stable hK.toKeep.toKeepCore
    | with_reducible apply State.pipeFault_stable hK.toKeep.toKeepUnits | with_reducible apply State.gapReady_stable hK | (intro _ _ _) | (intro _ _)
    | with_reducible apply foldl_stable | with_reducible apply foldl_fst_stable | with_reducible apply overN_stable | extract_lets
    | with_reducible apply ite_stable | with_reducible apply ite_fst_stable | split
    | fail_if_no_progress (with_reducible apply Keep.other hK.toKeep) | (dsimp +zetaDelta only)
theorem State.dpcdSetup_stable {P : State → Prop} (hK : KeepCore P) (s : State) (p : Nat) (rl : Nat × Nat) (hsK : P s) :
    P (State.dpcdSetup s p rl) := by
  unfold State.dpcdSetup
  repeat' first
    | with_reducible assumption | (with_reducible refine fst_stable (by assumption) ?_) | with_reducible apply State.emit_stable hK
    | (intro _ _ _) | (intro _ _) | with_reducible apply foldl_stable | with_reducible apply foldl_fst_stable | with_reducible apply overN_stable
    | extract_lets | with_reducible apply ite_stable | with_reducible apply ite_fst_stable | split
    | fail_if_no_progress (with_reducible apply KeepCore.other hK) | (dsimp +zetaDelta only)
theorem State.linkTrained_stable {P : State → Prop} (hK : Stable P) (s : State) (p t : Nat) (rl : Nat × Nat) (tps levels : Nat) (hsK : P s) :
    P (State.linkTrained s p t rl tps levels) := by
  unfold State.linkTrained
  repeat' first
    | with_reducible assumption | (with_reducible refine fst_stable (by assumption) ?_) | with_reducible apply State.wr_stable hK.toKeep.toKeepCore
    | with_reducible apply State.emit_stable hK.toKeep.toKeepCore | with_reducible apply State.modPipe_stable hK.toKeep.toKeepUnits
    | with_reducible apply State.auxFree_stable hK.toKeep.toKeepUnits | with_reducible apply State.gapReady_stable hK
    | with_reducible apply State.dpcdSetup_stable hK.toKeep.toKeepCore | (intro _ _ _) | (intro _ _) | with_reducible apply foldl_stable
    | with_reducible apply foldl_fst_stable | with_reducible apply overN_stable | extract_lets | with_reducible apply ite_stable
    | with_reducible apply ite_fst_stable | split | fail_if_no_progress (with_reducible apply Keep.other hK.toKeep) | (dsimp +zetaDelta only)
theorem execLinkTrained_stable {P : State → Prop} (hK : Stable P) (p : Fin 8) (t : Nat) (sinkRate : Fin 4) (sinkLanes : Fin 3) (tps : Fin 4) (levels : BitVec 16) (s : State) (hsK : P s) :
    ∃ r_, execLinkTrained p t sinkRate sinkLanes tps levels s = .next r_ ∧ P r_ := by
  unfold execLinkTrained
  refine ⟨_, rfl, ?_⟩
  repeat' first
    | with_reducible assumption | (with_reducible refine fst_stable (by assumption) ?_) | with_reducible apply State.begin_stable hK.toKeep.toKeepCore
    | with_reducible apply State.guard_stable hK.toKeep.toKeepCore | with_reducible apply State.trainFault_stable hK
    | with_reducible apply State.linkTrained_stable hK | (intro _ _ _) | (intro _ _) | with_reducible apply foldl_stable
    | with_reducible apply foldl_fst_stable | with_reducible apply overN_stable | extract_lets | with_reducible apply ite_stable
    | with_reducible apply ite_fst_stable | split | fail_if_no_progress (with_reducible apply Keep.other hK.toKeep) | (dsimp +zetaDelta only)
theorem execTrainingFailed_stable {P : State → Prop} (hK : Stable P) (p : Fin 8) (t : Nat) (sinkRate : Fin 4) (sinkLanes : Fin 3) (s : State) (hsK : P s) :
    ∃ r_, execTrainingFailed p t sinkRate sinkLanes s = .next r_ ∧ P r_ := by
  unfold execTrainingFailed
  refine ⟨_, rfl, ?_⟩
  repeat' first
    | with_reducible assumption | (with_reducible refine fst_stable (by assumption) ?_) | with_reducible apply State.begin_stable hK.toKeep.toKeepCore
    | with_reducible apply State.guard_stable hK.toKeep.toKeepCore | with_reducible apply State.modPipe_stable hK.toKeep.toKeepUnits
    | with_reducible apply State.trainFault_stable hK | with_reducible apply State.dpcdSetup_stable hK.toKeep.toKeepCore | (intro _ _ _) | (intro _ _)
    | with_reducible apply foldl_stable | with_reducible apply foldl_fst_stable | with_reducible apply overN_stable | extract_lets
    | with_reducible apply ite_stable | with_reducible apply ite_fst_stable | split
    | fail_if_no_progress (with_reducible apply Keep.other hK.toKeep) | (dsimp +zetaDelta only)
theorem execTrainTimeout_stable {P : State → Prop} (hK : Stable P) (p : Fin 8) (t : Nat) (s : State) (hsK : P s) :
    ∃ r_, execTrainTimeout p t s = .next r_ ∧ P r_ := by
  unfold execTrainTimeout
  refine ⟨_, rfl, ?_⟩
  repeat' first
    | with_reducible assumption | (with_reducible refine fst_stable (by assumption) ?_) | with_reducible apply State.begin_stable hK.toKeep.toKeepCore
    | with_reducible apply State.guard_stable hK.toKeep.toKeepCore | with_reducible apply State.trainFault_stable hK | (intro _ _ _) | (intro _ _)
    | with_reducible apply foldl_stable | with_reducible apply foldl_fst_stable | with_reducible apply overN_stable | extract_lets
    | with_reducible apply ite_stable | with_reducible apply ite_fst_stable | split
    | fail_if_no_progress (with_reducible apply Keep.other hK.toKeep) | (dsimp +zetaDelta only)
theorem execFaultRetry_stable {P : State → Prop} (hK : KeepUnits P) (p : Fin 8) (s : State) (hsK : P s) :
    ∃ r_, execFaultRetry p s = .next r_ ∧ P r_ := by
  unfold execFaultRetry
  refine ⟨_, rfl, ?_⟩
  repeat' first
    | with_reducible assumption | (with_reducible refine fst_stable (by assumption) ?_) | with_reducible apply State.begin_stable hK.toKeepCore
    | with_reducible apply State.guard_stable hK.toKeepCore | with_reducible apply State.modPipe_stable hK
    | with_reducible apply State.tryRecover_stable hK | (intro _ _ _) | (intro _ _) | with_reducible apply foldl_stable
    | with_reducible apply foldl_fst_stable | with_reducible apply overN_stable | extract_lets | with_reducible apply ite_stable
    | with_reducible apply ite_fst_stable | split | fail_if_no_progress (with_reducible apply KeepUnits.other hK) | (dsimp +zetaDelta only)
theorem State.hpdUp_stable {P : State → Prop} (hK : KeepUnits P) (s : State) (p : Nat) (hsK : P s) : P (State.hpdUp s p) := by
  unfold State.hpdUp
  repeat' first
    | with_reducible assumption | (with_reducible refine fst_stable (by assumption) ?_) | with_reducible apply State.wr_stable hK.toKeepCore
    | with_reducible apply State.modPipe_stable hK | (intro _ _ _) | (intro _ _) | with_reducible apply foldl_stable
    | with_reducible apply foldl_fst_stable | with_reducible apply overN_stable | extract_lets | with_reducible apply ite_stable
    | with_reducible apply ite_fst_stable | split | fail_if_no_progress (with_reducible apply KeepUnits.other hK) | (dsimp +zetaDelta only)
theorem State.hpdUnplug_stable {P : State → Prop} (hK : Stable P) (s : State) (p t : Nat) (hsK : P s) : P (State.hpdUnplug s p t) := by
  unfold State.hpdUnplug
  repeat' first
    | with_reducible assumption | (with_reducible refine fst_stable (by assumption) ?_) | with_reducible apply State.wr_stable hK.toKeep.toKeepCore
    | with_reducible apply State.modPipe_stable hK.toKeep.toKeepUnits | with_reducible apply State.pipeFault_stable hK.toKeep.toKeepUnits
    | with_reducible apply State.gapReady_stable hK | (intro _ _ _) | (intro _ _) | with_reducible apply foldl_stable
    | with_reducible apply foldl_fst_stable | with_reducible apply overN_stable | extract_lets | with_reducible apply ite_stable
    | with_reducible apply ite_fst_stable | split | fail_if_no_progress (with_reducible apply Keep.other hK.toKeep) | (dsimp +zetaDelta only)
theorem execHpdFall_stable {P : State → Prop} (hK : KeepUnits P) (p : Fin 8) (s : State) (hsK : P s) : ∃ r_, execHpdFall p s = .next r_ ∧ P r_ := by
  unfold execHpdFall
  refine ⟨_, rfl, ?_⟩
  repeat' first
    | with_reducible assumption | (with_reducible refine fst_stable (by assumption) ?_) | with_reducible apply State.begin_stable hK.toKeepCore
    | with_reducible apply State.guard_stable hK.toKeepCore | with_reducible apply State.modPipe_stable hK | (intro _ _ _) | (intro _ _)
    | with_reducible apply foldl_stable | with_reducible apply foldl_fst_stable | with_reducible apply overN_stable | extract_lets
    | with_reducible apply ite_stable | with_reducible apply ite_fst_stable | split | fail_if_no_progress (with_reducible apply KeepUnits.other hK)
    | (dsimp +zetaDelta only)
theorem execHpdRise_stable {P : State → Prop} (hK : Stable P) (p : Fin 8) (us : Nat) (s : State) (hsK : P s) :
    ∃ r_, execHpdRise p us s = .next r_ ∧ P r_ := by
  unfold execHpdRise
  refine ⟨_, rfl, ?_⟩
  repeat' first
    | with_reducible assumption | (with_reducible refine fst_stable (by assumption) ?_) | with_reducible apply State.wr_stable hK.toKeep.toKeepCore
    | with_reducible apply State.bumpEv_stable hK.toKeep.toKeepCore | with_reducible apply State.begin_stable hK.toKeep.toKeepCore
    | with_reducible apply State.modPipe_stable hK.toKeep.toKeepUnits | with_reducible apply State.hpdUp_stable hK.toKeep.toKeepUnits
    | with_reducible apply State.hpdUnplug_stable hK | (intro _ _ _) | (intro _ _) | with_reducible apply foldl_stable
    | with_reducible apply foldl_fst_stable | with_reducible apply overN_stable | extract_lets | with_reducible apply ite_stable
    | with_reducible apply ite_fst_stable | split | fail_if_no_progress (with_reducible apply Keep.other hK.toKeep) | (dsimp +zetaDelta only)
theorem execHpdUnplug_stable {P : State → Prop} (hK : Stable P) (p : Fin 8) (t : Nat) (s : State) (hsK : P s) :
    ∃ r_, execHpdUnplug p t s = .next r_ ∧ P r_ := by
  unfold execHpdUnplug
  refine ⟨_, rfl, ?_⟩
  repeat' first
    | with_reducible assumption | (with_reducible refine fst_stable (by assumption) ?_) | with_reducible apply State.begin_stable hK.toKeep.toKeepCore
    | with_reducible apply State.guard_stable hK.toKeep.toKeepCore | with_reducible apply State.hpdUnplug_stable hK | (intro _ _ _) | (intro _ _)
    | with_reducible apply foldl_stable | with_reducible apply foldl_fst_stable | with_reducible apply overN_stable | extract_lets
    | with_reducible apply ite_stable | with_reducible apply ite_fst_stable | split
    | fail_if_no_progress (with_reducible apply Keep.other hK.toKeep) | (dsimp +zetaDelta only)
theorem execHpdStable_stable {P : State → Prop} (hK : KeepUnits P) (p : Fin 8) (s : State) (hsK : P s) :
    ∃ r_, execHpdStable p s = .next r_ ∧ P r_ := by
  unfold execHpdStable
  refine ⟨_, rfl, ?_⟩
  repeat' first
    | with_reducible assumption | (with_reducible refine fst_stable (by assumption) ?_) | with_reducible apply State.begin_stable hK.toKeepCore
    | with_reducible apply State.guard_stable hK.toKeepCore | with_reducible apply State.modPipe_stable hK
    | with_reducible apply State.tryRecover_stable hK | (intro _ _ _) | (intro _ _) | with_reducible apply foldl_stable
    | with_reducible apply foldl_fst_stable | with_reducible apply overN_stable | extract_lets | with_reducible apply ite_stable
    | with_reducible apply ite_fst_stable | split | fail_if_no_progress (with_reducible apply KeepUnits.other hK) | (dsimp +zetaDelta only)
theorem execLaneStatusRead_stable {P : State → Prop} (hK : KeepUnits P) (p : Fin 8) (lost : Bool) (s : State) (hsK : P s) :
    ∃ r_, execLaneStatusRead p lost s = .next r_ ∧ P r_ := by
  unfold execLaneStatusRead
  refine ⟨_, rfl, ?_⟩
  repeat' first
    | with_reducible assumption | (with_reducible refine fst_stable (by assumption) ?_) | with_reducible apply State.wr_stable hK.toKeepCore
    | with_reducible apply State.begin_stable hK.toKeepCore | with_reducible apply State.guard_stable hK.toKeepCore
    | with_reducible apply State.modPipe_stable hK | with_reducible apply State.beginTraining_stable hK | with_reducible apply State.auxFree_stable hK
    | (intro _ _ _) | (intro _ _) | with_reducible apply foldl_stable | with_reducible apply foldl_fst_stable | with_reducible apply overN_stable
    | extract_lets | with_reducible apply ite_stable | with_reducible apply ite_fst_stable | split
    | fail_if_no_progress (with_reducible apply KeepUnits.other hK) | (dsimp +zetaDelta only)
theorem State.wrAuxCmd_stable {P : State → Prop} (hK : KeepUnits P) (s : State) (p : Nat) (w : W64) (hsK : P s) : P (State.wrAuxCmd s p w) := by
  unfold State.wrAuxCmd
  repeat' first
    | with_reducible assumption | (with_reducible refine fst_stable (by assumption) ?_) | with_reducible apply State.wr_stable hK.toKeepCore
    | with_reducible apply State.refuse_stable hK.toKeepCore | with_reducible apply State.settingWrite_stable hK.toKeepCore
    | with_reducible apply State.modPipe_stable hK | (intro _ _ _) | (intro _ _) | with_reducible apply foldl_stable
    | with_reducible apply foldl_fst_stable | with_reducible apply overN_stable | extract_lets | with_reducible apply ite_stable
    | with_reducible apply ite_fst_stable | split | fail_if_no_progress (with_reducible apply KeepUnits.other hK) | (dsimp +zetaDelta only)
theorem execAuxGo_stable {P : State → Prop} (hK : KeepUnits P) (who : Who) (p : Fin 8) (w : W32) (s : State) (hsK : P s) :
    ∃ r_, execAuxGo who p w s = .next r_ ∧ P r_ := by
  unfold execAuxGo
  refine ⟨_, rfl, ?_⟩
  repeat' first
    | with_reducible assumption | (with_reducible refine fst_stable (by assumption) ?_) | with_reducible apply State.begin_stable hK.toKeepCore
    | with_reducible apply State.write_stable hK.toKeepCore | with_reducible apply State.wrAuxCmd_stable hK | (intro _ _ _) | (intro _ _)
    | with_reducible apply foldl_stable | with_reducible apply foldl_fst_stable | with_reducible apply overN_stable | extract_lets
    | with_reducible apply ite_stable | with_reducible apply ite_fst_stable | split | fail_if_no_progress (with_reducible apply KeepUnits.other hK)
    | (dsimp +zetaDelta only)
theorem State.auxDone_stable {P : State → Prop} (hK : KeepUnits P) (s : State) (p reply timeout count : Nat) (hsK : P s) :
    P (State.auxDone s p reply timeout count) := by
  unfold State.auxDone
  repeat' first
    | with_reducible assumption | (with_reducible refine fst_stable (by assumption) ?_) | with_reducible apply State.wr_stable hK.toKeepCore
    | with_reducible apply State.modPipe_stable hK | (intro _ _ _) | (intro _ _) | with_reducible apply foldl_stable
    | with_reducible apply foldl_fst_stable | with_reducible apply overN_stable | extract_lets | with_reducible apply ite_stable
    | with_reducible apply ite_fst_stable | split | fail_if_no_progress (with_reducible apply KeepUnits.other hK) | (dsimp +zetaDelta only)
theorem State.auxStore_stable {P : State → Prop} (hK : KeepCore P) (s : State) (p : Nat) (d : List Byte) (hsK : P s) :
    P (State.auxStore s p d) := by
  unfold State.auxStore
  repeat' first
    | with_reducible assumption | (with_reducible refine fst_stable (by assumption) ?_) | with_reducible apply State.wr_stable hK | (intro _ _ _)
    | (intro _ _) | with_reducible apply foldl_stable | with_reducible apply foldl_fst_stable | with_reducible apply overN_stable | extract_lets
    | with_reducible apply ite_stable | with_reducible apply ite_fst_stable | split | fail_if_no_progress (with_reducible apply KeepCore.other hK)
    | (dsimp +zetaDelta only)
theorem execAuxReply_stable {P : State → Prop} (hK : KeepUnits P) (p : Fin 8) (code : Fin 3) (n : Nat) (data : List Byte) (s : State) (hsK : P s) :
    ∃ r_, execAuxReply p code n data s = .next r_ ∧ P r_ := by
  unfold execAuxReply
  refine ⟨_, rfl, ?_⟩
  repeat' first
    | with_reducible assumption | (with_reducible refine fst_stable (by assumption) ?_) | with_reducible apply State.begin_stable hK.toKeepCore
    | with_reducible apply State.guard_stable hK.toKeepCore | with_reducible apply State.modPipe_stable hK | with_reducible apply State.auxDone_stable hK
    | with_reducible apply State.auxStore_stable hK.toKeepCore | (intro _ _ _) | (intro _ _) | with_reducible apply foldl_stable
    | with_reducible apply foldl_fst_stable | with_reducible apply overN_stable | extract_lets | with_reducible apply ite_stable
    | with_reducible apply ite_fst_stable | split | fail_if_no_progress (with_reducible apply KeepUnits.other hK) | (dsimp +zetaDelta only)
theorem execAuxReplyTimeout_stable {P : State → Prop} (hK : KeepUnits P) (p : Fin 8) (s : State) (hsK : P s) :
    ∃ r_, execAuxReplyTimeout p s = .next r_ ∧ P r_ := by
  unfold execAuxReplyTimeout
  refine ⟨_, rfl, ?_⟩
  repeat' first
    | with_reducible assumption | (with_reducible refine fst_stable (by assumption) ?_) | with_reducible apply State.begin_stable hK.toKeepCore
    | with_reducible apply State.guard_stable hK.toKeepCore | with_reducible apply State.modPipe_stable hK | with_reducible apply State.auxDone_stable hK
    | (intro _ _ _) | (intro _ _) | with_reducible apply foldl_stable | with_reducible apply foldl_fst_stable | with_reducible apply overN_stable
    | extract_lets | with_reducible apply ite_stable | with_reducible apply ite_fst_stable | split
    | fail_if_no_progress (with_reducible apply KeepUnits.other hK) | (dsimp +zetaDelta only)
theorem execSyncSrcWrite_stable {P : State → Prop} (hK : KeepUnits P) (who : Who) (p : Fin 8) (w : W32) (s : State) (hsK : P s) :
    ∃ r_, execSyncSrcWrite who p w s = .next r_ ∧ P r_ := by
  unfold execSyncSrcWrite
  refine ⟨_, rfl, ?_⟩
  repeat' first
    | with_reducible assumption | (with_reducible refine fst_stable (by assumption) ?_) | with_reducible apply State.begin_stable hK.toKeepCore
    | with_reducible apply State.write_stable hK.toKeepCore | with_reducible apply State.wrSyncSrc_stable hK | (intro _ _ _) | (intro _ _)
    | with_reducible apply foldl_stable | with_reducible apply foldl_fst_stable | with_reducible apply overN_stable | extract_lets
    | with_reducible apply ite_stable | with_reducible apply ite_fst_stable | split | fail_if_no_progress (with_reducible apply KeepUnits.other hK)
    | (dsimp +zetaDelta only)
theorem State.wrSyncCtrl_stable {P : State → Prop} (hK : KeepUnits P) (s : State) (p : Nat) (w : W64) (hsK : P s) : P (State.wrSyncCtrl s p w) := by
  unfold State.wrSyncCtrl
  repeat' first
    | with_reducible assumption | (with_reducible refine fst_stable (by assumption) ?_) | with_reducible apply State.modPipe_stable hK
    | (intro _ _ _) | (intro _ _) | with_reducible apply foldl_stable | with_reducible apply foldl_fst_stable | with_reducible apply overN_stable
    | extract_lets | with_reducible apply ite_stable | with_reducible apply ite_fst_stable | split
    | fail_if_no_progress (with_reducible apply KeepUnits.other hK) | (dsimp +zetaDelta only)
theorem execRealign_stable {P : State → Prop} (hK : KeepUnits P) (who : Who) (p : Fin 8) (s : State) (hsK : P s) :
    ∃ r_, execRealign who p s = .next r_ ∧ P r_ := by
  unfold execRealign
  refine ⟨_, rfl, ?_⟩
  repeat' first
    | with_reducible assumption | (with_reducible refine fst_stable (by assumption) ?_) | with_reducible apply State.begin_stable hK.toKeepCore
    | with_reducible apply State.write_stable hK.toKeepCore | with_reducible apply State.wrSyncCtrl_stable hK | (intro _ _ _) | (intro _ _)
    | with_reducible apply foldl_stable | with_reducible apply foldl_fst_stable | with_reducible apply overN_stable | extract_lets
    | with_reducible apply ite_stable | with_reducible apply ite_fst_stable | split | fail_if_no_progress (with_reducible apply KeepUnits.other hK)
    | (dsimp +zetaDelta only)
theorem execReferenceEdge_stable {P : State → Prop} (hK : KeepUnits P) (n : Fin 4) (rising short : Bool) (t : Nat) (s : State) (hsK : P s) :
    ∃ r_, execReferenceEdge n rising short t s = .next r_ ∧ P r_ := by
  unfold execReferenceEdge
  refine ⟨_, rfl, ?_⟩
  repeat' first
    | with_reducible assumption | (with_reducible refine fst_stable (by assumption) ?_) | with_reducible apply State.begin_stable hK.toKeepCore
    | with_reducible apply State.guard_stable hK.toKeepCore | with_reducible apply State.seeEdge_stable hK
    | with_reducible apply State.syncDrive_stable hK.toKeepCore | (intro _ _ _) | (intro _ _) | with_reducible apply foldl_stable
    | with_reducible apply foldl_fst_stable | with_reducible apply overN_stable | extract_lets | with_reducible apply ite_stable
    | with_reducible apply ite_fst_stable | split | fail_if_no_progress (with_reducible apply KeepUnits.other hK) | (dsimp +zetaDelta only)
theorem execMissingFrame_stable {P : State → Prop} (hK : KeepUnits P) (p : Fin 8) (s : State) (hsK : P s) :
    ∃ r_, execMissingFrame p s = .next r_ ∧ P r_ := by
  unfold execMissingFrame
  refine ⟨_, rfl, ?_⟩
  repeat' first
    | with_reducible assumption | (with_reducible refine fst_stable (by assumption) ?_) | with_reducible apply State.begin_stable hK.toKeepCore
    | with_reducible apply State.guard_stable hK.toKeepCore | with_reducible apply State.refMissing_stable hK | (intro _ _ _) | (intro _ _)
    | with_reducible apply foldl_stable | with_reducible apply foldl_fst_stable | with_reducible apply overN_stable | extract_lets
    | with_reducible apply ite_stable | with_reducible apply ite_fst_stable | split | fail_if_no_progress (with_reducible apply KeepUnits.other hK)
    | (dsimp +zetaDelta only)
theorem execSyncOutPulseEnd_stable {P : State → Prop} (hK : KeepCore P) (o : Fin 2) (s : State) (hsK : P s) :
    ∃ r_, execSyncOutPulseEnd o s = .next r_ ∧ P r_ := by
  unfold execSyncOutPulseEnd
  refine ⟨_, rfl, ?_⟩
  repeat' first
    | with_reducible assumption | (with_reducible refine fst_stable (by assumption) ?_) | with_reducible apply State.begin_stable hK
    | with_reducible apply State.syncDrive_stable hK | (intro _ _ _) | (intro _ _) | with_reducible apply foldl_stable
    | with_reducible apply foldl_fst_stable | with_reducible apply overN_stable | extract_lets | with_reducible apply ite_stable
    | with_reducible apply ite_fst_stable | split | fail_if_no_progress (with_reducible apply KeepCore.other hK) | (dsimp +zetaDelta only)

/-! ### Machine/Touch.lean -/

theorem State.setWindow_stable {P : State → Prop} (hK : KeepCore P) (s : State) (addr : Nat → Nat) (v : List Nat) (hsK : P s) :
    P (State.setWindow s addr v) := by
  unfold State.setWindow
  repeat' first
    | with_reducible assumption | (with_reducible refine fst_stable (by assumption) ?_) | with_reducible apply State.setRw_stable hK
    | (intro _ _ _) | (intro _ _) | with_reducible apply foldl_stable | with_reducible apply foldl_fst_stable | with_reducible apply overN_stable
    | extract_lets | with_reducible apply ite_stable | with_reducible apply ite_fst_stable | split
    | fail_if_no_progress (with_reducible apply KeepCore.other hK) | (dsimp +zetaDelta only)
theorem State.tpLook_stable {P : State → Prop} (hK : KeepSys P) (s : State) (p : Nat) (hsK : P s) : P (State.tpLook s p) := by
  unfold State.tpLook
  repeat' first
    | with_reducible assumption | (with_reducible refine fst_stable (by assumption) ?_) | with_reducible apply State.lookTouch_stable hK
    | (intro _ _ _) | (intro _ _) | with_reducible apply foldl_stable | with_reducible apply foldl_fst_stable | with_reducible apply overN_stable
    | extract_lets | with_reducible apply ite_stable | with_reducible apply ite_fst_stable | split
    | fail_if_no_progress (with_reducible apply KeepSys.other hK) | (dsimp +zetaDelta only)
theorem State.panelStart_stable {P : State → Prop} (hK : Keep P) (s : State) (p : Nat) (hsK : P s) : P (State.panelStart s p) := by
  unfold State.panelStart
  repeat' first
    | with_reducible assumption | (with_reducible refine fst_stable (by assumption) ?_) | with_reducible apply State.wr_stable hK.toKeepCore
    | with_reducible apply State.latch_stable hK.toKeepCore | with_reducible apply State.modPanel_stable hK.toKeepUnits
    | with_reducible apply State.tpLook_stable hK.toKeepSys | (intro _ _ _) | (intro _ _) | with_reducible apply foldl_stable
    | with_reducible apply foldl_fst_stable | with_reducible apply overN_stable | extract_lets | with_reducible apply ite_stable
    | with_reducible apply ite_fst_stable | split | fail_if_no_progress (with_reducible apply Keep.other hK) | (dsimp +zetaDelta only)
theorem State.showFe_stable {P : State → Prop} (hK : KeepCore P) (s : State) (fe : Nat) (hsK : P s) : P (State.showFe s fe) := by
  unfold State.showFe
  repeat' first
    | with_reducible assumption | (with_reducible refine fst_stable (by assumption) ?_) | with_reducible apply State.wr_stable hK | (intro _ _ _)
    | (intro _ _) | with_reducible apply foldl_stable | with_reducible apply foldl_fst_stable | with_reducible apply overN_stable | extract_lets
    | with_reducible apply ite_stable | with_reducible apply ite_fst_stable | split | fail_if_no_progress (with_reducible apply KeepCore.other hK)
    | (dsimp +zetaDelta only)
theorem State.scanStart_stable {P : State → Prop} (hK : KeepUnits P) (s : State) (p t : Nat) (hsK : P s) : P (State.scanStart s p t) := by
  unfold State.scanStart
  repeat' first
    | with_reducible assumption | (with_reducible refine fst_stable (by assumption) ?_) | with_reducible apply State.latch_stable hK.toKeepCore
    | with_reducible apply State.modPanel_stable hK | with_reducible apply State.showFe_stable hK.toKeepCore | (intro _ _ _) | (intro _ _)
    | with_reducible apply foldl_stable | with_reducible apply foldl_fst_stable | with_reducible apply overN_stable | extract_lets
    | with_reducible apply ite_stable | with_reducible apply ite_fst_stable | split | fail_if_no_progress (with_reducible apply KeepUnits.other hK)
    | (dsimp +zetaDelta only)
theorem State.panelStop_stable {P : State → Prop} (hK : KeepUnits P) (s : State) (p : Nat) (hsK : P s) : P (State.panelStop s p) := by
  unfold State.panelStop
  repeat' first
    | with_reducible assumption | (with_reducible refine fst_stable (by assumption) ?_) | with_reducible apply State.wr_stable hK.toKeepCore
    | with_reducible apply State.modPanel_stable hK | with_reducible apply State.showFe_stable hK.toKeepCore
    | with_reducible apply State.scanStart_stable hK | (intro _ _ _) | (intro _ _) | with_reducible apply foldl_stable
    | with_reducible apply foldl_fst_stable | with_reducible apply overN_stable | extract_lets | with_reducible apply ite_stable
    | with_reducible apply ite_fst_stable | split | fail_if_no_progress (with_reducible apply KeepUnits.other hK) | (dsimp +zetaDelta only)
theorem State.wrTpCfg_stable {P : State → Prop} (hK : Keep P) (s : State) (p : Nat) (w : W64) (hsK : P s) : P (State.wrTpCfg s p w) := by
  unfold State.wrTpCfg
  repeat' first
    | with_reducible assumption | (with_reducible refine fst_stable (by assumption) ?_) | with_reducible apply State.refuse_stable hK.toKeepCore
    | with_reducible apply State.settingWrite_stable hK.toKeepCore | with_reducible apply State.panelStart_stable hK
    | with_reducible apply State.panelStop_stable hK.toKeepUnits | (intro _ _ _) | (intro _ _) | with_reducible apply foldl_stable
    | with_reducible apply foldl_fst_stable | with_reducible apply overN_stable | extract_lets | with_reducible apply ite_stable
    | with_reducible apply ite_fst_stable | split | fail_if_no_progress (with_reducible apply Keep.other hK) | (dsimp +zetaDelta only)
theorem execPanelEnable_stable {P : State → Prop} (hK : Keep P) (who : Who) (p : Fin 8) (s : State) (hsK : P s) :
    ∃ r_, execPanelEnable who p s = .next r_ ∧ P r_ := by
  unfold execPanelEnable
  refine ⟨_, rfl, ?_⟩
  repeat' first
    | with_reducible assumption | (with_reducible refine fst_stable (by assumption) ?_) | with_reducible apply State.begin_stable hK.toKeepCore
    | with_reducible apply State.write_stable hK.toKeepCore | with_reducible apply State.wrTpCfg_stable hK | (intro _ _ _) | (intro _ _)
    | with_reducible apply foldl_stable | with_reducible apply foldl_fst_stable | with_reducible apply overN_stable | extract_lets
    | with_reducible apply ite_stable | with_reducible apply ite_fst_stable | split | fail_if_no_progress (with_reducible apply Keep.other hK)
    | (dsimp +zetaDelta only)
theorem State.wrTpThr_stable {P : State → Prop} (hK : KeepCore P) (s : State) (p : Nat) (w : W64) (hsK : P s) : P (State.wrTpThr s p w) := by
  unfold State.wrTpThr
  repeat' first
    | with_reducible assumption | (with_reducible refine fst_stable (by assumption) ?_) | with_reducible apply State.refuse_stable hK
    | with_reducible apply State.settingWrite_stable hK | (intro _ _ _) | (intro _ _) | with_reducible apply foldl_stable
    | with_reducible apply foldl_fst_stable | with_reducible apply overN_stable | extract_lets | with_reducible apply ite_stable
    | with_reducible apply ite_fst_stable | split | fail_if_no_progress (with_reducible apply KeepCore.other hK) | (dsimp +zetaDelta only)
theorem State.wrTpCtrl_stable {P : State → Prop} (hK : KeepUnits P) (s : State) (p : Nat) (w : W64) (hsK : P s) : P (State.wrTpCtrl s p w) := by
  unfold State.wrTpCtrl
  repeat' first
    | with_reducible assumption | (with_reducible refine fst_stable (by assumption) ?_) | with_reducible apply State.modPanel_stable hK
    | (intro _ _ _) | (intro _ _) | with_reducible apply foldl_stable | with_reducible apply foldl_fst_stable | with_reducible apply overN_stable
    | extract_lets | with_reducible apply ite_stable | with_reducible apply ite_fst_stable | split
    | fail_if_no_progress (with_reducible apply KeepUnits.other hK) | (dsimp +zetaDelta only)
theorem execRecal_stable {P : State → Prop} (hK : KeepUnits P) (who : Who) (p : Fin 8) (s : State) (hsK : P s) :
    ∃ r_, execRecal who p s = .next r_ ∧ P r_ := by
  unfold execRecal
  refine ⟨_, rfl, ?_⟩
  repeat' first
    | with_reducible assumption | (with_reducible refine fst_stable (by assumption) ?_) | with_reducible apply State.begin_stable hK.toKeepCore
    | with_reducible apply State.write_stable hK.toKeepCore | with_reducible apply State.wrTpCtrl_stable hK | (intro _ _ _) | (intro _ _)
    | with_reducible apply foldl_stable | with_reducible apply foldl_fst_stable | with_reducible apply overN_stable | extract_lets
    | with_reducible apply ite_stable | with_reducible apply ite_fst_stable | split | fail_if_no_progress (with_reducible apply KeepUnits.other hK)
    | (dsimp +zetaDelta only)
theorem State.wrFeLfclr_stable {P : State → Prop} (hK : KeepCore P) (s : State) (fe : Nat) (w : W64) (hsK : P s) : P (State.wrFeLfclr s fe w) := by
  unfold State.wrFeLfclr
  repeat' first
    | with_reducible assumption | (with_reducible refine fst_stable (by assumption) ?_) | with_reducible apply State.wr_stable hK | (intro _ _ _)
    | (intro _ _) | with_reducible apply foldl_stable | with_reducible apply foldl_fst_stable | with_reducible apply overN_stable | extract_lets
    | with_reducible apply ite_stable | with_reducible apply ite_fst_stable | split | fail_if_no_progress (with_reducible apply KeepCore.other hK)
    | (dsimp +zetaDelta only)
theorem execFeLfclr_stable {P : State → Prop} (hK : KeepCore P) (who : Who) (fe : Fin 4) (s : State) (hsK : P s) :
    ∃ r_, execFeLfclr who fe s = .next r_ ∧ P r_ := by
  unfold execFeLfclr
  refine ⟨_, rfl, ?_⟩
  repeat' first
    | with_reducible assumption | (with_reducible refine fst_stable (by assumption) ?_) | with_reducible apply State.begin_stable hK
    | with_reducible apply State.write_stable hK | with_reducible apply State.wrFeLfclr_stable hK | (intro _ _ _) | (intro _ _)
    | with_reducible apply foldl_stable | with_reducible apply foldl_fst_stable | with_reducible apply overN_stable | extract_lets
    | with_reducible apply ite_stable | with_reducible apply ite_fst_stable | split | fail_if_no_progress (with_reducible apply KeepCore.other hK)
    | (dsimp +zetaDelta only)
theorem State.tpIdle_stable {P : State → Prop} (hK : KeepUnits P) (s : State) (p t : Nat) (hsK : P s) : P (State.tpIdle s p t) := by
  unfold State.tpIdle
  repeat' first
    | with_reducible assumption | (with_reducible refine fst_stable (by assumption) ?_) | with_reducible apply State.wr_stable hK.toKeepCore
    | with_reducible apply State.modPanel_stable hK | (intro _ _ _) | (intro _ _) | with_reducible apply foldl_stable
    | with_reducible apply foldl_fst_stable | with_reducible apply overN_stable | extract_lets | with_reducible apply ite_stable
    | with_reducible apply ite_fst_stable | split | fail_if_no_progress (with_reducible apply KeepUnits.other hK) | (dsimp +zetaDelta only)
theorem State.opportunity_stable {P : State → Prop} (hK : KeepUnits P) (s : State) (p t : Nat) (hsK : P s) : P (State.opportunity s p t) := by
  unfold State.opportunity
  repeat' first
    | with_reducible assumption | (with_reducible refine fst_stable (by assumption) ?_) | with_reducible apply State.wr_stable hK.toKeepCore
    | with_reducible apply State.latch_stable hK.toKeepCore | with_reducible apply State.bumpEv_stable hK.toKeepCore
    | with_reducible apply State.bumpErr_stable hK.toKeepCore | with_reducible apply State.modPanel_stable hK
    | with_reducible apply State.scanStart_stable hK | with_reducible apply State.tpIdle_stable hK | (intro _ _ _) | (intro _ _)
    | with_reducible apply foldl_stable | with_reducible apply foldl_fst_stable | with_reducible apply overN_stable | extract_lets
    | with_reducible apply ite_stable | with_reducible apply ite_fst_stable | split | fail_if_no_progress (with_reducible apply KeepUnits.other hK)
    | (dsimp +zetaDelta only)
theorem execScanOpportunity_stable {P : State → Prop} (hK : KeepUnits P) (p : Fin 8) (t line : Nat) (s : State) (hsK : P s) :
    ∃ r_, execScanOpportunity p t line s = .next r_ ∧ P r_ := by
  unfold execScanOpportunity
  refine ⟨_, rfl, ?_⟩
  repeat' first
    | with_reducible assumption | (with_reducible refine fst_stable (by assumption) ?_) | with_reducible apply State.begin_stable hK.toKeepCore
    | with_reducible apply State.guard_stable hK.toKeepCore | with_reducible apply State.opportunity_stable hK | (intro _ _ _) | (intro _ _)
    | with_reducible apply foldl_stable | with_reducible apply foldl_fst_stable | with_reducible apply overN_stable | extract_lets
    | with_reducible apply ite_stable | with_reducible apply ite_fst_stable | split | fail_if_no_progress (with_reducible apply KeepUnits.other hK)
    | (dsimp +zetaDelta only)
theorem State.lineCheck_stable {P : State → Prop} (hK : KeepCore P) (s : State) (p key : Nat) (bad : Bool) (marked : Bool) (mark : State → State) (hmark : ∀ x0, P x0 → P (mark x0)) (hsK : P s) :
    P (State.lineCheck s p key bad marked mark) := by
  unfold State.lineCheck
  repeat' first
    | with_reducible assumption | (with_reducible refine fst_stable (by assumption) ?_) | with_reducible apply State.bumpErr_stable hK
    | with_reducible apply State.feEvt_stable hK | with_reducible apply hmark | (intro _ _ _) | (intro _ _) | with_reducible apply foldl_stable
    | with_reducible apply foldl_fst_stable | with_reducible apply overN_stable | extract_lets | with_reducible apply ite_stable
    | with_reducible apply ite_fst_stable | split | fail_if_no_progress (with_reducible apply KeepCore.other hK) | (dsimp +zetaDelta only)
theorem State.lineChecks_stable {P : State → Prop} (hK : KeepCore P) (s : State) (p : Nat) (raw : List Nat) (hsK : P s) :
    P (State.lineChecks s p raw) := by
  unfold State.lineChecks
  repeat' first
    | with_reducible assumption | (with_reducible refine fst_stable (by assumption) ?_) | with_reducible apply State.wr_stable hK
    | with_reducible apply State.lineCheck_stable hK | (intro _ _ _) | (intro _ _) | with_reducible apply foldl_stable
    | with_reducible apply foldl_fst_stable | with_reducible apply overN_stable | extract_lets | with_reducible apply ite_stable
    | with_reducible apply ite_fst_stable | split | fail_if_no_progress (with_reducible apply KeepCore.other hK) | (dsimp +zetaDelta only)
theorem State.saveBase_stable {P : State → Prop} (hK : Stable P) (s : State) (p t : Nat) (hsK : P s) : P (State.saveBase s p t) := by
  unfold State.saveBase
  repeat' first
    | with_reducible assumption | (with_reducible refine fst_stable (by assumption) ?_) | with_reducible apply State.wr_stable hK.toKeep.toKeepCore
    | with_reducible apply State.bumpEv_stable hK.toKeep.toKeepCore | with_reducible apply State.modPanel_stable hK.toKeep.toKeepUnits
    | with_reducible apply State.recStore_stable hK | (intro _ _ _) | (intro _ _) | with_reducible apply foldl_stable
    | with_reducible apply foldl_fst_stable | with_reducible apply overN_stable | extract_lets | with_reducible apply ite_stable
    | with_reducible apply ite_fst_stable | split | fail_if_no_progress (with_reducible apply Keep.other hK.toKeep) | (dsimp +zetaDelta only)
theorem State.saveCheck_stable {P : State → Prop} (hK : Stable P) (s : State) (p t : Nat) (quiet : Bool) (hsK : P s) :
    P (State.saveCheck s p t quiet) := by
  unfold State.saveCheck
  repeat' first
    | with_reducible assumption | (with_reducible refine fst_stable (by assumption) ?_)
    | with_reducible apply State.modPanel_stable hK.toKeep.toKeepUnits | with_reducible apply State.saveBase_stable hK | (intro _ _ _) | (intro _ _)
    | with_reducible apply foldl_stable | with_reducible apply foldl_fst_stable | with_reducible apply overN_stable | extract_lets
    | with_reducible apply ite_stable | with_reducible apply ite_fst_stable | split
    | fail_if_no_progress (with_reducible apply Keep.other hK.toKeep) | (dsimp +zetaDelta only)
theorem State.putReport_stable {P : State → Prop} (hK : Stable P) (s : State) (p st : Nat) (rec : List Byte) (flags : Nat) (up : List Nat) (hsK : P s) :
    P (State.putReport s p st rec flags up) := by
  unfold State.putReport
  repeat' first
    | with_reducible assumption | (with_reducible refine fst_stable (by assumption) ?_) | with_reducible apply State.wr_stable hK.toKeep.toKeepCore
    | with_reducible apply State.bumpEv_stable hK.toKeep.toKeepCore | with_reducible apply State.bumpErr_stable hK.toKeep.toKeepCore
    | with_reducible apply State.irq_stable hK.toKeep.toKeepCore | with_reducible apply State.ringLoad_stable hK.toKeep.toKeepSys
    | with_reducible apply State.ringStore_stable hK | with_reducible apply State.modPanel_stable hK.toKeep.toKeepUnits
    | with_reducible apply State.ringRefused_stable hK.toKeep.toKeepCore | with_reducible apply State.tpRingHeader_stable hK.toKeep.toKeepSys
    | (intro _ _ _) | (intro _ _) | with_reducible apply foldl_stable | with_reducible apply foldl_fst_stable | with_reducible apply overN_stable
    | extract_lets | with_reducible apply ite_stable | with_reducible apply ite_fst_stable | split
    | fail_if_no_progress (with_reducible apply Keep.other hK.toKeep) | (dsimp +zetaDelta only)
theorem State.report_stable {P : State → Prop} (hK : Stable P) (s : State) (p start frame : Nat) (ovf : Bool) (cur up : List TEntry) (hsK : P s) :
    P (State.report s p start frame ovf cur up) := by
  unfold State.report
  repeat' first
    | with_reducible assumption | (with_reducible refine fst_stable (by assumption) ?_) | with_reducible apply State.wr_stable hK.toKeep.toKeepCore
    | with_reducible apply State.modPanel_stable hK.toKeep.toKeepUnits | with_reducible apply State.putReport_stable hK | (intro _ _ _) | (intro _ _)
    | with_reducible apply foldl_stable | with_reducible apply foldl_fst_stable | with_reducible apply overN_stable | extract_lets
    | with_reducible apply ite_stable | with_reducible apply ite_fst_stable | split
    | fail_if_no_progress (with_reducible apply Keep.other hK.toKeep) | (dsimp +zetaDelta only)
theorem State.scanEnd_stable {P : State → Prop} (hK : Stable P) (s : State) (p t : Nat) (sc : TScan) (hsK : P s) :
    P (State.scanEnd s p t sc) := by
  unfold State.scanEnd
  repeat' first
    | with_reducible assumption | (with_reducible refine fst_stable (by assumption) ?_) | with_reducible apply State.wr_stable hK.toKeep.toKeepCore
    | with_reducible apply State.bumpEv_stable hK.toKeep.toKeepCore | with_reducible apply State.bumpErr_stable hK.toKeep.toKeepCore
    | with_reducible apply State.bumpErrN_stable hK.toKeep.toKeepCore | with_reducible apply State.modPanel_stable hK.toKeep.toKeepUnits
    | with_reducible apply State.feEvt_stable hK.toKeep.toKeepCore | with_reducible apply State.setWindow_stable hK.toKeep.toKeepCore
    | with_reducible apply State.showFe_stable hK.toKeep.toKeepCore | with_reducible apply State.lineChecks_stable hK.toKeep.toKeepCore
    | with_reducible apply State.saveCheck_stable hK | with_reducible apply State.report_stable hK | (intro _ _ _) | (intro _ _)
    | with_reducible apply foldl_stable | with_reducible apply foldl_fst_stable | with_reducible apply overN_stable | extract_lets
    | with_reducible apply ite_stable | with_reducible apply ite_fst_stable | split
    | fail_if_no_progress (with_reducible apply Keep.other hK.toKeep) | (dsimp +zetaDelta only)
theorem execScanStepEnd_stable {P : State → Prop} (hK : Stable P) (fe : Fin 4) (samples : List (BitVec 16)) (t tNext : Nat) (s : State) (hsK : P s) :
    ∃ r_, execScanStepEnd fe samples t tNext s = .next r_ ∧ P r_ := by
  unfold execScanStepEnd
  refine ⟨_, rfl, ?_⟩
  repeat' first
    | with_reducible assumption | (with_reducible refine fst_stable (by assumption) ?_) | with_reducible apply State.wr_stable hK.toKeep.toKeepCore
    | with_reducible apply State.begin_stable hK.toKeep.toKeepCore | with_reducible apply State.guard_stable hK.toKeep.toKeepCore
    | with_reducible apply State.modPanel_stable hK.toKeep.toKeepUnits | with_reducible apply State.scanStart_stable hK.toKeep.toKeepUnits
    | with_reducible apply State.scanEnd_stable hK | (intro _ _ _) | (intro _ _) | with_reducible apply foldl_stable
    | with_reducible apply foldl_fst_stable | with_reducible apply overN_stable | extract_lets | with_reducible apply ite_stable
    | with_reducible apply ite_fst_stable | split | fail_if_no_progress (with_reducible apply Keep.other hK.toKeep) | (dsimp +zetaDelta only)

/-! ### Machine/Power.lean -/

theorem State.modPower_stable {P : State → Prop} (hK : KeepSys P) (s : State) (f : PowerSt → PowerSt) (hsK : P s) : P (State.modPower s f) := by
  unfold State.modPower
  repeat' first
    | with_reducible assumption | (with_reducible refine fst_stable (by assumption) ?_) | (intro _ _ _) | (intro _ _)
    | with_reducible apply foldl_stable | with_reducible apply foldl_fst_stable | with_reducible apply overN_stable | extract_lets
    | with_reducible apply ite_stable | with_reducible apply ite_fst_stable | split | fail_if_no_progress (with_reducible apply KeepSys.other hK)
    | (dsimp +zetaDelta only)
theorem State.keepPins_stable {P : State → Prop} (hK : KeepUnits P) (s old : State) (hsK : P s) : P (State.keepPins s old) := by
  unfold State.keepPins
  repeat' first
    | with_reducible assumption | (with_reducible refine fst_stable (by assumption) ?_) | with_reducible apply State.wr_stable hK.toKeepCore
    | with_reducible apply State.modPipe_stable hK | (intro _ _ _) | (intro _ _) | with_reducible apply foldl_stable
    | with_reducible apply foldl_fst_stable | with_reducible apply overN_stable | extract_lets | with_reducible apply ite_stable
    | with_reducible apply ite_fst_stable | split | fail_if_no_progress (with_reducible apply KeepUnits.other hK) | (dsimp +zetaDelta only)
theorem State.cutFlush_stable {P : State → Prop} (hK : Stable P) (s : State) (hsK : P s) : P (State.cutFlush s) := by
  unfold State.cutFlush
  repeat' first
    | with_reducible assumption | (with_reducible refine fst_stable (by assumption) ?_)
    | with_reducible apply State.useFreeN_stable hK.toKeep.toKeepCore | with_reducible apply State.envWrite_stable hK
    | with_reducible apply State.modNvm_stable hK.toKeep.toKeepSys | (intro _ _ _) | (intro _ _) | with_reducible apply foldl_stable
    | with_reducible apply foldl_fst_stable | with_reducible apply overN_stable | extract_lets | with_reducible apply ite_stable
    | with_reducible apply ite_fst_stable | split | fail_if_no_progress (with_reducible apply Keep.other hK.toKeep) | (dsimp +zetaDelta only)
theorem State.cutNvm_stable {P : State → Prop} (hK : Stable P) (s0 : State) (hsK : P s0) : P (State.cutNvm s0) := by
  unfold State.cutNvm
  repeat' first
    | with_reducible assumption | (with_reducible refine fst_stable (by assumption) ?_)
    | with_reducible apply State.useFreeN_stable hK.toKeep.toKeepCore | with_reducible apply State.envWrite_stable hK
    | with_reducible apply State.modNvm_stable hK.toKeep.toKeepSys | with_reducible apply State.programLine_stable hK
    | with_reducible apply State.cutFlush_stable hK | (intro _ _ _) | (intro _ _) | with_reducible apply foldl_stable
    | with_reducible apply foldl_fst_stable | with_reducible apply overN_stable | extract_lets | with_reducible apply ite_stable
    | with_reducible apply ite_fst_stable | split | fail_if_no_progress (with_reducible apply Keep.other hK.toKeep) | (dsimp +zetaDelta only)
theorem State.resetKeep_stable {P : State → Prop} (h : Stable P) (s : State) (sramLost dramLost : Bool) (hs : P s) :
    P (s.resetKeep sramLost dramLost) := by
  refine h.lost (s := s) rfl (.inr rfl) ?_ ?_ rfl hs
  · cases sramLost
    · exact .inl rfl
    · exact .inr rfl
  · cases dramLost
    · exact .inl rfl
    · exact .inr rfl
theorem State.afterReset_stable {P : State → Prop} (hK : Stable P) (s0 : State) (por sramLost dramLost : Bool) (hsK : P s0) :
    P (State.afterReset s0 por sramLost dramLost) := by
  unfold State.afterReset
  repeat' first
    | with_reducible assumption | (with_reducible refine fst_stable (by assumption) ?_) | with_reducible apply State.setRw_stable hK.toKeep.toKeepCore
    | with_reducible apply State.wr_stable hK.toKeep.toKeepCore | with_reducible apply State.syncDrive_stable hK.toKeep.toKeepCore
    | with_reducible apply State.modPower_stable hK.toKeep.toKeepSys | with_reducible apply State.keepPins_stable hK.toKeep.toKeepUnits
    | with_reducible apply State.cutNvm_stable hK | with_reducible apply State.resetKeep_stable hK | (intro _ _ _) | (intro _ _)
    | with_reducible apply foldl_stable | with_reducible apply foldl_fst_stable | with_reducible apply overN_stable | extract_lets
    | with_reducible apply ite_stable | with_reducible apply ite_fst_stable | split
    | fail_if_no_progress (with_reducible apply Keep.other hK.toKeep) | (dsimp +zetaDelta only)
theorem State.startDevice_stable {P : State → Prop} (hK : Stable P) (s0 : State) (hsK : P s0) : P (State.startDevice s0) := by
  unfold State.startDevice
  repeat' first
    | with_reducible assumption | (with_reducible refine fst_stable (by assumption) ?_) | with_reducible apply State.wr_stable hK.toKeep.toKeepCore
    | with_reducible apply State.kevt_stable hK.toKeep.toKeepCore | with_reducible apply State.modLed_stable hK.toKeep.toKeepUnits
    | with_reducible apply State.ledger_stable hK.toKeep.toKeepUnits | with_reducible apply State.bootStat_stable hK.toKeep.toKeepCore
    | with_reducible apply State.halt_stable hK.toKeep.toKeepSys | with_reducible apply State.modNvm_stable hK.toKeep.toKeepSys
    | with_reducible apply State.showNvm_stable hK.toKeep.toKeepCore | with_reducible apply State.eraseSector_stable hK
    | with_reducible apply State.restoreCounters_stable hK.toKeep.toKeepCore | with_reducible apply State.modBoot_stable hK.toKeep.toKeepSys
    | with_reducible apply State.mrExtend_stable hK.toKeep.toKeepSys | with_reducible apply State.modPower_stable hK.toKeep.toKeepSys | (intro _ _ _)
    | (intro _ _) | with_reducible apply foldl_stable | with_reducible apply foldl_fst_stable | with_reducible apply overN_stable | extract_lets
    | with_reducible apply ite_stable | with_reducible apply ite_fst_stable | split
    | fail_if_no_progress (with_reducible apply Keep.other hK.toKeep) | (dsimp +zetaDelta only)
theorem State.tryStart_stable {P : State → Prop} (hK : Stable P) (s : State) (hsK : P s) : P (State.tryStart s) := by
  unfold State.tryStart
  repeat' first
    | with_reducible assumption | (with_reducible refine fst_stable (by assumption) ?_) | with_reducible apply State.startDevice_stable hK
    | (intro _ _ _) | (intro _ _) | with_reducible apply foldl_stable | with_reducible apply foldl_fst_stable | with_reducible apply overN_stable
    | extract_lets | with_reducible apply ite_stable | with_reducible apply ite_fst_stable | split
    | fail_if_no_progress (with_reducible apply Keep.other hK.toKeep) | (dsimp +zetaDelta only)
theorem State.shed_stable {P : State → Prop} (hK : KeepCore P) (s : State) (hsK : P s) : P (State.shed s) := by
  unfold State.shed
  repeat' first
    | with_reducible assumption | (with_reducible refine fst_stable (by assumption) ?_) | with_reducible apply State.powerDown_stable hK
    | (intro _ _ _) | (intro _ _) | with_reducible apply foldl_stable | with_reducible apply foldl_fst_stable | with_reducible apply overN_stable
    | extract_lets | with_reducible apply ite_stable | with_reducible apply ite_fst_stable | split
    | fail_if_no_progress (with_reducible apply KeepCore.other hK) | (dsimp +zetaDelta only)
theorem State.dropSeal_stable {P : State → Prop} (hK : KeepUnits P) (s : State) (hsK : P s) : P (State.dropSeal s) := by
  unfold State.dropSeal
  repeat' first
    | with_reducible assumption | (with_reducible refine fst_stable (by assumption) ?_) | with_reducible apply State.modLed_stable hK
    | (intro _ _ _) | (intro _ _) | with_reducible apply foldl_stable | with_reducible apply foldl_fst_stable | with_reducible apply overN_stable
    | extract_lets | with_reducible apply ite_stable | with_reducible apply ite_fst_stable | split
    | fail_if_no_progress (with_reducible apply KeepUnits.other hK) | (dsimp +zetaDelta only)
theorem State.blankPipe_stable {P : State → Prop} (hK : KeepUnits P) (s : State) (p : Nat) (hsK : P s) : P (State.blankPipe s p) := by
  unfold State.blankPipe
  repeat' first
    | with_reducible assumption | (with_reducible refine fst_stable (by assumption) ?_) | with_reducible apply State.wr_stable hK.toKeepCore
    | with_reducible apply State.modPipe_stable hK | with_reducible apply State.showWb_stable hK.toKeepCore
    | with_reducible apply State.dropFetch_stable hK | (intro _ _ _) | (intro _ _) | with_reducible apply foldl_stable
    | with_reducible apply foldl_fst_stable | with_reducible apply overN_stable | extract_lets | with_reducible apply ite_stable
    | with_reducible apply ite_fst_stable | split | fail_if_no_progress (with_reducible apply KeepUnits.other hK) | (dsimp +zetaDelta only)
theorem State.enterSaving_stable {P : State → Prop} (hK : Stable P) (s0 : State) (uptime : Nat) (hsK : P s0) :
    P (State.enterSaving s0 uptime) := by
  unfold State.enterSaving
  repeat' first
    | with_reducible assumption | (with_reducible refine fst_stable (by assumption) ?_) | with_reducible apply State.wr_stable hK.toKeep.toKeepCore
    | with_reducible apply State.toDstate_stable hK.toKeep.toKeepCore | with_reducible apply State.dramKeep_stable hK
    | with_reducible apply State.tallyRequest_stable hK.toKeep.toKeepCore | with_reducible apply State.ledShow_stable hK.toKeep.toKeepCore
    | with_reducible apply State.ledFlush_stable hK | with_reducible apply State.hapIdle_stable hK.toKeep.toKeepUnits
    | with_reducible apply State.serveReads_stable hK.toKeep.toKeepSys | with_reducible apply State.nvmDone_stable hK
    | with_reducible apply State.flushEnd_stable hK | with_reducible apply State.dropRequests_stable hK.toKeep.toKeepSys
    | with_reducible apply State.finishBursts_stable hK | with_reducible apply State.modPower_stable hK.toKeep.toKeepSys
    | with_reducible apply State.dropSeal_stable hK.toKeep.toKeepUnits | with_reducible apply State.blankPipe_stable hK.toKeep.toKeepUnits | (intro _ _ _)
    | (intro _ _) | with_reducible apply foldl_stable | with_reducible apply foldl_fst_stable | with_reducible apply overN_stable | extract_lets
    | with_reducible apply ite_stable | with_reducible apply ite_fst_stable | split
    | fail_if_no_progress (with_reducible apply Keep.other hK.toKeep) | (dsimp +zetaDelta only)
theorem State.wrSupplyCfg_stable {P : State → Prop} (hK : KeepSys P) (s : State) (w : W64) (hsK : P s) : P (State.wrSupplyCfg s w) := by
  unfold State.wrSupplyCfg
  repeat' first
    | with_reducible assumption | (with_reducible refine fst_stable (by assumption) ?_) | with_reducible apply State.refuse_stable hK.toKeepCore
    | with_reducible apply State.settingWrite_stable hK.toKeepCore | with_reducible apply State.modPower_stable hK | (intro _ _ _) | (intro _ _)
    | with_reducible apply foldl_stable | with_reducible apply foldl_fst_stable | with_reducible apply overN_stable | extract_lets
    | with_reducible apply ite_stable | with_reducible apply ite_fst_stable | split | fail_if_no_progress (with_reducible apply KeepSys.other hK)
    | (dsimp +zetaDelta only)
theorem execVinSenseFall_stable {P : State → Prop} (hK : KeepSys P) (s : State) (hsK : P s) : ∃ r_, execVinSenseFall s = .next r_ ∧ P r_ := by
  unfold execVinSenseFall
  refine ⟨_, rfl, ?_⟩
  repeat' first
    | with_reducible assumption | (with_reducible refine fst_stable (by assumption) ?_) | with_reducible apply State.wr_stable hK.toKeepCore
    | with_reducible apply State.begin_stable hK.toKeepCore | with_reducible apply State.guard_stable hK.toKeepCore
    | with_reducible apply State.modPower_stable hK | (intro _ _ _) | (intro _ _) | with_reducible apply foldl_stable
    | with_reducible apply foldl_fst_stable | with_reducible apply overN_stable | extract_lets | with_reducible apply ite_stable
    | with_reducible apply ite_fst_stable | split | fail_if_no_progress (with_reducible apply KeepSys.other hK) | (dsimp +zetaDelta only)
theorem execVinSenseRise_stable {P : State → Prop} (hK : KeepSys P) (s : State) (hsK : P s) : ∃ r_, execVinSenseRise s = .next r_ ∧ P r_ := by
  unfold execVinSenseRise
  refine ⟨_, rfl, ?_⟩
  repeat' first
    | with_reducible assumption | (with_reducible refine fst_stable (by assumption) ?_) | with_reducible apply State.wr_stable hK.toKeepCore
    | with_reducible apply State.bumpEv_stable hK.toKeepCore | with_reducible apply State.begin_stable hK.toKeepCore
    | with_reducible apply State.guard_stable hK.toKeepCore | with_reducible apply State.modPower_stable hK | (intro _ _ _) | (intro _ _)
    | with_reducible apply foldl_stable | with_reducible apply foldl_fst_stable | with_reducible apply overN_stable | extract_lets
    | with_reducible apply ite_stable | with_reducible apply ite_fst_stable | split | fail_if_no_progress (with_reducible apply KeepSys.other hK)
    | (dsimp +zetaDelta only)
theorem execSupplyWarn_stable {P : State → Prop} (hK : Stable P) (uptime : Nat) (s : State) (hsK : P s) :
    ∃ r_, execSupplyWarn uptime s = .next r_ ∧ P r_ := by
  unfold execSupplyWarn
  refine ⟨_, rfl, ?_⟩
  repeat' first
    | with_reducible assumption | (with_reducible refine fst_stable (by assumption) ?_) | with_reducible apply State.wr_stable hK.toKeep.toKeepCore
    | with_reducible apply State.begin_stable hK.toKeep.toKeepCore | with_reducible apply State.guard_stable hK.toKeep.toKeepCore
    | with_reducible apply State.modPower_stable hK.toKeep.toKeepSys | with_reducible apply State.afterReset_stable hK
    | with_reducible apply State.enterSaving_stable hK | (intro _ _ _) | (intro _ _) | with_reducible apply foldl_stable
    | with_reducible apply foldl_fst_stable | with_reducible apply overN_stable | extract_lets | with_reducible apply ite_stable
    | with_reducible apply ite_fst_stable | split | fail_if_no_progress (with_reducible apply Keep.other hK.toKeep) | (dsimp +zetaDelta only)
theorem execSupplyWarnClear_stable {P : State → Prop} (hK : Stable P) (s : State) (hsK : P s) :
    ∃ r_, execSupplyWarnClear s = .next r_ ∧ P r_ := by
  unfold execSupplyWarnClear
  refine ⟨_, rfl, ?_⟩
  repeat' first
    | with_reducible assumption | (with_reducible refine fst_stable (by assumption) ?_) | with_reducible apply State.wr_stable hK.toKeep.toKeepCore
    | with_reducible apply State.begin_stable hK.toKeep.toKeepCore | with_reducible apply State.guard_stable hK.toKeep.toKeepCore
    | with_reducible apply State.modPower_stable hK.toKeep.toKeepSys | with_reducible apply State.afterReset_stable hK
    | with_reducible apply State.tryStart_stable hK | (intro _ _ _) | (intro _ _) | with_reducible apply foldl_stable
    | with_reducible apply foldl_fst_stable | with_reducible apply overN_stable | extract_lets | with_reducible apply ite_stable
    | with_reducible apply ite_fst_stable | split | fail_if_no_progress (with_reducible apply Keep.other hK.toKeep) | (dsimp +zetaDelta only)
theorem State.saveEnded_stable {P : State → Prop} (hK : KeepCore P) (s : State) (outcome us : Nat) (hsK : P s) :
    P (State.saveEnded s outcome us) := by
  unfold State.saveEnded
  repeat' first
    | with_reducible assumption | (with_reducible refine fst_stable (by assumption) ?_) | with_reducible apply State.wr_stable hK | (intro _ _ _)
    | (intro _ _) | with_reducible apply foldl_stable | with_reducible apply foldl_fst_stable | with_reducible apply overN_stable | extract_lets
    | with_reducible apply ite_stable | with_reducible apply ite_fst_stable | split | fail_if_no_progress (with_reducible apply KeepCore.other hK)
    | (dsimp +zetaDelta only)
theorem State.doSave_stable {P : State → Prop} (hK : Stable P) (s : State) (r : SaveRun) (us fail line : Nat) (hsK : P s) :
    P (State.doSave s r us fail line) := by
  unfold State.doSave
  repeat' first
    | with_reducible assumption | (with_reducible refine fst_stable (by assumption) ?_)
    | with_reducible apply State.bumpEv_stable hK.toKeep.toKeepCore | with_reducible apply State.bumpErr_stable hK.toKeep.toKeepCore
    | with_reducible apply State.saveTouch_stable hK.toKeep.toKeepSys | with_reducible apply State.saveLosses_stable hK.toKeep.toKeepCore
    | with_reducible apply State.programSave_stable hK | with_reducible apply State.spoilLine_stable hK
    | with_reducible apply State.saveEnded_stable hK.toKeep.toKeepCore | (intro _ _ _) | (intro _ _) | with_reducible apply foldl_stable
    | with_reducible apply foldl_fst_stable | with_reducible apply overN_stable | extract_lets | with_reducible apply ite_stable
    | with_reducible apply ite_fst_stable | split | fail_if_no_progress (with_reducible apply Keep.other hK.toKeep) | (dsimp +zetaDelta only)
theorem execSaveComplete_stable {P : State → Prop} (hK : Stable P) (us : Nat) (fail : Fin 3) (line : Fin 131) (s : State) (hsK : P s) :
    ∃ r_, execSaveComplete us fail line s = .next r_ ∧ P r_ := by
  unfold execSaveComplete
  refine ⟨_, rfl, ?_⟩
  repeat' first
    | with_reducible assumption | (with_reducible refine fst_stable (by assumption) ?_) | with_reducible apply State.wr_stable hK.toKeep.toKeepCore
    | with_reducible apply State.begin_stable hK.toKeep.toKeepCore | with_reducible apply State.toDstate_stable hK.toKeep.toKeepCore
    | with_reducible apply State.sramKeep_stable hK | with_reducible apply State.tallyDone_stable hK.toKeep.toKeepCore
    | with_reducible apply State.tallyLaunch_stable hK.toKeep.toKeepSys | with_reducible apply State.powerDown_stable hK.toKeep.toKeepCore
    | with_reducible apply State.modPower_stable hK.toKeep.toKeepSys | with_reducible apply State.afterReset_stable hK
    | with_reducible apply State.tryStart_stable hK | with_reducible apply State.shed_stable hK.toKeep.toKeepCore
    | with_reducible apply State.doSave_stable hK | (intro _ _ _) | (intro _ _) | with_reducible apply foldl_stable
    | with_reducible apply foldl_fst_stable | with_reducible apply overN_stable | extract_lets | with_reducible apply ite_stable
    | with_reducible apply ite_fst_stable | split | fail_if_no_progress (with_reducible apply Keep.other hK.toKeep) | (dsimp +zetaDelta only)
theorem execTallyLaunch_stable {P : State → Prop} (hK : KeepSys P) (t : Nat) (s : State) (hsK : P s) :
    ∃ r_, execTallyLaunch t s = .next r_ ∧ P r_ := by
  unfold execTallyLaunch
  refine ⟨_, rfl, ?_⟩
  repeat' first
    | with_reducible assumption | (with_reducible refine fst_stable (by assumption) ?_) | with_reducible apply State.begin_stable hK.toKeepCore
    | with_reducible apply State.tallyLaunch_stable hK | with_reducible apply State.shed_stable hK.toKeepCore | (intro _ _ _) | (intro _ _)
    | with_reducible apply foldl_stable | with_reducible apply foldl_fst_stable | with_reducible apply overN_stable | extract_lets
    | with_reducible apply ite_stable | with_reducible apply ite_fst_stable | split | fail_if_no_progress (with_reducible apply KeepSys.other hK)
    | (dsimp +zetaDelta only)
theorem State.cutSave_stable {P : State → Prop} (hK : Stable P) (s : State) (lines : Nat) (hsK : P s) : P (State.cutSave s lines) := by
  unfold State.cutSave
  repeat' first
    | with_reducible assumption | (with_reducible refine fst_stable (by assumption) ?_) | with_reducible apply State.programSave_stable hK
    | (intro _ _ _) | (intro _ _) | with_reducible apply foldl_stable | with_reducible apply foldl_fst_stable | with_reducible apply overN_stable
    | extract_lets | with_reducible apply ite_stable | with_reducible apply ite_fst_stable | split
    | fail_if_no_progress (with_reducible apply Keep.other hK.toKeep) | (dsimp +zetaDelta only)
theorem execNresetLow_stable {P : State → Prop} (hK : Stable P) (lines us : Nat) (s : State) (hsK : P s) :
    ∃ r_, execNresetLow lines us s = .next r_ ∧ P r_ := by
  unfold execNresetLow
  refine ⟨_, rfl, ?_⟩
  repeat' first
    | with_reducible assumption | (with_reducible refine fst_stable (by assumption) ?_) | with_reducible apply State.wr_stable hK.toKeep.toKeepCore
    | with_reducible apply State.begin_stable hK.toKeep.toKeepCore | with_reducible apply State.guard_stable hK.toKeep.toKeepCore
    | with_reducible apply State.modPower_stable hK.toKeep.toKeepSys | with_reducible apply State.afterReset_stable hK
    | with_reducible apply State.saveEnded_stable hK.toKeep.toKeepCore | with_reducible apply State.cutSave_stable hK | (intro _ _ _) | (intro _ _)
    | with_reducible apply foldl_stable | with_reducible apply foldl_fst_stable | with_reducible apply overN_stable | extract_lets
    | with_reducible apply ite_stable | with_reducible apply ite_fst_stable | split
    | fail_if_no_progress (with_reducible apply Keep.other hK.toKeep) | (dsimp +zetaDelta only)
theorem execNresetRelease_stable {P : State → Prop} (hK : Stable P) (bootsel : Fin 4) (s : State) (hsK : P s) :
    ∃ r_, execNresetRelease bootsel s = .next r_ ∧ P r_ := by
  unfold execNresetRelease
  refine ⟨_, rfl, ?_⟩
  repeat' first
    | with_reducible assumption | (with_reducible refine fst_stable (by assumption) ?_) | with_reducible apply State.begin_stable hK.toKeep.toKeepCore
    | with_reducible apply State.guard_stable hK.toKeep.toKeepCore | with_reducible apply State.modPower_stable hK.toKeep.toKeepSys
    | with_reducible apply State.tryStart_stable hK | (intro _ _ _) | (intro _ _) | with_reducible apply foldl_stable
    | with_reducible apply foldl_fst_stable | with_reducible apply overN_stable | extract_lets | with_reducible apply ite_stable
    | with_reducible apply ite_fst_stable | split | fail_if_no_progress (with_reducible apply Keep.other hK.toKeep) | (dsimp +zetaDelta only)
theorem execPorAssert_stable {P : State → Prop} (hK : Stable P) (lines : Nat) (s : State) (hsK : P s) :
    ∃ r_, execPorAssert lines s = .next r_ ∧ P r_ := by
  unfold execPorAssert
  refine ⟨_, rfl, ?_⟩
  repeat' first
    | with_reducible assumption | (with_reducible refine fst_stable (by assumption) ?_) | with_reducible apply State.wr_stable hK.toKeep.toKeepCore
    | with_reducible apply State.begin_stable hK.toKeep.toKeepCore | with_reducible apply State.guard_stable hK.toKeep.toKeepCore
    | with_reducible apply State.modPower_stable hK.toKeep.toKeepSys | with_reducible apply State.afterReset_stable hK
    | with_reducible apply State.cutSave_stable hK | (intro _ _ _) | (intro _ _) | with_reducible apply foldl_stable
    | with_reducible apply foldl_fst_stable | with_reducible apply overN_stable | extract_lets | with_reducible apply ite_stable
    | with_reducible apply ite_fst_stable | split | fail_if_no_progress (with_reducible apply Keep.other hK.toKeep) | (dsimp +zetaDelta only)
theorem execPorRelease_stable {P : State → Prop} (hK : Stable P) (bootsel : Fin 4) (s : State) (hsK : P s) :
    ∃ r_, execPorRelease bootsel s = .next r_ ∧ P r_ := by
  unfold execPorRelease
  refine ⟨_, rfl, ?_⟩
  repeat' first
    | with_reducible assumption | (with_reducible refine fst_stable (by assumption) ?_) | with_reducible apply State.wr_stable hK.toKeep.toKeepCore
    | with_reducible apply State.begin_stable hK.toKeep.toKeepCore | with_reducible apply State.guard_stable hK.toKeep.toKeepCore
    | with_reducible apply State.modPower_stable hK.toKeep.toKeepSys | with_reducible apply State.tryStart_stable hK | (intro _ _ _) | (intro _ _)
    | with_reducible apply foldl_stable | with_reducible apply foldl_fst_stable | with_reducible apply overN_stable | extract_lets
    | with_reducible apply ite_stable | with_reducible apply ite_fst_stable | split
    | fail_if_no_progress (with_reducible apply Keep.other hK.toKeep) | (dsimp +zetaDelta only)
theorem execResetOutRelease_stable {P : State → Prop} (hK : KeepSys P) (s : State) (hsK : P s) : ∃ r_, execResetOutRelease s = .next r_ ∧ P r_ := by
  unfold execResetOutRelease
  refine ⟨_, rfl, ?_⟩
  repeat' first
    | with_reducible assumption | (with_reducible refine fst_stable (by assumption) ?_) | with_reducible apply State.begin_stable hK.toKeepCore
    | with_reducible apply State.guard_stable hK.toKeepCore | with_reducible apply State.modPower_stable hK | (intro _ _ _) | (intro _ _)
    | with_reducible apply foldl_stable | with_reducible apply foldl_fst_stable | with_reducible apply overN_stable | extract_lets
    | with_reducible apply ite_stable | with_reducible apply ite_fst_stable | split | fail_if_no_progress (with_reducible apply KeepSys.other hK)
    | (dsimp +zetaDelta only)
theorem State.railsAsk_stable {P : State → Prop} (hK : KeepSys P) (s : State) (hsK : P s) : P (State.railsAsk s) := by
  unfold State.railsAsk
  repeat' first
    | with_reducible assumption | (with_reducible refine fst_stable (by assumption) ?_) | with_reducible apply State.railAsk_stable hK
    | with_reducible apply State.pipeVolt_stable hK | (intro _ _ _) | (intro _ _) | with_reducible apply foldl_stable
    | with_reducible apply foldl_fst_stable | with_reducible apply overN_stable | extract_lets | with_reducible apply ite_stable
    | with_reducible apply ite_fst_stable | split | fail_if_no_progress (with_reducible apply KeepSys.other hK) | (dsimp +zetaDelta only)
theorem State.railSettled_stable {P : State → Prop} (hK : KeepSys P) (s : State) (r : Nat) (hsK : P s) : P (State.railSettled s r) := by
  unfold State.railSettled
  repeat' first
    | with_reducible assumption | (with_reducible refine fst_stable (by assumption) ?_) | with_reducible apply State.wr_stable hK.toKeepCore
    | with_reducible apply State.modRail_stable hK | with_reducible apply State.busKick_stable hK
    | with_reducible apply State.setIslandStep_stable hK.toKeepCore | (intro _ _ _) | (intro _ _) | with_reducible apply foldl_stable
    | with_reducible apply foldl_fst_stable | with_reducible apply overN_stable | extract_lets | with_reducible apply ite_stable
    | with_reducible apply ite_fst_stable | split | fail_if_no_progress (with_reducible apply KeepSys.other hK) | (dsimp +zetaDelta only)
theorem State.railFail_stable {P : State → Prop} (hK : KeepSys P) (s : State) (r : Nat) (hsK : P s) : P (State.railFail s r) := by
  unfold State.railFail
  repeat' first
    | with_reducible assumption | (with_reducible refine fst_stable (by assumption) ?_) | with_reducible apply State.wr_stable hK.toKeepCore
    | with_reducible apply State.bumpErr_stable hK.toKeepCore | with_reducible apply State.kevt_stable hK.toKeepCore
    | with_reducible apply State.modRail_stable hK | with_reducible apply State.busKick_stable hK
    | with_reducible apply State.setIslandStep_stable hK.toKeepCore | (intro _ _ _) | (intro _ _) | with_reducible apply foldl_stable
    | with_reducible apply foldl_fst_stable | with_reducible apply overN_stable | extract_lets | with_reducible apply ite_stable
    | with_reducible apply ite_fst_stable | split | fail_if_no_progress (with_reducible apply KeepSys.other hK) | (dsimp +zetaDelta only)
theorem State.railAgain_stable {P : State → Prop} (hK : KeepSys P) (s : State) (r : Nat) (hsK : P s) : P (State.railAgain s r) := by
  unfold State.railAgain
  repeat' first
    | with_reducible assumption | (with_reducible refine fst_stable (by assumption) ?_) | with_reducible apply State.write_stable hK.toKeepCore
    | with_reducible apply State.modRail_stable hK | with_reducible apply State.busKick_stable hK | with_reducible apply State.railFail_stable hK
    | (intro _ _ _) | (intro _ _) | with_reducible apply foldl_stable | with_reducible apply foldl_fst_stable | with_reducible apply overN_stable
    | extract_lets | with_reducible apply ite_stable | with_reducible apply ite_fst_stable | split
    | fail_if_no_progress (with_reducible apply KeepSys.other hK) | (dsimp +zetaDelta only)
theorem State.wrRegCfg_stable {P : State → Prop} (hK : KeepSys P) (s : State) (w : W64) (hsK : P s) : P (State.wrRegCfg s w) := by
  unfold State.wrRegCfg
  repeat' first
    | with_reducible assumption | (with_reducible refine fst_stable (by assumption) ?_) | with_reducible apply State.wr_stable hK.toKeepCore
    | with_reducible apply State.refuse_stable hK.toKeepCore | with_reducible apply State.write_stable hK.toKeepCore
    | with_reducible apply State.settingWrite_stable hK.toKeepCore | with_reducible apply State.modRail_stable hK
    | with_reducible apply State.busKick_stable hK | with_reducible apply State.settle_stable hK.toKeepUnits
    | with_reducible apply State.modPower_stable hK | with_reducible apply State.railsAsk_stable hK | (intro _ _ _) | (intro _ _)
    | with_reducible apply foldl_stable | with_reducible apply foldl_fst_stable | with_reducible apply overN_stable | extract_lets
    | with_reducible apply ite_stable | with_reducible apply ite_fst_stable | split | fail_if_no_progress (with_reducible apply KeepSys.other hK)
    | (dsimp +zetaDelta only)
theorem execRegCfgWrite_stable {P : State → Prop} (hK : KeepSys P) (who : Who) (w : W32) (s : State) (hsK : P s) :
    ∃ r_, execRegCfgWrite who w s = .next r_ ∧ P r_ := by
  unfold execRegCfgWrite
  refine ⟨_, rfl, ?_⟩
  repeat' first
    | with_reducible assumption | (with_reducible refine fst_stable (by assumption) ?_) | with_reducible apply State.begin_stable hK.toKeepCore
    | with_reducible apply State.write_stable hK.toKeepCore | with_reducible apply State.wrRegCfg_stable hK | (intro _ _ _) | (intro _ _)
    | with_reducible apply foldl_stable | with_reducible apply foldl_fst_stable | with_reducible apply overN_stable | extract_lets
    | with_reducible apply ite_stable | with_reducible apply ite_fst_stable | split | fail_if_no_progress (with_reducible apply KeepSys.other hK)
    | (dsimp +zetaDelta only)
theorem execRegulatorTransactionDone_stable {P : State → Prop} (hK : KeepSys P) (ok : Bool) (data : BitVec 8) (s : State) (hsK : P s) :
    ∃ r_, execRegulatorTransactionDone ok data s = .next r_ ∧ P r_ := by
  unfold execRegulatorTransactionDone
  refine ⟨_, rfl, ?_⟩
  repeat' first
    | with_reducible assumption | (with_reducible refine fst_stable (by assumption) ?_) | with_reducible apply State.wr_stable hK.toKeepCore
    | with_reducible apply State.begin_stable hK.toKeepCore | with_reducible apply State.modRail_stable hK | with_reducible apply State.busKick_stable hK
    | with_reducible apply State.settle_stable hK.toKeepUnits | with_reducible apply State.modPower_stable hK
    | with_reducible apply State.railSettled_stable hK | with_reducible apply State.railAgain_stable hK | (intro _ _ _) | (intro _ _)
    | with_reducible apply foldl_stable | with_reducible apply foldl_fst_stable | with_reducible apply overN_stable | extract_lets
    | with_reducible apply ite_stable | with_reducible apply ite_fst_stable | split | fail_if_no_progress (with_reducible apply KeepSys.other hK)
    | (dsimp +zetaDelta only)
theorem execRailSettled_stable {P : State → Prop} (hK : KeepSys P) (r : Fin 3) (s : State) (hsK : P s) :
    ∃ r_, execRailSettled r s = .next r_ ∧ P r_ := by
  unfold execRailSettled
  refine ⟨_, rfl, ?_⟩
  repeat' first
    | with_reducible assumption | (with_reducible refine fst_stable (by assumption) ?_) | with_reducible apply State.begin_stable hK.toKeepCore
    | with_reducible apply State.guard_stable hK.toKeepCore | with_reducible apply State.settle_stable hK.toKeepUnits
    | with_reducible apply State.railSettled_stable hK | (intro _ _ _) | (intro _ _) | with_reducible apply foldl_stable
    | with_reducible apply foldl_fst_stable | with_reducible apply overN_stable | extract_lets | with_reducible apply ite_stable
    | with_reducible apply ite_fst_stable | split | fail_if_no_progress (with_reducible apply KeepSys.other hK) | (dsimp +zetaDelta only)
theorem State.setPg_stable {P : State → Prop} (hK : KeepCore P) (s : State) (r : Nat) (b : Bool) (hsK : P s) : P (State.setPg s r b) := by
  unfold State.setPg
  repeat' first
    | with_reducible assumption | (with_reducible refine fst_stable (by assumption) ?_) | with_reducible apply State.wr_stable hK | (intro _ _ _)
    | (intro _ _) | with_reducible apply foldl_stable | with_reducible apply foldl_fst_stable | with_reducible apply overN_stable | extract_lets
    | with_reducible apply ite_stable | with_reducible apply ite_fst_stable | split | fail_if_no_progress (with_reducible apply KeepCore.other hK)
    | (dsimp +zetaDelta only)
theorem execPgRise_stable {P : State → Prop} (hK : KeepSys P) (r : Fin 3) (s : State) (hsK : P s) : ∃ r_, execPgRise r s = .next r_ ∧ P r_ := by
  unfold execPgRise
  refine ⟨_, rfl, ?_⟩
  repeat' first
    | with_reducible assumption | (with_reducible refine fst_stable (by assumption) ?_) | with_reducible apply State.begin_stable hK.toKeepCore
    | with_reducible apply State.settle_stable hK.toKeepUnits | with_reducible apply State.railSettled_stable hK
    | with_reducible apply State.setPg_stable hK.toKeepCore | (intro _ _ _) | (intro _ _) | with_reducible apply foldl_stable
    | with_reducible apply foldl_fst_stable | with_reducible apply overN_stable | extract_lets | with_reducible apply ite_stable
    | with_reducible apply ite_fst_stable | split | fail_if_no_progress (with_reducible apply KeepSys.other hK) | (dsimp +zetaDelta only)
theorem execPgDrop_stable {P : State → Prop} (hK : KeepCore P) (r : Fin 3) (s : State) (hsK : P s) : ∃ r_, execPgDrop r s = .next r_ ∧ P r_ := by
  unfold execPgDrop
  refine ⟨_, rfl, ?_⟩
  repeat' first
    | with_reducible assumption | (with_reducible refine fst_stable (by assumption) ?_) | with_reducible apply State.bumpErr_stable hK
    | with_reducible apply State.begin_stable hK | with_reducible apply State.kevt_stable hK | with_reducible apply State.guard_stable hK
    | with_reducible apply State.setPg_stable hK | (intro _ _ _) | (intro _ _) | with_reducible apply foldl_stable
    | with_reducible apply foldl_fst_stable | with_reducible apply overN_stable | extract_lets | with_reducible apply ite_stable
    | with_reducible apply ite_fst_stable | split | fail_if_no_progress (with_reducible apply KeepCore.other hK) | (dsimp +zetaDelta only)
theorem execPgRaiseTimeout_stable {P : State → Prop} (hK : KeepSys P) (r : Fin 3) (s : State) (hsK : P s) :
    ∃ r_, execPgRaiseTimeout r s = .next r_ ∧ P r_ := by
  unfold execPgRaiseTimeout
  refine ⟨_, rfl, ?_⟩
  repeat' first
    | with_reducible assumption | (with_reducible refine fst_stable (by assumption) ?_) | with_reducible apply State.begin_stable hK.toKeepCore
    | with_reducible apply State.guard_stable hK.toKeepCore | with_reducible apply State.settle_stable hK.toKeepUnits
    | with_reducible apply State.railAgain_stable hK | (intro _ _ _) | (intro _ _) | with_reducible apply foldl_stable
    | with_reducible apply foldl_fst_stable | with_reducible apply overN_stable | extract_lets | with_reducible apply ite_stable
    | with_reducible apply ite_fst_stable | split | fail_if_no_progress (with_reducible apply KeepSys.other hK) | (dsimp +zetaDelta only)
theorem State.islandReset_stable {P : State → Prop} (hK : Keep P) (s : State) (n : Nat) (hsK : P s) : P (State.islandReset s n) := by
  unfold State.islandReset
  repeat' first
    | with_reducible assumption | (with_reducible refine fst_stable (by assumption) ?_) | with_reducible apply State.modSub_stable hK.toKeepSys
    | with_reducible apply State.modPipe_stable hK.toKeepUnits | with_reducible apply State.modPanel_stable hK.toKeepUnits
    | with_reducible apply State.modBoot_stable hK.toKeepSys | (intro _ _ _) | (intro _ _) | with_reducible apply foldl_stable
    | with_reducible apply foldl_fst_stable | with_reducible apply overN_stable | extract_lets | with_reducible apply ite_stable
    | with_reducible apply ite_fst_stable | split | fail_if_no_progress (with_reducible apply Keep.other hK) | (dsimp +zetaDelta only)
theorem State.islandPins_stable {P : State → Prop} (hK : KeepCore P) (s : State) (n : Nat) (hsK : P s) : P (State.islandPins s n) := by
  unfold State.islandPins
  repeat' first
    | with_reducible assumption | (with_reducible refine fst_stable (by assumption) ?_) | with_reducible apply State.wr_stable hK | (intro _ _ _)
    | (intro _ _) | with_reducible apply foldl_stable | with_reducible apply foldl_fst_stable | with_reducible apply overN_stable | extract_lets
    | with_reducible apply ite_stable | with_reducible apply ite_fst_stable | split | fail_if_no_progress (with_reducible apply KeepCore.other hK)
    | (dsimp +zetaDelta only)
theorem State.wrIslCtrl_stable {P : State → Prop} (hK : Keep P) (s : State) (n : Nat) (w : W64) (hsK : P s) : P (State.wrIslCtrl s n w) := by
  unfold State.wrIslCtrl
  repeat' first
    | with_reducible assumption | (with_reducible refine fst_stable (by assumption) ?_) | with_reducible apply State.wr_stable hK.toKeepCore
    | with_reducible apply State.refuse_stable hK.toKeepCore | with_reducible apply State.powerDown_stable hK.toKeepCore
    | with_reducible apply State.railsAsk_stable hK.toKeepSys | with_reducible apply State.islandReset_stable hK | (intro _ _ _) | (intro _ _)
    | with_reducible apply foldl_stable | with_reducible apply foldl_fst_stable | with_reducible apply overN_stable | extract_lets
    | with_reducible apply ite_stable | with_reducible apply ite_fst_stable | split | fail_if_no_progress (with_reducible apply Keep.other hK)
    | (dsimp +zetaDelta only)
theorem execIslandOff_stable {P : State → Prop} (hK : Keep P) (who : Who) (n : Fin 31) (s : State) (hsK : P s) :
    ∃ r_, execIslandOff who n s = .next r_ ∧ P r_ := by
  unfold execIslandOff
  refine ⟨_, rfl, ?_⟩
  repeat' first
    | with_reducible assumption | (with_reducible refine fst_stable (by assumption) ?_) | with_reducible apply State.begin_stable hK.toKeepCore
    | with_reducible apply State.write_stable hK.toKeepCore | with_reducible apply State.wrIslCtrl_stable hK | (intro _ _ _) | (intro _ _)
    | with_reducible apply foldl_stable | with_reducible apply foldl_fst_stable | with_reducible apply overN_stable | extract_lets
    | with_reducible apply ite_stable | with_reducible apply ite_fst_stable | split | fail_if_no_progress (with_reducible apply Keep.other hK)
    | (dsimp +zetaDelta only)
theorem execIslandOn_stable {P : State → Prop} (hK : Keep P) (who : Who) (n : Fin 31) (s : State) (hsK : P s) :
    ∃ r_, execIslandOn who n s = .next r_ ∧ P r_ := by
  unfold execIslandOn
  refine ⟨_, rfl, ?_⟩
  repeat' first
    | with_reducible assumption | (with_reducible refine fst_stable (by assumption) ?_) | with_reducible apply State.begin_stable hK.toKeepCore
    | with_reducible apply State.write_stable hK.toKeepCore | with_reducible apply State.wrIslCtrl_stable hK | (intro _ _ _) | (intro _ _)
    | with_reducible apply foldl_stable | with_reducible apply foldl_fst_stable | with_reducible apply overN_stable | extract_lets
    | with_reducible apply ite_stable | with_reducible apply ite_fst_stable | split | fail_if_no_progress (with_reducible apply Keep.other hK)
    | (dsimp +zetaDelta only)
theorem execIslandPoweredOn_stable {P : State → Prop} (hK : KeepSys P) (n : Fin 31) (s : State) (hsK : P s) :
    ∃ r_, execIslandPoweredOn n s = .next r_ ∧ P r_ := by
  unfold execIslandPoweredOn
  refine ⟨_, rfl, ?_⟩
  repeat' first
    | with_reducible assumption | (with_reducible refine fst_stable (by assumption) ?_) | with_reducible apply State.wr_stable hK.toKeepCore
    | with_reducible apply State.begin_stable hK.toKeepCore | with_reducible apply State.guard_stable hK.toKeepCore
    | with_reducible apply State.railsAsk_stable hK | with_reducible apply State.islandPins_stable hK.toKeepCore | (intro _ _ _) | (intro _ _)
    | with_reducible apply foldl_stable | with_reducible apply foldl_fst_stable | with_reducible apply overN_stable | extract_lets
    | with_reducible apply ite_stable | with_reducible apply ite_fst_stable | split | fail_if_no_progress (with_reducible apply KeepSys.other hK)
    | (dsimp +zetaDelta only)
theorem State.wrGpio_stable {P : State → Prop} (hK : KeepCore P) (s : State) (who : Who) (a : Nat) (w : W64) (mask : Nat) (bad : Bool) (hsK : P s) :
    P (State.wrGpio s who a w mask bad) := by
  unfold State.wrGpio
  repeat' first
    | with_reducible assumption | (with_reducible refine fst_stable (by assumption) ?_) | with_reducible apply State.setRw_stable hK
    | with_reducible apply State.refuse_stable hK | (intro _ _ _) | (intro _ _) | with_reducible apply foldl_stable
    | with_reducible apply foldl_fst_stable | with_reducible apply overN_stable | extract_lets | with_reducible apply ite_stable
    | with_reducible apply ite_fst_stable | split | fail_if_no_progress (with_reducible apply KeepCore.other hK) | (dsimp +zetaDelta only)
theorem State.wrIoCfg_stable {P : State → Prop} (hK : KeepCore P) (s : State) (w : W64) (hsK : P s) : P (State.wrIoCfg s w) := by
  unfold State.wrIoCfg
  repeat' first
    | with_reducible assumption | (with_reducible refine fst_stable (by assumption) ?_) | with_reducible apply State.settingWrite_stable hK
    | (intro _ _ _) | (intro _ _) | with_reducible apply foldl_stable | with_reducible apply foldl_fst_stable | with_reducible apply overN_stable
    | extract_lets | with_reducible apply ite_stable | with_reducible apply ite_fst_stable | split
    | fail_if_no_progress (with_reducible apply KeepCore.other hK) | (dsimp +zetaDelta only)

/-! ### Machine/RegWrite.lean -/

theorem State.wrWorldMap_stable {P : State → Prop} (hK : KeepCore P) (s : State) (a : Nat) (w : W64) (hsK : P s) : P (State.wrWorldMap s a w) := by
  unfold State.wrWorldMap
  repeat' first
    | with_reducible assumption | (with_reducible refine fst_stable (by assumption) ?_) | with_reducible apply State.showIrq_stable hK
    | with_reducible apply State.settingWrite_stable hK | (intro _ _ _) | (intro _ _) | with_reducible apply foldl_stable
    | with_reducible apply foldl_fst_stable | with_reducible apply overN_stable | extract_lets | with_reducible apply ite_stable
    | with_reducible apply ite_fst_stable | split | fail_if_no_progress (with_reducible apply KeepCore.other hK) | (dsimp +zetaDelta only)
theorem State.wrGrant_stable {P : State → Prop} (hK : KeepCore P) (s : State) (st k : Nat) (w : W64) (hsK : P s) : P (State.wrGrant s st k w) := by
  unfold State.wrGrant
  repeat' first
    | with_reducible assumption | (with_reducible refine fst_stable (by assumption) ?_) | with_reducible apply State.refuse_stable hK
    | with_reducible apply State.settingWrite_stable hK | (intro _ _ _) | (intro _ _) | with_reducible apply foldl_stable
    | with_reducible apply foldl_fst_stable | with_reducible apply overN_stable | extract_lets | with_reducible apply ite_stable
    | with_reducible apply ite_fst_stable | split | fail_if_no_progress (with_reducible apply KeepCore.other hK) | (dsimp +zetaDelta only)
theorem State.wrShare_stable {P : State → Prop} (hK : KeepCore P) (s : State) (st : Nat) (w : W64) (hsK : P s) : P (State.wrShare s st w) := by
  unfold State.wrShare
  repeat' first
    | with_reducible assumption | (with_reducible refine fst_stable (by assumption) ?_) | with_reducible apply State.refuse_stable hK
    | with_reducible apply State.settingWrite_stable hK | (intro _ _ _) | (intro _ _) | with_reducible apply foldl_stable
    | with_reducible apply foldl_fst_stable | with_reducible apply overN_stable | extract_lets | with_reducible apply ite_stable
    | with_reducible apply ite_fst_stable | split | fail_if_no_progress (with_reducible apply KeepCore.other hK) | (dsimp +zetaDelta only)
theorem State.wrIvec_stable {P : State → Prop} (hK : KeepCore P) (s : State) (st i : Nat) (w : W64) (hsK : P s) : P (State.wrIvec s st i w) := by
  unfold State.wrIvec
  repeat' first
    | with_reducible assumption | (with_reducible refine fst_stable (by assumption) ?_) | with_reducible apply State.setRw_stable hK
    | with_reducible apply State.refuse_stable hK | (intro _ _ _) | (intro _ _) | with_reducible apply foldl_stable
    | with_reducible apply foldl_fst_stable | with_reducible apply overN_stable | extract_lets | with_reducible apply ite_stable
    | with_reducible apply ite_fst_stable | split | fail_if_no_progress (with_reducible apply KeepCore.other hK) | (dsimp +zetaDelta only)
theorem State.flushVec_stable {P : State → Prop} (hK : KeepCore P) (s : State) (st v : Nat) (hsK : P s) : P (State.flushVec s st v) := by
  unfold State.flushVec
  repeat' first
    | with_reducible assumption | (with_reducible refine fst_stable (by assumption) ?_) | with_reducible apply State.setRw_stable hK
    | with_reducible apply State.emit_stable hK | (intro _ _ _) | (intro _ _) | with_reducible apply foldl_stable
    | with_reducible apply foldl_fst_stable | with_reducible apply overN_stable | extract_lets | with_reducible apply ite_stable
    | with_reducible apply ite_fst_stable | split | fail_if_no_progress (with_reducible apply KeepCore.other hK) | (dsimp +zetaDelta only)
theorem State.wrMsix_stable {P : State → Prop} (hK : KeepCore P) (s : State) (st i : Nat) (w : W64) (hsK : P s) : P (State.wrMsix s st i w) := by
  unfold State.wrMsix
  repeat' first
    | with_reducible assumption | (with_reducible refine fst_stable (by assumption) ?_) | with_reducible apply State.setRw_stable hK
    | with_reducible apply State.flushVec_stable hK | (intro _ _ _) | (intro _ _) | with_reducible apply foldl_stable
    | with_reducible apply foldl_fst_stable | with_reducible apply overN_stable | extract_lets | with_reducible apply ite_stable
    | with_reducible apply ite_fst_stable | split | fail_if_no_progress (with_reducible apply KeepCore.other hK) | (dsimp +zetaDelta only)
theorem State.barEffect_stable {P : State → Prop} (hK : Keep P) (s : State) (st : Nat) (name : String) (i a : Nat) (w : W64) (hsK : P s) :
    P (State.barEffect s st name i a w) := by
  unfold State.barEffect
  repeat' first
    | with_reducible assumption | (with_reducible refine fst_stable (by assumption) ?_) | with_reducible apply State.refuse_stable hK.toKeepCore
    | with_reducible apply State.settingWrite_stable hK.toKeepCore | with_reducible apply State.wrLsubCtrl_stable hK.toKeepUnits
    | with_reducible apply State.wrImask_stable hK.toKeepCore | with_reducible apply State.wrMbCtrl_stable hK.toKeepSys
    | with_reducible apply State.wrExpCtl_stable hK.toKeepUnits | with_reducible apply State.wrIvec_stable hK.toKeepCore
    | with_reducible apply State.wrMsix_stable hK.toKeepCore | (intro _ _ _) | (intro _ _) | with_reducible apply foldl_stable
    | with_reducible apply foldl_fst_stable | with_reducible apply overN_stable | extract_lets | with_reducible apply ite_stable
    | with_reducible apply ite_fst_stable | split | fail_if_no_progress (with_reducible apply Keep.other hK) | (dsimp +zetaDelta only)
theorem State.aonEffect_stable {P : State → Prop} (hK : Keep P) (s : State) (who : Who) (name : String) (i a : Nat) (w : W64) (hsK : P s) :
    P (State.aonEffect s who name i a w) := by
  unfold State.aonEffect
  repeat' first
    | with_reducible assumption | (with_reducible refine fst_stable (by assumption) ?_) | with_reducible apply State.settingWrite_stable hK.toKeepCore
    | with_reducible apply State.syncDrive_stable hK.toKeepCore | with_reducible apply State.wrSupplyCfg_stable hK.toKeepSys
    | with_reducible apply State.wrRegCfg_stable hK.toKeepSys | with_reducible apply State.wrIslCtrl_stable hK
    | with_reducible apply State.wrGpio_stable hK.toKeepCore | with_reducible apply State.wrIoCfg_stable hK.toKeepCore | (intro _ _ _) | (intro _ _)
    | with_reducible apply foldl_stable | with_reducible apply foldl_fst_stable | with_reducible apply overN_stable | extract_lets
    | with_reducible apply ite_stable | with_reducible apply ite_fst_stable | split | fail_if_no_progress (with_reducible apply Keep.other hK)
    | (dsimp +zetaDelta only)
theorem State.kprEffect_stable {P : State → Prop} (hK : Stable P) (s : State) (t : Nat) (name : String) (i a : Nat) (w : W64) (hsK : P s) :
    P (State.kprEffect s t name i a w) := by
  unfold State.kprEffect
  repeat' first
    | with_reducible assumption | (with_reducible refine fst_stable (by assumption) ?_)
    | with_reducible apply State.refuse_stable hK.toKeep.toKeepCore | with_reducible apply State.settingWrite_stable hK.toKeep.toKeepCore
    | with_reducible apply State.wrWcRsp_stable hK.toKeep.toKeepSys | with_reducible apply State.wrKctrl_stable hK
    | with_reducible apply State.wrSvcCtrl_stable hK | with_reducible apply State.wrSvcThaw_stable hK.toKeep.toKeepSys
    | with_reducible apply State.wrWorldMap_stable hK.toKeep.toKeepCore | (intro _ _ _) | (intro _ _) | with_reducible apply foldl_stable
    | with_reducible apply foldl_fst_stable | with_reducible apply overN_stable | extract_lets | with_reducible apply ite_stable
    | with_reducible apply ite_fst_stable | split | fail_if_no_progress (with_reducible apply Keep.other hK.toKeep) | (dsimp +zetaDelta only)
theorem State.nvmEffect_stable {P : State → Prop} (hK : KeepSys P) (s : State) (name : String) (a : Nat) (w : W64) (hsK : P s) :
    P (State.nvmEffect s name a w) := by
  unfold State.nvmEffect
  repeat' first
    | with_reducible assumption | (with_reducible refine fst_stable (by assumption) ?_) | with_reducible apply State.settingWrite_stable hK.toKeepCore
    | with_reducible apply State.wrNvmCmd_stable hK | with_reducible apply State.wrPstore_stable hK.toKeepCore
    | with_reducible apply State.wrPcacheCfg_stable hK.toKeepCore | (intro _ _ _) | (intro _ _) | with_reducible apply foldl_stable
    | with_reducible apply foldl_fst_stable | with_reducible apply overN_stable | extract_lets | with_reducible apply ite_stable
    | with_reducible apply ite_fst_stable | split | fail_if_no_progress (with_reducible apply KeepSys.other hK) | (dsimp +zetaDelta only)
theorem State.mcEffect_stable {P : State → Prop} (hK : Stable P) (s : State) (name : String) (u i a : Nat) (w : W64) (hsK : P s) :
    P (State.mcEffect s name u i a w) := by
  unfold State.mcEffect
  repeat' first
    | with_reducible assumption | (with_reducible refine fst_stable (by assumption) ?_)
    | with_reducible apply State.settingWrite_stable hK.toKeep.toKeepCore | with_reducible apply State.wrMcCtrl_stable hK.toKeep.toKeepCore
    | with_reducible apply State.wrMapCtrl_stable hK.toKeep.toKeepSys | with_reducible apply State.showScrub_stable hK.toKeep.toKeepCore
    | with_reducible apply State.wrEccMap_stable hK | with_reducible apply State.wrSchedCfg_stable hK.toKeep.toKeepSys | (intro _ _ _) | (intro _ _)
    | with_reducible apply foldl_stable | with_reducible apply foldl_fst_stable | with_reducible apply overN_stable | extract_lets
    | with_reducible apply ite_stable | with_reducible apply ite_fst_stable | split
    | fail_if_no_progress (with_reducible apply Keep.other hK.toKeep) | (dsimp +zetaDelta only)
theorem State.lgrEffect_stable {P : State → Prop} (hK : Stable P) (s : State) (name : String) (a : Nat) (w : W64) (hsK : P s) :
    P (State.lgrEffect s name a w) := by
  unfold State.lgrEffect
  repeat' first
    | with_reducible assumption | (with_reducible refine fst_stable (by assumption) ?_)
    | with_reducible apply State.useFreeN_stable hK.toKeep.toKeepCore | with_reducible apply State.settingWrite_stable hK.toKeep.toKeepCore
    | with_reducible apply State.wrLgCfg_stable hK | with_reducible apply State.wrLgSealcfg_stable hK.toKeep.toKeepUnits
    | with_reducible apply State.wrLgAck_stable hK | with_reducible apply State.lgCtrl_stable hK | (intro _ _ _) | (intro _ _)
    | with_reducible apply foldl_stable | with_reducible apply foldl_fst_stable | with_reducible apply overN_stable | extract_lets
    | with_reducible apply ite_stable | with_reducible apply ite_fst_stable | split
    | fail_if_no_progress (with_reducible apply Keep.other hK.toKeep) | (dsimp +zetaDelta only)
theorem State.wrFetchCfg_stable {P : State → Prop} (hK : KeepCore P) (s : State) (p : Nat) (w : W64) (hsK : P s) : P (State.wrFetchCfg s p w) := by
  unfold State.wrFetchCfg
  repeat' first
    | with_reducible assumption | (with_reducible refine fst_stable (by assumption) ?_) | with_reducible apply State.refuse_stable hK
    | with_reducible apply State.settingWrite_stable hK | (intro _ _ _) | (intro _ _) | with_reducible apply foldl_stable
    | with_reducible apply foldl_fst_stable | with_reducible apply overN_stable | extract_lets | with_reducible apply ite_stable
    | with_reducible apply ite_fst_stable | split | fail_if_no_progress (with_reducible apply KeepCore.other hK) | (dsimp +zetaDelta only)
theorem State.wrAcfg_stable {P : State → Prop} (hK : KeepCore P) (s : State) (p : Nat) (w : W64) (hsK : P s) : P (State.wrAcfg s p w) := by
  unfold State.wrAcfg
  repeat' first
    | with_reducible assumption | (with_reducible refine fst_stable (by assumption) ?_) | with_reducible apply State.refuse_stable hK
    | with_reducible apply State.settingWrite_stable hK | (intro _ _ _) | (intro _ _) | with_reducible apply foldl_stable
    | with_reducible apply foldl_fst_stable | with_reducible apply overN_stable | extract_lets | with_reducible apply ite_stable
    | with_reducible apply ite_fst_stable | split | fail_if_no_progress (with_reducible apply KeepCore.other hK) | (dsimp +zetaDelta only)
theorem State.wrPanicCfg_stable {P : State → Prop} (hK : KeepCore P) (s : State) (p : Nat) (w : W64) (hsK : P s) : P (State.wrPanicCfg s p w) := by
  unfold State.wrPanicCfg
  repeat' first
    | with_reducible assumption | (with_reducible refine fst_stable (by assumption) ?_) | with_reducible apply State.refuse_stable hK
    | with_reducible apply State.settingWrite_stable hK | (intro _ _ _) | (intro _ _) | with_reducible apply foldl_stable
    | with_reducible apply foldl_fst_stable | with_reducible apply overN_stable | extract_lets | with_reducible apply ite_stable
    | with_reducible apply ite_fst_stable | split | fail_if_no_progress (with_reducible apply KeepCore.other hK) | (dsimp +zetaDelta only)
theorem State.pipeEffect_stable {P : State → Prop} (hK : Stable P) (s : State) (who : Who) (t : Nat) (name : String) (p i a : Nat) (w : W64) (hsK : P s) :
    P (State.pipeEffect s who t name p i a w) := by
  unfold State.pipeEffect
  repeat' first
    | with_reducible assumption | (with_reducible refine fst_stable (by assumption) ?_)
    | with_reducible apply State.settingWrite_stable hK.toKeep.toKeepCore | with_reducible apply State.wrSyncSrc_stable hK.toKeep.toKeepUnits
    | with_reducible apply State.wrLut_stable hK.toKeep.toKeepCore | with_reducible apply State.wrAfctl_stable hK.toKeep.toKeepUnits
    | with_reducible apply State.wrAfclr_stable hK.toKeep.toKeepCore | with_reducible apply State.wrCommit_stable hK.toKeep.toKeepUnits
    | with_reducible apply State.wrPcommit_stable hK.toKeep.toKeepUnits | with_reducible apply State.wrAcommit_stable hK.toKeep.toKeepUnits
    | with_reducible apply State.wrKrel_stable hK.toKeep.toKeepUnits | with_reducible apply State.wrCmodeCfg_stable hK.toKeep.toKeepCore
    | with_reducible apply State.wrPcfg_stable hK.toKeep.toKeepCore | with_reducible apply State.wrPexpCtl_stable hK.toKeep.toKeepUnits
    | with_reducible apply State.wrPitchCtrl_stable hK.toKeep.toKeepUnits | with_reducible apply State.wrPctrl_stable hK
    | with_reducible apply State.wrTnxCtrl_stable hK.toKeep.toKeepCore | with_reducible apply State.wrSyncCtrl_stable hK.toKeep.toKeepUnits
    | with_reducible apply State.wrFetchCfg_stable hK.toKeep.toKeepCore | with_reducible apply State.wrAcfg_stable hK.toKeep.toKeepCore
    | with_reducible apply State.wrPanicCfg_stable hK.toKeep.toKeepCore | (intro _ _ _) | (intro _ _) | with_reducible apply foldl_stable
    | with_reducible apply foldl_fst_stable | with_reducible apply overN_stable | extract_lets | with_reducible apply ite_stable
    | with_reducible apply ite_fst_stable | split | fail_if_no_progress (with_reducible apply Keep.other hK.toKeep) | (dsimp +zetaDelta only)
theorem State.dmEffect_stable {P : State → Prop} (hK : KeepUnits P) (s : State) (who : Who) (name : String) (e i a : Nat) (w : W64) (hsK : P s) :
    P (State.dmEffect s who name e i a w) := by
  unfold State.dmEffect
  repeat' first
    | with_reducible assumption | (with_reducible refine fst_stable (by assumption) ?_) | with_reducible apply State.showIrq_stable hK.toKeepCore
    | with_reducible apply State.settingWrite_stable hK.toKeepCore | with_reducible apply State.wrChCfg_stable hK
    | with_reducible apply State.wrChDb_stable hK | with_reducible apply State.wrDmThaw_stable hK | (intro _ _ _) | (intro _ _)
    | with_reducible apply foldl_stable | with_reducible apply foldl_fst_stable | with_reducible apply overN_stable | extract_lets
    | with_reducible apply ite_stable | with_reducible apply ite_fst_stable | split | fail_if_no_progress (with_reducible apply KeepUnits.other hK)
    | (dsimp +zetaDelta only)
theorem State.cvuEffect_stable {P : State → Prop} (hK : KeepCore P) (s : State) (name : String) (u i a : Nat) (w : W64) (hsK : P s) :
    P (State.cvuEffect s name u i a w) := by
  unfold State.cvuEffect
  repeat' first
    | with_reducible assumption | (with_reducible refine fst_stable (by assumption) ?_) | with_reducible apply State.wrCvCtrl_stable hK
    | with_reducible apply State.wrCvCfg_stable hK | with_reducible apply State.wrCvWord_stable hK | (intro _ _ _) | (intro _ _)
    | with_reducible apply foldl_stable | with_reducible apply foldl_fst_stable | with_reducible apply overN_stable | extract_lets
    | with_reducible apply ite_stable | with_reducible apply ite_fst_stable | split | fail_if_no_progress (with_reducible apply KeepCore.other hK)
    | (dsimp +zetaDelta only)
theorem State.tfeEffect_stable {P : State → Prop} (hK : Keep P) (s : State) (name : String) (f i a : Nat) (w : W64) (hsK : P s) :
    P (State.tfeEffect s name f i a w) := by
  unfold State.tfeEffect
  repeat' first
    | with_reducible assumption | (with_reducible refine fst_stable (by assumption) ?_) | with_reducible apply State.showIrq_stable hK.toKeepCore
    | with_reducible apply State.settingWrite_stable hK.toKeepCore | with_reducible apply State.wrTpCfg_stable hK
    | with_reducible apply State.wrTpThr_stable hK.toKeepCore | with_reducible apply State.wrTpCtrl_stable hK.toKeepUnits
    | with_reducible apply State.wrFeLfclr_stable hK.toKeepCore | (intro _ _ _) | (intro _ _) | with_reducible apply foldl_stable
    | with_reducible apply foldl_fst_stable | with_reducible apply overN_stable | extract_lets | with_reducible apply ite_stable
    | with_reducible apply ite_fst_stable | split | fail_if_no_progress (with_reducible apply Keep.other hK) | (dsimp +zetaDelta only)
theorem State.ahxEffect_stable {P : State → Prop} (hK : KeepUnits P) (s : State) (name : String) (i a : Nat) (w : W64) (hsK : P s) :
    P (State.ahxEffect s name i a w) := by
  unfold State.ahxEffect
  repeat' first
    | with_reducible assumption | (with_reducible refine fst_stable (by assumption) ?_) | with_reducible apply State.settingWrite_stable hK.toKeepCore
    | with_reducible apply State.wrStrCfg_stable hK | with_reducible apply State.wrHcCfg_stable hK | with_reducible apply State.wrPortCfg_stable hK
    | with_reducible apply State.wrAudCfg_stable hK | (intro _ _ _) | (intro _ _) | with_reducible apply foldl_stable
    | with_reducible apply foldl_fst_stable | with_reducible apply overN_stable | extract_lets | with_reducible apply ite_stable
    | with_reducible apply ite_fst_stable | split | fail_if_no_progress (with_reducible apply KeepUnits.other hK) | (dsimp +zetaDelta only)
theorem State.qstEffect_stable {P : State → Prop} (hK : Stable P) (s : State) (who : Who) (name : String) (i a : Nat) (w : W64) (hsK : P s) :
    P (State.qstEffect s who name i a w) := by
  unfold State.qstEffect
  repeat' first
    | with_reducible assumption | (with_reducible refine fst_stable (by assumption) ?_)
    | with_reducible apply State.settingWrite_stable hK.toKeep.toKeepCore | with_reducible apply State.setFence_stable hK.toKeep.toKeepCore
    | with_reducible apply State.gpuKick_stable hK | with_reducible apply State.wrQcfg_stable hK.toKeep.toKeepUnits
    | with_reducible apply State.wrQbase_stable hK.toKeep.toKeepUnits | with_reducible apply State.wrSctrl_stable hK
    | with_reducible apply State.wrTinv_stable hK.toKeep.toKeepCore | with_reducible apply State.wrOwners_stable hK.toKeep.toKeepUnits
    | with_reducible apply State.wrScfg_stable hK.toKeep.toKeepCore | with_reducible apply State.wrGrant_stable hK.toKeep.toKeepCore
    | with_reducible apply State.wrShare_stable hK.toKeep.toKeepCore | (intro _ _ _) | (intro _ _) | with_reducible apply foldl_stable
    | with_reducible apply foldl_fst_stable | with_reducible apply overN_stable | extract_lets | with_reducible apply ite_stable
    | with_reducible apply ite_fst_stable | split | fail_if_no_progress (with_reducible apply Keep.other hK.toKeep) | (dsimp +zetaDelta only)
theorem State.regEffect_stable {P : State → Prop} (hK : Stable P) (s : State) (who : Who) (t a : Nat) (w : W64) (hsK : P s) :
    P (State.regEffect s who t a w) := by
  unfold State.regEffect
  repeat' first
    | with_reducible assumption | (with_reducible refine fst_stable (by assumption) ?_)
    | with_reducible apply State.answer_stable hK.toKeep.toKeepCore | with_reducible apply State.settingWrite_stable hK.toKeep.toKeepCore
    | with_reducible apply State.wrTallyCtrl_stable hK.toKeep.toKeepCore | with_reducible apply State.wrTallyPeriod_stable hK.toKeep.toKeepCore
    | with_reducible apply State.wrXclr_stable hK.toKeep.toKeepCore | with_reducible apply State.wrXcntClr_stable hK.toKeep.toKeepCore
    | with_reducible apply State.wrRctrl_stable hK | with_reducible apply State.wrTlpCfg_stable hK.toKeep.toKeepCore
    | with_reducible apply State.doorbell_stable hK.toKeep.toKeepUnits | with_reducible apply State.wrAuxCmd_stable hK.toKeep.toKeepUnits
    | with_reducible apply State.barEffect_stable hK.toKeep | with_reducible apply State.aonEffect_stable hK.toKeep
    | with_reducible apply State.kprEffect_stable hK | with_reducible apply State.nvmEffect_stable hK.toKeep.toKeepSys
    | with_reducible apply State.mcEffect_stable hK | with_reducible apply State.lgrEffect_stable hK | with_reducible apply State.pipeEffect_stable hK
    | with_reducible apply State.dmEffect_stable hK.toKeep.toKeepUnits | with_reducible apply State.cvuEffect_stable hK.toKeep.toKeepCore
    | with_reducible apply State.tfeEffect_stable hK.toKeep | with_reducible apply State.ahxEffect_stable hK.toKeep.toKeepUnits
    | with_reducible apply State.qstEffect_stable hK | (intro _ _ _) | (intro _ _) | with_reducible apply foldl_stable
    | with_reducible apply foldl_fst_stable | with_reducible apply overN_stable | extract_lets | with_reducible apply ite_stable
    | with_reducible apply ite_fst_stable | split | fail_if_no_progress (with_reducible apply Keep.other hK.toKeep) | (dsimp +zetaDelta only)
theorem State.takeWide_stable {P : State → Prop} (hK : Stable P) (s : State) (who : Who) (t a : Nat) (w : W64) (hsK : P s) :
    P (State.takeWide s who t a w) := by
  unfold State.takeWide
  repeat' first
    | with_reducible assumption | (with_reducible refine fst_stable (by assumption) ?_) | with_reducible apply State.regEffect_stable hK
    | (intro _ _ _) | (intro _ _) | with_reducible apply foldl_stable | with_reducible apply foldl_fst_stable | with_reducible apply overN_stable
    | extract_lets | with_reducible apply ite_stable | with_reducible apply ite_fst_stable | split
    | fail_if_no_progress (with_reducible apply Keep.other hK.toKeep) | (dsimp +zetaDelta only)
theorem State.busWrite32_stable {P : State → Prop} (hK : Stable P) (s : State) (who : Who) (t a : Nat) (w : W32) (hsK : P s) :
    P (State.busWrite32 s who t a w) := by
  unfold State.busWrite32
  repeat' first
    | with_reducible assumption | (with_reducible refine fst_stable (by assumption) ?_)
    | with_reducible apply State.answer_stable hK.toKeep.toKeepCore | with_reducible apply State.write_stable hK.toKeep.toKeepCore
    | with_reducible apply State.regEffect_stable hK | with_reducible apply State.takeWide_stable hK | (intro _ _ _) | (intro _ _)
    | with_reducible apply foldl_stable | with_reducible apply foldl_fst_stable | with_reducible apply overN_stable | extract_lets
    | with_reducible apply ite_stable | with_reducible apply ite_fst_stable | split
    | fail_if_no_progress (with_reducible apply Keep.other hK.toKeep) | (dsimp +zetaDelta only)
theorem State.busWrite_stable {P : State → Prop} (hK : Stable P) (s : State) (who : Who) (t a : Nat) (w64 : Bool) (w : W64) (hsK : P s) :
    P (State.busWrite s who t a w64 w) := by
  unfold State.busWrite
  repeat' first
    | with_reducible assumption | (with_reducible refine fst_stable (by assumption) ?_) | with_reducible apply State.write_stable hK.toKeep.toKeepCore
    | with_reducible apply State.takeWide_stable hK | with_reducible apply State.busWrite32_stable hK | (intro _ _ _) | (intro _ _)
    | with_reducible apply foldl_stable | with_reducible apply foldl_fst_stable | with_reducible apply overN_stable | extract_lets
    | with_reducible apply ite_stable | with_reducible apply ite_fst_stable | split
    | fail_if_no_progress (with_reducible apply Keep.other hK.toKeep) | (dsimp +zetaDelta only)
theorem execRegisterWrite_stable {P : State → Prop} (hK : Stable P) (who : Who) (a : BitVec 36) (w64 : Bool) (w : W64) (t : Nat) (s : State) (hsK : P s) :
    ∃ r_, execRegisterWrite who a w64 w t s = .next r_ ∧ P r_ := by
  unfold execRegisterWrite
  refine ⟨_, rfl, ?_⟩
  repeat' first
    | with_reducible assumption | (with_reducible refine fst_stable (by assumption) ?_) | with_reducible apply State.begin_stable hK.toKeep.toKeepCore
    | with_reducible apply State.busWrite_stable hK | (intro _ _ _) | (intro _ _) | with_reducible apply foldl_stable
    | with_reducible apply foldl_fst_stable | with_reducible apply overN_stable | extract_lets | with_reducible apply ite_stable
    | with_reducible apply ite_fst_stable | split | fail_if_no_progress (with_reducible apply Keep.other hK.toKeep) | (dsimp +zetaDelta only)
theorem State.readIdent_stable {P : State → Prop} (hK : KeepCore P) (s : State) (st off : Nat) (stale : Bool) (hsK : P s) :
    P (State.readIdent s st off stale) := by
  unfold State.readIdent
  repeat' first
    | with_reducible assumption | (with_reducible refine fst_stable (by assumption) ?_) | with_reducible apply State.bumpErr_stable hK
    | with_reducible apply State.answer_stable hK | (intro _ _ _) | (intro _ _) | with_reducible apply foldl_stable
    | with_reducible apply foldl_fst_stable | with_reducible apply overN_stable | extract_lets | with_reducible apply ite_stable
    | with_reducible apply ite_fst_stable | split | fail_if_no_progress (with_reducible apply KeepCore.other hK) | (dsimp +zetaDelta only)
theorem State.readEffect_stable {P : State → Prop} (hK : KeepCore P) (s : State) (a : Nat) (hsK : P s) : P (State.readEffect s a) := by
  unfold State.readEffect
  repeat' first
    | with_reducible assumption | (with_reducible refine fst_stable (by assumption) ?_) | with_reducible apply State.wr_stable hK
    | with_reducible apply State.useFree_stable hK | (intro _ _ _) | (intro _ _) | with_reducible apply foldl_stable
    | with_reducible apply foldl_fst_stable | with_reducible apply overN_stable | extract_lets | with_reducible apply ite_stable
    | with_reducible apply ite_fst_stable | split | fail_if_no_progress (with_reducible apply KeepCore.other hK) | (dsimp +zetaDelta only)
theorem State.readWord_stable {P : State → Prop} (hK : KeepCore P) (s : State) (a : Nat) (stale : Bool) (hsK : P s) :
    P (State.readWord s a stale) := by
  unfold State.readWord
  repeat' first
    | with_reducible assumption | (with_reducible refine fst_stable (by assumption) ?_) | with_reducible apply State.bumpErr_stable hK
    | with_reducible apply State.answer_stable hK | with_reducible apply State.readEffect_stable hK | (intro _ _ _) | (intro _ _)
    | with_reducible apply foldl_stable | with_reducible apply foldl_fst_stable | with_reducible apply overN_stable | extract_lets
    | with_reducible apply ite_stable | with_reducible apply ite_fst_stable | split | fail_if_no_progress (with_reducible apply KeepCore.other hK)
    | (dsimp +zetaDelta only)
theorem State.busRead32_stable {P : State → Prop} (hK : KeepCore P) (s : State) (who : Who) (a : Nat) (stale : Bool) (hsK : P s) :
    P (State.busRead32 s who a stale) := by
  unfold State.busRead32
  repeat' first
    | with_reducible assumption | (with_reducible refine fst_stable (by assumption) ?_) | with_reducible apply State.answer_stable hK
    | with_reducible apply State.access_stable hK | with_reducible apply State.readKevt_stable hK | with_reducible apply State.readWord_stable hK
    | (intro _ _ _) | (intro _ _) | with_reducible apply foldl_stable | with_reducible apply foldl_fst_stable | with_reducible apply overN_stable
    | extract_lets | with_reducible apply ite_stable | with_reducible apply ite_fst_stable | split
    | fail_if_no_progress (with_reducible apply KeepCore.other hK) | (dsimp +zetaDelta only)
theorem State.busRead_stable {P : State → Prop} (hK : KeepCore P) (s : State) (who : Who) (a : Nat) (w64 stale : Bool) (hsK : P s) :
    P (State.busRead s who a w64 stale) := by
  unfold State.busRead
  repeat' first
    | with_reducible assumption | (with_reducible refine fst_stable (by assumption) ?_) | with_reducible apply State.answer_stable hK
    | with_reducible apply State.access_stable hK | with_reducible apply State.readKevt_stable hK | with_reducible apply State.readWord_stable hK
    | with_reducible apply State.busRead32_stable hK | (intro _ _ _) | (intro _ _) | with_reducible apply foldl_stable
    | with_reducible apply foldl_fst_stable | with_reducible apply overN_stable | extract_lets | with_reducible apply ite_stable
    | with_reducible apply ite_fst_stable | split | fail_if_no_progress (with_reducible apply KeepCore.other hK) | (dsimp +zetaDelta only)
theorem execVkindRead_stable {P : State → Prop} (hK : KeepCore P) (who : Who) (st : Fin 16) (stale : Bool) (s : State) (hsK : P s) :
    ∃ r_, execVkindRead who st stale s = .next r_ ∧ P r_ := by
  unfold execVkindRead
  refine ⟨_, rfl, ?_⟩
  repeat' first
    | with_reducible assumption | (with_reducible refine fst_stable (by assumption) ?_) | with_reducible apply State.begin_stable hK
    | with_reducible apply State.busRead_stable hK | (intro _ _ _) | (intro _ _) | with_reducible apply foldl_stable
    | with_reducible apply foldl_fst_stable | with_reducible apply overN_stable | extract_lets | with_reducible apply ite_stable
    | with_reducible apply ite_fst_stable | split | fail_if_no_progress (with_reducible apply KeepCore.other hK) | (dsimp +zetaDelta only)
theorem execChFaultKindRead_stable {P : State → Prop} (hK : KeepCore P) (who : Who) (e : Fin 4) (c : Fin 8) (stale : Bool) (s : State) (hsK : P s) :
    ∃ r_, execChFaultKindRead who e c stale s = .next r_ ∧ P r_ := by
  unfold execChFaultKindRead
  refine ⟨_, rfl, ?_⟩
  repeat' first
    | with_reducible assumption | (with_reducible refine fst_stable (by assumption) ?_) | with_reducible apply State.begin_stable hK
    | with_reducible apply State.busRead_stable hK | (intro _ _ _) | (intro _ _) | with_reducible apply foldl_stable
    | with_reducible apply foldl_fst_stable | with_reducible apply overN_stable | extract_lets | with_reducible apply ite_stable
    | with_reducible apply ite_fst_stable | split | fail_if_no_progress (with_reducible apply KeepCore.other hK) | (dsimp +zetaDelta only)
theorem State.recovAccess_stable {P : State → Prop} (hK : Stable P) (s : State) (bar2 : Bool) (off : Nat) (write : Bool) (n : Nat) (b : List Byte) (hsK : P s) :
    P (State.recovAccess s bar2 off write n b) := by
  unfold State.recovAccess
  repeat' first
    | with_reducible assumption | (with_reducible refine fst_stable (by assumption) ?_)
    | with_reducible apply State.answer_stable hK.toKeep.toKeepCore | with_reducible apply State.write_stable hK.toKeep.toKeepCore
    | with_reducible apply State.sramLoad_stable hK.toKeep.toKeepSys | with_reducible apply State.memStore_stable hK
    | with_reducible apply State.modBoot_stable hK.toKeep.toKeepSys | with_reducible apply State.recovGo_stable hK | (intro _ _ _) | (intro _ _)
    | with_reducible apply foldl_stable | with_reducible apply foldl_fst_stable | with_reducible apply overN_stable | extract_lets
    | with_reducible apply ite_stable | with_reducible apply ite_fst_stable | split
    | fail_if_no_progress (with_reducible apply Keep.other hK.toKeep) | (dsimp +zetaDelta only)
theorem State.bar2Write_stable {P : State → Prop} (hK : Stable P) (s : State) (st : Nat) (y0 : Nat) (y1 : Nat) (y2 : List Byte) (hsK : P s) :
    P (State.bar2Write s st y0 y1 y2) := by
  induction y0 generalizing s st y1 y2 with
  | zero =>
    unfold State.bar2Write
    repeat' first
      | with_reducible assumption | (with_reducible refine fst_stable (by assumption) ?_)
      | with_reducible apply State.answer_stable hK.toKeep.toKeepCore | with_reducible apply State.stallStore_stable hK | (intro _ _ _) | (intro _ _)
      | with_reducible apply foldl_stable | with_reducible apply foldl_fst_stable | with_reducible apply overN_stable | extract_lets
      | with_reducible apply ite_stable | with_reducible apply ite_fst_stable | split
      | fail_if_no_progress (with_reducible apply Keep.other hK.toKeep) | (dsimp +zetaDelta only)
  | succ nK ihK =>
    unfold State.bar2Write
    repeat' first
      | with_reducible assumption | (with_reducible refine fst_stable (by assumption) ?_)
      | with_reducible apply State.answer_stable hK.toKeep.toKeepCore | with_reducible apply State.stallStore_stable hK | (intro _ _ _) | (intro _ _)
      | with_reducible apply ihK | with_reducible apply foldl_stable | with_reducible apply foldl_fst_stable | with_reducible apply overN_stable
      | extract_lets | with_reducible apply ite_stable | with_reducible apply ite_fst_stable | split
      | fail_if_no_progress (with_reducible apply Keep.other hK.toKeep) | (dsimp +zetaDelta only)
theorem State.bar2Read_stable {P : State → Prop} (hK : KeepSys P) (s : State) (st : Nat) (y0 : Nat) (y1 : Nat) (y2 : Nat) (y3 : List Byte) (hsK : P s) :
    P (State.bar2Read s st y0 y1 y2 y3) := by
  induction y0 generalizing s st y1 y2 y3 with
  | zero =>
    unfold State.bar2Read
    repeat' first
      | with_reducible assumption | (with_reducible refine fst_stable (by assumption) ?_) | with_reducible apply State.answer_stable hK.toKeepCore
      | with_reducible apply State.stallLoad_stable hK | (intro _ _ _) | (intro _ _) | with_reducible apply foldl_stable
      | with_reducible apply foldl_fst_stable | with_reducible apply overN_stable | extract_lets | with_reducible apply ite_stable
      | with_reducible apply ite_fst_stable | split | fail_if_no_progress (with_reducible apply KeepSys.other hK) | (dsimp +zetaDelta only)
  | succ nK ihK =>
    unfold State.bar2Read
    repeat' first
      | with_reducible assumption | (with_reducible refine fst_stable (by assumption) ?_) | with_reducible apply State.answer_stable hK.toKeepCore
      | with_reducible apply State.stallLoad_stable hK | (intro _ _ _) | (intro _ _) | with_reducible apply ihK
      | with_reducible apply foldl_stable | with_reducible apply foldl_fst_stable | with_reducible apply overN_stable | extract_lets
      | with_reducible apply ite_stable | with_reducible apply ite_fst_stable | split | fail_if_no_progress (with_reducible apply KeepSys.other hK)
      | (dsimp +zetaDelta only)
theorem State.bar0One_stable {P : State → Prop} (hK : Stable P) (s : State) (st off : Nat) (write w64 stale : Bool) (t : Nat) (w : W64) (hsK : P s) :
    P (State.bar0One s st off write w64 stale t w) := by
  unfold State.bar0One
  repeat' first
    | with_reducible assumption | (with_reducible refine fst_stable (by assumption) ?_) | with_reducible apply State.write_stable hK.toKeep.toKeepCore
    | with_reducible apply State.busWrite_stable hK | with_reducible apply State.busRead_stable hK.toKeep.toKeepCore | (intro _ _ _) | (intro _ _)
    | with_reducible apply foldl_stable | with_reducible apply foldl_fst_stable | with_reducible apply overN_stable | extract_lets
    | with_reducible apply ite_stable | with_reducible apply ite_fst_stable | split
    | fail_if_no_progress (with_reducible apply Keep.other hK.toKeep) | (dsimp +zetaDelta only)
theorem State.bar0Access_stable {P : State → Prop} (hK : Stable P) (s : State) (st off : Nat) (write w64 stale : Bool) (t : Nat) (b : List Byte) (hsK : P s) :
    P (State.bar0Access s st off write w64 stale t b) := by
  unfold State.bar0Access
  repeat' first
    | with_reducible assumption | (with_reducible refine fst_stable (by assumption) ?_)
    | with_reducible apply State.bumpErr_stable hK.toKeep.toKeepCore | with_reducible apply State.answer_stable hK.toKeep.toKeepCore
    | with_reducible apply State.write_stable hK.toKeep.toKeepCore | with_reducible apply State.readIdent_stable hK.toKeep.toKeepCore
    | with_reducible apply State.bar0One_stable hK | (intro _ _ _) | (intro _ _) | with_reducible apply foldl_stable
    | with_reducible apply foldl_fst_stable | with_reducible apply overN_stable | extract_lets | with_reducible apply ite_stable
    | with_reducible apply ite_fst_stable | split | fail_if_no_progress (with_reducible apply Keep.other hK.toKeep) | (dsimp +zetaDelta only)
theorem execHostBarAccess_stable {P : State → Prop} (hK : Stable P) (ep : Fin 2) (fn : Fin 16) (bar2 : Bool) (off : BitVec 36) (write : Bool) (n : Nat) (b : List Byte) (t : Nat) (stale : Bool) (s : State) (hsK : P s) :
    ∃ r_, execHostBarAccess ep fn bar2 off write n b t stale s = .next r_ ∧ P r_ := by
  unfold execHostBarAccess
  refine ⟨_, rfl, ?_⟩
  repeat' first
    | with_reducible assumption | (with_reducible refine fst_stable (by assumption) ?_)
    | with_reducible apply State.bumpErr_stable hK.toKeep.toKeepCore | with_reducible apply State.begin_stable hK.toKeep.toKeepCore
    | with_reducible apply State.answer_stable hK.toKeep.toKeepCore | with_reducible apply State.refuse_stable hK.toKeep.toKeepCore
    | with_reducible apply State.write_stable hK.toKeep.toKeepCore | with_reducible apply State.recovAccess_stable hK
    | with_reducible apply State.bar2Write_stable hK | with_reducible apply State.bar2Read_stable hK.toKeep.toKeepSys
    | with_reducible apply State.bar0Access_stable hK | (intro _ _ _) | (intro _ _) | with_reducible apply foldl_stable
    | with_reducible apply foldl_fst_stable | with_reducible apply overN_stable | extract_lets | with_reducible apply ite_stable
    | with_reducible apply ite_fst_stable | split | fail_if_no_progress (with_reducible apply Keep.other hK.toKeep) | (dsimp +zetaDelta only)
theorem State.cfgServe_stable {P : State → Prop} (hK : KeepSys P) (s : State) (ep fn : Nat) (req : CfgReq) (hsK : P s) :
    P (State.cfgServe s ep fn req) := by
  unfold State.cfgServe
  repeat' first
    | with_reducible assumption | (with_reducible refine fst_stable (by assumption) ?_) | with_reducible apply State.answer_stable hK.toKeepCore
    | with_reducible apply State.setFnCfg_stable hK | with_reducible apply State.flushVec_stable hK.toKeepCore | (intro _ _ _) | (intro _ _)
    | with_reducible apply foldl_stable | with_reducible apply foldl_fst_stable | with_reducible apply overN_stable | extract_lets
    | with_reducible apply ite_stable | with_reducible apply ite_fst_stable | split | fail_if_no_progress (with_reducible apply KeepSys.other hK)
    | (dsimp +zetaDelta only)
theorem execConfigRequest_stable {P : State → Prop} (hK : KeepSys P) (ep : Fin 2) (fn : Fin 16) (req : CfgReq) (s : State) (hsK : P s) :
    ∃ r_, execConfigRequest ep fn req s = .next r_ ∧ P r_ := by
  unfold execConfigRequest
  refine ⟨_, rfl, ?_⟩
  repeat' first
    | with_reducible assumption | (with_reducible refine fst_stable (by assumption) ?_) | with_reducible apply State.begin_stable hK.toKeepCore
    | with_reducible apply State.answer_stable hK.toKeepCore | with_reducible apply State.cfgServe_stable hK | (intro _ _ _) | (intro _ _)
    | with_reducible apply foldl_stable | with_reducible apply foldl_fst_stable | with_reducible apply overN_stable | extract_lets
    | with_reducible apply ite_stable | with_reducible apply ite_fst_stable | split | fail_if_no_progress (with_reducible apply KeepSys.other hK)
    | (dsimp +zetaDelta only)
theorem State.l1Fill_stable {P : State → Prop} (hK : KeepSys P) (s : State) (h a n : Nat) (hsK : P s) : P (State.l1Fill s h a n) := by
  unfold State.l1Fill
  repeat' first
    | with_reducible assumption | (with_reducible refine fst_stable (by assumption) ?_) | with_reducible apply State.modHart_stable hK
    | (intro _ _ _) | (intro _ _) | with_reducible apply foldl_stable | with_reducible apply foldl_fst_stable | with_reducible apply overN_stable
    | extract_lets | with_reducible apply ite_stable | with_reducible apply ite_fst_stable | split
    | fail_if_no_progress (with_reducible apply KeepSys.other hK) | (dsimp +zetaDelta only)
theorem execCoreMemoryAccess_stable {P : State → Prop} (hK : Stable P) (h : Option (Fin 4)) (kind : Fin 3) (a : BitVec 36) (n : Fin 65) (b : List Byte) (t : Nat) (upsets : List (BitVec 36 × Bool)) (s : State) (hsK : P s) :
    ∃ r_, execCoreMemoryAccess h kind a n b t upsets s = .next r_ ∧ P r_ := by
  unfold execCoreMemoryAccess
  refine ⟨_, rfl, ?_⟩
  repeat' first
    | with_reducible assumption | (with_reducible refine fst_stable (by assumption) ?_) | with_reducible apply State.begin_stable hK.toKeep.toKeepCore
    | with_reducible apply State.answer_stable hK.toKeep.toKeepCore | with_reducible apply State.hartViolate_stable hK.toKeep.toKeepCore
    | with_reducible apply State.write_stable hK.toKeep.toKeepCore | with_reducible apply State.upset_stable hK.toKeep.toKeepCore
    | with_reducible apply State.memLoad_stable hK.toKeep.toKeepSys | with_reducible apply State.memStore_stable hK
    | with_reducible apply State.keeperRestart_stable hK.toKeep.toKeepSys | with_reducible apply State.l1Fill_stable hK.toKeep.toKeepSys | (intro _ _ _)
    | (intro _ _) | with_reducible apply foldl_stable | with_reducible apply foldl_fst_stable | with_reducible apply overN_stable | extract_lets
    | with_reducible apply ite_stable | with_reducible apply ite_fst_stable | split
    | fail_if_no_progress (with_reducible apply Keep.other hK.toKeep) | (dsimp +zetaDelta only)

end Sys2Proof.Machine
end

