-- ==== Sys2Proof/Laws/StableSmiser.lean ====
section
/-! SUPPORT. Laws/StableSmiser.lean: every operation keeps a stable property: calls, operations, the dictionary and Smiser. -/
set_option linter.all false
namespace Sys2Proof.Machine

/-! ### Machine/Calls.lean -/

theorem State.serveCall_stable {P : State → Prop} (hK : KeepSys P) (s : State) (h fn : Nat) (f : State → State × Nat) (hf : ∀ x0, P x0 → P (f x0).1) (hsK : P s) :
    P (State.serveCall s h fn f) := by
  unfold State.serveCall
  repeat' first
    | with_reducible assumption | (with_reducible refine fst_stable (by assumption) ?_) | with_reducible apply State.refuse_stable hK.toKeepCore
    | with_reducible apply State.callDone_stable hK | with_reducible apply hf | (intro _ _ _) | (intro _ _) | with_reducible apply foldl_stable
    | with_reducible apply foldl_fst_stable | with_reducible apply overN_stable | extract_lets | with_reducible apply ite_stable
    | with_reducible apply ite_fst_stable | split | fail_if_no_progress (with_reducible apply KeepSys.other hK) | (dsimp +zetaDelta only)
theorem State.callRead_stable {P : State → Prop} (hK : KeepSys P) (s : State) (a n : Nat) (hsK : P s) : P (State.callRead s a n).1 := by
  unfold State.callRead
  repeat' first
    | with_reducible assumption | (with_reducible refine fst_stable (by assumption) ?_) | with_reducible apply State.memLoad_stable hK
    | (intro _ _ _) | (intro _ _) | with_reducible apply foldl_stable | with_reducible apply foldl_fst_stable | with_reducible apply overN_stable
    | extract_lets | with_reducible apply ite_stable | with_reducible apply ite_fst_stable | split
    | fail_if_no_progress (with_reducible apply KeepSys.other hK) | (dsimp +zetaDelta only)
theorem execVersion_stable {P : State → Prop} (hK : KeepSys P) (h : Fin 4) (s : State) (hsK : P s) : ∃ r_, execVersion h s = .next r_ ∧ P r_ := by
  unfold execVersion
  refine ⟨_, rfl, ?_⟩
  repeat' first
    | with_reducible assumption | (with_reducible refine fst_stable (by assumption) ?_) | with_reducible apply State.setRw_stable hK.toKeepCore
    | with_reducible apply State.begin_stable hK.toKeepCore | with_reducible apply State.serveCall_stable hK | (intro _ _ _) | (intro _ _)
    | with_reducible apply foldl_stable | with_reducible apply foldl_fst_stable | with_reducible apply overN_stable | extract_lets
    | with_reducible apply ite_stable | with_reducible apply ite_fst_stable | split | fail_if_no_progress (with_reducible apply KeepSys.other hK)
    | (dsimp +zetaDelta only)
theorem execMeasExtend_stable {P : State → Prop} (hK : KeepSys P) (h : Fin 4) (s : State) (hsK : P s) :
    ∃ r_, execMeasExtend h s = .next r_ ∧ P r_ := by
  unfold execMeasExtend
  refine ⟨_, rfl, ?_⟩
  repeat' first
    | with_reducible assumption | (with_reducible refine fst_stable (by assumption) ?_) | with_reducible apply State.begin_stable hK.toKeepCore
    | with_reducible apply State.mrExtend_stable hK | with_reducible apply State.serveCall_stable hK | with_reducible apply State.callRead_stable hK
    | (intro _ _ _) | (intro _ _) | with_reducible apply foldl_stable | with_reducible apply foldl_fst_stable | with_reducible apply overN_stable
    | extract_lets | with_reducible apply ite_stable | with_reducible apply ite_fst_stable | split
    | fail_if_no_progress (with_reducible apply KeepSys.other hK) | (dsimp +zetaDelta only)
theorem execAttest_stable {P : State → Prop} (hK : Stable P) (h : Fin 4) (s : State) (hsK : P s) : ∃ r_, execAttest h s = .next r_ ∧ P r_ := by
  unfold execAttest
  refine ⟨_, rfl, ?_⟩
  repeat' first
    | with_reducible assumption | (with_reducible refine fst_stable (by assumption) ?_) | with_reducible apply State.begin_stable hK.toKeep.toKeepCore
    | with_reducible apply State.memStore_stable hK | with_reducible apply State.serveCall_stable hK.toKeep.toKeepSys
    | with_reducible apply State.callRead_stable hK.toKeep.toKeepSys | (intro _ _ _) | (intro _ _) | with_reducible apply foldl_stable
    | with_reducible apply foldl_fst_stable | with_reducible apply overN_stable | extract_lets | with_reducible apply ite_stable
    | with_reducible apply ite_fst_stable | split | fail_if_no_progress (with_reducible apply Keep.other hK.toKeep) | (dsimp +zetaDelta only)
theorem execSealStall_stable {P : State → Prop} (hK : KeepSys P) (h : Fin 4) (s : State) (hsK : P s) :
    ∃ r_, execSealStall h s = .next r_ ∧ P r_ := by
  unfold execSealStall
  refine ⟨_, rfl, ?_⟩
  repeat' first
    | with_reducible assumption | (with_reducible refine fst_stable (by assumption) ?_) | with_reducible apply State.wr_stable hK.toKeepCore
    | with_reducible apply State.begin_stable hK.toKeepCore | with_reducible apply State.serveCall_stable hK | (intro _ _ _) | (intro _ _)
    | with_reducible apply foldl_stable | with_reducible apply foldl_fst_stable | with_reducible apply overN_stable | extract_lets
    | with_reducible apply ite_stable | with_reducible apply ite_fst_stable | split | fail_if_no_progress (with_reducible apply KeepSys.other hK)
    | (dsimp +zetaDelta only)
theorem execUnsealStall_stable {P : State → Prop} (hK : KeepSys P) (h : Fin 4) (s : State) (hsK : P s) :
    ∃ r_, execUnsealStall h s = .next r_ ∧ P r_ := by
  unfold execUnsealStall
  refine ⟨_, rfl, ?_⟩
  repeat' first
    | with_reducible assumption | (with_reducible refine fst_stable (by assumption) ?_) | with_reducible apply State.wr_stable hK.toKeepCore
    | with_reducible apply State.begin_stable hK.toKeepCore | with_reducible apply State.serveCall_stable hK | (intro _ _ _) | (intro _ _)
    | with_reducible apply foldl_stable | with_reducible apply foldl_fst_stable | with_reducible apply overN_stable | extract_lets
    | with_reducible apply ite_stable | with_reducible apply ite_fst_stable | split | fail_if_no_progress (with_reducible apply KeepSys.other hK)
    | (dsimp +zetaDelta only)
theorem execPitchCfg_stable {P : State → Prop} (hK : Stable P) (h : Fin 4) (allowed : Bool) (s : State) (hsK : P s) :
    ∃ r_, execPitchCfg h allowed s = .next r_ ∧ P r_ := by
  unfold execPitchCfg
  refine ⟨_, rfl, ?_⟩
  repeat' first
    | with_reducible assumption | (with_reducible refine fst_stable (by assumption) ?_) | with_reducible apply State.begin_stable hK.toKeep.toKeepCore
    | with_reducible apply State.answer_stable hK.toKeep.toKeepCore | with_reducible apply State.wrPitchCtrl_stable hK.toKeep.toKeepUnits
    | with_reducible apply State.regEffect_stable hK | with_reducible apply State.serveCall_stable hK.toKeep.toKeepSys
    | with_reducible apply State.callRead_stable hK.toKeep.toKeepSys | (intro _ _ _) | (intro _ _) | with_reducible apply foldl_stable
    | with_reducible apply foldl_fst_stable | with_reducible apply overN_stable | extract_lets | with_reducible apply ite_stable
    | with_reducible apply ite_fst_stable | split | fail_if_no_progress (with_reducible apply Keep.other hK.toKeep) | (dsimp +zetaDelta only)
theorem execPitchClr_stable {P : State → Prop} (hK : Keep P) (h : Fin 4) (s : State) (hsK : P s) :
    ∃ r_, execPitchClr h s = .next r_ ∧ P r_ := by
  unfold execPitchClr
  refine ⟨_, rfl, ?_⟩
  repeat' first
    | with_reducible assumption | (with_reducible refine fst_stable (by assumption) ?_) | with_reducible apply State.begin_stable hK.toKeepCore
    | with_reducible apply State.wrPitchCtrl_stable hK.toKeepUnits | with_reducible apply State.serveCall_stable hK.toKeepSys | (intro _ _ _)
    | (intro _ _) | with_reducible apply foldl_stable | with_reducible apply foldl_fst_stable | with_reducible apply overN_stable | extract_lets
    | with_reducible apply ite_stable | with_reducible apply ite_fst_stable | split | fail_if_no_progress (with_reducible apply Keep.other hK)
    | (dsimp +zetaDelta only)
theorem execClkSet_stable {P : State → Prop} (hK : Keep P) (h : Fin 4) (allowed : Bool) (s : State) (hsK : P s) :
    ∃ r_, execClkSet h allowed s = .next r_ ∧ P r_ := by
  unfold execClkSet
  refine ⟨_, rfl, ?_⟩
  repeat' first
    | with_reducible assumption | (with_reducible refine fst_stable (by assumption) ?_) | with_reducible apply State.begin_stable hK.toKeepCore
    | with_reducible apply State.wrIslCtrl_stable hK | with_reducible apply State.serveCall_stable hK.toKeepSys | (intro _ _ _) | (intro _ _)
    | with_reducible apply foldl_stable | with_reducible apply foldl_fst_stable | with_reducible apply overN_stable | extract_lets
    | with_reducible apply ite_stable | with_reducible apply ite_fst_stable | split | fail_if_no_progress (with_reducible apply Keep.other hK)
    | (dsimp +zetaDelta only)
theorem State.autoPipe_stable {P : State → Prop} (hK : Stable P) (s : State) (who : Who) (t p : Nat) (hsK : P s) :
    P (State.autoPipe s who t p) := by
  unfold State.autoPipe
  repeat' first
    | with_reducible assumption | (with_reducible refine fst_stable (by assumption) ?_)
    | with_reducible apply State.setDval_stable hK.toKeep.toKeepSys | with_reducible apply State.wrPctrl_stable hK
    | with_reducible apply State.regEffect_stable hK | (intro _ _ _) | (intro _ _) | with_reducible apply foldl_stable
    | with_reducible apply foldl_fst_stable | with_reducible apply overN_stable | extract_lets | with_reducible apply ite_stable
    | with_reducible apply ite_fst_stable | split | fail_if_no_progress (with_reducible apply Keep.other hK.toKeep) | (dsimp +zetaDelta only)
theorem State.autoStart_stable {P : State → Prop} (hK : Stable P) (s : State) (who : Who) (t : Nat) (hsK : P s) :
    P (State.autoStart s who t) := by
  unfold State.autoStart
  repeat' first
    | with_reducible assumption | (with_reducible refine fst_stable (by assumption) ?_) | with_reducible apply State.autoPipe_stable hK
    | (intro _ _ _) | (intro _ _) | with_reducible apply foldl_stable | with_reducible apply foldl_fst_stable | with_reducible apply overN_stable
    | extract_lets | with_reducible apply ite_stable | with_reducible apply ite_fst_stable | split
    | fail_if_no_progress (with_reducible apply Keep.other hK.toKeep) | (dsimp +zetaDelta only)
theorem execReady_stable {P : State → Prop} (hK : Stable P) (h : Fin 4) (t : Nat) (s : State) (hsK : P s) :
    ∃ r_, execReady h t s = .next r_ ∧ P r_ := by
  unfold execReady
  refine ⟨_, rfl, ?_⟩
  repeat' first
    | with_reducible assumption | (with_reducible refine fst_stable (by assumption) ?_) | with_reducible apply State.begin_stable hK.toKeep.toKeepCore
    | with_reducible apply State.answer_stable hK.toKeep.toKeepCore | with_reducible apply State.toDstate_stable hK.toKeep.toKeepCore
    | with_reducible apply State.consumeSave_stable hK | with_reducible apply State.serveCall_stable hK.toKeep.toKeepSys
    | with_reducible apply State.autoStart_stable hK | (intro _ _ _) | (intro _ _) | with_reducible apply foldl_stable
    | with_reducible apply foldl_fst_stable | with_reducible apply overN_stable | extract_lets | with_reducible apply ite_stable
    | with_reducible apply ite_fst_stable | split | fail_if_no_progress (with_reducible apply Keep.other hK.toKeep) | (dsimp +zetaDelta only)

/-! ### Machine/Operation.lean -/

theorem State.transmit_stable {P : State → Prop} (hK : KeepSys P) (s : State) (src : Option Nat) (via : SmVia) (prio svc dest own alive trans status : Nat) (resp : Bool) (pl : List Byte) (hsK : P s) :
    P (State.transmit s src via prio svc dest own alive trans status resp pl) := by
  unfold State.transmit
  repeat' first
    | with_reducible assumption | (with_reducible refine fst_stable (by assumption) ?_) | with_reducible apply State.emit_stable hK.toKeepCore
    | with_reducible apply State.modSm_stable hK | (intro _ _ _) | (intro _ _) | with_reducible apply foldl_stable
    | with_reducible apply foldl_fst_stable | with_reducible apply overN_stable | extract_lets | with_reducible apply ite_stable
    | with_reducible apply ite_fst_stable | split | fail_if_no_progress (with_reducible apply KeepSys.other hK) | (dsimp +zetaDelta only)
theorem State.originate_stable {P : State → Prop} (hK : KeepSys P) (s : State) (node : Nat) (hsK : P s) : P (State.originate s node).1 := by
  unfold State.originate
  repeat' first
    | with_reducible assumption | (with_reducible refine fst_stable (by assumption) ?_) | with_reducible apply State.modSm_stable hK
    | (intro _ _ _) | (intro _ _) | with_reducible apply foldl_stable | with_reducible apply foldl_fst_stable | with_reducible apply overN_stable
    | extract_lets | with_reducible apply ite_stable | with_reducible apply ite_fst_stable | split
    | fail_if_no_progress (with_reducible apply KeepSys.other hK) | (dsimp +zetaDelta only)
theorem State.notify_stable {P : State → Prop} (hK : KeepSys P) (s : State) (host idx sub : Nat) (data : List Byte) (hsK : P s) :
    P (State.notify s host idx sub data) := by
  unfold State.notify
  repeat' first
    | with_reducible assumption | (with_reducible refine fst_stable (by assumption) ?_) | with_reducible apply State.useFree_stable hK.toKeepCore
    | with_reducible apply State.transmit_stable hK | with_reducible apply State.originate_stable hK | (intro _ _ _) | (intro _ _)
    | with_reducible apply foldl_stable | with_reducible apply foldl_fst_stable | with_reducible apply overN_stable | extract_lets
    | with_reducible apply ite_stable | with_reducible apply ite_fst_stable | split | fail_if_no_progress (with_reducible apply KeepSys.other hK)
    | (dsimp +zetaDelta only)
theorem State.opEnd_stable {P : State → Prop} (hK : KeepSys P) (s : State) (k state code detail : Nat) (hsK : P s) :
    P (State.opEnd s k state code detail) := by
  unfold State.opEnd
  repeat' first
    | with_reducible assumption | (with_reducible refine fst_stable (by assumption) ?_) | with_reducible apply State.modSm_stable hK
    | with_reducible apply State.modOp_stable hK | with_reducible apply State.notify_stable hK | (intro _ _ _) | (intro _ _)
    | with_reducible apply foldl_stable | with_reducible apply foldl_fst_stable | with_reducible apply overN_stable | extract_lets
    | with_reducible apply ite_stable | with_reducible apply ite_fst_stable | split | fail_if_no_progress (with_reducible apply KeepSys.other hK)
    | (dsimp +zetaDelta only)
theorem State.eraseSlot_stable {P : State → Prop} (hK : Stable P) (s : State) (kind slot : Nat) (hsK : P s) :
    P (State.eraseSlot s kind slot) := by
  unfold State.eraseSlot
  repeat' first
    | with_reducible assumption | (with_reducible refine fst_stable (by assumption) ?_) | with_reducible apply State.eraseSector_stable hK
    | (intro _ _ _) | (intro _ _) | with_reducible apply foldl_stable | with_reducible apply foldl_fst_stable | with_reducible apply overN_stable
    | extract_lets | with_reducible apply ite_stable | with_reducible apply ite_fst_stable | split
    | fail_if_no_progress (with_reducible apply Keep.other hK.toKeep) | (dsimp +zetaDelta only)
theorem State.stageSector_stable {P : State → Prop} (hK : Stable P) (s : State) (hsK : P s) : P (State.stageSector s) := by
  unfold State.stageSector
  repeat' first
    | with_reducible assumption | (with_reducible refine fst_stable (by assumption) ?_) | with_reducible apply State.eraseSector_stable hK
    | with_reducible apply State.programLine_stable hK | with_reducible apply State.modOp_stable hK.toKeep.toKeepSys | (intro _ _ _) | (intro _ _)
    | with_reducible apply foldl_stable | with_reducible apply foldl_fst_stable | with_reducible apply overN_stable | extract_lets
    | with_reducible apply ite_stable | with_reducible apply ite_fst_stable | split
    | fail_if_no_progress (with_reducible apply Keep.other hK.toKeep) | (dsimp +zetaDelta only)
theorem State.stageFailed_stable {P : State → Prop} (hK : KeepSys P) (s : State) (hsK : P s) : P (State.stageFailed s) := by
  unfold State.stageFailed
  repeat' first
    | with_reducible assumption | (with_reducible refine fst_stable (by assumption) ?_) | with_reducible apply State.opEnd_stable hK
    | (intro _ _ _) | (intro _ _) | with_reducible apply foldl_stable | with_reducible apply foldl_fst_stable | with_reducible apply overN_stable
    | extract_lets | with_reducible apply ite_stable | with_reducible apply ite_fst_stable | split
    | fail_if_no_progress (with_reducible apply KeepSys.other hK) | (dsimp +zetaDelta only)
theorem State.stageRun_stable {P : State → Prop} (hK : KeepSys P) (s : State) (hsK : P s) : P (State.stageRun s) := by
  unfold State.stageRun
  repeat' first
    | with_reducible assumption | (with_reducible refine fst_stable (by assumption) ?_) | with_reducible apply State.setDval_stable hK
    | with_reducible apply State.opEnd_stable hK | with_reducible apply State.stageFailed_stable hK | (intro _ _ _) | (intro _ _)
    | with_reducible apply foldl_stable | with_reducible apply foldl_fst_stable | with_reducible apply overN_stable | extract_lets
    | with_reducible apply ite_stable | with_reducible apply ite_fst_stable | split | fail_if_no_progress (with_reducible apply KeepSys.other hK)
    | (dsimp +zetaDelta only)
theorem State.exportSend_stable {P : State → Prop} (hK : KeepSys P) (s : State) (hsK : P s) : P (State.exportSend s) := by
  unfold State.exportSend
  repeat' first
    | with_reducible assumption | (with_reducible refine fst_stable (by assumption) ?_) | with_reducible apply State.ringTouch_stable hK
    | with_reducible apply State.modSm_stable hK | with_reducible apply State.notify_stable hK | (intro _ _ _) | (intro _ _)
    | with_reducible apply foldl_stable | with_reducible apply foldl_fst_stable | with_reducible apply overN_stable | extract_lets
    | with_reducible apply ite_stable | with_reducible apply ite_fst_stable | split | fail_if_no_progress (with_reducible apply KeepSys.other hK)
    | (dsimp +zetaDelta only)
theorem State.exportNext_stable {P : State → Prop} (hK : KeepSys P) (s : State) (hsK : P s) : P (State.exportNext s) := by
  unfold State.exportNext
  repeat' first
    | with_reducible assumption | (with_reducible refine fst_stable (by assumption) ?_) | with_reducible apply State.modSm_stable hK
    | with_reducible apply State.modOp_stable hK | with_reducible apply State.opEnd_stable hK | with_reducible apply State.exportSend_stable hK
    | (intro _ _ _) | (intro _ _) | with_reducible apply foldl_stable | with_reducible apply foldl_fst_stable | with_reducible apply overN_stable
    | extract_lets | with_reducible apply ite_stable | with_reducible apply ite_fst_stable | split
    | fail_if_no_progress (with_reducible apply KeepSys.other hK) | (dsimp +zetaDelta only)
theorem State.exportStart_stable {P : State → Prop} (hK : KeepSys P) (s : State) (hsK : P s) : P (State.exportStart s) := by
  unfold State.exportStart
  repeat' first
    | with_reducible assumption | (with_reducible refine fst_stable (by assumption) ?_) | with_reducible apply State.modSm_stable hK
    | with_reducible apply State.exportNext_stable hK | (intro _ _ _) | (intro _ _) | with_reducible apply foldl_stable
    | with_reducible apply foldl_fst_stable | with_reducible apply overN_stable | extract_lets | with_reducible apply ite_stable
    | with_reducible apply ite_fst_stable | split | fail_if_no_progress (with_reducible apply KeepSys.other hK) | (dsimp +zetaDelta only)
theorem State.exportAck_stable {P : State → Prop} (hK : Stable P) (s : State) (owner v : Nat) (hsK : P s) :
    P (State.exportAck s owner v).1 := by
  unfold State.exportAck
  repeat' first
    | with_reducible assumption | (with_reducible refine fst_stable (by assumption) ?_)
    | with_reducible apply State.answer_stable hK.toKeep.toKeepCore | with_reducible apply State.wrLgAck_stable hK
    | with_reducible apply State.modSm_stable hK.toKeep.toKeepSys | with_reducible apply State.exportNext_stable hK.toKeep.toKeepSys | (intro _ _ _)
    | (intro _ _) | with_reducible apply foldl_stable | with_reducible apply foldl_fst_stable | with_reducible apply overN_stable | extract_lets
    | with_reducible apply ite_stable | with_reducible apply ite_fst_stable | split
    | fail_if_no_progress (with_reducible apply Keep.other hK.toKeep) | (dsimp +zetaDelta only)
theorem execExportAckTimeout_stable {P : State → Prop} (hK : KeepSys P) (s : State) (hsK : P s) :
    ∃ r_, execExportAckTimeout s = .next r_ ∧ P r_ := by
  unfold execExportAckTimeout
  refine ⟨_, rfl, ?_⟩
  repeat' first
    | with_reducible assumption | (with_reducible refine fst_stable (by assumption) ?_) | with_reducible apply State.begin_stable hK.toKeepCore
    | with_reducible apply State.guard_stable hK.toKeepCore | with_reducible apply State.modSm_stable hK | with_reducible apply State.opEnd_stable hK
    | with_reducible apply State.exportSend_stable hK | (intro _ _ _) | (intro _ _) | with_reducible apply foldl_stable
    | with_reducible apply foldl_fst_stable | with_reducible apply overN_stable | extract_lets | with_reducible apply ite_stable
    | with_reducible apply ite_fst_stable | split | fail_if_no_progress (with_reducible apply KeepSys.other hK) | (dsimp +zetaDelta only)
theorem State.scrubPass_stable {P : State → Prop} (hK : KeepSys P) (s : State) (from_ pass bad : Nat) (fast : Bool) (hsK : P s) :
    P (State.scrubPass s from_ pass bad fast) := by
  unfold State.scrubPass
  repeat' first
    | with_reducible assumption | (with_reducible refine fst_stable (by assumption) ?_) | with_reducible apply State.wr_stable hK.toKeepCore
    | with_reducible apply State.showScrub_stable hK.toKeepCore | (intro _ _ _) | (intro _ _) | with_reducible apply foldl_stable
    | with_reducible apply foldl_fst_stable | with_reducible apply overN_stable | extract_lets | with_reducible apply ite_stable
    | with_reducible apply ite_fst_stable | split | fail_if_no_progress (with_reducible apply KeepSys.other hK) | (dsimp +zetaDelta only)
theorem State.scrubSlow_stable {P : State → Prop} (hK : KeepSys P) (s : State) (pass : Nat) (hsK : P s) : P (State.scrubSlow s pass) := by
  unfold State.scrubSlow
  repeat' first
    | with_reducible assumption | (with_reducible refine fst_stable (by assumption) ?_) | with_reducible apply State.scrubPass_stable hK
    | (intro _ _ _) | (intro _ _) | with_reducible apply foldl_stable | with_reducible apply foldl_fst_stable | with_reducible apply overN_stable
    | extract_lets | with_reducible apply ite_stable | with_reducible apply ite_fst_stable | split
    | fail_if_no_progress (with_reducible apply KeepSys.other hK) | (dsimp +zetaDelta only)
theorem State.scrubBegin_stable {P : State → Prop} (hK : KeepSys P) (s : State) (hsK : P s) : P (State.scrubBegin s) := by
  unfold State.scrubBegin
  repeat' first
    | with_reducible assumption | (with_reducible refine fst_stable (by assumption) ?_) | with_reducible apply State.opEnd_stable hK
    | with_reducible apply State.scrubPass_stable hK | (intro _ _ _) | (intro _ _) | with_reducible apply foldl_stable
    | with_reducible apply foldl_fst_stable | with_reducible apply overN_stable | extract_lets | with_reducible apply ite_stable
    | with_reducible apply ite_fst_stable | split | fail_if_no_progress (with_reducible apply KeepSys.other hK) | (dsimp +zetaDelta only)
theorem State.scrubResume_stable {P : State → Prop} (hK : KeepSys P) (s : State) (hsK : P s) : P (State.scrubResume s) := by
  unfold State.scrubResume
  repeat' first
    | with_reducible assumption | (with_reducible refine fst_stable (by assumption) ?_) | with_reducible apply State.opEnd_stable hK
    | with_reducible apply State.scrubPass_stable hK | with_reducible apply State.scrubSlow_stable hK | (intro _ _ _) | (intro _ _)
    | with_reducible apply foldl_stable | with_reducible apply foldl_fst_stable | with_reducible apply overN_stable | extract_lets
    | with_reducible apply ite_stable | with_reducible apply ite_fst_stable | split | fail_if_no_progress (with_reducible apply KeepSys.other hK)
    | (dsimp +zetaDelta only)
theorem execPatrolScrubStep_stable {P : State → Prop} (hK : KeepSys P) (upsets : List (BitVec 36 × Bool)) (s : State) (hsK : P s) :
    ∃ r_, execPatrolScrubStep upsets s = .next r_ ∧ P r_ := by
  unfold execPatrolScrubStep
  refine ⟨_, rfl, ?_⟩
  repeat' first
    | with_reducible assumption | (with_reducible refine fst_stable (by assumption) ?_) | with_reducible apply State.begin_stable hK.toKeepCore
    | with_reducible apply State.guard_stable hK.toKeepCore | with_reducible apply State.upset_stable hK.toKeepCore
    | with_reducible apply State.modOp_stable hK | with_reducible apply State.patrolStep_stable hK | with_reducible apply State.opEnd_stable hK
    | with_reducible apply State.scrubSlow_stable hK | (intro _ _ _) | (intro _ _) | with_reducible apply foldl_stable
    | with_reducible apply foldl_fst_stable | with_reducible apply overN_stable | extract_lets | with_reducible apply ite_stable
    | with_reducible apply ite_fst_stable | split | fail_if_no_progress (with_reducible apply KeepSys.other hK) | (dsimp +zetaDelta only)
theorem State.compactNext_stable {P : State → Prop} (hK : Stable P) (s : State) (hsK : P s) : P (State.compactNext s) := by
  unfold State.compactNext
  repeat' first
    | with_reducible assumption | (with_reducible refine fst_stable (by assumption) ?_) | with_reducible apply State.compactSector_stable hK
    | with_reducible apply State.modOp_stable hK.toKeep.toKeepSys | (intro _ _ _) | (intro _ _) | with_reducible apply foldl_stable
    | with_reducible apply foldl_fst_stable | with_reducible apply overN_stable | extract_lets | with_reducible apply ite_stable
    | with_reducible apply ite_fst_stable | split | fail_if_no_progress (with_reducible apply Keep.other hK.toKeep) | (dsimp +zetaDelta only)
theorem State.opBegin_stable {P : State → Prop} (hK : Keep P) (s : State) (k : Nat) (arg : List Byte) (hsK : P s) :
    P (State.opBegin s k arg) := by
  unfold State.opBegin
  repeat' first
    | with_reducible assumption | (with_reducible refine fst_stable (by assumption) ?_) | with_reducible apply State.modPipe_stable hK.toKeepUnits
    | with_reducible apply State.modOp_stable hK.toKeepSys | with_reducible apply State.wrMcCtrl_stable hK.toKeepCore
    | with_reducible apply State.wrTpCtrl_stable hK.toKeepUnits | with_reducible apply State.exportStart_stable hK.toKeepSys
    | with_reducible apply State.scrubBegin_stable hK.toKeepSys | (intro _ _ _) | (intro _ _) | with_reducible apply foldl_stable
    | with_reducible apply foldl_fst_stable | with_reducible apply overN_stable | extract_lets | with_reducible apply ite_stable
    | with_reducible apply ite_fst_stable | split | fail_if_no_progress (with_reducible apply Keep.other hK) | (dsimp +zetaDelta only)
theorem State.opStart_stable {P : State → Prop} (hK : Keep P) (s : State) (k c src : Nat) (arg : List Byte) (hsK : P s) :
    P (State.opStart s k c src arg).1 := by
  unfold State.opStart
  repeat' first
    | with_reducible assumption | (with_reducible refine fst_stable (by assumption) ?_) | with_reducible apply State.modOp_stable hK.toKeepSys
    | with_reducible apply State.opBegin_stable hK | (intro _ _ _) | (intro _ _) | with_reducible apply foldl_stable
    | with_reducible apply foldl_fst_stable | with_reducible apply overN_stable | extract_lets | with_reducible apply ite_stable
    | with_reducible apply ite_fst_stable | split | fail_if_no_progress (with_reducible apply Keep.other hK) | (dsimp +zetaDelta only)
theorem State.opSuspend_stable {P : State → Prop} (hK : KeepSys P) (s : State) (k : Nat) (hsK : P s) : P (State.opSuspend s k).1 := by
  unfold State.opSuspend
  repeat' first
    | with_reducible assumption | (with_reducible refine fst_stable (by assumption) ?_) | with_reducible apply State.modOp_stable hK
    | (intro _ _ _) | (intro _ _) | with_reducible apply foldl_stable | with_reducible apply foldl_fst_stable | with_reducible apply overN_stable
    | extract_lets | with_reducible apply ite_stable | with_reducible apply ite_fst_stable | split
    | fail_if_no_progress (with_reducible apply KeepSys.other hK) | (dsimp +zetaDelta only)
theorem State.opResume_stable {P : State → Prop} (hK : KeepSys P) (s : State) (k : Nat) (hsK : P s) : P (State.opResume s k).1 := by
  unfold State.opResume
  repeat' first
    | with_reducible assumption | (with_reducible refine fst_stable (by assumption) ?_) | with_reducible apply State.modOp_stable hK
    | with_reducible apply State.exportNext_stable hK | with_reducible apply State.exportStart_stable hK
    | with_reducible apply State.scrubResume_stable hK | (intro _ _ _) | (intro _ _) | with_reducible apply foldl_stable
    | with_reducible apply foldl_fst_stable | with_reducible apply overN_stable | extract_lets | with_reducible apply ite_stable
    | with_reducible apply ite_fst_stable | split | fail_if_no_progress (with_reducible apply KeepSys.other hK) | (dsimp +zetaDelta only)
theorem State.opRollback_stable {P : State → Prop} (hK : Stable P) (s : State) (k : Nat) (hsK : P s) : P (State.opRollback s k) := by
  unfold State.opRollback
  repeat' first
    | with_reducible assumption | (with_reducible refine fst_stable (by assumption) ?_)
    | with_reducible apply State.modPipe_stable hK.toKeep.toKeepUnits | with_reducible apply State.modSm_stable hK.toKeep.toKeepSys
    | with_reducible apply State.eraseSlot_stable hK | with_reducible apply State.scrubSlow_stable hK.toKeep.toKeepSys | (intro _ _ _) | (intro _ _)
    | with_reducible apply foldl_stable | with_reducible apply foldl_fst_stable | with_reducible apply overN_stable | extract_lets
    | with_reducible apply ite_stable | with_reducible apply ite_fst_stable | split
    | fail_if_no_progress (with_reducible apply Keep.other hK.toKeep) | (dsimp +zetaDelta only)
theorem State.opCancelled_stable {P : State → Prop} (hK : Stable P) (s : State) (k : Nat) (hsK : P s) : P (State.opCancelled s k) := by
  unfold State.opCancelled
  repeat' first
    | with_reducible assumption | (with_reducible refine fst_stable (by assumption) ?_) | with_reducible apply State.opEnd_stable hK.toKeep.toKeepSys
    | with_reducible apply State.opRollback_stable hK | (intro _ _ _) | (intro _ _) | with_reducible apply foldl_stable
    | with_reducible apply foldl_fst_stable | with_reducible apply overN_stable | extract_lets | with_reducible apply ite_stable
    | with_reducible apply ite_fst_stable | split | fail_if_no_progress (with_reducible apply Keep.other hK.toKeep) | (dsimp +zetaDelta only)
theorem State.opCancel_stable {P : State → Prop} (hK : Stable P) (s : State) (k : Nat) (hsK : P s) : P (State.opCancel s k).1 := by
  unfold State.opCancel
  repeat' first
    | with_reducible assumption | (with_reducible refine fst_stable (by assumption) ?_) | with_reducible apply State.modOp_stable hK.toKeep.toKeepSys
    | with_reducible apply State.opCancelled_stable hK | (intro _ _ _) | (intro _ _) | with_reducible apply foldl_stable
    | with_reducible apply foldl_fst_stable | with_reducible apply overN_stable | extract_lets | with_reducible apply ite_stable
    | with_reducible apply ite_fst_stable | split | fail_if_no_progress (with_reducible apply Keep.other hK.toKeep) | (dsimp +zetaDelta only)
theorem State.opPiece_stable {P : State → Prop} (hK : Stable P) (s : State) (k : Nat) (hsK : P s) : P (State.opPiece s k) := by
  unfold State.opPiece
  repeat' first
    | with_reducible assumption | (with_reducible refine fst_stable (by assumption) ?_) | with_reducible apply State.stageSector_stable hK
    | with_reducible apply State.compactNext_stable hK | (intro _ _ _) | (intro _ _) | with_reducible apply foldl_stable
    | with_reducible apply foldl_fst_stable | with_reducible apply overN_stable | extract_lets | with_reducible apply ite_stable
    | with_reducible apply ite_fst_stable | split | fail_if_no_progress (with_reducible apply Keep.other hK.toKeep) | (dsimp +zetaDelta only)
theorem State.opPoint_stable {P : State → Prop} (hK : Stable P) (s : State) (k progress : Nat) (hsK : P s) :
    P (State.opPoint s k progress) := by
  unfold State.opPoint
  repeat' first
    | with_reducible assumption | (with_reducible refine fst_stable (by assumption) ?_) | with_reducible apply State.modOp_stable hK.toKeep.toKeepSys
    | with_reducible apply State.stageFailed_stable hK.toKeep.toKeepSys | with_reducible apply State.opCancelled_stable hK
    | with_reducible apply State.opPiece_stable hK | (intro _ _ _) | (intro _ _) | with_reducible apply foldl_stable
    | with_reducible apply foldl_fst_stable | with_reducible apply overN_stable | extract_lets | with_reducible apply ite_stable
    | with_reducible apply ite_fst_stable | split | fail_if_no_progress (with_reducible apply Keep.other hK.toKeep) | (dsimp +zetaDelta only)
theorem State.opWorkEnd_stable {P : State → Prop} (hK : KeepSys P) (s : State) (k detail : Nat) (hsK : P s) : P (State.opWorkEnd s k detail) := by
  unfold State.opWorkEnd
  repeat' first
    | with_reducible assumption | (with_reducible refine fst_stable (by assumption) ?_) | with_reducible apply State.opEnd_stable hK
    | with_reducible apply State.stageRun_stable hK | (intro _ _ _) | (intro _ _) | with_reducible apply foldl_stable
    | with_reducible apply foldl_fst_stable | with_reducible apply overN_stable | extract_lets | with_reducible apply ite_stable
    | with_reducible apply ite_fst_stable | split | fail_if_no_progress (with_reducible apply KeepSys.other hK) | (dsimp +zetaDelta only)
theorem execLongOperationEnd_stable {P : State → Prop} (hK : Stable P) (k : Fin 7) (ev : Fin 3) (progress : Fin 1001) (detail : BitVec 24) (s : State) (hsK : P s) :
    ∃ r_, execLongOperationEnd k ev progress detail s = .next r_ ∧ P r_ := by
  unfold execLongOperationEnd
  refine ⟨_, rfl, ?_⟩
  repeat' first
    | with_reducible assumption | (with_reducible refine fst_stable (by assumption) ?_) | with_reducible apply State.begin_stable hK.toKeep.toKeepCore
    | with_reducible apply State.guard_stable hK.toKeep.toKeepCore | with_reducible apply State.opEnd_stable hK.toKeep.toKeepSys
    | with_reducible apply State.scrubSlow_stable hK.toKeep.toKeepSys | with_reducible apply State.opRollback_stable hK
    | with_reducible apply State.opPoint_stable hK | with_reducible apply State.opWorkEnd_stable hK.toKeep.toKeepSys | (intro _ _ _) | (intro _ _)
    | with_reducible apply foldl_stable | with_reducible apply foldl_fst_stable | with_reducible apply overN_stable | extract_lets
    | with_reducible apply ite_stable | with_reducible apply ite_fst_stable | split
    | fail_if_no_progress (with_reducible apply Keep.other hK.toKeep) | (dsimp +zetaDelta only)
theorem State.markWrite_stable {P : State → Prop} (hK : KeepSys P) (s : State) (p t : Nat) (hsK : P s) : P (State.markWrite s p t).1 := by
  unfold State.markWrite
  repeat' first
    | with_reducible assumption | (with_reducible refine fst_stable (by assumption) ?_) | with_reducible apply State.modSm_stable hK
    | (intro _ _ _) | (intro _ _) | with_reducible apply foldl_stable | with_reducible apply foldl_fst_stable | with_reducible apply overN_stable
    | extract_lets | with_reducible apply ite_stable | with_reducible apply ite_fst_stable | split
    | fail_if_no_progress (with_reducible apply KeepSys.other hK) | (dsimp +zetaDelta only)
theorem State.armWrite_stable {P : State → Prop} (hK : KeepSys P) (s : State) (n : Nat) (hsK : P s) : P (State.armWrite s n).1 := by
  unfold State.armWrite
  repeat' first
    | with_reducible assumption | (with_reducible refine fst_stable (by assumption) ?_) | with_reducible apply State.modSm_stable hK
    | with_reducible apply State.armAfterMark_stable hK.toKeepCore | (intro _ _ _) | (intro _ _) | with_reducible apply foldl_stable
    | with_reducible apply foldl_fst_stable | with_reducible apply overN_stable | extract_lets | with_reducible apply ite_stable
    | with_reducible apply ite_fst_stable | split | fail_if_no_progress (with_reducible apply KeepSys.other hK) | (dsimp +zetaDelta only)

/-! ### Machine/Entries.lean -/

theorem State.mirrorRead_stable {P : State → Prop} (hK : KeepCore P) (s : State) (a : Nat) (stale : Bool) (hsK : P s) :
    P (State.mirrorRead s a stale).1 := by
  unfold State.mirrorRead
  repeat' first
    | with_reducible assumption | (with_reducible refine fst_stable (by assumption) ?_) | with_reducible apply State.answer_stable hK
    | with_reducible apply State.refuseOff_stable hK | with_reducible apply State.readKevt_stable hK | with_reducible apply State.readWord_stable hK
    | (intro _ _ _) | (intro _ _) | with_reducible apply foldl_stable | with_reducible apply foldl_fst_stable | with_reducible apply overN_stable
    | extract_lets | with_reducible apply ite_stable | with_reducible apply ite_fst_stable | split
    | fail_if_no_progress (with_reducible apply KeepCore.other hK) | (dsimp +zetaDelta only)
theorem State.mirrorWrite_stable {P : State → Prop} (hK : Stable P) (s : State) (who : Who) (t a : Nat) (v : W64) (hsK : P s) :
    P (State.mirrorWrite s who t a v).1 := by
  unfold State.mirrorWrite
  repeat' first
    | with_reducible assumption | (with_reducible refine fst_stable (by assumption) ?_)
    | with_reducible apply State.answer_stable hK.toKeep.toKeepCore | with_reducible apply State.refuse_stable hK.toKeep.toKeepCore
    | with_reducible apply State.refuseOff_stable hK.toKeep.toKeepCore | with_reducible apply State.regEffect_stable hK
    | with_reducible apply State.takeWide_stable hK | (intro _ _ _) | (intro _ _) | with_reducible apply foldl_stable
    | with_reducible apply foldl_fst_stable | with_reducible apply overN_stable | extract_lets | with_reducible apply ite_stable
    | with_reducible apply ite_fst_stable | split | fail_if_no_progress (with_reducible apply Keep.other hK.toKeep) | (dsimp +zetaDelta only)
theorem State.entryValue_stable {P : State → Prop} (hK : KeepSys P) (s : State) (q : Req) (idx sub : Nat) (hsK : P s) :
    P (State.entryValue s q idx sub).1 := by
  unfold State.entryValue
  repeat' first
    | with_reducible assumption | (with_reducible refine fst_stable (by assumption) ?_) | with_reducible apply State.useFreeN_stable hK.toKeepCore
    | with_reducible apply State.lookTouch_stable hK | with_reducible apply State.modSm_stable hK | (intro _ _ _) | (intro _ _)
    | with_reducible apply foldl_stable | with_reducible apply foldl_fst_stable | with_reducible apply overN_stable | extract_lets
    | with_reducible apply ite_stable | with_reducible apply ite_fst_stable | split | fail_if_no_progress (with_reducible apply KeepSys.other hK)
    | (dsimp +zetaDelta only)
theorem State.entrySlice_stable {P : State → Prop} (hK : KeepSys P) (s : State) (q : Req) (idx sub off n : Nat) (hsK : P s) :
    P (State.entrySlice s q idx sub off n).1 := by
  unfold State.entrySlice
  repeat' first
    | with_reducible assumption | (with_reducible refine fst_stable (by assumption) ?_) | with_reducible apply State.ringTouch_stable hK
    | with_reducible apply State.entryValue_stable hK | (intro _ _ _) | (intro _ _) | with_reducible apply foldl_stable
    | with_reducible apply foldl_fst_stable | with_reducible apply overN_stable | extract_lets | with_reducible apply ite_stable
    | with_reducible apply ite_fst_stable | split | fail_if_no_progress (with_reducible apply KeepSys.other hK) | (dsimp +zetaDelta only)
theorem State.closeSession_stable {P : State → Prop} (hK : KeepSys P) (s : State) (host : Nat) (hsK : P s) : P (State.closeSession s host) := by
  unfold State.closeSession
  repeat' first
    | with_reducible assumption | (with_reducible refine fst_stable (by assumption) ?_) | with_reducible apply State.modSm_stable hK
    | (intro _ _ _) | (intro _ _) | with_reducible apply foldl_stable | with_reducible apply foldl_fst_stable | with_reducible apply overN_stable
    | extract_lets | with_reducible apply ite_stable | with_reducible apply ite_fst_stable | split
    | fail_if_no_progress (with_reducible apply KeepSys.other hK) | (dsimp +zetaDelta only)
theorem State.opControl_stable {P : State → Prop} (hK : Stable P) (s : State) (q : Req) (k v : Nat) (hsK : P s) :
    P (State.opControl s q k v).1 := by
  unfold State.opControl
  repeat' first
    | with_reducible assumption | (with_reducible refine fst_stable (by assumption) ?_) | with_reducible apply State.opStart_stable hK.toKeep
    | with_reducible apply State.opSuspend_stable hK.toKeep.toKeepSys | with_reducible apply State.opResume_stable hK.toKeep.toKeepSys
    | with_reducible apply State.opCancel_stable hK | (intro _ _ _) | (intro _ _) | with_reducible apply foldl_stable
    | with_reducible apply foldl_fst_stable | with_reducible apply overN_stable | extract_lets | with_reducible apply ite_stable
    | with_reducible apply ite_fst_stable | split | fail_if_no_progress (with_reducible apply Keep.other hK.toKeep) | (dsimp +zetaDelta only)
theorem State.entryWrite_stable {P : State → Prop} (hK : Stable P) (s : State) (q : Req) (idx sub t : Nat) (e : DEntry) (b : List Byte) (hsK : P s) :
    P (State.entryWrite s q idx sub t e b).1 := by
  unfold State.entryWrite
  repeat' first
    | with_reducible assumption | (with_reducible refine fst_stable (by assumption) ?_) | with_reducible apply State.modNvm_stable hK.toKeep.toKeepSys
    | with_reducible apply State.recStore_stable hK | with_reducible apply State.modSm_stable hK.toKeep.toKeepSys
    | with_reducible apply State.setDval_stable hK.toKeep.toKeepSys | with_reducible apply State.exportAck_stable hK
    | with_reducible apply State.markWrite_stable hK.toKeep.toKeepSys | with_reducible apply State.armWrite_stable hK.toKeep.toKeepSys
    | with_reducible apply State.closeSession_stable hK.toKeep.toKeepSys | with_reducible apply State.opControl_stable hK | (intro _ _ _)
    | (intro _ _) | with_reducible apply foldl_stable | with_reducible apply foldl_fst_stable | with_reducible apply overN_stable | extract_lets
    | with_reducible apply ite_stable | with_reducible apply ite_fst_stable | split
    | fail_if_no_progress (with_reducible apply Keep.other hK.toKeep) | (dsimp +zetaDelta only)
theorem State.stageWrite_stable {P : State → Prop} (hK : KeepSys P) (s : State) (off : Nat) (b : List Byte) (hsK : P s) :
    P (State.stageWrite s off b) := by
  unfold State.stageWrite
  repeat' first
    | with_reducible assumption | (with_reducible refine fst_stable (by assumption) ?_) | with_reducible apply State.modSm_stable hK
    | (intro _ _ _) | (intro _ _) | with_reducible apply foldl_stable | with_reducible apply foldl_fst_stable | with_reducible apply overN_stable
    | extract_lets | with_reducible apply ite_stable | with_reducible apply ite_fst_stable | split
    | fail_if_no_progress (with_reducible apply KeepSys.other hK) | (dsimp +zetaDelta only)
theorem State.readEntry_stable {P : State → Prop} (hK : KeepSys P) (s : State) (q : Req) (idx sub lim : Nat) (stale : Bool) (hsK : P s) :
    P (State.readEntry s q idx sub lim stale).1 := by
  unfold State.readEntry
  repeat' first
    | with_reducible assumption | (with_reducible refine fst_stable (by assumption) ?_) | with_reducible apply State.mirrorRead_stable hK.toKeepCore
    | with_reducible apply State.entryValue_stable hK | (intro _ _ _) | (intro _ _) | with_reducible apply foldl_stable
    | with_reducible apply foldl_fst_stable | with_reducible apply overN_stable | extract_lets | with_reducible apply ite_stable
    | with_reducible apply ite_fst_stable | split | fail_if_no_progress (with_reducible apply KeepSys.other hK) | (dsimp +zetaDelta only)
theorem State.readBlock_stable {P : State → Prop} (hK : KeepSys P) (s : State) (q : Req) (idx sub off n lim : Nat) (hsK : P s) :
    P (State.readBlock s q idx sub off n lim).1 := by
  unfold State.readBlock
  repeat' first
    | with_reducible assumption | (with_reducible refine fst_stable (by assumption) ?_) | with_reducible apply State.entrySlice_stable hK
    | (intro _ _ _) | (intro _ _) | with_reducible apply foldl_stable | with_reducible apply foldl_fst_stable | with_reducible apply overN_stable
    | extract_lets | with_reducible apply ite_stable | with_reducible apply ite_fst_stable | split
    | fail_if_no_progress (with_reducible apply KeepSys.other hK) | (dsimp +zetaDelta only)
theorem State.writeEntry_stable {P : State → Prop} (hK : Stable P) (s : State) (q : Req) (who : Who) (idx sub t lim : Nat) (b : List Byte) (hsK : P s) :
    P (State.writeEntry s q who idx sub t lim b).1 := by
  unfold State.writeEntry
  repeat' first
    | with_reducible assumption | (with_reducible refine fst_stable (by assumption) ?_) | with_reducible apply State.mirrorWrite_stable hK
    | with_reducible apply State.entryWrite_stable hK | (intro _ _ _) | (intro _ _) | with_reducible apply foldl_stable
    | with_reducible apply foldl_fst_stable | with_reducible apply overN_stable | extract_lets | with_reducible apply ite_stable
    | with_reducible apply ite_fst_stable | split | fail_if_no_progress (with_reducible apply Keep.other hK.toKeep) | (dsimp +zetaDelta only)
theorem State.writeBlock_stable {P : State → Prop} (hK : Stable P) (s : State) (q : Req) (idx sub t : Nat) (parts : List (Nat × List Byte)) (hsK : P s) :
    P (State.writeBlock s q idx sub t parts).1 := by
  unfold State.writeBlock
  repeat' first
    | with_reducible assumption | (with_reducible refine fst_stable (by assumption) ?_) | with_reducible apply State.entryWrite_stable hK
    | with_reducible apply State.stageWrite_stable hK.toKeep.toKeepSys | (intro _ _ _) | (intro _ _) | with_reducible apply foldl_stable
    | with_reducible apply foldl_fst_stable | with_reducible apply overN_stable | extract_lets | with_reducible apply ite_stable
    | with_reducible apply ite_fst_stable | split | fail_if_no_progress (with_reducible apply Keep.other hK.toKeep) | (dsimp +zetaDelta only)

/-! ### Machine/Smiser.lean -/

theorem State.mbFree_stable {P : State → Prop} (hK : KeepCore P) (s : State) (via : SmVia) (hsK : P s) : P (State.mbFree s via) := by
  unfold State.mbFree
  repeat' first
    | with_reducible assumption | (with_reducible refine fst_stable (by assumption) ?_) | with_reducible apply State.wr_stable hK | (intro _ _ _)
    | (intro _ _) | with_reducible apply foldl_stable | with_reducible apply foldl_fst_stable | with_reducible apply overN_stable | extract_lets
    | with_reducible apply ite_stable | with_reducible apply ite_fst_stable | split | fail_if_no_progress (with_reducible apply KeepCore.other hK)
    | (dsimp +zetaDelta only)
theorem State.busAccept_stable {P : State → Prop} (hK : KeepSys P) (s : State) (svc : Nat) (m : SmMsg) (hsK : P s) :
    P (State.busAccept s svc m).1 := by
  unfold State.busAccept
  repeat' first
    | with_reducible assumption | (with_reducible refine fst_stable (by assumption) ?_) | with_reducible apply State.bumpErr_stable hK.toKeepCore
    | with_reducible apply State.modSm_stable hK | (intro _ _ _) | (intro _ _) | with_reducible apply foldl_stable
    | with_reducible apply foldl_fst_stable | with_reducible apply overN_stable | extract_lets | with_reducible apply ite_stable
    | with_reducible apply ite_fst_stable | split | fail_if_no_progress (with_reducible apply KeepSys.other hK) | (dsimp +zetaDelta only)
theorem State.smAccept_stable {P : State → Prop} (hK : KeepSys P) (s : State) (svc : Nat) (m : SmMsg) (hsK : P s) :
    P (State.smAccept s svc m).1 := by
  unfold State.smAccept
  repeat' first
    | with_reducible assumption | (with_reducible refine fst_stable (by assumption) ?_) | with_reducible apply State.bumpErr_stable hK.toKeepCore
    | with_reducible apply State.mbFree_stable hK.toKeepCore | with_reducible apply State.busAccept_stable hK | (intro _ _ _) | (intro _ _)
    | with_reducible apply foldl_stable | with_reducible apply foldl_fst_stable | with_reducible apply overN_stable | extract_lets
    | with_reducible apply ite_stable | with_reducible apply ite_fst_stable | split | fail_if_no_progress (with_reducible apply KeepSys.other hK)
    | (dsimp +zetaDelta only)
theorem State.smSend_stable {P : State → Prop} (hK : KeepSys P) (s : State) (x : SmCtx) (r : SmResp) (alive : Nat) (hsK : P s) :
    P (State.smSend s x r alive) := by
  unfold State.smSend
  repeat' first
    | with_reducible assumption | (with_reducible refine fst_stable (by assumption) ?_) | with_reducible apply State.mbAnswer_stable hK.toKeepCore
    | with_reducible apply State.transmit_stable hK | (intro _ _ _) | (intro _ _) | with_reducible apply foldl_stable
    | with_reducible apply foldl_fst_stable | with_reducible apply overN_stable | extract_lets | with_reducible apply ite_stable
    | with_reducible apply ite_fst_stable | split | fail_if_no_progress (with_reducible apply KeepSys.other hK) | (dsimp +zetaDelta only)
theorem State.smAnswer_stable {P : State → Prop} (hK : KeepSys P) (s : State) (x : SmCtx) (r : SmResp) (hsK : P s) :
    P (State.smAnswer s x r).1 := by
  unfold State.smAnswer
  repeat' first
    | with_reducible assumption | (with_reducible refine fst_stable (by assumption) ?_) | with_reducible apply State.bumpErr_stable hK.toKeepCore
    | with_reducible apply State.originate_stable hK | with_reducible apply State.smSend_stable hK | (intro _ _ _) | (intro _ _)
    | with_reducible apply foldl_stable | with_reducible apply foldl_fst_stable | with_reducible apply overN_stable | extract_lets
    | with_reducible apply ite_stable | with_reducible apply ite_fst_stable | split | fail_if_no_progress (with_reducible apply KeepSys.other hK)
    | (dsimp +zetaDelta only)
theorem State.smAuth_stable {P : State → Prop} (hK : KeepSys P) (s : State) (x : SmCtx) (hsK : P s) : P (State.smAuth s x).1 := by
  unfold State.smAuth
  repeat' first
    | with_reducible assumption | (with_reducible refine fst_stable (by assumption) ?_) | with_reducible apply State.modSm_stable hK
    | (intro _ _ _) | (intro _ _) | with_reducible apply foldl_stable | with_reducible apply foldl_fst_stable | with_reducible apply overN_stable
    | extract_lets | with_reducible apply ite_stable | with_reducible apply ite_fst_stable | split
    | fail_if_no_progress (with_reducible apply KeepSys.other hK) | (dsimp +zetaDelta only)
theorem State.sessionOpen_stable {P : State → Prop} (hK : KeepSys P) (s : State) (x : SmCtx) (hostNonce : List Byte) (hsK : P s) :
    P (State.sessionOpen s x hostNonce).1 := by
  unfold State.sessionOpen
  repeat' first
    | with_reducible assumption | (with_reducible refine fst_stable (by assumption) ?_) | with_reducible apply State.bumpEv_stable hK.toKeepCore
    | with_reducible apply State.bumpErr_stable hK.toKeepCore | with_reducible apply State.modSm_stable hK
    | with_reducible apply State.closeSession_stable hK | (intro _ _ _) | (intro _ _) | with_reducible apply foldl_stable
    | with_reducible apply foldl_fst_stable | with_reducible apply overN_stable | extract_lets | with_reducible apply ite_stable
    | with_reducible apply ite_fst_stable | split | fail_if_no_progress (with_reducible apply KeepSys.other hK) | (dsimp +zetaDelta only)
theorem bare_stable {P : State → Prop} (h : KeepCore P) (r : State × Nat) (hr : P r.1) : P (bare r).1 := hr
theorem State.svcRead_stable {P : State → Prop} (hK : KeepSys P) (s : State) (x : SmCtx) (hsK : P s) : P (State.svcRead s x).1 := by
  unfold State.svcRead
  repeat' first
    | with_reducible assumption | (with_reducible refine fst_stable (by assumption) ?_) | with_reducible apply State.readEntry_stable hK
    | (intro _ _ _) | (intro _ _) | with_reducible apply foldl_stable | with_reducible apply foldl_fst_stable | with_reducible apply overN_stable
    | extract_lets | with_reducible apply ite_stable | with_reducible apply ite_fst_stable | split
    | fail_if_no_progress (with_reducible apply KeepSys.other hK) | (dsimp +zetaDelta only)
theorem State.svcWrite_stable {P : State → Prop} (hK : Stable P) (s : State) (x : SmCtx) (hsK : P s) : P (State.svcWrite s x).1 := by
  unfold State.svcWrite
  repeat' first
    | with_reducible assumption | (with_reducible refine fst_stable (by assumption) ?_) | with_reducible apply State.writeEntry_stable hK
    | with_reducible apply State.sessionOpen_stable hK.toKeep.toKeepSys | with_reducible apply bare_stable hK.toKeep.toKeepCore | (intro _ _ _)
    | (intro _ _) | with_reducible apply foldl_stable | with_reducible apply foldl_fst_stable | with_reducible apply overN_stable | extract_lets
    | with_reducible apply ite_stable | with_reducible apply ite_fst_stable | split
    | fail_if_no_progress (with_reducible apply Keep.other hK.toKeep) | (dsimp +zetaDelta only)
theorem State.svcReadBlock_stable {P : State → Prop} (hK : KeepSys P) (s : State) (x : SmCtx) (hsK : P s) : P (State.svcReadBlock s x).1 := by
  unfold State.svcReadBlock
  repeat' first
    | with_reducible assumption | (with_reducible refine fst_stable (by assumption) ?_) | with_reducible apply State.readBlock_stable hK
    | (intro _ _ _) | (intro _ _) | with_reducible apply foldl_stable | with_reducible apply foldl_fst_stable | with_reducible apply overN_stable
    | extract_lets | with_reducible apply ite_stable | with_reducible apply ite_fst_stable | split
    | fail_if_no_progress (with_reducible apply KeepSys.other hK) | (dsimp +zetaDelta only)
theorem State.factoryWrite_stable {P : State → Prop} (hK : Stable P) (s : State) (parts : List (Nat × List Byte)) (hsK : P s) :
    P (State.factoryWrite s parts).1 := by
  unfold State.factoryWrite
  repeat' first
    | with_reducible assumption | (with_reducible refine fst_stable (by assumption) ?_) | with_reducible apply State.memStore_stable hK
    | with_reducible apply State.modSm_stable hK.toKeep.toKeepSys | (intro _ _ _) | (intro _ _) | with_reducible apply foldl_stable
    | with_reducible apply foldl_fst_stable | with_reducible apply overN_stable | extract_lets | with_reducible apply ite_stable
    | with_reducible apply ite_fst_stable | split | fail_if_no_progress (with_reducible apply Keep.other hK.toKeep) | (dsimp +zetaDelta only)
theorem State.blockSegment_stable {P : State → Prop} (hK : Stable P) (s : State) (x : SmCtx) (hsK : P s) : P (State.blockSegment s x).1 := by
  unfold State.blockSegment
  repeat' first
    | with_reducible assumption | (with_reducible refine fst_stable (by assumption) ?_) | with_reducible apply State.modSm_stable hK.toKeep.toKeepSys
    | with_reducible apply State.writeBlock_stable hK | with_reducible apply bare_stable hK.toKeep.toKeepCore
    | with_reducible apply State.factoryWrite_stable hK | (intro _ _ _) | (intro _ _) | with_reducible apply foldl_stable
    | with_reducible apply foldl_fst_stable | with_reducible apply overN_stable | extract_lets | with_reducible apply ite_stable
    | with_reducible apply ite_fst_stable | split | fail_if_no_progress (with_reducible apply Keep.other hK.toKeep) | (dsimp +zetaDelta only)
theorem State.onOp_stable {P : State → Prop} (hK : KeepCore P) (s : State) (x : SmCtx) (need : Nat) (f : Nat → State → State × Nat) (hf : ∀ x0 x1, P x1 → P (f x0 x1).1) (hsK : P s) :
    P (State.onOp s x need f).1 := by
  unfold State.onOp
  repeat' first
    | with_reducible assumption | (with_reducible refine fst_stable (by assumption) ?_) | with_reducible apply bare_stable hK
    | with_reducible apply hf | (intro _ _ _) | (intro _ _) | with_reducible apply foldl_stable | with_reducible apply foldl_fst_stable
    | with_reducible apply overN_stable | extract_lets | with_reducible apply ite_stable | with_reducible apply ite_fst_stable | split
    | fail_if_no_progress (with_reducible apply KeepCore.other hK) | (dsimp +zetaDelta only)
theorem State.factoryStart_stable {P : State → Prop} (hK : Stable P) (s : State) (hsK : P s) : P (State.factoryStart s).1 := by
  unfold State.factoryStart
  repeat' first
    | with_reducible assumption | (with_reducible refine fst_stable (by assumption) ?_)
    | with_reducible apply State.sramLoad_stable hK.toKeep.toKeepSys | with_reducible apply State.halt_stable hK.toKeep.toKeepSys
    | with_reducible apply State.modSm_stable hK.toKeep.toKeepSys | with_reducible apply State.enterZhotor_stable hK | (intro _ _ _) | (intro _ _)
    | with_reducible apply foldl_stable | with_reducible apply foldl_fst_stable | with_reducible apply overN_stable | extract_lets
    | with_reducible apply ite_stable | with_reducible apply ite_fst_stable | split
    | fail_if_no_progress (with_reducible apply Keep.other hK.toKeep) | (dsimp +zetaDelta only)
theorem State.svcOpStart_stable {P : State → Prop} (hK : Stable P) (s : State) (x : SmCtx) (hsK : P s) : P (State.svcOpStart s x).1 := by
  unfold State.svcOpStart
  repeat' first
    | with_reducible assumption | (with_reducible refine fst_stable (by assumption) ?_) | with_reducible apply State.opStart_stable hK.toKeep
    | with_reducible apply bare_stable hK.toKeep.toKeepCore | with_reducible apply State.onOp_stable hK.toKeep.toKeepCore
    | with_reducible apply State.factoryStart_stable hK | (intro _ _ _) | (intro _ _) | with_reducible apply foldl_stable
    | with_reducible apply foldl_fst_stable | with_reducible apply overN_stable | extract_lets | with_reducible apply ite_stable
    | with_reducible apply ite_fst_stable | split | fail_if_no_progress (with_reducible apply Keep.other hK.toKeep) | (dsimp +zetaDelta only)
theorem State.nodeReset_stable {P : State → Prop} (hK : KeepSys P) (s : State) (kind : Nat) (hsK : P s) : P (State.nodeReset s kind).1 := by
  unfold State.nodeReset
  repeat' first
    | with_reducible assumption | (with_reducible refine fst_stable (by assumption) ?_) | with_reducible apply State.modSm_stable hK
    | (intro _ _ _) | (intro _ _) | with_reducible apply foldl_stable | with_reducible apply foldl_fst_stable | with_reducible apply overN_stable
    | extract_lets | with_reducible apply ite_stable | with_reducible apply ite_fst_stable | split
    | fail_if_no_progress (with_reducible apply KeepSys.other hK) | (dsimp +zetaDelta only)
theorem noService_stable {P : State → Prop} (hK : KeepCore P) (f : State → SmCtx → State × Option SmResp) (s : State) (x : SmCtx) (hf : ∀ x0 x1, P x0 → P (f x0 x1).1) (hsK : P s) :
    P (noService f s x).1 := by
  unfold noService
  repeat' first
    | with_reducible assumption | (with_reducible refine fst_stable (by assumption) ?_) | with_reducible apply hf | (intro _ _ _)
    | (intro _ _) | with_reducible apply foldl_stable | with_reducible apply foldl_fst_stable | with_reducible apply overN_stable | extract_lets
    | with_reducible apply ite_stable | with_reducible apply ite_fst_stable | split | fail_if_no_progress (with_reducible apply KeepCore.other hK)
    | (dsimp +zetaDelta only)
theorem State.svcOpSuspend_stable {P : State → Prop} (hK : KeepSys P) (s : State) (x : SmCtx) (hsK : P s) : P (State.svcOpSuspend s x).1 := by
  unfold State.svcOpSuspend
  repeat' first
    | with_reducible assumption | (with_reducible refine fst_stable (by assumption) ?_) | with_reducible apply State.opSuspend_stable hK
    | with_reducible apply State.onOp_stable hK.toKeepCore | (intro _ _ _) | (intro _ _) | with_reducible apply foldl_stable
    | with_reducible apply foldl_fst_stable | with_reducible apply overN_stable | extract_lets | with_reducible apply ite_stable
    | with_reducible apply ite_fst_stable | split | fail_if_no_progress (with_reducible apply KeepSys.other hK) | (dsimp +zetaDelta only)
theorem State.svcOpResume_stable {P : State → Prop} (hK : KeepSys P) (s : State) (x : SmCtx) (hsK : P s) : P (State.svcOpResume s x).1 := by
  unfold State.svcOpResume
  repeat' first
    | with_reducible assumption | (with_reducible refine fst_stable (by assumption) ?_) | with_reducible apply State.opResume_stable hK
    | with_reducible apply State.onOp_stable hK.toKeepCore | (intro _ _ _) | (intro _ _) | with_reducible apply foldl_stable
    | with_reducible apply foldl_fst_stable | with_reducible apply overN_stable | extract_lets | with_reducible apply ite_stable
    | with_reducible apply ite_fst_stable | split | fail_if_no_progress (with_reducible apply KeepSys.other hK) | (dsimp +zetaDelta only)
theorem State.svcOpCancel_stable {P : State → Prop} (hK : Stable P) (s : State) (x : SmCtx) (hsK : P s) : P (State.svcOpCancel s x).1 := by
  unfold State.svcOpCancel
  repeat' first
    | with_reducible assumption | (with_reducible refine fst_stable (by assumption) ?_) | with_reducible apply State.opCancel_stable hK
    | with_reducible apply State.onOp_stable hK.toKeep.toKeepCore | (intro _ _ _) | (intro _ _) | with_reducible apply foldl_stable
    | with_reducible apply foldl_fst_stable | with_reducible apply overN_stable | extract_lets | with_reducible apply ite_stable
    | with_reducible apply ite_fst_stable | split | fail_if_no_progress (with_reducible apply Keep.other hK.toKeep) | (dsimp +zetaDelta only)
theorem State.svcNodeReset_stable {P : State → Prop} (hK : KeepSys P) (s : State) (x : SmCtx) (hsK : P s) : P (State.svcNodeReset s x).1 := by
  unfold State.svcNodeReset
  repeat' first
    | with_reducible assumption | (with_reducible refine fst_stable (by assumption) ?_) | with_reducible apply bare_stable hK.toKeepCore
    | with_reducible apply State.nodeReset_stable hK | (intro _ _ _) | (intro _ _) | with_reducible apply foldl_stable
    | with_reducible apply foldl_fst_stable | with_reducible apply overN_stable | extract_lets | with_reducible apply ite_stable
    | with_reducible apply ite_fst_stable | split | fail_if_no_progress (with_reducible apply KeepSys.other hK) | (dsimp +zetaDelta only)
theorem State.svcUnknown_stable {P : State → Prop} (hK : KeepCore P) (s : State) (x : SmCtx) (hsK : P s) : P (State.svcUnknown s x).1 := by
  unfold State.svcUnknown
  repeat' first
    | with_reducible assumption | (with_reducible refine fst_stable (by assumption) ?_) | (intro _ _ _) | (intro _ _)
    | with_reducible apply foldl_stable | with_reducible apply foldl_fst_stable | with_reducible apply overN_stable | extract_lets
    | with_reducible apply ite_stable | with_reducible apply ite_fst_stable | split | fail_if_no_progress (with_reducible apply KeepCore.other hK)
    | (dsimp +zetaDelta only)
theorem State.serve_stable {P : State → Prop} (hK : Stable P) (s : State) (x : SmCtx) (hsK : P s) : P (State.serve s x).1 := by
  unfold State.serve
  repeat' first
    | with_reducible assumption | (with_reducible refine fst_stable (by assumption) ?_)
    | with_reducible apply State.svcRead_stable hK.toKeep.toKeepSys | with_reducible apply State.svcWrite_stable hK
    | with_reducible apply State.svcReadBlock_stable hK.toKeep.toKeepSys | with_reducible apply State.blockSegment_stable hK
    | with_reducible apply State.svcOpStart_stable hK | with_reducible apply noService_stable hK.toKeep.toKeepCore
    | with_reducible apply State.svcOpSuspend_stable hK.toKeep.toKeepSys | with_reducible apply State.svcOpResume_stable hK.toKeep.toKeepSys
    | with_reducible apply State.svcOpCancel_stable hK | with_reducible apply State.svcNodeReset_stable hK.toKeep.toKeepSys
    | with_reducible apply State.svcUnknown_stable hK.toKeep.toKeepCore | (intro _ _ _) | (intro _ _) | with_reducible apply foldl_stable
    | with_reducible apply foldl_fst_stable | with_reducible apply overN_stable | extract_lets | with_reducible apply ite_stable
    | with_reducible apply ite_fst_stable | split | fail_if_no_progress (with_reducible apply Keep.other hK.toKeep) | (dsimp +zetaDelta only)
theorem State.dropBlocks_stable {P : State → Prop} (hK : KeepSys P) (s : State) (src trans : Nat) (hsK : P s) :
    P (State.dropBlocks s src trans) := by
  unfold State.dropBlocks
  repeat' first
    | with_reducible assumption | (with_reducible refine fst_stable (by assumption) ?_) | with_reducible apply State.modSm_stable hK
    | (intro _ _ _) | (intro _ _) | with_reducible apply foldl_stable | with_reducible apply foldl_fst_stable | with_reducible apply overN_stable
    | extract_lets | with_reducible apply ite_stable | with_reducible apply ite_fst_stable | split
    | fail_if_no_progress (with_reducible apply KeepSys.other hK) | (dsimp +zetaDelta only)
theorem State.smRepeat_stable {P : State → Prop} (hK : KeepSys P) (s : State) (x : SmCtx) (r : SmAlive) (hsK : P s) : P (State.smRepeat s x r) := by
  unfold State.smRepeat
  repeat' first
    | with_reducible assumption | (with_reducible refine fst_stable (by assumption) ?_) | with_reducible apply State.bumpErr_stable hK.toKeepCore
    | with_reducible apply State.mbFree_stable hK.toKeepCore | with_reducible apply State.smSend_stable hK | (intro _ _ _) | (intro _ _)
    | with_reducible apply foldl_stable | with_reducible apply foldl_fst_stable | with_reducible apply overN_stable | extract_lets
    | with_reducible apply ite_stable | with_reducible apply ite_fst_stable | split | fail_if_no_progress (with_reducible apply KeepSys.other hK)
    | (dsimp +zetaDelta only)
theorem State.smServe_stable {P : State → Prop} (hK : KeepSys P) (s0 : State) (x : SmCtx) (old : Option SmAlive) (f : State → SmCtx → State × Option SmResp) (hf : ∀ x0 x1, P x0 → P (f x0 x1).1) (hsK : P s0) :
    P (State.smServe s0 x old f) := by
  unfold State.smServe
  repeat' first
    | with_reducible assumption | (with_reducible refine fst_stable (by assumption) ?_) | with_reducible apply State.bumpErr_stable hK.toKeepCore
    | with_reducible apply State.modSm_stable hK | with_reducible apply State.mbFree_stable hK.toKeepCore | with_reducible apply State.smAnswer_stable hK
    | with_reducible apply State.smAuth_stable hK | with_reducible apply State.dropBlocks_stable hK | with_reducible apply hf | (intro _ _ _)
    | (intro _ _) | with_reducible apply foldl_stable | with_reducible apply foldl_fst_stable | with_reducible apply overN_stable | extract_lets
    | with_reducible apply ite_stable | with_reducible apply ite_fst_stable | split | fail_if_no_progress (with_reducible apply KeepSys.other hK)
    | (dsimp +zetaDelta only)
theorem State.smExec_stable {P : State → Prop} (hK : KeepSys P) (s : State) (x : SmCtx) (f : State → SmCtx → State × Option SmResp) (hf : ∀ x0 x1, P x0 → P (f x0 x1).1) (hsK : P s) :
    P (State.smExec s x f) := by
  unfold State.smExec
  repeat' first
    | with_reducible assumption | (with_reducible refine fst_stable (by assumption) ?_) | with_reducible apply State.mbFree_stable hK.toKeepCore
    | with_reducible apply State.smRepeat_stable hK | with_reducible apply State.smServe_stable hK | with_reducible apply hf | (intro _ _ _)
    | (intro _ _) | with_reducible apply foldl_stable | with_reducible apply foldl_fst_stable | with_reducible apply overN_stable | extract_lets
    | with_reducible apply ite_stable | with_reducible apply ite_fst_stable | split | fail_if_no_progress (with_reducible apply KeepSys.other hK)
    | (dsimp +zetaDelta only)
theorem State.smRun_stable {P : State → Prop} (hK : KeepSys P) (s0 : State) (svc : Nat) (m : SmMsg) (stale : Bool) (f : State → SmCtx → State × Option SmResp) (hf : ∀ x0 x1, P x0 → P (f x0 x1).1) (hsK : P s0) :
    P (State.smRun s0 svc m stale f) := by
  unfold State.smRun
  repeat' first
    | with_reducible assumption | (with_reducible refine fst_stable (by assumption) ?_) | with_reducible apply State.modSm_stable hK
    | with_reducible apply State.smAccept_stable hK | with_reducible apply State.smAnswer_stable hK | with_reducible apply State.smExec_stable hK
    | with_reducible apply hf | (intro _ _ _) | (intro _ _) | with_reducible apply foldl_stable | with_reducible apply foldl_fst_stable
    | with_reducible apply overN_stable | extract_lets | with_reducible apply ite_stable | with_reducible apply ite_fst_stable | split
    | fail_if_no_progress (with_reducible apply KeepSys.other hK) | (dsimp +zetaDelta only)
theorem State.smWaiting_stable {P : State → Prop} (hK : Stable P) (s : State) (src : Nat) (y0 : Nat) (hsK : P s) :
    P (State.smWaiting s src y0) := by
  induction y0 generalizing s src with
  | zero =>
    unfold State.smWaiting
    repeat' first
      | with_reducible assumption | (with_reducible refine fst_stable (by assumption) ?_)
      | with_reducible apply State.modSm_stable hK.toKeep.toKeepSys | with_reducible apply State.serve_stable hK
      | with_reducible apply State.smExec_stable hK.toKeep.toKeepSys | (intro _ _ _) | (intro _ _) | with_reducible apply foldl_stable
      | with_reducible apply foldl_fst_stable | with_reducible apply overN_stable | extract_lets | with_reducible apply ite_stable
      | with_reducible apply ite_fst_stable | split | fail_if_no_progress (with_reducible apply Keep.other hK.toKeep)
      | (dsimp +zetaDelta only)
  | succ nK ihK =>
    unfold State.smWaiting
    repeat' first
      | with_reducible assumption | (with_reducible refine fst_stable (by assumption) ?_)
      | with_reducible apply State.modSm_stable hK.toKeep.toKeepSys | with_reducible apply State.serve_stable hK
      | with_reducible apply State.smExec_stable hK.toKeep.toKeepSys | (intro _ _ _) | (intro _ _) | with_reducible apply ihK
      | with_reducible apply foldl_stable | with_reducible apply foldl_fst_stable | with_reducible apply overN_stable | extract_lets
      | with_reducible apply ite_stable | with_reducible apply ite_fst_stable | split
      | fail_if_no_progress (with_reducible apply Keep.other hK.toKeep) | (dsimp +zetaDelta only)
theorem execRead_stable {P : State → Prop} (hK : KeepSys P) (m : SmMsg) (stale : Bool) (s : State) (hsK : P s) :
    ∃ r_, execRead m stale s = .next r_ ∧ P r_ := by
  unfold execRead
  refine ⟨_, rfl, ?_⟩
  repeat' first
    | with_reducible assumption | (with_reducible refine fst_stable (by assumption) ?_) | with_reducible apply State.begin_stable hK.toKeepCore
    | with_reducible apply State.svcRead_stable hK | with_reducible apply noService_stable hK.toKeepCore
    | with_reducible apply State.svcUnknown_stable hK.toKeepCore | with_reducible apply State.smRun_stable hK | (intro _ _ _) | (intro _ _)
    | with_reducible apply foldl_stable | with_reducible apply foldl_fst_stable | with_reducible apply overN_stable | extract_lets
    | with_reducible apply ite_stable | with_reducible apply ite_fst_stable | split | fail_if_no_progress (with_reducible apply KeepSys.other hK)
    | (dsimp +zetaDelta only)
theorem execWrite_stable {P : State → Prop} (hK : Stable P) (m : SmMsg) (s : State) (hsK : P s) : ∃ r_, execWrite m s = .next r_ ∧ P r_ := by
  unfold execWrite
  refine ⟨_, rfl, ?_⟩
  repeat' first
    | with_reducible assumption | (with_reducible refine fst_stable (by assumption) ?_) | with_reducible apply State.begin_stable hK.toKeep.toKeepCore
    | with_reducible apply State.svcWrite_stable hK | with_reducible apply noService_stable hK.toKeep.toKeepCore
    | with_reducible apply State.smRun_stable hK.toKeep.toKeepSys | (intro _ _ _) | (intro _ _) | with_reducible apply foldl_stable
    | with_reducible apply foldl_fst_stable | with_reducible apply overN_stable | extract_lets | with_reducible apply ite_stable
    | with_reducible apply ite_fst_stable | split | fail_if_no_progress (with_reducible apply Keep.other hK.toKeep) | (dsimp +zetaDelta only)
theorem execReadBlock_stable {P : State → Prop} (hK : KeepSys P) (m : SmMsg) (s : State) (hsK : P s) :
    ∃ r_, execReadBlock m s = .next r_ ∧ P r_ := by
  unfold execReadBlock
  refine ⟨_, rfl, ?_⟩
  repeat' first
    | with_reducible assumption | (with_reducible refine fst_stable (by assumption) ?_) | with_reducible apply State.begin_stable hK.toKeepCore
    | with_reducible apply State.svcReadBlock_stable hK | with_reducible apply noService_stable hK.toKeepCore | with_reducible apply State.smRun_stable hK
    | (intro _ _ _) | (intro _ _) | with_reducible apply foldl_stable | with_reducible apply foldl_fst_stable | with_reducible apply overN_stable
    | extract_lets | with_reducible apply ite_stable | with_reducible apply ite_fst_stable | split
    | fail_if_no_progress (with_reducible apply KeepSys.other hK) | (dsimp +zetaDelta only)
theorem execWriteBlock_stable {P : State → Prop} (hK : Stable P) (m : SmMsg) (s : State) (hsK : P s) :
    ∃ r_, execWriteBlock m s = .next r_ ∧ P r_ := by
  unfold execWriteBlock
  refine ⟨_, rfl, ?_⟩
  repeat' first
    | with_reducible assumption | (with_reducible refine fst_stable (by assumption) ?_) | with_reducible apply State.begin_stable hK.toKeep.toKeepCore
    | with_reducible apply State.blockSegment_stable hK | with_reducible apply State.smRun_stable hK.toKeep.toKeepSys | (intro _ _ _) | (intro _ _)
    | with_reducible apply foldl_stable | with_reducible apply foldl_fst_stable | with_reducible apply overN_stable | extract_lets
    | with_reducible apply ite_stable | with_reducible apply ite_fst_stable | split
    | fail_if_no_progress (with_reducible apply Keep.other hK.toKeep) | (dsimp +zetaDelta only)
theorem execOpStart_stable {P : State → Prop} (hK : Stable P) (m : SmMsg) (s : State) (hsK : P s) :
    ∃ r_, execOpStart m s = .next r_ ∧ P r_ := by
  unfold execOpStart
  refine ⟨_, rfl, ?_⟩
  repeat' first
    | with_reducible assumption | (with_reducible refine fst_stable (by assumption) ?_) | with_reducible apply State.begin_stable hK.toKeep.toKeepCore
    | with_reducible apply State.svcOpStart_stable hK | with_reducible apply State.smRun_stable hK.toKeep.toKeepSys | (intro _ _ _) | (intro _ _)
    | with_reducible apply foldl_stable | with_reducible apply foldl_fst_stable | with_reducible apply overN_stable | extract_lets
    | with_reducible apply ite_stable | with_reducible apply ite_fst_stable | split
    | fail_if_no_progress (with_reducible apply Keep.other hK.toKeep) | (dsimp +zetaDelta only)
theorem execOpSuspend_stable {P : State → Prop} (hK : KeepSys P) (m : SmMsg) (s : State) (hsK : P s) :
    ∃ r_, execOpSuspend m s = .next r_ ∧ P r_ := by
  unfold execOpSuspend
  refine ⟨_, rfl, ?_⟩
  repeat' first
    | with_reducible assumption | (with_reducible refine fst_stable (by assumption) ?_) | with_reducible apply State.begin_stable hK.toKeepCore
    | with_reducible apply noService_stable hK.toKeepCore | with_reducible apply State.svcOpSuspend_stable hK | with_reducible apply State.smRun_stable hK
    | (intro _ _ _) | (intro _ _) | with_reducible apply foldl_stable | with_reducible apply foldl_fst_stable | with_reducible apply overN_stable
    | extract_lets | with_reducible apply ite_stable | with_reducible apply ite_fst_stable | split
    | fail_if_no_progress (with_reducible apply KeepSys.other hK) | (dsimp +zetaDelta only)
theorem execOpResume_stable {P : State → Prop} (hK : KeepSys P) (m : SmMsg) (s : State) (hsK : P s) : ∃ r_, execOpResume m s = .next r_ ∧ P r_ := by
  unfold execOpResume
  refine ⟨_, rfl, ?_⟩
  repeat' first
    | with_reducible assumption | (with_reducible refine fst_stable (by assumption) ?_) | with_reducible apply State.begin_stable hK.toKeepCore
    | with_reducible apply noService_stable hK.toKeepCore | with_reducible apply State.svcOpResume_stable hK | with_reducible apply State.smRun_stable hK
    | (intro _ _ _) | (intro _ _) | with_reducible apply foldl_stable | with_reducible apply foldl_fst_stable | with_reducible apply overN_stable
    | extract_lets | with_reducible apply ite_stable | with_reducible apply ite_fst_stable | split
    | fail_if_no_progress (with_reducible apply KeepSys.other hK) | (dsimp +zetaDelta only)
theorem execOpCancel_stable {P : State → Prop} (hK : Stable P) (m : SmMsg) (s : State) (hsK : P s) :
    ∃ r_, execOpCancel m s = .next r_ ∧ P r_ := by
  unfold execOpCancel
  refine ⟨_, rfl, ?_⟩
  repeat' first
    | with_reducible assumption | (with_reducible refine fst_stable (by assumption) ?_) | with_reducible apply State.begin_stable hK.toKeep.toKeepCore
    | with_reducible apply noService_stable hK.toKeep.toKeepCore | with_reducible apply State.svcOpCancel_stable hK
    | with_reducible apply State.smRun_stable hK.toKeep.toKeepSys | (intro _ _ _) | (intro _ _) | with_reducible apply foldl_stable
    | with_reducible apply foldl_fst_stable | with_reducible apply overN_stable | extract_lets | with_reducible apply ite_stable
    | with_reducible apply ite_fst_stable | split | fail_if_no_progress (with_reducible apply Keep.other hK.toKeep) | (dsimp +zetaDelta only)
theorem execHeartbeat_stable {P : State → Prop} (hK : KeepSys P) (m : SmMsg) (s : State) (hsK : P s) :
    ∃ r_, execHeartbeat m s = .next r_ ∧ P r_ := by
  unfold execHeartbeat
  refine ⟨_, rfl, ?_⟩
  repeat' first
    | with_reducible assumption | (with_reducible refine fst_stable (by assumption) ?_) | with_reducible apply State.begin_stable hK.toKeepCore
    | with_reducible apply State.mbFree_stable hK.toKeepCore | with_reducible apply State.smAccept_stable hK | (intro _ _ _) | (intro _ _)
    | with_reducible apply foldl_stable | with_reducible apply foldl_fst_stable | with_reducible apply overN_stable | extract_lets
    | with_reducible apply ite_stable | with_reducible apply ite_fst_stable | split | fail_if_no_progress (with_reducible apply KeepSys.other hK)
    | (dsimp +zetaDelta only)
theorem State.sendHeartbeat_stable {P : State → Prop} (hK : KeepSys P) (s : State) (hsK : P s) : P (State.sendHeartbeat s) := by
  unfold State.sendHeartbeat
  repeat' first
    | with_reducible assumption | (with_reducible refine fst_stable (by assumption) ?_) | with_reducible apply State.emit_stable hK.toKeepCore
    | with_reducible apply State.useFree_stable hK.toKeepCore | with_reducible apply State.modSm_stable hK
    | with_reducible apply State.originate_stable hK | (intro _ _ _) | (intro _ _) | with_reducible apply foldl_stable
    | with_reducible apply foldl_fst_stable | with_reducible apply overN_stable | extract_lets | with_reducible apply ite_stable
    | with_reducible apply ite_fst_stable | split | fail_if_no_progress (with_reducible apply KeepSys.other hK) | (dsimp +zetaDelta only)
theorem execHeartbeatTimer_stable {P : State → Prop} (hK : KeepSys P) (s : State) (hsK : P s) : ∃ r_, execHeartbeatTimer s = .next r_ ∧ P r_ := by
  unfold execHeartbeatTimer
  refine ⟨_, rfl, ?_⟩
  repeat' first
    | with_reducible assumption | (with_reducible refine fst_stable (by assumption) ?_) | with_reducible apply State.begin_stable hK.toKeepCore
    | with_reducible apply State.guard_stable hK.toKeepCore | with_reducible apply State.modSm_stable hK
    | with_reducible apply State.sendHeartbeat_stable hK | (intro _ _ _) | (intro _ _) | with_reducible apply foldl_stable
    | with_reducible apply foldl_fst_stable | with_reducible apply overN_stable | extract_lets | with_reducible apply ite_stable
    | with_reducible apply ite_fst_stable | split | fail_if_no_progress (with_reducible apply KeepSys.other hK) | (dsimp +zetaDelta only)
theorem State.idle_stable {P : State → Prop} (hK : Stable P) (s : State) (hsK : P s) : P (State.idle s) := by
  unfold State.idle
  repeat' first
    | with_reducible assumption | (with_reducible refine fst_stable (by assumption) ?_) | with_reducible apply State.emit_stable hK.toKeep.toKeepCore
    | with_reducible apply State.begin_stable hK.toKeep.toKeepCore | with_reducible apply State.modSm_stable hK.toKeep.toKeepSys
    | with_reducible apply State.smWaiting_stable hK | with_reducible apply State.sendHeartbeat_stable hK.toKeep.toKeepSys | (intro _ _ _)
    | (intro _ _) | with_reducible apply foldl_stable | with_reducible apply foldl_fst_stable | with_reducible apply overN_stable | extract_lets
    | with_reducible apply ite_stable | with_reducible apply ite_fst_stable | split
    | fail_if_no_progress (with_reducible apply Keep.other hK.toKeep) | (dsimp +zetaDelta only)
theorem execHostLoss_stable {P : State → Prop} (hK : KeepSys P) (s : State) (hsK : P s) : ∃ r_, execHostLoss s = .next r_ ∧ P r_ := by
  unfold execHostLoss
  refine ⟨_, rfl, ?_⟩
  repeat' first
    | with_reducible assumption | (with_reducible refine fst_stable (by assumption) ?_) | with_reducible apply State.begin_stable hK.toKeepCore
    | with_reducible apply State.guard_stable hK.toKeepCore | with_reducible apply State.modSm_stable hK | (intro _ _ _) | (intro _ _)
    | with_reducible apply foldl_stable | with_reducible apply foldl_fst_stable | with_reducible apply overN_stable | extract_lets
    | with_reducible apply ite_stable | with_reducible apply ite_fst_stable | split | fail_if_no_progress (with_reducible apply KeepSys.other hK)
    | (dsimp +zetaDelta only)
theorem execSessionIdleExpiry_stable {P : State → Prop} (hK : KeepSys P) (host : BitVec 7) (s : State) (hsK : P s) :
    ∃ r_, execSessionIdleExpiry host s = .next r_ ∧ P r_ := by
  unfold execSessionIdleExpiry
  refine ⟨_, rfl, ?_⟩
  repeat' first
    | with_reducible assumption | (with_reducible refine fst_stable (by assumption) ?_) | with_reducible apply State.begin_stable hK.toKeepCore
    | with_reducible apply State.closeSession_stable hK | (intro _ _ _) | (intro _ _) | with_reducible apply foldl_stable
    | with_reducible apply foldl_fst_stable | with_reducible apply overN_stable | extract_lets | with_reducible apply ite_stable
    | with_reducible apply ite_fst_stable | split | fail_if_no_progress (with_reducible apply KeepSys.other hK) | (dsimp +zetaDelta only)
theorem execDevNonceExpiry_stable {P : State → Prop} (hK : KeepSys P) (host : BitVec 7) (s : State) (hsK : P s) :
    ∃ r_, execDevNonceExpiry host s = .next r_ ∧ P r_ := by
  unfold execDevNonceExpiry
  refine ⟨_, rfl, ?_⟩
  repeat' first
    | with_reducible assumption | (with_reducible refine fst_stable (by assumption) ?_) | with_reducible apply State.begin_stable hK.toKeepCore
    | with_reducible apply State.modSm_stable hK | (intro _ _ _) | (intro _ _) | with_reducible apply foldl_stable
    | with_reducible apply foldl_fst_stable | with_reducible apply overN_stable | extract_lets | with_reducible apply ite_stable
    | with_reducible apply ite_fst_stable | split | fail_if_no_progress (with_reducible apply KeepSys.other hK) | (dsimp +zetaDelta only)
theorem execNodeResetComm_stable {P : State → Prop} (hK : KeepSys P) (m : SmMsg) (s : State) (hsK : P s) :
    ∃ r_, execNodeResetComm m s = .next r_ ∧ P r_ := by
  unfold execNodeResetComm
  refine ⟨_, rfl, ?_⟩
  repeat' first
    | with_reducible assumption | (with_reducible refine fst_stable (by assumption) ?_) | with_reducible apply State.begin_stable hK.toKeepCore
    | with_reducible apply State.guard_stable hK.toKeepCore | with_reducible apply noService_stable hK.toKeepCore
    | with_reducible apply State.svcNodeReset_stable hK | with_reducible apply State.smRun_stable hK | (intro _ _ _) | (intro _ _)
    | with_reducible apply foldl_stable | with_reducible apply foldl_fst_stable | with_reducible apply overN_stable | extract_lets
    | with_reducible apply ite_stable | with_reducible apply ite_fst_stable | split | fail_if_no_progress (with_reducible apply KeepSys.other hK)
    | (dsimp +zetaDelta only)
theorem execNodeResetDevice_stable {P : State → Prop} (hK : KeepSys P) (m : SmMsg) (s : State) (hsK : P s) :
    ∃ r_, execNodeResetDevice m s = .next r_ ∧ P r_ := by
  unfold execNodeResetDevice
  refine ⟨_, rfl, ?_⟩
  repeat' first
    | with_reducible assumption | (with_reducible refine fst_stable (by assumption) ?_) | with_reducible apply State.begin_stable hK.toKeepCore
    | with_reducible apply State.guard_stable hK.toKeepCore | with_reducible apply noService_stable hK.toKeepCore
    | with_reducible apply State.svcNodeReset_stable hK | with_reducible apply State.smRun_stable hK | (intro _ _ _) | (intro _ _)
    | with_reducible apply foldl_stable | with_reducible apply foldl_fst_stable | with_reducible apply overN_stable | extract_lets
    | with_reducible apply ite_stable | with_reducible apply ite_fst_stable | split | fail_if_no_progress (with_reducible apply KeepSys.other hK)
    | (dsimp +zetaDelta only)
theorem State.commReset_stable {P : State → Prop} (hK : KeepSys P) (s : State) (hsK : P s) : P (State.commReset s) := by
  unfold State.commReset
  repeat' first
    | with_reducible assumption | (with_reducible refine fst_stable (by assumption) ?_) | with_reducible apply State.modSm_stable hK
    | (intro _ _ _) | (intro _ _) | with_reducible apply foldl_stable | with_reducible apply foldl_fst_stable | with_reducible apply overN_stable
    | extract_lets | with_reducible apply ite_stable | with_reducible apply ite_fst_stable | split
    | fail_if_no_progress (with_reducible apply KeepSys.other hK) | (dsimp +zetaDelta only)
theorem execNodeResetAct_stable {P : State → Prop} (hK : Stable P) (s : State) (hsK : P s) : ∃ r_, execNodeResetAct s = .next r_ ∧ P r_ := by
  unfold execNodeResetAct
  refine ⟨_, rfl, ?_⟩
  repeat' first
    | with_reducible assumption | (with_reducible refine fst_stable (by assumption) ?_)
    | with_reducible apply State.useFreeN_stable hK.toKeep.toKeepCore | with_reducible apply State.begin_stable hK.toKeep.toKeepCore
    | with_reducible apply State.modSm_stable hK.toKeep.toKeepSys | with_reducible apply State.modPower_stable hK.toKeep.toKeepSys
    | with_reducible apply State.afterReset_stable hK | with_reducible apply State.tryStart_stable hK
    | with_reducible apply State.saveEnded_stable hK.toKeep.toKeepCore | with_reducible apply State.cutSave_stable hK
    | with_reducible apply State.nodeReset_stable hK.toKeep.toKeepSys | with_reducible apply State.commReset_stable hK.toKeep.toKeepSys | (intro _ _ _)
    | (intro _ _) | with_reducible apply foldl_stable | with_reducible apply foldl_fst_stable | with_reducible apply overN_stable | extract_lets
    | with_reducible apply ite_stable | with_reducible apply ite_fst_stable | split
    | fail_if_no_progress (with_reducible apply Keep.other hK.toKeep) | (dsimp +zetaDelta only)
theorem execFactoryTimeout_stable {P : State → Prop} (hK : KeepSys P) (s : State) (hsK : P s) : ∃ r_, execFactoryTimeout s = .next r_ ∧ P r_ := by
  unfold execFactoryTimeout
  refine ⟨_, rfl, ?_⟩
  repeat' first
    | with_reducible assumption | (with_reducible refine fst_stable (by assumption) ?_) | with_reducible apply State.begin_stable hK.toKeepCore
    | with_reducible apply State.guard_stable hK.toKeepCore | with_reducible apply State.halt_stable hK | (intro _ _ _) | (intro _ _)
    | with_reducible apply foldl_stable | with_reducible apply foldl_fst_stable | with_reducible apply overN_stable | extract_lets
    | with_reducible apply ite_stable | with_reducible apply ite_fst_stable | split | fail_if_no_progress (with_reducible apply KeepSys.other hK)
    | (dsimp +zetaDelta only)
theorem execThermalPoll_stable {P : State → Prop} (hK : KeepSys P) (temps : List (BitVec 16)) (t : Nat) (s : State) (hsK : P s) :
    ∃ r_, execThermalPoll temps t s = .next r_ ∧ P r_ := by
  unfold execThermalPoll
  refine ⟨_, rfl, ?_⟩
  repeat' first
    | with_reducible assumption | (with_reducible refine fst_stable (by assumption) ?_) | with_reducible apply State.bumpErr_stable hK.toKeepCore
    | with_reducible apply State.begin_stable hK.toKeepCore | with_reducible apply State.guard_stable hK.toKeepCore
    | with_reducible apply State.modSm_stable hK | with_reducible apply State.notify_stable hK | (intro _ _ _) | (intro _ _)
    | with_reducible apply foldl_stable | with_reducible apply foldl_fst_stable | with_reducible apply overN_stable | extract_lets
    | with_reducible apply ite_stable | with_reducible apply ite_fst_stable | split | fail_if_no_progress (with_reducible apply KeepSys.other hK)
    | (dsimp +zetaDelta only)

end Sys2Proof.Machine
end

