-- ==== Sys2Proof/Laws/Invariant.lean ====
section
/-! SUPPORT. Laws/Invariant.lean: the properties of states that every command keeps: the waiting commands, the bound of the keeper's event
queue, and the canonical form of the memories. -/
namespace Sys2Proof.Machine

theorem storeRising_filter {α : Type} {l : Store α} (f : Nat × α → Bool) : ∀ {m : Nat}, storeRising m l = true →
    storeRising m (l.filter f) = true := by
  induction l with
  | nil => intro m h; exact h
  | cons p l ih =>
    intro m h
    obtain ⟨k, v⟩ := p
    simp only [storeRising, Bool.and_eq_true, decide_eq_true_eq] at h
    simp only [List.filter_cons]
    split
    · simp only [storeRising, Bool.and_eq_true, decide_eq_true_eq]
      exact ⟨h.1, ih h.2⟩
    · exact storeRising_mono (Nat.le_succ_of_le h.1) (ih h.2)

theorem storeWf_filter {α : Type} [DecidableEq α] (d : Nat → α) {l : Store α} (f : Nat × α → Bool) (h : storeWf d l = true) :
    storeWf d (l.filter f) = true := by
  simp only [storeWf, Bool.and_eq_true] at h ⊢
  refine ⟨storeRising_filter f h.1, ?_⟩
  rw [List.all_eq_true] at h ⊢
  intro x hx
  exact h.2 x (List.mem_filter.mp hx).1

/-- No command touches the commands that wait. -/
theorem pending_stable (q : List Instr) : Stable (fun s => s.pending = q) where
  other := fun _ _ _ _ _ _ _ _ _ _ _ _ _ _ _ _ _ _ _ _ _ _ _ _ _ _ _ _ _ _ _ _ _ _ _ _ _ _ _ _ _ h => h
  push := fun _ _ h => h
  pop := fun h => h
  sramWrite := fun _ _ h => h
  dramWrite := fun _ _ h => h
  envWrite := fun _ _ h => h
  sramKeep := fun _ _ h => h
  dramKeep := fun _ _ h => h
  envKeep := fun _ _ h => h
  lost := fun hp _ _ _ _ h => hp.trans h

/-- The keeper's event queue never holds more than 256 events (R262). -/
theorem kevq_stable : Stable (fun s => s.kevq.length ≤ 256) where
  other := fun _ _ _ _ _ _ _ _ _ _ _ _ _ _ _ _ _ _ _ _ _ _ _ _ _ _ _ _ _ _ _ _ _ _ _ _ _ _ _ _ _ h => h
  push := fun w hl _ => by simp only [List.length_append, List.length_cons, List.length_nil]; omega
  pop := fun {s} h => by simp only [List.length_drop]; omega
  sramWrite := fun _ _ h => h
  dramWrite := fun _ _ h => h
  envWrite := fun _ _ h => h
  sramKeep := fun _ _ h => h
  dramKeep := fun _ _ h => h
  envKeep := fun _ _ h => h
  lost := fun _ hk _ _ _ h => by
    rcases hk with hk | hk
    · rw [hk]; exact h
    · rw [hk]; exact Nat.zero_le _

/-- The memories keep their canonical form. -/
theorem memory_stable : Stable (fun s => Memory.wf s = true) where
  other := fun _ _ _ _ _ _ _ _ _ _ _ _ _ _ _ _ _ _ _ _ _ _ _ _ _ _ _ _ _ _ _ _ _ _ _ _ _ _ _ _ _ h => h
  push := fun _ _ h => h
  pop := fun h => h
  sramWrite := fun {s} o b h => sramWrite_wf s o b h
  dramWrite := fun {s} o b h => dramWrite_wf s o b h
  envWrite := fun {s} o b h => envWrite_wf s o b h
  sramKeep := fun s f h => by
    simp only [Memory.wf, State.sramKeep, Bool.and_eq_true] at h ⊢
    exact ⟨⟨storeWf_filter _ _ h.1.1, h.1.2⟩, h.2⟩
  dramKeep := fun s f h => by
    simp only [Memory.wf, State.dramKeep, Bool.and_eq_true] at h ⊢
    exact ⟨⟨h.1.1, storeWf_filter _ _ h.1.2⟩, h.2⟩
  envKeep := fun s f h => by
    simp only [Memory.wf, State.envKeep, Bool.and_eq_true] at h ⊢
    exact ⟨h.1, storeWf_filter _ _ h.2⟩
  lost := fun {s t} _ _ hs hd he h => by
    simp only [Memory.wf, Bool.and_eq_true] at h ⊢
    refine ⟨⟨?_, ?_⟩, by rw [he]; exact h.2⟩
    · rcases hs with hs | hs
      · rw [hs]; exact h.1.1
      · rw [hs]; rfl
    · rcases hd with hd | hd
      · rw [hd]; exact h.1.2
      · rw [hd]; rfl

/-- What leaves the memories alone (`Keep`) keeps every byte of them. -/
theorem memory_keep (s : State) : Keep (fun t => s.sameMemory t) where
  other := fun _ _ _ _ _ _ _ _ _ _ _ _ _ _ _ _ _ _ _ _ _ _ _ _ _ _ _ _ _ _ _ _ _ _ _ _ _ _ _ _ _ h => h
  push := fun _ _ h => h
  pop := fun h => h

/-- What leaves the system's state alone (`KeepUnits`) keeps power, boot, calls, Smiser, the eNVM controller and the memory channels. -/
theorem system_keep (s : State) : KeepUnits (fun t => s.sameSystem t) where
  other := fun _ _ _ _ _ _ _ _ _ _ _ _ _ _ _ _ _ _ _ _ _ _ _ _ _ _ _ _ _ _ _ _ _ _ _ h => h
  push := fun _ _ h => h
  pop := fun h => h

/-- What leaves the units alone (`KeepSys`) keeps the pipes, queues, engines, panels and streams. -/
theorem units_keep (s : State) : KeepSys (fun t => s.sameUnits t) where
  other := fun _ _ _ _ _ _ _ _ _ _ _ _ _ _ _ _ _ _ _ _ _ _ _ _ _ _ _ _ _ _ h => h
  push := fun _ _ h => h
  pop := fun h => h

end Sys2Proof.Machine
end

