-- ==== Sys2Proof/Tests/Slice0.lean ====
section
/-! SUPPORT. Tests/Slice0.lean: for every statement with hypotheses, clause by clause, a concrete state and operands that meet them together
(`witness_<statement>`); ill-formed commands that `wellFormed` refuses; worked examples of the spec. -/
namespace Sys2Proof.Tests
set_option Elab.async false
open Sys2Proof Sys2Proof.Machine

/-- A running device: OPERATIONAL, the keeper UP, stalls 0, 1 and 15 ACTIVE, the service harts released. -/
def up : State :=
  ((((((State.reset.wr rDSTATE fDSTATE_STATE_WORD 4).wr rKSTAT fKSTAT_STATE kUP).modPower (fun x => { x with inReset := false, nreset := true })).wr
    (rSSTAT 0) fSSTAT_STATE 1).wr (rSSTAT 1) fSSTAT_STATE 1).wr (rSSTAT 15) fSSTAT_STATE 1).wr rSVC_STAT fSVC_STAT_RUNNING 15

/-- Did the step or command answer a next state? -/
def goesOn (o : Host.Outcome State Fault Refusal) : Bool :=
  match o with
  | .next _ => true
  | _ => false

theorem witness_InvariantKept_MemoryStaysCanonical : up.kevqOk ∧ up.pending.all (fun c => c.wellFormed) = true ∧ Memory.wf up = true ∧
    goesOn (step up) = true := by decide +kernel

theorem witness_Frames : storesBytes .eccInitDone = false ∧ touchesSystem .eccInitDone = false ∧ touchesUnits .eccInitDone = false ∧
    goesOn (exec .eccInitDone up) = true := by decide +kernel

theorem witness_StepRunsFront : ({ up with pending := [.eccInitDone, .recoveryTimeout] } : State).pending = .eccInitDone :: [.recoveryTimeout] ∧
    up.pending = [] ∧ up.sm.hbDue = false ∧ up.sm.tx = [] := by decide +kernel

theorem witness_ErrorCountersSaturate : (up.lv rEVT_LOST).toNat < 0xFFFE ∧
    (({ up with live := [(rEVT_LOST, 0xFFFE)] } : State).lv rEVT_LOST).toNat = 0xFFFE ∧
    0xFFFE < (({ up with live := [(rEVT_LOST, 0xFFFF)] } : State).lv rEVT_LOST).toNat ∧ rEVT_LOST ≠ rSVC_VIOL := by decide +kernel

/-- TMG_H0 of pipe 7: all its fields are class S; SUPPLY_CFG: all class B; TALLY_PERIOD has a range. -/
theorem witness_RefusedWritesKeepTheSetting :
    ((lookupReg (rTMG_H0 7)).any (fun x => !x.1.readOnly && !(x.1.fields.any (fun f => f.badRange 0)) &&
      x.1.fields.all (fun f => f.acc == .ro || f.cls == .s))) = true ∧
    ((lookupReg rSUPPLY_CFG).any (fun x => !x.1.readOnly && !(x.1.fields.any (fun f => f.badRange (resetWord rSUPPLY_CFG))) &&
      x.1.fields.all (fun f => f.acc == .ro || f.cls == .b))) = true ∧
    ((lookupReg (rTMG_H0 7)).any (fun x => x.1.fields.all (fun f => decide (¬(f.lo ≤ 31 ∧ 31 ≤ f.hi))))) = true ∧
    rSUPPLY_CFG ≠ rXREF_OFFSET (refBlk rSUPPLY_CFG) := by decide +kernel

theorem witness_WrittenFieldsTakeTheirBits :
    ((lookupReg (rTMG_H0 7)).any (fun x => x.1.fields.any (fun f => f.acc == .rw && !f.kept true false && decide (f.lo ≤ 16 ∧ 16 ≤ f.hi)) &&
      x.1.fields.all (fun f => f.acc != .w1c))) = true ∧
    ((lookupReg rTALLY_PERIOD).any (fun x => !x.1.readOnly && x.1.fields.any (fun f => f.badRange 0))) = true ∧
    ((lookupReg (rTMG_H0 7)).any (fun x => !x.1.readOnly && !(x.1.fields.any (fun f => f.badRange 0)) &&
      x.1.fields.any (fun f => f.acc != .ro))) = true := by decide +kernel

theorem witness_KeeperEventQueueRule : up.kevq.length < 256 ∧ 256 ≤ ({ up with kevq := List.replicate 256 0 } : State).kevq.length ∧
    (∃ s : State, s.mayRead .keeper rKEVT ∧ s.kevq = 1 :: [] ∧ s.kevtHeld = none) ∧
    (∃ s : State, s.mayRead .keeper rKEVT ∧ s.kevtHeld = some 1) ∧ up.mayRead .keeper rKEVT ∧ up.kevtHeld = none ∧ up.kevq = [] := by
  refine ⟨by decide +kernel, by decide +kernel, ⟨{ up with kevq := [1] }, ?_⟩, ⟨{ up with kevtHeld := some 1 }, ?_⟩, ?_⟩ <;> decide +kernel

theorem witness_HartViolationRule : 6 < 2 ^ fSVC_VREC_KIND.w ∧ up.kevq.length < 256 := by decide +kernel

theorem witness_StallViolationRule : (up.wr (rSSTAT 15) fSSTAT_VREC_VALID 1).on (rSSTAT 15) fSSTAT_VREC_VALID = true ∧
    up.on (rSSTAT 15) fSSTAT_VREC_VALID = false ∧ 7 < 8 ∧ 15 < 16 ∧ 255 < 256 ∧ up.stallState 15 = 1 := by decide +kernel

/-- Stall 15 FROZEN with its record read. -/
def upFrozen : State := ((up.wr (rSSTAT 15) fSSTAT_STATE 2).wr (rSSTAT 15) fSSTAT_VREC_VALID 1).wr (rSSTAT 15) fSSTAT_VREC_READ 1

theorem witness_ThawRule : up.mayWrite .keeper (rSCTRL 15) ∧ (15 : Fin 16) ≠ 0 ∧ up.stallState 15 ≠ 2 ∧ up.mayWrite .keeper (rSCTRL 0) ∧
    upFrozen.mayWrite .keeper (rSCTRL 15) ∧ upFrozen.stallState 15 = 2 ∧ upFrozen.on (rSSTAT 15) fSSTAT_VREC_READ = true := by decide +kernel

/-- Stall 15's function has MSI-X enabled; its source 90 goes to vector 0, which is not masked, and its IMASK bit is 1. -/
def upIrq : State :=
  ((up.setFnCfg (up.binding 15).1 (up.binding 15).2 { msixOn := true }).setRw (rIMASK 15 2) 0x04000000#64).setRw (rMSIX 15 3) 0

theorem witness_InterruptRule : up.stallState 14 ≠ 1 ∧ up.stallState 14 ≠ 2 ∧ up.hasSource 15 95 = false ∧
    bitOf ((up.setRw (rISTAT 15 2) 0x80000000#64).rw (rISTAT 15 (95 / 32))).toNat (95 % 32) = true ∧
    upIrq.stallState 15 = 1 ∧ upIrq.hasSource 15 90 = true ∧ bitOf (upIrq.rw (rISTAT 15 2)).toNat 26 = false ∧
    bitOf (upIrq.rw (rIMASK 15 2)).toNat 26 = true ∧ (upIrq.stallFn 15).msixOn = true ∧ (upIrq.stallFn 15).msixMask = false ∧
    bitOf (upIrq.rw (rMSIX 15 (4 * upIrq.ivec 15 90 + 3))).toNat 0 = false ∧ bitOf (up.rw (rIMASK 15 2)).toNat 31 = false := by decide +kernel

/-- The last byte of SRAM, in a state without uncorrectable words. -/
theorem witness_MemoryStoreRule : ([1] : List Byte) ≠ [] ∧ isSram (sramBase + sramSize - 1) = true ∧ (∀ k, State.reset.eccOf k ≠ 2) := by
  refine ⟨by decide, by decide, fun k => ?_⟩
  simp [State.eccOf, State.reset, storeGet]

theorem witness_RegisterWriteReachesRegister : usedAddr (rPCTRL 7) = true ∧ isWide (rPCTRL 7) = false ∧ up.mayWrite .keeper (rPCTRL 7) ∧
    isWide (rWC_ARG 3 5) = true ∧ up.mayWrite .keeper (rWC_ARG 3 5) := by decide +kernel

theorem witness_OtherAddressesAndCrossingPageAnswer : assignedAddr 0x10000 = false ∧ up.alive (.hart 3) = true ∧ up.alive .keeper = true ∧
    assignedAddr 0x7FFFFFFFF = false ∧ up.sectorBusy ((0x08FFFFFF - 0x08000000) / 0x10000) = false ∧
    up.mayWrite .keeper (rXCLR 0x17) ∧ up.mayWrite .keeper (rXCNT_CLR 0x17) := by decide +kernel

/-- Function 3 of endpoint 1 is bound to stall 15. -/
def upBound : State := ((up.wr (rSCFG 15) fSCFG_EP 1).wr (rSCFG 15) fSCFG_FUNC 3).modBoot (fun b => { b with cfg := List.replicate 7 8 })
/-- Grain 0 is the trusted world's; a bit of its second word is upset. -/
def upUpset : State := (up.setOwner true 0 ownTRUSTED).begin.upset [(0x1000008, false)]

theorem witness_CoreAndHostAccessesComplete : upUpset.alive .keeper = true ∧ isSram sramBase = true ∧ isSram (sramBase + (64 - 1)) = true ∧
    upUpset.coreKind false false sramBase = none ∧ upUpset.coreKind false false (sramBase + (64 - 1)) = none ∧
    (upUpset.memLoad sramBase 64).2 = some (List.replicate 64 0) ∧ upUpset.coreKind false true sramBase = none ∧
    upUpset.coreKind false true (sramBase + (1 - 1)) = none ∧ (upUpset.memStore sramBase [1]).2 = true ∧
    upBound.boundStall 1 3 = some 15 ∧ upBound.running = true ∧ upBound.power.inReset = false ∧ upBound.islandOn 28 = true ∧ 0xFFFC < 0x10000 ∧
    0 < upBound.bar2Size 1 ∧ upBound.stallState 15 = 1 ∧ (up.wr rDSTATE fDSTATE_STATE_WORD 2).dstate = 2 ∧
    (up.wr rDSTATE fDSTATE_STATE_WORD 2).islandOn 28 = true ∧ (up.wr rDSTATE fDSTATE_STATE_WORD 2).power.inReset = false := by decide +kernel

def upTally : State := { up.wr rTALLY_STAT fTALLY_STAT_BUSY 1 with tally := { waiting := 3 } }
def upTally30 : State := { upTally with tally := { waiting := 2 ^ 30 } }
def upAsked : State := { up with tally := { req := some .frame } }

theorem witness_TallyCommandsComplete : up.mayWrite .keeper rTALLY_CTRL ∧ up.mayWrite .keeper rTALLY_PERIOD ∧
    regBadRange rTALLY_PERIOD (wide 10) = false ∧ ({ up with tally := { timer := some 10 } } : State).tally.timer.isSome = true ∧
    ({ up with tally := { timer := some 10 } } : State).dstate ≠ 6 ∧
    upAsked.tally.req = some .frame ∧ upAsked.tallyBusy = false ∧ upAsked.dstate ≠ 6 ∧ upTally.tallyBusy = true ∧
    bitOf upTally.tally.waiting 0 = true ∧ setBitN upTally.tally.waiting 0 false ≠ 0 ∧ upTally.tally.waiting ≠ 0 ∧
    upTally30.tallyBusy = true ∧ setBitN upTally30.tally.waiting 30 false = 0 ∧ bitOf upTally30.tally.waiting 30 = true := by decide +kernel

theorem witness_TallyRequestRule : up.tallyBusy = false ∧ up.tally.req = none ∧ upTally.tallyBusy = true ∧ upAsked.tallyBusy = false ∧
    upAsked.tally.req = some .frame ∧ TallySrc.frame ≠ .save := by decide +kernel

/-- Pipe 7 in state `st` with the parts beyond its registers as `f` makes them. -/
def upPipe (st : Nat) (f : PipeSt → PipeSt) : State := (up.wr (rPSTATE 7) fPSTATE_STATE st).modPipe 7 f

theorem witness_PipeStartStopComplete : up.mayWrite .keeper (rPCTRL 7) ∧ up.pst 7 = stSTOPPED ∧ (up.pipe 7).stop = .none ∧ 3 ≤ up.dstate ∧
    (up.tmg 7).inLimits (up.pipe 7).guard = true ∧
    (up.tmg 7).fits (up.rd (rLINK_CFG 7) fLINK_CFG_MAX_RATE) (up.rd (rLINK_CFG 7) fLINK_CFG_MAX_LANES) = true ∧
    (upPipe stRUNNING id).pst 7 = stRUNNING ∧ ((upPipe stRUNNING id).pipe 7).stop = .none ∧
    (upPipe stFAULT id).pst 7 = stFAULT ∧ ((upPipe stFAULT id).pipe 7).stop = .none ∧
    ((upPipe stRUNNING (fun x => { x with stop := .idle })).pipe 7).stop = .idle := by decide +kernel

/-- Pipe 7 RUNNING on a link of the highest rate with 4 lanes. -/
def upLinked : State := ((upPipe stRUNNING id).wr (rLINK_STAT 7) fLINK_STAT_RATE 3).wr (rLINK_STAT 7) fLINK_STAT_LANES 2
def upGo : State := upPipe stRUNNING (fun x => { x with scanning := true, vblank := true, goTaken := true })
def upGap : State := upPipe stRUNNING (fun x => { x with gap := true, settled := false })

theorem witness_TimingChangeCommandsComplete : up.mayWrite .keeper (rTNX_CTRL 7) ∧ regBadRange (rTNX_CTRL 7) (wBit (wide 1) fTNX_CTRL_GO) = false ∧
    upLinked.pst 7 = stRUNNING ∧ (upLinked.pipe 7).stop ≠ .idle ∧ upLinked.on (rTSTAT 7) fTSTAT_PENDING = false ∧
    upLinked.on (rTNX_CTRL 7) fTNX_CTRL_NEW_LINK = false ∧ (upLinked.tnx 7).inLimits (upLinked.pipe 7).guard = true ∧
    (upLinked.tnx 7).fits (upLinked.rd (rLINK_STAT 7) fLINK_STAT_RATE) (upLinked.rd (rLINK_STAT 7) fLINK_STAT_LANES) = true ∧
    (upGo.pipe 7).scanning = true ∧ (upGo.pipe 7).vblank = true ∧ (upGo.pipe 7).goTaken = true ∧
    (upGap.pipe 7).gap = true ∧ (upGap.pipe 7).settled = false ∧ upLinked.works = true ∧ upLinked.pst 7 ≠ stSTOPPED := by decide +kernel

/-- Pipe 7 trains for a START, with AUTO_FALLBACK as `fb` says and a timing that fits lower settings too. -/
def upTrain (fb : Nat) : State :=
  ((upPipe stTRAINING (fun x => { x with reason := .start })).wr (rLINK_CFG 7) fLINK_CFG_AUTO_FALLBACK fb).wr (rTMG_CLK 7) fTMG_CLK_PCLK_KHZ 100000
def upLane : State := upPipe stRUNNING (fun x => { x with laneRead := true })

theorem witness_LinkTrainingCommandsComplete : (upTrain 0).trainingNow 7 = true ∧ (upTrain 0).curSetting 7 3 2 = some (3, 2) ∧
    (upTrain 0).on (rLINK_CFG 7) fLINK_CFG_AUTO_FALLBACK = false ∧
    (upTrain 1).trainingNow 7 = true ∧ ((upTrain 1).pipe 7).reason = .start ∧ (upTrain 1).on (rLINK_CFG 7) fLINK_CFG_AUTO_FALLBACK = true ∧
    (upTrain 1).curSetting 7 3 2 = some (3, 2) ∧
    (firstFitting ((upTrain 1).tmg 7) (lowerSettings ((upTrain 1).linkMax 7 3 2).1 3 2).tail).isSome = true ∧
    (upPipe stFAULT id).pst 7 = stFAULT ∧ (upPipe stFAULT id).rd (rPSTATE 7) fPSTATE_FAULT_CAUSE ≠ 1 ∧ (upPipe stFAULT id).works = true ∧
    (upLane.pipe 7).laneRead = true ∧ upLane.pst 7 = stRUNNING ∧ (upLane.pipe 7).stop ≠ .idle ∧
    ((upPipe stTRAINING (fun x => { x with laneRead := true })).pipe 7).laneRead = true ∧
    (upPipe stTRAINING (fun x => { x with laneRead := true })).pst 7 ≠ stRUNNING ∧
    (upPipe stTRAINING (fun x => { x with laneRead := true })).pst 7 ≠ stBLANKED := by decide +kernel

def upHpd (low : Bool) : State := upPipe stRUNNING (fun x => { x with hpd := true, hpdLow := low })

theorem witness_HpdCommandsComplete : ((upHpd false).pipe 7).hpd = true ∧ ((upHpd false).pipe 7).hpdLow = false ∧ (up.pipe 7).hpd = false ∧
    (upHpd false).hpdWatched 7 = true ∧ up.hpdWatched 7 = true ∧ (upHpd true).hpdWatched 7 = true ∧
    (((upHpd false).wr (rISL_STAT 10) fISL_STAT_PWR 1).pipe 7).hpd = true ∧ ((upHpd false).wr (rISL_STAT 10) fISL_STAT_PWR 1).hpdWatched 7 = false ∧
    ((upHpd true).pipe 7).hpd = true ∧ ((upHpd true).pipe 7).hpdLow = true ∧ (upHpd true).hpdIgnored 7 = false ∧ (upHpd true).works = true ∧
    249 < 250 ∧ 250 ≤ 250 ∧ 2000 ≤ 2000 ∧ 2000 < 2001 := by decide +kernel

def upAux (tries cmd : Nat) : State := (upPipe stRUNNING (fun x => { x with aux := .active, auxTries := tries })).wr (rAUX_CMD 7) fAUX_CMD_CMD cmd

theorem witness_AuxCommandsComplete : up.mayWrite .keeper (rAUX_CMD 7) ∧
    ([0, 1, 4, 5, 8, 9] : List Nat).contains (getFld (wide 0) fAUX_CMD_CMD) = true ∧ up.on (rAUX_STAT 7) fAUX_STAT_BUSY = false ∧
    ((upAux 6 9).pipe 7).aux = .active ∧ ((upAux 6 9).pipe 7).auxTries < 7 ∧ ((upAux 7 9).pipe 7).aux = .active ∧
    7 ≤ ((upAux 7 9).pipe 7).auxTries ∧ (upAux 6 9).auxIsRead 7 = true ∧ ((upAux 6 8).pipe 7).aux = .active ∧ (upAux 6 8).auxIsRead 7 = false ∧
    (1 : Fin 3).val ≠ 2 := by decide +kernel

def upBlanked : State := upPipe stBLANKED (fun x => { x with present := true })
def upSync : State := (upPipe stRUNNING (fun x => { x with scanning := true, base := some 0 })).fwr (rSYNC_SRC 7) fSYNC_SRC_SRC 4

theorem witness_SyncCommandsComplete : up.mayWrite .keeper (rSYNC_SRC 7) ∧ getFld (wide 4) fSYNC_SRC_SRC ≤ 4 ∧ up.syncOffsetsOk 7 (wide 4) = true ∧
    upBlanked.mayWrite .keeper (rSYNC_CTRL 7) ∧ upBlanked.pst 7 = stBLANKED ∧ (upBlanked.pipe 7).present = true ∧ (upBlanked.pipe 7).offEdge = false ∧
    true ≠ bitOf (up.rd rSYNC_IN_CFG fSYNC_IN_CFG_POL) 3 ∧ false = bitOf (up.rd rSYNC_IN_CFG fSYNC_IN_CFG_POL) 3 ∧
    (upSync.pipe 7).scanning = true ∧ upSync.syncSrcOf 7 ≠ 0 ∧
    (upSync.pipe 7).base.isSome = true := by decide +kernel

def upScan (f : PipeSt → PipeSt) : State := upPipe stRUNNING (fun x => f { x with scanning := true })

/-- Pipe 7 waits for the last write of frame 1. -/
def upWbLast : State := upPipe stRUNNING (fun x => { x with wbLast := [(1, true)] })

theorem witness_FrameCommandsComplete :
    ((upScan (fun x => { x with vblank := true })).pipe 7).scanning = true ∧ ((upScan (fun x => { x with vblank := true })).pipe 7).vblank = true ∧
    ((upScan (fun x => { x with vblank := true })).pipe 7).stop ≠ .atBoundary ∧ ((upScan (fun x => { x with vblank := true })).pipe 7).goTaken = false ∧
    ((upScan (fun x => { x with vblank := true, stop := .atBoundary })).pipe 7).stop = .atBoundary ∧
    ((upScan (fun x => { x with vblank := true, stop := .atBoundary })).pipe 7).vblank = true ∧
    ((upScan (fun x => { x with line := 2248 })).pipe 7).line + 1 < ((upScan (fun x => { x with line := 2248 })).tmg 7).vtotal ∧
    ((upScan (fun x => { x with line := 2158 })).pipe 7).latched = false ∧
    (up.tmg 7).va - ((upScan (fun x => { x with line := 2158 })).pipe 7).guard ≤ ((upScan (fun x => { x with line := 2158 })).pipe 7).line ∧
    ((upScan (fun x => { x with line := 2160, latched := true })).pipe 7).latched = true ∧
    ((upScan (fun x => { x with line := 2160, latched := true })).pipe 7).vblank = false ∧
    (up.tmg 7).va ≤ ((upScan (fun x => { x with line := 2160, latched := true })).pipe 7).line ∧
    ((if (upWbLast.tmg 7).va ≤ (upWbLast.pipe 7).line + 1 then upWbLast.begin.lineEnd 7 else upWbLast.begin).pipe 7).wbLast = (1, true) :: [] := by decide +kernel

theorem witness_FetchCommandsComplete : up.mayWrite .keeper (rDGM0 7 1023) ∧ up.pst 7 = stSTOPPED ∧ up.mayWrite .keeper (rDGM1 7 1023) ∧
    up.bankUsed 7 fCCFG_DGM_BANK 1 = false ∧
    ((up.wr (rCCFG 7) fCCFG_RGM_BANK 1).fwr (rCCFG 7) fCCFG_RGM_BANK 1).mayWrite .keeper (rRGM0 7 0) ∧
    (((up.wr (rCCFG 7) fCCFG_RGM_BANK 1).fwr (rCCFG 7) fCCFG_RGM_BANK 1).bankUsed 7 fCCFG_RGM_BANK 0) = false ∧ up.mayWrite .keeper (rRGM1 7 1023) ∧
    up.bankUsed 7 fCCFG_RGM_BANK 1 = false ∧ ((upScan id).pipe 7).scanning = true ∧ up.mayWrite .keeper (rAFCLR 7) ∧
    bitOf (getFld (wide 1) fAFCLR_CLR) 0 = true ∧ bitOf (getFld (wide 2) fAFCLR_CLR) 0 = false ∧ bitOf (getFld (wide 2) fAFCLR_CLR) 1 = true ∧
    bitOf (getFld (wide 1) fAFCLR_CLR) 1 = false := by decide +kernel

/-- Layer 7 of pipe 7 is named by an enabled pitch of stall 15 in force. -/
def upHeld : State := ((up.fwr (rPCFG 7 15) fPCFG_EN 1).fwr (rPCFG 7 15) fPCFG_STALL 15).fwr (rPCFG 7 15) fPCFG_LAYERS 128
/-- No block is the trusted world's but its own three. -/
def upOpen : State := (List.range 8).foldl (fun s k => s.setRw (rWM_BLK k) 0) up
def upLate : State := upPipe stRUNNING (fun x => { x with latched := true })
def upWaits : State := up.modLay 7 7 (fun l => { l with pending := true })

theorem witness_FenceAndLayerCommitCommandsComplete : upOpen.mayWrite (.stall 15) (rFVAL (64 * 15 + 63)) ∧ upOpen.mayWrite (.stall 15) (rFADD (64 * 15 + 63)) ∧
    up.mayWrite .keeper (rCOMMIT 7 7) ∧ up.layerHeld 7 7 = false ∧ up.lateNow 7 = false ∧
    upLate.mayWrite .keeper (rCOMMIT 7 7) ∧ upLate.layerHeld 7 7 = false ∧ upLate.lateNow 7 = true ∧
    upHeld.layerHeld 7 7 = true ∧ upHeld.mayWrite .keeper (rCOMMIT 7 7) ∧ upWaits.mayWrite .keeper (rCOMMIT 7 7) ∧
    (upWaits.lay 7 7).pending = true ∧ (up.lay 7 7).pending = false ∧ up.mayWrite .keeper (rKREL 7) := by decide +kernel

/-- Stall 15 holds the colour grant of pipe 7. -/
def upColour : State := upOpen.wr (rGPIPE 15) fGPIPE_CLR 128
def upGroups : State := upPipe stRUNNING (fun x => { x with pipePend := true, lockPend := true })

theorem witness_GroupCommitCommandsComplete : up.mayWrite .keeper (rPCOMMIT 7) ∧ colourOnly .keeper = false ∧ up.mayWrite .keeper (rACOMMIT 7) ∧
    upGroups.mayWrite .keeper (rPCOMMIT 7) ∧ (upGroups.pipe 7).pipePend = true ∧ (upGroups.pipe 7).lockPend = true ∧
    upColour.mayWrite (.stall 15) (rPCOMMIT 7) ∧ colourOnly (.stall 15) = true ∧ up.lateNow 7 = false ∧ upLate.lateNow 7 = true := by decide +kernel

/-- A PCFG word that gives a pitch to stall 15. -/
def pcfg15 : W32 := ((wBit (putFld 0 fPCFG_STALL 15) fPCFG_EN)).setWidth 32
def upSealed : State := up.wr (rSCFG 15) fSCFG_SEALED 1
def upPitch : State := (upScan (fun x => { x with line := 4000 })).setSrw (rPCFG 7 15) (wide pcfg15)

theorem witness_PitchCommandsComplete : upSealed.mayWrite .keeper (rPCFG 7 15) ∧ pcfgOwner (wide pcfg15) = some 15 ∧ upSealed.stallState 15 ≠ 0 ∧
    upSealed.sealed 15 = true ∧ up.mayWrite .keeper (rPCFG 7 15) ∧ pcfgOwner (wide 0) = none ∧ up.mayWrite .keeper (rPITCH_CTRL 7) ∧
    (up.setRw (rPCFG 7 15) (wide pcfg15)).mayWrite (.stall 15) (rEXP_CTL 15 (16 * 7 + 15)) ∧ up.mayWrite .keeper (rPEXP_CTL 7 15) ∧
    pcfgOwner (up.rw (rPCFG 7 15)) = none ∧ (upPitch.pipe 7).scanning = true ∧ upPitch.pitchOn .scan 7 15 = true ∧
    (upPitch.pitch 7 15).done = false ∧ upPitch.pitchLastLine 7 15 ≤ (upPitch.pipe 7).line := by decide +kernel

def ring1 : State := up.wr rLG_CFG fLG_CFG_RING_GRAINS 1
/-- The ledger is enabled, and stall 15 is sealed. -/
def upLedger : State := upSealed.wr rLG_CTRL fLG_CTRL_EN 1

theorem witness_LedgerCommandsComplete : up.mayWrite .keeper rLG_CTRL ∧ up.ledEnabled = false ∧
    (up.modLed (fun x => { x with queue := [{ typ := 2 }] })).led.queue = { typ := 2 } :: [] ∧ up.mayWrite .keeper rLG_SEALCFG ∧
    regBadRange rLG_SEALCFG (wide 1) = false ∧ (up.modLed (fun x => { x with period := true })).led.period = true ∧
    (up.modLed (fun x => { x with period := true })).dstate < 6 ∧ up.dstate < 6 ∧
    ring1.mayWrite .keeper rLG_ACK ∧ getFld (wide 0) fLG_ACK_INDEX < ring1.ringSize ∧
    ring1.ringDist ring1.ringAck (getFld (wide 0) fLG_ACK_INDEX) ≤ ring1.ringDist ring1.ringAck ring1.ringWr ∧ up.mayWrite .keeper rLG_CFG ∧
    up.led.queue = [] ∧ getFld (wide 0x2FF001#32) fLG_CFG_RING_BASE + getFld (wide 0x2FF001#32) fLG_CFG_RING_GRAINS = 768 ∧
    regBadRange rLG_CFG (wide 0x2FF001#32) = false ∧ up.ledFull = false ∧ up.on rLG_STAT fLG_STAT_SEAL_WAIT = false ∧ upLedger.mayWrite (.stall 15) (rLSUB_CTRL 15) ∧
    getFld (wide 0x80000000#32) fLSUB_CTRL_GO = 1 ∧ upLedger.on (rLSUB_STAT 15) fLSUB_STAT_BUSY = false ∧ upLedger.ledEnabled = true ∧
    upLedger.dstate < 6 := by decide +kernel

/-- Queue 63 belongs to stall 15 and runs; its ring lies in host memory and holds one descriptor. -/
def upQueue : State :=
  ((((up.setRw (rGQ_HI 15) 0x80000000#64).wr (rQBASE_HI 63) fQBASE_HI_ADDR (2 ^ 31)).wr (rQTAIL 63) fQTAIL_TAIL 1).fwr (rGADM 14) fGADM_ADMIT_MAX 1).modQueue 63
    (fun x => { x with run := .running })

/-- A descriptor that does nothing. -/
def nopDesc : List Byte := List.replicate 64 0

/-- Its one item was admitted. -/
def upItem : State := upQueue.modQueue 63 (fun x => { x with items := [{ seq := 0, addr := dramBase, desc := some nopDesc }] })

/-- A work item of the raster engine, and a unit of it on cluster 11 and on binning slot 1. -/
def workItem (compute : Bool) : WorkItem := { st := 15, q := 63, seq := 0, compute := compute, work := 0 }
def workUnit (kind tile : Nat) : GUnit := { q := 63, seq := 0, kind := kind, spare := false, tile := tile }
def upWork (kind tile : Nat) : State :=
  ((upQueue.setGpu (fun g => { g with items := [workItem (kind == 2)], floorQ := [(63, 0)] })).setUnit 11 (some (workUnit kind tile))).setUnit 13
    (some (workUnit kind tile))

theorem witness_RasterCommandsComplete : up.mayWrite .keeper rRCTRL ∧ up.rstate = rsSTOPPED ∧ 3 ≤ up.dstate ∧ (up.wr rRSTAT fRSTAT_STATE rsRUNNING).rstate = rsRUNNING ∧
    (up.wr rRSTAT fRSTAT_STATE rsRUNNING).mayWrite .keeper rRCTRL ∧ (upWork 1 0).floorNext [] (upWork 1 0).gpu.floorQ = some (workItem false) ∧
    (upWork 2 0).unit 11 = some (workUnit 2 0) ∧ (upWork 2 0).gpuItem 63 0 = some (workItem true) ∧
    (upWork 1 0).unit 13 = some (workUnit 1 0) ∧ (workUnit 1 0).kind ≠ 2 ∧ (workUnit 1 0).long = false := by decide +kernel

theorem witness_RasterUnitsComplete : (upWork 0 1).unit (12 + 1) = some (workUnit 0 1) ∧ (upWork 0 1).gpuItem 63 0 = some (workItem false) ∧
    (upWork 0 1).gpuFrozen 15 = false ∧ (workUnit 0 1).todo = [] ∧ (workUnit 0 1).ending = false ∧
    (((upWork 0 0).setUnit 11 (some { workUnit 0 0 with todo := [], ending := true })).runUnit 11).gpuFrozen 15 = false ∧
    (upWork 0 0).unit (12 + 1) = some (workUnit 0 0) ∧ (workUnit 0 0).tile ≠ 1 ∧ (upWork 0 0).gpuFrozen 15 = false ∧
    (upWork 0 0).gpuItem 63 0 = some (workItem false) ∧ ((upWork 0 0).unitsOf 63 0).find? (fun k => decide (k < 12)) = some 11 ∧
    (upWork 0 0).unit 11 = some (workUnit 0 0) ∧ (upWork 1 0).unit 11 = some (workUnit 1 0) ∧ (upWork 1 0).gpuItem 63 0 = some (workItem false) ∧
    (upWork 2 0).unit 11 = some (workUnit 2 0) ∧ (upWork 2 0).gpuItem 63 0 = some (workItem true) ∧
    up.power.inReset = false ∧ 2 ≤ up.dstate ∧ (up.wr (rTTL 7) fTTL_WINDOW 1).on (rTTL 7) fTTL_WINDOW = true ∧
    bitOf ({ up with gpu := { win := 128 } } : State).gpu.win 7 = true := by decide +kernel

def upChain : State := upQueue.wr (rQCFG 63) fQCFG_MODE 1

theorem witness_DoorbellRule : upQueue.mayWrite (.stall 15) (rQDB 15 63) ∧ upQueue.qchain 63 = false ∧ since32 1 (upQueue.qtail 63) < 2 ^ 31 ∧
    since32 1 (upQueue.qdone 63) ≤ upQueue.qsize 63 ∧ 2 ^ 31 ≤ since32 0 (upQueue.qtail 63) ∧ upQueue.qsize 63 < since32 (2 ^ 31) (upQueue.qdone 63) ∧
    upChain.qchain 63 = true ∧ upChain.mayWrite (.stall 15) (rQDB 15 63) := by decide +kernel

def upStopping : State := up.modQueue 63 (fun x => { x with run := .stopping })

theorem witness_QueueControlCommandsComplete : up.mayWrite .keeper (rQCFG 63) ∧ up.mayWrite .keeper (rQBASE_HI 63) ∧ up.mayWrite .keeper (rQBASE_LO 63) ∧
    (upStopping.queue 63).run = .stopping ∧ (upStopping.queue 63).items = [] ∧ upStopping.queueOwner 63 = none := by decide +kernel

def upLinking : State := (upQueue.setQueuePos 63 (2 ^ 63)).modQueue 63 (fun x => { x with linking := true })

theorem witness_QueueItemCommandsComplete : upQueue.running = true ∧ upQueue.stallState 15 = 1 ∧ upQueue.outstanding 15 < upQueue.admitMax 15 ∧
    upQueue.admitNext 15 = some 63 ∧ upQueue.qchain 63 = false ∧
    (upQueue.begin.queueRead 15 63 ((upQueue.queueBase 63 + 64 * (upQueue.qhead 63 % upQueue.qsize 63)) % 2 ^ 64) 64 (some nopDesc)).2 =
      some (some nopDesc) ∧
    upLinking.queueOwner 63 = some 15 ∧ (upLinking.queue 63).linking = true ∧ upLinking.masterFrozen 15 1 63 = false ∧ upLinking.stallState 15 ≠ 4 ∧
    (64 : W64).toNat % 2 = 0 ∧ (1 : W64).toNat % 2 = 1 ∧
    (upLinking.begin.queueRead 15 63 ((upLinking.queuePos 63 + 0x38) % 2 ^ 64) 8 (some (bytesLE 8 (64 : W64).toNat))).2 = some (some (bytesLE 8 64)) ∧
    (upLinking.begin.queueRead 15 63 ((upLinking.queuePos 63 + 0x38) % 2 ^ 64) 8 (some (bytesLE 8 (1 : W64).toNat))).2 = some (some (bytesLE 8 1)) ∧
    upItem.queueOwner 63 = some 15 ∧ upItem.stallState 15 = 1 ∧ upItem.masterFrozen 15 1 63 = false ∧
    (upItem.queue 63).items.find? (fun y => !y.started) = some { seq := 0, addr := dramBase, desc := some nopDesc } ∧
    upItem.queueDescOk 15 63 nopDesc = true ∧ qFlag nopDesc 0 = false ∧ upItem.prevDone 63 0 = true := by decide +kernel

/-- Queue 0 belongs to stall 0, whose DRAM addresses need no table; its item has ended. -/
def upEnded : State :=
  (((((up.setRw (rGQ_LO 0) 1).wr (rMC_STAT 0) fMC_STAT_STATE mcRUNNING).wr rMAP_STAT fMAP_STAT_BUILT 1).wr rMAP_STAT fMAP_STAT_SURV 1).setOwner false 0 0).modQueue 0
    (fun x => { x with run := .running, items := [{ seq := 0, addr := 0, desc := some nopDesc, started := true, result := some 0 }] })

theorem witness_WorkItemEnd : upEnded.queueOwner 0 = some 0 ∧ upEnded.masterFrozen 0 1 0 = false ∧
    (upEnded.queue 0).items = { seq := 0, addr := 0, desc := some nopDesc, started := true, result := some 0 } :: [] ∧
    (match (upEnded.begin.gateCheck 0 0x30 true true).2 with | .phys _ => true | _ => false) = true ∧
    (match upEnded.begin.gateCheck 0 0x30 true true with
      | (s0, .phys p) => (s0.memStore p (bytesLE 4 (2 ^ 31) ++ bytesLE 4 0)).1.masterFrozen 0 1 0
      | _ => true) = false := by
  decide +kernel

/-- Stall 14, in FREE, may be created. -/
def upFree14 : State :=
  ((((up.wr (rGADM 13) fGADM_NVEC 1).wr (rGADM 13) fGADM_ADMIT_MAX 1).wr (rSCFG 14) fSCFG_FUNC 15).setOwner false 0 0)
def inStall (k : Nat) : State := up.wr (rSSTAT 15) fSSTAT_STATE k
def upSquashed : State := { inStall 3 with squashed := 2 ^ 15 }

theorem witness_StallCommandsComplete : upFree14.mayWrite .keeper (rSCTRL 14) ∧ upFree14.createCheck 14 = 0 ∧
    up.mayWrite .keeper (rSCTRL 14) ∧ 1 < up.createCheck 14 ∧
    (inStall 4).mayWrite .keeper (rSCTRL 15) ∧ (inStall 4).stallState 15 = 4 ∧ 4 ≤ (inStall 4).dstate ∧ 3 ≤ up.dstate ∧
    upOpen.mayWrite .mgr (rSCTRL 15) ∧ Who.mgr ≠ .keeper ∧ upOpen.stallState 15 = 1 ∧ up.mayWrite .keeper (rSCTRL 15) ∧ up.stallState 15 = 1 ∧
    upFrozen.mayWrite .keeper (rSCTRL 15) ∧ upFrozen.stallState 15 = 2 ∧ upFrozen.on (rSSTAT 15) fSSTAT_VREC_READ = true ∧
    upBound.running = true ∧ upBound.boundStall 1 3 = some 15 ∧
    (inStall 3).running = true ∧ (inStall 3).stallState 15 = 3 ∧ bitOf (inStall 3).squashed 15 = false ∧
    upSquashed.running = true ∧ upSquashed.stallState 15 = 3 ∧ bitOf upSquashed.squashed 15 = true ∧ upSquashed.stallBusy 15 = false ∧
    up.works = true ∧ up.stallState 15 ≠ 5 ∧ (16 : Fin 17).val = 16 ∧ (inStall 5).works = true ∧ (inStall 5).stallState 15 = 5 := by decide +kernel

/-- Grains 672 to 703 are not the trusted world's. -/
def upMarket : State := up.setRw (rWM_GRN 21) 0

theorem witness_TranslationAndTableCommandsComplete : up.mayWrite .keeper rTINV ∧ up.on rTINV_STAT fTINV_STAT_BUSY = false ∧
    191 < 192 ∧ up.mayWrite .keeper (rOWN_SRAM 191) ∧ up.mayWrite .keeper (rOWN_DRAM 4095) ∧ up.mayWrite .keeper (rSCFG 14) ∧
    up.stallState 14 = 0 ∧ whoTrusted .keeper = true ∧ (inStall 4).mayWrite .keeper (rSCFG 15) ∧ (inStall 4).stallState 15 = 4 ∧
    (getFld (wide 0x1F0000#32) fSCFG_EP, getFld (wide 0x1F0000#32) fSCFG_FUNC) ≠ ((inStall 4).mgrEp, 0) ∧
    (∀ t < 16, t ≠ 15 → (inStall 4).stallState t ≠ 0 →
      (inStall 4).binding t ≠ (getFld (wide 0x1F0000#32) fSCFG_EP, getFld (wide 0x1F0000#32) fSCFG_FUNC)) ∧
    getFld (wide 0) fSCFG_SEALED = (inStall 4).rd (rSCFG 15) fSCFG_SEALED ∧ up.mayWrite .keeper (rSCFG 15) ∧ up.stallState 15 ≠ 0 ∧
    up.stallState 15 ≠ 4 ∧ getFld (wBit 0 fSCFG_SEALED) fSCFG_SEALED ≠ up.rd (rSCFG 15) fSCFG_SEALED := by decide +kernel

theorem witness_OwnerTableRule : upMarket.ownSram 700 = ownFREE ∧ up.ownDram 16383 = ownFREE ∧ (upMarket.setOwner true 700 15).ownSram 700 = 15 ∧
    (upMarket.setOwner true 700 ownUNIT).ownSram 700 = ownUNIT ∧ (up.setOwner false 16383 15).ownDram 16383 = 15 ∧ 16383 < 16384 ∧
    ownFREE ≠ 15 := by decide +kernel

theorem witness_GuestInterfaceCommandsComplete : up.mayWrite (.stall 15) (rIMASK 15 2) ∧ up.mayWrite (.stall 15) (rMB_CTRL 15) ∧
    up.on (rMB_STAT 15) fMB_STAT_BUSY = false ∧ (1024 : BitVec 11).toNat ≤ 1024 ∧ (1024 : BitVec 11) ≠ 0 ∧
    (up.wr (rMB_STAT 15) fMB_STAT_BUSY 1).on (rMB_STAT 15) fMB_STAT_BUSY = true ∧ (up.wr (rMB_STAT 15) fMB_STAT_BUSY 1).running = true := by
  decide +kernel

/-- Channel 7 of engine 3 works directly for world T; its descriptors lie in SRAM grain 0, owned by world T. -/
def chan31 (f : DmCh → DmCh) : State :=
  ((((up.setOwner true 0 ownTRUSTED).wr (rCH_CFG 3 7) fCH_CFG_EN 1).wr (rCH_CFG 3 7) fCH_CFG_MODE 1).modEng 3 (fun x => { x with holder := some 7 })).modCh 31
    (fun x => f { x with cur := some { owner := dmDirectT, addr := sramBase }, pos := sramBase })
def chanOff : State := (chan31 id).wr (rCH_CFG 3 7) fCH_CFG_EN 0
def chanParked : State := chan31 (fun x => { x with phase := .parked })
def chanFrozen : State := (chan31 (fun x => { x with frozen := true })).wr (rCH_FAULT_KIND 3 7) fCH_FAULT_KIND_VREAD 1

theorem witness_MoverChannelCommandsComplete : up.mayWrite .keeper (rCH_CFG 3 7) ∧ chanOff.chOn (8 * 3 + 7) = false ∧
    (chanOff.ch 31).cur.isSome = true ∧ chanParked.mayWrite .keeper (rCH_DB 3 7) ∧ chanParked.chDirect 31 = true ∧ chanParked.chOn 31 = true ∧
    (chanParked.ch 31).phase = .parked ∧ chanFrozen.mayWrite .keeper (rDM_THAW 3) ∧
    (∀ k, k < 8 → bitOf (0x80 : BitVec 8).toNat k = true → (chanFrozen.ch (8 * 3 + k)).frozen = true ∧
      chanFrozen.on (rCH_FAULT_KIND 3 k) fCH_FAULT_KIND_VREAD = true) ∧
    up.mayWrite .keeper (rCV_CTRL (15 / 8) (15 % 8)) ∧ up.cvHeld 15 = false ∧ (up.holdCv 15 true 15).mayWrite .keeper (rCV_CTRL (15 / 8) (15 % 8)) ∧
    (up.holdCv 15 true 15).cvHeld 15 = true := by decide +kernel

/-- A descriptor that moves one element of one byte. -/
def moveDesc : List Byte := bytesLE 8 (2 ^ 32) ++ bytesLE 8 sramBase ++ bytesLE 8 (sramBase + 64) ++ List.replicate 40 0
def sramDesc : State := ((chan31 (fun x => { x with phase := .fetch })).begin.memStore sramBase moveDesc).1
def chanDone : State := chan31 (fun x => { x with phase := .moving, desc := moveDesc, done := 1 })
def chanBack : State := chan31 (fun x => { x with phase := .readback, desc := moveDesc })
def chanLink : State := chan31 (fun x => { x with phase := .link })
def chanErr : State := chan31 (fun x => { x with phase := .moving, err := some (dmREAD_ERR, 64) })

theorem witness_MoverOperationCommandsComplete : sramDesc.dmHolder 3 = some 31 ∧ (sramDesc.ch 31).cur = some { owner := dmDirectT, addr := sramBase } ∧
    (sramDesc.ch 31).phase = .fetch ∧ (sramDesc.begin.dmRead dmDirectT (sramDesc.ch 31).pos 64 []).2.1 = .ok moveDesc ∧ (sramDesc.ch 31).pos % 64 = 0 ∧
    (sramDesc.begin.dmRead dmDirectT (sramDesc.ch 31).pos 64 []).1.dmDescOk dmDirectT moveDesc = true ∧ dUsesCv moveDesc = false ∧
    chanDone.dmHolder 3 = some 31 ∧ (chanDone.ch 31).phase = .moving ∧ (chanDone.ch 31).err = none ∧ (chanDone.ch 31).opDone = true ∧
    dOp (chanDone.ch 31).desc ≠ 1 ∧ chanDone.chFrozen 31 = false ∧ chanBack.dmHolder 3 = some 31 ∧
    (chanBack.ch 31).cur = some { owner := dmDirectT, addr := sramBase } ∧ (chanBack.ch 31).phase = .readback ∧ (chanBack.ch 31).mismatch = false ∧
    (chanBack.begin.dmRead dmDirectT (dLast (chanBack.ch 31).desc / 64 * 64) 64 [some []]).2.1 = .ok (List.replicate 64 0) ∧
    chanLink.dmHolder 3 = some 31 ∧ (chanLink.ch 31).cur = some { owner := dmDirectT, addr := sramBase } ∧ (chanLink.ch 31).phase = .link ∧
    (chanLink.ch 31).result = 0 ∧ ofBytesLE (bytesLE 8 0) % 2 = 0 ∧
    (chanLink.ch 31).holds = false ∧ (chanLink.begin.dmRead dmDirectT ((chanLink.ch 31).pos + 0x38) 8 [some (bytesLE 8 (0 : W64).toNat)]).2.1 = .ok (bytesLE 8 0) ∧
    chanErr.dmHolder 3 = some 31 ∧ (chanErr.ch 31).phase = .moving ∧ (chanErr.ch 31).err = some (dmREAD_ERR, 64) := by decide +kernel

/-- Hart 3 has a pending call of function `fn` from S-mode. -/
def upCall (fn : Nat) : State := ((up.wr (rWC_CTL 3) fWC_CTL_PENDING 1).wr (rWC_FN 3) fWC_FN_FN fn).wr (rWC_FN 3) fWC_FN_PRV 1
/-- The same with its first three arguments. -/
def upArgs (fn a b d : Nat) : State :=
  (((upCall fn).setRw (rWC_ARG 3 0) (BitVec.ofNat 64 a)).setRw (rWC_ARG 3 1) (BitVec.ofNat 64 b)).setRw (rWC_ARG 3 2) (BitVec.ofNat 64 d)

theorem witness_CallSlotCommandsComplete : up.hartRuns 3 = true ∧ (0x8B : W32).toNat % 128 = 0x0B ∧ (0x8B : W32).toNat ≠ 0x0B ∧ up.alive .keeper = true ∧
    1 < ((up.modHart 3 (fun x => { x with minprv := 3 })).hart 3).minprv ∧
    (up.hart 3).minprv ≤ 0 ∧ (2 ^ 32 : W64).toNat / 2 ^ 32 ≠ 0 ∧ (0xFFFFFFFF : W64).toNat / 2 ^ 32 = 0 ∧
    ((up.wr rCALL_CFG fCALL_CFG_EN 8).hart 3).minprv ≤ 0 ∧ bitOf ((up.wr rCALL_CFG fCALL_CFG_EN 8).rd rCALL_CFG fCALL_CFG_EN) 3 = true ∧
    (upCall 0).mayWrite .keeper (rWC_RSP 3) ∧ (upCall 0).callPending 3 = true := by decide +kernel

def upVrec : State := { up.wr rSVC_STAT fSVC_STAT_FROZEN 8 with vrecRead := 8 }
def upRun : State := (up.wr rKSTAT fKSTAT_WM_LOCKED 1).modBoot (fun b => { b with runWritten := true })

theorem witness_KeeperCommandsComplete : up.mayWrite .keeper rKCTRL ∧
    (∀ k < codeGrains up.boot.codeSize, up.grainTrusted (up.boot.grain + k) = true) ∧
    (up.modBoot (fun b => { b with zhotor := true })).mayWrite .keeper rKCTRL ∧
    (up.modBoot (fun b => { b with zhotor := true })).boot.zhotor = true ∧ (up.modBoot (fun b => { b with zhotor := true })).kstate ≠ kLOST ∧
    upRun.mayWrite .keeper rSVC_CTRL ∧ upRun.on rKSTAT fKSTAT_WM_LOCKED = true ∧ (8 : BitVec 4) ≠ 0 ∧ upRun.boot.runWritten = true ∧
    upVrec.mayWrite .keeper rSVC_THAW ∧
    (∀ h < 4, bitOf (8 : BitVec 4).toNat h = true → bitOf (upVrec.rd rSVC_STAT fSVC_STAT_FROZEN) h = true ∧ bitOf upVrec.vrecRead h = true) ∧
    up.mayRead .keeper rKEVT ∧ up.mayRead .keeper (rSVC_VREC 3) := by decide +kernel

/-- Out of reset in BOOT_ROM. -/
def inBoot (src : Nat) : State :=
  (State.reset.modPower (fun x => { x with inReset := false })).modBoot (fun b => { b with src := src, linkUp := true })
def upRestart : State := up.wr rKSTAT fKSTAT_STATE kRESTARTING

theorem witness_BootCommandsComplete : (inBoot 0).dstate = 1 ∧ (inBoot 0).power.inReset = false ∧ (inBoot 0).boot.src = 0 ∧
    2 ≤ upRestart.dstate ∧ upRestart.dstate ≤ 5 ∧ upRestart.kstate = kRESTARTING ∧ upRestart.boot.zhotor = false ∧ (inBoot 1).inRecovery = true ∧
    (inBoot 1).boot.linkUp = true ∧ ((inBoot 1).begin.sramLoad 0 (inBoot 1).boot.recovLen).2 = some [] ∧
    (((inBoot 1).modBoot (fun b => { b with recovLen := 8 })).setEcc (sramBase / 8) 2).inRecovery = true ∧
    ((((inBoot 1).modBoot (fun b => { b with recovLen := 8 })).setEcc (sramBase / 8) 2).begin.sramLoad 0 8).2 = none := by decide +kernel

/-- The same device with one channel of DRAM, RUNNING and mapped. -/
def withDram (s : State) : State := ((s.wr (rMC_STAT 3) fMC_STAT_STATE mcRUNNING).wr rMAP_STAT fMAP_STAT_BUILT 1).wr rMAP_STAT fMAP_STAT_SURV 8
def upDram : State := withDram up
/-- Hart 3 asks to extend MR7 with the 48 bytes at the start of DRAM. -/
def upExtend : State := withDram (upArgs 1 7 dramBase 0)
/-- Hart 3 asks for a report; nonce and buffer lie in DRAM. -/
def upAttest : State := withDram (upArgs 2 dramBase (dramBase + 64) 0)
def upSealAsk : State := ((upArgs 0x10 15 0 0).modBoot (fun b => { b with cfg := List.replicate 12 255 })).wr (rSSTAT 15) fSSTAT_STATE 4
def upUnsealAsk : State := (upArgs 0x11 15 0 0).wr (rSSTAT 15) fSSTAT_STATE 4
/-- Hart 3 asks to configure pitch 15 of pipe 7 from 24 bytes at the start of DRAM. -/
def upPitchAsk : State := withDram (upArgs 0x20 7 15 dramBase)

theorem witness_CallsComplete : (upCall 0).callPending 3 = true ∧ (upCall 0).rd (rWC_FN 3) fWC_FN_FN = 0 ∧ (upCall 0).kstate = kUP ∧ (upCall 0).dstate < 6 ∧
    upExtend.callWaits 3 1 ∧ 4 ≤ upExtend.callArg 3 0 ∧ upExtend.callArg 3 0 ≤ 7 ∧
    (upExtend.begin.callRead (upExtend.callArg 3 1) 48).2 = some (List.replicate 48 0) ∧
    upAttest.callWaits 3 2 ∧ (upAttest.begin.callRead (upAttest.callArg 3 0) 32).2 = some (List.replicate 32 0) ∧
    (upAttest.begin.callRead (upAttest.callArg 3 0) 32).1.normalBuf (upAttest.callArg 3 1) 656 true = true ∧
    upSealAsk.callWaits 3 0x10 ∧ 1 ≤ upSealAsk.callArg 3 0 ∧ upSealAsk.callArg 3 0 = 15 ∧
    bitOf (numAt upSealAsk.boot.cfg 0x0A 2) 15 = true ∧ upSealAsk.stallState 15 = 4 ∧ (upArgs 0x10 16 0 0).callWaits 3 0x10 ∧
    (upArgs 0x10 16 0 0).callArg 3 0 = 16 := by decide +kernel

theorem witness_CallsComplete2 : upUnsealAsk.callWaits 3 0x11 ∧ upUnsealAsk.callArg 3 0 = 15 ∧ upUnsealAsk.stallState 15 = 4 ∧ upUnsealAsk.pitchNames 15 = false ∧
    (upArgs 0x21 7 0xFFFF 0).callWaits 3 0x21 ∧ (upArgs 0x21 7 0xFFFF 0).callArg 3 0 ≤ 7 ∧ (upArgs 0x21 7 0xFFFF 0).callArg 3 1 ≤ 0xFFFF ∧
    (upArgs 0x21 7 0xFFFF 0).islandOn 10 = true ∧ (upArgs 0x30 1 1400000 0).callWaits 3 0x30 ∧ (upArgs 0x30 1 1400000 0).callArg 3 0 = 1 ∧
    stepRange 1 = some (16, 224) ∧ (upArgs 0x30 1 1400000 0).callArg 3 1 / 6250 = 224 ∧ (upArgs 0x30 1 1400000 0).islTrusted 1 = true ∧
    ((upCall 0x7F).wr rDSTATE fDSTATE_STATE_WORD 3).callWaits 3 0x7F ∧ ((upCall 0x7F).wr rDSTATE fDSTATE_STATE_WORD 3).dstate = 3 ∧
    upPitchAsk.callWaits 3 0x20 ∧ upPitchAsk.callArg 3 0 = 7 ∧ upPitchAsk.callArg 3 1 = 15 ∧
    (upPitchAsk.begin.callRead (upPitchAsk.callArg 3 2) 24).2 = some (List.replicate 24 0) ∧
    (upPitchAsk.begin.callRead (upPitchAsk.callArg 3 2) 24).1.islandOn 10 = true ∧
    ((upCall 2).wr (rWC_FN 3) fWC_FN_PRV 0).callPending 3 = true ∧ ((upCall 2).wr (rWC_FN 3) fWC_FN_PRV 0).rd (rWC_FN 3) fWC_FN_FN = 2 ∧
    ((upCall 2).wr (rWC_FN 3) fWC_FN_PRV 0).kstate = kUP ∧ ((upCall 2).wr (rWC_FN 3) fWC_FN_PRV 0).dstate < 6 ∧ ((upCall 2).wr (rWC_FN 3) fWC_FN_PRV 0).rd (rWC_FN 3) fWC_FN_PRV = 0 ∧
    (upCall 3).callPending 3 = true ∧ servedFn ((upCall 3).rd (rWC_FN 3) fWC_FN_FN) = false ∧ (upCall 3).kstate = kUP ∧ (upCall 3).dstate < 6 := by decide +kernel

/-- The place of the last block below 1 GiB; a request in a burst; a read on its way back. -/
def place1 : DramPlace := dramPlace upDram.surv ((2 ^ 30 - 1) / 64 * 64)
def upBurst : State := upDram.modSub 3 1 (fun x => { x with burst := [{ write := false, off := 0, src := .fore, num := 0 }] })
def upDebt : State := upDram.modSub 3 1 (fun x => { x with debt := 8 })
def upBack : State := upDram.modSub 3 1 (fun x => { x with back := [⟨0, [], []⟩] })

theorem witness_MemoryTrafficCommandsComplete : (2 ^ 30 - 1) / 64 * 64 < upDram.capacity ∧ upDram.works = true ∧
    upDram.mcState place1.channel ≠ mcFENCED ∧ (upDram.sub place1.channel place1.sub).rq.length < 64 ∧
    (upDram.sub place1.channel place1.sub).wq.length < 32 ∧ (upBurst.begin.upset []).works = true ∧ (upBurst.begin.upset []).mcState 3 = mcRUNNING ∧
    ((upBurst.begin.upset []).sub 3 1).burst = { write := false, off := 0, src := .fore, num := 0 } :: [] ∧
    (upDebt.begin.upset []).works = true ∧ (upDebt.begin.upset []).mcState 3 = mcRUNNING ∧ ((upDebt.begin.upset []).sub 3 1).burst = [] ∧
    8 ≤ ((upDebt.begin.upset []).sub 3 1).debt ∧ (upBack.sub 3 1).back = ⟨0, [], []⟩ :: [] ∧ upDram.mcPanic 3 = 0 := by decide +kernel

/-- A sweep whose every voltage passes at taps 0 to 127. -/
def goodLane : LaneSweep := ⟨List.replicate 8 (BitVec.allOnes 128), List.replicate 8 (BitVec.allOnes 128)⟩
def upMc (st : Nat) : State := up.wr (rMC_STAT 3) fMC_STAT_STATE st
/-- Channel 3 tracks drift; every lane's eye is 31 taps wide about tap 15. -/
def upDrift : State :=
  overN 4 (fun k s => (((s.wr (rLANE_RD 3 k) fLANE_RD_DLY 15).wr (rLANE_RD 3 k) fLANE_RD_EYE 31).wr (rLANE_WR 3 k) fLANE_RD_DLY 15).wr (rLANE_WR 3 k)
    fLANE_RD_EYE 31) ((upMc mcRUNNING).wr (rDRIFT_CFG 3) fDRIFT_CFG_EN 1)

theorem witness_MemoryControlCommandsComplete : up.mayWrite .keeper (rMC_CTRL 3) ∧ up.mcState 3 = mcOFF ∧
    (upMc mcRUNNING).mayWrite .keeper (rMC_CTRL 3) ∧ (upMc mcRUNNING).mcState 3 = mcRUNNING ∧
    (upMc mcTRAINING).works = true ∧ (upMc mcTRAINING).mcState 3 = mcTRAINING ∧
    ((upMc mcTRAINING).wr (rMC_STAT 3) fMC_STAT_RFM_SUP 1).rd (rMC_CFG 3) fMC_CFG_CAP ≤ 3 ∧
    ((upMc mcTRAINING).wr (rMC_STAT 3) fMC_STAT_RFM_SUP 1).failedLanes 3 (List.replicate 4 goodLane) = 0 ∧ (upMc mcRETRAIN).works = true ∧
    (upMc mcRETRAIN).mcState 3 = mcRETRAIN ∧ (upMc mcRETRAIN).failedLanes 3 (List.replicate 4 goodLane) = 0 ∧ up.mayWrite .keeper rMAP_CTRL ∧
    up.mayWrite .keeper (rECC_MAP 3) := by decide +kernel

def upDrift1 : State := (((upDrift.begin.setDrift 3 none).driftRefresh 3 0 16).driftRefresh 3 1 16).showDebt 3
def upPanic : State := { upDrift with mem := { upDrift.mem with panic := [(3, 1)] } }

theorem witness_DriftStep : upDrift.works = true ∧ upDrift.mcState 3 = mcRUNNING ∧ upDrift.on (rDRIFT_CFG 3) fDRIFT_CFG_EN = true ∧ upDrift.mcPanic 3 = 0 ∧
    (upDrift.sub 3 0).burst = [] ∧ (upDrift.sub 3 1).burst = [] ∧
    (∀ k < 4, upDrift1.driftBad 3 (rLANE_RD 3 k) (upDrift1.driftRun (rLANE_RD 3 k) (0, 31)) = false ∧
      upDrift1.driftBad 3 (rLANE_WR 3 k) (upDrift1.driftRun (rLANE_WR 3 k) (0, 31)) = false) ∧
    upPanic.works = true ∧ upPanic.mcState 3 = mcRUNNING ∧ upPanic.on (rDRIFT_CFG 3) fDRIFT_CFG_EN = true ∧ upPanic.mcPanic 3 ≠ 0 := by decide +kernel

/-- Region 0 of the DRAM has ECC and is scrubbed. -/
def upEcc : State := (upDram.setRw (rECC_MAP 0) 1).wr rSCRUB_CFG fSCRUB_CFG_EN 1

theorem witness_PatrolScrub : (upEcc.begin.upset [(0x100000000, true)]).scrubRuns = true ∧ (upEcc.begin.upset [(0x100000000, true)]).mem.opPass ≠ 1 ∧
    (upEcc.begin.upset [(0x100000000, true)]).patrolFrom (upEcc.begin.upset [(0x100000000, true)]).mem.patrol = some 0 ∧
    (upEcc.begin.upset [(0x100000000, true)]).patrolFrom (0 + 64) = some 64 ∧ (upEcc.begin.upset [(0x100000000, true)]).dramFenced 0 = false := by
  decide +kernel

/-- A log of which 82 sectors are not blank and one is full. -/
def upLog : State :=
  up.modNvm (fun x => { x with lines := (List.range 128).map (fun j => 172 * 128 + j) ++ (List.range 81).map (fun i => (173 + i) * 128) })
def upLog0 : State := up.modNvm (fun x => { x with lines := (List.range 84).map (fun i => (172 + i) * 128) })
def upNvm (k : Nat) (old : List Nat) : State := up.modNvm (fun x => { x with op := some { op := k, sector := 161 }, retired := old })
def upMsr : State := (up.wr rMSR_SCRUB fMSR_SCRUB_EN 1).begin.upset [(0x1000000, false)]

theorem witness_NvmCommandsComplete : up.mayWrite .keeper rNVM_CMD ∧ up.on rNVM_STAT fNVM_STAT_BUSY = false ∧ (161 : BitVec 8).toNat < 162 ∧
    up.nvm.lines.contains ((161 : BitVec 8).toNat * 128 + up.rd rNVM_ADDR fNVM_ADDR_LINE) = false ∧
    (upNvm 1 []).nvm.op = some { op := 1, sector := 161 } ∧ (upNvm 1 []).on rNVM_STAT fNVM_STAT_SUSPENDED = false ∧
    (upNvm 1 []).nvm.retired.contains 161 = false ∧ (upNvm 2 []).nvm.op = some { op := 2, sector := 161 } ∧
    (upNvm 2 []).nvm.retired.contains 161 = false ∧ (upNvm 2 [161]).nvm.op = some { op := 2, sector := 161 } ∧
    (upNvm 2 [161]).nvm.retired.contains 161 = true ∧ (upNvm 3 []).nvm.op = some { op := 3, sector := 161 } ∧
    (upNvm 3 []).on rNVM_STAT fNVM_STAT_SUSPENDED = false ∧ up.works = true ∧ upLog.works = true ∧ upLog.freeLog < 4 ∧ upLog.fullSectors = [172] ∧
    upLog0.works = true ∧ upLog0.fullSectors = [] ∧ upLog0.freeLog < 4 ∧ upMsr.works = true ∧ upMsr.on rMSR_SCRUB fMSR_SCRUB_EN = true ∧
    upMsr.anyPanic = false ∧ upMsr.msr.block + 1 < 786432 := by decide +kernel

/-- Panels 6 and 7 are enabled, in FREE mode. -/
def upTouch : State := (((up.wr (tpCfg 6) fTP_CFG_EN 1).wr (tpCfg 7) fTP_CFG_EN 1).wr (tpCfg 6) fTP_CFG_SYNC 0).wr (tpCfg 7) fTP_CFG_SYNC 0
/-- Panel 7 at an opportunity at 10,000 µs, as its scan begins. -/
def upTouch1 : State :=
  (((upTouch.begin.modPanel 7 (fun x => { x with
    timed := if upTouch.tpTimed 7 then some 10000 else none, opp := if upTouch.tpTimed 7 then none else some (upTouch.tpEdge 7) })).latch (rTP_SYNC 3 1)).wr (tpStat 7)
    fTP_STAT_SYNC_FREE (b2n (upTouch.tpTimed 7 && upTouch.rd (tpCfg 7) fTP_CFG_SYNC != 0))).tpIdle 7 10000
/-- Panel 6 scans two rows from time 0. -/
def upStep : State :=
  (upTouch.modPanel 6 (fun x => { x with scan := some { start := 0, from' := 0, frame := 0 } })).wr (tpLines 6) fTP_LINES_DRV_COUNT 2

theorem witness_TouchCommandsComplete : up.mayWrite .keeper (tpCfg 7) ∧ upTouch.mayWrite .keeper (rTP_CTRL 3 1) ∧ upTouch.tpOn 7 = true ∧
    up.mayWrite .keeper (rFE_LFCLR 3) ∧ upTouch.running = true ∧ upTouch.islandOn 24 = true ∧ upTouch.tpDue 7 10000 0 = true ∧ upTouch.tpOnEdge 6 10000 = false ∧
    (upTouch1.panel 7).wait = false ∧ (upTouch1.panel 7).scan = none ∧ (upTouch1.panel 7).last = none ∧
    upTouch1.tpDivider 7 ≤ (upTouch1.panel 7).skip + 1 ∧ (upTouch1.panel (otherPanel 7)).scan = none ∧ upTouch.tpBlanking 7 = false ∧
    (upStep.panel 6).scan = some { start := 0, from' := 0, frame := 0 } ∧ upStep.running = true ∧ upStep.islandOn 24 = true ∧ upStep.tpOn 6 = true ∧
    upStep.rd (tpCfg 6) fTP_CFG_SYNC = 0 ∧ 0 + 1 < upStep.tpRows 6 ∧ 1000 * 0 + upStep.tpStepNs 6 < 1000 * (10000 + 1) := by decide +kernel

/-- Haptic channel 7 belongs to stall 15 and plays a segment. -/
def upHaptic : State :=
  ((up.wr (rGMISC 15) fGMISC_HC 128).wr (rHC_CFG 7) fHC_CFG_TYPE 0).modHap 7 (fun x => { x with seg := some (100, 10, 0, 0), crossed := true })
def upBrake : State := upHaptic.modHap 7 (fun x => { x with brake := true })
def upUnserved : State := upHaptic.wr (rSSTAT 15) fSSTAT_STATE 4
def upAudio : State := up.wr rAUD_CFG fAUD_CFG_EN 1

theorem witness_AudioAndHapticsCommandsComplete : up.running = true ∧ up.islandOn 25 = true ∧ up.on rAUD_CFG fAUD_CFG_EN = false ∧
    upAudio.running = true ∧ upAudio.islandOn 25 = true ∧ upAudio.on rAUD_CFG fAUD_CFG_EN = true ∧
    upBrake.running = true ∧ (upBrake.hap 7).seg.isSome = true ∧ upBrake.served (upBrake.hapOwner 7) = some 15 ∧ (upBrake.hap 7).brake = true ∧
    upUnserved.running = true ∧ (upUnserved.hap 7).seg.isSome = true ∧ upUnserved.served (upUnserved.hapOwner 7) = none ∧
    upHaptic.running = true ∧ upHaptic.lraDriven 7 = true ∧ upBrake.lraDriven 7 = true ∧ upBrake.tracking 7 = false ∧ (upBrake.hap 7).crossed = true ∧
    upHaptic.tracking 7 = true ∧ (upHaptic.hap 7).tm = none ∧ (upHaptic.hap 7).crossed = true := by decide +kernel

/-- A message of the keeper. -/
def keeperMsg (pl : List Byte) : SmMsg := ⟨.keeper, 0, true, [0, 0, 0, 0] ++ pl, 0⟩
/-- What is accepted of it. -/
def keeperCtx (svc : Nat) (pl : List Byte) : SmCtx :=
  { via := .keeper, prio := 0, svc := svc, q := ⟨clsKEEPER, 0⟩, dest := 0, h := smParse ([0, 0, 0, 0] ++ pl), bcast := false, factory := false, t := 0 }
/-- Its context is no factory boot's, and its payload has n bytes or more. -/
def ctxOk (x : SmCtx) (n : Nat) : Bool := !x.factory && decide (n ≤ x.h.pl.length) && decide (x.q.cls ≠ clsFLEET ∧ x.q.cls ≠ clsSTALL)

theorem witness_SmiserRequestsComplete : up.takes svcREAD (keeperMsg [0x30, 0x90, 1]) (keeperCtx svcREAD [0x30, 0x90, 1]) ∧
    up.svcOf (keeperMsg [0x30, 0x90, 1]) = none ∧ ctxOk (keeperCtx svcREAD [0x30, 0x90, 1]) 3 = true ∧
    up.takes svcWRITE (keeperMsg [0x30, 0x90, 1, 1, 0]) (keeperCtx svcWRITE [0x30, 0x90, 1, 1, 0]) ∧
    ctxOk (keeperCtx svcWRITE [0x30, 0x90, 1, 1, 0]) (4 + 1) = true ∧
    up.takes svcREAD_BLOCK (keeperMsg (List.replicate 10 0)) (keeperCtx svcREAD_BLOCK (List.replicate 10 0)) ∧
    ctxOk (keeperCtx svcREAD_BLOCK (List.replicate 10 0)) 10 = true ∧ (∀ st, (keeperCtx svcREAD_BLOCK (List.replicate 10 0)).via ≠ .mailbox st) ∧
    up.takes svcWRITE_BLOCK (keeperMsg (List.replicate 9 0)) (keeperCtx svcWRITE_BLOCK (List.replicate 9 0)) ∧
    ((up.taken svcWRITE_BLOCK (keeperMsg (List.replicate 9 0)) (keeperCtx svcWRITE_BLOCK (List.replicate 9 0))).blockSegment
      (keeperCtx svcWRITE_BLOCK (List.replicate 9 0))).2.isSome = true := by decide +kernel

/-- Frames of responses to the keeper wait, and so do `n` of its requests. -/
def upAnswering (n : Nat) : State :=
  up.modSm (fun y => { y with tx := [(some 0, .keeperMsg [])], waiting := List.replicate n (keeperCtx svcWRITE [0x30, 0x90, 1, 1, 0]) })

theorem witness_SmiserWaits :
    ((upAnswering 3).begin.smAccept svcWRITE (keeperMsg [0x30, 0x90, 1, 1, 0])).2 = some (keeperCtx svcWRITE [0x30, 0x90, 1, 1, 0]) ∧
    ((upAnswering 3).begin.smAccept svcWRITE (keeperMsg [0x30, 0x90, 1, 1, 0])).1.smAnswering 0 = true ∧
    (((upAnswering 3).begin.smAccept svcWRITE (keeperMsg [0x30, 0x90, 1, 1, 0])).1.sm.waiting.filter (fun y => y.q.src == 0)).length = 3 ∧
    ((upAnswering 4).begin.smAccept svcWRITE (keeperMsg [0x30, 0x90, 1, 1, 0])).1.smAnswering 0 = true ∧
    (((upAnswering 4).begin.smAccept svcWRITE (keeperMsg [0x30, 0x90, 1, 1, 0])).1.sm.waiting.filter (fun y => y.q.src == 0)).length = 4 ∧
    (keeperCtx svcWRITE [0x30, 0x90, 1, 1, 0]).bcast = false := by decide +kernel

theorem witness_SmiserOperations : up.takes svcOP_START (keeperMsg [6, 0xA0, 0]) (keeperCtx svcOP_START [6, 0xA0, 0]) ∧
    ctxOk (keeperCtx svcOP_START [6, 0xA0, 0]) 3 = true ∧ plIdx (keeperCtx svcOP_START [6, 0xA0, 0]).h.pl = 0xA006 ∧
    up.takes svcOP_SUSPEND (keeperMsg [0, 0xA0]) (keeperCtx svcOP_SUSPEND [0, 0xA0]) ∧ plIdx (keeperCtx svcOP_SUSPEND [0, 0xA0]).h.pl = 0xA000 ∧
    ctxOk (keeperCtx svcOP_SUSPEND [0, 0xA0]) 2 = true ∧
    up.takes svcOP_RESUME (keeperMsg [0, 0xA0]) (keeperCtx svcOP_RESUME [0, 0xA0]) ∧ ctxOk (keeperCtx svcOP_RESUME [0, 0xA0]) 2 = true ∧
    up.takes svcOP_CANCEL (keeperMsg [0, 0xA0]) (keeperCtx svcOP_CANCEL [0, 0xA0]) ∧ ctxOk (keeperCtx svcOP_CANCEL [0, 0xA0]) 2 = true := by
  decide +kernel

theorem witness_SmiserNodeReset : up.takes svcNODE_RESET (keeperMsg [1]) (keeperCtx svcNODE_RESET [1]) ∧ up.kindOf (keeperMsg [1]) ≠ 2 ∧
    ctxOk (keeperCtx svcNODE_RESET [1]) 1 = true ∧
    up.takes svcNODE_RESET (keeperMsg [2]) (keeperCtx svcNODE_RESET [2]) ∧ up.kindOf (keeperMsg [2]) = 2 := by decide +kernel

def upOp (k : Nat) : State := up.modOp k (fun o => { o with state := opRUNNING })
def upExport : State := (upOp opEXPORT).modSm (fun y => { y with exprt := some ⟨0, 0, 0, 2, 0⟩ })
def upReset (k : Nat) : State := up.modSm (fun y => { y with nodeReset := some k })

/-- The test pattern runs on pipe 0, past the latch point. -/
def upPattern : State := (upOp opPATTERN).modPipe 0 (fun x => { x with latched := true })

theorem witness_SmiserEventsComplete : upExport.running = true ∧ (upExport.op opEXPORT).state = opRUNNING ∧
    upExport.sm.exprt = some ⟨0, 0, 0, 2, 0⟩ ∧ (upOp 6).running = true ∧ ((upOp 6).op 6).state = opRUNNING ∧ upPattern.running = true ∧
    (upPattern.op opPATTERN).state = opRUNNING ∧ (upPattern.pipe (argB (upPattern.op opPATTERN).arg 0)).latched = true ∧
    (upPattern.pipe (argB (upPattern.op opPATTERN).arg 0)).vblank = false ∧ (6 : Nat) ≠ opSCRUB ∧ 6 ≠ opEXPORT ∧
    6 ≠ opRETRAIN ∧ 6 ≠ opRECAL ∧ ((upOp opSCRUB).op opSCRUB).state = opRUNNING ∧ (upOp opSCRUB).running = true ∧
    up.running = true ∧ up.islandOn 26 = true ∧ up.commEn ≠ 0 ∧ up.sm.tx = [] ∧ (upAnswering 0).sm.tx ≠ [] ∧
    (upAnswering 0).running = true ∧ (upAnswering 0).islandOn 26 = true ∧ (upAnswering 0).commEn ≠ 0 ∧ up.dnum 0x1100 7 ≠ 0 ∧
    (upReset 1).running = true ∧ (upReset 1).sm.nodeReset = some 1 ∧ (upReset 2).sm.nodeReset = some 2 ∧ (upReset 2).dstate ≠ 0 ∧ (upReset 2).dstate < 6 ∧ (inBoot 2).inFactory = true ∧
    up.power.inReset = false ∧ up.dstate ≠ 0 ∧
    (up.modSm (fun x => { x with temps := (List.range 16).map (fun _ => (0 : BitVec 16).toInt) })).tempMax < sx 16 (up.dnum 0x9030 0x12) := by
  decide +kernel

def upSag : State := ((up.wr rSUPPLY_CFG fSUPPLY_CFG_EN 1).wr rSUPPLY_STAT fSUPPLY_STAT_BELOW 1).modPower (fun x => { x with dip := true })
/-- A device that saves, with the supply back. -/
def upSaving : State := (up.wr rDSTATE fDSTATE_STATE_WORD 6).modPower (fun x => { x with save := some ⟨0, 0⟩ })
def upPor : State := up.modPower (fun x => { x with por := true })

theorem witness_SupplyAndResetCommandsComplete : up.on rSUPPLY_STAT fSUPPLY_STAT_BELOW = false ∧ upSag.on rSUPPLY_STAT fSUPPLY_STAT_BELOW = true ∧
    upSag.on rSUPPLY_CFG fSUPPLY_CFG_EN = true ∧ upSag.power.dip = true ∧ upSag.running = true ∧ upSag.on rSUPPLY_STAT fSUPPLY_STAT_WARN = false ∧
    (upSaving.wr rSUPPLY_STAT fSUPPLY_STAT_WARN 1).on rSUPPLY_STAT fSUPPLY_STAT_WARN = true ∧
    (upSaving.wr rSUPPLY_STAT fSUPPLY_STAT_WARN 1).on rSUPPLY_STAT fSUPPLY_STAT_BELOW = false ∧ (upSaving.wr rSUPPLY_STAT fSUPPLY_STAT_WARN 1).dstate = 6 ∧
    upSaving.dstate = 6 ∧ upSaving.power.save = some ⟨0, 0⟩ ∧ upSaving.tally.saveWaits = false ∧ upSaving.tally.req ≠ some .save ∧
    upSaving.on rSUPPLY_STAT fSUPPLY_STAT_WARN = false ∧ up.power.por = false ∧ upPor.power.por = true ∧ up.power.nreset = true ∧ 1 ≤ up.dstate ∧
    up.dstate ≤ 5 ∧ up.power.held = false ∧ State.reset.power.nreset = false ∧ up.power.inReset = false := by decide +kernel

/-- Rail 2 in phase `ph`, its power-good pin absent, or present and low or high. -/
def upRail (ph : RailPhase) (present pg : Nat) : State :=
  (((up.modPower (fun x => { x with bus := some 2 })).modRail 2 (fun x => { x with phase := ph })).wr rREG_CFG fREG_CFG_PG_PRESENT present).wr rREG_STAT
    fREG_STAT_PG pg
def upOff : State := up.wr (rISL_STAT 25) fISL_STAT_PWR 2

theorem witness_PowerCommandsComplete : up.mayWrite .keeper (rISL_CTRL 30) ∧ upOff.rd (rISL_STAT 25) fISL_STAT_PWR = 2 ∧
    up.mayWrite .keeper rREG_CFG ∧ (upRail .mode 0 0).power.bus = some 2 ∧ ((upRail .mode 0 0).rail 2).phase = .mode ∧ voutExp 0x1F = some (-1) ∧
    ((upRail .settle 0 0).rail 2).phase = .settle ∧ (upRail .settle 0 0).pgPresent 2 = false ∧
    (((upRail .settle 4 0).begin.setPg 2 true).rail 2).phase = .settle ∧ ((upRail .settle 4 0).begin.setPg 2 true).pgPresent 2 = true ∧
    ((upRail .settle 4 0).rail 2).phase = .settle ∧ (upRail .settle 4 0).pgPresent 2 = true ∧ (upRail .settle 4 0).pgHigh 2 = false ∧
    (upRail .idle 4 4).pgHigh 2 = true ∧ ((upRail .idle 4 4).begin.setPg 2 false).pgAwaited 2 = false ∧
    ((upRail .idle 4 4).begin.setPg 2 false).power.inReset = false ∧ (upRail .idle 4 4).pgAwaited 2 = false ∧
    (upRail .idle 4 4).power.inReset = false := by decide +kernel

/-- The cache has one grain of the unit, with one dirty record. -/
def upCache : State :=
  (((((up.wr rPSTORE fPSTORE_EN 1).wr rPCACHE_CFG fPCACHE_CFG_BASE 700).wr rPCACHE_CFG fPCACHE_CFG_GRAINS 1).setRw (rWM_GRN 21) 0).setOwner true 700 ownUNIT).cacheWrite
    0 6 [3]
def upFlush : State := upCache.modNvm (fun x => { x with flush := some ⟨172 * 128, []⟩ })

theorem witness_PstoreFlush : upCache.works = true ∧ upCache.on rPSTORE fPSTORE_EN = true ∧ upCache.nvm.flush = none ∧
    (upCache.begin.cacheTouch (List.range upCache.cacheSize)).logPlace = some (172 * 128) ∧ recDirty (upCache.cacheRec 0) = true ∧
    upFlush.works = true ∧ upFlush.on rPSTORE fPSTORE_EN = true ∧ upFlush.nvm.flush = some ⟨172 * 128, []⟩ := by decide +kernel

theorem witness_ViolationRecordReads : upFrozen.mayRead .keeper (rVKIND 15) ∧ upFrozen.on (rSSTAT 15) fSSTAT_VREC_VALID = true ∧
    up.mayRead .keeper (rCH_FAULT_KIND 3 7) := by decide +kernel

/-! ### Ill-formed commands -/

theorem test_illFormed_energy : (Instr.energyBilling [⟨2, 10, [20], 10⟩]).wellFormed = false := by decide
theorem test_illFormed_aux : (Instr.auxReply 0 0 17 []).wellFormed = false := by decide
theorem test_illFormed_owner : (Instr.ownerTableWrite .keeper true 192 0).wellFormed = false := by decide
theorem test_illFormed_scan : (Instr.scanStepEnd 0 (List.replicate 33 0) 0 0).wellFormed = false := by decide
theorem test_illFormed_mailbox : (Instr.mailboxResponse 0 []).wellFormed = false := by decide
theorem test_illFormed_descriptor : (Instr.descriptorFetched 1 (some [0])).wellFormed = false := by decide
theorem test_illFormed_wcall : (Instr.wcall (some 0) 2 (.word 0x0B) 0 (List.replicate 6 0)).wellFormed = false ∧
    (Instr.wcall (some 0) 1 (.word 0x0B) 0 []).wellFormed = false := by decide
theorem test_illFormed_lanes : (Instr.channelTrained 0 0 true true []).wellFormed = false ∧ (Instr.retrainDone 0 true [⟨[], []⟩]).wellFormed = false ∧
    (Instr.driftStep 0 false [] 0 0).wellFormed = false := by decide
theorem test_illFormed_bar : (Instr.hostBarAccess 0 0 false 0 true 4 [] 0 false).wellFormed = false ∧
    (Instr.hostBarAccess 0 0 false 0 false 0 [] 0 false).wellFormed = false := by decide
theorem test_illFormed_request : (Instr.memoryRequest 0 .fore true 63 [0, 0]).wellFormed = false ∧
    (Instr.memoryRequest 0 .fore false 0 [0]).wellFormed = false := by decide
theorem test_illFormed_tdm : (Instr.tdmFrame [] (List.replicate 8 0) true true 0).wellFormed = false := by decide
theorem test_illFormed_message : (Instr.read ⟨.can 0, 0, true, List.replicate 9 0, 0⟩ false).wellFormed = false ∧
    (Instr.heartbeat ⟨.can 1, 0, true, List.replicate 65 0, 0⟩).wellFormed = false := by decide +kernel
theorem test_illFormed_datagram : (Instr.write ⟨.udp 0 0, 0, true, List.replicate 65536 0, 0⟩).wellFormed = false := by
  unfold Instr.wellFormed SmMsg.wf
  simp only [List.length_replicate, Nat.lt_irrefl, decide_false]
theorem test_illFormed_thermal : (Instr.thermalPoll [] 0).wellFormed = false := by decide
theorem test_illFormed_core : (Instr.coreMemoryAccess none 1 0 0 [] 0 []).wellFormed = false ∧
    (Instr.coreMemoryAccess none 0 0 0 [] 0 []).wellFormed = false := by decide
theorem test_illFormed_tile : (Instr.renderTileDone 0 [⟨0, 0, 0, 0, 0, [], [], false, false, [(8, [])]⟩] ⟨0, 0, 0, 0, []⟩).wellFormed = false := by decide

/-! ### Worked examples of the spec -/

/-- Chapter 03: red 0x80 with alpha 0xC0 over 0x200 gives 0x68B (R80). -/
theorem test_blend : blend1 2056 3084 4095 false 512 = 1675 := by decide
/-- And 8-bit rounding sends 105, which the pitch checkers see as 0x690 (R85). -/
theorem test_dither : (ditherPx 0 8 0 0 0 ⟨1675, 0, 0, 0⟩).r = 0x690 := by decide
/-- Chapter 02: HTOTAL 4400 and VTOTAL 2250 (R38). -/
theorem test_timing : ((State.reset.tmg 0).htotal, (State.reset.tmg 0).vtotal) = (4400, 2250) := by decide +kernel
/-- Chapter 02: 4K60 at 10 bits fits four lanes at 8.1 Gbit/s, not four at 5.4, nor two at 8.1 (R50). -/
theorem test_fits : let t := { State.reset.tmg 0 with bpc := 2 }
    (t.fits 3 2, t.fits 2 2, t.fits 3 1) = (true, false, false) := by decide +kernel
/-- Chapter 10: offset 0x3_1A40_6789 on four channels, and with MC1 fenced (R280). -/
theorem test_dramPlace : dramPlace [0, 1, 2, 3] 0x31A406789 = ⟨3, 0, 15, 1, 0xC690⟩ ∧ dramPlace [0, 2, 3] 0x31A406789 = ⟨0, 0, 15, 2, 0x108C0⟩ := by
  decide
/-- Chapter 12: CRC-32C of "123456789" is 0xE306_9283 (R335). -/
theorem test_crc32c : cvFinal 32 0xFFFFFFFF true (([0x31, 0x32, 0x33, 0x34, 0x35, 0x36, 0x37, 0x38, 0x39] : List Byte).foldl
    (cvByte 32 0x1EDC6F41 true) 0xFFFFFFFF) = 0xE3069283 := by decide +kernel

/-- Bytes of a memory from an offset on, in its canonical form. -/
def placed (o : Nat) (b : List Byte) : List (Nat × Byte) := (b.zipIdx.map (fun (p : Byte × Nat) => (o + p.2, p.1))).filter (fun p => p.2 != 0)

/-- Chapter 08: S6's tables in DRAM, and its owner bytes. -/
def upWalk : State :=
  let s0 := (((upDram.wr (rMC_CFG 3) fMC_CFG_CAP 3).wr rMAP_STAT fMAP_STAT_SURV 15).wr (rTCTX_LO 6) fTCTX_LO_BASE 0x400).wr (rTCTX_LO 6) fTCTX_LO_SAS 2
  let s1 := (s0.setOwnDram 32 0).setOwnDram 0x18D2 6
  { s1 with dram := placed 0x040048D0 (bytesLE 8 (0x04010000 + 2)) ++ placed 0x04010028 (bytesLE 8 (0x31A400000 + 5)) }

/-- SA 0x1_2345_6789 is physical address 0xB_1A40_6789 (R213). -/
theorem test_walk : (upWalk.gateCheck 6 0x123456789 false false).2 = .phys 0xB1A406789 := by decide +kernel

/-- Chapter 09: hart 2 asks to seal S4: SCFG.SEALED is set, and mwcstat reads 0x100 (R254). -/
theorem test_sealStall :
    let s := ((((((up.wr (rWC_CTL 2) fWC_CTL_PENDING 1).wr (rWC_FN 2) fWC_FN_FN 0x10).wr (rWC_FN 2) fWC_FN_PRV 1).setRw (rWC_ARG 2 0) 4).wr
      (rSSTAT 4) fSSTAT_STATE 4).modBoot (fun b => { b with cfg := List.replicate 12 16 }))
    (match exec (.sealStall 2) s with
      | .next t => (t.sealed 4, (t.hart 2).mwcstat)
      | _ => (false, 0)) = (true, 0x100) := by decide +kernel

/-- From a phase error of half a frame at 2250 lines it takes 1125 frames (R61); a small error is corrected by pixels in pairs (R58). -/
theorem test_phaseCorrection : (List.range 1125).foldl (fun e _ => e + (corrOf 4400 e).1 * 4400 + (corrOf 4400 e).2) (-4950000) = 0 ∧
    corrOf 4400 7 = (0, -4) ∧ corrOf 4400 (-3) = (0, 2) := by decide +kernel

/-- AES-128-CMAC of NIST SP 800-38B: the empty message under the standard's example key (R390). -/
theorem test_cmac : aesCmac 0x2b7e151628aed2a6abf7158809cf4f3c [] = 0xbb1d6929e95937287fa37d129b756746 := by decide +kernel

/-- SHA-384 of "abc" (FIPS 180-4), which images are checked with (R264). -/
theorem test_sha384 : sha384 [0x61, 0x62, 0x63] =
    0xcb00753f45a35e8bb5a03d699ac65007272c32ab0eded1631a8b605a43ff5bed8086072ba1e7cc2358baeca134c825a7 := by decide +kernel

/-- Chapter 15: a request from host 65 to device 17, WRITE, PRIO 4, has the identifier 0x1022_3040 (R382). -/
theorem test_canId : canId 4 svcWRITE 17 65 = 0x10223040 := by decide

/-- Chapter 16: host 65 reads PSTAT of pitch 2 of pipe 3 over CAN0 (R416). -/
theorem test_readPstat :
    let s := (up.setRw (rPSTAT 3 2) 0x01602A41).modSm (fun x => { x with
      inForce := [(dkey 0x1100 1, [17]), (dkey 0x1100 2, [1])], devAlive := [(65, 9)] })
    (match exec (.read ⟨.can 0, 0x10123040, true, [0x50, 0x07, 0x00, 0x00, 0x14, 0x43, 0x28], 0⟩ false) s with
      | .next t => t.out
      | _ => []) = [.canFrame 0 0x10182440 [0x91, 0x07, 0x00, 0x00, 0x04, 0x41, 0x2A, 0x60, 0x01, 0, 0, 0]] := by decide +kernel

end Sys2Proof.Tests
end

section
/-! PROOFS. Scope, commands: every command answers and keeps every stable property (`Stable`), so a step does. -/
namespace Sys2Proof.Machine

/-- Every command, whatever the state, answers a next state, and keeps every property that the primitive updates keep. Each arm is the law
of its command, for the weakest kind of property that the command keeps. -/
theorem exec_stable {P : State → Prop} (hK : Stable P) (i : Instr) (s : State) (hs : P s) : ∃ t, exec i s = .next t ∧ P t := by
  have hM : Keep P := hK.toKeep
  have hS : KeepSys P := hM.toKeepSys
  have hU : KeepUnits P := hM.toKeepUnits
  have hC : KeepCore P := hM.toKeepCore
  cases i with
  | registerWrite => exact execRegisterWrite_stable (hsK := hs) hK ..
  | unassignedAccess => exact execUnassignedAccess_stable (hsK := hs) hC ..
  | readOnlyMemoryAccess => exact execReadOnlyMemoryAccess_stable (hsK := hs) hS ..
  | xclr => exact execXclr_stable (hsK := hs) hC ..
  | clrRefused => exact execClrRefused_stable (hsK := hs) hC ..
  | clrStale => exact execClrStale_stable (hsK := hs) hC ..
  | softwareTally => exact execSoftwareTally_stable (hsK := hs) hC ..
  | arm => exact execArm_stable (hsK := hs) hC ..
  | periodicEn => exact execPeriodicEn_stable (hsK := hs) hC ..
  | periodMs => exact execPeriodMs_stable (hsK := hs) hC ..
  | periodicTimerExpiry => exact execPeriodicTimerExpiry_stable (hsK := hs) hC ..
  | tallyLaunch => exact execTallyLaunch_stable (hsK := hs) hS ..
  | tallyAcknowledge => exact execTallyAcknowledge_stable (hsK := hs) hC ..
  | tallyTimeout => exact execTallyTimeout_stable (hsK := hs) hC ..
  | energyBilling => exact execEnergyBilling_stable (hsK := hs) hC ..
  | pipeStart => exact execPipeStart_stable (hsK := hs) hK ..
  | pipeStop => exact execPipeStop_stable (hsK := hs) hK ..
  | stoppedReached => exact execStoppedReached_stable (hsK := hs) hM ..
  | autoRecover => exact execAutoRecover_stable (hsK := hs) hK ..
  | timingChangeGo => exact execTimingChangeGo_stable (hsK := hs) hC ..
  | lastOldFrameEnd => exact execLastOldFrameEnd_stable (hsK := hs) hK ..
  | synthesiserSettled => exact execSynthesiserSettled_stable (hsK := hs) hK ..
  | pclkUnlock => exact execPclkUnlock_stable (hsK := hs) hK ..
  | hpdFall => exact execHpdFall_stable (hsK := hs) hU ..
  | hpdRise => exact execHpdRise_stable (hsK := hs) hK ..
  | hpdUnplug => exact execHpdUnplug_stable (hsK := hs) hK ..
  | hpdStable => exact execHpdStable_stable (hsK := hs) hU ..
  | linkTrained => exact execLinkTrained_stable (hsK := hs) hK ..
  | trainingFailed => exact execTrainingFailed_stable (hsK := hs) hK ..
  | trainTimeout => exact execTrainTimeout_stable (hsK := hs) hK ..
  | faultRetry => exact execFaultRetry_stable (hsK := hs) hU ..
  | laneStatusRead => exact execLaneStatusRead_stable (hsK := hs) hU ..
  | auxGo => exact execAuxGo_stable (hsK := hs) hU ..
  | auxReply => exact execAuxReply_stable (hsK := hs) hU ..
  | auxReplyTimeout => exact execAuxReplyTimeout_stable (hsK := hs) hU ..
  | syncSrcWrite => exact execSyncSrcWrite_stable (hsK := hs) hU ..
  | realign => exact execRealign_stable (hsK := hs) hU ..
  | referenceEdge => exact execReferenceEdge_stable (hsK := hs) hU ..
  | missingFrame => exact execMissingFrame_stable (hsK := hs) hU ..
  | syncOutPulseEnd => exact execSyncOutPulseEnd_stable (hsK := hs) hC ..
  | frameBoundary => exact execFrameBoundary_stable (hsK := hs) hK ..
  | lineStart => exact execLineStart_stable (hsK := hs) hK ..
  | latchPoint => exact execLatchPoint_stable (hsK := hs) hM ..
  | verticalBlankingStart => exact execVerticalBlankingStart_stable (hsK := hs) hU ..
  | lutWindowWrite => exact execLutWindowWrite_stable (hsK := hs) hC ..
  | fetchSpanComplete => exact execFetchSpanComplete_stable (hsK := hs) hM ..
  | writebackFrameDone => exact execWritebackFrameDone_stable (hsK := hs) hK ..
  | awningLineFetched => exact execAwningLineFetched_stable (hsK := hs) hM ..
  | awningFaultMasked => exact execAwningFaultMasked_stable (hsK := hs) hC ..
  | afclr => exact execAfclr_stable (hsK := hs) hC ..
  | layerCommit => exact execLayerCommit_stable (hsK := hs) hU ..
  | layerCancel => exact execLayerCancel_stable (hsK := hs) hU ..
  | pipeCommit => exact execPipeCommit_stable (hsK := hs) hU ..
  | lockstepRequest => exact execLockstepRequest_stable (hsK := hs) hU ..
  | cancelPipe => exact execCancelPipe_stable (hsK := hs) hU ..
  | cancelLock => exact execCancelLock_stable (hsK := hs) hU ..
  | awningCommit => exact execAwningCommit_stable (hsK := hs) hU ..
  | awningCancel => exact execAwningCancel_stable (hsK := hs) hU ..
  | krelRelease => exact execKrelRelease_stable (hsK := hs) hU ..
  | krelReject => exact execKrelReject_stable (hsK := hs) hU ..
  | fvalWrite => exact execFvalWrite_stable (hsK := hs) hC ..
  | fadd => exact execFadd_stable (hsK := hs) hC ..
  | pcfgWrite => exact execPcfgWrite_stable (hsK := hs) hC ..
  | pitchCommit => exact execPitchCommit_stable (hsK := hs) hU ..
  | pitchClear => exact execPitchClear_stable (hsK := hs) hU ..
  | expCtl => exact execExpCtl_stable (hsK := hs) hU ..
  | pitchCompare => exact execPitchCompare_stable (hsK := hs) hK ..
  | ledgerAppend => exact execLedgerAppend_stable (hsK := hs) hK ..
  | ledgerInit => exact execLedgerInit_stable (hsK := hs) hK ..
  | ledgerEnable => exact execLedgerEnable_stable (hsK := hs) hK ..
  | sealLedger => exact execSeal_stable (hsK := hs) hK ..
  | sealPeriodWrite => exact execSealPeriodWrite_stable (hsK := hs) hU ..
  | sealPeriodExpiry => exact execSealPeriodExpiry_stable (hsK := hs) hU ..
  | sealComplete => exact execSealComplete_stable (hsK := hs) hK ..
  | lgAckWrite => exact execLgAckWrite_stable (hsK := hs) hK ..
  | lgCfgWrite => exact execLgCfgWrite_stable (hsK := hs) hK ..
  | ledgerSubmit => exact execLedgerSubmit_stable (hsK := hs) hU ..
  | rasterRun => exact execRasterRun_stable (hsK := hs) hK ..
  | rasterStop => exact execRasterStop_stable (hsK := hs) hK ..
  | passFloorReserved => exact execPassFloorReserved_stable (hsK := hs) hK ..
  | drawBinned => exact execDrawBinned_stable (hsK := hs) hK ..
  | renderTileDone => exact execRenderTileDone_stable (hsK := hs) hK ..
  | computeTileDone => exact execComputeTileDone_stable (hsK := hs) hK ..
  | computeTileKill => exact execComputeTileKill_stable (hsK := hs) hK ..
  | tileMemoryError => exact execTileMemoryError_stable (hsK := hs) hK ..
  | workItemEnd => exact execWorkItemEnd_stable (hsK := hs) hK ..
  | schedulerEpoch => exact execSchedulerEpoch_stable (hsK := hs) hK ..
  | deadlineWindowOpen => exact execDeadlineWindowOpen_stable (hsK := hs) hK ..
  | latchEvent => exact execLatchEvent_stable (hsK := hs) hK ..
  | longUnit => exact execLongUnit_stable (hsK := hs) hU ..
  | create => exact execCreate_stable (hsK := hs) hK ..
  | stallStart => exact execStallStart_stable (hsK := hs) hK ..
  | stallReset => exact execStallReset_stable (hsK := hs) hK ..
  | destroy => exact execDestroy_stable (hsK := hs) hK ..
  | thaw => exact execThaw_stable (hsK := hs) hK ..
  | functionLevelReset => exact execFunctionLevelReset_stable (hsK := hs) hK ..
  | vfEnableCleared => exact execVfEnableCleared_stable (hsK := hs) hK ..
  | busMasterEnableCleared => exact execBusMasterEnableCleared_stable (hsK := hs) hK ..
  | drainLimit => exact execDrainLimit_stable (hsK := hs) hK ..
  | resetDone => exact execResetDone_stable (hsK := hs) hK ..
  | clearingDone => exact execClearingDone_stable (hsK := hs) hK ..
  | hostBarAccess => exact execHostBarAccess_stable (hsK := hs) hK ..
  | tinv => exact execTinv_stable (hsK := hs) hC ..
  | tinvDone => exact execTinvDone_stable (hsK := hs) hC ..
  | ownerTableWrite => exact execOwnerTableWrite_stable (hsK := hs) hU ..
  | scfgWrite => exact execScfgWrite_stable (hsK := hs) hC ..
  | imaskWrite => exact execImaskWrite_stable (hsK := hs) hC ..
  | mailboxGo => exact execMailboxGo_stable (hsK := hs) hS ..
  | mailboxResponse => exact execMailboxResponse_stable (hsK := hs) hC ..
  | doorbell => exact execDoorbell_stable (hsK := hs) hU ..
  | queueDisable => exact execQueueDisable_stable (hsK := hs) hU ..
  | queueDisableLimit => exact execQueueDisableLimit_stable (hsK := hs) hK ..
  | queueEnable => exact execQueueEnable_stable (hsK := hs) hU ..
  | qbaseWrite => exact execQbaseWrite_stable (hsK := hs) hU ..
  | descriptorFetched => exact execDescriptorFetched_stable (hsK := hs) hM ..
  | linkWordRead => exact execLinkWordRead_stable (hsK := hs) hM ..
  | itemStart => exact execItemStart_stable (hsK := hs) hK ..
  | wcall => exact execWcall_stable (hsK := hs) hS ..
  | wcRsp => exact execWcRsp_stable (hsK := hs) hS ..
  | wcLimitExpiry => exact execWcLimitExpiry_stable (hsK := hs) hS ..
  | version => exact execVersion_stable (hsK := hs) hS ..
  | measExtend => exact execMeasExtend_stable (hsK := hs) hS ..
  | attest => exact execAttest_stable (hsK := hs) hK ..
  | sealStall => exact execSealStall_stable (hsK := hs) hS ..
  | unsealStall => exact execUnsealStall_stable (hsK := hs) hS ..
  | pitchCfg => exact execPitchCfg_stable (hsK := hs) hK ..
  | pitchClr => exact execPitchClr_stable (hsK := hs) hM ..
  | clkSet => exact execClkSet_stable (hsK := hs) hM ..
  | ready => exact execReady_stable (hsK := hs) hK ..
  | kick => exact execKick_stable (hsK := hs) hK ..
  | restart => exact execRestart_stable (hsK := hs) hK ..
  | wmLock => exact execWmLock_stable (hsK := hs) hK ..
  | up => exact execUp_stable (hsK := hs) hK ..
  | keeperWatchdogExpiry => exact execKeeperWatchdogExpiry_stable (hsK := hs) hS ..
  | lockstepMismatch => exact execLockstepMismatch_stable (hsK := hs) hS ..
  | svcRun => exact execSvcRun_stable (hsK := hs) hK ..
  | svcThaw => exact execSvcThaw_stable (hsK := hs) hS ..
  | kevtRead => exact execKevtRead_stable (hsK := hs) hC ..
  | recovGo => exact execRecovGo_stable (hsK := hs) hK ..
  | recoveryTimeout => exact execRecoveryTimeout_stable (hsK := hs) hS ..
  | train => exact execTrain_stable (hsK := hs) hC ..
  | channelTrained => exact execChannelTrained_stable (hsK := hs) hC ..
  | retrain => exact execRetrain_stable (hsK := hs) hC ..
  | retrainDone => exact execRetrainDone_stable (hsK := hs) hK ..
  | build => exact execBuild_stable (hsK := hs) hS ..
  | driftStep => exact execDriftStep_stable (hsK := hs) hS ..
  | trefi => exact execTrefi_stable (hsK := hs) hS ..
  | commandSelect => exact execCommandSelect_stable (hsK := hs) hK ..
  | activationTableClear => exact execActivationTableClear_stable (hsK := hs) hS ..
  | memoryRequest => exact execMemoryRequest_stable (hsK := hs) hS ..
  | agePromotion => exact execAgePromotion_stable (hsK := hs) hS ..
  | panicFlagChange => exact execPanicFlagChange_stable (hsK := hs) hS ..
  | refreshFactorRead => exact execRefreshFactorRead_stable (hsK := hs) hC ..
  | memoryReadData => exact execMemoryReadData_stable (hsK := hs) hS ..
  | eccMapWrite => exact execEccMapWrite_stable (hsK := hs) hK ..
  | eccInitDone => exact execEccInitDone_stable (hsK := hs) hC ..
  | patrolScrubStep => exact execPatrolScrubStep_stable (hsK := hs) hS ..
  | sramScrubStep => exact execSramScrubStep_stable (hsK := hs) hS ..
  | erase => exact execErase_stable (hsK := hs) hS ..
  | program => exact execProgram_stable (hsK := hs) hS ..
  | blankCheck => exact execBlankCheck_stable (hsK := hs) hS ..
  | nvmOperationDone => exact execNvmOperationDone_stable (hsK := hs) hK ..
  | wearMapUpdate => exact execWearMapUpdate_stable (hsK := hs) hK ..
  | pstoreFlush => exact execPstoreFlush_stable (hsK := hs) hK ..
  | logCompaction => exact execLogCompaction_stable (hsK := hs) hK ..
  | channelDisable => exact execChannelDisable_stable (hsK := hs) hU ..
  | disLimitExpiry => exact execDisLimitExpiry_stable (hsK := hs) hK ..
  | channelEnable => exact execChannelEnable_stable (hsK := hs) hU ..
  | chDb => exact execChDb_stable (hsK := hs) hU ..
  | dmThaw => exact execDmThaw_stable (hsK := hs) hU ..
  | dmDescriptorFetched => exact execDmDescriptorFetched_stable (hsK := hs) hK ..
  | dmWritesComplete => exact execDmWritesComplete_stable (hsK := hs) hK ..
  | readbackDone => exact execReadbackDone_stable (hsK := hs) hK ..
  | dmLinkRead => exact execDmLinkRead_stable (hsK := hs) hK ..
  | dmAccessError => exact execDmAccessError_stable (hsK := hs) hK ..
  | resetRun => exact execResetRun_stable (hsK := hs) hC ..
  | scanOpportunity => exact execScanOpportunity_stable (hsK := hs) hU ..
  | scanStepEnd => exact execScanStepEnd_stable (hsK := hs) hK ..
  | panelEnable => exact execPanelEnable_stable (hsK := hs) hM ..
  | recal => exact execRecal_stable (hsK := hs) hU ..
  | feLfclr => exact execFeLfclr_stable (hsK := hs) hC ..
  | audioTick => exact execAudioTick_stable (hsK := hs) hK ..
  | tdmFrame => exact execTdmFrame_stable (hsK := hs) hU ..
  | hapticSegmentEnd => exact execHapticSegmentEnd_stable (hsK := hs) hK ..
  | lraHalfPeriod => exact execLraHalfPeriod_stable (hsK := hs) hU ..
  | bemfZeroCrossing => exact execBemfZeroCrossing_stable (hsK := hs) hU ..
  | read => exact execRead_stable (hsK := hs) hS ..
  | write => exact execWrite_stable (hsK := hs) hK ..
  | readBlock => exact execReadBlock_stable (hsK := hs) hS ..
  | writeBlock => exact execWriteBlock_stable (hsK := hs) hK ..
  | opStart => exact execOpStart_stable (hsK := hs) hK ..
  | opSuspend => exact execOpSuspend_stable (hsK := hs) hS ..
  | opResume => exact execOpResume_stable (hsK := hs) hS ..
  | opCancel => exact execOpCancel_stable (hsK := hs) hK ..
  | longOperationEnd => exact execLongOperationEnd_stable (hsK := hs) hK ..
  | exportAckTimeout => exact execExportAckTimeout_stable (hsK := hs) hS ..
  | heartbeat => exact execHeartbeat_stable (hsK := hs) hS ..
  | heartbeatTimer => exact execHeartbeatTimer_stable (hsK := hs) hS ..
  | hostLoss => exact execHostLoss_stable (hsK := hs) hS ..
  | sessionIdleExpiry => exact execSessionIdleExpiry_stable (hsK := hs) hS ..
  | devNonceExpiry => exact execDevNonceExpiry_stable (hsK := hs) hS ..
  | nodeResetComm => exact execNodeResetComm_stable (hsK := hs) hS ..
  | nodeResetDevice => exact execNodeResetDevice_stable (hsK := hs) hS ..
  | nodeResetAct => exact execNodeResetAct_stable (hsK := hs) hK ..
  | factoryTimeout => exact execFactoryTimeout_stable (hsK := hs) hS ..
  | thermalPoll => exact execThermalPoll_stable (hsK := hs) hS ..
  | vinSenseFall => exact execVinSenseFall_stable (hsK := hs) hS ..
  | vinSenseRise => exact execVinSenseRise_stable (hsK := hs) hS ..
  | supplyWarn => exact execSupplyWarn_stable (hsK := hs) hK ..
  | supplyWarnClear => exact execSupplyWarnClear_stable (hsK := hs) hK ..
  | saveComplete => exact execSaveComplete_stable (hsK := hs) hK ..
  | islandOff => exact execIslandOff_stable (hsK := hs) hM ..
  | islandOn => exact execIslandOn_stable (hsK := hs) hM ..
  | islandPoweredOn => exact execIslandPoweredOn_stable (hsK := hs) hS ..
  | regCfgWrite => exact execRegCfgWrite_stable (hsK := hs) hS ..
  | regulatorTransactionDone => exact execRegulatorTransactionDone_stable (hsK := hs) hS ..
  | railSettled => exact execRailSettled_stable (hsK := hs) hS ..
  | pgRise => exact execPgRise_stable (hsK := hs) hS ..
  | pgDrop => exact execPgDrop_stable (hsK := hs) hC ..
  | porAssert => exact execPorAssert_stable (hsK := hs) hK ..
  | porRelease => exact execPorRelease_stable (hsK := hs) hK ..
  | nresetLow => exact execNresetLow_stable (hsK := hs) hK ..
  | nresetRelease => exact execNresetRelease_stable (hsK := hs) hK ..
  | resetOutRelease => exact execResetOutRelease_stable (hsK := hs) hS ..
  | bootImageChecked => exact execBootImageChecked_stable (hsK := hs) hK ..
  | coreMemoryAccess => exact execCoreMemoryAccess_stable (hsK := hs) hK ..
  | vkindRead => exact execVkindRead_stable (hsK := hs) hC ..
  | svcVrecRead => exact execSvcVrecRead_stable (hsK := hs) hC ..
  | chFaultKindRead => exact execChFaultKindRead_stable (hsK := hs) hC ..
  | pgRaiseTimeout => exact execPgRaiseTimeout_stable (hsK := hs) hS ..
  | configRequest => exact execConfigRequest_stable (hsK := hs) hS ..
  | pcieLinkUp => exact execPcieLinkUp_stable (hsK := hs) hS ..

/-- A step keeps every stable property that does not speak of the queue: the front command runs on the state without it. -/
theorem step_stable {P : State → Prop} (hK : Stable P) (hq : ∀ (s : State) (q : List Instr), P s → P { s with pending := q }) {s t : State}
    (hs : P s) (ht : step s = .next t) : P t := by
  unfold step at ht
  split at ht
  case h_1 =>
    cases ht
    exact State.idle_stable hK s hs
  case h_2 c q _ =>
    obtain ⟨u, hu, hPu⟩ := exec_stable hK c { s with pending := q } (hq s q hs)
    rw [hu] at ht
    cases ht
    exact hPu

/-- Settles O1: to have a given queue is a stable property. -/
theorem everyCommandAnswers : Obligations.EveryCommandAnswers := by
  unfold Obligations.EveryCommandAnswers
  intro i s
  exact exec_stable (pending_stable s.pending) i s rfl

/-- Settles O3: canonical memories are a stable property, and the queue is no part of them. -/
theorem memoryStaysCanonical : Obligations.MemoryStaysCanonical := by
  unfold Obligations.MemoryStaysCanonical
  intro s t hs ht
  exact step_stable memory_stable (fun _ _ h => h) hs ht

end Sys2Proof.Machine
end

section
/-! PROOFS. Scope, state: the error counters of R11, and the values after reset. -/
namespace Sys2Proof.Machine

/-! ### Error counters -/

theorem State.bumpErr_of_lt {s : State} {a : Nat} (h : (s.lv a).toNat < 0xFFFE) : s.bumpErr a = s.setLv a (s.lv a + 1) := by
  have hv : BitVec.ofNat 64 ((s.lv a).toNat + 1) = s.lv a + 1 := by bv_omega
  simp only [State.bumpErr, if_pos h, hv]

theorem State.bumpErr_of_eq {s : State} {a : Nat} (h : (s.lv a).toNat = 0xFFFE) :
    s.bumpErr a = (s.setLv a 0x1FFFF).emit (.saturated a) := by
  simp [State.bumpErr, h]

theorem State.bumpErr_of_gt {s : State} {a : Nat} (h : 0xFFFE < (s.lv a).toNat) : s.bumpErr a = s := by
  have hlt : ¬ (s.lv a).toNat < 0xFFFE := by omega
  have hne : (s.lv a).toNat ≠ 0xFFFE := by omega
  simp only [State.bumpErr, if_neg hlt, if_neg hne]

theorem State.lv_clearCnt_same (s : State) (a : Nat) : (s.clearCnt a).lv a = 0 := State.lv_setLv_same s a 0
theorem State.lv_clearCnt_ne (s : State) {a b : Nat} (h : a ≠ b) : (s.clearCnt a).lv b = s.lv b := State.lv_setLv_ne s 0 h

/-- Settles O9: the three ranges of the count are the three branches of `bumpErr`. -/
theorem errorCountersSaturate : Obligations.ErrorCountersSaturate := by
  unfold Obligations.ErrorCountersSaturate
  refine ⟨?below, ?last, ?saturated, State.lv_clearCnt_same, ?other⟩
  case below =>
    intro s a h
    rw [State.bumpErr_of_lt h]
    exact ⟨State.lv_setLv_same s a _, rfl⟩
  case last =>
    intro s a h
    rw [State.bumpErr_of_eq h, State.emit_lv_of]
    exact ⟨State.lv_setLv_same s a _, rfl⟩
  case saturated =>
    intro s a h
    exact State.bumpErr_of_gt h
  case other =>
    intro s a b h
    exact ⟨State.lv_bumpErr_ne s h.symm, State.lv_clearCnt_ne s h.symm⟩

/-! ### After reset -/

theorem reset_inv : State.reset.Inv := by
  constructor
  · exact Nat.zero_le _
  · intro c hc
    exact absurd hc List.not_mem_nil

/-- Settles O8: every register reads its reset value, and every list of the state is empty. -/
theorem resetValues : Obligations.ResetValues := by
  unfold Obligations.ResetValues
  refine ⟨?_, ?_, ?_, ?_, ?_, ?_, ?_, ?_, fun _ => rfl, reset_inv, reset_memory_wf, rfl⟩
  all_goals decide

end Sys2Proof.Machine
end

section
/-! PROOFS. Scope, register writes: what a write under the register table does to a word, bit by bit, and when it is refused (R7, R9, R67). -/
namespace Sys2Proof.Machine

/-! ### The word that a write makes -/

/-- What one field does to the word being built by `RegDef.written`. -/
def FieldDef.put (stopped locked : Bool) (w acc : W64) (f : FieldDef) : W64 :=
  match f.acc with
  | .rw => if f.kept stopped locked then acc else putFld acc f.fld (getFld w f.fld)
  | .w1c => acc &&& ~~~(w &&& fldMask f.fld)
  | _ => acc

theorem RegDef.written_eq_foldl (d : RegDef) (stopped locked : Bool) (old w : W64) :
    d.written stopped locked old w = d.fields.foldl (FieldDef.put stopped locked w) old := rfl

theorem FieldDef.mem_fld_iff (f : FieldDef) (k : Nat) : (f.fld.lo ≤ k ∧ k - f.fld.lo < f.fld.w) ↔ (f.lo ≤ k ∧ k ≤ f.hi) := by
  simp only [FieldDef.fld]
  omega

/-- Copying a field of `w` into a word gives the field's bits those of `w` and leaves the others. -/
theorem putFld_getFld_getLsbD (acc w : W64) (f : FieldDef) (k : Nat) :
    (putFld acc f.fld (getFld w f.fld)).getLsbD k = if f.lo ≤ k ∧ k ≤ f.hi then w.getLsbD k else acc.getLsbD k := by
  rw [putFld_getLsbD]
  by_cases h : f.lo ≤ k ∧ k ≤ f.hi
  · obtain ⟨hlo, hw⟩ := (f.mem_fld_iff k).mpr h
    rw [if_pos ⟨hlo, hw⟩, if_pos h, getFld_testBit, Nat.add_sub_cancel' hlo]
    by_cases h64 : k < 64
    · simp [hw, h64]
    · simp [h64, BitVec.getLsbD_of_ge w k (by omega)]
  · rw [if_neg (mt (f.mem_fld_iff k).mp h), if_neg h]

/-- Clearing by ones leaves the bits outside the field. -/
theorem and_not_fldMask_getLsbD {acc w : W64} {f : FieldDef} {k : Nat} (h : k < f.lo ∨ f.hi < k) :
    (acc &&& ~~~(w &&& fldMask f.fld)).getLsbD k = acc.getLsbD k := by
  have hm : (fldMask f.fld).getLsbD k = false := by
    have hn : ¬ (f.fld.lo ≤ k ∧ k - f.fld.lo < f.fld.w) := by rw [f.mem_fld_iff]; omega
    rw [fldMask_getLsbD, ← Bool.decide_and, decide_eq_false hn, Bool.and_false]
  rw [BitVec.getLsbD_and, BitVec.getLsbD_not, BitVec.getLsbD_and, hm, Bool.and_false, Bool.not_false, Bool.and_true]
  by_cases h64 : k < 64
  · rw [decide_eq_true h64, Bool.and_true]
  · rw [BitVec.getLsbD_of_ge acc k (by omega), Bool.false_and]

/-- A field leaves a bit as it was unless it covers the bit and is writable and not kept, or clears by ones. -/
theorem FieldDef.put_getLsbD_of_outside {stopped locked : Bool} {w acc : W64} {f : FieldDef} {k : Nat}
    (h : (f.acc = .rw ∧ f.kept stopped locked = false) ∨ f.acc = .w1c → k < f.lo ∨ f.hi < k) :
    (f.put stopped locked w acc).getLsbD k = acc.getLsbD k := by
  unfold FieldDef.put
  split
  case h_1 hrw =>
    split
    case isTrue => rfl
    case isFalse hk =>
      have hout := h (.inl ⟨hrw, Bool.eq_false_iff.mpr hk⟩)
      rw [putFld_getFld_getLsbD, if_neg (by omega)]
  case h_2 hw1c => exact and_not_fldMask_getLsbD (h (.inr hw1c))
  case h_3 => rfl

/-- A writable field that is not kept gives a bit that it covers the written value. -/
theorem FieldDef.put_getLsbD_of_covers {stopped locked : Bool} {w acc : W64} {f : FieldDef} {k : Nat} (hrw : f.acc = .rw)
    (hk : f.kept stopped locked = false) (hc : f.lo ≤ k ∧ k ≤ f.hi) : (f.put stopped locked w acc).getLsbD k = w.getLsbD k := by
  simp only [FieldDef.put, hrw, hk, Bool.false_eq_true, if_false]
  rw [putFld_getFld_getLsbD, if_pos hc]

/-- A bit that has the written value already keeps it under any field that does not clear by ones. -/
theorem FieldDef.put_getLsbD_of_eq {stopped locked : Bool} {w acc : W64} {f : FieldDef} {k : Nat} (hw1c : f.acc ≠ .w1c)
    (he : acc.getLsbD k = w.getLsbD k) : (f.put stopped locked w acc).getLsbD k = w.getLsbD k := by
  by_cases h : (f.acc = .rw ∧ f.kept stopped locked = false) ∧ (f.lo ≤ k ∧ k ≤ f.hi)
  · obtain ⟨⟨hrw, hk⟩, hc⟩ := h
    exact f.put_getLsbD_of_covers hrw hk hc
  · rw [f.put_getLsbD_of_outside, he]
    rintro (hrw | h1)
    · have hc : ¬ (f.lo ≤ k ∧ k ≤ f.hi) := fun hc => h ⟨hrw, hc⟩
      omega
    · exact absurd h1 hw1c

/-- A bit that no field writes keeps its value. -/
theorem RegDef.written_getLsbD_of_outside {d : RegDef} {stopped locked : Bool} {old w : W64} {k : Nat}
    (h : ∀ f ∈ d.fields, (f.acc = .rw ∧ f.kept stopped locked = false) ∨ f.acc = .w1c → k < f.lo ∨ f.hi < k) :
    (d.written stopped locked old w).getLsbD k = old.getLsbD k := by
  rw [RegDef.written_eq_foldl]
  exact List.foldlRecOn (motive := fun acc : W64 => acc.getLsbD k = old.getLsbD k) d.fields _ rfl
    (fun acc hacc f hf => (f.put_getLsbD_of_outside (h f hf)).trans hacc)

/-- A bit of a writable field takes its written value: the field gives it that value, and the fields after it leave it so. -/
theorem RegDef.written_getLsbD_of_covers {d : RegDef} {stopped locked : Bool} {old w : W64} {k : Nat} {f : FieldDef} (hf : f ∈ d.fields)
    (hrw : f.acc = .rw) (hk : f.kept stopped locked = false) (hc : f.lo ≤ k ∧ k ≤ f.hi) (hw1c : ∀ g ∈ d.fields, g.acc ≠ .w1c) :
    (d.written stopped locked old w).getLsbD k = w.getLsbD k := by
  obtain ⟨before, after, hl⟩ := List.append_of_mem hf
  rw [RegDef.written_eq_foldl, hl, List.foldl_append, List.foldl_cons]
  refine List.foldlRecOn (motive := fun acc : W64 => acc.getLsbD k = w.getLsbD k) after _ (f.put_getLsbD_of_covers hrw hk hc) ?_
  intro acc hacc g hg
  have hmem : g ∈ d.fields := by
    rw [hl]
    exact List.mem_append_right before (List.mem_cons_of_mem f hg)
  exact g.put_getLsbD_of_eq (hw1c g hmem) hacc

/-! ### When a write is refused, and what a refusal changes -/

section
variable {s : State} {a u n : Nat} {w : W64} {stopped locked : Bool} {d : RegDef}

/-- A field out of its range refuses the whole write (R67). -/
theorem settingWrite_badRange (hl : lookupReg a = some (d, u, n)) (hr : d.readOnly = false) (hb : d.fields.any (fun f => f.badRange w) = true) :
    s.settingWrite a w stopped locked = s.refuse a := by
  simp only [State.settingWrite, hl, hr, hb, Bool.false_eq_true, if_false, if_true]

/-- A write whose writable fields are all kept is refused (R9). -/
theorem settingWrite_all_kept (hl : lookupReg a = some (d, u, n)) (hr : d.readOnly = false) (hb : d.fields.any (fun f => f.badRange w) = false)
    (hk : ∀ f ∈ d.fields, f.acc ≠ .ro → f.kept stopped locked = true) : s.settingWrite a w stopped locked = s.refuse a := by
  have hall : (d.fields.filter (fun f => f.acc != .ro)).all (fun f => f.kept stopped locked) = true := by
    rw [List.all_eq_true]
    intro f hf
    obtain ⟨hmem, hro⟩ := List.mem_filter.mp hf
    exact hk f hmem (bne_iff_ne.mp hro)
  simp only [State.settingWrite, hl, hr, hb, hall, Bool.false_eq_true, if_false, if_true]

end

theorem FieldDef.kept_iff (f : FieldDef) (stopped locked : Bool) :
    f.kept stopped locked = true ↔ (f.cls = .s ∧ stopped = false) ∨ (f.cls = .b ∧ locked = true) := by
  simp [FieldDef.kept]

theorem State.refuse_rw_ne (s : State) {a b : Nat} (h : b ≠ rXREF_OFFSET (refBlk a)) : (s.refuse a).rw b = s.rw b := by
  rw [State.refuse, State.answer_rw_of, State.rw_wr_ne _ _ _ h.symm, State.bumpErr_rw_of]

theorem State.refuse_lv (s : State) (a x : Nat) : (s.refuse a).lv x = (s.bumpErr (rXREFUSED (refBlk a))).lv x := by
  rw [State.refuse, State.answer_lv_of, State.wr_lv_of]

theorem State.refuse_resp (s : State) (a : Nat) : (s.refuse a).resp = .refused := rfl

/-- Settles O10: a write whose writable fields are all kept is `refuse`, which touches one register and one counter. -/
theorem refusedWritesKeepTheSetting : Obligations.RefusedWritesKeepTheSetting := by
  unfold Obligations.RefusedWritesKeepTheSetting
  refine ⟨?refused, ?bits, ?registers, ?counted⟩
  case refused =>
    intro s a u n w stopped locked d hl hr hb hk
    exact settingWrite_all_kept hl hr hb (fun f hf hro => (f.kept_iff stopped locked).mpr (hk f hf hro))
  case bits =>
    intro d stopped locked old w k h
    exact RegDef.written_getLsbD_of_outside h
  case registers =>
    intro s a b h
    exact s.refuse_rw_ne h
  case counted =>
    intro s a
    exact ⟨s.refuse_lv a _, s.refuse_resp a, s.refuse_frozen a⟩

/-- Settles O11: a field's bits follow from the fold over the fields; the rest is how `settingWrite` decides. -/
theorem writtenFieldsTakeTheirBits : Obligations.WrittenFieldsTakeTheirBits := by
  unfold Obligations.WrittenFieldsTakeTheirBits
  refine ⟨?bits, ?outOfRange, ?accepted, ?registers⟩
  case bits =>
    intro d stopped locked old w k hcov hw1c _
    obtain ⟨f, hf, hcond⟩ := List.any_eq_true.mp hcov
    simp only [Bool.and_eq_true, beq_iff_eq, Bool.not_eq_true', decide_eq_true_eq] at hcond
    obtain ⟨⟨hrw, hk⟩, hc⟩ := hcond
    exact RegDef.written_getLsbD_of_covers hf hrw hk hc (fun g hg => bne_iff_ne.mp (List.all_eq_true.mp hw1c g hg))
  case outOfRange =>
    intro s a u n w stopped locked d hl hr hb
    exact settingWrite_badRange hl hr hb
  case accepted =>
    rintro s a u n w d hl hr hb ⟨f, hf, hro⟩
    exact settingWrite_free hl hr hb (List.ne_nil_of_mem (List.mem_filter.mpr ⟨hf, bne_iff_ne.mpr hro⟩))
  case registers =>
    intro s a b w h
    exact State.rw_setRw_ne s w h.symm

end Sys2Proof.Machine
end

section
/-! PROOFS. Scope, accesses: register writes by size (R488), addresses that are not assigned or only read (R4, R489), and the clears of a crossing
page (R22, R24). -/
namespace Sys2Proof.Machine

/-! ### Register writes -/

theorem regPlace_of_used {a : Nat} (h : usedAddr a = true) : regPlace a = (a, false) := by
  simp [regPlace, h]

/-- A 32-bit write to a 32-bit register that passes the checks is the register's effect. -/
theorem busWrite32_narrow {s : State} {who : Who} {t a : Nat} {w : W32} (hu : usedAddr a = true) (hn : isWide a = false)
    (h : s.mayWrite who a) : s.begin.busWrite32 who t a w = s.accepted.regEffect who t a (wide w) := by
  simp only [State.busWrite32, regPlace_of_used hu]
  rw [write_ok h, if_pos hn]

/-- A 64-bit write to a 64-bit register that passes the checks is taken whole. -/
theorem busWrite_wide {s : State} {who : Who} {t a : Nat} {w : W64} (hw : isWide a = true) (h : s.mayWrite who a) :
    s.begin.busWrite who t a true w = s.accepted.takeWide who t a w := by
  rw [State.busWrite, if_neg Bool.noConfusion, if_pos hw, write_ok h]

/-- A 64-bit write elsewhere is two 32-bit writes, the low word first. -/
theorem busWrite_halves {s : State} {who : Who} {t a : Nat} {w : W64} (hn : isWide a = false) :
    s.busWrite who t a true w = (s.busWrite32 who t a (w.setWidth 32)).busWrite32 who t (a + 4) ((w >>> 32).setWidth 32) := by
  rw [State.busWrite, if_neg Bool.noConfusion, if_neg (Bool.eq_false_iff.mp hn)]

/-- Settles O19, by the width of the access and of the register. -/
theorem registerWriteReachesRegister : Obligations.RegisterWriteReachesRegister := by
  unfold Obligations.RegisterWriteReachesRegister
  refine ⟨?narrow, ?whole, ?halves⟩
  case narrow =>
    intro who a w t s hu hn h
    exact congrArg Host.Outcome.next (busWrite32_narrow hu hn h)
  case whole =>
    intro who a w t s hw h
    exact congrArg Host.Outcome.next (busWrite_wide hw h)
  case halves =>
    intro who a w t s hn
    exact congrArg Host.Outcome.next (busWrite_halves hn)

/-! ### Accesses outside the registers -/

theorem State.alive_begin (s : State) (who : Who) : s.begin.alive who = s.alive who := by
  cases who <;> rfl

/-- An access of an address that is not assigned is its maker's violation (R4). -/
theorem execUnassignedAccess_eq {who : Who} {a : BitVec 36} {kind : Fin 3} {s : State} (ha : assignedAddr a.toNat = false)
    (hw : s.alive who = true) :
    execUnassignedAccess who a kind s = .next (s.begin.accessViolation who 5 9 a.toNat (kind == 1) (kind == 2)) := by
  simp only [execUnassignedAccess, State.alive_begin, ha, hw, Bool.not_true, Bool.or_false, Bool.false_eq_true, if_false]

/-- A write to the boot ROM or the eNVM window is its maker's violation (R489). -/
theorem execReadOnlyMemoryAccess_write {who : Who} {a : BitVec 36} {s : State}
    (ha : a.toNat < 0x10000 ∨ (0x08000000 ≤ a.toNat ∧ a.toNat < 0x09000000)) (hw : s.alive who = true) :
    execReadOnlyMemoryAccess who a 1 s = .next (s.begin.accessViolation who 6 0xA a.toNat true false) := by
  simp only [execReadOnlyMemoryAccess, State.alive_begin, hw, Bool.not_true, Bool.false_eq_true, if_false]
  rcases ha with hrom | hwin
  · rw [if_pos hrom]
    rfl
  · rw [if_neg (by omega), if_pos hwin]
    rfl

/-- A read of the eNVM window that R312 allows gives the byte, unless the sector is being programmed or erased. -/
theorem execReadOnlyMemoryAccess_window {who : Who} {a : BitVec 36} {kind : Fin 3} {s : State} (hlo : 0x08000000 ≤ a.toNat)
    (hhi : a.toNat < 0x09000000) (hw : s.alive who = true) (hk : kind ≠ 1)
    (hr : envReadable who ((a.toNat - 0x08000000) / 0x10000) = true) (hb : s.sectorBusy ((a.toNat - 0x08000000) / 0x10000) = false) :
    execReadOnlyMemoryAccess who a kind s = .next (s.begin.answer (.bytes [s.envB (a.toNat - 0x08000000)])) := by
  have hb' : s.begin.sectorBusy ((a.toNat - 0x08000000) / 0x10000) = false := hb
  have hk' : (kind == 1) = false := beq_false_of_ne hk
  simp only [execReadOnlyMemoryAccess, State.alive_begin, hw, hk', hr, hb', Bool.not_true, Bool.or_false, Bool.false_eq_true, if_false]
  rw [if_neg (by omega), if_pos ⟨hlo, hhi⟩]
  rfl

/-! ### The crossing page's clears -/

theorem wrXcntClr_refused (s : State) (id : Nat) : s.wrXcntClr id (wBit 0 fXCNT_CLR_CLR_REFUSED) = s.clearCnt (rXREFUSED id) := rfl

theorem wrXcntClr_stale (s : State) (id : Nat) :
    s.wrXcntClr id (wBit 0 fXCNT_CLR_CLR_STALE) = (s.clearCnt (rXSTALE id)).wr (rSTALE_SUMMARY (id / 16)) ⟨id % 16, 1⟩ 0 := rfl

/-- Settles O20: violations by who makes the access, the allowed read, and the three clears past their checks. -/
theorem otherAddressesAndCrossingPageAnswer : Obligations.OtherAddressesAndCrossingPageAnswer := by
  unfold Obligations.OtherAddressesAndCrossingPageAnswer
  refine ⟨?hartUnassigned, ?keeperUnassigned, ?hartWrite, ?keeperRead, ?xclr, ?clrRefused, ?clrStale⟩
  case hartUnassigned =>
    intro h a kind s ha hw
    exact execUnassignedAccess_eq ha hw
  case keeperUnassigned =>
    intro a kind s ha hw
    exact execUnassignedAccess_eq ha hw
  case hartWrite =>
    intro h a s ha hw
    exact execReadOnlyMemoryAccess_write ha hw
  case keeperRead =>
    intro a kind s hlo hhi hw hk hb
    exact execReadOnlyMemoryAccess_window hlo hhi hw hk rfl hb
  case xclr =>
    intro who blk w lost s h
    show execXclr who blk w lost s = _
    rw [execXclr, write_ok h]
  case clrRefused =>
    intro who blk s h
    show execClrRefused who blk s = _
    rw [execClrRefused, write_ok h, wrXcntClr_refused]
  case clrStale =>
    intro who blk s h
    show execClrStale who blk s = _
    rw [execClrStale, write_ok h, wrXcntClr_stale]

end Sys2Proof.Machine
end

section
/-! PROOFS. Scope, tallies: what becomes of a tally request (R32), and the commands of the tally block (R28 to R37). -/
namespace Sys2Proof.Machine

/-! ### Tally requests (R32) -/

section
variable {s : State} {src r : TallySrc}

/-- While TEL is busy, a request is handled by its source. -/
theorem State.tallyRequest_busy (hb : s.tallyBusy = true) : s.tallyRequest src = s.tallyMissed src := by
  rw [State.tallyRequest, if_pos hb]

/-- Idle TEL takes a request. -/
theorem State.tallyRequest_idle (hb : s.tallyBusy = false) (hr : s.tally.req = none) :
    s.tallyRequest src = { s with tally := { s.tally with req := some src } } := by
  simp only [State.tallyRequest, hb, hr, Bool.false_eq_true, if_false]

/-- Of two requests on one edge, the later one of higher rank displaces the first, which is handled as if TEL were busy. -/
theorem State.tallyRequest_displaces (hb : s.tallyBusy = false) (hr : s.tally.req = some r) (hlt : src.rank < r.rank) :
    s.tallyRequest src = ({ s with tally := { s.tally with req := some src } }).tallyMissed r := by
  simp only [State.tallyRequest, hb, hr, hlt, Bool.false_eq_true, if_false, if_true]

end

/-- SAVE has the highest rank. -/
theorem TallySrc.save_rank_lt {r : TallySrc} (h : r ≠ .save) : TallySrc.save.rank < r.rank := by
  cases r with
  | save => exact absurd rfl h
  | frame | software | periodic => decide

/-- A missed frame tally is reported. -/
theorem State.tallyMissed_frame_missed (s : State) : (s.tallyMissed .frame).rd rTALLY_STAT fTALLY_STAT_FRAME_MISSED = 1 := by
  have hne : rTALLY_CTRL ≠ rTALLY_STAT := by decide
  rw [State.tallyMissed, State.rd_wr_ne _ _ _ _ hne, State.rd_wr_same _ _ _ _ (by decide)]
  rfl

/-- A missed frame tally is no longer armed. -/
theorem State.tallyMissed_frame_disarms (s : State) : (s.tallyMissed .frame).rd rTALLY_CTRL fTALLY_CTRL_ARM = 0 := by
  rw [State.tallyMissed, State.rd_wr_same _ _ _ _ (by decide)]
  rfl

/-- Settles O23: a busy TEL misses the request, an idle one takes it, and SAVE outranks every other source. -/
theorem tallyRequestRule : Obligations.TallyRequestRule := by
  unfold Obligations.TallyRequestRule
  refine ⟨?idle, ?busy, ?displaces⟩
  case idle =>
    intro src s hb hr
    exact State.tallyRequest_idle hb hr
  case busy =>
    intro s hb
    simp only [State.tallyRequest_busy hb]
    exact ⟨rfl, rfl, rfl, s.tallyMissed_frame_missed, s.tallyMissed_frame_disarms⟩
  case displaces =>
    intro s r hb hr hne
    exact State.tallyRequest_displaces hb hr (TallySrc.save_rank_lt hne)

/-! ### TALLY_PERIOD (R34) -/

theorem lookupReg_tallyPeriod : lookupReg rTALLY_PERIOD = some (regTEL_TALLY_PERIOD, 0, 0) := by decide

/-- A period in its range is stored. -/
theorem settingWrite_tallyPeriod {s : State} {w : W64} (h : regBadRange rTALLY_PERIOD w = false) :
    s.settingWrite rTALLY_PERIOD w true false = (s.setRw rTALLY_PERIOD (putFld (s.rw rTALLY_PERIOD) fTALLY_PERIOD_PERIOD_MS
      (getFld w fTALLY_PERIOD_PERIOD_MS))).answer .ok := by
  have hb : regTEL_TALLY_PERIOD.fields.any (fun f => f.badRange w) = false := by
    rwa [regBadRange, lookupReg_tallyPeriod] at h
  exact settingWrite_free lookupReg_tallyPeriod rfl hb (by decide)

/-- A period in its range is stored and restarts a running timer. -/
theorem State.wrTallyPeriod_eq {s : State} {w : W64} (h : regBadRange rTALLY_PERIOD w = false) :
    s.wrTallyPeriod w =
      (let s1 := (s.setRw rTALLY_PERIOD (putFld (s.rw rTALLY_PERIOD) fTALLY_PERIOD_PERIOD_MS
         (getFld w fTALLY_PERIOD_PERIOD_MS))).answer .ok
       if s.tally.timer.isSome then { s1 with tally := { s.tally with timer := some (s1.rd rTALLY_PERIOD fTALLY_PERIOD_PERIOD_MS) } }
       else s1) := by
  simp only [State.wrTallyPeriod, settingWrite_tallyPeriod h, h, Bool.false_eq_true, if_false, State.answer_tally, State.setRw_tally]

/-! ### The timer's expiry, launch, acknowledgements and the time-out (R28, R30, R31) -/

@[simp] theorem State.tallyBusy_begin (s : State) : s.begin.tallyBusy = s.tallyBusy := rfl

section
variable {s : State}

/-- Outside SAVING, a running timer starts its next period and requests a tally. -/
theorem execPeriodicTimerExpiry_running (ht : s.tally.timer.isSome = true) (hd : s.dstate ≠ 6) :
    execPeriodicTimerExpiry s = .next (({ s.begin with tally := { s.tally with
      timer := some (s.rd rTALLY_PERIOD fTALLY_PERIOD_PERIOD_MS) } }).tallyRequest .periodic) := by
  have ht' : s.begin.tally.timer.isSome = true := ht
  exact congrArg Host.Outcome.next ((if_pos ht').trans (if_neg hd))

/-- Outside SAVING, no island is shed for the tally that launches. -/
theorem execTallyLaunch_not_saving {t : Nat} (hd : s.dstate ≠ 6) : execTallyLaunch t s = .next (s.begin.tallyLaunch (t / 1000)) := by
  have hd' : (s.begin.dstate == 6) = false := beq_false_of_ne hd
  simp only [execTallyLaunch, hd', Bool.and_false, Bool.false_eq_true, if_false]

/-- An acknowledgement that was waited for is recorded, and the last one ends the tally. -/
theorem execTallyAcknowledge_eq {isl : Fin 31} (hb : s.tallyBusy = true) (hw : bitOf s.tally.waiting isl = true) :
    execTallyAcknowledge isl s = .next
      (let s1 := { s.begin with tally := { s.tally with
         waiting := setBitN s.tally.waiting isl false, acked := setBitN s.tally.acked isl true } }
       if setBitN s.tally.waiting isl false = 0 then s1.tallyDone false else s1) := by
  have hc : (s.begin.tallyBusy && bitOf s.begin.tally.waiting isl) = true := by
    rw [State.tallyBusy_begin, State.begin_tally, hb, hw, Bool.and_self]
  exact congrArg Host.Outcome.next (if_pos hc)

/-- The time-out with an acknowledgement missing ends the tally as partial. -/
theorem execTallyTimeout_eq (hb : s.tallyBusy = true) (hw : s.tally.waiting ≠ 0) :
    execTallyTimeout s = .next (s.begin.tallyDone true) := by
  have hc : (s.begin.tallyBusy && s.begin.tally.waiting != 0) = true := by
    rw [State.tallyBusy_begin, State.begin_tally, hb, bne_iff_ne.mpr hw, Bool.and_self]
  exact congrArg Host.Outcome.next (if_pos hc)

end

/-- Settles O22: the writes past their checks, and each event of a running tally by its law. -/
theorem tallyCommandsComplete : Obligations.TallyCommandsComplete := by
  unfold Obligations.TallyCommandsComplete
  refine ⟨?software, ?arm, ?periodicEn, ?periodMs, ?expiry, ?launch, ?more, ?last, ?timeout, ?energy⟩
  case software =>
    intro who s h
    exact congrArg Host.Outcome.next (write_ok h _)
  case arm =>
    intro who arm pipe s h
    exact congrArg Host.Outcome.next (write_ok h _)
  case periodicEn =>
    intro who en s h
    exact congrArg Host.Outcome.next (write_ok h _)
  case periodMs =>
    intro who w s h hr
    exact congrArg Host.Outcome.next ((write_ok h _).trans (State.wrTallyPeriod_eq hr))
  case expiry =>
    intro s ht hd
    exact execPeriodicTimerExpiry_running ht hd
  case launch =>
    intro src t s _ _ hd
    exact execTallyLaunch_not_saving hd
  case more =>
    intro isl s hb hw hmore
    exact (execTallyAcknowledge_eq hb hw).trans (congrArg Host.Outcome.next (if_neg hmore))
  case last =>
    intro isl s hb hw hlast
    have h := execTallyAcknowledge_eq hb hw
    rw [hlast] at h
    exact h.trans (congrArg Host.Outcome.next (if_pos rfl))
  case timeout =>
    intro s hb hw
    exact execTallyTimeout_eq hb hw
  case energy =>
    intro e es s
    show execEnergyBilling (e :: es) s = _
    rw [execEnergyBilling, List.foldl_cons]

end Sys2Proof.Machine
end

section
/-! PROOFS. Scope, units: the commands outside the unit families leave the units' own state alone (`sameUnits`). -/
namespace Sys2Proof.Machine

/-- A command outside the unit families keeps every property that speaks neither of the units nor of the memories. Each arm is the law of
its command, for the weakest kind of property that the command keeps. -/
theorem exec_keeps_of_not_touchesUnits {P : State → Prop} (hS : KeepSys P) {i : Instr} {s : State} (hi : touchesUnits i = false) (hs : P s) :
    ∃ t, exec i s = .next t ∧ P t := by
  have hC : KeepCore P := hS.toKeepCore
  cases i with
  | unassignedAccess => exact execUnassignedAccess_stable (hsK := hs) hC ..
  | readOnlyMemoryAccess => exact execReadOnlyMemoryAccess_stable (hsK := hs) hS ..
  | xclr => exact execXclr_stable (hsK := hs) hC ..
  | clrRefused => exact execClrRefused_stable (hsK := hs) hC ..
  | clrStale => exact execClrStale_stable (hsK := hs) hC ..
  | softwareTally => exact execSoftwareTally_stable (hsK := hs) hC ..
  | arm => exact execArm_stable (hsK := hs) hC ..
  | periodicEn => exact execPeriodicEn_stable (hsK := hs) hC ..
  | periodMs => exact execPeriodMs_stable (hsK := hs) hC ..
  | periodicTimerExpiry => exact execPeriodicTimerExpiry_stable (hsK := hs) hC ..
  | tallyLaunch => exact execTallyLaunch_stable (hsK := hs) hS ..
  | tallyAcknowledge => exact execTallyAcknowledge_stable (hsK := hs) hC ..
  | tallyTimeout => exact execTallyTimeout_stable (hsK := hs) hC ..
  | energyBilling => exact execEnergyBilling_stable (hsK := hs) hC ..
  | timingChangeGo => exact execTimingChangeGo_stable (hsK := hs) hC ..
  | syncOutPulseEnd => exact execSyncOutPulseEnd_stable (hsK := hs) hC ..
  | lutWindowWrite => exact execLutWindowWrite_stable (hsK := hs) hC ..
  | awningFaultMasked => exact execAwningFaultMasked_stable (hsK := hs) hC ..
  | afclr => exact execAfclr_stable (hsK := hs) hC ..
  | fvalWrite => exact execFvalWrite_stable (hsK := hs) hC ..
  | fadd => exact execFadd_stable (hsK := hs) hC ..
  | pcfgWrite => exact execPcfgWrite_stable (hsK := hs) hC ..
  | tinv => exact execTinv_stable (hsK := hs) hC ..
  | tinvDone => exact execTinvDone_stable (hsK := hs) hC ..
  | scfgWrite => exact execScfgWrite_stable (hsK := hs) hC ..
  | imaskWrite => exact execImaskWrite_stable (hsK := hs) hC ..
  | mailboxGo => exact execMailboxGo_stable (hsK := hs) hS ..
  | mailboxResponse => exact execMailboxResponse_stable (hsK := hs) hC ..
  | wcall => exact execWcall_stable (hsK := hs) hS ..
  | wcRsp => exact execWcRsp_stable (hsK := hs) hS ..
  | wcLimitExpiry => exact execWcLimitExpiry_stable (hsK := hs) hS ..
  | version => exact execVersion_stable (hsK := hs) hS ..
  | measExtend => exact execMeasExtend_stable (hsK := hs) hS ..
  | sealStall => exact execSealStall_stable (hsK := hs) hS ..
  | unsealStall => exact execUnsealStall_stable (hsK := hs) hS ..
  | keeperWatchdogExpiry => exact execKeeperWatchdogExpiry_stable (hsK := hs) hS ..
  | lockstepMismatch => exact execLockstepMismatch_stable (hsK := hs) hS ..
  | svcThaw => exact execSvcThaw_stable (hsK := hs) hS ..
  | kevtRead => exact execKevtRead_stable (hsK := hs) hC ..
  | recoveryTimeout => exact execRecoveryTimeout_stable (hsK := hs) hS ..
  | train => exact execTrain_stable (hsK := hs) hC ..
  | channelTrained => exact execChannelTrained_stable (hsK := hs) hC ..
  | retrain => exact execRetrain_stable (hsK := hs) hC ..
  | build => exact execBuild_stable (hsK := hs) hS ..
  | driftStep => exact execDriftStep_stable (hsK := hs) hS ..
  | trefi => exact execTrefi_stable (hsK := hs) hS ..
  | activationTableClear => exact execActivationTableClear_stable (hsK := hs) hS ..
  | memoryRequest => exact execMemoryRequest_stable (hsK := hs) hS ..
  | agePromotion => exact execAgePromotion_stable (hsK := hs) hS ..
  | panicFlagChange => exact execPanicFlagChange_stable (hsK := hs) hS ..
  | refreshFactorRead => exact execRefreshFactorRead_stable (hsK := hs) hC ..
  | memoryReadData => exact execMemoryReadData_stable (hsK := hs) hS ..
  | eccInitDone => exact execEccInitDone_stable (hsK := hs) hC ..
  | patrolScrubStep => exact execPatrolScrubStep_stable (hsK := hs) hS ..
  | sramScrubStep => exact execSramScrubStep_stable (hsK := hs) hS ..
  | erase => exact execErase_stable (hsK := hs) hS ..
  | program => exact execProgram_stable (hsK := hs) hS ..
  | blankCheck => exact execBlankCheck_stable (hsK := hs) hS ..
  | resetRun => exact execResetRun_stable (hsK := hs) hC ..
  | feLfclr => exact execFeLfclr_stable (hsK := hs) hC ..
  | read => exact execRead_stable (hsK := hs) hS ..
  | readBlock => exact execReadBlock_stable (hsK := hs) hS ..
  | opSuspend => exact execOpSuspend_stable (hsK := hs) hS ..
  | opResume => exact execOpResume_stable (hsK := hs) hS ..
  | exportAckTimeout => exact execExportAckTimeout_stable (hsK := hs) hS ..
  | heartbeat => exact execHeartbeat_stable (hsK := hs) hS ..
  | heartbeatTimer => exact execHeartbeatTimer_stable (hsK := hs) hS ..
  | hostLoss => exact execHostLoss_stable (hsK := hs) hS ..
  | sessionIdleExpiry => exact execSessionIdleExpiry_stable (hsK := hs) hS ..
  | devNonceExpiry => exact execDevNonceExpiry_stable (hsK := hs) hS ..
  | nodeResetComm => exact execNodeResetComm_stable (hsK := hs) hS ..
  | nodeResetDevice => exact execNodeResetDevice_stable (hsK := hs) hS ..
  | factoryTimeout => exact execFactoryTimeout_stable (hsK := hs) hS ..
  | thermalPoll => exact execThermalPoll_stable (hsK := hs) hS ..
  | vinSenseFall => exact execVinSenseFall_stable (hsK := hs) hS ..
  | vinSenseRise => exact execVinSenseRise_stable (hsK := hs) hS ..
  | islandPoweredOn => exact execIslandPoweredOn_stable (hsK := hs) hS ..
  | regCfgWrite => exact execRegCfgWrite_stable (hsK := hs) hS ..
  | regulatorTransactionDone => exact execRegulatorTransactionDone_stable (hsK := hs) hS ..
  | railSettled => exact execRailSettled_stable (hsK := hs) hS ..
  | pgRise => exact execPgRise_stable (hsK := hs) hS ..
  | pgDrop => exact execPgDrop_stable (hsK := hs) hC ..
  | resetOutRelease => exact execResetOutRelease_stable (hsK := hs) hS ..
  | vkindRead => exact execVkindRead_stable (hsK := hs) hC ..
  | svcVrecRead => exact execSvcVrecRead_stable (hsK := hs) hC ..
  | chFaultKindRead => exact execChFaultKindRead_stable (hsK := hs) hC ..
  | pgRaiseTimeout => exact execPgRaiseTimeout_stable (hsK := hs) hS ..
  | configRequest => exact execConfigRequest_stable (hsK := hs) hS ..
  | pcieLinkUp => exact execPcieLinkUp_stable (hsK := hs) hS ..
  | _ => exact Bool.noConfusion hi

theorem State.sameUnits_refl (s : State) : s.sameUnits s := ⟨rfl, rfl, rfl, rfl, rfl, rfl, rfl, rfl, rfl, rfl, rfl⟩

/-- Settles O6: to have the units of a given state is a property that every command outside the unit families keeps. -/
theorem unitsFrame : Obligations.UnitsFrame := by
  unfold Obligations.UnitsFrame
  intro i s t hi ht
  obtain ⟨u, hu, hsame⟩ := exec_keeps_of_not_touchesUnits (units_keep s) hi s.sameUnits_refl
  rw [hu] at ht
  cases ht
  exact hsame

end Sys2Proof.Machine
end

section
/-! PROOFS. Scope, pipes: PCTRL, and the steps of a live timing change (R44 to R47, R54). -/
namespace Sys2Proof.Machine

/-- A one-bit field reads 1 after it was set. -/
theorem getFld_wBit_same {w : W64} {f : Fld} (hw : f.w = 1) (h : f.lo + f.w ≤ 64) : getFld (wBit w f) f = 1 := by
  rw [wBit, getFld_putFld_same w f 1 h, hw]
  rfl

/-! ### START and STOP (R46, R47) -/

section
variable {s : State} {p : Nat}

/-- START is taken by a stopped pipe whose timing is in limits and fits the link at its highest setting. -/
theorem State.pipeStart_accepted {t : Nat} (hst : s.pst p = stSTOPPED) (hstop : (s.pipe p).stop = .none) (hd : 3 ≤ s.dstate)
    (hl : (s.tmg p).inLimits (s.pipe p).guard = true)
    (hf : (s.tmg p).fits (s.rd (rLINK_CFG p) fLINK_CFG_MAX_RATE) (s.rd (rLINK_CFG p) fLINK_CFG_MAX_LANES) = true) :
    s.pipeStart p t = (s.beginTraining p .start .none).frameBegin p t false := by
  have hstate : ¬ (s.pst p ≠ stSTOPPED ∨ (s.pipe p).stop ≠ .none ∨ s.dstate < 3) := by
    rintro (h | h | h)
    · exact h hst
    · exact h hstop
    · omega
  rw [State.pipeStart, if_neg hstate, if_neg (ne_false_of_eq_true hl), if_neg (ne_false_of_eq_true hf)]

/-- STOP of a pipe that is not stopped, and that no STOP has reached, acts by whether the pipe sends video. -/
theorem State.pipeStop_taken (hst : s.pst p ≠ stSTOPPED) (hstop : (s.pipe p).stop = .none) :
    s.pipeStop p = if s.pst p = stRUNNING ∨ s.pst p = stBLANKED then s.modPipe p (fun x => { x with stop := .atBoundary }) else s.stopIdle p := by
  have hon : ¬ (s.pst p = stSTOPPED ∨ (s.pipe p).stop ≠ .none) := by
    rintro (h | h)
    · exact hst h
    · exact h hstop
  exact if_neg hon

/-- STOP waits for the boundary of a pipe that sends video. -/
theorem State.pipeStop_sending (hst : s.pst p = stRUNNING ∨ s.pst p = stBLANKED) (hstop : (s.pipe p).stop = .none) :
    s.pipeStop p = s.modPipe p (fun x => { x with stop := .atBoundary }) := by
  have hon : s.pst p ≠ stSTOPPED := by
    rcases hst with h | h
    · rw [h]; decide
    · rw [h]; decide
  rw [State.pipeStop_taken hon hstop, if_pos hst]

/-- STOP acts at once on a pipe that trains or is in FAULT. -/
theorem State.pipeStop_not_sending (hst : s.pst p = stTRAINING ∨ s.pst p = stFAULT) (hstop : (s.pipe p).stop = .none) :
    s.pipeStop p = s.stopIdle p := by
  have hon : s.pst p ≠ stSTOPPED := by
    rcases hst with h | h
    · rw [h]; decide
    · rw [h]; decide
  have hvideo : ¬ (s.pst p = stRUNNING ∨ s.pst p = stBLANKED) := by
    rcases hst with h | h
    · rw [h]; decide
    · rw [h]; decide
  rw [State.pipeStop_taken hon hstop, if_neg hvideo]

end

/-- Settles O24: the PCTRL writes past their checks, and what START and STOP do by the state of the pipe. -/
theorem pipeStartStopComplete : Obligations.PipeStartStopComplete := by
  unfold Obligations.PipeStartStopComplete
  refine ⟨?start, ?accepted, ?stop, ?sending, ?notSending, ?autoRecover, ?stopped⟩
  case start =>
    intro who p t s h
    exact congrArg Host.Outcome.next (write_ok h _)
  case accepted =>
    intro p t s hst hstop hd hl hf
    exact State.pipeStart_accepted hst hstop hd hl hf
  case stop =>
    intro who p s h
    exact congrArg Host.Outcome.next (write_ok h _)
  case sending =>
    intro p s hst hstop
    exact State.pipeStop_sending hst hstop
  case notSending =>
    intro p s hst hstop
    exact State.pipeStop_not_sending hst hstop
  case autoRecover =>
    intro who p en s h
    exact congrArg Host.Outcome.next (write_ok h _)
  case stopped =>
    intro p s hstop
    exact congrArg Host.Outcome.next (guard_true (decide_eq_true hstop) _)

/-! ### Live timing change (R54) -/

/-- A write of TNX_CTRL with GO whose fields are in range requests the change after the fields are stored. -/
theorem State.wrTnxCtrl_go {s : State} {p : Nat} {w : W64} (hr : regBadRange (rTNX_CTRL p) (wBit w fTNX_CTRL_GO) = false) :
    s.wrTnxCtrl p (wBit w fTNX_CTRL_GO) = (s.settingWrite (rTNX_CTRL p) (wBit w fTNX_CTRL_GO) true false).timingGo p := by
  simp only [State.wrTnxCtrl, hr, getFld_wBit_same (f := fTNX_CTRL_GO) rfl (by decide), Bool.false_eq_true, if_false, if_true]

/-- GO is taken by a pipe that sends video when no change waits and the new timing is in limits and fits the link that it keeps. -/
theorem State.timingGo_accepted {s : State} {p : Nat} (hst : s.pst p = stRUNNING ∨ s.pst p = stBLANKED) (hstop : (s.pipe p).stop ≠ .idle)
    (hp : s.on (rTSTAT p) fTSTAT_PENDING = false) (hn : s.on (rTNX_CTRL p) fTNX_CTRL_NEW_LINK = false)
    (hl : (s.tnx p).inLimits (s.pipe p).guard = true)
    (hf : (s.tnx p).fits (s.rd (rLINK_STAT p) fLINK_STAT_RATE) (s.rd (rLINK_STAT p) fLINK_STAT_LANES) = true) :
    s.timingGo p = (s.wr (rTSTAT p) fTSTAT_PENDING 1).wr (rTSTAT p) fTSTAT_LATE (b2n (s.pipe p).latched) := by
  have hstate : ¬ ((s.pst p ≠ stRUNNING ∧ s.pst p ≠ stBLANKED) ∨ (s.pipe p).stop = .idle) := by tauto
  simp only [State.timingGo, if_neg hstate, hp, hn, hl, hf, Bool.false_eq_true, Bool.true_eq_false, if_false]

/-- Settles O25: GO past its checks, and each step of the change under the guard of its command. -/
theorem timingChangeCommandsComplete : Obligations.TimingChangeCommandsComplete := by
  unfold Obligations.TimingChangeCommandsComplete
  refine ⟨?go, ?accepted, ?lastOldFrame, ?settled, ?unlock⟩
  case go =>
    intro who p w s h hr
    exact congrArg Host.Outcome.next ((write_ok h _).trans (State.wrTnxCtrl_go hr))
  case accepted =>
    intro p s hst hstop hp hn hl hf
    exact State.timingGo_accepted hst hstop hp hn hl hf
  case lastOldFrame =>
    intro p t s hscan hblank hgo
    have hc : ((s.pipe p).scanning && (s.pipe p).vblank && (s.pipe p).goTaken) = true := by
      rw [hscan, hblank, hgo, Bool.and_self, Bool.and_self]
    exact congrArg Host.Outcome.next (guard_true hc _)
  case settled =>
    intro p t s hgap hset
    have hc : ((s.pipe p).gap && !(s.pipe p).settled) = true := by rw [hgap, hset, Bool.not_false, Bool.and_self]
    exact congrArg Host.Outcome.next (guard_true hc _)
  case unlock =>
    intro p t s hw hst hstop
    have hc : (s.works && decide (s.pst p ≠ stSTOPPED) && decide ((s.pipe p).stop ≠ .idle)) = true := by
      rw [hw, decide_eq_true hst, decide_eq_true hstop, Bool.and_self, Bool.and_self]
    exact congrArg Host.Outcome.next (guard_true hc _)

end Sys2Proof.Machine
end

section
/-! PROOFS. Scope, links: how a training ends, and what hot-plug events and lane-status reads do (R47 to R49, R51). -/
namespace Sys2Proof.Machine

/-! ### Training (R48, R49) -/

section
variable {s : State} {p : Fin 8} {t : Nat} {sr : Fin 4} {sl : Fin 3} {rl : Nat × Nat}

/-- A training that ends well is trained at the setting it tries. -/
theorem execLinkTrained_eq {tps : Fin 4} {lv : BitVec 16} (ht : s.trainingNow p = true) (hc : s.curSetting p sr sl = some rl) :
    execLinkTrained p t sr sl tps lv s = .next (s.begin.linkTrained p t rl tps lv.toNat) := by
  have hc' : s.begin.curSetting p sr sl = some rl := hc
  refine congrArg Host.Outcome.next ((guard_true ht _).trans ?_)
  simp only [hc']

/-- A failed training of a bring-up with AUTO_FALLBACK falls back to the next setting that fits. -/
theorem execTrainingFailed_fallback {rl' : Nat × Nat} (ht : s.trainingNow p = true)
    (hr : (s.pipe p).reason = .start ∨ (s.pipe p).reason = .retry) (ha : s.on (rLINK_CFG p) fLINK_CFG_AUTO_FALLBACK = true)
    (hc : s.curSetting p sr sl = some rl) (hn : firstFitting (s.tmg p) (lowerSettings (s.linkMax p sr sl).1 rl.1 rl.2).tail = some rl') :
    execTrainingFailed p t sr sl s = .next ((s.begin.dpcdSetup p rl).modPipe p (fun x => { x with setting := some rl' })) := by
  have hc' : s.begin.curSetting p sr sl = some rl := hc
  have hn' : firstFitting (s.begin.tmg p) (lowerSettings (s.begin.linkMax p sr sl).1 rl.1 rl.2).tail = some rl' := hn
  refine congrArg Host.Outcome.next ((guard_true ht _).trans ?_)
  simp only [State.begin_pipe_of, State.begin_on_of, hr, ha, hc', hn', decide_true, Bool.and_self, if_true]

/-- Without AUTO_FALLBACK a failed training ends in FAULT. -/
theorem execTrainingFailed_no_fallback (ht : s.trainingNow p = true) (ha : s.on (rLINK_CFG p) fLINK_CFG_AUTO_FALLBACK = false)
    (hc : s.curSetting p sr sl = some rl) : execTrainingFailed p t sr sl s = .next ((s.begin.dpcdSetup p rl).trainFault p t 2) := by
  have hc' : s.begin.curSetting p sr sl = some rl := hc
  refine congrArg Host.Outcome.next ((guard_true ht _).trans ?_)
  simp only [State.begin_on_of, ha, hc', Bool.and_false, Bool.false_eq_true, if_false]

end

/-! ### Lane status (R51, R45) -/

@[simp] theorem State.pipe_modPipe_same (s : State) (p : Nat) (f : PipeSt → PipeSt) : (s.modPipe p f).pipe p = f (s.pipe p) :=
  storeGet_put_same pipeDflt s.pipes p _

theorem rLINK_EVT_ne_rPSTATE (p : Nat) : rLINK_EVT p ≠ rPSTATE p := by
  simp only [rLINK_EVT, rPSTATE, blkAddr]
  omega

theorem rLINK_EVT_ne_rLINK_STAT (p : Nat) : rLINK_EVT p ≠ rLINK_STAT p := by
  simp only [rLINK_EVT, rLINK_STAT, blkAddr]
  omega

/-- Events of the link are no part of the pipe's state. -/
theorem State.pst_wr_linkEvt (s : State) (p : Nat) (f : Fld) (v : Nat) : (s.wr (rLINK_EVT p) f v).pst p = s.pst p :=
  s.rd_wr_ne f _ v (rLINK_EVT_ne_rPSTATE p)

section
variable {s : State} {p : Fin 8}

/-- A lost lane sets LINK_LOSS; a pipe that sends video then retrains at the setting in force. -/
theorem execLaneStatusRead_lost_sending (hl : (s.pipe p).laneRead = true) (hst : s.pst p = stRUNNING ∨ s.pst p = stBLANKED)
    (hstop : (s.pipe p).stop ≠ .idle) :
    execLaneStatusRead p true s = .next ((((s.begin.modPipe p (fun x => { x with laneRead := false })).wr (rLINK_EVT p)
      fLINK_EVT_LINK_LOSS 1).beginTraining p .sink (some (s.rd (rLINK_STAT p) fLINK_STAT_RATE, s.rd (rLINK_STAT p) fLINK_STAT_LANES))).modPipe p
      (fun x => { x with linkReady := !x.gap })) := by
  refine congrArg Host.Outcome.next ((guard_true hl _).trans ?_)
  simp only [if_true, State.rd_wr_ne _ _ _ _ (rLINK_EVT_ne_rLINK_STAT p), State.modPipe_rd_of, State.begin_rd_of]
  refine if_pos ⟨?_, ?_⟩
  · rw [State.pst_wr_linkEvt]
    exact hst
  · rw [State.wr_pipe_of, State.pipe_modPipe_same]
    exact hstop

/-- A lost lane sets LINK_LOSS; a pipe that sends no video goes on without the read. -/
theorem execLaneStatusRead_lost_not_sending (hl : (s.pipe p).laneRead = true) (hr : s.pst p ≠ stRUNNING) (hb : s.pst p ≠ stBLANKED) :
    execLaneStatusRead p true s = .next (((s.begin.modPipe p (fun x => { x with laneRead := false })).wr (rLINK_EVT p)
      fLINK_EVT_LINK_LOSS 1).auxFree p) := by
  refine congrArg Host.Outcome.next ((guard_true hl _).trans ((if_pos rfl).trans (if_neg ?_)))
  rw [State.pst_wr_linkEvt]
  rintro ⟨h | h, _⟩
  · exact hr h
  · exact hb h

end

/-- Settles O26: a running training ends by the law of its event; a lane-status read is judged by its result and the pipe's state. -/
theorem linkTrainingCommandsComplete : Obligations.LinkTrainingCommandsComplete := by
  unfold Obligations.LinkTrainingCommandsComplete
  refine ⟨?trained, ?fallback, ?noFallback, ?timeout, ?retry, ?lanesKept, ?lostSending, ?lostNotSending⟩
  case trained =>
    intro p t sr sl tps lv rl s ht hc
    exact execLinkTrained_eq ht hc
  case fallback =>
    intro p t sr sl rl rl' s ht hr ha hc hn
    exact execTrainingFailed_fallback ht hr ha hc hn
  case noFallback =>
    intro p t sr sl rl s ht ha hc
    exact execTrainingFailed_no_fallback ht ha hc
  case timeout =>
    intro p t s ht
    exact congrArg Host.Outcome.next (guard_true ht _)
  case retry =>
    intro p s hw hst hcause
    have hc : (s.works && s.pst p == stFAULT && decide (s.rd (rPSTATE p) fPSTATE_FAULT_CAUSE ≠ 1)) = true := by
      rw [hw, hst, decide_eq_true hcause, beq_self_eq_true, Bool.and_self, Bool.and_self]
    exact congrArg Host.Outcome.next (guard_true hc _)
  case lanesKept =>
    intro p s hl
    exact congrArg Host.Outcome.next (guard_true hl _)
  case lostSending =>
    intro p s hl hst hstop
    exact execLaneStatusRead_lost_sending hl hst hstop
  case lostNotSending =>
    intro p s hl hr hb
    exact execLaneStatusRead_lost_not_sending hl hr hb

/-! ### Hot plug (R51, R48) -/

section
variable {s : State} {p : Fin 8}

/-- A falling edge of a watched pin begins a low pulse. -/
theorem execHpdFall_watched (hh : (s.pipe p).hpd = true) (hw : s.hpdWatched p = true) :
    execHpdFall p s = .next (s.begin.modPipe p (fun x => { x with hpdLow := true })) := by
  have hw' : s.begin.hpdWatched p = true := hw
  refine congrArg Host.Outcome.next ((guard_true hh _).trans ?_)
  simp only [hw', if_true]

/-- The pin of an unpowered island only has its level. -/
theorem execHpdFall_unwatched (hh : (s.pipe p).hpd = true) (hw : s.hpdWatched p = false) :
    execHpdFall p s = .next (s.begin.modPipe p (fun x => { x with hpd := false })) := by
  have hw' : s.begin.hpdWatched p = false := hw
  refine congrArg Host.Outcome.next ((guard_true hh _).trans ?_)
  simp only [hw', Bool.false_eq_true, if_false]

/-- The end of a low pulse on a watched pin, by its length. -/
theorem execHpdRise_pulse {us : Nat} (hw : s.hpdWatched p = true) (hh : (s.pipe p).hpd = true) (hl : (s.pipe p).hpdLow = true) :
    execHpdRise p us s = .next (
      if us < 250 then s.begin.modPipe p (fun x => { x with hpdLow := false, waitHpd := x.waitHpd && !x.hpdStable })
      else if us ≤ 2000 then
        let s1 := s.begin.modPipe p (fun x => { x with hpdLow := false, hpdStable := false })
        if s1.hpdIgnored p || !s1.works then s1
        else ((s1.bumpEv (rHPD_IRQ p) 1).wr (rLINK_EVT p) fLINK_EVT_IRQ_HPD 1).modPipe p (fun x => { x with laneRead := true })
      else (s.begin.hpdUnplug p 0).hpdUp p) := by
  have hw' : s.begin.hpdWatched p = true := hw
  simp only [execHpdRise, State.begin_pipe_of, hw', hh, hl, Bool.true_eq_false, if_false]

/-- A pulse of 250 µs to 2 ms that is not ignored is an interrupt pulse: it is counted and the lanes are read. -/
theorem execHpdRise_interrupt {us : Nat} (hw : s.hpdWatched p = true) (hh : (s.pipe p).hpd = true) (hl : (s.pipe p).hpdLow = true)
    (hlo : 250 ≤ us) (hhi : us ≤ 2000) (hi : s.hpdIgnored p = false) (hk : s.works = true) :
    execHpdRise p us s = .next ((((s.begin.modPipe p (fun x => { x with hpdLow := false, hpdStable := false })).bumpEv (rHPD_IRQ p) 1).wr
      (rLINK_EVT p) fLINK_EVT_IRQ_HPD 1).modPipe p (fun x => { x with laneRead := true })) := by
  have hc : (s.hpdIgnored p || !s.works) ≠ true := by
    rw [hi, hk]
    decide
  rw [execHpdRise_pulse hw hh hl, if_neg (Nat.not_lt.mpr hlo), if_pos hhi]
  exact congrArg Host.Outcome.next (if_neg hc)

/-- The guard of HPD_UNPLUG and HPD_STABLE on a watched pin that is up. -/
theorem hpd_guard {b : Bool} (hw : s.hpdWatched p = true) (hh : (s.pipe p).hpd = true) (hb : b = true) :
    ((s.pipe p).hpd && b && s.hpdWatched p) = true := by
  rw [hw, hh, hb, Bool.and_self, Bool.and_self]

end

/-- Settles O27: the edges by the pin's state, and a pulse by its length. -/
theorem hpdCommandsComplete : Obligations.HpdCommandsComplete := by
  unfold Obligations.HpdCommandsComplete
  refine ⟨?fall, ?fallUnwatched, ?riseUnwatched, ?plug, ?short, ?interrupt, ?long, ?unplug, ?stable⟩
  case fall =>
    intro p s hh hw
    exact execHpdFall_watched hh hw
  case fallUnwatched =>
    intro p s hh hw
    exact execHpdFall_unwatched hh hw
  case riseUnwatched =>
    intro p us s hw
    exact congrArg Host.Outcome.next (if_pos hw)
  case plug =>
    intro p us s hw hh
    exact congrArg Host.Outcome.next ((if_neg (ne_false_of_eq_true hw)).trans (if_pos hh))
  case short =>
    intro p us s hw hh hl hus
    exact (execHpdRise_pulse hw hh hl).trans (congrArg Host.Outcome.next (if_pos hus))
  case interrupt =>
    intro p us s hw hh hl hlo hhi hi hk
    exact execHpdRise_interrupt hw hh hl hlo hhi hi hk
  case long =>
    intro p us s hw hh hl hus
    refine (execHpdRise_pulse hw hh hl).trans (congrArg Host.Outcome.next ?_)
    rw [if_neg (by omega), if_neg (by omega)]
  case unplug =>
    intro p t s hw hh hl
    exact congrArg Host.Outcome.next (guard_true (hpd_guard hw hh hl) _)
  case stable =>
    intro p s hw hh hl
    exact congrArg Host.Outcome.next (guard_true (hpd_guard hw hh (congrArg (!·) hl)) _)

end Sys2Proof.Machine
end

section
/-! PROOFS. Scope, AUX: the software transactions of a link (R52, R53). -/
namespace Sys2Proof.Machine

/-- GO does not change the command that is asked for. -/
theorem getFld_auxCmd_go (w : W64) : getFld (wBit w fAUX_CMD_GO) fAUX_CMD_CMD = getFld w fAUX_CMD_CMD :=
  getFld_putFld_ne w fAUX_CMD_GO fAUX_CMD_CMD 1 (by decide)

/-- A write of AUX_CMD with GO and a listed command, while no transaction runs, sets BUSY; the transaction waits for the transmitter's own use. -/
theorem State.wrAuxCmd_go {s : State} {p : Nat} {w : W64} (hc : ([0, 1, 4, 5, 8, 9] : List Nat).contains (getFld w fAUX_CMD_CMD) = true)
    (hb : s.on (rAUX_STAT p) fAUX_STAT_BUSY = false) :
    s.wrAuxCmd p (wBit w fAUX_CMD_GO) =
      (let s1 := (s.settingWrite (rAUX_CMD p) (wBit w fAUX_CMD_GO) true false).wr (rAUX_STAT p) fAUX_STAT_BUSY 1
       s1.modPipe p (fun x => { x with aux := if s1.auxBusySelf p then .waiting else .active, auxTries := 0 })) := by
  simp only [State.wrAuxCmd, getFld_auxCmd_go, getFld_wBit_same (f := fAUX_CMD_GO) rfl (by decide), hc, hb, Bool.not_true, Bool.false_eq_true,
    if_false, if_true]

section
variable {s : State} {p : Fin 8} {n : Nat} {d : List Byte}

/-- A DEFER is retried while tries are left. -/
theorem execAuxReply_defer_retry {code : Fin 3} (ha : (s.pipe p).aux = .active) (hc : code.val = 2) (hn : (s.pipe p).auxTries < 7) :
    execAuxReply p code n d s = .next (s.begin.modPipe p (fun x => { x with auxTries := x.auxTries + 1 })) :=
  congrArg Host.Outcome.next ((guard_true (decide_eq_true ha) _).trans ((if_pos hc).trans (if_pos hn)))

/-- The DEFER of the last try is reported. -/
theorem execAuxReply_defer_last (ha : (s.pipe p).aux = .active) (hn : 7 ≤ (s.pipe p).auxTries) :
    execAuxReply p 2 n d s = .next (s.begin.auxDone p 2 0 0) :=
  congrArg Host.Outcome.next ((guard_true (decide_eq_true ha) _).trans ((if_pos rfl).trans (if_neg (Nat.not_lt.mpr hn))))

/-- An acknowledged read stores its bytes, at most those asked for. -/
theorem execAuxReply_read_ack (ha : (s.pipe p).aux = .active) (hr : s.auxIsRead p = true) :
    execAuxReply p 0 n d s = .next ((s.begin.auxStore p (d.take (s.rd (rAUX_CMD p) fAUX_CMD_LEN + 1))).auxDone p 0 0
      (d.take (s.rd (rAUX_CMD p) fAUX_CMD_LEN + 1)).length) :=
  congrArg Host.Outcome.next ((guard_true (decide_eq_true ha) _).trans ((if_neg (by decide)).trans (if_pos hr)))

/-- The answer to a write reports the bytes that were transferred. -/
theorem execAuxReply_write {code : Fin 3} (ha : (s.pipe p).aux = .active) (hc : code.val ≠ 2) (hr : s.auxIsRead p = false) :
    execAuxReply p code n d s = .next (s.begin.auxDone p code 0 (min n (s.rd (rAUX_CMD p) fAUX_CMD_LEN + 1))) :=
  congrArg Host.Outcome.next ((guard_true (decide_eq_true ha) _).trans ((if_neg hc).trans (if_neg (ne_true_of_eq_false hr))))

end

/-- Settles O28: GO past its checks; a reply by its code, the kind of request and the tries left; a time-out by the tries left. -/
theorem auxCommandsComplete : Obligations.AuxCommandsComplete := by
  unfold Obligations.AuxCommandsComplete
  refine ⟨?go, ?deferRetry, ?deferLast, ?readAck, ?write, ?timeoutRetry, ?timeoutLast⟩
  case go =>
    intro who p w s h hc hb
    exact congrArg Host.Outcome.next ((write_ok h _).trans (State.wrAuxCmd_go hc hb))
  case deferRetry =>
    intro p code n d s ha hc hn
    exact execAuxReply_defer_retry ha hc hn
  case deferLast =>
    intro p n d s ha hn
    exact execAuxReply_defer_last ha hn
  case readAck =>
    intro p n d s ha hr
    exact execAuxReply_read_ack ha hr
  case write =>
    intro p code n d s ha hc hr
    exact execAuxReply_write ha hc hr
  case timeoutRetry =>
    intro p s ha hn
    exact congrArg Host.Outcome.next ((guard_true (decide_eq_true ha) _).trans (if_pos hn))
  case timeoutLast =>
    intro p s ha hn
    exact congrArg Host.Outcome.next ((guard_true (decide_eq_true ha) _).trans (if_neg (Nat.not_lt.mpr hn)))

end Sys2Proof.Machine
end

section
/-! PROOFS. Scope, sync lock: the frame reference of a pipe and the sync pins (R43, R56, R57, R61, R64). -/
namespace Sys2Proof.Machine

/-- A word that names no pipe, with source and offsets in range, is stored; a change of source forgets the edges seen of the new one. -/
theorem State.wrSyncSrc_pin {s : State} {p : Nat} {w : W64} (hs : getFld w fSYNC_SRC_SRC ≤ 4) (ho : s.syncOffsetsOk p w = true) :
    s.wrSyncSrc p w = (if s.rd (rSYNC_SRC p) fSYNC_SRC_SRC = getFld w fSYNC_SRC_SRC then s
      else s.modPipe p (fun x => { x with nextEdges := [] })).settingWrite (rSYNC_SRC p) w true false := by
  have hpipe : decide (8 ≤ getFld w fSYNC_SRC_SRC) = false := decide_eq_false (by omega)
  simp only [State.wrSyncSrc, decide_eq_true hs, hpipe, ho, Bool.true_or, Bool.not_true, Bool.or_self, Bool.false_and, Bool.false_eq_true, if_false]

/-- REALIGN is taken by a pipe that sends video with its reference present and in range. -/
theorem State.wrSyncCtrl_realign {s : State} {p : Nat} (hst : s.pst p = stRUNNING ∨ s.pst p = stBLANKED) (hp : (s.pipe p).present = true)
    (ho : (s.pipe p).offEdge = false) :
    s.wrSyncCtrl p (wBit 0 fSYNC_CTRL_REALIGN) = s.modPipe p (fun x => { x with realign := true }) := by
  have hvideo : (s.pst p == stRUNNING || s.pst p == stBLANKED) = true := by
    rwa [Bool.or_eq_true, beq_iff_eq, beq_iff_eq]
  simp only [State.wrSyncCtrl, getFld_wBit_same (f := fSYNC_CTRL_REALIGN) rfl (by decide), hvideo, hp, ho, decide_true, Bool.not_false,
    Bool.and_self, if_true]

section
variable {s : State} {n : Fin 4} {rising : Bool} {t : Nat}

/-- An edge of a sync input changes the levels of its pin and of the outputs that pass it; every pipe sees the active edge of a pulse that is
not filtered out. -/
theorem execReferenceEdge_eq {short : Bool} :
    execReferenceEdge n rising short t s = .next
      ((State.syncDrive { s.begin with syncIn := setBitN s.syncIn n rising } s.begin).guard
        (rising != bitOf (s.rd rSYNC_IN_CFG fSYNC_IN_CFG_POL) n && !(short && bitOf (s.rd rSYNC_IN_CFG fSYNC_IN_CFG_FILT) n))
        (fun s => overN 8 (fun q s => s.seeEdge q (1 + n) t) s)) := rfl

end

/-- Settles O29: the writes past their checks, an edge by its polarity and length, and the events under the guards of their commands. -/
theorem syncCommandsComplete : Obligations.SyncCommandsComplete := by
  unfold Obligations.SyncCommandsComplete
  refine ⟨?source, ?realign, ?active, ?inactive, ?missing, ?pulseEnd⟩
  case source =>
    intro who p w s h hs ho
    exact congrArg Host.Outcome.next ((write_ok h _).trans (State.wrSyncSrc_pin hs ho))
  case realign =>
    intro who p s h hst hp ho
    exact congrArg Host.Outcome.next ((write_ok h _).trans (State.wrSyncCtrl_realign hst hp ho))
  case active =>
    intro n rising t s hr
    have hc : (rising != bitOf (s.rd rSYNC_IN_CFG fSYNC_IN_CFG_POL) n &&
        !(false && bitOf (s.rd rSYNC_IN_CFG fSYNC_IN_CFG_FILT) n)) = true := by
      rw [bne_iff_ne.mpr hr, Bool.false_and, Bool.not_false, Bool.and_self]
    exact execReferenceEdge_eq.trans (congrArg Host.Outcome.next (guard_true hc _))
  case inactive =>
    intro n rising short t s hr
    have hc : (rising != bitOf (s.rd rSYNC_IN_CFG fSYNC_IN_CFG_POL) n &&
        !(short && bitOf (s.rd rSYNC_IN_CFG fSYNC_IN_CFG_FILT) n)) = false := by
      rcases hr with hpol | ⟨hshort, hfilt⟩
      · rw [← hpol, bne_self_eq_false, Bool.false_and]
      · rw [hshort, hfilt, Bool.and_self, Bool.not_true, Bool.and_false]
    exact execReferenceEdge_eq.trans (congrArg Host.Outcome.next (guard_false hc _))
  case missing =>
    intro p s hg hs hb
    have hc : (((s.pipe p).scanning || (s.pipe p).gap) && s.syncSrcOf p != 0 && (s.pipe p).base.isSome) = true := by
      rw [Bool.or_eq_true _ _ |>.mpr hg, bne_iff_ne.mpr hs, hb, Bool.and_self, Bool.and_self]
    exact congrArg Host.Outcome.next (guard_true hc _)
  case pulseEnd =>
    intro o s
    rfl

end Sys2Proof.Machine
end

section
/-! PROOFS. Scope, pixels: blending and dither of one component (R80, R85, R86). -/
namespace Sys2Proof.Machine

/-! ### Blending (R80) -/

theorem mul12_full : mul12 4095 4095 = 4095 := by decide

theorem mul12_zero_left (y : Nat) : mul12 0 y = 0 := by
  rw [mul12, Nat.mul_zero, Nat.zero_mul]

theorem term16_zero (x : Nat) : term16 x 0 = 0 := by
  rw [term16, Nat.mul_zero]

/-- A product with 1.0 only gains the 4 bits below the 12-bit grid. -/
theorem term16_full (x : Nat) : term16 x 4095 = 16 * x := by
  rw [term16]
  omega

theorem blend1_le (v as la : Nat) (premult : Bool) (d : Nat) : blend1 v as la premult d ≤ 4095 := Nat.min_le_left ..

/-- Rounding a sum of 16 bits that lies on the 12-bit grid gives the grid's value back. -/
theorem round_sixteenths {v : Nat} (h : v ≤ 4095) : min 4095 ((min 65535 (16 * v) + 8) / 16) = v := by
  omega

theorem blend1_opaque {v : Nat} (d : Nat) (h : v ≤ 4095) : blend1 v 4095 4095 false d = v := by
  simp only [blend1, Bool.false_eq_true, if_false, mul12_full, term16_full, Nat.sub_self, term16_zero, Nat.add_zero]
  exact round_sixteenths h

theorem blend1_transparent (v la : Nat) {d : Nat} (h : d ≤ 4095) : blend1 v 0 la false d = d := by
  simp only [blend1, Bool.false_eq_true, if_false, mul12_zero_left, term16_zero, Nat.sub_zero, term16_full, Nat.zero_add]
  exact round_sixteenths h

/-! ### Dither (R85, R86) -/

theorem ditherCode_lt (mode n y x f v : Nat) : ditherCode mode n y x f v < 2 ^ n :=
  (Nat.min_le_left _ _).trans_lt (Nat.sub_one_lt (Nat.two_pow_pos n).ne')

/-- A code of n bits in the upper n of 12 bits stays in 12 bits. -/
theorem ditherCode_shifted_le {n : Nat} (hn : n ≤ 12) (mode y x f v : Nat) : ditherCode mode n y x f v * 2 ^ (12 - n) ≤ 4095 := by
  have hlt : ditherCode mode n y x f v * 2 ^ (12 - n) < 2 ^ n * 2 ^ (12 - n) :=
    Nat.mul_lt_mul_of_pos_right (ditherCode_lt mode n y x f v) (Nat.two_pow_pos _)
  rw [← Nat.pow_add, Nat.add_sub_cancel' hn] at hlt
  exact Nat.le_of_lt_succ hlt

/-- Settles O18: a factor of 0 or 1.0 makes each product exact; a dithered component is a code of n bits times 2 to the 12 - n. -/
theorem pixelArithmetic : Obligations.PixelArithmetic := by
  unfold Obligations.PixelArithmetic
  refine ⟨?ends, blend1_le, ?dither⟩
  case ends =>
    intro v d la hv hd
    exact ⟨blend1_opaque d hv, blend1_transparent v la hd⟩
  case dither =>
    intro mode n y x f p hn
    have hle (v : Nat) : ditherCode mode n y x f v * 2 ^ (12 - n) ≤ 4095 := ditherCode_shifted_le (by omega) mode y x f v
    have hlow (v : Nat) : ditherCode mode n y x f v * 2 ^ (12 - n) % 2 ^ (12 - n) = 0 := Nat.mul_mod_left ..
    exact ⟨hlow p.r, hlow p.g, hlow p.b, hle p.r, hle p.g, hle p.b⟩

end Sys2Proof.Machine
end

section
/-! PROOFS. Scope, fetch: the LUT windows (R83), the fetches of layers and awnings (R75, R77, R137, R138), and AFCLR (R141). -/
namespace Sys2Proof.Machine

/-! ### LUT windows (R83) -/

/-- The address of entry i of a window: 0, 1 the degamma banks, 2, 3 the regamma banks. -/
def lutAddr (p win i : Nat) : Nat :=
  if win = 0 then rDGM0 p i else if win = 1 then rDGM1 p i else if win = 2 then rRGM0 p i else rRGM1 p i

/-- The field of CCFG that selects the bank of a window's LUT. -/
def lutBankFld (win : Nat) : Fld := if win < 2 then fCCFG_DGM_BANK else fCCFG_RGM_BANK

/-- An entry is stored if its bank is not in use or the pipe is STOPPED. -/
theorem State.wrLut_free {s : State} {p win : Nat} (h : s.bankUsed p (lutBankFld win) (win % 2) = false ∨ s.pst p = stSTOPPED) (i : Nat)
    (w : W64) : s.wrLut p win i w = s.settingWrite (lutAddr p win i) w true false := by
  have hc : (s.bankUsed p (lutBankFld win) (win % 2) && decide (s.pst p ≠ stSTOPPED)) = false := by
    rcases h with hbank | hstop
    · rw [hbank, Bool.false_and]
    · rw [hstop, decide_eq_false (not_not_intro rfl), Bool.and_false]
  exact if_neg (Bool.eq_false_iff.mp hc)

theorem execLutWindowWrite_free {who : Who} {p : Fin 8} {win : Fin 4} {i : Fin 1024} {w : W32} {s : State}
    (h : s.mayWrite who (lutAddr p win i)) (hf : s.bankUsed p (lutBankFld win) (win % 2) = false ∨ s.pst p = stSTOPPED) :
    execLutWindowWrite who p win i w s = .next (s.accepted.settingWrite (lutAddr p win i) (wide w) true false) :=
  congrArg Host.Outcome.next ((write_ok h _).trans (State.wrLut_free (s := s.accepted) hf i (wide w)))

/-! ### AFCLR (R141) -/

section
variable (s : State) (b : Bool) (a : Nat) {f g : Fld}

/-- A field cleared under a condition. -/
theorem State.rd_ite_wr_zero_same (h : f.lo + f.w ≤ 64) : (if b then s.wr a f 0 else s).rd a f = if b then 0 else s.rd a f := by
  cases b with
  | false => rfl
  | true => exact (s.rd_wr_same a f 0 h).trans (Nat.zero_mod _)

/-- Another field of the register reads as before, whether or not the condition holds. -/
theorem State.rd_ite_wr_zero_field (h : f.lo + f.w ≤ g.lo ∨ g.lo + g.w ≤ f.lo) : (if b then s.wr a f 0 else s).rd a g = s.rd a g := by
  cases b with
  | false => rfl
  | true => exact s.rd_wr_field a f g 0 h

end

section
variable (s : State) (p : Nat) (w : W64)

theorem State.wrAfclr_rd_bad0 : (s.wrAfclr p w).rd (rAFSTAT p) fAFSTAT_BAD0 =
    if bitOf (getFld w fAFCLR_CLR) 0 then 0 else s.rd (rAFSTAT p) fAFSTAT_BAD0 :=
  (State.rd_ite_wr_zero_field _ _ _ (by decide)).trans (s.rd_ite_wr_zero_same _ _ (by decide))

theorem State.wrAfclr_rd_bad1 : (s.wrAfclr p w).rd (rAFSTAT p) fAFSTAT_BAD1 =
    if bitOf (getFld w fAFCLR_CLR) 1 then 0 else s.rd (rAFSTAT p) fAFSTAT_BAD1 := by
  refine (State.rd_ite_wr_zero_same _ _ _ (by decide)).trans ?_
  rw [State.rd_ite_wr_zero_field _ _ _ (by decide)]

theorem State.wrAfclr_rd_cur : (s.wrAfclr p w).rd (rAFSTAT p) fAFSTAT_CUR = s.rd (rAFSTAT p) fAFSTAT_CUR :=
  (State.rd_ite_wr_zero_field _ _ _ (by decide)).trans (s.rd_ite_wr_zero_field _ _ (by decide))

end

theorem execAfclr_eq {who : Who} {p : Fin 8} {w : W32} {s : State} (h : s.mayWrite who (rAFCLR p)) :
    execAfclr who p w s = .next (s.accepted.wrAfclr p (wide w)) :=
  congrArg Host.Outcome.next (write_ok h _)

/-- Settles O31: the windows past their checks by bank, the fetches as their operations, AFCLR field by field. -/
theorem fetchCommandsComplete : Obligations.FetchCommandsComplete := by
  unfold Obligations.FetchCommandsComplete
  refine ⟨?dgm0, ?dgm1, ?rgm0, ?rgm1, ?span, ?awning, ?masked, ?afclr⟩
  case dgm0 =>
    intro who p k w s h hstop
    exact execLutWindowWrite_free (win := 0) h (.inr hstop)
  case dgm1 =>
    intro who p k w s h hbank
    exact execLutWindowWrite_free (win := 1) h (.inl hbank)
  case rgm0 =>
    intro who p k w s h hbank
    exact execLutWindowWrite_free (win := 2) h (.inl hbank)
  case rgm1 =>
    intro who p k w s h hbank
    exact execLutWindowWrite_free (win := 3) h (.inl hbank)
  case span =>
    intro p m line k e s
    rfl
  case awning =>
    intro p y s
    rfl
  case masked =>
    intro p y s hscan
    exact congrArg Host.Outcome.next (guard_true hscan _)
  case afclr =>
    intro who p w s h
    refine ⟨_, execAfclr_eq h, ?_⟩
    rw [State.wrAfclr_rd_bad0, State.wrAfclr_rd_bad1, State.wrAfclr_rd_cur]
    exact ⟨fun h0 => if_pos h0, fun h0 => if_neg (Bool.eq_false_iff.mp h0), fun h1 => if_pos h1,
      fun h1 => if_neg (Bool.eq_false_iff.mp h1), rfl⟩

end Sys2Proof.Machine
end

section
/-! PROOFS. Scope, frames: the boundary of a frame, its lines, the latch point, vertical blanking, the end of a writeback (R38, R46, R92, R98,
R101, R103, R191). -/
namespace Sys2Proof.Machine

section
variable {s : State} {p t : Nat} {o : Bool}

/-- A boundary that no STOP waits for and no timing change has taken begins a frame. -/
theorem State.frameBoundary_begins (hscan : (s.pipe p).scanning = true) (hblank : (s.pipe p).vblank = true)
    (hstop : (s.pipe p).stop ≠ .atBoundary) (hgo : (s.pipe p).goTaken = false) : s.frameBoundary p t o = s.frameBegin p t o := by
  simp only [State.frameBoundary, hscan, hblank, if_neg hstop, hgo, Bool.and_self, Bool.not_true, Bool.false_eq_true, if_false]

/-- A boundary that a STOP waits for starts the idle pattern after the figures of the last frame (R46). -/
theorem State.frameBoundary_stops (hscan : (s.pipe p).scanning = true) (hblank : (s.pipe p).vblank = true)
    (hstop : (s.pipe p).stop = .atBoundary) : s.frameBoundary p t o = (s.closeTiles p).stopIdle p := by
  simp only [State.frameBoundary, hscan, hblank, if_pos hstop, Bool.and_self, Bool.not_true, Bool.false_eq_true, if_false]

end

/-- The boundary of a scanning pipe sends its pulses, and those of line 0, to the panels that follow it. -/
theorem execFrameBoundary_scanning {p : Fin 8} {t : Nat} {o : Bool} {lost : BitVec 16} {s : State} (hscan : (s.pipe p).scanning = true) :
    execFrameBoundary p t o lost s =
      .next (((s.begin.frameBoundary p t o).losePulses p 1 (lost.toNat % 256)).losePulses p 2 (lost.toNat / 256)) := by
  simp only [execFrameBoundary, hscan, if_true]

/-- Settles O30: a boundary by what waits for it, the other events under the guards of their commands, a writeback that waits for its last
write by the head of the list. -/
theorem frameCommandsComplete : Obligations.FrameCommandsComplete := by
  unfold Obligations.FrameCommandsComplete
  refine ⟨?begins, ?stops, ?line, ?latch, ?blanking, ?writeback⟩
  case begins =>
    intro p t o lost s hscan hblank hstop hgo
    refine (execFrameBoundary_scanning hscan).trans ?_
    rw [State.frameBoundary_begins (s := s.begin) hscan hblank hstop hgo]
  case stops =>
    intro p t o lost s hscan hblank hstop
    refine (execFrameBoundary_scanning hscan).trans ?_
    rw [State.frameBoundary_stops (s := s.begin) hscan hblank hstop]
  case line =>
    intro p o lost s hscan hline
    have hc : ((s.pipe p).scanning && decide ((s.pipe p).line + 1 < (s.tmg p).vtotal)) = true := by
      rw [hscan, decide_eq_true hline, Bool.and_self]
    exact congrArg Host.Outcome.next (guard_true hc _)
  case latch =>
    intro p s hscan hlatched hline
    have hc : ((s.pipe p).scanning && !(s.pipe p).latched && decide ((s.tmg p).va - (s.pipe p).guard ≤ (s.pipe p).line)) = true := by
      rw [hscan, hlatched, decide_eq_true hline, Bool.not_false, Bool.and_self, Bool.and_self]
    exact congrArg Host.Outcome.next (guard_true hc _)
  case blanking =>
    intro p lost s hscan hlatched hblank hline
    have hc : ((s.pipe p).scanning && (s.pipe p).latched && !(s.pipe p).vblank && decide ((s.tmg p).va ≤ (s.pipe p).line)) = true := by
      rw [hscan, hlatched, hblank, decide_eq_true hline, Bool.not_false, Bool.and_self, Bool.and_self, Bool.and_self]
    exact congrArg Host.Outcome.next (guard_true hc _)
  case writeback =>
    intro p f one rest s v hv hw
    have hv' : v = if (s.begin.tmg p).va ≤ (s.begin.pipe p).line + 1 then s.begin.lineEnd p else s.begin := hv
    show Host.Outcome.next (s.begin.wbDone p) = _
    simp only [State.wbDone, decide_eq_true_eq, ← hv', hw]

end Sys2Proof.Machine
end

section
/-! PROOFS. Scope, fences and layer commits: FVAL and FADD (R120), COMMIT (R99, R102, R109, R114) and KREL (R114). -/
namespace Sys2Proof.Machine

/-- A word that sets one flag alone has 0 in the fields beside it. -/
theorem getFld_wBit_zero_ne {f g : Fld} (h : f.lo + f.w ≤ g.lo ∨ g.lo + g.w ≤ f.lo) : getFld (wBit 0 f) g = 0 :=
  (getFld_putFld_ne 0 f g 1 h).trans (getFld_zero g)

theorem bitOf_zero (m : Nat) : bitOf 0 m = false := by
  rw [bitOf, Nat.zero_div]
  rfl

/-- A fence reads what was written to it, modulo 2^32. -/
theorem State.fence_setFence_same (s : State) (st f v : Nat) : (s.setFence st f v).fence st f = v % 2 ^ 32 :=
  s.rd_wr_same _ fFVAL_VAL v (by decide)

section
variable {s : State} {p m : Nat}

/-- A COMMIT that names the commit alone: the keeper is asked for a held layer; the commit of another layer arrives (R99, R114). -/
theorem State.wrCommit_commit : s.wrCommit p m (wBit 0 fCOMMIT_COMMIT) = if s.layerHeld p m then
      ((s.modLay p m (fun l => { l with pending := true, held := true, late := false })).showPend p m).kevt (0x10 + p) 0x01 m (s.layerOwner p m)
    else s.commitArrives p m := by
  simp (disch := decide) only [State.wrCommit, getFld_wBit_same, getFld_wBit_zero_ne, Nat.reduceBEq, Bool.and_false, Bool.false_eq_true,
    if_false, if_true]

/-- A COMMIT that names the cancel alone drops the pending commit and releases its fence (R108, R109). -/
theorem State.wrCommit_cancel : s.wrCommit p m (wBit 0 fCOMMIT_CANCEL) = s.dropCommit p m resCANCELLED true := by
  simp (disch := decide) only [State.wrCommit, getFld_wBit_same, getFld_wBit_zero_ne, Nat.reduceBEq, Bool.false_and, Bool.false_eq_true,
    if_false, if_true]

/-- A commit before the latch point is in time. -/
theorem State.commitArrives_in_time (hl : s.lateNow p = false) : s.commitArrives p m =
    (s.modLay p m (fun l => { l with pending := true, held := false, late := false })).showPend p m := by
  simp only [State.commitArrives, hl, Bool.false_eq_true, if_false]

/-- A commit on or after the latch point is late, and LLATE counts it (R102). -/
theorem State.commitArrives_late (hl : s.lateNow p = true) : s.commitArrives p m =
    ((s.modLay p m (fun l => { l with pending := true, held := false, late := true })).showPend p m).bumpErr (rLLATE p m) := by
  simp only [State.commitArrives, hl, if_true]

/-- A KREL word that rejects no layer lets the held commits of the layers that it names arrive. -/
theorem State.wrKrel_release {n : Nat} (hn : n < 256) : s.wrKrel p (putFld 0 fKREL_RELEASE n) = overN 8 (fun m s =>
    if (s.lay p m).pending && (s.lay p m).held then if bitOf n m then s.commitArrives p m else s else s) s := by
  have hrel : getFld (putFld 0 fKREL_RELEASE n) fKREL_RELEASE = n :=
    (getFld_putFld_same 0 fKREL_RELEASE n (by decide)).trans (Nat.mod_eq_of_lt hn)
  have hrej : getFld (putFld 0 fKREL_RELEASE n) fKREL_REJECT = 0 :=
    (getFld_putFld_ne 0 fKREL_RELEASE fKREL_REJECT n (by decide)).trans (getFld_zero _)
  simp only [State.wrKrel, hrel, hrej, bitOf_zero, Bool.and_false, List.any_eq_true, Bool.false_eq_true, and_false, exists_false,
    if_false]

/-- A KREL word that releases no layer drops the held commits of the layers that it names. -/
theorem State.wrKrel_reject {n : Nat} (hn : n < 256) : s.wrKrel p (putFld 0 fKREL_REJECT n) = overN 8 (fun m s =>
    if (s.lay p m).pending && (s.lay p m).held then if bitOf n m then s.dropCommit p m resREJECTED true else s else s) s := by
  have hrej : getFld (putFld 0 fKREL_REJECT n) fKREL_REJECT = n :=
    (getFld_putFld_same 0 fKREL_REJECT n (by decide)).trans (Nat.mod_eq_of_lt hn)
  have hrel : getFld (putFld 0 fKREL_REJECT n) fKREL_RELEASE = 0 :=
    (getFld_putFld_ne 0 fKREL_REJECT fKREL_RELEASE n (by decide)).trans (getFld_zero _)
  simp only [State.wrKrel, hrel, hrej, bitOf_zero, Bool.false_and, List.any_eq_true, Bool.false_eq_true, and_false, exists_false,
    if_false]

end

section
variable {who : Who} {p m : Fin 8} {s : State}

theorem execLayerCommit_free (h : s.mayWrite who (rCOMMIT p m)) (hh : s.layerHeld p m = false) :
    execLayerCommit who p m s = .next (s.accepted.commitArrives p m) :=
  congrArg Host.Outcome.next ((write_ok h _).trans (State.wrCommit_commit.trans (if_neg (Bool.eq_false_iff.mp hh))))

theorem execLayerCancel_eq (h : s.mayWrite who (rCOMMIT p m)) :
    execLayerCancel who p m s = .next (s.accepted.dropCommit p m resCANCELLED true) :=
  congrArg Host.Outcome.next ((write_ok h _).trans State.wrCommit_cancel)

end

/-- Settles O32: the fence writes past their checks; a commit by whether its layer is held and by the latch point, a cancel by whether a
commit is pending; KREL layer by layer. -/
theorem fenceAndLayerCommitCommandsComplete : Obligations.FenceAndLayerCommitCommandsComplete := by
  unfold Obligations.FenceAndLayerCommitCommandsComplete
  refine ⟨?fval, ?fadd, ?inTime, ?late, ?held, ?cancel, ?nothing, ?release, ?reject⟩
  case fval =>
    intro who st f w s h
    exact congrArg Host.Outcome.next (write_ok h _)
  case fadd =>
    intro who st f n s h
    exact ⟨_, congrArg Host.Outcome.next (write_ok h _), rfl, State.fence_setFence_same _ st f _⟩
  case inTime =>
    intro who p m s h hh hl
    exact (execLayerCommit_free h hh).trans (congrArg Host.Outcome.next (State.commitArrives_in_time (s := s.accepted) hl))
  case late =>
    intro who p m s h hh hl
    exact (execLayerCommit_free h hh).trans (congrArg Host.Outcome.next (State.commitArrives_late (s := s.accepted) hl))
  case held =>
    intro who p m s h hh
    exact congrArg Host.Outcome.next ((write_ok h _).trans (State.wrCommit_commit.trans (if_pos hh)))
  case cancel =>
    intro who p m s h hp
    exact (execLayerCancel_eq h).trans (congrArg Host.Outcome.next (if_pos hp))
  case nothing =>
    intro who p m s h hp
    exact (execLayerCancel_eq h).trans (congrArg Host.Outcome.next (if_neg (Bool.eq_false_iff.mp hp)))
  case release =>
    intro who p b s h
    exact congrArg Host.Outcome.next ((write_ok h _).trans (State.wrKrel_release b.isLt))
  case reject =>
    intro who p b s h
    exact congrArg Host.Outcome.next ((write_ok h _).trans (State.wrKrel_reject b.isLt))

end Sys2Proof.Machine
end

section
/-! PROOFS. Scope, group commits: PCOMMIT (R104, R109, R111, R118), ACOMMIT (R109, R112, R140), and the count of late commits (R102). -/
namespace Sys2Proof.Machine

/-- A late commit of the pipe, lockstep or awning group is counted; one in time is not. -/
theorem State.plate_in_time {s : State} {p : Nat} (hl : s.lateNow p = false) : s.plate p = s := if_neg (Bool.eq_false_iff.mp hl)
theorem State.plate_late {s : State} {p : Nat} (hl : s.lateNow p = true) : s.plate p = s.bumpErr (rPLATE p) := if_pos hl

section
variable (s : State) (who : Who) (p : Nat)

/-- A pipe commit becomes pending, for every writer. -/
theorem State.wrPcommit_pipe : s.wrPcommit who p (wBit 0 fPCOMMIT_PIPE) =
    ((s.modPipe p (fun x => { x with pipePend := true, pipeLate := s.lateNow p })).plate p).showPcommit p := by
  simp (disch := decide) only [State.wrPcommit, getFld_wBit_same, getFld_wBit_zero_ne, Nat.reduceBEq, Bool.or_self, Bool.and_false,
    Bool.false_and, Bool.false_eq_true, if_false, if_true]

/-- A cancel of the pipe commit ends one that is pending. -/
theorem State.wrPcommit_cancelPipe (hp : (s.pipe p).pipePend = true) : s.wrPcommit who p (wBit 0 fPCOMMIT_CANCEL_PIPE) =
    ((s.modPipe p (fun x => { x with pipePend := false })).presultNow p resCANCELLED).showPcommit p := by
  simp (disch := decide) only [State.wrPcommit, hp, getFld_wBit_same, getFld_wBit_zero_ne, Nat.reduceBEq, Bool.or_self, Bool.and_false,
    Bool.false_and, Bool.and_self, Bool.false_eq_true, if_false, if_true]

section
variable {who}

/-- A lockstep request becomes pending. -/
theorem State.wrPcommit_lock (hw : colourOnly who = false) : s.wrPcommit who p (wBit 0 fPCOMMIT_LOCK) =
    ((s.modPipe p (fun x => { x with lockPend := true, lockLate := s.lateNow p })).plate p).showPcommit p := by
  simp (disch := decide) only [State.wrPcommit, hw, getFld_wBit_same, getFld_wBit_zero_ne, Nat.reduceBEq, Bool.or_self, Bool.and_false,
    Bool.false_and, Bool.false_eq_true, if_false, if_true]

/-- A cancel of the lockstep request ends one that is pending. -/
theorem State.wrPcommit_cancelLock (hw : colourOnly who = false) (hp : (s.pipe p).lockPend = true) :
    s.wrPcommit who p (wBit 0 fPCOMMIT_CANCEL_LOCK) =
    ((s.modPipe p (fun x => { x with lockPend := false })).presultNow p resCANCELLED).showPcommit p := by
  simp (disch := decide) only [State.wrPcommit, hw, hp, getFld_wBit_same, getFld_wBit_zero_ne, Nat.reduceBEq, Bool.or_self, Bool.false_and,
    Bool.and_self, Bool.false_eq_true, if_false, if_true]

/-- The lockstep bits of the holder of the colour grant alone are refused; here no other bit is left to act (R118). -/
theorem State.wrPcommit_lockstep_refused {w : W64} (hw : colourOnly who = true)
    (hl : (getFld w fPCOMMIT_LOCK == 1 || getFld w fPCOMMIT_CANCEL_LOCK == 1) = true)
    (hrest : putFld (putFld w fPCOMMIT_LOCK 0) fPCOMMIT_CANCEL_LOCK 0 = 0) :
    s.wrPcommit who p w = (s.refuse (rPCOMMIT p)).showPcommit p := by
  simp only [State.wrPcommit, hw, hl, hrest, getFld_zero, Nat.reduceBEq, Bool.and_self, Bool.or_self, Bool.false_and, Bool.false_eq_true,
    if_false, if_true]

end

/-- An awning commit becomes pending. -/
theorem State.wrAcommit_commit : s.wrAcommit p (wBit 0 fACOMMIT_COMMIT) =
    ((s.modPipe p (fun x => { x with awnPend := true, awnLate := s.lateNow p })).plate p).showPcommit p := by
  simp (disch := decide) only [State.wrAcommit, getFld_wBit_same, getFld_wBit_zero_ne, Nat.reduceBEq, Bool.and_false, Bool.false_eq_true,
    if_false, if_true]

/-- A cancel ends the awning commit, whether or not one is pending. -/
theorem State.wrAcommit_cancel : s.wrAcommit p (wBit 0 fACOMMIT_CANCEL) =
    (s.modPipe p (fun x => { x with awnPend := false })).showPcommit p := by
  simp (disch := decide) only [State.wrAcommit, getFld_wBit_same, getFld_wBit_zero_ne, Nat.reduceBEq, Bool.false_and, Bool.false_eq_true,
    if_false, if_true]

end

/-- Settles O33: each write past its checks, by the one bit of its word; lockstep bits by who writes; cancels of a group that is pending. -/
theorem groupCommitCommandsComplete : Obligations.GroupCommitCommandsComplete := by
  unfold Obligations.GroupCommitCommandsComplete
  refine ⟨?pipe, ?lock, ?cancelPipe, ?cancelLock, ?colourHolder, ?awning, ?awningCancel, ?inTime, ?late⟩
  case pipe =>
    intro who p s h
    exact congrArg Host.Outcome.next ((write_ok h _).trans (s.accepted.wrPcommit_pipe who p))
  case lock =>
    intro who p s h hw
    exact congrArg Host.Outcome.next ((write_ok h _).trans (s.accepted.wrPcommit_lock p hw))
  case cancelPipe =>
    intro who p s h hp
    exact congrArg Host.Outcome.next ((write_ok h _).trans (s.accepted.wrPcommit_cancelPipe who p hp))
  case cancelLock =>
    intro who p s h hw hp
    exact congrArg Host.Outcome.next ((write_ok h _).trans (s.accepted.wrPcommit_cancelLock p hw hp))
  case colourHolder =>
    intro who p s h hw
    exact ⟨congrArg Host.Outcome.next ((write_ok h _).trans (s.accepted.wrPcommit_lockstep_refused p hw (by decide) (by decide))),
      congrArg Host.Outcome.next ((write_ok h _).trans (s.accepted.wrPcommit_lockstep_refused p hw (by decide) (by decide)))⟩
  case awning =>
    intro who p s h
    exact congrArg Host.Outcome.next ((write_ok h _).trans (s.accepted.wrAcommit_commit p))
  case awningCancel =>
    intro who p s h
    exact congrArg Host.Outcome.next ((write_ok h _).trans (s.accepted.wrAcommit_cancel p))
  case inTime =>
    intro s p hl
    exact State.plate_in_time hl
  case late =>
    intro s p hl
    exact State.plate_late hl

end Sys2Proof.Machine
end

section
/-! PROOFS. Scope, pitches: PCFG (R124, R127), PITCH_CTRL (R125, R132), the staged pair (R127), and the comparison (R128). -/
namespace Sys2Proof.Machine

/-! ### Words that hold one field -/

/-- A field reads a value that fits it. -/
theorem getFld_putFld_of_lt {w : W64} {f : Fld} {v : Nat} (hf : f.lo + f.w ≤ 64) (hv : v < 2 ^ f.w) : getFld (putFld w f v) f = v :=
  (getFld_putFld_same w f v hf).trans (Nat.mod_eq_of_lt hv)

/-- A word that holds one field alone has 0 in the fields beside it. -/
theorem getFld_putFld_zero_ne {f g : Fld} {v : Nat} (h : f.lo + f.w ≤ g.lo ∨ g.lo + g.w ≤ f.lo) : getFld (putFld 0 f v) g = 0 :=
  (getFld_putFld_ne 0 f g v h).trans (getFld_zero g)

/-- A field at bit 0 gives a value of its own width back whole. -/
theorem ofNat_getFld_low {n : Nat} (a : BitVec n) (hn : n ≤ 64) : BitVec.ofNat n (getFld (a.setWidth 64) ⟨0, n⟩) = a := by
  have h64 : a.toNat < 2 ^ 64 := a.isLt.trans_le (Nat.pow_le_pow_right (by decide) hn)
  have hfld : getFld (a.setWidth 64) ⟨0, n⟩ = a.toNat := by
    simp only [getFld, BitVec.toNat_setWidth, pow_zero, Nat.div_one, Nat.mod_eq_of_lt h64, Nat.mod_eq_of_lt a.isLt]
  rw [hfld, BitVec.ofNat_toNat, BitVec.setWidth_eq]

/-! ### The registers of a pitch -/

section
variable {s : State} {p k : Nat} {w : W64}

/-- A PCFG word that gives the pitch to an existing, sealed stall is taken under the register table (R124). -/
theorem State.wrPcfg_sealed {st : Nat} (ho : pcfgOwner w = some st) (hst : s.stallState st ≠ 0) (hse : s.sealed st = true) :
    s.wrPcfg p k w = s.settingWrite (rPCFG p k) w true false := by
  have hok : ¬ (s.stallState st = 0 ∨ s.sealed st = false) := not_or.mpr ⟨hst, ne_false_of_eq_true hse⟩
  simp only [State.wrPcfg, ho, if_neg hok]

/-- A PCFG word that gives the pitch to no stall asks for none (R124). -/
theorem State.wrPcfg_no_stall (ho : pcfgOwner w = none) : s.wrPcfg p k w = s.settingWrite (rPCFG p k) w true false := by
  simp only [State.wrPcfg, ho]

/-- A PITCH_CTRL word that clears no pitch makes the commits that it names pending (R125). -/
theorem State.wrPitchCtrl_commit {n : Nat} (hn : n < 2 ^ 16) : s.wrPitchCtrl p (putFld 0 fPITCH_CTRL_COMMIT n) =
    overN 16 (fun k s => if bitOf n k then (s.wr (rPITCH_PEND p) ⟨k, 1⟩ 1).plate p else s) s := by
  have hcom : getFld (putFld 0 fPITCH_CTRL_COMMIT n) fPITCH_CTRL_COMMIT = n := getFld_putFld_of_lt (by decide) hn
  have hclr : getFld (putFld 0 fPITCH_CTRL_COMMIT n) fPITCH_CTRL_CLR = 0 := getFld_putFld_zero_ne (by decide)
  simp only [State.wrPitchCtrl, hcom, hclr, bitOf_zero, Bool.false_eq_true, if_false]

/-- A PITCH_CTRL word that commits no group clears the pitches that it names (R132). -/
theorem State.wrPitchCtrl_clear {n : Nat} (hn : n < 2 ^ 16) : s.wrPitchCtrl p (putFld 0 fPITCH_CTRL_CLR n) =
    overN 16 (fun k s => if bitOf n k then s.pitchClear p k else s) s := by
  have hcom : getFld (putFld 0 fPITCH_CTRL_CLR n) fPITCH_CTRL_COMMIT = 0 := getFld_putFld_zero_ne (by decide)
  have hclr : getFld (putFld 0 fPITCH_CTRL_CLR n) fPITCH_CTRL_CLR = n := getFld_putFld_of_lt (by decide) hn
  simp only [State.wrPitchCtrl, hcom, hclr, bitOf_zero, Bool.false_eq_true, if_false]

/-- The alive counter that a guest stages is the operand. -/
theorem State.wrExpCtl_eq (st : Nat) (a : BitVec 4) : s.wrExpCtl st p k (a.setWidth 64) = s.modPitch p k (fun x =>
    { x with pend := (BitVec.ofNat 32 (s.rd (rEXP_VAL st (16 * p + k)) fEXP_VAL_VAL), a) }) := by
  have ha : BitVec.ofNat 4 (getFld (a.setWidth 64) fEXP_CTL_ALIVE) = a := ofNat_getFld_low a (by decide)
  rw [State.wrExpCtl, ha]

/-- The keeper stages the pair of a pitch that no stall owns. -/
theorem State.wrPexpCtl_keeper (ho : pcfgOwner (s.rw (rPCFG p k)) = none) (a : BitVec 4) :
    s.wrPexpCtl p k (a.setWidth 64) = s.modPitch p k (fun x =>
      { x with pend := (BitVec.ofNat 32 (s.rd (rPEXP_VAL p k) fPEXP_VAL_VAL), a) }) := by
  have ha : BitVec.ofNat 4 (getFld (a.setWidth 64) fPEXP_CTL_ALIVE) = a := ofNat_getFld_low a (by decide)
  rw [State.wrPexpCtl, ho, ha]
  rfl

end

/-- The deciding pair of an enabled pitch has passed for the first time in the frame: the result is reached (R128). -/
theorem execPitchCompare_due {p : Fin 8} {k : Fin 16} {s : State} (hscan : (s.pipe p).scanning = true) (hon : s.pitchOn .scan p k = true)
    (hdone : (s.pitch p k).done = false) (hline : s.pitchLastLine p k ≤ (s.pipe p).line) :
    execPitchCompare p k s = .next ((s.begin.lineEnd p).pitchCompare p k) := by
  have hdue : ((s.pipe p).scanning && s.pitchOn .scan p k && !(s.pitch p k).done && decide (s.pitchLastLine p k ≤ (s.pipe p).line)) = true := by
    rw [hscan, hon, hdone, decide_eq_true hline]
    rfl
  exact congrArg Host.Outcome.next (guard_true (s := s.begin) hdue _)

/-- Settles O34: each write past its checks, PCFG by the stall that its word names, PITCH_CTRL by its one field, the pair by who stages it;
the comparison under the guard of its command. -/
theorem pitchCommandsComplete : Obligations.PitchCommandsComplete := by
  unfold Obligations.PitchCommandsComplete
  refine ⟨?stall, ?noStall, ?commit, ?clear, ?guest, ?keeper, ?compare⟩
  case stall =>
    intro who p k w st s h ho hst hse
    exact congrArg Host.Outcome.next ((write_ok h _).trans (State.wrPcfg_sealed (s := s.accepted) ho hst hse))
  case noStall =>
    intro who p k w s h ho
    exact congrArg Host.Outcome.next ((write_ok h _).trans (State.wrPcfg_no_stall ho))
  case commit =>
    intro who p ks s h
    exact congrArg Host.Outcome.next ((write_ok h _).trans (State.wrPitchCtrl_commit ks.isLt))
  case clear =>
    intro who p ks s h
    exact congrArg Host.Outcome.next ((write_ok h _).trans (State.wrPitchCtrl_clear ks.isLt))
  case guest =>
    intro st p k a s h
    exact congrArg Host.Outcome.next ((write_ok h _).trans (State.wrExpCtl_eq (s := s.accepted) st a))
  case keeper =>
    intro p k a s h ho
    exact congrArg Host.Outcome.next ((write_ok h _).trans (State.wrPexpCtl_keeper (s := s.accepted) ho a))
  case compare =>
    intro p k s hscan hon hdone hline
    exact execPitchCompare_due hscan hon hdone hline

end Sys2Proof.Machine
end

section
/-! PROOFS. Scope, ledger: LG_CTRL, LG_SEALCFG, LG_ACK and LG_CFG (R144 to R147), seals (R145), and submissions (R149). -/
namespace Sys2Proof.Machine

/-- A write with every field in its range, to a register that no class keeps back, gives every writable field its value. -/
theorem settingWrite_inRange {s : State} {a u n : Nat} {w : W64} {d : RegDef} (hl : lookupReg a = some (d, u, n)) (hr : d.readOnly = false)
    (hw : d.fields.filter (fun f => f.acc != .ro) ≠ []) (h : regBadRange a w = false) :
    s.settingWrite a w true false = (s.setRw a (d.written true false (s.rw a) w)).answer .ok := by
  rw [regBadRange, hl] at h
  exact settingWrite_free hl hr h hw

/-! ### LG_SEALCFG (R145) -/

section
variable {s : State} {w : W64}

/-- A seal period in its range is stored. -/
theorem settingWrite_lgSealcfg (h : regBadRange rLG_SEALCFG w = false) : s.settingWrite rLG_SEALCFG w true false =
    (s.wr rLG_SEALCFG fLG_SEALCFG_SEAL_PERIOD_S (getFld w fLG_SEALCFG_SEAL_PERIOD_S)).answer .ok :=
  settingWrite_inRange (d := regLGR_LG_SEALCFG) (u := 0) (n := 0) (by decide) rfl (by decide) h

theorem State.rd_settingWrite_lgSealcfg (h : regBadRange rLG_SEALCFG w = false) :
    (s.settingWrite rLG_SEALCFG w true false).rd rLG_SEALCFG fLG_SEALCFG_SEAL_PERIOD_S = getFld w fLG_SEALCFG_SEAL_PERIOD_S := by
  rw [settingWrite_lgSealcfg h]
  exact (s.rd_wr_same _ _ _ (by decide)).trans (Nat.mod_eq_of_lt (getFld_lt w _))

/-- A seal period in its range restarts the period, and 0 stops it. -/
theorem State.wrLgSealcfg_eq (h : regBadRange rLG_SEALCFG w = false) : s.wrLgSealcfg w =
    (s.settingWrite rLG_SEALCFG w true false).modLed (fun x => { x with period := decide (getFld w fLG_SEALCFG_SEAL_PERIOD_S ≠ 0) }) := by
  simp only [State.wrLgSealcfg, h, Bool.false_eq_true, if_false, State.rd_settingWrite_lgSealcfg h]

theorem State.wrLgSealcfg_led (h : regBadRange rLG_SEALCFG w = false) :
    (s.wrLgSealcfg w).led = { s.led with period := decide (getFld w fLG_SEALCFG_SEAL_PERIOD_S ≠ 0) } := by
  rw [State.wrLgSealcfg_eq h, settingWrite_lgSealcfg h]
  rfl

theorem State.wrLgSealcfg_rd (h : regBadRange rLG_SEALCFG w = false) :
    (s.wrLgSealcfg w).rd rLG_SEALCFG fLG_SEALCFG_SEAL_PERIOD_S = getFld w fLG_SEALCFG_SEAL_PERIOD_S := by
  rw [State.wrLgSealcfg_eq h]
  exact State.rd_settingWrite_lgSealcfg h

/-! ### LG_ACK and LSUB_CTRL (R146, R149) -/

/-- An LG_ACK inside the ring and not past LG_WR is taken. -/
theorem State.wrLgAck_in_range (hlt : getFld w fLG_ACK_INDEX < s.ringSize)
    (hle : s.ringDist s.ringAck (getFld w fLG_ACK_INDEX) ≤ s.ringDist s.ringAck s.ringWr) :
    s.wrLgAck w = (s.settingWrite rLG_ACK w true false).ledFreed := by
  have hin : (decide (s.ringSize ≤ getFld w fLG_ACK_INDEX) ||
      decide (s.ringDist s.ringAck s.ringWr < s.ringDist s.ringAck (getFld w fLG_ACK_INDEX))) = false := by
    rw [decide_eq_false (Nat.not_le.mpr hlt), decide_eq_false (Nat.not_lt.mpr hle), Bool.or_self]
  exact if_neg (Bool.eq_false_iff.mp hin)

/-- GO of a page that is not busy, with the ledger enabled and no save running, hands the entry over. -/
theorem State.wrLsubCtrl_go {st : Nat} (hgo : getFld w fLSUB_CTRL_GO = 1) (hbusy : s.on (rLSUB_STAT st) fLSUB_STAT_BUSY = false)
    (hen : s.ledEnabled = true) (hd : s.dstate < 6) :
    s.wrLsubCtrl st w = (s.wr (rLSUB_STAT st) fLSUB_STAT_BUSY 1).ledger
      { typ := 2, pipe := getFld w fLSUB_CTRL_PIPE, source := st, code := getFld w fLSUB_CTRL_TAG
        payload := (List.range 8).flatMap (fun k => bytesLE 4 (s.rd (rLSUB_DATA st k) fLSUB_DATA_DATA)) } := by
  have hgo' : getFld w fLSUB_CTRL_GO ≠ 0 := by omega
  have hon : ¬ (s.ledEnabled = false ∨ 6 ≤ s.dstate) := not_or.mpr ⟨ne_false_of_eq_true hen, Nat.not_le.mpr hd⟩
  rw [State.wrLsubCtrl, if_neg hgo', if_neg (Bool.eq_false_iff.mp hbusy), if_neg hon]

/-! ### What LG_STAT and LG_WR show -/

theorem State.ledShow_led : s.ledShow.led = s.led := rfl

/-- To show the ledger leaves FULL as it is. -/
theorem State.ledShow_ledFull : s.ledShow.ledFull = s.ledFull := by
  have hfull : s.ledShow.rd rLG_STAT fLG_STAT_FULL = s.rd rLG_STAT fLG_STAT_FULL := by
    rw [State.ledShow, State.rd_wr_ne _ _ _ _ (by decide), State.rd_wr_field _ _ _ _ _ (by decide), State.rd_wr_field _ _ _ _ _ (by decide),
      State.rd_wr_field _ _ _ _ _ (by decide)]
  rw [State.ledFull, State.ledFull, State.on, State.on, hfull]

/-! ### LG_CFG (R146, R147) -/

/-- With no entry handed over there is nothing to append. -/
theorem State.ledFlush_nil (hq : s.led.queue = []) : s.ledFlush = s := by
  rw [State.ledFlush, hq]
  rfl

/-- How many entries a new ring abandons: the slots from LG_ACK on that are in use, but those of seals. -/
def State.abandoned (s : State) : Nat :=
  (((List.range (s.ringDist s.ringAck s.led.next)).map (fun k => (s.ringAck + k) % s.ringSize)).filter
    (fun i => !(s.led.sealSlots.contains i))).length

/-- The ring is new and empty, and the entries abandoned with the old one are counted. -/
def State.newRing (s : State) (w : W64) : State :=
  (((s.bumpErrN rLG_DROP s.abandoned).settingWrite rLG_CFG w true false).wr rLG_ACK fLG_ACK_INDEX 0).modLed (fun x => { x with
    next := 0, sealing := none, sealSlots := [], cfgGap := if s.noChain then x.cfgGap else x.cfgGap + s.abandoned })

/-- An LG_CFG word in its range makes a new ring while the ledger is off; a ledger that was FULL is freed, and a waiting seal starts. -/
theorem State.wrLgCfg_eq (hq : s.led.queue = []) (hen : s.ledEnabled = false)
    (hg : getFld w fLG_CFG_RING_BASE + getFld w fLG_CFG_RING_GRAINS ≤ 768) (hr : regBadRange rLG_CFG w = false) :
    s.wrLgCfg w = if (s.newRing w).ledFull then (s.newRing w).ledFreed
      else (if (s.newRing w).on rLG_STAT fLG_STAT_SEAL_WAIT then (s.newRing w).sealReq else s.newRing w).ledShow := by
  have hin : (decide (getFld w fLG_CFG_RING_BASE + getFld w fLG_CFG_RING_GRAINS > 768) || regBadRange rLG_CFG w) = false := by
    rw [decide_eq_false (Nat.not_lt.mpr hg), hr, Bool.or_self]
  rw [State.wrLgCfg, State.ledFlush_nil hq, if_neg (Bool.eq_false_iff.mp hin), if_neg (Bool.eq_false_iff.mp hen)]
  rfl

section
variable (hr : regBadRange rLG_CFG w = false)
include hr

theorem settingWrite_lgCfg : s.settingWrite rLG_CFG w true false =
    (s.setRw rLG_CFG (regLGR_LG_CFG.written true false (s.rw rLG_CFG) w)).answer .ok :=
  settingWrite_inRange (u := 0) (n := 0) (by decide) rfl (by decide) hr

/-- A new ring leaves LG_STAT as it is. -/
theorem State.newRing_on_stat (f : Fld) : (s.newRing w).on rLG_STAT f = s.on rLG_STAT f := by
  have hrw : (s.newRing w).rw rLG_STAT = s.rw rLG_STAT := by
    rw [State.newRing, State.modLed_rw_of, State.rw_wr_ne _ _ _ (by decide), settingWrite_lgCfg hr, State.answer_rw_of,
      State.rw_setRw_ne _ _ (by decide), State.rw, State.bumpErrN_regs]
    rfl
  rw [State.on, State.on, State.rd, State.rd, hrw]

/-- With the ledger not FULL and no seal waiting, a new ring is all that LG_CFG makes, and it is shown. -/
theorem State.wrLgCfg_idle (hq : s.led.queue = []) (hen : s.ledEnabled = false)
    (hg : getFld w fLG_CFG_RING_BASE + getFld w fLG_CFG_RING_GRAINS ≤ 768) (hfull : s.ledFull = false)
    (hwait : s.on rLG_STAT fLG_STAT_SEAL_WAIT = false) : s.wrLgCfg w = (s.newRing w).ledShow := by
  have hfull' : (s.newRing w).ledFull = false := (State.newRing_on_stat hr _).trans hfull
  have hwait' : (s.newRing w).on rLG_STAT fLG_STAT_SEAL_WAIT = false := (State.newRing_on_stat hr _).trans hwait
  rw [State.wrLgCfg_eq hq hen hg hr, if_neg (Bool.eq_false_iff.mp hfull'), if_neg (Bool.eq_false_iff.mp hwait')]

end

end

/-! ### The commands -/

/-- The period runs out outside SAVING. -/
theorem execSealPeriodExpiry_running {s : State} (hp : s.led.period = true) (hd : s.dstate < 6) :
    execSealPeriodExpiry s = .next s.begin.sealReq := by
  have hdue : (s.led.period && decide (s.dstate < 6)) = true := by rw [hp, decide_eq_true hd, Bool.and_self]
  exact congrArg Host.Outcome.next (guard_true (s := s.begin) hdue _)

/-- The oldest entry handed over leaves the queue and is appended. -/
theorem State.ledNext_cons {s : State} {e : LedEntry} {q : List LedEntry} (hq : s.led.queue = e :: q) :
    s.ledNext = (s.modLed (fun x => { x with queue := q })).ledAppend e := by
  simp only [State.ledNext, hq]

/-- Settles O35: each write past its checks; the entries and seals under the guards of their commands; LG_CFG by the ring that it makes. -/
theorem ledgerCommandsComplete : Obligations.LedgerCommandsComplete := by
  unfold Obligations.LedgerCommandsComplete
  refine ⟨?init, ?enable, ?sealNow, ?append, ?period, ?expiry, ?sealMade, ?ack, ?cfg, ?submit⟩
  case init =>
    intro who en rnd s h _
    exact congrArg Host.Outcome.next (write_ok h _)
  case enable =>
    intro who en fb s h
    exact congrArg Host.Outcome.next (write_ok h _)
  case sealNow =>
    intro who s h
    exact congrArg Host.Outcome.next (write_ok h _)
  case append =>
    intro s e q hq
    exact congrArg Host.Outcome.next (State.ledNext_cons (s := s.begin) hq)
  case period =>
    intro who w s h hr
    exact ⟨_, congrArg Host.Outcome.next (write_ok h _), State.wrLgSealcfg_rd hr, State.wrLgSealcfg_led hr⟩
  case expiry =>
    intro s hp hd
    exact execSealPeriodExpiry_running hp hd
  case sealMade =>
    intro s hd
    exact congrArg Host.Outcome.next (guard_true (decide_eq_true hd) _)
  case ack =>
    intro who w s h hlt hle
    exact congrArg Host.Outcome.next ((write_ok h _).trans (State.wrLgAck_in_range (s := s.accepted) hlt hle))
  case cfg =>
    intro who w s h hq hen hg hr
    refine ⟨_, congrArg Host.Outcome.next (write_ok h _), rfl, fun hfull hwait => ?_⟩
    rw [State.wrLgCfg_idle (s := s.accepted) hr hq hen hg hfull hwait, State.ledShow_led, State.ledShow_ledFull]
    exact ⟨rfl, rfl, rfl, (State.newRing_on_stat hr _).trans hfull⟩
  case submit =>
    intro st w s h hgo hbusy hen hd
    exact congrArg Host.Outcome.next ((write_ok h _).trans (State.wrLsubCtrl_go (s := s.accepted) hgo hbusy hen hd))

end Sys2Proof.Machine
end

section
/-! PROOFS. Scope, raster engine: RCTRL (R178, R179), the floor of a pass (R159), the units of an item and how they end (R160, R162, R181, R182, R194,
R197, R198), the scheduler's epoch (R185) and the deadline windows (R192, R193, R195). -/
namespace Sys2Proof.Machine

/-! ### RCTRL (R178, R179) -/

section
variable {s : State}

/-- RUN starts a stopped engine once services are up. -/
theorem State.wrRctrl_run (hst : s.rstate = rsSTOPPED) (hd : 3 ≤ s.dstate) : s.wrRctrl (wBit 0 fRCTRL_RUN) =
    ((s.wr rRSTAT fRSTAT_STATE rsRUNNING).wr rTLP_STAT fTLP_STAT_FREE (s.wr rRSTAT fRSTAT_STATE rsRUNNING).poolFree).gpuKick.msrCompare := by
  have hup : ¬ s.dstate < 3 := by omega
  simp (disch := decide) only [State.wrRctrl, hst, hup, getFld_wBit_same, getFld_wBit_zero_ne, Nat.zero_ne_one, and_false, false_and,
    and_self, if_false, if_true]

/-- STOP of a running engine waits for its active items. -/
theorem State.wrRctrl_stop (hst : s.rstate = rsRUNNING) : s.wrRctrl (wBit 0 fRCTRL_STOP) =
    s.wr rRSTAT fRSTAT_STATE (if s.activeItems = 0 then rsSTOPPED else rsSTOPPING) := by
  simp (disch := decide) only [State.wrRctrl, hst, getFld_wBit_same, getFld_wBit_zero_ne, Nat.zero_ne_one, false_and, and_self,
    if_false, if_true]

end

/-! ### Units and items at the begin of a command -/

@[simp] theorem State.unit_begin (s : State) (r : Nat) : s.begin.unit r = s.unit r := rfl
@[simp] theorem State.gpuItem_begin (s : State) (q seq : Nat) : s.begin.gpuItem q seq = s.gpuItem q seq := rfl
@[simp] theorem State.gpuFrozen_begin (s : State) (st : Nat) : s.begin.gpuFrozen st = s.gpuFrozen st := rfl
@[simp] theorem State.unitsOf_begin (s : State) (q seq : Nat) : s.begin.unitsOf q seq = s.unitsOf q seq := rfl

/-- The waiting passes are looked at in their order, and each by what the begin of a command leaves alone. -/
@[simp] theorem State.floorNext_begin (s : State) (held : List Nat) (l : List (Nat × Nat)) : s.begin.floorNext held l = s.floorNext held l := by
  induction l generalizing held with
  | nil => rfl
  | cons k l ih =>
    obtain ⟨q, seq⟩ := k
    simp only [State.floorNext, ih, State.gpuItem_begin, State.gpuFrozen_begin]
    rfl

/-! ### The commands of the engine -/

/-- Settles O36: RCTRL past its checks; the floor of the pass that is next; each command of a unit by the unit on its resource. -/
theorem rasterCommandsComplete : Obligations.RasterCommandsComplete := by
  unfold Obligations.RasterCommandsComplete
  refine ⟨?run, ?stop, ?floor, ?kill, ?corrected, ?uncorrectable, ?long⟩
  case run =>
    intro who s h hst hd
    exact congrArg Host.Outcome.next ((write_ok h _).trans (State.wrRctrl_run (s := s.accepted) hst hd))
  case stop =>
    intro who s h hst
    exact congrArg Host.Outcome.next ((write_ok h _).trans (State.wrRctrl_stop (s := s.accepted) hst))
  case floor =>
    intro it s hn
    have hb : s.begin.floorNext [] s.begin.gpu.floorQ = some it := (State.floorNext_begin s [] _).trans hn
    show execPassFloorReserved s = _
    simp only [execPassFloorReserved, hb]
  case kill =>
    intro cl times u it s hu hi hk
    show execComputeTileKill cl times s = _
    simp only [execComputeTileKill, State.unit_begin, State.gpuItem_begin, hu, hi, hk, bne_self_eq_false, Bool.false_eq_true, if_false]
  case corrected =>
    intro cl t u s hu
    show execTileMemoryError cl false t s = _
    simp only [execTileMemoryError, State.unit_begin, hu, Bool.false_eq_true, if_false]
  case uncorrectable =>
    intro cl t u s hu
    show execTileMemoryError cl true t s = _
    simp only [execTileMemoryError, State.unit_begin, hu, if_true]
  case long =>
    intro res u s hu hk hl hslot
    have hcounts : ¬ (u.kind = 2 ∨ u.long = true ∨ (u.kind = 0 ∧ res.val < 12)) := by
      rintro (h | h | ⟨h, hlt⟩)
      · exact hk h
      · exact Bool.eq_false_iff.mp hl h
      · exact absurd (hslot h) (Nat.not_le.mpr hlt)
    show execLongUnit res s = _
    simp only [execLongUnit, State.unit_begin, hu, if_neg hcounts]

/-! ### The programs of units -/

section
variable {s : State} {r : Nat} {u : GUnit} {it : WorkItem}

/-- A unit with no step left whose context is not frozen may go on. -/
theorem frozen_or_todo_eq_false (hf : s.gpuFrozen it.st = false) (ht : u.todo = []) : (s.gpuFrozen it.st || u.todo != []) = false := by
  rw [hf, ht]
  rfl

/-- A unit that is not frozen, neither before its programs run nor by them, ends at once. -/
theorem State.unitRun_ends (ops : List GpuOp) (fin : State → State) (hf : s.gpuFrozen it.st = false) (ht : u.todo = []) (he : u.ending = false)
    (hf' : ((s.setUnit r (some { u with todo := ops, ending := true })).runUnit r).gpuFrozen it.st = false) :
    s.unitRun r u it ops fin = (fin ((s.setUnit r (some { u with todo := ops, ending := true })).runUnit r)).gpuKick := by
  simp only [State.unitRun, frozen_or_todo_eq_false hf ht, he, hf', Bool.false_eq_true, if_false]

end

/-- Settles O37: the end of a unit; its commands by the unit and the item that they meet; the epoch and the windows under their guards. -/
theorem rasterUnitsComplete : Obligations.RasterUnitsComplete := by
  unfold Obligations.RasterUnitsComplete
  refine ⟨?ends, ?drawNothing, ?drawVertices, ?render, ?compute, ?epoch, ?windowOpen, ?latch⟩
  case ends =>
    intro s r u it ops fin hf ht he hf'
    exact State.unitRun_ends ops fin hf ht he hf'
  case drawNothing =>
    intro slot prog prims run u it s hu hi hf ht htile
    show execDrawBinned slot prog prims run s = _
    simp only [execDrawBinned, State.unit_begin, State.gpuItem_begin, State.gpuFrozen_begin, hu, hi, frozen_or_todo_eq_false hf ht, htile,
      Bool.false_eq_true, if_false, if_true]
  case drawVertices =>
    intro slot prog prims run u v cl it s hu hi hf ht htile hcl hv
    show execDrawBinned slot prog prims run s = _
    -- The statement writes the matches of the continuation out: as a file of its own, `rfl` identifies them with the model's.
    simp only [execDrawBinned, State.unit_begin, State.gpuItem_begin, State.gpuFrozen_begin, State.unitsOf_begin, hu, hi,
      frozen_or_todo_eq_false hf ht, htile, hcl, hv, Bool.false_eq_true, if_false] <;> rfl
  case render =>
    intro cl frags run u it s hu hi hk
    show execRenderTileDone cl frags run s = _
    simp only [execRenderTileDone, State.unit_begin, State.gpuItem_begin, hu, hi, hk, bne_self_eq_false, Bool.false_eq_true, if_false]
  case compute =>
    intro cl run u it s hu hi hk
    show execComputeTileDone cl run s = _
    simp only [execComputeTileDone, State.unit_begin, State.gpuItem_begin, hu, hi, hk, bne_self_eq_false, Bool.false_eq_true, if_false]
  case epoch =>
    intro s hr hd
    have hcounted : (!s.power.inReset && decide (1 ≤ s.dstate)) = true := by rw [hr, decide_eq_true hd, Bool.not_false, Bool.and_self]
    exact congrArg Host.Outcome.next (guard_true hcounted _)
  case windowOpen =>
    intro p s hw
    exact congrArg Host.Outcome.next (guard_true (s := s.begin) hw _)
  case latch =>
    intro p s hw
    exact congrArg Host.Outcome.next (guard_true (s := s.begin) hw _)

end Sys2Proof.Machine
end

section
/-! PROOFS. Scope, memories: the commands that store nothing leave every byte of SRAM, DRAM and eNVM as it was (`sameMemory`). -/
namespace Sys2Proof.Machine

/-- A command that stores nothing keeps every property that does not speak of the memories: one outside the unit families by what it keeps
already, one of those families by the law of its command. -/
theorem exec_keeps_of_not_storesBytes {P : State → Prop} (hM : Keep P) {i : Instr} {s : State} (hi : storesBytes i = false) (hs : P s) :
    ∃ t, exec i s = .next t ∧ P t := by
  have hU : KeepUnits P := hM.toKeepUnits
  cases hunits : touchesUnits i with
  | false => exact exec_keeps_of_not_touchesUnits hM.toKeepSys hunits hs
  | true =>
    have hno : (storesBytes i || !touchesUnits i) = false := by rw [hi, hunits]; rfl
    cases i with
    | stoppedReached => exact execStoppedReached_stable (hsK := hs) hM ..
    | hpdFall => exact execHpdFall_stable (hsK := hs) hU ..
    | hpdStable => exact execHpdStable_stable (hsK := hs) hU ..
    | faultRetry => exact execFaultRetry_stable (hsK := hs) hU ..
    | laneStatusRead => exact execLaneStatusRead_stable (hsK := hs) hU ..
    | auxGo => exact execAuxGo_stable (hsK := hs) hU ..
    | auxReply => exact execAuxReply_stable (hsK := hs) hU ..
    | auxReplyTimeout => exact execAuxReplyTimeout_stable (hsK := hs) hU ..
    | syncSrcWrite => exact execSyncSrcWrite_stable (hsK := hs) hU ..
    | realign => exact execRealign_stable (hsK := hs) hU ..
    | referenceEdge => exact execReferenceEdge_stable (hsK := hs) hU ..
    | missingFrame => exact execMissingFrame_stable (hsK := hs) hU ..
    | latchPoint => exact execLatchPoint_stable (hsK := hs) hM ..
    | verticalBlankingStart => exact execVerticalBlankingStart_stable (hsK := hs) hU ..
    | fetchSpanComplete => exact execFetchSpanComplete_stable (hsK := hs) hM ..
    | awningLineFetched => exact execAwningLineFetched_stable (hsK := hs) hM ..
    | layerCommit => exact execLayerCommit_stable (hsK := hs) hU ..
    | layerCancel => exact execLayerCancel_stable (hsK := hs) hU ..
    | pipeCommit => exact execPipeCommit_stable (hsK := hs) hU ..
    | lockstepRequest => exact execLockstepRequest_stable (hsK := hs) hU ..
    | cancelPipe => exact execCancelPipe_stable (hsK := hs) hU ..
    | cancelLock => exact execCancelLock_stable (hsK := hs) hU ..
    | awningCommit => exact execAwningCommit_stable (hsK := hs) hU ..
    | awningCancel => exact execAwningCancel_stable (hsK := hs) hU ..
    | krelRelease => exact execKrelRelease_stable (hsK := hs) hU ..
    | krelReject => exact execKrelReject_stable (hsK := hs) hU ..
    | pitchCommit => exact execPitchCommit_stable (hsK := hs) hU ..
    | pitchClear => exact execPitchClear_stable (hsK := hs) hU ..
    | expCtl => exact execExpCtl_stable (hsK := hs) hU ..
    | sealPeriodWrite => exact execSealPeriodWrite_stable (hsK := hs) hU ..
    | sealPeriodExpiry => exact execSealPeriodExpiry_stable (hsK := hs) hU ..
    | ledgerSubmit => exact execLedgerSubmit_stable (hsK := hs) hU ..
    | longUnit => exact execLongUnit_stable (hsK := hs) hU ..
    | ownerTableWrite => exact execOwnerTableWrite_stable (hsK := hs) hU ..
    | doorbell => exact execDoorbell_stable (hsK := hs) hU ..
    | queueDisable => exact execQueueDisable_stable (hsK := hs) hU ..
    | queueEnable => exact execQueueEnable_stable (hsK := hs) hU ..
    | qbaseWrite => exact execQbaseWrite_stable (hsK := hs) hU ..
    | descriptorFetched => exact execDescriptorFetched_stable (hsK := hs) hM ..
    | linkWordRead => exact execLinkWordRead_stable (hsK := hs) hM ..
    | pitchClr => exact execPitchClr_stable (hsK := hs) hM ..
    | clkSet => exact execClkSet_stable (hsK := hs) hM ..
    | channelDisable => exact execChannelDisable_stable (hsK := hs) hU ..
    | channelEnable => exact execChannelEnable_stable (hsK := hs) hU ..
    | chDb => exact execChDb_stable (hsK := hs) hU ..
    | dmThaw => exact execDmThaw_stable (hsK := hs) hU ..
    | scanOpportunity => exact execScanOpportunity_stable (hsK := hs) hU ..
    | panelEnable => exact execPanelEnable_stable (hsK := hs) hM ..
    | recal => exact execRecal_stable (hsK := hs) hU ..
    | tdmFrame => exact execTdmFrame_stable (hsK := hs) hU ..
    | lraHalfPeriod => exact execLraHalfPeriod_stable (hsK := hs) hU ..
    | bemfZeroCrossing => exact execBemfZeroCrossing_stable (hsK := hs) hU ..
    | islandOff => exact execIslandOff_stable (hsK := hs) hM ..
    | islandOn => exact execIslandOn_stable (hsK := hs) hM ..
    | _ => exact Bool.noConfusion hno

theorem State.sameMemory_refl (s : State) : s.sameMemory s := fun _ => ⟨rfl, rfl, rfl⟩

/-- Settles O4: to have the bytes of a given state is a property that every command that stores nothing keeps. -/
theorem memoryFrame : Obligations.MemoryFrame := by
  unfold Obligations.MemoryFrame
  intro i s t hi ht
  obtain ⟨u, hu, hsame⟩ := exec_keeps_of_not_storesBytes (memory_keep s) hi s.sameMemory_refl
  rw [hu] at ht
  cases ht
  exact hsame

end Sys2Proof.Machine
end

section
/-! PROOFS. Scope, interrupts: when a source of a stall sets its bit and sends a message (R220, R221). -/
namespace Sys2Proof.Machine

/-! ### Addresses -/

/-- Offsets of a block that differ are different addresses. -/
theorem blkAddr_ne (id : Nat) {x y : Nat} (h : x ≠ y) : blkAddr id x ≠ blkAddr id y := fun he => h (Nat.add_left_cancel he)

/-- Offsets of a control page that differ are different addresses. -/
theorem bar0Addr_ne (st : Nat) {x y : Nat} (h : x ≠ y) : bar0Addr st x ≠ bar0Addr st y := fun he => h (Nat.add_left_cancel he)

/-- Where control pages begin: outside the physical address space, beyond every block. -/
theorem le_bar0Addr (st off : Nat) : 0x10000000000 ≤ bar0Addr st off := by
  unfold bar0Addr
  omega

/-! ### Bits of words -/

theorem bitOf_toNat (w : W64) (i : Nat) : bitOf w.toNat i = w.getLsbD i := by
  rw [bitOf, ← BitVec.testBit_toNat, Nat.testBit_eq_decide_div_mod_eq]
  rfl

/-- A clear bit of a word is set. -/
theorem ofNat_setBitN_of_clear {w : W64} {i : Nat} (hb : bitOf w.toNat i = false) :
    BitVec.ofNat 64 (setBitN w.toNat i true) = w ||| 1#64 <<< i := by
  have hzero : w.toNat / 2 ^ i % 2 = 0 := by simpa [bitOf] using hb
  have hand : w &&& BitVec.twoPow 64 i = 0#64 := by
    rw [BitVec.and_twoPow, ← bitOf_toNat, hb]
    rfl
  rw [setBitN, hzero, ← BitVec.twoPow_eq, ← BitVec.add_eq_or_of_and_eq_zero _ _ hand]
  apply BitVec.eq_of_toNat_eq
  simp [BitVec.toNat_add]

/-- A bit that is set stays. -/
theorem or_bit_of_set {w : W64} {i : Nat} (hb : bitOf w.toNat i = true) : w ||| 1#64 <<< i = w := by
  rw [bitOf_toNat] at hb
  rw [← BitVec.twoPow_eq]
  ext k hk
  have hbit : k = i → w[k] = true := by
    rintro rfl
    rwa [BitVec.getLsbD_eq_getElem hk] at hb
  simpa [BitVec.getElem_twoPow] using hbit

/-! ### Messages -/

/-- The function of a stall, and its configuration, follow from its binding alone. -/
theorem State.stallFn_congr {s t : State} {st : Nat} (hboot : t.boot = s.boot) (hscfg : t.rw (rSCFG st) = s.rw (rSCFG st)) :
    t.stallFn st = s.stallFn st := by
  simp only [State.stallFn, State.fnCfg, State.binding, State.mgrEp, State.rd, hboot, hscfg]

section
variable {s : State} {st src v : Nat}

/-- A property of states that the registers of control pages and what is said to the outside cannot break holds after a message. -/
theorem State.sendMsix_keeps {P : State → Prop} (hreg : ∀ (t : State) (a : Nat) (w : W64), 0x10000000000 ≤ a → P t → P (t.setRw a w))
    (hout : ∀ (t : State) (o : Out), P t → P (t.emit o)) (hs : P s) : P (s.sendMsix st v) := by
  unfold State.sendMsix
  split
  · exact hs
  · split
    · exact hreg _ _ _ (le_bar0Addr ..) hs
    · exact hout _ _ hs

/-- With MSI-X enabled and nothing masked a message goes out. -/
theorem State.sendMsix_unmasked (hon : (s.stallFn st).msixOn = true) (hfn : (s.stallFn st).msixMask = false)
    (hvec : bitOf (s.rw (rMSIX st (4 * v + 3))).toNat 0 = false) : s.sendMsix st v = s.emit (.msix st v) := by
  simp only [State.sendMsix, hon, hfn, hvec, Bool.true_eq_false, Bool.false_eq_true, Bool.or_self, if_false]

/-- A message changes no bit of ISTAT. -/
theorem State.sendMsix_istat {k : Nat} (hk : k < 3) : (s.sendMsix st v).rw (rISTAT st k) = s.rw (rISTAT st k) := by
  unfold State.sendMsix
  split
  · rfl
  · split
    · exact State.rw_setRw_ne _ _ (bar0Addr_ne _ (by omega))
    · rfl

/-! ### Sources -/

/-- The state in which the bit of a source is set. -/
def State.irqRaised (s : State) (st src : Nat) : State :=
  s.setRw (rISTAT st (src / 32)) (BitVec.ofNat 64 (setBitN (s.rw (rISTAT st (src / 32))).toNat (src % 32) true))

/-- A stall that neither runs nor is frozen gets nothing. -/
theorem State.irq_of_not_live (h1 : s.stallState st ≠ 1) (h2 : s.stallState st ≠ 2) : s.irq st src = s :=
  if_neg (fun h => h.1.elim h1 h2)

/-- A stall without the grant of the source gets nothing. -/
theorem State.irq_of_no_source (h : s.hasSource st src = false) : s.irq st src = s :=
  if_neg (fun hs => Bool.eq_false_iff.mp h hs.2)

/-- A bit that is set already stays, and nothing is said. -/
theorem State.irq_of_set (h : bitOf (s.rw (rISTAT st (src / 32))).toNat (src % 32) = true) : s.irq st src = s := by
  simp only [State.irq, h, if_true, ite_self]

/-- Otherwise the bit is set, and with its IMASK bit 1 a message is sent. -/
theorem State.irq_fires (hlive : s.stallState st = 1 ∨ s.stallState st = 2) (hsrc : s.hasSource st src = true)
    (h : bitOf (s.rw (rISTAT st (src / 32))).toNat (src % 32) = false) : s.irq st src =
      if bitOf (s.rw (rIMASK st (src / 32))).toNat (src % 32) then (s.irqRaised st src).sendMsix st (s.ivec st src) else s.irqRaised st src := by
  have hfires : (s.stallState st = 1 ∨ s.stallState st = 2) ∧ s.hasSource st src = true := ⟨hlive, hsrc⟩
  simp only [State.irq, if_pos hfires, h, Bool.false_eq_true, if_false, State.irqRaised]

/-- What an interrupt can do: nothing, set its bit, or set it and send a message. -/
theorem State.irq_cases (s : State) (st src : Nat) : s.irq st src = s ∨ s.irq st src = s.irqRaised st src ∨
    (bitOf (s.rw (rIMASK st (src / 32))).toNat (src % 32) = true ∧ s.irq st src = (s.irqRaised st src).sendMsix st (s.ivec st src)) := by
  by_cases hlive : s.stallState st = 1 ∨ s.stallState st = 2
  · cases hsrc : s.hasSource st src with
    | false => exact .inl (State.irq_of_no_source hsrc)
    | true =>
      cases hbit : bitOf (s.rw (rISTAT st (src / 32))).toNat (src % 32) with
      | true => exact .inl (State.irq_of_set hbit)
      | false =>
        cases hmask : bitOf (s.rw (rIMASK st (src / 32))).toNat (src % 32) with
        | true => exact .inr (.inr ⟨rfl, (State.irq_fires hlive hsrc hbit).trans (if_pos hmask)⟩)
        | false => exact .inr (.inl ((State.irq_fires hlive hsrc hbit).trans (if_neg (Bool.eq_false_iff.mp hmask))))
  · obtain ⟨h1, h2⟩ := not_or.mp hlive
    exact .inl (State.irq_of_not_live h1 h2)

/-- A property of states that the registers of control pages and what is said to the outside cannot break holds after an interrupt. -/
theorem State.irq_keeps {P : State → Prop} (hreg : ∀ (t : State) (a : Nat) (w : W64), 0x10000000000 ≤ a → P t → P (t.setRw a w))
    (hout : ∀ (t : State) (o : Out), P t → P (t.emit o)) (hs : P s) : P (s.irq st src) := by
  have hraised : P (s.irqRaised st src) := hreg _ _ _ (le_bar0Addr ..) hs
  rcases s.irq_cases st src with h | h | ⟨_, h⟩ <;> rw [h]
  · exact hs
  · exact hraised
  · exact State.sendMsix_keeps hreg hout hraised

/-- An interrupt changes registers of control pages only. -/
theorem State.irq_rw_of_lt {x : Nat} (hx : x < 0x10000000000) : (s.irq st src).rw x = s.rw x :=
  State.irq_keeps (P := fun t => t.rw x = s.rw x) (fun _ _ _ ha h => (State.rw_setRw_ne _ _ (by omega)).trans h) (fun _ _ h => h) rfl

@[simp] theorem State.irq_lv (x : Nat) : (s.irq st src).lv x = s.lv x :=
  State.irq_keeps (P := fun t => t.lv x = s.lv x) (fun _ _ _ _ h => h) (fun _ _ h => h) rfl

@[simp] theorem State.irq_frozen : (s.irq st src).frozen = s.frozen :=
  State.irq_keeps (P := fun t => t.frozen = s.frozen) (fun _ _ _ _ h => h) (fun _ _ h => h) rfl

/-- The source's bit of ISTAT is set. -/
theorem State.irq_istat (hlive : s.stallState st = 1 ∨ s.stallState st = 2) (hsrc : s.hasSource st src = true) (hn : src < 96) :
    (s.irq st src).rw (rISTAT st (src / 32)) = s.rw (rISTAT st (src / 32)) ||| 1#64 <<< (src % 32) := by
  cases hbit : bitOf (s.rw (rISTAT st (src / 32))).toNat (src % 32) with
  | true => rw [State.irq_of_set hbit, or_bit_of_set hbit]
  | false =>
    have hraised : (s.irqRaised st src).rw (rISTAT st (src / 32)) = s.rw (rISTAT st (src / 32)) ||| 1#64 <<< (src % 32) := by
      rw [State.irqRaised, State.rw_setRw_same, ofNat_setBitN_of_clear hbit]
    rw [State.irq_fires hlive hsrc hbit]
    split
    · rw [State.sendMsix_istat (by omega), hraised]
    · exact hraised

/-- With its IMASK bit 1, MSI-X enabled and nothing masked, a source whose bit was 0 sends the message of its vector. -/
theorem State.irq_sends {st : Fin 16} {src : Fin 96} (hlive : s.stallState st = 1 ∨ s.stallState st = 2) (hsrc : s.hasSource st src = true)
    (hbit : bitOf (s.rw (rISTAT st (src / 32))).toNat (src % 32) = false)
    (hmask : bitOf (s.rw (rIMASK st (src / 32))).toNat (src % 32) = true) (hon : (s.stallFn st).msixOn = true)
    (hfn : (s.stallFn st).msixMask = false)
    (hvec : bitOf (s.rw (rMSIX st (4 * s.ivec st src + 3))).toNat 0 = false) :
    (s.irq st src).out = s.out ++ [.msix st (s.ivec st src)] := by
  have hstallFn : (s.irqRaised st src).stallFn st = s.stallFn st :=
    State.stallFn_congr rfl (State.rw_setRw_ne _ _ (by unfold rISTAT rSCFG bar0Addr blkAddr; omega))
  have hmsix : (s.irqRaised st src).rw (rMSIX st (4 * s.ivec st src + 3)) = s.rw (rMSIX st (4 * s.ivec st src + 3)) :=
    State.rw_setRw_ne _ _ (bar0Addr_ne _ (by omega))
  rw [State.irq_fires hlive hsrc hbit, if_pos hmask, State.sendMsix_unmasked (hstallFn.symm ▸ hon) (hstallFn.symm ▸ hfn) (hmsix.symm ▸ hvec)]
  rfl

/-- With its IMASK bit 0 a source says nothing. -/
theorem State.irq_masked_out (hmask : bitOf (s.rw (rIMASK st (src / 32))).toNat (src % 32) = false) : (s.irq st src).out = s.out := by
  rcases s.irq_cases st src with h | h | ⟨hset, _⟩
  · rw [h]
  · rw [h]; rfl
  · exact absurd hset (Bool.eq_false_iff.mp hmask)

end

/-- Settles O16: the cases of `irq`, and what the raised bit and the message show. -/
theorem interruptRule : Obligations.InterruptRule := by
  unfold Obligations.InterruptRule
  refine ⟨?notLive, ?noSource, ?alreadySet, ?sets, ?sends, ?silent⟩
  case notLive =>
    intro s st src h1 h2
    exact State.irq_of_not_live h1 h2
  case noSource =>
    intro s st src h
    exact State.irq_of_no_source h
  case alreadySet =>
    intro s st src h
    exact State.irq_of_set h
  case sets =>
    intro s st src hlive hsrc
    exact State.irq_istat hlive hsrc src.isLt
  case sends =>
    intro s st src hlive hsrc hbit hmask hon hfn hvec
    exact State.irq_sends hlive hsrc hbit hmask hon hfn hvec
  case silent =>
    intro s st src hmask
    exact State.irq_masked_out hmask

end Sys2Proof.Machine
end

section
/-! PROOFS. Scope, violations: the record of a stall's violation and the freeze of its master (R233, R235). -/
namespace Sys2Proof.Machine

/-! ### The stall pages of QST -/

/-- An offset within QST is a physical address. -/
theorem qstAddr_lt {x : Nat} (h : x < 0x10000) : blkAddr 0x40 x < 0x10000000000 := by
  unfold blkAddr
  omega

theorem State.rw_wr_same (s : State) (a : Nat) (f : Fld) (v : Nat) : (s.wr a f v).rw a = putFld (s.rw a) f v := State.rw_setRw_same s a _

theorem State.on_wr_field (s : State) (a : Nat) {f g : Fld} (v : Nat) (h : f.lo + f.w ≤ g.lo ∨ g.lo + g.w ≤ f.lo) :
    (s.wr a f v).on a g = s.on a g := by
  rw [State.on, State.rd_wr_field _ _ _ _ _ h]
  rfl

/-- Words that are equal have equal fields. -/
theorem State.on_congr {s t : State} {a : Nat} (h : t.rw a = s.rw a) (f : Fld) : t.on a f = s.on a f := by
  rw [State.on, State.on, State.rd, State.rd, h]

theorem State.rd_congr {s t : State} {a : Nat} (h : t.rw a = s.rw a) (f : Fld) : t.rd a f = s.rd a f := by
  rw [State.rd, State.rd, h]

/-! ### The steps of a violation -/

/-- VKIND with the first violation in it. -/
def vkindWord (w : W64) (m r k a : Nat) (write : Bool) : W64 :=
  putFld (putFld (putFld (putFld (putFld (putFld w fVKIND_MASTER m) fVKIND_REASON r) fVKIND_INST k) fVKIND_WRITE (b2n write)) fVKIND_ADDR63
    (a / 2 ^ 63)) fVKIND_ADDR62 (a / 2 ^ 62)

section
variable {s : State} {st m r k a : Nat} {write : Bool}

/-- The record of a first violation. -/
def State.recorded (s : State) (st m r k a : Nat) (write : Bool) : State :=
  (((((((((s.wr (rSSTAT st) fSSTAT_VREC_VALID 1).wr (rVKIND st) fVKIND_MASTER m).wr (rVKIND st) fVKIND_REASON r).wr
    (rVKIND st) fVKIND_INST k).wr (rVKIND st) fVKIND_WRITE (b2n write)).wr (rVKIND st) fVKIND_ADDR63 (a / 2 ^ 63)).wr
    (rVKIND st) fVKIND_ADDR62 (a / 2 ^ 62)).wr (rVADDR_LO st) fVADDR_LO_ADDR a).wr (rVADDR_HI st) fVADDR_HI_ADDR (a / 2 ^ 31))

/-- A violation counted and, if it is the first, recorded. -/
def State.noted (s : State) (st m r k a : Nat) (write : Bool) : State :=
  if s.on (rSSTAT st) fSSTAT_VREC_VALID then s.bumpErr (rVCOUNT st) else (s.bumpErr (rVCOUNT st)).recorded st m r k a write

/-- The stall of the violation, entering FROZEN if it was ACTIVE. -/
def State.violated (s : State) (st m r k a : Nat) (write : Bool) : State :=
  if s.stallState st = 1 then (s.noted st m r k a write).wr (rSSTAT st) fSSTAT_STATE 2 else s.noted st m r k a write

/-- A master is frozen, if it is not already. -/
def State.freezeMaster (s : State) (f : Nat × Nat × Nat) : State :=
  if s.frozen.contains f then s else { s with frozen := s.frozen ++ [f] }

/-- A violation is noted, freezes its master, and interrupts the stall and S0. -/
theorem State.violate_eq : s.violate st m r k a write =
    (((s.violated st m r k a write).freezeMaster (st, m, k)).irq st 90).irq 0 94 := rfl

theorem State.freezeMaster_rw (f : Nat × Nat × Nat) (x : Nat) : (s.freezeMaster f).rw x = s.rw x := by
  unfold State.freezeMaster
  split <;> rfl

theorem State.freezeMaster_lv (f : Nat × Nat × Nat) (x : Nat) : (s.freezeMaster f).lv x = s.lv x := by
  unfold State.freezeMaster
  split <;> rfl

theorem State.freezeMaster_contains (f : Nat × Nat × Nat) : (s.freezeMaster f).frozen.contains f = true := by
  unfold State.freezeMaster
  split
  · assumption
  · simp

/-- The registers of blocks after a violation are those of the state in which it is noted. -/
theorem State.violate_rw {x : Nat} (hx : x < 0x10000000000) : (s.violate st m r k a write).rw x = (s.violated st m r k a write).rw x := by
  rw [State.violate_eq, State.irq_rw_of_lt hx, State.irq_rw_of_lt hx, State.freezeMaster_rw]

/-! ### The record -/

theorem State.recorded_vkind : (s.recorded st m r k a write).rw (rVKIND st) = vkindWord (s.rw (rVKIND st)) m r k a write := by
  have hhi : rVADDR_HI st ≠ rVKIND st := blkAddr_ne _ (by omega)
  have hlo : rVADDR_LO st ≠ rVKIND st := blkAddr_ne _ (by omega)
  have hst : rSSTAT st ≠ rVKIND st := blkAddr_ne _ (by omega)
  simp only [State.recorded, State.rw_wr_ne _ _ _ hhi, State.rw_wr_ne _ _ _ hlo, State.rw_wr_same, State.rw_wr_ne _ _ _ hst, vkindWord]

theorem State.recorded_sstat : (s.recorded st m r k a write).rw (rSSTAT st) = putFld (s.rw (rSSTAT st)) fSSTAT_VREC_VALID 1 := by
  have hhi : rVADDR_HI st ≠ rSSTAT st := blkAddr_ne _ (by omega)
  have hlo : rVADDR_LO st ≠ rSSTAT st := blkAddr_ne _ (by omega)
  have hkind : rVKIND st ≠ rSSTAT st := blkAddr_ne _ (by omega)
  simp only [State.recorded, State.rw_wr_ne _ _ _ hhi, State.rw_wr_ne _ _ _ hlo, State.rw_wr_ne _ _ _ hkind, State.rw_wr_same]

/-- To enter FROZEN writes STATE of SSTAT alone. -/
theorem State.violated_rw_ne {x : Nat} (hx : rSSTAT st ≠ x) : (s.violated st m r k a write).rw x = (s.noted st m r k a write).rw x := by
  unfold State.violated
  split
  · exact State.rw_wr_ne _ _ _ hx
  · rfl

theorem State.violated_valid : (s.violated st m r k a write).on (rSSTAT st) fSSTAT_VREC_VALID =
    (s.noted st m r k a write).on (rSSTAT st) fSSTAT_VREC_VALID := by
  unfold State.violated
  split
  · exact State.on_wr_field _ _ _ (by decide)
  · rfl

/-- Noted or recorded before: either way there is a record. -/
theorem State.noted_valid : (s.noted st m r k a write).on (rSSTAT st) fSSTAT_VREC_VALID = true := by
  unfold State.noted
  split
  case isTrue h => exact (State.bumpErr_on_of ..).trans h
  case isFalse =>
    rw [State.on, State.rd, State.recorded_sstat, getFld_putFld_same _ _ _ (by decide)]
    rfl

/-- A further violation leaves every word of the record. -/
theorem State.violate_recorded {x : Nat} (hx : x < 0x10000000000) (hne : rSSTAT st ≠ x) (hv : s.on (rSSTAT st) fSSTAT_VREC_VALID = true) :
    (s.violate st m r k a write).rw x = s.rw x := by
  rw [State.violate_rw hx, State.violated_rw_ne hne, State.noted, if_pos hv, State.bumpErr_rw_of]

/-- The first violation makes the word of VKIND. -/
theorem State.violate_vkind (hst : st < 16) (hv : s.on (rSSTAT st) fSSTAT_VREC_VALID = false) :
    (s.violate st m r k a write).rw (rVKIND st) = vkindWord (s.rw (rVKIND st)) m r k a write := by
  have hlt : rVKIND st < 0x10000000000 := qstAddr_lt (by omega)
  have hne : rSSTAT st ≠ rVKIND st := blkAddr_ne _ (by omega)
  rw [State.violate_rw hlt, State.violated_rw_ne hne, State.noted, if_neg (Bool.eq_false_iff.mp hv), State.recorded_vkind, State.bumpErr_rw_of]

/-- After a violation there is a record. -/
theorem State.violate_valid (hst : st < 16) : (s.violate st m r k a write).on (rSSTAT st) fSSTAT_VREC_VALID = true := by
  have hlt : rSSTAT st < 0x10000000000 := qstAddr_lt (by omega)
  rw [State.on_congr (State.violate_rw hlt), State.violated_valid, State.noted_valid]

/-! ### The fields of VKIND -/

section
variable {w : W64}

theorem vkindWord_master (hm : m < 8) : getFld (vkindWord w m r k a write) fVKIND_MASTER = m := by
  simp (disch := decide) only [vkindWord, getFld_putFld_ne]
  exact getFld_putFld_of_lt (by decide) hm

theorem vkindWord_reason (hr : r < 16) : getFld (vkindWord w m r k a write) fVKIND_REASON = r := by
  simp (disch := decide) only [vkindWord, getFld_putFld_ne]
  exact getFld_putFld_of_lt (by decide) hr

theorem vkindWord_inst (hk : k < 256) : getFld (vkindWord w m r k a write) fVKIND_INST = k := by
  simp (disch := decide) only [vkindWord, getFld_putFld_ne]
  exact getFld_putFld_of_lt (by decide) hk

theorem vkindWord_write : getFld (vkindWord w m r k a write) fVKIND_WRITE = b2n write := by
  simp (disch := decide) only [vkindWord, getFld_putFld_ne]
  exact getFld_putFld_of_lt (by decide) (by cases write <;> decide)

end

/-! ### Count, master and state -/

theorem State.violate_lv (x : Nat) : (s.violate st m r k a write).lv x = (s.bumpErr (rVCOUNT st)).lv x := by
  have hnoted : (s.noted st m r k a write).lv x = (s.bumpErr (rVCOUNT st)).lv x := by
    unfold State.noted
    split <;> rfl
  have hviolated : (s.violated st m r k a write).lv x = (s.noted st m r k a write).lv x := by
    unfold State.violated
    split <;> rfl
  rw [State.violate_eq, State.irq_lv, State.irq_lv, State.freezeMaster_lv, hviolated, hnoted]

theorem State.violate_masterFrozen : (s.violate st m r k a write).masterFrozen st m k = true := by
  rw [State.masterFrozen, State.violate_eq, State.irq_frozen, State.irq_frozen, State.freezeMaster_contains]

/-- An ACTIVE stall enters FROZEN. -/
theorem State.violate_stallState (hst : st < 16) (h : s.stallState st = 1) : (s.violate st m r k a write).stallState st = 2 := by
  have hlt : rSSTAT st < 0x10000000000 := qstAddr_lt (by omega)
  rw [State.stallState, State.rd_congr (State.violate_rw hlt), State.violated, if_pos h, State.rd_wr_same _ _ _ _ (by decide)]
  rfl

end

/-- Settles O14: the record by whether there is one already; count, master and state in both cases. -/
theorem stallViolationRule : Obligations.StallViolationRule := by
  unfold Obligations.StallViolationRule
  refine ⟨?further, ?first, ?both⟩
  case further =>
    intro s st m r k a write hv
    exact ⟨State.violate_recorded (qstAddr_lt (by omega)) (blkAddr_ne _ (by omega)) hv,
      State.violate_recorded (qstAddr_lt (by omega)) (blkAddr_ne _ (by omega)) hv,
      State.violate_recorded (qstAddr_lt (by omega)) (blkAddr_ne _ (by omega)) hv, State.violate_valid st.isLt⟩
  case first =>
    intro s st m r k a write hv hm hr hk
    have hkind : (s.violate st m r k a write).rw (rVKIND st) = vkindWord (s.rw (rVKIND st)) m r k a write := State.violate_vkind st.isLt hv
    simp only [State.rd, hkind]
    exact ⟨State.violate_valid st.isLt, vkindWord_master hm, vkindWord_reason hr, vkindWord_inst hk, vkindWord_write⟩
  case both =>
    intro s st m r k a write
    exact ⟨State.violate_lv _, State.violate_masterFrozen, State.violate_stallState st.isLt⟩

end Sys2Proof.Machine
end

section
/-! PROOFS. Scope, stalls: the commands of SCTRL (R208, R211, R217, R237), the PCIe events (R211, R242), squash, RESET_DONE and clearing (R239 to
R241, R217). -/
namespace Sys2Proof.Machine

/-! ### SCTRL by its one command bit -/

section
variable {s : State} {who : Who} {st : Nat}

theorem State.wrSctrl_create : s.wrSctrl who st (wBit 0 fSCTRL_CREATE) = s.stallCreate st := by
  simp (disch := decide) only [State.wrSctrl, getFld_wBit_same, getFld_wBit_zero_ne, Nat.zero_ne_one, if_false, if_true]

theorem State.wrSctrl_start : s.wrSctrl who st (wBit 0 fSCTRL_START) = s.stallStart st := by
  simp (disch := decide) only [State.wrSctrl, getFld_wBit_same, getFld_wBit_zero_ne, Nat.zero_ne_one, if_false, if_true]

theorem State.wrSctrl_reset : s.wrSctrl who st (wBit 0 fSCTRL_RESET) = s.stallReset who st := by
  simp (disch := decide) only [State.wrSctrl, getFld_wBit_same, getFld_wBit_zero_ne, Nat.zero_ne_one, if_false, if_true]

theorem State.wrSctrl_thaw : s.wrSctrl who st (wBit 0 fSCTRL_THAW) = s.stallThaw st := by
  simp (disch := decide) only [State.wrSctrl, getFld_wBit_same, getFld_wBit_zero_ne, Nat.zero_ne_one, if_false, if_true]

theorem State.wrSctrl_destroy : s.wrSctrl who st (wBit 0 fSCTRL_DESTROY) = s.stallDestroy st := by
  simp (disch := decide) only [State.wrSctrl, getFld_wBit_same, getFld_wBit_zero_ne, Nat.zero_ne_one, if_false, if_true]

/-! ### THAW (R237) -/

/-- The stall as THAW leaves it, before the movers and the raster engine go on. -/
def State.thawed (s : State) (st : Nat) : State :=
  (((s.wr (rSSTAT st) fSSTAT_VREC_VALID 0).wr (rSSTAT st) fSSTAT_VREC_READ 0).thawMasters st).toStall st 1

theorem State.stallThaw_accepted (h0 : st ≠ 0) (hst : s.stallState st = 2) (hread : s.on (rSSTAT st) fSSTAT_VREC_READ = true) :
    s.stallThaw st = (s.thawed st).dmThawed.gpuKick :=
  if_pos ⟨h0, hst, hread⟩

/-- THAW of S0, of a stall that is not FROZEN, or of one whose record was not read, is refused. -/
theorem State.stallThaw_refused (h : st ≠ 0 → s.stallState st = 2 → s.on (rSSTAT st) fSSTAT_VREC_READ = false) :
    s.stallThaw st = s.refuse (rSCTRL st) :=
  if_neg (fun ⟨h0, hst, hread⟩ => Bool.eq_false_iff.mp (h h0 hst) hread)

/-- A change of state writes STATE of SSTAT; S0's interrupt changes no register of a block. -/
theorem State.toStall_rw {x k : Nat} (hx : x < 0x10000000000) : (s.toStall st k).rw x = (s.wr (rSSTAT st) fSSTAT_STATE k).rw x :=
  State.irq_rw_of_lt hx

theorem State.toStall_frozen (k : Nat) : (s.toStall st k).frozen = s.frozen := State.irq_frozen

/-- The word of SSTAT after THAW. -/
theorem State.thawed_sstat (hst : st < 16) : (s.thawed st).rw (rSSTAT st) =
    putFld (putFld (putFld (s.rw (rSSTAT st)) fSSTAT_VREC_VALID 0) fSSTAT_VREC_READ 0) fSSTAT_STATE 1 := by
  have hlt : rSSTAT st < 0x10000000000 := qstAddr_lt (by omega)
  rw [State.thawed, State.toStall_rw hlt, State.rw_wr_same, ← State.rw_wr_same s, ← State.rw_wr_same (s.wr ..)]
  rfl

theorem State.thawed_frozen : (s.thawed st).frozen = s.frozen.filter (fun f => f.1 != st) := State.toStall_frozen 1

theorem State.thawed_stallState (hst : st < 16) : (s.thawed st).stallState st = 1 := by
  rw [State.stallState, State.rd, State.thawed_sstat hst, getFld_putFld_same _ _ _ (by decide)]
  rfl

/-- THAW clears the record. -/
theorem State.thawed_on {f : Fld} (hst : st < 16) (hf : f = fSSTAT_VREC_VALID ∨ f = fSSTAT_VREC_READ) : (s.thawed st).on (rSSTAT st) f = false := by
  rw [State.on, State.rd, State.thawed_sstat hst]
  rcases hf with rfl | rfl
  · rw [getFld_putFld_ne _ _ _ _ (by decide), getFld_putFld_ne _ _ _ _ (by decide), getFld_putFld_same _ _ _ (by decide)]
    rfl
  · rw [getFld_putFld_ne _ _ _ _ (by decide), getFld_putFld_same _ _ _ (by decide)]
    rfl

/-- No master of the stall stays frozen; those of other stalls are as before. -/
theorem State.thawed_masterFrozen (t m k : Nat) : (s.thawed st).masterFrozen t m k = (t != st && s.masterFrozen t m k) := by
  rw [State.masterFrozen, State.masterFrozen, State.thawed_frozen, Bool.eq_iff_iff]
  simp only [List.contains_iff_mem, List.mem_filter, Bool.and_eq_true]
  exact and_comm

end

/-- Settles O15: THAW past its checks by what it asks for; what the thawed stall shows. -/
theorem thawRule : Obligations.ThawRule := by
  unfold Obligations.ThawRule
  refine ⟨?refused, ?manager, ?accepted⟩
  case refused =>
    intro who st s h h0 hor
    have hno : st.val ≠ 0 → s.stallState st = 2 → s.on (rSSTAT st) fSSTAT_VREC_READ = false :=
      fun _ h2 => hor.resolve_left (not_not_intro h2)
    exact congrArg Host.Outcome.next ((write_ok h _).trans (State.wrSctrl_thaw.trans (State.stallThaw_refused (s := s.accepted) hno)))
  case manager =>
    intro who s h
    exact congrArg Host.Outcome.next ((write_ok h _).trans (State.wrSctrl_thaw.trans (State.stallThaw_refused (fun h0 => absurd rfl h0))))
  case accepted =>
    intro who st s h h0 hst hread
    have hthaw : s.accepted.stallThaw st = (s.accepted.thawed st).dmThawed.gpuKick :=
      State.stallThaw_accepted (Fin.val_ne_of_ne h0) hst hread
    refine ⟨s.accepted.thawed st, congrArg Host.Outcome.next ((write_ok h _).trans (State.wrSctrl_thaw.trans hthaw)),
      State.thawed_stallState st.isLt, State.thawed_on st.isLt (.inl rfl), State.thawed_on st.isLt (.inr rfl), fun m k => ?_, fun t m k ht => ?_⟩
    · rw [State.thawed_masterFrozen, bne_self_eq_false, Bool.false_and]
    · rw [State.thawed_masterFrozen, bne_iff_ne.mpr ht, Bool.true_and]
      rfl

/-! ### CREATE, START, RESET, DESTROY (R208, R211, R217) -/

section
variable {s : State} {who : Who} {st : Nat}

/-- CREATE with every check passed: the stall is in RESET. -/
theorem State.stallCreate_passed (hd : 3 ≤ s.dstate) (hc : s.createCheck st = 0) :
    s.stallCreate st = (s.wr (rSSTAT st) fSSTAT_CREATE_ERR 0).toStall st 4 := by
  simp only [State.stallCreate, if_neg (Nat.not_lt.mpr hd), hc, if_true]

/-- CREATE of a FREE stall with a check failed: CREATE_ERR names it, and that is all. -/
theorem State.stallCreate_failed (hd : 3 ≤ s.dstate) (hc : 1 < s.createCheck st) :
    s.stallCreate st = s.wr (rSSTAT st) fSSTAT_CREATE_ERR (s.createCheck st) := by
  have h0 : s.createCheck st ≠ 0 := by omega
  have h1 : s.createCheck st ≠ 1 := by omega
  simp only [State.stallCreate, if_neg (Nat.not_lt.mpr hd), if_neg h0, if_neg h1]

theorem State.stallStart_accepted (hst : s.stallState st = 4) (h0 : st ≠ 0) (hd : 4 ≤ s.dstate) : s.stallStart st = s.stallGo st :=
  if_pos ⟨hst, h0, hd⟩

theorem State.stallReset_keeper (hst : s.stallState st = 1 ∨ s.stallState st = 2) : s.stallReset .keeper st = s.stallDrain st 4 :=
  (if_pos hst).trans (if_pos rfl)

theorem State.stallReset_other (hst : s.stallState st = 1 ∨ s.stallState st = 2) (hw : who ≠ .keeper) (h0 : st ≠ 0) :
    s.stallReset who st = s.stallDrain st 0 :=
  (if_pos hst).trans ((if_neg hw).trans (if_pos h0))

end

/-! ### PCIe events (R211, R242) -/

theorem execBusMasterEnableCleared_bound {ep : Fin 2} {fn : Fin 16} {st : Nat} {s : State} (hr : s.running = true)
    (hb : s.boundStall ep fn = some st) (h0 : st ≠ 0) : execBusMasterEnableCleared ep fn s = .next (s.begin.stallDrain st 3) := by
  have hbound : (if s.begin.running then s.begin.boundStall ep fn else none) = some st := (if_pos hr).trans hb
  simp only [execBusMasterEnableCleared, hbound, if_neg h0]

/-- The MSI-X table of a stall's function as PCIe resets it: empty, every vector masked, nothing pending. -/
theorem execFunctionLevelReset_bound {ep : Fin 2} {fn : Fin 16} {st : Nat} {s : State} (hr : s.running = true)
    (hb : s.boundStall ep fn = some st) : execFunctionLevelReset ep fn s =
      .next ((((overN 64 (fun v s => (((s.setRw (rMSIX st (4 * v)) 0).setRw (rMSIX st (4 * v + 1)) 0).setRw
        (rMSIX st (4 * v + 2)) 0).setRw (rMSIX st (4 * v + 3)) 1) (s.begin.setFnCfg ep fn {})).setRw (rPBA st 0) 0).setRw
        (rPBA st 1) 0).stallDrain st 1) := by
  have hguard : s.begin.guard s.begin.running (fun s => s.setFnCfg ep fn {}) = s.begin.setFnCfg ep fn {} := guard_true hr _
  have hbound : (if (s.begin.setFnCfg ep fn {}).running then (s.begin.setFnCfg ep fn {}).boundStall ep fn else none) = some st :=
    (if_pos hr).trans hb
  simp only [execFunctionLevelReset, hguard, hbound]

/-! ### Squash, RESET_DONE and clearing (R239 to R241, R217) -/

/-- A bit that was set is 1. -/
theorem bitOf_setBitN_same (v i : Nat) : bitOf (setBitN v i true) i = true := by
  have hdiv : (v - v / 2 ^ i % 2 * 2 ^ i) / 2 ^ i = v / 2 ^ i - v / 2 ^ i % 2 := by
    rw [Nat.mul_comm, Nat.sub_mul_div]
  simp only [bitOf, setBitN, if_true, Nat.add_div_right _ (Nat.two_pow_pos i), hdiv, beq_iff_eq]
  omega

section
variable {s : State}

theorem execDrainLimit_eq {st : Fin 16} {times : List UnitTime} (hr : s.running = true) (hst : s.stallState st = 3)
    (hsq : bitOf s.squashed st = false) : ∃ t : State, execDrainLimit st times s = .next { t with squashed := setBitN t.squashed st true } := by
  have hdue : (s.running && s.stallState st == 3 && !bitOf s.squashed st) = true := by rw [hr, hst, hsq]; rfl
  exact ⟨_, congrArg Host.Outcome.next (guard_true (s := s.begin) hdue _)⟩

theorem execResetDone_eq {st : Fin 16} (hr : s.running = true) (hst : s.stallState st = 3) (hsq : bitOf s.squashed st = true)
    (hb : s.stallBusy st = false) : execResetDone st s = .next (s.begin.resetDone st) := by
  have hdue : (s.running && s.stallState st == 3 && bitOf s.squashed st && !s.stallBusy st) = true := by rw [hr, hst, hsq, hb]; rfl
  exact congrArg Host.Outcome.next (guard_true (s := s.begin) hdue _)

/-- What was being cleared under a number is zeroed and FREE. -/
def State.cleared (s : State) (n : Nat) : State :=
  (s.clearing.filter (fun e => e.1 == n)).foldl
    (fun (s : State) (e : Nat × Bool × Nat) => (s.zeroOwned e.2.1 e.2.2).setOwner e.2.1 e.2.2 ownFREE)
    { s with clearing := s.clearing.filter (fun e => e.1 != n) }

theorem execClearingDone_eq {st : Fin 17} (hw : s.works = true) : execClearingDone st s =
    .next (if st.val < 16 ∧ s.stallState st = 5 then (s.begin.cleared st).stallFreed st else s.begin.cleared st) := by
  have hworks : s.begin.works = true := hw
  simp only [execClearingDone, hworks, if_true]
  rfl

end

/-- Settles O41: the writes of SCTRL past their checks, by command and state; the events under the guards of their commands. -/
theorem stallCommandsComplete : Obligations.StallCommandsComplete := by
  unfold Obligations.StallCommandsComplete
  refine ⟨?created, ?createFailed, ?start, ?reset, ?keeperReset, ?thaw, ?destroy, ?vfCleared, ?busMaster, ?functionReset, ?drained, ?resetDone,
    ?unitCleared, ?stallCleared⟩
  case created =>
    intro who st s h hc hd
    exact congrArg Host.Outcome.next ((write_ok h _).trans (State.wrSctrl_create.trans (State.stallCreate_passed (s := s.accepted) hd hc)))
  case createFailed =>
    intro who st s h hc hd
    exact congrArg Host.Outcome.next ((write_ok h _).trans (State.wrSctrl_create.trans (State.stallCreate_failed (s := s.accepted) hd hc)))
  case start =>
    intro who st s h hst h0 hd
    exact congrArg Host.Outcome.next ((write_ok h _).trans (State.wrSctrl_start.trans
      (State.stallStart_accepted (s := s.accepted) hst (Fin.val_ne_of_ne h0) hd)))
  case reset =>
    intro who st s h h0 hw hst
    exact congrArg Host.Outcome.next ((write_ok h _).trans (State.wrSctrl_reset.trans
      (State.stallReset_other (s := s.accepted) hst hw (Fin.val_ne_of_ne h0))))
  case keeperReset =>
    intro st s h hst
    exact congrArg Host.Outcome.next ((write_ok h _).trans (State.wrSctrl_reset.trans (State.stallReset_keeper (s := s.accepted) hst)))
  case thaw =>
    intro who st s h h0 hst hread
    exact congrArg Host.Outcome.next ((write_ok h _).trans (State.wrSctrl_thaw.trans
      (State.stallThaw_accepted (s := s.accepted) (Fin.val_ne_of_ne h0) hst hread)))
  case destroy =>
    intro who st s h h0 hst
    exact congrArg Host.Outcome.next ((write_ok h _).trans State.wrSctrl_destroy)
  case vfCleared =>
    intro ep s
    rfl
  case busMaster =>
    intro ep fn st s hr hb h0
    exact execBusMasterEnableCleared_bound hr hb h0
  case functionReset =>
    intro ep fn st s hr hb
    exact execFunctionLevelReset_bound hr hb
  case drained =>
    intro st times s hr hst hsq
    obtain ⟨t, ht⟩ := execDrainLimit_eq (times := times) hr hst hsq
    exact ⟨_, ht, bitOf_setBitN_same _ _⟩
  case resetDone =>
    intro st s hr hst hsq hb
    exact execResetDone_eq hr hst hsq hb
  case unitCleared =>
    intro st s hw hor
    exact (execClearingDone_eq hw).trans (congrArg Host.Outcome.next (if_neg (by omega)))
  case stallCleared =>
    intro st s hw hst hlt
    exact (execClearingDone_eq hw).trans (congrArg Host.Outcome.next (if_pos ⟨hlt, hst⟩))

end Sys2Proof.Machine
end

section
/-! PROOFS. Scope, queues: doorbells (R227, R229, R230), enable, disable and base (R231, R232), admission, LINK reads, the start and the end of an
item (R224 to R229). -/
namespace Sys2Proof.Machine

/-! ### Doorbells -/

section
variable {s : State} {st q t : Nat}

/-- A ring doorbell neither behind QTAIL nor beyond the ring moves QTAIL. -/
theorem State.doorbell_in_ring (hm : s.qchain q = false) (htail : since32 t (s.qtail q) < 2 ^ 31) (hdone : since32 t (s.qdone q) ≤ s.qsize q) :
    s.doorbell st q t = s.wr (rQTAIL q) fQTAIL_TAIL t := by
  rw [State.doorbell, if_neg (Bool.eq_false_iff.mp hm), if_pos ⟨htail, hdone⟩]

/-- A ring doorbell behind QTAIL or beyond the ring is refused and counted. -/
theorem State.doorbell_out_of_ring (hm : s.qchain q = false) (h : 2 ^ 31 ≤ since32 t (s.qtail q) ∨ s.qsize q < since32 t (s.qdone q)) :
    s.doorbell st q t = (s.refuse (rQDB st q)).bumpErr (rQREFUSED q) := by
  have hout : ¬ (since32 t (s.qtail q) < 2 ^ 31 ∧ since32 t (s.qdone q) ≤ s.qsize q) := by omega
  rw [State.doorbell, if_neg (Bool.eq_false_iff.mp hm), if_neg hout]

/-- A chain doorbell of a parked queue starts the read that it asks for, the first of a new base the read of the descriptor; otherwise it is
remembered. -/
theorem State.doorbell_chain (hm : s.qchain q = true) : s.doorbell st q t = s.modQueue q (fun x =>
    if (x.run == .running && !x.next && !x.linking) && x.unread then { x with dbSeen := true, next := true, unread := false }
    else if x.run == .running && !x.next && !x.linking then { x with dbSeen := false, linking := true }
    else { x with dbSeen := true }) := by
  rw [State.doorbell, if_pos hm]
  rfl

end

/-- Settles O38: a doorbell past its checks, by the mode of its queue and by its value. -/
theorem doorbellRule : Obligations.DoorbellRule := by
  unfold Obligations.DoorbellRule
  refine ⟨?inRing, ?outOfRing, ?chain⟩
  case inRing =>
    intro st q w s h hm htail hdone
    exact congrArg Host.Outcome.next ((write_ok h _).trans (State.doorbell_in_ring (s := s.accepted) hm htail hdone))
  case outOfRing =>
    intro st q w s h hm hout
    exact congrArg Host.Outcome.next ((write_ok h _).trans (State.doorbell_out_of_ring (s := s.accepted) hm hout))
  case chain =>
    intro st q w s h hm
    exact congrArg Host.Outcome.next ((write_ok h _).trans (State.doorbell_chain (s := s.accepted) hm))

/-! ### Enable, disable, base -/

/-- A STOPPING queue with nothing left, whose stall is gone, is STOPPED. -/
theorem State.queueSettle_no_owner {s : State} {q : Nat} (hrun : (s.queue q).run = .stopping) (hi : (s.queue q).items = [])
    (ho : s.queueOwner q = none) : s.queueSettle q = s.modQueue q (fun x => { x with run := .stopped }) := by
  simp only [State.queueSettle, hrun, hi, ho, beq_self_eq_true, List.isEmpty_nil, Bool.and_self, if_true, Bool.false_and, Bool.false_eq_true,
    if_false]

/-- Settles O39: the writes past their checks, the limit under its guard, and the queue that nobody owns. -/
theorem queueControlCommandsComplete : Obligations.QueueControlCommandsComplete := by
  unfold Obligations.QueueControlCommandsComplete
  refine ⟨?disable, ?enable, ?base, ?limit, ?settle⟩
  case disable =>
    intro who q s h
    exact congrArg Host.Outcome.next (write_ok h _)
  case enable =>
    intro who q s h
    exact congrArg Host.Outcome.next (write_ok h _)
  case base =>
    intro who q high w s h
    exact congrArg Host.Outcome.next (write_ok h _)
  case limit =>
    intro q times s hrun
    exact congrArg Host.Outcome.next (guard_true (s := s.begin) (beq_iff_eq.mpr hrun) _)
  case settle =>
    intro s q hrun hi ho
    exact State.queueSettle_no_owner hrun hi ho

/-! ### Admission and the LINK word -/

section
variable {s s1 : State} {st q : Nat}

/-- The descriptor that a ring queue reads next. -/
def State.ringNext (s : State) (q : Nat) : Nat := (s.queueBase q + 64 * (s.qhead q % s.qsize q)) % 2 ^ 64

/-- A stall below its limit admits the descriptor of the queue that is next, and QHEAD moves. -/
theorem execDescriptorFetched_ring {st : Fin 16} {host d : Option (List Byte)} (hr : s.running = true) (hst : s.stallState st = 1)
    (hmax : s.outstanding st < s.admitMax st) (hn : s.admitNext st = some q) (hm : s.qchain q = false)
    (hread : s.begin.queueRead st q (s.ringNext q) 64 host = (s1, some d)) : execDescriptorFetched st host s =
      .next ((({ s1 with admitted := storePut (fun _ => 0) s1.admitted st ((q + 1) % 64) }).wr (rQHEAD q) fQHEAD_HEAD
        (s1.qhead q + 1)).modQueue q (fun x =>
          { x with items := x.items ++ [({ seq := s1.qhead q, addr := s.ringNext q, desc := d } : QItem)] })) := by
  have hadmits : ¬ (s.begin.running = false ∨ s.begin.stallState st ≠ 1 ∨ s.begin.admitMax st ≤ s.begin.outstanding st) := by
    rintro (h | h | h)
    · exact Bool.eq_false_iff.mp h hr
    · exact h hst
    · exact absurd hmax (Nat.not_lt.mpr h)
  have hnext : s.begin.admitNext st = some q := hn
  have hring : ¬ s.begin.qchain q = true := Bool.eq_false_iff.mp hm
  have hfetch : s.begin.queueRead st q ((s.begin.queueBase q + 64 * (s.begin.qhead q % s.begin.qsize q)) % 2 ^ 64) 64 host = (s1, some d) := hread
  simp only [execDescriptorFetched, if_neg hadmits, hnext, if_neg hring, hfetch]
  rfl

/-- The LINK word that answers a read goes on, or parks the queue if END is set (R229). -/
theorem execLinkWordRead_word {q : Fin 64} {w : W64} {b : Option (List Byte)} (ho : s.queueOwner q = some st) (hl : (s.queue q).linking = true)
    (hf : s.masterFrozen st 1 q = false) (hst : s.stallState st ≠ 4)
    (hread : s.begin.queueRead st q ((s.queuePos q + 0x38) % 2 ^ 64) 8 (some (bytesLE 8 w.toNat)) = (s1, some b)) :
    execLinkWordRead q (.word w) s = .next (if w.toNat % 2 = 0
      then (s1.setQueuePos q (w.toNat / 64 * 64)).modQueue q (fun x => { x with linking := false, next := true })
      else s1.modQueue q (fun x => if x.dbSeen then { x with dbSeen := false } else { x with linking := false })) := by
  have howner : s.begin.queueOwner q = some st := ho
  have hreads : (!(s.begin.queue q).linking || s.begin.masterFrozen st 1 q || decide (s.begin.stallState st = 4)) = false := by
    have hlinks : (s.begin.queue q).linking = true := hl
    have hruns : s.begin.masterFrozen st 1 q = false := hf
    have hserves : s.begin.stallState st ≠ 4 := hst
    rw [hlinks, hruns, decide_eq_false hserves]
    rfl
  have hword : s.begin.queueRead st q ((s.begin.queuePos q + 0x38) % 2 ^ 64) 8 (some (bytesLE 8 w.toNat)) = (s1, some b) := hread
  refine congrArg Host.Outcome.next ?_
  rw [howner]
  refine (if_neg (Bool.eq_false_iff.mp hreads)).trans ?_
  extract_lets a host
  have hserved : s.begin.queueRead st q a 8 host = (s1, some b) := hword
  rw [hserved]

/-! ### The start of an item -/

/-- The oldest item that has not started, of a queue whose stall runs or drains, starts once its fence is reached and it is the queue's turn. -/
theorem execItemStart_starts {q : Fin 64} {x : QItem} {d : List Byte} (ho : s.queueOwner q = some st)
    (hst : s.stallState st = 1 ∨ s.stallState st = 3) (hf : s.masterFrozen st 1 q = false)
    (hx : (s.queue q).items.find? (fun y => !y.started) = some x) (hd : x.desc = some d)
    (hok : s.queueDescOk st q d = true) (hw : qFlag d 0 = false ∨ fenceReached (s.fence st (fieldAt d 2 1)) (fieldAt d 4 4) = true)
    (hp : s.prevDone q x.seq = true) : execItemStart q s = .next (s.begin.startQItem st q x d) := by
  have howner : s.begin.queueOwner q = some st := ho
  have hruns : ¬ ((s.begin.stallState st ≠ 1 ∧ s.begin.stallState st ≠ 3) ∨ s.begin.masterFrozen st 1 q = true) := by
    rintro (⟨h1, h3⟩ | h)
    · exact hst.elim h1 h3
    · exact Bool.eq_false_iff.mp hf h
  have hitem : (s.begin.queue q).items.find? (fun y => !y.started) = some x := hx
  have hvalid : ¬ s.begin.queueDescOk st q d = false := ne_false_of_eq_true hok
  have hreached : (qFlag d 0 && !fenceReached (s.begin.fence st (fieldAt d 2 1)) (fieldAt d 4 4)) = false := by
    rcases hw with h | h
    · rw [h, Bool.false_and]
    · rw [show s.begin.fence = s.fence from rfl, h, Bool.not_true, Bool.and_false]
  have hturn : s.begin.prevDone q x.seq = true := hp
  simp only [execItemStart, howner, if_neg hruns, hitem, hd, if_neg hvalid, hreached, hturn, Bool.false_eq_true, if_false, if_true]

/-! ### The end of an item -/

/-- An item with its result, whose COMPL goes to memory: the completion is written, then the fence is signalled, QDONE advances, and the
interrupt fires. -/
theorem execWorkItemEnd_phys {q : Fin 64} {r p : Nat} {x : QItem} {l : List QItem} {s0 : State} (ho : s.queueOwner q = some st)
    (hi : (s.queue q).items = x :: l) (hres : x.result = some r) (hc : x.compl = false) (hf : s.masterFrozen st 1 q = false)
    (hg : s.begin.gateCheck st ((x.addr + 0x30) % 2 ^ 64) true true = (s0, .phys p))
    (h1 : s1 = (s0.memStore p (bytesLE 4 (2 ^ 31 + r % 256) ++ bytesLE 4 0)).1) (hf1 : s1.masterFrozen st 1 q = false) :
    execWorkItemEnd q s = .next (
      let d := x.desc.getD []
      let s2 := if qFlag d 1 && (r == 0 || qFlag d 2) && decide (fieldAt d 3 1 < 64) then s1.setFence st (fieldAt d 3 1) (fieldAt d 8 4) else s1
      let s3 := (s2.wr (rQDONE q) fQDONE_DONE (s2.qdone q + 1)).bumpEv (rQITEMS q) 1
      let s4 := s3.modQueue q (fun x => { x with items := l })
      let s5 := if qFlag d 3 then s4.irq st q else s4
      (s5.queueSettle q).gpuKick) := by
  subst h1
  have howner : s.begin.queueOwner q = some st := ho
  have hitems : (s.begin.queue q).items = x :: l := hi
  have hruns : s.begin.masterFrozen st 1 q = false := hf
  simp only [execWorkItemEnd, howner, hitems, hres, hruns, hc, hg, hf1, Bool.false_eq_true, if_false]

end

/-- Settles O40: admission, the LINK word by its END bit, the start and the end of an item under the guards of their commands. -/
theorem queueItemCommandsComplete : Obligations.QueueItemCommandsComplete := by
  unfold Obligations.QueueItemCommandsComplete
  refine ⟨?fetched, ?linkOn, ?linkPark, ?start, ?ends⟩
  case fetched =>
    intro st host q s s1 d hr hst hmax hn hm hread
    exact execDescriptorFetched_ring hr hst hmax hn hm hread
  case linkOn =>
    intro q w st s s1 b ho hl hf hst hend hread
    exact (execLinkWordRead_word ho hl hf hst hread).trans (congrArg Host.Outcome.next (if_pos hend))
  case linkPark =>
    intro q w st s s1 b ho hl hf hst hend hread
    exact (execLinkWordRead_word ho hl hf hst hread).trans (congrArg Host.Outcome.next (if_neg (by omega)))
  case start =>
    intro q st x d s ho hst hf hx hd hok hw hp
    exact execItemStart_starts ho hst hf hx hd hok hw hp
  case ends =>
    intro q st r p x l s s0 s1 ho hi hres hc hf hg h1 hf1
    exact execWorkItemEnd_phys ho hi hres hc hf hg h1 hf1

end Sys2Proof.Machine
end

section
/-! PROOFS. Scope, tables: translations dropped (R215), owner tables (R216), binding and seal (R203, R204, R209). -/
namespace Sys2Proof.Machine

/-! ### TINV (R215) -/

/-- The word of TINV that drops one translation of a stall, or all of its. -/
def tinvWord (all : Bool) (st sa : Nat) : W64 :=
  putFld (putFld (putFld (wBit 0 fTINV_GO) fTINV_ALL (b2n all)) fTINV_STALL st) fTINV_SA sa

theorem tinvWord_go (all : Bool) (st sa : Nat) : getFld (tinvWord all st sa) fTINV_GO = 1 := by
  simp (disch := decide) only [tinvWord, getFld_putFld_ne]
  exact getFld_wBit_same rfl (by decide)

theorem tinvWord_all (all : Bool) (st sa : Nat) : getFld (tinvWord all st sa) fTINV_ALL = b2n all := by
  simp (disch := decide) only [tinvWord, getFld_putFld_ne]
  exact getFld_putFld_of_lt (by decide) (by cases all <;> decide)

theorem tinvWord_stall (all : Bool) {st : Nat} (sa : Nat) (hst : st < 16) : getFld (tinvWord all st sa) fTINV_STALL = st := by
  simp (disch := decide) only [tinvWord, getFld_putFld_ne]
  exact getFld_putFld_of_lt (by decide) hst

theorem tinvWord_sa (all : Bool) (st : Nat) {sa : Nat} (hsa : sa < 2 ^ 20) : getFld (tinvWord all st sa) fTINV_SA = sa :=
  getFld_putFld_of_lt (by decide) hsa

/-- TINV while none runs drops the translations that it names, and is BUSY. -/
theorem State.wrTinv_tinvWord {s : State} {all : Bool} {st sa : Nat} (hb : s.on rTINV_STAT fTINV_STAT_BUSY = false) (hst : st < 16)
    (hsa : sa < 2 ^ 20) : s.wrTinv (tinvWord all st sa) = ({ s with tlb := s.tlb.filter (fun p =>
      !(if all then p.1 / 2 ^ 20 == st else p.1 == 2 ^ 20 * st + sa)) }).wr rTINV_STAT fTINV_STAT_BUSY 1 := by
  have hall : (b2n all = 1) = (all = true) := by cases all <;> decide
  simp only [State.wrTinv, tinvWord_go, tinvWord_all, tinvWord_stall all sa hst, tinvWord_sa all st hsa, hb, hall, Nat.one_ne_zero,
    Bool.false_eq_true, if_false]

/-! ### Owner tables (R216) -/

section
variable {s : State} {sram : Bool} {n v : Nat}

/-- A FREE entry takes a stall. -/
theorem State.wrOwner_free (hv : v < 16) (hfree : (if sram then s.ownSram n else s.ownDram n) = ownFREE) :
    s.wrOwner sram n v = (s.setOwner sram n v, false) := by
  have hne : v ≠ ownFREE := by unfold ownFREE; omega
  rw [State.wrOwner, hfree, if_neg hne, if_pos ⟨rfl, .inl hv⟩]

/-- A stall's entry refuses every other code. -/
theorem State.wrOwner_of_stall {st : Nat} (hst : st < 16) (hv : v ≠ st) (hown : (if sram then s.ownSram n else s.ownDram n) = st) :
    s.wrOwner sram n v = (s, true) := by
  have hfree : st ≠ ownFREE := by unfold ownFREE; omega
  have hunit : st ≠ ownUNIT := by unfold ownUNIT; omega
  rw [State.wrOwner, hown, if_neg hv, if_neg (fun h => hfree h.1), if_neg (fun h => hunit h.2.1)]

/-- A UNIT grain set to FREE is cleared first. -/
theorem State.wrOwner_unit_free (hunit : s.ownSram n = ownUNIT) : s.wrOwner true n ownFREE =
    ({ s.setOwner true n ownCLEARING with clearing := s.clearing ++ [(16, true, n)] }, false) := by
  have hne : ownFREE ≠ ownUNIT := by decide
  simp only [State.wrOwner, if_true, hunit, if_neg hne, hne.symm, false_and, and_self, if_false]

/-- A write of an entry of the DRAM table leaves the state or sets the entry. -/
theorem State.wrOwner_dram_fst : (s.wrOwner false n v).1 = s ∨ (s.wrOwner false n v).1 = s.setOwnDram n v := by
  unfold State.wrOwner
  simp only [Bool.false_eq_true, false_and, if_false]
  split
  · exact .inl rfl
  · split
    · exact .inr rfl
    · exact .inl rfl

/-- The owner of a page is a field of its word. -/
theorem State.ownDram_eq_rd (s : State) (n : Nat) : s.ownDram n = s.rd (rOWN_DRAM (n / 4)) ⟨8 * (n % 4), 8⟩ := rfl

/-- A page given an owner leaves the owners of the others. -/
theorem State.ownDram_setOwnDram_ne {m : Nat} (h : m ≠ n) : (s.setOwnDram m v).ownDram n = s.ownDram n := by
  rw [State.ownDram_eq_rd, State.ownDram_eq_rd]
  by_cases hword : m / 4 = n / 4
  · have hfld : 8 * (m % 4) + 8 ≤ 8 * (n % 4) ∨ 8 * (n % 4) + 8 ≤ 8 * (m % 4) := by omega
    rw [← hword]
    exact State.rd_wr_field _ _ _ _ _ hfld
  · exact State.rd_wr_ne _ _ _ _ (blkAddr_ne _ (by omega))

/-- A write of an entry leaves a stall's page with its stall. -/
theorem State.wrOwner_ownDram_of_stall {m st : Nat} (hst : st < 16) (hown : s.ownDram n = st) : (s.wrOwner false m v).1.ownDram n = st := by
  by_cases hm : m = n
  · subst hm
    by_cases hv : v = st
    · have hsame : s.wrOwner false m v = (s, false) := if_pos (hv.trans hown.symm)
      rw [hsame, hown]
    · rw [State.wrOwner_of_stall (sram := false) hst hv hown, hown]
  · rcases State.wrOwner_dram_fst (s := s) (n := m) (v := v) with h | h
    · rw [h, hown]
    · rw [h, State.ownDram_setOwnDram_ne hm, hown]

/-- A refusal, whatever it is of, leaves the owner tables. -/
theorem State.ownDram_refuse (a : Nat) (hn : n < 16384) : (s.refuse a).ownDram n = s.ownDram n := by
  have hxp : rOWN_DRAM (n / 4) ≠ rXREF_OFFSET (refBlk a) := by
    unfold rOWN_DRAM rXREF_OFFSET blkAddr
    omega
  rw [State.ownDram_eq_rd, State.ownDram_eq_rd]
  exact State.rd_congr (State.refuse_rw_ne s hxp) _

/-- A write of a word leaves a stall's page with its stall. -/
theorem State.wrOwners_ownDram_of_stall {k st : Nat} {w : W64} (hn : n < 16384) (hst : st < 16) (hown : s.ownDram n = st) :
    (s.wrOwners false k w).ownDram n = st := by
  unfold State.wrOwners
  extract_lets r
  have hentries : r.1.ownDram n = st :=
    foldl_fst_stable (P := fun t => t.ownDram n = st) hown (fun _ _ h => State.wrOwner_ownDram_of_stall hst h)
  split
  · exact (State.ownDram_refuse _ hn).trans hentries
  · exact hentries

end

/-- Settles O43: one entry by what it holds and is given; a word entry by entry. -/
theorem ownerTableRule : Obligations.OwnerTableRule := by
  unfold Obligations.OwnerTableRule
  refine ⟨?free, ?stall, ?unit, ?page⟩
  case free =>
    intro s sram n v hv hfree
    exact State.wrOwner_free hv hfree
  case stall =>
    intro s sram n st v hst hv hown
    exact State.wrOwner_of_stall hst hv hown
  case unit =>
    intro s n hunit
    exact State.wrOwner_unit_free hunit
  case page =>
    intro s k n st w hn hst hown
    exact State.wrOwners_ownDram_of_stall hn hst hown

/-! ### Binding and seal (R204, R209) -/

section
variable {s : State} {who : Who} {st : Nat} {w : W64}

/-- Does a word of SCFG name the manager's function, or one that another stall is bound to? -/
def State.bindTaken (s : State) (st : Nat) (w : W64) : Bool :=
  (getFld w fSCFG_EP, getFld w fSCFG_FUNC) == (s.mgrEp, 0) ||
    (List.range 16).any (fun t => t != st && s.stallState t != 0 && s.binding t == (getFld w fSCFG_EP, getFld w fSCFG_FUNC))

/-- May the binding of a stall take a word of SCFG? -/
def State.bindOpen (s : State) (st : Nat) (w : W64) : Bool :=
  st != 0 && (s.stallState st == 0 || (s.stallState st == 4 && !s.bindTaken st w))

/-- Would a word of SCFG change a seal that may not change? -/
def State.sealClosed (s : State) (who : Who) (st : Nat) (w : W64) : Bool :=
  getFld w fSCFG_SEALED != s.rd (rSCFG st) fSCFG_SEALED &&
    !(st != 0 && (s.stallState st == 0 || s.stallState st == 4) && whoTrusted who)

theorem State.wrScfg_eq : s.wrScfg who st w =
    (let s1 := if s.bindOpen st w then (s.wr (rSCFG st) fSCFG_EP (getFld w fSCFG_EP)).wr (rSCFG st) fSCFG_FUNC (getFld w fSCFG_FUNC) else s
     let s2 := if s.sealClosed who st w then s1 else s1.wr (rSCFG st) fSCFG_SEALED (getFld w fSCFG_SEALED)
     if s.sealClosed who st w || !s.bindOpen st w then s2.refuse (rSCFG st) else s2) := rfl

/-- A binding that is neither the manager's nor that of another stall is not taken. -/
theorem State.bindTaken_eq_false (hmgr : (getFld w fSCFG_EP, getFld w fSCFG_FUNC) ≠ (s.mgrEp, 0))
    (hother : ∀ t < 16, t ≠ st → s.stallState t ≠ 0 → s.binding t ≠ (getFld w fSCFG_EP, getFld w fSCFG_FUNC)) :
    s.bindTaken st w = false := by
  refine Bool.or_eq_false_iff.mpr ⟨beq_eq_false_iff_ne.mpr hmgr, List.any_eq_false.mpr (fun t ht htaken => ?_)⟩
  simp only [Bool.and_eq_true, bne_iff_ne, beq_iff_eq] at htaken
  obtain ⟨⟨hne, hlive⟩, hbind⟩ := htaken
  exact hother t (List.mem_range.mp ht) hne hlive hbind

theorem State.bindOpen_eq_true (h0 : st ≠ 0) (h : s.stallState st = 0 ∨ (s.stallState st = 4 ∧ s.bindTaken st w = false)) :
    s.bindOpen st w = true := by
  have hst : (st != 0) = true := bne_iff_ne.mpr h0
  rcases h with h | ⟨h4, hfree⟩
  · rw [State.bindOpen, hst, h]
    rfl
  · rw [State.bindOpen, hst, h4, hfree]
    rfl

/-- In FREE or RESET the seal is as it was, or world T changes it. -/
theorem State.sealClosed_eq_false (h0 : st ≠ 0) (hst : s.stallState st = 0 ∨ s.stallState st = 4)
    (h : getFld w fSCFG_SEALED = s.rd (rSCFG st) fSCFG_SEALED ∨ whoTrusted who = true) : s.sealClosed who st w = false := by
  have hfree : (st != 0 && (s.stallState st == 0 || s.stallState st == 4)) = true := by
    rw [bne_iff_ne.mpr h0, Bool.true_and, Bool.or_eq_true, beq_iff_eq, beq_iff_eq]
    exact hst
  rcases h with h | h
  · rw [State.sealClosed, h, bne_self_eq_false, Bool.false_and]
  · rw [State.sealClosed, hfree, h, Bool.and_self, Bool.not_true, Bool.and_false]

/-- SCFG takes binding and seal where both may change. -/
theorem State.wrScfg_taken (hbind : s.bindOpen st w = true) (hseal : s.sealClosed who st w = false) : s.wrScfg who st w =
    ((s.wr (rSCFG st) fSCFG_EP (getFld w fSCFG_EP)).wr (rSCFG st) fSCFG_FUNC (getFld w fSCFG_FUNC)).wr (rSCFG st) fSCFG_SEALED
      (getFld w fSCFG_SEALED) := by
  rw [State.wrScfg_eq, hbind, hseal]
  rfl

/-- Outside FREE and RESET a word that changes the seal is refused, and changes nothing. -/
theorem State.wrScfg_refused (hfree : s.stallState st ≠ 0) (hreset : s.stallState st ≠ 4)
    (hseal : getFld w fSCFG_SEALED ≠ s.rd (rSCFG st) fSCFG_SEALED) : s.wrScfg who st w = s.refuse (rSCFG st) := by
  have h0 : (s.stallState st == 0) = false := beq_eq_false_iff_ne.mpr hfree
  have h4 : (s.stallState st == 4) = false := beq_eq_false_iff_ne.mpr hreset
  have hbind : s.bindOpen st w = false := by rw [State.bindOpen, h0, h4, Bool.false_and, Bool.or_self, Bool.and_false]
  have hclosed : s.sealClosed who st w = true := by
    rw [State.sealClosed, bne_iff_ne.mpr hseal, h0, h4, Bool.or_self, Bool.and_false, Bool.false_and]
    rfl
  rw [State.wrScfg_eq, hbind, hclosed]
  rfl

end

/-- A word of an owner table that exists is written past the checks of its register. -/
theorem execOwnerTableWrite_eq {who : Who} {sram : Bool} {k : Fin 4096} {w : W32} {s : State} (hk : (!sram || decide (k.val < 192)) = true)
    (h : s.mayWrite who (if sram then rOWN_SRAM k else rOWN_DRAM k)) :
    execOwnerTableWrite who sram k w s = .next (s.accepted.wrOwners sram k (wide w)) :=
  congrArg Host.Outcome.next ((guard_true hk _).trans (write_ok h _))

/-- Settles O42: TINV by the fields of its word; a word of a table that exists; SCFG by what may change. -/
theorem translationAndTableCommandsComplete : Obligations.TranslationAndTableCommandsComplete := by
  unfold Obligations.TranslationAndTableCommandsComplete
  refine ⟨?tinv, ?tinvDone, ?sram, ?dram, ?freeStall, ?resetStall, ?running⟩
  case tinv =>
    intro who all st sa s h hb
    exact congrArg Host.Outcome.next ((write_ok h _).trans (State.wrTinv_tinvWord (s := s.accepted) hb st.isLt sa.isLt))
  case tinvDone =>
    intro s
    rfl
  case sram =>
    intro who k w s hk h
    exact execOwnerTableWrite_eq (decide_eq_true hk) h
  case dram =>
    intro who k w s h
    exact execOwnerTableWrite_eq rfl h
  case freeStall =>
    intro who st w s h h0 hst hseal
    have h0 : st.val ≠ 0 := Fin.val_ne_of_ne h0
    exact congrArg Host.Outcome.next ((write_ok h _).trans (State.wrScfg_taken (s := s.accepted) (State.bindOpen_eq_true h0 (.inl hst))
      (State.sealClosed_eq_false h0 (.inl hst) hseal)))
  case resetStall =>
    intro who st w s h h0 hst hmgr hother hseal
    have h0 : st.val ≠ 0 := Fin.val_ne_of_ne h0
    have hfree : s.accepted.bindTaken st (wide w) = false := State.bindTaken_eq_false (s := s.accepted) hmgr hother
    exact congrArg Host.Outcome.next ((write_ok h _).trans (State.wrScfg_taken (s := s.accepted) (State.bindOpen_eq_true h0 (.inr ⟨hst, hfree⟩))
      (State.sealClosed_eq_false h0 (.inr hst) hseal)))
  case running =>
    intro who st w s h hfree hreset hseal
    exact congrArg Host.Outcome.next ((write_ok h _).trans (State.wrScfg_refused (s := s.accepted) hfree hreset hseal))

end Sys2Proof.Machine
end

section
/-! PROOFS. Scope, guests: IMASK and the mailbox (R220, R223), and the reads of violation records (R235, R330). -/
namespace Sys2Proof.Machine

/-! ### IMASK (R220) -/

/-- A 32-bit word widened keeps its bits. -/
theorem wide_toNat (w : W32) : (wide w).toNat = w.toNat := BitVec.toNat_setWidth_of_le (by decide)

theorem setWidth_wide (w : W32) : (wide w).setWidth 32 = w := by
  rw [wide, BitVec.setWidth_setWidth_of_le _ (by decide), BitVec.setWidth_eq]

/-- IMASK takes its word; each bit that becomes 1 while its source is pending sends its message. -/
theorem State.wrImask_wide (s : State) (st k : Nat) (w : W32) : s.wrImask st k (wide w) =
    ((List.range 32).filter (fun b => bitOf w.toNat b && !bitOf (s.rw (rIMASK st k)).toNat b && bitOf (s.rw (rISTAT st k)).toNat b)).foldl
      (fun t b => t.sendMsix st (t.ivec st (32 * k + b))) (s.setRw (rIMASK st k) (wide w)) := by
  rw [State.wrImask, setWidth_wide, wide_toNat]
  rfl

/-! ### The mailbox (R223) -/

/-- The word of MB_CTRL that sends a request. -/
def mailboxWord (len : Nat) : W64 := putFld (wBit 0 fMB_CTRL_GO) fMB_CTRL_LEN len

theorem mailboxWord_go (len : Nat) : getFld (mailboxWord len) fMB_CTRL_GO = 1 :=
  (getFld_putFld_ne _ _ _ _ (by decide)).trans (getFld_wBit_same rfl (by decide))

theorem mailboxWord_len {len : Nat} (h : len < 2 ^ 11) : getFld (mailboxWord len) fMB_CTRL_LEN = len := getFld_putFld_of_lt (by decide) h

/-- GO with a length of 1 to 1,024 bytes, while no request is out, sends one. -/
theorem State.wrMbCtrl_go {s : State} {st len : Nat} (hb : s.on (rMB_STAT st) fMB_STAT_BUSY = false) (h0 : len ≠ 0) (hlen : len ≤ 1024) :
    s.wrMbCtrl st (mailboxWord len) = (let s1 := (s.wr (rMB_STAT st) fMB_STAT_BUSY 1).wr (rMB_STAT st) fMB_STAT_RSP_READY 0
      { s1 with sm := { s1.sm with mbLen := storePut (fun _ => 0) s1.sm.mbLen st len } }) := by
  have hfits : ¬ (len = 0 ∨ 1024 < len) := by omega
  simp only [State.wrMbCtrl, mailboxWord_go, mailboxWord_len (show len < 2 ^ 11 by omega), hb, if_neg hfits, Nat.one_ne_zero, Bool.false_eq_true,
    if_false]

/-- Settles O44: IMASK and GO past their checks, the response under its guard. -/
theorem guestInterfaceCommandsComplete : Obligations.GuestInterfaceCommandsComplete := by
  unfold Obligations.GuestInterfaceCommandsComplete
  refine ⟨?imask, ?go, ?response⟩
  case imask =>
    intro st k w s h
    exact congrArg Host.Outcome.next ((write_ok h _).trans (State.wrImask_wide s.accepted st k w))
  case go =>
    intro st len s h hb h0 hlen
    have hne : len.toNat ≠ 0 := fun h => h0 (BitVec.eq_of_toNat_eq h)
    exact congrArg Host.Outcome.next ((write_ok h _).trans (State.wrMbCtrl_go (s := s.accepted) hb hne hlen))
  case response =>
    intro st b s hr hb
    have hwaits : (s.running && s.on (rMB_STAT st) fMB_STAT_BUSY) = true := by rw [hr, hb, Bool.and_self]
    exact congrArg Host.Outcome.next (guard_true (s := s.begin) hwaits _)

/-! ### Reads of violation records (R235, R330) -/

/-- The registers of violation records, at their addresses. -/
theorem lookupReg_vkind : ∀ st : Fin 16, lookupReg (rVKIND st) = some (regQST_VKIND, 0, st.val) := by decide

theorem lookupReg_chFaultKind : ∀ (e : Fin 4) (k : Fin 8), lookupReg (rCH_FAULT_KIND e k) = some (regDM_CH_FAULT_KIND, e.val, k.val) := by decide

/-- A register of the map is at its own place. -/
theorem usedAddr_of_lookup {a : Nat} {x : RegDef × Nat × Nat} (hl : lookupReg a = some x) : usedAddr a = true := by
  rw [usedAddr, hl, Option.isSome_some]

section
variable {s : State} {who : Who} {a : Nat}

/-- A read of an agreed 32-bit register whose samples agree gives its word, which becomes the last agreed value, with the effects of the read
(R20). -/
theorem busRead_agreed {x : RegDef × Nat × Nat} (hl : lookupReg a = some x) (ha : isAgreed a = true) (hn : isWide a = false) (hk : a ≠ rKEVT)
    (h : s.mayRead who a) : s.begin.busRead who a false false =
      ({ s.accepted.readEffect a with agreed := storePut resetWord (s.accepted.readEffect a).agreed a (s.accepted.viewWord a) }).answer
        (.data (s.accepted.viewWord a)) := by
  have hword : s.accepted.readWord a false =
      ({ s.accepted.readEffect a with agreed := storePut resetWord (s.accepted.readEffect a).agreed a (s.accepted.viewWord a) }).answer
        (.data (s.accepted.viewWord a)) := if_pos ha
  rw [State.busRead, if_pos rfl, State.busRead32, regPlace_of_used (usedAddr_of_lookup hl), access_read_ok h, if_neg hk, hword, hn]
  rfl

/-- A read of the record of a stall's violation marks it as read. -/
theorem State.readEffect_vkind {st : Fin 16} (hv : s.on (rSSTAT st) fSSTAT_VREC_VALID = true) :
    s.readEffect (rVKIND st) = s.wr (rSSTAT st) fSSTAT_VREC_READ 1 := by
  have hphys : ¬ (0x10000000000 ≤ rVKIND st ∨ 0xFF00 ≤ rVKIND st % 0x10000) := by
    unfold rVKIND blkAddr
    omega
  have hkind : ∀ k : Fin 16, blkKindOf (blkIdOf (rVKIND k)) = .kQST := by decide
  rw [State.readEffect, lookupReg_vkind]
  simp only [if_neg hphys, hkind]
  exact if_pos hv

/-- A read of the record of a data-mover channel's fault marks it as read. -/
theorem State.readEffect_chFaultKind (e : Fin 4) (k : Fin 8) :
    s.readEffect (rCH_FAULT_KIND e k) = s.wr (rCH_FAULT_KIND e k) fCH_FAULT_KIND_VREAD 1 := by
  have hphys : ¬ (0x10000000000 ≤ rCH_FAULT_KIND e k ∨ 0xFF00 ≤ rCH_FAULT_KIND e k % 0x10000) := by
    unfold rCH_FAULT_KIND blkAddr
    omega
  have hkind : ∀ (e : Fin 4) (k : Fin 8), blkKindOf (blkIdOf (rCH_FAULT_KIND e k)) = .kDM := by decide
  rw [State.readEffect, lookupReg_chFaultKind]
  simp only [if_neg hphys, hkind]
  rfl

end

/-- Settles O60: each register is an agreed 32-bit one, and the effect of its read is the mark. -/
theorem violationRecordReads : Obligations.ViolationRecordReads := by
  unfold Obligations.ViolationRecordReads
  refine ⟨?vkind, ?chFaultKind⟩
  case vkind =>
    intro who st s h hv
    have hagreed : ∀ k : Fin 16, isAgreed (rVKIND k) = true := by decide
    have hnarrow : ∀ k : Fin 16, isWide (rVKIND k) = false := by decide
    have hkevt : ∀ k : Fin 16, rVKIND k ≠ rKEVT := by decide
    have hread := busRead_agreed (lookupReg_vkind st) (hagreed st) (hnarrow st) (hkevt st) h
    rw [State.readEffect_vkind (s := s.accepted) hv] at hread
    exact ⟨_, congrArg Host.Outcome.next hread⟩
  case chFaultKind =>
    intro who e k s h
    have hagreed : ∀ (e : Fin 4) (k : Fin 8), isAgreed (rCH_FAULT_KIND e k) = true := by decide
    have hnarrow : ∀ (e : Fin 4) (k : Fin 8), isWide (rCH_FAULT_KIND e k) = false := by decide
    have hkevt : ∀ (e : Fin 4) (k : Fin 8), rCH_FAULT_KIND e k ≠ rKEVT := by decide
    have hread := busRead_agreed (lookupReg_chFaultKind e k) (hagreed e k) (hnarrow e k) (hkevt e k) h
    rw [State.readEffect_chFaultKind] at hread
    exact ⟨_, congrArg Host.Outcome.next hread⟩

end Sys2Proof.Machine
end

section
/-! PROOFS. Scope, cores and hosts: the keeper's loads and stores (R305), the BARs of bound functions (R204, R206, R236), configuration requests
(R268). -/
namespace Sys2Proof.Machine

/-! ### The keeper's loads and stores in SRAM -/

section
variable {s v : State} {a : BitVec 36} {t : Nat} {ups : List (BitVec 36 × Bool)}

/-- A load of the keeper in SRAM that no grain forbids gives the bytes. -/
theorem execCoreMemoryAccess_load {n : Fin 65} {d : List Byte} (hv : v = s.begin.upset ups) (ha : v.alive .keeper = true) (hn : n.val ≠ 0)
    (h0 : isSram a.toNat = true) (h1 : isSram (a.toNat + (n.val - 1)) = true) (hk0 : v.coreKind false false a.toNat = none)
    (hk1 : v.coreKind false false (a.toNat + (n.val - 1)) = none) (hd : (v.memLoad a.toNat n.val).2 = some d) :
    execCoreMemoryAccess none 0 a n [] t ups s = .next ((v.memLoad a.toNat n.val).1.answer (.bytes d)) := by
  have hload : v.memLoad a.toNat n.val = ((v.memLoad a.toNat n.val).1, some d) := Prod.ext rfl hd
  have hkind : decide ((0 : Fin 3).val = 1) = false := rfl
  simp only [execCoreMemoryAccess, ← hv, ha, hkind, hn, h0, h1, hk0, hk1, Option.isSome_none, Bool.true_eq_false, Bool.false_eq_true,
    Bool.and_self, Bool.true_or, or_self, if_false]
  rw [hload]

/-- A store of the keeper in SRAM that no grain forbids is made. -/
theorem execCoreMemoryAccess_store {b : List Byte} (hv : v = s.begin.upset ups) (ha : v.alive .keeper = true) (hb : b ≠ [])
    (h0 : isSram a.toNat = true) (h1 : isSram (a.toNat + (b.length - 1)) = true) (hk0 : v.coreKind false true a.toNat = none)
    (hk1 : v.coreKind false true (a.toNat + (b.length - 1)) = none) (hd : (v.memStore a.toNat b).2 = true) :
    execCoreMemoryAccess none 1 a 0 b t ups s = .next ((v.memStore a.toNat b).1.answer .ok) := by
  have hstore : v.memStore a.toNat b = ((v.memStore a.toNat b).1, true) := Prod.ext rfl hd
  have hkind : decide ((1 : Fin 3).val = 1) = true := rfl
  have hlen : b.length ≠ 0 := fun h => hb (List.length_eq_zero_iff.mp h)
  simp only [execCoreMemoryAccess, ← hv, ha, hkind, hlen, h0, h1, hk0, hk1, Option.isSome_none, Bool.true_eq_false, Bool.false_eq_true,
    Bool.and_self, Bool.true_or, or_self, if_false, if_true]
  rw [hstore]

end

/-! ### Accesses and requests of hosts -/

section
variable {s : State} {ep : Fin 2} {fn : Fin 16} {off : BitVec 36}

theorem State.running_iff : s.running = true ↔ 3 ≤ s.dstate ∧ s.dstate ≤ 5 := decide_eq_true_iff

theorem State.inRecovery_of_booted (h : 2 ≤ s.dstate) : s.inRecovery = false := by
  have hrom : (s.dstate == 1) = false := beq_eq_false_iff_ne.mpr (by omega)
  rw [State.inRecovery, hrom, Bool.false_and, Bool.false_and]

/-- An endpoint with power, of a device that is on, answers. -/
theorem State.endpoint_answers {k : Nat} (hp : s.power.inReset = false) (hd : s.dstate ≠ 0) (hi : s.islandOn k = true) :
    (s.power.inReset || s.dstate == 0 || !s.islandOn k) = false := by
  rw [hp, beq_eq_false_iff_ne.mpr hd, hi]
  rfl

/-- What the checks of a host's access find of a device that runs: it answers, and neither saves, recovers nor is halted. -/
theorem State.host_access_checks {k : Nat} (hr : s.running = true) (hp : s.power.inReset = false) (hi : s.islandOn k = true) :
    (s.power.inReset || s.dstate == 0 || !s.islandOn k) = false ∧ ¬ (s.dstate = 6 ∨ s.dstate = 7) ∧ s.inRecovery = false ∧
      ¬ s.dstate = 8 := by
  obtain ⟨hlo, hhi⟩ := State.running_iff.mp hr
  exact ⟨State.endpoint_answers hp (by omega) hi, by omega, State.inRecovery_of_booted (by omega), by omega⟩

section
variable (hr : s.running = true) (hp : s.power.inReset = false) (hi : s.islandOn (27 + ep) = true)
include hr hp hi

/-- An access to BAR0 of a bound function reaches the control page of its stall. -/
theorem execHostBarAccess_bar0 {write stale : Bool} {n t st : Nat} {b : List Byte} (ho : off.toNat < 0x10000) (hb : s.boundStall ep fn = some st) :
    execHostBarAccess ep fn false off write n b t stale s =
      .next (s.begin.bar0Access st off.toNat write (decide (8 ≤ (if write then b.length else n))) stale t b) := by
  obtain ⟨hanswers, hsaving, hrecovery, hhalted⟩ := State.host_access_checks (s := s.begin) hr hp hi
  have hruns : s.begin.running = true := hr
  have hbound : s.begin.boundStall ep fn = some st := hb
  simp only [execHostBarAccess, hanswers, hsaving, hrecovery, hhalted, hruns, hbound, Nat.not_le.mpr ho, Bool.true_eq_false, Bool.false_eq_true,
    if_false]

/-- A read of BAR2 of a function whose stall is ACTIVE reaches the aperture. -/
theorem execHostBarAccess_bar2_read {n t st : Nat} {stale : Bool} (hb : s.boundStall ep fn = some st) (ho : off.toNat < s.bar2Size ep)
    (hst : s.stallState st = 1) :
    execHostBarAccess ep fn true off false n [] t stale s = .next (s.begin.bar2Read st (n / 64 + 2) off.toNat n []) := by
  obtain ⟨hanswers, hsaving, hrecovery, hhalted⟩ := State.host_access_checks (s := s.begin) hr hp hi
  have hruns : s.begin.running = true := hr
  have hbound : s.begin.boundStall ep fn = some st := hb
  have hinside : ¬ s.begin.bar2Size ep ≤ off.toNat := Nat.not_le.mpr ho
  have hactive : ¬ s.begin.stallState st ≠ 1 := not_not_intro hst
  simp only [execHostBarAccess, hanswers, hsaving, hrecovery, hhalted, hruns, hbound, hinside, if_neg hactive, Bool.true_eq_false,
    Bool.false_eq_true, if_false, if_true]

end

/-- A configuration request between the boot ROM and SAVING is served while the device runs, and told to retry before. -/
theorem execConfigRequest_booted {req : CfgReq} (hp : s.power.inReset = false) (hi : s.islandOn (27 + ep) = true) (h2 : 2 ≤ s.dstate)
    (h5 : s.dstate ≤ 5) : execConfigRequest ep fn req s = .next (if s.running then s.begin.cfgServe ep fn req else s.begin.answer .crs) := by
  have hanswers : (s.begin.power.inReset || s.begin.dstate == 0 || s.begin.dstate == 6 || s.begin.dstate == 7 || !s.begin.islandOn (27 + ep)) =
      false := by
    have h0 : (s.begin.dstate == 0) = false := beq_eq_false_iff_ne.mpr (by show s.dstate ≠ 0; omega)
    have h6 : (s.begin.dstate == 6) = false := beq_eq_false_iff_ne.mpr (by show s.dstate ≠ 6; omega)
    have h7 : (s.begin.dstate == 7) = false := beq_eq_false_iff_ne.mpr (by show s.dstate ≠ 7; omega)
    rw [show s.begin.power.inReset = false from hp, h0, h6, h7, show s.begin.islandOn (27 + ep) = true from hi]
    rfl
  have hrecovery : s.begin.inRecovery = false := State.inRecovery_of_booted (s := s.begin) h2
  have hhalted : ¬ (s.begin.dstate = 8 ∧ ep = 0) := fun h => absurd (show s.dstate = 8 from h.1) (by omega)
  simp only [execConfigRequest, hanswers, hrecovery, hhalted, Bool.false_and, Bool.false_eq_true, if_false]
  rfl

end

/-- Settles O21: the keeper's accesses by what they meet in SRAM; the hosts' by what a running device, or one before SERVICE_UP, answers. -/
theorem coreAndHostAccessesComplete : Obligations.CoreAndHostAccessesComplete := by
  unfold Obligations.CoreAndHostAccessesComplete
  refine ⟨?load, ?store, ?bar0, ?bar2, ?configServed, ?configRetry⟩
  case load =>
    intro a n t ups d s v hv ha hn h0 h1 hk0 hk1 hd
    exact execCoreMemoryAccess_load hv ha hn h0 h1 hk0 hk1 hd
  case store =>
    intro a b t ups s v hv ha hb h0 h1 hk0 hk1 hd
    exact execCoreMemoryAccess_store hv ha hb h0 h1 hk0 hk1 hd
  case bar0 =>
    intro ep fn off write n b t st stale s hr hp hi ho hb
    exact execHostBarAccess_bar0 hr hp hi ho hb
  case bar2 =>
    intro ep fn off n t st stale s hr hp hi hb ho hst
    exact execHostBarAccess_bar2_read hr hp hi hb ho hst
  case configServed =>
    intro ep fn req s hp hi hr
    obtain ⟨hlo, hhi⟩ := State.running_iff.mp hr
    exact (execConfigRequest_booted hp hi (by omega) hhi).trans (congrArg Host.Outcome.next (if_pos hr))
  case configRetry =>
    intro ep fn req s hp hi hd
    have hstops : ¬ s.running = true := fun hr => absurd (State.running_iff.mp hr).1 (by omega)
    exact (execConfigRequest_booted hp hi (by omega) (by omega)).trans (congrArg Host.Outcome.next (if_neg hstops))

end Sys2Proof.Machine
end

section
/-! PROOFS. Scope, invariant: a step keeps the bound of the keeper's queue and the form of the waiting commands (R262). -/
namespace Sys2Proof.Machine

/-- A step takes the front command from the queue and leaves the others. -/
theorem step_pending {s t : State} (h : step s = .next t) : t.pending = s.pending.tail := by
  unfold step at h
  split at h
  case h_1 hnone =>
    cases h
    rw [hnone]
    exact State.idle_stable (pending_stable []) s hnone
  case h_2 c q hfront =>
    obtain ⟨u, hu, hkept⟩ := exec_stable (pending_stable q) c { s with pending := q } rfl
    rw [hu] at h
    cases h
    rw [hfront]
    exact hkept

/-- Settles O2: the queue's bound is a stable property, and what waits after a step waited before it. -/
theorem invariantKept : Obligations.InvariantKept := by
  unfold Obligations.InvariantKept
  rintro s t ⟨hkevq, hpending⟩ ht
  refine ⟨step_stable kevq_stable (fun _ _ h => h) hkevq ht, fun c hc => hpending c ?_⟩
  rw [step_pending ht] at hc
  exact List.mem_of_mem_tail hc

end Sys2Proof.Machine
end

section
/-! PROOFS. Scope, keeper's events: what enters the keeper's queue and what a read of KEVT takes from it (R262). -/
namespace Sys2Proof.Machine

section
variable {s : State} {blk code inst info : Nat}

/-- With room in the queue an event joins its end, and LEVEL counts it. -/
theorem State.kevt_of_room (h : s.kevq.length < 256) : s.kevt blk code inst info =
    ({ s with kevq := s.kevq ++ [kevtWord blk code inst info] }).wr rKEVT_LVL fKEVT_LVL_LEVEL (s.kevq.length + 1) := if_pos h

/-- A full queue loses the event, which is counted. -/
theorem State.kevt_of_full (h : 256 ≤ s.kevq.length) : s.kevt blk code inst info = s.bumpErr rEVT_LOST := if_neg (Nat.not_lt.mpr h)

theorem State.kevt_level (h : s.kevq.length < 256) :
    (s.kevt blk code inst info).rd rKEVT_LVL fKEVT_LVL_LEVEL = s.kevq.length + 1 := by
  rw [State.kevt_of_room h, State.rd_wr_same _ _ _ _ (by decide)]
  exact Nat.mod_eq_of_lt (show s.kevq.length + 1 < 512 by omega)

end

section
variable {s : State} {who : Who} {e : W64} {q : List W64}

/-- A read of KEVT that passes its checks reads the queue. -/
theorem execKevtRead_eq {part : Fin 3} (h : s.mayRead who rKEVT) : execKevtRead who part s = .next (s.accepted.readKevt part) :=
  congrArg Host.Outcome.next (access_read_ok h _)

/-- The low word of the oldest entry: it leaves the queue, and its high half is held. -/
theorem State.readKevt_low (h : s.kevq = e :: q) : s.readKevt 1 =
    ({ s.kevPop with kevtHeld := some ((e >>> 32).setWidth 32) }).answer (.data (e &&& 0xFFFFFFFF#64)) := by
  have hsome : s.kevq.isEmpty = false := by rw [h]; rfl
  have hhead : s.kevq.headD 0 = e := by rw [h]; rfl
  simp only [State.readKevt, Nat.one_ne_zero, hsome, hhead, Bool.false_eq_true, if_false, if_true]

/-- The low word of an empty queue is 0. -/
theorem State.readKevt_low_empty (h : s.kevq = []) : s.readKevt 1 = s.answer (.data 0) := by
  have hnone : s.kevq.isEmpty = true := by rw [h]; rfl
  simp only [State.readKevt, Nat.one_ne_zero, hnone, if_false, if_true]

/-- The high word is the held half, which is given once. -/
theorem State.readKevt_high {v : W32} (h : s.kevtHeld = some v) : s.readKevt 2 = ({ s with kevtHeld := none }).answer (.data (v.setWidth 64)) := by
  simp only [State.readKevt, h]
  rfl

/-- With no half held the high word is 0. -/
theorem State.readKevt_high_none (h : s.kevtHeld = none) : s.readKevt 2 = s.answer (.data 0) := by
  simp only [State.readKevt, h]
  rfl

end

/-- Settles O12: an event by the room in the queue; a read by the part that is read and what the queue and the held half are. -/
theorem keeperEventQueueRule : Obligations.KeeperEventQueueRule := by
  unfold Obligations.KeeperEventQueueRule
  refine ⟨?joins, ?lost, ?whole, ?low, ?high, ?highNone, ?empty⟩
  case joins =>
    intro s blk code inst info h
    exact ⟨congrArg State.kevq (State.kevt_of_room h), State.kevt_level h⟩
  case lost =>
    intro s blk code inst info h
    exact State.kevt_of_full h
  case whole =>
    intro who s e q h hq
    exact ⟨_, execKevtRead_eq h, congrArg (fun l => Resp.data (List.headD l 0)) hq, congrArg (List.drop 1) hq, rfl⟩
  case low =>
    intro who s e q h hq
    exact ⟨_, (execKevtRead_eq h).trans (congrArg Host.Outcome.next (State.readKevt_low (s := s.accepted) hq)), rfl, congrArg (List.drop 1) hq, rfl⟩
  case high =>
    intro who s v h hv
    exact ⟨_, (execKevtRead_eq h).trans (congrArg Host.Outcome.next (State.readKevt_high (s := s.accepted) hv)), rfl, rfl, rfl⟩
  case highNone =>
    intro who s h hv
    exact ⟨_, (execKevtRead_eq h).trans (congrArg Host.Outcome.next (State.readKevt_high_none (s := s.accepted) hv)), rfl, rfl⟩
  case empty =>
    intro who s h hq
    exact ⟨_, (execKevtRead_eq h).trans (congrArg Host.Outcome.next (State.readKevt_low_empty (s := s.accepted) hq)), rfl, hq⟩

end Sys2Proof.Machine
end

section
/-! PROOFS. Scope, service harts: the record of a hart's violation, its freeze and the keeper's event (R261). -/
namespace Sys2Proof.Machine

/-! ### Bits of numbers -/

theorem bitOf_eq_testBit (v i : Nat) : bitOf v i = v.testBit i := Nat.testBit_eq_decide_div_mod_eq.symm

/-- A number with bit `i` set or cleared, by what stands above the bit and below it. -/
theorem setBitN_eq (v i : Nat) (b : Bool) : setBitN v i b = 2 ^ i * (v / 2 ^ i / 2 * 2 + b2n b) + v % 2 ^ i := by
  have hv : v = 2 ^ i * (v / 2 ^ i / 2 * 2 + v / 2 ^ i % 2) + v % 2 ^ i := by rw [Nat.div_add_mod', Nat.div_add_mod]
  generalize v / 2 ^ i / 2 * 2 = q at hv ⊢
  have hclear : v - v / 2 ^ i % 2 * 2 ^ i = 2 ^ i * q + v % 2 ^ i := by
    rw [Nat.mul_add] at hv
    rw [Nat.mul_comm]
    omega
  cases b with
  | false => simpa [setBitN, b2n] using hclear
  | true =>
    simp only [setBitN, hclear, b2n, if_true]
    ring

/-- A bit set or cleared has that value, and the others are as before. -/
theorem bitOf_setBitN (v i k : Nat) (b : Bool) : bitOf (setBitN v i b) k = if k = i then b else bitOf v k := by
  have hmod : v % 2 ^ i < 2 ^ i := Nat.mod_lt _ (Nat.two_pow_pos i)
  have hv : v.testBit k = (2 ^ i * (v / 2 ^ i) + v % 2 ^ i).testBit k := by rw [Nat.div_add_mod]
  rw [bitOf_eq_testBit, bitOf_eq_testBit, hv, setBitN_eq, Nat.testBit_two_pow_mul_add _ hmod, Nat.testBit_two_pow_mul_add _ hmod]
  rcases Nat.lt_trichotomy k i with hlt | rfl | hgt
  · rw [if_pos hlt, if_pos hlt, if_neg (Nat.ne_of_lt hlt)]
  · cases b <;> simp [b2n]
  · obtain ⟨m, rfl⟩ := Nat.exists_eq_add_of_lt hgt
    have hnot : ¬ i + m + 1 < i := by omega
    have hidx : i + m + 1 - i = m + 1 := by omega
    have hb : b2n b < 2 := by cases b <;> decide
    have hhalf : (v / 2 ^ i / 2 * 2 + b2n b) / 2 = v / 2 ^ i / 2 := by omega
    rw [if_neg hnot, if_neg hnot, if_neg (by omega), hidx, Nat.testBit_succ, Nat.testBit_succ, hhalf]

/-- The low bits of a number are those of its remainder. -/
theorem bitOf_mod_two_pow {v n k : Nat} (h : k < n) : bitOf (v % 2 ^ n) k = bitOf v k := by
  rw [bitOf_eq_testBit, bitOf_eq_testBit, Nat.testBit_mod_two_pow, decide_eq_true h, Bool.true_and]

/-! ### The record and the freeze -/

section
variable {s : State} {h kind a : Nat} {write fetch : Bool}

/-- The record of a hart's violation. -/
def State.hartRecorded (s : State) (h kind a : Nat) (write fetch : Bool) : State :=
  ((((s.wr (rSVC_VREC h) fSVC_VREC_KIND kind).wr (rSVC_VREC h) fSVC_VREC_WRITE (b2n write)).wr (rSVC_VREC h)
    fSVC_VREC_FETCH (b2n fetch)).wr (rSVC_VADDR_LO h) fSVC_VADDR_LO_ADDR a).wr (rSVC_VADDR_HI h) fSVC_VADDR_HI_ADDR (a / 2 ^ 31)

/-- The hart frozen, its record not read yet. -/
def State.hartFrozen (s : State) (h kind a : Nat) (write fetch : Bool) : State :=
  { (s.hartRecorded h kind a write fetch).wr rSVC_STAT fSVC_STAT_FROZEN (setBitN (s.rd rSVC_STAT fSVC_STAT_FROZEN) h true) with
    vrecRead := setBitN s.vrecRead h false }

theorem State.hartFrozen_rw (x : Nat) : (s.hartFrozen h kind a write fetch).rw x =
    ((s.hartRecorded h kind a write fetch).wr rSVC_STAT fSVC_STAT_FROZEN (setBitN (s.rd rSVC_STAT fSVC_STAT_FROZEN) h true)).rw x :=
  congrArg (fun regs => storeGet resetWord regs x) rfl

theorem State.hartFrozen_vrecRead : (s.hartFrozen h kind a write fetch).vrecRead = setBitN s.vrecRead h false := rfl

theorem State.hartFrozen_live : (s.hartFrozen h kind a write fetch).live = s.live := rfl

theorem State.hartFrozen_kevq : (s.hartFrozen h kind a write fetch).kevq = s.kevq := rfl

/-- A violation of a hart is recorded, freezes it, is counted and told to the keeper. -/
theorem State.hartViolate_eq : s.hartViolate h kind a write fetch =
    ((s.hartFrozen h kind a write fetch).bumpErr rSVC_VIOL).kevt 0x02 0x07 h 0 := rfl

/-- An event of the keeper changes no register but KEVT_LVL. -/
theorem State.kevt_rw_ne {blk code inst info x : Nat} (hx : rKEVT_LVL ≠ x) : (s.kevt blk code inst info).rw x = s.rw x := by
  unfold State.kevt
  split
  · exact State.rw_wr_ne _ _ _ hx
  · exact State.bumpErr_rw_of ..

/-- An event of the keeper changes no counter but EVT_LOST. -/
theorem State.kevt_lv_ne {blk code inst info x : Nat} (hx : rEVT_LOST ≠ x) : (s.kevt blk code inst info).lv x = s.lv x := by
  unfold State.kevt
  split
  · rfl
  · exact State.lv_bumpErr_ne _ hx

/-- What an error counter becomes follows from the counters alone. -/
theorem State.bumpErr_lv_congr {t : State} (ht : t.live = s.live) (c x : Nat) : (t.bumpErr c).lv x = (s.bumpErr c).lv x := by
  have hlv : ∀ y, t.lv y = s.lv y := fun y => congrArg (fun l => storeGet (fun _ => 0) l y) ht
  have hset : ∀ w, (t.setLv c w).lv x = (s.setLv c w).lv x := fun w =>
    congrArg (fun l => storeGet (fun _ => (0 : W64)) (storePut (fun _ => 0) l c w) x) ht
  simp only [State.bumpErr, hlv]
  split
  · exact hset _
  · split
    · rw [State.emit_lv_of, State.emit_lv_of, hset]
    · exact hlv x

/-- The registers after a violation, but for KEVT_LVL, are those of the state in which the hart is frozen. -/
theorem State.hartViolate_rw {x : Nat} (hx : rKEVT_LVL ≠ x) :
    (s.hartViolate h kind a write fetch).rw x = (s.hartFrozen h kind a write fetch).rw x := by
  rw [State.hartViolate_eq, State.kevt_rw_ne hx, State.bumpErr_rw_of]

/-- SVC_VREC with a violation in it. -/
def svcVrecWord (w : W64) (kind : Nat) (write fetch : Bool) : W64 :=
  putFld (putFld (putFld w fSVC_VREC_KIND kind) fSVC_VREC_WRITE (b2n write)) fSVC_VREC_FETCH (b2n fetch)

theorem State.hartRecorded_vrec : (s.hartRecorded h kind a write fetch).rw (rSVC_VREC h) = svcVrecWord (s.rw (rSVC_VREC h)) kind write fetch := by
  have hhi : rSVC_VADDR_HI h ≠ rSVC_VREC h := blkAddr_ne _ (by omega)
  have hlo : rSVC_VADDR_LO h ≠ rSVC_VREC h := blkAddr_ne _ (by omega)
  simp only [State.hartRecorded, State.rw_wr_ne _ _ _ hhi, State.rw_wr_ne _ _ _ hlo, State.rw_wr_same, svcVrecWord]

/-- The record of a hart that is one of the four. -/
theorem State.hartViolate_vrec (hh : h < 4) :
    (s.hartViolate h kind a write fetch).rw (rSVC_VREC h) = svcVrecWord (s.rw (rSVC_VREC h)) kind write fetch := by
  have hlvl : rKEVT_LVL ≠ rSVC_VREC h := blkAddr_ne _ (by omega)
  have hstat : rSVC_STAT ≠ rSVC_VREC h := blkAddr_ne _ (by omega)
  rw [State.hartViolate_rw hlvl, State.hartFrozen_rw, State.rw_wr_ne _ _ _ hstat, State.hartRecorded_vrec]

theorem State.hartViolate_rd_vrec (hh : h < 4) (f : Fld) : (s.hartViolate h kind a write fetch).rd (rSVC_VREC h) f =
    getFld (svcVrecWord (s.rw (rSVC_VREC h)) kind write fetch) f :=
  congrArg (fun w => getFld w f) (State.hartViolate_vrec hh)

section
variable {w : W64}

theorem svcVrecWord_kind (hk : kind < 2 ^ fSVC_VREC_KIND.w) : getFld (svcVrecWord w kind write fetch) fSVC_VREC_KIND = kind := by
  simp (disch := decide) only [svcVrecWord, getFld_putFld_ne]
  exact getFld_putFld_of_lt (by decide) hk

theorem svcVrecWord_write : getFld (svcVrecWord w kind write fetch) fSVC_VREC_WRITE = b2n write := by
  simp (disch := decide) only [svcVrecWord, getFld_putFld_ne]
  exact getFld_putFld_of_lt (by decide) (by cases write <;> decide)

theorem svcVrecWord_fetch : getFld (svcVrecWord w kind write fetch) fSVC_VREC_FETCH = b2n fetch :=
  getFld_putFld_of_lt (by decide) (by cases fetch <;> decide)

end

/-- The FROZEN bits of the four harts: that of the violating one is set. -/
theorem State.hartViolate_frozen {k : Nat} (hk : k < 4) :
    bitOf ((s.hartViolate h kind a write fetch).rd rSVC_STAT fSVC_STAT_FROZEN) k =
      if k = h then true else bitOf (s.rd rSVC_STAT fSVC_STAT_FROZEN) k := by
  have hlvl : rKEVT_LVL ≠ rSVC_STAT := by decide
  have hfield : (s.hartViolate h kind a write fetch).rd rSVC_STAT fSVC_STAT_FROZEN =
      setBitN (s.rd rSVC_STAT fSVC_STAT_FROZEN) h true % 2 ^ fSVC_STAT_FROZEN.w :=
    (State.rd_congr ((State.hartViolate_rw hlvl).trans (State.hartFrozen_rw _)) _).trans (State.rd_wr_same _ _ _ _ (by decide))
  rw [hfield, bitOf_mod_two_pow (show k < fSVC_STAT_FROZEN.w from hk), bitOf_setBitN]

theorem State.hartViolate_vrecRead : bitOf (s.hartViolate h kind a write fetch).vrecRead h = false := by
  rw [State.hartViolate_eq, State.kevt_vrecRead, State.bumpErr_vrecRead, State.hartFrozen_vrecRead, bitOf_setBitN, if_pos rfl]

theorem State.hartViolate_viol : (s.hartViolate h kind a write fetch).lv rSVC_VIOL = (s.bumpErr rSVC_VIOL).lv rSVC_VIOL := by
  have hlost : rEVT_LOST ≠ rSVC_VIOL := by decide
  rw [State.hartViolate_eq, State.kevt_lv_ne hlost, State.bumpErr_lv_congr State.hartFrozen_live]

theorem State.hartViolate_kevq (hroom : s.kevq.length < 256) :
    (s.hartViolate h kind a write fetch).kevq = s.kevq ++ [kevtWord 0x02 0x07 h 0] := by
  have hsame : ((s.hartFrozen h kind a write fetch).bumpErr rSVC_VIOL).kevq = s.kevq :=
    (State.bumpErr_kevq ..).trans State.hartFrozen_kevq
  have hroom' : ((s.hartFrozen h kind a write fetch).bumpErr rSVC_VIOL).kevq.length < 256 := by rwa [hsame]
  rw [State.hartViolate_eq, State.kevt_of_room hroom', ← hsame]
  rfl

end

/-- Settles O13: the fields of the record's word, the bits of FROZEN, and what the count and the event change. -/
theorem hartViolationRule : Obligations.HartViolationRule := by
  unfold Obligations.HartViolationRule
  intro s h kind a write fetch hkind
  refine ⟨(State.hartViolate_rd_vrec h.isLt _).trans (svcVrecWord_kind hkind), (State.hartViolate_rd_vrec h.isLt _).trans svcVrecWord_write,
    (State.hartViolate_rd_vrec h.isLt _).trans svcVrecWord_fetch, ?frozen, State.hartViolate_vrecRead, State.hartViolate_viol,
    State.hartViolate_kevq⟩
  case frozen =>
    intro k
    refine (State.hartViolate_frozen k.isLt).trans ?_
    by_cases hk : k = h
    · rw [if_pos (congrArg Fin.val hk), decide_eq_true hk, Bool.true_or]
    · rw [if_neg (Fin.val_ne_of_ne hk), decide_eq_false hk, Bool.false_or]

end Sys2Proof.Machine
end

section
/-! PROOFS. Scope, world calls: WCALL and the world extension's CSRs (R249 to R251), and how a call completes (R252, R253). -/
namespace Sys2Proof.Machine

section
variable {s : State} {h prv : Fin 4} {a7 : W64} {args : List W64}

/-- A word that a running hart executes: of opcode 0x0B only WCALL is legal. -/
theorem execWcall_hart_word {w : W32} (hr : s.hartRuns h = true) : execWcall (some h) prv (.word w) a7 args s = .next
    (if w.toNat % 128 ≠ 0x0B then s.begin.predict h prv
      else if w.toNat = 0x0B then (s.begin.predict h prv).wcall h prv a7 args else (s.begin.predict h prv).illegal (some h)) :=
  congrArg Host.Outcome.next (guard_true (s := s.begin) hr _)

/-- A running hart accesses a CSR. -/
theorem execWcall_hart_csr {n : BitVec 12} {w : Option W64} (hr : s.hartRuns h = true) : execWcall (some h) prv (.csr n w) a7 args s =
    .next ((s.begin.predict h prv).worldCsr (some h) prv n.toNat w) :=
  congrArg Host.Outcome.next (guard_true (s := s.begin) hr _)

/-- A word that a keeper core executes: opcode 0x0B is illegal there. -/
theorem execWcall_keeper_word {w : W32} (ha : s.alive .keeper = true) : execWcall none prv (.word w) a7 args s =
    .next (if w.toNat % 128 ≠ 0x0B then s.begin else s.begin.illegal none) :=
  congrArg Host.Outcome.next (guard_true (s := s.begin) ha _)

end

section
variable {s : State} {h : Fin 4} {prv : Nat} {a7 : W64} {args : List W64}

/-- Below MINPRV a WCALL is illegal. -/
theorem State.wcall_below (hp : prv < (s.hart h).minprv) : s.wcall h prv a7 args = s.illegal (some h) := if_pos hp

/-- A number of more than 32 bits is no function. -/
theorem State.wcall_no_func (hp : (s.hart h).minprv ≤ prv) (hfn : a7.toNat / 2 ^ 32 ≠ 0) :
    s.wcall h prv a7 args = s.retire h wcNO_FUNC ((args.drop 1).take 5) :=
  (if_neg (Nat.not_lt.mpr hp)).trans (if_pos hfn)

/-- The call of an enabled hart is posted. -/
theorem State.wcall_posts (hp : (s.hart h).minprv ≤ prv) (hfn : a7.toNat / 2 ^ 32 = 0)
    (hen : bitOf (s.rd rCALL_CFG fCALL_CFG_EN) h = true) : s.wcall h prv a7 args = s.callPost h prv (a7.toNat % 2 ^ 32) args :=
  (if_neg (Nat.not_lt.mpr hp)).trans ((if_neg (not_not_intro hfn)).trans (if_neg (ne_false_of_eq_true hen)))

end

/-- A response completes the pending call with its status. -/
theorem State.wrWcRsp_pending {s : State} {h n : Nat} (hp : s.callPending h = true) (hn : n < 256) :
    s.wrWcRsp h (putFld 0 fWC_RSP_STATUS n) = s.callDone h n := by
  have hstatus : getFld (putFld 0 fWC_RSP_STATUS n) fWC_RSP_STATUS = n := getFld_putFld_of_lt (by decide) hn
  rw [State.wrWcRsp, if_pos hp, hstatus]

/-- Settles O47: an instruction by its core and word; a WCALL by privilege, number and enable; the ends of a pending call. -/
theorem callSlotCommandsComplete : Obligations.CallSlotCommandsComplete := by
  unfold Obligations.CallSlotCommandsComplete
  refine ⟨?wcall, ?otherWord, ?keeper, ?csr, ?below, ?noFunc, ?posts, ?response, ?limit⟩
  case wcall =>
    intro h prv a7 args s hr
    exact (execWcall_hart_word hr).trans (congrArg Host.Outcome.next ((if_neg (by decide)).trans (if_pos rfl)))
  case otherWord =>
    intro h prv w a7 args s hr hop hw
    exact (execWcall_hart_word hr).trans (congrArg Host.Outcome.next ((if_neg (not_not_intro hop)).trans (if_neg hw)))
  case keeper =>
    intro prv w a7 args s ha hop
    exact (execWcall_keeper_word (prv := prv) (a7 := a7) (args := args) ha).trans (congrArg Host.Outcome.next (if_neg (not_not_intro hop)))
  case csr =>
    intro h prv n w a7 args s hr
    exact execWcall_hart_csr (a7 := a7) (args := args) hr
  case below =>
    intro h prv a7 args s hp
    exact State.wcall_below hp
  case noFunc =>
    intro h prv a7 args s hp hfn
    exact State.wcall_no_func hp hfn
  case posts =>
    intro h prv a7 args s hp hfn hen
    exact State.wcall_posts hp hfn hen
  case response =>
    intro who h status s hw hp
    exact congrArg Host.Outcome.next ((write_ok hw _).trans (State.wrWcRsp_pending (s := s.accepted) hp status.isLt))
  case limit =>
    intro h s hp
    exact congrArg Host.Outcome.next (guard_true (s := s.begin) hp _)

end Sys2Proof.Machine
end

section
/-! PROOFS. Scope, keeper: KCTRL (R256, R267, R274), the keeper's restarts (R273), release and thaw of the service harts (R261, R267), and the
reads of events and records (R261, R262). -/
namespace Sys2Proof.Machine

/-! ### KCTRL by its one command bit -/

section
variable {s : State} {t : Nat}

theorem State.wrKctrl_kick : s.wrKctrl t (wBit 0 fKCTRL_KICK) = s := by
  simp (disch := decide) only [State.wrKctrl, getFld_wBit_zero_ne, beq_iff_eq, Nat.zero_ne_one, if_false]

theorem State.wrKctrl_restart : s.wrKctrl t (wBit 0 fKCTRL_RESTART) = s.keeperRestart 2 t := by
  simp (disch := decide) only [State.wrKctrl, getFld_wBit_same, getFld_wBit_zero_ne, beq_iff_eq, Nat.zero_ne_one, if_false, if_true]

theorem State.wrKctrl_wmLock : s.wrKctrl t (wBit 0 fKCTRL_WM_LOCK) = s.wmLock := by
  simp (disch := decide) only [State.wrKctrl, getFld_wBit_same, getFld_wBit_zero_ne, beq_iff_eq, Nat.zero_ne_one, if_false, if_true]

theorem State.wrKctrl_up : s.wrKctrl t (wBit 0 fKCTRL_UP) = s.keeperUp := by
  simp (disch := decide) only [State.wrKctrl, getFld_wBit_same, getFld_wBit_zero_ne, beq_iff_eq, Nat.zero_ne_one, if_false, if_true]

/-- With every grain of the image trusted the map is locked. -/
theorem State.wmLock_trusted (h : ∀ k < codeGrains s.boot.codeSize, s.grainTrusted (s.boot.grain + k) = true) :
    s.wmLock = s.wr rKSTAT fKSTAT_WM_LOCKED 1 :=
  if_pos (List.all_eq_true.mpr (fun k hk => h k (List.mem_range.mp hk)))

/-- The keeper is UP once Zhotor runs, unless it is lost. -/
theorem State.keeperUp_runs (hz : s.boot.zhotor = true) (hk : s.kstate ≠ kLOST) :
    s.keeperUp = ((s.wr rKSTAT fKSTAT_STATE kUP).modBoot (fun b => { b with upWritten := true })).trySvcUp := by
  have hup : (s.boot.zhotor && s.kstate != kLOST) = true := by rw [hz, bne_iff_ne.mpr hk]; rfl
  exact if_pos hup

end

/-! ### The service harts -/

section
variable {s : State}

/-- A further RUN adds its harts to those that are released. -/
theorem State.wrSvcCtrl_again {run : BitVec 4} (hlock : s.on rKSTAT fKSTAT_WM_LOCKED = true) (hrun : run ≠ 0)
    (hagain : s.boot.runWritten = true) : s.wrSvcCtrl (putFld 0 fSVC_CTRL_RUN run.toNat) =
      ((s.wr rSVC_STAT fSVC_STAT_RUNNING (s.rd rSVC_STAT fSVC_STAT_RUNNING ||| run.toNat)).modBoot
        (fun b => { b with runWritten := true })).trySvcUp := by
  have hfield : getFld (putFld 0 fSVC_CTRL_RUN run.toNat) fSVC_CTRL_RUN = run.toNat := getFld_putFld_of_lt (by decide) run.isLt
  have hne : run.toNat ≠ 0 := fun h => hrun (BitVec.eq_of_toNat_eq h)
  simp only [State.wrSvcCtrl, hfield, hlock, hagain, if_neg hne, Bool.true_eq_false, if_false, if_true]

/-- Harts that are frozen and whose records were read are thawed, and take the exception of their violation. -/
theorem State.wrSvcThaw_read {harts : BitVec 4}
    (hok : ∀ h < 4, bitOf harts.toNat h = true → bitOf (s.rd rSVC_STAT fSVC_STAT_FROZEN) h = true ∧ bitOf s.vrecRead h = true) :
    s.wrSvcThaw (putFld 0 fSVC_THAW_THAW harts.toNat) = ((List.range 4).filter (bitOf harts.toNat)).foldl (fun t h =>
      let cause := if t.on (rSVC_VREC h) fSVC_VREC_FETCH then 1 else if t.on (rSVC_VREC h) fSVC_VREC_WRITE then 7 else 5
      (t.wr rSVC_STAT fSVC_STAT_FROZEN (setBitN (t.rd rSVC_STAT fSVC_STAT_FROZEN) h false)).modHart h (fun x => { x with trap := some cause })) s := by
  have hfield : getFld (putFld 0 fSVC_THAW_THAW harts.toNat) fSVC_THAW_THAW = harts.toNat := getFld_putFld_of_lt (by decide) harts.isLt
  have hread : ∀ h ∈ (List.range 4).filter (bitOf harts.toNat),
      (bitOf (s.rd rSVC_STAT fSVC_STAT_FROZEN) h && bitOf s.vrecRead h) = true := by
    intro h hh
    obtain ⟨hlt, hnamed⟩ := List.mem_filter.mp hh
    obtain ⟨hfrozen, hvrec⟩ := hok h (List.mem_range.mp hlt) hnamed
    rw [hfrozen, hvrec, Bool.and_self]
  simp only [State.wrSvcThaw, hfield, List.filter_eq_self.mpr hread, List.all_eq_true.mpr hread, if_true]

end

/-- Settles O48: KCTRL by its command bit, SVC_CTRL and SVC_THAW by their fields, each past its checks; the reads past theirs. -/
theorem keeperCommandsComplete : Obligations.KeeperCommandsComplete := by
  unfold Obligations.KeeperCommandsComplete
  refine ⟨?kick, ?restart, ?wmLock, ?up, ?watchdog, ?lockstep, ?svcRun, ?svcThaw, ?kevt, ?vrec⟩
  case kick =>
    intro who s h
    exact congrArg Host.Outcome.next ((write_ok h _).trans State.wrKctrl_kick)
  case restart =>
    intro who t s h
    exact congrArg Host.Outcome.next ((write_ok h _).trans State.wrKctrl_restart)
  case wmLock =>
    intro who s h htrusted
    exact congrArg Host.Outcome.next ((write_ok h _).trans (State.wrKctrl_wmLock.trans (State.wmLock_trusted (s := s.accepted) htrusted)))
  case up =>
    intro who s h hz hk
    exact congrArg Host.Outcome.next ((write_ok h _).trans (State.wrKctrl_up.trans (State.keeperUp_runs (s := s.accepted) hz hk)))
  case watchdog =>
    intro t s hz
    exact congrArg Host.Outcome.next (guard_true (s := s.begin) hz _)
  case lockstep =>
    intro t s
    rfl
  case svcRun =>
    intro who run s h hlock hrun hagain
    exact congrArg Host.Outcome.next ((write_ok h _).trans (State.wrSvcCtrl_again (s := s.accepted) hlock hrun hagain))
  case svcThaw =>
    intro who harts s h hok
    exact congrArg Host.Outcome.next ((write_ok h _).trans (State.wrSvcThaw_read (s := s.accepted) hok))
  case kevt =>
    intro who s h
    exact execKevtRead_eq h
  case vrec =>
    intro who h stale s hr
    exact congrArg Host.Outcome.next (access_read_ok hr _)

end Sys2Proof.Machine
end

section
/-! PROOFS. Scope, boot: the image of eNVM (R263, R264, R267), the keeper's restart (R273, R274), recovery boot (R268, R269). -/
namespace Sys2Proof.Machine

section
variable {s : State} {ok : State → List Byte → State} {fail : State → State}

/-- At the begin of a command the slots are as before it. -/
theorem State.bootSlots_begin : s.begin.bootSlots ok fail =
    (if s.slotReason 0 = 0 then ok ((s.begin.bootStat fKPR_BOOT_STAT_FAIL_A 0).bootStat fKPR_BOOT_STAT_SLOT 0) (s.slotBytes 0)
     else
      let s1 := (s.begin.bootStat fKPR_BOOT_STAT_FAIL_A (s.slotReason 0)).bootStat fKPR_BOOT_STAT_FAIL_B (s.slotReason 1)
      if s.slotReason 1 = 0 then ok (s1.bootStat fKPR_BOOT_STAT_SLOT 1) (s.slotBytes 1) else fail s1) := by
  have hreason : ∀ k, s.begin.slotReason k = s.slotReason k := fun _ => rfl
  have hbytes : ∀ k, s.begin.slotBytes k = s.slotBytes k := fun _ => rfl
  simp only [State.bootSlots, hreason, hbytes]

/-- In the boot ROM, out of reset, the key store's OTP and the source of the boot decide. -/
theorem execBootImageChecked_rom {otpOk : Bool} (hd : s.dstate = 1) (hr : s.power.inReset = false) : execBootImageChecked otpOk s =
    .next (if otpOk = false then s.begin.halt 0x18
      else if s.boot.src = 0 then s.begin.bootSlots State.enterZhotor (fun s => s.halt 0x12) else s.begin) := by
  have hrom : (decide (s.dstate = 1) && !s.power.inReset) = true := by rw [decide_eq_true hd, hr]; rfl
  exact congrArg Host.Outcome.next (if_pos hrom)

/-- In a keeper restart of a device past the boot ROM, before Zhotor is entered, the image is read again. -/
theorem execBootImageChecked_restart (hlo : 2 ≤ s.dstate) (hhi : s.dstate ≤ 5) (hk : s.kstate = kRESTARTING) (hz : s.boot.zhotor = false) :
    execBootImageChecked true s = .next (s.begin.bootSlots State.restartDone State.keeperLost) := by
  have hrom : (decide (s.dstate = 1) && !s.power.inReset) ≠ true := by
    rw [decide_eq_false (by omega), Bool.false_and]
    exact Bool.false_ne_true
  have hrestart : (s.kstate = kRESTARTING && !s.boot.zhotor && decide (2 ≤ s.dstate ∧ s.dstate ≤ 5)) = true := by
    rw [decide_eq_true hk, hz, decide_eq_true ⟨hlo, hhi⟩]
    rfl
  exact congrArg Host.Outcome.next ((if_neg hrom).trans ((if_pos hrestart).trans (if_pos rfl)))

/-- An image in SRAM that can be read is checked. -/
theorem State.recovGo_loaded {s1 : State} {b : List Byte} (h : s.sramLoad 0 s.boot.recovLen = (s1, some b)) :
    s.recovGo = if imageReason b Config.rootKeyHash = 0 then s1.enterZhotor b else s1.halt 0x13 := by
  rw [State.recovGo, h]

/-- One that cannot be read halts the device. -/
theorem State.recovGo_unreadable {s1 : State} (h : s.sramLoad 0 s.boot.recovLen = (s1, none)) : s.recovGo = s1.halt 0x13 := by
  rw [State.recovGo, h]

end

/-- Settles O49: an image checked by where the device is; the commands of recovery boot under their guards. -/
theorem bootCommandsComplete : Obligations.BootCommandsComplete := by
  unfold Obligations.BootCommandsComplete
  refine ⟨?boot, ?otp, ?restart, ?recovery, ?timeout, ?linkUp⟩
  case boot =>
    intro s hd hr hsrc
    exact (execBootImageChecked_rom hd hr).trans (congrArg Host.Outcome.next
      ((if_neg Bool.noConfusion).trans ((if_pos hsrc).trans State.bootSlots_begin)))
  case otp =>
    intro s hd hr
    exact (execBootImageChecked_rom hd hr).trans (congrArg Host.Outcome.next (if_pos rfl))
  case restart =>
    intro s hlo hhi hk hz
    exact (execBootImageChecked_restart hlo hhi hk hz).trans (congrArg Host.Outcome.next State.bootSlots_begin)
  case recovery =>
    intro s hrec hup
    have hgo : (s.inRecovery && s.boot.linkUp && true) = true := by rw [hrec, hup]; rfl
    exact ⟨congrArg Host.Outcome.next (guard_true (s := s.begin) hgo _), fun _ _ h => State.recovGo_loaded h, fun _ h => State.recovGo_unreadable h⟩
  case timeout =>
    intro s hrec hup
    have hwaits : (s.inRecovery && s.boot.linkUp) = true := by rw [hrec, hup]; rfl
    exact congrArg Host.Outcome.next (guard_true (s := s.begin) hwaits _)
  case linkUp =>
    intro s hrec
    exact congrArg Host.Outcome.next (guard_true (s := s.begin) hrec _)

end Sys2Proof.Machine
end

section
/-! PROOFS. Scope, served calls: which call Zhotor serves and with what status (R253, R254), and the effect of each function (R127, R254, R271,
R272, R420). -/
namespace Sys2Proof.Machine

/-! ### Serving a call -/

section
variable {s t : State} {h fn status : Nat} {f : State → State × Nat}

/-- What becomes of a pending call while the keeper is UP and the device does not save. -/
theorem State.serveCall_up (hp : s.callPending h = true) (hk : s.kstate = kUP) (hd : s.dstate < 6) : s.serveCall h fn f =
    if servedFn (s.rd (rWC_FN h) fWC_FN_FN) = false then s.callDone h wcNO_FUNC
    else if s.rd (rWC_FN h) fWC_FN_FN ≠ fn then s
    else if s.rd (rWC_FN h) fWC_FN_PRV = 0 ∧ fn ≠ 0 then s.callDone h wcDENIED
    else (f s).1.callDone h (f s).2 := by
  have hlooks : (s.callPending h && s.kstate == kUP) = true := by rw [hp, beq_iff_eq.mpr hk]; rfl
  exact (if_pos hlooks).trans (if_neg (Nat.not_le.mpr hd))

/-- A number that no function answers. -/
theorem State.serveCall_no_func (hp : s.callPending h = true) (hserved : servedFn (s.rd (rWC_FN h) fWC_FN_FN) = false) (hk : s.kstate = kUP)
    (hd : s.dstate < 6) : s.serveCall h fn f = s.callDone h wcNO_FUNC :=
  (State.serveCall_up hp hk hd).trans (if_pos hserved)

section
variable (hp : s.callPending h = true) (hfn : s.rd (rWC_FN h) fWC_FN_FN = fn) (hk : s.kstate = kUP) (hd : s.dstate < 6)
  (hserved : servedFn fn = true)
include hp hfn hk hd hserved

/-- U-mode is denied every function but VERSION. -/
theorem State.serveCall_denied (hprv : s.rd (rWC_FN h) fWC_FN_PRV = 0) (hne : fn ≠ 0) : s.serveCall h fn f = s.callDone h wcDENIED := by
  rw [State.serveCall_up hp hk hd, hfn, if_neg (ne_false_of_eq_true hserved), if_neg (not_not_intro rfl), if_pos ⟨hprv, hne⟩]

/-- Any other caller, and every caller of VERSION, gets the function's effect and status. -/
theorem State.serveCall_serves (hprv : s.rd (rWC_FN h) fWC_FN_PRV ≠ 0 ∨ fn = 0) (hf : f s = (t, status)) :
    s.serveCall h fn f = t.callDone h status := by
  have hmay : ¬ (s.rd (rWC_FN h) fWC_FN_PRV = 0 ∧ fn ≠ 0) := fun ⟨h0, hne⟩ => hprv.elim (· h0) hne
  rw [State.serveCall_up hp hk hd, hfn, if_neg (ne_false_of_eq_true hserved), if_neg (not_not_intro rfl), if_neg hmay, hf]

end

/-- A call that waits for its function gets the function's effect and status. -/
theorem State.callWaits_served (hw : s.callWaits h fn) (hserved : servedFn fn = true) (hf : f s.begin = (t, status)) :
    s.begin.serveCall h fn f = t.callDone h status := by
  obtain ⟨hp, hfn, hk, hprv, hd⟩ := hw
  exact State.serveCall_serves (s := s.begin) hp hfn hk hd hserved (.inl hprv) hf

end

/-! ### The functions -/

section
variable {s s1 : State} {h : Fin 4}

theorem State.callArg_begin (s : State) (h k : Nat) : s.begin.callArg h k = s.callArg h k := congrArg BitVec.toNat (State.begin_rw_of ..)

theorem execMeasExtend_reads {d : List Byte} (hw : s.callWaits h 0x01) (hlo : 4 ≤ s.callArg h 0) (hhi : s.callArg h 0 ≤ 7)
    (hd : s.begin.callRead (s.callArg h 1) 48 = (s1, some d)) :
    execMeasExtend h s = .next ((s1.mrExtend (s.callArg h 0) d).callDone h wcOK) := by
  refine congrArg Host.Outcome.next (State.callWaits_served hw (by decide) ?_)
  have hreg : ¬ (s.callArg h 0 < 4 ∨ 7 < s.callArg h 0) := by omega
  simp only [State.callArg_begin, if_neg hreg, hd]

theorem execAttest_reads {n : List Byte} (hw : s.callWaits h 0x02) (hn : s.begin.callRead (s.callArg h 0) 32 = (s1, some n))
    (hbuf : s1.normalBuf (s.callArg h 1) 656 true = true) :
    execAttest h s = .next ((s1.memStore (s.callArg h 1) (s1.attReport n)).1.callDone h wcOK) := by
  refine congrArg Host.Outcome.next (State.callWaits_served hw (by decide) ?_)
  simp only [State.callArg_begin, hn, hbuf, if_true]

/-- A stall that is FREE or RESET may be sealed and unsealed. -/
theorem State.sealState_iff {st : Nat} : s.sealState st = true ↔ s.stallState st = 0 ∨ s.stallState st = 4 := by
  simp only [State.sealState, Bool.or_eq_true, beq_iff_eq]

theorem execSealStall_seals (hw : s.callWaits h 0x10) (hlo : 1 ≤ s.callArg h 0) (hhi : s.callArg h 0 ≤ 15)
    (hmask : bitOf (numAt s.boot.cfg 0x0A 2) (s.callArg h 0) = true)
    (hst : s.stallState (s.callArg h 0) = 0 ∨ s.stallState (s.callArg h 0) = 4) :
    execSealStall h s = .next ((s.begin.wr (rSCFG (s.callArg h 0)) fSCFG_SEALED 1).callDone h wcOK) := by
  refine congrArg Host.Outcome.next (State.callWaits_served hw (by decide) ?_)
  have hnamed : ¬ (s.callArg h 0 = 0 ∨ 15 < s.callArg h 0) := by omega
  have hmay : (bitOf (numAt s.boot.cfg 0x0A 2) (s.callArg h 0) && s.sealState (s.callArg h 0)) = true := by
    rw [hmask, State.sealState_iff.mpr hst, Bool.and_self]
  exact (if_neg hnamed).trans (if_pos hmay)

theorem execSealStall_bad_arg (hw : s.callWaits h 0x10) (harg : s.callArg h 0 = 0 ∨ 15 < s.callArg h 0) :
    execSealStall h s = .next (s.begin.callDone h wcBAD_ARG) :=
  congrArg Host.Outcome.next (State.callWaits_served hw (by decide) (if_pos harg))

theorem execUnsealStall_unseals (hw : s.callWaits h 0x11) (hlo : 1 ≤ s.callArg h 0) (hhi : s.callArg h 0 ≤ 15)
    (hst : s.stallState (s.callArg h 0) = 0 ∨ s.stallState (s.callArg h 0) = 4) (hfree : s.pitchNames (s.callArg h 0) = false) :
    execUnsealStall h s = .next ((s.begin.wr (rSCFG (s.callArg h 0)) fSCFG_SEALED 0).callDone h wcOK) := by
  refine congrArg Host.Outcome.next (State.callWaits_served hw (by decide) ?_)
  have hnamed : ¬ (s.callArg h 0 = 0 ∨ 15 < s.callArg h 0) := by omega
  have hmay : (s.sealState (s.callArg h 0) && !s.pitchNames (s.callArg h 0)) = true := by
    rw [State.sealState_iff.mpr hst, hfree]
    rfl
  exact (if_neg hnamed).trans (if_pos hmay)

theorem execPitchClr_clears (hw : s.callWaits h 0x21) (hp : s.callArg h 0 ≤ 7) (hks : s.callArg h 1 ≤ 0xFFFF)
    (hon : s.islandOn (3 + s.callArg h 0) = true) : execPitchClr h s =
      .next ((s.begin.wrPitchCtrl (s.callArg h 0) (putFld 0 fPITCH_CTRL_CLR (s.callArg h 1))).callDone h wcOK) := by
  refine congrArg Host.Outcome.next (State.callWaits_served hw (by decide) ?_)
  have hnamed : ¬ (7 < s.callArg h 0 ∨ 0xFFFF < s.callArg h 1) := by omega
  exact (if_neg hnamed).trans (if_neg (ne_false_of_eq_true hon))

theorem execClkSet_sets {r : Nat × Nat} (hw : s.callWaits h 0x30) (hn : s.callArg h 0 ≤ 30) (hr : stepRange (s.callArg h 0) = some r)
    (hlo : r.1 ≤ s.callArg h 1 / 6250) (hhi : s.callArg h 1 / 6250 ≤ r.2) (htrusted : s.islTrusted (s.callArg h 0) = true) :
    execClkSet h true s = .next ((s.begin.wrIslCtrl (s.callArg h 0) (putFld (s.rw (rISL_CTRL (s.callArg h 0))) fISL_CTRL_MAX_STEP
      (s.callArg h 1 / 6250))).callDone h wcOK) := by
  refine congrArg Host.Outcome.next (State.callWaits_served hw (by decide) ?_)
  have hmay : (s.begin.islTrusted (s.callArg h 0) && true) = true := (Bool.and_true _).trans htrusted
  have hstep : ¬ (s.callArg h 1 / 6250 < r.1 ∨ r.2 < s.callArg h 1 / 6250) := by omega
  simp only [State.callArg_begin, if_neg (Nat.not_lt.mpr hn), hr, if_neg hstep, if_pos hmay]
  rfl

theorem execReady_starts {t : Nat} (hw : s.callWaits h 0x7F) (hd : s.dstate = 3) :
    execReady h t s = .next (let s1 := ((s.begin.autoStart (.hart h) t).consumeSave).answer .none
      (s1.toDstate (if s1.rd rDSTATE fDSTATE_STATE_WORD / 256 % 8 = 0 then 4 else 5)).callDone h wcOK) :=
  congrArg Host.Outcome.next (State.callWaits_served hw (by decide) (if_pos hd))

theorem execPitchCfg_configures {b : List Byte} (hw : s.callWaits h 0x20) (hp : s.callArg h 0 ≤ 7) (hk : s.callArg h 1 ≤ 15)
    (hb : s.begin.callRead (s.callArg h 2) 24 = (s1, some b)) (hon : s1.islandOn (3 + s.callArg h 0) = true) :
    execPitchCfg h true s = .next (
      let put (x : State × Bool) (j : Nat) : State × Bool :=
        let s2 := (x.1.answer .ok).regEffect .keeper 0 (rPCFG (s.callArg h 0) (s.callArg h 1) + 4 * j) (BitVec.ofNat 64 (numAt b (4 * j) 4))
        (s2.answer .none, x.2 || s2.resp == .refused)
      let r := (List.range 6).foldl put (s1, false)
      if r.2 then r.1.callDone h wcDENIED
      else (r.1.wrPitchCtrl (s.callArg h 0) (putFld 0 fPITCH_CTRL_COMMIT (2 ^ s.callArg h 1))).callDone h wcOK) := by
  have hnamed : ¬ (7 < s.callArg h 0 ∨ 15 < s.callArg h 1) := by omega
  have hmay : ¬ (true = false ∨ s1.islandOn (3 + s.callArg h 0) = false) := by simp [hon]
  refine congrArg Host.Outcome.next ?_
  extract_lets put r
  split
  case isTrue hrefused =>
    refine State.callWaits_served hw (by decide) ?_
    simp only [State.callArg_begin, if_neg hnamed, hb, if_neg hmay]
    exact if_pos hrefused
  case isFalse htaken =>
    refine State.callWaits_served hw (by decide) ?_
    simp only [State.callArg_begin, if_neg hnamed, hb, if_neg hmay]
    exact if_neg htaken

end

/-- Settles O50: each function past the checks of its service, by its arguments; the calls that are denied or name no function. -/
theorem callsComplete : Obligations.CallsComplete := by
  unfold Obligations.CallsComplete
  refine ⟨?version, ?measExtend, ?attest, ?sealStall, ?sealBadArg, ?unsealStall, ?pitchClr, ?clkSet, ?ready, ?pitchCfg, ?userMode, ?noFunc⟩
  case version =>
    intro h s hp hfn hk hd
    exact congrArg Host.Outcome.next (State.serveCall_serves (s := s.begin) hp hfn hk hd (by decide) (.inr rfl) rfl)
  case measExtend =>
    intro h d s s1 hw hlo hhi hd
    exact execMeasExtend_reads hw hlo hhi hd
  case attest =>
    intro h n s s1 hw hn hbuf
    exact execAttest_reads hw hn hbuf
  case sealStall =>
    intro h s hw hlo hhi hmask hst
    exact execSealStall_seals hw hlo hhi hmask hst
  case sealBadArg =>
    intro h s hw harg
    exact execSealStall_bad_arg hw harg
  case unsealStall =>
    intro h s hw hlo hhi hst hfree
    exact execUnsealStall_unseals hw hlo hhi hst hfree
  case pitchClr =>
    intro h s hw hp hks hon
    exact execPitchClr_clears hw hp hks hon
  case clkSet =>
    intro h r s hw hn hr hlo hhi htrusted
    exact execClkSet_sets hw hn hr hlo hhi htrusted
  case ready =>
    intro h t s hw hd
    exact execReady_starts hw hd
  case pitchCfg =>
    intro h b s s1 hw hp hk hb hon
    exact execPitchCfg_configures hw hp hk hb hon
  case userMode =>
    intro h s hp hfn hk hd hprv
    exact congrArg Host.Outcome.next (State.serveCall_denied (s := s.begin) hp hfn hk hd (by decide) hprv (by decide))
  case noFunc =>
    intro h s hp hserved hk hd
    exact congrArg Host.Outcome.next (State.serveCall_no_func (s := s.begin) hp hserved hk hd)

end Sys2Proof.Machine
end

section
/-! PROOFS. Scope, stores: what a store into market SRAM writes, and what it leaves alone (R302, R305). -/
namespace Sys2Proof.Machine

/-! ### The range of market SRAM -/

section
variable {a n k : Nat}

theorem isSram_iff : isSram a = true ↔ sramBase ≤ a ∧ a < sramBase + sramSize := decide_eq_true_iff

theorem sramOff_of_isSram (h : isSram a = true) : sramOff a = a - sramBase := by
  obtain ⟨hlo, hhi⟩ := isSram_iff.mp h
  simp only [sramOff, sramBase, sramSize] at *
  omega

theorem isDram_of_isSram (h : isSram a = true) : isDram a = false := by
  obtain ⟨_, hhi⟩ := isSram_iff.mp h
  refine decide_eq_false (fun hd => ?_)
  simp only [dramBase, sramBase, sramSize] at *
  omega

/-- An address between two addresses of SRAM lies in SRAM. -/
theorem isSram_between {b c : Nat} (ha : isSram a = true) (hc : isSram c = true) (hab : a ≤ b) (hbc : b ≤ c) : isSram b = true := by
  obtain ⟨hlo, _⟩ := isSram_iff.mp ha
  obtain ⟨_, hhi⟩ := isSram_iff.mp hc
  exact isSram_iff.mpr ⟨hlo.trans hab, hbc.trans_lt hhi⟩

/-- The word of an address of SRAM lies in SRAM, whose first word begins at its base. -/
theorem isSram_word (h : isSram a = true) : isSram (8 * (a / 8)) = true := by
  obtain ⟨hlo, hhi⟩ := isSram_iff.mp h
  refine isSram_iff.mpr ?_
  simp only [sramBase, sramSize] at *
  omega

/-- The words that bytes of SRAM touch lie in SRAM. -/
theorem isSram_of_mem_wordsOf (h0 : isSram a = true) (h1 : isSram (a + (n - 1)) = true) (hk : k ∈ wordsOf a n) : isSram (8 * k) = true := by
  obtain ⟨i, hi, rfl⟩ := List.mem_map.mp hk
  have hlast := List.mem_range.mp hi
  exact isSram_between (isSram_word h0) h1 (by omega) (by omega)

end

/-! ### The bytes of a store -/

section
variable {s : State} {a : Nat}

theorem State.knowByte_sram (s : State) (a : Nat) : (s.knowByte a).sram = s.sram := by
  unfold State.knowByte
  split <;> rfl

theorem State.memStoreByte_sram (h : isSram a = true) (b : Byte) :
    (s.memStoreByte a b).sram = storePut ramDflt s.sram (sramOff a) b := by
  rw [State.memStoreByte, if_pos h]
  exact congrArg (storePut ramDflt · (sramOff a) b) (s.knowByte_sram a)

theorem State.memStoreByte_dramB (h : isSram a = true) (b : Byte) (x : Nat) : (s.memStoreByte a b).dramB x = s.dramB x := by
  rw [State.memStoreByte, if_pos h, State.sramWrite_dramB_of]
  exact (State.knowByte_stable (memory_keep s).toKeepCore s a s.sameMemory_refl x).2.1

theorem State.memStoreByte_envB (h : isSram a = true) (b : Byte) (x : Nat) : (s.memStoreByte a b).envB x = s.envB x := by
  rw [State.memStoreByte, if_pos h, State.sramWrite_envB_of]
  exact (State.knowByte_stable (memory_keep s).toKeepCore s a s.sameMemory_refl x).2.2

/-- Bytes stored one after the other in SRAM are the bytes written from the offset of the first. -/
theorem State.memStoreBytes_sram (ha : isSram a = true) (bs : List Byte) : ∀ (s : State) (j : Nat),
    (∀ i < bs.length, isSram (a + (j + i)) = true) →
    ((bs.zipIdx j).foldl (fun t p => t.memStoreByte (a + p.2) p.1) s).sram = storePutBytes ramDflt s.sram (sramOff a + j) bs := by
  induction bs with
  | nil => intro s j _; rfl
  | cons b bs ih =>
    intro s j h
    have hj : isSram (a + j) = true := h 0 (Nat.succ_pos _)
    have hoff : sramOff (a + j) = sramOff a + j := by
      rw [sramOff_of_isSram hj, sramOff_of_isSram ha, Nat.sub_add_comm (isSram_iff.mp ha).1]
    rw [List.zipIdx_cons, List.foldl_cons, ih _ (j + 1) (fun i hi => Nat.add_right_comm j 1 i ▸ h (i + 1) (Nat.succ_lt_succ hi)),
      State.memStoreByte_sram hj, hoff]
    rfl

/-- They leave DRAM and eNVM alone. -/
theorem State.memStoreBytes_others (bs : List Byte) (x : Nat) : ∀ (s : State) (j : Nat), (∀ i < bs.length, isSram (a + (j + i)) = true) →
    ((bs.zipIdx j).foldl (fun t p => t.memStoreByte (a + p.2) p.1) s).dramB x = s.dramB x ∧
    ((bs.zipIdx j).foldl (fun t p => t.memStoreByte (a + p.2) p.1) s).envB x = s.envB x := by
  induction bs with
  | nil => intro s j _; exact ⟨rfl, rfl⟩
  | cons b bs ih =>
    intro s j h
    have hj : isSram (a + j) = true := h 0 (Nat.succ_pos _)
    obtain ⟨hd, he⟩ := ih (s.memStoreByte (a + j) b) (j + 1) (fun i hi => Nat.add_right_comm j 1 i ▸ h (i + 1) (Nat.succ_lt_succ hi))
    exact ⟨hd.trans (State.memStoreByte_dramB hj b x), he.trans (State.memStoreByte_envB hj b x)⟩

end

/-! ### A store in SRAM that meets no uncorrectable word -/

/-- The state in which such a store writes its bytes: the errors that it met are counted, and the words that it writes hold none. -/
def State.storeReady (s : State) (a n : Nat) : State :=
  (wordsOf a n).foldl (fun t k => (k :: s.rmwWords a n k).foldl (fun t j => t.setEcc j 0) t)
    (s.countWords ((wordsOf a n).flatMap (s.rmwWords a n)).eraseDups)

section
variable {s : State} {a n k : Nat}

/-- Neither errors counted nor errors cleared change a byte. -/
theorem State.storeReady_sameMemory (s : State) (a n : Nat) : s.sameMemory (s.storeReady a n) :=
  foldl_stable (State.countWords_stable (memory_keep s).toKeepCore s _ s.sameMemory_refl)
    (fun _ _ h => foldl_stable h (fun t j ht => State.setEcc_stable (memory_keep s).toKeepCore t j 0 ht))

theorem State.wordFenced_of_isSram (h : isSram (8 * k) = true) : s.wordFenced k = false := by
  rw [State.wordFenced, isDram_of_isSram h, Bool.false_and]

theorem State.storeCheck_of_isSram (h : isSram (8 * k) = true) : s.storeCheck k = s := by
  simp only [State.storeCheck, h, Bool.true_or, if_true]

/-- No part of a store is discarded where no word is uncorrectable and the word lies in SRAM. -/
theorem State.store_not_bad (hue : ∀ k, s.eccOf k ≠ 2) (h : isSram (8 * k) = true) :
    (s.wordFenced k || (s.rmwWords a n k).any (fun j => s.eccOf j == 2)) = false := by
  rw [State.wordFenced_of_isSram h, Bool.false_or, List.any_eq_false]
  intro j _
  exact fun hj => hue j (beq_iff_eq.mp hj)

/-- The store completes, and its bytes are written one after the other. -/
theorem State.memStore_of_isSram {bs : List Byte} (h0 : isSram a = true) (h1 : isSram (a + (bs.length - 1)) = true)
    (hue : ∀ k, s.eccOf k ≠ 2) : s.memStore a bs =
      (bs.zipIdx.foldl (fun t p => t.memStoreByte (a + p.2) p.1) (s.storeReady a bs.length), true) := by
  have hword (k : Nat) (hk : k ∈ wordsOf a bs.length) : isSram (8 * k) = true := isSram_of_mem_wordsOf h0 h1 hk
  have hbyte (p : Byte × Nat) (hp : p ∈ bs.zipIdx) : isSram (8 * ((a + p.2) / 8)) = true := by
    have hlt : p.2 < bs.length := List.snd_lt_of_mem_zipIdx hp
    exact isSram_word (isSram_between h0 h1 (Nat.le_add_right ..) (by omega))
  unfold State.memStore
  extract_lets n ks bad rmw s1 s2 s3
  have hbad {k : Nat} (h : isSram (8 * k) = true) : bad k = false := State.store_not_bad hue h
  have hrmw (k : Nat) (hk : k ∈ ks) : rmw k = s.rmwWords a n k := if_neg (ne_true_of_eq_false (State.wordFenced_of_isSram (hword k hk)))
  have h2 : s2 = s.storeReady a n := by
    have hcounted : s1 = s.countWords (ks.flatMap (s.rmwWords a n)).eraseDups := by rw [← List.flatMap_congr hrmw]
    show ks.foldl _ s1 = _
    rw [hcounted]
    refine List.foldl_ext _ _ _ (fun t k hk => ?_)
    rw [hbad (hword k hk), if_neg Bool.false_ne_true, hrmw k hk]
  have h3 : s3 = bs.zipIdx.foldl (fun t p => t.memStoreByte (a + p.2) p.1) (s.storeReady a n) := by
    rw [← h2]
    exact List.foldl_ext _ _ _ (fun t p hp => if_neg (ne_true_of_eq_false (hbad (hbyte p hp))))
  have hchecks : ks.foldl (fun s k => if bad k then s else s.storeCheck k) s3 = s3 := by
    refine (List.foldl_ext _ (fun t _ => t) _ (fun t k hk => ?_)).trans (List.foldl_fixed _)
    rw [State.storeCheck_of_isSram (hword k hk), ite_self]
  have hnone : ks.any bad = false := List.any_eq_false.mpr (fun k hk => ne_true_of_eq_false (hbad (hword k hk)))
  rw [hchecks, hnone, h3]
  rfl

end

/-- Settles O17: the store is its bytes written from the offset of the first, in a state with the same memories. -/
theorem memoryStoreRule : Obligations.MemoryStoreRule := by
  unfold Obligations.MemoryStoreRule
  intro s a b hne h0 h1 hue
  have hpos : 0 < b.length := List.length_pos_iff.mpr hne
  have hbytes (i : Nat) (hi : i < b.length) : isSram (a + (0 + i)) = true :=
    isSram_between h0 h1 (Nat.le_add_right ..) (by omega)
  rw [State.memStore_of_isSram h0 h1 hue]
  refine ⟨rfl, fun x => ?stored, fun x => ?others⟩
  case stored =>
    rw [← (s.storeReady_sameMemory a b.length x).1, State.sramB, State.memStoreBytes_sram h0 b _ 0 hbytes]
    exact storeGet_putBytes ramDflt b _ (sramOff a) x
  case others =>
    obtain ⟨_, hd, he⟩ := s.storeReady_sameMemory a b.length x
    obtain ⟨hd', he'⟩ := State.memStoreBytes_others b x (s.storeReady a b.length) 0 hbytes
    exact ⟨hd'.trans hd, he'.trans he⟩

end Sys2Proof.Machine
end

section
/-! PROOFS. Scope, memory traffic: requests and their queues, command selection, read data, refresh debt (R289 to R297). -/
namespace Sys2Proof.Machine

section
variable {s : State}

/-! ### Requests (R288, R289) -/

/-- A channel that works and is not fenced takes requests. -/
theorem State.channel_takes {c : Nat} (hw : s.works = true) (hst : s.mcState c ≠ mcFENCED) : ¬ (s.works = false ∨ s.mcState c = mcFENCED) :=
  fun h => h.elim (ne_false_of_eq_true hw) hst

section
variable {off : BitVec 35} {src : MemSrc} {pos : Fin 64} {b : List Byte} {pl : DramPlace}

theorem execMemoryRequest_read (hpl : pl = dramPlace s.surv (off.toNat / 64 * 64)) (hcap : off.toNat / 64 * 64 < s.capacity)
    (hw : s.works = true) (hst : s.mcState pl.channel ≠ mcFENCED) (hroom : (s.sub pl.channel pl.sub).rq.length < 64) :
    execMemoryRequest off src false pos b s = .next (s.begin.modSub pl.channel pl.sub (fun x => { x with
      rq := x.rq ++ [({ write := false, off := off.toNat / 64 * 64, src := src, num := (s.sub pl.channel pl.sub).count, pos := pos.val,
                        bytes := b.take (64 - pos.val) } : McReq)], count := x.count + 1 })) := by
  subst hpl
  refine congrArg Host.Outcome.next ((guard_true (decide_eq_true hcap) _).trans ?_)
  exact (if_neg (State.channel_takes (s := s.begin) hw hst)).trans ((if_neg Bool.false_ne_true).trans (if_neg (Nat.not_le.mpr hroom)))

theorem execMemoryRequest_write (hpl : pl = dramPlace s.surv (off.toNat / 64 * 64)) (hcap : off.toNat / 64 * 64 < s.capacity)
    (hw : s.works = true) (hst : s.mcState pl.channel ≠ mcFENCED) (hroom : (s.sub pl.channel pl.sub).wq.length < 32) :
    execMemoryRequest off src true pos b s = .next ((s.begin.modSub pl.channel pl.sub (fun x => { x with
      wq := x.wq ++ [({ write := true, off := off.toNat / 64 * 64, src := src, num := (s.sub pl.channel pl.sub).count, pos := pos.val,
                        bytes := b.take (64 - pos.val) } : McReq)], count := x.count + 1 })).updateDrain pl.channel pl.sub) := by
  subst hpl
  refine congrArg Host.Outcome.next ((guard_true (decide_eq_true hcap) _).trans ?_)
  exact (if_neg (State.channel_takes (s := s.begin) hw hst)).trans ((if_pos rfl).trans (if_neg (Nat.not_le.mpr hroom)))

end

/-! ### Command selection (R290, R294) -/

section
variable {v : State} {ch : Fin 4} {sc : Fin 2} {pb : Option (Fin 16)} {idle : Bool} {ups : List (BitVec 36 × Bool)}

/-- Commands are selected for a channel that is RUNNING or in a retrain. -/
theorem State.mcSelects (hw : v.works = true) (hst : v.mcState ch = mcRUNNING ∨ v.mcState ch = mcRETRAIN) :
    (v.works && (v.mcState ch == mcRUNNING || v.mcState ch == mcRETRAIN)) = true := by
  rw [hw, Bool.true_and, Bool.or_eq_true, beq_iff_eq, beq_iff_eq]
  exact hst

/-- The next access of a burst in progress is issued before anything else. -/
theorem execCommandSelect_burst {r : McReq} {rest : List McReq} (hv : v = s.begin.upset ups) (hw : v.works = true)
    (hst : v.mcState ch = mcRUNNING ∨ v.mcState ch = mcRETRAIN) (hb : (v.sub ch sc).burst = r :: rest) :
    execCommandSelect ch sc pb idle ups s = .next ((v.modSub ch sc (fun x => { x with burst := rest })).issue ch sc r) := by
  subst hv
  refine congrArg Host.Outcome.next ((guard_true (State.mcSelects hw hst) _).trans ?_)
  have hbusy : ¬ (((s.begin.upset ups).sub ch sc).burst = [] ∧ 8 ≤ ((s.begin.upset ups).sub ch sc).debt) := by
    rw [hb]
    exact fun h => List.cons_ne_nil r rest h.1
  rw [if_neg hbusy]
  simp only [hb]

/-- Between bursts a debt of 8 forces an all-bank refresh. -/
theorem execCommandSelect_forced (hv : v = s.begin.upset ups) (hw : v.works = true)
    (hst : v.mcState ch = mcRUNNING ∨ v.mcState ch = mcRETRAIN) (hb : (v.sub ch sc).burst = []) (hd : 8 ≤ (v.sub ch sc).debt) :
    execCommandSelect ch sc pb idle ups s =
      .next ((((v.refreshAb ch sc 1).bumpEv (rREF_FORCED ch) 1).showDebt ch).driftInRefresh ch true) := by
  subst hv
  exact congrArg Host.Outcome.next ((guard_true (State.mcSelects hw hst) _).trans (if_pos ⟨hb, hd⟩))

end

/-! ### Read data (R297, R299) -/

theorem State.readBack_clean {r : McRead} (ch : Nat) (h : r.errs = []) : s.readBack ch r = s := by
  rw [State.readBack, h]
  rfl

theorem McRead.failed_clean {r : McRead} (h : r.errs = []) : r.failed = false := by
  rw [McRead.failed, h]
  rfl

theorem execMemoryReadData_clean {ch : Fin 4} {sc : Fin 2} {r : McRead} {rest : List McRead} (hb : (s.sub ch sc).back = r :: rest)
    (he : r.errs = []) : execMemoryReadData ch sc s =
      .next ((s.begin.modSub ch sc (fun x => { x with back := rest })).answer (.bytes r.bytes)) := by
  have hback : (s.begin.sub ch sc).back = r :: rest := hb
  simp only [execMemoryReadData, hback, State.readBack_clean _ he, McRead.failed_clean he, Bool.false_eq_true, if_false]

/-! ### PANIC (R292) -/

/-- A controller that saw no panic counts no cycles of it, and takes the pipes' flags. -/
theorem execPanicFlagChange_calm {ch : Fin 4} {n : Nat} (h : s.mcPanic ch = 0) : execPanicFlagChange ch n s = .next (
    let v := (List.range 8).foldl (fun a p => if s.on (rFETCH_STAT p) fFETCH_STAT_PANIC then a + 2 ^ p else a) 0
    let s2 : State := { s.begin with mem := { s.mem with panic := storePut (fun _ => 0) s.mem.panic ch v } }
    ((s2.updateDrain ch 0).updateDrain ch 1).showScrub) := by
  have hcalm : s.begin.mcPanic ch = 0 := h
  simp only [execPanicFlagChange, if_pos hcalm]
  rfl

end

/-- Settles O51: requests past the map and the room in their queue, selection past the channel's state, the rest past their checks. -/
theorem memoryTrafficCommandsComplete : Obligations.MemoryTrafficCommandsComplete := by
  unfold Obligations.MemoryTrafficCommandsComplete
  refine ⟨?read, ?write, ?burst, ?forced, ?readData, ?age, ?panic, ?trefi, ?factor, ?clear⟩
  case read =>
    intro off src pos b s pl hpl hcap hw hst hroom
    exact execMemoryRequest_read hpl hcap hw hst hroom
  case write =>
    intro off src pos b s pl hpl hcap hw hst hroom
    exact execMemoryRequest_write hpl hcap hw hst hroom
  case burst =>
    intro ch sc pb idle ups r rest s v hv hw hst hb
    exact execCommandSelect_burst hv hw hst hb
  case forced =>
    intro ch sc pb idle ups s v hv hw hst hb hd
    exact execCommandSelect_forced hv hw hst hb hd
  case readData =>
    intro ch sc r rest s hb he
    exact execMemoryReadData_clean hb he
  case age =>
    intro ch sc write k s
    rfl
  case panic =>
    intro ch n s h
    exact execPanicFlagChange_calm h
  case trefi =>
    intro ch sc s hw
    exact congrArg Host.Outcome.next (guard_true hw _)
  case factor =>
    intro ch f s hw
    exact congrArg Host.Outcome.next (guard_true hw _)
  case clear =>
    intro ch s
    rfl

end Sys2Proof.Machine
end

section
/-! PROOFS. Scope, memory control: training, retraining, the map, drift tracking, the patrol scrubber (R280 to R288, R292, R298, R300). -/
namespace Sys2Proof.Machine

section
variable {s : State} {ch : Fin 4}

/-! ### Training and retraining (R282, R283, R287, R288) -/

theorem State.wrMcCtrl_train (h : s.mcState ch = mcOFF) : s.wrMcCtrl ch (wBit 0 fMC_CTRL_TRAIN) = s.toMc ch mcTRAINING := by
  simp (disch := decide) only [State.wrMcCtrl, getFld_wBit_same, getFld_wBit_zero_ne, h, ne_eq, not_true_eq_false, Nat.zero_ne_one, true_and,
    false_and, or_self, if_true, if_false]

theorem State.wrMcCtrl_retrain (h : s.mcState ch = mcRUNNING) : s.wrMcCtrl ch (wBit 0 fMC_CTRL_RETRAIN) = s.startRetrain ch := by
  simp (disch := decide) only [State.wrMcCtrl, getFld_wBit_same, getFld_wBit_zero_ne, h, ne_eq, not_true_eq_false, Nat.zero_ne_one, true_and,
    false_and, or_self, if_true, if_false]

/-- The end of a training or a retrain is taken in the state that it ends. -/
theorem State.works_in {k : Nat} (hw : s.works = true) (hst : s.mcState ch = k) : (s.works && s.mcState ch == k) = true := by
  rw [hw, hst, beq_self_eq_true, Bool.and_self]

section
variable {d : Fin 4} {levelled rfm : Bool} {lanes : List LaneSweep}

/-- A channel of the configured density whose lanes all pass runs. -/
theorem execChannelTrained_runs (hw : s.works = true) (hst : s.mcState ch = mcTRAINING)
    (hd : (s.wr (rMC_STAT ch) fMC_STAT_RFM_SUP (b2n rfm)).rd (rMC_CFG ch) fMC_CFG_CAP = d.val)
    (hl : (s.wr (rMC_STAT ch) fMC_STAT_RFM_SUP (b2n rfm)).failedLanes ch lanes = 0) :
    execChannelTrained ch d true rfm lanes s =
      .next (((s.begin.wr (rMC_STAT ch) fMC_STAT_RFM_SUP (b2n rfm)).showLanes ch lanes).toMc ch mcRUNNING) :=
  congrArg Host.Outcome.next ((guard_true (State.works_in (s := s.begin) hw hst) _).trans
    ((if_neg (not_not_intro hd.symm)).trans ((if_neg nofun).trans (if_pos hl))))

/-- A channel of another density is fenced. -/
theorem execChannelTrained_density (hw : s.works = true) (hst : s.mcState ch = mcTRAINING)
    (hd : (s.wr (rMC_STAT ch) fMC_STAT_RFM_SUP (b2n rfm)).rd (rMC_CFG ch) fMC_CFG_CAP ≠ d.val) :
    execChannelTrained ch d levelled rfm lanes s =
      .next (((((s.begin.wr (rMC_STAT ch) fMC_STAT_RFM_SUP (b2n rfm)).wr (rMC_STAT ch) fMC_STAT_FENCE_CAUSE 3).wr (rMC_STAT ch)
        fMC_STAT_LANE_FAIL 0).toMc ch mcFENCED).showDegraded) :=
  congrArg Host.Outcome.next ((guard_true (State.works_in (s := s.begin) hw hst) _).trans (if_pos hd.symm))

theorem execRetrainDone_runs (hw : s.works = true) (hst : s.mcState ch = mcRETRAIN) (hl : s.failedLanes ch lanes = 0) :
    execRetrainDone ch true lanes s = .next ((s.begin.showLanes ch lanes).toMc ch mcRUNNING) :=
  congrArg Host.Outcome.next ((guard_true (State.works_in (s := s.begin) hw hst) _).trans
    ((if_neg nofun).trans (if_pos hl)))

theorem execRetrainDone_fences (hw : s.works = true) (hst : s.mcState ch = mcRETRAIN) :
    execRetrainDone ch false lanes s = .next (s.begin.fenceRun ch 0) :=
  congrArg Host.Outcome.next ((guard_true (State.works_in (s := s.begin) hw hst) _).trans (if_pos rfl))

end

/-! ### Drift tracking (R285, R292) -/

section
variable {late : Bool} {runs : List LaneRun} {r0 r1 : Fin 17}

theorem State.drift_tracks (hw : s.works = true) (hst : s.mcState ch = mcRUNNING) (hen : s.on (rDRIFT_CFG ch) fDRIFT_CFG_EN = true) :
    (s.works && s.driftOn ch) = true := by
  rw [State.driftOn, hen, Bool.and_true]
  exact State.works_in hw hst

/-- A tracking step in which no lane fails moves every lane. -/
theorem State.trackStep_moves (hgood : ∀ k < 4,
      s.driftBad ch (rLANE_RD ch k) (s.driftRun (rLANE_RD ch k) (runs.getD k ⟨(0, 0), (0, 0)⟩).rd) = false ∧
      s.driftBad ch (rLANE_WR ch k) (s.driftRun (rLANE_WR ch k) (runs.getD k ⟨(0, 0), (0, 0)⟩).wr) = false) :
    s.trackStep ch runs = overN 4 (fun k t =>
      (t.driftMove (rLANE_RD ch k) (s.driftRun (rLANE_RD ch k) (runs.getD k ⟨(0, 0), (0, 0)⟩).rd)).driftMove (rLANE_WR ch k)
        (s.driftRun (rLANE_WR ch k) (runs.getD k ⟨(0, 0), (0, 0)⟩).wr)) s := by
  unfold State.trackStep
  extract_lets run bad
  have hnone : bad = [] := by
    refine List.filter_eq_nil_iff.mpr (fun k hk => ne_true_of_eq_false ?_)
    obtain ⟨hrd, hwr⟩ := hgood k (List.mem_range.mp hk)
    exact Bool.or_eq_false_iff.mpr ⟨hrd, hwr⟩
  rw [hnone]
  rfl

/-- Under panic a step that comes due waits. -/
theorem execDriftStep_waits (hw : s.works = true) (hst : s.mcState ch = mcRUNNING) (hen : s.on (rDRIFT_CFG ch) fDRIFT_CFG_EN = true)
    (hp : s.mcPanic ch ≠ 0) : execDriftStep ch late runs r0 r1 s = .next (s.begin.setDrift ch (some (late, runs))) :=
  congrArg Host.Outcome.next ((guard_true (State.drift_tracks (s := s.begin) hw hst hen) _).trans (if_pos (.inl hp)))

/-- Without panic and between bursts it makes its refreshes and measures the lanes. -/
theorem execDriftStep_tracks (hw : s.works = true) (hst : s.mcState ch = mcRUNNING) (hen : s.on (rDRIFT_CFG ch) fDRIFT_CFG_EN = true)
    (hp : s.mcPanic ch = 0) (hb0 : (s.sub ch 0).burst = []) (hb1 : (s.sub ch 1).burst = []) :
    execDriftStep ch late runs r0 r1 s =
      .next (((((s.begin.setDrift ch none).driftRefresh ch 0 r0).driftRefresh ch 1 r1).showDebt ch).trackStep ch runs) := by
  have hfree : ¬ (s.begin.mcPanic ch ≠ 0 ∨ (s.begin.sub ch 0).burst ≠ [] ∨ (s.begin.sub ch 1).burst ≠ []) := by
    rintro (h | h | h)
    · exact h hp
    · exact h hb0
    · exact h hb1
  exact congrArg Host.Outcome.next ((guard_true (State.drift_tracks (s := s.begin) hw hst hen) _).trans (if_neg hfree))

end

/-! ### The patrol scrubber (R300) -/

section
variable {o n : Nat}

/-- A step within the pass scrubs a block and goes on to the next one. -/
theorem State.patrolStep_within (ho : s.patrolFrom s.mem.patrol = some o) (hn : s.patrolFrom (o + 64) = some n) (hf : s.dramFenced o = false) :
    s.patrolStep.1 = State.showScrub { s.scrubBlock (dramBase + o) with mem := { (s.scrubBlock (dramBase + o)).mem with patrol := n } } := by
  simp only [State.patrolStep, ho, hn, hf, Bool.false_eq_true, if_false]

theorem execPatrolScrubStep_periodic {ups : List (BitVec 36 × Bool)} {v : State} (hv : v = s.begin.upset ups) (hr : v.scrubRuns = true)
    (hp : v.mem.opPass ≠ 1) : execPatrolScrubStep ups s = .next v.patrolStep.1 := by
  subst hv
  exact congrArg Host.Outcome.next ((guard_true hr _).trans (if_pos hp))

end

end

/-- Settles O52: MC_CTRL by its command bit; the ends of training and retrain, drift and patrol steps by what they find. -/
theorem memoryControlCommandsComplete : Obligations.MemoryControlCommandsComplete := by
  unfold Obligations.MemoryControlCommandsComplete
  refine ⟨?train, ?retrain, ?trained, ?density, ?retrained, ?retrainFails, ?build, ?drift, ?driftWaits, ?eccMap, ?eccInit, ?patrol⟩
  case train =>
    intro who ch s h hst
    exact congrArg Host.Outcome.next ((write_ok h _).trans (State.wrMcCtrl_train (s := s.accepted) hst))
  case retrain =>
    intro who ch s h hst
    exact congrArg Host.Outcome.next ((write_ok h _).trans (State.wrMcCtrl_retrain (s := s.accepted) hst))
  case trained =>
    intro ch d rfm lanes s hw hst hd hl
    exact execChannelTrained_runs hw hst hd hl
  case density =>
    intro ch d levelled rfm lanes s hw hst hd
    exact execChannelTrained_density hw hst hd
  case retrained =>
    intro ch lanes s hw hst hl
    exact execRetrainDone_runs hw hst hl
  case retrainFails =>
    intro ch lanes s hw hst
    exact execRetrainDone_fences hw hst
  case build =>
    intro who s h
    exact congrArg Host.Outcome.next (write_ok h _)
  case drift =>
    intro ch late runs r0 r1 s v hw hst hen hp hb0 hb1 hv hgood
    subst hv
    exact (execDriftStep_tracks hw hst hen hp hb0 hb1).trans (congrArg Host.Outcome.next (State.trackStep_moves hgood))
  case driftWaits =>
    intro ch late runs r0 r1 s hw hst hen hp
    exact execDriftStep_waits hw hst hen hp
  case eccMap =>
    intro who k w s h
    exact congrArg Host.Outcome.next (write_ok h _)
  case eccInit =>
    intro s
    rfl
  case patrol =>
    intro ups s v o n hv hr hp ho hn hf
    exact (execPatrolScrubStep_periodic hv hr hp).trans (congrArg Host.Outcome.next (State.patrolStep_within ho hn hf))

end Sys2Proof.Machine
end

section
/-! PROOFS. Scope, on-chip memory and eNVM: keeper commands and their end, wear map, log compaction, the SRAM scrubber (R308, R310, R312 to R314,
R317, R318). -/
namespace Sys2Proof.Machine

section
variable {s : State}

/-! ### Keeper commands (R312, R313, R318) -/

theorem nvmCmdWord_op {op k : Nat} (hop : op < 4) : getFld (nvmCmdWord op k) fNVM_CMD_OP = op :=
  (getFld_putFld_ne _ _ _ _ (by decide)).trans (getFld_putFld_of_lt (by decide) hop)

theorem nvmCmdWord_sector {op k : Nat} (hk : k < 256) : getFld (nvmCmdWord op k) fNVM_CMD_SECTOR = k :=
  getFld_putFld_of_lt (by decide) hk

/-- A command is taken while none runs, in a sector that it may change, and of PROGRAM in a line that is not programmed. -/
theorem State.wrNvmCmd_takes {op k : Nat} (hop : op < 4) (hne : op ≠ 0) (hk : k < 256) (hb : s.on rNVM_STAT fNVM_STAT_BUSY = false)
    (hsec : op = 3 ∨ k < 162) (hline : op = 2 → s.nvm.lines.contains (k * 128 + s.rd rNVM_ADDR fNVM_ADDR_LINE) = false) :
    s.wrNvmCmd (nvmCmdWord op k) = (s.modNvm (fun x => { x with
      op := some ⟨op, k, s.rd rNVM_ADDR fNVM_ADDR_LINE,
        if op = 2 then (List.range 128).flatMap (fun i => bytesLE 4 (s.rw (rNVM_BUF i)).toNat) else []⟩ })).wr rNVM_STAT fNVM_STAT_BUSY 1 := by
  have hsector : (op != 3 && decide (162 ≤ k)) = false := by
    rcases hsec with rfl | hlt
    · rfl
    · rw [decide_eq_false hlt.not_ge, Bool.and_false]
  have hfresh : (op == 2 && s.nvm.lines.contains (k * 128 + s.rd rNVM_ADDR fNVM_ADDR_LINE)) = false := by
    by_cases h2 : op = 2
    · rw [hline h2, Bool.and_false]
    · rw [beq_false_of_ne h2, Bool.false_and]
  simp only [State.wrNvmCmd, nvmCmdWord_op hop, nvmCmdWord_sector hk, hne, hb, hsector, hfresh, Bool.or_self, Bool.false_eq_true, if_false]

/-! ### The end of a command (R312, R313, R318) -/

section
variable {o : NvmOp} {f : Bool}

/-- A command that SAVING has not suspended ends, and the reads that waited are served. -/
theorem execNvmOperationDone_ends {t : State} (ho : s.nvm.op = some o) (hs : s.on rNVM_STAT fNVM_STAT_SUSPENDED = false)
    (hdone : s.begin.nvmDone o f = t) : execNvmOperationDone f s = .next t.serveReads := by
  simp only [execNvmOperationDone, State.begin_nvm, State.begin_on_of, ho, hs, hdone, Bool.false_eq_true, if_false]

theorem State.nvmDone_blankCheck (hop : o.op = 3) :
    s.nvmDone o f = ((s.modNvm (fun x => { x with op := none })).wr rNVM_STAT fNVM_STAT_BUSY 0).wr rNVM_STAT fNVM_STAT_FAIL
      (b2n (s.env.any (fun p => decide (p.1 / 65536 = o.sector)))) := if_pos hop

/-- In a retired sector an erase or a program does nothing and fails (log entry 91). -/
theorem State.nvmDone_retired (hop : o.op ≠ 3) (hr : s.nvm.retired.contains o.sector = true) :
    s.nvmDone o f = ((s.modNvm (fun x => { x with op := none })).wr rNVM_STAT fNVM_STAT_BUSY 0).wr rNVM_STAT fNVM_STAT_FAIL 1 :=
  (if_neg hop).trans (if_pos hr)

theorem State.nvmDone_erase (hop : o.op = 1) (hr : s.nvm.retired.contains o.sector = false) :
    s.nvmDone o false =
      (((s.modNvm (fun x => { x with op := none })).wr rNVM_STAT fNVM_STAT_BUSY 0).eraseSector o.sector).wr rNVM_STAT fNVM_STAT_FAIL 0 := by
  simp only [State.nvmDone, hop, hr, OfNat.one_ne_ofNat, Bool.false_eq_true, if_false, if_true, b2n]

theorem State.nvmDone_program (hop : o.op = 2) (hr : s.nvm.retired.contains o.sector = false) :
    s.nvmDone o false = (((s.modNvm (fun x => { x with op := none })).wr rNVM_STAT fNVM_STAT_BUSY 0).wr rNVM_STAT fNVM_STAT_FAIL 0).programLine
      (o.sector * 128 + o.line) o.bytes := by
  simp only [State.nvmDone, hop, hr, Nat.reduceEqDiff, OfNat.ofNat_ne_one, Bool.false_eq_true, if_false, b2n]

end

/-! ### Log compaction (R317) -/

theorem State.compaction_due (hw : s.works = true) (hfree : s.freeLog < 4) : (s.works && decide (s.freeLog < 4)) = true := by
  rw [hw, decide_eq_true hfree, Bool.and_self]

theorem execLogCompaction_none (hw : s.works = true) (hfree : s.freeLog < 4) (hfull : s.fullSectors = []) :
    execLogCompaction s = .next s.begin := by
  have hfull' : s.begin.fullSectors = [] := hfull
  simp only [execLogCompaction, guard_true (State.compaction_due (s := s.begin) hw hfree), hfull']

/-- A full sector that is alone is the one compacted. -/
theorem execLogCompaction_single {k : Nat} (hw : s.works = true) (hfree : s.freeLog < 4) (hfull : s.fullSectors = [k]) :
    execLogCompaction s = .next (s.begin.compactSector k) := by
  have hfull' : s.begin.fullSectors = [k] := hfull
  simp only [execLogCompaction, guard_true (State.compaction_due (s := s.begin) hw hfree), hfull', List.foldl_nil]

/-! ### The SRAM scrubber (R308, R310) -/

/-- A step before the last block of a pass scrubs a block and goes on to the next one. -/
theorem execSramScrubStep_within {late : Bool} {ups : List (BitVec 36 × Bool)} {v : State} (hv : v = s.begin.upset ups) (hw : v.works = true)
    (hen : v.on rMSR_SCRUB fMSR_SCRUB_EN = true) (hp : v.anyPanic = false) (hlast : v.msr.block + 1 < 786432) :
    execSramScrubStep late ups s = .next (
      let s1 := (v.scrubBlock (sramBase + 64 * v.msr.block)).wr rMSR_STAT fMSR_STAT_POS (v.msr.block / 1024)
      { s1 with msr := { s1.msr with block := v.msr.block + 1 } }) := by
  subst hv
  have hruns : ((s.begin.upset ups).works && (s.begin.upset ups).on rMSR_SCRUB fMSR_SCRUB_EN && !(s.begin.upset ups).anyPanic) = true := by
    rw [hw, hen, hp, Bool.and_self, Bool.not_false, Bool.and_self]
  exact congrArg Host.Outcome.next ((guard_true hruns _).trans (if_pos hlast))

end

/-- Settles O53: a command by its check, its end by its operation, the periodic steps by what they find; a retired sector as log entry 91 reads it. -/
theorem nvmCommandsComplete : Obligations.NvmCommandsComplete := by
  unfold Obligations.NvmCommandsComplete
  refine ⟨?erase, ?program, ?blankCheck, ?erased, ?programmed, ?retired, ?blankChecked, ?wear, ?compactNone, ?compactOne, ?scrub⟩
  case erase =>
    intro who k s h hb hk
    exact congrArg Host.Outcome.next ((write_ok h _).trans
      (State.wrNvmCmd_takes (s := s.accepted) (by decide) (by decide) k.isLt hb (.inr hk) nofun))
  case program =>
    intro who k s h hb hk hline
    exact congrArg Host.Outcome.next ((write_ok h _).trans
      (State.wrNvmCmd_takes (s := s.accepted) (by decide) (by decide) k.isLt hb (.inr hk) (fun _ => hline)))
  case blankCheck =>
    intro who k s h hb
    exact congrArg Host.Outcome.next ((write_ok h _).trans
      (State.wrNvmCmd_takes (s := s.accepted) (by decide) (by decide) k.isLt hb (.inl rfl) nofun))
  case erased =>
    intro o s ho hs hop hr
    exact execNvmOperationDone_ends ho hs (State.nvmDone_erase (s := s.begin) hop hr)
  case programmed =>
    intro o s ho hs hop hr
    exact execNvmOperationDone_ends ho hs (State.nvmDone_program (s := s.begin) hop hr)
  case retired =>
    intro o f s ho hs hop hr
    exact execNvmOperationDone_ends ho hs (State.nvmDone_retired (s := s.begin) hop hr)
  case blankChecked =>
    intro o f s ho hs hop
    exact execNvmOperationDone_ends ho hs (State.nvmDone_blankCheck (s := s.begin) hop)
  case wear =>
    intro s hw
    exact congrArg Host.Outcome.next (guard_true (b := s.begin.works) hw _)
  case compactNone =>
    intro s hw hfree hfull
    exact execLogCompaction_none hw hfree hfull
  case compactOne =>
    intro s k hw hfree hfull
    exact execLogCompaction_single hw hfree hfull
  case scrub =>
    intro late ups s v hv hw hen hp hlast
    exact execSramScrubStep_within hv hw hen hp hlast

end Sys2Proof.Machine
end

section
/-! PROOFS. Scope, system: the commands outside the system families leave power, boot, calls, Smiser, the eNVM controller and the memory channels
alone (`sameSystem`); and what a step runs. -/
namespace Sys2Proof.Machine

/-- A command outside the system families keeps every property that speaks neither of the system's state nor of the memories. Each arm is the
law of its command, for the weakest kind of property that the command keeps. -/
theorem exec_keeps_of_not_touchesSystem {P : State → Prop} (hU : KeepUnits P) {i : Instr} {s : State} (hi : touchesSystem i = false) (hs : P s) :
    ∃ t, exec i s = .next t ∧ P t := by
  have hC : KeepCore P := hU.toKeepCore
  cases i with
  | unassignedAccess => exact execUnassignedAccess_stable (hsK := hs) hC ..
  | xclr => exact execXclr_stable (hsK := hs) hC ..
  | clrRefused => exact execClrRefused_stable (hsK := hs) hC ..
  | clrStale => exact execClrStale_stable (hsK := hs) hC ..
  | softwareTally => exact execSoftwareTally_stable (hsK := hs) hC ..
  | arm => exact execArm_stable (hsK := hs) hC ..
  | periodicEn => exact execPeriodicEn_stable (hsK := hs) hC ..
  | periodMs => exact execPeriodMs_stable (hsK := hs) hC ..
  | periodicTimerExpiry => exact execPeriodicTimerExpiry_stable (hsK := hs) hC ..
  | tallyAcknowledge => exact execTallyAcknowledge_stable (hsK := hs) hC ..
  | tallyTimeout => exact execTallyTimeout_stable (hsK := hs) hC ..
  | energyBilling => exact execEnergyBilling_stable (hsK := hs) hC ..
  | timingChangeGo => exact execTimingChangeGo_stable (hsK := hs) hC ..
  | hpdFall => exact execHpdFall_stable (hsK := hs) hU ..
  | hpdStable => exact execHpdStable_stable (hsK := hs) hU ..
  | faultRetry => exact execFaultRetry_stable (hsK := hs) hU ..
  | laneStatusRead => exact execLaneStatusRead_stable (hsK := hs) hU ..
  | auxGo => exact execAuxGo_stable (hsK := hs) hU ..
  | auxReply => exact execAuxReply_stable (hsK := hs) hU ..
  | auxReplyTimeout => exact execAuxReplyTimeout_stable (hsK := hs) hU ..
  | syncSrcWrite => exact execSyncSrcWrite_stable (hsK := hs) hU ..
  | realign => exact execRealign_stable (hsK := hs) hU ..
  | referenceEdge => exact execReferenceEdge_stable (hsK := hs) hU ..
  | missingFrame => exact execMissingFrame_stable (hsK := hs) hU ..
  | syncOutPulseEnd => exact execSyncOutPulseEnd_stable (hsK := hs) hC ..
  | verticalBlankingStart => exact execVerticalBlankingStart_stable (hsK := hs) hU ..
  | lutWindowWrite => exact execLutWindowWrite_stable (hsK := hs) hC ..
  | awningFaultMasked => exact execAwningFaultMasked_stable (hsK := hs) hC ..
  | afclr => exact execAfclr_stable (hsK := hs) hC ..
  | layerCommit => exact execLayerCommit_stable (hsK := hs) hU ..
  | layerCancel => exact execLayerCancel_stable (hsK := hs) hU ..
  | pipeCommit => exact execPipeCommit_stable (hsK := hs) hU ..
  | lockstepRequest => exact execLockstepRequest_stable (hsK := hs) hU ..
  | cancelPipe => exact execCancelPipe_stable (hsK := hs) hU ..
  | cancelLock => exact execCancelLock_stable (hsK := hs) hU ..
  | awningCommit => exact execAwningCommit_stable (hsK := hs) hU ..
  | awningCancel => exact execAwningCancel_stable (hsK := hs) hU ..
  | krelRelease => exact execKrelRelease_stable (hsK := hs) hU ..
  | krelReject => exact execKrelReject_stable (hsK := hs) hU ..
  | fvalWrite => exact execFvalWrite_stable (hsK := hs) hC ..
  | fadd => exact execFadd_stable (hsK := hs) hC ..
  | pcfgWrite => exact execPcfgWrite_stable (hsK := hs) hC ..
  | pitchCommit => exact execPitchCommit_stable (hsK := hs) hU ..
  | pitchClear => exact execPitchClear_stable (hsK := hs) hU ..
  | expCtl => exact execExpCtl_stable (hsK := hs) hU ..
  | sealPeriodWrite => exact execSealPeriodWrite_stable (hsK := hs) hU ..
  | sealPeriodExpiry => exact execSealPeriodExpiry_stable (hsK := hs) hU ..
  | ledgerSubmit => exact execLedgerSubmit_stable (hsK := hs) hU ..
  | longUnit => exact execLongUnit_stable (hsK := hs) hU ..
  | tinv => exact execTinv_stable (hsK := hs) hC ..
  | tinvDone => exact execTinvDone_stable (hsK := hs) hC ..
  | ownerTableWrite => exact execOwnerTableWrite_stable (hsK := hs) hU ..
  | scfgWrite => exact execScfgWrite_stable (hsK := hs) hC ..
  | imaskWrite => exact execImaskWrite_stable (hsK := hs) hC ..
  | mailboxResponse => exact execMailboxResponse_stable (hsK := hs) hC ..
  | doorbell => exact execDoorbell_stable (hsK := hs) hU ..
  | queueDisable => exact execQueueDisable_stable (hsK := hs) hU ..
  | queueEnable => exact execQueueEnable_stable (hsK := hs) hU ..
  | qbaseWrite => exact execQbaseWrite_stable (hsK := hs) hU ..
  | kevtRead => exact execKevtRead_stable (hsK := hs) hC ..
  | train => exact execTrain_stable (hsK := hs) hC ..
  | channelTrained => exact execChannelTrained_stable (hsK := hs) hC ..
  | retrain => exact execRetrain_stable (hsK := hs) hC ..
  | refreshFactorRead => exact execRefreshFactorRead_stable (hsK := hs) hC ..
  | eccInitDone => exact execEccInitDone_stable (hsK := hs) hC ..
  | channelDisable => exact execChannelDisable_stable (hsK := hs) hU ..
  | channelEnable => exact execChannelEnable_stable (hsK := hs) hU ..
  | chDb => exact execChDb_stable (hsK := hs) hU ..
  | dmThaw => exact execDmThaw_stable (hsK := hs) hU ..
  | resetRun => exact execResetRun_stable (hsK := hs) hC ..
  | scanOpportunity => exact execScanOpportunity_stable (hsK := hs) hU ..
  | recal => exact execRecal_stable (hsK := hs) hU ..
  | feLfclr => exact execFeLfclr_stable (hsK := hs) hC ..
  | tdmFrame => exact execTdmFrame_stable (hsK := hs) hU ..
  | lraHalfPeriod => exact execLraHalfPeriod_stable (hsK := hs) hU ..
  | bemfZeroCrossing => exact execBemfZeroCrossing_stable (hsK := hs) hU ..
  | pgDrop => exact execPgDrop_stable (hsK := hs) hC ..
  | vkindRead => exact execVkindRead_stable (hsK := hs) hC ..
  | svcVrecRead => exact execSvcVrecRead_stable (hsK := hs) hC ..
  | chFaultKindRead => exact execChFaultKindRead_stable (hsK := hs) hC ..
  | _ => exact Bool.noConfusion hi

theorem State.sameSystem_refl (s : State) : s.sameSystem s := ⟨rfl, rfl, rfl, rfl, rfl, rfl⟩

/-- Settles O5: to have the system's state of a given state is a property that every command outside the system families keeps. -/
theorem systemFrame : Obligations.SystemFrame := by
  unfold Obligations.SystemFrame
  intro i s t hi ht
  obtain ⟨u, hu, hsame⟩ := exec_keeps_of_not_touchesSystem (system_keep s) hi s.sameSystem_refl
  rw [hu] at ht
  cases ht
  exact hsame

/-! ### A step -/

theorem step_cons {i : Instr} {q : List Instr} {s : State} (h : s.pending = i :: q) : step s = exec i { s with pending := q } := by
  rw [step, h]

theorem step_nil {s : State} (h : s.pending = []) : step s = .next s.idle := by
  rw [step, h]

/-- With no heartbeat and no frame waiting for the field network, the block idles where it is. -/
theorem State.idle_of_nothing_waits {s : State} (hb : s.sm.hbDue = false) (ht : s.sm.tx = []) : s.idle = s := by
  rw [State.idle, hb, ht, if_neg Bool.false_ne_true, ite_self]

/-- Settles O7: a step follows the queue, and where nothing waits to go out, idling changes nothing. -/
theorem stepRunsFront : Obligations.StepRunsFront := by
  unfold Obligations.StepRunsFront
  refine ⟨?front, ?empty, ?nothing⟩
  case front =>
    intro i q s h
    exact step_cons h
  case empty =>
    intro s h
    exact step_nil h
  case nothing =>
    intro s h hb ht
    rw [step_nil h, State.idle_of_nothing_waits hb ht]

end Sys2Proof.Machine
end

section
/-! PROOFS. Scope, data movers: doorbell and thaw of a channel (R329, R330), its end by the disable limit (R331), RESET_RUN (R338, R340), and the
course of a descriptor (R324 to R328). -/
namespace Sys2Proof.Machine

section
variable {s : State} {n : Nat}

/-! ### Channels (R329 to R331) -/

/-- A doorbell has a chain that parks, or that began nothing, read its LINK word again. -/
theorem State.wrChDb_reads (hd : s.chDirect n = true) (hon : s.chOn n = true) (hp : (s.ch n).phase = .parked ∨ (s.ch n).phase = .idle) :
    s.wrChDb n = ((((s.modCh n (fun x => { x with dbSeen := true })).modCh n (fun x =>
      { x with phase := .link, result := 0, back := x.phase, recorded := false, fault := none })).toCh n chWAITING).dmWait n false).dmKick
        (n / 8) := by
  have hrests : (s.chOn n && ((s.ch n).phase == .parked || (s.ch n).phase == .idle)) = true := by
    rw [hon, Bool.true_and, Bool.or_eq_true, beq_iff_eq, beq_iff_eq]
    exact hp
  simp only [State.wrChDb, hd, hrests, Bool.not_true, Bool.false_eq_true, if_false, if_true]

/-- A thaw whose bits all name frozen channels with a record that was read thaws them one after the other. -/
theorem State.wrDmThaw_thaws {e mask : Nat} (h : ∀ k, k < 8 → bitOf mask k = true →
      (s.ch (8 * e + k)).frozen = true ∧ s.on (rCH_FAULT_KIND e k) fCH_FAULT_KIND_VREAD = true) :
    s.wrDmThaw e mask = ((List.range 8).filter (bitOf mask)).foldl (fun t k =>
      ((t.modCh (8 * e + k) (fun x => { x with frozen := false })).toCh (8 * e + k)
        (if t.chOn (8 * e + k) then chWAITING else chSTOPPING)).dmKick e) s := by
  refine if_pos (List.all_eq_true.mpr (fun k hk => ?_))
  obtain ⟨hlt, hbit⟩ := List.mem_filter.mp hk
  obtain ⟨hfrozen, hread⟩ := h k (List.mem_range.mp hlt) hbit
  rw [hfrozen, hread, Bool.and_self]

theorem execDisLimitExpiry_abandons {e : Fin 4} {c : Fin 8} (hoff : s.chOn (8 * e + c) = false) (hw : (s.ch (8 * e + c)).cur.isSome = true) :
    execDisLimitExpiry e c s = .next (s.begin.dmAbandon (8 * e + c) (some dmABORTED)) := by
  have hdue : (!s.begin.chOn (8 * e + c) && (s.begin.ch (8 * e + c)).cur.isSome) = true := by
    show (!s.chOn (8 * e + c) && (s.ch (8 * e + c)).cur.isSome) = true
    rw [hoff, hw, Bool.not_false, Bool.and_self]
  exact congrArg Host.Outcome.next (guard_true hdue _)

/-! ### Check contexts (R338, R340) -/

theorem State.wrCvCtrl_reset_free {v : Nat} (h : s.cvHeld v = false) : s.wrCvCtrl v (wBit 0 fCV_CTRL_RESET_RUN) = s.cvInit v := by
  simp (disch := decide) only [State.wrCvCtrl, getFld_wBit_same, Nat.one_ne_zero, h, Bool.false_eq_true, if_false]

theorem State.wrCvCtrl_reset_held {v : Nat} (h : s.cvHeld v = true) :
    s.wrCvCtrl v (wBit 0 fCV_CTRL_RESET_RUN) = s.refuse (rCV_CTRL (v / 8) (v % 8)) := by
  simp (disch := decide) only [State.wrCvCtrl, getFld_wBit_same, Nat.one_ne_zero, h, if_false, if_true]

end

/-- Settles O45: each write past its checks by what its register does; the disable limit past its guard. -/
theorem moverChannelCommandsComplete : Obligations.MoverChannelCommandsComplete := by
  unfold Obligations.MoverChannelCommandsComplete
  refine ⟨?enable, ?disable, ?limit, ?doorbell, ?thaw, ?reset, ?held⟩
  case enable =>
    intro who e k s h
    exact congrArg Host.Outcome.next (write_ok h _)
  case disable =>
    intro who e k s h
    exact congrArg Host.Outcome.next (write_ok h _)
  case limit =>
    intro e k s hoff hw
    exact execDisLimitExpiry_abandons hoff hw
  case doorbell =>
    intro who e k s h hd hon hp
    have hengine : (8 * e.val + k.val) / 8 = e.val := by omega
    refine ⟨_, rfl, congrArg Host.Outcome.next ((write_ok h _).trans ((State.wrChDb_reads (s := s.accepted) hd hon hp).trans ?_))⟩
    rw [hengine]
  case thaw =>
    intro who e mask s h hall
    exact congrArg Host.Outcome.next ((write_ok h _).trans (State.wrDmThaw_thaws (s := s.accepted) hall))
  case reset =>
    intro who cv s h hfree
    exact congrArg Host.Outcome.next ((write_ok h _).trans (State.wrCvCtrl_reset_free (s := s.accepted) hfree))
  case held =>
    intro who cv s h hheld
    exact congrArg Host.Outcome.next ((write_ok h _).trans (State.wrCvCtrl_reset_held (s := s.accepted) hheld))

/-! ### The course of a descriptor (R324 to R328) -/

@[simp] theorem State.dmHolder_begin (s : State) (e : Nat) : s.begin.dmHolder e = s.dmHolder e := rfl
@[simp] theorem State.chFrozen_begin (s : State) (n : Nat) : s.begin.chFrozen n = s.chFrozen n := rfl

section
variable {s s1 : State} {e : Fin 4} {n : Nat} {w : DmWork} {host h : List (Option (List Byte))}

/-- A descriptor that was read, passes its checks and uses no context goes into operation. -/
theorem execDmDescriptorFetched_operates {d : List Byte} (hh : s.dmHolder e = some n) (hc : (s.ch n).cur = some w)
    (hp : (s.ch n).phase = .fetch) (hread : s.begin.dmRead w.owner (s.ch n).pos 64 host = (s1, .ok d, h)) (hpos : (s.ch n).pos % 64 = 0)
    (hok : s1.dmDescOk w.owner d = true) (hcv : dUsesCv d = false) :
    execDmDescriptorFetched e host s = .next (
      let s2 := s1.modCh n (fun x => { x with
        desc := d, done := 0, fixed := [], data := none, sent := 0, err := none, result := 0, mismatch := false, back := .none })
      (((s2.modCh n (fun x => { x with phase := .moving, holds := false })).showRemain n).dmOperate n h).dmAfter n) := by
  simp only [execDmDescriptorFetched, State.dmHolder_begin, State.begin_ch_of, hh, hc, hp, hread, hcv]
  rw [if_neg (by decide), if_neg]
  · rfl
  · rintro (hne | hbad)
    · exact hne hpos
    · exact ne_false_of_eq_true hok hbad

/-- With everything written, the read-back is issued. -/
theorem execDmWritesComplete_reads_back (hh : s.dmHolder e = some n) (hp : (s.ch n).phase = .moving) (he : (s.ch n).err = none)
    (hdone : (s.ch n).opDone = true) (hop : dOp (s.ch n).desc ≠ 1) (hf : s.chFrozen n = false) :
    execDmWritesComplete e host s = .next (s.begin.modCh n (fun x => { x with phase := .readback })) := by
  simp only [execDmWritesComplete, State.dmHolder_begin, State.begin_ch_of, State.chFrozen_begin, hh, hp, he, hdone, hop, hf,
    bne_self_eq_false, Option.isSome_none, Bool.or_self, Bool.false_eq_true, if_false, if_true]

/-- A read-back that succeeds ends the descriptor, here without a mismatch. -/
theorem execReadbackDone_ends {b : List Byte} (hh : s.dmHolder e = some n) (hc : (s.ch n).cur = some w) (hp : (s.ch n).phase = .readback)
    (hm : (s.ch n).mismatch = false) (hread : s.begin.dmRead w.owner (dLast (s.ch n).desc / 64 * 64) 64 [some []] = (s1, .ok b, h)) :
    execReadbackDone e false s = .next (s1.dmDescEnd n 0 none) := by
  simp only [execReadbackDone, State.dmHolder_begin, State.begin_ch_of, hh, hc, hp, hm, hread, bne_self_eq_false,
    Bool.false_and, Bool.false_eq_true, if_false]

/-- A LINK word that names a descriptor is followed. -/
theorem execDmLinkRead_follows {v : W64} {b : List Byte} (hh : s.begin.dmHolder e = some n) (hc : (s.begin.ch n).cur = some w)
    (hp : (s.begin.ch n).phase = .link) (hr : (s.begin.ch n).result = 0) (heven : ofBytesLE b % 2 = 0)
    (hread : (if (s.begin.ch n).holds then (s.begin.dropCv n).dmKickAll else s.begin).dmRead w.owner ((s.begin.ch n).pos + 0x38) 8
      [some (bytesLE 8 v.toNat)] = (s1, .ok b, h)) :
    execDmLinkRead e (.word v) s = .next ((s1.modCh n (fun y => { y with phase := .fetch, descViol := false, fault := none, back := .none })).showPos
      n (ofBytesLE b / 64 * 64)) := by
  unfold execDmLinkRead
  simp only [hh, hc, hp, hr, hread, heven, bne_self_eq_false, ne_eq, not_true_eq_false, Bool.false_eq_true, if_false, if_true]

/-- A descriptor whose access failed ends with the code and the address of the error. -/
theorem execDmAccessError_ends {code a : Nat} (hh : s.dmHolder e = some n) (hp : (s.ch n).phase = .moving)
    (he : (s.ch n).err = some (code, a)) : execDmAccessError e s = .next (s.begin.dmDescEnd n code (some a)) := by
  simp only [execDmAccessError, State.dmHolder_begin, State.begin_ch_of, hh, hp, he]

end

/-- Settles O46: each command by its course on the channel that holds the engine. -/
theorem moverOperationCommandsComplete : Obligations.MoverOperationCommandsComplete := by
  unfold Obligations.MoverOperationCommandsComplete
  refine ⟨?fetched, ?written, ?readBack, ?link, ?error⟩
  case fetched =>
    intro e host n w d h s s1 hh hc hp hread hpos hok hcv
    exact execDmDescriptorFetched_operates hh hc hp hread hpos hok hcv
  case written =>
    intro e host n s hh hp he hdone hop hf
    exact execDmWritesComplete_reads_back hh hp he hdone hop hf
  case readBack =>
    intro e n w b h s s1 hh hc hp hm hread
    exact execReadbackDone_ends hh hc hp hm hread
  case link =>
    intro e v n w b h s s1 hh hc hp hr heven hread
    exact execDmLinkRead_follows hh hc hp hr heven hread
  case error =>
    intro e n code a s hh hp he
    exact execDmAccessError_ends hh hp he

end Sys2Proof.Machine
end

section
/-! PROOFS. Scope, touch: a panel's opportunity and the steps of its scan (R343 to R345, R350, R354), FE_LFCLR (R355). -/
namespace Sys2Proof.Machine

section
variable {s s1 : State}

/-! ### Opportunities (R344, R345) -/

/-- An opportunity that the divider takes, with no scan on either local panel and none begun too recently, starts the scan. -/
theorem State.opportunity_starts {p t : Nat}
    (h1 : s1 = (((s.modPanel p (fun x => { x with
      timed := if s.tpTimed p then some t else none, opp := if s.tpTimed p then none else some (s.tpEdge p) })).latch
      (rTP_SYNC (p / 2) (p % 2))).wr (tpStat p) fTP_STAT_SYNC_FREE (b2n (s.tpTimed p && s.rd (tpCfg p) fTP_CFG_SYNC != 0))).tpIdle p t)
    (hwait : (s1.panel p).wait = false) (hscan : (s1.panel p).scan = none) (hlast : ∀ l, (s1.panel p).last = some l → l + 4080 ≤ t)
    (hdiv : s1.tpDivider p ≤ (s1.panel p).skip + 1) (hother : (s1.panel (otherPanel p)).scan = none) :
    s.opportunity p t = (s1.modPanel p (fun x => { x with skip := 0 })).scanStart p t := by
  simp only [State.opportunity, ← h1, hwait, hscan, hother, hdiv.not_gt, Option.isSome_none, Bool.not_false, Bool.and_true, Bool.or_self,
    Bool.false_or, Bool.false_eq_true, if_false]
  cases hl : (s1.panel p).last with
  | none => rfl
  | some l => exact if_neg (ne_true_of_eq_false (decide_eq_false (hlast l hl).not_gt))

/-- An opportunity that comes first on its edge is the panel's own. -/
theorem execScanOpportunity_own {p : Fin 8} {t line : Nat} (hr : s.running = true) (hi : s.islandOn (21 + p / 2) = true) (hon : s.tpOn p = true)
    (hdue : s.tpDue p t line = true) (hfirst : p.val % 2 = 1 → s.tpOnEdge (p - 1) t = false) :
    execScanOpportunity p t line s = .next (s.begin.opportunity p t) := by
  have htakes : (s.running && s.islandOn (21 + p / 2) && s.tpOn p && s.tpDue p t line) = true := by
    simp only [hr, hi, hon, hdue, Bool.and_self]
  have hnot : ¬ (p.val % 2 = 1 ∧ s.begin.tpOnEdge (p - 1) t = true) := fun h => ne_true_of_eq_false (hfirst h.1) h.2
  refine congrArg Host.Outcome.next ((guard_true (s := s.begin) htakes _).trans ?_)
  rw [if_neg hnot]

/-! ### Steps of a scan (R343, R350) -/

/-- A panel on the timer ends its steps at any time. -/
theorem State.tpStepRuns_of_timer {p : Nat} (h : s.rd (tpCfg p) fTP_CFG_SYNC = 0) : s.tpStepRuns p = true := by
  rw [State.tpStepRuns, State.tpTimed, h, beq_self_eq_true, Bool.true_or, Bool.true_or]

/-- A step before the last one of a scan by the timer is recorded. -/
theorem execScanStepEnd_records {fe : Fin 4} {v : List (BitVec 16)} {t tn : Nat} {sc : TScan} (hscan : (s.panel (2 * fe)).scan = some sc)
    (hr : s.running = true) (hi : s.islandOn (21 + fe) = true) (hon : s.tpOn (2 * fe) = true) (hsync : s.rd (tpCfg (2 * fe)) fTP_CFG_SYNC = 0)
    (hmore : sc.steps.length + 1 < s.tpRows (2 * fe)) (htime : 1000 * sc.from' + s.tpStepNs (2 * fe) < 1000 * (t + 1)) :
    execScanStepEnd fe v t tn s = .next ((s.begin.modPanel (2 * fe) (fun x => { x with last := some (s.scanStep (2 * fe) t v sc).start })).modPanel
      (2 * fe) (fun x => { x with scan := some (s.scanStep (2 * fe) t v sc) })) := by
  have hends : (s.running && s.islandOn (21 + fe) && s.tpOn (2 * fe) && s.tpStepRuns (2 * fe) &&
      decide (1000 * sc.from' + s.tpStepNs (2 * fe) < 1000 * (t + 1))) = true := by
    simp only [hr, hi, hon, State.tpStepRuns_of_timer hsync, decide_eq_true htime, Bool.and_self]
  have hlen : (s.begin.scanStep (2 * fe) t v sc).steps.length < s.begin.tpRows (2 * fe) := by
    rw [State.scanStep, List.length_append]
    exact hmore
  have hfree : ¬ (s.begin.pst (s.begin.tpPipe (2 * fe)) = stSTOPPED ∧ s.begin.rd (tpCfg (2 * fe)) fTP_CFG_SYNC ≠ 0) := fun h => h.2 hsync
  simp only [execScanStepEnd, State.begin_panel_of, hscan, Option.isSome_some, if_true]
  refine congrArg Host.Outcome.next ((guard_true (s := s.begin) hends _).trans ((if_pos hlen).trans ?_))
  rw [if_neg hfree]
  rfl

/-- Outside blanking, a step of a scan whose first step has its time lasts from the end of the one before it, and is not late. -/
theorem State.scanStep_timed {p t : Nat} {v : List (BitVec 16)} {sc : TScan} (hu : sc.untimed = false) (hb : s.tpBlanking p = false) :
    s.scanStep p t v sc = { sc with from' := t, steps := sc.steps ++ [v.map (fun w => w.toInt)] } := by
  cases sc
  cases hu
  simp only [State.scanStep, hb, Bool.false_and, Bool.or_false, Bool.false_eq_true, if_false]

/-! ### Commands of registers (R350, R355) -/

theorem State.wrTpCtrl_recal {p : Nat} (hon : s.tpOn p = true) :
    s.wrTpCtrl p (wBit 0 fTP_CTRL_RECAL) = s.modPanel p (fun x => { x with recal := true }) :=
  if_pos ⟨getFld_wBit_same (by decide) (by decide), hon⟩

theorem State.wrFeLfclr_clears (fe : Nat) : s.wrFeLfclr fe (wBit 0 fFE_LFCLR_CLR) =
    (let s1 := overN 2 (fun k s => (s.wr (rFE_LFAULT_D fe k) fFE_LFAULT_D_DRV 0).wr (rFE_LFAULT_S fe k) fFE_LFAULT_S_SNS 0) s
     { s1 with lineRuns := s1.lineRuns.filter (fun r => decide (r.1 / 128 ≠ fe)) }) := by
  have hset : ¬ getFld (wBit 0 fFE_LFCLR_CLR) fFE_LFCLR_CLR = 0 := by
    rw [getFld_wBit_same (by decide) (by decide)]
    exact Nat.one_ne_zero
  exact if_neg hset

end

/-- Settles O54: the writes past their checks, an opportunity past those of the other panel, a step past its time. -/
theorem touchCommandsComplete : Obligations.TouchCommandsComplete := by
  unfold Obligations.TouchCommandsComplete
  refine ⟨?enable, ?recal, ?clear, ?opportunity, ?step, ?timed⟩
  case enable =>
    intro who p s h
    exact congrArg Host.Outcome.next (write_ok h _)
  case recal =>
    intro who p s h hon
    exact congrArg Host.Outcome.next ((write_ok h _).trans (State.wrTpCtrl_recal (s := s.accepted) hon))
  case clear =>
    intro who fe s h
    exact congrArg Host.Outcome.next ((write_ok h _).trans (State.wrFeLfclr_clears (s := s.accepted) fe))
  case opportunity =>
    intro p t line s s1 hr hi hon hdue hfirst h1 hwait hscan hlast hdiv hother
    exact (execScanOpportunity_own hr hi hon hdue hfirst).trans
      (congrArg Host.Outcome.next (State.opportunity_starts (s := s.begin) h1 hwait hscan hlast hdiv hother))
  case step =>
    intro fe v t tn sc s hscan hr hi hon hsync hmore htime
    exact execScanStepEnd_records hscan hr hi hon hsync hmore htime
  case timed =>
    intro s p t v sc hu hb
    exact State.scanStep_timed hu hb

end Sys2Proof.Machine
end

section
/-! PROOFS. Scope, sound and haptics: the tick (R367), the frame of the mixer (R370), segments and half periods (R362, R365, R366). -/
namespace Sys2Proof.Machine

section
variable {s : State}

/-! ### Ticks and frames (R367, R370) -/

theorem State.sound_runs (hr : s.running = true) (hi : s.islandOn 25 = true) : (s.begin.running && s.begin.islandOn 25) = true := by
  rw [State.begin_running_of, State.begin_islandOn_of, hr, hi, Bool.and_self]

/-- While sound is off, a tick advances the count and every haptic channel. -/
theorem execAudioTick_off {s2 : State} (hr : s.running = true) (hi : s.islandOn 25 = true)
    (h2 : s2 = overN 8 (fun h s => s.hapTick h) (s.begin.wr rAUD_STAT fAUD_STAT_TICK_LO (s.rd rAUD_STAT fAUD_STAT_TICK_LO + 1)))
    (hoff : s.on rAUD_CFG fAUD_CFG_EN = false) : execAudioTick s = .next s2 := by
  rw [← State.begin_rd_of] at h2
  subst h2
  exact congrArg Host.Outcome.next ((guard_true (State.sound_runs hr hi) _).trans (if_pos hoff))

/-- With sound on, streams, captures and ducks follow, and the tick's first frame is the next one. -/
theorem execAudioTick_on {s2 : State} (hr : s.running = true) (hi : s.islandOn 25 = true)
    (h2 : s2 = overN 8 (fun h s => s.hapTick h) (s.begin.wr rAUD_STAT fAUD_STAT_TICK_LO (s.rd rAUD_STAT fAUD_STAT_TICK_LO + 1)))
    (hon : s.on rAUD_CFG fAUD_CFG_EN = true) : execAudioTick s = .next (
      let s3 := (overN 2 (fun p s => s.capTick p) (overN 32 (fun k s => s.streamTick k) s2)).duckTick
      { s3 with mix := { s3.mix with frame := 0 } }) := by
  rw [← State.begin_rd_of] at h2
  subst h2
  exact congrArg Host.Outcome.next ((guard_true (State.sound_runs hr hi) _).trans (if_neg (ne_false_of_eq_true hon)))

/-- The duck factors move without the count of frames. -/
theorem State.duckFrame_mix_frame (s : State) (o : Nat) : (s.duckFrame o).mix.frame = s.mix.frame := rfl

theorem State.overN_duckFrame_mix_frame (n : Nat) (s : State) : (overN n (fun o s => s.duckFrame o) s).mix.frame = s.mix.frame :=
  overN_stable (P := fun t => t.mix.frame = s.mix.frame) rfl (fun o t h => (t.duckFrame_mix_frame o).trans h)

theorem State.dstate_ne_six_of_running (h : s.running = true) : s.dstate ≠ 6 := by
  obtain ⟨_, hhi⟩ := State.running_iff.mp h
  omega

/-- A frame with sound on is counted: what the ports take, send and report leaves the count alone. -/
theorem execTdmFrame_counts (rx0 rx1 : List W32) (ok0 ok1 : Bool) (slip : Fin 3) (hr : s.running = true) (hi : s.islandOn 25 = true)
    (hon : s.on rAUD_CFG fAUD_CFG_EN = true) :
    ∃ t, execTdmFrame rx0 rx1 ok0 ok1 slip s = .next t ∧ t.mix.frame = s.mix.frame + 1 := by
  have hruns : ((s.running || s.dstate == 6) && s.islandOn 25 && s.on rAUD_CFG fAUD_CFG_EN) = true := by
    simp only [hr, hi, hon, Bool.true_or, Bool.and_self]
  refine ⟨_, congrArg Host.Outcome.next ((guard_true (s := s.begin) hruns _).trans (if_neg (State.dstate_ne_six_of_running hr))), ?_⟩
  extract_lets err slots take s1 s2 slave1 s3 s4 mix s5
  have htake (p : Nat) (rx : List W32) (t : State) : (take p rx t).mix.frame = t.mix.frame :=
    ite_stable (P := fun v => v.mix.frame = t.mix.frame) rfl rfl
  have h2 : s2.mix.frame = s.mix.frame := (htake 1 rx1 _).trans (htake 0 rx0 s1)
  have hslip : (s2.bumpErr rSLIP).mix.frame = s.mix.frame := (congrArg MixSt.frame (s2.bumpErr_mix rSLIP)).trans h2
  have h3 : s3.mix.frame = s.mix.frame :=
    ite_stable (P := fun v => v.mix.frame = s.mix.frame) hslip (ite_stable (P := fun v => v.mix.frame = s.mix.frame) hslip h2)
  exact congrArg (· + 1) ((State.overN_duckFrame_mix_frame 16 s3).trans h3)

/-! ### Haptic channels (R362, R365, R366) -/

section
variable {h : Fin 8}

theorem State.segment_runs (hr : s.running = true) (hseg : (s.hap h).seg.isSome = true) :
    (s.running && (s.hap h).seg.isSome) = true := by
  rw [hr, hseg, Bool.and_self]

/-- After a brake the channel goes on with its ring. -/
theorem execHapticSegmentEnd_brake {st : Nat} (hr : s.running = true) (hseg : (s.hap h).seg.isSome = true)
    (hst : s.served (s.hapOwner h) = some st) (hb : (s.hap h).brake = true) : execHapticSegmentEnd h s = .next (s.begin.hapGo h st) := by
  have hst' : s.begin.served (s.begin.hapOwner h) = some st := hst
  simp only [execHapticSegmentEnd, State.begin_running_of, State.begin_hap_of, guard_true (State.segment_runs hr hseg), hst', hb, if_true]

/-- A channel whose ring is not served idles. -/
theorem execHapticSegmentEnd_unserved (hr : s.running = true) (hseg : (s.hap h).seg.isSome = true)
    (hst : s.served (s.hapOwner h) = none) : execHapticSegmentEnd h s = .next (s.begin.hapIdle h) := by
  have hst' : s.begin.served (s.begin.hapOwner h) = none := hst
  simp only [execHapticSegmentEnd, State.begin_running_of, State.begin_hap_of, guard_true (State.segment_runs hr hseg), hst']

theorem State.lra_runs (hr : s.running = true) (hl : s.lraDriven h = true) : (s.running && s.lraDriven h) = true := by
  rw [hr, hl, Bool.and_self]

/-- A tracked half period without a measured one loses the lock. -/
theorem execLraHalfPeriod_unmeasured (hr : s.running = true) (hl : s.lraDriven h = true) (ht : s.tracking h = true) (htm : (s.hap h).tm = none)
    (hc : (s.hap h).crossed = true) :
    execLraHalfPeriod h s = .next ((s.begin.modHap h (fun x => { x with misses := 0, crossed := false, passes := 0 })).wr (rHC_STAT h)
      fHC_STAT_LOCKED 0) := by
  have ht' : s.begin.tracking h = true := ht
  simp only [execLraHalfPeriod, guard_true (State.lra_runs (s := s.begin) hr hl), State.begin_hap_of, hc, ht', htm, if_true, OfNat.zero_ne_ofNat,
    Bool.true_eq_false, if_false]

/-- A half period at a frequency of its own only notes its crossing. -/
theorem execLraHalfPeriod_untracked (hr : s.running = true) (hl : s.lraDriven h = true) (ht : s.tracking h = false)
    (hc : (s.hap h).crossed = true) :
    execLraHalfPeriod h s = .next (s.begin.modHap h (fun x => { x with misses := 0, crossed := false })) := by
  have ht' : s.begin.tracking h = false := ht
  simp only [execLraHalfPeriod, guard_true (State.lra_runs (s := s.begin) hr hl), State.begin_hap_of, hc, ht', if_true, OfNat.zero_ne_ofNat,
    if_false]

end

end

/-- Settles O55: each event past its guard; a frame by what it leaves of the count. -/
theorem audioAndHapticsCommandsComplete : Obligations.AudioAndHapticsCommandsComplete := by
  unfold Obligations.AudioAndHapticsCommandsComplete
  refine ⟨?tick, ?brake, ?unserved, ?crossing, ?unmeasured, ?untracked, ?frame⟩
  case tick =>
    intro s s2 hr hi h2
    exact ⟨execAudioTick_off hr hi h2, execAudioTick_on hr hi h2⟩
  case brake =>
    intro h st s hr hseg hst hb
    exact execHapticSegmentEnd_brake hr hseg hst hb
  case unserved =>
    intro h s hr hseg hst
    exact execHapticSegmentEnd_unserved hr hseg hst
  case crossing =>
    intro h t s hr hl
    exact congrArg Host.Outcome.next (guard_true (State.lra_runs (s := s.begin) hr hl) _)
  case unmeasured =>
    intro h s hr hl ht htm hc
    exact execLraHalfPeriod_unmeasured hr hl ht htm hc
  case untracked =>
    intro h s hr hl ht hc
    exact execLraHalfPeriod_untracked hr hl ht hc
  case frame =>
    intro rx0 rx1 ok0 ok1 slip s hr hi hon
    exact execTdmFrame_counts rx0 rx1 ok0 ok1 slip hr hi hon

end Sys2Proof.Machine
end

section
/-! PROOFS. Scope, Smiser requests: what a fresh request's service answers (R378 to R381, R397), how it is answered and recorded (R386), and how
requests wait (R387). -/
namespace Sys2Proof.Machine

section
variable {s t w : State} {svc st : Nat} {m : SmMsg} {x : SmCtx} {stale : Bool} {r : SmResp} {f : State → SmCtx → State × Option SmResp}

/-! ### A fresh request (R386) -/

theorem SmCtx.with_authOk (h : x.authOk = true) : { x with authOk := true } = x := by
  cases x
  cases h
  rfl

/-- A request without authentication, the first of its source, is executed, answered and recorded. -/
theorem State.smServe_replies (hprot : x.isProtected = false) (hok : x.authOk = true) (hbc : x.bcast = false) (hauth : x.h.auth = false)
    (hf : f (s.dropBlocks x.q.src x.h.trans) x = (t, some r)) : s.smServe x none f = t.smReply x.svc x r := by
  rw [← SmCtx.with_authOk hok] at hf
  simp only [State.smServe, hauth, hprot, hf, Bool.and_false, Bool.not_true, Bool.false_and, Bool.false_eq_true, if_false, if_true]
  simp only [State.smReply, hbc, Bool.false_eq_true, if_false]

/-- A request of a source that has no record is no repeat. -/
theorem State.smExec_fresh (h : s.smRecord x.q.src = none) : s.smExec x f = s.smServe x none f := by
  simp only [State.smExec, h, Option.filter_none]

/-- Whether a read across crossings settles does not show in how its request is answered. -/
theorem State.smReply_stale (t : State) (svc : Nat) (x : SmCtx) (stale : Bool) (r : SmResp) :
    t.smReply svc { x with stale := stale } r = t.smReply svc x r := rfl

/-- A request that is accepted as fresh is answered with what its service answers. -/
theorem State.smRun_takes (h : s.takes svc m x) (hf : f (s.taken svc m x) { x with stale := stale } = (t, some r)) :
    s.begin.smRun svc m stale f = t.smReply svc x r := by
  obtain ⟨hacc, hans, hrec, hsvc, hprot, hok, hbc, hauth⟩ := h
  have hpair : s.begin.smAccept svc m = ((s.begin.smAccept svc m).1, some x) := Prod.ext rfl hacc
  have hserve : (s.begin.smAccept svc m).1.smServe { x with stale := stale } none f = t.smReply svc x r := by
    rw [State.smServe_replies (x := { x with stale := stale }) hprot hok hbc hauth hf, State.smReply_stale, hsvc]
  rw [State.smRun, hpair]
  exact (if_pos hans).trans ((State.smExec_fresh (x := { x with stale := stale }) hrec).trans hserve)

/-- Outside the boot ROM so is one whose service the boot ROM does not serve (R403). -/
theorem State.smRun_takes_running (h : s.takes svc m x) (hfac : x.factory = false)
    (hf : f (s.taken svc m x) { x with stale := stale } = (t, some r)) : s.begin.smRun svc m stale (noService f) = t.smReply svc x r :=
  State.smRun_takes h ((if_neg (ne_true_of_eq_false hfac)).trans hf)

/-! ### What the services answer (R379 to R381, R394, R397) -/

theorem State.svcRead_eq {b : List Byte} (hlen : 3 ≤ x.h.pl.length)
    (hr : s.readEntry x.q (plIdx x.h.pl) (plSub x.h.pl) (valueLimit x.via) x.stale = (t, st, b)) :
    s.svcRead x = (t, some ⟨st, if st = smOK then bytesLE 1 b.length ++ b else []⟩) := by
  simp only [State.svcRead, hlen.not_gt, if_false, hr]

theorem State.svcWrite_eq (hq : x.q.cls ≠ clsFLEET) (hlen : 4 + (x.h.pl.getD 3 0).toNat ≤ x.h.pl.length)
    (hw : s.writeEntry x.q x.q.who (plIdx x.h.pl) (plSub x.h.pl) x.t (valueLimit x.via) ((x.h.pl.drop 4).take (x.h.pl.getD 3 0).toNat) = (t, st)) :
    s.svcWrite x = (t, some ⟨st, []⟩) := by
  simp only [State.svcWrite, hlen.not_gt, hq, false_and, if_false, hw, bare]

/-- Outside a mailbox a block holds up to 8,192 bytes. -/
theorem State.svcReadBlock_eq {b : List Byte} (hlen : 10 ≤ x.h.pl.length) (hvia : ∀ k, x.via ≠ .mailbox k)
    (hr : s.readBlock x.q (plIdx x.h.pl) (plSub x.h.pl) (ofBytesLE ((x.h.pl.drop 4).take 4)) (ofBytesLE ((x.h.pl.drop 8).take 2)) 8192 =
      (t, st, b)) : s.svcReadBlock x = (t, some ⟨st, if st = smOK then bytesLE 2 b.length ++ b else []⟩) := by
  simp only [State.svcReadBlock, hlen.not_gt, if_false]
  cases hv : x.via with
  | mailbox k => exact absurd hv (hvia k)
  | can _ | udp _ _ | keeper => simp only [hr]

/-- A request on one of the long operations, by another than a stall, is the operation's. -/
theorem State.onOp_within {need : Nat} {g : Nat → State → State × Nat} (hlen : need ≤ x.h.pl.length) (hlo : 0xA000 ≤ plIdx x.h.pl)
    (hhi : plIdx x.h.pl ≤ 0xA006) (hq : x.q.cls ≠ clsSTALL) (hg : g (plIdx x.h.pl - 0xA000) s = (t, st)) :
    s.onOp x need g = (t, some ⟨st, []⟩) := by
  have hvendor : vendorIdx (plIdx x.h.pl) = false := decide_eq_false (by omega)
  simp only [State.onOp, hlen.not_gt, hvendor, hlo.not_gt, hhi.not_gt, hq, hg, or_self, Bool.false_eq_true, if_false, bare]

theorem State.svcOpStart_eq {n : Nat} (hfac : x.factory = false) (hn : n = (x.h.pl.getD 2 0).toNat) (hmax : n ≤ 32) (hlen : 3 + n ≤ x.h.pl.length)
    (hlo : 0xA000 ≤ plIdx x.h.pl) (hhi : plIdx x.h.pl ≤ 0xA006) (hq : x.q.cls ≠ clsSTALL)
    (hs : s.opStart (plIdx x.h.pl - 0xA000) x.q.cls x.q.src ((x.h.pl.drop 3).take n) = (t, st)) :
    s.svcOpStart x = (t, some ⟨st, []⟩) := by
  subst hn
  simp only [State.svcOpStart, hfac, Bool.false_eq_true, if_false]
  exact State.onOp_within hlen hlo hhi hq ((if_neg hmax.not_gt).trans hs)

theorem State.svcNodeReset_eq {kind : Nat} (hk : (x.h.pl.getD 0 0).toNat = kind) (hkind : kind = 1 ∨ kind = 2) (hpl : x.h.pl ≠ []) :
    s.svcNodeReset x = (s.modSm (fun y => { y with nodeReset := some kind }), some ⟨smOK, []⟩) := by
  have hne : x.h.pl.isEmpty = false := List.isEmpty_eq_false_iff.mpr hpl
  simp only [State.svcNodeReset, State.nodeReset, hne, hk, hkind, Bool.false_eq_true, if_false, if_true, bare]

/-! ### Requests that wait (R387) -/

/-- Behind at most 3 others of its source, a request waits. -/
theorem State.smRun_waits (hacc : s.smAccept svc m = (w, some x)) (hans : w.smAnswering x.q.src = true)
    (hroom : (w.sm.waiting.filter (fun y => y.q.src == x.q.src)).length < 4) :
    s.smRun svc m stale f = w.modSm (fun v => { v with waiting := v.waiting ++ [{ x with stale := stale }] }) := by
  simp only [State.smRun, hacc, hans, hroom, Bool.true_eq_false, if_false, if_true]

/-- A fifth is answered BUSY. -/
theorem State.smRun_busy (hacc : s.smAccept svc m = (w, some x)) (hans : w.smAnswering x.q.src = true)
    (hfull : 4 ≤ (w.sm.waiting.filter (fun y => y.q.src == x.q.src)).length) (hbc : x.bcast = false) :
    s.smRun svc m stale f = (w.smAnswer x ⟨smBUSY, []⟩).1 := by
  simp only [State.smRun, hacc, hans, hfull.not_gt, hbc, Bool.true_eq_false, Bool.false_eq_true, if_false]

/-- READ runs the service of its row, unless the message carries the code of a service without a row. -/
theorem execRead_listed (h : ∀ c, s.svcOf m = some c → svcListed c = true) :
    execRead m stale s = .next (s.begin.smRun svcREAD m stale (noService State.svcRead)) := by
  have hnone : (s.svcOf m).filter (fun c => !(svcListed c)) = none :=
    Option.filter_eq_none_iff.mpr (fun c hc => by simp only [h c hc, Bool.not_true, Bool.false_eq_true, not_false_eq_true])
  simp only [execRead, hnone]

end

/-- Settles O56: a fresh request is answered with what its service answers; one that comes too early waits or is answered BUSY. -/
theorem smiserRequestsComplete : Obligations.SmiserRequestsComplete := by
  unfold Obligations.SmiserRequestsComplete
  refine ⟨?read, ?write, ?readBlock, ?writeBlock, ?start, ?suspend, ?resume, ?cancel, ?comm, ?device, ?waits⟩
  case read =>
    intro m stale x s s1 v st b h hv hlisted hfac hlen hr
    subst hv
    exact (execRead_listed hlisted).trans (congrArg Host.Outcome.next (State.smRun_takes_running h hfac
      (State.svcRead_eq (x := { x with stale := stale }) hlen hr)))
  case write =>
    intro m x s s1 v st h hv hfac hq hlen hw
    subst hv
    exact congrArg Host.Outcome.next (State.smRun_takes_running h hfac
      (State.svcWrite_eq (x := { x with stale := false }) hq hlen hw))
  case readBlock =>
    intro m x s s1 v st b h hv hfac hlen hvia hr
    subst hv
    exact congrArg Host.Outcome.next (State.smRun_takes_running h hfac
      (State.svcReadBlock_eq (x := { x with stale := false }) hlen hvia hr))
  case writeBlock =>
    intro m x s s1 v r h hv hb
    subst hv
    exact congrArg Host.Outcome.next (State.smRun_takes h hb)
  case start =>
    intro m x s s1 v st n h hv hfac hn hmax hlen hlo hhi hq hs
    subst hv
    exact congrArg Host.Outcome.next (State.smRun_takes h
      (State.svcOpStart_eq (x := { x with stale := false }) hfac hn hmax hlen hlo hhi hq hs))
  case suspend =>
    intro m x s s1 v st h hv hfac hlen hlo hhi hq hs
    subst hv
    exact congrArg Host.Outcome.next (State.smRun_takes_running h hfac
      (State.onOp_within (x := { x with stale := false }) hlen hlo hhi hq hs))
  case resume =>
    intro m x s s1 v st h hv hfac hlen hlo hhi hq hs
    subst hv
    exact congrArg Host.Outcome.next (State.smRun_takes_running h hfac
      (State.onOp_within (x := { x with stale := false }) hlen hlo hhi hq hs))
  case cancel =>
    intro m x s s1 v st h hv hfac hlen hlo hhi hq hs
    subst hv
    exact congrArg Host.Outcome.next (State.smRun_takes_running h hfac
      (State.onOp_within (x := { x with stale := false }) hlen hlo hhi hq hs))
  case comm =>
    intro m x s v h hv hfac hm hk hpl
    subst hv
    exact congrArg Host.Outcome.next ((guard_true (s := s.begin) (bne_iff_ne.mpr hm) _).trans (State.smRun_takes_running h hfac
      (State.svcNodeReset_eq (x := { x with stale := false }) hk (.inl rfl) hpl)))
  case device =>
    intro m x s v h hv hfac hm hk hpl
    subst hv
    exact congrArg Host.Outcome.next ((guard_true (s := s.begin) (beq_iff_eq.mpr hm) _).trans (State.smRun_takes_running h hfac
      (State.svcNodeReset_eq (x := { x with stale := false }) hk (.inr rfl) hpl)))
  case waits =>
    intro m x s w hacc hans
    refine ⟨fun hroom => ?room, fun hfull hbc => ?full⟩
    case room => exact congrArg Host.Outcome.next (State.smRun_waits hacc hans hroom)
    case full => exact congrArg Host.Outcome.next (State.smRun_busy hacc hans hfull hbc)

end Sys2Proof.Machine
end

section
/-! PROOFS. Scope, Smiser events: timers, ends of long operations (R398, R404), heartbeats (R391 to R393), node resets (R394, R434), the factory's
time-out (R403) and thermal polls (R426). -/
namespace Sys2Proof.Machine

section
variable {s : State}

/-! ### Long operations (R398, R404) -/

theorem State.operation_runs {k : Nat} (hr : s.running = true) (hst : (s.op k).state = opRUNNING) :
    (s.running && (s.op k).state == opRUNNING) = true := by
  rw [hr, hst, beq_self_eq_true, Bool.and_self]

/-- A message of the ledger that no host acknowledges is sent again, up to 3 times. -/
theorem execExportAckTimeout_repeats {x : SmExport} (hr : s.running = true) (hst : (s.op opEXPORT).state = opRUNNING)
    (hx : s.sm.exprt = some x) (ht : x.tries < 3) :
    execExportAckTimeout s = .next ((s.begin.modSm (fun y => { y with exprt := some { x with tries := x.tries + 1 } })).exportSend) := by
  simp only [execExportAckTimeout, State.begin_running_of, State.begin_op_of, State.begin_sm, guard_true (State.operation_runs hr hst), hx, ht,
    if_true]

section
variable {k : Fin 7} {progress : Fin 1001} {d : BitVec 24}

/-- A point on the way counts for an operation whose points its sender tells, and of a pattern at the latch point. -/
theorem execLongOperationEnd_point (hr : s.running = true) (hst : (s.op k).state = opRUNNING) (hscrub : k.val ≠ opSCRUB)
    (hexport : k.val ≠ opEXPORT) (hretrain : k.val ≠ opRETRAIN) (hrecal : k.val ≠ opRECAL)
    (hpattern : k.val = opPATTERN → (s.pipe (argB (s.op k).arg 0)).latched = true ∧ (s.pipe (argB (s.op k).arg 0)).vblank = false) :
    execLongOperationEnd k 0 progress d s = .next (s.begin.opPoint k progress) := by
  have hcounts : ¬ (k.val = opEXPORT ∨ k.val = opRETRAIN ∨ k.val = opRECAL ∨
      (k.val = opPATTERN ∧ ((s.pipe (argB (s.op k).arg 0)).latched && !(s.pipe (argB (s.op k).arg 0)).vblank) = false)) := by
    rintro (h | h | h | ⟨h, hno⟩)
    · exact hexport h
    · exact hretrain h
    · exact hrecal h
    · obtain ⟨hlatched, hvblank⟩ := hpattern h
      rw [hlatched, hvblank] at hno
      exact Bool.noConfusion hno
  exact congrArg Host.Outcome.next ((guard_true (s := s.begin) (State.operation_runs hr hst) _).trans
    ((if_neg hscrub).trans ((if_pos rfl).trans (if_neg hcounts))))

theorem execLongOperationEnd_end (hr : s.running = true) (hst : (s.op k).state = opRUNNING) (hscrub : k.val ≠ opSCRUB) :
    execLongOperationEnd k 1 progress d s = .next (s.begin.opWorkEnd k d.toNat) :=
  congrArg Host.Outcome.next ((guard_true (s := s.begin) (State.operation_runs hr hst) _).trans
    ((if_neg hscrub).trans ((if_neg (by decide)).trans (if_pos rfl))))

theorem execLongOperationEnd_failure (hr : s.running = true) (hst : (s.op k).state = opRUNNING) (hscrub : k.val ≠ opSCRUB)
    (hexport : k.val ≠ opEXPORT) (hretrain : k.val ≠ opRETRAIN) :
    execLongOperationEnd k 2 progress d s =
      .next ((if k.val = opPATTERN then s.begin.opRollback k else s.begin).opEnd k opFAILED 5 d.toNat) :=
  congrArg Host.Outcome.next ((guard_true (s := s.begin) (State.operation_runs hr hst) _).trans
    ((if_neg hscrub).trans ((if_neg (by decide)).trans ((if_neg (by decide)).trans (if_neg (not_or_intro hexport hretrain))))))

/-- A scrub that fails goes back to the slow pace. -/
theorem execLongOperationEnd_scrub_failure (hr : s.running = true) (hst : (s.op opSCRUB).state = opRUNNING) :
    execLongOperationEnd 1 2 progress d s = .next ((s.begin.scrubSlow 0).opEnd opSCRUB opFAILED 5 s.mem.opBad) :=
  congrArg Host.Outcome.next ((guard_true (s := s.begin) (State.operation_runs (k := 1) hr hst) _).trans ((if_pos rfl).trans (if_pos rfl)))

end

/-! ### Heartbeats (R391 to R393) -/

theorem State.heartbeat_due (hr : s.running = true) (hi : s.islandOn 26 = true) (hc : s.commEn ≠ 0) :
    (s.running && s.islandOn 26 && s.commEn != 0) = true := by
  rw [hr, hi, bne_iff_ne.mpr hc, Bool.and_self, Bool.and_self]

/-- With nothing waiting for the field network a heartbeat goes out at once. -/
theorem execHeartbeatTimer_sends (hr : s.running = true) (hi : s.islandOn 26 = true) (hc : s.commEn ≠ 0) (ht : s.sm.tx = []) :
    execHeartbeatTimer s = .next s.begin.sendHeartbeat :=
  congrArg Host.Outcome.next ((guard_true (s := s.begin) (State.heartbeat_due hr hi hc) _).trans (if_pos (List.isEmpty_iff.mpr ht)))

/-- Behind frames that wait, it waits. -/
theorem execHeartbeatTimer_waits (hr : s.running = true) (hi : s.islandOn 26 = true) (hc : s.commEn ≠ 0) (ht : s.sm.tx ≠ []) :
    execHeartbeatTimer s = .next (s.begin.modSm (fun x => { x with hbDue := true })) :=
  congrArg Host.Outcome.next ((guard_true (s := s.begin) (State.heartbeat_due hr hi hc) _).trans (if_neg (fun h => ht (List.isEmpty_iff.mp h))))

theorem State.host_watched (hr : s.running = true) (hw : s.dnum 0x1100 7 ≠ 0) : (s.running && s.dnum 0x1100 7 != 0) = true := by
  rw [hr, bne_iff_ne.mpr hw, Bool.and_self]

/-! ### Node resets (R394, R434) -/

/-- A communication reset acts while Smiser is served. -/
theorem execNodeResetAct_comm (hr : s.running = true) (hk : s.sm.nodeReset = some 1) :
    execNodeResetAct s = .next ((s.begin.modSm (fun x => { x with nodeReset := none })).commReset) := by
  have hnot : ¬ (s.dstate = 6 ∧ 1 = 2) := fun h => absurd h.2 (by decide)
  simp only [execNodeResetAct, State.begin_sm, hk, State.begin_dstate_of, hnot, State.begin_running_of, hr, if_false, if_true]

/-- A device reset before SAVING keeps what a reset by the pin keeps. -/
theorem execNodeResetAct_device (h0 : s.dstate ≠ 0) (h6 : s.dstate < 6) (hk : s.sm.nodeReset = some 2) :
    execNodeResetAct s = .next ((((s.begin.modSm (fun x => { x with nodeReset := none })).modPower (fun x => { x with cause := 2 })).afterReset
      false false false).tryStart) := by
  have h7 : s.dstate ≠ 7 := (h6.trans (by decide)).ne
  have h21 : ¬ (2 = 1) := by decide
  simp only [execNodeResetAct, State.begin_sm, hk, State.begin_dstate_of, h0, h6.ne, h7, h6.not_ge, h21, false_and, decide_false, if_false]

/-! ### Temperatures (R426) -/

/-- Below the limit a poll is only recorded. -/
theorem execThermalPoll_cool {temps : List (BitVec 16)} {t : Nat} (hreset : s.power.inReset = false) (h0 : s.dstate ≠ 0)
    (hcool : (s.modSm (fun x => { x with temps := (List.range 16).map (fun k => (temps.getD k 0).toInt) })).tempMax < sx 16 (s.dnum 0x9030 0x12)) :
    execThermalPoll temps t s = .next (s.begin.modSm (fun x => { x with temps := (List.range 16).map (fun k => (temps.getD k 0).toInt) })) := by
  have hpolls : (!s.power.inReset && s.dstate != 0) = true := by
    rw [hreset, bne_iff_ne.mpr h0, Bool.not_false, Bool.and_self]
  exact congrArg Host.Outcome.next ((guard_true (s := s.begin) hpolls _).trans (if_pos hcool))

end

/-- Settles O57: each event past its guard, by the state that it finds. -/
theorem smiserEventsComplete : Obligations.SmiserEventsComplete := by
  unfold Obligations.SmiserEventsComplete
  refine ⟨?ack, ?point, ?endOfWork, ?failure, ?scrub, ?heartbeat, ?timer, ?hostLoss, ?session, ?nonce, ?comm, ?device, ?factory, ?thermal⟩
  case ack =>
    intro s x hr hst hx ht
    exact execExportAckTimeout_repeats hr hst hx ht
  case point =>
    intro k progress d s hr hst hscrub hexport hretrain hrecal hpattern
    exact execLongOperationEnd_point hr hst hscrub hexport hretrain hrecal hpattern
  case endOfWork =>
    intro k progress d s hr hst hscrub
    exact execLongOperationEnd_end hr hst hscrub
  case failure =>
    intro k progress d s hr hst hscrub hexport hretrain
    exact execLongOperationEnd_failure hr hst hscrub hexport hretrain
  case scrub =>
    intro progress d s hr hst
    exact execLongOperationEnd_scrub_failure hr hst
  case heartbeat =>
    intro m s
    rfl
  case timer =>
    intro s hr hi hc
    exact ⟨execHeartbeatTimer_sends hr hi hc, execHeartbeatTimer_waits hr hi hc⟩
  case hostLoss =>
    intro s hr hw
    exact congrArg Host.Outcome.next (guard_true (s := s.begin) (State.host_watched hr hw) _)
  case session =>
    intro h s
    rfl
  case nonce =>
    intro h s
    rfl
  case comm =>
    intro s hr hk
    exact execNodeResetAct_comm hr hk
  case device =>
    intro s h0 h6 hk
    exact execNodeResetAct_device h0 h6 hk
  case factory =>
    intro s hf
    exact congrArg Host.Outcome.next (guard_true (s := s.begin) hf _)
  case thermal =>
    intro temps t s hreset h0 hcool
    exact execThermalPoll_cool hreset h0 hcool

end Sys2Proof.Machine
end

section
/-! PROOFS. Scope, supply and resets: dips, SUPPLY_WARN, the end of the save (R453 to R455), POR and nRESET (R434, R435, R476). -/
namespace Sys2Proof.Machine

section
variable {s : State}

/-! ### The supply monitor (R453 to R455) -/

/-- SUPPLY_WARN in a device that runs begins the save. -/
theorem execSupplyWarn_saves {n : Nat} (hen : s.on rSUPPLY_CFG fSUPPLY_CFG_EN = true) (hdip : s.power.dip = true) (hr : s.running = true)
    (hw : s.on rSUPPLY_STAT fSUPPLY_STAT_WARN = false) :
    execSupplyWarn n s = .next ((((s.begin.modPower (fun x => { x with dip := false })).wr rSUPPLY_STAT fSUPPLY_STAT_WARN 1).wr rSUPPLY_STAT
      fSUPPLY_STAT_SAVE_ACT 1).enterSaving n) := by
  obtain ⟨hlo, _⟩ := State.running_iff.mp hr
  have hon : s.dstate ≠ 0 := by omega
  have hwarns : (s.on rSUPPLY_CFG fSUPPLY_CFG_EN && s.power.dip && decide (s.dstate ≠ 0)) = true := by
    rw [hen, hdip, decide_eq_true hon, Bool.and_self, Bool.and_self]
  exact congrArg Host.Outcome.next ((guard_true (s := s.begin) hwarns _).trans ((if_neg (ne_true_of_eq_false hw)).trans (if_pos hr)))

/-- In SAVING the end of SUPPLY_WARN is only noted. -/
theorem execSupplyWarnClear_saving (hw : s.on rSUPPLY_STAT fSUPPLY_STAT_WARN = true) (hb : s.on rSUPPLY_STAT fSUPPLY_STAT_BELOW = false)
    (hd : s.dstate = 6) : execSupplyWarnClear s = .next (s.begin.wr rSUPPLY_STAT fSUPPLY_STAT_WARN 0) := by
  have hclears : (s.on rSUPPLY_STAT fSUPPLY_STAT_WARN && !s.on rSUPPLY_STAT fSUPPLY_STAT_BELOW) = true := by
    rw [hw, hb, Bool.not_false, Bool.and_self]
  exact congrArg Host.Outcome.next ((guard_true (s := s.begin) hclears _).trans (if_pos hd))

/-- A save that ends after SUPPLY_WARN, with its tally taken, ends in a warm restart. -/
theorem execSaveComplete_restarts {n : Nat} {r : SaveRun} {f : Fin 3} {l : Fin 131} (hd : s.dstate = 6) (hs : s.power.save = some r)
    (hwait : s.tally.saveWaits = false) (hreq : s.tally.req ≠ some .save) (hw : s.on rSUPPLY_STAT fSUPPLY_STAT_WARN = false) :
    execSaveComplete n f l s = .next (((((s.begin.doSave r n f l).modPower (fun x => { x with save := none })).wr rSUPPLY_STAT
      fSUPPLY_STAT_SAVE_ACT 0).afterReset false false true).tryStart) := by
  simp only [execSaveComplete, State.begin_dstate_of, State.begin_power, State.begin_tally, State.begin_on_of, hd, hs, hwait, hw,
    beq_false_of_ne hreq, Bool.or_self, Bool.false_eq_true, if_false, if_true]

/-! ### nRESET (R434, R435) -/

/-- nRESET before SAVING resets the device, which SUPPLY_WARN does not hold. -/
theorem execNresetLow_resets {lines us : Nat} (hn : s.power.nreset = true) (hlo : 1 ≤ s.dstate) (hhi : s.dstate ≤ 5) (hh : s.power.held = false) :
    execNresetLow lines us s = .next (((s.begin.modPower (fun x => { x with nreset := false })).modPower (fun x => { x with cause := 1 })).afterReset
      false false false) := by
  have h0 : s.dstate ≠ 0 := by omega
  have h6 : ¬ 6 ≤ s.dstate := by omega
  have h6' : s.dstate ≠ 6 := by omega
  have h7 : s.dstate ≠ 7 := by omega
  refine congrArg Host.Outcome.next ((guard_true (s := s.begin) hn _).trans ?_)
  simp only [State.begin_dstate_of, State.begin_power, h0, h6, h6', h7, hh, decide_false, Bool.false_eq_true, if_false]

end

/-- Settles O58: each event past its guard, by the device state that it meets. -/
theorem supplyAndResetCommandsComplete : Obligations.SupplyAndResetCommandsComplete := by
  unfold Obligations.SupplyAndResetCommandsComplete
  refine ⟨?fall, ?rise, ?warn, ?clear, ?saved, ?por, ?release, ?nresetLow, ?nresetRelease, ?resetOut⟩
  case fall =>
    intro s h
    exact congrArg Host.Outcome.next (guard_true (s := s.begin) ((Bool.not_eq_true' _).mpr h) _)
  case rise =>
    intro s h
    exact congrArg Host.Outcome.next (guard_true (s := s.begin) h _)
  case warn =>
    intro n s hen hdip hr hw
    exact execSupplyWarn_saves hen hdip hr hw
  case clear =>
    intro s hw hb hd
    exact execSupplyWarnClear_saving hw hb hd
  case saved =>
    intro n r f l s hd hs hwait hreq hw
    exact execSaveComplete_restarts hd hs hwait hreq hw
  case por =>
    intro lines s h
    exact congrArg Host.Outcome.next (guard_true (s := s.begin) ((Bool.not_eq_true' _).mpr h) _)
  case release =>
    intro b s h
    exact congrArg Host.Outcome.next (guard_true (s := s.begin) h _)
  case nresetLow =>
    intro lines us s hn hlo hhi hh
    exact execNresetLow_resets hn hlo hhi hh
  case nresetRelease =>
    intro b s h
    exact congrArg Host.Outcome.next (guard_true (s := s.begin) ((Bool.not_eq_true' _).mpr h) _)
  case resetOut =>
    intro s h
    exact congrArg Host.Outcome.next (guard_true (s := s.begin) ((Bool.not_eq_true' _).mpr h) _)

end Sys2Proof.Machine
end

section
/-! PROOFS. Scope, power: islands, regulators and rails (R450, R470 to R473), and the cache's flush (R316). -/
namespace Sys2Proof.Machine

section
variable {s : State}

/-! ### Regulators and rails (R470 to R473) -/

section
variable {d : BitVec 8} {r : Nat}

/-- A transaction that the regulator does not acknowledge is tried again, whatever it was for. -/
theorem execRegulatorTransactionDone_failed (hb : s.power.bus = some r) :
    execRegulatorTransactionDone false d s =
      .next (((s.begin.modPower (fun x => { x with bus := none })).wr rREG_STAT fREG_STAT_BUSY 0).railAgain r) := by
  simp only [execRegulatorTransactionDone, State.begin_power, hb]

/-- An exponent that was read is kept, and the bus is free for the next transaction. -/
theorem execRegulatorTransactionDone_mode {n : Int} (hb : s.power.bus = some r) (hp : (s.rail r).phase = .mode) (hn : voutExp d.toNat = some n) :
    execRegulatorTransactionDone true d s =
      .next ((((s.begin.modPower (fun x => { x with bus := none })).wr rREG_STAT fREG_STAT_BUSY 0).modRail r
        (fun x => { x with exp := some n, phase := .idle, tries := 0 })).busKick) := by
  simp only [execRegulatorTransactionDone, State.begin_power, hb, State.begin_rail_of, hp, hn]

end

section
variable {r : Fin 3}

/-- Without PG a rail that settles has reached its voltage. -/
theorem State.settles_without_pg (hp : (s.rail r).phase = .settle) (hpg : s.pgPresent r = false) :
    ((s.rail r).phase == .settle && !s.pgPresent r) = true := by
  rw [hp, hpg, beq_self_eq_true, Bool.not_false, Bool.and_self]

/-- PG tells that a rail with PG has reached its voltage. -/
theorem execPgRise_settles (hp : ((s.begin.setPg r true).rail r).phase = .settle) (hpg : (s.begin.setPg r true).pgPresent r = true) :
    execPgRise r s = .next ((s.begin.setPg r true).railSettled r) := by
  simp only [execPgRise, hp, hpg, beq_self_eq_true, Bool.and_self, if_true]

/-- A drop of PG that no raise awaits is counted and reported. -/
theorem execPgDrop_reports (hh : s.pgHigh r = true) (ha : s.pgAwaited r = false) (hr : s.power.inReset = false) :
    execPgDrop r s = .next (((s.begin.setPg r false).bumpErr rPG_DROP).kevt 0x00 0x41 r 0) := by
  have hunawaited : (s.pgAwaited r || s.power.inReset) = false := by
    rw [ha, hr, Bool.or_self]
  exact congrArg Host.Outcome.next ((guard_true (s := s.begin) hh _).trans (if_neg (ne_true_of_eq_false hunawaited)))

/-- A rail that waits for its PG has none yet. -/
theorem State.awaits_pg (hp : (s.rail r).phase = .settle) (hpg : s.pgPresent r = true) (hl : s.pgHigh r = false) :
    ((s.rail r).phase == .settle && s.pgPresent r && !s.pgHigh r) = true := by
  rw [hp, hpg, hl, beq_self_eq_true, Bool.not_false, Bool.and_self, Bool.and_self]

end

/-! ### The cache's flush (R316, log entry 92) -/

theorem State.pstore_flushes (hw : s.works = true) (hen : s.on rPSTORE fPSTORE_EN = true) : (s.works && s.on rPSTORE fPSTORE_EN) = true := by
  rw [hw, hen, Bool.and_self]

/-- With no line under way, the first dirty records go into the next line of the log. -/
theorem State.flushBegin_copies {s0 : State} {d : List Nat} {l : Nat} (h0 : s0 = s.cacheTouch (List.range s.cacheSize))
    (hl : s0.logPlace = some l) (hd : d = ((List.range s.cacheSize).filter (fun k => recDirty (s.cacheRec k))).take 7) (hne : d ≠ []) :
    s.flushBegin = s0.modNvm (fun x => { x with
      lines := l :: x.lines, logPos := l + 1, flush := some ⟨l, d.map (fun k => (k, s.cacheRec k))⟩ }) := by
  have hdirty : d.isEmpty = false := List.isEmpty_eq_false_iff.mpr hne
  unfold State.flushBegin
  simp only [← h0, ← hd, hl, hdirty, Bool.false_eq_true, if_false]

/-- The line under way is programmed; a record of it that did not change since is clean. -/
theorem State.flushEnd_eq {f : FlushSt} (hf : s.nvm.flush = some f) :
    s.flushEnd = (f.recs.foldl (fun t r =>
      if recGen (t.cacheRec r.1) = recGen r.2 then
        (t.cacheTouch [r.1]).cacheWrite r.1 6 [BitVec.ofNat 8 (setBitN (recFlags (t.cacheRec r.1)) 1 false)] else t.cacheTouch [r.1])
      ((s.modNvm (fun x => { x with flush := none, lines := x.lines.filter (fun l => l != f.place) })).logPut f.place
        (f.recs.map (·.2)))).serveReads := by
  simp only [State.flushEnd, hf]

theorem execPstoreFlush_begins (hw : s.works = true) (hen : s.on rPSTORE fPSTORE_EN = true) (hf : s.nvm.flush = none) :
    execPstoreFlush s = .next s.begin.flushBegin := by
  have hnone : ¬ s.nvm.flush.isSome = true := by rw [hf]; exact Bool.false_ne_true
  exact congrArg Host.Outcome.next ((guard_true (s := s.begin) (State.pstore_flushes hw hen) _).trans (if_neg hnone))

theorem execPstoreFlush_ends {f : FlushSt} (hw : s.works = true) (hen : s.on rPSTORE fPSTORE_EN = true) (hf : s.nvm.flush = some f) :
    execPstoreFlush s = .next s.begin.flushEnd := by
  have hsome : s.nvm.flush.isSome = true := by rw [hf]; rfl
  exact congrArg Host.Outcome.next ((guard_true (s := s.begin) (State.pstore_flushes hw hen) _).trans (if_pos hsome))

end

/-- Settles O59: the writes past their checks, the rails by the phase that they are in, the flush by its two steps (log entry 92). -/
theorem powerCommandsComplete : Obligations.PowerCommandsComplete := by
  unfold Obligations.PowerCommandsComplete
  refine ⟨?off, ?on, ?powered, ?config, ?failed, ?mode, ?settled, ?pgRise, ?pgDrop, ?pgTimeout, ?flushBegins, ?flushEnds⟩
  case off =>
    intro who n s h
    exact congrArg Host.Outcome.next (write_ok h _)
  case on =>
    intro who n s h
    exact congrArg Host.Outcome.next (write_ok h _)
  case powered =>
    intro n s h
    exact congrArg Host.Outcome.next (guard_true (s := s.begin) (beq_iff_eq.mpr h) _)
  case config =>
    intro who w s h
    exact congrArg Host.Outcome.next (write_ok h _)
  case failed =>
    intro d r s hb
    exact execRegulatorTransactionDone_failed (d := d) hb
  case mode =>
    intro d r n s hb hp hn
    exact execRegulatorTransactionDone_mode hb hp hn
  case settled =>
    intro r s hp hpg
    exact congrArg Host.Outcome.next (guard_true (s := s.begin) (State.settles_without_pg hp hpg) _)
  case pgRise =>
    intro r s hp hpg
    exact execPgRise_settles hp hpg
  case pgDrop =>
    intro r s hh _ _ ha hr
    exact execPgDrop_reports hh ha hr
  case pgTimeout =>
    intro r s hp hpg hl
    exact congrArg Host.Outcome.next (guard_true (s := s.begin) (State.awaits_pg hp hpg hl) _)
  case flushBegins =>
    intro s s0 d l hw hen hf h0 hl hd hne
    exact (execPstoreFlush_begins hw hen hf).trans (congrArg Host.Outcome.next (State.flushBegin_copies (s := s.begin) h0 hl hd hne))
  case flushEnds =>
    intro s f hw hen hf
    exact (execPstoreFlush_ends hw hen hf).trans (congrArg Host.Outcome.next (State.flushEnd_eq (s := s.begin) hf))

end Sys2Proof.Machine
end
